-- ==== Sys2Proof/Word.lean ====
section
/-! DEFINITION. The words of the machine: the native word is 32 bits (R6); memories are addressed in bytes. -/
namespace Sys2Proof

/-- A byte. -/
abbrev Byte := BitVec 8

/-- The native word of registers, sample words and Seif data (R6). -/
abbrev Word := BitVec 32

end Sys2Proof
end

