-- ==== Sys2Proof/Syntax.lean ====
section
/-! DEFINITION. The commands of the block: one constructor per row of spec/opcode_table.json, in its order, with the
operands of the row. A row that the device performs by itself at an instant carries that instant, a tick of SAMPLE_TIME,
as its first operand `t`; what the device measures there comes as operands too. -/
namespace Sys2Proof

/-- Why the PCIe link was reset (R29). -/
inductive LinkResetCause where
  | linkDown | hotReset | d3Return
deriving DecidableEq, Repr

/-- What the root complex has written to the MSI capability in configuration space (R25, R60, R61): MSI Enable, log2 of the vectors
granted, and the per-vector mask bits. -/
structure MsiConfig where
  enable : Bool
  granted : BitVec 3
  mask : Word
deriving DecidableEq, Repr

/-- What the error-correcting code finds in a word read from DRAM (R416, R417). -/
inductive EccResult where
  | clean | corrected | uncorrectable
deriving DecidableEq, Repr

/-- The kernels of link firmware that the dispatcher grants (R282); the predistortion kernel computes the 32 taps of a port
(R164). -/
inductive KernelJob where
  | noiseMap
  | predistortion (port : Fin 16) (taps : List (BitVec 18))
  | powerQuality
deriving DecidableEq, Repr

/-- What the carrier-sense detector of a transmit channel reads over CCA_US: the port, the channel definition and the mean
power in 0.5 dB below full scale, referred to PGA code 0 (R198). -/
structure ChannelSense where
  port : Fin 16
  ch : Fin 16
  level : Nat
deriving DecidableEq, Repr

/-- Where the adaptation of the cancellers stands at the end of a transmission (R89): the analog replica's gain and delay,
and the echo taps. -/
structure EchoResult where
  gain : BitVec 16
  delay : BitVec 8
  taps : List (BitVec 24)
deriving DecidableEq, Repr

/-- What the pilot of a check has measured (R91): the pilot's amplitude at the RX pins in µV, the amplitude of its current at the
LPn_ISNS converter in 1/256 code, and where it left the adaptation of the cancellers (R89). -/
structure PilotResult where
  rx : BitVec 24
  isns : BitVec 24
  echo : EchoResult
deriving DecidableEq, Repr

/-- The samples of a port in a phase bin, or in a 1 ms tick while the timebase is OFF: the largest magnitude, and the tick of the
last sample above UP_THRESH (R84). -/
structure PortPeak where
  peak : BitVec 16
  loud : Option Nat
deriving DecidableEq, Repr

/-- The 1 ms figures of transmit synthesis and of the port's current converter (R172, R88): DAC_RMS; the mean product of the DAC
code, in 1/32,768 of full scale, and the current code; and the RMS, mean and peak magnitude of the current code in 1/16 code. -/
structure EnergyFigures where
  dacRms : BitVec 16
  product : BitVec 32
  rms : BitVec 16
  mean : BitVec 16
  peak : BitVec 16
deriving DecidableEq, Repr

/-- A frame that link firmware composes of its own accord (R226): a SCHEDULE frame on a transmit channel, with the endpoints and the
delays in ms that its entries give, or a TEST frame to an endpoint. -/
inductive FwFrame where
  | schedule (port txch : Fin 16) (entries : List (BitVec 12 × BitVec 12))
  | test (ep : Fin 4096) (sec ackReq : Bool) (bytes : List Byte)
deriving DecidableEq, Repr

/-- What shows a cut (R127): the last 32 differential decisions, the first in bit 0; the tick at which the last of them ends; and
by how much the mean power over the 8 symbols that follow lies below the frozen AGC reference, in 1/16 dB. -/
structure CutFind where
  decisions : Word
  at_ : Nat
  fall : Nat
deriving DecidableEq, Repr

/-- What a replay engine makes of a transmission in its block (R176, R185), in ring time: the tick and the correlation, in
sixteenths of the ideal, of its preamble detection, T_PRE, the carrier offset in Hz, the frozen AGC reference in 1/16 dBFS, the
32 decisions at T_SYNC, the first in bit 0, the PHY header word, the SNR in 0.25 dB, the error powers of the symbols after the sync
word in 1/16 dBFS, and the soft values of the data field. -/
structure ReplayFind where
  detAt : Nat
  corr : Nat
  tPre : Nat
  carrier : BitVec 16
  agc : BitVec 16
  decisions : Word
  tSync : Nat
  word : Word
  snr : BitVec 16
  errs : List (BitVec 16)
  soft : List (BitVec 4)
deriving DecidableEq, Repr

/-- A transmit token, or an acknowledgement reservation (R392, R394): the device at its position, the feeder and the band,
the class, and the port, queue and tag that it serves there. -/
structure Token where
  dev : Nat
  feeder : Nat
  centre : Nat
  rate : Nat
  cls : Nat
  ack : Bool
  port : Nat
  /-- When it was claimed. -/
  at_ : Nat
  /-- Planned end of the transmission it serves, 0 where none is planned. -/
  planned : Nat
deriving DecidableEq, Repr


/-- What a loop output's readback shows over an update (R326, R329): the code of the readback converter, ±1.25 V across the loop
sense resistor, the voltage at LOOPn_VMON in mV, behind the 1:20 divider, and whether LOOPn_DRV stood at its limit. -/
structure LoopReadback where
  code : BitVec 16
  vmon : BitVec 16
  atLimit : Bool
deriving DecidableEq, Repr

/-- A time mark as it arrives (R383, R386): the master's SAMPLE_TIME at its departure, its MODE, RING_SIZE_M1 and ZONE_ID,
the hop count, whether a second master has been seen, and how far the device's own SAMPLE clock stands into its tick at the
mark's arrival, in 1/16 tick. -/
structure TimeMark where
  time : Nat
  mode : Nat
  sizeM1 : Nat
  zone : Nat
  hops : Nat
  otherRoot : Bool
  frac : Fin 16
deriving DecidableEq, Repr

/-- A timebase beacon (R387): cycle count, SAMPLE_TIME of the half-cycle start, tracking state and frequency. -/
structure Beacon where
  cycle : Nat
  time : Nat
  state : Nat
  freq : Nat
deriving DecidableEq, Repr

/-- A data field that a slave of a DEEPEN ring decoded (R396): the slave's engine, the master's port, the channel, the PHY
header word, T_SYNC and T_PRE in SAMPLE_TIME, the SNR in 0.25 dB, and the field's bytes. -/
structure RingField where
  eng : Nat
  port : Nat
  centre : Nat
  rate : Nat
  sync : Nat
  alarm : Bool
  word : Word
  tSync : Nat
  tPre : Nat
  snr : Nat
  field : List Byte
deriving DecidableEq, Repr

/-- The outcome of DRAM training (R409, R410): whether each channel trained and the density in GB that it read, and, with
RATE_8533 set, whether training at that rate failed and ran again at 6,400 MT/s (R419). -/
structure DramTraining where
  ok : List Bool
  density : List Nat
  fellBack : Bool
deriving DecidableEq, Repr

/-- The commands. -/
inductive Instr where
  /-- PCIE_LONG_READ: A PCIe memory read longer than one DW completes with Unsupported Request status (R26) -/
  | pcieLongRead (addr : BitVec 24) (ndw : Nat)
  /-- PCIE_BAD_WRITE: A PCIe write longer than one DW, or with byte enables other than 0xF, is dropped whole and HIF.BAD_WR_CNT is incremented (R26) -/
  | pcieBadWrite (addr : BitVec 24) (ndw : Nat) (be : BitVec 4)
  /-- PCIE_LINK_RESET: A PCIe link-down, hot reset or return from D3hot resets only the endpoint, discards any open push and keeps any open record (R29) -/
  | pcieLinkReset (cause : LinkResetCause)
  /-- PCIE_D3HOT_ENTRY: In D3hot the endpoint answers only configuration requests while the blocks keep running (R28) -/
  | pcieD3hotEntry
  /-- WRITE: SPI command 0x02 writes data words on one line from a 24-bit address, advancing or holding the address under R32 (R30) -/
  | write (addr : BitVec 24) (data : List Word) (tail : Fin 4)
  /-- WRITE_QUAD: SPI command 0x32 writes data words on four lines from a 24-bit address (R30) -/
  | writeQuad (addr : BitVec 24) (data : List Word) (tail : Fin 4)
  /-- READ: SPI command 0x0B returns, for each word, wait bytes, the marker 0xA5 and 4 data bytes on one line (R33) -/
  | read (addr : BitVec 24) (words : Nat)
  /-- READ_QUAD: SPI command 0xEB reads as READ on four lines (R33) -/
  | readQuad (addr : BitVec 24) (words : Nat)
  /-- STATUS: SPI command 0x05 returns the status byte and then clears WR_OVF, RD_TIMEOUT, FRAME_ERR and CMD_ERR (R36) -/
  | status
  /-- TARGET_RESET: SPI command 0x99 resets the SPI target and empties its write buffer (R30) -/
  | targetReset
  /-- SPI_UNKNOWN_OPCODE: An unknown SPI opcode is ignored for the rest of the command and CMD_ERR is set (R35) -/
  | spiUnknownOpcode (opcode : Byte) (tail : Fin 4)
  /-- RD_TIMEOUT: When no data is ready 4 us after the address or previous word, the target sends 0xE1 and zeros, sets RD_TIMEOUT and ends the read (R33) -/
  | rdTimeout (later : Nat)
  /-- XING_TIMEOUT: A handshake into a SAMPLE, CAV or DRAM domain not finished within 2 us is abandoned; reads return 0xFFFF_FFFF and writes are dropped (R40) -/
  | xingTimeout (isRead : Bool)
  /-- REGISTER_WRITE: A host write to a register field without a row of its own acts under its access code (R11) -/
  | registerWrite (addr : BitVec 24) (value : Word)
  /-- RWS_WRITE: A write to an RWS field stores the shadow value and makes the page DIRTY, or is refused or dropped by state (R45) -/
  | rwsWrite (page : Fin 512) (off : BitVec 12) (value : Word)
  /-- COMMIT_APPLY: COMMIT 0x1 accepts a consistent shadow set and arms it, or refuses an inconsistent set whole (R45) -/
  | commitApply (page : Fin 512)
  /-- COMMIT_DISCARD: COMMIT 0x2 copies the active set to shadow, cancelling an armed set (R45) -/
  | commitDiscard (page : Fin 512)
  /-- SAFE_POINT: At the block's safe point an armed set is applied, TICK recorded, APPLY_CNT incremented and COMMIT_APPLIED set (R45) -/
  | safePoint (t : Nat) (page : Fin 512)
  /-- SOFT_RESET: Writing CTRL.SOFT_RESET returns a block's status, events, counters and internal state to reset, keeping configuration and cancelling an armed commit (R44) -/
  | softReset (page : Fin 512)
  /-- CTRL_ENABLE: Writing CTRL.ENABLE starts or idles the MTB, LPT, MIR, CAV or UART block, keeping its configuration (R44) -/
  | ctrlEnable (page : Fin 512) (on : Bool)
  /-- FREEZE_CNT: Writing CTRL.FREEZE_CNT stops or restarts the counting of the page's counters (R44) -/
  | freezeCnt (page : Fin 512) (on : Bool)
  /-- EVENTS_CLEAR: A write of 1 to an EVENTS bit clears it (R50) -/
  | eventsClear (page : Fin 512) (mask : Word)
  /-- EVENT_FORCE: A write of 1 to EVENT_FORCE sets the EVENTS bit as if its condition had occurred (R50) -/
  | eventForce (page : Fin 512) (mask : Word)
  /-- CNT_SNAP: A write to CNT_SNAP copies every live counter of the page into the snapshot in one cycle (R51) -/
  | cntSnap (page : Fin 512)
  /-- BIND: A write to a queue window's BIND sets the queue for pushes and discards any open push with PUSH_ABORTED (R54) -/
  | bind (win : Fin 64) (value : Word)
  /-- PUSH_HDR0: A write to PUSH_HDR0 opens a push, discarding any open one, or reports NOT_BOUND (R52) -/
  | pushHdr0 (win : Fin 64) (value : Word)
  /-- PUSH_HDR_WORD: A write to PUSH_HDR1 to PUSH_HDR3 sets a header word of the open push, or reports NO_OPEN_PUSH (R52) -/
  | pushHdrWord (win : Fin 64) (index : Fin 3) (value : Word)
  /-- PUSH_DATA: A write to PUSH_DATA appends one payload word, marking the push too long beyond 16,384 words (R52) -/
  | pushData (win : Fin 64) (value : Word)
  /-- PUSH_END: A write to PUSH_END closes the push, checks BYTES and hands the message to Wadi, which accepts or refuses it with a tag (R52) -/
  | pushEnd (win : Fin 64) (bytes : BitVec 17)
  /-- POP_HDR0: A read of POP_HDR0 with no record open opens the oldest record of the ring, or returns 0 when it is empty (R55) -/
  | popHdr0 (win : Fin 64)
  /-- POP_DATA: A read of POP_DATA returns and consumes the next payload word, or reports POP_PAST_END (R55) -/
  | popData (win : Fin 64)
  /-- RELEASE: POP_END RELEASE frees the open record, or reports NO_OPEN_POP (R55) -/
  | release (win : Fin 64)
  /-- REWIND: POP_END REWIND makes the next POP_DATA read return the first payload word again (R55) -/
  | rewind (win : Fin 64)
  /-- DRW_ADDR_WRITE: A write to DRW.ADDR_LO or ADDR_HI sets the word-window address and empties the prefetch (R58) -/
  | drwAddrWrite (high : Bool) (value : Word)
  /-- DRW_MODE_WRITE: A write to DRW.MODE sets auto-increment and empties the prefetch (R58) -/
  | drwModeWrite (value : Word)
  /-- DRW_DATA_READ: A read of DRW.DATA returns the DRAM word at the address, advances it under INC and prefetches the following words (R58) -/
  | drwDataRead (ecc : EccResult)
  /-- DRW_DATA_WRITE: A write of DRW.DATA stores the word or refuses it, advancing the address under INC (R57) -/
  | drwDataWrite (value : Word)
  /-- VEC_ACK: A write of 1 to a VEC_ACK bit clears the pending vector and re-raises it if a source is still active (R61) -/
  | vecAck (value : Word)
  /-- VEC_MASK_WRITE: A write to VEC_MASK masks or unmasks vectors, sending the message of a pending vector when it is unmasked (R61) -/
  | vecMaskWrite (value : Word)
  /-- RING_HOLD_EXPIRY: A ring record older than INT_HOLD_US makes the ring active for interrupts (R270) -/
  | ringHoldExpiry (t : Nat) (ring : Fin 64)
  /-- ZERO_CROSSING: A crossing of a timebase source is judged valid, invalid or reference, and drives acquisition, lock, tracking or relock of the phase clock (R69) -/
  | zeroCrossing (t : Nat) (src : Fin 3)
  /-- MZC_EDGE: An MZC pin edge is glitch-filtered, timestamped and compensated by MZC_DELAY to give a crossing (R68) -/
  | mzcEdge (t : Nat) (pin : Fin 3) (high : Bool)
  /-- REFERENCE_LOSS: No valid crossing for 1.5 held periods moves a LOCKED timebase to HOLDOVER (R70) -/
  | referenceLoss (t : Nat)
  /-- NOMINAL_ENTER: After HOLDOVER_MS in HOLDOVER the timebase moves to NOMINAL at the nominal frequency (R70) -/
  | nominalEnter (t : Nat)
  /-- ACQ_RESTART: Eight cycles after the first valid crossing without lock, acquisition restarts at the nominal frequency (R70) -/
  | acqRestart (t : Nat)
  /-- PHASE_WRAP: At each phase wrap the cycle count increments and a 16-byte record enters the timebase log (R78) -/
  | phaseWrap (t : Nat)
  /-- PHASE_BIN_BOUNDARY: The phase clock entering a new bin issues a phase-bin boundary for gain steps, noise-map reads and safe points (R66) -/
  | phaseBinBoundary (t : Nat) (peaks : List PortPeak)
  /-- ACCESS_POINT: A general half-cycle access point at ACC_PHASE offers starts to schedule frames, wake trains and phase-anchored starts (R73) -/
  | accessPoint (t : Nat) (sense : List ChannelSense)
  /-- CLASS0_ACCESS_POINT: A class-0 access point at C0_PHASE lets a ready class-0 frame start (R73) -/
  | class0AccessPoint (t : Nat) (sense : List ChannelSense)
  /-- SNAP: A write to MTB.SNAP latches SAMPLE_TIME, cycle count, phase and state in one cycle (R77) -/
  | snap
  /-- OVERLOAD: OVL_COUNT successive samples at OVL_THRESH lower the port gain at once, tag the sample and mark erasures (R83) -/
  | overload (t : Nat) (port : Fin 16) (samples : List (BitVec 16))
  /-- GAIN_STEP_UP: After UP_HOLD_MS of quiet samples and at a bin boundary the port gain rises by one code (R84) -/
  | gainStepUp (t : Nat) (port : Fin 16)
  /-- AMP_FAULT: LPn_FLT_N low for 10 us while monitored takes the port to FAULT with cause AMP_FAULT (R87) -/
  | ampFault (t : Nat) (port : Fin 16) (low : Bool) (since : Nat)
  /-- OVERCURRENT: Amplifier current above ILIM_MA for ILIM_US ramps the DAC to zero and ends the port's frames as attempts without an ack (R88) -/
  | overcurrent (t : Nat) (port : Fin 16) (since : Nat) (code : BitVec 12)
  /-- PILOT_CHECK_DUE: Every CHECK_MS in SERVICE the port starts a pilot and polarity check (R91) -/
  | pilotCheckDue (t : Nat) (port : Fin 16)
  /-- CHECK_NOW: CMD.CHECK_NOW starts a port check and resets the retry count (R93) -/
  | checkNow (port : Fin 16)
  /-- CHECK_DONE: When the pilot and polarity measurements end, the check passes or fails and the port moves state (R93) -/
  | checkDone (t : Nat) (port : Fin 16) (pilot : Option PilotResult) (residual : Option (BitVec 16))
  /-- PORT_RETRY_DUE: A port in FAULT starts a retry check when its backoff interval ends (R94) -/
  | portRetryDue (t : Nat) (port : Fin 16)
  /-- TX_AFE_ON: When the TX AFE domain comes on in SERVICE the port runs a pilot check before TX_AVAIL reads 1 (R91) -/
  | txAfeOn (t : Nat) (port : Fin 16)
  /-- ECHO_RESET: CMD.ECHO_RESET returns echo taps and analog canceller settings to fused defaults at the end of any transmission (R89) -/
  | echoReset (port : Fin 16)
  /-- PORT_SAMPLES_START: Port samples arriving take a NO_INPUT engine to HUNT (R141) -/
  | portSamplesStart (t : Nat) (port : Fin 16)
  /-- PORT_SAMPLES_STOP: A port that stops delivering samples makes its engines abandon frames and go NO_INPUT (R141) -/
  | portSamplesStop (t : Nat) (port : Fin 16)
  /-- PREAMBLE_DETECT: An engine in HUNT detects a preamble, records T_PRE and enters SYNC_SEARCH (R141) -/
  | preambleDetect (t : Nat) (eng : Fin 256) (tPre corr : Nat)
  /-- SYNC_FOUND: An engine finds the data sync word S, freezes AGC, records T_SYNC and enters HEADER (R141) -/
  | syncFound (t : Nat) (eng : Fin 256) (tSync : Nat) (agc : BitVec 16) (carrier : BitVec 16) (decisions : Word)
  /-- ACK_SYNC_FOUND: An engine finds S_ack, freezes AGC, records T_SYNC and enters ACK_BODY (R141) -/
  | ackSyncFound (t : Nat) (eng : Fin 256) (tSync : Nat) (agc : BitVec 16) (carrier : BitVec 16) (decisions : Word)
  /-- SYNC_FAIL: SYNC_WIN symbols after the last preamble-like symbol without a sync word end the search and file a report to Mirage (R136) -/
  | syncFail (t : Nat) (eng : Fin 256) (last : Nat)
  /-- HEADER_DECIDED: The PHY header decision is checked; a valid header starts the data field and an invalid one drops the copy as HDR_INVALID with a report (R116) -/
  | headerDecided (t : Nat) (eng : Fin 256) (word : Word) (errs : List (BitVec 16))
  /-- CUT_DETECT: An S_cut match followed by a 10 dB power fall ends the frame as cut, with a partial decode and a CUT report (R127) -/
  | cutDetect (t : Nat) (eng : Fin 256) (cut : CutFind) (soft : List (BitVec 4)) (errs : List (BitVec 16)) (snr : BitVec 16)
  /-- LAST_DATA_SYMBOL: At the last data symbol the engine closes the soft buffer as a trellis job and returns to HUNT (R141) -/
  | lastDataSymbol (t : Nat) (eng : Fin 256) (soft : List (BitVec 4)) (errs : List (BitVec 16)) (snr : BitVec 16) (rateErr : BitVec 16) (lost : List Nat)
  /-- ACK_BODY_DECIDED: An acknowledgement body is decoded in armed or unarmed form and passed to medium access and the frame path, or dropped as ACK_CRC_FAIL (R137) -/
  | ackBodyDecided (t : Nat) (eng : Fin 256) (single : List Byte) (robust : List Byte) (errs : List (BitVec 16))
  /-- CFG_ABORT: An engine that has not reached its frame boundary 1 s after a COMMIT abandons its frame and takes the set (R133) -/
  | cfgAbort (t : Nat) (eng : Fin 256)
  /-- ENGINE_RECALL: A lent engine recalled by its watch, Oasis or the host goes to RECALL until the next replay block boundary (R150) -/
  | engineRecall (t : Nat) (eng : Fin 256) (watch : Option Nat)
  /-- WATCH_REPORT: The preamble watch detects a preamble while its engine is busy and files a report to Mirage (R151) -/
  | watchReport (t : Nat) (eng : Fin 256) (tPre : Nat)
  /-- ENGINE_PARK: A throttle level parks engines by rank, at once at L5 and at frame end or within 50 ms at L3 and L4 (R152) -/
  | enginePark (t : Nat) (eng : Fin 256)
  /-- PARK_TIMEOUT: A frame still in progress 50 ms after the level change is abandoned and the engine parked (R152) -/
  | parkTimeout (t : Nat) (eng : Fin 256)
  /-- ENGINE_UNPARK: When the level falls, parked engines restart (R152) -/
  | engineUnpark (t : Nat) (eng : Fin 256)
  /-- TRELLIS_DECODE_DONE: A decoder finishes a job, passes the field on and takes the next waiting job by rank (R146) -/
  | trellisDecodeDone (t : Nat) (dec : Fin 16) (field : List Byte)
  /-- CELL_DATA_WRITE: A host write to NMAP.CELL_DATA writes the cell at IDX with AGE 0, advancing IDX, or is refused when OWNER is LINK (R144) -/
  | cellDataWrite (value : Word)
  /-- CELL_DATA_READ: A read of NMAP.CELL_DATA returns the cell at IDX and advances IDX under INC (R144) -/
  | cellDataRead
  /-- NMAP_KERNEL_WRITE: The noise-map kernel writes a cell, accepted when OWNER is LINK and refused and counted otherwise (R144) -/
  | nmapKernelWrite (cell : Fin 16384) (value : Word)
  /-- NMAP_AGE_TICK: Once per second every cell's AGE increments and STALE_CELLS is updated (R145) -/
  | nmapAgeTick (t : Nat)
  /-- TRANSMISSION_START: A granted transmission's first DAC sample leaves at t0 on a lane with the settings latched then (R159) -/
  | transmissionStart (t : Nat) (port : Fin 16) (lane : Fin 16)
  /-- VICTIM_CUT: A victim is cut at its first symbol boundary after the class-0 t0, silently or with S_cut, ending its run (R167) -/
  | victimCut (t : Nat) (port : Fin 16) (lane : Fin 16)
  /-- TRANSMISSION_END: A transmission's fall ends, freeing its lane, adapting the cancellers and logging its transmit mark (R100) -/
  | transmissionEnd (t : Nat) (port : Fin 16) (lane : Fin 16) (echo : EchoResult)
  /-- TX_ENERGY_REPORT: Every 1 ms transmit synthesis delivers DAC_RMS, P_LINE_MW and I_RMS_MA and updates EST_K (R172) -/
  | txEnergyReport (t : Nat) (port : Fin 16) (figures : EnergyFigures)
  /-- SLAB_WRITE: Every 1 ms the Mirage writer writes one slab of all ports at the next unpinned, unheld position and rewrites its directory entry (R173) -/
  | slabWrite (t : Nat) (samples : List (List (Option (BitVec 16)))) (ue : List Nat)
  /-- REPLAY_JOB_START: A queued replay job starts on a lent engine, holding its slabs, or ends RING_LOST or COPY_MISSING when its window is gone (R181) -/
  | replayJobStart (t : Nat) (eng : Fin 256)
  /-- REPLAY_BLOCK_BOUNDARY: At each replay block boundary credit is asked for the next block, recalled engines return and finished jobs end (R180) -/
  | replayBlockBoundary (t : Nat) (eng : Fin 256) (finds : List ReplayFind) (dump : List Byte) (ue : List Nat)
  /-- COMBINE_DONE: The combining kernel forms one field from all copies held and sends it to the trellis pool (R186) -/
  | combineDone (t : Nat) (slot : Fin 512)
  /-- SLOT_TIMEOUT: A combine slot is freed 1 s after its run's final copy once its jobs have ended, counting COMBINE_FAIL when undelivered (R187) -/
  | slotTimeout (t : Nat) (slot : Fin 512)
  /-- PIN: PIN_CMD PIN pins a region's span of slabs, or is refused by state, range or limit (R192) -/
  | pin (region : Fin 16)
  /-- UNPIN: PIN_CMD UNPIN clears PINNED on the region's slabs and frees the region (R192) -/
  | unpin (region : Fin 16)
  /-- LOOKUP: A write to LOOKUP returns the ring position of the slab holding a tick, or FOUND 0 (R195) -/
  | lookup (high : Bool) (value : Word)
  /-- DIAG_GO: DIAG_CMD GO queues a diagnostic replay as a rank-5 job, or is refused by state or range (R196) -/
  | diagGo
  /-- DIAG_ABORT: DIAG_CMD ABORT ends a running diagnostic order at its next block boundary (R196) -/
  | diagAbort
  /-- SLOT_BOUNDARY: At each 1 ms slot boundary backoff counts down and due starts are checked against sensing, dwell, windows, lanes and tokens (R199) -/
  | slotBoundary (t : Nat) (sense : List ChannelSense) (peaks : List PortPeak)
  /-- ACK_START: An owed acknowledgement starts at t_end + 2.000 ms, or is not sent for cutoff, guard or level (R205) -/
  | ackStart (t : Nat) (eng : Fin 256)
  /-- ACK_WINDOW_CLOSE: An acknowledgement window closes without the answer, ending the attempt and scheduling a retry or FAILED_NOACK (R207) -/
  | ackWindowClose (t : Nat) (queue : Fin 8192) (tag : BitVec 16)
  /-- WAKE_FRAME_DUE: A later wake frame starts WAKE_GAP_MS after the previous, or is skipped when its lane or level is missing (R213) -/
  | wakeFrameDue (t : Nat) (ep : Fin 4096)
  /-- WAKE_DATA_DUE: The data frame after a train is sensed at its promised instant and started or held up to WAKE_HOLD_SLOTS (R216) -/
  | wakeDataDue (t : Nat) (ep : Fin 4096) (sense : List ChannelSense)
  /-- FRAME_PATH_RECEIVE: A decoded frame copy is taken through the class, filter, echo, security, MIC, counter and duplicate steps and delivered, acknowledged or dropped (R223) -/
  | framePathReceive (t : Nat)
  /-- HELLO_RECEIVED: Link firmware stores a HELLO's parameters, handles a new BOOT and sends ASSIGN (R239) -/
  | helloReceived (t : Nat)
  /-- ENDPOINT_SILENT: An ACTIVE endpoint without contact for SILENT_S becomes SILENT (R239) -/
  | endpointSilent (t : Nat) (ep : Fin 4096)
  /-- NEIGHBOUR_RECEIVED: Link firmware learns routes from a NEIGHBOUR frame (R238) -/
  | neighbourReceived (t : Nat)
  /-- REPORT_RECEIVED: A REPORT with AUTH_REJECT marks the named SEQ so its message can end FAILED_AUTH (R240) -/
  | reportReceived (t : Nat)
  /-- TEST_RECEIVED: Link firmware receives a TEST frame (R226) -/
  | testReceived (t : Nat)
  /-- SESS_OPEN_RECEIVED: A received SESS_OPEN is accepted with a reservation and ACCEPT, or answered REFUSE (R242) -/
  | sessOpenReceived (t : Nat)
  /-- SEG_RECEIVED: A received SEG is written under the bit rule or dropped, with SACKs sent as required (R243) -/
  | segReceived (t : Nat) (ue : List Nat)
  /-- SACK_RECEIVED: A non-stale SACK updates the sender's record, counting contradictions and completing the session (R245) -/
  | sackReceived (t : Nat) (ue : List Nat)
  /-- SESS_ACCEPT_RECEIVED: A SESS_CTRL ACCEPT takes an OPENING sender to SENDING with the granted window (R246) -/
  | sessAcceptReceived (t : Nat) (ue : List Nat)
  /-- SESS_REFUSE_RECEIVED: A SESS_CTRL REFUSE closes an OPENING session with PEER_REFUSED (R246) -/
  | sessRefuseReceived (t : Nat)
  /-- SESS_QUERY_RECEIVED: A SESS_CTRL QUERY is answered with a SACK with ANSWER set (R243) -/
  | sessQueryReceived (t : Nat)
  /-- SESS_ABORT_RECEIVED: A SESS_CTRL ABORT closes the session with the outcome from its reason (R246) -/
  | sessAbortReceived (t : Nat)
  /-- SACK_WAIT_EXPIRY: No SACK within SACK_WAIT_MS sends a QUERY, suspending after QUERY_LIMIT queries (R244) -/
  | sackWaitExpiry (t : Nat) (handle : BitVec 16)
  /-- PROBE_EXPIRY: PROBE_S after the last query a SUSPENDED sender sends QUERY again (R246) -/
  | probeExpiry (t : Nat) (handle : BitVec 16)
  /-- SESSION_HOLD_EXPIRY: A session silent or suspended for HOLD_S closes with PEER_LOST (R246) -/
  | sessionHoldExpiry (t : Nat) (handle : BitVec 16)
  /-- LNK_NOP: Mailbox NOP returns FW_VERSION (R250) -/
  | lnkNop (tag : Byte)
  /-- LNK_HALT: Mailbox HALT stops link firmware under R17 (R250) -/
  | lnkHalt (tag : Byte)
  /-- EP_ADD: Mailbox EP_ADD creates an endpoint record on a slot (R250) -/
  | epAdd (tag : Byte)
  /-- EP_REMOVE: Mailbox EP_REMOVE aborts the endpoint's sessions and frees its slot (R239) -/
  | epRemove (tag : Byte)
  /-- EP_QUERY: Mailbox EP_QUERY returns an endpoint's state, counters, last contact and route (R250) -/
  | epQuery (tag : Byte)
  /-- KEY_SET: Mailbox KEY_SET binds a key to a slot's endpoint and resets its counters and cache (R250) -/
  | keySet (tag : Byte)
  /-- SESS_SEND: Mailbox SESS_SEND computes the object check and opens a session to the endpoint (R250) -/
  | sessSend (tag : Byte) (ue : List Nat)
  /-- SESS_CANCEL: Mailbox SESS_CANCEL sends ABORT CANCELLED and closes the session (R250) -/
  | sessCancel (tag : Byte)
  /-- SESS_QUERY: Mailbox SESS_QUERY returns a session's state, BASE and segments held (R250) -/
  | sessQuery (tag : Byte)
  /-- SESS_RELEASE: Mailbox SESS_RELEASE frees a session's object (R250) -/
  | sessRelease (tag : Byte)
  /-- ROUTE_QUERY: Mailbox ROUTE_QUERY returns an endpoint's downlink relays (R250) -/
  | routeQuery (tag : Byte)
  /-- ROUTE_SET: Mailbox ROUTE_SET sets, and optionally pins, an endpoint's route and sends ASSIGN (R250) -/
  | routeSet (tag : Byte)
  /-- UNKNOWN_CMD: An unassigned mailbox opcode is answered UNKNOWN_CMD (R250) -/
  | unknownCmd (opcode : Byte) (tag : Byte)
  /-- EVT_DATA_READ: A read of EVT_DATA returns the next word of the link-firmware event FIFO (R251) -/
  | evtDataRead
  /-- LNK_WATCHDOG_EXPIRY: No link-firmware heartbeat for WD_MS stops link firmware and enters the hardware-fallback regime, pausing classes 1 to 3 (R17) -/
  | lnkWatchdogExpiry (t : Nat)
  /-- LNK_FAULT: A link-firmware fault stops it and enters the hardware-fallback regime (R17) -/
  | lnkFault (t : Nat)
  /-- LNK_REPORTS_RUNNING: Link firmware reports running, moving medium access to NORMAL and lifting LNK_PAUSE (R209) -/
  | lnkReportsRunning (t : Nat) (version : Word)
  /-- COST_TABLE_LOAD: Link firmware replaces the fused cost table with calibrated values (R287) -/
  | costTableLoad (rates : List (BitVec 16))
  /-- OPEN: WQD command OPEN makes a queue accept pushes (R254) -/
  | openQueue
  /-- CLOSE: WQD command CLOSE refuses further pushes and ends waiting messages CANCELLED_HOST (R254) -/
  | closeQueue
  /-- PAUSE: WQD command PAUSE sets HOST_PAUSE so no new attempt starts (R254) -/
  | pauseQueue
  /-- RESUME: WQD command RESUME clears HOST_PAUSE (R254) -/
  | resumeQueue
  /-- FLUSH: WQD command FLUSH ends every waiting message CANCELLED_HOST (R254) -/
  | flushQueue
  /-- CANCEL: WQD command CANCEL ends the tagged message or stops it after its current attempt (R264) -/
  | cancelMsg (tag : BitVec 16)
  /-- EXPIRED_DEADLINE: A class-1 message whose deadline passes while not on the line ends EXPIRED_DEADLINE (R263) -/
  | expiredDeadline (t : Nat) (queue : Fin 8192) (tag : BitVec 16)
  /-- REFUSED_BUDGET: A class-2 or class-3 message that has shown BUDGET for BUDGET_WAIT_MS ends REFUSED_BUDGET (R263) -/
  | refusedBudget (t : Nat) (queue : Fin 8192) (tag : BitVec 16)
  /-- COMPLETION_RECORD_WRITE: A message's completion record is written to its ring within 1 ms of the outcome, or when room frees (R267) -/
  | completionRecordWrite (t : Nat) (ring : Fin 64)
  /-- LOSS_RECORD_WRITE: As soon as a full ring frees an entry, a LOSS record is written before any other record (R269) -/
  | lossRecordWrite (t : Nat) (ring : Fin 64)
  /-- CREDIT_WINDOW: At each 1 ms window boundary Oasis recomputes FREE, updates line tokens and redispatches ready jobs (R281) -/
  | creditWindow (t : Nat) (ue : List (Nat × Nat × Nat))
  /-- DISPATCH: A ready job is granted or refused by class order against the credit and line budgets (R283) -/
  | dispatch (t : Nat) (ready : Option KernelJob) (ue : List (Nat × Nat × Nat))
  /-- RAIL_SAMPLE: Every 100 us Oasis samples the nine rails and updates window power and P_TOTAL (R279) -/
  | railSample (t : Nat) (ma : List Nat) (mv : List Nat)
  /-- RAIL_HOLD_EXPIRY: One second after a VCORE excursion ends the rail level hold is released (R293) -/
  | railHoldExpiry (t : Nat)
  /-- THERMAL_SAMPLE: Every 100 us Oasis reads the 16 sensors, judges their validity and raises the thermal level (R280) -/
  | thermalSample (t : Nat) (readings : List Int)
  /-- THERMAL_STEP_DOWN: After STEP_DOWN_MS below threshold less hysteresis the thermal level falls by one (R291) -/
  | thermalStepDown (t : Nat)
  /-- CAP_LEVEL_UP: P_TOTAL above CAP_MW for CAP_OVER_MS raises the cap level by one, at most L4 (R292) -/
  | capLevelUp (t : Nat)
  /-- CAP_LEVEL_DOWN: P_TOTAL below CAP_MW less hysteresis for CAP_HOLD_MS lowers the cap level by one (R292) -/
  | capLevelDown (t : Nat)
  /-- SPRINT_DEMAND_TIMEOUT: No sprint demand for 100 ms ends sprint (R296) -/
  | sprintDemandTimeout (t : Nat)
  /-- AMP_SENSOR_TIMEOUT: An amplifier RTD channel with no output for 1 s sets f to 0.5 and AMP_SENSOR_FAULT (R289) -/
  | ampSensorTimeout (t : Nat) (port : Fin 16)
  /-- DOMAIN_WAKE_START: Oasis starts waking the next waiting domain in priority order after the stagger (R277) -/
  | domainWakeStart (t : Nat)
  /-- DOMAIN_WAKE_DONE: A domain finishes its 8 us wake and is on (R277) -/
  | domainWakeDone (t : Nat)
  /-- DOMAIN_SWITCH_OFF: Oasis switches an idle domain off, keeping its configuration and any armed commit (R278) -/
  | domainSwitchOff (t : Nat) (domain : Fin 152)
  /-- MODE_SERVICE: MODE_CMD SERVICE wakes the domains and restarts link firmware (R297) -/
  | modeService
  /-- MODE_STANDBY: MODE_CMD STANDBY stops link firmware, switches domains off and puts DRAM in self-refresh, or is refused (R297) -/
  | modeStandby
  /-- MODE_DEEP_SLEEP: MODE_CMD DEEP_SLEEP switches every domain off except the AON domain (R297) -/
  | modeDeepSleep
  /-- SENSE_SLOT_START: A rotating group switches to the next input of its mask and its FOLLOW sources with it (R300) -/
  | senseSlotStart (t : Nat) (group : Fin 8)
  /-- SETTLE_DONE: After SETTLE modulator clocks the group's decimator channel starts from an empty filter on its grid (R302) -/
  | settleDone (t : Nat) (group : Fin 8)
  /-- RANGE_OVERLOAD: A modulator input beyond 105 % for 2 clocks lowers the range code under autorange or marks OVERRANGE (R303) -/
  | rangeOverload (t : Nat) (input : Fin 32) (first second : BitVec 22)
  /-- COMPLIANCE_LOSS: An excitation source that cannot hold its current sets COMPLIANCE and its input reports OPEN at once (R305) -/
  | complianceLoss (t : Nat) (source : Fin 4) (need vsns : BitVec 16)
  /-- OPEN_CHECK_DUE: Every CHECK_MS an open check runs on inputs with OPEN_CHECK set (R309) -/
  | openCheckDue (t : Nat) (input : Fin 32)
  /-- SNS_CHECK_NOW: A write to SNS.CHECK_NOW checks the named inputs now (R309) -/
  | snsCheckNow (inputs : BitVec 32)
  /-- OPEN_CHECK_DONE: The check output is judged and the input reported OPEN or passing (R309) -/
  | openCheckDone (t : Nat) (input : Fin 32) (mv : BitVec 16)
  /-- COMMON_MODE_SHORT: A leg outside the common-mode range for 10 ms reports SHORT (R310) -/
  | commonModeShort (t : Nat) (input : Fin 32) (since : Nat) (pMv nMv : BitVec 16)
  /-- SHORT_CLEAR: SHORT clears after 1 s without the condition (R312) -/
  | shortClear (t : Nat) (input : Fin 32)
  /-- REVERSE_CHECK_DONE: After 4 mains cycles a CURRENT input's phase against its reference is judged and REVERSED reported (R311) -/
  | reverseCheckDone (t : Nat) (input : Fin 32) (angle : BitVec 16) (amplitude : Nat)
  /-- BLANK_ACTIVATE: A SNS_BLANK pin activating edge opens a blanking window for its groups and ports (R307) -/
  | blankActivate (t : Nat) (pin : Fin 2) (since : Nat) (level : Bool)
  /-- BLANK_RELEASE: A SNS_BLANK releasing edge starts the post-guard (R307) -/
  | blankRelease (t : Nat) (pin : Fin 2) (since : Nat) (level : Bool)
  /-- BLANK_WINDOW_END: At the end of the post-guard the window closes and PAUSE groups restart their channels (R307) -/
  | blankWindowEnd (t : Nat) (pin : Fin 2)
  /-- BLANK_STUCK: A window open for BLANK_MAX_MS is ended and the pin ignored until inactive (R308) -/
  | blankStuck (t : Nat) (pin : Fin 2)
  /-- DETECTOR_WINDOW_END: At each half-cycle or 10 ms window the detectors compute RMS and judge their KIND (R313) -/
  | detectorWindowEnd (t : Nat)
  /-- DECIMATOR_OUTPUT: A channel emits a sample word at its grid instant to its internal consumers, capture and the Seif route (R315) -/
  | decimatorOutput (t : Nat) (ch : Fin 32) (value : BitVec 22) (peak : BitVec 22) (volts : BitVec 16) (lost : Bool)
  /-- DSYNC_PIN: DSYNC low for two ticks is recognised and every decimator resets at T_R (R320) -/
  | dsyncPin (t : Nat) (since : Nat)
  /-- DSYNC: CMD.DSYNC resets every decimator at the second tick after the write (R320) -/
  | dsync
  /-- CAP_DATA_READ: A read of CAP_DATA returns the next capture word (R325) -/
  | capDataRead
  /-- CAP_FLUSH: CMD.CAP_FLUSH empties capture (R325) -/
  | capFlush
  /-- LOOP_UPDATE: At each 1 ms tick each loop computes its current, judges source fault and wiring and writes its DAC (R328) -/
  | loopUpdate (t : Nat) (readback : List LoopReadback)
  /-- FORCE_FAULT: LOOP CMD FORCE_FAULT forces the fault level on a loop (R328) -/
  | forceFault (loops : BitVec 2)
  /-- FORCE_RELEASE: LOOP CMD RELEASE releases a forced fault (R328) -/
  | forceRelease (loops : BitVec 2)
  /-- HOST_VALUE_WRITE: A write to HOST_VALUEn renews the loop's host source value (R327) -/
  | hostValueWrite (loop : Fin 2) (value : Word)
  /-- SEIF_RUN: Seif CMD RUN offers a customer core's start to the dispatcher (R349) -/
  | seifRun (core : Fin 32)
  /-- SEIF_HALT: Seif CMD HALT stops fetching, drains the pipeline and halts the core (R349) -/
  | seifHalt (core : Fin 32)
  /-- SEIF_STEP: Seif CMD STEP fetches and drains one instruction of a halted core (R349) -/
  | seifStep (core : Fin 32)
  /-- CLAIM: Seif CMD CLAIM asks for a core for the customer partition (R351) -/
  | claim (core : Fin 32)
  /-- CLAIM_DECISION: Link firmware grants or refuses a claim within 100 ms, clearing and reassigning a granted core (R351) -/
  | claimDecision (t : Nat) (core : Fin 32) (grant : Bool)
  /-- SEIF_RELEASE: Seif CMD RELEASE halts a customer core, clears its memories and returns it to LINK (R351) -/
  | seifRelease (core : Fin 32)
  /-- MBOX_IN_WRITE: A host write to MBOX_IN stores the value and sets the MBOX interrupt source pending (R345) -/
  | mboxInWrite (core : Fin 32) (value : Word)
  /-- SEIF_WINDOW_WRITE: A host write to a core's IM, XM or YM is stored with a one-cycle stall or refused by owner or state (R331) -/
  | seifWindowWrite (addr : BitVec 24) (value : Word)
  /-- SEIF_TIMER_TICK: Every TIMER_US the TIMER interrupt source becomes pending (R345) -/
  | seifTimerTick (t : Nat) (core : Fin 32)
  /-- INTERRUPT_ENTRY: A core takes a pending enabled interrupt, drains, saves PC and ST and fetches from VEC (R346) -/
  | interruptEntry (core : Fin 32)
  /-- ILLEGAL_INSTRUCTION: An illegal word found at DE sends the core to FAULT with cause ILLEGAL (R359) -/
  | illegalInstruction (core : Fin 32)
  /-- NOP: No compute operation; the moves execute (R361) -/
  | insNop (core : Fin 32)
  /-- MOV: Copies a D register (R361) -/
  | insMov (core : Fin 32)
  /-- CLR: Clears a D register (R361) -/
  | insClr (core : Fin 32)
  /-- ADD: Adds two D registers (R361) -/
  | insAdd (core : Fin 32)
  /-- SUB: Subtracts two D registers (R361) -/
  | insSub (core : Fin 32)
  /-- ADDQ: Adds a 7-bit signed immediate to a D register (R361) -/
  | insAddq (core : Fin 32)
  /-- NEG: Negates a D register (R361) -/
  | insNeg (core : Fin 32)
  /-- ABS: Takes the absolute value of a D register (R361) -/
  | insAbs (core : Fin 32)
  /-- MIN: Takes the signed smaller of two D registers (R361) -/
  | insMin (core : Fin 32)
  /-- MAX: Takes the signed larger of two D registers (R361) -/
  | insMax (core : Fin 32)
  /-- CMP: Sets flags from the difference of two D registers (R361) -/
  | insCmp (core : Fin 32)
  /-- TST: Sets flags from a D register (R361) -/
  | insTst (core : Fin 32)
  /-- AND: Bitwise AND of two D registers (R361) -/
  | insAnd (core : Fin 32)
  /-- OR: Bitwise OR of two D registers (R361) -/
  | insOr (core : Fin 32)
  /-- XOR: Bitwise XOR of two D registers (R361) -/
  | insXor (core : Fin 32)
  /-- NOT: Bitwise complement of a D register (R361) -/
  | insNot (core : Fin 32)
  /-- ASL: Arithmetic left shift by an immediate (R361) -/
  | insAsl (core : Fin 32)
  /-- ASR: Arithmetic right shift by an immediate, truncating (R361) -/
  | insAsr (core : Fin 32)
  /-- LSR: Logical right shift by an immediate (R361) -/
  | insLsr (core : Fin 32)
  /-- ASHV: Shifts left or right by a signed register count (R361) -/
  | insAshv (core : Fin 32)
  /-- NORM: Counts the redundant sign bits of a D register (R361) -/
  | insNorm (core : Fin 32)
  /-- SXT16: Sign-extends the low 16 bits of a D register (R361) -/
  | insSxt16 (core : Fin 32)
  /-- MPY: Multiplies the I halves of two registers to Q31 (R361) -/
  | insMpy (core : Fin 32)
  /-- CADD: Adds two packed complex words (R362) -/
  | insCadd (core : Fin 32)
  /-- CSUB: Subtracts two packed complex words (R362) -/
  | insCsub (core : Fin 32)
  /-- CCONJ: Conjugates a packed complex word (R362) -/
  | insCconj (core : Fin 32)
  /-- CROTJ: Multiplies a packed complex word by j (R362) -/
  | insCrotj (core : Fin 32)
  /-- PACK: Packs two Q31 reals into one complex word (R362) -/
  | insPack (core : Fin 32)
  /-- CASR: Shifts each complex half right by an immediate (R362) -/
  | insCasr (core : Fin 32)
  /-- CLRA: Clears an accumulator (R363) -/
  | insClra (core : Fin 32)
  /-- LDA: Loads an accumulator's halves from two D registers (R363) -/
  | insLda (core : Fin 32)
  /-- MAC: Accumulates the product of I halves into AcR (R363) -/
  | insMac (core : Fin 32)
  /-- MSU: Subtracts the product of I halves from AcR (R363) -/
  | insMsu (core : Fin 32)
  /-- MAC2: Accumulates the I and Q products into the two halves (R363) -/
  | insMac2 (core : Fin 32)
  /-- CMPY: Sets an accumulator to a complex product (R363) -/
  | insCmpy (core : Fin 32)
  /-- CMAC: Accumulates a complex product (R363) -/
  | insCmac (core : Fin 32)
  /-- CMACJ: Accumulates a product with the conjugate of the second operand (R363) -/
  | insCmacj (core : Fin 32)
  /-- CMSU: Subtracts a complex product from an accumulator (R363) -/
  | insCmsu (core : Fin 32)
  /-- MAG2A: Accumulates the squared magnitude of a complex word into AcR (R363) -/
  | insMag2a (core : Fin 32)
  /-- ADDA: Adds one accumulator to another (R363) -/
  | insAdda (core : Fin 32)
  /-- SUBA: Subtracts one accumulator from another (R363) -/
  | insSuba (core : Fin 32)
  /-- SHA: Shifts both accumulator halves by a signed count (R363) -/
  | insSha (core : Fin 32)
  /-- EXTR: Extracts AcR narrowed to 32 bits (R363) -/
  | insExtr (core : Fin 32)
  /-- EXTI: Extracts AcI narrowed to 32 bits (R363) -/
  | insExti (core : Fin 32)
  /-- CEXT: Extracts a complex word from the two accumulator halves (R363) -/
  | insCext (core : Fin 32)
  /-- MAXX: Keeps the running maximum in AcR and its X move address in IX (R364) -/
  | insMaxx (core : Fin 32)
  /-- MAXY: Keeps the running maximum in AcR and its Y move address in IX (R364) -/
  | insMaxy (core : Fin 32)
  /-- MINX: Keeps the running minimum in AcR and its X move address in IX (R364) -/
  | insMinx (core : Fin 32)
  /-- MINY: Keeps the running minimum in AcR and its Y move address in IX (R364) -/
  | insMiny (core : Fin 32)
  /-- JMP: Jumps after the delay slot (R365) -/
  | insJmp (core : Fin 32)
  /-- CALL: Saves the return address in D15 and jumps after the delay slot (R365) -/
  | insCall (core : Fin 32)
  /-- RET: Returns to D15 after the delay slot (R365) -/
  | insRet (core : Fin 32)
  /-- RETI: Restores ST from IST and continues at IPC after the delay slot (R347) -/
  | insReti (core : Fin 32)
  /-- DO: Starts a hardware loop with an immediate count on the next free level (R343) -/
  | insDo (core : Fin 32)
  /-- DOR: Starts a hardware loop with the count in a D register (R365) -/
  | insDor (core : Fin 32)
  /-- WAIT: Enters WAITING after the delay slot until an interrupt (R365) -/
  | insWait (core : Fin 32)
  /-- STOP: Halts the core as CMD HALT would and sets EVENTS.HALTED (R365) -/
  | insStop (core : Fin 32)
  /-- LDI: Loads a 32-bit immediate into a move register (R365) -/
  | insLdi (core : Fin 32)
  /-- STSET: Sets ST bits from a mask (R365) -/
  | insStset (core : Fin 32)
  /-- STCLR: Clears ST bits from a mask (R365) -/
  | insStclr (core : Fin 32)
  /-- DATA8: A write to CRC DATA8 feeds one byte into STATE (R367) -/
  | data8 (unit : Fin 4) (value : Word)
  /-- DATA16: A write to CRC DATA16 feeds two bytes into STATE (R367) -/
  | data16 (unit : Fin 4) (value : Word)
  /-- DATA32: A write to CRC DATA32 feeds four bytes into STATE (R367) -/
  | data32 (unit : Fin 4) (value : Word)
  /-- PRESET: CRC CMD.PRESET copies a preset's parameters into the shadow set (R369) -/
  | preset (unit : Fin 4) (number : Fin 8)
  /-- RESTART: CRC CMD.RESTART loads STATE with the active INIT (R369) -/
  | restart (unit : Fin 4)
  /-- CRC_STATE_WRITE: A write to CRC STATE restores a saved computation state (R370) -/
  | crcStateWrite (unit : Fin 4) (value : Word)
  /-- UART_CHAR_RECEIVED: At the mid-stop sample a character is stored with its flags, or a false start or framing error is handled (R372) -/
  | uartCharReceived (t : Nat) (unit : Fin 4) (start : Bool) (data : Byte) (parity : Bool) (stop : Bool) (half : Bool)
  /-- BREAK: RXD low for a full character time stores one BREAK entry (R374) -/
  | break_ (t : Nat) (unit : Fin 4) (since : Nat)
  /-- LINE_STUCK: RXD low for STUCK_MS sets LINE_STUCK and may hold the receiver off (R375) -/
  | lineStuck (t : Nat) (unit : Fin 4) (since : Nat)
  /-- LINE_RECOVER: RXD high for one character time clears LINE_STUCK (R375) -/
  | lineRecover (t : Nat) (unit : Fin 4) (since : Nat)
  /-- RX_DATA_READ: A read of RX_DATA returns and removes the oldest receive entry (R376) -/
  | rxDataRead (unit : Fin 4)
  /-- TX_DATA: A write to TX_DATA queues a character, or is dropped with TX_OVF when full (R377) -/
  | txData (unit : Fin 4) (value : Byte)
  /-- UART_CHAR_SENT: A character's stop bit ends and the next character is taken from the FIFO (R377) -/
  | uartCharSent (t : Nat) (unit : Fin 4) (rxIdle : Bool)
  /-- TX_GAP_EXPIRY: After TX_GAP half-characters of idle the transmitter may start again (R377) -/
  | txGapExpiry (t : Nat) (unit : Fin 4)
  /-- DE_RELEASE: DE_LAG ticks after the last stop bit with the FIFO empty, DE is released (R378) -/
  | deRelease (t : Nat) (unit : Fin 4)
  /-- IDLE: An idle line for IDLE_GAP half-characters sets EVENTS.IDLE and marks the next character GAP (R381) -/
  | idle (t : Nat) (unit : Fin 4) (since : Nat)
  /-- AB_ARM: CMD.AB_ARM arms bit-rate measurement (R380) -/
  | abArm (unit : Fin 4)
  /-- AB_CANCEL: CMD.AB_CANCEL disarms bit-rate measurement (R380) -/
  | abCancel (unit : Fin 4)
  /-- AB_MEASURE_DONE: The expected character's edges are timed and the divisor set, or the measurement fails and stays armed (R380) -/
  | abMeasureDone (t : Nat) (unit : Fin 4) (edges : List Nat)
  /-- RX_RESUME: CMD.RX_RESUME turns the receiver back on after RX_OFF (R375) -/
  | rxResume (unit : Fin 4)
  /-- RX_FLUSH: CMD.RX_FLUSH empties the receive FIFO (R376) -/
  | rxFlush (unit : Fin 4)
  /-- TX_FLUSH: CMD.TX_FLUSH empties the transmit FIFO (R377) -/
  | txFlush (unit : Fin 4)
  /-- SEND_BREAK: CMD.SEND_BREAK holds TXD low for one character plus one bit after the current character (R377) -/
  | sendBreak (unit : Fin 4)
  /-- UART_CFG_ABORT: A UART commit not applied within 10 ms applies at the next character boundary, dropping the character in progress (R382) -/
  | uartCfgAbort (t : Nat) (unit : Fin 4)
  /-- LINK_UP: A Caravan link completes training with both lanes aligned (R385) -/
  | linkUp (t : Nat) (out : Bool) (lanes : BitVec 5) (hopNs : BitVec 32) (linkNs : BitVec 32)
  /-- LINK_DOWN: A Caravan link goes DOWN on lane loss, code violations or failed resends (R385) -/
  | linkDown (t : Nat) (out : Bool) (lanes : BitVec 5) (violations : Nat) (resends : Nat)
  /-- RETRAIN_TIMER: A DOWN link retrains every TRAIN_MS (R385) -/
  | retrainTimer (t : Nat) (out : Bool)
  /-- RING_MESSAGE_RESEND: A corrupted or unacknowledged ring message is resent within 4 us (R385) -/
  | ringMessageResend (t : Nat)
  /-- RETRAIN: CAV CMD.RETRAIN takes both links DOWN and retrains (R385) -/
  | retrain
  /-- TIME_MARK_SEND: Every 1 ms the master sends a time mark with its SAMPLE_TIME (R386) -/
  | timeMarkSend (t : Nat) (members : BitVec 8)
  /-- TIME_MARK_RECEIVE: A device receives a time mark, aligns SAMPLE_TIME and joins, rejoins or counts the ring (R386) -/
  | timeMarkReceive (t : Nat) (mark : TimeMark)
  /-- BEACON_SEND: At every half-cycle start the master sends a timebase beacon (R387) -/
  | beaconSend (t : Nat)
  /-- BEACON_RECEIVE: A slave takes phase and cycle count from a beacon at the SAMPLE_TIME it carries (R387) -/
  | beaconReceive (t : Nat) (beacon : Beacon)
  /-- DSYNC_MESSAGE: A CONNECTED slave applies a forwarded DSYNC from its modulator-bit buffer at T_R (R388) -/
  | dsyncMessage (t : Nat) (tr : Nat)
  /-- ORPHAN_TIMEOUT: A slave with no time mark for ORPHAN_US, no beacon for three half-cycles or a dead in-link becomes an orphan (R389) -/
  | orphanTimeout (t : Nat)
  /-- RING_OPEN: The master's time marks stop returning, clearing RING while it serves on (R389) -/
  | ringOpen (t : Nat)
  /-- TOKEN_CLAIM: The master receives a token claim and grants or queues it (R392) -/
  | tokenClaim (t : Nat) (token : Token)
  /-- TOKEN_GRANT: A device receives a token grant and may start (R392) -/
  | tokenGrant (t : Nat) (token : Token)
  /-- TOKEN_RELEASE: A token is released at the end of its transmission, ack window or train, letting queued claims be granted (R392) -/
  | tokenRelease (t : Nat) (token : Token)
  /-- PREEMPT: A holder of an overlapping lower-class token receives PREEMPT and cuts its transmission (R393) -/
  | preempt (t : Nat) (token : Token)
  /-- ACK_RESERVATION: A device owing an acknowledgement on a shared feeder reserves its band at the master (R394) -/
  | ackReservation (t : Nat) (token : Token)
  /-- DEEPEN_FIELD_RECEIVE: The master receives a slave-decoded data field, merges copies and runs the frame path on it (R396) -/
  | deepenFieldReceive (t : Nat) (position : Fin 8) (field : RingField)
  /-- SCLK_FAIL: SCLK_IN failing its monitor holds SAMPLEPLL and switches it to the fallback synthesiser, or stops the SAMPLE domain (R401) -/
  | sclkFail (t : Nat) (ppm : BitVec 16) (noEdge : Bool)
  /-- SAMPLE_RETURN: CMD.SAMPLE_RETURN slews SAMPLEPLL back to SCLK_IN, or is refused (R403) -/
  | sampleReturn (good : Nat)
  /-- RETURN_DONE: SAMPLEPLL locks to SCLK_IN without a phase step and CLOCK clears (R403) -/
  | returnDone (t : Nat)
  /-- XIN_LOSS: No XIN edge for 100 us holds a power-on reset until XIN returns (R404) -/
  | xinLoss (straps : BitVec 4) (bad : List Nat)
  /-- AON_FAIL: A failed 32.768 kHz input sets AON_FAIL and clears AON_OK (R404) -/
  | aonFail
  /-- POWER_ON_RESET: A supply monitor failure or XIN loss resets everything, samples straps and retrains DRAM (R406) -/
  | powerOnReset (straps : BitVec 4) (bad : List Nat)
  /-- PIN_RESET: RESET_N low for 1 us resets everything except the AON domain (R406) -/
  | pinReset (straps : BitVec 4) (bad : List Nat)
  /-- WARM: RESET_CMD WARM resets every block except always-on logic, PCIe and DRAM controllers (R406) -/
  | warm (bad : List Nat)
  /-- CHIP: RESET_CMD CHIP resets as a pin reset (R406) -/
  | chip (straps : BitVec 4) (bad : List Nat)
  /-- WDT_KICK: A write of 0x5A5A to WDT_KICK restarts the chip watchdog; other values count as bad kicks (R408) -/
  | wdtKick (value : BitVec 16)
  /-- WDT_EXPIRED: The chip watchdog expires and acts as WDT_ACTION states (R408) -/
  | wdtExpired (t : Nat) (straps : BitVec 4) (bad : List Nat)
  /-- DEEP_SLEEP_WAKE: The AON timer after DS_WAKE_S, or RESET_N, wakes the device as a deep-sleep wake reset (R434) -/
  | deepSleepWake (t : Nat) (pin : Bool) (straps : BitVec 4) (bad : List Nat)
  /-- DRAM_TRAINING_DONE: DRAM training ends, running degraded or failing, and the boot ROM writes the default region table (R409) -/
  | dramTrainingDone (t : Nat) (result : DramTraining)
  /-- SCRUB_PASS: A patrol scrub pass over every ECC word completes (R416) -/
  | scrubPass (t : Nat) (errors : List (Nat × EccResult))
  /-- DRAM_HOT: A device reporting above 105 C sets DRAM_HOT (R410) -/
  | dramHot (channel : Fin 4) (range : BitVec 3)
  /-- BOOT_IMAGE_VERIFY: The boot ROM reads and checks an image and starts it, tries the other slot or enters recovery (R421) -/
  | bootImageVerify (t : Nat) (readA : Bool) (readB : Bool)
  /-- FW_START: SEC CMD FW_START reverifies the FIRMWARE region and starts link firmware (R425) -/
  | fwStart
  /-- BOOT_HOST: SEC CMD BOOT_HOST verifies and starts a host-loaded image (R419) -/
  | bootHost
  /-- ADVANCE: SEC CMD ADVANCE raises the anti-rollback counter to FW_SVN (R423) -/
  | advance
  /-- ATTEST: SEC CMD ATTEST signs an attestation report over the nonce (R427) -/
  | attest
  /-- ATT_DONE: The attestation signature completes and ATT_DATA holds the report (R427) -/
  | attDone (t : Nat)
  /-- ATT_DATA_READ: A read of ATT_DATA returns the next word of the report and signature (R427) -/
  | attDataRead
  /-- UNLOCK_CHALLENGE: SEC CMD UNLOCK_CHALLENGE fills the challenge with 32 random bytes (R432) -/
  | unlockChallenge
  /-- TOKEN_WRITE: A write to SEC.TOKEN appends one word of the debug unlock token (R432) -/
  | tokenWrite (value : Word)
  /-- UNLOCK: SEC CMD UNLOCK starts verification of the debug token against the challenge (R432) -/
  | unlock
  /-- UNLOCK_VERIFY_DONE: Token verification ends, granting the scope or failing and spending the challenge (R432) -/
  | unlockVerifyDone (t : Nat)
  /-- FUSE_LOCK: SEC CMD FUSE_LOCK with the key blows DEBUG_LEVEL to LOCKED (R432) -/
  | fuseLock (key : BitVec 16)
  /-- RECOVERY: SEC CMD RECOVERY enters recovery while link firmware is not running (R422) -/
  | recovery
  /-- FLASH_PROGRAM: SEC CMD FLASH_PROGRAM programs the page buffer at FLASH_ADDR (R433) -/
  | flashProgram
  /-- FLASH_ERASE: SEC CMD FLASH_ERASE erases the 64 KiB sector at FLASH_ADDR (R433) -/
  | flashErase
  /-- FLASH_DONE: A flash program or erase operation ends (R433) -/
  | flashDone (t : Nat)
  /-- FLASH_DATA_READ: A read of FLASH_DATA returns the boot flash word at FLASH_ADDR (R433) -/
  | flashDataRead
  /-- FLASH_DATA_WRITE: A write to FLASH_DATA fills the page buffer (R433) -/
  | flashDataWrite (value : Word)
  /-- AUTO_FW_RESTART: 100 ms after a watchdog or fault stop, the boot ROM issues FW_START when under RESTART_MAX (R425) -/
  | autoFwRestart (t : Nat)
  /-- KEY_WRITE: KEY OP WRITE stores a key, binds ADDR and resets the slot's counters and cache, or is refused (R428) -/
  | keyWrite
  /-- KEY_CLEAR: KEY OP CLEAR unbinds a slot (R428) -/
  | keyClear
  /-- MRM_DATA_READ: A read of MRM.DATA returns an accessible MRAM word and advances ADDR (R429) -/
  | mrmDataRead (ecc : EccResult)
  /-- MRM_DATA_WRITE: A write of MRM.DATA stores a BOOT_PARAM or HOST word, or is refused (R429) -/
  | mrmDataWrite (value : Word)
  /-- HEARTBEAT: Link firmware advances LNK.HEARTBEAT, restarting the WD_MS count of its watchdog (R17) -/
  | heartbeat (t : Nat) (frames : List FwFrame)
  /-- MB_DONE: Link firmware finishes a mailbox command, writes RESULT and MB_RESP, clears BUSY and sets EVENTS.MB_DONE (R250) -/
  | mbDone (t : Nat)
  /-- LINK_CORE_START: Link firmware starts one of its own Seif cores from HALTED, which enters RUNNING under its own grant (R349) -/
  | linkCoreStart (t : Nat) (core : Fin 32)
  /-- SEIF_WINDOW_READ: A host read of a running core's XM or YM stalls the whole pipeline for one cycle and counts HOST_STALL_CNT (R331) -/
  | seifWindowRead (addr : BitVec 24)
  /-- PLL_UNLOCK: A PLL loses lock, setting CLK.EVENTS.PLL_UNLOCK and counting PLL_UNLOCK_CNT (R400) -/
  | pllUnlock (pll : Fin 5)
  /-- ENA_LEAD_START: In PER_FRAME mode LPn_ENA rises ENA_LEAD_US before a scheduled t0, including before each later copy of a run (R86) -/
  | enaLeadStart (t : Nat) (port : Fin 16)
  /-- ENA_LAG_EXPIRY: ENA_LAG_US after the port's last DAC sample, with no channel transmitting, LPn_ENA falls (R86) -/
  | enaLagExpiry (t : Nat) (port : Fin 16)
  /-- TX_MARK_END: 256 ticks after a channel's last DAC sample its transmit mark ends, engines may detect preambles again and the TX_MARK side-log record is written (R90) -/
  | txMarkEnd (t : Nat) (port : Fin 16) (lane : Fin 16)
  /-- DSYNC_RELEASE: DSYNC reads high for 2 successive ticks after a recognised DSYNC, clearing PIN_HELD and re-enabling recognition (R320) -/
  | dsyncRelease (t : Nat)
  /-- PCIE_LINK_UP: The PCIe data link becomes active and HIF.LINK_STATUS.LINK_UP sets (R29) -/
  | pcieLinkUp (msi : MsiConfig)
deriving DecidableEq, Repr

end Sys2Proof
end

