-- ==== Sys2Proof/Decode.lean ====
section
/-! DEFINITION. Decoding the words of spec/opcode_table.json. The block takes commands from outside, and the table gives the
bits of none of its rows: every row has an empty list of fields. So no word of any length spells a command. -/
namespace Sys2Proof

/-- The command that a word of `nbits` bits spells by the table's bits: the table gives no row any bits. -/
def decodeTableWord (_nbits _w : Nat) : Option Instr := none

end Sys2Proof
end

