-- ==== Sys2Proof/Machine/Operands.lean ====
section
/-! DEFINITION. The relations that the operands of a command must satisfy: what the row of the command measures or reads comes
as a list with one entry for each sensor, rail, loop or cost rate that the spec names. -/
namespace Sys2Proof.Machine

/-- COST_TABLE_LOAD: the cost table has eight entries (R287). -/
def Operands.costRates (rates : List (BitVec 16)) : Bool := decide (rates.length = 8)

/-- RAIL_SAMPLE: a current and a voltage for each of the nine rails (R279). -/
def Operands.rails (ma mv : List Nat) : Bool := decide (ma.length = 9) && decide (mv.length = 9)

/-- THERMAL_SAMPLE: a reading for each of the 16 sensors (R280). -/
def Operands.sensors (readings : List Int) : Bool := decide (readings.length = 16)

/-- LOOP_UPDATE: the readback of both loops (R329). -/
def Operands.loops (readback : List LoopReadback) : Bool := decide (readback.length = 2)

/-- The mailbox opcodes that R250 assigns. -/
def mbOpcodes : List Nat := [0x01, 0x02, 0x10, 0x11, 0x12, 0x18, 0x20, 0x21, 0x22, 0x23, 0x28, 0x29]

/-- UNKNOWN_CMD: an opcode that R250 does not assign. -/
def Operands.unassigned (opcode : Byte) : Bool := !decide (opcode.toNat ∈ mbOpcodes)

end Sys2Proof.Machine
end

