-- ==== Sys2Proof/Config.lean ====
section
/-! DEFINITION. What an implementation fixes and what the spec leaves open: constants with no body, so that no proof
can see a value of them, and every claim holds whatever they are. -/
namespace Sys2Proof.Config

/-- A fresh free number for each value of the state's counter `free`: values the spec leaves open. -/
opaque freeNat : Nat → Nat

/-- A fresh free byte string of the given length for each value of the state's counter. -/
opaque freeBytes : Nat → Nat → List Byte

/-- Fused unique device number (GLB.UID). -/
opaque uid : BitVec 64

/-- Fused analog canceller defaults of a port: CANC_GAIN and CANC_DELAY (R89). -/
opaque cancGain : Nat → BitVec 16
opaque cancDelay : Nat → BitVec 8

/-- Fused identity public key (R426): 48 bytes. -/
opaque idPub : List Byte

/-- The 24-bit grid ID (R106, R231): the operator chooses it, and the spec names no register that holds it. -/
opaque gridId : Nat

/-- The numbers by which EP_QUERY and ENDPOINT_STATE report the states of R239, and SESS_QUERY those of R246; the spec
gives the fields and not the codes. -/
opaque epCode : Nat → Nat
opaque sessCode : Nat → Nat

/-- Fused debug level (R432). -/
opaque debugLevel : Nat

/-- What selects the frequency trim of the timebase loop within its bounds, for a measured phase error (R71: the gains belong to the
device). -/
opaque mtbGain : Int → Nat

/-- The signature and hash algorithms of boot and attestation, named but not defined by the spec: SHAKE256 with an output
length, SLH-DSA signing and verification (R420, R427, R432). -/
opaque shake256 : List Byte → Nat → List Byte
opaque slhDsaSign : List Byte → List Byte
opaque slhDsaVerify : List Byte → List Byte → List Byte → Bool

/-- OTP contents and mask ROM: the hash of the image signing key (R421) and of the debug key (R432), the SHAKE256 of the boot
ROM (R427). -/
opaque imageKeyHash : List Byte
opaque debugKeyHash : List Byte
opaque bootRomHash : List Byte

/-- The temperature in °C of an RTD at a resistance in mΩ (R289: the conversion of Sense Front End, which gives no formula). -/
opaque rtdCelsius : Int → Int

/-- The unit-power waveform of a transmission at a DAC sample counted from t0, in 1/1,048,576 of full scale, for its RATE code, its
centre and the phase increments of its symbols: root-raised-cosine pulses, the ramp of symbol 0 and the fall, at the channel's
centre (R100, R101). The spec gives the pulse and the ramps and not the numbers of its DAC samples. -/
opaque laneWave : Nat → Nat → List Nat → Nat → Int

/-- The unit-power waveform of a pilot burst at a DAC sample counted from its start, likewise, for its frequency (R171). -/
opaque pilotWave : Nat → Nat → Int

/-- The envelope of an acknowledgement that is ramped to zero, in 1/1,048,576, at its last 16 DAC samples (R169). -/
opaque rampDown : Nat → Nat

end Sys2Proof.Config
end

