-- ==== Sys2Proof/Machine/Regs.lean ====
section
/-! DEFINITION. The register map of the host-visible pages, transcribed from the register tables of the chapters of
spec/: one `Fld` constant per field (page offset, lowest bit, width, array step), and one table per kind of page that
gives every field its access code (R11), its reset value, its array length and the values its own description refuses
(R13, R452). The page index is that of 02_host_interface_and_pages.md. -/
namespace Sys2Proof.Machine

/-- Access codes of register fields (R11). -/
inductive Acc where
  | rw | rws | ro | wo | w1c | rc
deriving DecidableEq, Repr

/-- A field of a page: offset of its register, lowest bit, width, and the step between the elements of an array. -/
structure Fld where
  off : Nat
  lsb : Nat
  w : Nat
  step : Nat
deriving DecidableEq, Repr

/-- A row of a register table: the field, its array length, access code, reset value, whether a 0 is refused with
ZERO_REFUSED, and the bounds outside which a value is refused with RANGE (R13, R452). -/
structure FldSpec where
  fld : Fld
  count : Nat
  acc : Acc
  reset : Nat
  noZero : Bool
  lo : Nat
  hi : Nat
deriving DecidableEq, Repr

/-- Element `i` of an array field. -/
def Fld.nth (f : Fld) (i : Nat) : Fld := { f with off := f.off + f.step * i }

/-- The kinds of page of the page index; DRC0 and PWD1 have tables of their own. -/
inductive PageKind where
  | glb | hif | clk | rst | oas | pwd0 | pwd1 | mtb | lpt | erg | ergx | trl | nmap | txs | mac | flt | dwl | mir
  | wad | wqd | lnk | sns | exc | dec | loop | crc | uart | cav | sec | key | mrm | drc0 | drc | drw | seif
deriving DecidableEq, Repr

/-! Fields of page DRW (02_host_interface_and_pages.md). -/

/-- [31:2] byte address bits 31:2; [1:0] read 0 -/
def DRW.ADDR_LO : Fld := ⟨0x010, 2, 30, 0⟩
/-- [4:0] byte address bits 36:32; [31:5] reserved -/
def DRW.ADDR_HI : Fld := ⟨0x014, 0, 5, 0⟩
/-- data port: a read returns the word at the address, a write stores one; with INC set, either advances the address by 4 -/
def DRW.DATA : Fld := ⟨0x018, 0, 32, 0⟩
/-- [0] INC: 1 auto-increment, 0 fixed address -/
def DRW.MODE : Fld := ⟨0x01C, 0, 1, 0⟩
/-- [7:0] REGION: region-table index of the current address, 0xFF if none; [8] ECC_REGION; [9] HOST_WRITABLE; [10] MIRAGE_RING -/
def DRW.STATUS : Fld := ⟨0x100, 0, 32, 0⟩
/-- event -/
def DRW.EV_WR_REFUSED : Fld := ⟨0x200, 0, 1, 0⟩
/-- event -/
def DRW.EV_CE : Fld := ⟨0x200, 1, 1, 0⟩
/-- event -/
def DRW.EV_UE : Fld := ⟨0x200, 2, 1, 0⟩
/-- event -/
def DRW.EV_OUT_OF_RANGE : Fld := ⟨0x200, 3, 1, 0⟩
/-- bits 31:2 of the address of the last uncorrectable error -/
def DRW.UE_ADDR_LO : Fld := ⟨0x210, 0, 32, 0⟩
/-- [4:0] bits 36:32 of that address -/
def DRW.UE_ADDR_HI : Fld := ⟨0x214, 0, 32, 0⟩
/-- refused writes -/
def DRW.WR_REFUSED_CNT : Fld := ⟨0x300, 0, 32, 0⟩
/-- corrected ECC errors seen by the window -/
def DRW.CE_CNT : Fld := ⟨0x304, 0, 32, 0⟩
/-- uncorrectable ECC errors seen by the window -/
def DRW.UE_CNT : Fld := ⟨0x308, 0, 32, 0⟩
/-! Fields of page HIF (02_host_interface_and_pages.md). -/

/-- 1 masks vector v; immediate -/
def HIF.VEC_MASK : Fld := ⟨0x010, 0, 32, 0⟩
/-- write 1 to bit v: R61 -/
def HIF.VEC_ACK : Fld := ⟨0x014, 0, 32, 0⟩
/-- pending vectors -/
def HIF.VEC_PEND : Fld := ⟨0x100, 0, 32, 0⟩
/-- 0 PCIe, 1 SPI -/
def HIF.LINK_HOST : Fld := ⟨0x104, 0, 1, 0⟩
/-- PCIe data link active -/
def HIF.LINK_UP : Fld := ⟨0x104, 1, 1, 0⟩
/-- MSI Enable from configuration space -/
def HIF.LINK_MSI_EN : Fld := ⟨0x104, 2, 1, 0⟩
/-- log2 of granted vectors -/
def HIF.LINK_MSI_LOG2 : Fld := ⟨0x104, 3, 3, 0⟩
/-- copy of the SPI status byte (R36) -/
def HIF.SPI_STATUS : Fld := ⟨0x108, 0, 8, 0⟩
/-- R40 -/
def HIF.EV_XING_TIMEOUT : Fld := ⟨0x200, 0, 1, 0⟩
/-- R26 -/
def HIF.EV_BAD_WR : Fld := ⟨0x200, 1, 1, 0⟩
/-- R41 -/
def HIF.EV_UNMAPPED : Fld := ⟨0x200, 2, 1, 0⟩
/-- WR_OVF, RD_TIMEOUT, FRAME_ERR or CMD_ERR set -/
def HIF.EV_SPI_ERR : Fld := ⟨0x200, 3, 1, 0⟩
/-- writes dropped under R15 -/
def HIF.OFF_DOMAIN_CNT : Fld := ⟨0x300, 0, 32, 0⟩
/-- R41 -/
def HIF.UNMAPPED_CNT : Fld := ⟨0x304, 0, 32, 0⟩
/-- R26 -/
def HIF.BAD_WR_CNT : Fld := ⟨0x308, 0, 32, 0⟩
/-- R40 -/
def HIF.XING_TO_CNT : Fld := ⟨0x30C, 0, 32, 0⟩
/-- SPI error occurrences -/
def HIF.SPI_ERR_CNT : Fld := ⟨0x310, 0, 32, 0⟩
/-- ring 0: always vector 0 -/
def HIF.RING_VEC0 : Fld := ⟨0x400, 0, 5, 0⟩
/-- vector of ring n (1 to 31); 0 is refused with RANGE -/
def HIF.RING_VEC : Fld := ⟨0x404, 0, 5, 4⟩
/-- vector of EVENT_SUMMARY line g (1 to 31); 0 is refused with RANGE -/
def HIF.GROUP_VEC : Fld := ⟨0x500, 0, 5, 4⟩
/-! Fields of page GLB (02_host_interface_and_pages.md). -/

/-- host link test; no effect on the device -/
def GLB.SCRATCH : Fld := ⟨0x010, 0, 32, 0⟩
/-- device identity -/
def GLB.CHIP_ID : Fld := ⟨0x100, 0, 32, 0⟩
/-- silicon stepping -/
def GLB.STEPPING : Fld := ⟨0x104, 0, 32, 0⟩
/-- unique device number, bits 31:0 -/
def GLB.UID_LO : Fld := ⟨0x108, 0, 32, 0⟩
/-- unique device number, bits 63:32 -/
def GLB.UID_HI : Fld := ⟨0x10C, 0, 32, 0⟩
/-- one line per page group, table below -/
def GLB.EVENT_SUMMARY : Fld := ⟨0x110, 0, 32, 0⟩
/-- one bit per fault kind, table below -/
def GLB.FAULT_SUMMARY : Fld := ⟨0x114, 0, 32, 0⟩
/-- [15:0] line of LPT0 to LPT15 -/
def GLB.EVT_LPT : Fld := ⟨0x118, 0, 32, 0⟩
/-- [15:0] line of TXS0 to TXS15 -/
def GLB.EVT_TXS : Fld := ⟨0x11C, 0, 32, 0⟩
/-- line of ERG0 to ERG31 -/
def GLB.EVT_ERG_LO : Fld := ⟨0x120, 0, 32, 0⟩
/-- line of ERG32 to ERG63 -/
def GLB.EVT_ERG_HI : Fld := ⟨0x124, 0, 32, 0⟩
/-- line of SEIF0 to SEIF31 -/
def GLB.EVT_SEIF : Fld := ⟨0x128, 0, 32, 0⟩
/-- [3:0] CRC0 to CRC3; [7:4] UART0 to UART3; [11:8] DRC0 to DRC3; [12] DRW -/
def GLB.EVT_MISC : Fld := ⟨0x12C, 0, 32, 0⟩
/-- event -/
def GLB.EV_FAULT_RISE : Fld := ⟨0x200, 0, 1, 0⟩
/-- event -/
def GLB.EV_FAULT_FALL : Fld := ⟨0x200, 1, 1, 0⟩
/-! Fields of page MTB (03_mains_timebase.md). -/

/-- 0 NONE (no reference; ACQUIRE persists); 1 SENSE; 2 MZC; 3 refused with RANGE -/
def MTB.MODE : Fld := ⟨0x010, 0, 2, 0⟩
/-- bit n enables source n; 0 refused with MODE ≠ NONE -/
def MTB.SRC_EN : Fld := ⟨0x010, 4, 3, 0⟩
/-- 0 rising edge marks the positive-going crossing; 1 falling -/
def MTB.MZC_EDGE : Fld := ⟨0x010, 8, 1, 0⟩
/-- 0 50 Hz; 1 60 Hz -/
def MTB.NOMINAL : Fld := ⟨0x010, 12, 1, 0⟩
/-- sense input (0 to 31) of sources 0 to 2 -/
def MTB.SENSE_SEL0 : Fld := ⟨0x014, 0, 5, 0⟩
/-- sense input (0 to 31) of sources 0 to 2 -/
def MTB.SENSE_SEL1 : Fld := ⟨0x014, 8, 5, 0⟩
/-- sense input (0 to 31) of sources 0 to 2 -/
def MTB.SENSE_SEL2 : Fld := ⟨0x014, 16, 5, 0⟩
/-- phase counts, R69 -/
def MTB.SRC_OFFSET0 : Fld := ⟨0x018, 0, 16, 0⟩
/-- phase counts, R69 -/
def MTB.SRC_OFFSET1 : Fld := ⟨0x018, 16, 16, 0⟩
/-- phase counts -/
def MTB.SRC_OFFSET2 : Fld := ⟨0x01C, 0, 16, 0⟩
/-- detector delay in ticks; 0 legal -/
def MTB.MZC_DELAY : Fld := ⟨0x020, 0, 16, 0⟩
/-- minimum level length in ticks (default 1 ms); 0 refused -/
def MTB.MZC_GLITCH : Fld := ⟨0x020, 16, 12, 0⟩
/-- R73 -/
def MTB.ACC_PHASE : Fld := ⟨0x024, 0, 16, 0⟩
/-- R73 -/
def MTB.C0_PHASE : Fld := ⟨0x024, 16, 16, 0⟩
/-- counts (328 = 0.5 %); 0 refused -/
def MTB.LOCK_THRESH : Fld := ⟨0x028, 0, 16, 0⟩
/-- counts (3,277 = 5 %); below LOCK_THRESH refused with INCONSISTENT -/
def MTB.REJECT_THRESH : Fld := ⟨0x028, 16, 16, 0⟩
/-- 1 to 10,000 ms; 0 refused; above 10,000 refused with RANGE -/
def MTB.HOLDOVER_MS : Fld := ⟨0x02C, 0, 14, 0⟩
/-- R77 -/
def MTB.SNAP : Fld := ⟨0x040, 0, 32, 0⟩
/-- 0 OFF; 1 ACQUIRE; 2 LOCKED; 3 HOLDOVER; 4 NOMINAL -/
def MTB.STATE : Fld := ⟨0x100, 0, 3, 0⟩
/-- sources valid in the last cycle -/
def MTB.SRC_VALID : Fld := ⟨0x100, 4, 3, 0⟩
/-- time in HOLDOVER, in ms, saturating -/
def MTB.HOLD_MS : Fld := ⟨0x100, 16, 16, 0⟩
/-- live phase -/
def MTB.PHASE : Fld := ⟨0x104, 0, 16, 0⟩
/-- live bin -/
def MTB.BIN : Fld := ⟨0x104, 16, 6, 0⟩
/-- live cycle count -/
def MTB.CYCLE : Fld := ⟨0x108, 0, 32, 0⟩
/-- phase-clock frequency in 1/65,536 Hz -/
def MTB.FREQ : Fld := ⟨0x10C, 0, 32, 0⟩
/-- signed error of the last cycle, counts -/
def MTB.PHASE_ERR : Fld := ⟨0x110, 0, 16, 0⟩
/-- signed rate of change of frequency, mHz/s -/
def MTB.ROCOF : Fld := ⟨0x110, 16, 16, 0⟩
/-- latched SAMPLE_TIME -/
def MTB.SNAP_TIME_LO : Fld := ⟨0x114, 0, 32, 0⟩
/-- latched SAMPLE_TIME -/
def MTB.SNAP_TIME_HI : Fld := ⟨0x118, 0, 32, 0⟩
/-- latched cycle count -/
def MTB.SNAP_CYCLE : Fld := ⟨0x11C, 0, 32, 0⟩
/-- latched phase -/
def MTB.SNAP_PHASE : Fld := ⟨0x120, 0, 16, 0⟩
/-- latched state -/
def MTB.SNAP_STATE : Fld := ⟨0x120, 16, 3, 0⟩
/-- R78 -/
def MTB.LOG_HEAD : Fld := ⟨0x124, 0, 17, 0⟩
/-- event: NO_SOURCE: MODE = NONE or no source valid for 1.5 periods; bits 31:30 common (R50) -/
def MTB.EV_LOCKED : Fld := ⟨0x200, 0, 1, 0⟩
/-- event: NO_SOURCE: MODE = NONE or no source valid for 1.5 periods; bits 31:30 common (R50) -/
def MTB.EV_HOLDOVER_ENTER : Fld := ⟨0x200, 1, 1, 0⟩
/-- event: NO_SOURCE: MODE = NONE or no source valid for 1.5 periods; bits 31:30 common (R50) -/
def MTB.EV_NOMINAL_ENTER : Fld := ⟨0x200, 2, 1, 0⟩
/-- event: NO_SOURCE: MODE = NONE or no source valid for 1.5 periods; bits 31:30 common (R50) -/
def MTB.EV_PHASE_STEP : Fld := ⟨0x200, 3, 1, 0⟩
/-- event: NO_SOURCE: MODE = NONE or no source valid for 1.5 periods; bits 31:30 common (R50) -/
def MTB.EV_SRC_DROP : Fld := ⟨0x200, 4, 1, 0⟩
/-- event: NO_SOURCE: MODE = NONE or no source valid for 1.5 periods; bits 31:30 common (R50) -/
def MTB.EV_NO_SOURCE : Fld := ⟨0x200, 5, 1, 0⟩
/-- crossings found invalid -/
def MTB.INVALID_CNT : Fld := ⟨0x300, 0, 32, 0⟩
/-- entries to HOLDOVER -/
def MTB.HOLDOVER_CNT : Fld := ⟨0x304, 0, 32, 0⟩
/-- R71 -/
def MTB.STEP_CNT : Fld := ⟨0x308, 0, 32, 0⟩
/-- R70 -/
def MTB.ACQ_RESTART_CNT : Fld := ⟨0x30C, 0, 32, 0⟩
/-- MZC levels ignored under R68 -/
def MTB.GLITCH_CNT : Fld := ⟨0x310, 0, 32, 0⟩
/-! Fields of page LPT (04_line_ports.md). -/

/-- 0 FIXED; 1 AUTO; 2 SCHEDULE; 3 refused with RANGE -/
def LPT.GAIN_MODE : Fld := ⟨0x010, 0, 2, 0⟩
/-- FIXED gain, and the ceiling in AUTO -/
def LPT.GAIN : Fld := ⟨0x010, 4, 3, 0⟩
/-- floor for overload steps; above GAIN refused with INCONSISTENT -/
def LPT.GAIN_MIN : Fld := ⟨0x010, 8, 3, 0⟩
/-- codes per overload step, 1 to 3; 0 refused -/
def LPT.OVL_STEPS : Fld := ⟨0x010, 12, 2, 0⟩
/-- sample magnitude (32,112); 0 refused -/
def LPT.OVL_THRESH : Fld := ⟨0x014, 0, 16, 0⟩
/-- successive samples; 0 refused -/
def LPT.OVL_COUNT : Fld := ⟨0x014, 16, 4, 0⟩
/-- ticks marked after a step; 0 disables the settling mark -/
def LPT.OVL_ERASE : Fld := ⟨0x014, 24, 8, 0⟩
/-- R84; 0 refused; at or above OVL_THRESH refused with INCONSISTENT -/
def LPT.UP_THRESH : Fld := ⟨0x018, 0, 16, 0⟩
/-- R84; 0 refused -/
def LPT.UP_HOLD_MS : Fld := ⟨0x018, 16, 16, 0⟩
/-- 0 PER_FRAME; 1 ALWAYS -/
def LPT.ENA_MODE : Fld := ⟨0x01C, 0, 1, 0⟩
/-- R86; 0 disables the lead -/
def LPT.ENA_LEAD_US : Fld := ⟨0x01C, 8, 8, 0⟩
/-- R86; 0 disables the lag -/
def LPT.ENA_LAG_US : Fld := ⟨0x01C, 16, 8, 0⟩
/-- amplifier voltage gain in units of 0.1; 0 refused -/
def LPT.AMP_GAIN : Fld := ⟨0x01C, 24, 8, 0⟩
/-- µA per LSB (4,395); 0 refused -/
def LPT.ISNS_SCALE : Fld := ⟨0x020, 0, 16, 0⟩
/-- R88 (3,000 mA); 0 refused -/
def LPT.ILIM_MA : Fld := ⟨0x020, 16, 16, 0⟩
/-- R88; 0 refused -/
def LPT.ILIM_US : Fld := ⟨0x024, 0, 8, 0⟩
/-- R88; 0 refused -/
def LPT.OC_STRIKES : Fld := ⟨0x024, 8, 4, 0⟩
/-- R88; 0 refused -/
def LPT.OC_WINDOW_MS : Fld := ⟨0x024, 16, 16, 0⟩
/-- 250 Hz units, 1,964 to 2,000 (491.0 to 500.0 kHz), default 492.0 kHz; others refused with RANGE -/
def LPT.PILOT_FREQ : Fld := ⟨0x028, 0, 11, 0⟩
/-- 6 dB steps below full scale (default −30 dBFS) -/
def LPT.PILOT_LEVEL : Fld := ⟨0x028, 12, 4, 0⟩
/-- R91, R92; 0 disables periodic checks -/
def LPT.CHECK_MS : Fld := ⟨0x028, 16, 16, 0⟩
/-- weakest accepted return, dB of attenuation; 0 refused -/
def LPT.PILOT_RX_MIN_DB : Fld := ⟨0x02C, 0, 8, 0⟩
/-- 0.1 Ω units; 0 refused -/
def LPT.Z_MIN : Fld := ⟨0x02C, 8, 8, 0⟩
/-- 0.1 Ω units (200 Ω); not above Z_MIN refused with INCONSISTENT -/
def LPT.Z_MAX : Fld := ⟨0x02C, 16, 16, 0⟩
/-- 0 OFF (no polarity check); 1 REPORT; 2 FAULT; 3 refused with RANGE -/
def LPT.REV_ACTION : Fld := ⟨0x030, 0, 2, 0⟩
/-- phase counts, R92 -/
def LPT.REV_OFFSET : Fld := ⟨0x030, 16, 16, 0⟩
/-- R94; 0 refused -/
def LPT.RETRY_FIRST_MS : Fld := ⟨0x034, 0, 16, 0⟩
/-- R94; 0 refused -/
def LPT.RETRY_MAX_S : Fld := ⟨0x034, 16, 8, 0⟩
/-- R93; 0 disables the limit -/
def LPT.RETRY_LIMIT : Fld := ⟨0x034, 24, 8, 0⟩
/-- cancellation DAC on -/
def LPT.CANC_EN : Fld := ⟨0x038, 0, 1, 0⟩
/-- echo canceller on -/
def LPT.ECHO_EN : Fld := ⟨0x038, 1, 1, 0⟩
/-- NLMS step 2^−ECHO_MU; 0 refused -/
def LPT.ECHO_MU : Fld := ⟨0x038, 4, 4, 0⟩
/-- R89 -/
def LPT.ECHO_FREEZE : Fld := ⟨0x038, 8, 1, 0⟩
/-- R91, R93 -/
def LPT.CHECK_NOW : Fld := ⟨0x040, 0, 1, 0⟩
/-- R89; applies at the end of any transmission in progress -/
def LPT.ECHO_RESET : Fld := ⟨0x040, 1, 1, 0⟩
/-- 0 OFF; 1 CHECK; 2 SERVICE; 3 FAULT; 4 FAULT_LATCHED -/
def LPT.STATE : Fld := ⟨0x100, 0, 3, 0⟩
/-- 0 NONE; 1 SHORT; 2 OPEN; 3 REVERSED; 4 AMP_FAULT; 5 OVERCURRENT -/
def LPT.CAUSE : Fld := ⟨0x100, 8, 3, 0⟩
/-- R95 -/
def LPT.TX_AVAIL : Fld := ⟨0x100, 16, 1, 0⟩
/-- LPn_ENA level -/
def LPT.ENA : Fld := ⟨0x100, 17, 1, 0⟩
/-- 1: LPn_FLT_N low -/
def LPT.FLT : Fld := ⟨0x100, 18, 1, 0⟩
/-- retries since entry to FAULT, saturating -/
def LPT.RETRIES : Fld := ⟨0x100, 24, 8, 0⟩
/-- active PGA code -/
def LPT.GAIN_NOW : Fld := ⟨0x104, 0, 3, 0⟩
/-- largest sample magnitude in the last phase bin -/
def LPT.BIN_PEAK : Fld := ⟨0x104, 16, 16, 0⟩
/-- return of the last pilot, dB of attenuation -/
def LPT.RX_RET_DB : Fld := ⟨0x108, 0, 8, 0⟩
/-- impedance of the last pilot, 0.1 Ω units, saturating -/
def LPT.Z : Fld := ⟨0x108, 16, 16, 0⟩
/-- d of the last polarity check -/
def LPT.REV_PHASE : Fld := ⟨0x10C, 0, 16, 0⟩
/-- 0 UNKNOWN; 1 NORMAL; 2 REVERSED; 3 OTHER -/
def LPT.REV_STATE : Fld := ⟨0x10C, 16, 3, 0⟩
/-- mean current magnitude over the last 1 ms -/
def LPT.I_MEAN_MA : Fld := ⟨0x110, 0, 16, 0⟩
/-- peak current magnitude over the last 1 ms -/
def LPT.I_PEAK_MA : Fld := ⟨0x110, 16, 16, 0⟩
/-- analog replica gain, 1/32,768 units -/
def LPT.CANC_GAIN : Fld := ⟨0x114, 0, 16, 0⟩
/-- replica delay, 1/16-tick units -/
def LPT.CANC_DELAY : Fld := ⟨0x114, 16, 8, 0⟩
/-- event: bits 31:30 common (R50) -/
def LPT.EV_STATE_CHANGE : Fld := ⟨0x200, 0, 1, 0⟩
/-- event: bits 31:30 common (R50) -/
def LPT.EV_OVERLOAD : Fld := ⟨0x200, 1, 1, 0⟩
/-- event: bits 31:30 common (R50) -/
def LPT.EV_GAIN_STEP : Fld := ⟨0x200, 2, 1, 0⟩
/-- event: bits 31:30 common (R50) -/
def LPT.EV_OVERCURRENT : Fld := ⟨0x200, 3, 1, 0⟩
/-- event: bits 31:30 common (R50) -/
def LPT.EV_CHECK_DONE : Fld := ⟨0x200, 4, 1, 0⟩
/-- event: bits 31:30 common (R50) -/
def LPT.EV_REVERSED : Fld := ⟨0x200, 5, 1, 0⟩
/-- event: bits 31:30 common (R50) -/
def LPT.EV_AMP_FAULT : Fld := ⟨0x200, 6, 1, 0⟩
/-- R83 -/
def LPT.OVL_CNT : Fld := ⟨0x300, 0, 32, 0⟩
/-- R83 -/
def LPT.OVL_AT_MIN_CNT : Fld := ⟨0x304, 0, 32, 0⟩
/-- all gain changes -/
def LPT.GAIN_STEP_CNT : Fld := ⟨0x308, 0, 32, 0⟩
/-- R88 -/
def LPT.OC_CNT : Fld := ⟨0x30C, 0, 32, 0⟩
/-- entries to FAULT -/
def LPT.FAULT_CNT : Fld := ⟨0x310, 0, 32, 0⟩
/-- checks run -/
def LPT.CHECK_CNT : Fld := ⟨0x314, 0, 32, 0⟩
/-- gain of bin b in SCHEDULE -/
def LPT.GAIN_SCHED : Fld := ⟨0x400, 0, 3, 4⟩
/-- signed echo taps, 2^−20 units -/
def LPT.ECHO_TAP : Fld := ⟨0x800, 0, 24, 4⟩
/-! Fields of page ERG (06_erg_receive_array.md). -/

/-- 0 OFF; 1 LIVE; 2 POOL; 3 refused with RANGE -/
def ERG.ROLE : Fld := ⟨0x010, 0, 2, 48⟩
/-- line port 0 to 15 -/
def ERG.PORT : Fld := ⟨0x010, 4, 4, 48⟩
/-- 0 4 kbaud, 5 kHz; 1 8 kbaud, 10 kHz; 2 16 kbaud, 20 kHz; 3 32 kbaud, 40 kHz -/
def ERG.RATE : Fld := ⟨0x010, 8, 2, 48⟩
/-- 0 STANDARD (±2.0 %); 1 WIDE (±4.0 %) -/
def ERG.TIMING : Fld := ⟨0x010, 12, 1, 48⟩
/-- R131 -/
def ERG.ALARM : Fld := ⟨0x010, 13, 1, 48⟩
/-- R149 -/
def ERG.LEND_OK : Fld := ⟨0x010, 14, 1, 48⟩
/-- centre in 250 Hz units; R97 applies when ROLE is LIVE -/
def ERG.CENTRE : Fld := ⟨0x014, 0, 11, 48⟩
/-- data sync word S; R132 -/
def ERG.SYNC_WORD : Fld := ⟨0x018, 0, 32, 48⟩
/-- tolerated bit errors, 0 to 7 (R107) -/
def ERG.SYNC_TOL : Fld := ⟨0x01C, 0, 3, 48⟩
/-- preamble correlation in sixteenths; 0 refused -/
def ERG.PD_THRESH : Fld := ⟨0x01C, 4, 4, 48⟩
/-- symbols after the last preamble-like symbol before the search fails (R136); 0 refused -/
def ERG.SYNC_WIN : Fld := ⟨0x01C, 8, 8, 48⟩
/-- 0 highest; R152 -/
def ERG.RANK : Fld := ⟨0x020, 0, 8, 48⟩
/-- R142 -/
def ERG.NMAP_ERASE : Fld := ⟨0x024, 0, 1, 48⟩
/-- R143 -/
def ERG.BLANK0 : Fld := ⟨0x024, 1, 1, 48⟩
/-- R143 -/
def ERG.BLANK1 : Fld := ⟨0x024, 2, 1, 48⟩
/-- signed, 0.25 dB units (default 4.0 dB) -/
def ERG.ERASE_SNR : Fld := ⟨0x024, 8, 8, 48⟩
/-- 0.5 dB units (default 10.0 dB); 0 disables the impulse mark -/
def ERG.IMPULSE_DB : Fld := ⟨0x024, 16, 8, 48⟩
/-- 0 OFF; 1 PARKED; 2 NO_INPUT; 3 IDLE; 4 HUNT; 5 SYNC_SEARCH; 6 HEADER; 7 DATA; 8 ACK_BODY; 9 LENT; 10 RECALL -/
def ERG.STATE : Fld := ⟨0x100, 0, 4, 64⟩
/-- preamble watch running -/
def ERG.WATCH : Fld := ⟨0x100, 4, 1, 64⟩
/-- soft buffers holding undecoded fields -/
def ERG.SOFT_BUF : Fld := ⟨0x100, 8, 2, 64⟩
/-- frozen reference of the last frame, signed, 1/16 dBFS, referred to PGA code 0 -/
def ERG.AGC_REF : Fld := ⟨0x104, 0, 16, 64⟩
/-- signed carrier offset of the last frame, Hz -/
def ERG.CARRIER_OFF : Fld := ⟨0x104, 16, 16, 64⟩
/-- signed, 0.25 dB (R140) -/
def ERG.LAST_SNR : Fld := ⟨0x108, 0, 16, 64⟩
/-- signed symbol-rate error, 0.01 % units -/
def ERG.LAST_RATE_ERR : Fld := ⟨0x108, 16, 16, 64⟩
/-- SAMPLE_TIME bits 31:0 of the last T_SYNC (R135) -/
def ERG.T_SYNC_LO : Fld := ⟨0x10C, 0, 32, 64⟩
/-- bits 63:32 -/
def ERG.T_SYNC_HI : Fld := ⟨0x110, 0, 32, 64⟩
/-- last valid PHY header word (R115) -/
def ERG.LAST_HDR : Fld := ⟨0x114, 0, 32, 64⟩
/-- noise-map cell in use (R142) -/
def ERG.CELL_NOW : Fld := ⟨0x118, 0, 32, 64⟩
/-- preambles detected -/
def ERG.DETECT_CNT : Fld := ⟨0x300, 0, 32, 60⟩
/-- R136 -/
def ERG.SYNC_FAIL_CNT : Fld := ⟨0x304, 0, 32, 60⟩
/-- valid headers -/
def ERG.HDR_OK_CNT : Fld := ⟨0x308, 0, 32, 60⟩
/-- R116 -/
def ERG.HDR_INVALID_CNT : Fld := ⟨0x30C, 0, 32, 60⟩
/-- R122 -/
def ERG.FRAME_SHORT_CNT : Fld := ⟨0x310, 0, 32, 60⟩
/-- R122 -/
def ERG.FORMAT_INVALID_CNT : Fld := ⟨0x314, 0, 32, 60⟩
/-- R123 -/
def ERG.FCS_FAIL_CNT : Fld := ⟨0x318, 0, 32, 60⟩
/-- R120 -/
def ERG.CLASS0_UNSEC_CNT : Fld := ⟨0x31C, 0, 32, 60⟩
/-- R137 -/
def ERG.ACK_CRC_FAIL_CNT : Fld := ⟨0x320, 0, 32, 60⟩
/-- MIC or counter failures -/
def ERG.AUTH_FAIL_CNT : Fld := ⟨0x324, 0, 32, 60⟩
/-- R138 -/
def ERG.CUT_CNT : Fld := ⟨0x328, 0, 32, 60⟩
/-- R139 -/
def ERG.ERASED_SYM_CNT : Fld := ⟨0x32C, 0, 32, 60⟩
/-- R151 -/
def ERG.WATCH_REPORT_CNT : Fld := ⟨0x330, 0, 32, 60⟩
/-- R148 -/
def ERG.DECODE_OVR_CNT : Fld := ⟨0x334, 0, 32, 60⟩
/-- soft values lost, b per data symbol (R18, R141, R148) -/
def ERG.QLOSS_CNT : Fld := ⟨0x338, 0, 32, 60⟩
/-- event: bit e: R133 -/
def ERG.EV_CFG_ABORT : Fld := ⟨0x200, 0, 4, 0⟩
/-- event: bit 4 + e: R151 -/
def ERG.EV_WATCH_REPORT : Fld := ⟨0x200, 4, 4, 0⟩
/-- event: bit 8 + e: R148 -/
def ERG.EV_DECODE_OVR : Fld := ⟨0x200, 8, 4, 0⟩
/-- event: bit 12 + e: soft values lost -/
def ERG.EV_QLOSS : Fld := ⟨0x200, 12, 4, 0⟩
/-- event: bit 16 + e: parked or unparked -/
def ERG.EV_PARK_CHANGE : Fld := ⟨0x200, 16, 4, 0⟩
/-! Fields of page ERGX (06_erg_receive_array.md). -/

/-- bit p: SNS_BLANK0 acts on port p (R143) -/
def ERGX.BLANK0_PORTS : Fld := ⟨0x010, 0, 16, 0⟩
/-- bit p: SNS_BLANK1 acts on port p -/
def ERGX.BLANK1_PORTS : Fld := ⟨0x010, 16, 16, 0⟩
/-- R149 -/
def ERGX.LEND_EN : Fld := ⟨0x014, 0, 1, 0⟩
/-- 1 to 256; 0 refused; above 256 refused with RANGE -/
def ERGX.LEND_LIMIT : Fld := ⟨0x014, 16, 9, 0⟩
/-- engines in ROLE LIVE -/
def ERGX.LIVE_COUNT : Fld := ⟨0x100, 0, 9, 0⟩
/-- engines in ROLE POOL -/
def ERGX.POOL_COUNT : Fld := ⟨0x100, 16, 9, 0⟩
/-- engines LENT or in RECALL -/
def ERGX.LENT_COUNT : Fld := ⟨0x104, 0, 9, 0⟩
/-- engines PARKED -/
def ERGX.PARKED_COUNT : Fld := ⟨0x104, 16, 9, 0⟩
/-- LIVE alarm engines -/
def ERGX.ALARM_COUNT : Fld := ⟨0x108, 0, 6, 0⟩
/-- throttle level applied to Erg (R152) -/
def ERGX.LEVEL : Fld := ⟨0x108, 8, 3, 0⟩
/-- bit c mod 32 of word c div 32: engine in SYNC_SEARCH, HEADER, DATA or ACK_BODY -/
def ERGX.BUSY : Fld := ⟨0x110, 0, 32, 4⟩
/-- engine LENT or in RECALL -/
def ERGX.LENT : Fld := ⟨0x130, 0, 32, 4⟩
/-- engine PARKED -/
def ERGX.PARKED : Fld := ⟨0x150, 0, 32, 4⟩
/-- event: any engine parked or unparked -/
def ERGX.EV_PARK_CHANGE : Fld := ⟨0x200, 0, 1, 0⟩
/-- event: R143 -/
def ERGX.EV_BLANK_TRUNC : Fld := ⟨0x200, 1, 1, 0⟩
/-- event: any engine, R133 -/
def ERGX.EV_CFG_ABORT : Fld := ⟨0x200, 2, 1, 0⟩
/-- device totals of R129, in that order -/
def ERGX.HDR_INVALID_TOT : Fld := ⟨0x300, 0, 32, 0⟩
/-- device totals of R129, in that order -/
def ERGX.FRAME_SHORT_TOT : Fld := ⟨0x304, 0, 32, 0⟩
/-- device totals of R129, in that order -/
def ERGX.FORMAT_INVALID_TOT : Fld := ⟨0x308, 0, 32, 0⟩
/-- device totals of R129, in that order -/
def ERGX.FCS_FAIL_TOT : Fld := ⟨0x30C, 0, 32, 0⟩
/-- device totals of R129, in that order -/
def ERGX.CLASS0_UNSEC_TOT : Fld := ⟨0x310, 0, 32, 0⟩
/-- device totals of R129, in that order -/
def ERGX.ACK_CRC_FAIL_TOT : Fld := ⟨0x314, 0, 32, 0⟩
/-- device totals of R129, in that order -/
def ERGX.AUTH_FAIL_TOT : Fld := ⟨0x318, 0, 32, 0⟩
/-- R151 -/
def ERGX.WATCH_REPORT_TOT : Fld := ⟨0x31C, 0, 32, 0⟩
/-- R150 -/
def ERGX.RECALL_CNT : Fld := ⟨0x320, 0, 32, 0⟩
/-- R150 -/
def ERGX.HANDOFF_CNT : Fld := ⟨0x324, 0, 32, 0⟩
/-- R143 -/
def ERGX.BLANK_TRUNC_CNT : Fld := ⟨0x328, 0, 32, 0⟩
/-- R133 -/
def ERGX.CFG_ABORT_CNT : Fld := ⟨0x32C, 0, 32, 0⟩
/-- R148 -/
def ERGX.DECODE_OVR_TOT : Fld := ⟨0x330, 0, 32, 0⟩
/-! Fields of page TRL (06_erg_receive_array.md). -/

/-- 1 to 4 (R147); 0 refused; above 4 refused with RANGE -/
def TRL.GROUPS_MIN : Fld := ⟨0x010, 0, 3, 0⟩
/-- 1 to 16 (R146); 0 refused; above 16 refused with RANGE -/
def TRL.REPLAY_MAX : Fld := ⟨0x010, 8, 5, 0⟩
/-- bit d: decoder d holds a job -/
def TRL.BUSY : Fld := ⟨0x100, 0, 16, 0⟩
/-- bit g: group g powered -/
def TRL.GROUPS_ON : Fld := ⟨0x100, 16, 4, 0⟩
/-- alarm jobs waiting -/
def TRL.WAIT_ALARM : Fld := ⟨0x104, 0, 10, 0⟩
/-- other live jobs waiting -/
def TRL.WAIT_LIVE : Fld := ⟨0x104, 16, 10, 0⟩
/-- replay jobs waiting -/
def TRL.WAIT_REPLAY : Fld := ⟨0x108, 0, 10, 0⟩
/-- longest wait of an alarm job since reset or SOFT_RESET, µs, saturating -/
def TRL.ALARM_WAIT_MAX : Fld := ⟨0x10C, 0, 16, 0⟩
/-- event: more than 256 jobs waiting -/
def TRL.EV_QUEUE_HIGH : Fld := ⟨0x200, 0, 1, 0⟩
/-- event: a group woke on demand -/
def TRL.EV_GROUP_WAKE : Fld := ⟨0x200, 1, 1, 0⟩
/-- alarm jobs decoded -/
def TRL.JOBS_ALARM : Fld := ⟨0x300, 0, 32, 0⟩
/-- other live jobs decoded -/
def TRL.JOBS_LIVE : Fld := ⟨0x304, 0, 32, 0⟩
/-- replay jobs decoded -/
def TRL.JOBS_REPLAY : Fld := ⟨0x308, 0, 32, 0⟩
/-- decoded bits in units of 1,024 -/
def TRL.KBITS_DECODED : Fld := ⟨0x30C, 0, 32, 0⟩
/-! Fields of page NMAP (06_erg_receive_array.md). -/

/-- 0 LINK; 1 HOST (R144) -/
def NMAP.OWNER : Fld := ⟨0x010, 0, 1, 0⟩
/-- seconds (R142, R145); 0 disables the limit -/
def NMAP.AGE_LIMIT_S : Fld := ⟨0x010, 8, 8, 0⟩
/-- cell index port × 1,024 + zone × 64 + bin -/
def NMAP.IDX : Fld := ⟨0x014, 0, 14, 0⟩
/-- 1: each CELL_DATA access advances IDX by 1, wrapping at 16,383 -/
def NMAP.INC : Fld := ⟨0x014, 16, 1, 0⟩
/-- data port: the cell at IDX in the cell layout -/
def NMAP.CELL_DATA : Fld := ⟨0x018, 0, 32, 0⟩
/-- R145 -/
def NMAP.STALE_CELLS : Fld := ⟨0x100, 0, 14, 0⟩
/-- largest AGE among VALID cells -/
def NMAP.OLDEST_AGE : Fld := ⟨0x100, 16, 8, 0⟩
/-- event: R145 -/
def NMAP.EV_STALE : Fld := ⟨0x200, 0, 1, 0⟩
/-- event: R144 -/
def NMAP.EV_WRITE_REFUSED : Fld := ⟨0x200, 1, 1, 0⟩
/-- accepted cell writes from any writer -/
def NMAP.CELL_WRITE_CNT : Fld := ⟨0x300, 0, 32, 0⟩
/-- accepted host writes -/
def NMAP.HOST_WRITE_CNT : Fld := ⟨0x304, 0, 32, 0⟩
/-- R144 -/
def NMAP.WRITE_REFUSED_CNT : Fld := ⟨0x308, 0, 32, 0⟩
/-! Fields of page TXS (07_transmit_synthesis.md). -/

/-- index of the alarm channel definition -/
def TXS.ALARM_CH : Fld := ⟨0x010, 0, 4, 0⟩
/-- 1: the port has an alarm channel (R155) -/
def TXS.ALARM_EN : Fld := ⟨0x010, 4, 1, 0⟩
/-- R153, 1 to 14; 0 refused; above 14 refused with RANGE -/
def TXS.DATA_LANES : Fld := ⟨0x010, 8, 4, 0⟩
/-- 0 FIT; 1 ALL (R166) -/
def TXS.CUT_POLICY : Fld := ⟨0x010, 12, 1, 0⟩
/-- 0.5 dB below full scale (default −12.0 dBFS); below 0x0C (−6.0 dBFS) refused with RANGE -/
def TXS.LEVEL_SUM_MAX : Fld := ⟨0x014, 0, 8, 0⟩
/-- 0.5 dB units (default 3.0 dB); 0 disables the headroom -/
def TXS.HEADROOM_DB : Fld := ⟨0x014, 8, 8, 0⟩
/-- 0.5 dB below full scale (default −24.0 dBFS) -/
def TXS.ACK_LEVEL : Fld := ⟨0x014, 16, 8, 0⟩
/-- 0.1 dB below full scale (default 0.9 dB); 0 is full scale -/
def TXS.PEAK_MAX : Fld := ⟨0x014, 24, 8, 0⟩
/-- R164 -/
def TXS.PD_EN : Fld := ⟨0x018, 0, 1, 0⟩
/-- 0 LINK; 1 HOST -/
def TXS.PD_OWNER : Fld := ⟨0x018, 1, 1, 0⟩
/-- bit l: lane l occupied -/
def TXS.LANE_BUSY : Fld := ⟨0x100, 0, 16, 0⟩
/-- lanes held by data, wake and schedule frames -/
def TXS.DATA_BUSY : Fld := ⟨0x100, 16, 4, 0⟩
/-- R169 -/
def TXS.C0_ACTIVE : Fld := ⟨0x100, 20, 1, 0⟩
/-- R156 -/
def TXS.ALARM_MISMATCH : Fld := ⟨0x100, 21, 1, 0⟩
/-- bit k: TXCHk blocked (R156) -/
def TXS.BLOCKED_CH : Fld := ⟨0x104, 0, 16, 0⟩
/-- planned composite, 0.1 dB below full scale -/
def TXS.COMP_LEVEL : Fld := ⟨0x108, 0, 16, 0⟩
/-- deepest crest-control gain in the last 1 ms, 0.1 dB -/
def TXS.CREST_GAIN_MIN : Fld := ⟨0x108, 16, 16, 0⟩
/-- R172, 0.1 dB below full scale, last 1 ms; 0xFFFF silent -/
def TXS.DAC_RMS : Fld := ⟨0x10C, 0, 16, 0⟩
/-- R172, signed mW -/
def TXS.P_LINE_MW : Fld := ⟨0x10C, 16, 16, 0⟩
/-- R172, mW (4,000 after reset) -/
def TXS.EST_K : Fld := ⟨0x110, 0, 16, 0⟩
/-- R172 -/
def TXS.I_RMS_MA : Fld := ⟨0x110, 16, 16, 0⟩
/-- event: R167, R162, R160, R157, R165, R161, R170, R156 -/
def TXS.EV_CUT : Fld := ⟨0x200, 0, 1, 0⟩
/-- event: R167, R162, R160, R157, R165, R161, R170, R156 -/
def TXS.EV_CLIP : Fld := ⟨0x200, 1, 1, 0⟩
/-- event: R167, R162, R160, R157, R165, R161, R170, R156 -/
def TXS.EV_ACK_DROP : Fld := ⟨0x200, 2, 1, 0⟩
/-- event: R167, R162, R160, R157, R165, R161, R170, R156 -/
def TXS.EV_ACK_YIELD : Fld := ⟨0x200, 3, 1, 0⟩
/-- event: R167, R162, R160, R157, R165, R161, R170, R156 -/
def TXS.EV_STAGGER_VIOL : Fld := ⟨0x200, 4, 1, 0⟩
/-- event: R167, R162, R160, R157, R165, R161, R170, R156 -/
def TXS.EV_RUN_END : Fld := ⟨0x200, 5, 1, 0⟩
/-- event: R167, R162, R160, R157, R165, R161, R170, R156 -/
def TXS.EV_TX_ABORT : Fld := ⟨0x200, 6, 1, 0⟩
/-- event: R167, R162, R160, R157, R165, R161, R170, R156 -/
def TXS.EV_ALARM_MISMATCH : Fld := ⟨0x200, 7, 1, 0⟩
/-- event: R164 -/
def TXS.EV_PD_APPLIED : Fld := ⟨0x200, 8, 1, 0⟩
/-- frame copies started -/
def TXS.FRAME_CNT : Fld := ⟨0x300, 0, 32, 0⟩
/-- acknowledgements sent -/
def TXS.ACK_CNT : Fld := ⟨0x304, 0, 32, 0⟩
/-- R167 -/
def TXS.CUT_PATTERN_CNT : Fld := ⟨0x308, 0, 32, 0⟩
/-- R167 -/
def TXS.CUT_SILENT_CNT : Fld := ⟨0x30C, 0, 32, 0⟩
/-- R160 -/
def TXS.ACK_DROP_CNT : Fld := ⟨0x310, 0, 32, 0⟩
/-- R157, R169 -/
def TXS.ACK_YIELD_CNT : Fld := ⟨0x314, 0, 32, 0⟩
/-- R160 -/
def TXS.LEVEL_WAIT_CNT : Fld := ⟨0x318, 0, 32, 0⟩
/-- R161 -/
def TXS.RUN_END_CNT : Fld := ⟨0x31C, 0, 32, 0⟩
/-- R162, samples -/
def TXS.CLIP_CNT : Fld := ⟨0x320, 0, 32, 0⟩
/-- R165 -/
def TXS.STAGGER_DELAY_CNT : Fld := ⟨0x324, 0, 32, 0⟩
/-- R165 -/
def TXS.STAGGER_VIOL_CNT : Fld := ⟨0x328, 0, 32, 0⟩
/-- R170 -/
def TXS.TX_ABORT_CNT : Fld := ⟨0x32C, 0, 32, 0⟩
/-- TXCHk centre, 250 Hz units; R97 when EN -/
def TXS.CENTRE : Fld := ⟨0x400, 0, 11, 16⟩
/-- 0 4 kbaud; 1 8 kbaud; 2 16 kbaud; 3 32 kbaud -/
def TXS.RATE : Fld := ⟨0x400, 12, 2, 16⟩
/-- definition in use -/
def TXS.EN : Fld := ⟨0x400, 16, 1, 16⟩
/-- P, 16 to 65,535; below 16 refused with RANGE -/
def TXS.PREAMBLE : Fld := ⟨0x404, 0, 16, 16⟩
/-- 0.5 dB below full scale (default −20.0 dBFS) -/
def TXS.LEVEL : Fld := ⟨0x404, 16, 8, 16⟩
/-- data sync word S -/
def TXS.SYNC_WORD : Fld := ⟨0x408, 0, 32, 16⟩
/-- signed, 2^−16 units; R164 -/
def TXS.PD_TAP : Fld := ⟨0x800, 0, 18, 4⟩
/-! Fields of page MIR (08_mirage_replay.md). -/

/-- 1 to 16 (R180); 0 refused; above 16 refused with RANGE -/
def MIR.SPEED : Fld := ⟨0x010, 0, 5, 0⟩
/-- R178 -/
def MIR.REPEAT_EN : Fld := ⟨0x010, 8, 1, 0⟩
/-- R178 -/
def MIR.PLAIN_EN : Fld := ⟨0x010, 9, 1, 0⟩
/-- R178 -/
def MIR.WIDE_EN : Fld := ⟨0x010, 10, 1, 0⟩
/-- R186 -/
def MIR.COMBINE_EN : Fld := ⟨0x010, 11, 1, 0⟩
/-- 500 to 20,000 µs (R184); 0 refused; others RANGE -/
def MIR.SEARCH_WIN_US : Fld := ⟨0x014, 0, 16, 0⟩
/-- sync tolerance of WIDE jobs, 0 to 7 -/
def MIR.WIDE_TOL : Fld := ⟨0x014, 16, 3, 0⟩
/-- 1 to 20,000 ms (R178); 0 refused; above 20,000 refused with RANGE -/
def MIR.WIDE_SPAN_MS : Fld := ⟨0x018, 0, 16, 0⟩
/-- 100 to 1,800 µs (R189); others RANGE -/
def MIR.ACK_CUTOFF_US : Fld := ⟨0x018, 16, 11, 0⟩
/-- sixteenths of the ring, 1 to 8 (R193); 0 refused; above 8 refused with RANGE -/
def MIR.PIN_LIMIT : Fld := ⟨0x01C, 0, 4, 0⟩
/-- bit i enables trigger source i (R194) -/
def MIR.TRIG_EN : Fld := ⟨0x01C, 16, 12, 0⟩
/-- R194; 0 legal -/
def MIR.TRIG_PRE_MS : Fld := ⟨0x020, 0, 16, 0⟩
/-- R194; 0 legal; both 0 refused with INCONSISTENT -/
def MIR.TRIG_POST_MS : Fld := ⟨0x020, 16, 16, 0⟩
/-- SAMPLE_TIME tick -/
def MIR.PIN_START_LO : Fld := ⟨0x040, 0, 32, 0⟩
/-- SAMPLE_TIME tick -/
def MIR.PIN_START_HI : Fld := ⟨0x044, 0, 32, 0⟩
/-- SAMPLE_TIME tick -/
def MIR.PIN_END_LO : Fld := ⟨0x048, 0, 32, 0⟩
/-- SAMPLE_TIME tick -/
def MIR.PIN_END_HI : Fld := ⟨0x04C, 0, 32, 0⟩
/-- region of the command -/
def MIR.PIN_REGION : Fld := ⟨0x050, 0, 4, 0⟩
/-- 1 PIN; 2 UNPIN; others no effect (R192, R193) -/
def MIR.PIN_ACTION : Fld := ⟨0x050, 8, 2, 0⟩
/-- tick to look up (R195) -/
def MIR.LOOKUP_LO : Fld := ⟨0x060, 0, 32, 0⟩
/-- tick to look up (R195) -/
def MIR.LOOKUP_HI : Fld := ⟨0x064, 0, 32, 0⟩
/-- port 0 to 15 -/
def MIR.DIAG_PORT : Fld := ⟨0x070, 0, 4, 0⟩
/-- as ERG RATE -/
def MIR.DIAG_RATE : Fld := ⟨0x070, 8, 2, 0⟩
/-- 0 STANDARD; 1 WIDE -/
def MIR.DIAG_TIMING : Fld := ⟨0x070, 12, 1, 0⟩
/-- 0 to 7 -/
def MIR.DIAG_SYNC_TOL : Fld := ⟨0x070, 16, 3, 0⟩
/-- sixteenths; 0 refused at GO -/
def MIR.DIAG_PD_THRESH : Fld := ⟨0x070, 20, 4, 0⟩
/-- R196 -/
def MIR.DIAG_NO_ERASE : Fld := ⟨0x070, 24, 1, 0⟩
/-- R196 -/
def MIR.DIAG_DUMP : Fld := ⟨0x070, 25, 1, 0⟩
/-- 250 Hz units; R97 checked at GO -/
def MIR.DIAG_CENTRE : Fld := ⟨0x074, 0, 11, 0⟩
/-- delivery ring 1 to 63; 0 refused at GO -/
def MIR.DIAG_RING : Fld := ⟨0x074, 16, 6, 0⟩
/-- data sync word -/
def MIR.DIAG_SYNC : Fld := ⟨0x078, 0, 32, 0⟩
/-- window ticks -/
def MIR.DIAG_START_LO : Fld := ⟨0x07C, 0, 32, 0⟩
/-- window ticks -/
def MIR.DIAG_START_HI : Fld := ⟨0x080, 0, 32, 0⟩
/-- window ticks -/
def MIR.DIAG_END_LO : Fld := ⟨0x084, 0, 32, 0⟩
/-- window ticks -/
def MIR.DIAG_END_HI : Fld := ⟨0x088, 0, 32, 0⟩
/-- offset in the DIAG_DUMP region, 64 KiB units -/
def MIR.DIAG_DUMP_ADDR : Fld := ⟨0x08C, 0, 21, 0⟩
/-- R196 -/
def MIR.DIAG_GO : Fld := ⟨0x090, 0, 1, 0⟩
/-- R196 -/
def MIR.DIAG_ABORT : Fld := ⟨0x090, 1, 1, 0⟩
/-- 0 OFF; 1 RECORDING; 2 STOPPED (L5 or standby) -/
def MIR.STATE : Fld := ⟨0x100, 0, 2, 0⟩
/-- a job is running -/
def MIR.REPLAY : Fld := ⟨0x100, 4, 1, 0⟩
/-- 0 NONE; 1 LEVEL; 2 CREDIT; 3 NO_ENGINE -/
def MIR.PAUSE_REASON : Fld := ⟨0x100, 8, 3, 0⟩
/-- speed in use (R180) -/
def MIR.SPEED_NOW : Fld := ⟨0x100, 16, 5, 0⟩
/-- slab positions in the ring -/
def MIR.SLABS_TOTAL : Fld := ⟨0x104, 0, 21, 0⟩
/-- PINNED or HELD positions -/
def MIR.SLABS_PINNED : Fld := ⟨0x108, 0, 21, 0⟩
/-- next position to be written -/
def MIR.HEAD_SLAB : Fld := ⟨0x10C, 0, 21, 0⟩
/-- oldest replayable tick (R177) -/
def MIR.OLDEST_LO : Fld := ⟨0x110, 0, 32, 0⟩
/-- oldest replayable tick (R177) -/
def MIR.OLDEST_HI : Fld := ⟨0x114, 0, 32, 0⟩
/-- unpinned slabs × 1 ms, in s -/
def MIR.RETENTION_S : Fld := ⟨0x118, 0, 16, 0⟩
/-- queued jobs -/
def MIR.JOBS_WAITING : Fld := ⟨0x11C, 0, 19, 0⟩
/-- age of the oldest queued window, saturating -/
def MIR.JOB_AGE_MS : Fld := ⟨0x120, 0, 16, 0⟩
/-- combine slots in use (R187) -/
def MIR.SLOTS_USED : Fld := ⟨0x120, 16, 10, 0⟩
/-- R195 -/
def MIR.LOOKUP_SLAB : Fld := ⟨0x124, 0, 21, 0⟩
/-- R195 -/
def MIR.LOOKUP_FOUND : Fld := ⟨0x124, 31, 1, 0⟩
/-- 0 FREE; 1 WAITING; 2 HELD -/
def MIR.PIN_ST : Fld := ⟨0x130, 0, 2, 4⟩
/-- R192 -/
def MIR.PARTIAL : Fld := ⟨0x130, 2, 1, 4⟩
/-- R194 -/
def MIR.TRIGGERED : Fld := ⟨0x130, 3, 1, 4⟩
/-- slabs pinned by the region -/
def MIR.SLABS : Fld := ⟨0x130, 8, 24, 4⟩
/-- 0 IDLE; 1 QUEUED; 2 RUNNING; 3 DONE -/
def MIR.DIAG_STATE : Fld := ⟨0x170, 0, 2, 0⟩
/-- frames delivered, saturating -/
def MIR.FRAMES : Fld := ⟨0x170, 8, 8, 0⟩
/-- failed syncs, saturating -/
def MIR.FAILS : Fld := ⟨0x170, 16, 8, 0⟩
/-- 0 OK; 1 ABORTED; 2 RING_LOST -/
def MIR.RESULT : Fld := ⟨0x170, 24, 4, 0⟩
/-- window start of the last RING_LOST -/
def MIR.LOST_TIME_LO : Fld := ⟨0x174, 0, 32, 0⟩
/-- window start of the last RING_LOST -/
def MIR.LOST_TIME_HI : Fld := ⟨0x178, 0, 32, 0⟩
/-- engine of the last RING_LOST -/
def MIR.LAST_LOST_ENGINE : Fld := ⟨0x17C, 0, 8, 0⟩
/-- 1 REPEAT; 2 PLAIN; 3 WIDE; 4 DIAG -/
def MIR.LAST_LOST_KIND : Fld := ⟨0x17C, 8, 3, 0⟩
/-- 0 OVERWRITTEN; 1 NOT_RECORDED; 2 QUEUE_FULL -/
def MIR.LAST_LOST_CAUSE : Fld := ⟨0x17C, 12, 2, 0⟩
/-- event: R191, R174, R192, R192, R194, R194, R196, more than 131,072 jobs queued, R187 -/
def MIR.EV_RING_LOST : Fld := ⟨0x200, 0, 1, 0⟩
/-- event: R191, R174, R192, R192, R194, R194, R196, more than 131,072 jobs queued, R187 -/
def MIR.EV_WRITE_LOSS : Fld := ⟨0x200, 1, 1, 0⟩
/-- event: R191, R174, R192, R192, R194, R194, R196, more than 131,072 jobs queued, R187 -/
def MIR.EV_PIN_DONE : Fld := ⟨0x200, 2, 1, 0⟩
/-- event: R191, R174, R192, R192, R194, R194, R196, more than 131,072 jobs queued, R187 -/
def MIR.EV_PIN_PARTIAL : Fld := ⟨0x200, 3, 1, 0⟩
/-- event: R191, R174, R192, R192, R194, R194, R196, more than 131,072 jobs queued, R187 -/
def MIR.EV_TRIGGER : Fld := ⟨0x200, 4, 1, 0⟩
/-- event: R191, R174, R192, R192, R194, R194, R196, more than 131,072 jobs queued, R187 -/
def MIR.EV_TRIG_MISSED : Fld := ⟨0x200, 5, 1, 0⟩
/-- event: R191, R174, R192, R192, R194, R194, R196, more than 131,072 jobs queued, R187 -/
def MIR.EV_DIAG_DONE : Fld := ⟨0x200, 6, 1, 0⟩
/-- event: R191, R174, R192, R192, R194, R194, R196, more than 131,072 jobs queued, R187 -/
def MIR.EV_JOBQ_HIGH : Fld := ⟨0x200, 7, 1, 0⟩
/-- event: R191, R174, R192, R192, R194, R194, R196, more than 131,072 jobs queued, R187 -/
def MIR.EV_SLOT_FULL : Fld := ⟨0x200, 8, 1, 0⟩
/-- jobs filed by kind -/
def MIR.REPEAT_JOBS : Fld := ⟨0x300, 0, 32, 0⟩
/-- jobs filed by kind -/
def MIR.PLAIN_JOBS : Fld := ⟨0x304, 0, 32, 0⟩
/-- jobs filed by kind -/
def MIR.WIDE_JOBS : Fld := ⟨0x308, 0, 32, 0⟩
/-- R179 -/
def MIR.MERGED_CNT : Fld := ⟨0x30C, 0, 32, 0⟩
/-- R185 -/
def MIR.COPY_FOUND_CNT : Fld := ⟨0x310, 0, 32, 0⟩
/-- R181, R185 -/
def MIR.COPY_MISSING_CNT : Fld := ⟨0x314, 0, 32, 0⟩
/-- combined fields that passed FCS and MIC -/
def MIR.COMBINE_OK_CNT : Fld := ⟨0x318, 0, 32, 0⟩
/-- R187 -/
def MIR.COMBINE_FAIL_CNT : Fld := ⟨0x31C, 0, 32, 0⟩
/-- records delivered with LATE -/
def MIR.LATE_CNT : Fld := ⟨0x320, 0, 32, 0⟩
/-- R190 -/
def MIR.LATE_DUP_CNT : Fld := ⟨0x324, 0, 32, 0⟩
/-- R190 -/
def MIR.LATE_STALE_CNT : Fld := ⟨0x328, 0, 32, 0⟩
/-- R191 -/
def MIR.RING_LOST_CNT : Fld := ⟨0x32C, 0, 32, 0⟩
/-- samples written as 0x8000 (R174) -/
def MIR.WRITE_LOSS_CNT : Fld := ⟨0x330, 0, 32, 0⟩
/-- R187 -/
def MIR.SLOT_FULL_CNT : Fld := ⟨0x334, 0, 32, 0⟩
/-- R189 -/
def MIR.ACKED_COMBINED_CNT : Fld := ⟨0x338, 0, 32, 0⟩
/-! Fields of page MAC (09_medium_access.md). -/

/-- R209 -/
def MAC.FORCE_FALLBACK : Fld := ⟨0x010, 0, 1, 0⟩
/-- raw-frame queue (R211) -/
def MAC.RAW_QUEUE : Fld := ⟨0x010, 16, 13, 0⟩
/-- TX_STAGGER: 50 to 100 µs (R165); 0 refused; others RANGE -/
def MAC.STAGGER_US : Fld := ⟨0x014, 0, 8, 0⟩
/-- class 1, 0 to 10 -/
def MAC.BE_MIN1 : Fld := ⟨0x018, 0, 4, 0⟩
/-- class 2, 0 to 10 -/
def MAC.BE_MIN2 : Fld := ⟨0x018, 4, 4, 0⟩
/-- class 3, 0 to 10 -/
def MAC.BE_MIN3 : Fld := ⟨0x018, 8, 4, 0⟩
/-- 0 to 10; below any BE_MIN refused with INCONSISTENT -/
def MAC.BE_MAX : Fld := ⟨0x018, 12, 4, 0⟩
/-- R200, 1 to 15; 0 refused -/
def MAC.MAX_ATTEMPTS : Fld := ⟨0x018, 16, 4, 0⟩
/-- BUSY_LIMIT: busy finds per attempt (R199); 0 refused -/
def MAC.LIMIT : Fld := ⟨0x01C, 0, 8, 0⟩
/-- sensing span, 31 to 1,000 µs (R198); 0 refused; others RANGE -/
def MAC.CCA_US : Fld := ⟨0x020, 0, 10, 0⟩
/-- 0.5 dB units above N_band (default 6.0 dB); 0 refused -/
def MAC.CS_DB : Fld := ⟨0x020, 16, 8, 0⟩
/-- 0.5 dB below full scale (default −60.0 dBFS) -/
def MAC.CS_ABS : Fld := ⟨0x020, 24, 8, 0⟩
/-- R207; 0 refused -/
def MAC.ACK_WIN_US : Fld := ⟨0x024, 0, 8, 0⟩
/-- R201 -/
def MAC.TXWIN_EN : Fld := ⟨0x028, 0, 1, 0⟩
/-- 0.5 dB units (default 6.0 dB); 0 refused -/
def MAC.NOISY_DB : Fld := ⟨0x028, 8, 8, 0⟩
/-- R201; 0 refused -/
def MAC.TXWIN_MAX_SLOTS : Fld := ⟨0x028, 16, 8, 0⟩
/-- WAKE: R215; 0 refused -/
def MAC.MISS_LIMIT : Fld := ⟨0x02C, 0, 4, 0⟩
/-- WAKE: R215; 0 refused -/
def MAC.FULL_LIMIT : Fld := ⟨0x02C, 4, 4, 0⟩
/-- R213; 0 legal (back to back) -/
def MAC.WAKE_GAP_MS : Fld := ⟨0x02C, 8, 8, 0⟩
/-- R216; 0 refused -/
def MAC.WAKE_DATA_GAP_MS : Fld := ⟨0x02C, 16, 8, 0⟩
/-- R216; 0 legal (no hold) -/
def MAC.WAKE_HOLD_SLOTS : Fld := ⟨0x02C, 24, 8, 0⟩
/-- 0 NORMAL; 1 FALLBACK -/
def MAC.REGIME : Fld := ⟨0x100, 0, 1, 0⟩
/-- 0 STARTUP; 1 LNK_STOPPED; 2 FORCED; 3 RECOVERY -/
def MAC.REASON : Fld := ⟨0x100, 1, 3, 0⟩
/-- wake trains in progress -/
def MAC.TRAINS : Fld := ⟨0x100, 8, 8, 0⟩
/-- bit (16p + k) mod 32 of word (16p + k) div 32: TXCHk of port p busy (R197) -/
def MAC.BUSY : Fld := ⟨0x110, 0, 32, 4⟩
/-- same layout: R208 -/
def MAC.DEAF : Fld := ⟨0x130, 0, 32, 4⟩
/-- event: R203, R199, R209, R208, R205, R213 -/
def MAC.EV_FORCED_ACCESS : Fld := ⟨0x200, 0, 1, 0⟩
/-- event: R203, R199, R209, R208, R205, R213 -/
def MAC.EV_BUSY_FAIL : Fld := ⟨0x200, 1, 1, 0⟩
/-- event: R203, R199, R209, R208, R205, R213 -/
def MAC.EV_REGIME_CHANGE : Fld := ⟨0x200, 2, 1, 0⟩
/-- event: R203, R199, R209, R208, R205, R213 -/
def MAC.EV_NO_ACK_ENGINE : Fld := ⟨0x200, 3, 1, 0⟩
/-- event: R203, R199, R209, R208, R205, R213 -/
def MAC.EV_ACK_LATE : Fld := ⟨0x200, 4, 1, 0⟩
/-- event: R203, R199, R209, R208, R205, R213 -/
def MAC.EV_WAKE_SKIP : Fld := ⟨0x200, 5, 1, 0⟩
/-- busy finds (R199) -/
def MAC.LBT_BUSY_CNT : Fld := ⟨0x300, 0, 32, 0⟩
/-- FAILED_CHANNEL_BUSY outcomes -/
def MAC.BUSY_FAIL_CNT : Fld := ⟨0x304, 0, 32, 0⟩
/-- R203 -/
def MAC.FORCED_CNT : Fld := ⟨0x308, 0, 32, 0⟩
/-- expected acknowledgements received -/
def MAC.ACK_RX_CNT : Fld := ⟨0x30C, 0, 32, 0⟩
/-- R207 -/
def MAC.ACK_MISS_CNT : Fld := ⟨0x310, 0, 32, 0⟩
/-- R205 -/
def MAC.ACK_LATE_CNT : Fld := ⟨0x314, 0, 32, 0⟩
/-- frames delivered OVERHEARD (R206) -/
def MAC.OVERHEARD_CNT : Fld := ⟨0x318, 0, 32, 0⟩
/-- R201 -/
def MAC.TXWIN_DEFER_CNT : Fld := ⟨0x31C, 0, 32, 0⟩
/-- wake frames sent -/
def MAC.WAKE_FRAME_CNT : Fld := ⟨0x320, 0, 32, 0⟩
/-- R213 -/
def MAC.WAKE_SKIP_CNT : Fld := ⟨0x324, 0, 32, 0⟩
/-- failed trains (R215) -/
def MAC.WAKE_FAIL_CNT : Fld := ⟨0x328, 0, 32, 0⟩
/-- R215 -/
def MAC.DRIFTED_CNT : Fld := ⟨0x32C, 0, 32, 0⟩
/-! Fields of page FLT (09_medium_access.md). -/

/-- bit f: broadcast frames with FTYPE f pass in FALLBACK (R210); bit 1 refused with RANGE -/
def FLT.BCAST_FTYPES : Fld := ⟨0x010, 0, 16, 0⟩
/-- event: a frame was dropped under R210 -/
def FLT.EV_FILTERED : Fld := ⟨0x200, 0, 1, 0⟩
/-- DST neither 0x000 nor 0xFFF -/
def FLT.FILTERED_DST_CNT : Fld := ⟨0x300, 0, 32, 0⟩
/-- SRC not allowed -/
def FLT.FILTERED_SRC_CNT : Fld := ⟨0x304, 0, 32, 0⟩
/-- broadcast FTYPE not allowed -/
def FLT.FILTERED_BCAST_CNT : Fld := ⟨0x308, 0, 32, 0⟩
/-- bit s mod 32 of word s div 32: SRC s allowed (R210) -/
def FLT.ALLOW : Fld := ⟨0x400, 0, 32, 4⟩
/-! Fields of page DWL (09_medium_access.md). -/

/-- R218, R220 -/
def DWL.RESERVE_EN : Fld := ⟨0x010, 0, 1, 0⟩
/-- class-0 share of port duty, permille -/
def DWL.RESERVE_PM : Fld := ⟨0x010, 16, 10, 0⟩
/-- on-time the reserve must admit (R220); 0 refused -/
def DWL.C0_ON_MS : Fld := ⟨0x014, 0, 16, 0⟩
/-- bits 4p + 3:4p: profile of port p, ports 0 to 7 -/
def DWL.PORT_PROF_LO : Fld := ⟨0x018, 0, 32, 0⟩
/-- ports 8 to 15 -/
def DWL.PORT_PROF_HI : Fld := ⟨0x01C, 0, 32, 0⟩
/-- port duty in the current window, permille -/
def DWL.PORT_USED : Fld := ⟨0x100, 0, 10, 4⟩
/-- class-0 and acknowledgement share of it -/
def DWL.C0_USED : Fld := ⟨0x100, 16, 10, 4⟩
/-- bit p: a port or channel duty window of port p ending now exceeds its DUTY_PM (R219) -/
def DWL.OVER : Fld := ⟨0x140, 0, 16, 0⟩
/-- R221 -/
def DWL.RESERVE_MISMATCH : Fld := ⟨0x140, 16, 1, 0⟩
/-- event: R219, R218, R221 -/
def DWL.EV_DWELL_OVER : Fld := ⟨0x200, 0, 1, 0⟩
/-- event: R219, R218, R221 -/
def DWL.EV_DWELL_REFUSED : Fld := ⟨0x200, 1, 1, 0⟩
/-- event: R219, R218, R221 -/
def DWL.EV_RESERVE_MISMATCH : Fld := ⟨0x200, 2, 1, 0⟩
/-- R218 -/
def DWL.DWELL_WAIT_CNT : Fld := ⟨0x300, 0, 32, 0⟩
/-- R218 -/
def DWL.DWELL_REFUSED_CNT : Fld := ⟨0x304, 0, 32, 0⟩
/-- R219 -/
def DWL.C0_OVER_CNT : Fld := ⟨0x308, 0, 32, 0⟩
/-- R219 -/
def DWL.ACK_OVER_CNT : Fld := ⟨0x30C, 0, 32, 0⟩
/-- bits 4k + 3:4k: profile of TXCHk of port p, k 0 to 7 -/
def DWL.CH_PROF_LO : Fld := ⟨0x400, 0, 32, 8⟩
/-- k 8 to 15 -/
def DWL.CH_PROF_HI : Fld := ⟨0x404, 0, 32, 8⟩
/-- profile j in force -/
def DWL.EN : Fld := ⟨0x800, 0, 1, 16⟩
/-- R217 -/
def DWL.MAX_ON_MS : Fld := ⟨0x800, 16, 16, 16⟩
/-- R217; 0 legal -/
def DWL.MIN_OFF_MS : Fld := ⟨0x804, 0, 16, 16⟩
/-- 1 to 3,600 s (R220) -/
def DWL.WINDOW_S : Fld := ⟨0x804, 16, 12, 16⟩
/-- 1 to 1,000 permille -/
def DWL.DUTY_PM : Fld := ⟨0x808, 0, 10, 16⟩
/-! Fields of page LNK (10_slafer_link_protocol.md). -/

/-- R223 -/
def LNK.REQUIRE_SEC : Fld := ⟨0x010, 0, 1, 0⟩
/-- R225 -/
def LNK.AUTH_DIAG : Fld := ⟨0x010, 1, 1, 0⟩
/-- 1 to 63; 0 with AUTH_DIAG set refused with INCONSISTENT -/
def LNK.AUTH_DIAG_RING : Fld := ⟨0x010, 8, 6, 0⟩
/-- R234, 1 to 31; 0 refused -/
def LNK.CTR_GAP_LOG2 : Fld := ⟨0x014, 0, 5, 0⟩
/-- R236; 0 refused -/
def LNK.REPLAY_LIMIT : Fld := ⟨0x014, 8, 8, 0⟩
/-- R228; 0 refused -/
def LNK.DUP_HOLD_S : Fld := ⟨0x014, 16, 16, 0⟩
/-- R244; 0 refused -/
def LNK.SACK_WAIT_MS : Fld := ⟨0x018, 0, 16, 0⟩
/-- R244; 0 refused -/
def LNK.QUERY_LIMIT : Fld := ⟨0x018, 16, 4, 0⟩
/-- R245; 0 refused -/
def LNK.CONTRA_LIMIT : Fld := ⟨0x018, 20, 4, 0⟩
/-- sender table; 0 refused -/
def LNK.PROBE_S : Fld := ⟨0x01C, 0, 16, 0⟩
/-- R239; 0 disables SILENT -/
def LNK.SILENT_S : Fld := ⟨0x01C, 16, 16, 0⟩
/-- sender and receiver tables (86,400 s); 0 refused -/
def LNK.HOLD_S : Fld := ⟨0x020, 0, 32, 0⟩
/-- link firmware watchdog; no heartbeat for WD_MS stops it (R17); 0 refused -/
def LNK.WD_MS : Fld := ⟨0x024, 0, 16, 0⟩
/-- R250 -/
def LNK.OPCODE : Fld := ⟨0x040, 0, 8, 0⟩
/-- returned in MB_STATUS -/
def LNK.CMD_TAG : Fld := ⟨0x040, 8, 8, 0⟩
/-- R250 -/
def LNK.MB_ARG : Fld := ⟨0x044, 0, 32, 4⟩
/-- R251; data port -/
def LNK.EVT_DATA : Fld := ⟨0x070, 0, 32, 0⟩
/-- 0 STOPPED; 1 BOOTING; 2 RUNNING; 3 HALTED -/
def LNK.FW_STATE : Fld := ⟨0x100, 0, 3, 0⟩
/-- 0x0004_0200 while release 4.2 runs -/
def LNK.FW_VERSION : Fld := ⟨0x104, 0, 32, 0⟩
/-- advanced by link firmware at least every 10 ms -/
def LNK.HEARTBEAT : Fld := ⟨0x108, 0, 32, 0⟩
/-- a command is being processed -/
def LNK.BUSY : Fld := ⟨0x10C, 0, 1, 0⟩
/-- tag of the last command -/
def LNK.MB_TAG : Fld := ⟨0x10C, 8, 8, 0⟩
/-- result table -/
def LNK.RESULT : Fld := ⟨0x10C, 16, 8, 0⟩
/-- response words -/
def LNK.MB_RESP : Fld := ⟨0x110, 0, 32, 4⟩
/-- events waiting -/
def LNK.EVT_FILL : Fld := ⟨0x130, 0, 11, 0⟩
/-- endpoint records -/
def LNK.EP_COUNT : Fld := ⟨0x134, 0, 12, 0⟩
/-- open sessions -/
def LNK.SESS_COUNT : Fld := ⟨0x134, 16, 9, 0⟩
/-- event: EVT_READY: EVT_FILL rose from 0 -/
def LNK.EV_MB_DONE : Fld := ⟨0x200, 0, 1, 0⟩
/-- event: EVT_READY: EVT_FILL rose from 0 -/
def LNK.EV_EVT_READY : Fld := ⟨0x200, 1, 1, 0⟩
/-- event: EVT_READY: EVT_FILL rose from 0 -/
def LNK.EV_FW_STOPPED : Fld := ⟨0x200, 2, 1, 0⟩
/-- event: EVT_READY: EVT_FILL rose from 0 -/
def LNK.EV_FW_RUNNING : Fld := ⟨0x200, 3, 1, 0⟩
/-- event: EVT_READY: EVT_FILL rose from 0 -/
def LNK.EV_EVT_LOST : Fld := ⟨0x200, 4, 1, 0⟩
/-- R228 -/
def LNK.DUP_CNT : Fld := ⟨0x300, 0, 32, 0⟩
/-- R234, R235 -/
def LNK.CTR_REPLAY_CNT : Fld := ⟨0x304, 0, 32, 0⟩
/-- R234 -/
def LNK.CTR_JUMP_CNT : Fld := ⟨0x308, 0, 32, 0⟩
/-- R223 -/
def LNK.MIC_FAIL_CNT : Fld := ⟨0x30C, 0, 32, 0⟩
/-- R223 -/
def LNK.NO_KEY_CNT : Fld := ⟨0x310, 0, 32, 0⟩
/-- R223 -/
def LNK.UNSECURED_CNT : Fld := ⟨0x314, 0, 32, 0⟩
/-- R223 -/
def LNK.ECHO_CNT : Fld := ⟨0x318, 0, 32, 0⟩
/-- R239 -/
def LNK.FTYPE_UNKNOWN_CNT : Fld := ⟨0x31C, 0, 32, 0⟩
/-- R249 -/
def LNK.FTYPE_RULE_CNT : Fld := ⟨0x320, 0, 32, 0⟩
/-- R243 -/
def LNK.SEG_DUP_CNT : Fld := ⟨0x324, 0, 32, 0⟩
/-- R243 -/
def LNK.SEG_OUT_WIN_CNT : Fld := ⟨0x328, 0, 32, 0⟩
/-- R243 -/
def LNK.SEG_BAD_CNT : Fld := ⟨0x32C, 0, 32, 0⟩
/-- R245 -/
def LNK.SACK_CONTRA_CNT : Fld := ⟨0x330, 0, 32, 0⟩
/-- sessions closed COMPLETE -/
def LNK.SESS_DONE_CNT : Fld := ⟨0x334, 0, 32, 0⟩
/-- sessions closed otherwise -/
def LNK.SESS_FAIL_CNT : Fld := ⟨0x338, 0, 32, 0⟩
/-- R249 -/
def LNK.ROUTE_ODD_CNT : Fld := ⟨0x33C, 0, 32, 0⟩
/-- R251 -/
def LNK.EVT_LOST_CNT : Fld := ⟨0x340, 0, 32, 0⟩
/-! Fields of page WAD (11_wadi_queues_and_classes.md). -/

/-- R268; 0 refused with INCONSISTENT -/
def WAD.RX_RING1 : Fld := ⟨0x010, 0, 6, 0⟩
/-- as RX_RING1 -/
def WAD.RX_RING2 : Fld := ⟨0x010, 8, 6, 0⟩
/-- as RX_RING1 -/
def WAD.RX_RING3 : Fld := ⟨0x010, 16, 6, 0⟩
/-- as RX_RING1 -/
def WAD.FB_RING : Fld := ⟨0x010, 24, 6, 0⟩
/-- R268; 0: not delivered -/
def WAD.OVH_RING : Fld := ⟨0x014, 0, 6, 0⟩
/-- R268; 0 refused with INCONSISTENT -/
def WAD.CUT_RING : Fld := ⟨0x014, 8, 6, 0⟩
/-- R261; 0 refused -/
def WAD.WEIGHT1 : Fld := ⟨0x018, 0, 4, 0⟩
/-- 0 refused -/
def WAD.WEIGHT2 : Fld := ⟨0x018, 8, 4, 0⟩
/-- 0 refused -/
def WAD.WEIGHT3 : Fld := ⟨0x018, 16, 4, 0⟩
/-- R261 (10,000 µs); 0 refused -/
def WAD.QUANTUM_US : Fld := ⟨0x01C, 0, 16, 0⟩
/-- messages waiting or in flight -/
def WAD.MSG_QUEUED : Fld := ⟨0x100, 0, 24, 0⟩
/-- free WADI_MSG slots -/
def WAD.POOL_FREE : Fld := ⟨0x104, 0, 24, 0⟩
/-- queues not CLOSED -/
def WAD.OPEN_QUEUES : Fld := ⟨0x108, 0, 14, 0⟩
/-- class-0 messages not yet completed -/
def WAD.C0_WAITING : Fld := ⟨0x108, 16, 16, 0⟩
/-- R267 -/
def WAD.HELD_REFUSALS : Fld := ⟨0x10C, 0, 13, 0⟩
/-- event: R269; R269; R267; POOL_FREE below 1/16 of the pool; R263; C0_BOUND_MISS_CNT advanced -/
def WAD.EV_RING_FULL : Fld := ⟨0x200, 0, 1, 0⟩
/-- event: R269; R269; R267; POOL_FREE below 1/16 of the pool; R263; C0_BOUND_MISS_CNT advanced -/
def WAD.EV_RING0_FULL : Fld := ⟨0x200, 1, 1, 0⟩
/-- event: R269; R269; R267; POOL_FREE below 1/16 of the pool; R263; C0_BOUND_MISS_CNT advanced -/
def WAD.EV_COMP_HELD : Fld := ⟨0x200, 2, 1, 0⟩
/-- event: R269; R269; R267; POOL_FREE below 1/16 of the pool; R263; C0_BOUND_MISS_CNT advanced -/
def WAD.EV_POOL_LOW : Fld := ⟨0x200, 3, 1, 0⟩
/-- event: R269; R269; R267; POOL_FREE below 1/16 of the pool; R263; C0_BOUND_MISS_CNT advanced -/
def WAD.EV_BUDGET_REFUSED : Fld := ⟨0x200, 4, 1, 0⟩
/-- event: R269; R269; R267; POOL_FREE below 1/16 of the pool; R263; C0_BOUND_MISS_CNT advanced -/
def WAD.EV_C0_BOUND_MISS : Fld := ⟨0x200, 5, 1, 0⟩
/-- submissions accepted -/
def WAD.ACCEPTED_CNT : Fld := ⟨0x300, 0, 32, 0⟩
/-- outcomes 0x20 to 0x25 -/
def WAD.REFUSED_CNT : Fld := ⟨0x304, 0, 32, 0⟩
/-- outcomes 0x00 to 0x02 -/
def WAD.DELIVERED_CNT : Fld := ⟨0x308, 0, 32, 0⟩
/-- outcomes 0x10 to 0x14 -/
def WAD.FAILED_CNT : Fld := ⟨0x30C, 0, 32, 0⟩
/-- outcome 0x30 -/
def WAD.EXPIRED_CNT : Fld := ⟨0x310, 0, 32, 0⟩
/-- outcome 0x31 -/
def WAD.CANCELLED_CNT : Fld := ⟨0x314, 0, 32, 0⟩
/-- delivery records written -/
def WAD.RX_RECORD_CNT : Fld := ⟨0x318, 0, 32, 0⟩
/-- R269 -/
def WAD.RX_DROP_FULL_CNT : Fld := ⟨0x31C, 0, 32, 0⟩
/-- R267 -/
def WAD.COMP_LOST_CNT : Fld := ⟨0x320, 0, 32, 0⟩
/-- class-0 submissions accepted -/
def WAD.C0_ACCEPTED_CNT : Fld := ⟨0x324, 0, 32, 0⟩
/-- class-0 first t0 later than one half-cycle + 3 ms after its interval start (R273) -/
def WAD.C0_BOUND_MISS_CNT : Fld := ⟨0x328, 0, 32, 0⟩
/-- ring n takes records; EN 0 on ring 0 refused with INCONSISTENT -/
def WAD.EN : Fld := ⟨0x400, 0, 1, 16⟩
/-- entries − 1 (1,024 entries at reset, which fit the reset BASE spacing); below 15 refused with RANGE -/
def WAD.SIZE_M1 : Fld := ⟨0x400, 8, 16, 16⟩
/-- offset in the WADI_RING region, 4 KiB units; beyond the region refused with RANGE -/
def WAD.BASE : Fld := ⟨0x404, 0, 24, 16⟩
/-- R270; 0 refused -/
def WAD.INT_THRESH : Fld := ⟨0x408, 0, 16, 16⟩
/-- R270; 0 disables the age term -/
def WAD.INT_HOLD_US : Fld := ⟨0x408, 16, 16, 16⟩
/-- bit a mod 32 of word a div 32 (R265) -/
def WAD.PENDING_EP : Fld := ⟨0x800, 0, 32, 4⟩
/-! Fields of page WQD (11_wadi_queues_and_classes.md). -/

/-- queue 0 to 8,191 -/
def WQD.QD_IDX : Fld := ⟨0x010, 0, 13, 0⟩
/-- 0 Alarm; 1 Control; 2 Metering; 3 Bulk -/
def WQD.CLASS : Fld := ⟨0x014, 0, 2, 0⟩
/-- line port -/
def WQD.PORT : Fld := ⟨0x014, 4, 4, 0⟩
/-- transmit channel; ignored for class 0 (R252) -/
def WQD.TXCH : Fld := ⟨0x014, 8, 4, 0⟩
/-- bits 7:2 as R115; bits 1:0 ignored; MOD or CODE 3 refused with RANGE (R252) -/
def WQD.MODE : Fld := ⟨0x014, 16, 8, 0⟩
/-- destination, 0x001 to 0xFFF; 0x000 refused (R252) -/
def WQD.DST : Fld := ⟨0x018, 0, 12, 0⟩
/-- default and redirect ring (R267) -/
def WQD.COMP_RING : Fld := ⟨0x018, 16, 6, 0⟩
/-- 0 FAIL; 1 HOLD (R264) -/
def WQD.FAULT_POLICY : Fld := ⟨0x018, 24, 1, 0⟩
/-- messages, 1 to 65,535; 0 refused -/
def WQD.CAPACITY : Fld := ⟨0x01C, 0, 16, 0⟩
/-- R263 (5,000 ms); 0 disables -/
def WQD.BUDGET_WAIT_MS : Fld := ⟨0x01C, 16, 16, 0⟩
/-- R263; 0: no deadline -/
def WQD.DEF_DEADLINE_MS : Fld := ⟨0x020, 0, 16, 0⟩
/-- 1 OPEN; 2 CLOSE; 3 PAUSE; 4 RESUME; 5 FLUSH; 6 CANCEL (R254, R264); others no effect -/
def WQD.OP : Fld := ⟨0x040, 0, 4, 0⟩
/-- tag for CANCEL -/
def WQD.TAG : Fld := ⟨0x040, 16, 16, 0⟩
/-- the indexed queue's QSTATUS, as laid out below -/
def WQD.QD_STATUS : Fld := ⟨0x100, 0, 32, 0⟩
/-- tag in flight; 0 if none -/
def WQD.INFLIGHT_TAG : Fld := ⟨0x104, 0, 16, 0⟩
/-- attempts made by the message in flight -/
def WQD.ATTEMPTS : Fld := ⟨0x104, 16, 4, 0⟩
/-- time the head has waited, saturating -/
def WQD.HEAD_AGE_MS : Fld := ⟨0x108, 0, 16, 0⟩
/-- submissions accepted by the indexed queue -/
def WQD.Q_ACCEPTED : Fld := ⟨0x10C, 0, 32, 0⟩
/-- outcomes 0x00 to 0x02 -/
def WQD.Q_ENDED_OK : Fld := ⟨0x110, 0, 32, 0⟩
/-- all other outcomes -/
def WQD.Q_ENDED_OTHER : Fld := ⟨0x114, 0, 32, 0⟩
/-- event: a command was refused -/
def WQD.EV_CMD_REFUSED : Fld := ⟨0x200, 0, 1, 0⟩
/-! Fields of page OAS (12_oasis_governor.md). -/

/-- host cap, mW; 0 disables the cap; 1 to 1,499 refused with RANGE -/
def OAS.CAP_MW : Fld := ⟨0x010, 0, 16, 0⟩
/-- class-0 reserve, mW (R285) -/
def OAS.RES_C0_MW : Fld := ⟨0x010, 16, 16, 0⟩
/-- R285, R286 -/
def OAS.RES_C0_EN : Fld := ⟨0x014, 0, 1, 0⟩
/-- R295 -/
def OAS.SPRINT_EN : Fld := ⟨0x014, 1, 1, 0⟩
/-- minimum level, 0 to 4; 5 to 7 refused with RANGE -/
def OAS.FORCE_LEVEL : Fld := ⟨0x014, 4, 3, 0⟩
/-- 5 to 200 µs (R277); others refused with RANGE -/
def OAS.STAGGER_US : Fld := ⟨0x014, 16, 8, 0⟩
/-- °C (115); R291 -/
def OAS.TJ_L1 : Fld := ⟨0x018, 0, 8, 0⟩
/-- °C (121) -/
def OAS.TJ_L2 : Fld := ⟨0x018, 8, 8, 0⟩
/-- °C (123) -/
def OAS.TJ_L3 : Fld := ⟨0x018, 16, 8, 0⟩
/-- °C (125); thresholds not strictly rising refused with INCONSISTENT; above 127 refused with RANGE -/
def OAS.TJ_L4 : Fld := ⟨0x018, 24, 8, 0⟩
/-- °C; 0 refused -/
def OAS.TJ_HYST : Fld := ⟨0x01C, 0, 4, 0⟩
/-- R291; 0 refused -/
def OAS.STEP_DOWN_MS : Fld := ⟨0x01C, 16, 16, 0⟩
/-- R292; 0 refused -/
def OAS.CAP_OVER_MS : Fld := ⟨0x020, 0, 16, 0⟩
/-- R292; 0 refused -/
def OAS.CAP_HOLD_MS : Fld := ⟨0x020, 16, 16, 0⟩
/-- R292; 0 refused -/
def OAS.CAP_HYST_MW : Fld := ⟨0x024, 0, 16, 0⟩
/-- R283; 0 disables the hold -/
def OAS.STARVE_MS : Fld := ⟨0x024, 16, 16, 0⟩
/-- 10,500 mA; above 10,500 refused with RANGE -/
def OAS.VCORE_SPRINT_MA : Fld := ⟨0x028, 0, 16, 0⟩
/-- 11,500 mA; above 12,000 refused with RANGE; below VCORE_SPRINT_MA refused with INCONSISTENT -/
def OAS.VCORE_LIMIT_MA : Fld := ⟨0x028, 16, 16, 0⟩
/-- 1 SERVICE; 2 STANDBY; 3 DEEP_SLEEP; 0 no effect (R297) -/
def OAS.MODE_CMD : Fld := ⟨0x040, 0, 2, 0⟩
/-- L0 to L5 -/
def OAS.LEVEL : Fld := ⟨0x100, 0, 3, 0⟩
/-- 0 NONE; 1 THERMAL; 2 THERMAL_SPRINT; 3 CAP; 4 RAIL; 5 TRIP; 6 HOST; 7 SENSOR -/
def OAS.REASON : Fld := ⟨0x100, 4, 3, 0⟩
/-- R291 -/
def OAS.THERMAL_LEVEL : Fld := ⟨0x100, 8, 3, 0⟩
/-- R292 -/
def OAS.CAP_LEVEL : Fld := ⟨0x100, 12, 3, 0⟩
/-- R295 -/
def OAS.SPRINT : Fld := ⟨0x100, 16, 1, 0⟩
/-- 0 SERVICE; 1 STANDBY -/
def OAS.MODE : Fld := ⟨0x100, 17, 2, 0⟩
/-- R285 -/
def OAS.RESERVE_SHORT : Fld := ⟨0x100, 19, 1, 0⟩
/-- signed °C (R280) -/
def OAS.TJ : Fld := ⟨0x104, 0, 8, 0⟩
/-- sensor giving TJ -/
def OAS.HOT_SENSOR : Fld := ⟨0x104, 8, 4, 0⟩
/-- bit s: sensor s valid -/
def OAS.VALID_SENSORS : Fld := ⟨0x104, 16, 16, 0⟩
/-- R279 -/
def OAS.P_TOTAL_MW : Fld := ⟨0x108, 0, 16, 0⟩
/-- R281 -/
def OAS.P_BASE_MW : Fld := ⟨0x108, 16, 16, 0⟩
/-- R281 -/
def OAS.COMMITTED_MW : Fld := ⟨0x10C, 0, 16, 0⟩
/-- signed; R281 -/
def OAS.FREE_MW : Fld := ⟨0x10C, 16, 16, 0⟩
/-- reserve in use -/
def OAS.C0_COMMITTED_MW : Fld := ⟨0x110, 0, 16, 0⟩
/-- duration of the current or last sprint, saturating -/
def OAS.SPRINT_TIME_S : Fld := ⟨0x110, 16, 16, 0⟩
/-- rail current in the order of R279, last sample -/
def OAS.RAIL_MA : Fld := ⟨0x120, 0, 16, 4⟩
/-- rail power, last sample -/
def OAS.RAIL_MW : Fld := ⟨0x120, 16, 16, 4⟩
/-- signed, 1/16 °C -/
def OAS.TJ_S : Fld := ⟨0x150, 0, 16, 4⟩
/-- R280 -/
def OAS.VALID : Fld := ⟨0x150, 16, 1, 4⟩
/-- signed mJ (R288) -/
def OAS.TOKENS : Fld := ⟨0x190, 0, 16, 4⟩
/-- signed °C (R289) -/
def OAS.AMP_T : Fld := ⟨0x190, 16, 8, 4⟩
/-- f below 1 -/
def OAS.DERATE : Fld := ⟨0x190, 24, 1, 4⟩
/-- R289 -/
def OAS.AMP_HOT : Fld := ⟨0x190, 25, 1, 4⟩
/-- R289 -/
def OAS.AMP_SENSOR_FAULT : Fld := ⟨0x190, 26, 1, 4⟩
/-- event: R290, R291, R295, R296, R292, R280, R285, R285, R289, R293 -/
def OAS.EV_LEVEL_CHANGE : Fld := ⟨0x200, 0, 1, 0⟩
/-- event: R290, R291, R295, R296, R292, R280, R285, R285, R289, R293 -/
def OAS.EV_TRIP : Fld := ⟨0x200, 1, 1, 0⟩
/-- event: R290, R291, R295, R296, R292, R280, R285, R285, R289, R293 -/
def OAS.EV_SPRINT_START : Fld := ⟨0x200, 2, 1, 0⟩
/-- event: R290, R291, R295, R296, R292, R280, R285, R285, R289, R293 -/
def OAS.EV_SPRINT_END : Fld := ⟨0x200, 3, 1, 0⟩
/-- event: R290, R291, R295, R296, R292, R280, R285, R285, R289, R293 -/
def OAS.EV_CAP_UNREACHABLE : Fld := ⟨0x200, 4, 1, 0⟩
/-- event: R290, R291, R295, R296, R292, R280, R285, R285, R289, R293 -/
def OAS.EV_SENSOR_FAULT : Fld := ⟨0x200, 5, 1, 0⟩
/-- event: R290, R291, R295, R296, R292, R280, R285, R285, R289, R293 -/
def OAS.EV_RESERVE_SHORT : Fld := ⟨0x200, 6, 1, 0⟩
/-- event: R290, R291, R295, R296, R292, R280, R285, R285, R289, R293 -/
def OAS.EV_C0_OVERDRAW : Fld := ⟨0x200, 7, 1, 0⟩
/-- event: R290, R291, R295, R296, R292, R280, R285, R285, R289, R293 -/
def OAS.EV_AMP_HOT : Fld := ⟨0x200, 8, 1, 0⟩
/-- event: R290, R291, R295, R296, R292, R280, R285, R285, R289, R293 -/
def OAS.EV_RAIL_LIMIT : Fld := ⟨0x200, 9, 1, 0⟩
/-- R290 -/
def OAS.LEVEL_UP_CNT : Fld := ⟨0x300, 0, 32, 0⟩
/-- entries to L5 -/
def OAS.TRIP_CNT : Fld := ⟨0x304, 0, 32, 0⟩
/-- R295 -/
def OAS.SPRINT_CNT : Fld := ⟨0x308, 0, 32, 0⟩
/-- R283 -/
def OAS.DISPATCH_REFUSE_CNT : Fld := ⟨0x30C, 0, 32, 0⟩
/-- R283 -/
def OAS.STARVE_HOLD_CNT : Fld := ⟨0x310, 0, 32, 0⟩
/-- R285 -/
def OAS.C0_OVERDRAW_CNT : Fld := ⟨0x314, 0, 32, 0⟩
/-- R288 -/
def OAS.LINE_WAIT_CNT : Fld := ⟨0x318, 0, 32, 0⟩
/-- R293 -/
def OAS.RAIL_LIMIT_CNT : Fld := ⟨0x31C, 0, 32, 0⟩
/-- R280 -/
def OAS.SENSOR_FAULT_CNT : Fld := ⟨0x320, 0, 32, 0⟩
/-- port p fill rate, mW; 0 disables the line budget -/
def OAS.LINE_MW : Fld := ⟨0x400, 0, 16, 16⟩
/-- 3,000 mJ; 0 refused while LINE_MW is not 0 -/
def OAS.LINE_BURST_MJ : Fld := ⟨0x400, 16, 16, 16⟩
/-- 100 mJ; above LINE_BURST_MJ refused with INCONSISTENT -/
def OAS.LINE_RES_MJ : Fld := ⟨0x404, 0, 16, 16⟩
/-- decimator channel of the port's amplifier RTD -/
def OAS.AMP_RTD : Fld := ⟨0x404, 16, 5, 16⟩
/-- R289 -/
def OAS.AMP_RTD_EN : Fld := ⟨0x404, 24, 1, 16⟩
/-- 90 °C -/
def OAS.AMP_T_DERATE : Fld := ⟨0x408, 0, 8, 16⟩
/-- 110 °C; not above AMP_T_DERATE refused with INCONSISTENT -/
def OAS.AMP_T_MAX : Fld := ⟨0x408, 8, 8, 16⟩
/-- R287; written by link firmware only -/
def OAS.COST : Fld := ⟨0x500, 0, 16, 4⟩
/-! Fields of page PWD0 (12_oasis_governor.md). -/

/-- domain d: 0 AUTO; 1 KEEP_ON; 2 KEEP_OFF (R276); 3 refused with RANGE -/
def PWD0.REQ : Fld := ⟨0x400, 0, 2, 4⟩
/-! Fields of page PWD1 (12_oasis_governor.md). -/

/-- domains on -/
def PWD1.ON_COUNT : Fld := ⟨0x100, 0, 8, 0⟩
/-- domains waiting to wake -/
def PWD1.WAIT_COUNT : Fld := ⟨0x100, 8, 8, 0⟩
/-- 0 OFF; 1 WAKING; 2 ON; 3 DRAINING -/
def PWD1.STATE : Fld := ⟨0x400, 0, 2, 4⟩
/-- 0 DEMAND; 1 HOST; 2 THROTTLE; 3 MODE; 4 STRAP (R24); 5 IDLE -/
def PWD1.CAUSE : Fld := ⟨0x400, 4, 4, 4⟩
/-- wakes, wrapping -/
def PWD1.WAKE_CNT : Fld := ⟨0x400, 16, 16, 4⟩
/-- event: R278 -/
def PWD1.EV_DOMAIN_CHANGE : Fld := ⟨0x200, 0, 1, 0⟩
/-- wakes of all domains -/
def PWD1.WAKE_TOTAL : Fld := ⟨0x300, 0, 32, 0⟩
/-- urgent wakes (R277) -/
def PWD1.URGENT_WAKE_CNT : Fld := ⟨0x304, 0, 32, 0⟩
/-! Fields of page SNS (13_sense_front_end.md). -/

/-- group g: bit i serves input 4g + i; 0 disables the group -/
def SNS.SEQ_EN : Fld := ⟨0x010, 0, 4, 4⟩
/-- R300; 0 refused -/
def SNS.OUTPUTS_PER_SLOT : Fld := ⟨0x010, 8, 8, 4⟩
/-- modulator clocks (R302); 0 legal -/
def SNS.SETTLE : Fld := ⟨0x030, 0, 16, 4⟩
/-- pin SNS_BLANKk in use (R307) -/
def SNS.BLANK_EN : Fld := ⟨0x050, 0, 1, 4⟩
/-- 0 active high; 1 active low -/
def SNS.POL : Fld := ⟨0x050, 1, 1, 4⟩
/-- 0 PAUSE; 1 FLAG -/
def SNS.MODE : Fld := ⟨0x050, 2, 1, 4⟩
/-- 0.1 ms units, 0 to 25.5 ms; 0 legal -/
def SNS.PRE_GUARD : Fld := ⟨0x050, 8, 8, 4⟩
/-- 0.1 ms units (default 5.0 ms); 0 legal -/
def SNS.POST_GUARD : Fld := ⟨0x050, 16, 16, 4⟩
/-- bit g: SNS_BLANK0 acts on group g -/
def SNS.BLANK0_GROUPS : Fld := ⟨0x058, 0, 8, 0⟩
/-- bit g: SNS_BLANK1 acts on group g -/
def SNS.BLANK1_GROUPS : Fld := ⟨0x058, 8, 8, 0⟩
/-- R308 (10,000 ms); 0 refused -/
def SNS.BLANK_MAX_MS : Fld := ⟨0x058, 16, 16, 0⟩
/-- R309; 0 disables periodic checks -/
def SNS.CHECK_MS : Fld := ⟨0x05C, 0, 16, 0⟩
/-- bit n: check input n now (R309) -/
def SNS.CHECK_NOW : Fld := ⟨0x060, 0, 32, 0⟩
/-- detector k: decimator channel (R313) -/
def SNS.SRC : Fld := ⟨0x080, 0, 5, 8⟩
/-- 0 OFF; 1 ABOVE; 2 BELOW; 3 STEP -/
def SNS.DET_KIND : Fld := ⟨0x080, 8, 2, 8⟩
/-- R313; 0 legal -/
def SNS.HOLDOFF_MS : Fld := ⟨0x080, 16, 16, 8⟩
/-- µV; 0 refused while KIND is not OFF -/
def SNS.THRESH_UV : Fld := ⟨0x084, 0, 21, 8⟩
/-- input n at 0x100 + 4n: 0 UNCHECKED; 1 OK; 2 OPEN; 3 SHORT -/
def SNS.STATE : Fld := ⟨0x100, 0, 3, 4⟩
/-- last result of R311 -/
def SNS.REVERSED : Fld := ⟨0x100, 3, 1, 4⟩
/-- active range code -/
def SNS.RANGE_NOW : Fld := ⟨0x100, 4, 3, 4⟩
/-- the input's slot is running -/
def SNS.ACTIVE : Fld := ⟨0x100, 8, 1, 4⟩
/-- last open-check reading, mV -/
def SNS.CHECK_MV : Fld := ⟨0x100, 16, 16, 4⟩
/-- bit n: input n OPEN or SHORT -/
def SNS.WIRE_FAULTS : Fld := ⟨0x180, 0, 32, 0⟩
/-- bit k: window of pin k open -/
def SNS.BLANK_ACTIVE : Fld := ⟨0x184, 0, 2, 0⟩
/-- bit 2 + k: pin k ignored (R308) -/
def SNS.BLANK_IGNORED : Fld := ⟨0x184, 2, 2, 0⟩
/-- SAMPLE_TIME of the last firing (R313) -/
def SNS.EVT_TIME_LO : Fld := ⟨0x188, 0, 32, 0⟩
/-- SAMPLE_TIME of the last firing (R313) -/
def SNS.EVT_TIME_HI : Fld := ⟨0x18C, 0, 32, 0⟩
/-- detector of the last firing -/
def SNS.EVT_LAST : Fld := ⟨0x190, 0, 3, 0⟩
/-- event: R312, R312, R311, an input went OPEN through R305 -/
def SNS.EV_OPEN : Fld := ⟨0x200, 0, 1, 0⟩
/-- event: R312, R312, R311, an input went OPEN through R305 -/
def SNS.EV_SHORT : Fld := ⟨0x200, 1, 1, 0⟩
/-- event: R312, R312, R311, an input went OPEN through R305 -/
def SNS.EV_REVERSED : Fld := ⟨0x200, 2, 1, 0⟩
/-- event: R312, R312, R311, an input went OPEN through R305 -/
def SNS.EV_COMPLIANCE_SEEN : Fld := ⟨0x200, 3, 1, 0⟩
/-- event: R313 -/
def SNS.EV_GRID_EVENT : Fld := ⟨0x200, 4, 8, 0⟩
/-- event: bit 12 + k: R308 -/
def SNS.EV_BLANK_STUCK : Fld := ⟨0x200, 12, 2, 0⟩
/-- event: bit 14 + k: R308 -/
def SNS.EV_BLANK_EDGE : Fld := ⟨0x200, 14, 2, 0⟩
/-- R312 -/
def SNS.OPEN_CNT : Fld := ⟨0x300, 0, 32, 0⟩
/-- R312 -/
def SNS.SHORT_CNT : Fld := ⟨0x304, 0, 32, 0⟩
/-- R311 -/
def SNS.REVERSED_CNT : Fld := ⟨0x308, 0, 32, 0⟩
/-- R303 -/
def SNS.OVERRANGE_CNT : Fld := ⟨0x30C, 0, 32, 0⟩
/-- R303, R304 -/
def SNS.RANGE_CHANGE_CNT : Fld := ⟨0x310, 0, 32, 0⟩
/-- outputs not emitted (R307) -/
def SNS.BLANKED_CNT : Fld := ⟨0x314, 0, 32, 0⟩
/-- R308 -/
def SNS.BLANK_STUCK_CNT : Fld := ⟨0x318, 0, 32, 0⟩
/-- R313 -/
def SNS.GRID_EVENT_CNT : Fld := ⟨0x31C, 0, 32, 0⟩
/-- open checks run -/
def SNS.CHECK_CNT : Fld := ⟨0x320, 0, 32, 0⟩
/-- input n: 0 GENERIC; 1 VOLTAGE; 2 CURRENT; 3 RTD; 4 BRIDGE; 5 to 7 refused with RANGE -/
def SNS.KIND : Fld := ⟨0x400, 0, 3, 16⟩
/-- range code, fixed or starting (R303) -/
def SNS.RANGE : Fld := ⟨0x400, 4, 3, 16⟩
/-- R303, R304 -/
def SNS.AUTORANGE : Fld := ⟨0x400, 8, 1, 16⟩
/-- above RANGE_MAX refused with INCONSISTENT -/
def SNS.RANGE_MIN : Fld := ⟨0x400, 12, 3, 16⟩
/-- Highest range of an input. -/
def SNS.RANGE_MAX : Fld := ⟨0x400, 16, 3, 16⟩
/-- R309 -/
def SNS.OPEN_CHECK : Fld := ⟨0x400, 20, 1, 16⟩
/-- R311 -/
def SNS.REV_CHECK : Fld := ⟨0x400, 21, 1, 16⟩
/-- R311; must be of KIND VOLTAGE when REV_CHECK is set on a CURRENT input, else INCONSISTENT -/
def SNS.REF_INPUT : Fld := ⟨0x400, 24, 5, 16⟩
/-- 0.1 Ω units (default 50.0 Ω); 0 disables the resistance test -/
def SNS.SHORT_LIMIT : Fld := ⟨0x404, 0, 16, 16⟩
/-- R304; 0 refused -/
def SNS.UP_HOLD_MS : Fld := ⟨0x404, 16, 16, 16⟩
/-! Fields of page EXC (13_sense_front_end.md). -/

/-- source s: 10 µA units, 1 to 250; 0 off (R305) -/
def EXC.CODE : Fld := ⟨0x010, 0, 8, 4⟩
/-- input fed; with FOLLOW, its group -/
def EXC.INPUT : Fld := ⟨0x010, 8, 5, 4⟩
/-- R305 -/
def EXC.FOLLOW : Fld := ⟨0x010, 16, 1, 4⟩
/-- R306 -/
def EXC.AUTO_BLANK : Fld := ⟨0x020, 0, 1, 0⟩
/-- input fed now -/
def EXC.INPUT_NOW : Fld := ⟨0x100, 0, 5, 4⟩
/-- source delivering current -/
def EXC.ON : Fld := ⟨0x100, 8, 1, 4⟩
/-- R305 -/
def EXC.COMPLIANCE : Fld := ⟨0x100, 9, 1, 4⟩
/-- output voltage, mV -/
def EXC.V_OUT_MV : Fld := ⟨0x100, 16, 16, 4⟩
/-- event: bit s: R305 -/
def EXC.EV_COMPLIANCE : Fld := ⟨0x200, 0, 4, 0⟩
/-- event: bit 4 + s: a committed change took effect -/
def EXC.EV_SWITCHED : Fld := ⟨0x200, 4, 4, 0⟩
/-- committed and FOLLOW switches -/
def EXC.SWITCH_CNT : Fld := ⟨0x300, 0, 32, 0⟩
/-- R305 -/
def EXC.COMPLIANCE_CNT : Fld := ⟨0x304, 0, 32, 0⟩
/-- R306 -/
def EXC.EXC_BLANK_CNT : Fld := ⟨0x308, 0, 32, 0⟩
/-! Fields of page DEC (14_decimation_and_loop_outputs.md). -/

/-- R321; with it, R300 step 3 -/
def DEC.EMIT_SETTLING : Fld := ⟨0x010, 0, 1, 0⟩
/-- R320 -/
def DEC.DSYNC_EN : Fld := ⟨0x010, 1, 1, 0⟩
/-- R325 -/
def DEC.CAP_EN : Fld := ⟨0x010, 2, 1, 0⟩
/-- bit n: channel n captured -/
def DEC.CAP_MASK : Fld := ⟨0x014, 0, 32, 0⟩
/-- bit n: channel n routed to Seif -/
def DEC.SEIF_MASK : Fld := ⟨0x018, 0, 32, 0⟩
/-- core of the Seif route -/
def DEC.SEIF_CORE : Fld := ⟨0x01C, 0, 5, 0⟩
/-- R320 -/
def DEC.CMD_DSYNC : Fld := ⟨0x040, 0, 1, 0⟩
/-- empties capture -/
def DEC.CAP_FLUSH : Fld := ⟨0x040, 1, 1, 0⟩
/-- R325; data port -/
def DEC.CAP_DATA : Fld := ⟨0x044, 0, 32, 0⟩
/-- DSYNC level -/
def DEC.PIN_LEVEL : Fld := ⟨0x100, 0, 1, 0⟩
/-- R320 -/
def DEC.PIN_HELD : Fld := ⟨0x100, 1, 1, 0⟩
/-- entries waiting -/
def DEC.CAP_FILL : Fld := ⟨0x104, 0, 24, 0⟩
/-- T_R of the last DSYNC -/
def DEC.DSYNC_TIME_LO : Fld := ⟨0x108, 0, 32, 0⟩
/-- T_R of the last DSYNC -/
def DEC.DSYNC_TIME_HI : Fld := ⟨0x10C, 0, 32, 0⟩
/-- event: R321, R320, R324, R324 -/
def DEC.EV_DSYNC : Fld := ⟨0x200, 0, 1, 0⟩
/-- event: R321, R320, R324, R324 -/
def DEC.EV_DSYNC_HELD : Fld := ⟨0x200, 1, 1, 0⟩
/-- event: R321, R320, R324, R324 -/
def DEC.EV_CAP_LOSS : Fld := ⟨0x200, 2, 1, 0⟩
/-- event: R321, R320, R324, R324 -/
def DEC.EV_SEIF_LOSS : Fld := ⟨0x200, 3, 1, 0⟩
/-- DSYNCs recognised -/
def DEC.DSYNC_CNT : Fld := ⟨0x300, 0, 32, 0⟩
/-- outputs lost at the R18 crossing -/
def DEC.QLOSS_CNT : Fld := ⟨0x304, 0, 32, 0⟩
/-- capture entries dropped -/
def DEC.CAP_LOSS_CNT : Fld := ⟨0x308, 0, 32, 0⟩
/-- Seif-route outputs dropped -/
def DEC.SEIF_LOSS_CNT : Fld := ⟨0x30C, 0, 32, 0⟩
/-- channel n: R314; 5 to 7 refused with RANGE -/
def DEC.CH_MODE : Fld := ⟨0x400, 0, 3, 8⟩
/-- 0 1; 1 2; 2 4; 3 8; 4 16; 5 32; 6 64 kS/s; 7 refused with RANGE -/
def DEC.CH_RATE : Fld := ⟨0x400, 4, 3, 8⟩
/-- last sample word of channel n -/
def DEC.LAST : Fld := ⟨0x404, 0, 32, 8⟩
/-! Fields of page LOOP (14_decimation_and_loop_outputs.md). -/

/-- loop n: 0 OFF; 1 DEC; 2 SEIF; 3 HOST (R327) -/
def LOOP.SRC : Fld := ⟨0x010, 0, 2, 32⟩
/-- decimator channel -/
def LOOP.DEC_CH : Fld := ⟨0x010, 4, 5, 32⟩
/-- R328 -/
def LOOP.FAIL_HIGH : Fld := ⟨0x010, 12, 1, 32⟩
/-- R328 -/
def LOOP.FAULT_ON_FLAG : Fld := ⟨0x010, 13, 1, 32⟩
/-- signed; value for 4 mA -/
def LOOP.X_LO : Fld := ⟨0x014, 0, 32, 32⟩
/-- signed; value for 20 mA (R327) -/
def LOOP.X_HI : Fld := ⟨0x018, 0, 32, 32⟩
/-- R328; 0 disables -/
def LOOP.SRC_TIMEOUT_MS : Fld := ⟨0x01C, 0, 16, 32⟩
/-- 3,800 µA (R327) -/
def LOOP.CLAMP_LO_UA : Fld := ⟨0x020, 0, 16, 32⟩
/-- 20,500 µA (R327) -/
def LOOP.CLAMP_HI_UA : Fld := ⟨0x020, 16, 16, 32⟩
/-- 6,000 mV (R329); 0 refused -/
def LOOP.VMIN_MV : Fld := ⟨0x024, 0, 16, 32⟩
/-- R329; 0 refused -/
def LOOP.SHORT_MS : Fld := ⟨0x024, 16, 8, 32⟩
/-- R329; 0 refused -/
def LOOP.OPEN_MS : Fld := ⟨0x024, 24, 8, 32⟩
/-- loop sense resistor, mΩ; 0 refused -/
def LOOP.RSENSE_MOHM : Fld := ⟨0x028, 0, 16, 32⟩
/-- R327 -/
def LOOP.HOST_VALUE : Fld := ⟨0x060, 0, 32, 4⟩
/-- R327; written by the kernel -/
def LOOP.SEIF_VALUE : Fld := ⟨0x068, 0, 32, 4⟩
/-- bit n: force the fault level on loop n -/
def LOOP.FORCE_FAULT : Fld := ⟨0x070, 0, 2, 0⟩
/-- bit 4 + n: release the force -/
def LOOP.RELEASE : Fld := ⟨0x070, 4, 2, 0⟩
/-- 0 OFF; 1 RUN; 2 FAULT_LEVEL -/
def LOOP.DRIVE : Fld := ⟨0x100, 0, 2, 16⟩
/-- 0 OK; 1 OPEN; 2 SHORT -/
def LOOP.WIRE : Fld := ⟨0x100, 4, 2, 16⟩
/-- 0 NONE; 1 TIMEOUT; 2 FLAG; 3 FORCED -/
def LOOP.CAUSE : Fld := ⟨0x100, 8, 2, 16⟩
/-- commanded current, µA -/
def LOOP.I_CMD_UA : Fld := ⟨0x100, 16, 16, 16⟩
/-- readback current, µA -/
def LOOP.I_RB_UA : Fld := ⟨0x104, 0, 16, 16⟩
/-- loop voltage, mV -/
def LOOP.V_LOOP_MV : Fld := ⟨0x104, 16, 16, 16⟩
/-- x in use -/
def LOOP.X_NOW : Fld := ⟨0x108, 0, 32, 16⟩
/-- event: bit n: R329 -/
def LOOP.EV_OPEN : Fld := ⟨0x200, 0, 2, 0⟩
/-- event: bit 2 + n: R329 -/
def LOOP.EV_SHORT : Fld := ⟨0x200, 2, 2, 0⟩
/-- event: bit 4 + n: R328 -/
def LOOP.EV_FAULT_LEVEL : Fld := ⟨0x200, 4, 2, 0⟩
/-- R329 -/
def LOOP.OPEN_CNT : Fld := ⟨0x300, 0, 32, 0⟩
/-- R329 -/
def LOOP.SHORT_CNT : Fld := ⟨0x304, 0, 32, 0⟩
/-- entries to FAULT_LEVEL -/
def LOOP.FAULT_LEVEL_CNT : Fld := ⟨0x308, 0, 32, 0⟩
/-! Fields of page SEIF (15_seif_programming_model.md). -/

/-- first instruction of a start (R349) -/
def SEIF.START_PC : Fld := ⟨0x010, 0, 12, 0⟩
/-- interrupt vector (R346) -/
def SEIF.VEC : Fld := ⟨0x014, 0, 12, 0⟩
/-- bit s enables source s (R345) -/
def SEIF.IRQ_EN : Fld := ⟨0x014, 16, 3, 0⟩
/-- YM word (R333) -/
def SEIF.DIN_BASE : Fld := ⟨0x018, 0, 14, 0⟩
/-- words, even, 4 to 16,384; 0 disables; odd or 2 refused with RANGE; beyond YM refused with INCONSISTENT -/
def SEIF.DIN_LEN : Fld := ⟨0x018, 16, 15, 0⟩
/-- entries (R345); 0 refused -/
def SEIF.DIN_THRESH : Fld := ⟨0x01C, 0, 14, 0⟩
/-- R345; 0 disables the timer -/
def SEIF.TIMER_US : Fld := ⟨0x01C, 16, 16, 0⟩
/-- bit n: the core may write LOOP_VALUEn (R352) -/
def SEIF.LOOP_WR : Fld := ⟨0x020, 0, 2, 0⟩
/-- 1 RUN; 2 HALT; 3 STEP; 4 CLAIM; 5 RELEASE; others no effect (R349, R351) -/
def SEIF.OP : Fld := ⟨0x040, 0, 3, 0⟩
/-- R332; a write sets MBOX pending -/
def SEIF.MBOX_IN : Fld := ⟨0x044, 0, 32, 0⟩
/-- 0 OFF; 1 HALTED; 2 START_PENDING; 3 RUNNING; 4 WAITING; 5 FAULT -/
def SEIF.STATE : Fld := ⟨0x100, 0, 3, 0⟩
/-- 0 LINK; 1 CUSTOMER; 2 CLAIM_PENDING -/
def SEIF.OWNER : Fld := ⟨0x100, 4, 2, 0⟩
/-- 0 NONE; 1 ILLEGAL; 2 LOOP_NEST -/
def SEIF.CAUSE : Fld := ⟨0x100, 8, 2, 0⟩
/-- 0 NONE; 1 BUDGET; 2 LEVEL -/
def SEIF.PENDING_REASON : Fld := ⟨0x100, 12, 2, 0⟩
/-- current core clock -/
def SEIF.CLK_MHZ : Fld := ⟨0x100, 16, 10, 0⟩
/-- live PC, sampled; exact in HALTED and FAULT -/
def SEIF.PC : Fld := ⟨0x104, 0, 12, 0⟩
/-- instruction that caused FAULT -/
def SEIF.FAULT_PC : Fld := ⟨0x104, 16, 12, 0⟩
/-- ST in HALTED and FAULT; 0 otherwise -/
def SEIF.ST_SNAP : Fld := ⟨0x108, 0, 32, 0⟩
/-- R332 -/
def SEIF.MBOX_OUT : Fld := ⟨0x10C, 0, 32, 0⟩
/-- unconsumed entries -/
def SEIF.DIN_FILL : Fld := ⟨0x110, 0, 14, 0⟩
/-- pending sources -/
def SEIF.IRQ_PEND : Fld := ⟨0x110, 16, 3, 0⟩
/-- event: R349, R349, R332, R351, R351, R349, R333 -/
def SEIF.EV_HALTED : Fld := ⟨0x200, 0, 1, 0⟩
/-- event: R349, R349, R332, R351, R351, R349, R333 -/
def SEIF.EV_FAULT : Fld := ⟨0x200, 1, 1, 0⟩
/-- event: R349, R349, R332, R351, R351, R349, R333 -/
def SEIF.EV_MBOX_OUT : Fld := ⟨0x200, 2, 1, 0⟩
/-- event: R349, R349, R332, R351, R351, R349, R333 -/
def SEIF.EV_GRANT : Fld := ⟨0x200, 3, 1, 0⟩
/-- event: R349, R349, R332, R351, R351, R349, R333 -/
def SEIF.EV_GRANT_REFUSED : Fld := ⟨0x200, 4, 1, 0⟩
/-- event: R349, R349, R332, R351, R351, R349, R333 -/
def SEIF.EV_RELOAD : Fld := ⟨0x200, 5, 1, 0⟩
/-- event: R349, R349, R332, R351, R351, R349, R333 -/
def SEIF.EV_DIN_DROP : Fld := ⟨0x200, 6, 1, 0⟩
/-- cycles in RUNNING -/
def SEIF.CYCLE_CNT : Fld := ⟨0x300, 0, 32, 0⟩
/-- R331 -/
def SEIF.HOST_STALL_CNT : Fld := ⟨0x304, 0, 32, 0⟩
/-- R331 -/
def SEIF.WIN_REFUSED_CNT : Fld := ⟨0x308, 0, 32, 0⟩
/-- R332 -/
def SEIF.PORT_DENIED_CNT : Fld := ⟨0x30C, 0, 32, 0⟩
/-- interrupt entries -/
def SEIF.IRQ_CNT : Fld := ⟨0x310, 0, 32, 0⟩
/-- R333 -/
def SEIF.DIN_DROP_CNT : Fld := ⟨0x314, 0, 32, 0⟩
/-- entries to FAULT -/
def SEIF.FAULT_CNT : Fld := ⟨0x318, 0, 32, 0⟩
/-! Fields of page CRC (17_check_units_and_uarts.md). -/

/-- normal form (R368) -/
def CRC.POLY : Fld := ⟨0x010, 0, 32, 0⟩
/-- shifting form (R368) -/
def CRC.INIT : Fld := ⟨0x014, 0, 32, 0⟩
/-- R368 -/
def CRC.XOROUT : Fld := ⟨0x018, 0, 32, 0⟩
/-- width − 1, 2 to 31 (widths 3 to 32); 0 and 1 refused with RANGE -/
def CRC.WIDTH_M1 : Fld := ⟨0x01C, 0, 5, 0⟩
/-- R367 -/
def CRC.REFLECT : Fld := ⟨0x01C, 8, 1, 0⟩
/-- R369 -/
def CRC.PRESET : Fld := ⟨0x040, 0, 3, 0⟩
/-- R369 -/
def CRC.RESTART : Fld := ⟨0x040, 8, 1, 0⟩
/-- data port -/
def CRC.DATA8 : Fld := ⟨0x044, 0, 8, 0⟩
/-- data port -/
def CRC.DATA16 : Fld := ⟨0x048, 0, 16, 0⟩
/-- data port -/
def CRC.DATA32 : Fld := ⟨0x04C, 0, 32, 0⟩
/-- R370; bits at or above WIDTH read 0, and writes to them are ignored -/
def CRC.STATE : Fld := ⟨0x050, 0, 32, 0⟩
/-- R368 -/
def CRC.RESULT : Fld := ⟨0x100, 0, 32, 0⟩
/-- preset that matches the active set exactly; 0 CUSTOM -/
def CRC.PRESET_NOW : Fld := ⟨0x104, 0, 3, 0⟩
/-- bytes fed -/
def CRC.BYTE_CNT : Fld := ⟨0x300, 0, 32, 0⟩
/-- loads of INIT by COMMIT or RESTART -/
def CRC.RESTART_CNT : Fld := ⟨0x304, 0, 32, 0⟩
/-! Fields of page UART (17_check_units_and_uarts.md). -/

/-- 0 eight; 1 seven -/
def UART.DATA_BITS : Fld := ⟨0x010, 0, 1, 0⟩
/-- 0 NONE; 1 EVEN; 2 ODD; 3 refused with RANGE -/
def UART.PARITY : Fld := ⟨0x010, 1, 2, 0⟩
/-- 0 one; 1 two -/
def UART.STOP : Fld := ⟨0x010, 3, 1, 0⟩
/-- 0 NORMAL; 1 LOOPBACK; 2 ECHO; 3 refused with RANGE (R379) -/
def UART.MODE : Fld := ⟨0x010, 4, 2, 0⟩
/-- receiver on -/
def UART.RX_EN : Fld := ⟨0x010, 8, 1, 0⟩
/-- transmitter on -/
def UART.TX_EN : Fld := ⟨0x010, 9, 1, 0⟩
/-- R371 (9,600 baud); 0 refused -/
def UART.DIV_INT : Fld := ⟨0x014, 0, 16, 0⟩
/-- sixteenths -/
def UART.DIV_FRAC : Fld := ⟨0x014, 16, 4, 0⟩
/-- R378 -/
def UART.DE_EN : Fld := ⟨0x018, 0, 1, 0⟩
/-- 0 DE active high; 1 active low -/
def UART.DE_POL : Fld := ⟨0x018, 1, 1, 0⟩
/-- ticks; 0 legal -/
def UART.DE_LEAD : Fld := ⟨0x018, 8, 8, 0⟩
/-- ticks; 0 legal -/
def UART.DE_LAG : Fld := ⟨0x018, 16, 8, 0⟩
/-- R378 -/
def UART.RX_WHILE_TX : Fld := ⟨0x018, 24, 1, 0⟩
/-- half-characters (R381); 0 disables -/
def UART.IDLE_GAP : Fld := ⟨0x01C, 0, 8, 0⟩
/-- half-characters (R377); 0 legal -/
def UART.TX_GAP : Fld := ⟨0x01C, 8, 8, 0⟩
/-- 1 to 64 (R376); 0 refused; above 64 refused with RANGE -/
def UART.RX_THRESH : Fld := ⟨0x01C, 16, 7, 0⟩
/-- R380 -/
def UART.AB_CHAR : Fld := ⟨0x020, 0, 8, 0⟩
/-- R380 -/
def UART.AB_STORE : Fld := ⟨0x020, 8, 1, 0⟩
/-- R380 -/
def UART.AB_ON_ENABLE : Fld := ⟨0x020, 9, 1, 0⟩
/-- R375; 0 disables -/
def UART.STUCK_MS : Fld := ⟨0x024, 0, 16, 0⟩
/-- 0 REPORT; 1 RX_OFF -/
def UART.STUCK_ACTION : Fld := ⟨0x024, 16, 1, 0⟩
/-- R380, R380, R375, empties RX FIFO, empties TX FIFO, R377 -/
def UART.AB_ARM : Fld := ⟨0x040, 0, 1, 0⟩
/-- R380, R380, R375, empties RX FIFO, empties TX FIFO, R377 -/
def UART.AB_CANCEL : Fld := ⟨0x040, 1, 1, 0⟩
/-- R380, R380, R375, empties RX FIFO, empties TX FIFO, R377 -/
def UART.RX_RESUME : Fld := ⟨0x040, 2, 1, 0⟩
/-- R380, R380, R375, empties RX FIFO, empties TX FIFO, R377 -/
def UART.RX_FLUSH : Fld := ⟨0x040, 3, 1, 0⟩
/-- R380, R380, R375, empties RX FIFO, empties TX FIFO, R377 -/
def UART.TX_FLUSH : Fld := ⟨0x040, 4, 1, 0⟩
/-- R380, R380, R375, empties RX FIFO, empties TX FIFO, R377 -/
def UART.SEND_BREAK : Fld := ⟨0x040, 5, 1, 0⟩
/-- R377 -/
def UART.TX_DATA : Fld := ⟨0x044, 0, 8, 0⟩
/-- R376 -/
def UART.RX_DATA : Fld := ⟨0x048, 0, 32, 0⟩
/-- entries waiting -/
def UART.RX_FILL : Fld := ⟨0x100, 0, 7, 0⟩
/-- characters waiting -/
def UART.TX_FILL : Fld := ⟨0x100, 8, 7, 0⟩
/-- RXD level -/
def UART.LINE : Fld := ⟨0x100, 16, 1, 0⟩
/-- R375 -/
def UART.LINE_STUCK : Fld := ⟨0x100, 17, 1, 0⟩
/-- receiver held off (R375) -/
def UART.RX_OFF : Fld := ⟨0x100, 18, 1, 0⟩
/-- 0 IDLE; 1 ARMED; 2 DONE; 3 FAILED -/
def UART.AB_STATE : Fld := ⟨0x100, 20, 2, 0⟩
/-- DE asserted -/
def UART.DE : Fld := ⟨0x100, 22, 1, 0⟩
/-- a character on the line -/
def UART.TX_BUSY : Fld := ⟨0x100, 23, 1, 0⟩
/-- active divisor, as DIV -/
def UART.DIV_NOW : Fld := ⟨0x104, 0, 20, 0⟩
/-- last measured rate, bit/s -/
def UART.AB_BAUD : Fld := ⟨0x108, 0, 23, 0⟩
/-- event: R376, R381, R376, R373, R372, R374, R375, R380, R380, R377, R377, R382 -/
def UART.EV_RX_THRESH : Fld := ⟨0x200, 0, 1, 0⟩
/-- event: R376, R381, R376, R373, R372, R374, R375, R380, R380, R377, R377, R382 -/
def UART.EV_IDLE : Fld := ⟨0x200, 1, 1, 0⟩
/-- event: R376, R381, R376, R373, R372, R374, R375, R380, R380, R377, R377, R382 -/
def UART.EV_OVERRUN : Fld := ⟨0x200, 2, 1, 0⟩
/-- event: R376, R381, R376, R373, R372, R374, R375, R380, R380, R377, R377, R382 -/
def UART.EV_FE : Fld := ⟨0x200, 3, 1, 0⟩
/-- event: R376, R381, R376, R373, R372, R374, R375, R380, R380, R377, R377, R382 -/
def UART.EV_PE : Fld := ⟨0x200, 4, 1, 0⟩
/-- event: R376, R381, R376, R373, R372, R374, R375, R380, R380, R377, R377, R382 -/
def UART.EV_BREAK : Fld := ⟨0x200, 5, 1, 0⟩
/-- event: R376, R381, R376, R373, R372, R374, R375, R380, R380, R377, R377, R382 -/
def UART.EV_LINE_STUCK : Fld := ⟨0x200, 6, 1, 0⟩
/-- event: R376, R381, R376, R373, R372, R374, R375, R380, R380, R377, R377, R382 -/
def UART.EV_AB_DONE : Fld := ⟨0x200, 7, 1, 0⟩
/-- event: R376, R381, R376, R373, R372, R374, R375, R380, R380, R377, R377, R382 -/
def UART.EV_AB_FAIL : Fld := ⟨0x200, 8, 1, 0⟩
/-- event: R376, R381, R376, R373, R372, R374, R375, R380, R380, R377, R377, R382 -/
def UART.EV_TX_EMPTY : Fld := ⟨0x200, 9, 1, 0⟩
/-- event: R376, R381, R376, R373, R372, R374, R375, R380, R380, R377, R377, R382 -/
def UART.EV_TX_OVF : Fld := ⟨0x200, 10, 1, 0⟩
/-- event: R376, R381, R376, R373, R372, R374, R375, R380, R380, R377, R377, R382 -/
def UART.EV_CFG_ABORT : Fld := ⟨0x200, 11, 1, 0⟩
/-- entries stored -/
def UART.RX_CHAR_CNT : Fld := ⟨0x300, 0, 32, 0⟩
/-- characters sent -/
def UART.TX_CHAR_CNT : Fld := ⟨0x304, 0, 32, 0⟩
/-- R376 -/
def UART.OVERRUN_CNT : Fld := ⟨0x308, 0, 32, 0⟩
/-- R373 -/
def UART.FE_CNT : Fld := ⟨0x30C, 0, 32, 0⟩
/-- R372 -/
def UART.PE_CNT : Fld := ⟨0x310, 0, 32, 0⟩
/-- R374 -/
def UART.BREAK_CNT : Fld := ⟨0x314, 0, 32, 0⟩
/-- R372 -/
def UART.FALSE_START_CNT : Fld := ⟨0x318, 0, 32, 0⟩
/-- R377 -/
def UART.TX_OVF_CNT : Fld := ⟨0x31C, 0, 32, 0⟩
/-- R375 -/
def UART.STUCK_CNT : Fld := ⟨0x320, 0, 32, 0⟩
/-- R380 -/
def UART.AB_FAIL_CNT : Fld := ⟨0x324, 0, 32, 0⟩
/-- R382 -/
def UART.CFG_ABORT_CNT : Fld := ⟨0x328, 0, 32, 0⟩
/-! Fields of page CAV (18_caravan_cascade.md). -/

/-- 0 WIDEN; 1 DEEPEN; 2 MULTIPLY; 3 refused with RANGE -/
def CAV.MODE : Fld := ⟨0x010, 0, 2, 0⟩
/-- devices − 1, 1 to 7; 0 refused with RANGE -/
def CAV.RING_SIZE_M1 : Fld := ⟨0x010, 4, 3, 0⟩
/-- R398 -/
def CAV.FWD_ROUTE : Fld := ⟨0x010, 8, 1, 0⟩
/-- 8 bits per port, port 4w + i at bits 8i + 7:8i of word w; 0 private (R392, R395) -/
def CAV.FEEDER_ID : Fld := ⟨0x014, 0, 32, 4⟩
/-- R389, 1,500 to 20,000 µs (default 3,000 µs, three missed time marks); 0 refused; others refused with RANGE -/
def CAV.ORPHAN_US : Fld := ⟨0x024, 0, 16, 0⟩
/-- R385; 0 refused -/
def CAV.TRAIN_MS : Fld := ⟨0x024, 16, 16, 0⟩
/-- per ms (R385); 0 refused -/
def CAV.CV_LIMIT : Fld := ⟨0x028, 0, 16, 0⟩
/-- R383 -/
def CAV.ZONE_ID : Fld := ⟨0x030, 0, 24, 0⟩
/-- takes both links DOWN and retrains -/
def CAV.RETRAIN : Fld := ⟨0x040, 0, 1, 0⟩
/-- 0 SLAVE; 1 MASTER -/
def CAV.ROLE : Fld := ⟨0x100, 0, 1, 0⟩
/-- R383 -/
def CAV.POSITION : Fld := ⟨0x100, 4, 3, 0⟩
/-- 0 OFF; 1 TRAINING; 2 CONNECTED; 3 ORPHAN; 4 REJOINING -/
def CAV.STATE : Fld := ⟨0x100, 8, 3, 0⟩
/-- master: ring closed (R389) -/
def CAV.RING : Fld := ⟨0x100, 12, 1, 0⟩
/-- master: bit k, position k CONNECTED -/
def CAV.MEMBERS : Fld := ⟨0x100, 16, 8, 0⟩
/-- 0 NONE; 1 MULTI_ROOT; 2 ZONE_MISMATCH; 3 MODE_MISMATCH; 4 SIZE_MISMATCH -/
def CAV.FAULT : Fld := ⟨0x100, 24, 4, 0⟩
/-- [0], [1] lane UP; [2], [3] polarity inverted; [4] lanes swapped -/
def CAV.IN_LANES : Fld := ⟨0x104, 0, 5, 0⟩
/-- same layout, back lanes -/
def CAV.OUT_LANES : Fld := ⟨0x104, 8, 5, 0⟩
/-- path latency from the master, ns (up to the 100 µs of R445) -/
def CAV.HOP_NS : Fld := ⟨0x108, 0, 32, 0⟩
/-- signed, 1/16 tick (R386) -/
def CAV.TIME_ERR : Fld := ⟨0x10C, 0, 16, 0⟩
/-- signed (R391) -/
def CAV.SLEW_PPM : Fld := ⟨0x10C, 16, 16, 0⟩
/-- tokens of this device -/
def CAV.TOKENS_HELD : Fld := ⟨0x110, 0, 8, 0⟩
/-- longest class-0 claim since reset, saturating -/
def CAV.CLAIM_MAX_US : Fld := ⟨0x110, 16, 16, 0⟩
/-- in-link delay, ns -/
def CAV.LINK_NS : Fld := ⟨0x114, 0, 32, 0⟩
/-- event: R389, R389, R389, R385, R384, R391, R389, R383, R393 -/
def CAV.EV_CONNECTED : Fld := ⟨0x200, 0, 1, 0⟩
/-- event: R389, R389, R389, R385, R384, R391, R389, R383, R393 -/
def CAV.EV_ORPHAN : Fld := ⟨0x200, 1, 1, 0⟩
/-- event: R389, R389, R389, R385, R384, R391, R389, R383, R393 -/
def CAV.EV_REJOIN : Fld := ⟨0x200, 2, 1, 0⟩
/-- event: R389, R389, R389, R385, R384, R391, R389, R383, R393 -/
def CAV.EV_LINK_DOWN : Fld := ⟨0x200, 3, 1, 0⟩
/-- event: R389, R389, R389, R385, R384, R391, R389, R383, R393 -/
def CAV.EV_POL_FIX : Fld := ⟨0x200, 4, 1, 0⟩
/-- event: R389, R389, R389, R385, R384, R391, R389, R383, R393 -/
def CAV.EV_TIME_STEP : Fld := ⟨0x200, 5, 1, 0⟩
/-- event: R389, R389, R389, R385, R384, R391, R389, R383, R393 -/
def CAV.EV_RING_OPEN : Fld := ⟨0x200, 6, 1, 0⟩
/-- event: R389, R389, R389, R385, R384, R391, R389, R383, R393 -/
def CAV.EV_JOIN_REFUSED : Fld := ⟨0x200, 7, 1, 0⟩
/-- event: R389, R389, R389, R385, R384, R391, R389, R383, R393 -/
def CAV.EV_PREEMPT : Fld := ⟨0x200, 8, 1, 0⟩
/-- code violations -/
def CAV.CV_CNT : Fld := ⟨0x300, 0, 32, 0⟩
/-- R385 -/
def CAV.RESEND_CNT : Fld := ⟨0x304, 0, 32, 0⟩
/-- R385 -/
def CAV.LINK_DOWN_CNT : Fld := ⟨0x308, 0, 32, 0⟩
/-- R389 -/
def CAV.ORPHAN_CNT : Fld := ⟨0x30C, 0, 32, 0⟩
/-- claims made (R392) -/
def CAV.CLAIM_CNT : Fld := ⟨0x310, 0, 32, 0⟩
/-- claims withdrawn at the start slot -/
def CAV.CLAIM_FAIL_CNT : Fld := ⟨0x314, 0, 32, 0⟩
/-- transmissions cut under R393 -/
def CAV.PREEMPT_CNT : Fld := ⟨0x318, 0, 32, 0⟩
/-- R396 -/
def CAV.MERGE_CNT : Fld := ⟨0x31C, 0, 32, 0⟩
/-- R397 -/
def CAV.FOREIGN_CNT : Fld := ⟨0x320, 0, 32, 0⟩
/-- master: frames forwarded from position k -/
def CAV.FWD_FRAME_CNT : Fld := ⟨0x324, 0, 32, 4⟩
/-! Fields of page CLK (19_clocks_reset_memory.md). -/

/-- R401 -/
def CLK.FAILOVER_EN : Fld := ⟨0x010, 0, 1, 0⟩
/-- 10 ppm units (500 ppm); 0 refused -/
def CLK.MON_PPM : Fld := ⟨0x010, 8, 8, 0⟩
/-- R403 -/
def CLK.SAMPLE_RETURN : Fld := ⟨0x040, 0, 1, 0⟩
/-- 0 SCLK_IN; 1 CARAVAN; 2 FALLBACK -/
def CLK.SAMPLE_SRC : Fld := ⟨0x100, 0, 2, 0⟩
/-- SCLK_IN passes its monitor -/
def CLK.SCLK_OK : Fld := ⟨0x100, 4, 1, 0⟩
/-- SYSPLL locked -/
def CLK.SYS_LOCK : Fld := ⟨0x100, 5, 1, 0⟩
/-- SPRPLL locked -/
def CLK.SPR_LOCK : Fld := ⟨0x100, 6, 1, 0⟩
/-- SAMPLEPLL locked -/
def CLK.SAMPLE_LOCK : Fld := ⟨0x100, 7, 1, 0⟩
/-- DRAMPLL01 locked -/
def CLK.DRAM01_LOCK : Fld := ⟨0x100, 8, 1, 0⟩
/-- DRAMPLL23 locked -/
def CLK.DRAM23_LOCK : Fld := ⟨0x100, 9, 1, 0⟩
/-- R404 -/
def CLK.AON_OK : Fld := ⟨0x100, 10, 1, 0⟩
/-- signed SCLK_IN error against XIN, 0.1 ppm -/
def CLK.SCLK_PPM : Fld := ⟨0x104, 0, 16, 0⟩
/-- event: R401, R401, R403, any PLL lost lock, R404 -/
def CLK.EV_SAMPLE_FAIL : Fld := ⟨0x200, 0, 1, 0⟩
/-- event: R401, R401, R403, any PLL lost lock, R404 -/
def CLK.EV_FAILOVER : Fld := ⟨0x200, 1, 1, 0⟩
/-- event: R401, R401, R403, any PLL lost lock, R404 -/
def CLK.EV_RETURN_DONE : Fld := ⟨0x200, 2, 1, 0⟩
/-- event: R401, R401, R403, any PLL lost lock, R404 -/
def CLK.EV_PLL_UNLOCK : Fld := ⟨0x200, 3, 1, 0⟩
/-- event: R401, R401, R403, any PLL lost lock, R404 -/
def CLK.EV_AON_FAIL : Fld := ⟨0x200, 4, 1, 0⟩
/-- R401 -/
def CLK.SAMPLE_FAIL_CNT : Fld := ⟨0x300, 0, 32, 0⟩
/-- PLL lock losses -/
def CLK.PLL_UNLOCK_CNT : Fld := ⟨0x304, 0, 32, 0⟩
/-! Fields of page RST (19_clocks_reset_memory.md). -/

/-- R408; 0 disables -/
def RST.WDT_MS : Fld := ⟨0x010, 0, 16, 0⟩
/-- 0 EVENT; 1 WARM; 2 CHIP; 3 refused with RANGE -/
def RST.WDT_ACTION : Fld := ⟨0x010, 16, 2, 0⟩
/-- 0x5A5A restarts the count (R408) -/
def RST.WDT_KICK : Fld := ⟨0x040, 0, 16, 0⟩
/-- 0x5752 WARM; 0x4348 CHIP; others no effect -/
def RST.RESET_CMD : Fld := ⟨0x044, 0, 16, 0⟩
/-- R407 -/
def RST.HOST_SEL : Fld := ⟨0x100, 0, 1, 0⟩
/-- R407 -/
def RST.CAV_ROOT : Fld := ⟨0x100, 1, 1, 0⟩
/-- R407 -/
def RST.BOOT_SEL : Fld := ⟨0x100, 2, 2, 0⟩
/-- 0 POR; 1 PIN; 2 XIN_LOSS; 3 WARM_CMD; 4 CHIP_CMD; 5 WDT_WARM; 6 WDT_CHIP; 7 DEEP_SLEEP_WAKE -/
def RST.LAST_CAUSE : Fld := ⟨0x104, 0, 3, 0⟩
/-- Start-up, Boot and Security -/
def RST.BOOT_STAGE : Fld := ⟨0x108, 0, 8, 0⟩
/-- time to expiry -/
def RST.WDT_LEFT_MS : Fld := ⟨0x10C, 0, 16, 0⟩
/-- event: R408 -/
def RST.EV_WDT_EXPIRED : Fld := ⟨0x200, 0, 1, 0⟩
/-- pin resets -/
def RST.PIN_CNT : Fld := ⟨0x300, 0, 32, 0⟩
/-- warm resets -/
def RST.WARM_CNT : Fld := ⟨0x304, 0, 32, 0⟩
/-- expiries -/
def RST.WDT_CNT : Fld := ⟨0x308, 0, 32, 0⟩
/-- R408 -/
def RST.WDT_BAD_KICK_CNT : Fld := ⟨0x30C, 0, 32, 0⟩
/-! Fields of page DRC (19_clocks_reset_memory.md). -/

/-- R416 -/
def DRC.SCRUB_EN : Fld := ⟨0x010, 0, 1, 0⟩
/-- hours per pass; 0 refused -/
def DRC.SCRUB_H : Fld := ⟨0x010, 8, 8, 0⟩
/-- per hour (R416); 0 disables -/
def DRC.CE_ALERT : Fld := ⟨0x014, 0, 16, 0⟩
/-- 0 UNTRAINED; 1 READY; 2 FAILED; 3 OFF (R410) -/
def DRC.STATE : Fld := ⟨0x100, 0, 2, 0⟩
/-- R409 -/
def DRC.POP_MISMATCH : Fld := ⟨0x100, 2, 1, 0⟩
/-- device density -/
def DRC.DENSITY_GB : Fld := ⟨0x100, 8, 8, 0⟩
/-- 0 6,400 MT/s; 1 8,533 MT/s -/
def DRC.DATA_RATE : Fld := ⟨0x100, 16, 1, 0⟩
/-- device refresh-rate code -/
def DRC.TEMP_RANGE : Fld := ⟨0x100, 20, 3, 0⟩
/-- last correctable error; HI bits 4:0 -/
def DRC.CE_ADDR_LO : Fld := ⟨0x104, 0, 32, 0⟩
/-- last correctable error; HI bits 4:0 -/
def DRC.CE_ADDR_HI : Fld := ⟨0x108, 0, 32, 0⟩
/-- last uncorrectable error; HI bits 4:0 -/
def DRC.UE_ADDR_LO : Fld := ⟨0x10C, 0, 32, 0⟩
/-- last uncorrectable error; HI bits 4:0 -/
def DRC.UE_ADDR_HI : Fld := ⟨0x110, 0, 32, 0⟩
/-- usable capacity -/
def DRC.CAPACITY_MIB : Fld := ⟨0x120, 0, 18, 0⟩
/-- bit n: channel n in use -/
def DRC.CHANNELS_ACTIVE : Fld := ⟨0x120, 20, 4, 0⟩
/-- R410 -/
def DRC.DEGRADED : Fld := ⟨0x120, 24, 1, 0⟩
/-- event: R416, R417, R416, R410, R409 -/
def DRC.EV_CE : Fld := ⟨0x200, 0, 1, 0⟩
/-- event: R416, R417, R416, R410, R409 -/
def DRC.EV_UE : Fld := ⟨0x200, 1, 1, 0⟩
/-- event: R416, R417, R416, R410, R409 -/
def DRC.EV_CE_ALERT : Fld := ⟨0x200, 2, 1, 0⟩
/-- event: R416, R417, R416, R410, R409 -/
def DRC.EV_DRAM_HOT : Fld := ⟨0x200, 3, 1, 0⟩
/-- event: R416, R417, R416, R410, R409 -/
def DRC.EV_TRAIN_FAIL : Fld := ⟨0x200, 4, 1, 0⟩
/-- R416 -/
def DRC.CE_CNT : Fld := ⟨0x300, 0, 32, 0⟩
/-- R417 -/
def DRC.UE_CNT : Fld := ⟨0x304, 0, 32, 0⟩
/-- completed scrub passes -/
def DRC.SCRUB_PASS_CNT : Fld := ⟨0x308, 0, 32, 0⟩
/-- entry r: R412 -/
def DRC.KIND : Fld := ⟨0x400, 0, 4, 16⟩
/-- entry in force -/
def DRC.EN : Fld := ⟨0x400, 8, 1, 16⟩
/-- R415 -/
def DRC.ECC : Fld := ⟨0x400, 9, 1, 16⟩
/-- R413 -/
def DRC.HOST_WR : Fld := ⟨0x400, 10, 1, 16⟩
/-- 64 KiB units -/
def DRC.BASE : Fld := ⟨0x404, 0, 21, 16⟩
/-- 64 KiB units -/
def DRC.SIZE : Fld := ⟨0x408, 0, 21, 16⟩
/-! Fields of page SEC (20_startup_boot_security.md). -/

/-- R425; 0 disables automatic restart -/
def SEC.RESTART_MAX : Fld := ⟨0x010, 0, 4, 0⟩
/-- R434; 0 disables the timer -/
def SEC.DS_WAKE_S : Fld := ⟨0x014, 0, 24, 0⟩
/-- 1 FW_START; 2 BOOT_HOST; 3 ADVANCE; 4 ATTEST; 5 UNLOCK_CHALLENGE; 6 UNLOCK; 7 FUSE_LOCK; 8 RECOVERY; 9 FLASH_PROGRAM; 10 FLASH_ERASE; others no effect -/
def SEC.OP : Fld := ⟨0x040, 0, 4, 0⟩
/-- 0x4C4B with FUSE_LOCK (R432) -/
def SEC.KEY : Fld := ⟨0x040, 16, 16, 0⟩
/-- R427 -/
def SEC.NONCE : Fld := ⟨0x048, 0, 32, 4⟩
/-- data port (R432) -/
def SEC.TOKEN : Fld := ⟨0x068, 0, 32, 0⟩
/-- data port (R427) -/
def SEC.ATT_DATA : Fld := ⟨0x06C, 0, 32, 0⟩
/-- byte address (R433) -/
def SEC.FLASH_ADDR : Fld := ⟨0x070, 0, 26, 0⟩
/-- data port (R433) -/
def SEC.FLASH_DATA : Fld := ⟨0x074, 0, 32, 0⟩
/-- 0 A; 1 B; 2 HOST; 3 NONE -/
def SEC.FW_SLOT : Fld := ⟨0x100, 0, 2, 0⟩
/-- R421 codes -/
def SEC.BOOT_ERR_A : Fld := ⟨0x100, 4, 4, 0⟩
/-- R421 codes -/
def SEC.BOOT_ERR_B : Fld := ⟨0x100, 8, 4, 0⟩
/-- R421 codes -/
def SEC.BOOT_ERR_HOST : Fld := ⟨0x100, 12, 4, 0⟩
/-- R432 -/
def SEC.DEBUG_LEVEL : Fld := ⟨0x100, 16, 2, 0⟩
/-- R432 -/
def SEC.UNLOCKED : Fld := ⟨0x100, 18, 1, 0⟩
/-- an attestation or token check is running -/
def SEC.BUSY : Fld := ⟨0x100, 20, 1, 0⟩
/-- R423 -/
def SEC.ROLLBACK : Fld := ⟨0x104, 0, 32, 0⟩
/-- SVN of the running image -/
def SEC.FW_SVN : Fld := ⟨0x108, 0, 32, 0⟩
/-- R421 -/
def SEC.FW_MEAS : Fld := ⟨0x10C, 0, 32, 4⟩
/-- R426 -/
def SEC.ID_PUB : Fld := ⟨0x13C, 0, 32, 4⟩
/-- R432 -/
def SEC.CHALLENGE : Fld := ⟨0x170, 0, 32, 4⟩
/-- words left in ATT_DATA -/
def SEC.ATT_FILL : Fld := ⟨0x190, 0, 14, 0⟩
/-- event: R421, R425, R425, R423, R427, R432, R432, R433, R419 -/
def SEC.EV_BOOT_FAIL : Fld := ⟨0x200, 0, 1, 0⟩
/-- event: R421, R425, R425, R423, R427, R432, R432, R433, R419 -/
def SEC.EV_FW_STARTED : Fld := ⟨0x200, 1, 1, 0⟩
/-- event: R421, R425, R425, R423, R427, R432, R432, R433, R419 -/
def SEC.EV_RESTART : Fld := ⟨0x200, 2, 1, 0⟩
/-- event: R421, R425, R425, R423, R427, R432, R432, R433, R419 -/
def SEC.EV_ADVANCED : Fld := ⟨0x200, 3, 1, 0⟩
/-- event: R421, R425, R425, R423, R427, R432, R432, R433, R419 -/
def SEC.EV_ATT_DONE : Fld := ⟨0x200, 4, 1, 0⟩
/-- event: R421, R425, R425, R423, R427, R432, R432, R433, R419 -/
def SEC.EV_UNLOCK_OK : Fld := ⟨0x200, 5, 1, 0⟩
/-- event: R421, R425, R425, R423, R427, R432, R432, R433, R419 -/
def SEC.EV_UNLOCK_FAIL : Fld := ⟨0x200, 6, 1, 0⟩
/-- event: R421, R425, R425, R423, R427, R432, R432, R433, R419 -/
def SEC.EV_FLASH_DONE : Fld := ⟨0x200, 7, 1, 0⟩
/-- event: R421, R425, R425, R423, R427, R432, R432, R433, R419 -/
def SEC.EV_RATE_FALLBACK : Fld := ⟨0x200, 8, 1, 0⟩
/-- images refused -/
def SEC.BOOT_FAIL_CNT : Fld := ⟨0x300, 0, 32, 0⟩
/-- R425 -/
def SEC.RESTART_CNT : Fld := ⟨0x304, 0, 32, 0⟩
/-- reports signed -/
def SEC.ATT_CNT : Fld := ⟨0x308, 0, 32, 0⟩
/-- R432 -/
def SEC.UNLOCK_FAIL_CNT : Fld := ⟨0x30C, 0, 32, 0⟩
/-! Fields of page KEY (20_startup_boot_security.md). -/

/-- 0 to 2,047, or 0x800 for the grid key -/
def KEY.SLOT : Fld := ⟨0x010, 0, 12, 0⟩
/-- binding for WRITE (R428) -/
def KEY.ADDR : Fld := ⟨0x014, 0, 12, 0⟩
/-- key bytes 0 to 15, little-endian; read 0 -/
def KEY.KEY : Fld := ⟨0x018, 0, 32, 4⟩
/-- 1 WRITE; 2 CLEAR; others no effect -/
def KEY.OP : Fld := ⟨0x040, 0, 2, 0⟩
/-- SLOT holds a key -/
def KEY.BOUND : Fld := ⟨0x100, 0, 1, 0⟩
/-- address bound to SLOT -/
def KEY.BOUND_ADDR : Fld := ⟨0x100, 16, 12, 0⟩
/-- of SLOT -/
def KEY.TX_CTR : Fld := ⟨0x104, 0, 32, 0⟩
/-- of SLOT -/
def KEY.CTR_HI : Fld := ⟨0x108, 0, 32, 0⟩
/-- of SLOT (R228) -/
def KEY.FLOOR : Fld := ⟨0x10C, 0, 32, 0⟩
/-- bound endpoint slots -/
def KEY.BOUND_COUNT : Fld := ⟨0x110, 0, 12, 0⟩
/-- event: R428 -/
def KEY.EV_REFUSED : Fld := ⟨0x200, 0, 1, 0⟩
/-- keys written -/
def KEY.WRITE_CNT : Fld := ⟨0x300, 0, 32, 0⟩
/-- slots cleared -/
def KEY.CLEAR_CNT : Fld := ⟨0x304, 0, 32, 0⟩
/-- R428 -/
def KEY.REFUSED_CNT : Fld := ⟨0x308, 0, 32, 0⟩
/-! Fields of page MRM (20_startup_boot_security.md). -/

/-- MRAM word index -/
def MRM.ADDR : Fld := ⟨0x010, 0, 18, 0⟩
/-- DATA advances ADDR by 1 -/
def MRM.INC : Fld := ⟨0x010, 31, 1, 0⟩
/-- data port -/
def MRM.DATA : Fld := ⟨0x014, 0, 32, 0⟩
/-- next journal word -/
def MRM.JOURNAL_HEAD : Fld := ⟨0x100, 0, 18, 0⟩
/-- counters with a record in the journal -/
def MRM.LIVE : Fld := ⟨0x104, 0, 13, 0⟩
/-- complete rotations since manufacture -/
def MRM.JOURNAL_PASSES : Fld := ⟨0x108, 0, 32, 0⟩
/-- event: corrected error; uncorrectable error; R431 -/
def MRM.EV_CE : Fld := ⟨0x200, 0, 1, 0⟩
/-- event: corrected error; uncorrectable error; R431 -/
def MRM.EV_UE : Fld := ⟨0x200, 1, 1, 0⟩
/-- event: corrected error; uncorrectable error; R431 -/
def MRM.EV_JOURNAL_UE : Fld := ⟨0x200, 2, 1, 0⟩
/-- corrected words -/
def MRM.CE_CNT : Fld := ⟨0x300, 0, 32, 0⟩
/-- uncorrectable words -/
def MRM.UE_CNT : Fld := ⟨0x304, 0, 32, 0⟩
/-- host word writes -/
def MRM.HOST_WR_CNT : Fld := ⟨0x308, 0, 32, 0⟩

/-- Register table of page DRW. -/
def drwSpecs : List FldSpec := [
  ⟨DRW.ADDR_LO, 1, .rw, 0x0, false, 0, 1073741823⟩,
  ⟨DRW.ADDR_HI, 1, .rw, 0x0, false, 0, 31⟩,
  ⟨DRW.DATA, 1, .rw, 0x0, false, 0, 4294967295⟩,
  ⟨DRW.MODE, 1, .rw, 0x1, false, 0, 1⟩,
  ⟨DRW.STATUS, 1, .ro, 0xFF, false, 0, 4294967295⟩,
  ⟨DRW.EV_WR_REFUSED, 1, .w1c, 0x0, false, 0, 1⟩,
  ⟨DRW.EV_CE, 1, .w1c, 0x0, false, 0, 1⟩,
  ⟨DRW.EV_UE, 1, .w1c, 0x0, false, 0, 1⟩,
  ⟨DRW.EV_OUT_OF_RANGE, 1, .w1c, 0x0, false, 0, 1⟩,
  ⟨DRW.UE_ADDR_LO, 1, .ro, 0x0, false, 0, 4294967295⟩,
  ⟨DRW.UE_ADDR_HI, 1, .ro, 0x0, false, 0, 4294967295⟩,
  ⟨DRW.WR_REFUSED_CNT, 1, .ro, 0x0, false, 0, 4294967295⟩,
  ⟨DRW.CE_CNT, 1, .ro, 0x0, false, 0, 4294967295⟩,
  ⟨DRW.UE_CNT, 1, .ro, 0x0, false, 0, 4294967295⟩]

/-- Register table of page HIF. -/
def hifSpecs : List FldSpec := [
  ⟨HIF.VEC_MASK, 1, .rw, 0x0, false, 0, 4294967295⟩,
  ⟨HIF.VEC_ACK, 1, .wo, 0x0, false, 0, 4294967295⟩,
  ⟨HIF.VEC_PEND, 1, .ro, 0x0, false, 0, 4294967295⟩,
  ⟨HIF.LINK_HOST, 1, .ro, 0x0, false, 0, 1⟩,
  ⟨HIF.LINK_UP, 1, .ro, 0x0, false, 0, 1⟩,
  ⟨HIF.LINK_MSI_EN, 1, .ro, 0x0, false, 0, 1⟩,
  ⟨HIF.LINK_MSI_LOG2, 1, .ro, 0x0, false, 0, 7⟩,
  ⟨HIF.SPI_STATUS, 1, .ro, 0x0, false, 0, 255⟩,
  ⟨HIF.EV_XING_TIMEOUT, 1, .w1c, 0x0, false, 0, 1⟩,
  ⟨HIF.EV_BAD_WR, 1, .w1c, 0x0, false, 0, 1⟩,
  ⟨HIF.EV_UNMAPPED, 1, .w1c, 0x0, false, 0, 1⟩,
  ⟨HIF.EV_SPI_ERR, 1, .w1c, 0x0, false, 0, 1⟩,
  ⟨HIF.OFF_DOMAIN_CNT, 1, .ro, 0x0, false, 0, 4294967295⟩,
  ⟨HIF.UNMAPPED_CNT, 1, .ro, 0x0, false, 0, 4294967295⟩,
  ⟨HIF.BAD_WR_CNT, 1, .ro, 0x0, false, 0, 4294967295⟩,
  ⟨HIF.XING_TO_CNT, 1, .ro, 0x0, false, 0, 4294967295⟩,
  ⟨HIF.SPI_ERR_CNT, 1, .ro, 0x0, false, 0, 4294967295⟩,
  ⟨HIF.RING_VEC0, 1, .ro, 0x0, false, 0, 31⟩,
  ⟨HIF.RING_VEC, 63, .rw, 0x1, false, 1, 31⟩,
  ⟨HIF.GROUP_VEC, 32, .rw, 0x0, false, 1, 31⟩]

/-- Register table of page GLB. -/
def glbSpecs : List FldSpec := [
  ⟨GLB.SCRATCH, 1, .rw, 0x0, false, 0, 4294967295⟩,
  ⟨GLB.CHIP_ID, 1, .ro, 0x59470256, false, 0, 4294967295⟩,
  ⟨GLB.STEPPING, 1, .ro, 0xB1, false, 0, 4294967295⟩,
  ⟨GLB.UID_LO, 1, .ro, 0x0, false, 0, 4294967295⟩,
  ⟨GLB.UID_HI, 1, .ro, 0x0, false, 0, 4294967295⟩,
  ⟨GLB.EVENT_SUMMARY, 1, .ro, 0x0, false, 0, 4294967295⟩,
  ⟨GLB.FAULT_SUMMARY, 1, .ro, 0x0, false, 0, 4294967295⟩,
  ⟨GLB.EVT_LPT, 1, .ro, 0x0, false, 0, 4294967295⟩,
  ⟨GLB.EVT_TXS, 1, .ro, 0x0, false, 0, 4294967295⟩,
  ⟨GLB.EVT_ERG_LO, 1, .ro, 0x0, false, 0, 4294967295⟩,
  ⟨GLB.EVT_ERG_HI, 1, .ro, 0x0, false, 0, 4294967295⟩,
  ⟨GLB.EVT_SEIF, 1, .ro, 0x0, false, 0, 4294967295⟩,
  ⟨GLB.EVT_MISC, 1, .ro, 0x0, false, 0, 4294967295⟩,
  ⟨GLB.EV_FAULT_RISE, 1, .w1c, 0x0, false, 0, 1⟩,
  ⟨GLB.EV_FAULT_FALL, 1, .w1c, 0x0, false, 0, 1⟩]

/-- Register table of page MTB. Part 0. -/
def mtbSpecsPart0 : List FldSpec := [
  ⟨MTB.MODE, 1, .rws, 0x0, false, 0, 2⟩,
  ⟨MTB.SRC_EN, 1, .rws, 0x1, false, 0, 7⟩,
  ⟨MTB.MZC_EDGE, 1, .rws, 0x0, false, 0, 1⟩,
  ⟨MTB.NOMINAL, 1, .rws, 0x0, false, 0, 1⟩,
  ⟨MTB.SENSE_SEL0, 1, .rws, 0x0, false, 0, 31⟩,
  ⟨MTB.SENSE_SEL1, 1, .rws, 0x1, false, 0, 31⟩,
  ⟨MTB.SENSE_SEL2, 1, .rws, 0x2, false, 0, 31⟩,
  ⟨MTB.SRC_OFFSET0, 1, .rws, 0x0, false, 0, 65535⟩,
  ⟨MTB.SRC_OFFSET1, 1, .rws, 0x0, false, 0, 65535⟩,
  ⟨MTB.SRC_OFFSET2, 1, .rws, 0x0, false, 0, 65535⟩,
  ⟨MTB.MZC_DELAY, 1, .rws, 0x0, false, 0, 65535⟩,
  ⟨MTB.MZC_GLITCH, 1, .rws, 0x800, true, 0, 4095⟩,
  ⟨MTB.ACC_PHASE, 1, .rws, 0x0, false, 0, 32767⟩,
  ⟨MTB.C0_PHASE, 1, .rws, 0x0, false, 0, 32767⟩,
  ⟨MTB.LOCK_THRESH, 1, .rws, 0x148, true, 0, 65535⟩,
  ⟨MTB.REJECT_THRESH, 1, .rws, 0xCCD, false, 0, 65535⟩,
  ⟨MTB.HOLDOVER_MS, 1, .rws, 0x2710, true, 0, 10000⟩,
  ⟨MTB.SNAP, 1, .wo, 0x0, false, 0, 4294967295⟩,
  ⟨MTB.STATE, 1, .ro, 0x0, false, 0, 7⟩,
  ⟨MTB.SRC_VALID, 1, .ro, 0x0, false, 0, 7⟩,
  ⟨MTB.HOLD_MS, 1, .ro, 0x0, false, 0, 65535⟩,
  ⟨MTB.PHASE, 1, .ro, 0x0, false, 0, 65535⟩,
  ⟨MTB.BIN, 1, .ro, 0x0, false, 0, 63⟩,
  ⟨MTB.CYCLE, 1, .ro, 0x0, false, 0, 4294967295⟩]

/-- Register table of page MTB. Part 1. -/
def mtbSpecsPart1 : List FldSpec := [
  ⟨MTB.FREQ, 1, .ro, 0x320000, false, 0, 4294967295⟩,
  ⟨MTB.PHASE_ERR, 1, .ro, 0x0, false, 0, 65535⟩,
  ⟨MTB.ROCOF, 1, .ro, 0x0, false, 0, 65535⟩,
  ⟨MTB.SNAP_TIME_LO, 1, .ro, 0x0, false, 0, 4294967295⟩,
  ⟨MTB.SNAP_TIME_HI, 1, .ro, 0x0, false, 0, 4294967295⟩,
  ⟨MTB.SNAP_CYCLE, 1, .ro, 0x0, false, 0, 4294967295⟩,
  ⟨MTB.SNAP_PHASE, 1, .ro, 0x0, false, 0, 65535⟩,
  ⟨MTB.SNAP_STATE, 1, .ro, 0x0, false, 0, 7⟩,
  ⟨MTB.LOG_HEAD, 1, .ro, 0x0, false, 0, 131071⟩,
  ⟨MTB.EV_LOCKED, 1, .w1c, 0x0, false, 0, 1⟩,
  ⟨MTB.EV_HOLDOVER_ENTER, 1, .w1c, 0x0, false, 0, 1⟩,
  ⟨MTB.EV_NOMINAL_ENTER, 1, .w1c, 0x0, false, 0, 1⟩,
  ⟨MTB.EV_PHASE_STEP, 1, .w1c, 0x0, false, 0, 1⟩,
  ⟨MTB.EV_SRC_DROP, 1, .w1c, 0x0, false, 0, 1⟩,
  ⟨MTB.EV_NO_SOURCE, 1, .w1c, 0x0, false, 0, 1⟩,
  ⟨MTB.INVALID_CNT, 1, .ro, 0x0, false, 0, 4294967295⟩,
  ⟨MTB.HOLDOVER_CNT, 1, .ro, 0x0, false, 0, 4294967295⟩,
  ⟨MTB.STEP_CNT, 1, .ro, 0x0, false, 0, 4294967295⟩,
  ⟨MTB.ACQ_RESTART_CNT, 1, .ro, 0x0, false, 0, 4294967295⟩,
  ⟨MTB.GLITCH_CNT, 1, .ro, 0x0, false, 0, 4294967295⟩]

/-- Register table of page MTB. -/
def mtbSpecs : List FldSpec := mtbSpecsPart0 ++ mtbSpecsPart1

/-- Register table of page LPT. Part 0. -/
def lptSpecsPart0 : List FldSpec := [
  ⟨LPT.GAIN_MODE, 1, .rws, 0x1, false, 0, 2⟩,
  ⟨LPT.GAIN, 1, .rws, 0x5, false, 0, 7⟩,
  ⟨LPT.GAIN_MIN, 1, .rws, 0x0, false, 0, 7⟩,
  ⟨LPT.OVL_STEPS, 1, .rws, 0x1, true, 0, 3⟩,
  ⟨LPT.OVL_THRESH, 1, .rws, 0x7D70, true, 0, 65535⟩,
  ⟨LPT.OVL_COUNT, 1, .rws, 0x2, true, 0, 15⟩,
  ⟨LPT.OVL_ERASE, 1, .rws, 0x8, false, 0, 255⟩,
  ⟨LPT.UP_THRESH, 1, .rws, 0x2000, true, 0, 65535⟩,
  ⟨LPT.UP_HOLD_MS, 1, .rws, 0x64, true, 0, 65535⟩,
  ⟨LPT.ENA_MODE, 1, .rws, 0x0, false, 0, 1⟩,
  ⟨LPT.ENA_LEAD_US, 1, .rws, 0x64, false, 0, 255⟩,
  ⟨LPT.ENA_LAG_US, 1, .rws, 0x32, false, 0, 255⟩,
  ⟨LPT.AMP_GAIN, 1, .rws, 0x64, true, 0, 255⟩,
  ⟨LPT.ISNS_SCALE, 1, .rws, 0x112B, true, 0, 65535⟩,
  ⟨LPT.ILIM_MA, 1, .rws, 0xBB8, true, 0, 65535⟩,
  ⟨LPT.ILIM_US, 1, .rws, 0x14, true, 0, 255⟩,
  ⟨LPT.OC_STRIKES, 1, .rws, 0x3, true, 0, 15⟩,
  ⟨LPT.OC_WINDOW_MS, 1, .rws, 0x3E8, true, 0, 65535⟩,
  ⟨LPT.PILOT_FREQ, 1, .rws, 0x7B0, false, 1964, 2000⟩,
  ⟨LPT.PILOT_LEVEL, 1, .rws, 0x5, false, 0, 15⟩,
  ⟨LPT.CHECK_MS, 1, .rws, 0x3E8, false, 0, 65535⟩,
  ⟨LPT.PILOT_RX_MIN_DB, 1, .rws, 0x28, true, 0, 255⟩,
  ⟨LPT.Z_MIN, 1, .rws, 0x5, true, 0, 255⟩,
  ⟨LPT.Z_MAX, 1, .rws, 0x7D0, false, 0, 65535⟩]

/-- Register table of page LPT. Part 1. -/
def lptSpecsPart1 : List FldSpec := [
  ⟨LPT.REV_ACTION, 1, .rws, 0x2, false, 0, 2⟩,
  ⟨LPT.REV_OFFSET, 1, .rws, 0x0, false, 0, 65535⟩,
  ⟨LPT.RETRY_FIRST_MS, 1, .rws, 0x3E8, true, 0, 65535⟩,
  ⟨LPT.RETRY_MAX_S, 1, .rws, 0x3C, true, 0, 255⟩,
  ⟨LPT.RETRY_LIMIT, 1, .rws, 0x0, false, 0, 255⟩,
  ⟨LPT.CANC_EN, 1, .rws, 0x1, false, 0, 1⟩,
  ⟨LPT.ECHO_EN, 1, .rws, 0x1, false, 0, 1⟩,
  ⟨LPT.ECHO_MU, 1, .rws, 0xA, true, 0, 15⟩,
  ⟨LPT.ECHO_FREEZE, 1, .rws, 0x0, false, 0, 1⟩,
  ⟨LPT.CHECK_NOW, 1, .wo, 0x0, false, 0, 1⟩,
  ⟨LPT.ECHO_RESET, 1, .wo, 0x0, false, 0, 1⟩,
  ⟨LPT.STATE, 1, .ro, 0x0, false, 0, 7⟩,
  ⟨LPT.CAUSE, 1, .ro, 0x0, false, 0, 7⟩,
  ⟨LPT.TX_AVAIL, 1, .ro, 0x0, false, 0, 1⟩,
  ⟨LPT.ENA, 1, .ro, 0x0, false, 0, 1⟩,
  ⟨LPT.FLT, 1, .ro, 0x0, false, 0, 1⟩,
  ⟨LPT.RETRIES, 1, .ro, 0x0, false, 0, 255⟩,
  ⟨LPT.GAIN_NOW, 1, .ro, 0x0, false, 0, 7⟩,
  ⟨LPT.BIN_PEAK, 1, .ro, 0x0, false, 0, 65535⟩,
  ⟨LPT.RX_RET_DB, 1, .ro, 0x0, false, 0, 255⟩,
  ⟨LPT.Z, 1, .ro, 0x0, false, 0, 65535⟩,
  ⟨LPT.REV_PHASE, 1, .ro, 0x0, false, 0, 65535⟩,
  ⟨LPT.REV_STATE, 1, .ro, 0x0, false, 0, 7⟩,
  ⟨LPT.I_MEAN_MA, 1, .ro, 0x0, false, 0, 65535⟩]

/-- Register table of page LPT. Part 2. -/
def lptSpecsPart2 : List FldSpec := [
  ⟨LPT.I_PEAK_MA, 1, .ro, 0x0, false, 0, 65535⟩,
  ⟨LPT.CANC_GAIN, 1, .ro, 0x0, false, 0, 65535⟩,
  ⟨LPT.CANC_DELAY, 1, .ro, 0x0, false, 0, 255⟩,
  ⟨LPT.EV_STATE_CHANGE, 1, .w1c, 0x0, false, 0, 1⟩,
  ⟨LPT.EV_OVERLOAD, 1, .w1c, 0x0, false, 0, 1⟩,
  ⟨LPT.EV_GAIN_STEP, 1, .w1c, 0x0, false, 0, 1⟩,
  ⟨LPT.EV_OVERCURRENT, 1, .w1c, 0x0, false, 0, 1⟩,
  ⟨LPT.EV_CHECK_DONE, 1, .w1c, 0x0, false, 0, 1⟩,
  ⟨LPT.EV_REVERSED, 1, .w1c, 0x0, false, 0, 1⟩,
  ⟨LPT.EV_AMP_FAULT, 1, .w1c, 0x0, false, 0, 1⟩,
  ⟨LPT.OVL_CNT, 1, .ro, 0x0, false, 0, 4294967295⟩,
  ⟨LPT.OVL_AT_MIN_CNT, 1, .ro, 0x0, false, 0, 4294967295⟩,
  ⟨LPT.GAIN_STEP_CNT, 1, .ro, 0x0, false, 0, 4294967295⟩,
  ⟨LPT.OC_CNT, 1, .ro, 0x0, false, 0, 4294967295⟩,
  ⟨LPT.FAULT_CNT, 1, .ro, 0x0, false, 0, 4294967295⟩,
  ⟨LPT.CHECK_CNT, 1, .ro, 0x0, false, 0, 4294967295⟩,
  ⟨LPT.GAIN_SCHED, 64, .rws, 0x0, false, 0, 7⟩,
  ⟨LPT.ECHO_TAP, 256, .ro, 0x0, false, 0, 16777215⟩]

/-- Register table of page LPT. -/
def lptSpecs : List FldSpec := lptSpecsPart0 ++ lptSpecsPart1 ++ lptSpecsPart2

/-- Register table of page ERG. Part 0. -/
def ergSpecsPart0 : List FldSpec := [
  ⟨ERG.ROLE, 4, .rws, 0x0, false, 0, 2⟩,
  ⟨ERG.PORT, 4, .rws, 0x0, false, 0, 15⟩,
  ⟨ERG.RATE, 4, .rws, 0x0, false, 0, 3⟩,
  ⟨ERG.TIMING, 4, .rws, 0x0, false, 0, 1⟩,
  ⟨ERG.ALARM, 4, .rws, 0x0, false, 0, 1⟩,
  ⟨ERG.LEND_OK, 4, .rws, 0x0, false, 0, 1⟩,
  ⟨ERG.CENTRE, 4, .rws, 0x0, false, 0, 2047⟩,
  ⟨ERG.SYNC_WORD, 4, .rws, 0x0, false, 0, 4294967295⟩,
  ⟨ERG.SYNC_TOL, 4, .rws, 0x3, false, 0, 7⟩,
  ⟨ERG.PD_THRESH, 4, .rws, 0xA, true, 0, 15⟩,
  ⟨ERG.SYNC_WIN, 4, .rws, 0x28, true, 0, 255⟩,
  ⟨ERG.RANK, 4, .rws, 0x80, false, 0, 255⟩,
  ⟨ERG.NMAP_ERASE, 4, .rws, 0x1, false, 0, 1⟩,
  ⟨ERG.BLANK0, 4, .rws, 0x0, false, 0, 1⟩,
  ⟨ERG.BLANK1, 4, .rws, 0x0, false, 0, 1⟩,
  ⟨ERG.ERASE_SNR, 4, .rws, 0x10, false, 0, 255⟩,
  ⟨ERG.IMPULSE_DB, 4, .rws, 0x14, false, 0, 255⟩,
  ⟨ERG.STATE, 4, .ro, 0x0, false, 0, 15⟩,
  ⟨ERG.WATCH, 4, .ro, 0x0, false, 0, 1⟩,
  ⟨ERG.SOFT_BUF, 4, .ro, 0x0, false, 0, 3⟩,
  ⟨ERG.AGC_REF, 4, .ro, 0x0, false, 0, 65535⟩,
  ⟨ERG.CARRIER_OFF, 4, .ro, 0x0, false, 0, 65535⟩,
  ⟨ERG.LAST_SNR, 4, .ro, 0x0, false, 0, 65535⟩,
  ⟨ERG.LAST_RATE_ERR, 4, .ro, 0x0, false, 0, 65535⟩]

/-- Register table of page ERG. Part 1. -/
def ergSpecsPart1 : List FldSpec := [
  ⟨ERG.T_SYNC_LO, 4, .ro, 0x0, false, 0, 4294967295⟩,
  ⟨ERG.T_SYNC_HI, 4, .ro, 0x0, false, 0, 4294967295⟩,
  ⟨ERG.LAST_HDR, 4, .ro, 0x0, false, 0, 4294967295⟩,
  ⟨ERG.CELL_NOW, 4, .ro, 0x0, false, 0, 4294967295⟩,
  ⟨ERG.DETECT_CNT, 4, .ro, 0x0, false, 0, 4294967295⟩,
  ⟨ERG.SYNC_FAIL_CNT, 4, .ro, 0x0, false, 0, 4294967295⟩,
  ⟨ERG.HDR_OK_CNT, 4, .ro, 0x0, false, 0, 4294967295⟩,
  ⟨ERG.HDR_INVALID_CNT, 4, .ro, 0x0, false, 0, 4294967295⟩,
  ⟨ERG.FRAME_SHORT_CNT, 4, .ro, 0x0, false, 0, 4294967295⟩,
  ⟨ERG.FORMAT_INVALID_CNT, 4, .ro, 0x0, false, 0, 4294967295⟩,
  ⟨ERG.FCS_FAIL_CNT, 4, .ro, 0x0, false, 0, 4294967295⟩,
  ⟨ERG.CLASS0_UNSEC_CNT, 4, .ro, 0x0, false, 0, 4294967295⟩,
  ⟨ERG.ACK_CRC_FAIL_CNT, 4, .ro, 0x0, false, 0, 4294967295⟩,
  ⟨ERG.AUTH_FAIL_CNT, 4, .ro, 0x0, false, 0, 4294967295⟩,
  ⟨ERG.CUT_CNT, 4, .ro, 0x0, false, 0, 4294967295⟩,
  ⟨ERG.ERASED_SYM_CNT, 4, .ro, 0x0, false, 0, 4294967295⟩,
  ⟨ERG.WATCH_REPORT_CNT, 4, .ro, 0x0, false, 0, 4294967295⟩,
  ⟨ERG.DECODE_OVR_CNT, 4, .ro, 0x0, false, 0, 4294967295⟩,
  ⟨ERG.QLOSS_CNT, 4, .ro, 0x0, false, 0, 4294967295⟩,
  ⟨ERG.EV_CFG_ABORT, 1, .w1c, 0x0, false, 0, 15⟩,
  ⟨ERG.EV_WATCH_REPORT, 1, .w1c, 0x0, false, 0, 15⟩,
  ⟨ERG.EV_DECODE_OVR, 1, .w1c, 0x0, false, 0, 15⟩,
  ⟨ERG.EV_QLOSS, 1, .w1c, 0x0, false, 0, 15⟩,
  ⟨ERG.EV_PARK_CHANGE, 1, .w1c, 0x0, false, 0, 15⟩]

/-- Register table of page ERG. -/
def ergSpecs : List FldSpec := ergSpecsPart0 ++ ergSpecsPart1

/-- Register table of page ERGX. Part 0. -/
def ergxSpecsPart0 : List FldSpec := [
  ⟨ERGX.BLANK0_PORTS, 1, .rws, 0x0, false, 0, 65535⟩,
  ⟨ERGX.BLANK1_PORTS, 1, .rws, 0x0, false, 0, 65535⟩,
  ⟨ERGX.LEND_EN, 1, .rws, 0x1, false, 0, 1⟩,
  ⟨ERGX.LEND_LIMIT, 1, .rws, 0x100, true, 0, 256⟩,
  ⟨ERGX.LIVE_COUNT, 1, .ro, 0x0, false, 0, 511⟩,
  ⟨ERGX.POOL_COUNT, 1, .ro, 0x0, false, 0, 511⟩,
  ⟨ERGX.LENT_COUNT, 1, .ro, 0x0, false, 0, 511⟩,
  ⟨ERGX.PARKED_COUNT, 1, .ro, 0x0, false, 0, 511⟩,
  ⟨ERGX.ALARM_COUNT, 1, .ro, 0x0, false, 0, 63⟩,
  ⟨ERGX.LEVEL, 1, .ro, 0x0, false, 0, 7⟩,
  ⟨ERGX.BUSY, 8, .ro, 0x0, false, 0, 4294967295⟩,
  ⟨ERGX.LENT, 8, .ro, 0x0, false, 0, 4294967295⟩,
  ⟨ERGX.PARKED, 8, .ro, 0x0, false, 0, 4294967295⟩,
  ⟨ERGX.EV_PARK_CHANGE, 1, .w1c, 0x0, false, 0, 1⟩,
  ⟨ERGX.EV_BLANK_TRUNC, 1, .w1c, 0x0, false, 0, 1⟩,
  ⟨ERGX.EV_CFG_ABORT, 1, .w1c, 0x0, false, 0, 1⟩,
  ⟨ERGX.HDR_INVALID_TOT, 1, .ro, 0x0, false, 0, 4294967295⟩,
  ⟨ERGX.FRAME_SHORT_TOT, 1, .ro, 0x0, false, 0, 4294967295⟩,
  ⟨ERGX.FORMAT_INVALID_TOT, 1, .ro, 0x0, false, 0, 4294967295⟩,
  ⟨ERGX.FCS_FAIL_TOT, 1, .ro, 0x0, false, 0, 4294967295⟩,
  ⟨ERGX.CLASS0_UNSEC_TOT, 1, .ro, 0x0, false, 0, 4294967295⟩,
  ⟨ERGX.ACK_CRC_FAIL_TOT, 1, .ro, 0x0, false, 0, 4294967295⟩,
  ⟨ERGX.AUTH_FAIL_TOT, 1, .ro, 0x0, false, 0, 4294967295⟩,
  ⟨ERGX.WATCH_REPORT_TOT, 1, .ro, 0x0, false, 0, 4294967295⟩]

/-- Register table of page ERGX. Part 1. -/
def ergxSpecsPart1 : List FldSpec := [
  ⟨ERGX.RECALL_CNT, 1, .ro, 0x0, false, 0, 4294967295⟩,
  ⟨ERGX.HANDOFF_CNT, 1, .ro, 0x0, false, 0, 4294967295⟩,
  ⟨ERGX.BLANK_TRUNC_CNT, 1, .ro, 0x0, false, 0, 4294967295⟩,
  ⟨ERGX.CFG_ABORT_CNT, 1, .ro, 0x0, false, 0, 4294967295⟩,
  ⟨ERGX.DECODE_OVR_TOT, 1, .ro, 0x0, false, 0, 4294967295⟩]

/-- Register table of page ERGX. -/
def ergxSpecs : List FldSpec := ergxSpecsPart0 ++ ergxSpecsPart1

/-- Register table of page TRL. -/
def trlSpecs : List FldSpec := [
  ⟨TRL.GROUPS_MIN, 1, .rws, 0x1, true, 0, 4⟩,
  ⟨TRL.REPLAY_MAX, 1, .rws, 0xC, true, 0, 16⟩,
  ⟨TRL.BUSY, 1, .ro, 0x0, false, 0, 65535⟩,
  ⟨TRL.GROUPS_ON, 1, .ro, 0x0, false, 0, 15⟩,
  ⟨TRL.WAIT_ALARM, 1, .ro, 0x0, false, 0, 1023⟩,
  ⟨TRL.WAIT_LIVE, 1, .ro, 0x0, false, 0, 1023⟩,
  ⟨TRL.WAIT_REPLAY, 1, .ro, 0x0, false, 0, 1023⟩,
  ⟨TRL.ALARM_WAIT_MAX, 1, .ro, 0x0, false, 0, 65535⟩,
  ⟨TRL.EV_QUEUE_HIGH, 1, .w1c, 0x0, false, 0, 1⟩,
  ⟨TRL.EV_GROUP_WAKE, 1, .w1c, 0x0, false, 0, 1⟩,
  ⟨TRL.JOBS_ALARM, 1, .ro, 0x0, false, 0, 4294967295⟩,
  ⟨TRL.JOBS_LIVE, 1, .ro, 0x0, false, 0, 4294967295⟩,
  ⟨TRL.JOBS_REPLAY, 1, .ro, 0x0, false, 0, 4294967295⟩,
  ⟨TRL.KBITS_DECODED, 1, .ro, 0x0, false, 0, 4294967295⟩]

/-- Register table of page NMAP. -/
def nmapSpecs : List FldSpec := [
  ⟨NMAP.OWNER, 1, .rws, 0x0, false, 0, 1⟩,
  ⟨NMAP.AGE_LIMIT_S, 1, .rws, 0x3C, false, 0, 255⟩,
  ⟨NMAP.IDX, 1, .rw, 0x0, false, 0, 16383⟩,
  ⟨NMAP.INC, 1, .rw, 0x1, false, 0, 1⟩,
  ⟨NMAP.CELL_DATA, 1, .rw, 0x0, false, 0, 4294967295⟩,
  ⟨NMAP.STALE_CELLS, 1, .ro, 0x0, false, 0, 16383⟩,
  ⟨NMAP.OLDEST_AGE, 1, .ro, 0x0, false, 0, 255⟩,
  ⟨NMAP.EV_STALE, 1, .w1c, 0x0, false, 0, 1⟩,
  ⟨NMAP.EV_WRITE_REFUSED, 1, .w1c, 0x0, false, 0, 1⟩,
  ⟨NMAP.CELL_WRITE_CNT, 1, .ro, 0x0, false, 0, 4294967295⟩,
  ⟨NMAP.HOST_WRITE_CNT, 1, .ro, 0x0, false, 0, 4294967295⟩,
  ⟨NMAP.WRITE_REFUSED_CNT, 1, .ro, 0x0, false, 0, 4294967295⟩]

/-- Register table of page TXS. Part 0. -/
def txsSpecsPart0 : List FldSpec := [
  ⟨TXS.ALARM_CH, 1, .rws, 0x0, false, 0, 15⟩,
  ⟨TXS.ALARM_EN, 1, .rws, 0x0, false, 0, 1⟩,
  ⟨TXS.DATA_LANES, 1, .rws, 0xA, true, 0, 14⟩,
  ⟨TXS.CUT_POLICY, 1, .rws, 0x0, false, 0, 1⟩,
  ⟨TXS.LEVEL_SUM_MAX, 1, .rws, 0x18, false, 12, 255⟩,
  ⟨TXS.HEADROOM_DB, 1, .rws, 0x6, false, 0, 255⟩,
  ⟨TXS.ACK_LEVEL, 1, .rws, 0x30, false, 0, 255⟩,
  ⟨TXS.PEAK_MAX, 1, .rws, 0x9, false, 0, 255⟩,
  ⟨TXS.PD_EN, 1, .rws, 0x0, false, 0, 1⟩,
  ⟨TXS.PD_OWNER, 1, .rws, 0x0, false, 0, 1⟩,
  ⟨TXS.LANE_BUSY, 1, .ro, 0x0, false, 0, 65535⟩,
  ⟨TXS.DATA_BUSY, 1, .ro, 0x0, false, 0, 15⟩,
  ⟨TXS.C0_ACTIVE, 1, .ro, 0x0, false, 0, 1⟩,
  ⟨TXS.ALARM_MISMATCH, 1, .ro, 0x0, false, 0, 1⟩,
  ⟨TXS.BLOCKED_CH, 1, .ro, 0x0, false, 0, 65535⟩,
  ⟨TXS.COMP_LEVEL, 1, .ro, 0x0, false, 0, 65535⟩,
  ⟨TXS.CREST_GAIN_MIN, 1, .ro, 0x0, false, 0, 65535⟩,
  ⟨TXS.DAC_RMS, 1, .ro, 0xFFFF, false, 0, 65535⟩,
  ⟨TXS.P_LINE_MW, 1, .ro, 0x0, false, 0, 65535⟩,
  ⟨TXS.EST_K, 1, .ro, 0xFA0, false, 0, 65535⟩,
  ⟨TXS.I_RMS_MA, 1, .ro, 0x0, false, 0, 65535⟩,
  ⟨TXS.EV_CUT, 1, .w1c, 0x0, false, 0, 1⟩,
  ⟨TXS.EV_CLIP, 1, .w1c, 0x0, false, 0, 1⟩,
  ⟨TXS.EV_ACK_DROP, 1, .w1c, 0x0, false, 0, 1⟩]

/-- Register table of page TXS. Part 1. -/
def txsSpecsPart1 : List FldSpec := [
  ⟨TXS.EV_ACK_YIELD, 1, .w1c, 0x0, false, 0, 1⟩,
  ⟨TXS.EV_STAGGER_VIOL, 1, .w1c, 0x0, false, 0, 1⟩,
  ⟨TXS.EV_RUN_END, 1, .w1c, 0x0, false, 0, 1⟩,
  ⟨TXS.EV_TX_ABORT, 1, .w1c, 0x0, false, 0, 1⟩,
  ⟨TXS.EV_ALARM_MISMATCH, 1, .w1c, 0x0, false, 0, 1⟩,
  ⟨TXS.EV_PD_APPLIED, 1, .w1c, 0x0, false, 0, 1⟩,
  ⟨TXS.FRAME_CNT, 1, .ro, 0x0, false, 0, 4294967295⟩,
  ⟨TXS.ACK_CNT, 1, .ro, 0x0, false, 0, 4294967295⟩,
  ⟨TXS.CUT_PATTERN_CNT, 1, .ro, 0x0, false, 0, 4294967295⟩,
  ⟨TXS.CUT_SILENT_CNT, 1, .ro, 0x0, false, 0, 4294967295⟩,
  ⟨TXS.ACK_DROP_CNT, 1, .ro, 0x0, false, 0, 4294967295⟩,
  ⟨TXS.ACK_YIELD_CNT, 1, .ro, 0x0, false, 0, 4294967295⟩,
  ⟨TXS.LEVEL_WAIT_CNT, 1, .ro, 0x0, false, 0, 4294967295⟩,
  ⟨TXS.RUN_END_CNT, 1, .ro, 0x0, false, 0, 4294967295⟩,
  ⟨TXS.CLIP_CNT, 1, .ro, 0x0, false, 0, 4294967295⟩,
  ⟨TXS.STAGGER_DELAY_CNT, 1, .ro, 0x0, false, 0, 4294967295⟩,
  ⟨TXS.STAGGER_VIOL_CNT, 1, .ro, 0x0, false, 0, 4294967295⟩,
  ⟨TXS.TX_ABORT_CNT, 1, .ro, 0x0, false, 0, 4294967295⟩,
  ⟨TXS.CENTRE, 16, .rws, 0x0, false, 0, 2047⟩,
  ⟨TXS.RATE, 16, .rws, 0x0, false, 0, 3⟩,
  ⟨TXS.EN, 16, .rws, 0x0, false, 0, 1⟩,
  ⟨TXS.PREAMBLE, 16, .rws, 0x20, false, 16, 65535⟩,
  ⟨TXS.LEVEL, 16, .rws, 0x28, false, 0, 255⟩,
  ⟨TXS.SYNC_WORD, 16, .rws, 0x0, false, 0, 4294967295⟩]

/-- Register table of page TXS. Part 2. -/
def txsSpecsPart2 : List FldSpec := [
  ⟨TXS.PD_TAP, 32, .rws, 0x0, false, 0, 262143⟩]

/-- Register table of page TXS. -/
def txsSpecs : List FldSpec := txsSpecsPart0 ++ txsSpecsPart1 ++ txsSpecsPart2

/-- Register table of page MIR. Part 0. -/
def mirSpecsPart0 : List FldSpec := [
  ⟨MIR.SPEED, 1, .rws, 0x8, true, 0, 16⟩,
  ⟨MIR.REPEAT_EN, 1, .rws, 0x1, false, 0, 1⟩,
  ⟨MIR.PLAIN_EN, 1, .rws, 0x1, false, 0, 1⟩,
  ⟨MIR.WIDE_EN, 1, .rws, 0x1, false, 0, 1⟩,
  ⟨MIR.COMBINE_EN, 1, .rws, 0x1, false, 0, 1⟩,
  ⟨MIR.SEARCH_WIN_US, 1, .rws, 0x7D0, true, 500, 20000⟩,
  ⟨MIR.WIDE_TOL, 1, .rws, 0x5, false, 0, 7⟩,
  ⟨MIR.WIDE_SPAN_MS, 1, .rws, 0x1F4, true, 0, 20000⟩,
  ⟨MIR.ACK_CUTOFF_US, 1, .rws, 0x5DC, false, 100, 1800⟩,
  ⟨MIR.PIN_LIMIT, 1, .rws, 0x8, true, 0, 8⟩,
  ⟨MIR.TRIG_EN, 1, .rws, 0x0, false, 0, 4095⟩,
  ⟨MIR.TRIG_PRE_MS, 1, .rws, 0x2710, false, 0, 65535⟩,
  ⟨MIR.TRIG_POST_MS, 1, .rws, 0x1388, false, 0, 65535⟩,
  ⟨MIR.PIN_START_LO, 1, .rw, 0x0, false, 0, 4294967295⟩,
  ⟨MIR.PIN_START_HI, 1, .rw, 0x0, false, 0, 4294967295⟩,
  ⟨MIR.PIN_END_LO, 1, .rw, 0x0, false, 0, 4294967295⟩,
  ⟨MIR.PIN_END_HI, 1, .rw, 0x0, false, 0, 4294967295⟩,
  ⟨MIR.PIN_REGION, 1, .wo, 0x0, false, 0, 15⟩,
  ⟨MIR.PIN_ACTION, 1, .wo, 0x0, false, 0, 3⟩,
  ⟨MIR.LOOKUP_LO, 1, .rw, 0x0, false, 0, 4294967295⟩,
  ⟨MIR.LOOKUP_HI, 1, .rw, 0x0, false, 0, 4294967295⟩,
  ⟨MIR.DIAG_PORT, 1, .rw, 0x0, false, 0, 15⟩,
  ⟨MIR.DIAG_RATE, 1, .rw, 0x0, false, 0, 3⟩,
  ⟨MIR.DIAG_TIMING, 1, .rw, 0x0, false, 0, 1⟩]

/-- Register table of page MIR. Part 1. -/
def mirSpecsPart1 : List FldSpec := [
  ⟨MIR.DIAG_SYNC_TOL, 1, .rw, 0x3, false, 0, 7⟩,
  ⟨MIR.DIAG_PD_THRESH, 1, .rw, 0xA, false, 0, 15⟩,
  ⟨MIR.DIAG_NO_ERASE, 1, .rw, 0x0, false, 0, 1⟩,
  ⟨MIR.DIAG_DUMP, 1, .rw, 0x0, false, 0, 1⟩,
  ⟨MIR.DIAG_CENTRE, 1, .rw, 0x0, false, 0, 2047⟩,
  ⟨MIR.DIAG_RING, 1, .rw, 0x0, false, 0, 63⟩,
  ⟨MIR.DIAG_SYNC, 1, .rw, 0x0, false, 0, 4294967295⟩,
  ⟨MIR.DIAG_START_LO, 1, .rw, 0x0, false, 0, 4294967295⟩,
  ⟨MIR.DIAG_START_HI, 1, .rw, 0x0, false, 0, 4294967295⟩,
  ⟨MIR.DIAG_END_LO, 1, .rw, 0x0, false, 0, 4294967295⟩,
  ⟨MIR.DIAG_END_HI, 1, .rw, 0x0, false, 0, 4294967295⟩,
  ⟨MIR.DIAG_DUMP_ADDR, 1, .rw, 0x0, false, 0, 2097151⟩,
  ⟨MIR.DIAG_GO, 1, .wo, 0x0, false, 0, 1⟩,
  ⟨MIR.DIAG_ABORT, 1, .wo, 0x0, false, 0, 1⟩,
  ⟨MIR.STATE, 1, .ro, 0x0, false, 0, 3⟩,
  ⟨MIR.REPLAY, 1, .ro, 0x0, false, 0, 1⟩,
  ⟨MIR.PAUSE_REASON, 1, .ro, 0x0, false, 0, 7⟩,
  ⟨MIR.SPEED_NOW, 1, .ro, 0x0, false, 0, 31⟩,
  ⟨MIR.SLABS_TOTAL, 1, .ro, 0x0, false, 0, 2097151⟩,
  ⟨MIR.SLABS_PINNED, 1, .ro, 0x0, false, 0, 2097151⟩,
  ⟨MIR.HEAD_SLAB, 1, .ro, 0x0, false, 0, 2097151⟩,
  ⟨MIR.OLDEST_LO, 1, .ro, 0x0, false, 0, 4294967295⟩,
  ⟨MIR.OLDEST_HI, 1, .ro, 0x0, false, 0, 4294967295⟩,
  ⟨MIR.RETENTION_S, 1, .ro, 0x0, false, 0, 65535⟩]

/-- Register table of page MIR. Part 2. -/
def mirSpecsPart2 : List FldSpec := [
  ⟨MIR.JOBS_WAITING, 1, .ro, 0x0, false, 0, 524287⟩,
  ⟨MIR.JOB_AGE_MS, 1, .ro, 0x0, false, 0, 65535⟩,
  ⟨MIR.SLOTS_USED, 1, .ro, 0x0, false, 0, 1023⟩,
  ⟨MIR.LOOKUP_SLAB, 1, .ro, 0x0, false, 0, 2097151⟩,
  ⟨MIR.LOOKUP_FOUND, 1, .ro, 0x0, false, 0, 1⟩,
  ⟨MIR.PIN_ST, 16, .ro, 0x0, false, 0, 3⟩,
  ⟨MIR.PARTIAL, 16, .ro, 0x0, false, 0, 1⟩,
  ⟨MIR.TRIGGERED, 16, .ro, 0x0, false, 0, 1⟩,
  ⟨MIR.SLABS, 16, .ro, 0x0, false, 0, 16777215⟩,
  ⟨MIR.DIAG_STATE, 1, .ro, 0x0, false, 0, 3⟩,
  ⟨MIR.FRAMES, 1, .ro, 0x0, false, 0, 255⟩,
  ⟨MIR.FAILS, 1, .ro, 0x0, false, 0, 255⟩,
  ⟨MIR.RESULT, 1, .ro, 0x0, false, 0, 15⟩,
  ⟨MIR.LOST_TIME_LO, 1, .ro, 0x0, false, 0, 4294967295⟩,
  ⟨MIR.LOST_TIME_HI, 1, .ro, 0x0, false, 0, 4294967295⟩,
  ⟨MIR.LAST_LOST_ENGINE, 1, .ro, 0x0, false, 0, 255⟩,
  ⟨MIR.LAST_LOST_KIND, 1, .ro, 0x0, false, 0, 7⟩,
  ⟨MIR.LAST_LOST_CAUSE, 1, .ro, 0x0, false, 0, 3⟩,
  ⟨MIR.EV_RING_LOST, 1, .w1c, 0x0, false, 0, 1⟩,
  ⟨MIR.EV_WRITE_LOSS, 1, .w1c, 0x0, false, 0, 1⟩,
  ⟨MIR.EV_PIN_DONE, 1, .w1c, 0x0, false, 0, 1⟩,
  ⟨MIR.EV_PIN_PARTIAL, 1, .w1c, 0x0, false, 0, 1⟩,
  ⟨MIR.EV_TRIGGER, 1, .w1c, 0x0, false, 0, 1⟩,
  ⟨MIR.EV_TRIG_MISSED, 1, .w1c, 0x0, false, 0, 1⟩]

/-- Register table of page MIR. Part 3. -/
def mirSpecsPart3 : List FldSpec := [
  ⟨MIR.EV_DIAG_DONE, 1, .w1c, 0x0, false, 0, 1⟩,
  ⟨MIR.EV_JOBQ_HIGH, 1, .w1c, 0x0, false, 0, 1⟩,
  ⟨MIR.EV_SLOT_FULL, 1, .w1c, 0x0, false, 0, 1⟩,
  ⟨MIR.REPEAT_JOBS, 1, .ro, 0x0, false, 0, 4294967295⟩,
  ⟨MIR.PLAIN_JOBS, 1, .ro, 0x0, false, 0, 4294967295⟩,
  ⟨MIR.WIDE_JOBS, 1, .ro, 0x0, false, 0, 4294967295⟩,
  ⟨MIR.MERGED_CNT, 1, .ro, 0x0, false, 0, 4294967295⟩,
  ⟨MIR.COPY_FOUND_CNT, 1, .ro, 0x0, false, 0, 4294967295⟩,
  ⟨MIR.COPY_MISSING_CNT, 1, .ro, 0x0, false, 0, 4294967295⟩,
  ⟨MIR.COMBINE_OK_CNT, 1, .ro, 0x0, false, 0, 4294967295⟩,
  ⟨MIR.COMBINE_FAIL_CNT, 1, .ro, 0x0, false, 0, 4294967295⟩,
  ⟨MIR.LATE_CNT, 1, .ro, 0x0, false, 0, 4294967295⟩,
  ⟨MIR.LATE_DUP_CNT, 1, .ro, 0x0, false, 0, 4294967295⟩,
  ⟨MIR.LATE_STALE_CNT, 1, .ro, 0x0, false, 0, 4294967295⟩,
  ⟨MIR.RING_LOST_CNT, 1, .ro, 0x0, false, 0, 4294967295⟩,
  ⟨MIR.WRITE_LOSS_CNT, 1, .ro, 0x0, false, 0, 4294967295⟩,
  ⟨MIR.SLOT_FULL_CNT, 1, .ro, 0x0, false, 0, 4294967295⟩,
  ⟨MIR.ACKED_COMBINED_CNT, 1, .ro, 0x0, false, 0, 4294967295⟩]

/-- Register table of page MIR. -/
def mirSpecs : List FldSpec := mirSpecsPart0 ++ mirSpecsPart1 ++ mirSpecsPart2 ++ mirSpecsPart3

/-- Register table of page MAC. Part 0. -/
def macSpecsPart0 : List FldSpec := [
  ⟨MAC.FORCE_FALLBACK, 1, .rws, 0x0, false, 0, 1⟩,
  ⟨MAC.RAW_QUEUE, 1, .rws, 0x1FFF, false, 0, 8191⟩,
  ⟨MAC.STAGGER_US, 1, .rws, 0x32, true, 50, 100⟩,
  ⟨MAC.BE_MIN1, 1, .rws, 0x1, false, 0, 10⟩,
  ⟨MAC.BE_MIN2, 1, .rws, 0x2, false, 0, 10⟩,
  ⟨MAC.BE_MIN3, 1, .rws, 0x3, false, 0, 10⟩,
  ⟨MAC.BE_MAX, 1, .rws, 0x6, false, 0, 10⟩,
  ⟨MAC.MAX_ATTEMPTS, 1, .rws, 0x4, true, 0, 15⟩,
  ⟨MAC.LIMIT, 1, .rws, 0x8, true, 0, 255⟩,
  ⟨MAC.CCA_US, 1, .rws, 0xFA, true, 31, 1000⟩,
  ⟨MAC.CS_DB, 1, .rws, 0xC, true, 0, 255⟩,
  ⟨MAC.CS_ABS, 1, .rws, 0x78, false, 0, 255⟩,
  ⟨MAC.ACK_WIN_US, 1, .rws, 0x32, true, 0, 255⟩,
  ⟨MAC.TXWIN_EN, 1, .rws, 0x0, false, 0, 1⟩,
  ⟨MAC.NOISY_DB, 1, .rws, 0xC, true, 0, 255⟩,
  ⟨MAC.TXWIN_MAX_SLOTS, 1, .rws, 0xA, true, 0, 255⟩,
  ⟨MAC.MISS_LIMIT, 1, .rws, 0x3, true, 0, 15⟩,
  ⟨MAC.FULL_LIMIT, 1, .rws, 0x2, true, 0, 15⟩,
  ⟨MAC.WAKE_GAP_MS, 1, .rws, 0x1, false, 0, 255⟩,
  ⟨MAC.WAKE_DATA_GAP_MS, 1, .rws, 0x5, true, 0, 255⟩,
  ⟨MAC.WAKE_HOLD_SLOTS, 1, .rws, 0x8, false, 0, 255⟩,
  ⟨MAC.REGIME, 1, .ro, 0x1, false, 0, 1⟩,
  ⟨MAC.REASON, 1, .ro, 0x0, false, 0, 7⟩,
  ⟨MAC.TRAINS, 1, .ro, 0x0, false, 0, 255⟩]

/-- Register table of page MAC. Part 1. -/
def macSpecsPart1 : List FldSpec := [
  ⟨MAC.BUSY, 8, .ro, 0x0, false, 0, 4294967295⟩,
  ⟨MAC.DEAF, 8, .ro, 0x0, false, 0, 4294967295⟩,
  ⟨MAC.EV_FORCED_ACCESS, 1, .w1c, 0x0, false, 0, 1⟩,
  ⟨MAC.EV_BUSY_FAIL, 1, .w1c, 0x0, false, 0, 1⟩,
  ⟨MAC.EV_REGIME_CHANGE, 1, .w1c, 0x0, false, 0, 1⟩,
  ⟨MAC.EV_NO_ACK_ENGINE, 1, .w1c, 0x0, false, 0, 1⟩,
  ⟨MAC.EV_ACK_LATE, 1, .w1c, 0x0, false, 0, 1⟩,
  ⟨MAC.EV_WAKE_SKIP, 1, .w1c, 0x0, false, 0, 1⟩,
  ⟨MAC.LBT_BUSY_CNT, 1, .ro, 0x0, false, 0, 4294967295⟩,
  ⟨MAC.BUSY_FAIL_CNT, 1, .ro, 0x0, false, 0, 4294967295⟩,
  ⟨MAC.FORCED_CNT, 1, .ro, 0x0, false, 0, 4294967295⟩,
  ⟨MAC.ACK_RX_CNT, 1, .ro, 0x0, false, 0, 4294967295⟩,
  ⟨MAC.ACK_MISS_CNT, 1, .ro, 0x0, false, 0, 4294967295⟩,
  ⟨MAC.ACK_LATE_CNT, 1, .ro, 0x0, false, 0, 4294967295⟩,
  ⟨MAC.OVERHEARD_CNT, 1, .ro, 0x0, false, 0, 4294967295⟩,
  ⟨MAC.TXWIN_DEFER_CNT, 1, .ro, 0x0, false, 0, 4294967295⟩,
  ⟨MAC.WAKE_FRAME_CNT, 1, .ro, 0x0, false, 0, 4294967295⟩,
  ⟨MAC.WAKE_SKIP_CNT, 1, .ro, 0x0, false, 0, 4294967295⟩,
  ⟨MAC.WAKE_FAIL_CNT, 1, .ro, 0x0, false, 0, 4294967295⟩,
  ⟨MAC.DRIFTED_CNT, 1, .ro, 0x0, false, 0, 4294967295⟩]

/-- Register table of page MAC. -/
def macSpecs : List FldSpec := macSpecsPart0 ++ macSpecsPart1

/-- Register table of page FLT. -/
def fltSpecs : List FldSpec := [
  ⟨FLT.BCAST_FTYPES, 1, .rws, 0x0, false, 0, 65535⟩,
  ⟨FLT.EV_FILTERED, 1, .w1c, 0x0, false, 0, 1⟩,
  ⟨FLT.FILTERED_DST_CNT, 1, .ro, 0x0, false, 0, 4294967295⟩,
  ⟨FLT.FILTERED_SRC_CNT, 1, .ro, 0x0, false, 0, 4294967295⟩,
  ⟨FLT.FILTERED_BCAST_CNT, 1, .ro, 0x0, false, 0, 4294967295⟩,
  ⟨FLT.ALLOW, 128, .rws, 0xFFFFFFFF, false, 0, 4294967295⟩]

/-- Register table of page DWL. -/
def dwlSpecs : List FldSpec := [
  ⟨DWL.RESERVE_EN, 1, .rws, 0x1, false, 0, 1⟩,
  ⟨DWL.RESERVE_PM, 1, .rws, 0x14, false, 0, 1023⟩,
  ⟨DWL.C0_ON_MS, 1, .rws, 0xF0, true, 0, 65535⟩,
  ⟨DWL.PORT_PROF_LO, 1, .rws, 0x0, false, 0, 4294967295⟩,
  ⟨DWL.PORT_PROF_HI, 1, .rws, 0x0, false, 0, 4294967295⟩,
  ⟨DWL.PORT_USED, 16, .ro, 0x0, false, 0, 1023⟩,
  ⟨DWL.C0_USED, 16, .ro, 0x0, false, 0, 1023⟩,
  ⟨DWL.OVER, 1, .ro, 0x0, false, 0, 65535⟩,
  ⟨DWL.RESERVE_MISMATCH, 1, .ro, 0x0, false, 0, 1⟩,
  ⟨DWL.EV_DWELL_OVER, 1, .w1c, 0x0, false, 0, 1⟩,
  ⟨DWL.EV_DWELL_REFUSED, 1, .w1c, 0x0, false, 0, 1⟩,
  ⟨DWL.EV_RESERVE_MISMATCH, 1, .w1c, 0x0, false, 0, 1⟩,
  ⟨DWL.DWELL_WAIT_CNT, 1, .ro, 0x0, false, 0, 4294967295⟩,
  ⟨DWL.DWELL_REFUSED_CNT, 1, .ro, 0x0, false, 0, 4294967295⟩,
  ⟨DWL.C0_OVER_CNT, 1, .ro, 0x0, false, 0, 4294967295⟩,
  ⟨DWL.ACK_OVER_CNT, 1, .ro, 0x0, false, 0, 4294967295⟩,
  ⟨DWL.CH_PROF_LO, 16, .rws, 0x0, false, 0, 4294967295⟩,
  ⟨DWL.CH_PROF_HI, 16, .rws, 0x0, false, 0, 4294967295⟩,
  ⟨DWL.EN, 16, .rws, 0x0, false, 0, 1⟩,
  ⟨DWL.MAX_ON_MS, 16, .rws, 0xFFFF, false, 0, 65535⟩,
  ⟨DWL.MIN_OFF_MS, 16, .rws, 0x0, false, 0, 65535⟩,
  ⟨DWL.WINDOW_S, 16, .rws, 0x3C, false, 0, 3600⟩,
  ⟨DWL.DUTY_PM, 16, .rws, 0x3E8, false, 0, 1000⟩]

/-- Register table of page LNK. Part 0. -/
def lnkSpecsPart0 : List FldSpec := [
  ⟨LNK.REQUIRE_SEC, 1, .rws, 0x1, false, 0, 1⟩,
  ⟨LNK.AUTH_DIAG, 1, .rws, 0x0, false, 0, 1⟩,
  ⟨LNK.AUTH_DIAG_RING, 1, .rws, 0x0, false, 0, 63⟩,
  ⟨LNK.CTR_GAP_LOG2, 1, .rws, 0x18, true, 0, 31⟩,
  ⟨LNK.REPLAY_LIMIT, 1, .rws, 0x8, true, 0, 255⟩,
  ⟨LNK.DUP_HOLD_S, 1, .rws, 0x3C, true, 0, 65535⟩,
  ⟨LNK.SACK_WAIT_MS, 1, .rws, 0xBB8, true, 0, 65535⟩,
  ⟨LNK.QUERY_LIMIT, 1, .rws, 0x4, true, 0, 15⟩,
  ⟨LNK.CONTRA_LIMIT, 1, .rws, 0x3, true, 0, 15⟩,
  ⟨LNK.PROBE_S, 1, .rws, 0x3C, true, 0, 65535⟩,
  ⟨LNK.SILENT_S, 1, .rws, 0xE10, false, 0, 65535⟩,
  ⟨LNK.HOLD_S, 1, .rws, 0x15180, true, 0, 4294967295⟩,
  ⟨LNK.WD_MS, 1, .rws, 0x64, true, 0, 65535⟩,
  ⟨LNK.OPCODE, 1, .wo, 0x0, false, 0, 255⟩,
  ⟨LNK.CMD_TAG, 1, .wo, 0x0, false, 0, 255⟩,
  ⟨LNK.MB_ARG, 8, .wo, 0x0, false, 0, 4294967295⟩,
  ⟨LNK.EVT_DATA, 1, .rc, 0x0, false, 0, 4294967295⟩,
  ⟨LNK.FW_STATE, 1, .ro, 0x0, false, 0, 7⟩,
  ⟨LNK.FW_VERSION, 1, .ro, 0x0, false, 0, 4294967295⟩,
  ⟨LNK.HEARTBEAT, 1, .ro, 0x0, false, 0, 4294967295⟩,
  ⟨LNK.BUSY, 1, .ro, 0x0, false, 0, 1⟩,
  ⟨LNK.MB_TAG, 1, .ro, 0x0, false, 0, 255⟩,
  ⟨LNK.RESULT, 1, .ro, 0x0, false, 0, 255⟩,
  ⟨LNK.MB_RESP, 8, .ro, 0x0, false, 0, 4294967295⟩]

/-- Register table of page LNK. Part 1. -/
def lnkSpecsPart1 : List FldSpec := [
  ⟨LNK.EVT_FILL, 1, .ro, 0x0, false, 0, 2047⟩,
  ⟨LNK.EP_COUNT, 1, .ro, 0x0, false, 0, 4095⟩,
  ⟨LNK.SESS_COUNT, 1, .ro, 0x0, false, 0, 511⟩,
  ⟨LNK.EV_MB_DONE, 1, .w1c, 0x0, false, 0, 1⟩,
  ⟨LNK.EV_EVT_READY, 1, .w1c, 0x0, false, 0, 1⟩,
  ⟨LNK.EV_FW_STOPPED, 1, .w1c, 0x0, false, 0, 1⟩,
  ⟨LNK.EV_FW_RUNNING, 1, .w1c, 0x0, false, 0, 1⟩,
  ⟨LNK.EV_EVT_LOST, 1, .w1c, 0x0, false, 0, 1⟩,
  ⟨LNK.DUP_CNT, 1, .ro, 0x0, false, 0, 4294967295⟩,
  ⟨LNK.CTR_REPLAY_CNT, 1, .ro, 0x0, false, 0, 4294967295⟩,
  ⟨LNK.CTR_JUMP_CNT, 1, .ro, 0x0, false, 0, 4294967295⟩,
  ⟨LNK.MIC_FAIL_CNT, 1, .ro, 0x0, false, 0, 4294967295⟩,
  ⟨LNK.NO_KEY_CNT, 1, .ro, 0x0, false, 0, 4294967295⟩,
  ⟨LNK.UNSECURED_CNT, 1, .ro, 0x0, false, 0, 4294967295⟩,
  ⟨LNK.ECHO_CNT, 1, .ro, 0x0, false, 0, 4294967295⟩,
  ⟨LNK.FTYPE_UNKNOWN_CNT, 1, .ro, 0x0, false, 0, 4294967295⟩,
  ⟨LNK.FTYPE_RULE_CNT, 1, .ro, 0x0, false, 0, 4294967295⟩,
  ⟨LNK.SEG_DUP_CNT, 1, .ro, 0x0, false, 0, 4294967295⟩,
  ⟨LNK.SEG_OUT_WIN_CNT, 1, .ro, 0x0, false, 0, 4294967295⟩,
  ⟨LNK.SEG_BAD_CNT, 1, .ro, 0x0, false, 0, 4294967295⟩,
  ⟨LNK.SACK_CONTRA_CNT, 1, .ro, 0x0, false, 0, 4294967295⟩,
  ⟨LNK.SESS_DONE_CNT, 1, .ro, 0x0, false, 0, 4294967295⟩,
  ⟨LNK.SESS_FAIL_CNT, 1, .ro, 0x0, false, 0, 4294967295⟩,
  ⟨LNK.ROUTE_ODD_CNT, 1, .ro, 0x0, false, 0, 4294967295⟩]

/-- Register table of page LNK. Part 2. -/
def lnkSpecsPart2 : List FldSpec := [
  ⟨LNK.EVT_LOST_CNT, 1, .ro, 0x0, false, 0, 4294967295⟩]

/-- Register table of page LNK. -/
def lnkSpecs : List FldSpec := lnkSpecsPart0 ++ lnkSpecsPart1 ++ lnkSpecsPart2

/-- Register table of page WAD. Part 0. -/
def wadSpecsPart0 : List FldSpec := [
  ⟨WAD.RX_RING1, 1, .rws, 0x1, false, 0, 63⟩,
  ⟨WAD.RX_RING2, 1, .rws, 0x2, false, 0, 63⟩,
  ⟨WAD.RX_RING3, 1, .rws, 0x3, false, 0, 63⟩,
  ⟨WAD.FB_RING, 1, .rws, 0x4, false, 0, 63⟩,
  ⟨WAD.OVH_RING, 1, .rws, 0x0, false, 0, 63⟩,
  ⟨WAD.CUT_RING, 1, .rws, 0x5, false, 0, 63⟩,
  ⟨WAD.WEIGHT1, 1, .rws, 0x8, true, 0, 15⟩,
  ⟨WAD.WEIGHT2, 1, .rws, 0x3, true, 0, 15⟩,
  ⟨WAD.WEIGHT3, 1, .rws, 0x1, true, 0, 15⟩,
  ⟨WAD.QUANTUM_US, 1, .rws, 0x2710, true, 0, 65535⟩,
  ⟨WAD.MSG_QUEUED, 1, .ro, 0x0, false, 0, 16777215⟩,
  ⟨WAD.POOL_FREE, 1, .ro, 0x0, false, 0, 16777215⟩,
  ⟨WAD.OPEN_QUEUES, 1, .ro, 0x0, false, 0, 16383⟩,
  ⟨WAD.C0_WAITING, 1, .ro, 0x0, false, 0, 65535⟩,
  ⟨WAD.HELD_REFUSALS, 1, .ro, 0x0, false, 0, 8191⟩,
  ⟨WAD.EV_RING_FULL, 1, .w1c, 0x0, false, 0, 1⟩,
  ⟨WAD.EV_RING0_FULL, 1, .w1c, 0x0, false, 0, 1⟩,
  ⟨WAD.EV_COMP_HELD, 1, .w1c, 0x0, false, 0, 1⟩,
  ⟨WAD.EV_POOL_LOW, 1, .w1c, 0x0, false, 0, 1⟩,
  ⟨WAD.EV_BUDGET_REFUSED, 1, .w1c, 0x0, false, 0, 1⟩,
  ⟨WAD.EV_C0_BOUND_MISS, 1, .w1c, 0x0, false, 0, 1⟩,
  ⟨WAD.ACCEPTED_CNT, 1, .ro, 0x0, false, 0, 4294967295⟩,
  ⟨WAD.REFUSED_CNT, 1, .ro, 0x0, false, 0, 4294967295⟩,
  ⟨WAD.DELIVERED_CNT, 1, .ro, 0x0, false, 0, 4294967295⟩]

/-- Register table of page WAD. Part 1. -/
def wadSpecsPart1 : List FldSpec := [
  ⟨WAD.FAILED_CNT, 1, .ro, 0x0, false, 0, 4294967295⟩,
  ⟨WAD.EXPIRED_CNT, 1, .ro, 0x0, false, 0, 4294967295⟩,
  ⟨WAD.CANCELLED_CNT, 1, .ro, 0x0, false, 0, 4294967295⟩,
  ⟨WAD.RX_RECORD_CNT, 1, .ro, 0x0, false, 0, 4294967295⟩,
  ⟨WAD.RX_DROP_FULL_CNT, 1, .ro, 0x0, false, 0, 4294967295⟩,
  ⟨WAD.COMP_LOST_CNT, 1, .ro, 0x0, false, 0, 4294967295⟩,
  ⟨WAD.C0_ACCEPTED_CNT, 1, .ro, 0x0, false, 0, 4294967295⟩,
  ⟨WAD.C0_BOUND_MISS_CNT, 1, .ro, 0x0, false, 0, 4294967295⟩,
  ⟨WAD.EN, 64, .rws, 0x0, false, 0, 1⟩,
  ⟨WAD.SIZE_M1, 64, .rws, 0x3FF, false, 15, 65535⟩,
  ⟨WAD.BASE, 64, .rws, 0x0, false, 0, 16777215⟩,
  ⟨WAD.INT_THRESH, 64, .rws, 0x1, true, 0, 65535⟩,
  ⟨WAD.INT_HOLD_US, 64, .rws, 0x0, false, 0, 65535⟩,
  ⟨WAD.PENDING_EP, 128, .ro, 0x0, false, 0, 4294967295⟩]

/-- Register table of page WAD. -/
def wadSpecs : List FldSpec := wadSpecsPart0 ++ wadSpecsPart1

/-- Register table of page WQD. -/
def wqdSpecs : List FldSpec := [
  ⟨WQD.QD_IDX, 1, .rw, 0x0, false, 0, 8191⟩,
  ⟨WQD.CLASS, 1, .rws, 0x2, false, 0, 3⟩,
  ⟨WQD.PORT, 1, .rws, 0x0, false, 0, 15⟩,
  ⟨WQD.TXCH, 1, .rws, 0x0, false, 0, 15⟩,
  ⟨WQD.MODE, 1, .rws, 0x0, false, 0, 255⟩,
  ⟨WQD.DST, 1, .rws, 0x1, false, 0, 4095⟩,
  ⟨WQD.COMP_RING, 1, .rws, 0x1, false, 0, 63⟩,
  ⟨WQD.FAULT_POLICY, 1, .rws, 0x0, false, 0, 1⟩,
  ⟨WQD.CAPACITY, 1, .rws, 0x100, true, 0, 65535⟩,
  ⟨WQD.BUDGET_WAIT_MS, 1, .rws, 0x1388, false, 0, 65535⟩,
  ⟨WQD.DEF_DEADLINE_MS, 1, .rws, 0x0, false, 0, 65535⟩,
  ⟨WQD.OP, 1, .wo, 0x0, false, 0, 15⟩,
  ⟨WQD.TAG, 1, .wo, 0x0, false, 0, 65535⟩,
  ⟨WQD.QD_STATUS, 1, .ro, 0x0, false, 0, 4294967295⟩,
  ⟨WQD.INFLIGHT_TAG, 1, .ro, 0x0, false, 0, 65535⟩,
  ⟨WQD.ATTEMPTS, 1, .ro, 0x0, false, 0, 15⟩,
  ⟨WQD.HEAD_AGE_MS, 1, .ro, 0x0, false, 0, 65535⟩,
  ⟨WQD.Q_ACCEPTED, 1, .ro, 0x0, false, 0, 4294967295⟩,
  ⟨WQD.Q_ENDED_OK, 1, .ro, 0x0, false, 0, 4294967295⟩,
  ⟨WQD.Q_ENDED_OTHER, 1, .ro, 0x0, false, 0, 4294967295⟩,
  ⟨WQD.EV_CMD_REFUSED, 1, .w1c, 0x0, false, 0, 1⟩]

/-- Register table of page OAS. Part 0. -/
def oasSpecsPart0 : List FldSpec := [
  ⟨OAS.CAP_MW, 1, .rws, 0x0, false, 0, 65535⟩,
  ⟨OAS.RES_C0_MW, 1, .rws, 0x64, false, 0, 65535⟩,
  ⟨OAS.RES_C0_EN, 1, .rws, 0x1, false, 0, 1⟩,
  ⟨OAS.SPRINT_EN, 1, .rws, 0x0, false, 0, 1⟩,
  ⟨OAS.FORCE_LEVEL, 1, .rws, 0x0, false, 0, 4⟩,
  ⟨OAS.STAGGER_US, 1, .rws, 0x14, false, 5, 200⟩,
  ⟨OAS.TJ_L1, 1, .rws, 0x73, false, 0, 127⟩,
  ⟨OAS.TJ_L2, 1, .rws, 0x79, false, 0, 127⟩,
  ⟨OAS.TJ_L3, 1, .rws, 0x7B, false, 0, 127⟩,
  ⟨OAS.TJ_L4, 1, .rws, 0x7D, false, 0, 127⟩,
  ⟨OAS.TJ_HYST, 1, .rws, 0x3, true, 0, 15⟩,
  ⟨OAS.STEP_DOWN_MS, 1, .rws, 0x7D0, true, 0, 65535⟩,
  ⟨OAS.CAP_OVER_MS, 1, .rws, 0x32, true, 0, 65535⟩,
  ⟨OAS.CAP_HOLD_MS, 1, .rws, 0x3E8, true, 0, 65535⟩,
  ⟨OAS.CAP_HYST_MW, 1, .rws, 0xC8, true, 0, 65535⟩,
  ⟨OAS.STARVE_MS, 1, .rws, 0x14, false, 0, 65535⟩,
  ⟨OAS.VCORE_SPRINT_MA, 1, .rws, 0x2904, false, 0, 10500⟩,
  ⟨OAS.VCORE_LIMIT_MA, 1, .rws, 0x2CEC, false, 0, 12000⟩,
  ⟨OAS.MODE_CMD, 1, .wo, 0x0, false, 0, 3⟩,
  ⟨OAS.LEVEL, 1, .ro, 0x0, false, 0, 7⟩,
  ⟨OAS.REASON, 1, .ro, 0x0, false, 0, 7⟩,
  ⟨OAS.THERMAL_LEVEL, 1, .ro, 0x0, false, 0, 7⟩,
  ⟨OAS.CAP_LEVEL, 1, .ro, 0x0, false, 0, 7⟩,
  ⟨OAS.SPRINT, 1, .ro, 0x0, false, 0, 1⟩]

/-- Register table of page OAS. Part 1. -/
def oasSpecsPart1 : List FldSpec := [
  ⟨OAS.MODE, 1, .ro, 0x0, false, 0, 3⟩,
  ⟨OAS.RESERVE_SHORT, 1, .ro, 0x0, false, 0, 1⟩,
  ⟨OAS.TJ, 1, .ro, 0x0, false, 0, 255⟩,
  ⟨OAS.HOT_SENSOR, 1, .ro, 0x0, false, 0, 15⟩,
  ⟨OAS.VALID_SENSORS, 1, .ro, 0x0, false, 0, 65535⟩,
  ⟨OAS.P_TOTAL_MW, 1, .ro, 0x0, false, 0, 65535⟩,
  ⟨OAS.P_BASE_MW, 1, .ro, 0x0, false, 0, 65535⟩,
  ⟨OAS.COMMITTED_MW, 1, .ro, 0x0, false, 0, 65535⟩,
  ⟨OAS.FREE_MW, 1, .ro, 0x0, false, 0, 65535⟩,
  ⟨OAS.C0_COMMITTED_MW, 1, .ro, 0x0, false, 0, 65535⟩,
  ⟨OAS.SPRINT_TIME_S, 1, .ro, 0x0, false, 0, 65535⟩,
  ⟨OAS.RAIL_MA, 9, .ro, 0x0, false, 0, 65535⟩,
  ⟨OAS.RAIL_MW, 9, .ro, 0x0, false, 0, 65535⟩,
  ⟨OAS.TJ_S, 16, .ro, 0x0, false, 0, 65535⟩,
  ⟨OAS.VALID, 16, .ro, 0x0, false, 0, 1⟩,
  ⟨OAS.TOKENS, 16, .ro, 0x0, false, 0, 65535⟩,
  ⟨OAS.AMP_T, 16, .ro, 0x0, false, 0, 255⟩,
  ⟨OAS.DERATE, 16, .ro, 0x0, false, 0, 1⟩,
  ⟨OAS.AMP_HOT, 16, .ro, 0x0, false, 0, 1⟩,
  ⟨OAS.AMP_SENSOR_FAULT, 16, .ro, 0x0, false, 0, 1⟩,
  ⟨OAS.EV_LEVEL_CHANGE, 1, .w1c, 0x0, false, 0, 1⟩,
  ⟨OAS.EV_TRIP, 1, .w1c, 0x0, false, 0, 1⟩,
  ⟨OAS.EV_SPRINT_START, 1, .w1c, 0x0, false, 0, 1⟩,
  ⟨OAS.EV_SPRINT_END, 1, .w1c, 0x0, false, 0, 1⟩]

/-- Register table of page OAS. Part 2. -/
def oasSpecsPart2 : List FldSpec := [
  ⟨OAS.EV_CAP_UNREACHABLE, 1, .w1c, 0x0, false, 0, 1⟩,
  ⟨OAS.EV_SENSOR_FAULT, 1, .w1c, 0x0, false, 0, 1⟩,
  ⟨OAS.EV_RESERVE_SHORT, 1, .w1c, 0x0, false, 0, 1⟩,
  ⟨OAS.EV_C0_OVERDRAW, 1, .w1c, 0x0, false, 0, 1⟩,
  ⟨OAS.EV_AMP_HOT, 1, .w1c, 0x0, false, 0, 1⟩,
  ⟨OAS.EV_RAIL_LIMIT, 1, .w1c, 0x0, false, 0, 1⟩,
  ⟨OAS.LEVEL_UP_CNT, 1, .ro, 0x0, false, 0, 4294967295⟩,
  ⟨OAS.TRIP_CNT, 1, .ro, 0x0, false, 0, 4294967295⟩,
  ⟨OAS.SPRINT_CNT, 1, .ro, 0x0, false, 0, 4294967295⟩,
  ⟨OAS.DISPATCH_REFUSE_CNT, 1, .ro, 0x0, false, 0, 4294967295⟩,
  ⟨OAS.STARVE_HOLD_CNT, 1, .ro, 0x0, false, 0, 4294967295⟩,
  ⟨OAS.C0_OVERDRAW_CNT, 1, .ro, 0x0, false, 0, 4294967295⟩,
  ⟨OAS.LINE_WAIT_CNT, 1, .ro, 0x0, false, 0, 4294967295⟩,
  ⟨OAS.RAIL_LIMIT_CNT, 1, .ro, 0x0, false, 0, 4294967295⟩,
  ⟨OAS.SENSOR_FAULT_CNT, 1, .ro, 0x0, false, 0, 4294967295⟩,
  ⟨OAS.LINE_MW, 16, .rws, 0x0, false, 0, 65535⟩,
  ⟨OAS.LINE_BURST_MJ, 16, .rws, 0xBB8, false, 0, 65535⟩,
  ⟨OAS.LINE_RES_MJ, 16, .rws, 0x64, false, 0, 65535⟩,
  ⟨OAS.AMP_RTD, 16, .rws, 0x0, false, 0, 31⟩,
  ⟨OAS.AMP_RTD_EN, 16, .rws, 0x0, false, 0, 1⟩,
  ⟨OAS.AMP_T_DERATE, 16, .rws, 0x5A, false, 0, 255⟩,
  ⟨OAS.AMP_T_MAX, 16, .rws, 0x6E, false, 0, 255⟩,
  ⟨OAS.COST, 8, .ro, 0x0, false, 0, 65535⟩]

/-- Register table of page OAS. -/
def oasSpecs : List FldSpec := oasSpecsPart0 ++ oasSpecsPart1 ++ oasSpecsPart2

/-- Register table of page PWD0. -/
def pwd0Specs : List FldSpec := [
  ⟨PWD0.REQ, 152, .rws, 0x0, false, 0, 2⟩]

/-- Register table of page PWD1. -/
def pwd1Specs : List FldSpec := [
  ⟨PWD1.ON_COUNT, 1, .ro, 0x0, false, 0, 255⟩,
  ⟨PWD1.WAIT_COUNT, 1, .ro, 0x0, false, 0, 255⟩,
  ⟨PWD1.STATE, 152, .ro, 0x0, false, 0, 3⟩,
  ⟨PWD1.CAUSE, 152, .ro, 0x0, false, 0, 15⟩,
  ⟨PWD1.WAKE_CNT, 152, .ro, 0x0, false, 0, 65535⟩,
  ⟨PWD1.EV_DOMAIN_CHANGE, 1, .w1c, 0x0, false, 0, 1⟩,
  ⟨PWD1.WAKE_TOTAL, 1, .ro, 0x0, false, 0, 4294967295⟩,
  ⟨PWD1.URGENT_WAKE_CNT, 1, .ro, 0x0, false, 0, 4294967295⟩]

/-- Register table of page SNS. Part 0. -/
def snsSpecsPart0 : List FldSpec := [
  ⟨SNS.SEQ_EN, 8, .rws, 0x0, false, 0, 15⟩,
  ⟨SNS.OUTPUTS_PER_SLOT, 8, .rws, 0x1, true, 0, 255⟩,
  ⟨SNS.SETTLE, 8, .rws, 0x400, false, 0, 65535⟩,
  ⟨SNS.BLANK_EN, 2, .rws, 0x0, false, 0, 1⟩,
  ⟨SNS.POL, 2, .rws, 0x0, false, 0, 1⟩,
  ⟨SNS.MODE, 2, .rws, 0x0, false, 0, 1⟩,
  ⟨SNS.PRE_GUARD, 2, .rws, 0x0, false, 0, 255⟩,
  ⟨SNS.POST_GUARD, 2, .rws, 0x32, false, 0, 65535⟩,
  ⟨SNS.BLANK0_GROUPS, 1, .rws, 0x0, false, 0, 255⟩,
  ⟨SNS.BLANK1_GROUPS, 1, .rws, 0x0, false, 0, 255⟩,
  ⟨SNS.BLANK_MAX_MS, 1, .rws, 0x2710, true, 0, 65535⟩,
  ⟨SNS.CHECK_MS, 1, .rws, 0x2710, false, 0, 65535⟩,
  ⟨SNS.CHECK_NOW, 1, .wo, 0x0, false, 0, 4294967295⟩,
  ⟨SNS.SRC, 8, .rws, 0x0, false, 0, 31⟩,
  ⟨SNS.DET_KIND, 8, .rws, 0x0, false, 0, 3⟩,
  ⟨SNS.HOLDOFF_MS, 8, .rws, 0x3E8, false, 0, 65535⟩,
  ⟨SNS.THRESH_UV, 8, .rws, 0x0, false, 0, 2097151⟩,
  ⟨SNS.STATE, 32, .ro, 0x0, false, 0, 7⟩,
  ⟨SNS.REVERSED, 32, .ro, 0x0, false, 0, 1⟩,
  ⟨SNS.RANGE_NOW, 32, .ro, 0x0, false, 0, 7⟩,
  ⟨SNS.ACTIVE, 32, .ro, 0x0, false, 0, 1⟩,
  ⟨SNS.CHECK_MV, 32, .ro, 0x0, false, 0, 65535⟩,
  ⟨SNS.WIRE_FAULTS, 1, .ro, 0x0, false, 0, 4294967295⟩,
  ⟨SNS.BLANK_ACTIVE, 1, .ro, 0x0, false, 0, 3⟩]

/-- Register table of page SNS. Part 1. -/
def snsSpecsPart1 : List FldSpec := [
  ⟨SNS.BLANK_IGNORED, 1, .ro, 0x0, false, 0, 3⟩,
  ⟨SNS.EVT_TIME_LO, 1, .ro, 0x0, false, 0, 4294967295⟩,
  ⟨SNS.EVT_TIME_HI, 1, .ro, 0x0, false, 0, 4294967295⟩,
  ⟨SNS.EVT_LAST, 1, .ro, 0x0, false, 0, 7⟩,
  ⟨SNS.EV_OPEN, 1, .w1c, 0x0, false, 0, 1⟩,
  ⟨SNS.EV_SHORT, 1, .w1c, 0x0, false, 0, 1⟩,
  ⟨SNS.EV_REVERSED, 1, .w1c, 0x0, false, 0, 1⟩,
  ⟨SNS.EV_COMPLIANCE_SEEN, 1, .w1c, 0x0, false, 0, 1⟩,
  ⟨SNS.EV_GRID_EVENT, 1, .w1c, 0x0, false, 0, 255⟩,
  ⟨SNS.EV_BLANK_STUCK, 1, .w1c, 0x0, false, 0, 3⟩,
  ⟨SNS.EV_BLANK_EDGE, 1, .w1c, 0x0, false, 0, 3⟩,
  ⟨SNS.OPEN_CNT, 1, .ro, 0x0, false, 0, 4294967295⟩,
  ⟨SNS.SHORT_CNT, 1, .ro, 0x0, false, 0, 4294967295⟩,
  ⟨SNS.REVERSED_CNT, 1, .ro, 0x0, false, 0, 4294967295⟩,
  ⟨SNS.OVERRANGE_CNT, 1, .ro, 0x0, false, 0, 4294967295⟩,
  ⟨SNS.RANGE_CHANGE_CNT, 1, .ro, 0x0, false, 0, 4294967295⟩,
  ⟨SNS.BLANKED_CNT, 1, .ro, 0x0, false, 0, 4294967295⟩,
  ⟨SNS.BLANK_STUCK_CNT, 1, .ro, 0x0, false, 0, 4294967295⟩,
  ⟨SNS.GRID_EVENT_CNT, 1, .ro, 0x0, false, 0, 4294967295⟩,
  ⟨SNS.CHECK_CNT, 1, .ro, 0x0, false, 0, 4294967295⟩,
  ⟨SNS.KIND, 32, .rws, 0x0, false, 0, 4⟩,
  ⟨SNS.RANGE, 32, .rws, 0x0, false, 0, 7⟩,
  ⟨SNS.AUTORANGE, 32, .rws, 0x0, false, 0, 1⟩,
  ⟨SNS.RANGE_MIN, 32, .rws, 0x0, false, 0, 7⟩]

/-- Register table of page SNS. Part 2. -/
def snsSpecsPart2 : List FldSpec := [
  ⟨SNS.RANGE_MAX, 32, .rws, 0x7, false, 0, 7⟩,
  ⟨SNS.OPEN_CHECK, 32, .rws, 0x0, false, 0, 1⟩,
  ⟨SNS.REV_CHECK, 32, .rws, 0x0, false, 0, 1⟩,
  ⟨SNS.REF_INPUT, 32, .rws, 0x0, false, 0, 31⟩,
  ⟨SNS.SHORT_LIMIT, 32, .rws, 0x1F4, false, 0, 65535⟩,
  ⟨SNS.UP_HOLD_MS, 32, .rws, 0x64, true, 0, 65535⟩]

/-- Register table of page SNS. -/
def snsSpecs : List FldSpec := snsSpecsPart0 ++ snsSpecsPart1 ++ snsSpecsPart2

/-- Register table of page EXC. -/
def excSpecs : List FldSpec := [
  ⟨EXC.CODE, 4, .rws, 0x0, false, 0, 250⟩,
  ⟨EXC.INPUT, 4, .rws, 0x0, false, 0, 31⟩,
  ⟨EXC.FOLLOW, 4, .rws, 0x0, false, 0, 1⟩,
  ⟨EXC.AUTO_BLANK, 1, .rws, 0x0, false, 0, 1⟩,
  ⟨EXC.INPUT_NOW, 4, .ro, 0x0, false, 0, 31⟩,
  ⟨EXC.ON, 4, .ro, 0x0, false, 0, 1⟩,
  ⟨EXC.COMPLIANCE, 4, .ro, 0x0, false, 0, 1⟩,
  ⟨EXC.V_OUT_MV, 4, .ro, 0x0, false, 0, 65535⟩,
  ⟨EXC.EV_COMPLIANCE, 1, .w1c, 0x0, false, 0, 15⟩,
  ⟨EXC.EV_SWITCHED, 1, .w1c, 0x0, false, 0, 15⟩,
  ⟨EXC.SWITCH_CNT, 1, .ro, 0x0, false, 0, 4294967295⟩,
  ⟨EXC.COMPLIANCE_CNT, 1, .ro, 0x0, false, 0, 4294967295⟩,
  ⟨EXC.EXC_BLANK_CNT, 1, .ro, 0x0, false, 0, 4294967295⟩]

/-- Register table of page DEC. Part 0. -/
def decSpecsPart0 : List FldSpec := [
  ⟨DEC.EMIT_SETTLING, 1, .rws, 0x0, false, 0, 1⟩,
  ⟨DEC.DSYNC_EN, 1, .rws, 0x1, false, 0, 1⟩,
  ⟨DEC.CAP_EN, 1, .rws, 0x0, false, 0, 1⟩,
  ⟨DEC.CAP_MASK, 1, .rws, 0x0, false, 0, 4294967295⟩,
  ⟨DEC.SEIF_MASK, 1, .rws, 0x0, false, 0, 4294967295⟩,
  ⟨DEC.SEIF_CORE, 1, .rws, 0x0, false, 0, 31⟩,
  ⟨DEC.CMD_DSYNC, 1, .wo, 0x0, false, 0, 1⟩,
  ⟨DEC.CAP_FLUSH, 1, .wo, 0x0, false, 0, 1⟩,
  ⟨DEC.CAP_DATA, 1, .rc, 0x0, false, 0, 4294967295⟩,
  ⟨DEC.PIN_LEVEL, 1, .ro, 0x1, false, 0, 1⟩,
  ⟨DEC.PIN_HELD, 1, .ro, 0x0, false, 0, 1⟩,
  ⟨DEC.CAP_FILL, 1, .ro, 0x0, false, 0, 16777215⟩,
  ⟨DEC.DSYNC_TIME_LO, 1, .ro, 0x0, false, 0, 4294967295⟩,
  ⟨DEC.DSYNC_TIME_HI, 1, .ro, 0x0, false, 0, 4294967295⟩,
  ⟨DEC.EV_DSYNC, 1, .w1c, 0x0, false, 0, 1⟩,
  ⟨DEC.EV_DSYNC_HELD, 1, .w1c, 0x0, false, 0, 1⟩,
  ⟨DEC.EV_CAP_LOSS, 1, .w1c, 0x0, false, 0, 1⟩,
  ⟨DEC.EV_SEIF_LOSS, 1, .w1c, 0x0, false, 0, 1⟩,
  ⟨DEC.DSYNC_CNT, 1, .ro, 0x0, false, 0, 4294967295⟩,
  ⟨DEC.QLOSS_CNT, 1, .ro, 0x0, false, 0, 4294967295⟩,
  ⟨DEC.CAP_LOSS_CNT, 1, .ro, 0x0, false, 0, 4294967295⟩,
  ⟨DEC.SEIF_LOSS_CNT, 1, .ro, 0x0, false, 0, 4294967295⟩,
  ⟨DEC.CH_MODE, 32, .rws, 0x0, false, 0, 4⟩,
  ⟨DEC.CH_RATE, 32, .rws, 0x3, false, 0, 6⟩]

/-- Register table of page DEC. Part 1. -/
def decSpecsPart1 : List FldSpec := [
  ⟨DEC.LAST, 32, .ro, 0x0, false, 0, 4294967295⟩]

/-- Register table of page DEC. -/
def decSpecs : List FldSpec := decSpecsPart0 ++ decSpecsPart1

/-- Register table of page LOOP. Part 0. -/
def loopSpecsPart0 : List FldSpec := [
  ⟨LOOP.SRC, 2, .rws, 0x0, false, 0, 3⟩,
  ⟨LOOP.DEC_CH, 2, .rws, 0x0, false, 0, 31⟩,
  ⟨LOOP.FAIL_HIGH, 2, .rws, 0x0, false, 0, 1⟩,
  ⟨LOOP.FAULT_ON_FLAG, 2, .rws, 0x1, false, 0, 1⟩,
  ⟨LOOP.X_LO, 2, .rws, 0x0, false, 0, 4294967295⟩,
  ⟨LOOP.X_HI, 2, .rws, 0x0, false, 0, 4294967295⟩,
  ⟨LOOP.SRC_TIMEOUT_MS, 2, .rws, 0x64, false, 0, 65535⟩,
  ⟨LOOP.CLAMP_LO_UA, 2, .rws, 0xED8, false, 0, 65535⟩,
  ⟨LOOP.CLAMP_HI_UA, 2, .rws, 0x5014, false, 0, 65535⟩,
  ⟨LOOP.VMIN_MV, 2, .rws, 0x1770, true, 0, 65535⟩,
  ⟨LOOP.SHORT_MS, 2, .rws, 0x14, true, 0, 255⟩,
  ⟨LOOP.OPEN_MS, 2, .rws, 0x14, true, 0, 255⟩,
  ⟨LOOP.RSENSE_MOHM, 2, .rws, 0xC350, true, 0, 65535⟩,
  ⟨LOOP.HOST_VALUE, 2, .rw, 0x0, false, 0, 4294967295⟩,
  ⟨LOOP.SEIF_VALUE, 2, .rw, 0x0, false, 0, 4294967295⟩,
  ⟨LOOP.FORCE_FAULT, 1, .wo, 0x0, false, 0, 3⟩,
  ⟨LOOP.RELEASE, 1, .wo, 0x0, false, 0, 3⟩,
  ⟨LOOP.DRIVE, 2, .ro, 0x0, false, 0, 3⟩,
  ⟨LOOP.WIRE, 2, .ro, 0x0, false, 0, 3⟩,
  ⟨LOOP.CAUSE, 2, .ro, 0x0, false, 0, 3⟩,
  ⟨LOOP.I_CMD_UA, 2, .ro, 0x0, false, 0, 65535⟩,
  ⟨LOOP.I_RB_UA, 2, .ro, 0x0, false, 0, 65535⟩,
  ⟨LOOP.V_LOOP_MV, 2, .ro, 0x0, false, 0, 65535⟩,
  ⟨LOOP.X_NOW, 2, .ro, 0x0, false, 0, 4294967295⟩]

/-- Register table of page LOOP. Part 1. -/
def loopSpecsPart1 : List FldSpec := [
  ⟨LOOP.EV_OPEN, 1, .w1c, 0x0, false, 0, 3⟩,
  ⟨LOOP.EV_SHORT, 1, .w1c, 0x0, false, 0, 3⟩,
  ⟨LOOP.EV_FAULT_LEVEL, 1, .w1c, 0x0, false, 0, 3⟩,
  ⟨LOOP.OPEN_CNT, 1, .ro, 0x0, false, 0, 4294967295⟩,
  ⟨LOOP.SHORT_CNT, 1, .ro, 0x0, false, 0, 4294967295⟩,
  ⟨LOOP.FAULT_LEVEL_CNT, 1, .ro, 0x0, false, 0, 4294967295⟩]

/-- Register table of page LOOP. -/
def loopSpecs : List FldSpec := loopSpecsPart0 ++ loopSpecsPart1

/-- Register table of page SEIF. Part 0. -/
def seifSpecsPart0 : List FldSpec := [
  ⟨SEIF.START_PC, 1, .rws, 0x0, false, 0, 4095⟩,
  ⟨SEIF.VEC, 1, .rws, 0x0, false, 0, 4095⟩,
  ⟨SEIF.IRQ_EN, 1, .rws, 0x0, false, 0, 7⟩,
  ⟨SEIF.DIN_BASE, 1, .rws, 0x0, false, 0, 16383⟩,
  ⟨SEIF.DIN_LEN, 1, .rws, 0x0, false, 0, 32767⟩,
  ⟨SEIF.DIN_THRESH, 1, .rws, 0x1, true, 0, 16383⟩,
  ⟨SEIF.TIMER_US, 1, .rws, 0x0, false, 0, 65535⟩,
  ⟨SEIF.LOOP_WR, 1, .rws, 0x0, false, 0, 3⟩,
  ⟨SEIF.OP, 1, .wo, 0x0, false, 0, 7⟩,
  ⟨SEIF.MBOX_IN, 1, .rw, 0x0, false, 0, 4294967295⟩,
  ⟨SEIF.STATE, 1, .ro, 0x0, false, 0, 7⟩,
  ⟨SEIF.OWNER, 1, .ro, 0x0, false, 0, 3⟩,
  ⟨SEIF.CAUSE, 1, .ro, 0x0, false, 0, 3⟩,
  ⟨SEIF.PENDING_REASON, 1, .ro, 0x0, false, 0, 3⟩,
  ⟨SEIF.CLK_MHZ, 1, .ro, 0x0, false, 0, 1023⟩,
  ⟨SEIF.PC, 1, .ro, 0x0, false, 0, 4095⟩,
  ⟨SEIF.FAULT_PC, 1, .ro, 0x0, false, 0, 4095⟩,
  ⟨SEIF.ST_SNAP, 1, .ro, 0x0, false, 0, 4294967295⟩,
  ⟨SEIF.MBOX_OUT, 1, .ro, 0x0, false, 0, 4294967295⟩,
  ⟨SEIF.DIN_FILL, 1, .ro, 0x0, false, 0, 16383⟩,
  ⟨SEIF.IRQ_PEND, 1, .ro, 0x0, false, 0, 7⟩,
  ⟨SEIF.EV_HALTED, 1, .w1c, 0x0, false, 0, 1⟩,
  ⟨SEIF.EV_FAULT, 1, .w1c, 0x0, false, 0, 1⟩,
  ⟨SEIF.EV_MBOX_OUT, 1, .w1c, 0x0, false, 0, 1⟩]

/-- Register table of page SEIF. Part 1. -/
def seifSpecsPart1 : List FldSpec := [
  ⟨SEIF.EV_GRANT, 1, .w1c, 0x0, false, 0, 1⟩,
  ⟨SEIF.EV_GRANT_REFUSED, 1, .w1c, 0x0, false, 0, 1⟩,
  ⟨SEIF.EV_RELOAD, 1, .w1c, 0x0, false, 0, 1⟩,
  ⟨SEIF.EV_DIN_DROP, 1, .w1c, 0x0, false, 0, 1⟩,
  ⟨SEIF.CYCLE_CNT, 1, .ro, 0x0, false, 0, 4294967295⟩,
  ⟨SEIF.HOST_STALL_CNT, 1, .ro, 0x0, false, 0, 4294967295⟩,
  ⟨SEIF.WIN_REFUSED_CNT, 1, .ro, 0x0, false, 0, 4294967295⟩,
  ⟨SEIF.PORT_DENIED_CNT, 1, .ro, 0x0, false, 0, 4294967295⟩,
  ⟨SEIF.IRQ_CNT, 1, .ro, 0x0, false, 0, 4294967295⟩,
  ⟨SEIF.DIN_DROP_CNT, 1, .ro, 0x0, false, 0, 4294967295⟩,
  ⟨SEIF.FAULT_CNT, 1, .ro, 0x0, false, 0, 4294967295⟩]

/-- Register table of page SEIF. -/
def seifSpecs : List FldSpec := seifSpecsPart0 ++ seifSpecsPart1

/-- Register table of page CRC. -/
def crcSpecs : List FldSpec := [
  ⟨CRC.POLY, 1, .rws, 0x1EDC6F41, false, 0, 4294967295⟩,
  ⟨CRC.INIT, 1, .rws, 0xFFFFFFFF, false, 0, 4294967295⟩,
  ⟨CRC.XOROUT, 1, .rws, 0xFFFFFFFF, false, 0, 4294967295⟩,
  ⟨CRC.WIDTH_M1, 1, .rws, 0x1F, false, 2, 31⟩,
  ⟨CRC.REFLECT, 1, .rws, 0x1, false, 0, 1⟩,
  ⟨CRC.PRESET, 1, .wo, 0x0, false, 0, 7⟩,
  ⟨CRC.RESTART, 1, .wo, 0x0, false, 0, 1⟩,
  ⟨CRC.DATA8, 1, .wo, 0x0, false, 0, 255⟩,
  ⟨CRC.DATA16, 1, .wo, 0x0, false, 0, 65535⟩,
  ⟨CRC.DATA32, 1, .wo, 0x0, false, 0, 4294967295⟩,
  ⟨CRC.STATE, 1, .rw, 0xFFFFFFFF, false, 0, 4294967295⟩,
  ⟨CRC.RESULT, 1, .ro, 0x0, false, 0, 4294967295⟩,
  ⟨CRC.PRESET_NOW, 1, .ro, 0x3, false, 0, 7⟩,
  ⟨CRC.BYTE_CNT, 1, .ro, 0x0, false, 0, 4294967295⟩,
  ⟨CRC.RESTART_CNT, 1, .ro, 0x0, false, 0, 4294967295⟩]

/-- Register table of page UART. Part 0. -/
def uartSpecsPart0 : List FldSpec := [
  ⟨UART.DATA_BITS, 1, .rws, 0x0, false, 0, 1⟩,
  ⟨UART.PARITY, 1, .rws, 0x0, false, 0, 2⟩,
  ⟨UART.STOP, 1, .rws, 0x0, false, 0, 1⟩,
  ⟨UART.MODE, 1, .rws, 0x0, false, 0, 2⟩,
  ⟨UART.RX_EN, 1, .rws, 0x1, false, 0, 1⟩,
  ⟨UART.TX_EN, 1, .rws, 0x1, false, 0, 1⟩,
  ⟨UART.DIV_INT, 1, .rws, 0xF42, true, 0, 65535⟩,
  ⟨UART.DIV_FRAC, 1, .rws, 0x4, false, 0, 15⟩,
  ⟨UART.DE_EN, 1, .rws, 0x0, false, 0, 1⟩,
  ⟨UART.DE_POL, 1, .rws, 0x0, false, 0, 1⟩,
  ⟨UART.DE_LEAD, 1, .rws, 0x10, false, 0, 255⟩,
  ⟨UART.DE_LAG, 1, .rws, 0x8, false, 0, 255⟩,
  ⟨UART.RX_WHILE_TX, 1, .rws, 0x0, false, 0, 1⟩,
  ⟨UART.IDLE_GAP, 1, .rws, 0x7, false, 0, 255⟩,
  ⟨UART.TX_GAP, 1, .rws, 0x0, false, 0, 255⟩,
  ⟨UART.RX_THRESH, 1, .rws, 0x10, true, 0, 64⟩,
  ⟨UART.AB_CHAR, 1, .rws, 0x55, false, 0, 255⟩,
  ⟨UART.AB_STORE, 1, .rws, 0x0, false, 0, 1⟩,
  ⟨UART.AB_ON_ENABLE, 1, .rws, 0x0, false, 0, 1⟩,
  ⟨UART.STUCK_MS, 1, .rws, 0x7D0, false, 0, 65535⟩,
  ⟨UART.STUCK_ACTION, 1, .rws, 0x0, false, 0, 1⟩,
  ⟨UART.AB_ARM, 1, .wo, 0x0, false, 0, 1⟩,
  ⟨UART.AB_CANCEL, 1, .wo, 0x0, false, 0, 1⟩,
  ⟨UART.RX_RESUME, 1, .wo, 0x0, false, 0, 1⟩]

/-- Register table of page UART. Part 1. -/
def uartSpecsPart1 : List FldSpec := [
  ⟨UART.RX_FLUSH, 1, .wo, 0x0, false, 0, 1⟩,
  ⟨UART.TX_FLUSH, 1, .wo, 0x0, false, 0, 1⟩,
  ⟨UART.SEND_BREAK, 1, .wo, 0x0, false, 0, 1⟩,
  ⟨UART.TX_DATA, 1, .wo, 0x0, false, 0, 255⟩,
  ⟨UART.RX_DATA, 1, .rc, 0x0, false, 0, 4294967295⟩,
  ⟨UART.RX_FILL, 1, .ro, 0x0, false, 0, 127⟩,
  ⟨UART.TX_FILL, 1, .ro, 0x0, false, 0, 127⟩,
  ⟨UART.LINE, 1, .ro, 0x1, false, 0, 1⟩,
  ⟨UART.LINE_STUCK, 1, .ro, 0x0, false, 0, 1⟩,
  ⟨UART.RX_OFF, 1, .ro, 0x0, false, 0, 1⟩,
  ⟨UART.AB_STATE, 1, .ro, 0x0, false, 0, 3⟩,
  ⟨UART.DE, 1, .ro, 0x0, false, 0, 1⟩,
  ⟨UART.TX_BUSY, 1, .ro, 0x0, false, 0, 1⟩,
  ⟨UART.DIV_NOW, 1, .ro, 0x40F42, false, 0, 1048575⟩,
  ⟨UART.AB_BAUD, 1, .ro, 0x0, false, 0, 8388607⟩,
  ⟨UART.EV_RX_THRESH, 1, .w1c, 0x0, false, 0, 1⟩,
  ⟨UART.EV_IDLE, 1, .w1c, 0x0, false, 0, 1⟩,
  ⟨UART.EV_OVERRUN, 1, .w1c, 0x0, false, 0, 1⟩,
  ⟨UART.EV_FE, 1, .w1c, 0x0, false, 0, 1⟩,
  ⟨UART.EV_PE, 1, .w1c, 0x0, false, 0, 1⟩,
  ⟨UART.EV_BREAK, 1, .w1c, 0x0, false, 0, 1⟩,
  ⟨UART.EV_LINE_STUCK, 1, .w1c, 0x0, false, 0, 1⟩,
  ⟨UART.EV_AB_DONE, 1, .w1c, 0x0, false, 0, 1⟩,
  ⟨UART.EV_AB_FAIL, 1, .w1c, 0x0, false, 0, 1⟩]

/-- Register table of page UART. Part 2. -/
def uartSpecsPart2 : List FldSpec := [
  ⟨UART.EV_TX_EMPTY, 1, .w1c, 0x0, false, 0, 1⟩,
  ⟨UART.EV_TX_OVF, 1, .w1c, 0x0, false, 0, 1⟩,
  ⟨UART.EV_CFG_ABORT, 1, .w1c, 0x0, false, 0, 1⟩,
  ⟨UART.RX_CHAR_CNT, 1, .ro, 0x0, false, 0, 4294967295⟩,
  ⟨UART.TX_CHAR_CNT, 1, .ro, 0x0, false, 0, 4294967295⟩,
  ⟨UART.OVERRUN_CNT, 1, .ro, 0x0, false, 0, 4294967295⟩,
  ⟨UART.FE_CNT, 1, .ro, 0x0, false, 0, 4294967295⟩,
  ⟨UART.PE_CNT, 1, .ro, 0x0, false, 0, 4294967295⟩,
  ⟨UART.BREAK_CNT, 1, .ro, 0x0, false, 0, 4294967295⟩,
  ⟨UART.FALSE_START_CNT, 1, .ro, 0x0, false, 0, 4294967295⟩,
  ⟨UART.TX_OVF_CNT, 1, .ro, 0x0, false, 0, 4294967295⟩,
  ⟨UART.STUCK_CNT, 1, .ro, 0x0, false, 0, 4294967295⟩,
  ⟨UART.AB_FAIL_CNT, 1, .ro, 0x0, false, 0, 4294967295⟩,
  ⟨UART.CFG_ABORT_CNT, 1, .ro, 0x0, false, 0, 4294967295⟩]

/-- Register table of page UART. -/
def uartSpecs : List FldSpec := uartSpecsPart0 ++ uartSpecsPart1 ++ uartSpecsPart2

/-- Register table of page CAV. Part 0. -/
def cavSpecsPart0 : List FldSpec := [
  ⟨CAV.MODE, 1, .rws, 0x0, false, 0, 2⟩,
  ⟨CAV.RING_SIZE_M1, 1, .rws, 0x1, false, 1, 7⟩,
  ⟨CAV.FWD_ROUTE, 1, .rws, 0x1, false, 0, 1⟩,
  ⟨CAV.FEEDER_ID, 4, .rws, 0x0, false, 0, 4294967295⟩,
  ⟨CAV.ORPHAN_US, 1, .rws, 0xBB8, true, 1500, 20000⟩,
  ⟨CAV.TRAIN_MS, 1, .rws, 0x64, true, 0, 65535⟩,
  ⟨CAV.CV_LIMIT, 1, .rws, 0x10, true, 0, 65535⟩,
  ⟨CAV.ZONE_ID, 1, .rws, 0x0, false, 0, 16777215⟩,
  ⟨CAV.RETRAIN, 1, .wo, 0x0, false, 0, 1⟩,
  ⟨CAV.ROLE, 1, .ro, 0x0, false, 0, 1⟩,
  ⟨CAV.POSITION, 1, .ro, 0x0, false, 0, 7⟩,
  ⟨CAV.STATE, 1, .ro, 0x0, false, 0, 7⟩,
  ⟨CAV.RING, 1, .ro, 0x0, false, 0, 1⟩,
  ⟨CAV.MEMBERS, 1, .ro, 0x0, false, 0, 255⟩,
  ⟨CAV.FAULT, 1, .ro, 0x0, false, 0, 15⟩,
  ⟨CAV.IN_LANES, 1, .ro, 0x0, false, 0, 31⟩,
  ⟨CAV.OUT_LANES, 1, .ro, 0x0, false, 0, 31⟩,
  ⟨CAV.HOP_NS, 1, .ro, 0x0, false, 0, 4294967295⟩,
  ⟨CAV.TIME_ERR, 1, .ro, 0x0, false, 0, 65535⟩,
  ⟨CAV.SLEW_PPM, 1, .ro, 0x0, false, 0, 65535⟩,
  ⟨CAV.TOKENS_HELD, 1, .ro, 0x0, false, 0, 255⟩,
  ⟨CAV.CLAIM_MAX_US, 1, .ro, 0x0, false, 0, 65535⟩,
  ⟨CAV.LINK_NS, 1, .ro, 0x0, false, 0, 4294967295⟩,
  ⟨CAV.EV_CONNECTED, 1, .w1c, 0x0, false, 0, 1⟩]

/-- Register table of page CAV. Part 1. -/
def cavSpecsPart1 : List FldSpec := [
  ⟨CAV.EV_ORPHAN, 1, .w1c, 0x0, false, 0, 1⟩,
  ⟨CAV.EV_REJOIN, 1, .w1c, 0x0, false, 0, 1⟩,
  ⟨CAV.EV_LINK_DOWN, 1, .w1c, 0x0, false, 0, 1⟩,
  ⟨CAV.EV_POL_FIX, 1, .w1c, 0x0, false, 0, 1⟩,
  ⟨CAV.EV_TIME_STEP, 1, .w1c, 0x0, false, 0, 1⟩,
  ⟨CAV.EV_RING_OPEN, 1, .w1c, 0x0, false, 0, 1⟩,
  ⟨CAV.EV_JOIN_REFUSED, 1, .w1c, 0x0, false, 0, 1⟩,
  ⟨CAV.EV_PREEMPT, 1, .w1c, 0x0, false, 0, 1⟩,
  ⟨CAV.CV_CNT, 1, .ro, 0x0, false, 0, 4294967295⟩,
  ⟨CAV.RESEND_CNT, 1, .ro, 0x0, false, 0, 4294967295⟩,
  ⟨CAV.LINK_DOWN_CNT, 1, .ro, 0x0, false, 0, 4294967295⟩,
  ⟨CAV.ORPHAN_CNT, 1, .ro, 0x0, false, 0, 4294967295⟩,
  ⟨CAV.CLAIM_CNT, 1, .ro, 0x0, false, 0, 4294967295⟩,
  ⟨CAV.CLAIM_FAIL_CNT, 1, .ro, 0x0, false, 0, 4294967295⟩,
  ⟨CAV.PREEMPT_CNT, 1, .ro, 0x0, false, 0, 4294967295⟩,
  ⟨CAV.MERGE_CNT, 1, .ro, 0x0, false, 0, 4294967295⟩,
  ⟨CAV.FOREIGN_CNT, 1, .ro, 0x0, false, 0, 4294967295⟩,
  ⟨CAV.FWD_FRAME_CNT, 8, .ro, 0x0, false, 0, 4294967295⟩]

/-- Register table of page CAV. -/
def cavSpecs : List FldSpec := cavSpecsPart0 ++ cavSpecsPart1

/-- Register table of page CLK. -/
def clkSpecs : List FldSpec := [
  ⟨CLK.FAILOVER_EN, 1, .rws, 0x1, false, 0, 1⟩,
  ⟨CLK.MON_PPM, 1, .rws, 0x32, true, 0, 255⟩,
  ⟨CLK.SAMPLE_RETURN, 1, .wo, 0x0, false, 0, 1⟩,
  ⟨CLK.SAMPLE_SRC, 1, .ro, 0x0, false, 0, 3⟩,
  ⟨CLK.SCLK_OK, 1, .ro, 0x0, false, 0, 1⟩,
  ⟨CLK.SYS_LOCK, 1, .ro, 0x0, false, 0, 1⟩,
  ⟨CLK.SPR_LOCK, 1, .ro, 0x0, false, 0, 1⟩,
  ⟨CLK.SAMPLE_LOCK, 1, .ro, 0x0, false, 0, 1⟩,
  ⟨CLK.DRAM01_LOCK, 1, .ro, 0x0, false, 0, 1⟩,
  ⟨CLK.DRAM23_LOCK, 1, .ro, 0x0, false, 0, 1⟩,
  ⟨CLK.AON_OK, 1, .ro, 0x0, false, 0, 1⟩,
  ⟨CLK.SCLK_PPM, 1, .ro, 0x0, false, 0, 65535⟩,
  ⟨CLK.EV_SAMPLE_FAIL, 1, .w1c, 0x0, false, 0, 1⟩,
  ⟨CLK.EV_FAILOVER, 1, .w1c, 0x0, false, 0, 1⟩,
  ⟨CLK.EV_RETURN_DONE, 1, .w1c, 0x0, false, 0, 1⟩,
  ⟨CLK.EV_PLL_UNLOCK, 1, .w1c, 0x0, false, 0, 1⟩,
  ⟨CLK.EV_AON_FAIL, 1, .w1c, 0x0, false, 0, 1⟩,
  ⟨CLK.SAMPLE_FAIL_CNT, 1, .ro, 0x0, false, 0, 4294967295⟩,
  ⟨CLK.PLL_UNLOCK_CNT, 1, .ro, 0x0, false, 0, 4294967295⟩]

/-- Register table of page RST. -/
def rstSpecs : List FldSpec := [
  ⟨RST.WDT_MS, 1, .rws, 0x0, false, 0, 65535⟩,
  ⟨RST.WDT_ACTION, 1, .rws, 0x0, false, 0, 2⟩,
  ⟨RST.WDT_KICK, 1, .wo, 0x0, false, 0, 65535⟩,
  ⟨RST.RESET_CMD, 1, .wo, 0x0, false, 0, 65535⟩,
  ⟨RST.HOST_SEL, 1, .ro, 0x0, false, 0, 1⟩,
  ⟨RST.CAV_ROOT, 1, .ro, 0x0, false, 0, 1⟩,
  ⟨RST.BOOT_SEL, 1, .ro, 0x0, false, 0, 3⟩,
  ⟨RST.LAST_CAUSE, 1, .ro, 0x0, false, 0, 7⟩,
  ⟨RST.BOOT_STAGE, 1, .ro, 0x0, false, 0, 255⟩,
  ⟨RST.WDT_LEFT_MS, 1, .ro, 0x0, false, 0, 65535⟩,
  ⟨RST.EV_WDT_EXPIRED, 1, .w1c, 0x0, false, 0, 1⟩,
  ⟨RST.PIN_CNT, 1, .ro, 0x0, false, 0, 4294967295⟩,
  ⟨RST.WARM_CNT, 1, .ro, 0x0, false, 0, 4294967295⟩,
  ⟨RST.WDT_CNT, 1, .ro, 0x0, false, 0, 4294967295⟩,
  ⟨RST.WDT_BAD_KICK_CNT, 1, .ro, 0x0, false, 0, 4294967295⟩]

/-- Register table of pages DRC1 to DRC3. -/
def drcSpecs : List FldSpec := [
  ⟨DRC.STATE, 1, .ro, 0x0, false, 0, 3⟩,
  ⟨DRC.POP_MISMATCH, 1, .ro, 0x0, false, 0, 1⟩,
  ⟨DRC.DENSITY_GB, 1, .ro, 0x0, false, 0, 255⟩,
  ⟨DRC.DATA_RATE, 1, .ro, 0x0, false, 0, 1⟩,
  ⟨DRC.TEMP_RANGE, 1, .ro, 0x0, false, 0, 7⟩,
  ⟨DRC.CE_ADDR_LO, 1, .ro, 0x0, false, 0, 4294967295⟩,
  ⟨DRC.CE_ADDR_HI, 1, .ro, 0x0, false, 0, 4294967295⟩,
  ⟨DRC.UE_ADDR_LO, 1, .ro, 0x0, false, 0, 4294967295⟩,
  ⟨DRC.UE_ADDR_HI, 1, .ro, 0x0, false, 0, 4294967295⟩,
  ⟨DRC.EV_CE, 1, .w1c, 0x0, false, 0, 1⟩,
  ⟨DRC.EV_UE, 1, .w1c, 0x0, false, 0, 1⟩,
  ⟨DRC.EV_CE_ALERT, 1, .w1c, 0x0, false, 0, 1⟩,
  ⟨DRC.EV_DRAM_HOT, 1, .w1c, 0x0, false, 0, 1⟩,
  ⟨DRC.EV_TRAIN_FAIL, 1, .w1c, 0x0, false, 0, 1⟩,
  ⟨DRC.CE_CNT, 1, .ro, 0x0, false, 0, 4294967295⟩,
  ⟨DRC.UE_CNT, 1, .ro, 0x0, false, 0, 4294967295⟩]

/-- Register table of page DRC0, which alone holds the global fields and the region table. Part 0. -/
def drc0SpecsPart0 : List FldSpec := [
  ⟨DRC.SCRUB_EN, 1, .rws, 0x1, false, 0, 1⟩,
  ⟨DRC.SCRUB_H, 1, .rws, 0x18, true, 0, 255⟩,
  ⟨DRC.CE_ALERT, 1, .rws, 0x64, false, 0, 65535⟩,
  ⟨DRC.STATE, 1, .ro, 0x0, false, 0, 3⟩,
  ⟨DRC.POP_MISMATCH, 1, .ro, 0x0, false, 0, 1⟩,
  ⟨DRC.DENSITY_GB, 1, .ro, 0x0, false, 0, 255⟩,
  ⟨DRC.DATA_RATE, 1, .ro, 0x0, false, 0, 1⟩,
  ⟨DRC.TEMP_RANGE, 1, .ro, 0x0, false, 0, 7⟩,
  ⟨DRC.CE_ADDR_LO, 1, .ro, 0x0, false, 0, 4294967295⟩,
  ⟨DRC.CE_ADDR_HI, 1, .ro, 0x0, false, 0, 4294967295⟩,
  ⟨DRC.UE_ADDR_LO, 1, .ro, 0x0, false, 0, 4294967295⟩,
  ⟨DRC.UE_ADDR_HI, 1, .ro, 0x0, false, 0, 4294967295⟩,
  ⟨DRC.CAPACITY_MIB, 1, .ro, 0x0, false, 0, 262143⟩,
  ⟨DRC.CHANNELS_ACTIVE, 1, .ro, 0x0, false, 0, 15⟩,
  ⟨DRC.DEGRADED, 1, .ro, 0x0, false, 0, 1⟩,
  ⟨DRC.EV_CE, 1, .w1c, 0x0, false, 0, 1⟩,
  ⟨DRC.EV_UE, 1, .w1c, 0x0, false, 0, 1⟩,
  ⟨DRC.EV_CE_ALERT, 1, .w1c, 0x0, false, 0, 1⟩,
  ⟨DRC.EV_DRAM_HOT, 1, .w1c, 0x0, false, 0, 1⟩,
  ⟨DRC.EV_TRAIN_FAIL, 1, .w1c, 0x0, false, 0, 1⟩,
  ⟨DRC.CE_CNT, 1, .ro, 0x0, false, 0, 4294967295⟩,
  ⟨DRC.UE_CNT, 1, .ro, 0x0, false, 0, 4294967295⟩,
  ⟨DRC.SCRUB_PASS_CNT, 1, .ro, 0x0, false, 0, 4294967295⟩,
  ⟨DRC.KIND, 32, .rws, 0x0, false, 0, 15⟩]

/-- Register table of page DRC0, which alone holds the global fields and the region table. Part 1. -/
def drc0SpecsPart1 : List FldSpec := [
  ⟨DRC.EN, 32, .rws, 0x0, false, 0, 1⟩,
  ⟨DRC.ECC, 32, .rws, 0x0, false, 0, 1⟩,
  ⟨DRC.HOST_WR, 32, .rws, 0x0, false, 0, 1⟩,
  ⟨DRC.BASE, 32, .rws, 0x0, false, 0, 2097151⟩,
  ⟨DRC.SIZE, 32, .rws, 0x0, false, 0, 2097151⟩]

/-- Register table of page DRC0, which alone holds the global fields and the region table. -/
def drc0Specs : List FldSpec := drc0SpecsPart0 ++ drc0SpecsPart1

/-- Register table of page SEC. Part 0. -/
def secSpecsPart0 : List FldSpec := [
  ⟨SEC.RESTART_MAX, 1, .rws, 0x3, false, 0, 15⟩,
  ⟨SEC.DS_WAKE_S, 1, .rws, 0x0, false, 0, 16777215⟩,
  ⟨SEC.OP, 1, .wo, 0x0, false, 0, 15⟩,
  ⟨SEC.KEY, 1, .wo, 0x0, false, 0, 65535⟩,
  ⟨SEC.NONCE, 8, .wo, 0x0, false, 0, 4294967295⟩,
  ⟨SEC.TOKEN, 1, .wo, 0x0, false, 0, 4294967295⟩,
  ⟨SEC.ATT_DATA, 1, .rc, 0x0, false, 0, 4294967295⟩,
  ⟨SEC.FLASH_ADDR, 1, .rw, 0x0, false, 0, 67108863⟩,
  ⟨SEC.FLASH_DATA, 1, .rw, 0x0, false, 0, 4294967295⟩,
  ⟨SEC.FW_SLOT, 1, .ro, 0x3, false, 0, 3⟩,
  ⟨SEC.BOOT_ERR_A, 1, .ro, 0x0, false, 0, 15⟩,
  ⟨SEC.BOOT_ERR_B, 1, .ro, 0x0, false, 0, 15⟩,
  ⟨SEC.BOOT_ERR_HOST, 1, .ro, 0x0, false, 0, 15⟩,
  ⟨SEC.DEBUG_LEVEL, 1, .ro, 0x0, false, 0, 3⟩,
  ⟨SEC.UNLOCKED, 1, .ro, 0x0, false, 0, 1⟩,
  ⟨SEC.BUSY, 1, .ro, 0x0, false, 0, 1⟩,
  ⟨SEC.ROLLBACK, 1, .ro, 0x0, false, 0, 4294967295⟩,
  ⟨SEC.FW_SVN, 1, .ro, 0x0, false, 0, 4294967295⟩,
  ⟨SEC.FW_MEAS, 12, .ro, 0x0, false, 0, 4294967295⟩,
  ⟨SEC.ID_PUB, 12, .ro, 0x0, false, 0, 4294967295⟩,
  ⟨SEC.CHALLENGE, 8, .ro, 0x0, false, 0, 4294967295⟩,
  ⟨SEC.ATT_FILL, 1, .ro, 0x0, false, 0, 16383⟩,
  ⟨SEC.EV_BOOT_FAIL, 1, .w1c, 0x0, false, 0, 1⟩,
  ⟨SEC.EV_FW_STARTED, 1, .w1c, 0x0, false, 0, 1⟩]

/-- Register table of page SEC. Part 1. -/
def secSpecsPart1 : List FldSpec := [
  ⟨SEC.EV_RESTART, 1, .w1c, 0x0, false, 0, 1⟩,
  ⟨SEC.EV_ADVANCED, 1, .w1c, 0x0, false, 0, 1⟩,
  ⟨SEC.EV_ATT_DONE, 1, .w1c, 0x0, false, 0, 1⟩,
  ⟨SEC.EV_UNLOCK_OK, 1, .w1c, 0x0, false, 0, 1⟩,
  ⟨SEC.EV_UNLOCK_FAIL, 1, .w1c, 0x0, false, 0, 1⟩,
  ⟨SEC.EV_FLASH_DONE, 1, .w1c, 0x0, false, 0, 1⟩,
  ⟨SEC.EV_RATE_FALLBACK, 1, .w1c, 0x0, false, 0, 1⟩,
  ⟨SEC.BOOT_FAIL_CNT, 1, .ro, 0x0, false, 0, 4294967295⟩,
  ⟨SEC.RESTART_CNT, 1, .ro, 0x0, false, 0, 4294967295⟩,
  ⟨SEC.ATT_CNT, 1, .ro, 0x0, false, 0, 4294967295⟩,
  ⟨SEC.UNLOCK_FAIL_CNT, 1, .ro, 0x0, false, 0, 4294967295⟩]

/-- Register table of page SEC. -/
def secSpecs : List FldSpec := secSpecsPart0 ++ secSpecsPart1

/-- Register table of page KEY. -/
def keySpecs : List FldSpec := [
  ⟨KEY.SLOT, 1, .rw, 0x0, false, 0, 4095⟩,
  ⟨KEY.ADDR, 1, .rw, 0x1, false, 0, 4095⟩,
  ⟨KEY.KEY, 4, .wo, 0x0, false, 0, 4294967295⟩,
  ⟨KEY.OP, 1, .wo, 0x0, false, 0, 3⟩,
  ⟨KEY.BOUND, 1, .ro, 0x0, false, 0, 1⟩,
  ⟨KEY.BOUND_ADDR, 1, .ro, 0x0, false, 0, 4095⟩,
  ⟨KEY.TX_CTR, 1, .ro, 0x0, false, 0, 4294967295⟩,
  ⟨KEY.CTR_HI, 1, .ro, 0x0, false, 0, 4294967295⟩,
  ⟨KEY.FLOOR, 1, .ro, 0x0, false, 0, 4294967295⟩,
  ⟨KEY.BOUND_COUNT, 1, .ro, 0x0, false, 0, 4095⟩,
  ⟨KEY.EV_REFUSED, 1, .w1c, 0x0, false, 0, 1⟩,
  ⟨KEY.WRITE_CNT, 1, .ro, 0x0, false, 0, 4294967295⟩,
  ⟨KEY.CLEAR_CNT, 1, .ro, 0x0, false, 0, 4294967295⟩,
  ⟨KEY.REFUSED_CNT, 1, .ro, 0x0, false, 0, 4294967295⟩]

/-- Register table of page MRM. -/
def mrmSpecs : List FldSpec := [
  ⟨MRM.ADDR, 1, .rw, 0x0, false, 0, 262143⟩,
  ⟨MRM.INC, 1, .rw, 0x1, false, 0, 1⟩,
  ⟨MRM.DATA, 1, .rw, 0x0, false, 0, 4294967295⟩,
  ⟨MRM.JOURNAL_HEAD, 1, .ro, 0x0, false, 0, 262143⟩,
  ⟨MRM.LIVE, 1, .ro, 0x0, false, 0, 8191⟩,
  ⟨MRM.JOURNAL_PASSES, 1, .ro, 0x0, false, 0, 4294967295⟩,
  ⟨MRM.EV_CE, 1, .w1c, 0x0, false, 0, 1⟩,
  ⟨MRM.EV_UE, 1, .w1c, 0x0, false, 0, 1⟩,
  ⟨MRM.EV_JOURNAL_UE, 1, .w1c, 0x0, false, 0, 1⟩,
  ⟨MRM.CE_CNT, 1, .ro, 0x0, false, 0, 4294967295⟩,
  ⟨MRM.UE_CNT, 1, .ro, 0x0, false, 0, 4294967295⟩,
  ⟨MRM.HOST_WR_CNT, 1, .ro, 0x0, false, 0, 4294967295⟩]

/-- The register table of a kind of page. -/
def specs : PageKind → List FldSpec
  | .glb => glbSpecs
  | .hif => hifSpecs
  | .clk => clkSpecs
  | .rst => rstSpecs
  | .oas => oasSpecs
  | .pwd0 => pwd0Specs
  | .pwd1 => pwd1Specs
  | .mtb => mtbSpecs
  | .lpt => lptSpecs
  | .erg => ergSpecs
  | .ergx => ergxSpecs
  | .trl => trlSpecs
  | .nmap => nmapSpecs
  | .txs => txsSpecs
  | .mac => macSpecs
  | .flt => fltSpecs
  | .dwl => dwlSpecs
  | .mir => mirSpecs
  | .wad => wadSpecs
  | .wqd => wqdSpecs
  | .lnk => lnkSpecs
  | .sns => snsSpecs
  | .exc => excSpecs
  | .dec => decSpecs
  | .loop => loopSpecs
  | .crc => crcSpecs
  | .uart => uartSpecs
  | .cav => cavSpecs
  | .sec => secSpecs
  | .key => keySpecs
  | .mrm => mrmSpecs
  | .drc0 => drc0Specs
  | .drc => drcSpecs
  | .drw => drwSpecs
  | .seif => seifSpecs

/-- Page numbers of the page index. -/
def Pg.GLB : Nat := 0x000
def Pg.HIF : Nat := 0x001
def Pg.CLK : Nat := 0x002
def Pg.RST : Nat := 0x003
def Pg.OAS : Nat := 0x004
def Pg.PWD0 : Nat := 0x005
def Pg.PWD1 : Nat := 0x006
def Pg.MTB : Nat := 0x008
def Pg.LPT (p : Nat) : Nat := 0x010 + p
def Pg.ERG (q : Nat) : Nat := 0x040 + q
def Pg.ERGX : Nat := 0x080
def Pg.TRL : Nat := 0x081
def Pg.NMAP : Nat := 0x084
def Pg.TXS (p : Nat) : Nat := 0x088 + p
def Pg.MAC : Nat := 0x098
def Pg.FLT : Nat := 0x099
def Pg.DWL : Nat := 0x09A
def Pg.MIR : Nat := 0x0A0
def Pg.WAD : Nat := 0x0A8
def Pg.WQD : Nat := 0x0A9
def Pg.LNK : Nat := 0x0B0
def Pg.SNS : Nat := 0x0C0
def Pg.EXC : Nat := 0x0C1
def Pg.DEC : Nat := 0x0C2
def Pg.LOOP : Nat := 0x0C3
def Pg.CRC (n : Nat) : Nat := 0x0D0 + n
def Pg.UART (n : Nat) : Nat := 0x0D8 + n
def Pg.CAV : Nat := 0x0E0
def Pg.SEC : Nat := 0x0E8
def Pg.KEY : Nat := 0x0E9
def Pg.MRM : Nat := 0x0EA
def Pg.DRC (n : Nat) : Nat := 0x0F0 + n
def Pg.DRW : Nat := 0x0F4
def Pg.SEIF (k : Nat) : Nat := 0x100 + k

/-- The page index: the kind, kind code and number within its kind of page `p`, none where the index lists no page
(02_host_interface_and_pages.md, page index and R41). -/
def pageIndex (p : Nat) : Option (PageKind × Nat × Nat) :=
  if p = 0x000 then some (.glb, 0x01, 0)
  else if p = 0x001 then some (.hif, 0x02, 0)
  else if p = 0x002 then some (.clk, 0x03, 0)
  else if p = 0x003 then some (.rst, 0x04, 0)
  else if p = 0x004 then some (.oas, 0x05, 0)
  else if p = 0x005 then some (.pwd0, 0x06, 0)
  else if p = 0x006 then some (.pwd1, 0x06, 1)
  else if p = 0x008 then some (.mtb, 0x08, 0)
  else if 0x010 ≤ p ∧ p ≤ 0x01F then some (.lpt, 0x10, p - 0x010)
  else if 0x040 ≤ p ∧ p ≤ 0x07F then some (.erg, 0x40, p - 0x040)
  else if p = 0x080 then some (.ergx, 0x41, 0)
  else if p = 0x081 then some (.trl, 0x42, 0)
  else if p = 0x084 then some (.nmap, 0x43, 0)
  else if 0x088 ≤ p ∧ p ≤ 0x097 then some (.txs, 0x48, p - 0x088)
  else if p = 0x098 then some (.mac, 0x50, 0)
  else if p = 0x099 then some (.flt, 0x51, 0)
  else if p = 0x09A then some (.dwl, 0x52, 0)
  else if p = 0x0A0 then some (.mir, 0x58, 0)
  else if p = 0x0A8 then some (.wad, 0x60, 0)
  else if p = 0x0A9 then some (.wqd, 0x61, 0)
  else if p = 0x0B0 then some (.lnk, 0x68, 0)
  else if p = 0x0C0 then some (.sns, 0x70, 0)
  else if p = 0x0C1 then some (.exc, 0x71, 0)
  else if p = 0x0C2 then some (.dec, 0x72, 0)
  else if p = 0x0C3 then some (.loop, 0x73, 0)
  else if 0x0D0 ≤ p ∧ p ≤ 0x0D3 then some (.crc, 0x78, p - 0x0D0)
  else if 0x0D8 ≤ p ∧ p ≤ 0x0DB then some (.uart, 0x79, p - 0x0D8)
  else if p = 0x0E0 then some (.cav, 0x80, 0)
  else if p = 0x0E8 then some (.sec, 0x88, 0)
  else if p = 0x0E9 then some (.key, 0x89, 0)
  else if p = 0x0EA then some (.mrm, 0x8A, 0)
  else if p = 0x0F0 then some (.drc0, 0x90, 0)
  else if 0x0F1 ≤ p ∧ p ≤ 0x0F3 then some (.drc, 0x90, p - 0x0F0)
  else if p = 0x0F4 then some (.drw, 0x91, 0)
  else if 0x100 ≤ p ∧ p ≤ 0x11F then some (.seif, 0xA0, p - 0x100)
  else none

end Sys2Proof.Machine
end

