-- ==== Sys2Proof/Machine/Tab.lean ====
section
/-! DEFINITION. Sparse tables in one canonical form: a list of (key, value) pairs whose keys rise strictly and that
lists no key at the value an unlisted key reads as. Every register file, unit table and memory of the model is one. -/
namespace Sys2Proof.Machine

/-- A sparse table. -/
abbrev Tab (α : Type) := List (Nat × α)

variable {α : Type}

/-- The entry listed under key `k`. -/
def Tab.find? : Tab α → Nat → Option α
  | [], _ => none
  | (j, v) :: t, k => if j = k then some v else Tab.find? t k

/-- What key `k` reads as, where an unlisted key `k` reads as `d k`. -/
def Tab.get (d : Nat → α) (t : Tab α) (k : Nat) : α := (Tab.find? t k).getD (d k)

/-- Removes the entry of key `k`. -/
def Tab.erase (t : Tab α) (k : Nat) : Tab α := t.filter fun e => decide (e.1 ≠ k)

/-- Lists value `v` under key `k`, keeping the keys rising. -/
def Tab.put : Tab α → Nat → α → Tab α
  | [], k, v => [(k, v)]
  | (j, u) :: t, k, v =>
    if j = k then (k, v) :: t else if k < j then (k, v) :: (j, u) :: t else (j, u) :: Tab.put t k v

/-- Writes `v` under key `k`: writing what an unlisted key reads as removes the entry. -/
def Tab.set [DecidableEq α] (d : Nat → α) (t : Tab α) (k : Nat) (v : α) : Tab α :=
  if v = d k then Tab.erase t k else Tab.put t k v

/-- Removes every entry whose key satisfies `p`. -/
def Tab.drop (p : Nat → Bool) (t : Tab α) : Tab α := t.filter fun e => !p e.1

/-- All keys of the table exceed `b`, and they rise strictly. -/
def Tab.rising : Nat → Tab α → Bool
  | _, [] => true
  | b, (j, _) :: t => decide (b ≤ j) && Tab.rising (j + 1) t

/-- The canonical form: keys rise strictly and no entry equals what the unlisted key reads as. -/
def Tab.wf [DecidableEq α] (d : Nat → α) (t : Tab α) : Bool :=
  Tab.rising 0 t && t.all fun e => decide (e.2 ≠ d e.1)

end Sys2Proof.Machine
end

