-- ==== Sys2Proof/Machine/Waveform.lean ====
section
/-! DEFINITION. The Slafer air format (05_slafer_waveform.md): channel bands, check values, scrambling, coding,
interleaving, the PHY header, the MAC frame and its fields, acknowledgements, lengths and airtime. All of it is pure
arithmetic on lists of bits and bytes. -/
namespace Sys2Proof.Machine

/-- Bit `i` of a number. -/
def bitOf (n i : Nat) : Nat := (n >>> i) &&& 1

/-- The low `n` bits of a number, bit 0 first (R5). -/
def bitsLsb : Nat → Nat → List Nat
  | 0, _ => []
  | n + 1, v => (v % 2) :: bitsLsb n (v / 2)

/-- The low `n` bits of a number, highest first. -/
def bitsMsb (n v : Nat) : List Nat := (bitsLsb n v).reverse

/-- The number whose bits, bit 0 first, are the list. -/
def ofBitsLsb : List Nat → Nat
  | [] => 0
  | b :: t => b + 2 * ofBitsLsb t

/-- The little-endian number of a list of bytes (R5). -/
def leNat : List Byte → Nat
  | [] => 0
  | b :: t => b.toNat + 256 * leNat t

/-- The `n` little-endian bytes of a number (R5). -/
def leBytes : Nat → Nat → List Byte
  | 0, _ => []
  | n + 1, v => BitVec.ofNat 8 v :: leBytes n (v / 256)

/-- The bits of a list of bytes, each byte least significant bit first (R5). -/
def byteBits (bs : List Byte) : List Nat := bs.flatMap fun b => bitsLsb 8 b.toNat

/-! ## Check values (R123) -/

/-- One bit into a shift register that shifts toward its top bit. -/
def crcStepMsb (w poly s b : Nat) : Nat :=
  let t := (s <<< 1) &&& (2 ^ w - 1)
  if bitOf s (w - 1) = b then t else t ^^^ poly

/-- One bit into a shift register that shifts toward bit 0; `rpoly` is the reversed polynomial. -/
def crcStepLsb (rpoly s b : Nat) : Nat :=
  if bitOf s 0 = b then s >>> 1 else (s >>> 1) ^^^ rpoly

/-- The low `w` bits of `v` in reversed order. -/
def revBits (w v : Nat) : Nat := ofBitsLsb (bitsMsb w v)

/-- One byte into a CRC register of width `w`: reflected registers take bit 0 first, the others bit 7 first. -/
def crcByte (w poly : Nat) (reflect : Bool) (s : Nat) (b : Byte) : Nat :=
  if reflect then (bitsLsb 8 b.toNat).foldl (crcStepLsb (revBits w poly)) s
  else (bitsMsb 8 b.toNat).foldl (crcStepMsb w poly) s

/-- A list of bytes into a CRC register. -/
def crcBytes (w poly : Nat) (reflect : Bool) (s : Nat) (bs : List Byte) : Nat :=
  bs.foldl (crcByte w poly reflect) s

/-- CRC-8 of the PHY header (R115): polynomial 0x07, init 0, not reflected, no final XOR. -/
def crc8 (bs : List Byte) : Nat := crcBytes 8 0x07 false 0 bs

/-- CRC-16 of the acknowledgement body (R125): polynomial 0x1021, init 0xFFFF, not reflected, no final XOR. -/
def crc16 (bs : List Byte) : Nat := crcBytes 16 0x1021 false 0xFFFF bs

/-- CRC-32C, the FCS (R123): polynomial 0x1EDC_6F41, reflected, init and final XOR 0xFFFF_FFFF. -/
def crc32c (bs : List Byte) : Nat := crcBytes 32 0x1EDC6F41 true 0xFFFFFFFF bs ^^^ 0xFFFFFFFF

/-! ## Channels (R97) -/

/-- Symbol rate in baud of a RATE code. -/
def baud (rate : Nat) : Nat := 4000 * 2 ^ rate

/-- ADC ticks per symbol of a RATE code. -/
def symTicks (rate : Nat) : Nat := 512 / 2 ^ rate

/-- Channel width in units of 250 Hz of a RATE code: 5, 10, 20 or 40 kHz. -/
def widthUnits (rate : Nat) : Nat := 20 * 2 ^ rate

/-- R97: the whole band, centre ± width/2, lies within 3 to 490 kHz; the centre is in 250 Hz units. -/
def bandOk (centre rate : Nat) : Bool :=
  decide (12 + widthUnits rate / 2 ≤ centre) && decide (centre + widthUnits rate / 2 ≤ 1960)

/-- Two bands share more than an edge (R90, R109, R155). -/
def bandsOverlap (c1 r1 c2 r2 : Nat) : Bool :=
  decide (c1 < c2 + widthUnits r2 / 2 + widthUnits r1 / 2) && decide (c2 < c1 + widthUnits r1 / 2 + widthUnits r2 / 2)

/-- A band overlaps the guard zone of a transmit channel (R90): the zone is the channel's band widened by twice its
width on each side. -/
def inGuardZone (centre rate txCentre txRate : Nat) : Bool :=
  let half := widthUnits txRate / 2 + 2 * widthUnits txRate + widthUnits rate / 2
  decide (centre < txCentre + half) && decide (txCentre < centre + half)

/-! ## Sync words (R106 to R109) -/

/-- The acknowledgement sync word S_ack. -/
def syncAck (s : Nat) : Nat := s ^^^ 0xFFFF0000

/-- The cut pattern S_cut. -/
def syncCut (s : Nat) : Nat := s ^^^ 0xFFFFFFFF

/-- How many of the low 32 bits of two words differ. -/
def hamming32 (a b : Nat) : Nat := (bitsLsb 32 (a ^^^ b)).foldl (· + ·) 0

/-- The window w_k(W) that a receiver sees k symbols before W is complete (R108): k ones, then bits 0 to 31 − k of W. -/
def preWindow (w k : Nat) : Nat := ((w <<< k) &&& 0xFFFFFFFF) ||| (2 ^ k - 1)

/-- R108: S and S_ack lie at least t + 5 bits from every window of S and of S_ack. -/
def syncWordOk (s tol : Nat) : Bool :=
  (List.range 32).all fun i =>
    [s, syncAck s].all fun w => [s, syncAck s].all fun v => decide (tol + 5 ≤ hamming32 v (preWindow w (i + 1)))

/-- R109: every word of the first triple lies at least 2 × t + 2 bits from every word of the second. -/
def syncPairOk (s1 s2 tol : Nat) : Bool :=
  [s1, syncAck s1, syncCut s1].all fun a =>
    [s2, syncAck s2, syncCut s2].all fun b => decide (2 * tol + 2 ≤ hamming32 a b)

/-! ## Data-field coding (R110 to R114) -/

/-- The scrambler of R110 over a bit stream: register `s`, feedback s[6] xor s[3]. -/
def scrambleFrom : Nat → List Nat → List Nat
  | _, [] => []
  | s, b :: t =>
    let f := bitOf s 6 ^^^ bitOf s 3
    (b ^^^ f) :: scrambleFrom (((s <<< 1) ||| f) &&& 0x7F) t

/-- R110: each copy's data field starts the scrambler at 0b111_1111. -/
def scramble (bits : List Nat) : List Nat := scrambleFrom 0x7F bits

/-- The convolutional encoder of R111: `h` holds the six earlier inputs, bit 0 the latest; outputs A (0o133) then B
(0o171) per input. -/
def convFrom : Nat → List Nat → List (Nat × Nat)
  | _, [] => []
  | h, x :: t =>
    let a := x ^^^ bitOf h 1 ^^^ bitOf h 2 ^^^ bitOf h 4 ^^^ bitOf h 5
    let b := x ^^^ bitOf h 0 ^^^ bitOf h 1 ^^^ bitOf h 2 ^^^ bitOf h 5
    (a, b) :: convFrom (((h <<< 1) ||| x) &&& 0x3F) t

/-- Puncturing of R112: `i` counts input bits within the period of the code rate. -/
def punctureFrom (code : Nat) : Nat → List (Nat × Nat) → List Nat
  | _, [] => []
  | i, (a, b) :: t =>
    let out := match code, i % 6 with
      | 0, _ => [a, b]
      | 1, k => if k % 2 = 0 then [a, b] else [a]
      | _, k => if k % 3 = 0 then [a, b] else if k % 3 = 1 then [a] else [b]
    out ++ punctureFrom code (i + 1) t

/-- Tail length T of R112 for N data bytes. -/
def tailLen (code n : Nat) : Nat := if code = 2 then 6 + n % 3 else 6

/-- Coded bits C of R112 for M input bits. -/
def codedLen (code m : Nat) : Nat := if code = 0 then 2 * m else if code = 1 then 3 * m / 2 else 4 * m / 3

/-- Interleaver columns K of R113 for C coded bits; D8PSK pads to whole symbols. -/
def columns (mod c : Nat) : Nat := if mod = 2 then 3 * ((c + 47) / 48) else (c + 15) / 16

/-- The block interleaver of R113: 16 rows and K columns; the bit leaving at row r, column c is input bit 16c + r. -/
def interleave (k : Nat) (bits : List Nat) : List Nat :=
  (List.range 16).flatMap fun r => (List.range k).map fun c => bits.getD (16 * c + r) 0

/-- Bits per symbol b of a MOD code (R101). -/
def bitsPerSymbol (mod : Nat) : Nat := mod + 1

/-- Coded and interleaved bits of a data field (R110 to R113). -/
def codeDataField (mod code : Nat) (bytes : List Byte) : List Nat :=
  let m := scramble (byteBits bytes) ++ List.replicate (tailLen code bytes.length) 0
  let c := punctureFrom code 0 (convFrom 0 m)
  interleave (columns mod c.length) c

/-- S_data of R113: symbols of a data field of N bytes. -/
def dataSymbols (mod code n : Nat) : Nat :=
  16 * columns mod (codedLen code (8 * n + tailLen code n)) / bitsPerSymbol mod

/-- A short field at rate 1/2 with a 6-bit tail, unscrambled, padded and interleaved with K columns (R115, R124). -/
def codeShort (k : Nat) (bits : List Nat) : List Nat :=
  interleave k (punctureFrom 0 0 (convFrom 0 (bits ++ List.replicate 6 0)))

/-- Symbol repetition ×4 (R114). -/
def repeat4 (bits : List Nat) : List Nat := bits.flatMap fun b => [b, b, b, b]

/-- Phase increment of a label, in eighths of a turn (R101); the label's first stream bit is its highest bit. -/
def phaseStep (mod label : Nat) : Nat :=
  match mod with
  | 0 => 4 * label
  | 1 => [0, 2, 6, 4].getD label 0
  | _ => [0, 1, 3, 2, 7, 6, 4, 5].getD label 0

/-- The labels of a bit stream, b bits per symbol, first bit highest. -/
def labels (b : Nat) (fuel : Nat) (bits : List Nat) : List Nat :=
  match fuel with
  | 0 => []
  | n + 1 => if bits = [] then [] else ofBitsLsb (bits.take b).reverse :: labels b n (bits.drop b)

/-- The phase increments of a bit stream. -/
def phaseSteps (mod : Nat) (bits : List Nat) : List Nat :=
  (labels (bitsPerSymbol mod) bits.length bits).map (phaseStep mod)

/-! ## PHY header (R115 to R117) -/

/-- The fields of a PHY header. -/
structure PhyHeader where
  rate : Nat
  mod : Nat
  code : Nat
  rep : Nat
  length : Nat
  repeatIdx : Nat
  repeatCntM1 : Nat
deriving DecidableEq, Repr

/-- The 24 header bits of R115. -/
def PhyHeader.bits24 (h : PhyHeader) : Nat :=
  h.rate % 4 + 4 * (h.mod % 4) + 16 * (h.code % 4) + 64 * (h.rep % 4) + 256 * (h.length % 256)
    + 65536 * (h.repeatIdx % 8) + 524288 * (h.repeatCntM1 % 8)

/-- The 32-bit header word of R115, with HCRC in bits 31:24. -/
def PhyHeader.word (h : PhyHeader) : Nat := h.bits24 + 2 ^ 24 * crc8 (leBytes 3 h.bits24)

/-- The header fields of a 32-bit word. -/
def PhyHeader.ofWord (w : Nat) : PhyHeader :=
  ⟨w % 4, w / 4 % 4, w / 16 % 4, w / 64 % 4, w / 256 % 256, w / 65536 % 8, w / 524288 % 8⟩

/-- REPEAT_CNT_M1 that goes with a REP value (R116). -/
def repCntM1 (rep : Nat) : Nat := if rep = 0 then 0 else if rep = 1 then 3 else 7

/-- R116: a decided header word is valid at a receiver of symbol rate `rate`. -/
def phyHeaderOk (rate w : Nat) : Bool :=
  let h := PhyHeader.ofWord w
  decide (crc8 (leBytes 3 w) = w / 2 ^ 24 % 256) && decide (h.mod ≠ 3) && decide (h.code ≠ 3)
    && decide (h.length ≠ 0) && decide (h.rate = rate) && decide (h.repeatCntM1 = repCntM1 h.rep)
    && decide (h.repeatIdx ≤ h.repeatCntM1)

/-- Copies n of a run with the given REP (R117). -/
def runCopies (rep : Nat) : Nat := if rep = 0 then 1 else if rep = 1 then 4 else 16

/-- Copy index k that a header states (R117). -/
def PhyHeader.copyIndex (h : PhyHeader) : Nat := if h.rep = 3 then 8 + h.repeatIdx else h.repeatIdx

/-- The header of copy `k` of a run of `n` copies (R117). -/
def copyHeader (rate mod code length n k : Nat) : PhyHeader :=
  let rep := if n = 1 then 0 else if n = 4 then 1 else if k < 8 then 2 else 3
  ⟨rate, mod, code, rep, length, if n = 16 then k % 8 else k, repCntM1 rep⟩

/-- Symbols of a PHY header on the air: 80 coded bits sent ×4 (R115). -/
def headerSymbols : Nat := 320

/-! ## MAC frame (R119 to R123) -/

/-- The fields of the 56-bit MAC header (R119). -/
structure MacHeader where
  ftype : Nat
  cls : Nat
  ackReq : Bool
  sec : Bool
  dst : Nat
  src : Nat
  seq : Nat
  hops : Nat
  pendingBit : Bool
  dup : Bool
  more : Bool
deriving DecidableEq, Repr

/-- A MAC header with every field 0. -/
def MacHeader.zero : MacHeader := ⟨0, 0, false, false, 0, 0, 0, 0, false, false, false⟩

/-- The 56-bit value of a MAC header (R119). -/
def MacHeader.toNat (h : MacHeader) : Nat :=
  h.ftype % 16 + 16 * (h.cls % 4) + 64 * h.ackReq.toNat + 128 * h.sec.toNat + 2 ^ 8 * (h.dst % 4096)
    + 2 ^ 20 * (h.src % 4096) + 2 ^ 32 * (h.seq % 4096) + 2 ^ 44 * (h.hops % 8) + 2 ^ 47 * h.pendingBit.toNat
    + 2 ^ 48 * h.dup.toNat + 2 ^ 49 * h.more.toNat

/-- The MAC header of a 56-bit value (R119). -/
def MacHeader.ofNat (v : Nat) : MacHeader :=
  ⟨v % 16, v / 16 % 4, decide (v / 64 % 2 = 1), decide (v / 128 % 2 = 1), v / 2 ^ 8 % 4096, v / 2 ^ 20 % 4096,
   v / 2 ^ 32 % 4096, v / 2 ^ 44 % 8, decide (v / 2 ^ 47 % 2 = 1), decide (v / 2 ^ 48 % 2 = 1),
   decide (v / 2 ^ 49 % 2 = 1)⟩

/-- Route-list bytes for a HOPS value (R121). -/
def routeBytes (hops : Nat) : Nat := (12 * hops + 7) / 8

/-- The route list as bytes: entry i in bits 12i to 12i + 11 (R121). -/
def encodeRoute (hops : List Nat) : List Byte :=
  leBytes (routeBytes hops.length) (hops.foldr (fun h acc => h % 4096 + 4096 * acc) 0)

/-- The route entries of a list of bytes (R121). -/
def decodeRoute (n : Nat) (bs : List Byte) : List Nat :=
  (List.range n).map fun i => leNat bs / 4096 ^ i % 4096

/-- Payload length of R122: LENGTH − 11 − 12 × SEC − R, none where negative. -/
def payloadLen (len : Nat) (sec : Bool) (hops : Nat) : Option Nat :=
  let fixed := 11 + (if sec then 12 else 0) + routeBytes hops
  if fixed ≤ len then some (len - fixed) else none

/-- R123: the last four bytes are the CRC-32C of the bytes before them. -/
def fcsOk (field : List Byte) : Bool :=
  decide (4 ≤ field.length) && decide (crc32c (field.take (field.length - 4)) = leNat (field.drop (field.length - 4)))

/-- A field with its FCS appended (R123). -/
def withFcs (body : List Byte) : List Byte := body ++ leBytes 4 (crc32c body)

/-- The MAC header of a data field. -/
def fieldHeader (field : List Byte) : MacHeader := MacHeader.ofNat (leNat (field.take 7))

/-- R122, FORMAT_INVALID: the conditions judged on a field that passes its FCS. -/
def formatOk (field : List Byte) : Bool :=
  let h := fieldHeader field
  match payloadLen field.length h.sec h.hops with
  | none => false
  | some n => decide (n ≤ 232) && decide (h.hops ≤ 4) && decide (h.src ≠ 0xFFF) && decide (h.ftype ≠ 1)

/-- The frame counter of a secured field (R120): the four bytes after the MAC header. -/
def fieldCounter (field : List Byte) : Nat := leNat ((field.drop 7).take 4)

/-- The route entries of a field. -/
def fieldRoute (field : List Byte) : List Nat :=
  let h := fieldHeader field
  decodeRoute h.hops ((field.drop (if h.sec then 11 else 7)).take (routeBytes h.hops))

/-- The payload bytes of a field as they stand on the line. -/
def fieldPayload (field : List Byte) : List Byte :=
  let h := fieldHeader field
  (field.drop ((if h.sec then 11 else 7) + routeBytes h.hops)).take ((payloadLen field.length h.sec h.hops).getD 0)

/-- The MIC bytes of a secured field. -/
def fieldMic (field : List Byte) : List Byte := (field.drop (field.length - 12)).take 8

/-! ## Acknowledgement (R124, R125) -/

/-- The fields of an acknowledgement body (R125). -/
structure AckBody where
  pendingBit : Bool
  dup : Bool
  seq : Nat
  dst : Nat
  lqi : Nat
deriving DecidableEq, Repr

/-- The seven bytes of an acknowledgement body, CRC-16 included (R125). -/
def AckBody.bytes (a : AckBody) : List Byte :=
  let five := leBytes 1 (1 + 16 * a.pendingBit.toNat + 32 * a.dup.toNat)
    ++ leBytes 3 (a.seq % 4096 + 4096 * (a.dst % 4096)) ++ leBytes 1 a.lqi
  five ++ leBytes 2 (crc16 five)

/-- The body of seven bytes; none where the CRC-16 fails (R125). -/
def AckBody.ofBytes (bs : List Byte) : Option AckBody :=
  if bs.length = 7 ∧ crc16 (bs.take 5) = leNat (bs.drop 5) then
    let b := leNat (bs.take 1)
    let v := leNat ((bs.drop 1).take 3)
    some ⟨decide (b / 16 % 2 = 1), decide (b / 32 % 2 = 1), v % 4096, v / 4096, leNat ((bs.drop 4).take 1)⟩
  else none

/-- LQI of R125 from an SNR in quarter dB: ⌊4 × (SNR + 10)⌋ limited to 0 to 255. -/
def lqiOf (snrQuarterDb : Int) : Nat := Nat.min (snrQuarterDb + 40).toNat 255

/-- Symbols of an acknowledgement: 192 to a single copy, 576 to a robust run (R124). -/
def ackSymbols (robust : Bool) : Nat := if robust then 576 else 192

/-! ## Symbols and airtime (R98, R124, R126, R128) -/

/-- Symbols of a frame copy: P + 32 + 320 + S_data (R98, R128). -/
def copySymbols (preamble mod code len : Nat) : Nat := preamble + 32 + headerSymbols + dataSymbols mod code len

/-- The phase increments of a frame copy: preamble of ones, S bit 0 first, header ×4, data field (R98, R101, R105). -/
def copyPhases (preamble sync : Nat) (h : PhyHeader) (field : List Byte) : List Nat :=
  List.replicate preamble 4 ++ phaseSteps 0 (bitsLsb 32 sync)
    ++ phaseSteps 0 (repeat4 (codeShort 5 (bitsLsb 32 h.word)))
    ++ phaseSteps h.mod (codeDataField h.mod h.code field)

/-- The phase increments of an acknowledgement (R124). -/
def ackPhases (sync : Nat) (robust : Bool) (a : AckBody) : List Nat :=
  let body := codeShort 8 (byteBits a.bytes)
  List.replicate 32 4 ++ phaseSteps 0 (bitsLsb 32 (syncAck sync))
    ++ phaseSteps 0 (if robust then repeat4 body else body)

/-- The phase increments of the cut pattern (R126). -/
def cutPhases (sync : Nat) : List Nat := phaseSteps 0 (bitsLsb 32 (syncCut sync))

/-- Airtime in ticks of a copy of `n` symbols at a RATE code (R128). -/
def airTicks (rate n : Nat) : Nat := n * symTicks rate

end Sys2Proof.Machine
end

