-- ==== Sys2Proof/Machine/State.lean ====
section
/-! DEFINITION. The state of the YG256 as plain data: the register files of all pages (active values, shadow values,
counter snapshots), the memories, what each block keeps beside its registers, and the queue of waiting commands. -/
namespace Sys2Proof.Machine

/-- Why a command stops with a fault. -/
inductive Fault where
  /-- Raised by `Sys2Proof.Machine.wellFormedOr` for a command whose operands break the relation its row asks for (a
  data word list longer than the burst, a sensor list of the wrong length). Safe: the hardware cannot receive it. -/
  | badOperands
deriving DecidableEq, Repr

/-- Why a command is refused. -/
inductive Refusal where
  /-- Raised by a dispatch arm of a command that has no meaning yet. Safe: nothing is claimed of it. -/
  | notModelled (mnemonic : String)
deriving DecidableEq, Repr

/-! ## Host interface -/

/-- An open push of a queue window (R52). -/
structure OpenPush where
  /-- PUSH_HDR0 to PUSH_HDR3. -/
  hdr : List Word
  /-- The payload words appended so far, oldest first; at most 16,384. -/
  words : List Word
  /-- A word beyond 16,384 was written. -/
  tooLong : Bool
deriving DecidableEq, Repr

/-- A record of a delivery ring (R271): its eight header words, its payload, and when it was written. -/
structure Rec where
  hdr : List Word
  payload : List Byte
  at_ : Nat
deriving DecidableEq, Repr

/-- A queue window QWn (R52 to R55). -/
structure Window where
  /-- BIND.VALID and BIND.QUEUE. -/
  bindValid : Bool
  bindQueue : Nat
  /-- LAST_RESULT. -/
  lastResult : Word
  /-- The push in progress. -/
  push : Option OpenPush
  /-- The record open for popping, with the number of payload words read since it was opened or rewound. -/
  pop : Option (Rec × Nat)
deriving DecidableEq, Repr

/-- A queue window after reset. -/
def Window.idle : Window := ⟨false, 0, 0, none, none⟩

/-- The host interface beside its registers. -/
structure HostSt where
  /-- What the last host read returned (registers, window words). -/
  rdata : Word
  /-- The bytes that the last SPI command drove on its data lines, oldest first. -/
  spiOut : List Byte
  /-- SPI write buffer (R34): words received and not yet performed, with their addresses, oldest first. -/
  spiBuf : List (Nat × Word)
  /-- SPI status flags WR_OVF, RD_TIMEOUT, FRAME_ERR, CMD_ERR (R36). -/
  wrOvf : Bool
  rdTimeout : Bool
  frameErr : Bool
  cmdErr : Bool
  /-- A read command is in progress: it has neither ended with CS_N nor found no data (R33). -/
  spiReading : Bool
  /-- The endpoint is in D3hot (R28). -/
  d3hot : Bool
  /-- Memory requests completed with Unsupported Request status (R26). -/
  urCount : Nat
  /-- The per-vector mask bits of the MSI capability (R61). -/
  msiMask : Nat
  /-- MSI messages sent, as MSI data values, oldest first (R60). -/
  msiSent : List Nat
  /-- Interrupt sources that were active at the end of the last command: bits 0 to 63 rings, bit 64 + g group g. -/
  active : Nat
  /-- FAULT_SUMMARY at the end of the last command (R63). -/
  faults : Nat
  /-- The windows QW0 to QW63. -/
  win : Tab Window
  /-- DRW prefetch (R58): address of its first word and the words held. -/
  preAddr : Nat
  preWords : List Word
deriving DecidableEq, Repr

/-! ## Mains timebase -/

/-- What the timebase keeps of one source (R69). -/
structure MtbSrc where
  /-- The last crossing of the source, none before its reference crossing. -/
  last : Option Nat
  /-- The period of its last judged crossing, in ticks. -/
  period : Nat
  /-- Of a sense source: stamp and value of its last output, and the crossing that its outputs have shown and that is still to be
  judged (R67). -/
  prev : Option (Nat × Int)
  due : Option Nat
deriving DecidableEq, Repr

/-- A source with no crossing yet. -/
def MtbSrc.idle : MtbSrc := ⟨none, 0, none, none⟩

/-- The result of one source in the open cycle: source, error in counts, period in ticks, validity. -/
structure MtbHit where
  src : Nat
  err : Int
  period : Nat
  valid : Bool
deriving DecidableEq, Repr

/-- What an MZC pin filter holds (R68). -/
structure MzcPin where
  /-- The filtered level. -/
  level : Bool
  /-- The raw level and the tick at which it was taken. -/
  raw : Bool
  since : Nat
deriving DecidableEq, Repr

/-- An MZC pin after reset. -/
def MzcPin.idle : MzcPin := ⟨false, false, 0⟩

/-- The mains timebase beside its registers. The phase clock is exact: `phi` counts 1/2,048,000 of a phase count, so
that one tick adds the clock's frequency in 1/65,536 Hz. -/
structure MtbSt where
  phi : Nat
  /-- The tick at which `phi` was taken. -/
  anchor : Nat
  /-- Slew in units of `phi` per tick, and the tick at which it ends (R71). -/
  slew : Int
  slewEnd : Nat
  /-- The phase is held still until this tick (R71). -/
  holdEnd : Nat
  /-- What the slew of a relock still has to remove after its present cycle, in counts (R71). -/
  left : Int
  src : Tab MtbSrc
  /-- Results of the open cycle. -/
  cyc : List MtbHit
  /-- Successive cycles within LOCK_THRESH, and successive invalid crossings. -/
  okRun : Nat
  badRun : Nat
  /-- Tick of the first valid crossing of the present acquisition, and cycles closed since. -/
  firstValid : Option Nat
  cyclesSince : Nat
  /-- Tick of the last valid crossing. -/
  lastValid : Nat
  /-- Error of the last valid crossing in HOLDOVER. -/
  holdErr : Option Int
  /-- Tick of entry to HOLDOVER. -/
  holdStart : Nat
  /-- Periods of the last valid cycles, newest first, at most 8. -/
  periods : List Nat
  /-- The bin of the last phase-bin boundary, and its tick. -/
  lastBin : Nat
  boundary : Nat
  /-- Indexes of the last general and class-0 access points taken. -/
  accIdx : Nat
  c0Idx : Nat
  /-- The access phases in effect, and the index of the half-cycle at whose start they were last looked at (R75). -/
  accEff : Nat
  c0Eff : Nat
  halfIdx : Nat
  /-- When ENABLE last started the phase clock, and the cycle count that it had held until then. -/
  onSince : Nat
  onCycle : Nat
  mzc : Tab MzcPin
deriving DecidableEq, Repr

/-! ## Line ports -/

/-- What a line port keeps beside its registers (R81 to R95). -/
structure LptSt where
  /-- Tick since which LPn_ENA is high. -/
  enaSince : Nat
  /-- LPn_FLT_N is low, and since when. -/
  fltLow : Bool
  fltSince : Nat
  /-- Last tick with a sample above UP_THRESH, or of the last gain rise (R84). -/
  loudAt : Nat
  /-- An overload step holds the gain below what the mode asks for (R84). -/
  ovl : Bool
  /-- Tick of the last planned gain step, and the gain before it (R85). -/
  stepAt : Nat
  stepFrom : Nat
  /-- A check is in progress, since when, and it measures the polarity. -/
  checking : Bool
  checkAt : Nat
  polar : Bool
  /-- The pilot of the check is still to end, its lead began at a tick; it has ended with a result. -/
  pilot : Bool
  pilotAt : Nat
  piloted : Bool
  /-- The check in state CHECK has found OC_STRIKES overcurrents (R93). -/
  ocFound : Bool
  /-- Start of the last periodic check, or entry to SERVICE, for CHECK_MS. -/
  lastCheck : Nat
  /-- The retry in FAULT falls due at this tick (R94). -/
  retryDue : Nat
  /-- Ticks of the overcurrents in OC_WINDOW_MS, newest first (R88). -/
  strikes : List Nat
  /-- ECHO_RESET waits for the end of the transmission in progress (R89). -/
  echoReset : Bool
  /-- Spans of samples that carry the erasure mark of R83, from the first tick up to, not including, the second. -/
  marks : List (Nat × Nat)
  /-- The first sample after the latest overload. -/
  ovlAt : Nat
deriving DecidableEq, Repr

/-- A line port after reset. -/
def LptSt.idle : LptSt :=
  { enaSince := 0, fltLow := false, fltSince := 0, loudAt := 0, ovl := false, stepAt := 0, stepFrom := 0, checking := false
    checkAt := 0, polar := false, pilot := false, pilotAt := 0, piloted := false, ocFound := false, lastCheck := 0, retryDue := 0, strikes := []
    echoReset := false, marks := [], ovlAt := 0 }

/-! ## Transmit lanes -/

/-- What a lane carries (R153). -/
inductive LaneKind where
  | data | class0 | ack | wake | schedule
deriving DecidableEq, Repr

/-- Where the transmission of a lane stands: start scheduled, on the line, cut and sending its end (R167), or between
two copies of its run. -/
inductive LanePhase where
  | scheduled | onLine | ending | between
deriving DecidableEq, Repr

/-- One transmission on a lane, with the settings latched at its t0 (R159). -/
structure Lane where
  kind : LaneKind
  phase : LanePhase
  /-- Queue and tag of the message carried. -/
  queue : Nat
  tag : Nat
  cls : Nat
  /-- Transmit channel definition; 16 for an acknowledgement on an engine's channel. -/
  ch : Nat
  centre : Nat
  rate : Nat
  preamble : Nat
  level : Nat
  sync : Nat
  mod : Nat
  code : Nat
  /-- Copies of the run, the index of the present copy, and the phase of copy 0 (R76). -/
  copies : Nat
  copy : Nat
  p0 : Nat
  /-- The instant the start was scheduled for before stagger, t0, and the end of the last symbol. -/
  due : Nat
  t0 : Nat
  tEnd : Nat
  ackReq : Bool
  /-- The data field, FCS included. -/
  field : List Byte
  /-- The acknowledgement body. -/
  ack : Option AckBody
  /-- The answered frame was a robust run (R124). -/
  robust : Bool
  /-- Energy estimate of the transmission in µJ (R172, R288). -/
  energy : Nat
  /-- Chosen as a victim of a class-0 start (R166), and the instant at or after which its first symbol boundary cuts it. -/
  victim : Bool
  cutFrom : Nat
  /-- The transmission occupies its lane: from t0 of its first copy, or of its train's first wake frame, on (R153). -/
  held : Bool
  /-- Phase increments of the symbols on the line, in eighths of a turn, first symbol first (R98, R101). -/
  phases : List Nat
deriving DecidableEq, Repr

/-- On-time recorded for the dwell limits (R217): port, channel (16: none), start, end, and whether it is a class-0
frame or an acknowledgement. -/
structure OnTime where
  port : Nat
  ch : Nat
  start : Nat
  stop : Nat
  c0 : Bool
  isAck : Bool
deriving DecidableEq, Repr

/-- A transmit mark (R90): the port, the channel's centre and rate, the first DAC sample, and the instant at which it ends,
once the transmission's last DAC sample is known. -/
structure TxMark where
  port : Nat
  lane : Nat
  centre : Nat
  rate : Nat
  start : Nat
  stop : Option Nat
deriving DecidableEq, Repr

/-- A start placed under R165: port, instant, class-0 start, fixed-time start. -/
structure Placed where
  port : Nat
  at_ : Nat
  c0 : Bool
  fixed : Bool
deriving DecidableEq, Repr

/-- What a transmission has put on the line, for the DAC samples of the last windows: its channel, level and symbols, its t0, its
end, and whether it was ramped to zero there rather than fallen (R100, R169). -/
structure Wave where
  port : Nat
  centre : Nat
  rate : Nat
  level : Nat
  phases : List Nat
  t0 : Nat
  stop : Nat
  ramped : Bool
deriving DecidableEq, Repr

/-- Transmit synthesis beside its registers. -/
structure TxsSt where
  /-- Lane l of port p under key 16p + l; an unlisted lane is free. -/
  lanes : Tab (Option Lane)
  /-- The class-0 frame of port p that waits for its staggered t0 (R165): until then lane 15 may still carry an acknowledgement
  (R169). -/
  c0Next : Tab (Option Lane)
  /-- The last class-0 half-cycle in which the port started a class-0 transmission (R203), plus one. -/
  c0Half : Tab Nat
  /-- Starts already placed or fixed, for the stagger of R165. -/
  placed : List Placed
  /-- Recorded on-times of the last 3,600 s (R221), newest first. -/
  hist : List OnTime
  /-- EST_K of R172 in 1/1,048,576 mW, under the port; unlisted ports stand at 4,000 mW. -/
  estK : Tab Nat
  /-- Transmit marks of R90 that last, and the channel each belongs to; those that have ended within the last 64 s. -/
  marks : List TxMark
  past : List TxMark
  /-- Transmissions that have ended within the last 4 ms. -/
  waves : List Wave
  /-- Predistortion (R164): the taps that link firmware has committed and that wait for their safe point, the taps in use before the
  last change, and the instant of that change. -/
  linkTaps : Tab (List Nat)
  oldTaps : Tab (List Nat)
  tapsAt : Tab Nat
  /-- When the last transmission that took a duty window of port p beyond its limit ends (R219). -/
  overTill : Tab Nat
  /-- Ports whose alarm channel matches no LIVE ALARM engine (R156). -/
  unmatched : List Nat
deriving DecidableEq, Repr

/-! ## Wadi -/

/-- A message of a transmit queue. -/
structure Msg where
  tag : Nat
  /-- Header words HDR0 to HDR3 (R256, R257). -/
  hdr : List Word
  payload : List Byte
  /-- FTYPE of the frame. -/
  ftype : Nat
  /-- Order and instant of acceptance. -/
  ord : Nat
  accepted : Nat
  /-- Deadline tick of a class-1 message. -/
  deadline : Option Nat
  attempts : Nat
  firstT0 : Option Nat
  inFlight : Bool
  onLine : Bool
  /-- DELAY_REASON (R262) and since when it shows. -/
  delay : Nat
  delayAt : Nat
  /-- Ticks shown as BUDGET so far (R263). -/
  budgetTicks : Nat
  /-- CANCEL or CLOSE came while on the line: no further attempt (R264). -/
  cancelled : Bool
  /-- SEQ, frame counter and data field, once assigned. -/
  seq : Option Nat
  counter : Nat
  field : List Byte
  /-- Start of the class-0 interval of R273. -/
  interval : Nat
  /-- Acceptance number of the class-0 message accepted before this one on the same port (R273); 0 where none was. -/
  after : Nat
  /-- A REPORT with AUTH_REJECT named its SEQ (R240). -/
  authReject : Bool
  /-- It was cut, and no grant has followed (R262: CLASS0_PREEMPT). -/
  cut : Bool
  /-- Its device was an orphan while it waited, so that its class-0 bound has lapsed (R390). -/
  lapsed : Bool
  /-- The frame of its latest attempt followed a wake train (R215). -/
  byTrain : Bool
deriving DecidableEq, Repr

/-- A transmit queue (R252 to R255). -/
structure Queue where
  /-- Descriptor words at WQD offsets 0x014, 0x018, 0x01C and 0x020. -/
  d14 : Word
  d18 : Word
  d1C : Word
  d20 : Word
  isOpen : Bool
  hostPause : Bool
  /-- Head first. -/
  msgs : List Msg
  accepted : Nat
  endedOk : Nat
  endedOther : Nat
deriving DecidableEq, Repr

/-- A queue after reset: CLOSED, with the reset descriptor. -/
def Queue.idle : Queue := ⟨0x00000002, 0x00010001, 0x13880100, 0, false, false, [], 0, 0, 0⟩

/-- A completion record that is due or held (R267). -/
structure DueRec where
  ring : Nat
  record : Rec
  /-- A refusal at PUSH_END (held list), otherwise an accepted message (its slot stays occupied). -/
  refusal : Bool
  /-- The record was tried and found the ring full. -/
  held : Bool
  /-- Acceptance number of a class-0 message, 0 otherwise (R273). -/
  c0 : Nat
deriving DecidableEq, Repr

/-- A delivery ring (R269). -/
structure Ring where
  /-- Oldest first. -/
  recs : List Rec
  /-- Received and refusal records dropped since the last LOSS record, and SAMPLE_TIME and MAINS_TIME of the first drop. -/
  lostRx : Nat
  lostRefusal : Nat
  firstDrop : Nat
  dropMains : Nat × Nat
deriving DecidableEq, Repr

/-- An empty ring. -/
def Ring.idle : Ring := ⟨[], 0, 0, 0, (0, 0)⟩

/-- Wadi beside its registers. -/
structure WadSt where
  queues : Tab Queue
  rings : Tab Ring
  /-- Completion records due or held, in the order of their outcomes. -/
  due : List DueRec
  nextTag : Nat
  nextOrd : Nat
  /-- The queues of classes 1 to 3 other than the raw queue carry LNK_PAUSE (R254). -/
  lnkPause : Bool
  /-- Deficit in µs under key 4 × port + class (R261). -/
  deficit : Tab Nat
  /-- The class with which the rotation of each port goes on, less 1 (R261). -/
  turn : Tab Nat
  /-- Last endpoint served under key 4 × port + class, and last queue under (4 × port + class) × 16384 + endpoint; a queue of
  DST 0xFFF is an endpoint of its own, 4096 + queue. -/
  lastEp : Tab Nat
  lastQueue : Tab Nat
  /-- Acceptance number of the last class-0 message accepted for each port (R273). -/
  c0Last : Tab Nat
deriving DecidableEq, Repr

/-! ## Medium access -/

/-- An attempt of a message in flight (R199, R203). -/
structure Attempt where
  queue : Nat
  tag : Nat
  port : Nat
  ch : Nat
  cls : Nat
  be : Nat
  busyFinds : Nat
  /-- Slot boundaries still to wait; 0 means the next boundary is the start slot. -/
  wait : Nat
  /-- Successive transmit-window refusals (R201). -/
  winRefusals : Nat
  /-- When the attempt became ready. -/
  ready : Nat
  /-- The start was handed to transmit synthesis. -/
  started : Bool
deriving DecidableEq, Repr

/-- An acknowledgement window (R207). -/
structure AckWin where
  queue : Nat
  tag : Nat
  port : Nat
  centre : Nat
  rate : Nat
  sync : Nat
  seq : Nat
  cls : Nat
  robust : Bool
  /-- End of the answered copy's last symbol. -/
  tEnd : Nat
  close : Nat
  /-- The armed engine. -/
  engine : Option Nat
  /-- S_ack was found in the matching span and its body is not decided yet. -/
  found : Bool
  /-- The copy has ended, so the window is open. -/
  isOpen : Bool
deriving DecidableEq, Repr

/-- An acknowledgement owed (R205). -/
structure Owed where
  engine : Nat
  port : Nat
  centre : Nat
  rate : Nat
  sync : Nat
  seq : Nat
  dst : Nat
  dup : Bool
  lqi : Nat
  robust : Bool
  /-- End of the answered frame's last symbol, and when the frame passed FCS and MIC. -/
  tEnd : Nat
  passed : Nat
  /-- The passing copy came from a combination (R189). -/
  combined : Bool
  /-- The body, once it is released to transmit synthesis (R212), and the acknowledgement has started. -/
  body : Option AckBody
  sent : Bool
deriving DecidableEq, Repr

/-- A wake train (R213). -/
structure Train where
  ep : Nat
  queue : Nat
  tag : Nat
  port : Nat
  ch : Nat
  lane : Nat
  /-- t0 of the next wake frame, end of the train's span, and airtime of a wake frame in ticks. -/
  next : Nat
  stop : Nat
  air : Nat
  /-- Promised t0 of the data frame, fixed when the train starts (R216). -/
  dataT : Nat
  /-- Slots tried for the data frame, and successive transmit-window refusals of it (R201). -/
  holds : Nat
  winRefusals : Nat
  full : Bool
deriving DecidableEq, Repr

/-- An activity on a band of port p that has ended: carrier sensing still finds it within CCA_US (R197, R199). An own
transmission's covers its guard zone. -/
structure Activity where
  port : Nat
  centre : Nat
  rate : Nat
  guarded : Bool
  at_ : Nat
deriving DecidableEq, Repr

/-- Medium access beside its registers. -/
structure MacSt where
  attempts : List Attempt
  wins : List AckWin
  owed : List Owed
  trains : List Train
  /-- Carrier-sense readings of the last sensing: channels (16p + k) above threshold. -/
  sensed : List Nat
  /-- Sleepy endpoints whose train could not start at its access point and is tried again at the next (R202). -/
  again : List Nat
  /-- Activities that ended within the last 1 ms. -/
  ended : List Activity
deriving DecidableEq, Repr

/-! ## Oasis -/

/-- The jobs that the dispatcher grants (R282): the transmission of a queue's message, what is left of
a cut one on its lane, a wake train of an endpoint, the
unparking of a quad, the start of a Seif core, a run of a link-firmware kernel, and a replay block of an engine. -/
inductive JobKind where
  | tx (queue tag : Nat)
  | lane (port lane : Nat)
  | train (ep : Nat)
  | quad (q : Nat)
  | core (c : Nat)
  | kernel (k : KernelJob)
  | replay (eng : Nat)
deriving DecidableEq, Repr

/-- A job that is ready or running. -/
structure Job where
  kind : JobKind
  cls : Nat
  /-- Cost rate in µJ per ms (R282), and whether it is charged to the class-0 reserve (R285). -/
  rate : Nat
  reserve : Bool
  /-- When it became ready. -/
  since : Nat
  /-- Start of the unbroken run of refusals (R283). -/
  refused : Option Nat
  /-- The dispatcher holds lower classes for it (R283). -/
  holding : Bool
deriving DecidableEq, Repr

/-- Oasis beside its registers. -/
structure OasSt where
  ready : List Job
  running : List Job
  /-- Cost rates of the jobs that ran in the present window, jobs that ended included (R281). -/
  ranRate : Nat
  /-- FREE of R281, not limited to its register. -/
  free : Int
  /-- Rail power sums of the last samples, newest first, at most 1,000 (R279), and the samples of the present window. -/
  sums : List Nat
  winSums : List Nat
  /-- P_BASE of the present window (R281). -/
  base : Int
  /-- VCORE currents of the two last samples, newest first (R293). -/
  vcore : List Nat
  /-- An excursion above VCORE_SPRINT_MA in sprint, or above VCORE_LIMIT_MA, is in progress. -/
  exSprint : Bool
  exLimit : Bool
  /-- Until when each excursion holds the rail level (R293). -/
  holdSprint : Nat
  holdLimit : Nat
  /-- Per sensor: its last reading in 1/16 °C and the tick at which it last changed (R280). -/
  sensors : Tab (Int × Nat)
  /-- Under 16 i + j: the reading of sensor j when sensor i last changed (R280). -/
  sensorRef : Tab Int
  /-- Sensors beside which another has changed by more than 2 °C since their own last change (R280). -/
  outrun : List Nat
  /-- Tj in 1/16 °C (R280). -/
  tj : Int
  /-- Tj has stayed at or below the step-down threshold since this tick (R291). -/
  coolSince : Option Nat
  /-- The thermal level stands because of a sprint that reached TJ_L1 (R296). -/
  thermalSprint : Bool
  /-- P_TOTAL above CAP_MW since, below CAP_MW − CAP_HYST_MW since (R292). -/
  overSince : Option Nat
  underSince : Option Nat
  /-- Sprint: when it started, and the last tick with demand (R295, R296). -/
  sprintAt : Nat
  demandAt : Nat
  /-- The domain inside its 8 µs of wake time and its start (R277). -/
  waking : Option (Nat × Nat)
  /-- The tick at which the last wake finished, and the last switch-off was made. -/
  wakeDone : Nat
  offDone : Nat
  /-- A domain's wake was not yet finished when it was requested: domains waiting to wake. -/
  waitWake : List Nat
  /-- TOKENS of a port in µJ (R288). -/
  tokens : Tab Int
  /-- P_LINE_MW that transmit synthesis measured in the present window, per port (R172, R288). -/
  lineMw : Tab Int
  /-- Last output of a port's amplifier RTD channel (R289). -/
  ampAt : Tab Nat
  /-- Level changes act on the engines from this tick (R152). -/
  levelAt : Nat
  /-- The level whose actions are in force: a rise acts at once, a fall from the next window boundary on (R294). -/
  act : Nat
  /-- The part of the thermal level that Tj sets, and the part that missing sensors set (R280, R291). -/
  tjLevel : Nat
  sensorLevel : Nat
deriving DecidableEq, Repr

/-! ## Erg receive array -/

/-- What an engine keeps beside its registers (R133 to R152). -/
structure Eng where
  /-- T_PRE and T_SYNC of the transmission in progress (R135). -/
  tPre : Nat
  tSync : Nat
  /-- Decided header word of the frame in progress. -/
  hdr : Nat
  /-- The data field has a soft buffer (R148). -/
  stored : Bool
  /-- Queue and tag of the message whose acknowledgement the engine is armed for, and the robust form (R137, R207). -/
  armed : Option (Nat × Nat × Bool)
  /-- Parking waits for the end of the frame in progress since this tick (R152). -/
  parkDue : Option Nat
  /-- The watch's T_PRE of a recalled engine (R150). -/
  watchPre : Option Nat
  /-- The engine took over its watch's estimates and searches for the sync word (R150). -/
  handoff : Bool
  /-- Noise-map cells in use since the detection, each with the tick from which it is used, newest first (R142). -/
  cells : List (Nat × Word)
deriving DecidableEq, Repr

/-- An engine after reset. -/
def Eng.idle : Eng := ⟨0, 0, 0, false, none, none, none, false, []⟩

/-- A blanking window as it marks the engines of its ports (R143): pin, pin edge, start with the pre-guard, end once known. -/
structure ErgBlank where
  pin : Nat
  edge : Nat
  start : Nat
  stop : Option Nat
deriving DecidableEq, Repr

/-- The Erg array beside its registers. -/
structure ErgSt where
  eng : Tab Eng
  /-- When the armed commit of an ERG page was accepted (R133). -/
  armAt : Tab Nat
  /-- Engines of the page that have not taken the armed set yet, bit e for engine e (R133). -/
  due : Tab Nat
  /-- Blanking windows that are open or ended within the last 64 s (R143). -/
  blank : List ErgBlank
deriving DecidableEq, Repr

/-- A received frame copy, from the engine to the frame path. -/
structure RxCopy where
  eng : Nat
  port : Nat
  centre : Nat
  rate : Nat
  sync : Nat
  alarm : Bool
  /-- PHY header word, T_SYNC, T_PRE, and SNR in 0.25 dB. -/
  hdr : Nat
  tSync : Nat
  tPre : Nat
  snr : Int
  /-- The data field, once decoded. -/
  field : List Byte
  /-- Soft values as 4-bit numbers (R139). -/
  soft : List Nat
  /-- Replayed from the ring (R188). -/
  late : Bool
  /-- Found by a diagnostic replay: the ring that it is delivered to (R196). -/
  diag : Option Nat
  /-- Copies combined; 0 for a copy decoded alone (R188). -/
  combined : Nat
  /-- Combine slot and copy index (R182). -/
  slot : Option Nat
  copy : Nat
  /-- Data symbols received of a cut copy (R138). -/
  cut : Option Nat
deriving DecidableEq, Repr

/-- A trellis job (R146). -/
structure TJob where
  /-- 1 alarm engine, 2 other live engine, 3 replay. -/
  rank : Nat
  since : Nat
  rx : RxCopy
  /-- The engine one of whose soft buffers holds the field; none for a combined field (R146). -/
  buf : Option Nat
deriving DecidableEq, Repr

/-- The trellis pool. -/
structure TrlSt where
  /-- Oldest first. -/
  waiting : List TJob
  dec : Tab (Option TJob)
  /-- When each group last held a job. -/
  groupAt : Tab Nat
  /-- Decoded bits not yet counted in KBITS_DECODED. -/
  bits : Nat
deriving DecidableEq, Repr

/-! ## Mirage -/

/-- A replay job (R178). -/
structure RJob where
  id : Nat
  rank : Nat
  /-- 1 REPEAT, 2 PLAIN, 3 WIDE, 4 DIAG. -/
  kind : Nat
  /-- The reporting engine. -/
  eng : Nat
  port : Nat
  centre : Nat
  rate : Nat
  sync : Nat
  tol : Nat
  wide : Bool
  /-- Window in ticks, first and last. -/
  start : Nat
  stop : Nat
  slot : Option Nat
  copy : Nat
  /-- First tick not replayed yet. -/
  doneTo : Nat
  /-- To be ended at its next block boundary (R182, R196). -/
  ending : Bool
  /-- SPEED when the job started (R180); 0 while it has not. -/
  speed : Nat
  /-- DIAG_RING of a diagnostic order, and the address of the next byte of its dump (R196). -/
  ring : Nat
  dump : Option Nat
  /-- PD_THRESH; the carrier search of a WIDE job covers ±0.1 × Rs (R178). -/
  pdThresh : Nat
  /-- The noise map and the impulse test mark symbols (R142, R196), with ERASE_SNR and IMPULSE_DB. -/
  nmap : Bool
  eraseSnr : Int
  impulse : Nat
  /-- Blanking pins whose windows the settings erase (R143): bits 0 and 1. -/
  blank : Nat
deriving DecidableEq, Repr

/-- A combine slot (R182, R186). -/
structure Slot where
  eng : Nat
  mode : Nat
  length : Nat
  /-- Copies of the run, and the predicted t0 of copy 0. -/
  n : Nat
  t0 : Nat
  /-- P_EST and T_copy in ticks (R183). -/
  pEst : Nat
  tCopy : Nat
  /-- Copies held: index, soft values, SNR, T_SYNC, T_PRE, from the ring. -/
  held : List (Nat × List Nat × Int × Nat × Nat × Bool)
  /-- Copy indexes searched or being searched. -/
  searched : List Nat
  /-- SNR of the copy that entered last, which completes a combined frame (R125, R140). -/
  lastSnr : Int
  finalEnd : Nat
deriving DecidableEq, Repr

/-- A pinned span (R192). -/
structure PinSpan where
  start : Nat
  stop : Nat
  /-- Trigger source plus one; 0 for a host pin. -/
  trig : Nat
deriving DecidableEq, Repr

/-- Mirage beside its registers. -/
structure MirSt where
  /-- Directory entry of a slab position (R175), as written to its region. -/
  dir : Tab Nat
  /-- Queued jobs, and the job running on an engine. -/
  jobs : List RJob
  running : Tab (Option RJob)
  nextJob : Nat
  slots : Tab (Option Slot)
  pins : Tab (Option PinSpan)
  /-- Side-log records written so far (R176), and the tick of each record still held, oldest first. -/
  sideCnt : Nat
  sideTicks : List Nat
  /-- The first tick of the next slab to be written. -/
  nextSlab : Nat
  /-- Slabs whose directory entry an uncorrectable error made not VALID (R417). -/
  lostSlabs : List Nat
deriving DecidableEq, Repr

/-! ## Key store and link protocol -/

/-- An entry of a duplicate cache (R228). -/
structure DupEnt where
  seq : Nat
  counter : Option Nat
  time : Nat
deriving DecidableEq, Repr

/-- A key-store slot (R228, R231, R428). -/
structure KeySlot where
  /-- The endpoint address bound to the slot. -/
  addr : Option Nat
  key : List Byte
  txCtr : Nat
  ctrHi : Nat
  floor : Nat
  seq : Nat
  /-- Ordered by on-line time. -/
  cache : List DupEnt
  /-- Successive REPLAY failures with valid MIC (R236). -/
  replays : Nat
deriving DecidableEq, Repr

/-- An unbound slot. -/
def KeySlot.idle : KeySlot := ⟨none, [], 0, 0, 0, 0, [], 0⟩

/-- The state of an endpoint record (R239). -/
inductive EpState where
  | absent | provisioned | active | silent | drifted | counterLost
deriving DecidableEq, Repr

/-- An endpoint record of link firmware (R239). -/
structure EpRec where
  state : EpState
  slot : Nat
  boot : Nat
  sleepy : Bool
  mainsLocked : Bool
  relay : Bool
  persist : Bool
  wiMs : Nat
  lMs : Nat
  guardMs : Nat
  driftPpm : Nat
  lastContact : Nat
  lastLqi : Nat
  /-- Engine that heard the endpoint last. -/
  eng : Nat
  /-- Relays of the current downlink route, first hop first, other learned routes, and the pin (R238). -/
  route : List Nat
  learned : List (List Nat)
  pinned : Bool
  /-- Successive FAILED_NOACK outcomes on the route. -/
  noAck : Nat
  /-- Successive failed trains, and failed full-interval trains (R215). -/
  missed : Nat
  fullMissed : Nat
  /-- The last frame that passed FCS and MIC (R214), and the ticks that the timebase had spent outside LOCKED and HOLDOVER
  by then. -/
  heard : Nat
  unlocked : Nat
  /-- A sleepy endpoint stays awake: a segment with MORE has gone out to it, or until a tick (R230, R246). -/
  awakeMore : Bool
  awakeTill : Nat
deriving DecidableEq, Repr

/-- No record. -/
def EpRec.idle : EpRec :=
  ⟨.absent, 0, 0, false, false, false, false, 0, 0, 0, 0, 0, 0, 0, [], [], false, 0, 0, 0, 0, 0, false, 0⟩

/-- The state of a session (R246). -/
inductive SessState where
  | opening | sending | suspended | receiving | complete | closed
deriving DecidableEq, Repr

/-- A session (R241 to R248). -/
structure Sess where
  ep : Nat
  /-- The head-end receives. -/
  rx : Bool
  sid : Nat
  state : SessState
  total : Nat
  segSize : Nat
  win : Nat
  sackEvery : Nat
  check : Nat
  objType : Nat
  /-- Object offset in the SESSION_OBJ region, 4 KiB units. -/
  offset : Nat
  base : Nat
  /-- Segments at or above BASE that are held. -/
  held : List Nat
  /-- Segments sent since the last SACK. -/
  sent : List Nat
  autoRestart : Bool
  /-- Frame counter of the last SACK processed. -/
  sackCtr : Nat
  contra : Nat
  queries : Nat
  /-- The wait for a SACK or ACCEPT runs since. -/
  waitFrom : Option Nat
  /-- Instant of the last query, of suspension, and of the last frame of the session. -/
  queryAt : Nat
  suspAt : Nat
  lastRx : Nat
  /-- The next answer replaces the record whole (R245, R247). -/
  replace : Bool
  /-- Segments written since the last SACK sent. -/
  sinceSack : Nat
deriving DecidableEq, Repr

/-- A frame handed to link firmware. -/
structure LnkFrame where
  hdr : MacHeader
  counter : Nat
  route : List Nat
  payload : List Byte
  tSync : Nat
  eng : Nat
  lqi : Nat
  late : Bool
  /-- Passed step 10 of R223. -/
  accepted : Bool
deriving DecidableEq, Repr

/-- A mailbox command in progress and its answer. -/
structure MbCmd where
  tag : Nat
  result : Nat
  resp : List Nat
deriving DecidableEq, Repr

/-- An acknowledgement that answers nothing the device sent, as link firmware gets it (R125): engine, SEQ, DST, LQI and time. -/
structure StrayAck where
  eng : Nat
  seq : Nat
  dst : Nat
  lqi : Nat
  at_ : Nat
deriving DecidableEq, Repr

/-- Link firmware beside its registers. -/
structure LnkSt where
  eps : Tab EpRec
  /-- Sessions under their handles. -/
  sess : Tab (Option Sess)
  nextHandle : Nat
  nextSid : Tab Nat
  inbox : List LnkFrame
  /-- Events waiting, oldest first, each of 8 words, and the words of the oldest already read (R251). -/
  events : List (List Word)
  evtRead : Nat
  /-- Events dropped and not yet told by EVT_OVERFLOW. -/
  evtLost : Nat
  /-- MB_ARG0 to MB_ARG7 (write-only). -/
  args : List Word
  mb : Option MbCmd
  /-- Last heartbeat, and when link firmware stopped last. -/
  hbAt : Nat
  stoppedAt : Nat
  /-- Last UNKNOWN_SOURCE event of an address. -/
  unknownAt : Tab Nat
  /-- LNK commit accepted (its safe point is 1 ms later at the latest). -/
  commitAt : Nat
  /-- Ticks that the timebase has spent outside LOCKED and HOLDOVER, and since when it is outside (R214). -/
  outTotal : Nat
  outSince : Option Nat
  /-- Acknowledgements that matched nothing sent: their number, and those passed to link firmware for route learning (R125). -/
  strayCnt : Nat
  strays : List StrayAck
deriving DecidableEq, Repr

/-- The frame path and the key store. -/
structure KeySt where
  slots : Tab KeySlot
  grid : KeySlot
  /-- SEQ counter of broadcast frames, and of unsecured frames to an address without slot (R453). -/
  bcastSeq : Nat
  addrSeq : Tab Nat
  /-- Copies waiting for the frame path, oldest first. -/
  rx : List RxCopy
  /-- Runs delivered, as (engine, SRC, SEQ, t0 of copy 0, end of the final copy), newest first (R118). -/
  runs : List (Nat × Nat × Nat × Nat × Nat)
  /-- Runs that a cut copy ended, as (engine, t0 of copy 0): nothing of theirs is acknowledged any more (R118). -/
  cuts : List (Nat × Nat)
  /-- Later copies of delivered runs that decoded on their own (R118). -/
  laterCopies : Nat
  /-- KEY0 to KEY3 of page KEY (write-only). -/
  keyIn : List Word
deriving DecidableEq, Repr

/-! ## Caravan -/

/-- What a device puts on the ring (R386 to R398). -/
inductive RingMsg where
  | mark (t : Nat)
  | beacon (cycle t st freq : Nat)
  | dsync (tr : Nat)
  | claim (k : Token)
  | grant (k : Token)
  | release (k : Token)
  | preempt (k : Token)
  | reserve (k : Token)
  | field (rx : RxCopy)
  | routeCopy (f : LnkFrame)
deriving DecidableEq, Repr

/-- Caravan beside its registers. -/
structure CavSt where
  /-- Tokens granted to this device, and claims it has sent. -/
  mine : List Token
  claims : List Token
  /-- At the master: tokens held and claims queued, in order of arrival. -/
  held : List Token
  queue : List Token
  /-- The in-link and the out-link are UP (R385). -/
  inUp : Bool
  outUp : Bool
  /-- When each last went DOWN or began to retrain (R385). -/
  inDownAt : Nat
  outDownAt : Nat
  /-- Last time mark and last beacon received, and the last returned mark at the master. -/
  markAt : Nat
  beaconAt : Nat
  returnAt : Nat
  /-- The cycle count of the last beacon received. -/
  beaconCycle : Option Nat
  /-- The first join after reset has been made (R391). -/
  joined : Bool
  /-- Messages put on the ring, oldest first. -/
  out : List RingMsg
  /-- Frames decided, for the merging of DEEPEN: SRC, SEQ, T_SYNC, newest first (R396). -/
  merged : List (Nat × Nat × Nat)
deriving DecidableEq, Repr

/-! ## MRAM -/

/-- The MRAM (R429, R430). -/
structure MrmSt where
  /-- Words under their index; an unlisted word is erased and reads 0. -/
  words : Tab Word
  /-- Position within the journal, plus one, of the latest record of a counter. -/
  latest : Tab Nat
  /-- The anti-rollback counter (R423), spread over 64 words. -/
  rollback : Nat
deriving DecidableEq, Repr

/-! ## Sense front end and decimation chain -/

/-- A sense input with its modulator slot and decimator channel (R298 to R325). -/
structure SnsCh where
  /-- Tick at which the channel starts from an empty filter; none while it does not run. -/
  start : Option Nat
  /-- The input has had a slot, so that it holds a range code (R303). -/
  held : Bool
  /-- Range changes as (tick, new code), overloads at RANGE_MIN and flagged excitation switches, newest first. -/
  ranges : List (Nat × Nat)
  overs : List Nat
  excs : List Nat
  /-- Since when every modulator sample has stayed within 40 % of the next higher code's full scale (R304). -/
  quietFrom : Nat
  /-- Stamp of the last output, none before the first. -/
  lastOut : Option Nat
  /-- Outputs were lost at the R18 crossing, in capture and on the Seif route, and the next one carries LOSS (R324). -/
  lossX : Bool
  lossC : Bool
  lossS : Bool
  /-- An open check is due, asked for by CHECK_NOW, and running since (R309); the range code before it. -/
  checkDue : Bool
  checkNow : Bool
  checking : Option Nat
  checkRange : Nat
  lastCheck : Nat
  /-- Successive passing checks while OPEN, the wire conditions, and whether a check or output has decided (R312). -/
  passes : Nat
  isOpen : Bool
  isShort : Bool
  decided : Bool
  /-- Last tick at which the condition of SHORT was seen. -/
  shortAt : Nat
deriving DecidableEq, Repr

/-- An input after reset. -/
def SnsCh.idle : SnsCh :=
  { start := none, held := false, ranges := [], overs := [], excs := [], quietFrom := 0, lastOut := none, lossX := false, lossC := false
    lossS := false, checkDue := false, checkNow := false, checking := none, checkRange := 0, lastCheck := 0, passes := 0
    isOpen := false, isShort := false, decided := false, shortAt := 0 }

/-- Where a group stands in its slot (R300): stopped; settling; delivering; slot ended, waiting for the switch; in an open
check. -/
inductive SnsPhase where
  | stopped | settling | running | ended | check
deriving DecidableEq, Repr

/-- A modulator group (R298, R300). -/
structure SnsGrp where
  /-- Input within the group that the multiplexer selects. -/
  cur : Nat
  phase : SnsPhase
  /-- Start of the settling delay in progress. -/
  slotAt : Nat
  /-- Outputs still to be delivered in the slot. -/
  left : Nat
deriving DecidableEq, Repr

/-- A group after reset. -/
def SnsGrp.idle : SnsGrp := ⟨0, .stopped, 0, 0⟩

/-- A blanking pin (R307, R308). -/
structure BlankPin where
  active : Bool
  /-- When the window opened; the last releasing edge. -/
  opened : Option Nat
  released : Option Nat
  ignored : Bool
deriving DecidableEq, Repr

/-- A pin after reset. -/
def BlankPin.idle : BlankPin := ⟨false, none, none, false⟩

/-- A blanking window for the outputs that overlap it: pin, first tick, end once known. -/
structure BlankWin where
  pin : Nat
  start : Nat
  stop : Option Nat
deriving DecidableEq, Repr

/-- An event detector's running sums (R313). -/
structure Detector where
  /-- Sum of the squares of the outputs at range code 7, and their number. -/
  sum : Nat
  n : Nat
  /-- The window holds a missing, blanked or faulty output. -/
  bad : Bool
  /-- RMS of the previous judged window. -/
  prev : Option Nat
  silentTo : Nat
deriving DecidableEq, Repr

/-- A detector after reset. -/
def Detector.idle : Detector := ⟨0, 0, false, none, 0⟩

/-- The sense front end and the decimation chain beside their registers. -/
structure SnsSt where
  ch : Tab SnsCh
  grp : Tab SnsGrp
  pins : Tab BlankPin
  wins : List BlankWin
  det : Tab Detector
  /-- The window of the detectors that is in progress: the half-cycle, or the 10 ms, by its number (R313). -/
  detWin : Nat
  /-- The grid epoch E (R315). -/
  epoch : Nat
  /-- The DSYNC pin has been recognised low and not yet high again (R320). -/
  pinLow : Bool
  /-- Capture FIFO: its words, oldest first, and stamp bits 55:24 of the last entry (R325). -/
  cap : List Word
  capHi : Option Nat
deriving DecidableEq, Repr

/-- A loop output beside its registers (R327 to R329). -/
structure LoopCh where
  /-- x in use, and when it was last renewed; when HOST_VALUE and SEIF_VALUE were last written. -/
  x : Word
  xAt : Nat
  hostAt : Option Nat
  seifAt : Option Nat
  /-- Sum of the outputs of the present window at range code 7, their number, and the flags of the last one. -/
  sum : Int
  n : Nat
  flagged : Bool
  /-- The DAC code of the last update and when it is written (R326, R328). -/
  dac : Nat
  dacAt : Nat
  /-- FORCE_FAULT is in force. -/
  forced : Bool
  /-- Since when each condition of R329 holds: open, closed again, short, no longer short. -/
  openAt : Option Nat
  openOk : Option Nat
  shortAt : Option Nat
  shortOk : Option Nat
  isOpen : Bool
  isShort : Bool
deriving DecidableEq, Repr

/-- A loop after reset. -/
def LoopCh.idle : LoopCh := ⟨0, 0, none, none, 0, 0, false, 0, 0, false, none, none, none, none, false, false⟩

/-! ## Seif cores -/

/-- An instruction in the pipeline of a core (R340). -/
structure SeifFl where
  addr : Nat
  word : BitVec 64
  /-- It stands in a delay slot (R342). -/
  slot : Bool
  /-- The condition held, at DE or EX1 (R357). -/
  ok : Bool
  /-- Addresses formed at AG. -/
  xa : Nat
  ya : Nat
  /-- Operands read at EX1: two D registers, both halves of An, both halves of the second accumulator. -/
  a : Word
  b : Word
  re : BitVec 40
  im : BitVec 40
  xre : BitVec 40
  xim : BitVec 40
  /-- The accumulator feedback path supplies An at EX2 (R340). -/
  feed : Bool
deriving DecidableEq, Repr

/-- A Seif core beside its page (R330 to R366). -/
structure SeifCore where
  im : Tab (BitVec 64)
  xm : Tab Word
  ym : Tab Word
  /-- Registers under their move-register codes of R356. -/
  r : Tab Word
  /-- Accumulator halves: AnR under 2n, AnI under 2n + 1. -/
  acc : Tab (BitVec 40)
  pc : Nat
  /-- Instructions in DE, AG, RD, EX1 and EX2. -/
  pipe : List (Option SeifFl)
  /-- The next word fetched is a delay slot; where fetching goes after it; the core waits after it (WAIT). -/
  slotNext : Bool
  target : Option Nat
  waitNext : Bool
  /-- TIMER and MBOX are pending (R345), and when TIMER last became pending. -/
  timerPend : Bool
  mboxPend : Bool
  timerAt : Nat
  /-- TIME_HI latched by the read of TIME_LO. -/
  timeHi : Word
  /-- DIN ring offsets (R332). -/
  dinHead : Nat
  dinTail : Nat
  /-- Start of the core's present time in RUNNING, and its finished spans of the last 100 ms, newest first (R295). -/
  busyFrom : Option Nat
  runs : List (Nat × Nat)
deriving DecidableEq, Repr

/-- A core after power-on: registers and memories 0, nothing in flight. -/
def SeifCore.idle : SeifCore :=
  { im := [], xm := [], ym := [], r := [], acc := [], pc := 0, pipe := [], slotNext := false, target := none, waitNext := false
    timerPend := false, mboxPend := false, timerAt := 0, timeHi := 0, dinHead := 0, dinTail := 0, busyFrom := none, runs := [] }

/-! ## UARTs -/

/-- What the transmitter of a UART sends: a character or a break (R377). -/
inductive UartItem where
  | char (b : Byte)
  | brk
deriving DecidableEq, Repr

/-- A UART beside its registers (R371 to R382). -/
structure UartSt where
  /-- Receive FIFO: entries of R376, oldest first; transmit FIFO. -/
  rx : List Word
  tx : List Byte
  /-- The item on the line, the tick of its start bit, and a break asked for. -/
  cur : Option UartItem
  startAt : Nat
  brkDue : Bool
  /-- The driver was enabled at this tick, and DE_LEAD runs before the first start bit (R378). -/
  leadFrom : Option Nat
  /-- End of the last stop bit sent; TX_GAP of idle has still to pass since then before the next start (R377). -/
  endAt : Nat
  gapWait : Bool
  /-- Characters were dropped since the last entry; the next one follows an idle gap. -/
  ovr : Bool
  gap : Bool
  /-- The receiver accepts no start edge before this tick (R373, R374, R378). -/
  rxFree : Nat
  /-- The end of the stop bit from which the last idle gap was measured (R381). -/
  idleFrom : Option Nat
  /-- Acceptance of the armed commit (R382). -/
  commitAt : Nat
deriving DecidableEq, Repr

/-- A UART after reset. -/
def UartSt.idle : UartSt :=
  { rx := [], tx := [], cur := none, startAt := 0, brkDue := false, leadFrom := none, endAt := 0, gapWait := false, ovr := false
    gap := false, rxFree := 0, idleFrom := none, commitAt := 0 }

/-! ## Clocks, reset, DRAM and boot -/

/-- Clocks, watchdog, DRAM training and error history (R400 to R417). -/
structure ClkSt where
  /-- SCLK_IN has failed and SAMPLEPLL has not returned to it (R401, R403). -/
  sclkFailed : Bool
  /-- The SAMPLE domain has stopped (R401 with FAILOVER_EN clear). -/
  stopped : Bool
  /-- A return to SCLK_IN is in progress (R403). -/
  returning : Bool
  /-- The chip watchdog's count started here (R408); none once it has expired and has not been restarted. -/
  wdtAt : Option Nat
  /-- The patrol pass in progress began here (R416). -/
  scrubAt : Nat
  /-- Correctable errors of the last hour per channel, newest first (R416). -/
  ceAt : Tab (List Nat)
  /-- The YG256 has been in deep sleep (R297) since. -/
  sleepAt : Option Nat
deriving DecidableEq, Repr

/-- What the crypto block works on (R427, R432). -/
inductive SecJob where
  | attest (nonce : List Word)
  | unlock
deriving DecidableEq, Repr

/-- Boot, attestation, debug lock and flash beside their registers (R418 to R434). -/
structure SecSt where
  nonce : List Word
  /-- Token words written since the challenge; the challenge has not been spent; the token whose check runs, with the
  challenge it answers where that one was not spent. -/
  token : List Word
  fresh : Bool
  checking : List Word × Option (List Word)
  /-- The debug scope granted: 0 none, 1 BSCAN, 2 FULL. -/
  scope : Nat
  job : Option SecJob
  /-- Words left in ATT_DATA. -/
  att : List Word
  /-- Boot flash words; erased words read 0xFFFF_FFFF. Its page buffer; the operation in progress (1 program, 2 erase)
  and the address that it acts on. -/
  flash : Tab Word
  buf : List Word
  flashOp : Option (Nat × Nat)
  /-- Automatic restarts of the last hour, and the stop that the next one follows (R425). -/
  restarts : List Nat
  stopAt : Option Nat
  /-- FUSE_LOCK has blown the fuse; it acts from the next reset (R432). -/
  blown : Bool
deriving DecidableEq, Repr

/-! ## The state -/

/-- The state of the block. -/
structure State where
  /-- SAMPLE_TIME (R7). -/
  time : Nat
  /-- Free values used so far (model's own counter, not the spec's). -/
  free : Nat
  /-- Live register values under their BAR0 addresses. -/
  regs : Tab Word
  /-- Shadow values written since the last apply (R45). -/
  shadow : Tab Word
  /-- Counter snapshots of CNT_SNAP (R51). -/
  snap : Tab Word
  /-- DRAM bytes. -/
  dram : Tab Byte
  host : HostSt
  mtb : MtbSt
  lpt : Tab LptSt
  txs : TxsSt
  wad : WadSt
  mac : MacSt
  oas : OasSt
  erg : ErgSt
  trl : TrlSt
  mir : MirSt
  /-- Noise-map cells (R144); unlisted cells stand at AGE 255, VALID 0. -/
  nmap : Tab Word
  key : KeySt
  lnk : LnkSt
  cav : CavSt
  mrm : MrmSt
  sns : SnsSt
  loops : Tab LoopCh
  seif : Tab SeifCore
  uart : Tab UartSt
  clk : ClkSt
  sec : SecSt
  /-- Commands that wait, first in first out. -/
  pending : List Instr
deriving DecidableEq, Repr

/-- The machine right after a power-on reset whose straps read low: every register at its reset value (`resetWord`), every
memory empty, every block as its chapter leaves it, no command waiting. The timebase is OFF and link firmware stopped, so
FAULT_SUMMARY stands at TIMEBASE and LNK_FAULT (R63). -/
def State.reset : State :=
  { time := 0
    free := 0
    regs := []
    shadow := []
    snap := []
    dram := []
    host := { rdata := 0, spiOut := [], spiBuf := [], wrOvf := false, rdTimeout := false, frameErr := false, cmdErr := false
              spiReading := false, d3hot := false, urCount := 0, msiMask := 0, msiSent := [], active := 0, faults := 0x180
              win := [], preAddr := 0, preWords := [] }
    mtb := { phi := 0, anchor := 0, slew := 0, slewEnd := 0, holdEnd := 0, left := 0, src := [], cyc := [], okRun := 0, badRun := 0
             firstValid := none, cyclesSince := 0, lastValid := 0, holdErr := none, holdStart := 0, periods := [], lastBin := 0
             boundary := 0, accIdx := 0, c0Idx := 0, accEff := 0, c0Eff := 0, halfIdx := 0, onSince := 0, onCycle := 0, mzc := [] }
    lpt := []
    txs := { lanes := [], c0Next := [], c0Half := [], placed := [], hist := [], estK := [], marks := [], past := [], waves := []
             linkTaps := [], oldTaps := [], tapsAt := [], overTill := [], unmatched := [] }
    wad := { queues := [], rings := [], due := [], nextTag := 1, nextOrd := 0, lnkPause := true, deficit := [], turn := [], lastEp := []
             lastQueue := [], c0Last := [] }
    mac := { attempts := [], wins := [], owed := [], trains := [], sensed := [], again := [], ended := [] }
    oas := { ready := [], running := [], ranRate := 0, free := 0, sums := [], winSums := [], base := 0, vcore := [], exSprint := false
             exLimit := false, holdSprint := 0, holdLimit := 0, sensors := [], sensorRef := [], outrun := [], tj := 0, coolSince := none
             thermalSprint := false, overSince := none, underSince := none, sprintAt := 0, demandAt := 0
             waking := none, wakeDone := 0, offDone := 0, waitWake := [], tokens := [], lineMw := [], ampAt := [], levelAt := 0
             act := 0, tjLevel := 0, sensorLevel := 0 }
    erg := { eng := [], armAt := [], due := [], blank := [] }
    trl := { waiting := [], dec := [], groupAt := [], bits := 0 }
    mir := { dir := [], jobs := [], running := [], nextJob := 0, slots := [], pins := [], sideCnt := 0, sideTicks := []
             nextSlab := 0, lostSlabs := [] }
    nmap := []
    key := { slots := [], grid := KeySlot.idle, bcastSeq := 0, addrSeq := [], rx := [], runs := [], cuts := []
             laterCopies := 0, keyIn := [] }
    lnk := { eps := [], sess := [], nextHandle := 0, nextSid := [], inbox := [], events := [], evtRead := 0, evtLost := 0
             args := [], mb := none, hbAt := 0, stoppedAt := 0, unknownAt := [], commitAt := 0, outTotal := 0, outSince := some 0, strayCnt := 0, strays := [] }
    cav := { mine := [], claims := [], held := [], queue := [], inUp := false, outUp := false, markAt := 0, beaconAt := 0
             inDownAt := 0, outDownAt := 0, returnAt := 0, beaconCycle := none, joined := false, out := [], merged := [] }
    mrm := { words := [], latest := [], rollback := 0 }
    sns := { ch := [], grp := [], pins := [], wins := [], det := [], detWin := 0, epoch := 0, pinLow := false, cap := [], capHi := none }
    loops := []
    seif := []
    uart := []
    clk := { sclkFailed := false, stopped := false, returning := false, wdtAt := some 0, scrubAt := 0, ceAt := []
             sleepAt := none }
    sec := { nonce := [], token := [], fresh := false, checking := ([], none), scope := 0, job := none, att := [], flash := [], buf := [], flashOp := none
             restarts := [], stopAt := none, blown := false }
    pending := [] }

end Sys2Proof.Machine
end

