-- ==== Sys2Proof/Machine/Ops.lean ====
section
/-! DEFINITION. The operations that every block shares: register fields, counters, events, refusals, the shadow and
COMMIT machinery of R45, power domains and clocks, time, memories, and the interrupt lines that follow every command. -/
namespace Sys2Proof.Machine

/-- The outcome type of every command. -/
abbrev Res := Host.Outcome State Fault Refusal

/-- Applies `f` where the condition holds. -/
def onlyIf (c : Bool) (f : State → State) (s : State) : State := if c then f s else s

/-- Applies `f i` for every `i` of a list, in order. -/
def forEach {α : Type} (l : List α) (f : α → State → State) (s : State) : State := l.foldl (fun s a => f a s) s

/-! ## Numbers -/

/-- The two's-complement value of the low `w` bits. -/
def signed (w : Nat) (v : Nat) : Int :=
  let u := v % 2 ^ w
  if 2 * u < 2 ^ w then (u : Int) else (u : Int) - (2 ^ w : Nat)

/-- The low `w` bits of the two's complement of an integer. -/
def unsigned (w : Nat) (v : Int) : Nat := (v % (2 ^ w : Nat)).toNat

/-- An integer limited to a range. -/
def clampInt (lo hi v : Int) : Int := if v < lo then lo else if hi < v then hi else v

/-- Signed values saturate to `w` bits. -/
def satSigned (w : Nat) (v : Int) : Nat := unsigned w (clampInt (-(2 ^ (w - 1) : Nat)) ((2 ^ (w - 1) : Nat) - 1) v)

/-- A quotient rounded up. -/
def ceilDiv (a b : Nat) : Nat := (a + (b - 1)) / b

/-- Unsigned values saturate to `w` bits. -/
def sat (w : Nat) (v : Nat) : Nat := Nat.min v (2 ^ w - 1)

/-- Ticks of SAMPLE_TIME in a number of milliseconds (2,048 ticks each). -/
def msTicks (n : Nat) : Nat := 2048 * n

/-- Ticks of SAMPLE_TIME in a number of microseconds, rounded up (2.048 ticks each). -/
def usTicks (n : Nat) : Nat := (2048 * n + 999) / 1000

/-! ## Fields of words -/

/-- The value of a field within a word. -/
def Fld.of (f : Fld) (w : Word) : Nat := w.toNat / 2 ^ f.lsb % 2 ^ f.w

/-- A word with a field replaced; the value is cut to the field's width. -/
def Fld.ins (f : Fld) (w : Word) (v : Nat) : Word :=
  let n := w.toNat
  BitVec.ofNat 32 (n / 2 ^ (f.lsb + f.w) * 2 ^ (f.lsb + f.w) + v % 2 ^ f.w * 2 ^ f.lsb + n % 2 ^ f.lsb)

/-- The bits of a word that a field covers. -/
def Fld.mask (f : Fld) : Nat := (2 ^ f.w - 1) * 2 ^ f.lsb

/-! ## The common frame (R43) -/

def CMN.PAGE_ID : Nat := 0x000
def CMN.CTRL : Nat := 0x004
def CMN.COMMIT : Nat := 0x008
def CMN.CFG_STATE : Nat := 0x00C
def CMN.EVENTS : Nat := 0x200
def CMN.EVENT_EN : Nat := 0x204
def CMN.EVENT_FORCE : Nat := 0x208
def CMN.ERR_DETAIL : Nat := 0x20C
def CMN.CNT_SNAP : Nat := 0x3FC
def CTRL.ENABLE : Fld := ⟨0x004, 0, 1, 0⟩
def CTRL.FREEZE_CNT : Fld := ⟨0x004, 2, 1, 0⟩
def CFG.TICK : Fld := ⟨0x00C, 16, 16, 0⟩
def CFG.APPLY_CNT : Fld := ⟨0x00C, 8, 4, 0⟩
def CFG.ERR_CODE : Fld := ⟨0x00C, 4, 4, 0⟩
def CFG.CFG_ERR : Fld := ⟨0x00C, 2, 1, 0⟩
def CFG.ARMED : Fld := ⟨0x00C, 1, 1, 0⟩
def CFG.PENDING : Fld := ⟨0x00C, 0, 1, 0⟩
def CMN.EV_COMMIT_APPLIED : Fld := ⟨0x200, 30, 1, 0⟩
def CMN.EV_CFG_REFUSED : Fld := ⟨0x200, 31, 1, 0⟩
def CMN.ERR_OFFSET : Fld := ⟨0x20C, 0, 12, 0⟩
def CMN.ERR_REASON : Fld := ⟨0x20C, 16, 8, 0⟩

/-- ERR_CODE values (R45). -/
def ErrCode.INCONSISTENT : Nat := 1
def ErrCode.ZERO_REFUSED : Nat := 2
def ErrCode.RANGE : Nat := 3
def ErrCode.COMMIT_BUSY : Nat := 4
def ErrCode.SHADOW_LOCKED : Nat := 5
def ErrCode.STATE : Nat := 6
def ErrCode.NOT_PERMITTED : Nat := 7

/-! ## Reset values -/

/-- The rows of a kind's register table that lie in the register at page offset `off`, with the array element. -/
def fieldsAt (k : PageKind) (off : Nat) : List (FldSpec × Fld) :=
  (specs k).filterMap fun r =>
    let f := r.fld
    if f.step = 0 then (if f.off = off then some (r, f) else none)
    else if f.off ≤ off ∧ (off - f.off) % f.step = 0 ∧ (off - f.off) / f.step < r.count then
      some (r, f.nth ((off - f.off) / f.step))
    else none

/-- The word of a register whose fields stand at their reset values. -/
def resetFields (k : PageKind) (off : Nat) : Nat :=
  (fieldsAt k off).foldl (fun acc e => acc + e.1.reset * 2 ^ e.1.fld.lsb) 0

/-- Reset values that the tables give by rule or by fuse instead of by number. -/
def resetSpecial (k : PageKind) (inst off : Nat) : Option Word :=
  match k with
  | .glb => if off = 0x108 then some (Config.uid.setWidth 32)
            else if off = 0x10C then some ((Config.uid >>> 32).setWidth 32) else none
  | .hif => if 0x500 ≤ off ∧ off ≤ 0x57C then some (if off = 0x500 then 3 else 2) else none
  | .lpt => if off = 0x114 then
      some (BitVec.ofNat 32 ((Config.cancGain inst).toNat + 65536 * (Config.cancDelay inst).toNat)) else none
  | .txs => if off = 0x800 then some 0x10000 else none
  | .wad => if off = 0x400 then some (BitVec.ofNat 32 (0x3FF * 256 + 1))
            else if 0x400 ≤ off ∧ off < 0x800 ∧ off % 16 = 4 then some (BitVec.ofNat 32 ((off - 0x400) / 16 * 0x44))
            else none
  | .oas => if 0x500 ≤ off ∧ off ≤ 0x51C then
      some (BitVec.ofNat 32 ([6, 30, 40, 60, 85, 3, 10, 40].getD ((off - 0x500) / 4) 0)) else none
  | .sec => if off = 0x100 then some (BitVec.ofNat 32 (3 + Config.debugLevel % 4 * 65536))
            else if 0x13C ≤ off ∧ off ≤ 0x168 then
              some (BitVec.ofNat 32 (leNat ((Config.idPub.drop (off - 0x13C)).take 4)))
            else none
  | _ => none

/-- What the register at BAR0 address `a` holds after reset: PAGE_ID at page offset 0 (R4, R43), 0 in the rest of the
common frame and at unassigned offsets (R9), and the fields' reset values elsewhere. -/
def resetWord (a : Nat) : Word :=
  match pageIndex (a / 4096) with
  | none => 0
  | some (k, code, inst) =>
    let off := a % 4096
    if off = 0 then BitVec.ofNat 32 (code * 2 ^ 24 + inst * 2 ^ 16 + 0x0201)
    else match resetSpecial k inst off with
      | some w => w
      | none => BitVec.ofNat 32 (resetFields k off)

/-! ## Registers -/

/-- BAR0 address of a page's register (R8). -/
def addrOf (pg off : Nat) : Nat := pg * 4096 + off

/-- The live value of a page's register. -/
def State.reg (s : State) (pg off : Nat) : Word := Tab.get resetWord s.regs (addrOf pg off)

/-- Writes the live value of a page's register. -/
def State.setReg (pg off : Nat) (v : Word) (s : State) : State :=
  { s with regs := Tab.set resetWord s.regs (addrOf pg off) v }

/-- The live value of a field. -/
def State.get (s : State) (pg : Nat) (f : Fld) : Nat := f.of (s.reg pg f.off)

/-- The live value of a one-bit field. -/
def State.flag (s : State) (pg : Nat) (f : Fld) : Bool := decide (s.get pg f ≠ 0)

/-- The live value of a field as a two's-complement number. -/
def State.getInt (s : State) (pg : Nat) (f : Fld) : Int := signed f.w (s.get pg f)

/-- Writes a field of the live register. -/
def State.put (pg : Nat) (f : Fld) (v : Nat) (s : State) : State := s.setReg pg f.off (f.ins (s.reg pg f.off) v)

/-- Sets bit `i` of the EVENTS field `f` of a page (R50). -/
def State.eventBit (pg : Nat) (f : Fld) (i : Nat) (s : State) : State :=
  s.setReg pg CMN.EVENTS (s.reg pg CMN.EVENTS ||| BitVec.ofNat 32 (2 ^ (f.lsb + i)))

/-- Sets a one-bit event of a page (R50). -/
def State.event (pg : Nat) (f : Fld) (s : State) : State := s.eventBit pg f 0

/-- Advances a counter by `n`, wrapping, unless FREEZE_CNT stops the page's counters (R44, R51). -/
def State.countBy (pg : Nat) (f : Fld) (n : Nat) (s : State) : State :=
  if s.flag pg CTRL.FREEZE_CNT then s else s.put pg f (s.get pg f + n)

/-- Advances a counter by one. -/
def State.count (pg : Nat) (f : Fld) (s : State) : State := s.countBy pg f 1

/-- Advances a saturating status field by one. -/
def State.bumpSat (pg : Nat) (f : Fld) (s : State) : State := s.put pg f (sat f.w (s.get pg f + 1))

/-- Records a refusal: CFG_ERR, ERR_CODE, ERR_DETAIL and EVENTS.CFG_REFUSED (R45, R49, R50). -/
def State.refuse (pg code off : Nat) (s : State) : State :=
  ((((s.put pg CFG.CFG_ERR 1).put pg CFG.ERR_CODE code).put pg CMN.ERR_REASON 0).put pg CMN.ERR_OFFSET off).event pg
    CMN.EV_CFG_REFUSED

/-- CTRL.ENABLE of a page. -/
def State.enabled (s : State) (pg : Nat) : Bool := s.flag pg CTRL.ENABLE

/-! ## Time and free values -/

/-- Moves SAMPLE_TIME to `t`; it never runs backwards (R7). -/
def State.atTick (t : Nat) (s : State) : State := { s with time := Nat.max s.time t }

/-- A free number, and the state that has used it. -/
def State.fresh (s : State) : Nat × State := (Config.freeNat s.free, { s with free := s.free + 1 })

/-- Uses a free number in a continuation. -/
def State.withFree (f : Nat → State → State) (s : State) : State := f (Config.freeNat s.free) { s with free := s.free + 1 }

/-! ## Power domains and clocks -/

/-- The power domain of a page (R274), none for pages of the always-on domain. -/
def pageDomain (pg : Nat) : Option Nat :=
  match pageIndex pg with
  | none => none
  | some (k, _, i) =>
    match k with
    | .lpt => some (96 + i)
    | .erg => some i
    | .txs => some (112 + i)
    | .mir => some 141
    | .sns => some 142
    | .dec => some 142
    | .exc => some 144
    | .loop => some 145
    | .crc => some 151
    | .uart => some 150
    | .cav => some 147
    | .key => some 140
    | .drc0 => some 136
    | .drc => some (136 + i)
    | .seif => some (64 + i)
    | _ => none

/-- A power domain is on: PWD1 STATE is ON, or DRAINING until its block is idle (R274, R278). -/
def State.domOn (s : State) (d : Nat) : Bool :=
  let st := s.get Pg.PWD1 (PWD1.STATE.nth d)
  decide (st = 2) || decide (st = 3)

/-- A page's power domain is on (R15). Page DRC0 holds the capacity and the region table of the whole device (R409, R412), which a
device that runs on channels 2 and 3 alone needs as well (R410): it answers from the end of training on. DEDUCED: log 96. -/
def State.pageOn (s : State) (pg : Nat) : Bool :=
  match pageDomain pg with
  | none => true
  | some d => s.domOn d || (decide (d = 136) && decide (s.get pg DRC.STATE ≠ 0))

/-- The register of a page whose power domain is off that still answers: DRC.STATE, which reads OFF on a channel that is not used
(R410). DEDUCED: log 96. -/
def offAnswer (k : PageKind) (off : Nat) : Bool := decide (k = .drc) && decide (off = 0x100)

/-- The clock domain of a page is SAMPLE (page index). -/
def sampleDomain (pg : Nat) : Bool :=
  match pageIndex pg with
  | none => false
  | some (k, _, _) =>
    match k with
    | .mtb | .lpt | .erg | .ergx | .nmap | .txs | .mac | .flt | .dwl | .sns | .exc | .dec | .loop => true
    | _ => false

/-! ## Shadow values and COMMIT (R45) -/

/-- The shadow value of a register: what an RWS write has stored since the last apply, else the active value (R11). -/
def State.shadowReg (s : State) (pg off : Nat) : Word := (Tab.find? s.shadow (addrOf pg off)).getD (s.reg pg off)

/-- The shadow value of a field. -/
def State.sget (s : State) (pg : Nat) (f : Fld) : Nat := f.of (s.shadowReg pg f.off)

/-- The shadow value of a one-bit field. -/
def State.sflag (s : State) (pg : Nat) (f : Fld) : Bool := decide (s.sget pg f ≠ 0)

/-- Entries of a table that belong to a page and whose page offset satisfies `p`. -/
def inPage (pg : Nat) (p : Nat → Bool) (a : Nat) : Bool := decide (a / 4096 = pg) && p (a % 4096)

/-- The page has shadow values that wait. -/
def State.hasShadow (s : State) (pg : Nat) : Bool := s.shadow.any fun e => decide (e.1 / 4096 = pg)

/-- Moves the shadow values of a page at offsets `p` into the active registers. -/
def State.applyShadow (pg : Nat) (p : Nat → Bool) (s : State) : State :=
  let moved := s.shadow.filter fun e => inPage pg p e.1
  { s with regs := moved.foldl (fun r e => Tab.set resetWord r e.1 e.2) s.regs
           shadow := Tab.drop (inPage pg p) s.shadow }

/-- An armed set has been applied at tick `t`: the page is CLEAN, TICK holds the low bits of `t` (R20), APPLY_CNT advances,
COMMIT_APPLIED sets (R45). -/
def State.markAppliedAt (t pg : Nat) (s : State) : State :=
  (((((s.put pg CFG.PENDING 0).put pg CFG.ARMED 0).put pg CFG.TICK t).put pg CFG.APPLY_CNT
    (s.get pg CFG.APPLY_CNT + 1))).event pg CMN.EV_COMMIT_APPLIED

/-- An armed set has been applied at the present tick. -/
def State.markApplied (pg : Nat) (s : State) : State := s.markAppliedAt s.time pg

/-- A safe point at tick `t` for the armed fields at offsets `p` of a page: they become active, and once no shadow value of the
set waits the page is CLEAN (R20, R45). -/
def State.safePartAt (t pg : Nat) (p : Nat → Bool) (s : State) : State :=
  if s.flag pg CFG.ARMED then
    let s := s.applyShadow pg p
    if s.hasShadow pg then s else s.markAppliedAt t pg
  else s

/-- A safe point at the present tick. -/
def State.safePart (pg : Nat) (p : Nat → Bool) (s : State) : State := s.safePartAt s.time pg p

/-- A safe point for the whole page. -/
def State.safeAll (pg : Nat) (s : State) : State := s.safePart pg fun _ => true

/-- A COMMIT of a consistent set is accepted: the page is ARMED, and CFG_ERR is cleared (R45). -/
def State.arm (pg : Nat) (s : State) : State :=
  ((s.put pg CFG.ARMED 1).put pg CFG.PENDING 1).put pg CFG.CFG_ERR 0

/-- Drops every shadow value of the page: shadow equals active, the page is CLEAN (R45). -/
def State.discard (pg : Nat) (s : State) : State :=
  let s : State := { s with shadow := Tab.drop (inPage pg fun _ => true) s.shadow }
  ((s.put pg CFG.ARMED 0).put pg CFG.PENDING 0).put pg CFG.CFG_ERR 0

/-! ## Resetting a page -/

/-- Page offsets whose contents SOFT_RESET and power-on return to reset: status, events, error detail, counters and
RO tables; configuration (RW and RWS fields) and the common CTRL, CFG_STATE, EVENT_EN and ERR_DETAIL stay (R44, R47). -/
def statusOffset (k : PageKind) (off : Nat) : Bool :=
  if off = CMN.EVENTS then true
  else if off < 0x10 ∨ off = CMN.EVENT_EN ∨ off = CMN.ERR_DETAIL then false
  else (fieldsAt k off).all fun e => decide (e.1.acc ≠ .rw) && decide (e.1.acc ≠ .rws)

/-- Status, events, counters and counter snapshots of a page return to reset. -/
def State.clearStatus (pg : Nat) (s : State) : State :=
  match pageIndex pg with
  | none => s
  | some (k, _, _) =>
    { s with regs := Tab.drop (inPage pg (statusOffset k)) s.regs,
             snap := Tab.drop (inPage pg fun _ => true) s.snap }

/-- Every register of a page, its shadow and its snapshot return to reset. -/
def State.clearPage (pg : Nat) (s : State) : State :=
  { s with regs := Tab.drop (inPage pg fun _ => true) s.regs
           shadow := Tab.drop (inPage pg fun _ => true) s.shadow
           snap := Tab.drop (inPage pg fun _ => true) s.snap }

/-! ## DRAM -/

/-- A byte of DRAM; a byte that nothing has written reads 0. -/
def State.dramByte (s : State) (a : Nat) : Byte := Tab.get (fun _ => 0) s.dram a

/-- Stores bytes in DRAM from address `a` upward. -/
def State.dramStore (a : Nat) (bs : List Byte) (s : State) : State :=
  { s with dram := (bs.zipIdx).foldl (fun m e => Tab.set (fun _ => 0) m (a + e.2) e.1) s.dram }

/-- The little-endian word of DRAM at address `a`. -/
def State.dramWord (s : State) (a : Nat) : Word :=
  BitVec.ofNat 32 (leNat ((List.range 4).map fun i => s.dramByte (a + i)))

/-- Usable DRAM capacity in bytes (DRC0.CAPACITY_MIB, R409). -/
def State.dramCapacity (s : State) : Nat := s.get (Pg.DRC 0) DRC.CAPACITY_MIB * 2 ^ 20

/-- The lowest enabled region-table entry of the given KIND: its index (R412). -/
def State.regionOf (s : State) (kind : Nat) : Option Nat :=
  (List.range 32).find? fun r =>
    s.flag (Pg.DRC 0) (DRC.EN.nth r) && decide (s.get (Pg.DRC 0) (DRC.KIND.nth r) = kind)

/-- Base address in bytes of a region entry. -/
def State.regionBase (s : State) (r : Nat) : Nat := s.get (Pg.DRC 0) (DRC.BASE.nth r) * 65536

/-- Size in bytes of a region entry. -/
def State.regionSize (s : State) (r : Nat) : Nat := s.get (Pg.DRC 0) (DRC.SIZE.nth r) * 65536

/-- Bytes of data a region holds: the whole of it, or 7/8 with ECC (R415, R454). -/
def State.regionData (s : State) (r : Nat) : Nat :=
  if s.flag (Pg.DRC 0) (DRC.ECC.nth r) then s.regionSize r / 8 * 7 else s.regionSize r

/-- The region entry that holds a byte address. -/
def State.regionAt (s : State) (a : Nat) : Option Nat :=
  (List.range 32).find? fun r =>
    s.flag (Pg.DRC 0) (DRC.EN.nth r) && decide (s.regionBase r ≤ a) && decide (a < s.regionBase r + s.regionSize r)

/-! ## Where sensing still finds an activity (R197, R199) -/

/-- Notes an activity on a band that ended at `t`; those of the last 1 ms are kept. -/
def State.noteEnd (p centre rate : Nat) (guarded : Bool) (t : Nat) (s : State) : State :=
  let keep := s.mac.ended.filter fun x => decide (s.time < x.at_ + 2048)
  { s with mac := { s.mac with ended := ⟨p, centre, rate, guarded, t⟩ :: keep } }

/-- The binary digits of a square root, from digit `b − 1` down. -/
def sqrtGo : Nat → Nat → Nat → Nat
  | 0, _, r => r
  | b + 1, n, r => sqrtGo b n (if (r + 2 ^ b) * (r + 2 ^ b) ≤ n then r + 2 ^ b else r)

/-- The square root of a number below 2^64, rounded down. -/
def natSqrt (n : Nat) : Nat := sqrtGo 32 n 0

end Sys2Proof.Machine
end

