-- ==== Sys2Proof/Machine/Flags.lean ====
section
/-! DEFINITION. Flags that gather the state of the pages: EVENT_SUMMARY and FAULT_SUMMARY (R50, R63), active delivery
rings (R270), pending vectors and their MSI messages (R60 to R62), and `finish`, which every command ends with. -/
namespace Sys2Proof.Machine

/-- The EVENT_SUMMARY line of a page's group (02_host_interface_and_pages.md, EVENT_SUMMARY lines). -/
def groupOf (pg : Nat) : Nat :=
  match pageIndex pg with
  | none => 31
  | some (k, _, _) =>
    match k with
    | .glb => 0 | .hif => 1 | .clk => 2 | .rst => 2 | .oas => 3 | .pwd0 => 3 | .pwd1 => 3 | .mtb => 4 | .lpt => 5
    | .erg => 6 | .ergx => 6 | .trl => 7 | .nmap => 8 | .txs => 9 | .mac => 10 | .flt => 10 | .dwl => 10 | .mir => 11
    | .wad => 12 | .wqd => 12 | .lnk => 13 | .sns => 14 | .exc => 14 | .dec => 15 | .loop => 16 | .crc => 17
    | .uart => 18 | .cav => 19 | .sec => 20 | .key => 20 | .mrm => 20 | .drc0 => 21 | .drc => 21 | .drw => 21
    | .seif => 22

/-- A page asserts its line: EVENTS AND EVENT_EN is non-zero (R50), while its power domain is on (R15). -/
def State.lineOf (s : State) (pg : Nat) : Bool :=
  decide ((s.reg pg CMN.EVENTS &&& s.reg pg CMN.EVENT_EN) ≠ 0) && s.pageOn pg

/-- GLB.EVENT_SUMMARY: the pages whose EVENT_EN is listed are the only ones that can assert a line. -/
def State.eventSummary (s : State) : Nat :=
  s.regs.foldl (fun acc e =>
    if e.1 % 4096 = CMN.EVENT_EN ∧ s.lineOf (e.1 / 4096) = true then acc ||| 2 ^ groupOf (e.1 / 4096) else acc) 0

/-- What one listed register contributes to FAULT_SUMMARY (R63): port faults, sense wiring, loops, UARTs, the orphan
state until the slave is CONNECTED again (R389), and unacknowledged DRAM errors. -/
def faultOfEntry (a : Nat) (w : Word) : Nat :=
  match pageIndex (a / 4096) with
  | none => 0
  | some (k, _, _) =>
    let off := a % 4096
    match k with
    | .lpt => if off = 0x100 ∧ (LPT.STATE.of w = 3 ∨ LPT.STATE.of w = 4) then 1 else 0
    | .sns => if off = 0x180 ∧ w ≠ 0 then 2 else 0
    | .loop => if (off = 0x100 ∨ off = 0x110) ∧ LOOP.WIRE.of w ≠ 0 then 4 else 0
    | .uart => if off = 0x100 ∧ UART.LINE_STUCK.of w ≠ 0 then 8 else 0
    | .cav => if off = 0x100 ∧ (CAV.STATE.of w = 3 ∨ CAV.STATE.of w = 4) then 16 else 0
    | .drc0 => if off = 0x200 ∧ DRC.EV_UE.of w ≠ 0 then 32 else 0
    | .drc => if off = 0x200 ∧ DRC.EV_UE.of w ≠ 0 then 32 else 0
    | _ => 0

/-- GLB.FAULT_SUMMARY, the live OR of the fault states (R63). -/
def State.faultSummary (s : State) : Nat :=
  let pages := s.regs.foldl (fun acc e => acc ||| faultOfEntry e.1 e.2) 0
  let lvl := s.get Pg.OAS OAS.LEVEL
  let why := s.get Pg.OAS OAS.REASON
  let thermal := if 0 < lvl ∧ (why = 1 ∨ why = 2 ∨ why = 5 ∨ why = 7) then 64 else 0
  let fw := s.get Pg.LNK LNK.FW_STATE
  let lnk := if fw = 0 ∨ fw = 3 then 128 else 0
  let tb := s.get Pg.MTB MTB.STATE
  let timebase := if tb = 2 ∨ tb = 3 then 0 else 256
  let clock := if s.clk.sclkFailed then 512 else 0
  pages ||| thermal ||| lnk ||| timebase ||| clock

/-- The delivery ring n. -/
def State.ring (s : State) (n : Nat) : Ring := Tab.get (fun _ => Ring.idle) s.wad.rings n

/-- A ring is active for interrupts (R270). -/
def State.ringActive (s : State) (n : Nat) : Bool :=
  let r := s.ring n
  if n = 0 then decide (r.recs ≠ [])
  else decide (r.recs ≠ []) &&
    (decide (s.get Pg.WAD (WAD.INT_THRESH.nth n) ≤ r.recs.length)
      || (decide (s.get Pg.WAD (WAD.INT_HOLD_US.nth n) ≠ 0)
        && r.recs.any fun e => decide (usTicks (s.get Pg.WAD (WAD.INT_HOLD_US.nth n)) ≤ s.time - e.at_)))

/-- Active interrupt sources: bit n for ring n, bit 64 + g for group g. Only listed rings can hold a record. -/
def State.activeSources (s : State) : Nat :=
  s.wad.rings.foldl (fun acc e => if s.ringActive e.1 then acc ||| 2 ^ e.1 else acc) 0 ||| s.eventSummary * 2 ^ 64

/-- The vector of an interrupt source (R60). -/
def State.vectorOf (s : State) (src : Nat) : Nat :=
  if src = 0 then 0
  else if src < 64 then s.get Pg.HIF (HIF.RING_VEC.nth (src - 1))
  else s.get Pg.HIF (HIF.GROUP_VEC.nth (src - 64))

/-- MSI data of vector v with 2 ^ `log2` vectors granted (R60). -/
def msiData (log2 v : Nat) : Nat :=
  let m := 2 ^ log2
  if v = 0 ∨ m = 1 then 0 else 1 + (v - 1) % (m - 1)

/-- Sends the MSI message of a vector when MSI is enabled and the vector is unmasked in VEC_MASK and in the MSI mask
bits (R61). -/
def State.sendMsi (v : Nat) (s : State) : State :=
  if s.flag Pg.HIF HIF.LINK_MSI_EN ∧ bitOf (s.get Pg.HIF HIF.VEC_MASK) v = 0 ∧ bitOf s.host.msiMask v = 0 then
    { s with host := { s.host with msiSent := s.host.msiSent ++ [msiData (s.get Pg.HIF HIF.LINK_MSI_LOG2) v] } }
  else s

/-- Sets VEC_PEND bit v and sends its message when the bit was clear (R61). -/
def State.raiseVec (v : Nat) (s : State) : State :=
  let p := s.get Pg.HIF HIF.VEC_PEND
  if bitOf p v = 1 then s else (s.put Pg.HIF HIF.VEC_PEND (p ||| 2 ^ v)).sendMsi v

/-- INT_N is driven low while MSI is not enabled and an unmasked vector is pending (R62). -/
def State.intAsserted (s : State) : Bool :=
  !s.flag Pg.HIF HIF.LINK_MSI_EN &&
    decide (s.get Pg.HIF HIF.VEC_PEND &&& (0xFFFFFFFF ^^^ s.get Pg.HIF HIF.VEC_MASK) ≠ 0)

/-- Follows changes of FAULT_SUMMARY with FAULT_RISE and FAULT_FALL (R63). -/
def State.followFaults (s : State) : State :=
  let now := s.faultSummary
  let old := s.host.faults
  if now = old then s
  else
    let s := onlyIf (decide (now &&& old ≠ now)) (State.event Pg.GLB GLB.EV_FAULT_RISE) s
    let s := onlyIf (decide (now &&& old ≠ old)) (State.event Pg.GLB GLB.EV_FAULT_FALL) s
    { s with host := { s.host with faults := now } }

/-- Follows interrupt sources that became active with their vectors (R61). -/
def State.followSources (s : State) : State :=
  let now := s.activeSources
  let old := s.host.active
  if now = old then s
  else
    let new := now &&& (now ^^^ old)
    let s : State := { s with host := { s.host with active := now } }
    if new = 0 then s
    else forEach ((List.range 96).filter fun i => decide (bitOf new i = 1)) (fun i s => s.raiseVec (s.vectorOf i)) s

/-- Time outside LOCKED and HOLDOVER adds up for the guards of endpoints that are locked to mains (R214). -/
def State.followTimebase (s : State) : State :=
  let st := s.get Pg.MTB MTB.STATE
  let out := decide (st ≠ 2) && decide (st ≠ 3)
  match s.lnk.outSince with
  | none => if out then { s with lnk := { s.lnk with outSince := some s.time } } else s
  | some a =>
    if out then s else { s with lnk := { s.lnk with outTotal := s.lnk.outTotal + (s.time - a), outSince := none } }

/-- Ticks up to `t` that the timebase has spent outside LOCKED and HOLDOVER. -/
def State.outTicks (s : State) (t : Nat) : Nat :=
  s.lnk.outTotal + (match s.lnk.outSince with
    | some a => t - a
    | none => 0)

/-- What every command ends with: summaries and interrupts follow the new state. -/
def State.settle (s : State) : State := s.followFaults.followSources.followTimebase

/-- A command that has been carried out. -/
def finish (s : State) : Res := .next s.settle

/-- A command whose operands must satisfy a relation: the fault `badOperands` where they do not. -/
def wellFormedOr (c : Bool) (r : Res) : Res := if c then r else .fault .badOperands

end Sys2Proof.Machine
end

