-- ==== Sys2Proof/Machine/Dram.lean ====
section
/-! DEFINITION. Errors in DRAM (19_clocks_reset_memory.md, R411, R415 to R417): the channel of an address, and what a reader finds
where the code of an ECC region corrects or detects an error. -/
namespace Sys2Proof.Machine

/-- Active channels, lowest first. -/
def State.dramChannels (s : State) : List Nat :=
  (List.range 4).filter fun n => decide (bitOf (s.get (Pg.DRC 0) DRC.CHANNELS_ACTIVE) n = 1)

/-- The channel that holds a byte address: stripes of 256 bytes over the active channels (R411). -/
def State.channelOf (s : State) (a : Nat) : Nat :=
  let l := s.dramChannels
  l.getD (a / 256 % Nat.max 1 l.length) 0

/-- A correctable error at byte address `a` (R416): counted, its address recorded, and CE_ALERT when the hour's count reaches
the limit. -/
def State.dramCe (a : Nat) (s : State) : State :=
  let n := s.channelOf a
  let pg := Pg.DRC n
  let s := (((s.event pg DRC.EV_CE).count pg DRC.CE_CNT).put pg DRC.CE_ADDR_LO a).put pg DRC.CE_ADDR_HI (a / 2 ^ 32)
  let hour := s.time :: ((Tab.get (fun _ => []) s.clk.ceAt n).filter fun x => decide (s.time < x + 3600 * 2048000))
  let s : State := { s with clk := { s.clk with ceAt := Tab.set (fun _ => []) s.clk.ceAt n hour } }
  let lim := s.get (Pg.DRC 0) DRC.CE_ALERT
  let all := (s.clk.ceAt.map fun e => (e.2.filter fun x => decide (s.time < x + 3600 * 2048000)).length).sum
  onlyIf (decide (lim ≠ 0) && decide (lim ≤ all)) (State.event pg DRC.EV_CE_ALERT) s

/-- An uncorrectable error at byte address `a` (R417): the word is never written back. -/
def State.dramUe (a : Nat) (s : State) : State :=
  let pg := Pg.DRC (s.channelOf a)
  ((((s.event pg DRC.EV_UE).count pg DRC.UE_CNT).put pg DRC.UE_ADDR_LO a).put pg DRC.UE_ADDR_HI (a / 2 ^ 32))

/-- A word of an ECC region is read with an outcome of its code; a region without ECC detects nothing (R415 to R417). -/
def State.dramEcc (a : Nat) (e : EccResult) (s : State) : State :=
  match s.regionAt a with
  | none => s
  | some r =>
    if s.flag (Pg.DRC 0) (DRC.ECC.nth r) = false then s
    else match e with
      | .clean => s
      | .corrected => s.dramCe a
      | .uncorrectable => s.dramUe a

/-- Every address of a list was read with an uncorrectable error. -/
def State.dramUes (l : List Nat) (s : State) : State := forEach l (fun a s => s.dramEcc a .uncorrectable) s

/-- The kind of the ECC region that holds a byte address, and the address within the region's data. -/
def State.eccAt (s : State) (a : Nat) : Option (Nat × Nat) :=
  match s.regionAt a with
  | some r => if s.flag (Pg.DRC 0) (DRC.ECC.nth r) then some (s.get (Pg.DRC 0) (DRC.KIND.nth r), a - s.regionBase r) else none
  | none => none

end Sys2Proof.Machine
end

