-- ==== Sys2Proof/Machine/Credit.lean ====
section
/-! DEFINITION. Credits of Oasis (12_oasis_governor.md, R281 to R287): the cost table, the dispatched jobs and what they
commit, and the throttle level that the other blocks obey. -/
namespace Sys2Proof.Machine

/-- Entry i of the cost table (R287). -/
def State.cost (s : State) (i : Nat) : Nat := s.get Pg.OAS (OAS.COST.nth i)

/-- The throttle level whose actions are in force (R290, R294): LEVEL, or a higher one until the window boundary after a fall. -/
def State.level (s : State) : Nat := s.oas.act

/-- The level forbids transmissions of a class (R294): class 3 from L3, class 2 from L4, all at L5. -/
def State.throttled (s : State) (cls : Nat) : Bool :=
  decide (5 ≤ s.level) || (decide (4 ≤ s.level) && decide (2 ≤ cls)) || (decide (3 ≤ s.level) && decide (3 ≤ cls))

/-- Cost rates of running jobs that draw from the general credit, and of those charged to the reserve (R281, R285). -/
def State.committed (s : State) : Nat := ((s.oas.running.filter fun j => !j.reserve).map (·.rate)).sum
def State.c0Committed (s : State) : Nat := ((s.oas.running.filter fun j => j.reserve).map (·.rate)).sum

/-- Shows COMMITTED_MW, C0_COMMITTED_MW and FREE_MW. -/
def State.showCredit (s : State) : State :=
  ((s.put Pg.OAS OAS.COMMITTED_MW (sat 16 s.committed)).put Pg.OAS OAS.C0_COMMITTED_MW (sat 16 s.c0Committed)).put
    Pg.OAS OAS.FREE_MW (satSigned 16 s.oas.free)

/-- Ends the jobs that satisfy `p`, ready or running: FREE rises by the rates that it bore (R281). -/
def State.endJobs (p : Job → Bool) (s : State) : State :=
  let ended := s.oas.running.filter fun j => p j && !j.reserve
  let s : State := { s with oas := { s.oas with
    running := s.oas.running.filter fun j => !p j
    ready := s.oas.ready.filter fun j => !p j
    free := s.oas.free + ((ended.map (·.rate)).sum : Nat) } }
  s.showCredit

/-- Ends the jobs of a kind. -/
def State.endJob (k : JobKind) (s : State) : State := s.endJobs fun j => decide (j.kind = k)

/-- Adds a ready job unless one of its kind is ready or running. -/
def State.addJob (k : JobKind) (cls rate t : Nat) (s : State) : State :=
  if s.oas.ready.any (fun j => decide (j.kind = k)) || s.oas.running.any (fun j => decide (j.kind = k)) then s
  else { s with oas := { s.oas with ready := s.oas.ready ++ [⟨k, cls, rate, false, t, none, false⟩] } }

/-- A job of a kind is running. -/
def State.jobRunning (s : State) (k : JobKind) : Bool := s.oas.running.any fun j => decide (j.kind = k)

end Sys2Proof.Machine
end

