-- ==== Sys2Proof/Machine/Access.lean ====
section
/-! DEFINITION. A host access on its way to a page: pages whose power domain is off (R15), pages of a stopped SAMPLE domain
(R40, R401), and deep sleep (R297). -/
namespace Sys2Proof.Machine

/-- Stores what the last host read returned. -/
def State.answer (v : Word) (s : State) : State := { s with host := { s.host with rdata := v } }

/-- The YG256 is in deep sleep: nothing answers (R297). -/
def State.asleep (s : State) : Bool := s.clk.sleepAt.isSome

/-- No host access arrives: deep sleep, and a PCIe endpoint in D3hot (R28). -/
def State.unreachable (s : State) : Bool := s.asleep || (s.host.d3hot && !s.flag Pg.HIF HIF.LINK_HOST)

/-- The handshake into the clock domain of a page does not finish (R40). -/
def State.clockStopped (s : State) (pg : Nat) : Bool := s.clk.stopped && sampleDomain pg

/-- An abandoned handshake is counted (R40). -/
def State.xingTimeout (s : State) : State := (s.event Pg.HIF HIF.EV_XING_TIMEOUT).count Pg.HIF HIF.XING_TO_CNT

/-- A write to an unassigned page or BAR0 range is dropped and counted (R41). -/
def State.unmapped (s : State) : State := (s.event Pg.HIF HIF.EV_UNMAPPED).count Pg.HIF HIF.UNMAPPED_CNT

/-- A host write that reaches a page acts as `f`; otherwise it is dropped and counted. -/
def State.pageWrite (pg : Nat) (f : State → State) (s : State) : State :=
  if s.unreachable then s
  else if s.pageOn pg = false then s.count Pg.HIF HIF.OFF_DOMAIN_CNT
  else if s.clockStopped pg then s.xingTimeout
  else f s

/-- A host read that reaches a page acts as `f`; a page that is off reads 0, and one whose clock has stopped all ones. -/
def State.pageRead (pg : Nat) (f : State → State) (s : State) : State :=
  if s.unreachable then s
  else if s.pageOn pg = false then s.answer 0
  else if s.clockStopped pg then s.xingTimeout.answer 0xFFFFFFFF
  else f s

/-- The SAMPLE domain loses SCLK_IN (R401): with FAILOVER_EN it runs on from the fallback synthesiser, otherwise it stops. -/
def State.sclkLost (s : State) : State :=
  if s.flag Pg.CLK CLK.FAILOVER_EN then (s.put Pg.CLK CLK.SAMPLE_SRC 2).event Pg.CLK CLK.EV_FAILOVER
  else { s with clk := { s.clk with stopped := true } }

end Sys2Proof.Machine
end

