-- ==== Sys2Proof/Machine/SeifAlu.lean ====
section
/-! DEFINITION. Arithmetic of the Seif cores (16_seif_instruction_set.md, R336, R353 to R365): the fields of an instruction
word, conditions, narrowing, and what every compute operation makes of its operands. -/
namespace Sys2Proof.Machine

/-! ## Fields of an instruction word (R353 to R356) -/

/-- Bits `lsb` upward of an instruction word. -/
def seifBits (w : BitVec 64) (lsb n : Nat) : Nat := w.toNat / 2 ^ lsb % 2 ^ n

def seifOp (w : BitVec 64) : Nat := seifBits w 57 7
def seifCond (w : BitVec 64) : Nat := seifBits w 53 4
def seifDd (w : BitVec 64) : Nat := seifBits w 49 4
def seifDa (w : BitVec 64) : Nat := seifBits w 45 4
def seifDb (w : BitVec 64) : Nat := seifBits w 41 4
def seifAc (w : BitVec 64) : Nat := seifBits w 39 2
def seifAx (w : BitVec 64) : Nat := seifBits w 37 2
def seifImm7 (w : BitVec 64) : Int := signed 7 (seifBits w 32 7)
def seifReg (w : BitVec 64) : Nat := seifBits w 47 6
def seifImm (w : BitVec 64) : Nat := seifBits w 0 32
def seifXMove (w : BitVec 64) : Nat := seifBits w 16 16
def seifYMove (w : BitVec 64) : Nat := seifBits w 0 16

/-- W-format words carry control operations (R353). -/
def seifWide (w : BitVec 64) : Bool := decide (1 ≤ seifOp w) && decide (seifOp w ≤ 0x0F)

/-- Fields of a move slot (R356). -/
def moveKind (m : Nat) : Nat := m / 0x4000
def moveReg (m : Nat) : Nat := m / 0x100 % 0x40
def movePtr (m : Nat) : Nat := m / 0x40 % 4
def moveForm (m : Nat) : Nat := m / 8 % 8
def moveMod (m : Nat) : Nat := m % 8

/-- The operations of R361 to R365. -/
def seifAssigned (op : Nat) : Bool :=
  decide (op = 0) || (decide (1 ≤ op) && decide (op ≤ 0x0B)) || (decide (0x10 ≤ op) && decide (op ≤ 0x25)) ||
    (decide (0x30 ≤ op) && decide (op ≤ 0x35)) || (decide (0x40 ≤ op) && decide (op ≤ 0x53))

/-- JMP, CALL, RET, RETI, DO, DOR, WAIT: the instruction after them is a delay slot; they and STOP must not stand in
one (R342, R359, R365). -/
def seifHasSlot (op : Nat) : Bool := decide (1 ≤ op) && decide (op ≤ 7)
def seifNoSlot (op : Nat) : Bool := decide (1 ≤ op) && decide (op ≤ 8)

/-- A move slot that R359 forbids: an unassigned register code in a LOAD or STORE, or FORM 6 or 7. -/
def moveBad (m : Nat) : Bool :=
  ((decide (moveKind m = 1) || decide (moveKind m = 2)) && decide (0x3A ≤ moveReg m)) ||
    (decide (moveKind m ≠ 0) && decide (6 ≤ moveForm m))

/-- An illegal instruction word, wherever it stands (R359). -/
def seifIllegal (w : BitVec 64) : Bool :=
  let op := seifOp w
  let x := seifXMove w
  let y := seifYMove w
  let wide := seifWide w
  !seifAssigned op || decide (seifCond w = 15) ||
    ((decide (op = 5) || decide (op = 6)) && decide (seifCond w ≠ 0)) ||
    (decide (op = 6) && decide (16 ≤ seifReg w)) ||
    (!wide && (moveBad x || moveBad y ||
      (decide (moveKind x = 1) && decide (moveKind y = 1) && decide (moveReg x = moveReg y)) ||
      ((decide (op = 0x50) || decide (op = 0x52)) && decide (moveKind x = 0)) ||
      ((decide (op = 0x51) || decide (op = 0x53)) && decide (moveKind y = 0)) ||
      (decide (op = 0x4C) && (decide (seifImm7 w < -32) || decide (31 < seifImm7 w)))))

/-- An instruction word is illegal where it stands: in itself, or as a branch, WAIT or STOP in a delay slot (R359). -/
def seifIllegalAt (slot : Bool) (w : BitVec 64) : Bool := seifIllegal w || (slot && seifNoSlot (seifOp w))

/-! ## ST (R335, R357) -/

def ST.Z : Nat := 1
def ST.N : Nat := 2
def ST.C : Nat := 4
def ST.V : Nat := 8
def ST.SV : Nat := 16
def ST.OUT_OF_WINDOW : Nat := 32
def ST.BITREV_INVALID : Nat := 64
def ST.SAT : Nat := 256
def ST.IE : Nat := 512
def ST.LA0 : Nat := 1024
def ST.LA1 : Nat := 2048
/-- The bits of ST that are not reserved. -/
def ST.mask : Nat := 0xF7F

/-- A bit of ST, given by its weight. -/
def stBit (st : Word) (m : Nat) : Bool := decide (st.toNat / m % 2 = 1)

/-- The condition of COND (R357). -/
def seifCondition (cond : Nat) (st : Word) : Bool :=
  let z := stBit st ST.Z
  let n := stBit st ST.N
  let v := stBit st ST.V
  match cond with
  | 0 => true
  | 1 => z
  | 2 => !z
  | 3 => n != v
  | 4 => n == v
  | 5 => z || (n != v)
  | 6 => !z && (n == v)
  | 7 => stBit st ST.C
  | 8 => !stBit st ST.C
  | 9 => v
  | 10 => !v
  | 11 => n
  | 12 => !n
  | 13 => stBit st ST.SV
  | 14 => !stBit st ST.SV
  | _ => false

/-! ## Results -/

/-- An exact value narrowed to `w` bits (R336): the written value, and whether the exact value lay beyond the range. -/
def seifNarrow (w : Nat) (sat : Bool) (v : Int) : Nat × Bool :=
  let ovf := decide (v < -(2 ^ (w - 1) : Nat)) || decide ((2 ^ (w - 1) : Nat) ≤ v)
  (if ovf && sat then satSigned w v else unsigned w v, ovf)

/-- What a compute operation writes: its D result, the halves of An, whether IX takes the move's address, the ST bits that
it writes and their values, and whether the carry is a value that the spec leaves open. -/
structure SeifOut where
  d : Option Nat
  re : Option Nat
  im : Option Nat
  ix : Option Nat
  flagMask : Nat
  flags : Nat
  freeC : Bool
deriving DecidableEq, Repr

/-- Nothing written. -/
def SeifOut.none_ : SeifOut := ⟨none, none, none, none, 0, 0, false⟩

/-- Z and N of a 32-bit result (R360). -/
def flagsZN (r : Nat) : Nat := (if r % 2 ^ 32 = 0 then ST.Z else 0) + (if 2 ^ 31 ≤ r % 2 ^ 32 then ST.N else 0)

/-- V, with SV whenever V is set (R360). -/
def flagsV (ovf : Bool) : Nat := if ovf then ST.V + ST.SV else 0

/-- The bits that V writes: SV only where it is set. -/
def maskV (ovf : Bool) : Nat := if ovf then ST.V + ST.SV else ST.V

/-- A logical or moved 32-bit result: ZN, C = 0, V = 0. -/
def outZN (r : Nat) : SeifOut :=
  { SeifOut.none_ with d := some r, flagMask := ST.Z + ST.N + ST.C + ST.V, flags := flagsZN r }

/-- A 32-bit arithmetic result from its exact value and carry: ZNCV. -/
def outZNCV (sat : Bool) (exact : Int) (carry : Bool) : SeifOut :=
  let (r, ovf) := seifNarrow 32 sat exact
  { SeifOut.none_ with
    d := some r, flagMask := ST.Z + ST.N + ST.C + maskV ovf
    flags := flagsZN r + (if carry then ST.C else 0) + flagsV ovf }

/-- A result with its overflow, C = 0: ZNV. -/
def outZNV (r : Nat) (ovf : Bool) : SeifOut :=
  { SeifOut.none_ with d := some r, flagMask := ST.Z + ST.N + ST.C + maskV ovf, flags := flagsZN r + flagsV ovf }

/-- A complex word from its halves, each narrowed to 16 bits (R362). -/
def outComplex (sat : Bool) (i q : Int) : SeifOut :=
  let (ri, oi) := seifNarrow 16 sat i
  let (rq, oq) := seifNarrow 16 sat q
  outZNV (ri + 0x10000 * rq) (oi || oq)

/-- Accumulator halves narrowed to 40 bits, with V (R363); a half that is none keeps its value. -/
def outAcc (sat : Bool) (re im : Option Int) : SeifOut :=
  let nr := re.map (seifNarrow 40 sat)
  let ni := im.map (seifNarrow 40 sat)
  let ovf := (nr.map (·.2)).getD false || (ni.map (·.2)).getD false
  { SeifOut.none_ with re := nr.map (·.1), im := ni.map (·.1), flagMask := maskV ovf, flags := flagsV ovf }

/-- Left shift by `s` (ASL): C is the last bit shifted out, open where nothing is shifted out. -/
def outAsl (sat : Bool) (a : Nat) (s : Nat) : SeifOut :=
  let o := outZNCV sat (signed 32 a * (2 ^ s : Nat)) (decide (0 < s ∧ a / 2 ^ (32 - s) % 2 = 1))
  { o with freeC := decide (s = 0) }

/-- Arithmetic or logical right shift by `s`: V = 0, C the last bit shifted out. -/
def outShr (arith : Bool) (a : Nat) (s : Nat) : SeifOut :=
  let v : Int := if arith then signed 32 a else (a : Int)
  let last := decide (0 < s) && decide (unsigned 1 (v / (2 ^ (s - 1) : Nat)) = 1)
  let r := unsigned 32 (v / (2 ^ s : Nat))
  { SeifOut.none_ with
    d := some r, flagMask := ST.Z + ST.N + ST.C + ST.V, flags := flagsZN r + (if last then ST.C else 0)
    freeC := decide (s = 0) }

/-- Redundant sign bits of a word (NORM): 31 for 0 and −1. -/
def normBits (a : Nat) : Nat :=
  ((List.range 31).takeWhile fun i => decide (a / 2 ^ (30 - i) % 2 = a / 2 ^ 31 % 2)).length

/-- What compute operation `op` makes of its operands (R361 to R364): `sat` is ST.SAT; `a` and `b` the D operands; `re`,
`im` the halves of An and `xre`, `xim` those of the second accumulator, as signed numbers; `q` the signed IMM7; `addr` the
address of the search's move. -/
def seifCompute (op : Nat) (sat : Bool) (a b : Nat) (re im xre xim : Int) (q : Int) (addr : Nat) : SeifOut :=
  let sa := signed 32 a
  let sb := signed 32 b
  let ai := signed 16 a
  let aq := signed 16 (a / 2 ^ 16)
  let bi := signed 16 b
  let bq := signed 16 (b / 2 ^ 16)
  let count := unsigned 5 q
  match op with
  | 0x10 => outZN a
  | 0x11 => outZN 0
  | 0x12 => outZNCV sat (sa + sb) (decide (2 ^ 32 ≤ a + b))
  | 0x13 => outZNCV sat (sa - sb) (decide (b ≤ a))
  | 0x14 => outZNCV sat (sa + q) (decide (2 ^ 32 ≤ a + unsigned 32 q))
  | 0x15 => outZNCV sat (-sa) (decide (a = 0))
  | 0x16 => outZNCV sat (if sa < 0 then -sa else sa) false
  | 0x17 => outZN (if sb < sa then b else a)
  | 0x18 => outZN (if sa < sb then b else a)
  | 0x19 => { outZNCV sat (sa - sb) (decide (b ≤ a)) with d := none }
  | 0x1A => { outZN a with d := none }
  | 0x1B => outZN (a &&& b)
  | 0x1C => outZN (a ||| b)
  | 0x1D => outZN (a ^^^ b)
  | 0x1E => outZN (2 ^ 32 - 1 - a)
  | 0x1F => outAsl sat a count
  | 0x20 => outShr true a count
  | 0x21 => outShr false a count
  | 0x22 =>
    let n := signed 6 b
    if n < 0 then outShr true a n.natAbs else outAsl sat a n.toNat
  | 0x23 => outZN (normBits a)
  | 0x24 => outZN (unsigned 32 ai)
  | 0x25 =>
    let (r, ovf) := seifNarrow 32 sat (2 * (ai * bi))
    outZNV r ovf
  | 0x30 => outComplex sat (ai + bi) (aq + bq)
  | 0x31 => outComplex sat (ai - bi) (aq - bq)
  | 0x32 => outComplex sat ai (-aq)
  | 0x33 => outComplex sat (-aq) ai
  | 0x34 => outZN (a / 2 ^ 16 % 2 ^ 16 + 0x10000 * (b / 2 ^ 16 % 2 ^ 16))
  | 0x35 =>
    let n := unsigned 4 q
    outZN (unsigned 16 (ai / (2 ^ n : Nat)) + 0x10000 * unsigned 16 (aq / (2 ^ n : Nat)))
  | 0x40 => outAcc sat (some 0) (some 0)
  | 0x41 => outAcc sat (some sa) (some sb)
  | 0x42 => outAcc sat (some (re + 2 * (ai * bi))) none
  | 0x43 => outAcc sat (some (re - 2 * (ai * bi))) none
  | 0x44 => outAcc sat (some (re + 2 * (ai * bi))) (some (im + 2 * (aq * bq)))
  | 0x45 => outAcc sat (some (2 * (ai * bi - aq * bq))) (some (2 * (ai * bq + aq * bi)))
  | 0x46 => outAcc sat (some (re + 2 * (ai * bi - aq * bq))) (some (im + 2 * (ai * bq + aq * bi)))
  | 0x47 => outAcc sat (some (re + 2 * (ai * bi + aq * bq))) (some (im + 2 * (aq * bi - ai * bq)))
  | 0x48 => outAcc sat (some (re - 2 * (ai * bi - aq * bq))) (some (im - 2 * (ai * bq + aq * bi)))
  | 0x49 => outAcc sat (some (re + 2 * (ai * ai + aq * aq))) none
  | 0x4A => outAcc sat (some (re + xre)) (some (im + xim))
  | 0x4B => outAcc sat (some (re - xre)) (some (im - xim))
  | 0x4C =>
    if q < 0 then outAcc sat (some (re / (2 ^ q.natAbs : Nat))) (some (im / (2 ^ q.natAbs : Nat)))
    else outAcc sat (some (re * (2 ^ q.toNat : Nat))) (some (im * (2 ^ q.toNat : Nat)))
  | 0x4D =>
    let (r, ovf) := seifNarrow 32 sat re
    outZNV r ovf
  | 0x4E =>
    let (r, ovf) := seifNarrow 32 sat im
    outZNV r ovf
  | 0x4F =>
    let (r, oi) := seifNarrow 32 sat re
    let (j, oq) := seifNarrow 32 sat im
    outZNV (r / 2 ^ 16 + 0x10000 * (j / 2 ^ 16)) (oi || oq)
  | 0x50 => if re < sa then { SeifOut.none_ with re := some (unsigned 40 sa), ix := some addr } else SeifOut.none_
  | 0x51 => if re < sa then { SeifOut.none_ with re := some (unsigned 40 sa), ix := some addr } else SeifOut.none_
  | 0x52 => if sa < re then { SeifOut.none_ with re := some (unsigned 40 sa), ix := some addr } else SeifOut.none_
  | 0x53 => if sa < re then { SeifOut.none_ with re := some (unsigned 40 sa), ix := some addr } else SeifOut.none_
  | _ => SeifOut.none_

/-- Multiply-accumulates, and searches: the classes between which An reaches EX2 by the feedback path (R340, R364). -/
def seifFeedClass (op : Nat) : Nat :=
  if 0x42 ≤ op ∧ op ≤ 0x49 ∧ op ≠ 0x45 then 1 else if 0x50 ≤ op ∧ op ≤ 0x53 then 2 else 0

/-! ## Addressing (R337 to R339) -/

/-- A stepped update (R338): the new pointer, and whether it lies outside its window. -/
def stepPtr (p b l : Nat) (step : Int) : Nat × Bool :=
  let next := (p : Int) + step
  if l = 0 then (unsigned 14 next, false)
  else
    let next := if ((b + l : Nat) : Int) ≤ next then next - l else if next < (b : Int) then next + l else next
    (unsigned 14 next, decide (next < (b : Int)) || decide (((b + l : Nat) : Int) ≤ next))

/-- L is a power of two from 2 to 16,384. -/
def revLength (l : Nat) : Bool := (List.range 14).any fun i => decide (l = 2 ^ (i + 1))

/-- What a move's address form does (R337): the address, the updated pointer, and the sticky bits that it sets. -/
def formAddress (form p b l : Nat) (m : Int) : Nat × Nat × Nat :=
  let stepped (step : Int) : Nat × Nat :=
    let (n, out) := stepPtr p b l step
    (n, if out then ST.OUT_OF_WINDOW else 0)
  match form with
  | 0 => (p, p, 0)
  | 1 => let (n, st) := stepped 1; (p, n, st)
  | 2 => let (n, st) := stepped (-1); (p, n, st)
  | 3 => let (n, st) := stepped (-1); (n, n, st)
  | 4 => let (n, st) := stepped m; (p, n, st)
  | _ =>
    if revLength l && decide (b % l = 0) then
      let n := Nat.log2 l
      let off := unsigned 14 ((p : Int) - (b : Int)) % l
      (p, (b + revBits n ((revBits n off + revBits n (m % (l : Int)).toNat) % l)) % 16384, 0)
    else let (n, st) := stepped m; (p, n, st + ST.BITREV_INVALID)

/-! ## Move registers (R334, R356) -/

/-- The move-register codes. -/
def MR.P : Nat := 0x10
def MR.M : Nat := 0x18
def MR.B : Nat := 0x20
def MR.L : Nat := 0x28
def MR.LC (i : Nat) : Nat := 0x30 + 3 * i
def MR.LS (i : Nat) : Nat := 0x31 + 3 * i
def MR.LE (i : Nat) : Nat := 0x32 + 3 * i
def MR.IX : Nat := 0x36
def MR.ST : Nat := 0x37
def MR.IPC : Nat := 0x38
def MR.IST : Nat := 0x39

/-- A 32-bit source as a move register holds it: narrow registers take the low bits, and M reads back sign-extended. -/
def narrowReg (code : Nat) (v : Nat) : Word :=
  if code < 0x10 then BitVec.ofNat 32 v
  else if code < 0x18 then BitVec.ofNat 32 (v % 2 ^ 14)
  else if code < 0x20 then BitVec.ofNat 32 (unsigned 32 (signed 16 v))
  else if code < 0x28 then BitVec.ofNat 32 (v % 2 ^ 14)
  else if code < 0x30 then BitVec.ofNat 32 (v % 2 ^ 15)
  else if code = 0x30 ∨ code = 0x33 then BitVec.ofNat 32 (v % 2 ^ 16)
  else if code < 0x36 then BitVec.ofNat 32 (v % 2 ^ 12)
  else if code = 0x36 then BitVec.ofNat 32 (v % 2 ^ 14)
  else if code = 0x37 then BitVec.ofNat 32 (v &&& ST.mask)
  else if code = 0x38 then BitVec.ofNat 32 (v % 2 ^ 12)
  else BitVec.ofNat 32 v

/-- A register of a core. -/
def SeifCore.reg (c : SeifCore) (code : Nat) : Word := Tab.get (fun _ => (0 : Word)) c.r code

/-- Writes a register; codes that are not assigned take nothing. -/
def SeifCore.setReg (code : Nat) (v : Nat) (c : SeifCore) : SeifCore :=
  if 0x3A ≤ code then c else { c with r := Tab.set (fun _ => (0 : Word)) c.r code (narrowReg code v) }

/-- Half `i` of the accumulators: AnR under 2n, AnI under 2n + 1. -/
def SeifCore.half (c : SeifCore) (i : Nat) : BitVec 40 := Tab.get (fun _ => (0 : BitVec 40)) c.acc i

/-- Writes a half. -/
def SeifCore.setHalf (i : Nat) (v : Nat) (c : SeifCore) : SeifCore :=
  { c with acc := Tab.set (fun _ => (0 : BitVec 40)) c.acc i (BitVec.ofNat 40 v) }

/-- ST of a core. -/
def SeifCore.st (c : SeifCore) : Word := c.reg MR.ST

/-- Replaces the bits of ST under a mask. -/
def SeifCore.mergeSt (mask v : Nat) (c : SeifCore) : SeifCore :=
  c.setReg MR.ST ((c.st.toNat &&& (0xFFFFFFFF ^^^ mask)) ||| (v &&& mask))

end Sys2Proof.Machine
end

