-- ==== Sys2Proof/Machine/Seif.lean ====
section
/-! DEFINITION. A Seif core (15_seif_programming_model.md): its memories and port words, the pipeline of R340 stage by stage,
hardware loops, interrupts, the states of R349, the customer partition and the commands of its page. -/
namespace Sys2Proof.Machine

/-- Core k. -/
def State.core (s : State) (k : Nat) : SeifCore := Tab.get (fun _ => SeifCore.idle) s.seif k

/-- Replaces core k. -/
def State.setCore (k : Nat) (c : SeifCore) (s : State) : State :=
  { s with seif := Tab.set (fun _ => SeifCore.idle) s.seif k c }

/-- STATE of a core (R349). -/
def XS.OFF : Nat := 0
def XS.HALTED : Nat := 1
def XS.START_PENDING : Nat := 2
def XS.RUNNING : Nat := 3
def XS.WAITING : Nat := 4
def XS.FAULT : Nat := 5

def State.coreState (s : State) (k : Nat) : Nat := s.get (Pg.SEIF k) SEIF.STATE

/-- The core belongs to the customer partition. -/
def State.customer (s : State) (k : Nat) : Bool := decide (s.get (Pg.SEIF k) SEIF.OWNER = 1)

/-! ## Memories -/

def SeifCore.x (c : SeifCore) (a : Nat) : Word := Tab.get (fun _ => (0 : Word)) c.xm (a % 16384)
def SeifCore.y (c : SeifCore) (a : Nat) : Word := Tab.get (fun _ => (0 : Word)) c.ym (a % 16384)
def SeifCore.i (c : SeifCore) (a : Nat) : BitVec 64 := Tab.get (fun _ => (0 : BitVec 64)) c.im (a % 4096)
def SeifCore.setX (a : Nat) (v : Word) (c : SeifCore) : SeifCore :=
  { c with xm := Tab.set (fun _ => (0 : Word)) c.xm (a % 16384) v }
def SeifCore.setY (a : Nat) (v : Word) (c : SeifCore) : SeifCore :=
  { c with ym := Tab.set (fun _ => (0 : Word)) c.ym (a % 16384) v }
def SeifCore.setI (a : Nat) (v : BitVec 64) (c : SeifCore) : SeifCore :=
  { c with im := Tab.set (fun _ => (0 : BitVec 64)) c.im (a % 4096) v }

/-- IM, XM and YM cleared. -/
def SeifCore.clearMem (c : SeifCore) : SeifCore := { c with im := [], xm := [], ym := [] }

/-! ## DIN ring (R333) -/

def State.dinLen (s : State) (k : Nat) : Nat := s.get (Pg.SEIF k) SEIF.DIN_LEN

/-- Entries that the core has not consumed. -/
def State.dinFill (s : State) (k : Nat) : Nat :=
  let n := s.dinLen k
  let c := s.core k
  if n = 0 then 0 else (c.dinHead + n - c.dinTail % n) % n / 2

/-- Writes a 2-word entry into the DIN ring of core k: the state, and whether it was written. -/
def State.dinPush (k : Nat) (w0 w1 : Word) (s : State) : State × Bool :=
  let n := s.dinLen k
  let c := s.core k
  if n = 0 ∨ s.domOn (64 + k) = false ∨ (c.dinHead + 2) % n = c.dinTail % n then
    ((s.count (Pg.SEIF k) SEIF.DIN_DROP_CNT).event (Pg.SEIF k) SEIF.EV_DIN_DROP, false)
  else
    let b := s.get (Pg.SEIF k) SEIF.DIN_BASE
    let c := (c.setY (b + c.dinHead) w0).setY (b + c.dinHead + 1) w1
    (s.setCore k { c with dinHead := (c.dinHead + 2) % n }, true)

/-- Pending interrupt sources (R345). -/
def State.irqPend (s : State) (k : Nat) : Nat :=
  let c := s.core k
  (if s.dinLen k ≠ 0 ∧ s.get (Pg.SEIF k) SEIF.DIN_THRESH ≤ s.dinFill k then 1 else 0) + (if c.timerPend then 2 else 0) +
    (if c.mboxPend then 4 else 0)

/-! ## Port words (R332) -/

/-- What a port word reads as, for words that answer a value: none for the words that the core only writes. -/
def State.portValue (s : State) (c : SeifCore) (k a : Nat) : Option Nat :=
  match a - 0x3FF0 with
  | 0 => some c.dinHead
  | 1 => some c.dinTail
  | 2 => some s.time
  | 3 => some c.timeHi.toNat
  | 4 => some (s.get (Pg.SEIF k) SEIF.MBOX_IN)
  | 5 => none
  | 6 => none
  | 7 => none
  | 8 => none
  | _ => some 0

/-- A value reaches SEIF_VALUE of a loop whose domain is on (R327). -/
def State.loopSeifValue (n : Nat) (v : Nat) (s : State) : State :=
  if s.domOn (145 + n) = false then s
  else
    let s := s.put Pg.LOOP (LOOP.SEIF_VALUE.nth n) v
    let l := Tab.get (fun _ => LoopCh.idle) s.loops n
    { s with loops := Tab.set (fun _ => LoopCh.idle) s.loops n { l with seifAt := some s.time } }

/-- A core's store to a port word takes effect; a word that it may not write is dropped and counted. -/
def State.portStore (k a v : Nat) (s : State) : State :=
  let pg := Pg.SEIF k
  let c := s.core k
  match a - 0x3FF0 with
  | 1 => s.setCore k { c with dinTail := v % 16384 }
  | 5 => (s.put pg SEIF.MBOX_OUT v).event pg SEIF.EV_MBOX_OUT
  | 6 => if bitOf (s.get pg SEIF.LOOP_WR) 0 = 1 then s.loopSeifValue 0 v else s.count pg SEIF.PORT_DENIED_CNT
  | 7 => if bitOf (s.get pg SEIF.LOOP_WR) 1 = 1 then s.loopSeifValue 1 v else s.count pg SEIF.PORT_DENIED_CNT
  | 8 =>
    let timer : Bool := c.timerPend && decide (bitOf v 1 = 0)
    let mbox : Bool := c.mboxPend && decide (bitOf v 2 = 0)
    s.setCore k { c with timerPend := timer, mboxPend := mbox }
  | n => if n ≤ 4 then s.count pg SEIF.PORT_DENIED_CNT else s

/-! ## The pipeline, one cycle (R340, R341, R343, R344, R357, R358, R366) -/

/-- The five slots DE, AG, RD, EX1, EX2 of a pipeline. -/
def SeifCore.slots (c : SeifCore) : List (Option SeifFl) := (List.range 5).map fun i => (c.pipe[i]?).getD none

/-- The instruction in slot i. -/
def SeifCore.slot (c : SeifCore) (i : Nat) : Option SeifFl := (c.pipe[i]?).getD none

/-- Nothing is in flight. -/
def SeifCore.drained (c : SeifCore) : Bool := c.pipe.all fun e => e.isNone

/-- EX2: the compute result, or STSET and STCLR, from the operands latched at EX1. `old` is the core at the start of the
cycle, `freeC` a value for a carry that the spec leaves open. -/
def seifEx2 (old : SeifCore) (fl : SeifFl) (freeC : Bool) (c : SeifCore) : SeifCore :=
  let op := seifOp fl.word
  if fl.ok = false then c
  else if op = 0x0A then c.setReg MR.ST (old.st.toNat ||| seifImm fl.word)
  else if op = 0x0B then c.setReg MR.ST (old.st.toNat &&& (0xFFFFFFFF ^^^ seifImm fl.word))
  else if seifWide fl.word then c
  else
    let ac := seifAc fl.word
    let re := if fl.feed then old.half (2 * ac) else fl.re
    let im := if fl.feed then old.half (2 * ac + 1) else fl.im
    let o := seifCompute op (stBit old.st ST.SAT) fl.a.toNat fl.b.toNat re.toInt im.toInt fl.xre.toInt fl.xim.toInt
      (seifImm7 fl.word) (if op = 0x51 ∨ op = 0x53 then fl.ya else fl.xa)
    let c := match o.d with | some v => c.setReg (seifDd fl.word) v | none => c
    let c := match o.re with | some v => c.setHalf (2 * ac) v | none => c
    let c := match o.im with | some v => c.setHalf (2 * ac + 1) v | none => c
    let c := match o.ix with | some v => c.setReg MR.IX v | none => c
    let carry := if o.freeC ∧ freeC = true then ST.C else 0
    if o.flagMask = 0 then c else c.mergeSt o.flagMask (o.flags + carry)

/-- EX2 needs a free carry. -/
def seifFreeCarry (fl : SeifFl) : Bool :=
  fl.ok && !seifWide fl.word &&
    (seifCompute (seifOp fl.word) false fl.a.toNat fl.b.toNat 0 0 0 0 (seifImm7 fl.word) 0).freeC

/-- EX1: a C-format word tests its condition and reads its operands; `behind` is the instruction then in EX2. -/
def seifEx1 (old : SeifCore) (behind : Option SeifFl) (fl : SeifFl) : SeifFl :=
  if seifWide fl.word then fl
  else
    let ac := seifAc fl.word
    let ax := seifAx fl.word
    let cls := seifFeedClass (seifOp fl.word)
    let feed : Bool := match behind with
      | some g => decide (cls ≠ 0) && decide (seifFeedClass (seifOp g.word) = cls) && decide (seifAc g.word = ac)
      | none => false
    { fl with ok := seifCondition (seifCond fl.word) old.st
              a := old.reg (seifDa fl.word), b := old.reg (seifDb fl.word)
              re := old.half (2 * ac), im := old.half (2 * ac + 1)
              xre := old.half (2 * ax), xim := old.half (2 * ax + 1), feed := feed }

/-- RD: loads and stores of both moves, and LDI. Stores to port words are left to `seifPortStore`. -/
def seifRd (s : State) (k : Nat) (old : SeifCore) (freeV : Nat) (fl : SeifFl) (c : SeifCore) : SeifCore :=
  if seifWide fl.word then
    if seifOp fl.word = 9 ∧ fl.ok = true then c.setReg (seifReg fl.word) (seifImm fl.word) else c
  else
    let x := seifXMove fl.word
    let y := seifYMove fl.word
    let c :=
      if moveKind x = 1 then
        if 0x3FF0 ≤ fl.xa then
          let v := (s.portValue old k fl.xa).getD freeV
          let c : SeifCore := if fl.xa = 0x3FF2 then { c with timeHi := BitVec.ofNat 32 (s.time / 2 ^ 32) } else c
          c.setReg (moveReg x) v
        else c.setReg (moveReg x) (old.x fl.xa).toNat
      else if moveKind x = 2 ∧ fl.xa < 0x3FF0 then c.setX fl.xa (old.reg (moveReg x))
      else c
    if moveKind y = 1 then c.setReg (moveReg y) (old.y fl.ya).toNat
    else if moveKind y = 2 then c.setY fl.ya (old.reg (moveReg y))
    else c

/-- The store to a port word that the X move in RD makes: address and value. -/
def seifPortStore (old : SeifCore) (fl : SeifFl) : Option (Nat × Nat) :=
  if seifWide fl.word = false ∧ moveKind (seifXMove fl.word) = 2 ∧ 0x3FF0 ≤ fl.xa then
    some (fl.xa, (old.reg (moveReg (seifXMove fl.word))).toNat)
  else none

/-- The X move in RD reads a port word that only takes writes. -/
def seifFreePort (s : State) (k : Nat) (old : SeifCore) (fl : SeifFl) : Bool :=
  !seifWide fl.word && decide (moveKind (seifXMove fl.word) = 1) && decide (0x3FF0 ≤ fl.xa) &&
    (s.portValue old k fl.xa).isNone

/-- One move of AG: its address, its updated pointer written, and the sticky bits that it sets. -/
def seifAgMove (old : SeifCore) (m base : Nat) (c : SeifCore) : SeifCore × Nat × Nat :=
  if moveKind m = 0 then (c, 0, 0)
  else
    let n := base + movePtr m
    let (a, p, st) := formAddress (moveForm m) (old.reg (MR.P + n)).toNat (old.reg (MR.B + n)).toNat
      (old.reg (MR.L + n)).toNat (old.reg (MR.M + moveMod m)).toInt
    (if moveForm m = 0 then c else c.setReg (MR.P + n) p, a, st)

/-- AG: addresses of both moves. -/
def seifAg (old : SeifCore) (fl : SeifFl) (c : SeifCore) : SeifFl × SeifCore × Nat :=
  if seifWide fl.word then (fl, c, 0)
  else
    let (c, xa, sx) := seifAgMove old (seifXMove fl.word) 0 c
    let (c, ya, sy) := seifAgMove old (seifYMove fl.word) 4 c
    ({ fl with xa := xa, ya := ya }, c, sx ||| sy)

/-- What DE finds wrong: an illegal word, or DO with both levels active; CAUSE of R349. -/
def seifDeFault (old : SeifCore) (fl : SeifFl) : Option Nat :=
  let op := seifOp fl.word
  if seifIllegalAt fl.slot fl.word then some 1
  else if (op = 5 ∨ op = 6) ∧ stBit old.st ST.LA0 ∧ stBit old.st ST.LA1 then some 2
  else none

/-- DE of a word without fault: the condition of a W-format word, the loop registers, D15 and ST that it writes, where
fetching goes after the delay slot, and whether the core waits after it. -/
def seifDe (old : SeifCore) (fl : SeifFl) (c : SeifCore) : SeifFl × SeifCore × Option Nat × Bool :=
  let op := seifOp fl.word
  if seifWide fl.word = false then (fl, c, none, false)
  else
    let ok := seifCondition (seifCond fl.word) old.st
    let fl : SeifFl := { fl with ok := ok }
    if ok = false then (fl, c, none, false)
    else
      let imm := seifImm fl.word
      let loop (count stop : Nat) : SeifFl × SeifCore × Option Nat × Bool :=
        if count = 0 then (fl, c, some ((stop + 1) % 4096), false)
        else
          let lv := if stBit old.st ST.LA0 then 1 else 0
          let la := if lv = 0 then ST.LA0 else ST.LA1
          (fl, (((c.setReg (MR.LC lv) count).setReg (MR.LS lv) (fl.addr + 2)).setReg (MR.LE lv) stop).mergeSt la la,
            none, false)
      match op with
      | 1 => (fl, c, some (imm % 4096), false)
      | 2 => (fl, c.setReg 15 ((fl.addr + 2) % 4096), some (imm % 4096), false)
      | 3 => (fl, c, some ((old.reg 15).toNat % 4096), false)
      | 4 => (fl, c.setReg MR.ST (old.reg MR.IST).toNat, some (old.reg MR.IPC).toNat, false)
      | 5 => loop (imm % 65536) (imm / 65536 % 4096)
      | 6 => loop ((old.reg (seifReg fl.word)).toNat % 65536) (imm / 65536 % 4096)
      | 7 => (fl, c, none, true)
      | _ => (fl, c, none, false)

/-- The loop-end rule of one level at FE (R343): none where the fetched address does not end an active loop of the level or
its count is 0; otherwise the core after it, and where fetching goes when the body runs again. -/
def seifLoopEnd (old : SeifCore) (lv addr : Nat) (c : SeifCore) : Option (SeifCore × Option Nat) :=
  let la := if lv = 0 then ST.LA0 else ST.LA1
  let lc := (old.reg (MR.LC lv)).toNat
  if stBit old.st la = false ∨ (old.reg (MR.LE lv)).toNat ≠ addr ∨ lc = 0 then none
  else if 1 < lc then some (c.setReg (MR.LC lv) (lc - 1), some (old.reg (MR.LS lv)).toNat)
  else some (c.mergeSt la 0, none)

/-- FE of the word at the core's PC: the loop-end rule, level 1 before level 0, and the address fetched next. -/
def seifFe (old : SeifCore) (c : SeifCore) : SeifCore × Nat :=
  let addr := old.pc
  let next := (addr + 1) % 4096
  match seifLoopEnd old 1 addr c with
  | some (c, some t) => (c, t)
  | some (c, none) =>
    match seifLoopEnd old 0 addr c with
    | some (c, some t) => (c, t)
    | some (c, none) => (c, next)
    | none => (c, next)
  | none =>
    match seifLoopEnd old 0 addr c with
    | some (c, some t) => (c, t)
    | some (c, none) => (c, next)
    | none => (c, next)

/-- The word at the PC as it enters the pipeline. -/
def SeifCore.fetched (c : SeifCore) : SeifFl := ⟨c.pc, c.i c.pc, c.slotNext, false, 0, 0, 0, 0, 0, 0, 0, 0, false⟩

/-- One cycle of core k: every stage works on the registers as they stood when the cycle began; later fetched instructions
write last (R358). With `fetch` the word at the PC is fetched. The result tells a fault found at DE and, where the core is to
wait after this cycle, that. -/
def State.seifCycle (k : Nat) (fetch : Bool) (s : State) : State × Option (Nat × Nat) × Bool :=
  let old := s.core k
  let fault : Option (Nat × Nat) := match old.slot 0 with
    | some fl => (seifDeFault old fl).map fun cause => (cause, fl.addr)
    | none => none
  let fetch := fetch && fault.isNone
  let freeC := decide (Config.freeNat s.free % 2 = 1)
  let freeV := Config.freeNat (s.free + 1)
  let usesFree : Bool := (match old.slot 4 with | some fl => seifFreeCarry fl | none => false) ||
    (match old.slot 2 with | some fl => seifFreePort s k old fl | none => false)
  let c := match old.slot 4 with | some fl => seifEx2 old fl freeC old | none => old
  let ex1 := (old.slot 3).map fun fl => seifEx1 old (old.slot 4) fl
  let c := match old.slot 2 with | some fl => seifRd s k old freeV fl c | none => c
  let port := match old.slot 2 with | some fl => seifPortStore old fl | none => none
  let (ag, c, sticky) : Option SeifFl × SeifCore × Nat := match old.slot 1 with
    | some fl => let (fl, c, st) := seifAg old fl c; (some fl, c, st)
    | none => (none, c, 0)
  let (de, c, target, wait) : Option SeifFl × SeifCore × Option Nat × Bool := match old.slot 0, fault with
    | some fl, none => let (fl, c, t, w) := seifDe old fl c; (some fl, c, t, w)
    | _, _ => (none, c, none, false)
  let fl : Option SeifFl := if fetch then some old.fetched else none
  let (c, next) := if fetch then seifFe old c else (c, old.pc)
  let c := if sticky = 0 then c else c.mergeSt sticky sticky
  let branch : Bool := match fl with
    | some f => seifHasSlot (seifOp f.word) && !seifIllegalAt f.slot f.word
    | none => old.slotNext
  let goes : Option Nat := if target.isSome then target else old.target
  let waits : Bool := wait || old.waitNext
  let c : SeifCore := { c with
    pipe := [fl, de, ag, old.slot 2, ex1]
    pc := if fetch then goes.getD next else old.pc
    target := if fetch then none else goes
    waitNext := waits && !fetch
    slotNext := branch }
  let s : State := (if usesFree then { s with free := s.free + 2 } else s).setCore k c
  let s := match port with | some (a, v) => s.portStore k a v | none => s
  let s := onlyIf (decide (s.coreState k = XS.RUNNING)) (State.count (Pg.SEIF k) SEIF.CYCLE_CNT) s
  (s, fault, waits && fetch)

/-! ## States (R349) -/

/-- The core's pipeline holds nothing, in its canonical form. -/
def State.seifEmpty (k : Nat) (s : State) : State := s.setCore k { s.core k with pipe := [] }

/-- Follows the core's time in RUNNING for the demand of R295, over 100 ms. -/
def State.seifBusy (k : Nat) (s : State) : State :=
  let c := s.core k
  match c.busyFrom, decide (s.coreState k = XS.RUNNING) with
  | none, true => s.setCore k { c with busyFrom := some s.time }
  | some t0, false =>
    s.setCore k { c with busyFrom := none, runs := ((t0, s.time) :: c.runs).filter fun r => decide (s.time < r.2 + msTicks 100) }
  | _, _ => s

/-- Enters a state of R349; HALTED sets its event. -/
def State.seifEnter (k st : Nat) (s : State) : State :=
  let was := s.coreState k
  let s := s.put (Pg.SEIF k) SEIF.STATE st
  let s := onlyIf (decide (st = XS.HALTED) && decide (was ≠ XS.HALTED)) (State.event (Pg.SEIF k) SEIF.EV_HALTED) s
  s.seifBusy k

/-- The core stops drawing its rate. -/
def State.seifEndJob (k : Nat) (s : State) : State :=
  (s.endJob (.core k)).put (Pg.SEIF k) SEIF.PENDING_REASON 0

/-- Completes the instructions in flight without fetching, `n` cycles at most; a fault found at DE on the way. -/
def State.seifDrain (k : Nat) : Nat → State → State × Option (Nat × Nat)
  | 0, s => (s.seifEmpty k, none)
  | n + 1, s =>
    if (s.core k).drained then (s.seifEmpty k, none)
    else
      let (s, fault, _) := s.seifCycle k false
      let (s, later) := s.seifDrain k n
      (s, if fault.isSome then fault else later)

/-- Enters FAULT with its cause and the word's address; the core's rate ends. -/
def State.seifFault (k cause addr : Nat) (s : State) : State :=
  let pg := Pg.SEIF k
  let s := ((s.put pg SEIF.CAUSE cause).put pg SEIF.FAULT_PC addr).seifEnter k XS.FAULT
  ((s.event pg SEIF.EV_FAULT).count pg SEIF.FAULT_CNT).seifEndJob k

/-- Drains the core, then `f`, or FAULT where DE found one on the way. -/
def State.seifDrainThen (k : Nat) (f : State → State) (s : State) : State :=
  match s.seifDrain k 8 with
  | (s, some (cause, addr)) => s.seifFault k cause addr
  | (s, none) => f s

/-- After a cycle of a running core: a fault drains and stops it, a WAIT whose delay slot has been fetched drains it and
enters WAITING. -/
def seifAfter (k : Nat) (r : State × Option (Nat × Nat) × Bool) : State :=
  match r with
  | (s, some (cause, addr), _) => s.seifDrainThen k (fun s => s.seifFault k cause addr)
  | (s, none, true) => s.seifDrainThen k (fun s => s.seifEnter k XS.WAITING)
  | (s, none, false) => s

/-- A core that is running, with its domain on. -/
def State.seifRunning (s : State) (k : Nat) : Bool := s.domOn (64 + k) && decide (s.coreState k = XS.RUNNING)

/-- The safe point of the page of a running core: its next instruction boundary. -/
def State.seifBoundary (k : Nat) (s : State) : State := s.safeAll (Pg.SEIF k)

/-- A running core fetches the word at its PC when it is a legal instruction with operation `op` (R353 to R366). -/
def State.seifIssue (op k : Nat) (s : State) : State :=
  let f := (s.core k).fetched
  if s.seifRunning k && decide (seifOp f.word = op) && !seifIllegalAt f.slot f.word then
    let s := s.seifBoundary k
    seifAfter k (s.seifCycle k true)
  else s

/-- HALT of a running or waiting core: fetching stops, the pipeline drains, PC is the next instruction. -/
def State.seifHalt (k : Nat) (s : State) : State :=
  s.seifDrainThen k (fun s => (s.seifEnter k XS.HALTED).seifEndJob k)

/-- STOP at a running core (R365): where its condition holds, the word fetched after it is discarded and the core halts with
its PC behind STOP. -/
def State.seifStop (k : Nat) (s : State) : State :=
  let f := (s.core k).fetched
  if s.seifRunning k && decide (seifOp f.word = 8) && !seifIllegalAt f.slot f.word then
    let s := s.seifBoundary k
    let (s, fault, wait) := s.seifCycle k true
    if fault.isSome then seifAfter k (s, fault, wait)
    else if seifCondition (seifCond f.word) (s.core k).st then
      let s := s.setCore k { s.core k with pc := (f.addr + 1) % 4096 }
      s.seifHalt k
    else seifAfter k (s, none, wait)
  else s

/-- A core starts at START_PC (R349). -/
def State.seifStart (k : Nat) (s : State) : State :=
  let c : SeifCore := { s.core k with
    pc := s.get (Pg.SEIF k) SEIF.START_PC, pipe := [], slotNext := false, target := none, waitNext := false }
  (((s.setCore k c).put (Pg.SEIF k) SEIF.CAUSE 0).put (Pg.SEIF k) SEIF.PENDING_REASON 0).seifEnter k XS.RUNNING

/-- A core's domain comes on (R349): memories clear, registers at 0, RELOAD, HALTED. -/
def State.seifOn (k : Nat) (s : State) : State :=
  (((s.setCore k SeifCore.idle).put (Pg.SEIF k) SEIF.STATE XS.OFF).seifEnter k XS.HALTED).event (Pg.SEIF k) SEIF.EV_RELOAD

/-- A core's domain goes off: memories and registers are lost, the page stays. -/
def State.seifOff (k : Nat) (s : State) : State :=
  ((s.setCore k SeifCore.idle).seifEndJob k).put (Pg.SEIF k) SEIF.STATE XS.OFF

/-- Cost of a busy core at the present clock (R287): SEIF_1000 in sprint, SEIF_600 from L2, else SEIF_800. -/
def State.seifCost (s : State) : Nat :=
  if s.flag Pg.OAS OAS.SPRINT then s.cost 4 else if 2 ≤ s.level then s.cost 2 else s.cost 3

/-- The clock of the cores in MHz (R350): 1.0 GHz in sprint, 600 MHz from L2, else 800 MHz. -/
def State.seifMhz (s : State) : Nat := if s.flag Pg.OAS OAS.SPRINT then 1000 else if 2 ≤ s.level then 600 else 800

/-- SEIF_RUN: a customer core in HALTED or FAULT is offered to the dispatcher at class 3. -/
def State.seifRun (k : Nat) (s : State) : State :=
  let st := s.coreState k
  if s.customer k = false then s.refuse (Pg.SEIF k) ErrCode.NOT_PERMITTED SEIF.OP.off
  else if st = XS.HALTED ∨ st = XS.FAULT then
    (((s.put (Pg.SEIF k) SEIF.CAUSE 0).seifEnter k XS.START_PENDING).addJob (.core k) 3 s.seifCost s.time)
  else s

/-- SEIF_HALT: withdraws a pending start, or halts a running or waiting core. -/
def State.seifHaltCmd (k : Nat) (s : State) : State :=
  let st := s.coreState k
  if s.customer k = false then s.refuse (Pg.SEIF k) ErrCode.NOT_PERMITTED SEIF.OP.off
  else if st = XS.START_PENDING then (s.seifEndJob k).seifEnter k XS.HALTED
  else if st = XS.RUNNING ∨ st = XS.WAITING then s.seifHalt k
  else s

/-- SEIF_STEP: a halted customer core fetches the word at its PC and drains it. -/
def State.seifStep (k : Nat) (s : State) : State :=
  if s.customer k = false then s.refuse (Pg.SEIF k) ErrCode.NOT_PERMITTED SEIF.OP.off
  else if s.coreState k = XS.HALTED then
    let (s, _, _) := s.seifCycle k true
    s.seifDrainThen k fun s => s.setCore k { s.core k with waitNext := false }
  else s

/-! ## The customer partition (R351) -/

/-- A claim is refused. -/
def State.claimRefused (k : Nat) (s : State) : State :=
  let s := s.put (Pg.SEIF k) SEIF.OWNER 0
  (s.refuse (Pg.SEIF k) ErrCode.NOT_PERMITTED SEIF.OP.off).event (Pg.SEIF k) SEIF.EV_GRANT_REFUSED

/-- A claim is granted: the core halts, its memories clear, it belongs to the customer and may write no loop. -/
def State.claimGranted (k : Nat) (s : State) : State :=
  let pg := Pg.SEIF k
  let st := s.coreState k
  let s := if st = XS.RUNNING ∨ st = XS.WAITING ∨ st = XS.START_PENDING then s.seifHalt k else s
  let s := s.setCore k (s.core k).clearMem
  let s := (s.seifEnter k XS.HALTED).seifEndJob k
  let s := s.put pg SEIF.LOOP_WR 0
  let s : State := { s with shadow := Tab.drop (inPage pg fun o => decide (o = SEIF.LOOP_WR.off)) s.shadow }
  (s.put pg SEIF.OWNER 1).event pg SEIF.EV_GRANT

/-- Customer cores and claims under way. -/
def State.claimed (s : State) : Nat := ((List.range 32).filter fun k => decide (s.get (Pg.SEIF k) SEIF.OWNER ≠ 0)).length

/-- CLAIM: cores 24 to 31, at most 8; link firmware decides while it runs, otherwise the claim is granted at once. -/
def State.claim (k : Nat) (s : State) : State :=
  if s.get (Pg.SEIF k) SEIF.OWNER ≠ 0 then s
  else if k < 24 ∨ 8 ≤ s.claimed then s.claimRefused k
  else if s.get Pg.LNK LNK.FW_STATE = 2 then s.put (Pg.SEIF k) SEIF.OWNER 2
  else s.claimGranted k

/-- Claims that link firmware had not answered when it stopped are granted at once (R351; DEDUCED, log entry 147). -/
def State.grantClaims (s : State) : State :=
  forEach ((List.range 32).filter fun k => decide (s.get (Pg.SEIF k) SEIF.OWNER = 2) && s.domOn (64 + k)) State.claimGranted s

/-- CLAIM_DECISION: link firmware answers a pending claim. -/
def execClaimDecision (t : Nat) (core : Fin 32) (grant : Bool) (s : State) : Res :=
  let s := s.atTick t
  finish (onlyIf (decide (s.get (Pg.SEIF core.val) SEIF.OWNER = 2) && s.domOn (64 + core.val))
    (fun s => if grant then s.claimGranted core.val else s.claimRefused core.val) s)

/-- SEIF_RELEASE: a customer core halts, its memories clear, and it returns to link firmware. -/
def State.seifRelease (k : Nat) (s : State) : State :=
  if s.customer k = false then s.refuse (Pg.SEIF k) ErrCode.NOT_PERMITTED SEIF.OP.off
  else
    let st := s.coreState k
    let s := if st = XS.RUNNING ∨ st = XS.WAITING then s.seifHalt k else s
    let s := (s.seifEnter k XS.HALTED).seifEndJob k
    (s.setCore k (s.core k).clearMem).put (Pg.SEIF k) SEIF.OWNER 0

/-! ## Interrupts (R345, R346) -/

/-- A host write to MBOX_IN (R345). -/
def State.mboxIn (k : Nat) (v : Word) (s : State) : State :=
  let s := s.put (Pg.SEIF k) SEIF.MBOX_IN v.toNat
  s.setCore k { s.core k with mboxPend := true }

/-- The number of the TIMER period in progress at tick t: the multiples of TIMER_US of SAMPLE_TIME (R345; DEDUCED, log entry
146). -/
def timerPeriod (us t : Nat) : Nat := t * 1000 / (2048 * us)

/-- SEIF_TIMER_TICK: every TIMER_US µs of SAMPLE_TIME the TIMER source becomes pending. -/
def execSeifTimerTick (t : Nat) (core : Fin 32) (s : State) : Res :=
  let s := s.atTick t
  let k := core.val
  let us := s.get (Pg.SEIF k) SEIF.TIMER_US
  finish (onlyIf (s.domOn (64 + k) && decide (us ≠ 0) && decide (timerPeriod us (s.core k).timerAt < timerPeriod us t))
    (fun s => s.setCore k { s.core k with timerPend := true, timerAt := t }) s)

/-- INTERRUPT_ENTRY: with IE set and an enabled source pending, at a boundary that is not a delay slot, the core drains,
saves PC and ST, clears IE, LA0 and LA1, and fetches from VEC. -/
def State.interruptEntry (k : Nat) (s : State) : State :=
  let c := s.core k
  let st := s.coreState k
  if s.domOn (64 + k) && (decide (st = XS.RUNNING) || decide (st = XS.WAITING)) && stBit c.st ST.IE && !c.slotNext &&
      decide (s.irqPend k &&& s.get (Pg.SEIF k) SEIF.IRQ_EN ≠ 0) then
    let s := s.seifBoundary k
    s.seifDrainThen k fun s =>
      let c := s.core k
      let c := ((c.setReg MR.IPC c.pc).setReg MR.IST c.st.toNat).mergeSt (ST.IE + ST.LA0 + ST.LA1) 0
      let s := s.setCore k { c with pc := s.get (Pg.SEIF k) SEIF.VEC }
      (s.count (Pg.SEIF k) SEIF.IRQ_CNT).seifEnter k XS.RUNNING
  else s

/-- INTERRUPT_ENTRY. -/
def execInterruptEntry (core : Fin 32) (s : State) : Res := finish (s.interruptEntry core.val)

/-- ILLEGAL_INSTRUCTION: the word at the PC of a running core is illegal; DE finds it one cycle later and the core enters
FAULT with cause ILLEGAL (R359). -/
def execIllegalInstruction (core : Fin 32) (s : State) : Res :=
  let k := core.val
  let f := (s.core k).fetched
  finish (onlyIf (s.seifRunning k && seifIllegalAt f.slot f.word)
    (fun s =>
      match (s.seifBoundary k).seifCycle k true with
      | (s, none, false) => seifAfter k (s.seifCycle k false)
      | r => seifAfter k r) s)

/-! ## Windows (R331) -/

/-- The core and the byte offset within its window that a BAR0 address names. -/
def seifWindow (addr : Nat) : Nat × Nat := ((addr - 0x800000) / 0x40000 % 32, (addr - 0x800000) % 0x40000)

/-- A window access while the core runs stalls its pipeline for one cycle. -/
def State.seifStall (k : Nat) (s : State) : State :=
  if s.coreState k = XS.RUNNING then (s.count (Pg.SEIF k) SEIF.HOST_STALL_CNT).count (Pg.SEIF k) SEIF.CYCLE_CNT else s

/-- A refused window write. -/
def State.seifWinRefused (k code off : Nat) (s : State) : State :=
  (s.count (Pg.SEIF k) SEIF.WIN_REFUSED_CNT).refuse (Pg.SEIF k) code (off % 4096)

/-- SEIF_WINDOW_WRITE. -/
def State.seifWindowWrite (addr : Nat) (v : Word) (s : State) : State :=
  let (k, off) := seifWindow addr
  let w := off / 4
  let st := s.coreState k
  if 0x30000 ≤ off ∨ (0x8000 ≤ off ∧ off < 0x10000) then s.unmapped
  else if s.customer k = false then s.seifWinRefused k ErrCode.NOT_PERMITTED off
  else if off < 0x8000 then
    if st = XS.HALTED ∨ st = XS.FAULT then
      let old := (s.core k).i (w / 2)
      let new : BitVec 64 := if w % 2 = 0 then BitVec.ofNat 64 (old.toNat / 2 ^ 32 * 2 ^ 32 + v.toNat)
        else BitVec.ofNat 64 (v.toNat * 2 ^ 32 + old.toNat % 2 ^ 32)
      s.setCore k ((s.core k).setI (w / 2) new)
    else s.seifWinRefused k ErrCode.STATE off
  else if off < 0x20000 then
    if 0x3FF0 ≤ w % 16384 then s.seifWinRefused k ErrCode.NOT_PERMITTED off
    else (s.setCore k ((s.core k).setX (w % 16384) v)).seifStall k
  else (s.setCore k ((s.core k).setY (w % 16384) v)).seifStall k

/-- A read of a Seif window: IM of link firmware's cores reads 0; a port word, of which the spec states no host read,
answers a free value. -/
def State.seifWindowRead (addr : Nat) (s : State) : State :=
  let (k, off) := seifWindow addr
  let w := off / 4
  let c := s.core k
  if 0x30000 ≤ off ∨ (0x8000 ≤ off ∧ off < 0x10000) then s.answer 0
  else if off < 0x8000 then
    if s.customer k = false then s.answer 0
    else
      let v := (c.i (w / 2)).toNat
      s.answer (BitVec.ofNat 32 (if w % 2 = 0 then v else v / 2 ^ 32))
  else if off < 0x20000 then
    let s := s.seifStall k
    if 0x3FF0 ≤ w % 16384 then s.withFree fun v s => s.answer (BitVec.ofNat 32 v)
    else s.answer (c.x (w % 16384))
  else (s.seifStall k).answer (c.y (w % 16384))

/-- SOFT_RESET of a core's page (R44, R334): the core halts, its registers return to 0, an armed commit is cancelled;
memories and owner stay. -/
def State.seifSoftReset (k : Nat) (s : State) : State :=
  let pg := Pg.SEIF k
  let owner := s.get pg SEIF.OWNER
  let c := s.core k
  let s := s.setCore k { SeifCore.idle with im := c.im, xm := c.xm, ym := c.ym }
  let s := (s.seifEndJob k).clearStatus pg
  (s.put pg SEIF.OWNER owner).put pg SEIF.STATE XS.HALTED

end Sys2Proof.Machine
end

