-- ==== Sys2Proof/Machine/Aes.lean ====
section
/-! DEFINITION. AES-128 (FIPS 197) and the CCM mode of SP 800-38C with an 8-byte tag and a 2-byte length field, as R231
uses them for secured frames. -/
namespace Sys2Proof.Machine

/-- The S-box of FIPS 197 as one number: byte i of it, the least significant first, is the value for i. -/
def aesSboxWord : Nat :=
  0x16bb54b00f2d99416842e6bf0d89a18cdf2855cee9871e9b948ed9691198f8e19e1dc186b95735610ef6034866b53e708a8bbd4b1f74dde8c6b4a61c2e2578ba08ae7a65eaf4566ca94ed58d6d37c8e779e4959162acd3c25c2406490a3a32e0db0b5ede14b8ee4688902a22dc4f816073195d643d7ea7c41744975fec130ccdd2f3ff1021dab6bcf5389d928f40a351a89f3c507f02f94585334d43fbaaefd0cf584c4a39becb6a5bb1fc20ed00d153842fe329b3d63b52a05a6e1b1a2c830975b227ebe28012079a059618c323c7041531d871f1e5a534ccf73f362693fdb7c072a49cafa2d4adf04759fa7dc982ca76abd7fe2b670130c56f6bf27b777c63

/-- The S-box. -/
def aesSbox (b : Byte) : Byte := BitVec.ofNat 8 (aesSboxWord >>> (8 * b.toNat))

/-- Multiplication by x in the field of AES. -/
def xtime (b : Byte) : Byte := (b <<< 1) ^^^ (if b.getLsbD 7 then 0x1B else 0)

/-- Byte-wise exclusive or of two lists, as long as the shorter. -/
def xorBytes (a b : List Byte) : List Byte := List.zipWith (· ^^^ ·) a b

/-- One round key to the next; `rc` is the round constant. -/
def aesNextKey (rc : Byte) (k : List Byte) : List Byte :=
  let w (i : Nat) : List Byte := (k.drop (4 * i)).take 4
  let last := w 3
  let t := xorBytes ((last.drop 1 ++ last.take 1).map aesSbox) [rc, 0, 0, 0]
  let w0 := xorBytes (w 0) t
  let w1 := xorBytes (w 1) w0
  let w2 := xorBytes (w 2) w1
  let w3 := xorBytes (w 3) w2
  w0 ++ w1 ++ w2 ++ w3

/-- ShiftRows of the 16 state bytes, column by column. -/
def aesShiftRows (s : List Byte) : List Byte :=
  [0, 5, 10, 15, 4, 9, 14, 3, 8, 13, 2, 7, 12, 1, 6, 11].map fun i => s.getD i 0

/-- MixColumns of one column. -/
def aesMixColumn (c : List Byte) : List Byte :=
  let a (i : Nat) : Byte := c.getD i 0
  (List.range 4).map fun i =>
    xtime (a i) ^^^ (xtime (a ((i + 1) % 4)) ^^^ a ((i + 1) % 4)) ^^^ a ((i + 2) % 4) ^^^ a ((i + 3) % 4)

/-- MixColumns. -/
def aesMixColumns (s : List Byte) : List Byte :=
  (List.range 4).flatMap fun i => aesMixColumn ((s.drop (4 * i)).take 4)

/-- The rounds after the first key addition: `n` rounds are left, the last without MixColumns. -/
def aesRounds : Nat → Byte → List Byte → List Byte → List Byte
  | 0, _, _, s => s
  | n + 1, rc, k, s =>
    let k := aesNextKey rc k
    let s := aesShiftRows (s.map aesSbox)
    let s := if n = 0 then s else aesMixColumns s
    aesRounds n (xtime rc) k (xorBytes s k)

/-- AES-128 encryption of a 16-byte block under a 16-byte key. -/
def aes128 (key block : List Byte) : List Byte := aesRounds 10 1 key (xorBytes block key)

/-- A list of bytes cut into 16-byte blocks, the last padded with zeros. -/
def blocks16 : Nat → List Byte → List (List Byte)
  | 0, _ => []
  | n + 1, bs =>
    if bs = [] then [] else (bs.take 16 ++ List.replicate (16 - (bs.take 16).length) 0) :: blocks16 n (bs.drop 16)

/-- A number as bytes, most significant first. -/
def beBytes (n v : Nat) : List Byte := (leBytes n v).reverse

/-- CBC-MAC of a list of blocks. -/
def cbcMac (key : List Byte) (bs : List (List Byte)) : List Byte :=
  bs.foldl (fun x b => aes128 key (xorBytes x b)) (List.replicate 16 0)

/-- The authentication value T of CCM before encryption: block B0 with flags for M = 8 and L = 2, the associated data with
its 2-byte length, and the payload (SP 800-38C). -/
def ccmAuth (key nonce aad payload : List Byte) : List Byte :=
  let flags : Byte := if aad = [] then 0x19 else 0x59
  let b0 := flags :: nonce ++ beBytes 2 payload.length
  let a := if aad = [] then [] else blocks16 (aad.length + 2) (beBytes 2 aad.length ++ aad)
  cbcMac key (b0 :: a ++ blocks16 payload.length payload)

/-- Counter block i of CCM, encrypted. -/
def ccmStream (key nonce : List Byte) (i : Nat) : List Byte := aes128 key ((1 : Byte) :: nonce ++ beBytes 2 i)

/-- Encryption or decryption of a payload in counter mode. -/
def ccmCrypt (key nonce payload : List Byte) : List Byte :=
  xorBytes payload ((List.range ((payload.length + 15) / 16)).flatMap fun i => ccmStream key nonce (i + 1))

/-- The 8-byte tag of CCM. -/
def ccmTag (key nonce aad payload : List Byte) : List Byte :=
  (xorBytes (ccmAuth key nonce aad payload) (ccmStream key nonce 0)).take 8

end Sys2Proof.Machine
end

