-- ==== Sys2Proof/Machine/Mtb.lean ====
section
/-! DEFINITION. The mains timebase (03_mains_timebase.md): the phase clock, MAINS_TIME, the tracking states of R70, the
judging of crossings (R69), corrections (R71), phase wraps and their log (R78), and SNAP (R77). -/
namespace Sys2Proof.Machine

/-- STATE values of the timebase. -/
def TB.OFF : Nat := 0
def TB.ACQUIRE : Nat := 1
def TB.LOCKED : Nat := 2
def TB.HOLDOVER : Nat := 3
def TB.NOMINAL : Nat := 4

/-- Units of `phi` in one phase count, and in one cycle. -/
def phiCount : Nat := 2048000
def phiCycle : Nat := 65536 * 2048000

/-- STATUS.STATE of the timebase. -/
def State.tb (s : State) : Nat := s.get Pg.MTB MTB.STATE

/-- The nominal frequency in 1/65,536 Hz (NOMINAL selects 50 or 60 Hz). -/
def State.tbNominal (s : State) : Nat := if s.flag Pg.MTB MTB.NOMINAL then 60 * 65536 else 50 * 65536

/-- The phase clock's units at tick `t`, not yet reduced to one cycle: it runs at FREQ, slewed until `slewEnd` and held
still until `holdEnd`; in OFF it is stopped (R70, R71). -/
def State.phiAt (s : State) (t : Nat) : Nat :=
  if s.tb = TB.OFF then s.mtb.phi
  else
    let from_ := Nat.max s.mtb.anchor s.mtb.holdEnd
    let run := t - from_
    let slewed := Nat.min t s.mtb.slewEnd - from_
    (((s.mtb.phi + run * s.get Pg.MTB MTB.FREQ : Nat) : Int) + (slewed : Int) * s.mtb.slew).toNat

/-- The free phase of R74, in counts and not reduced to one cycle. -/
def State.freeCounts (s : State) (t : Nat) : Nat := t * (s.tbNominal / 65536) * 65536 / 2048000

/-- Phase counts since cycle 0 at tick `t`: the phase clock, or the free phase while the timebase is OFF (R74). -/
def State.countsAt (s : State) (t : Nat) : Nat :=
  if s.tb = TB.OFF then s.freeCounts t else s.get Pg.MTB MTB.CYCLE * 65536 + s.phiAt t / phiCount

/-- The phase at tick `t` (R64, R74). -/
def State.phaseAt (s : State) (t : Nat) : Nat := s.countsAt t % 65536

/-- MAINS_TIME at tick `t`: cycle count and phase; in OFF the held cycle count with the free phase (R64, R74). -/
def State.mainsTime (s : State) (t : Nat) : Nat × Nat :=
  if s.tb = TB.OFF then (s.get Pg.MTB MTB.CYCLE, s.freeCounts t % 65536)
  else ((s.get Pg.MTB MTB.CYCLE + s.phiAt t / phiCycle) % 2 ^ 32, s.phiAt t / phiCount % 65536)

/-- The bin at tick `t` (R66). -/
def State.binAt (s : State) (t : Nat) : Nat := s.phaseAt t / 1024

/-- Ticks of one mains cycle at the clock's frequency. -/
def State.cycleTicks (s : State) : Nat := phiCycle / Nat.max 1 (s.get Pg.MTB MTB.FREQ)

/-- Takes the phase clock's value at tick `t` as its new anchor. -/
def State.tbAnchor (t : Nat) (s : State) : State :=
  let p := s.phiAt t
  { s with mtb := { s.mtb with phi := p, anchor := t } }

/-- Sets the clock's frequency from tick `t` on, phase-continuously. -/
def State.tbFreq (t f : Nat) (s : State) : State := (s.tbAnchor t).put Pg.MTB MTB.FREQ f

/-- Moves the timebase to a state, HOLD_MS restarting. -/
def State.tbState (st : Nat) (s : State) : State := (s.put Pg.MTB MTB.STATE st).put Pg.MTB MTB.HOLD_MS 0

/-! ### When the clock reaches a phase (R76) -/

/-- The first tick at or after `from_` at which the phase clock holds at least `x` units. -/
def State.phiReach (s : State) (x from_ : Nat) : Nat :=
  let a := Nat.max from_ (Nat.max s.mtb.anchor s.mtb.holdEnd)
  let run := fun (b rate : Nat) => b + (x - s.phiAt b + rate - 1) / Nat.max 1 rate
  let f := s.get Pg.MTB MTB.FREQ
  let slewed := run a (Nat.max 1 ((f : Int) + s.mtb.slew).toNat)
  if x ≤ s.phiAt from_ then from_
  else if a < s.mtb.slewEnd then (if slewed ≤ s.mtb.slewEnd then slewed else run s.mtb.slewEnd f)
  else run a f

/-- The first tick at or after `from_` at which the phase is `target`: that of the phase clock with the slew or hold that is in
force, or the free phase in OFF (R74). -/
def State.phaseInstant (s : State) (target from_ : Nat) : Nat :=
  let here := s.countsAt from_
  let gap := (target + 65536 - here % 65536) % 65536
  if gap = 0 then from_
  else if s.tb = TB.OFF then ((here + gap) * 2048000 + s.tbNominal - 1) / Nat.max 1 s.tbNominal
  else s.phiReach ((s.phiAt from_ / phiCount + gap) * phiCount) from_

/-- Ticks of 1.000 ms. -/
def ticks1ms : Nat := 2048

/-- The instant of copy k + 1 of a run of n copies with start phase `p0`, after a copy that ended at `tEnd` (R76): the first
instant at least 1.000 ms later whose phase is (p0 + (k + 1) × spread) mod 65,536, on the phase clock as it runs with the slew or
hold in force, or on the free phase in OFF (R74). Where the clock has been set anew since the copy ended, it is looked for from
that instant on. -/
def State.copyInstant (s : State) (tEnd p0 n k : Nat) : Nat :=
  let from_ := tEnd + ticks1ms
  s.phaseInstant ((p0 + (k + 1) * (65536 / n)) % 65536) (if s.tb = TB.OFF then from_ else Nat.max from_ s.mtb.anchor)

/-- The instants of the copies that a run is still to send follow the phase clock, which has been set anew (R76). -/
def State.recopy (s : State) : State :=
  let move : Lane → Lane := fun x =>
    if x.phase = .between ∧ x.copy ≠ 0 ∧ s.time < x.t0 then
      let at_ := s.copyInstant x.tEnd x.p0 x.copies (x.copy - 1)
      { x with t0 := at_, due := at_ }
    else x
  { s with txs := { s.txs with lanes := s.txs.lanes.map fun e => (e.1, e.2.map move) } }

/-- The device takes its timebase from the Caravan master (R79): a slave that is CONNECTED or REJOINING. -/
def State.tbSlave (s : State) : Bool :=
  decide (s.get Pg.CAV CAV.ROLE = 0) && (decide (s.get Pg.CAV CAV.STATE = 2) || decide (s.get Pg.CAV CAV.STATE = 4))

/-- Sources enabled by SRC_EN, none with MODE NONE. -/
def State.tbSources (s : State) : List Nat :=
  if s.get Pg.MTB MTB.MODE = 0 then [] else (List.range 3).filter fun n => decide (bitOf (s.get Pg.MTB MTB.SRC_EN) n = 1)

/-- The offset of a source (R69). -/
def State.srcOffset (s : State) (n : Nat) : Nat :=
  if n = 0 then s.get Pg.MTB MTB.SRC_OFFSET0 else if n = 1 then s.get Pg.MTB MTB.SRC_OFFSET1 else s.get Pg.MTB MTB.SRC_OFFSET2

/-- What the timebase keeps of source n. -/
def State.tbSrc (s : State) (n : Nat) : MtbSrc := Tab.get (fun _ => MtbSrc.idle) s.mtb.src n

/-- The error in counts of a crossing of source n measured at tick `t`: the signed phase at which it falls, less its offset. A
positive error means that the clock is ahead. Before its anchor the clock is taken back at FREQ: a crossing of an MZC pin is
judged after its instant (R68). -/
def State.crossErr (s : State) (t n : Nat) : Int :=
  let back : Nat := (s.mtb.anchor - t) * s.get Pg.MTB MTB.FREQ
  signed 16 (unsigned 16 (((s.phiAt t : Int) - (back : Int)) / (phiCount : Int) - (s.srcOffset n : Int)))

/-- The error of a crossing that the test of R69 uses: in LOCKED, without what the slew of a relock still has to remove (R71).
DEDUCED: log 119. -/
def State.testErr (s : State) (e : Int) : Nat := (if s.tb = TB.LOCKED then e - s.mtb.left else e).natAbs

/-- A phase error, or a difference of two, in the range −32,768 to 32,767 counts. -/
def wrapErr (e : Int) : Int := signed 16 (unsigned 16 e)

/-- Mean of a list of phase errors, 0 for an empty list: the errors are taken on the side of the cycle on which the first lies, so
that errors on both sides of half a cycle do not cancel. -/
def meanErr (l : List Int) : Int :=
  match l with
  | [] => 0
  | e :: _ => wrapErr (e + (l.map fun x => wrapErr (x - e)).foldl (· + ·) 0 / (l.length : Int))

/-- How far the error of a hit lies from the mean of the other hits of a list. -/
def hitDistance (v : List MtbHit) (h : MtbHit) : Nat :=
  (wrapErr (h.err - meanErr ((v.filter fun g => decide (g.src ≠ h.src)).map (·.err)))).natAbs

/-- R69: the hits that count for the cycle; of three valid sources, the one that differs from the mean of the other two by
more than REJECT_THRESH is left out. Where more than one does, it is the one that differs most, the first of equals. DESIGN
CHOICE (log 151): the rule speaks of one. -/
def keepHits (rej : Nat) (hits : List MtbHit) : List MtbHit :=
  let v := hits.filter (·.valid)
  let worst := v.foldl (fun m h => Nat.max m (hitDistance v h)) 0
  match v.find? fun h => decide (hitDistance v h = worst) with
  | some out => if v.length = 3 ∧ rej < worst then v.filter fun h => decide (h.src ≠ out.src) else v
  | none => v

/-- Every source takes its next crossing as a reference (R69), and acquisition starts afresh. -/
def State.tbRestart (s : State) : State :=
  { s with mtb := { s.mtb with src := [], cyc := [], okRun := 0, badRun := 0, firstValid := none, cyclesSince := 0,
                               holdErr := none, slew := 0, slewEnd := 0, holdEnd := 0, left := 0 } }

/-- Enters HOLDOVER at tick `t`: the clock keeps the mean frequency of the last 8 valid cycles (tracking states). With fewer on record,
it is the mean of those there are, whenever they closed, and with none the clock's own frequency. DESIGN CHOICE (log 150): the
spec gives no rule for fewer than 8. -/
def State.enterHoldover (t : Nat) (s : State) : State :=
  let ps := s.mtb.periods
  let f := if ps = [] then s.get Pg.MTB MTB.FREQ else phiCycle * ps.length / Nat.max 1 (ps.foldl (· + ·) 0)
  let s := (s.tbFreq t f).tbState TB.HOLDOVER
  let s : State := { s with mtb := { s.mtb with holdStart := t, holdErr := none, badRun := 0, okRun := 0, slew := 0,
                                                slewEnd := 0, left := 0 } }
  ((s.event Pg.MTB MTB.EV_HOLDOVER_ENTER).count Pg.MTB MTB.HOLDOVER_CNT).recopy

/-- Slews the clock for one cycle by the correction of error `e`, at most 1,311 counts (R71). -/
def State.tbSlew (t : Nat) (e : Int) (s : State) : State :=
  let c := clampInt (-1311) 1311 (-e)
  let n := s.cycleTicks
  let s := s.tbAnchor t
  { s with mtb := { s.mtb with slew := (c * (phiCount : Int)) / (Nat.max 1 n : Nat), slewEnd := t + n } }

/-- A jump or hold sets PHASE_STEP and counts STEP_CNT (R71). -/
def State.phaseStepped (s : State) : State := (s.event Pg.MTB MTB.EV_PHASE_STEP).count Pg.MTB MTB.STEP_CNT

/-- What is left of an error once the slew of one cycle has removed its part (R71). -/
def slewLeft (e : Int) : Int := e - clampInt (-1311) 1311 e

/-- Corrects the phase on relock from HOLDOVER with error `e` (R71): slewing up to 8,192 counts, else jumping forward or
holding still. -/
def State.tbRelock (t : Nat) (e : Int) (s : State) : State :=
  if e.natAbs ≤ 8192 then
    let s := s.tbSlew t e
    { s with mtb := { s.mtb with left := slewLeft e } }
  else
    let s := s.tbAnchor t
    let s : State := { s with mtb := { s.mtb with left := 0 } }
    if e < 0 then
      ({ s with mtb := { s.mtb with phi := s.mtb.phi + e.natAbs * phiCount } }).phaseStepped
    else
      ({ s with mtb := { s.mtb with holdEnd := t + e.natAbs * phiCount / Nat.max 1 (s.get Pg.MTB MTB.FREQ) } }).phaseStepped

/-- A frequency in 1/65,536 Hz limited to the lock range of 45 to 65 Hz (R72). -/
def lockRange (f : Int) : Nat := (clampInt (45 * 65536) (65 * 65536) f).toNat

/-- The frequency trim for a phase error of `e` counts at frequency `f`, in 1/65,536 Hz. The error built up over one cycle is that of a
frequency off by e/65,536 of `f`; the trim takes between an eighth and the whole of it, against the error. Within these bounds the
loop meets R72: a steady frequency leaves no error, and a ramp of 2 Hz/s, 52 counts a cycle at 50 Hz, at most 8 times that. The
gain itself is the device's. DEDUCED: log 33. -/
def trimOf (f : Nat) (e : Int) : Int :=
  let most := e.natAbs * f / 65536
  let least := most / 8
  let size : Nat := least + Config.mtbGain e % (most - least + 1)
  if e < 0 then (size : Int) else -(size : Int)

/-- The first valid crossing of an acquisition, measured at tick `t` (R70): the clock steps so that the crossing, less its
offset (the mean over the valid sources), falls at phase 0, and runs at the reciprocal of the measured period. The clock
never runs backwards, so it steps forward, at the present instant. -/
def State.tbFirst (t : Nat) (e : Int) (period : Nat) (s : State) : State :=
  let s := s.tbAnchor s.time
  let freq := lockRange (phiCycle / Nat.max 1 period)
  let since : Int := ((s.time - t : Nat) : Int) * ((freq : Int) - (s.get Pg.MTB MTB.FREQ : Int))
  let fwd := ((since - e * (phiCount : Int)) % (phiCycle : Int)).toNat
  let s : State := { s with mtb := { s.mtb with phi := s.mtb.phi + fwd, firstValid := some t, cyclesSince := 0, okRun := 0,
                                                slew := 0, slewEnd := 0, holdEnd := 0, left := 0 } }
  ((s.put Pg.MTB MTB.FREQ freq).tbState TB.ACQUIRE).event Pg.MTB MTB.EV_PHASE_STEP

/-- Moves ACQUIRE or HOLDOVER to LOCKED. -/
def State.tbLock (s : State) : State := (s.tbState TB.LOCKED).event Pg.MTB MTB.EV_LOCKED

/-- Closes a cycle, whose last crossing was measured at tick `t`, with the hits collected for it: PHASE_ERR, SRC_VALID, and the
action of the state, which takes effect at the present instant. -/
def State.tbCycle (t : Nat) (s : State) : State :=
  let rej := s.get Pg.MTB MTB.REJECT_THRESH
  let hits := s.mtb.cyc
  let kept := keepHits rej hits
  let s := onlyIf (decide (kept.length < (hits.filter (·.valid)).length)) (State.event Pg.MTB MTB.EV_SRC_DROP) s
  let s : State := { s with mtb := { s.mtb with cyc := [] } }
  let s := s.put Pg.MTB MTB.SRC_VALID (kept.foldl (fun m h => m ||| 2 ^ h.src) 0)
  if kept = [] then
    let s : State := { s with mtb := { s.mtb with cyclesSince := s.mtb.cyclesSince + 1, okRun := 0 } }
    s
  else
    let e := meanErr (kept.map (·.err))
    let period := kept.foldl (fun n h => n + h.period) 0 / kept.length
    let oldPeriod := s.mtb.periods.headD period
    let df : Int := ((phiCycle / Nat.max 1 period : Nat) : Int) - ((phiCycle / Nat.max 1 oldPeriod : Nat) : Int)
    let rocof := df * 1000 * 2048000 / (65536 * (Nat.max 1 period : Nat))
    let s := (s.put Pg.MTB MTB.PHASE_ERR (satSigned 16 e)).put Pg.MTB MTB.ROCOF (satSigned 16 rocof)
    let s : State := { s with mtb := { s.mtb with periods := (period :: s.mtb.periods).take 8
                                                  cyclesSince := s.mtb.cyclesSince + 1 } }
    let st := s.tb
    if st = TB.NOMINAL ∨ (st = TB.ACQUIRE ∧ s.mtb.firstValid = none) then s.tbFirst t e period
    else if st = TB.ACQUIRE ∨ st = TB.LOCKED then
      let ok := decide (e.natAbs ≤ s.get Pg.MTB MTB.LOCK_THRESH)
      let s := s.tbSlew s.time e
      let s : State := { s with mtb := { s.mtb with left := slewLeft s.mtb.left } }
      let f := s.get Pg.MTB MTB.FREQ
      let s := s.put Pg.MTB MTB.FREQ (lockRange ((f : Int) + trimOf f e))
      let s : State := { s with mtb := { s.mtb with okRun := if ok then s.mtb.okRun + 1 else 0 } }
      onlyIf (decide (st = TB.ACQUIRE) && decide (2 ≤ s.mtb.okRun)) State.tbLock s
    else s

/-- A valid crossing with error `e` in HOLDOVER (R69, R70): together with a valid crossing before it whose error differs by at most
REJECT_THRESH it locks the timebase, which corrects the phase; results measured against the clock before that are dropped. -/
def State.holdCrossing (e : Int) (s : State) : State :=
  let again : Bool := match s.mtb.holdErr with
    | some e0 => decide ((wrapErr (e - e0)).natAbs ≤ s.get Pg.MTB MTB.REJECT_THRESH)
    | none => false
  if again then
    let s : State := { s with mtb := { s.mtb with holdErr := none, okRun := 0, cyc := [] } }
    (s.tbRelock s.time e).tbLock
  else { s with mtb := { s.mtb with holdErr := some e } }

/-- Replaces what the timebase keeps of source n. -/
def State.setSrc (n : Nat) (x : MtbSrc) (s : State) : State :=
  { s with mtb := { s.mtb with src := Tab.set (fun _ => MtbSrc.idle) s.mtb.src n x } }

/-- A crossing of source n measured at tick `t` is judged (R69): a source's first crossing is a reference only; otherwise it is
valid when it follows the source's last crossing by 14.5 to 23.0 ms and, in LOCKED, lies within REJECT_THRESH. Three
successive invalid crossings in LOCKED enter HOLDOVER (R70). A cycle closes when every enabled source has a result or a
source reports twice: then it closes before the new crossing is measured. -/
def State.crossing (t n : Nat) (s : State) : State :=
  if s.tb = TB.OFF ∨ s.tbSlave = true ∨ n ∉ s.tbSources then s
  else
    match (s.tbSrc n).last with
    | none => s.setSrc n { s.tbSrc n with last := some t, period := 0 }
    | some t0 =>
      let s := if s.mtb.cyc.any (fun h => decide (h.src = n)) then s.tbCycle t else s
      let period := t - t0
      let e := s.crossErr t n
      let inSpan := decide (29696 ≤ period) && decide (period ≤ 47104)
      let valid := inSpan && (decide (s.tb ≠ TB.LOCKED) || decide (s.testErr e ≤ s.get Pg.MTB MTB.REJECT_THRESH))
      let s := s.setSrc n { s.tbSrc n with last := some t, period := period }
      let s : State := { s with mtb := { s.mtb with cyc := s.mtb.cyc ++ [⟨n, e, period, valid⟩] } }
      let s := if valid then
          let s : State := { s with mtb := { s.mtb with badRun := 0, lastValid := t } }
          onlyIf (decide (s.tb = TB.HOLDOVER)) (State.holdCrossing e) s
        else
          let s := s.count Pg.MTB MTB.INVALID_CNT
          { s with mtb := { s.mtb with badRun := s.mtb.badRun + 1, holdErr := none, okRun := 0 } }
      let s := if s.tbSources.all (fun m => s.mtb.cyc.any fun h => decide (h.src = m)) then s.tbCycle t else s
      onlyIf (decide (s.tb = TB.LOCKED) && decide (3 ≤ s.mtb.badRun)) (State.enterHoldover s.time) s

/-- Replaces what the filter of an MZC pin holds. -/
def State.setMzc (pin : Nat) (q : MzcPin) (s : State) : State :=
  { s with mtb := { s.mtb with mzc := Tab.set (fun _ => MzcPin.idle) s.mtb.mzc pin q } }

/-- The level `high` of an MZC pin is the one whose edge MZC_EDGE selects, in MODE MZC (R67, R68). -/
def State.mzcWanted (s : State) (high : Bool) : Bool :=
  decide (s.get Pg.MTB MTB.MODE = 2) && (high == !s.flag Pg.MTB MTB.MZC_EDGE)

/-- By tick `t` an MZC pin has held a new level of the wanted edge for MZC_GLITCH ticks (R68). -/
def State.mzcDue (s : State) (t pin : Nat) : Bool :=
  let p := Tab.get (fun _ => MzcPin.idle) s.mtb.mzc pin
  (p.raw != p.level) && s.mzcWanted p.raw && decide (s.get Pg.MTB MTB.MZC_GLITCH ≤ t - p.since)

/-! ### Sense sources (R67, R317) -/

/-- Where the values `v0` at stamp `a` and `v` one output period `p` later cross zero upward: interpolated between the outputs, with
the decimator's group delay of `gd` quarter ticks removed, rounded down to a tick. -/
def crossInstant (a p gd : Nat) (v0 v : Int) : Nat :=
  (4 * a + 4 * p * v0.natAbs / Nat.max 1 (v - v0).natAbs - gd) / 4

/-- An output of sense input n with stamp `stamp` and value `v`, on a grid of `p` ticks: where it is the second of two successive
usable outputs of a source between which the value passes zero upward, the source has a crossing to be judged. -/
def State.tbFeed (n stamp p gd : Nat) (v : Int) (usable : Bool) (s : State) : State :=
  if s.tb = TB.OFF ∨ s.get Pg.MTB MTB.MODE ≠ 1 then s
  else
    let sel := [MTB.SENSE_SEL0, MTB.SENSE_SEL1, MTB.SENSE_SEL2]
    forEach (s.tbSources.filter fun k => decide (s.get Pg.MTB (sel.getD k MTB.SENSE_SEL0) = n)) (fun k s =>
      let x := s.tbSrc k
      let due := match x.prev with
        | some (a, v0) => if usable ∧ a + p = stamp ∧ v0 < 0 ∧ 0 ≤ v then some (crossInstant a p gd v0 v) else x.due
        | none => x.due
      s.setSrc k { x with prev := if usable then some (stamp, v) else none, due := due }) s

/-- The crossing of source n that is to be judged at tick `t`: of an MZC pin, the edge that its filter has let pass, MZC_DELAY ticks
earlier (R68); of a sense source, the crossing that its outputs have shown (R67). -/
def State.crossingDue (s : State) (t n : Nat) : Option Nat :=
  if s.mzcDue t n then some ((Tab.get (fun _ => MzcPin.idle) s.mtb.mzc n).since - s.get Pg.MTB MTB.MZC_DELAY)
  else if s.get Pg.MTB MTB.MODE = 1 then (s.tbSrc n).due
  else none

/-- The crossing of source n is taken: the pin's filter has its new level, or the sense source has none to be judged. -/
def State.crossingTaken (t n : Nat) (s : State) : State :=
  if s.mzcDue t n then
    let p := Tab.get (fun _ => MzcPin.idle) s.mtb.mzc n
    s.setMzc n ⟨p.raw, p.raw, p.since⟩
  else s.setSrc n { s.tbSrc n with due := none }

/-- ZERO_CROSSING (R67 to R71): the crossing of a source that is due at tick `t` is judged. -/
def execZeroCrossing (t : Nat) (src : Fin 3) (s : State) : Res :=
  let s := s.atTick t
  finish (match s.crossingDue t src.val with
    | some c => ((s.crossingTaken t src.val).crossing c src.val).recopy
    | none => s)

/-- MZC_EDGE (R68): levels shorter than MZC_GLITCH are ignored and counted; the edge that MZC_EDGE selects gives a crossing
MZC_DELAY ticks earlier. The filter decides a level when the next edge of the pin ends it, unless ZERO_CROSSING has told of it
before. -/
def State.mzcEdge (t pin : Nat) (high : Bool) (s : State) : State :=
  let p := Tab.get (fun _ => MzcPin.idle) s.mtb.mzc pin
  if p.raw = high then s
  else if t - p.since < s.get Pg.MTB MTB.MZC_GLITCH ∧ p.raw ≠ p.level then
    (s.count Pg.MTB MTB.GLITCH_CNT).setMzc pin ⟨p.level, high, t⟩
  else
    let due := s.mzcDue t pin
    let s := s.setMzc pin ⟨p.raw, high, t⟩
    if due then (s.crossing (p.since - s.get Pg.MTB MTB.MZC_DELAY) pin).recopy else s

/-- MZC_EDGE. -/
def execMzcEdge (t : Nat) (pin : Fin 3) (high : Bool) (s : State) : Res := finish ((s.atTick t).mzcEdge t pin.val high)

/-- The held period in ticks: the mean of the last 8 valid cycles. -/
def State.heldPeriod (s : State) : Nat :=
  let ps := s.mtb.periods
  if ps = [] then s.cycleTicks else ps.foldl (· + ·) 0 / ps.length

/-- REFERENCE_LOSS (R70): in LOCKED, no valid crossing for 1.5 held periods moves to HOLDOVER; NO_SOURCE sets in every
state with no valid crossing for that long or with MODE NONE. -/
def execReferenceLoss (t : Nat) (s : State) : Res :=
  let s := s.atTick t
  let lost := decide (s.tb ≠ TB.OFF) && !s.tbSlave && decide (2 * (t - s.mtb.lastValid) ≥ 3 * s.heldPeriod)
  let s := onlyIf (decide (s.tb ≠ TB.OFF) && (lost || decide (s.get Pg.MTB MTB.MODE = 0)))
    (State.event Pg.MTB MTB.EV_NO_SOURCE) s
  let s := onlyIf lost (State.put Pg.MTB MTB.SRC_VALID 0) s
  finish (onlyIf (lost && decide (s.tb = TB.LOCKED)) (State.enterHoldover t) s)

/-- NOMINAL_ENTER (R70): HOLDOVER held for HOLDOVER_MS moves to NOMINAL, phase-continuously. -/
def execNominalEnter (t : Nat) (s : State) : Res :=
  let s := s.atTick t
  finish (onlyIf (decide (s.tb = TB.HOLDOVER) && decide (msTicks (s.get Pg.MTB MTB.HOLDOVER_MS) ≤ t - s.mtb.holdStart))
    (fun s => (((s.tbFreq t s.tbNominal).tbState TB.NOMINAL).event Pg.MTB MTB.EV_NOMINAL_ENTER).recopy) s)

/-- ACQ_RESTART (R70): 8 cycles after the first valid crossing without lock, acquisition restarts at the nominal
frequency. -/
def execAcqRestart (t : Nat) (s : State) : Res :=
  let s := s.atTick t
  let due : Bool := match s.mtb.firstValid with
    | some t0 => decide (8 * s.heldPeriod ≤ t - t0) || decide (8 ≤ s.mtb.cyclesSince)
    | none => false
  finish (onlyIf (decide (s.tb = TB.ACQUIRE) && due)
    (fun s =>
      let s := (s.tbFreq t s.tbNominal).count Pg.MTB MTB.ACQ_RESTART_CNT
      ({ s with mtb := { s.mtb with firstValid := none, cyclesSince := 0, okRun := 0, slew := 0, slewEnd := 0,
                                    left := 0 } } : State).recopy) s)

/-- The 16-byte record of the timebase log (R78). -/
def tbLogRecord (start cycle st : Nat) : List Byte := leBytes 8 start ++ leBytes 4 cycle ++ leBytes 1 st ++ leBytes 3 0

/-- Region kind of the timebase log in the DRC region table (R412). -/
def regionTimebaseLog : Nat := 10

/-- PHASE_WRAP (R65, R78): the phase clock wraps, the cycle count increments, and a record of the cycle's start enters the
timebase log at LOG_HEAD, which wraps after 131,072 records. In OFF no record enters and the count keeps its value. -/
def State.phaseWrap (t : Nat) (s : State) : State :=
  if s.tb = TB.OFF then s
  else
    let s := s.tbAnchor t
    if s.mtb.phi < phiCycle then s
    else
      let s : State := { s with mtb := { s.mtb with phi := s.mtb.phi - phiCycle } }
      let s := s.put Pg.MTB MTB.CYCLE (s.get Pg.MTB MTB.CYCLE + 1)
      let head := s.get Pg.MTB MTB.LOG_HEAD
      let s := match s.regionOf regionTimebaseLog with
        | some r => s.dramStore (s.regionBase r + 16 * head) (tbLogRecord t (s.get Pg.MTB MTB.CYCLE) s.tb)
        | none => s
      s.put Pg.MTB MTB.LOG_HEAD ((head + 1) % 131072)

/-- PHASE_WRAP. -/
def execPhaseWrap (t : Nat) (s : State) : Res := finish ((s.atTick t).phaseWrap t)

/-- SNAP (R77): latches SAMPLE_TIME, cycle count, phase and state in one cycle. -/
def State.tbSnap (s : State) : State :=
  let m := s.mainsTime s.time
  ((((s.put Pg.MTB MTB.SNAP_TIME_LO s.time).put Pg.MTB MTB.SNAP_TIME_HI (s.time / 2 ^ 32)).put Pg.MTB MTB.SNAP_CYCLE
    m.1).put Pg.MTB MTB.SNAP_PHASE m.2).put Pg.MTB MTB.SNAP_STATE s.tb

/-! ### Access phases (R73 to R75) -/

/-- The index of the last half-cycle access point at or before tick `t` for an access phase (R73), modulo 2 to the 33: one access point
on, it is one higher. -/
def State.accIndex (s : State) (ph t : Nat) : Nat := (s.countsAt t + 65536 - ph) / 32768 % 2 ^ 33

/-- At a half-cycle start the access phases last made active take effect (R75). -/
def State.accFollow (t : Nat) (s : State) : State :=
  let h := s.countsAt t / 32768 % 2 ^ 33
  if h = s.mtb.halfIdx then s
  else { s with mtb := { s.mtb with halfIdx := h, accEff := s.get Pg.MTB MTB.ACC_PHASE, c0Eff := s.get Pg.MTB MTB.C0_PHASE } }

/-- The phase that access points follow starts anew at tick `t`: no access point is due but one at this very phase. -/
def State.accRebase (t : Nat) (s : State) : State :=
  let before := fun ph => (s.countsAt t + 65535 - ph) / 32768 % 2 ^ 33
  { s with mtb := { s.mtb with accIdx := before s.mtb.accEff, c0Idx := before s.mtb.c0Eff, halfIdx := s.countsAt t / 32768 % 2 ^ 33 }
           txs := { s.txs with c0Half := [] } }

/-- CTRL.ENABLE of MTB (R65, R70): setting it in OFF starts the phase clock at phase 0 in ACQUIRE; clearing it stops the
clock in any state and keeps the cycle count. Phase 0 is a half-cycle start, at which the access phases take effect (R75). -/
def State.tbEnable (on : Bool) (s : State) : State :=
  if on then
    if s.tb = TB.OFF then
      let s := s.tbRestart
      let s : State := { s with mtb := { s.mtb with phi := 0, anchor := s.time, lastValid := s.time, lastBin := 0
                                                    onSince := s.time, onCycle := s.get Pg.MTB MTB.CYCLE
                                                    accEff := s.get Pg.MTB MTB.ACC_PHASE, c0Eff := s.get Pg.MTB MTB.C0_PHASE } }
      (((s.put Pg.MTB MTB.FREQ s.tbNominal).tbState TB.ACQUIRE).accRebase s.time).recopy
    else s
  else if s.tb = TB.OFF then s
  else (((s.tbAnchor s.time).put Pg.MTB MTB.STATE TB.OFF).accRebase s.time).recopy

/-- CTRL.SOFT_RESET of MTB (R44, R70): keeps cycle count, phase and log, clears status, events and counters, and restarts
acquisition at the nominal frequency; in OFF it only clears. -/
def State.tbSoftReset (s : State) : State :=
  let st := s.tb
  let s := onlyIf (decide (st ≠ TB.OFF)) (State.tbAnchor s.time) s
  let cyc := s.get Pg.MTB MTB.CYCLE
  let head := s.get Pg.MTB MTB.LOG_HEAD
  let s := (s.clearStatus Pg.MTB).tbRestart
  let s := ((s.put Pg.MTB MTB.CYCLE cyc).put Pg.MTB MTB.LOG_HEAD head).put Pg.MTB MTB.FREQ s.tbNominal
  if st = TB.OFF then s else (s.put Pg.MTB MTB.STATE TB.ACQUIRE).recopy

/-- MTB fields that choose the sources: MODE, SRC_EN and SENSE_SEL. -/
def State.tbChoice (s : State) : List Nat :=
  [s.get Pg.MTB MTB.MODE, s.get Pg.MTB MTB.SRC_EN, s.get Pg.MTB MTB.SENSE_SEL0, s.get Pg.MTB MTB.SENSE_SEL1,
   s.get Pg.MTB MTB.SENSE_SEL2]

/-- MTB fields whose change counts as a loss of reference: MODE, SRC_EN, SENSE_SEL and SRC_OFFSETn (R70). -/
def State.tbRefWords (s : State) : List Nat := s.tbChoice ++ (List.range 3).map s.srcOffset

/-- The sources of a list take their next crossings as references (R69). -/
def State.srcRestart (l : List Nat) (s : State) : State :=
  { s with mtb := { s.mtb with src := l.foldl (fun m n => Tab.erase m n) s.mtb.src
                               cyc := s.mtb.cyc.filter fun h => !l.contains h.src } }

/-- The safe point of page MTB: an armed set applies. A change of MODE, SRC_EN or SENSE_SEL makes the next crossing of every source
a reference, one of an offset that of its source (R69); in LOCKED either enters HOLDOVER (R70). In NOMINAL, OFF and ACQUIRE before
a valid crossing, the clock follows a changed NOMINAL. Access phases become active from the next half-cycle start on (R75). -/
def State.tbSafePoint (s : State) : State :=
  let s := s.accFollow s.time
  let before := s.tbRefWords
  let choice := s.tbChoice
  let offsets := (List.range 3).map s.srcOffset
  let nomBefore := s.tbNominal
  let s := s.safeAll Pg.MTB
  let s := onlyIf (decide (s.tbNominal ≠ nomBefore) &&
      (decide (s.tb = TB.NOMINAL) || (decide (s.tb = TB.ACQUIRE) && decide (s.mtb.firstValid = none))))
    (fun s => (s.tbFreq s.time s.tbNominal).recopy) s
  if s.tbRefWords = before then s
  else
    let all := List.range 3
    let s := s.srcRestart (if s.tbChoice = choice then all.filter fun n => decide (s.srcOffset n ≠ offsets.getD n 0) else all)
    onlyIf (decide (s.tb = TB.LOCKED)) (State.enterHoldover s.time) s

/-- The timebase's part of a phase-bin boundary at tick `t` (R66, R75): the new bin, HOLD_MS, and at a half-cycle start the
access phases in effect. -/
def State.tbBoundary (t : Nat) (s : State) : State :=
  let bin := s.binAt t
  let s := s.accFollow t
  let s := onlyIf (decide (s.tb = TB.HOLDOVER))
    (fun s => s.put Pg.MTB MTB.HOLD_MS (sat 16 ((t - s.mtb.holdStart) / 2048))) s
  { s with mtb := { s.mtb with lastBin := bin, boundary := t } }

/-- In OFF the 1 ms tick `t` stands for a phase-bin boundary (R81). -/
def State.tickBoundary (t : Nat) (s : State) : State :=
  let s := s.accFollow t
  { s with mtb := { s.mtb with boundary := t } }

/-- A boundary is due at tick `t`: the phase clock (or, in OFF, the 1 ms tick that takes its place, R81) has entered a new
bin. -/
def State.binDue (s : State) (t : Nat) : Bool :=
  if s.tb = TB.OFF then decide (t % 2048 = 0) else decide (s.binAt t ≠ s.mtb.lastBin)

end Sys2Proof.Machine
end

