-- ==== Sys2Proof/Machine/Wadi.lean ====
section
/-! DEFINITION. Wadi (11_wadi_queues_and_classes.md) and the queue windows (02_host_interface_and_pages.md): transmit
queues and their descriptors, submission, outcomes and completion records, delivery rings, and what a host does through
QW0 to QW63. -/
namespace Sys2Proof.Machine

/-! ## Queues -/

/-- Transmit queue n. -/
def State.queue (s : State) (n : Nat) : Queue := Tab.get (fun _ => Queue.idle) s.wad.queues n

/-- Replaces transmit queue n. -/
def State.setQueue (n : Nat) (q : Queue) (s : State) : State :=
  { s with wad := { s.wad with queues := Tab.set (fun _ => Queue.idle) s.wad.queues n q } }

def Queue.cls (q : Queue) : Nat := WQD.CLASS.of q.d14
def Queue.port (q : Queue) : Nat := WQD.PORT.of q.d14
def Queue.txch (q : Queue) : Nat := WQD.TXCH.of q.d14
def Queue.mode (q : Queue) : Nat := WQD.MODE.of q.d14
def Queue.dst (q : Queue) : Nat := WQD.DST.of q.d18
def Queue.compRing (q : Queue) : Nat := WQD.COMP_RING.of q.d18
def Queue.hold (q : Queue) : Bool := decide (WQD.FAULT_POLICY.of q.d18 = 1)
def Queue.capacity (q : Queue) : Nat := WQD.CAPACITY.of q.d1C
def Queue.budgetWait (q : Queue) : Nat := WQD.BUDGET_WAIT_MS.of q.d1C
def Queue.defDeadline (q : Queue) : Nat := WQD.DEF_DEADLINE_MS.of q.d20

/-- The raw-frame queue (R211, R253). -/
def State.isRaw (s : State) (n : Nat) : Bool := decide (n = s.get Pg.MAC MAC.RAW_QUEUE)

/-- Queues 8,128 to 8,190 belong to link firmware (R253). -/
def isLinkQueue (n : Nat) : Bool := decide (8128 ≤ n) && decide (n ≤ 8190)

/-- A queue carries LNK_PAUSE (R254). -/
def State.lnkPaused (s : State) (n : Nat) : Bool := s.wad.lnkPause && decide ((s.queue n).cls ≠ 0) && !s.isRaw n

/-- QSTATUS.STATE: 0 CLOSED, 1 OPEN, 2 PAUSED; a queue told to close is CLOSED once it holds nothing (R254). -/
def State.queueState (s : State) (n : Nat) : Nat :=
  let q := s.queue n
  if q.isOpen = false ∧ q.msgs = [] then 0 else if q.hostPause ∨ s.lnkPaused n then 2 else 1

/-- The message at the head of a queue. -/
def State.headMsg (s : State) (n : Nat) : Option Msg := (s.queue n).msgs.head?

/-- A message of a queue has been granted and has no outcome yet (R260). -/
def State.inFlight (s : State) (n : Nat) : Bool := (s.queue n).msgs.any (·.inFlight)

/-- The message of a queue with a tag. -/
def State.msg (s : State) (n tag : Nat) : Option Msg := (s.queue n).msgs.find? fun m => decide (m.tag = tag)

/-- Changes the message of a queue with a tag. -/
def State.modMsg (n tag : Nat) (f : Msg → Msg) (s : State) : State :=
  let q := s.queue n
  s.setQueue n { q with msgs := q.msgs.map fun m => if m.tag = tag then f m else m }

/-- Bits of a message header word. -/
def hdrBits (m : Msg) (w lo n : Nat) : Nat := (m.hdr.getD w 0).toNat / 2 ^ lo % 2 ^ n

/-- What a message sends, as its queue and header give it (R252, R256, R257). -/
structure Plan where
  cls : Nat
  port : Nat
  ch : Nat
  mode : Nat
  dst : Nat
  ackReq : Bool
  sec : Bool
  more : Bool
  macCls : Nat
  ftype : Nat
  compRing : Nat
  rawSeq : Option Nat
  rawRoute : Option (List Nat)
deriving DecidableEq, Repr

/-- The plan of a message of queue n (R252, R256, R257). -/
def State.plan (s : State) (n : Nat) (m : Msg) : Plan :=
  let q := s.queue n
  if s.isRaw n then
    let dst := hdrBits m 1 0 12
    let cls := hdrBits m 1 24 2
    let hops := hdrBits m 1 26 3
    let route := (m.hdr.getD 2 0).toNat + 2 ^ 32 * hdrBits m 3 0 16
    { cls := q.cls, port := hdrBits m 0 24 4, ch := hdrBits m 0 28 4, mode := hdrBits m 0 16 8, dst := dst
      ackReq := decide (hdrBits m 0 8 1 = 1) && decide (dst ≠ 0xFFF)
      sec := decide (hdrBits m 0 9 1 = 1) || decide (cls = 0), more := decide (hdrBits m 0 10 1 = 1), macCls := cls
      ftype := hdrBits m 0 12 4, compRing := hdrBits m 0 0 6, rawSeq := some (hdrBits m 1 12 12)
      rawRoute := some (decodeRoute hops (leBytes 6 route)) }
  else
    { cls := q.cls, port := q.port
      ch := if q.cls = 0 then s.get (Pg.TXS q.port) TXS.ALARM_CH else q.txch
      mode := if hdrBits m 0 11 1 = 1 then hdrBits m 0 16 8 else q.mode, dst := q.dst
      ackReq := decide (hdrBits m 0 8 1 = 1) && decide (q.dst ≠ 0xFFF)
      sec := decide (hdrBits m 0 9 1 = 1) || decide (q.cls = 0), more := decide (hdrBits m 0 10 1 = 1)
      macCls := q.cls, ftype := m.ftype, compRing := hdrBits m 0 0 6, rawSeq := none, rawRoute := none }

/-- MOD, CODE and REP of a MODE byte (R115). -/
def modeMod (mode : Nat) : Nat := mode / 4 % 4
def modeCode (mode : Nat) : Nat := mode / 16 % 4
def modeRep (mode : Nat) : Nat := mode / 64 % 4

/-- Copies of a run in a mode: REP 2 and 3 both name ×16 (R117). -/
def modeCopies (mode : Nat) : Nat := runCopies (modeRep mode)

/-- The relays of a destination's current route, as link firmware keeps it (R238). -/
def State.routeOf (s : State) (dst : Nat) : List Nat := (Tab.get (fun _ => EpRec.idle) s.lnk.eps dst).route

/-- Route entries of a message (R121, R238). -/
def State.planRoute (s : State) (p : Plan) : List Nat := p.rawRoute.getD (s.routeOf p.dst)

/-- Length of the data field of a message (R119 to R123). -/
def State.fieldLen (s : State) (p : Plan) (bytes : Nat) : Nat :=
  11 + (if p.sec then 12 else 0) + routeBytes (s.planRoute p).length + bytes

/-! ## Pool and rings -/

/-- Slots of the WADI_MSG pool (R454). -/
def State.poolSize (s : State) : Nat :=
  match s.regionOf 4 with
  | some r => s.regionData r / 256
  | none => 0

/-- Messages waiting or in flight. -/
def State.msgQueued (s : State) : Nat := s.wad.queues.foldl (fun n e => n + e.2.msgs.length) 0

/-- Free WADI_MSG slots: a held completion record of an accepted message keeps its slot (R267). -/
def State.poolFree (s : State) : Nat :=
  s.poolSize - (s.msgQueued + (s.wad.due.filter fun d => !d.refusal).length)

/-- Replaces delivery ring n. -/
def State.setRing (n : Nat) (r : Ring) (s : State) : State :=
  { s with wad := { s.wad with rings := Tab.set (fun _ => Ring.idle) s.wad.rings n r } }

/-- Entries of a ring (R269). -/
def State.ringSize (s : State) (n : Nat) : Nat := s.get Pg.WAD (WAD.SIZE_M1.nth n) + 1

/-- Ring n takes records. -/
def State.ringEn (s : State) (n : Nat) : Bool := s.flag Pg.WAD (WAD.EN.nth n)

/-- Ring n has a free entry. -/
def State.ringRoom (s : State) (n : Nat) : Bool := decide ((s.ring n).recs.length < s.ringSize n)

/-- Appends a record to ring n. -/
def State.ringPush (n : Nat) (r : Rec) (s : State) : State :=
  s.setRing n { s.ring n with recs := (s.ring n).recs ++ [r] }

/-- The low and high words of a 64-bit stamp. -/
def stampWords (t : Nat) : List Word := [BitVec.ofNat 32 t, BitVec.ofNat 32 (t / 2 ^ 32)]

/-- The LOSS record of ring n (R271). -/
def State.lossRecord (s : State) (n : Nat) : Rec :=
  let r := s.ring n
  let m := r.dropMains
  ⟨[0xB0000000, BitVec.ofNat 32 r.lostRx, BitVec.ofNat 32 r.lostRefusal, 0] ++ stampWords r.firstDrop
    ++ [BitVec.ofNat 32 m.1, BitVec.ofNat 32 m.2], [], s.time⟩

/-- A LOSS record waits for ring n (R269). -/
def State.lossPending (s : State) (n : Nat) : Bool := decide ((s.ring n).lostRx ≠ 0) || decide ((s.ring n).lostRefusal ≠ 0)

/-- Ring n as a record is dropped at tick t: the first drop since the last LOSS record gives its stamps (R271). -/
def State.firstLoss (s : State) (n t : Nat) : Ring :=
  let r := s.ring n
  if s.lossPending n then r else { r with firstDrop := t, dropMains := s.mainsTime t }

/-- Writes the LOSS record of ring n where one waits and an entry is free (R269). -/
def State.flushLoss (n : Nat) (s : State) : State :=
  if s.ringEn n ∧ s.lossPending n ∧ s.ringRoom n then
    let s := s.ringPush n (s.lossRecord n)
    s.setRing n { s.ring n with lostRx := 0, lostRefusal := 0, firstDrop := 0, dropMains := (0, 0) }
  else s

/-- Removes the first due record of ring n. -/
def dropFirstDue (n : Nat) : List DueRec → List DueRec
  | [] => []
  | d :: t => if d.ring = n then t else d :: dropFirstDue n t

/-- Marks the first due record of ring n that is not held yet. -/
def markFirstHeld (n : Nat) : List DueRec → List DueRec
  | [] => []
  | d :: t => if d.ring = n ∧ d.held = false then { d with held := true } :: t else d :: markFirstHeld n t

/-- Removes the first due record of ring n that is not held. -/
def dropFirstNew (n : Nat) : List DueRec → List DueRec
  | [] => []
  | d :: t => if d.ring = n ∧ d.held = false then t else d :: dropFirstNew n t

/-- Replaces the list of due records. -/
def State.setDue (l : List DueRec) (s : State) : State := { s with wad := { s.wad with due := l } }

/-- Refusal records in the held list (R267). -/
def State.heldRefusals (s : State) : Nat := (s.wad.due.filter fun d => d.refusal && d.held).length

/-- The first due record of ring n that is not held yet. -/
def State.newDue (s : State) (n : Nat) : Option DueRec := s.wad.due.find? fun d => decide (d.ring = n) && !d.held

/-- The completion record of the class-0 message with acceptance number `k` is written at tick `t`: the interval of R3 of the
class-0 message accepted after it on the same port starts (R273). -/
def State.startInterval (k t : Nat) (s : State) : State :=
  { s with wad := { s.wad with queues := s.wad.queues.map fun e =>
      (e.1, { e.2 with msgs := e.2.msgs.map fun m => if m.after = k then { m with interval := t } else m }) } }

/-- Writes the first due completion record of ring n at tick `t` (R267): into the ring, or, where the ring is full, holds the
first one that is not held yet; lost and counted where the ring is not enabled or, for a refusal, where the held list is
full. -/
def State.writeDue (t n : Nat) (s : State) : State :=
  match s.wad.due.find? fun d => decide (d.ring = n) with
  | none => s
  | some d =>
    if s.ringEn n = false then (s.setDue (dropFirstDue n s.wad.due)).count Pg.WAD WAD.COMP_LOST_CNT
    else
      let s := s.flushLoss n
      if s.ringRoom n then
        let s := (s.ringPush n { d.record with at_ := t }).setDue (dropFirstDue n s.wad.due)
        onlyIf (decide (d.c0 ≠ 0)) (State.startInterval d.c0 t) s
      else match s.newDue n with
        | none => s
        | some e =>
          if e.refusal ∧ 4096 ≤ s.heldRefusals then
            let r := s.ring n
            ((s.setRing n { s.firstLoss n t with lostRefusal := r.lostRefusal + 1 }).setDue
              (dropFirstNew n s.wad.due)).count Pg.WAD WAD.COMP_LOST_CNT
          else (s.setDue (markFirstHeld n s.wad.due)).event Pg.WAD WAD.EV_COMP_HELD

/-- Writes the LOSS record and then every held completion record of ring n for which an entry is free (R267, R269). -/
def State.flushRing (t n : Nat) (s : State) : State :=
  (List.range s.wad.due.length).foldl (fun s _ =>
    if s.ringRoom n ∧ s.wad.due.any (fun d => decide (d.ring = n) && d.held) then s.writeDue t n else s) (s.flushLoss n)

/-- Writes a received record into ring n (R268, R269): a LOSS record and held completion records go before it; a full or
disabled ring drops it and counts. -/
def State.deliver (n : Nat) (r : Rec) (s : State) : State :=
  if s.ringEn n = false then s.count Pg.WAD WAD.RX_DROP_FULL_CNT
  else
    let s := s.flushRing s.time n
    if s.ringRoom n then (s.ringPush n r).count Pg.WAD WAD.RX_RECORD_CNT
    else
      let g := s.ring n
      let s := s.setRing n { s.firstLoss n s.time with lostRx := g.lostRx + 1 }
      let s := (s.count Pg.WAD WAD.RX_DROP_FULL_CNT).event Pg.WAD WAD.EV_RING_FULL
      onlyIf (decide (n = 0)) (State.event Pg.WAD WAD.EV_RING0_FULL) s

/-! ## Outcomes -/

/-- Outcome codes (R266). -/
def Outc.DELIVERED : Nat := 0x00
def Outc.DELIVERED_DUP : Nat := 0x01
def Outc.SENT_NO_ACK_REQ : Nat := 0x02
def Outc.FAILED_NOACK : Nat := 0x10
def Outc.FAILED_CHANNEL_BUSY : Nat := 0x11
def Outc.FAILED_PORT_FAULT : Nat := 0x12
def Outc.FAILED_AUTH : Nat := 0x13
def Outc.FAILED_DRIFT : Nat := 0x14
def Outc.REFUSED_FULL : Nat := 0x20
def Outc.REFUSED_BUDGET : Nat := 0x21
def Outc.REFUSED_DWELL : Nat := 0x22
def Outc.REFUSED_ZERO_LEN : Nat := 0x23
def Outc.REFUSED_TOO_LONG : Nat := 0x24
def Outc.REFUSED_QUEUE_STATE : Nat := 0x25
def Outc.EXPIRED_DEADLINE : Nat := 0x30
def Outc.CANCELLED_HOST : Nat := 0x31

/-- DELAY_REASON values (R262). -/
def Delay.NONE : Nat := 0
def Delay.BUDGET : Nat := 1
def Delay.DWELL : Nat := 2
def Delay.BUSY : Nat := 3
def Delay.PREEMPT : Nat := 4
def Delay.SLEEPY : Nat := 5
def Delay.THROTTLE : Nat := 6

/-- The completion record of a message (R271); `t` is the outcome instant. -/
def State.completionRec (s : State) (n : Nat) (m : Msg) (code lqi t : Nat) (redirect : Bool) : Rec :=
  let p := s.plan n m
  let mt := s.mainsTime t
  let wait := match m.firstT0 with
    | some t0 => Nat.min ((t0 - m.accepted) * 10 / 2048) 0xFFFF
    | none => 0xFFFF
  ⟨[BitVec.ofNat 32 (2 ^ 31 + 2 * 2 ^ 28 + p.port * 2 ^ 24 + p.cls * 2 ^ 22 + redirect.toNat * 2 ^ 16 + code * 2 ^ 8
      + m.attempts % 256),
    BitVec.ofNat 32 (m.tag % 65536 + n * 65536),
    BitVec.ofNat 32 (p.dst + (m.seq.getD 0) * 4096 + lqi * 2 ^ 24),
    BitVec.ofNat 32 m.counter] ++ stampWords t ++ [BitVec.ofNat 32 mt.1, BitVec.ofNat 32 (mt.2 + wait * 65536)], [], t⟩

/-- Files the completion record of a message: classes 1 to 3 naming ring 0 go to the queue's ring with REDIRECT (R267). Link
firmware is told of its own messages without a record (R253); a host push that its queues refuse has one (R53). -/
def State.fileCompletion (n : Nat) (m : Msg) (code lqi t : Nat) (refusal : Bool) (s : State) : State :=
  let p := s.plan n m
  if isLinkQueue n ∧ refusal = false then s else
  let redirect := decide (p.compRing = 0) && decide (p.cls ≠ 0)
  let ring := if redirect then (s.queue n).compRing else p.compRing
  let c0 := if p.cls = 0 ∧ refusal = false then m.ord else 0
  s.setDue (s.wad.due ++ [⟨ring, s.completionRec n m code lqi t redirect, refusal, false, c0⟩])

/-- The outcome counters of page WAD and of the queue (R266). -/
def State.countOutcome (n code : Nat) (s : State) : State :=
  let s :=
    if code < 0x10 then s.count Pg.WAD WAD.DELIVERED_CNT
    else if code < 0x20 then s.count Pg.WAD WAD.FAILED_CNT
    else if code < 0x30 then s.count Pg.WAD WAD.REFUSED_CNT
    else if code = Outc.EXPIRED_DEADLINE then s.count Pg.WAD WAD.EXPIRED_CNT
    else s.count Pg.WAD WAD.CANCELLED_CNT
  let q := s.queue n
  s.setQueue n (if code < 3 then { q with endedOk := q.endedOk + 1 } else { q with endedOther := q.endedOther + 1 })

/-- The queue's safe point (R255): with no message in flight, the descriptor set that the page WQD has armed for it becomes
the queue's. -/
def State.queueSafe (n : Nat) (s : State) : State :=
  if s.get Pg.WQD WQD.QD_IDX = n ∧ s.flag Pg.WQD CFG.ARMED ∧ s.inFlight n = false then
    let s := s.safeAll Pg.WQD
    s.setQueue n { s.queue n with d14 := s.reg Pg.WQD 0x014, d18 := s.reg Pg.WQD 0x018, d1C := s.reg Pg.WQD 0x01C,
                                  d20 := s.reg Pg.WQD 0x020 }
  else s

/-- Forgets the attempt, the acknowledgement window and the dispatched job of a message. -/
def State.dropAttempt (n tag : Nat) (s : State) : State :=
  let s : State := { s with mac := { s.mac with
    attempts := s.mac.attempts.filter fun a => !(decide (a.queue = n) && decide (a.tag = tag))
    wins := s.mac.wins.filter fun w => !(decide (w.queue = n) && decide (w.tag = tag)) } }
  s.endJob (.tx n tag)

/-- What link firmware takes from the end of a message: successive FAILED_NOACK outcomes of the endpoint's route (R238), and the
instant from which a session waits for the answer to its open, segment or query (R244, R246). -/
def State.linkTold (n : Nat) (m : Msg) (code t : Nat) (s : State) : State :=
  let dst := (s.plan n m).dst
  let r := Tab.get (fun _ => EpRec.idle) s.lnk.eps dst
  let k := if code = Outc.FAILED_NOACK then r.noAck + 1 else if code < 2 then 0 else r.noAck
  let own := isLinkQueue n && (decide (m.ftype = 6) || decide (m.ftype = 7) || decide (m.ftype = 9))
  let sess := if own then s.lnk.sess.map fun e => (e.1, e.2.map fun x =>
      if x.ep = dst ∧ x.rx = false ∧ x.sid = (m.payload.headD 0).toNat ∧ x.waitFrom.isSome then { x with waitFrom := some t }
      else x)
    else s.lnk.sess
  let eps := if r.state = EpState.absent then s.lnk.eps else Tab.set (fun _ => EpRec.idle) s.lnk.eps dst { r with noAck := k }
  { s with lnk := { s.lnk with eps := eps, sess := sess } }

/-- A message ends with an outcome at tick `t` (R266): its completion record is filed, it leaves its queue, and the queue
reaches its safe point. -/
def State.endMsg (n tag code lqi t : Nat) (s : State) : State :=
  match s.msg n tag with
  | none => s
  | some m =>
    let s := ((s.fileCompletion n m code lqi t false).countOutcome n code).linkTold n m code t
    let s := onlyIf (decide (code = Outc.REFUSED_BUDGET)) (State.event Pg.WAD WAD.EV_BUDGET_REFUSED) s
    let q := s.queue n
    let s := s.setQueue n { q with msgs := q.msgs.filter fun x => decide (x.tag ≠ tag) }
    (s.dropAttempt n tag).queueSafe n

/-- Shows a DELAY_REASON for a waiting message at tick `t`; time shown as BUDGET adds up (R262, R263). -/
def State.showDelay (n tag why t : Nat) (s : State) : State :=
  s.modMsg n tag fun m =>
    let add := if m.delay = Delay.BUDGET then t - m.delayAt else 0
    { m with delay := why, delayAt := t, budgetTicks := m.budgetTicks + add }

/-! ## Submission (R256 to R259) -/

/-- The next tag for a queue (R259): counting up, skipping 0 and the tags its messages hold. -/
def nextTagFrom (held : List Nat) : Nat → Nat → Nat
  | 0, t => t
  | fuel + 1, t =>
    let t := if t % 65536 = 0 then 1 else t % 65536
    if t ∈ held then nextTagFrom held fuel (t + 1) else t

/-- A new message with a tag. -/
def newMsg (tag : Nat) (hdr : List Word) (payload : List Byte) (ftype ord t : Nat) (deadline : Option Nat) : Msg :=
  ⟨tag, hdr, payload, ftype, ord, t, deadline, 0, none, false, false, 0, t, 0, false, none, 0, [], t, 0, false, false, false, false⟩

/-- The device is a DEEPEN slave: its engines receive the master's ports, and it uses neither its ports nor its queues
(R396). -/
def State.deepenSlave (s : State) : Bool :=
  decide (s.get Pg.CAV CAV.STATE ≠ 0) && decide (s.get Pg.CAV CAV.MODE = 1) && !s.flag Pg.CAV CAV.ROLE

/-- The checks of R258 on a submission to queue n, in order; `fw` marks a submission of link firmware, which may use its own
queues. The first code that applies refuses it. -/
def State.submitCheck (s : State) (n : Nat) (m : Msg) (bytes : Nat) (fw : Bool) : Option Nat :=
  let q := s.queue n
  let p := s.plan n m
  let raw := s.isRaw n
  let modeBad := decide (modeMod p.mode = 3) || decide (modeCode p.mode = 3)
  let hops := if raw then hdrBits m 1 26 3 else (s.routeOf p.dst).length
  let ch := s.get (Pg.TXS p.port) (TXS.RATE.nth p.ch)
  let copy := copySymbols (s.get (Pg.TXS p.port) (TXS.PREAMBLE.nth p.ch)) (modeMod p.mode) (modeCode p.mode)
    (s.fieldLen p bytes)
  let prof := (if p.ch < 8 then s.get Pg.DWL (DWL.CH_PROF_LO.nth p.port) else s.get Pg.DWL (DWL.CH_PROF_HI.nth p.port))
    / 2 ^ (4 * (p.ch % 8)) % 16
  if bytes = 0 then some Outc.REFUSED_ZERO_LEN
  else if q.isOpen = false ∨ ((isLinkQueue n ∨ s.deepenSlave) ∧ fw = false) ∨ (raw ∧ s.get Pg.MAC MAC.REGIME = 0)
      ∨ (raw ∧ (p.ftype = 1 ∨ p.dst = 0)) ∨ ((raw ∨ hdrBits m 0 11 1 = 1) ∧ modeBad) then some Outc.REFUSED_QUEUE_STATE
  else if 232 < bytes ∨ (p.sec ∧ 232 - routeBytes hops < bytes) ∨ (raw ∧ 4 < hops) then some Outc.REFUSED_TOO_LONG
  else if q.capacity ≤ q.msgs.length ∨ s.poolFree = 0 then some Outc.REFUSED_FULL
  else if p.cls ≠ 0 ∧ s.flag Pg.DWL (DWL.EN.nth prof)
      ∧ s.get Pg.DWL (DWL.MAX_ON_MS.nth prof) * 2048 < airTicks ch (copy + 2) then some Outc.REFUSED_DWELL
  else none

/-- Counts a dwell refusal (R218). -/
def State.dwellRefused (s : State) : State := (s.count Pg.DWL DWL.DWELL_REFUSED_CNT).event Pg.DWL DWL.EV_DWELL_REFUSED

/-- DEADLINE of a message: its header's, which a raw header does not have, else the queue's (R256, R257, R263). -/
def State.deadlineMs (s : State) (n : Nat) (m : Msg) : Nat :=
  let own := if s.isRaw n then 0 else hdrBits m 1 0 16
  if own = 0 then (s.queue n).defDeadline else own

/-- Submits a message to queue n (R258, R259): gives it a tag, and accepts or refuses it. Answers the tag and the refusal
code. -/
def State.submit (n : Nat) (hdr : List Word) (payload : List Byte) (ftype : Nat) (fw : Bool) (s : State) :
    (Nat × Option Nat) × State :=
  let q := s.queue n
  let tag := nextTagFrom (q.msgs.map (·.tag)) 65536 s.wad.nextTag
  let s : State := { s with wad := { s.wad with nextTag := (tag + 1) % 65536, nextOrd := s.wad.nextOrd + 1 } }
  let m := newMsg tag hdr payload ftype s.wad.nextOrd s.time none
  match s.submitCheck n m payload.length fw with
  | some code =>
    let s := onlyIf (decide (code = Outc.REFUSED_DWELL)) State.dwellRefused s
    ((tag, some code), (onlyIf (!fw) (State.fileCompletion n m code 0 s.time true) s).countOutcome n code)
  | none =>
    let dl := s.deadlineMs n m
    let m := { m with deadline := if q.cls = 1 ∧ dl ≠ 0 then some (s.time + msTicks dl) else none
                      after := if q.cls = 0 then Tab.get (fun _ => 0) s.wad.c0Last q.port else 0 }
    let s := s.setQueue n { q with msgs := q.msgs ++ [m], accepted := q.accepted + 1 }
    let s := s.count Pg.WAD WAD.ACCEPTED_CNT
    let s : State := if q.cls = 0 then
        let s : State := { s with wad := { s.wad with c0Last := Tab.set (fun _ => 0) s.wad.c0Last q.port m.ord } }
        s.count Pg.WAD WAD.C0_ACCEPTED_CNT
      else s
    ((tag, none), onlyIf (decide (s.poolFree * 16 < s.poolSize)) (State.event Pg.WAD WAD.EV_POOL_LOW) s)

/-! ## Queue windows -/

/-- Queue window n. -/
def State.window (s : State) (n : Nat) : Window := Tab.get (fun _ => Window.idle) s.host.win n

/-- Replaces queue window n. -/
def State.setWindow (n : Nat) (w : Window) (s : State) : State :=
  { s with host := { s.host with win := Tab.set (fun _ => Window.idle) s.host.win n w } }

/-- LAST_RESULT: KIND in bits 9:8, CODE in bits 7:0, TAG in bits 31:16. -/
def lastResultWord (kind code tag : Nat) : Word := BitVec.ofNat 32 (tag * 65536 + kind * 256 + code)

/-- A window error: KIND WINDOW_ERROR, TAG 0. -/
def State.windowError (n code : Nat) (s : State) : State := s.setWindow n { s.window n with lastResult := lastResultWord 3 code 0 }

/-- BIND (R54): the new queue takes effect; an open push is discarded with PUSH_ABORTED. -/
def State.qwBind (n : Nat) (v : Word) (s : State) : State :=
  let w := s.window n
  let s := onlyIf w.push.isSome (State.windowError n 0x04) s
  s.setWindow n { s.window n with bindValid := decide (v.toNat / 2 ^ 31 = 1), bindQueue := v.toNat % 8192, push := none }

/-- PUSH_HDR0 (R52): opens a push, discarding an open one; NOT_BOUND where the window is not bound. -/
def State.qwPushHdr0 (n : Nat) (v : Word) (s : State) : State :=
  let w := s.window n
  if w.bindValid then s.setWindow n { w with push := some ⟨[v, 0, 0, 0], [], false⟩ }
  else (s.setWindow n { w with push := none }).windowError n 0x01

/-- PUSH_HDR1 to PUSH_HDR3 (R52, R54). -/
def State.qwPushHdr (n i : Nat) (v : Word) (s : State) : State :=
  let w := s.window n
  match w.push with
  | none => s.windowError n 0x02
  | some p => s.setWindow n { w with push := some { p with hdr := p.hdr.set i v } }

/-- PUSH_DATA (R52, R54): appends one word; beyond 16,384 words the push is too long. -/
def State.qwPushData (n : Nat) (v : Word) (s : State) : State :=
  let w := s.window n
  match w.push with
  | none => s.windowError n 0x02
  | some p =>
    if p.words.length < 16384 then s.setWindow n { w with push := some { p with words := p.words ++ [v] } }
    else s.setWindow n { w with push := some { p with tooLong := true } }

/-- Refuses the push of a window with an outcome code that the window itself finds (R52): the submission gets a tag and a
completion record all the same (R53). -/
def State.refusePush (n : Nat) (p : OpenPush) (code : Nat) (s : State) : Nat × State :=
  let qn := (s.window n).bindQueue
  let tag := nextTagFrom ((s.queue qn).msgs.map (·.tag)) 65536 s.wad.nextTag
  let s : State := { s with wad := { s.wad with nextTag := (tag + 1) % 65536 } }
  let m := newMsg tag p.hdr [] 0 s.wad.nextOrd s.time none
  (tag, (s.fileCompletion qn m code 0 s.time true).countOutcome qn code)

/-- PUSH_END (R52, R53): closes the push, checks BYTES in order, and hands the message to Wadi. FTYPE of a host message is
DATA (0x0). -/
def State.qwPushEnd (n bytes : Nat) (s : State) : State :=
  let w := s.window n
  match w.push with
  | none => s.windowError n 0x02
  | some p =>
    let s := s.setWindow n { w with push := none }
    let words := p.words.length
    if bytes = 0 then
      let (tag, s) := s.refusePush n p Outc.REFUSED_ZERO_LEN
      s.setWindow n { s.window n with lastResult := lastResultWord 2 Outc.REFUSED_ZERO_LEN tag }
    else if p.tooLong then
      let (tag, s) := s.refusePush n p Outc.REFUSED_TOO_LONG
      s.setWindow n { s.window n with lastResult := lastResultWord 2 Outc.REFUSED_TOO_LONG tag }
    else if bytes ≤ 4 * (words - 1) ∨ 4 * words < bytes then s.windowError n 0x03
    else
      let payload := (p.words.flatMap fun v => leBytes 4 v.toNat).take bytes
      let ((tag, code), s) := s.submit w.bindQueue p.hdr payload 0 false
      match code with
      | none => s.setWindow n { s.window n with lastResult := lastResultWord 1 0 tag }
      | some c => s.setWindow n { s.window n with lastResult := lastResultWord 2 c tag }

/-- POP_HDR0 (R55): with no record open, opens the oldest record of the ring, or answers 0. -/
def State.qwPopHdr0 (n : Nat) (s : State) : State :=
  let w := s.window n
  match w.pop with
  | some (r, _) => s.answer (r.hdr.getD 0 0)
  | none =>
    match (s.ring n).recs with
    | [] => s.answer 0
    | r :: _ => (s.setWindow n { w with pop := some (r, 0) }).answer (r.hdr.getD 0 0)

/-- POP_HDR1 to POP_HDR7 (R55). -/
def State.qwPopHdr (n i : Nat) (s : State) : State :=
  match (s.window n).pop with
  | some (r, _) => s.answer (r.hdr.getD i 0)
  | none => s.answer 0

/-- POP_DATA (R55): the next payload word; past the last word 0 and POP_PAST_END. -/
def State.qwPopData (n : Nat) (s : State) : State :=
  let w := s.window n
  match w.pop with
  | none => (s.windowError n 0x05).answer 0
  | some (r, i) =>
    if 4 * i < r.payload.length then
      (s.setWindow n { w with pop := some (r, i + 1) }).answer (BitVec.ofNat 32 (leNat ((r.payload.drop (4 * i)).take 4)))
    else (s.windowError n 0x06).answer 0

/-- POP_END RELEASE (R55): frees the open record. -/
def State.qwRelease (n : Nat) (s : State) : State :=
  let w := s.window n
  match w.pop with
  | none => s.windowError n 0x05
  | some _ =>
    let s := s.setWindow n { w with pop := none }
    s.setRing n { s.ring n with recs := (s.ring n).recs.tail }

/-- POP_END REWIND (R55): the next POP_DATA read returns the first payload word again. -/
def State.qwRewind (n : Nat) (s : State) : State :=
  let w := s.window n
  match w.pop with
  | none => s.windowError n 0x05
  | some (r, _) => s.setWindow n { w with pop := some (r, 0) }

/-- RSTATUS of ring n. -/
def State.rstatus (s : State) (n : Nat) : Word :=
  let held := (s.wad.due.filter fun d => decide (d.ring = n) && d.held).length
  BitVec.ofNat 32 (Nat.min held 255 * 2 ^ 24 + (s.lossPending n).toNat * 2 ^ 18 + (s.ringActive n).toNat * 2 ^ 17
    + (s.ringEn n).toNat * 65536 + Nat.min (s.ring n).recs.length 0xFFFF)

/-! ## WQD commands (R254, R264) -/

/-- A WQD command is refused: CFG_ERR with the code, and CMD_REFUSED. -/
def State.wqdRefuse (code : Nat) (s : State) : State := (s.refuse Pg.WQD code 0x040).event Pg.WQD WQD.EV_CMD_REFUSED

/-- The indexed queue belongs to link firmware: host commands on its descriptor are refused (R253). -/
def State.wqdCmd (f : Nat → State → State) (s : State) : State :=
  let n := s.get Pg.WQD WQD.QD_IDX
  if isLinkQueue n then s.wqdRefuse ErrCode.NOT_PERMITTED else f n s

/-- OPEN of a CLOSED queue: refused with STATE while the page is DIRTY or ARMED. R254 has no row for OPEN of another queue
(DEDUCED, log entry 113: nothing happens). -/
def State.wqdOpen (n : Nat) (s : State) : State :=
  if s.queueState n ≠ 0 then s
  else if s.flag Pg.WQD CFG.PENDING then s.wqdRefuse ErrCode.STATE
  else s.setQueue n { s.queue n with isOpen := true }

/-- PAUSE and RESUME of a queue that is not CLOSED: HOST_PAUSE takes the value `on`. R254 has no row for a CLOSED queue
(DEDUCED, log entry 113: nothing happens). -/
def State.wqdPause (on : Bool) (n : Nat) (s : State) : State :=
  if s.queueState n = 0 then s else s.setQueue n { s.queue n with hostPause := on }

/-- Ends every waiting message of a queue CANCELLED_HOST (R254). -/
def State.cancelWaiting (n : Nat) (s : State) : State :=
  forEach ((s.queue n).msgs.filter fun m => !m.inFlight) (fun m s => s.endMsg n m.tag Outc.CANCELLED_HOST 0 s.time) s

/-- Acts on a message in flight as R264 states for CANCEL: off the line it ends at once, on the line it makes no further
attempt. -/
def State.cancelInFlight (n : Nat) (s : State) : State :=
  forEach ((s.queue n).msgs.filter (·.inFlight)) (fun m s =>
    if m.onLine then s.modMsg n m.tag fun x => { x with cancelled := true }
    else s.endMsg n m.tag Outc.CANCELLED_HOST 0 s.time) s

/-- CLOSE: refuses further pushes, ends every waiting message, and treats one in flight under R264. -/
def State.wqdClose (n : Nat) (s : State) : State :=
  ((s.setQueue n { s.queue n with isOpen := false }).cancelWaiting n).cancelInFlight n

/-- CANCEL: acts on the tagged message; a tag that names none is refused with STATE (R264). -/
def State.wqdCancel (n tag : Nat) (s : State) : State :=
  match s.msg n tag with
  | none => s.wqdRefuse ErrCode.STATE
  | some m =>
    if m.onLine then s.modMsg n tag fun x => { x with cancelled := true }
    else s.endMsg n tag Outc.CANCELLED_HOST 0 s.time

/-- EXPIRED_DEADLINE (R263): a class-1 message whose deadline has passed while it is not on the line ends. -/
def execExpiredDeadline (t : Nat) (queue : Fin 8192) (tag : BitVec 16) (s : State) : Res :=
  let s := s.atTick t
  finish (match s.msg queue.val tag.toNat with
    | some m =>
      let due : Bool := match m.deadline with
        | some d => decide (d ≤ t)
        | none => false
      if due = true ∧ m.onLine = false then s.endMsg queue.val tag.toNat Outc.EXPIRED_DEADLINE 0 t else s
    | none => s)

/-- REFUSED_BUDGET (R263): a class-2 or class-3 message that has shown BUDGET for BUDGET_WAIT_MS in total ends. -/
def execRefusedBudget (t : Nat) (queue : Fin 8192) (tag : BitVec 16) (s : State) : Res :=
  let s := s.atTick t
  let n := queue.val
  finish (match s.msg n tag.toNat with
    | some m =>
      let shown := m.budgetTicks + (if m.delay = Delay.BUDGET then t - m.delayAt else 0)
      let limit := (s.queue n).budgetWait
      if (2 ≤ (s.queue n).cls) ∧ limit ≠ 0 ∧ msTicks limit ≤ shown ∧ m.inFlight = false then
        s.endMsg n tag.toNat Outc.REFUSED_BUDGET 0 t
      else s
    | none => s)

/-- LOSS_RECORD_WRITE (R269): a full ring has freed an entry, and its LOSS record is written before any other. -/
def execLossRecordWrite (t : Nat) (ring : Fin 64) (s : State) : Res := finish ((s.atTick t).flushLoss ring.val)

/-- RING_HOLD_EXPIRY (R270): the tick at which a record of the ring becomes older than INT_HOLD_US. The ring is active from
then on (State.ringActive reads the ages), and `finish` raises its vector. -/
def execRingHoldExpiry (t : Nat) (_ring : Fin 64) (s : State) : Res := finish (s.atTick t)

end Sys2Proof.Machine
end

