-- ==== Sys2Proof/Machine/Events.lean ====
section
/-! DEFINITION. Endpoint records of link firmware and the events that it reports (10_slafer_link_protocol.md, R239, R251). -/
namespace Sys2Proof.Machine

/-- Link firmware runs. -/
def State.fwRunning (s : State) : Bool := decide (s.get Pg.LNK LNK.FW_STATE = 2)

/-- The record of an endpoint address. -/
def State.ep (s : State) (a : Nat) : EpRec := Tab.get (fun _ => EpRec.idle) s.lnk.eps a

/-- Replaces the record of an endpoint address. -/
def State.setEp (a : Nat) (r : EpRec) (s : State) : State :=
  { s with lnk := { s.lnk with eps := Tab.set (fun _ => EpRec.idle) s.lnk.eps a r } }

/-- Changes what link firmware keeps beside its registers. -/
def State.modLnk (f : LnkSt → LnkSt) (s : State) : State := { s with lnk := f s.lnk }

/-- Event kinds (R251). -/
def Evt.ENDPOINT_STATE : Nat := 0x01
def Evt.ENDPOINT_BOOT : Nat := 0x02
def Evt.COUNTER_JUMP : Nat := 0x03
def Evt.COUNTER_LOST : Nat := 0x04
def Evt.REKEY_DUE : Nat := 0x05
def Evt.UNKNOWN_SOURCE : Nat := 0x06
def Evt.ROUTE_CHANGE : Nat := 0x07
def Evt.SESSION_DONE : Nat := 0x10
def Evt.EVT_OVERFLOW : Nat := 0x20

/-- Events that the FIFO holds. -/
def evtMax : Nat := 1024

/-- The 8 words of an event at the present instant. -/
def State.evtWords (s : State) (kind addr code : Nat) (args : List Nat) : List Word :=
  let m := s.mainsTime s.time
  ([kind % 256 + addr % 4096 * 256 + code % 256 * 2 ^ 20, args.getD 0 0, args.getD 1 0, args.getD 2 0, s.time,
    s.time / 2 ^ 32, m.1, m.2]).map (BitVec.ofNat 32)

/-- Appends an event; EVT_READY where the FIFO was empty. -/
def State.evtPut (w : List Word) (s : State) : State :=
  let was := s.lnk.events
  onlyIf (decide (was = [])) (State.event Pg.LNK LNK.EV_EVT_READY) (s.modLnk fun l => { l with events := was ++ [w] })

/-- Running link firmware reports an event; a full FIFO drops it. -/
def State.evt (kind addr code : Nat) (args : List Nat) (s : State) : State :=
  if s.fwRunning = false then s
  else if evtMax ≤ s.lnk.events.length then
    ((s.count Pg.LNK LNK.EVT_LOST_CNT).event Pg.LNK LNK.EV_EVT_LOST).modLnk fun l => { l with evtLost := l.evtLost + 1 }
  else s.evtPut (s.evtWords kind addr code args)

/-- The states of R239 numbered in the order of its table. -/
def EpState.index : EpState → Nat
  | .absent => 0
  | .provisioned => 1
  | .active => 2
  | .silent => 3
  | .drifted => 4
  | .counterLost => 5

/-- An endpoint record moves to a state, and link firmware reports it (R239). -/
def State.epTo (a : Nat) (st : EpState) (s : State) : State :=
  (s.setEp a { s.ep a with state := st }).evt Evt.ENDPOINT_STATE a (Config.epCode (EpState.index st)) []

/-- A sleepy endpoint is awake: after a frame with MORE, and for a while after the last segment of a burst (R230, R246). -/
def State.isAwake (s : State) (a : Nat) : Bool := (s.ep a).awakeMore || decide (s.time < (s.ep a).awakeTill)

/-- A frame to an endpoint has ended on the line: how long a sleepy receiver then stays awake (R230, R246). -/
def State.noteAwake (a ftype : Nat) (more : Bool) (t : Nat) (s : State) : State :=
  let r := s.ep a
  if r.sleepy = false then s
  else if ftype = 7 then
    s.setEp a { r with awakeMore := more, awakeTill := if more then r.awakeTill else t + msTicks (s.get Pg.LNK LNK.SACK_WAIT_MS) }
  else if more then s.setEp a { r with awakeTill := Nat.max r.awakeTill (t + msTicks 50) }
  else s

/-- The message goes only after a wake train (R213): a normal queue of classes 1 to 3 to a sleepy endpoint that is not awake, in
NORMAL (R211). -/
def State.isSleepy (s : State) (n : Nat) (p : Plan) : Bool :=
  decide (p.cls ≠ 0) && !s.isRaw n && decide (s.get Pg.MAC MAC.REGIME = 0) && (s.ep p.dst).sleepy
    && !s.isAwake p.dst

/-- Messages of classes 1 to 3 that are pending for an endpoint. -/
def State.pendingFor (s : State) (a : Nat) : List (Nat × Nat) :=
  s.wad.queues.flatMap fun e =>
    if s.isRaw e.1 then [] else (e.2.msgs.filter fun m =>
      let p := s.plan e.1 m
      decide (p.dst = a) && decide (p.cls ≠ 0)).map fun m => (e.1, m.tag)

/-- Every pending message of an endpoint ends. -/
def State.endPending (a code t : Nat) (s : State) : State := forEach (s.pendingFor a) (fun e s => s.endMsg e.1 e.2 code 0 t) s

/-- A wake train of an endpoint has failed (R215): after MISS_LIMIT an ACTIVE endpoint is DRIFTED (R239), after FULL_LIMIT
full-interval trains its messages end. -/
def State.trainFailed (a t : Nat) (s : State) : State :=
  let s := s.count Pg.MAC MAC.WAKE_FAIL_CNT
  let r := s.ep a
  if r.state = .drifted then
    if s.get Pg.MAC MAC.FULL_LIMIT ≤ r.fullMissed + 1 then (s.setEp a { r with fullMissed := 0 }).endPending a Outc.FAILED_DRIFT t
    else s.setEp a { r with fullMissed := r.fullMissed + 1 }
  else if r.state = .active ∧ s.get Pg.MAC MAC.MISS_LIMIT ≤ r.missed + 1 then
    ((s.setEp a { r with missed := 0, fullMissed := 0 }).count Pg.MAC MAC.DRIFTED_CNT).epTo a .drifted
  else s.setEp a { r with missed := r.missed + 1 }

end Sys2Proof.Machine
end

