-- ==== Sys2Proof/Machine/Frame.lean ====
section
/-! DEFINITION. Frames of the frame path (05_slafer_waveform.md, 10_slafer_link_protocol.md): key-store slots and the MRAM
journal of their counters (R429, R430), SEQ and frame counters (R233, R453), the CCM nonce and authenticated data (R231,
R232), and the data field of an outgoing message. -/
namespace Sys2Proof.Machine

/-! ## Key store -/

/-- Key-store slot n. -/
def State.keySlot (s : State) (n : Nat) : KeySlot := Tab.get (fun _ => KeySlot.idle) s.key.slots n

/-- Replaces key-store slot n. -/
def State.setKeySlot (n : Nat) (k : KeySlot) (s : State) : State :=
  { s with key := { s.key with slots := Tab.set (fun _ => KeySlot.idle) s.key.slots n k } }

/-- The slot bound to an endpoint address. -/
def State.slotOf (s : State) (addr : Nat) : Option Nat :=
  (List.find? (fun e => decide (e.2.addr = some addr)) s.key.slots).map (·.1)

/-- Bound endpoint slots. -/
def State.boundCount (s : State) : Nat := (s.key.slots.filter fun e => e.2.addr.isSome).length

/-! ## Counter journal (R430) -/

/-- First word and length of the counter journal (R429). -/
def journalBase : Nat := 16384
def journalLen : Nat := 196608

/-- Word n of the MRAM. -/
def State.mramWord (s : State) (n : Nat) : Word := Tab.get (fun _ => 0) s.mrm.words n

/-- Writes word n of the MRAM. -/
def State.setMram (n : Nat) (v : Word) (s : State) : State :=
  { s with mrm := { s.mrm with words := Tab.set (fun _ => 0) s.mrm.words n v } }

/-- A journal position holds the latest record of the counter that its word names. -/
def State.journalLatest (s : State) (pos : Nat) : Bool :=
  let n := (s.mramWord (journalBase + pos)).toNat / 2 ^ 19
  decide (Tab.get (fun _ => 0) s.mrm.latest n = pos + 1)

/-- Moves the head by one word; a complete rotation counts (JOURNAL_PASSES). -/
def State.journalStep (s : State) : State :=
  let h := s.get Pg.MRM MRM.JOURNAL_HEAD
  if h + 1 = journalLen then
    (s.put Pg.MRM MRM.JOURNAL_HEAD 0).put Pg.MRM MRM.JOURNAL_PASSES (s.get Pg.MRM MRM.JOURNAL_PASSES + 1)
  else s.put Pg.MRM MRM.JOURNAL_HEAD (h + 1)

/-- Before overwriting a word that holds a counter's latest record, the journal rewrites that record at the head (R430):
the head passes it. -/
def State.journalSkip : Nat → State → State
  | 0, s => s
  | n + 1, s => if s.journalLatest (s.get Pg.MRM MRM.JOURNAL_HEAD) then State.journalSkip n s.journalStep else s

/-- Appends a record of counter `n` with value `c`; when bits 31:19 change, the base word goes first (R430). -/
def State.journal (n c : Nat) (s : State) : State :=
  let base := 10384 + n
  let s := if (s.mramWord base).toNat / 2 ^ 19 = c / 2 ^ 19 then s else s.setMram base (BitVec.ofNat 32 (c / 2 ^ 19 * 2 ^ 19))
  let fresh := decide (Tab.get (fun _ => 0) s.mrm.latest n = 0)
  let s := State.journalSkip 4097 s
  let h := s.get Pg.MRM MRM.JOURNAL_HEAD
  let s := s.setMram (journalBase + h) (BitVec.ofNat 32 (n % 8192 * 2 ^ 19 + c % 2 ^ 19))
  let s : State := { s with mrm := { s.mrm with latest := Tab.set (fun _ => 0) s.mrm.latest n (h + 1) } }
  let s := onlyIf fresh (fun s => s.put Pg.MRM MRM.LIVE (s.get Pg.MRM MRM.LIVE + 1)) s
  s.journalStep

/-- Stores a new TX_CTR of a slot, in the key store and in the journal (R233). -/
def State.setTxCtr (slot c : Nat) (s : State) : State :=
  (s.setKeySlot slot { s.keySlot slot with txCtr := c }).journal (slot + 2048) c

/-- Stores a new CTR_HI of a slot (R234). -/
def State.setCtrHi (slot c : Nat) (s : State) : State :=
  (s.setKeySlot slot { s.keySlot slot with ctrHi := c }).journal slot c

/-- Stores a new TX_CTR of the grid key (R430). -/
def State.setGridCtr (c : Nat) (s : State) : State :=
  { s with key := { s.key with grid := { s.key.grid with txCtr := c } } }.journal 4096 c

/-! ## CCM of frames (R231, R232) -/

/-- The nonce of a frame: grid ID, key owner and direction, frame counter, SEQ and FTYPE. -/
def ccmNonce (owner : Nat) (headEnd : Bool) (counter seq ftype : Nat) : List Byte :=
  leBytes 3 Config.gridId ++ leBytes 2 (owner % 4096 + headEnd.toNat * 2 ^ 15) ++ leBytes 4 counter
    ++ leBytes 2 (seq % 4096 + ftype % 16 * 4096) ++ [0, 0]

/-- The authenticated data: the MAC header with DST, HOPS and DUP zero, and the security header. -/
def ccmAad (h : MacHeader) (counter : Nat) : List Byte :=
  leBytes 7 { h with dst := 0, hops := 0, dup := false }.toNat ++ leBytes 4 counter

/-- The secured data field of a frame: header, counter, route list, encrypted payload, MIC and FCS. -/
def securedField (key : List Byte) (owner : Nat) (headEnd : Bool) (h : MacHeader) (counter : Nat) (route : List Nat)
    (payload : List Byte) : List Byte :=
  let nonce := ccmNonce owner headEnd counter h.seq h.ftype
  withFcs (leBytes 7 h.toNat ++ leBytes 4 counter ++ encodeRoute route ++ ccmCrypt key nonce payload
    ++ ccmTag key nonce (ccmAad h counter) payload)

/-- The unsecured data field of a frame. -/
def plainField (h : MacHeader) (route : List Nat) (payload : List Byte) : List Byte :=
  withFcs (leBytes 7 h.toNat ++ encodeRoute route ++ payload)

/-- The decrypted payload of a secured field under a key. -/
def openPayload (key : List Byte) (owner : Nat) (headEnd : Bool) (field : List Byte) : List Byte :=
  let h := fieldHeader field
  ccmCrypt key (ccmNonce owner headEnd (fieldCounter field) h.seq h.ftype) (fieldPayload field)

/-- The MIC of a secured field is the CCM tag (R232). -/
def micOk (key : List Byte) (owner : Nat) (headEnd : Bool) (field : List Byte) : Bool :=
  let h := fieldHeader field
  let nonce := ccmNonce owner headEnd (fieldCounter field) h.seq h.ftype
  decide (ccmTag key nonce (ccmAad h (fieldCounter field)) (openPayload key owner headEnd field) = fieldMic field)

/-- The same field with DUP set and its FCS computed again (R230, R233). -/
def withDup (field : List Byte) : List Byte :=
  let h := fieldHeader field
  withFcs (leBytes 7 { h with dup := true }.toNat ++ (field.drop 7).take (field.length - 11))

/-! ## Outgoing frames -/

/-- DST and route list of an outgoing frame: a queue's route gives its first relay, then the others and the endpoint (R237,
R238); a raw message gives both itself (R257). -/
def State.airPath (s : State) (p : Plan) : Nat × List Nat :=
  match p.rawRoute with
  | some r => (p.dst, r)
  | none =>
    match s.routeOf p.dst with
    | [] => (p.dst, [])
    | h :: t => (h, t ++ [p.dst])

/-- Final destination of an outgoing frame, its key owner (R231). -/
def State.finalDst (s : State) (p : Plan) : Nat := ((s.airPath p).2.getLast?).getD p.dst

/-- A secured message that cannot be secured: no grid key for a broadcast (R231), no slot for its endpoint, or a TX_CTR
that has reached 0xFFFF_FFFF (R233). -/
def State.cannotSecure (s : State) (p : Plan) : Bool :=
  if p.sec = false then false
  else
    let owner := s.finalDst p
    if owner = 0xFFF then decide (s.key.grid.key = []) || decide (0xFFFFFFFF ≤ s.key.grid.txCtr)
    else match s.slotOf owner with
      | none => true
      | some n => decide (0xFFFFFFFF ≤ (s.keySlot n).txCtr)

/-- Takes the next SEQ for a destination: a slot's counter, the device-wide counter of broadcasts, or the counter of an
address without slot (R453). -/
def State.takeSeq (owner : Nat) (s : State) : Nat × State :=
  if owner = 0xFFF then
    (s.key.bcastSeq, { s with key := { s.key with bcastSeq := (s.key.bcastSeq + 1) % 4096 } })
  else match s.slotOf owner with
    | some n =>
      let k := s.keySlot n
      (k.seq, s.setKeySlot n { k with seq := (k.seq + 1) % 4096 })
    | none =>
      let q := Tab.get (fun _ => 0) s.key.addrSeq owner
      (q, { s with key := { s.key with addrSeq := Tab.set (fun _ => 0) s.key.addrSeq owner ((q + 1) % 4096) } })

/-- The first counter value past 0xFFF0_0000 (R233). -/
def rekeyAt : Nat := 0xFFF00001

/-- Takes TX_CTR + 1 of the key owner as the frame counter and stores it (R233); answers the counter and the key. -/
def State.takeCounter (owner : Nat) (s : State) : (Nat × List Byte) × State :=
  if owner = 0xFFF then
    let c := s.key.grid.txCtr + 1
    ((c, s.key.grid.key), s.setGridCtr c)
  else match s.slotOf owner with
    | some n =>
      let c := (s.keySlot n).txCtr + 1
      let s := onlyIf (decide (c = rekeyAt)) (State.evt Evt.REKEY_DUE owner 0 []) s
      ((c, (s.keySlot n).key), s.setTxCtr n c)
    | none => ((0, []), s)

/-- The sender holds another message, waiting or in flight, for the DST of a frame, which on a relayed path is the first relay (R230,
R265). -/
def State.morePending (s : State) (dst tag n : Nat) : Bool :=
  s.wad.queues.any fun e => e.2.msgs.any fun m =>
    decide ((s.plan e.1 m).dst = dst) && !(decide (m.tag = tag) && decide (e.1 = n))

/-- Forms the data field of message `m` of queue n at its first attempt: SEQ, counter, PENDING and the secured or plain
field (R158, R230 to R233). Later attempts find it formed. An ASSIGN of link firmware takes its CYCLE here, at t0 (R226). -/
def State.formField (n tag : Nat) (s : State) : State :=
  match s.msg n tag with
  | none => s
  | some m =>
    if m.seq.isSome then s
    else
      let p := s.plan n m
      let (dst, route) := s.airPath p
      let owner := s.finalDst p
      let pend := s.morePending dst tag n
      let (seq, s) := match p.rawSeq with
        | some q => (q, s)
        | none => s.takeSeq owner
      let payload := if isLinkQueue n ∧ p.ftype = 5 then m.payload.take 7 ++ leBytes 4 (s.mainsTime s.time).1 else m.payload
      let h : MacHeader := ⟨p.ftype, p.macCls, p.ackReq, p.sec, dst, 0, seq, route.length, pend, false, p.more⟩
      if p.sec then
        let ((c, key), s) := s.takeCounter owner
        s.modMsg n tag fun x =>
          { x with seq := some seq, counter := c, field := securedField key owner true h c route payload }
      else s.modMsg n tag fun x => { x with seq := some seq, field := plainField h route payload }

end Sys2Proof.Machine
end

