-- ==== Sys2Proof/Machine/Engine.lean ====
section
/-! DEFINITION. Access to the Erg engines (06_erg_receive_array.md): the settings and status of channel c in page
ERG(c div 4), and what an engine keeps beside its registers. -/
namespace Sys2Proof.Machine

/-- Ticks for which erasure marks that have ended are kept: longer than any frame. -/
def markLife : Nat := 64 * 2048000

/-- A mark that ended at tick `end_` is still kept at `now`. -/
def markKeep (end_ now : Nat) : Bool := decide (now < end_ + markLife)

/-- Engine states (06_erg_receive_array.md, STATE). -/
def ES.OFF : Nat := 0
def ES.PARKED : Nat := 1
def ES.NO_INPUT : Nat := 2
def ES.IDLE : Nat := 3
def ES.HUNT : Nat := 4
def ES.SYNC_SEARCH : Nat := 5
def ES.HEADER : Nat := 6
def ES.DATA : Nat := 7
def ES.ACK_BODY : Nat := 8
def ES.LENT : Nat := 9
def ES.RECALL : Nat := 10

/-- A field of engine c. -/
def State.eget (s : State) (c : Nat) (f : Fld) : Nat := s.get (Pg.ERG (c / 4)) (f.nth (c % 4))

/-- Writes a field of engine c. -/
def State.eput (c : Nat) (f : Fld) (v : Nat) (s : State) : State := s.put (Pg.ERG (c / 4)) (f.nth (c % 4)) v

/-- Counts in a counter of engine c. -/
def State.ecount (c : Nat) (f : Fld) (s : State) : State := s.count (Pg.ERG (c / 4)) (f.nth (c % 4))

/-- Counts in a counter of engine c and in its device total. -/
def State.ecount2 (c : Nat) (f tot : Fld) (s : State) : State := (s.ecount c f).count Pg.ERGX tot

/-- STATE of engine c. -/
def State.est (s : State) (c : Nat) : Nat := s.eget c ERG.STATE

/-- What engine c keeps beside its registers. -/
def State.eng (s : State) (c : Nat) : Eng := Tab.get (fun _ => Eng.idle) s.erg.eng c

/-- Replaces what engine c keeps. -/
def State.setEng (c : Nat) (e : Eng) (s : State) : State :=
  { s with erg := { s.erg with eng := Tab.set (fun _ => Eng.idle) s.erg.eng c e } }

/-- Engine c is LIVE (R130). -/
def State.isLive (s : State) (c : Nat) : Bool := decide (s.eget c ERG.ROLE = 1)

/-- Engine c is a LIVE alarm engine (R131). -/
def State.isAlarm (s : State) (c : Nat) : Bool := s.isLive c && decide (s.eget c ERG.ALARM = 1)

/-- The 256 channels. -/
def channels : List Nat := List.range 256

/-- LIVE engines whose ERG registers are listed: an engine whose page stands at reset has ROLE OFF. -/
def State.liveEngines (s : State) : List Nat :=
  (List.range 64).flatMap fun q =>
    if s.regs.any (fun e => decide (e.1 / 4096 = Pg.ERG q)) then
      (List.range 4).filterMap fun e => if s.isLive (4 * q + e) then some (4 * q + e) else none
    else []

/-- LIVE ALARM engines on port p. -/
def State.alarmEngines (s : State) (p : Nat) : List Nat :=
  s.liveEngines.filter fun c => s.isAlarm c && decide (s.eget c ERG.PORT = p)

/-- The channel of engine c is (centre, rate, sync word) on port p. -/
def State.matches (s : State) (c p centre rate sync : Nat) : Bool :=
  s.isLive c && decide (s.eget c ERG.PORT = p) && decide (s.eget c ERG.CENTRE = centre)
    && decide (s.eget c ERG.RATE = rate) && decide (s.eget c ERG.SYNC_WORD = sync)

/-- LIVE engines that match a channel of a port (R207). -/
def State.matching (s : State) (p centre rate sync : Nat) : List Nat :=
  s.liveEngines.filter fun c => s.matches c p centre rate sync

/-- Engine c is busy in the sense of R197. -/
def State.engBusy (s : State) (c : Nat) : Bool := decide (5 ≤ s.est c) && decide (s.est c ≤ 8)

/-- A number of the noise map: zone of a centre (R142) and index of a cell. -/
def zoneOf (centre : Nat) : Nat := centre / 128
def cellIndex (port zone bin : Nat) : Nat := port * 1024 + zone * 64 + bin

/-- Cell i of the noise map; an unlisted cell reads AGE 255, VALID 0 (R144). -/
def State.cell (s : State) (i : Nat) : Word := Tab.get (fun _ => 0x00FF0000) s.nmap i

/-- Fields of a cell. -/
def cellNoise (w : Word) : Nat := w.toNat % 1024
def cellAge (w : Word) : Nat := w.toNat / 2 ^ 16 % 256
def cellValid (w : Word) : Bool := decide (w.toNat / 2 ^ 24 % 2 = 1)

/-- A cell is VALID and no older than AGE_LIMIT_S; 0 disables the limit (R142). -/
def State.cellUsable (s : State) (w : Word) : Bool :=
  let lim := s.get Pg.NMAP NMAP.AGE_LIMIT_S
  cellValid w && (decide (lim = 0) || decide (cellAge w ≤ lim))

end Sys2Proof.Machine
end

