-- ==== Sys2Proof/Machine/Capture.lean ====
section
/-! DEFINITION. The Mirage ring as a record of the line (08_mirage_replay.md, R173 to R177 and R192 to R195): slabs, their
directory, the side log, the replayable span, pinned regions, triggers and LOOKUP. -/
namespace Sys2Proof.Machine

/-! ## Geometry -/

/-- Ticks of one slab (R173). -/
def slabTicks : Nat := 2048

/-- The largest ring region: 120 GiB (R173). -/
def ringMax : Nat := 120 * 2 ^ 30

/-- A ring region exists and keeps the size rules of R173. -/
def State.ringOk (s : State) : Bool :=
  match s.regionOf 7 with
  | some r => decide (0 < s.regionSize r) && decide (s.regionSize r ≤ ringMax)
  | none => false

/-- Slab positions of the ring: 7/8 of them with ECC (R173, Retention). -/
def State.slabCount (s : State) : Nat :=
  match s.regionOf 7 with
  | some r => s.regionData r / 65536
  | none => 0

/-- Bits of a directory entry (R175). -/
def dirSlab (e : Nat) : Nat := e % 2 ^ 54
def dirHeld (e : Nat) : Bool := decide (bitOf e 61 = 1)
def dirPinned (e : Nat) : Bool := decide (bitOf e 62 = 1)
def dirValid (e : Nat) : Bool := decide (bitOf e 63 = 1)

/-- A directory entry. -/
def dirEntry (slab : Nat) (loss held pinned valid : Bool) : Nat :=
  slab % 2 ^ 54 + loss.toNat * 2 ^ 60 + held.toNat * 2 ^ 61 + pinned.toNat * 2 ^ 62 + valid.toNat * 2 ^ 63

/-- The directory entry of a slab position. -/
def State.dir (s : State) (m : Nat) : Nat := Tab.get (fun _ => 0) s.mir.dir m

/-- Rewrites the directory entry of a position, in the MIRAGE_DIR region too. -/
def State.setDir (m e : Nat) (s : State) : State :=
  let s : State := { s with mir := { s.mir with dir := Tab.set (fun _ => 0) s.mir.dir m e } }
  match s.regionOf 8 with
  | some r => s.dramStore (s.regionBase r + 8 * m) (leBytes 8 e)
  | none => s

/-- Changes the entries of the slabs that overlap ticks `a` to `b` (`b` not included) and satisfy `p`. -/
def State.modDir (a b : Nat) (f : Nat → Nat) (s : State) : State :=
  forEach (s.mir.dir.filter fun e => dirValid e.2 && decide (dirSlab e.2 * slabTicks < b)
      && decide (a < (dirSlab e.2 + 1) * slabTicks))
    (fun e s => s.setDir e.1 (f e.2)) s

/-- An entry with HELD or PINNED replaced. -/
def dirSetHeld (on : Bool) (e : Nat) : Nat := dirEntry (dirSlab e) (bitOf e 60 = 1) on (dirPinned e) (dirValid e)
def dirSetPinned (on : Bool) (e : Nat) : Nat := dirEntry (dirSlab e) (bitOf e 60 = 1) (dirHeld e) on (dirValid e)

/-- Directory entries read with an uncorrectable error at the listed addresses are treated as not VALID (R417); their words are
not written back. -/
def State.dirUes (ue : List Nat) (s : State) : State :=
  forEach ue (fun a s => match s.eccAt a with
    | some (8, o) =>
      let e := s.dir (o / 8)
      { s with mir := { s.mir with
          dir := Tab.set (fun _ => 0) s.mir.dir (o / 8) 0
          lostSlabs := if dirValid e then dirSlab e :: s.mir.lostSlabs else s.mir.lostSlabs } }
    | _ => s) (s.dramUes ue)

/-- Positions that are PINNED or HELD. -/
def State.slabsPinned (s : State) : Nat := (s.mir.dir.filter fun e => dirPinned e.2 || dirHeld e.2).length

/-- The next position from `m` on, wrapping, whose entry is neither PINNED nor HELD (R175, R181). -/
def nextFreeSlab (dir : Tab Nat) (total : Nat) : Nat → Nat → Option Nat
  | 0, _ => none
  | fuel + 1, m =>
    let m := if m < total then m else 0
    let e := Tab.get (fun _ => 0) dir m
    if dirPinned e || dirHeld e then nextFreeSlab dir total fuel (m + 1) else some m

/-- Mirage records: enabled, its domain on, the level below L5 and the mode not STANDBY (R173, STATE). -/
def State.recording (s : State) : Bool :=
  s.enabled Pg.MIR && s.domOn 141 && decide (s.get Pg.OAS OAS.LEVEL < 5) && decide (s.get Pg.OAS OAS.MODE = 0)

/-! ## Side log (R176) -/

/-- PRE_GUARD of a blanking pin in ticks. -/
def State.preGuard (s : State) (k : Nat) : Nat := usTicks (100 * s.get Pg.SNS (SNS.PRE_GUARD.nth k))

/-- Kinds of side-log records. -/
def SideKind.GAIN : Nat := 1
def SideKind.TX_MARK : Nat := 2
def SideKind.BLANK : Nat := 3
def SideKind.GAP : Nat := 4

/-- A side-log record. -/
def sideRecord (tick kind port data span : Nat) : List Byte :=
  leBytes 6 tick ++ leBytes 1 (kind + 16 * port) ++ [0] ++ leBytes 4 data ++ leBytes 4 span

/-- Records that the MIRAGE_SIDE region holds. -/
def State.sideCap (s : State) : Nat :=
  match s.regionOf 9 with
  | some r => s.regionData r / 16
  | none => 0

/-- Writes a side-log record at the log's head; the log is circular (R176). -/
def State.sideLog (tick kind port data span : Nat) (s : State) : State :=
  match s.regionOf 9 with
  | none => s
  | some r =>
    let cap := s.sideCap
    if s.recording = false ∨ cap = 0 then s
    else
      let s := s.dramStore (s.regionBase r + 16 * (s.mir.sideCnt % cap)) (sideRecord tick kind port data span)
      let ticks := s.mir.sideTicks ++ [tick]
      { s with mir := { s.mir with sideCnt := s.mir.sideCnt + 1, sideTicks := ticks.drop (ticks.length - cap) } }

/-- The edges of a transmit guard zone in 250 Hz units, clipped to 0 to 2,047 (R90, R176). -/
def guardEdges (centre rate : Nat) : Nat × Nat :=
  let half := widthUnits rate / 2 + 2 * widthUnits rate
  (centre - half, Nat.min (centre + half) 2047)

/-- DATA of a TX_MARK record. -/
def markData (centre rate : Nat) : Nat := (guardEdges centre rate).1 + 65536 * (guardEdges centre rate).2

/-! ## The replayable span (R177) -/

/-- Start and cycle of the k-th record of the timebase log, read from its region (R78). -/
def State.logRecord (s : State) (r k : Nat) : Nat × Nat :=
  let a := s.regionBase r + 16 * k
  ((s.dramWord a).toNat + 2 ^ 32 * (s.dramWord (a + 4)).toNat, (s.dramWord (a + 8)).toNat)

/-- Start of the oldest cycle still held in the timebase log. -/
def State.oldestCycle (s : State) : Nat :=
  match s.regionOf regionTimebaseLog with
  | none => 0
  | some r =>
    let h := s.get Pg.MTB MTB.LOG_HEAD
    let next := (s.logRecord r h).1
    if next ≠ 0 then next else if 0 < h then (s.logRecord r 0).1 else 0

/-- First tick of the oldest VALID slab; with no slab, the next tick to be recorded. -/
def State.oldestSlab (s : State) : Nat :=
  match s.mir.dir.filter fun e => dirValid e.2 with
  | [] => s.mir.nextSlab
  | e :: t => (t.foldl (fun m x => Nat.min m (dirSlab x.2)) (dirSlab e.2)) * slabTicks

/-- The oldest replayable tick (R177). -/
def State.oldestTick (s : State) : Nat :=
  let side := if s.sideCap < s.mir.sideCnt then s.mir.sideTicks.headD 0 else 0
  Nat.max (s.oldestSlab) (Nat.max side s.oldestCycle)

/-- The slab position that holds a tick, none where the tick is not recorded (R177, R195). -/
def State.slabOf (s : State) (tick : Nat) : Option Nat :=
  (List.find? (fun e => dirValid e.2 && decide (dirSlab e.2 = tick / slabTicks)) s.mir.dir).map (·.1)

/-- Every tick from `a` to `b` (not included) lies in a recorded slab. -/
def State.spanRecorded (s : State) (a b : Nat) : Bool :=
  let first := a / slabTicks
  let last := (b - 1) / slabTicks
  decide ((s.mir.dir.filter fun e => dirValid e.2 && decide (first ≤ dirSlab e.2) && decide (dirSlab e.2 ≤ last)).length
    = last + 1 - first)

/-! ## Pinned regions (R192, R193) -/

/-- The span of pin region r. -/
def State.pin (s : State) (r : Nat) : Option PinSpan := Tab.get (fun _ => none) s.mir.pins r

/-- Replaces the span of pin region r. -/
def State.setPin (r : Nat) (x : Option PinSpan) (s : State) : State :=
  { s with mir := { s.mir with pins := Tab.set (fun _ => none) s.mir.pins r x } }

/-- STATE of pin region r: 0 FREE, 1 WAITING, 2 HELD. -/
def State.pinState (s : State) (r : Nat) : Nat := s.get Pg.MIR (MIR.PIN_ST.nth r)

/-- A slab number lies in the span of some pin region. -/
def State.slabCovered (s : State) (slab : Nat) : Bool :=
  s.mir.pins.any fun e =>
    match e.2 with
    | some p => decide (slab * slabTicks < p.stop) && decide (p.start < (slab + 1) * slabTicks)
    | none => false

/-- Slabs that the span of region r has PINNED. -/
def State.pinSlabs (s : State) (p : PinSpan) : Nat :=
  (s.mir.dir.filter fun e => dirValid e.2 && dirPinned e.2 && decide (dirSlab e.2 * slabTicks < p.stop)
    && decide (p.start < (dirSlab e.2 + 1) * slabTicks)).length

/-- Shows SLABS of a region and, once PIN_END is recorded, moves it from WAITING to HELD with PIN_DONE (R192). -/
def State.pinRefresh (r : Nat) (s : State) : State :=
  match s.pin r with
  | none => s
  | some p =>
    let s := s.put Pg.MIR (MIR.SLABS.nth r) (s.pinSlabs p)
    if s.pinState r = 1 ∧ p.stop ≤ s.mir.nextSlab then (s.put Pg.MIR (MIR.PIN_ST.nth r) 2).event Pg.MIR MIR.EV_PIN_DONE else s

/-- Why a PIN of a span is refused (R193); none when it is not. -/
def State.pinRefusal (s : State) (r start stop : Nat) : Option Nat :=
  let old := s.oldestTick
  let from_ := Nat.max start old
  let slabs := (stop + slabTicks - 1) / slabTicks - from_ / slabTicks
  let others := (s.mir.dir.filter fun e => dirPinned e.2 && !(decide (dirSlab e.2 * slabTicks < stop)
    && decide (from_ < (dirSlab e.2 + 1) * slabTicks))).length
  if s.pinState r ≠ 0 then some ErrCode.STATE
  else if stop ≤ start ∨ stop ≤ old then some ErrCode.RANGE
  else if s.get Pg.MIR MIR.PIN_LIMIT * s.slabCount < 16 * (slabs + others) then some ErrCode.INCONSISTENT
  else none

/-- Pins a span through region r (R192). -/
def State.doPin (r start stop trig : Nat) (s : State) : State :=
  let old := s.oldestTick
  let partly := decide (start < old)
  let from_ := Nat.max start old
  let s := (s.setPin r (some ⟨from_, stop, trig⟩)).modDir from_ stop (dirSetPinned true)
  let s := ((s.put Pg.MIR (MIR.PIN_ST.nth r) 1).put Pg.MIR (MIR.PARTIAL.nth r) partly.toNat).put Pg.MIR
    (MIR.TRIGGERED.nth r) (if trig = 0 then 0 else 1)
  (onlyIf partly (State.event Pg.MIR MIR.EV_PIN_PARTIAL) s).pinRefresh r

/-- PIN of region r (R192, R193). -/
def State.hostPin (r : Nat) (s : State) : State :=
  let start := s.get Pg.MIR MIR.PIN_START_LO + 2 ^ 32 * s.get Pg.MIR MIR.PIN_START_HI
  let stop := s.get Pg.MIR MIR.PIN_END_LO + 2 ^ 32 * s.get Pg.MIR MIR.PIN_END_HI
  match s.pinRefusal r start stop with
  | some code => s.refuse Pg.MIR code 0x050
  | none => s.doPin r start stop 0

/-- UNPIN of region r: clears PINNED on its slabs, but for slabs that another region's span covers, and frees the region
(R192). -/
def State.hostUnpin (r : Nat) (s : State) : State :=
  match s.pin r with
  | none => s.put Pg.MIR (MIR.PIN_ST.nth r) 0
  | some p =>
    let s := s.setPin r none
    let s := s.modDir p.start p.stop (fun e => dirSetPinned (s.slabCovered (dirSlab e)) e)
    s.setReg Pg.MIR (MIR.PIN_ST.nth r).off 0

/-- A trigger source fires for an event at tick `at_` (R194). -/
def State.trigger (src at_ : Nat) (s : State) : State :=
  if s.domOn 141 = false ∨ bitOf (s.get Pg.MIR MIR.TRIG_EN) src = 0 then s
  else
    let stop := at_ + msTicks (s.get Pg.MIR MIR.TRIG_POST_MS)
    let start := at_ - msTicks (s.get Pg.MIR MIR.TRIG_PRE_MS)
    let open_ := (List.range 16).find? fun r =>
      match s.pin r with
      | some p => decide (p.trig = src + 1) && decide (s.pinState r = 1)
      | none => false
    match open_ with
    | some r =>
      match s.pin r with
      | some p => s.setPin r (some { p with stop := Nat.max p.stop stop })
      | none => s
    | none =>
      match (List.range 16).find? fun r => decide (s.pinState r = 0) with
      | none => s.event Pg.MIR MIR.EV_TRIG_MISSED
      | some r =>
        match s.pinRefusal r start stop with
        | some _ => s.event Pg.MIR MIR.EV_TRIG_MISSED
        | none => (s.doPin r start stop (src + 1)).event Pg.MIR MIR.EV_TRIGGER

/-- LOOKUP (R195): the tick's half is stored, and LOOKUP_SLAB and FOUND follow it. -/
def State.lookupTick (high : Bool) (v : Word) (s : State) : State :=
  let s := s.setReg Pg.MIR (if high then 0x064 else 0x060) v
  let tick := s.get Pg.MIR MIR.LOOKUP_LO + 2 ^ 32 * s.get Pg.MIR MIR.LOOKUP_HI
  match s.slabOf tick with
  | some m => (s.put Pg.MIR MIR.LOOKUP_SLAB m).put Pg.MIR MIR.LOOKUP_FOUND 1
  | none => (s.put Pg.MIR MIR.LOOKUP_SLAB 0).put Pg.MIR MIR.LOOKUP_FOUND 0

/-! ## Writing slabs (R173 to R175) -/

/-- An ADC code as the ring holds it: saturated to ±32,767 (R174). -/
def ringSample (x : BitVec 16) : Nat := if x = 0x8000 then 0x8001 else x.toNat

/-- The 2,048 samples of port p in a slab: 0x0000 while its RX AFE domain is off (R173), 0x8000 for a sample that did not
reach the writer (R174). -/
def State.slabPort (s : State) (samples : List (List (Option (BitVec 16)))) (p : Nat) : List Nat :=
  if s.domOn (96 + p) then
    (List.range slabTicks).map fun i => match (samples.getD p []).getD i none with
      | some x => ringSample x
      | none => 0x8000
  else List.replicate slabTicks 0

/-- SLAB_WRITE: the slab that ends at tick `t` is written at the next position that is neither PINNED nor HELD, and its
directory entry rewritten; a gap in recording is logged; WAITING regions whose end is recorded become HELD. -/
def State.slabWrite (t : Nat) (samples : List (List (Option (BitVec 16)))) (s : State) : State :=
  match s.regionOf 7 with
  | none => s
  | some r =>
    if s.recording = false ∨ t < slabTicks then s
    else
      let slab := t / slabTicks - 1
      let first := slab * slabTicks
      match nextFreeSlab s.mir.dir s.slabCount (s.mir.dir.length + 1) (s.get Pg.MIR MIR.HEAD_SLAB) with
      | none => s
      | some m =>
        let s := onlyIf (decide (0 < s.mir.nextSlab) && decide (s.mir.nextSlab < first))
          (State.sideLog s.mir.nextSlab SideKind.GAP 0 0 (first - s.mir.nextSlab)) s
        let codes := (List.range 16).flatMap (s.slabPort samples)
        let lost := (codes.filter fun c => decide (c = 0x8000)).length
        let s := s.dramStore (s.regionBase r + m * 65536) (codes.flatMap (leBytes 2))
        let s := s.setDir m (dirEntry slab (decide (0 < lost)) false (s.slabCovered slab) true)
        let s := s.put Pg.MIR MIR.HEAD_SLAB (if m + 1 < s.slabCount then m + 1 else 0)
        let s : State := { s with mir := { s.mir with nextSlab := first + slabTicks } }
        let s := onlyIf (decide (0 < lost)) (fun s => (s.countBy Pg.MIR MIR.WRITE_LOSS_CNT lost).event Pg.MIR MIR.EV_WRITE_LOSS) s
        forEach (List.range 16) State.pinRefresh s

/-- SLAB_WRITE; `samples` gives the samples of each port, none for one that was lost to a full queue; `ue` lists addresses of directory entries that the writer reads with an uncorrectable error. -/
def execSlabWrite (t : Nat) (samples : List (List (Option (BitVec 16)))) (ue : List Nat) (s : State) : Res :=
  finish (((s.atTick t).dirUes ue).slabWrite t samples)

end Sys2Proof.Machine
end

