-- ==== Sys2Proof/Machine/Lane.lean ====
section
/-! DEFINITION. Lanes of transmit synthesis (07_transmit_synthesis.md): levels and the planned composite (R160), lane
assignment (R153), start stagger (R165), the instants of a run's copies (R76), and dwell (R217 to R219 of
09_medium_access.md). -/
namespace Sys2Proof.Machine

/-! ## Levels

Powers are integers: 10^18 is full scale. -/

/-- Powers `10 ^ (18 − i / 20)` for i = 0 to 19: 0.5 dB steps over one decade, rounded to integers. -/
def halfDbTable : List Nat :=
  [1000000000000000000, 891250938133745530, 794328234724281502, 707945784384137911, 630957344480193249,
   562341325190349080, 501187233627272285, 446683592150963119, 398107170553497251, 354813389233575458,
   316227766016837933, 281838293126445382, 251188643150958011, 223872113856833961, 199526231496887960,
   177827941003892280, 158489319246111349, 141253754462275430, 125892541179416721, 112201845430196344]

/-- Powers `10 ^ (18 − (i + 1/2) / 100)` for i = 0 to 99: the edges between 0.1 dB steps over one decade. -/
def tenthEdges : List Nat :=
  [988553094656938840, 966050878989813374, 944060876285923380, 922571427154763160, 901571137605956886,
   881048873008014087, 860993752184600649, 841395141645195091, 822242649947071142, 803526122185617259,
   785235634610071785, 767361489361818943, 749894209332455827, 732824533138904085, 716143410212902019,
   699841996002273499, 683911647281429324, 668343917568614608, 653130552647472355, 638263486190548684,
   623734835482419245, 609536897240169160, 595662143529010461, 582103217770871412, 568852930843841449,
   555904257270403580, 543250331492433211, 530884444230988352, 518800038928961118, 506990708274704360,
   495450190804790220, 484172367584099343, 473151258961480479, 462381021399260298, 451855944374922364,
   441570447353312507, 431519076827765223, 421696503428582249, 412097519097330208, 402717034325459093,
   393550075455777463, 384591782045353567, 375837404288444167, 367282300498084662, 358921934645005217,
   350751873952568005, 342767786546450357, 334965439157827660, 327340694878838188, 319889510969139801,
   312607936712395497, 305492111321551320, 298538261891795962, 291742701400116686, 285101826750390929,
   278612116862977037, 272270130807791238, 266072505979880963, 260015956316527192, 254097270554930502,
   248313310529557027, 242661009508241552, 237137370566165526, 231739464996847857, 226464430759305965,
   221309470960563772, 216271852372702027, 211348903983664680, 206538015581052937, 201836636368156099,
   197242273611485375, 192752491319093601, 188364908948980054, 184077200146895582, 179887091512878784,
   175792361395869261, 171790838715758813, 167880401812256031, 164058977319953928, 160324539069004150,
   156675107010814911, 153108746168203014, 149623565609443341, 146217717445671819, 142889395851110286,
   139636836105593760, 136458313658892453, 133352143216332403, 130316677845229939, 127350308101666168,
   124451461177138509, 121618600064636800, 118850222743701844, 116144861384034275, 113501081567231506,
   110917481526240107, 108392691402120353, 105925372517728888, 103514216667934382, 101157945425989852]

/-- Ratios `10 ^ (9 + i / 100)` for i = 0 to 99: 0.1 dB steps over one decade. -/
def tenthTable : List Nat :=
  [1000000000, 1023292992, 1047128548, 1071519305, 1096478196, 1122018454, 1148153621, 1174897555, 1202264435,
   1230268771, 1258925412, 1288249552, 1318256739, 1348962883, 1380384265, 1412537545, 1445439771, 1479108388,
   1513561248, 1548816619, 1584893192, 1621810097, 1659586907, 1698243652, 1737800829, 1778279410, 1819700859,
   1862087137, 1905460718, 1949844600, 1995262315, 2041737945, 2089296131, 2137962090, 2187761624, 2238721139,
   2290867653, 2344228815, 2398832919, 2454708916, 2511886432, 2570395783, 2630267992, 2691534804, 2754228703,
   2818382931, 2884031503, 2951209227, 3019951720, 3090295433, 3162277660, 3235936569, 3311311215, 3388441561,
   3467368505, 3548133892, 3630780548, 3715352291, 3801893963, 3890451450, 3981071706, 4073802778, 4168693835,
   4265795188, 4365158322, 4466835922, 4570881896, 4677351413, 4786300923, 4897788194, 5011872336, 5128613840,
   5248074602, 5370317964, 5495408739, 5623413252, 5754399373, 5888436554, 6025595861, 6165950019, 6309573445,
   6456542290, 6606934480, 6760829754, 6918309709, 7079457844, 7244359601, 7413102413, 7585775750, 7762471166,
   7943282347, 8128305162, 8317637711, 8511380382, 8709635900, 8912509381, 9120108394, 9332543008, 9549925860,
   9772372210]

/-- Ratios `10 ^ (9 + i / 40)` for i = 0 to 39: 0.25 dB steps over one decade. -/
def quarterTable : List Nat :=
  [1000000000, 1059253725, 1122018454, 1188502227, 1258925412, 1333521432, 1412537545, 1496235656, 1584893192,
   1678804018, 1778279410, 1883649089, 1995262315, 2113489040, 2238721139, 2371373706, 2511886432, 2660725060,
   2818382931, 2985382619, 3162277660, 3349654392, 3548133892, 3758374043, 3981071706, 4216965034, 4466835922,
   4731512590, 5011872336, 5308844442, 5623413252, 5956621435, 6309573445, 6683439176, 7079457844, 7498942093,
   7943282347, 8413951416, 8912509381, 9440608763]

/-- The mean power at a level in 0.5 dB below full scale. -/
def levelPower (l : Nat) : Nat := halfDbTable.getD (l % 20) 0 / 10 ^ (l / 20)

/-- Steps of 0.1 dB below full scale of a power within one decade. -/
def tenthsIn (p : Nat) : Nat := (tenthEdges.filter fun e => decide (p < e)).length

/-- A power in 0.1 dB below full scale, to the nearest step; 0 where it reaches full scale. -/
def tenthsOf : Nat → Nat → Nat
  | 0, _ => 0
  | fuel + 1, p => if p * 10 < 10 ^ 18 then 100 + tenthsOf fuel (p * 10) else tenthsIn p

/-! ## Lanes -/

/-- Lane l of port p. -/
def State.lane (s : State) (p l : Nat) : Option Lane := Tab.get (fun _ => none) s.txs.lanes (16 * p + l)

/-- Replaces lane l of port p. -/
def State.setLane (p l : Nat) (x : Option Lane) (s : State) : State :=
  { s with txs := { s.txs with lanes := Tab.set (fun _ => none) s.txs.lanes (16 * p + l) x } }

/-- The occupied lanes of port p. -/
def State.portLanes (s : State) (p : Nat) : List (Nat × Lane) :=
  s.txs.lanes.filterMap fun e => if e.1 / 16 = p then e.2.map fun x => (e.1 % 16, x) else none

/-- A lane's transmission is on the line. -/
def Lane.onLine (x : Lane) : Bool := decide (x.phase = .onLine) || decide (x.phase = .ending)

/-- A lane carries a data, wake or schedule frame (R153). -/
def Lane.isData (x : Lane) : Bool := decide (x.kind = .data) || decide (x.kind = .wake) || decide (x.kind = .schedule)

/-- The end of a lane's fall (R100). -/
def Lane.fallEnd (x : Lane) : Nat := x.tEnd + 2 * symTicks x.rate

/-- What a line port keeps beside its registers. -/
def State.lptSt (s : State) (p : Nat) : LptSt := Tab.get (fun _ => LptSt.idle) s.lpt p

/-- Replaces what a line port keeps. -/
def State.setLpt (p : Nat) (x : LptSt) (s : State) : State :=
  { s with lpt := Tab.set (fun _ => LptSt.idle) s.lpt p x }

/-- When the pilot of the check in progress on port p starts and ends: ENA_LEAD_US after it was asked for, for 2 ms (R91, R93). -/
def State.pilotStart (s : State) (p : Nat) : Nat := (s.lptSt p).pilotAt + usTicks (s.get (Pg.LPT p) LPT.ENA_LEAD_US)
def State.pilotEnd (s : State) (p : Nat) : Nat := s.pilotStart p + 4096

/-- Power of the pilot of port p while it runs (R171). -/
def State.pilotPower (s : State) (p : Nat) : Nat :=
  if (s.lptSt p).pilot ∧ s.pilotStart p ≤ s.time ∧ s.time ≤ s.pilotEnd p then levelPower (12 * s.get (Pg.LPT p) LPT.PILOT_LEVEL) else 0

/-- The summed power of the lanes of port p whose transmissions are on the line (R160). -/
def State.lanePower (s : State) (p : Nat) : Nat :=
  (((s.portLanes p).filter fun e => e.2.onLine).map fun e => levelPower e.2.level).sum

/-- The planned composite of port p (R160). -/
def State.composite (s : State) (p : Nat) : Nat := s.lanePower p + s.pilotPower p

/-- COMP_LEVEL of port p; a silent port reads 0 as after reset. -/
def State.compLevel (s : State) (p : Nat) : Nat :=
  if s.composite p = 0 then 0 else Nat.min (tenthsOf 20 (s.composite p)) 0xFFFF

/-- A start of a data, wake or schedule frame at a level fits (R160). -/
def State.dataLevelFits (s : State) (p level : Nat) : Bool :=
  decide (s.composite p + levelPower level ≤
    levelPower (s.get (Pg.TXS p) TXS.LEVEL_SUM_MAX + s.get (Pg.TXS p) TXS.HEADROOM_DB))

/-- A start of an acknowledgement at a level fits; the pilot is left out (R160). -/
def State.ackLevelFits (s : State) (p level : Nat) : Bool :=
  decide (s.lanePower p + levelPower level ≤ levelPower (s.get (Pg.TXS p) TXS.LEVEL_SUM_MAX))

/-- Lanes of port p held by data, wake and schedule frames. -/
def State.dataBusy (s : State) (p : Nat) : Nat := ((s.portLanes p).filter fun e => e.2.isData).length

/-- The lowest free lane of lanes 0 to 14. -/
def State.freeLane (s : State) (p : Nat) : Option Nat := (List.range 15).find? fun l => decide (s.lane p l = none)

/-- A lane for a data, wake or schedule frame, where DATA_LANES allows one (R153). A class-1 to class-3 frame whose channel is the
alarm channel fits both rows of R153's table; it goes on lanes 0 to 14, by the row that names its class (DESIGN CHOICE: log 133). -/
def State.dataLane (s : State) (p : Nat) : Option Nat :=
  if s.dataBusy p < s.get (Pg.TXS p) TXS.DATA_LANES then s.freeLane p else none

/-- The settings of TXCHk of port p. -/
def State.txCentre (s : State) (p k : Nat) : Nat := s.get (Pg.TXS p) (TXS.CENTRE.nth k)
def State.txRate (s : State) (p k : Nat) : Nat := s.get (Pg.TXS p) (TXS.RATE.nth k)

/-- TXCHk of port p may start a transmission: enabled and not blocked (R156, R199). -/
def State.txUsable (s : State) (p k : Nat) : Bool :=
  s.flag (Pg.TXS p) (TXS.EN.nth k) && decide (bitOf (s.get (Pg.TXS p) TXS.BLOCKED_CH) k = 0)

/-- A band lies on port p's alarm channel: it matches a LIVE ALARM engine of the port (R153). -/
def State.isAlarmBand (s : State) (p centre rate sync : Nat) : Bool :=
  (s.matching p centre rate sync).any s.isAlarm

/-- ENA_LEAD_US of port p where LPn_ENA is driven for each frame (R86). A start that is decided at a slot or a general access point
has its t0 this much later; t0 is never moved where it is known in advance. DEDUCED: log 132. -/
def State.enaLead (s : State) (p : Nat) : Nat :=
  if s.get (Pg.LPT p) LPT.ENA_MODE = 0 then usTicks (s.get (Pg.LPT p) LPT.ENA_LEAD_US) else 0

/-- A port is in service with its TX AFE checked (R95). -/
def State.portReady (s : State) (p : Nat) : Bool :=
  decide (s.get (Pg.LPT p) LPT.STATE = 2) && s.flag (Pg.LPT p) LPT.TX_AVAIL

/-! ## Copies (R128) -/

/-- Upper bound of the span of a run of n copies of `air` ticks (R128): 1.000 ms and one mains cycle between copies. -/
def State.runSpan (s : State) (n air : Nat) : Nat := n * air + (n - 1) * (ticks1ms + s.cycleTicks)

/-- The first symbol boundary of a lane at or after a tick. -/
def Lane.boundaryFrom (x : Lane) (t : Nat) : Nat := x.t0 + ceilDiv (t - x.t0) (symTicks x.rate) * symTicks x.rate

/-- The t0 of an acknowledgement owed (R205). -/
def Owed.t0 (o : Owed) : Nat := o.tEnd + 2 * ticks1ms

/-! ## Stagger (R165) -/

/-- STAGGER_US of MAC.TX_STAGGER in ticks. -/
def State.staggerTicks (s : State) : Nat := usTicks (s.get Pg.MAC MAC.STAGGER_US)

/-- An instant is at least the stagger away from every listed instant. -/
def clearOf (gap : Nat) (l : List Nat) (t : Nat) : Bool := l.all fun x => decide (gap ≤ (if t ≤ x then x - t else t - x))

/-- The earliest instant at or after `due` that is clear of the listed instants: `due` itself or one of them plus the
gap. -/
def earliestClear (gap due : Nat) (l : List Nat) : Nat :=
  let cand := (due :: (l.map (· + gap)).filter fun c => decide (due ≤ c)).filter (clearOf gap l)
  cand.foldl Nat.min (cand.headD due)

/-- Starts on other ports against which a start on port p is staggered: a class-0 start against class-0 starts that were placed,
not fixed; every other against all. -/
def State.otherStarts (s : State) (p : Nat) (c0 : Bool) : List Nat :=
  (s.txs.placed.filter fun e => decide (e.port ≠ p) && (!c0 || (e.c0 && !e.fixed))).map (·.at_)

/-- Records a start for the stagger of later ones; starts long past are forgotten. -/
def State.place (p at_ : Nat) (c0 fixed : Bool) (s : State) : State :=
  let keep := s.txs.placed.filter fun e => decide (s.time < e.at_ + 8 * 2048)
  { s with txs := { s.txs with placed := keep ++ [⟨p, at_, c0, fixed⟩] } }

/-- Counts a stagger violation of port p. -/
def State.staggerViol (p : Nat) (s : State) : State :=
  (s.count (Pg.TXS p) TXS.STAGGER_VIOL_CNT).event (Pg.TXS p) TXS.EV_STAGGER_VIOL

/-- Places a flexible start of port p due at `due` (R165): answers its instant; a moved start counts STAGGER_DELAY_CNT, and a
class-0 start within the gap of a fixed-time start counts STAGGER_VIOL_CNT. -/
def State.placeFlexible (p due : Nat) (c0 : Bool) (s : State) : Nat × State :=
  let gap := s.staggerTicks
  let at_ := earliestClear gap due (s.otherStarts p c0)
  let viol := c0 && s.txs.placed.any fun e =>
    e.fixed && decide (e.port ≠ p) && !clearOf gap [e.at_] at_
  let s := onlyIf (decide (at_ ≠ due)) (State.count (Pg.TXS p) TXS.STAGGER_DELAY_CNT) s
  (at_, (onlyIf viol (State.staggerViol p) s).place p at_ c0 false)

/-- Records a fixed-time start of port p (R165); within the gap of a fixed-time or class-0 start of another port it counts a
violation. -/
def State.placeFixed (p at_ : Nat) (c0 : Bool) (s : State) : State :=
  let viol := s.txs.placed.any fun e =>
    (e.fixed || e.c0) && decide (e.port ≠ p) && !clearOf s.staggerTicks [e.at_] at_
  (onlyIf viol (State.staggerViol p) s).place p at_ c0 true

/-! ## Dwell (R217 to R219) -/

/-- The profile of port p, and of TXCHk of port p (an acknowledgement on no defined channel has none). -/
def State.portProfile (s : State) (p : Nat) : Nat :=
  (if p < 8 then s.get Pg.DWL DWL.PORT_PROF_LO else s.get Pg.DWL DWL.PORT_PROF_HI) / 2 ^ (4 * (p % 8)) % 16
def State.chanProfile (s : State) (p k : Nat) : Nat :=
  (if k < 8 then s.get Pg.DWL (DWL.CH_PROF_LO.nth p) else s.get Pg.DWL (DWL.CH_PROF_HI.nth p)) / 2 ^ (4 * (k % 8)) % 16

/-- Profile j is in force. -/
def State.profEn (s : State) (j : Nat) : Bool := s.flag Pg.DWL (DWL.EN.nth j)

/-- Fields of profile j in ticks. -/
def State.profMaxOn (s : State) (j : Nat) : Nat := msTicks (s.get Pg.DWL (DWL.MAX_ON_MS.nth j))
def State.profMinOff (s : State) (j : Nat) : Nat := msTicks (s.get Pg.DWL (DWL.MIN_OFF_MS.nth j))
def State.profWindow (s : State) (j : Nat) : Nat := s.get Pg.DWL (DWL.WINDOW_S.nth j) * 2048000
def State.profDuty (s : State) (j : Nat) : Nat := s.get Pg.DWL (DWL.DUTY_PM.nth j)

/-- On-time of a transmission: from t0 to the end of its fall. -/
def Lane.onTime (x : Lane) (p : Nat) : OnTime :=
  ⟨p, x.ch, x.t0, x.fallEnd, decide (x.kind = .class0), decide (x.kind = .ack)⟩

/-- Recorded on-times and those of the transmissions in progress. -/
def State.onTimes (s : State) : List OnTime :=
  s.txs.hist ++ s.txs.lanes.filterMap fun e =>
    match e.2 with
    | some x => if x.onLine then some (x.onTime (e.1 / 16)) else none
    | none => none

/-- The part of an interval inside `a` to `b`. -/
def clipSpan (a b : Nat) (x : OnTime) : Nat × Nat := (Nat.max a x.start, Nat.min b x.stop)

/-- Summed length of intervals. -/
def spanSum (l : List (Nat × Nat)) : Nat := (l.map fun e => e.2 - e.1).sum

/-- Inserts an interval in a list ordered by start. -/
def insertSpan (e : Nat × Nat) : List (Nat × Nat) → List (Nat × Nat)
  | [] => [e]
  | x :: t => if e.1 ≤ x.1 then e :: x :: t else x :: insertSpan e t

/-- Length of the union of intervals. -/
def spanUnion (l : List (Nat × Nat)) : Nat :=
  ((l.foldl (fun acc e => insertSpan e acc) []).foldl
    (fun acc e => if acc.2 < e.2 then (acc.1 + (e.2 - Nat.max acc.2 e.1), e.2) else acc) (0, 0)).1

/-- On-time of TXCHk of port p in the window `a` to `b`, with the planned intervals. -/
def State.chanOn (s : State) (p k a b : Nat) (plan : List (Nat × Nat)) : Nat :=
  spanSum (((s.onTimes.filter fun x => decide (x.port = p) && decide (x.ch = k)).map (clipSpan a b)) ++ plan)

/-- On-time of port p in the window `a` to `b`: the time in which at least one lane is on. -/
def State.portOn (s : State) (p a b : Nat) (plan : List (Nat × Nat)) : Nat :=
  spanUnion ((((s.onTimes.filter fun x => decide (x.port = p)).map (clipSpan a b)) ++ plan).filter
    fun e => decide (e.1 < e.2))

/-- On-time beyond a duty in permille of a window in ticks. -/
def overDuty (on duty window : Nat) : Bool := decide (duty * window < on * 1000)

/-- The planned intervals of a run of n copies of `on` ticks that starts at `t`, gaps at the upper bound of R128. -/
def State.planRun (s : State) (t n air on : Nat) : List (Nat × Nat) :=
  (List.range n).map fun j =>
    let a := t + j * (air + ticks1ms + s.cycleTicks)
    (a, a + on)

/-- The checks of R218 on a start of classes 1 to 3, of a train or of a schedule frame at `t`: 0 allowed, 1 refused for
MAX_ON_MS, 2 waits. `one` is the on-time of one transmission, `plan` the planned intervals, `stop` the last planned end. -/
def State.dwellCheck (s : State) (p k t one stop : Nat) (plan : List (Nat × Nat)) : Nat :=
  let cj := s.chanProfile p k
  let pj := s.portProfile p
  let last := (s.onTimes.filter fun x => decide (x.port = p) && decide (x.ch = k)).foldl (fun m x => Nat.max m x.stop) 0
  let reserve := if s.flag Pg.DWL DWL.RESERVE_EN then s.get Pg.DWL DWL.RESERVE_PM else 0
  if s.profEn cj ∧ s.profMaxOn cj < one then 1
  else if s.profEn cj ∧ last ≠ 0 ∧ t < last + s.profMinOff cj then 2
  else if s.profEn cj ∧ overDuty (s.chanOn p k (stop - s.profWindow cj) stop plan) (s.profDuty cj) (s.profWindow cj) then 2
  else if s.profEn pj ∧ overDuty (s.portOn p (stop - s.profWindow pj) stop plan) (s.profDuty pj - reserve) (s.profWindow pj)
    then 2
  else 0

/-- The port duty window of port p that ends at `t`, and the channel duty window of its TXCHk, exceed their DUTY_PM (R219). -/
def State.portOver (s : State) (p t : Nat) : Bool :=
  let pj := s.portProfile p
  s.profEn pj && overDuty (s.portOn p (t - s.profWindow pj) t []) (s.profDuty pj) (s.profWindow pj)
def State.chanOver (s : State) (p t k : Nat) : Bool :=
  let cj := s.chanProfile p k
  s.profEn cj && overDuty (s.chanOn p k (t - s.profWindow cj) t []) (s.profDuty cj) (s.profWindow cj)

/-- A duty window of port p that ends at `t` exceeds its DUTY_PM: the port's own, or a channel's (R219). -/
def State.dwellOverAt (s : State) (p t : Nat) : Bool := s.portOver p t || (List.range 16).any (s.chanOver p t)

/-- Sets or clears bit p of a 16-bit field. -/
def State.putBit (pg : Nat) (f : Fld) (i : Nat) (on : Bool) (s : State) : State :=
  let v := s.get pg f
  s.put pg f (if on then v ||| 2 ^ i else if bitOf v i = 1 then v - 2 ^ i else v)

/-- A class-0 frame or acknowledgement on TXCHk of port p (16: on none), on the air until `stop`, takes a window that it is charged to
beyond DUTY_PM (R219). The port's bit in OVER is set, and stands until the windows that hold this charge no longer exceed. -/
def State.dwellOver (p k stop : Nat) (ack : Bool) (s : State) : State :=
  if s.portOver p stop || (decide (k < 16) && s.chanOver p stop k) then
    let s := (s.event Pg.DWL DWL.EV_DWELL_OVER).count Pg.DWL (if ack then DWL.ACK_OVER_CNT else DWL.C0_OVER_CNT)
    let s := s.putBit Pg.DWL DWL.OVER p true
    { s with txs := { s.txs with overTill := Tab.set (fun _ => 0) s.txs.overTill p stop } }
  else s

/-- OVER clears at the first 1 ms step at which no window of the port that ends there is exceeded (R219), but not before the
transmission that set it has ended: its whole on-time was charged at its start. -/
def State.dwellStep (t : Nat) (s : State) : State :=
  forEach ((List.range 16).filter fun p => decide (bitOf (s.get Pg.DWL DWL.OVER) p = 1))
    (fun p s => if s.dwellOverAt p t ∨ t < Tab.get (fun _ => 0) s.txs.overTill p then s else s.putBit Pg.DWL DWL.OVER p false) s

/-- PORT_USED and C0_USED of port p in permille of the current window; 0 with no profile in force. -/
def State.portUsed (s : State) (p : Nat) : Nat × Nat :=
  let j := s.portProfile p
  let w := s.profWindow j
  if s.profEn j = false ∨ w = 0 then (0, 0)
  else
    let a := s.time - w
    let c0 := (s.onTimes.filter fun x => decide (x.port = p) && (x.c0 || x.isAck)).map (clipSpan a s.time)
    (s.portOn p a s.time [] * 1000 / w, spanUnion (c0.filter fun e => decide (e.1 < e.2)) * 1000 / w)

/-- Records the on-time of a transmission that has ended; 3,600 s of history are kept (R221). -/
def State.recordOn (x : OnTime) (s : State) : State :=
  let keep := s.txs.hist.filter fun e => decide (s.time < e.stop + 3600 * 2048000)
  { s with txs := { s.txs with hist := x :: keep } }

/-! ## Energy (R172, R288) -/

/-- EST_K of port p in 1/1,048,576 mW; 4,000 mW after reset. -/
def State.estK (s : State) (p : Nat) : Nat := Tab.get (fun _ => 4000 * 1048576) s.txs.estK p

/-- Estimate in µJ of a transmission of port p at a level for `on` ticks (R172): EST_K × 10^(−LEVEL/10) × airtime. -/
def State.energyOf (s : State) (p level on : Nat) : Nat :=
  s.estK p * levelPower level * on / (1048576 * 10 ^ 18 * 2048)

/-- Copies of a lane's run that are still to start. -/
def Lane.copiesAhead (x : Lane) : Nat := if x.onLine then x.copies - 1 - x.copy else x.copies - x.copy

/-- E_out of port p at tick `t` in µJ: the part of the estimates in progress that has not yet elapsed (R288); `energy` is the
estimate of one copy. -/
def State.energyOut (s : State) (p t : Nat) : Nat :=
  ((s.portLanes p).map fun e =>
    let x := e.2
    let now := if x.onLine then x.energy * (x.fallEnd - Nat.max t x.t0) / Nat.max 1 (x.fallEnd - x.t0) else 0
    now + x.copiesAhead * x.energy).sum

end Sys2Proof.Machine
end

