-- ==== Sys2Proof/Machine/Dac.lean ====
section
/-! DEFINITION. The DAC samples of a port (07_transmit_synthesis.md): the lanes at their levels summed, the predistortion equaliser
and its crossfade (R164), the pilot (R171), crest control and the hard limit (R162), and the figures of the last 1 ms that follow
from them. Amplitudes are integers: 10^9 is full scale, at a mean power of 10^18 (DESIGN CHOICE, log 134). -/
namespace Sys2Proof.Machine

/-! ## Lanes -/

/-- What a lane puts on the line. -/
def Lane.wave (x : Lane) (p : Nat) : Wave := ⟨p, x.centre, x.rate, x.level, x.phases, x.t0, x.fallEnd, false⟩

/-- Transmissions of port p on the line, and those of the last windows. -/
def State.portWaves (s : State) (p : Nat) : List Wave :=
  ((s.portLanes p).filter fun e => e.2.onLine).map (fun e => e.2.wave p) ++ s.txs.waves.filter fun w => decide (w.port = p)

/-- Amplitude of a mean power. -/
def amplitude (power : Nat) : Int := (Nat.sqrt power : Nat)

/-- The part of a transmission in DAC sample n, counted from tick 0 at two a tick: nothing before t0, and nothing after its end
(R99, R100). -/
def Wave.sample (w : Wave) (n : Nat) : Int :=
  if n < 2 * w.t0 ∨ 2 * w.stop ≤ n then 0
  else
    let v := amplitude (levelPower w.level) * Config.laneWave w.rate w.centre w.phases (n - 2 * w.t0) / 1048576
    if w.ramped ∧ 2 * w.stop ≤ n + 16 then v * (Config.rampDown (2 * w.stop - n) : Int) / 1048576 else v

/-- The lanes of port p summed. -/
def State.laneSum (s : State) (p n : Nat) : Int := ((s.portWaves p).map fun w => w.sample n).sum

/-! ## Predistortion (R164) -/

/-- The active taps of port p. -/
def State.pdTaps (s : State) (p : Nat) : List Nat := (List.range 32).map fun i => s.get (Pg.TXS p) (TXS.PD_TAP.nth i)

/-- The equaliser with a set of taps, in 1/65,536. -/
def State.firSample (s : State) (p n : Nat) (taps : List Nat) : Int :=
  ((taps.zipIdx).map fun e => signed 18 e.1 * (if e.2 ≤ n then s.laneSum p (n - e.2) else 0)).sum / 65536

/-- The composite after predistortion: over 256 DAC samples from a change of taps, the old set fades into the new one, linearly
(DESIGN CHOICE, log 134). With PD_EN at 0 the composite is unchanged. -/
def State.pdSample (s : State) (p n : Nat) : Int :=
  if s.flag (Pg.TXS p) TXS.PD_EN = false then s.laneSum p n
  else
    let old := Tab.get (fun _ => []) s.txs.oldTaps p
    let from_ := 2 * Tab.get (fun _ => 0) s.txs.tapsAt p
    let new := s.firSample p n (s.pdTaps p)
    if old = [] ∨ from_ + 256 ≤ n then new
    else
      let k : Int := n - from_
      (s.firSample p n old * (256 - k) + new * k) / 256

/-! ## The pilot (R171) -/

/-- The pilot in DAC sample n: a burst of 2 ms. -/
def State.pilotSample (s : State) (p n : Nat) : Int :=
  let st := s.lptSt p
  if st.pilotAt = 0 ∨ n < 2 * s.pilotStart p ∨ 2 * s.pilotEnd p ≤ n then 0
  else amplitude (levelPower (12 * s.get (Pg.LPT p) LPT.PILOT_LEVEL))
    * Config.pilotWave (s.get (Pg.LPT p) LPT.PILOT_FREQ) (n - 2 * s.pilotStart p) / 1048576

/-- The composite that crest control sees. -/
def State.crestIn (s : State) (p n : Nat) : Int := s.pdSample p n + s.pilotSample p n

/-! ## Crest control (R162) -/

/-- `2^30 × (1 + cos(2πk/64)) / 2` for k = 0 to 32, rounded: half a raised cosine of 64 DAC samples. -/
def raisedCosine : List Nat :=
  [1073741824, 1071156644, 1063426000, 1050624343, 1032874959, 1010348786, 983262761, 951877739, 916495974,
   877458213, 835140410, 789950108, 742322515, 692716311, 641609231, 589493464, 536870912, 484248360,
   432132593, 381025513, 331419309, 283791716, 238601414, 196283611, 157245850, 121864085, 90479063,
   63393038, 40866865, 23117481, 10315824, 2585180, 0]

/-- The limit of PEAK_MAX. -/
def State.peakLimit (s : State) (p : Nat) : Nat :=
  let d := s.get (Pg.TXS p) TXS.PEAK_MAX
  Nat.sqrt (10 ^ 27 / (tenthTable.getD (d % 100) 1 * 10 ^ (d / 100)))

/-- Distance of two sample numbers. -/
def apart (a b : Nat) : Nat := if a ≤ b then b - a else a - b

/-- The gain in 1/2^30 that the window of sample m asks of sample n. -/
def State.windowGain (s : State) (p n m : Nat) : Nat :=
  let x := (s.crestIn p m).natAbs
  if x ≤ s.peakLimit p then 2 ^ 30
  else 2 ^ 30 - (2 ^ 30 - s.peakLimit p * 2 ^ 30 / x) * raisedCosine.getD (apart n m) 0 / 2 ^ 30

/-- The crest-control gain of sample n: the lowest of the windows that cover it. -/
def State.crestGain (s : State) (p n : Nat) : Nat :=
  (List.range 65).foldl (fun g i => Nat.min g (s.windowGain p n (n + i - 32))) (2 ^ 30)

/-- Sample n after crest control, and the sample that the DAC puts out: limited at full scale. -/
def State.crestOut (s : State) (p n : Nat) : Int := s.crestIn p n * (s.crestGain p n : Int) / 1073741824
def State.dacSample (s : State) (p n : Nat) : Int := clampInt (-1000000000) 1000000000 (s.crestOut p n)

/-- The final limit touches sample n. -/
def State.clipped (s : State) (p n : Nat) : Bool := decide (s.dacSample p n ≠ s.crestOut p n)

/-! ## Figures of a window of 1 ms -/

/-- The port has put something out in the window of 1 ms that ends at `t`. -/
def State.portSounds (s : State) (p t : Nat) : Bool :=
  (s.portWaves p).any (fun w => decide (w.t0 < t) && decide (t < w.stop + 2048))
    || (decide ((s.lptSt p).pilotAt ≠ 0) && decide (s.pilotStart p < t) && decide (t < s.pilotEnd p + 2048))

/-- DAC samples of the window of 1 ms that ends at `t`; none of a silent port counts. -/
def State.windowSamples (s : State) (p t : Nat) : List Nat :=
  if s.portSounds p t then (List.range 4096).map fun i => 2 * t - 4096 + i else []

/-- Samples that the final limit has touched in the window, and the deepest crest-control gain in 0.1 dB. -/
def State.clipCount (s : State) (p t : Nat) : Nat := ((s.windowSamples p t).filter (s.clipped p)).length
def State.crestDepth (s : State) (p t : Nat) : Nat :=
  let g := (s.windowSamples p t).foldl (fun g n => Nat.min g (s.crestGain p n)) (2 ^ 30)
  Nat.min (tenthsOf 20 (g * g * 10 ^ 18 / 2 ^ 60)) 0xFFFF

end Sys2Proof.Machine
end

