-- ==== Sys2Proof/Machine/Token.lean ====
section
/-! DEFINITION. Transmit tokens of a cascade (18_caravan_cascade.md, R392 to R394): what a device claims before a start on a
shared feeder, and the master's table of tokens held and claims queued. -/
namespace Sys2Proof.Machine

/-- CAV STATE values. -/
def CS.OFF : Nat := 0
def CS.TRAINING : Nat := 1
def CS.CONNECTED : Nat := 2
def CS.ORPHAN : Nat := 3
def CS.REJOINING : Nat := 4

/-- STATE of the Caravan. -/
def State.cavState (s : State) : Nat := s.get Pg.CAV CAV.STATE

/-- The device is the master (R383). -/
def State.isMaster (s : State) : Bool := s.flag Pg.CAV CAV.ROLE

/-- An orphan transmits nothing, from the loss of the ring until service resumes (R389, R390). -/
def State.isOrphan (s : State) : Bool := decide (s.cavState = CS.ORPHAN) || decide (s.cavState = CS.REJOINING)

/-- FEEDER_ID of port p. -/
def State.feederOf (s : State) (p : Nat) : Nat := s.get Pg.CAV (CAV.FEEDER_ID.nth (p / 4)) / 2 ^ (8 * (p % 4)) % 256

/-- A start on port p, acknowledgements excepted, needs a token (R392, R395). -/
def State.needToken (s : State) (p : Nat) : Bool :=
  decide (s.cavState ≠ CS.OFF) && decide (s.get Pg.CAV CAV.MODE = 2) && decide (s.feederOf p ≠ 0)

/-- Replaces the Caravan's part. -/
def State.modCav (f : CavSt → CavSt) (s : State) : State := { s with cav := f s.cav }

/-- Puts a message on the ring. -/
def State.ringSend (m : RingMsg) (s : State) : State := s.modCav fun c => { c with out := c.out ++ [m] }

/-- Two tokens are for the same feeder and overlapping bands. -/
def tokensClash (a b : Token) : Bool :=
  decide (a.feeder = b.feeder) && bandsOverlap a.centre a.rate b.centre b.rate

/-- This device holds the token for a band of port p. -/
def State.tokenMine (s : State) (p centre rate : Nat) : Bool :=
  s.cav.mine.any fun k => !k.ack && decide (k.feeder = s.feederOf p) && decide (k.centre = centre) && decide (k.rate = rate)

/-- Another device holds a token for the feeder of port p and an overlapping band, as far as this device knows (R197): the
master knows every token held. -/
def State.tokenOther (s : State) (p centre rate : Nat) : Bool :=
  s.needToken p && s.cav.held.any fun k =>
    decide (k.dev ≠ s.get Pg.CAV CAV.POSITION) && decide (k.feeder = s.feederOf p) && bandsOverlap k.centre k.rate centre rate

/-- The port's token needs are met for a start: no token needed, or it is held. -/
def State.tokenOk (s : State) (p centre rate : Nat) : Bool := !s.needToken p || s.tokenMine p centre rate

/-! ## Receiving a grant or PREEMPT -/

/-- A grant reaches this device: the token is its own; class-0 attempts that waited for it become ready (R393). -/
def State.tokenArrive (k : Token) (s : State) : State :=
  let wait := s.time - k.at_
  let s := s.modCav fun c => { c with mine := c.mine ++ [k], claims := c.claims.filter fun x =>
    !(decide (x.feeder = k.feeder) && decide (x.centre = k.centre) && decide (x.rate = k.rate) && decide (x.ack = k.ack)) }
  if k.cls = 0 ∧ k.ack = false then
    let us := wait * 1000 / 2048
    let s := onlyIf (decide (s.get Pg.CAV CAV.CLAIM_MAX_US < us)) (State.put Pg.CAV CAV.CLAIM_MAX_US (sat 16 us)) s
    { s with mac := { s.mac with attempts := s.mac.attempts.map fun a =>
        if a.cls = 0 ∧ a.port = k.port ∧ a.started = false then { a with ready := s.time } else a } }
  else s

/-- PREEMPT reaches a holder: its data transmissions of classes 1 to 3 on the token's band become victims, to be cut at
their next symbol boundaries (R393). -/
def State.preempted (k : Token) (s : State) : State :=
  let s := forEach (s.txs.lanes.filter fun e => match e.2 with
      | some x => decide (s.feederOf (e.1 / 16) = k.feeder) && decide (x.kind = .data) && x.onLine
          && bandsOverlap x.centre x.rate k.centre k.rate && !x.victim
      | none => false)
    (fun e s => match e.2 with
      | some x => (s.setLane (e.1 / 16) (e.1 % 16) (some { x with victim := true, cutFrom := s.time })).count Pg.CAV CAV.PREEMPT_CNT
      | none => s) s
  s.event Pg.CAV CAV.EV_PREEMPT

/-! ## The master's table -/

/-- The master gives a token to its device: to itself at once, to a slave by a message on the ring. -/
def State.masterGrant (k : Token) (s : State) : State :=
  let s := s.modCav fun c => { c with held := c.held ++ [k] }
  if k.dev = s.get Pg.CAV CAV.POSITION then s.tokenArrive k else s.ringSend (.grant k)

/-- The master tells a holder to cut. -/
def State.masterPreempt (k : Token) (s : State) : State :=
  if k.dev = s.get Pg.CAV CAV.POSITION then s.preempted k else s.ringSend (.preempt k)

/-- A claim must wait: a class-0 claim for an overlapping class-0 token, any other for every overlapping token (R392 to
R394). -/
def State.mustQueue (s : State) (k : Token) : Bool :=
  s.cav.held.any fun h => tokensClash h k && (decide (k.cls ≠ 0) || (decide (h.cls = 0) && !h.ack))

/-- The master receives a claim (R392, R393): granted at once, or queued; a granted class-0 claim preempts the holders of
overlapping tokens of classes 1 to 3. -/
def State.masterClaim (k : Token) (s : State) : State :=
  if s.mustQueue k then s.modCav fun c => { c with queue := c.queue ++ [k] }
  else
    let victims := if k.cls = 0 then s.cav.held.filter fun h => tokensClash h k && decide (h.cls ≠ 0) && !h.ack else []
    (forEach victims State.masterPreempt s).masterGrant k

/-- Tries every queued claim again, in order of arrival. -/
def State.masterQueue (s : State) : State :=
  let q := s.cav.queue
  forEach q State.masterClaim (s.modCav fun c => { c with queue := [] })

/-- Two tokens are the same but for their times. -/
def sameToken (a b : Token) : Bool :=
  decide (a.dev = b.dev) && decide (a.feeder = b.feeder) && decide (a.centre = b.centre) && decide (a.rate = b.rate)
    && decide (a.ack = b.ack)

/-- What sensing makes of a token of another device that is no longer held: the ports of its feeder note the instant (R197). -/
def State.tokenGone (k : Token) (s : State) : State :=
  if k.dev = s.get Pg.CAV CAV.POSITION then s
  else forEach ((List.range 16).filter fun p => decide (s.feederOf p = k.feeder) && decide (k.feeder ≠ 0))
    (fun p s => s.noteEnd p k.centre k.rate false s.time) s

/-- The master takes a token, or a claim still queued, back and serves the queue (R392). -/
def State.masterRelease (k : Token) (s : State) : State :=
  let s := if s.cav.held.any fun h => sameToken h k then s.tokenGone k else s
  (s.modCav fun c => { c with held := c.held.filter (fun h => !sameToken h k), queue := c.queue.filter fun h => !sameToken h k }).masterQueue

/-! ## Claiming and releasing -/

/-- The token a start on port p of a class would claim. -/
def State.tokenFor (s : State) (p centre rate cls : Nat) (ack : Bool) (planned : Nat) : Token :=
  ⟨s.get Pg.CAV CAV.POSITION, s.feederOf p, centre, rate, cls, ack, p, s.time, planned⟩

/-- Takes back this device's claims for a band of port p. -/
def State.dropClaims (p centre rate : Nat) (s : State) : State :=
  let gone := fun (k : Token) => decide (k.port = p) && decide (k.centre = centre) && decide (k.rate = rate)
  let mine := s.cav.claims.filter gone
  let s := s.modCav fun c => { c with claims := c.claims.filter fun k => !gone k }
  if s.isMaster then s.modCav fun c => { c with queue := c.queue.filter fun k =>
      !(gone k && decide (k.dev = s.get Pg.CAV CAV.POSITION)) }
  else forEach mine (fun k s => s.ringSend (.release k)) s

/-- Claims a token from the master where one is needed and neither held nor claimed; a class-0 claim takes the place of a claim of a
lower class for its band (R222, R392, R393). -/
def State.claimToken (p centre rate cls planned : Nat) (s : State) : State :=
  if s.needToken p = false ∨ s.tokenMine p centre rate = true
      ∨ s.cav.claims.any (fun k => decide (k.port = p) && decide (k.centre = centre) && decide (k.rate = rate)
          && decide (k.cls ≤ cls)) = true then s
  else
    let s := onlyIf (decide (cls = 0)) (State.dropClaims p centre rate) s
    let k := s.tokenFor p centre rate cls false planned
    let s := (s.count Pg.CAV CAV.CLAIM_CNT).modCav fun c => { c with claims := c.claims ++ [k] }
    if s.isMaster then s.masterClaim k else s.ringSend (.claim k)

/-- Withdraws a claim that was not granted by its start slot (R392). -/
def State.withdrawClaim (p centre rate : Nat) (s : State) : State :=
  (s.dropClaims p centre rate).count Pg.CAV CAV.CLAIM_FAIL_CNT

/-- Gives one of this device's tokens back. -/
def State.releaseToken (k : Token) (s : State) : State :=
  let s := s.modCav fun c => { c with mine := c.mine.filter fun x => !sameToken x k }
  if s.isMaster then s.masterRelease k else s.ringSend (.release k)

end Sys2Proof.Machine
end

