-- ==== Sys2Proof/Machine/Txs.lean ====
section
/-! DEFINITION. Transmissions on the lanes (07_transmit_synthesis.md, R86 and R90 of 04_line_ports.md, R207 of
09_medium_access.md): start and latching (R159), arming for the acknowledgement (R207), victims and cuts (R166 to R168),
ends (R100), early endings (R95, R170), and the energy figures (R172). -/
namespace Sys2Proof.Machine

/-! ## Messages and attempts -/

/-- The limit of attempts of a message: MAX_ATTEMPTS, or 4 for class 0 (R200, R204). -/
def State.attemptLimit (s : State) (cls : Nat) : Nat := if cls = 0 then 4 else s.get Pg.MAC MAC.MAX_ATTEMPTS

/-- A data frame has ended without an acknowledgement: the wake train that it followed has failed with it (R215). -/
def State.trainOver (n tag t : Nat) (s : State) : State :=
  match s.msg n tag with
  | none => s
  | some m => onlyIf m.byTrain (State.trainFailed (s.plan n m).dst t) s

/-- An attempt was made and not acknowledged (R200, R204): the message ends after its last attempt, or with CANCELLED_HOST
or, after its last attempt, FAILED_AUTH where these apply (R264, R240); otherwise its next attempt may be granted. The wake train
that it followed has failed with it (R215). -/
def State.attemptFailed (n tag t : Nat) (s : State) : State :=
  match s.msg n tag with
  | none => s
  | some m =>
    let s := s.trainOver n tag t
    if m.cancelled then s.endMsg n tag Outc.CANCELLED_HOST 0 t
    else if s.attemptLimit (s.plan n m).cls ≤ m.attempts then
      s.endMsg n tag (if m.authReject then Outc.FAILED_AUTH else Outc.FAILED_NOACK) 0 t
    else (s.modMsg n tag fun x => { x with onLine := false, delay := Delay.NONE, delayAt := t }).dropAttempt n tag

/-- An attempt counts as not made (R161, R168, R170): the message waits at the head of its queue until it is granted again,
showing `why`, and stays in flight until its outcome (R260); a cancelled one ends (R264). -/
def State.notMade (n tag why t : Nat) (s : State) : State :=
  match s.msg n tag with
  | none => s
  | some m =>
    let s := s.trainOver n tag t
    if m.cancelled then s.endMsg n tag Outc.CANCELLED_HOST 0 t
    else (s.modMsg n tag fun x => { x with
      onLine := false, attempts := x.attempts - 1, delay := why, delayAt := t
      cut := x.cut || decide (why = Delay.PREEMPT) }).dropAttempt n tag

/-- Changes the attempt of a message. -/
def State.modAttempt (n tag : Nat) (f : Attempt → Attempt) (s : State) : State :=
  { s with mac := { s.mac with attempts := s.mac.attempts.map fun a => if a.queue = n ∧ a.tag = tag then f a else a } }

/-- The attempt of a message. -/
def State.attempt (s : State) (n tag : Nat) : Option Attempt :=
  s.mac.attempts.find? fun a => decide (a.queue = n) && decide (a.tag = tag)

/-- A start that was handed over comes to nothing: its attempt goes on, showing `why`. -/
def State.unstart (n tag why t : Nat) (s : State) : State :=
  match s.attempt n tag with
  | none => s
  | some _ => (s.modAttempt n tag fun a => { a with started := false }).showDelay n tag why t

/-- A new draw with exponent `be` (R199). -/
def State.redraw (a : Attempt) (be : Nat) (s : State) : State :=
  s.withFree fun r s => s.modAttempt a.queue a.tag fun x => { x with be := be, wait := r % 2 ^ be }

/-- A busy find: counted, the message ends at the limit, else backoff goes on with a larger exponent (R199). A start slot so refused
breaks a run of transmit-window refusals (R201). -/
def State.busyFind (a : Attempt) (t : Nat) (s : State) : State :=
  let s := s.count Pg.MAC MAC.LBT_BUSY_CNT
  if s.get Pg.MAC MAC.LIMIT ≤ a.busyFinds + 1 then
    ((s.event Pg.MAC MAC.EV_BUSY_FAIL).count Pg.MAC MAC.BUSY_FAIL_CNT).endMsg a.queue a.tag Outc.FAILED_CHANNEL_BUSY 0 t
  else
    let s := s.modAttempt a.queue a.tag fun x => { x with busyFinds := x.busyFinds + 1, winRefusals := 0 }
    (s.showDelay a.queue a.tag Delay.BUSY t).redraw a (Nat.min (a.be + 1) (s.get Pg.MAC MAC.BE_MAX))

/-- The job of a message's transmission goes on bearing its cost until the lane is free. -/
def State.renameJob (a b : JobKind) (s : State) : State :=
  { s with oas := { s.oas with running := s.oas.running.map fun j => if j.kind = a then { j with kind := b } else j } }

/-! ## Trains -/

/-- The train whose message is `n`, `tag`. -/
def State.trainOf (s : State) (n tag : Nat) : Option Train := s.mac.trains.find? fun r => decide (r.queue = n) && decide (r.tag = tag)

/-- Replaces the train of an endpoint. -/
def State.setTrain (r : Train) (s : State) : State :=
  { s with mac := { s.mac with trains := s.mac.trains.map fun x => if x.ep = r.ep then r else x } }

/-- Takes the train of an endpoint off the list. -/
def State.dropTrain (ep : Nat) (s : State) : State :=
  { s with mac := { s.mac with trains := s.mac.trains.filter fun x => decide (x.ep ≠ ep) } }

/-- The lane of a train is free of its frames that are not on the line: of a wake frame, or of the data frame that waits for its t0. -/
def State.freeTrainLane (r : Train) (s : State) : State :=
  match s.lane r.port r.lane with
  | none => s
  | some x =>
    let mine := (decide (x.kind = .wake) && decide (x.queue = r.ep))
      || (decide (x.kind = .data) && decide (x.queue = r.queue) && decide (x.tag = r.tag))
    if mine ∧ x.onLine = false then s.setLane r.port r.lane none else s

/-- The train of an endpoint is abandoned: its lane is free and its message waits for its next grant, showing `why`; it stays in
flight (R260). -/
def State.abandonTrain (r : Train) (why t : Nat) (s : State) : State :=
  let s := (s.freeTrainLane r).dropTrain r.ep
  (s.modMsg r.queue r.tag fun m => { m with delay := why, delayAt := t }).endJob (.train r.ep)

/-- The train of an endpoint ends without its data frame (R216). -/
def State.trainLost (r : Train) (t : Nat) (s : State) : State := (s.abandonTrain r Delay.NONE t).trainFailed r.ep t

/-- The data frame of a train does not start at this instant: it waits for the next slot with `why`, up to WAKE_HOLD_SLOTS of them
(R216). -/
def State.trainHold (r : Train) (why t : Nat) (s : State) : State :=
  if r.holds < s.get Pg.MAC MAC.WAKE_HOLD_SLOTS then (s.setTrain { r with holds := r.holds + 1 }).showDelay r.queue r.tag why t
  else s.trainLost r t

/-- A train's lane between its frames. -/
def Lane.wakeOf (x : Lane) (r : Train) : Lane :=
  { x with kind := .wake, phase := .between, queue := r.ep, tag := r.tag, cls := 1, copies := 1, copy := 0, ackReq := false
           field := [], held := true }

/-- A wake frame of a train is skipped (R213). -/
def State.wakeSkip (s : State) : State := (s.count Pg.MAC MAC.WAKE_SKIP_CNT).event Pg.MAC MAC.EV_WAKE_SKIP

/-! ## LPn_ENA (R86) -/

/-- Drives LPn_ENA. -/
def State.setEna (p : Nat) (on : Bool) (t : Nat) (s : State) : State :=
  if s.flag (Pg.LPT p) LPT.ENA = on then s
  else
    let s := s.put (Pg.LPT p) LPT.ENA on.toNat
    if on then s.setLpt p { s.lptSt p with enaSince := t } else s

/-- A transmission is on the line at port p. -/
def State.portOnLine (s : State) (p : Nat) : Bool := (s.portLanes p).any fun e => e.2.onLine

/-- The t0 of the frame that a lane off the line carries next: its own, or of a train between two frames that of the next wake
frame, and after the last one that of the data frame. -/
def State.laneNext (s : State) (x : Lane) : Option Nat :=
  if x.onLine then none
  else if x.kind = .wake ∧ x.phase = .between then
    (s.mac.trains.find? fun r => decide (r.ep = x.queue)).map fun r =>
      if r.next + msTicks (s.get Pg.MAC MAC.WAKE_DATA_GAP_MS) < r.dataT then r.next else r.dataT
  else some x.t0

/-- A class-0 frame of port p may start at a class-0 access point up to `t` (R203). -/
def State.c0Soon (s : State) (p t : Nat) : Bool :=
  decide (s.accIndex s.mtb.c0Eff t ≠ s.mtb.c0Idx)
    && s.mac.attempts.any fun a => decide (a.cls = 0) && decide (a.port = p) && !a.started && decide (a.ready + usTicks 400 ≤ t)

/-- A start on port p is due up to tick `t`: of a lane, of a class-0 frame, or of an acknowledgement whose body is released. -/
def State.startSoon (s : State) (p t : Nat) : Bool :=
  (s.portLanes p).any (fun e => (s.laneNext e.2).any fun x => decide (x ≤ t))
    || (Tab.get (fun _ => none) s.txs.c0Next p).any (fun x => decide (x.t0 ≤ t))
    || s.c0Soon p t
    || s.mac.owed.any fun o => decide (o.port = p) && o.body.isSome && !o.sent && decide (o.t0 ≤ t)

/-- ENA_LEAD_START: in PER_FRAME mode LPn_ENA rises ENA_LEAD_US before a scheduled t0. -/
def execEnaLeadStart (t : Nat) (port : Fin 16) (s : State) : Res :=
  let s := s.atTick t
  let p := port.val
  let pg := Pg.LPT p
  let lead := usTicks (s.get pg LPT.ENA_LEAD_US)
  finish (onlyIf (s.portReady p && decide (s.get pg LPT.ENA_MODE = 0) && s.startSoon p (t + lead)) (State.setEna p true t) s)

/-- ENA_LAG_EXPIRY: ENA_LAG_US after the port's last DAC sample, with no channel transmitting, LPn_ENA falls, unless the lead
of a following start has begun (R86). -/
def execEnaLagExpiry (t : Nat) (port : Fin 16) (s : State) : Res :=
  let s := s.atTick t
  let p := port.val
  let pg := Pg.LPT p
  let lead := usTicks (s.get pg LPT.ENA_LEAD_US)
  let lag := usTicks (s.get pg LPT.ENA_LAG_US)
  let last := (s.txs.hist.filter fun x => decide (x.port = p)).foldl (fun m x => Nat.max m x.stop) 0
  let soon := s.portOnLine p || (s.portReady p && s.startSoon p (t + lead))
  let always := decide (s.get pg LPT.STATE = 2) && decide (s.get pg LPT.ENA_MODE = 1)
  finish (onlyIf (!always && !soon && !(s.lptSt p).pilot && decide (last + lag ≤ t)
      && (!(s.lptSt p).piloted || decide (s.pilotEnd p + lag ≤ t))) (State.setEna p false t) s)

/-! ## Arming an engine (R207) -/

/-- An engine of a channel that may be armed now: the lowest in HUNT or LENT. -/
def State.armable (s : State) (p centre rate sync : Nat) : Option Nat :=
  (s.matching p centre rate sync).find? fun c => decide (s.est c = ES.HUNT) || decide (s.est c = ES.LENT)

/-- Arms engine c for the acknowledgement of a message; a LENT engine is recalled at once (R150, R207). -/
def State.armEngine (c n tag : Nat) (robust : Bool) (s : State) : State :=
  let s := s.setEng c { s.eng c with armed := some (n, tag, robust) }
  if s.est c = ES.LENT then s.eput c ERG.STATE ES.RECALL else s

/-- Releases whatever engine is armed for a message. -/
def State.disarm (n tag : Nat) (s : State) : State :=
  forEach (s.erg.eng.filter fun e => match e.2.armed with
      | some (a, b, _) => decide (a = n) && decide (b = tag)
      | none => false)
    (fun e s => s.setEng e.1 { s.eng e.1 with armed := none }) s

/-- Arms for an acknowledgement at a copy's t0 and files its window (R207). -/
def State.openWindow (p : Nat) (x : Lane) (seq : Nat) (s : State) : State :=
  let robust := decide (1 < x.copies)
  let c := s.armable p x.centre x.rate x.sync
  let close := x.tEnd + 2 * ticks1ms + airTicks x.rate (ackSymbols robust) + usTicks (s.get Pg.MAC MAC.ACK_WIN_US)
  let w : AckWin := ⟨x.queue, x.tag, p, x.centre, x.rate, x.sync, seq, x.cls, robust, x.tEnd, close, c, false, false⟩
  let s : State := { s with mac := { s.mac with wins := s.mac.wins ++ [w] } }
  match c with
  | some e => s.armEngine e x.queue x.tag robust
  | none => s

/-! ## Off the line (R89, R90, R169) -/

/-- The transmit mark of a lane lasts until 256 ticks after the last DAC sample at `t` (R90). -/
def State.endMark (p l t : Nat) (s : State) : State :=
  { s with txs := { s.txs with marks := s.txs.marks.map fun m =>
      if m.port = p ∧ m.lane = l ∧ m.stop = none then { m with stop := some (t + 256) } else m } }

/-- The echo taps and analog settings of port p return to the fused defaults (R89). -/
def State.echoDefaults (p : Nat) (s : State) : State :=
  let pg := Pg.LPT p
  { s with regs := Tab.drop (inPage pg fun off => decide (off = 0x114) || (decide (0x800 ≤ off) && decide (off < 0xC00))) s.regs }

/-- The echo taps of port p stand where the adaptation has brought them (R89): unmoved while ECHO_FREEZE is 1, and while the echo
canceller is off (DEDUCED, log entry 148). -/
def State.tapsAdapt (p : Nat) (e : EchoResult) (s : State) : State :=
  if s.flag (Pg.LPT p) LPT.ECHO_FREEZE || !s.flag (Pg.LPT p) LPT.ECHO_EN then s
  else forEach ((e.taps.take 256).zipIdx) (fun x s => s.put (Pg.LPT p) (LPT.ECHO_TAP.nth x.2) x.1.toNat) s

/-- The cancellers at the end of a transmission (R89): the taps as adapted, CANC_GAIN and CANC_DELAY moved toward the main tap
while the cancellation DAC is on. -/
def State.echoAdapt (p : Nat) (e : EchoResult) (s : State) : State :=
  let s := s.tapsAdapt p e
  onlyIf (s.flag (Pg.LPT p) LPT.CANC_EN)
    (fun s => (s.put (Pg.LPT p) LPT.CANC_GAIN e.gain.toNat).put (Pg.LPT p) LPT.CANC_DELAY e.delay.toNat) s

/-- The outcome of an adaptation that no command reports, of a transmission that ended early: free values. -/
def freeEcho (r : Nat) : EchoResult :=
  ⟨BitVec.ofNat 16 r, BitVec.ofNat 8 (r / 2 ^ 16), (List.range 256).map fun i => BitVec.ofNat 24 (r / 2 ^ (24 * (i + 1)))⟩

/-- A waiting ECHO_RESET applies once no transmission is in progress on the port (R89). -/
def State.echoResetDue (p : Nat) (s : State) : State :=
  let st := s.lptSt p
  if st.echoReset ∧ s.portOnLine p = false then (s.setLpt p { st with echoReset := false }).echoDefaults p else s

/-- An owed acknowledgement has been sent or will not be: it is no longer owed. -/
def State.dropOwed (p centre rate : Nat) (tEnd : Nat) (s : State) : State :=
  let s := s.noteEnd p centre rate false s.time
  { s with mac := { s.mac with owed := s.mac.owed.filter fun o =>
      !(decide (o.port = p) && decide (o.centre = centre) && decide (o.rate = rate) && decide (o.tEnd = tEnd)) } }

/-- Keeps what a transmission has put on the line; what ended more than 4 ms ago no longer sounds in any window. -/
def State.keepWave (w : Wave) (s : State) : State :=
  { s with txs := { s.txs with waves := w :: s.txs.waves.filter fun x => decide (s.time < x.stop + 8192) } }

/-- What the end of a transmission at `stop` leaves behind: its on-time (R217), the end of its mark (R90), its waveform, and the
instant from which sensing no longer finds it (R197). -/
def State.lineEnded (p l : Nat) (x : Lane) (stop : Nat) (ramped : Bool) (s : State) : State :=
  let s := (s.recordOn { x.onTime p with stop := stop }).endMark p l stop
  (s.keepWave { x.wave p with stop := stop, ramped := ramped }).noteEnd p x.centre x.rate true stop

/-- Takes a lane off the line at tick `t` with no end pattern: its on-time and mark end there, its echo adaptation too, by free
values, and a waiting ECHO_RESET applies (R89). -/
def State.rampDown (p l : Nat) (x : Lane) (t : Nat) (s : State) : State :=
  let s := s.setLane p l none
  if x.onLine then
    ((s.lineEnded p l x t true).withFree fun r s => s.echoAdapt p (freeEcho r)).echoResetDue p
  else s

/-- An acknowledgement on the line in the way of a class-0 start at `t0` yields (R169): on lane 15 it is ramped to zero over the 16
DAC samples before `t0`, on another lane whose guard zone overlaps the alarm channel's band it ends at its next symbol boundary, in
both cases with no pattern. One whose fall has ended by then is simply at its end. -/
def State.yieldAcks (p t0 : Nat) (s : State) : State :=
  let ch := s.get (Pg.TXS p) TXS.ALARM_CH
  forEach ((s.portLanes p).filter fun e => decide (e.2.kind = .ack) && e.2.onLine
      && (decide (e.1 = 15) || inGuardZone (s.txCentre p ch) (s.txRate p ch) e.2.centre e.2.rate))
    (fun e s =>
      let x := e.2
      let s := s.dropOwed p x.centre x.rate x.due
      if x.fallEnd ≤ t0 then s.rampDown p e.1 x x.fallEnd
      else
        let off := x.boundaryFrom t0
        let s := if e.1 = 15 then s.rampDown p e.1 x t0
          else s.setLane p e.1 (some { x with phase := .ending, tEnd := off, phases := x.phases.take ((off - x.t0) / symTicks x.rate) })
        (s.count (Pg.TXS p) TXS.ACK_YIELD_CNT).event (Pg.TXS p) TXS.EV_ACK_YIELD) s

/-! ## Acknowledgements owed (R153, R157) -/

/-- The transmit channel definition that an acknowledgement's on-time is charged to: the lowest enabled one with its centre and
rate, 16 where there is none. -/
def State.ackChan (s : State) (o : Owed) : Nat :=
  ((List.range 16).find? fun k => s.flag (Pg.TXS o.port) (TXS.EN.nth k) && decide (s.txCentre o.port k = o.centre)
    && decide (s.txRate o.port k = o.rate)).getD 16

/-- The lane of an acknowledgement (R153). -/
def State.ackLane (s : State) (o : Owed) : Option Nat :=
  if s.isAlarmBand o.port o.centre o.rate o.sync then (if s.lane o.port 15 = none then some 15 else none) else s.freeLane o.port

/-- An acknowledgement's guard zone overlaps the band of a LIVE ALARM engine of the port, and it is not on the alarm channel
(R157). -/
def State.ackYields (s : State) (o : Owed) : Bool :=
  !s.isAlarmBand o.port o.centre o.rate o.sync
    && (s.alarmEngines o.port).any fun c => inGuardZone (s.eget c ERG.CENTRE) (s.eget c ERG.RATE) o.centre o.rate

/-- Forgets an owed acknowledgement. -/
def State.forgetOwed (o : Owed) (s : State) : State := s.dropOwed o.port o.centre o.rate o.tEnd

/-- The lane of an acknowledgement at its t0: the answered frame's channel, 32 preamble symbols and ACK_LEVEL (R124, R154, R159). -/
def State.ackLaneOf (s : State) (o : Owed) : Lane :=
  { kind := .ack, phase := .scheduled, queue := 0, tag := 0, cls := 0, ch := s.ackChan o, centre := o.centre, rate := o.rate
    preamble := 32, level := s.get (Pg.TXS o.port) TXS.ACK_LEVEL, sync := o.sync, mod := 0, code := 0, copies := 1, copy := 0
    p0 := 0, due := o.tEnd, t0 := o.t0, tEnd := o.t0, ackReq := false, field := [], ack := o.body, robust := o.robust
    energy := 0, victim := false, cutFrom := 0, held := false, phases := [] }

/-! ## Victims (R166) -/

/-- Data transmissions of classes 1 to 3 on the line at port p at the class-0 t0 `t` that can still be cut and are no victims yet,
best victim first: class 3 before class 2 before class 1, the latest t0 first. -/
def State.victimOrder (s : State) (p t : Nat) : List (Nat × Lane) :=
  let l := (s.portLanes p).filter fun e =>
    decide (e.2.kind = .data) && decide (e.2.phase = .onLine) && !e.2.victim && decide (e.2.boundaryFrom t < e.2.tEnd)
  let ins := fun (acc : List (Nat × Lane)) (e : Nat × Lane) =>
    let before := acc.takeWhile fun x => decide (e.2.cls < x.2.cls) || (decide (e.2.cls = x.2.cls) && decide (e.2.t0 ≤ x.2.t0))
    before ++ [e] ++ acc.drop before.length
  l.foldl ins []

/-- The power of the lanes of port p that no cut is taking off the line: the planned composite without the pilot, which never causes
a cut (R171), and without earlier victims (R166). -/
def State.keptPower (s : State) (p : Nat) : Nat :=
  (((s.portLanes p).filter fun e => e.2.onLine && !e.2.victim).map fun e => levelPower e.2.level).sum

/-- Marks victims of the class-0 t0 `t`, one at a time under FIT until the planned composite less the victims' power is at most
LEVEL_SUM_MAX; all of them under ALL (R166). -/
def State.chooseVictims (p t : Nat) : List (Nat × Lane) → Nat → State → State
  | [], _, s => s
  | (l, x) :: rest, sum, s =>
    if s.flag (Pg.TXS p) TXS.CUT_POLICY ∨ levelPower (s.get (Pg.TXS p) TXS.LEVEL_SUM_MAX) < sum then
      State.chooseVictims p t rest (sum - levelPower x.level) (s.setLane p l (some { x with victim := true, cutFrom := t }))
    else s

/-! ## Start (R158, R159) -/

/-- The settings that a frame takes at its t0 (R154, R159). -/
def State.latchLane (s : State) (p : Nat) (x : Lane) : Lane :=
  { x with
    centre := s.txCentre p x.ch, rate := s.txRate p x.ch, preamble := s.get (Pg.TXS p) (TXS.PREAMBLE.nth x.ch)
    level := s.get (Pg.TXS p) (TXS.LEVEL.nth x.ch), sync := s.get (Pg.TXS p) (TXS.SYNC_WORD.nth x.ch)
    p0 := s.phaseAt x.t0 }

/-- The settings that copy 0 of a message's frame takes at its t0: its channel's, and its mode (R159). -/
def State.latchFrame (s : State) (p : Nat) (m : Msg) (x : Lane) : Lane :=
  let mode := (s.plan x.queue m).mode
  { s.latchLane p x with mod := modeMod mode, code := modeCode mode, copies := modeCopies mode, ackReq := (s.plan x.queue m).ackReq }

/-- Puts a lane on the line: the end of its last symbol, its transmit mark (R90) and LPn_ENA (R86). -/
def State.goOnLine (p l : Nat) (x : Lane) (symbols : Nat) (phases : List Nat) (s : State) : State :=
  let tEnd := x.t0 + airTicks x.rate symbols
  let y : Lane := { x with phase := .onLine, tEnd := tEnd, phases := phases, held := true
                           energy := s.energyOf p x.level (airTicks x.rate (symbols + 2)) }
  let s := s.setLane p l (some y)
  let s : State := { s with txs := { s.txs with marks := s.txs.marks ++ [⟨p, l, x.centre, x.rate, x.t0, none⟩] } }
  s.setEna p true x.t0

/-- Notes the first t0 of a message; a class-0 first t0 later than one half-cycle + 3 ms after its interval start counts
C0_BOUND_MISS_CNT (R273). -/
def State.firstStart (n tag t : Nat) (m : Msg) (cls : Nat) (s : State) : State :=
  if m.firstT0.isSome then s
  else
    let s := s.modMsg n tag fun x => { x with firstT0 := some t }
    if cls = 0 ∧ m.lapsed = false ∧ m.interval + s.cycleTicks / 2 + 3 * ticks1ms < t then
      (s.count Pg.WAD WAD.C0_BOUND_MISS_CNT).event Pg.WAD WAD.EV_C0_BOUND_MISS
    else s

/-- The run of a lane ends because its next copy cannot start (R161). -/
def State.endRun (p l : Nat) (x : Lane) (t : Nat) (s : State) : State :=
  (((s.setLane p l none).notMade x.queue x.tag Delay.NONE t).count (Pg.TXS p) TXS.RUN_END_CNT).event (Pg.TXS p)
    TXS.EV_RUN_END

/-- A copy of a data or class-0 frame starts on lane l of port p. -/
def State.startCopy (p l : Nat) (x : Lane) (m : Msg) (s : State) : State :=
  let t := x.t0
  let first := decide (x.copy = 0)
  let s := onlyIf first (State.formField x.queue x.tag) s
  let m := (s.msg x.queue x.tag).getD m
  let x := if first then s.latchFrame p m x else x
  let field := if first then (if 0 < m.attempts then withDup m.field else m.field) else x.field
  let x := { x with field := field }
  let hdr := copyHeader x.rate x.mod x.code field.length x.copies x.copy
  let symbols := copySymbols x.preamble x.mod x.code field.length
  let s := s.goOnLine p l x symbols (copyPhases x.preamble x.sync hdr field)
  let s := s.count (Pg.TXS p) TXS.FRAME_CNT
  let s := onlyIf first (fun s => (s.firstStart x.queue x.tag t m x.cls).modMsg x.queue x.tag fun y =>
    { y with attempts := y.attempts + 1, onLine := true, delay := Delay.NONE, delayAt := t }) s
  let s : State := onlyIf first (fun s => { s with mac := { s.mac with
    attempts := s.mac.attempts.filter fun a => !(decide (a.queue = x.queue) && decide (a.tag = x.tag)) } }) s
  let y := (s.lane p l).getD x
  let s := onlyIf (y.ackReq && decide (y.copy + 1 = y.copies)) (State.openWindow p y (m.seq.getD 0)) s
  if x.kind = .class0 then
    let s := s.chooseVictims p t (s.victimOrder p t) (s.keptPower p)
    s.dwellOver p y.ch y.fallEnd false
  else s

/-- The planned on-time of copy 0 takes the level of its channel at t0 (R159, R160). -/
def State.startFits (s : State) (p : Nat) (x : Lane) : Bool := s.dataLevelFits p (s.get (Pg.TXS p) (TXS.LEVEL.nth x.ch))

/-- The data frame of a train starts on the train's lane: the train ends with it, and its job goes on as the message's (R216). -/
def State.startTrainData (p l : Nat) (x : Lane) (m : Msg) (r : Train) (s : State) : State :=
  if s.txUsable p x.ch = false then (s.setLane p l (some (x.wakeOf r))).trainHold r Delay.BUSY x.t0
  else if s.startFits p x = false then
    ((s.setLane p l (some (x.wakeOf r))).count (Pg.TXS p) TXS.LEVEL_WAIT_CNT).trainHold r Delay.BUSY x.t0
  else
    let s := ((s.dropTrain r.ep).renameJob (.train r.ep) (.tx r.queue r.tag)).modMsg x.queue x.tag fun y => { y with byTrain := true }
    s.startCopy p l x m

/-- Copy 0 of a frame of classes 1 to 3 at its t0: not on a channel that may start nothing (R156, R199), nor where its level does not
fit, which is a busy find (R160, R199). -/
def State.startData (p l : Nat) (x : Lane) (m : Msg) (s : State) : State :=
  match s.trainOf x.queue x.tag with
  | some r => s.startTrainData p l x m r
  | none =>
    if s.txUsable p x.ch = false then (s.setLane p l none).unstart x.queue x.tag Delay.BUSY x.t0
    else if s.startFits p x = false then
      let s := ((s.setLane p l none).unstart x.queue x.tag Delay.BUSY x.t0).count (Pg.TXS p) TXS.LEVEL_WAIT_CNT
      match s.attempt x.queue x.tag with
      | some a => onlyIf (decide (x.kind ≠ .schedule)) (State.busyFind a x.t0) s
      | none => s
    else (s.modMsg x.queue x.tag fun y => { y with byTrain := false }).startCopy p l x m

/-- A frame that cannot be secured any more does not start: its message ends FAILED_AUTH without a transmission (R233). -/
def State.startUnsecured (p l : Nat) (x : Lane) (t : Nat) (s : State) : State :=
  let s := s.setLane p l none
  let s := match s.trainOf x.queue x.tag with
    | some r => s.abandonTrain r Delay.NONE t
    | none => s
  s.endMsg x.queue x.tag Outc.FAILED_AUTH 0 t

/-- TRANSMISSION_START of a data or class-0 frame. A later copy of classes 1 to 3 that does not fit or whose channel is
blocked ends its run (R161); every class-0 frame and copy makes acknowledgements in its way yield (R169). -/
def State.startFrame (p l : Nat) (x : Lane) (s : State) : State :=
  match s.msg x.queue x.tag with
  | none => s.setLane p l none
  | some m =>
    if m.seq.isNone && s.cannotSecure (s.plan x.queue m) then s.startUnsecured p l x x.t0
    else if x.kind = .class0 then (s.yieldAcks p x.t0).startCopy p l x m
    else if x.copy = 0 then s.startData p l x m
    else if s.dataLevelFits p x.level = false ∨ bitOf (s.get (Pg.TXS p) TXS.BLOCKED_CH) x.ch = 1 then s.endRun p l x x.t0
    else s.startCopy p l x m

/-- The payload of a WAKE frame (R226): time to the data frame's t0 in 0.25 ms units, wake frames still to come, 0. -/
def wakePayload (delay remain : Nat) : List Byte := leBytes 2 (sat 16 (delay / 512)) ++ leBytes 1 (sat 8 remain) ++ [0]

/-- FTYPE of WAKE frames (R226). -/
def ftypeWake : Nat := 2

/-- A wake frame, whose data field is formed, goes on the line as a single copy, with the settings of its own t0. -/
def State.startSingle (p l : Nat) (x : Lane) (s : State) : State :=
  let x := s.latchLane p x
  let hdr := copyHeader x.rate x.mod x.code x.field.length 1 0
  let s := s.goOnLine p l x (copySymbols x.preamble x.mod x.code x.field.length) (copyPhases x.preamble x.sync hdr x.field)
  s.count (Pg.TXS p) TXS.FRAME_CNT

/-- A wake frame starts (R213): it tells the time from its own t0 to the t0 of the data frame. One whose level does not fit (R160), or
whose channel may start nothing (R156), is skipped, and the train continues after it. -/
def State.startWake (p l : Nat) (x : Lane) (s : State) : State :=
  match s.mac.trains.find? fun r => decide (r.ep = x.queue) with
  | none => s.setLane p l none
  | some r =>
    if s.txUsable p x.ch = false ∨ s.startFits p x = false then
      (s.setLane p l (some { x with phase := .between, held := true })).wakeSkip
    else
    let x := s.latchLane p x
    let period := r.air + msTicks (s.get Pg.MAC MAC.WAKE_GAP_MS)
    let lastT0 := r.dataT - msTicks (s.get Pg.MAC MAC.WAKE_DATA_GAP_MS) - r.air
    let remain := (lastT0 + period / 2 - x.t0) / Nat.max 1 period
    let (seq, s) := s.takeSeq r.ep
    let h : MacHeader := ⟨ftypeWake, 1, false, false, r.ep, 0, seq, 0, false, false, false⟩
    let x := { x with field := plainField h [] (wakePayload (r.dataT - x.t0) remain) }
    (s.startSingle p l x).count Pg.MAC MAC.WAKE_FRAME_CNT

/-- An acknowledgement starts (R124, R205). -/
def State.startAck (p l : Nat) (x : Lane) (s : State) : State :=
  match x.ack with
  | none => s.setLane p l none
  | some a =>
    let s := s.goOnLine p l x (ackSymbols x.robust) (ackPhases x.sync x.robust a)
    let s := s.count (Pg.TXS p) TXS.ACK_CNT
    s.dwellOver p x.ch ((s.lane p l).getD x).fallEnd true

/-- A lane that is scheduled goes on the line. -/
def State.startLane (p l : Nat) (x : Lane) (s : State) : State :=
  match x.kind with
  | .ack => s.startAck p l x
  | .wake => if x.phase = .between then s else s.startWake p l x
  | .schedule => s.startFrame p l x
  | .data => s.startFrame p l x
  | .class0 => s.startFrame p l x

/-- The class-0 frame of port p that waits for its t0 takes lane 15, free of whatever acknowledgement it still carried (R169). -/
def State.startC0 (p : Nat) (x : Lane) (s : State) : State :=
  let s : State := { s with txs := { s.txs with c0Next := Tab.set (fun _ => none) s.txs.c0Next p none } }
  ((s.yieldAcks p x.t0).setLane p 15 (some x)).startFrame p 15 x

/-- The acknowledgement that starts on lane l of port p at `t`, or that is found not to be sent then: the first one due that no lane
of another number takes. -/
def State.ackDue (s : State) (t p l : Nat) : Option Owed :=
  s.mac.owed.find? fun o => decide (o.port = p) && o.body.isSome && !o.sent && decide (o.t0 ≤ t)
    && (match s.ackLane o with
      | some x => decide (x = l) || s.ackYields o
      | none => true)

/-- An acknowledgement owed is sent, or not sent, at its fixed instant (R153, R157, R160): it takes the lane and the settings of that
instant. -/
def State.ackAtT0 (o : Owed) (s : State) : State :=
  let pg := Pg.TXS o.port
  if s.ackYields o then ((s.forgetOwed o).count pg TXS.ACK_YIELD_CNT).event pg TXS.EV_ACK_YIELD
  else match s.ackLane o with
    | none => ((s.forgetOwed o).count pg TXS.ACK_DROP_CNT).event pg TXS.EV_ACK_DROP
    | some l =>
      if s.ackLevelFits o.port (s.get pg TXS.ACK_LEVEL) then
        let s := onlyIf o.combined (State.count Pg.MIR MIR.ACKED_COMBINED_CNT) s
        let s : State := { s with mac := { s.mac with owed := s.mac.owed.map fun x => if x = o then { x with sent := true } else x } }
        s.startAck o.port l (s.ackLaneOf o)
      else ((s.forgetOwed o).count pg TXS.ACK_DROP_CNT).event pg TXS.EV_ACK_DROP

/-- TRANSMISSION_START (R159): what is due on a lane goes on the line. A port out of service, an orphan and Oasis at L5 start
nothing (R95, R170, R222); an acknowledgement that falls due then is not sent. -/
def State.transmissionStart (t p l : Nat) (s : State) : State :=
  if !s.portReady p || s.isOrphan || decide (s.level = 5) then
    match s.ackDue t p l with
    | some o => s.forgetOwed o
    | none => s
  else match (if l = 15 then Tab.get (fun _ => none) s.txs.c0Next p else none), s.lane p l with
    | some x, y =>
      if x.t0 ≤ t ∧ (y.all fun z => decide (z.kind = .ack)) then s.startC0 p x
      else match s.ackDue t p l with
        | some o => s.ackAtT0 o
        | none => s
    | none, some x => if x.onLine ∨ t < x.t0 then s else s.startLane p l x
    | none, none =>
      match s.ackDue t p l with
      | some o => s.ackAtT0 o
      | none => s

/-- TRANSMISSION_START. -/
def execTransmissionStart (t : Nat) (port lane : Fin 16) (s : State) : Res :=
  finish ((s.atTick t).transmissionStart t port.val lane.val)

/-! ## Cutting (R126, R167, R168) -/

/-- VICTIM_CUT: at its first symbol boundary `t` at or after the class-0 t0, and up to its last data symbol (R126), a victim ends silently in its preamble or sync word, and otherwise sends S_cut at its
own level and rate; its run ends, its message returns to the head of its queue with CLASS0_PREEMPT. -/
def State.victimCut (t p l : Nat) (s : State) : State :=
  match s.lane p l with
  | none => s
  | some x =>
    let sym := symTicks x.rate
    if x.victim = false ∨ x.phase ≠ .onLine ∨ t ≠ x.boundaryFrom x.cutFrom ∨ x.tEnd ≤ t then s
    else
      let n := (t - x.t0) / sym
      let silent := decide (n < x.preamble + 32)
      let y : Lane := { x with phase := .ending, copies := x.copy + 1
                               tEnd := if silent then t else t + airTicks x.rate 32
                               phases := if silent then x.phases.take n else x.phases.take n ++ cutPhases x.sync }
      let s := s.setLane p l (some y)
      let s := (s.count (Pg.TXS p) (if silent then TXS.CUT_SILENT_CNT else TXS.CUT_PATTERN_CNT)).event (Pg.TXS p) TXS.EV_CUT
      let s := (s.disarm x.queue x.tag).renameJob (.tx x.queue x.tag) (.lane p l)
      s.notMade x.queue x.tag Delay.PREEMPT t

/-- VICTIM_CUT. -/
def execVictimCut (t : Nat) (port lane : Fin 16) (s : State) : Res := finish ((s.atTick t).victimCut t port.val lane.val)

/-! ## Ends -/

/-- TX_MARK_END (R90, R176): the mark ends and its side-log record is written. -/
def State.txMarkEnd (t p l : Nat) (s : State) : State :=
  let due := fun (m : TxMark) => decide (m.port = p) && decide (m.lane = l) && (match m.stop with
    | some e => decide (e ≤ t)
    | none => false)
  let s := forEach (s.txs.marks.filter due)
    (fun m s => s.sideLog m.start SideKind.TX_MARK p (markData m.centre m.rate) ((m.stop.getD t) - m.start)) s
  let keep := s.txs.past.filter fun m => markKeep (m.stop.getD 0) t
  { s with txs := { s.txs with marks := s.txs.marks.filter fun m => !due m, past := s.txs.marks.filter due ++ keep } }

/-- TX_MARK_END. -/
def execTxMarkEnd (t : Nat) (port lane : Fin 16) (s : State) : Res := finish ((s.atTick t).txMarkEnd t port.val lane.val)

/-- The last copy of a frame has ended normally: an awaited acknowledgement leaves its window open, else the message ends
SENT_NO_ACK_REQ (R200), or CANCELLED_HOST where it was cancelled (R264). -/
def State.lastCopyEnded (p l : Nat) (x : Lane) (t : Nat) (s : State) : State :=
  let s := (s.setLane p l none).endJob (.tx x.queue x.tag)
  let s := match s.msg x.queue x.tag with
    | some m => s.noteAwake (s.plan x.queue m).dst (s.plan x.queue m).ftype (s.plan x.queue m).more t
    | none => s
  let s := s.modMsg x.queue x.tag fun m => { m with onLine := false }
  if x.ackReq then
    { s with mac := { s.mac with wins := s.mac.wins.map fun w =>
        if w.queue = x.queue ∧ w.tag = x.tag then { w with isOpen := true } else w } }
  else match s.msg x.queue x.tag with
    | none => s
    | some m => s.endMsg x.queue x.tag (if m.cancelled then Outc.CANCELLED_HOST else Outc.SENT_NO_ACK_REQ) 0 t

/-- What follows the end of a lane's fall. -/
def State.laneEnded (p l : Nat) (x : Lane) (t : Nat) (s : State) : State :=
  if x.phase = .ending then (s.setLane p l none).endJob (.lane p l)
  else match x.kind with
    | .ack => (s.setLane p l none).dropOwed p x.centre x.rate x.due
    | .wake =>
      if s.mac.trains.any fun r => decide (r.ep = x.queue) then
        let s : State := { s with mac := { s.mac with trains := s.mac.trains.map fun r =>
          if r.ep = x.queue then { r with next := x.tEnd + msTicks (s.get Pg.MAC MAC.WAKE_GAP_MS) } else r } }
        s.setLane p l (some { x with phase := .between })
      else s.setLane p l none
    | _ =>
      if x.copy + 1 < x.copies ∧ s.isOrphan = true then
        ((s.setLane p l none).disarm x.queue x.tag).notMade x.queue x.tag Delay.BUSY t
      else if x.copy + 1 < x.copies then
        let at_ := s.copyInstant x.tEnd x.p0 x.copies x.copy
        (s.setLane p l (some { x with phase := .between, copy := x.copy + 1, t0 := at_, due := at_ })).placeFixed p at_
          (decide (x.kind = .class0))
      else s.lastCopyEnded p l x t

/-- TRANSMISSION_END (R89, R100, R217): the fall of a lane has ended. -/
def State.transmissionEnd (t p l : Nat) (e : EchoResult) (s : State) : State :=
  match s.lane p l with
  | none => s
  | some x =>
    if x.onLine = false ∨ t < x.fallEnd then s
    else
      let s := s.lineEnded p l x x.fallEnd false
      let s := (s.echoAdapt p e).laneEnded p l x t
      s.echoResetDue p

/-- TRANSMISSION_END. -/
def execTransmissionEnd (t : Nat) (port lane : Fin 16) (echo : EchoResult) (s : State) : Res :=
  finish ((s.atTick t).transmissionEnd t port.val lane.val echo)

/-! ## Early endings (R88, R95, R169, R170) -/

/-- Why a port's transmissions end early. -/
inductive AbortCause where
  | overcurrent | fault | trip
deriving DecidableEq, Repr

/-- Counts an early ending (R170). -/
def State.countAbort (p : Nat) (s : State) : State := (s.count (Pg.TXS p) TXS.TX_ABORT_CNT).event (Pg.TXS p) TXS.EV_TX_ABORT

/-- Ends the transmission of a lane early: overcurrent makes it an attempt without acknowledgement (R88), a port that leaves
service ends its message FAILED_PORT_FAULT (R95), the trip leaves it waiting with THROTTLE (R170). A message between two copies
of its run is treated as one in transmission (DESIGN CHOICE, log entry 128: R95 speaks of a frame in transmission and of
messages in backoff or waiting for their next attempt, and of the gaps of a run in neither place). -/
def State.abortLane (p l : Nat) (x : Lane) (why : AbortCause) (t : Nat) (s : State) : State :=
  let was := x.onLine
  if why = .overcurrent ∧ was = false then s
  else
    let s := (s.rampDown p l x t).endJob (.lane p l)
    let s := onlyIf was (State.countAbort p) s
    match x.kind with
    | .ack => s.dropOwed p x.centre x.rate x.due
    | .wake =>
      let s := onlyIf (decide (why = .overcurrent)) (fun s =>
        let s := s.setLane p l (some { x with phase := .between })
        { s with mac := { s.mac with trains := s.mac.trains.map fun r =>
          if r.ep = x.queue then { r with next := t + msTicks (s.get Pg.MAC MAC.WAKE_GAP_MS) } else r } }) s
      s
    | _ =>
      let s := s.disarm x.queue x.tag
      match why with
      | .overcurrent => if x.phase = .ending then s else s.attemptFailed x.queue x.tag t
      | .fault =>
        if was ∨ x.copy ≠ 0 then (s.trainOver x.queue x.tag t).endMsg x.queue x.tag Outc.FAILED_PORT_FAULT 0 t
        else s.unstart x.queue x.tag Delay.NONE t
      | .trip =>
        if x.phase = .ending then s
        else if was ∨ x.copy ≠ 0 then s.notMade x.queue x.tag Delay.THROTTLE t
        else s.unstart x.queue x.tag Delay.THROTTLE t

/-- A class-0 frame that waits for its staggered t0 does not start: its attempt waits for the next access point. -/
def State.dropC0Next (p t : Nat) (s : State) : State :=
  match Tab.get (fun _ => none) s.txs.c0Next p with
  | none => s
  | some x =>
    let s : State := { s with txs := { s.txs with c0Next := Tab.set (fun _ => none) s.txs.c0Next p none } }
    s.unstart x.queue x.tag Delay.NONE t

/-- Ends every transmission of a port early; where the cause holds off later starts, what waits for its t0 does not start. -/
def State.abortPort (p : Nat) (why : AbortCause) (t : Nat) (s : State) : State :=
  let s := forEach (s.portLanes p) (fun e s => s.abortLane p e.1 e.2 why t) s
  if why = .overcurrent then s else s.dropC0Next p t

/-- Messages in flight on a port but not on the line follow FAULT_POLICY when it leaves service (R95, R264): FAIL ends them,
HOLD leaves them waiting with BUSY for their next attempt. -/
def State.offLineFault (p t : Nat) (s : State) : State :=
  let hit := s.wad.queues.flatMap fun e =>
    ((e.2.msgs.filter fun m => m.inFlight && !m.onLine && decide ((s.plan e.1 m).port = p)).map fun m => (e.1, m.tag, e.2.hold))
  forEach hit (fun h s =>
    let (n, tag, hold) := h
    if hold then
      let s : State := { s with mac := { s.mac with attempts := s.mac.attempts.filter fun a =>
        !(decide (a.queue = n) && decide (a.tag = tag)) } }
      (s.modMsg n tag fun m => { m with delay := Delay.BUSY, delayAt := t }).endJob (.tx n tag)
    else s.endMsg n tag Outc.FAILED_PORT_FAULT 0 t) s

/-- A port leaves service (R95): DAC ramped to zero, LPn_ENA low, messages treated as R95 and R264 state. -/
def State.portOut (p t : Nat) (s : State) : State :=
  let s := (s.abortPort p .fault t).offLineFault p t
  let s := forEach (s.mac.trains.filter fun r => decide (r.port = p)) (fun r s => s.abandonTrain r Delay.BUSY t) s
  (s.setLpt p { s.lptSt p with pilot := false, piloted := false, checking := false }).setEna p false t

/-- The TX AFE domain of port p has gone off (R91, R95): its lanes end as in a port fault, LPn_ENA is low, and a pilot is
skipped. -/
def State.txAfeOff (p t : Nat) (s : State) : State :=
  let s := s.abortPort p .fault t
  let s := forEach (s.mac.trains.filter fun r => decide (r.port = p)) (fun r s => s.abandonTrain r Delay.THROTTLE t) s
  let s := (s.setLpt p { s.lptSt p with pilot := false }).setEna p false t
  s.put (Pg.LPT p) LPT.TX_AVAIL 0

/-- Oasis reaches L5 (R170): every port is ramped to zero, and what waits for its t0 does not start. -/
def State.allPortsOut (t : Nat) (s : State) : State :=
  let s := forEach (List.range 16) (fun p s => s.abortPort p .trip t) s
  let s := forEach s.mac.trains (fun r s => s.abandonTrain r Delay.THROTTLE t) s
  { s with mac := { s.mac with attempts := s.mac.attempts.map fun a => { a with started := false } } }

/-! ## Energy figures (R172) -/

/-- EST_K after a window of DAC_RMS `d` (0.1 dB) and `mw` line power: one step with a time constant of 1,024 windows. -/
def estStep (k : Nat) (d : Nat) (mw : Int) : Nat :=
  let full : Int := mw * (tenthTable.getD (d % 100) 0 * 10 ^ (d / 100) : Nat) * 1048576 / (10 ^ 9 : Nat)
  ((k : Int) + (full - (k : Int)) / 1024).toNat

/-- P_LINE_MW of port p (R172): the amplifier output voltage, the DAC output of ±1.0 V × AMP_GAIN / 10, times the current, in mW. -/
def State.lineMw (s : State) (p : Nat) (product : BitVec 32) : Int :=
  product.toInt * (s.get (Pg.LPT p) LPT.AMP_GAIN * s.get (Pg.LPT p) LPT.ISNS_SCALE : Nat) / 327680000

/-- A current of port p in mA, of a magnitude in 1/16 code of its LPn_ISNS converter (R88). -/
def State.codeMa (s : State) (p : Nat) (code : BitVec 16) : Nat := code.toNat * s.get (Pg.LPT p) LPT.ISNS_SCALE / 16000

/-- TX_ENERGY_REPORT: the 1 ms figures of a port, and what crest control and the hard limit did in that window (R162). -/
def State.txEnergy (p : Nat) (g : EnergyFigures) (s : State) : State :=
  let lineMw := s.lineMw p g.product
  let mA := fun (code : BitVec 16) => sat 16 (s.codeMa p code)
  let pg := Pg.TXS p
  let d := g.dacRms.toNat
  let clips := s.clipCount p s.time
  let s := ((((s.put pg TXS.DAC_RMS d).put pg TXS.P_LINE_MW (satSigned 16 lineMw)).put pg TXS.I_RMS_MA (mA g.rms)).put pg
    TXS.CREST_GAIN_MIN (s.crestDepth p s.time))
  let s := onlyIf (decide (0 < clips)) (fun s => (s.countBy pg TXS.CLIP_CNT clips).event pg TXS.EV_CLIP) s
  let s := (s.put (Pg.LPT p) LPT.I_MEAN_MA (mA g.mean)).put (Pg.LPT p) LPT.I_PEAK_MA (mA g.peak)
  let s : State := { s with oas := { s.oas with lineMw := Tab.set (fun _ => 0) s.oas.lineMw p lineMw } }
  if d < 400 then
    let k := estStep (s.estK p) d lineMw
    let s : State := { s with txs := { s.txs with estK := Tab.set (fun _ => 4000 * 1048576) s.txs.estK p k } }
    s.put pg TXS.EST_K (sat 16 (k / 1048576))
  else s

/-- TX_ENERGY_REPORT. -/
def execTxEnergyReport (t : Nat) (port : Fin 16) (figures : EnergyFigures) (s : State) : Res :=
  let s := s.atTick t
  finish (onlyIf (s.domOn (112 + port.val)) (State.txEnergy port.val figures) s)

end Sys2Proof.Machine
end

