-- ==== Sys2Proof/Machine/Regime.lean ====
section
/-! DEFINITION. The regimes of medium access (R209) and the stop of link firmware (R17), which the watchdog, a fault, the host
and standby share. -/
namespace Sys2Proof.Machine

/-- FW_STATE values of page LNK. -/
def FW.STOPPED : Nat := 0
def FW.BOOTING : Nat := 1
def FW.RUNNING : Nat := 2
def FW.HALTED : Nat := 3

/-- FW_STATE. -/
def State.fwState (s : State) : Nat := s.get Pg.LNK LNK.FW_STATE

/-- REASON values of the FALLBACK regime. -/
def Why.STARTUP : Nat := 0
def Why.LNK_STOPPED : Nat := 1
def Why.FORCED : Nat := 2
def Why.RECOVERY : Nat := 3

/-- Medium access enters FALLBACK for a reason (R209): wake trains are abandoned, their messages return to their queues, and
the queues of classes 1 to 3 pause (R17, R254). Reason STARTUP holds until link firmware first reports RUNNING (R424). -/
def State.toFallback (reason t : Nat) (s : State) : State :=
  let was := s.get Pg.MAC MAC.REGIME
  let s := forEach s.mac.trains (fun r s => s.abandonTrain r Delay.NONE t) s
  let s := (s.put Pg.MAC MAC.REGIME 1).put Pg.MAC MAC.REASON reason
  let s : State := { s with wad := { s.wad with lnkPause := true } }
  onlyIf (decide (was = 0)) (State.event Pg.MAC MAC.EV_REGIME_CHANGE) s

/-- Medium access returns to NORMAL (R209): LNK_PAUSE clears (R254). -/
def State.toNormal (s : State) : State :=
  if s.get Pg.MAC MAC.REGIME = 0 then s
  else
    let s : State := { s with wad := { s.wad with lnkPause := false } }
    (s.put Pg.MAC MAC.REGIME 0).event Pg.MAC MAC.EV_REGIME_CHANGE

/-- A mailbox command that link firmware had not answered is answered NOT_RUNNING (R250). -/
def State.dropMailbox (s : State) : State :=
  match s.lnk.mb with
  | none => s
  | some m =>
    let s : State := { s with lnk := { s.lnk with mb := none } }
    ((s.put Pg.LNK LNK.MB_TAG m.tag).put Pg.LNK LNK.RESULT 0xFF).event Pg.LNK LNK.EV_MB_DONE

/-- Link firmware stops (R17): FW_STATE is `st`; a stop by watchdog or fault may be followed by an automatic restart
(R425). -/
def State.fwStop (st : Nat) (auto : Bool) (t : Nat) (s : State) : State :=
  let s := ((s.put Pg.LNK LNK.FW_STATE st).put Pg.LNK LNK.FW_VERSION 0).event Pg.LNK LNK.EV_FW_STOPPED
  let s : State := { s with sec := { s.sec with stopAt := if auto then some t else none }
                            lnk := { s.lnk with inbox := [], stoppedAt := t }
                            wad := { s.wad with lnkPause := true } }
  let s := s.dropMailbox.grantClaims
  if s.get Pg.MAC MAC.REGIME = 0 then s.toFallback Why.LNK_STOPPED t else s

end Sys2Proof.Machine
end

