-- ==== Sys2Proof/Machine/Clocks.lean ====
section
/-! DEFINITION. Clocks, the chip watchdog and DRAM in service (19_clocks_reset_memory.md, R400 to R417). -/
namespace Sys2Proof.Machine

/-! ## Clocks -/

/-- SCLK_FAIL (R401, R402): SCLK_IN fails its monitor. A device that runs from it fails over or stops; a slave that runs from
the ring's clock only shows the failure. FAULT_SUMMARY.CLOCK stays set until RETURN_DONE or a reset, also on a device that ran or
runs again from the ring's clock. DESIGN CHOICE (log 93): R403 names no other end of it. -/
def State.sclkFail (ppm : Nat) (s : State) : State :=
  let s := ((s.event Pg.CLK CLK.EV_SAMPLE_FAIL).count Pg.CLK CLK.SAMPLE_FAIL_CNT).put Pg.CLK CLK.SCLK_OK 0
  let s := s.put Pg.CLK CLK.SCLK_PPM ppm
  let s : State := { s with clk := { s.clk with sclkFailed := true, returning := false } }
  if s.get Pg.CLK CLK.SAMPLE_SRC = 0 then s.sclkLost else s

/-- A window of the monitor fails (R401): no edge for 1 µs, or a frequency more than MON_PPM, in units of 10 ppm, from 16.384 MHz;
the measured error is signed, in units of 0.1 ppm. -/
def State.monitorFails (s : State) (ppm : BitVec 16) (noEdge : Bool) : Bool :=
  noEdge || decide (100 * s.get Pg.CLK CLK.MON_PPM < ppm.toInt.natAbs)

/-- SCLK_FAIL: what the monitor found; a frequency within MON_PPM is only shown. -/
def execSclkFail (t : Nat) (ppm : BitVec 16) (noEdge : Bool) (s : State) : Res :=
  finish (if s.monitorFails ppm noEdge then (s.atTick t).sclkFail ppm.toNat else (s.atTick t).put Pg.CLK CLK.SCLK_PPM ppm.toNat)

/-- CMD.SAMPLE_RETURN (R403), with SCLK_IN good for `good` ticks: refused with STATE unless the YG256 runs on the fallback
source and SCLK_IN has passed its monitor for the last 1 s. -/
def State.sampleReturn (good : Nat) (s : State) : State :=
  let s := s.put Pg.CLK CLK.SCLK_OK (if 0 < good then 1 else 0)
  if s.get Pg.CLK CLK.SAMPLE_SRC = 2 ∧ 2048000 ≤ good then { s with clk := { s.clk with returning := true } }
  else s.refuse Pg.CLK ErrCode.STATE 0x040

/-- RETURN_DONE (R403): SAMPLEPLL has locked to SCLK_IN again without a phase step, and CLOCK clears; the one event that clears it
(see `State.sclkFail`). -/
def execReturnDone (t : Nat) (s : State) : Res :=
  finish (onlyIf s.clk.returning (fun s =>
    let s : State := { s with clk := { s.clk with returning := false, sclkFailed := false } }
    (((s.put Pg.CLK CLK.SAMPLE_SRC 0).put Pg.CLK CLK.SCLK_OK 1).event Pg.CLK CLK.EV_RETURN_DONE)) (s.atTick t))

/-- AON_FAIL (R404): the 32.768 kHz input fails. -/
def execAonFail (s : State) : Res := finish ((s.put Pg.CLK CLK.AON_OK 0).event Pg.CLK CLK.EV_AON_FAIL)

/-- PLL_UNLOCK (page CLK): a PLL has lost lock; its STATUS bit clears. -/
def State.pllUnlock (pll : Nat) (s : State) : State :=
  let f : Fld := [CLK.SYS_LOCK, CLK.SPR_LOCK, CLK.SAMPLE_LOCK, CLK.DRAM01_LOCK].getD pll CLK.DRAM23_LOCK
  ((s.put Pg.CLK f 0).event Pg.CLK CLK.EV_PLL_UNLOCK).count Pg.CLK CLK.PLL_UNLOCK_CNT

/-- PLL_UNLOCK. -/
def execPllUnlock (pll : Fin 5) (s : State) : Res := finish (s.pllUnlock pll.val)

/-! ## Watchdog (R408) -/

/-- The watchdog counts. -/
def State.wdtRuns (s : State) : Bool := decide (s.get Pg.RST RST.WDT_MS ≠ 0) && !s.asleep

/-- WDT_LEFT_MS: time to expiry, 0 while the watchdog does not count. -/
def State.wdtLeft (s : State) : Nat :=
  match s.clk.wdtAt with
  | none => 0
  | some a => s.get Pg.RST RST.WDT_MS - (s.time - a) / 2048

/-- A write to WDT_KICK: 0x5A5A restarts the count, any other value counts. -/
def State.wdtKick (v : Nat) (s : State) : State :=
  if v = 0x5A5A then { s with clk := { s.clk with wdtAt := some s.time } }
  else s.count Pg.RST RST.WDT_BAD_KICK_CNT

/-- The safe point of page RST: a new WDT_MS starts its count. -/
def State.rstSafe (s : State) : State :=
  let old := s.get Pg.RST RST.WDT_MS
  let s := s.safeAll Pg.RST
  if s.get Pg.RST RST.WDT_MS = old then s else { s with clk := { s.clk with wdtAt := some s.time } }

/-! ## DRAM -/

/-- DRAM_HOT (R410): a device reports a temperature above 105 °C. -/
def execDramHot (channel : Fin 4) (range : BitVec 3) (s : State) : Res :=
  let pg := Pg.DRC channel.val
  finish (onlyIf (s.domOn (136 + channel.val)) (fun s => (s.put pg DRC.TEMP_RANGE range.toNat).event pg DRC.EV_DRAM_HOT) s)

/-- Ticks of an hour. -/
def hourTicks : Nat := 3600 * 2048000

/-- The patrol scrub ends its pass: one pass lasts SCRUB_H hours (R416). -/
def State.scrubDue (s : State) (t : Nat) : Bool :=
  s.flag (Pg.DRC 0) DRC.SCRUB_EN && decide (s.get (Pg.DRC 0) DRC.CHANNELS_ACTIVE ≠ 0) &&
    decide (s.clk.scrubAt + s.get (Pg.DRC 0) DRC.SCRUB_H * hourTicks ≤ t)

/-- SCRUB_PASS (R416): a patrol pass over every ECC word has been completed; the words it met with errors are listed with their
outcomes. -/
def execScrubPass (t : Nat) (errors : List (Nat × EccResult)) (s : State) : Res :=
  finish (onlyIf (s.scrubDue t) (fun s =>
    let s := (forEach errors (fun e s => s.dramEcc e.1 e.2) s).count (Pg.DRC 0) DRC.SCRUB_PASS_CNT
    { s with clk := { s.clk with scrubAt := t } }) (s.atTick t))

/-- The safe point of page DRC0: a patrol that SCRUB_EN starts begins its first pass. -/
def State.drcSafe (s : State) : State :=
  let was := s.flag (Pg.DRC 0) DRC.SCRUB_EN
  let s := s.safeAll (Pg.DRC 0)
  if s.flag (Pg.DRC 0) DRC.SCRUB_EN && !was then { s with clk := { s.clk with scrubAt := s.time } } else s

end Sys2Proof.Machine
end

