-- ==== Sys2Proof/Machine/Reset.lean ====
section
/-! DEFINITION. Resets (19_clocks_reset_memory.md, R404 to R407), the MRAM scan (20_startup_boot_security.md, R429 to R431), and
what follows DRAM training (R409, R410, R414, R419). -/
namespace Sys2Proof.Machine

/-! ## MRAM layout (R429) -/

def MR.GRID_KEY : Nat := 8192
def MR.GRID_MARK : Nat := 8196
def MR.BOOT_PARAM : Nat := 8320
def MR.BINDING : Nat := 8336
def MR.BASE : Nat := 10384

/-- BOOT_PARAM word 0: RATE_8533, PREF_SLOT and NO_AUTO_START. -/
def State.rate8533 (s : State) : Bool := decide (bitOf (s.mramWord MR.BOOT_PARAM).toNat 0 = 1)
def State.prefB (s : State) : Bool := decide (bitOf (s.mramWord MR.BOOT_PARAM).toNat 1 = 1)
def State.noAutoStart (s : State) : Bool := decide (bitOf (s.mramWord MR.BOOT_PARAM).toNat 2 = 1)

/-- The bytes of the words of a key that begins at MRAM word `at_`. -/
def State.mramKey (s : State) (at_ : Nat) : List Byte := (List.range 4).flatMap fun i => leBytes 4 (s.mramWord (at_ + i)).toNat

/-- Writes the words of a key. -/
def State.setMramKey (at_ : Nat) (key : List Byte) (s : State) : State :=
  forEach (List.range 4) (fun i s => s.setMram (at_ + i) (BitVec.ofNat 32 (leNat ((key.drop (4 * i)).take 4)))) s

/-! ## Scan (R430, R431) -/

/-- Counter n as the scan finds it: its base and the low bits of its latest record that reads well. -/
def State.scanCounter (s : State) (bad : List Nat) (n : Nat) : Nat :=
  let head := s.get Pg.MRM MRM.JOURNAL_HEAD
  let recs := s.mrm.words.filter fun e => decide (journalBase ≤ e.1) && decide (e.1 < journalBase + journalLen)
    && decide (e.2.toNat / 2 ^ 19 = n) && !bad.contains e.1
  let age := fun (e : Nat × Word) => (head + journalLen - 1 - (e.1 - journalBase)) % journalLen
  let best := recs.foldl (fun (acc : Option (Nat × Word)) e => match acc with
    | none => some e
    | some b => if age e < age b then some e else some b) none
  (s.mramWord (MR.BASE + n)).toNat / 2 ^ 19 * 2 ^ 19 + (match best with
    | some e => e.2.toNat % 2 ^ 19
    | none => 0)

/-- The MRAM words that hold what slot n needs: its key, its binding and its counter bases. -/
def slotWords (n : Nat) : List Nat :=
  [4 * n, 4 * n + 1, 4 * n + 2, 4 * n + 3, MR.BINDING + n, MR.BASE + n, MR.BASE + 2048 + n]

/-- Restores slot n from MRAM: its counters, and its key and binding unless one of its words cannot be read. -/
def State.scanSlot (bad : List Nat) (n : Nat) (s : State) : State :=
  let b := (s.mramWord (MR.BINDING + n)).toNat
  let k := { KeySlot.idle with txCtr := s.scanCounter bad (n + 2048), ctrHi := s.scanCounter bad n }
  s.setKeySlot n (if b < 2 ^ 31 ∨ (slotWords n).any (fun w => bad.contains w) = true then k
    else { k with addr := some (b % 4096), key := s.mramKey (4 * n) })

/-- The slot that an MRAM word tells something of: its binding, a base or a journal record of its counters. -/
def scannedSlot (e : Nat × Word) : Option Nat :=
  if MR.BINDING ≤ e.1 ∧ e.1 < MR.BASE then some (e.1 - MR.BINDING)
  else if MR.BASE ≤ e.1 ∧ e.1 < MR.BASE + 4096 then some ((e.1 - MR.BASE) % 2048)
  else if journalBase ≤ e.1 ∧ e.1 < journalBase + journalLen ∧ e.2.toNat / 2 ^ 19 < 4096 then some (e.2.toNat / 2 ^ 19 % 2048)
  else none

/-- Restores the grid key. -/
def State.scanGrid (bad : List Nat) (s : State) : State :=
  if (s.mramWord MR.GRID_MARK).toNat = 0 ∨ [8192, 8193, 8194, 8195, 8196, MR.BASE + 4096].any (fun w => bad.contains w) = true then s
  else { s with key := { s.key with grid := { KeySlot.idle with
    key := s.mramKey MR.GRID_KEY, txCtr := s.scanCounter bad 4096 } } }

/-- A journal word was uncorrectable: every TX_CTR rises by 65,536, so that no counter value is used twice (R431). -/
def State.raiseCounters (s : State) : State :=
  let s := forEach (List.range 2048) (fun n s => s.setTxCtr n (sat 32 ((s.keySlot n).txCtr + 65536))) s
  (s.setGridCtr (sat 32 (s.key.grid.txCtr + 65536))).event Pg.MRM MRM.EV_JOURNAL_UE

/-- The MRAM scan with the words that read uncorrectable. -/
def State.mramScan (bad : List Nat) (s : State) : State :=
  let s := forEach (s.mrm.words.filterMap scannedSlot) (State.scanSlot bad) s
  let s := s.scanGrid bad
  let s := onlyIf (decide (bad ≠ [])) (fun s => (s.countBy Pg.MRM MRM.UE_CNT bad.length).event Pg.MRM MRM.EV_UE) s
  onlyIf (bad.any fun w => decide (journalBase ≤ w) && decide (w < journalBase + journalLen)) State.raiseCounters s

/-- The identity private key lies among the uncorrectable words: boot stops at 0xF1 (R431). -/
def identityBad (bad : List Nat) : Bool := bad.any fun w => decide (MR.GRID_MARK < w) && decide (w < 8256)

/-! ## Boot stages -/

/-- Moves BOOT_STAGE. -/
def State.stage (n : Nat) (s : State) : State := s.put Pg.RST RST.BOOT_STAGE n

/-- Recovery (R422): no image starts, and medium access stands in FALLBACK. -/
def State.recover (t : Nat) (s : State) : State := ((s.stage 0xE0).toFallback Why.RECOVERY t).put Pg.LNK LNK.FW_STATE FW.STOPPED

/-- The boot ROM acts on BOOT_SEL once DRAM is ready (R419); strap value 3 counts as 0 (R407). -/
def State.bootSource (t : Nat) (s : State) : State :=
  if s.get Pg.RST RST.BOOT_STAGE = 0xF1 then s
  else if s.get (Pg.DRC 0) DRC.CAPACITY_MIB = 0 then s.stage 0xF0
  else match s.get Pg.RST RST.BOOT_SEL with
    | 1 => s.stage 0x80
    | 2 => s.recover t
    | _ => s.stage 0x30

/-! ## Resets (R406) -/

/-- Everything returns to reset but the registers that `keep` names, the MRAM, the external flash, fuses and the model's own
queue and counter. -/
def State.cleared (keep : Nat → Bool) (s : State) : State :=
  let r := State.reset
  { r with
    free := s.free
    regs := s.regs.filter fun e => keep e.1
    mrm := s.mrm
    sec := { r.sec with flash := s.sec.flash, blown := s.sec.blown }
    pending := s.pending }

/-- The journal's head and count of records and rotations lie in MRAM. -/
def keepMram (a : Nat) : Bool := decide (a / 4096 = Pg.MRM) && (decide (0x100 ≤ a % 4096) && decide (a % 4096 < 0x200))

/-- The counters of page RST lie in the AON domain. -/
def keepAon (a : Nat) : Bool := keepMram a || (decide (a / 4096 = Pg.RST) && decide (0x300 ≤ a % 4096))

/-- The straps are latched (R407), the fuse takes effect (R432), and the cause is shown. -/
def State.latchStraps (straps : BitVec 4) (s : State) : State :=
  let v := straps.toNat
  let s := s.put Pg.RST RST.HOST_SEL v
  let s := s.put Pg.RST RST.CAV_ROOT (v / 2)
  let s := s.put Pg.RST RST.BOOT_SEL (v / 4)
  let s := s.put Pg.HIF HIF.LINK_HOST v
  s.put Pg.CAV CAV.ROLE (v / 2)

/-- A blown fuse reads LOCKED from the reset that follows (R432). -/
def State.latchFuse (s : State) : State := onlyIf s.sec.blown (State.put Pg.SEC SEC.DEBUG_LEVEL 2) s

/-- The clocks lock; DRAM training and the MRAM scan begin (R418, R430). -/
def State.bringUp (straps : BitVec 4) (bad : List Nat) (cause : Nat) (s : State) : State :=
  let s := ((s.latchStraps straps).latchFuse).put Pg.RST RST.LAST_CAUSE cause
  let s := (((((s.put Pg.CLK CLK.SCLK_OK 1).put Pg.CLK CLK.SYS_LOCK 1).put Pg.CLK CLK.SAMPLE_LOCK 1).put Pg.CLK
    CLK.DRAM01_LOCK 1).put Pg.CLK CLK.DRAM23_LOCK 1).put Pg.CLK CLK.AON_OK 1
  let s := forEach (List.range 4) (fun n s => s.put Pg.PWD1 (PWD1.STATE.nth (136 + n)) 2) s
  let s := (s.stage 0x20).mramScan bad
  onlyIf (identityBad bad) (State.stage 0xF1) s

/-- A reset of everything, the AON domain included (power-on, XIN loss). -/
def State.powerReset (straps : BitVec 4) (bad : List Nat) (cause : Nat) (s : State) : State :=
  (s.cleared keepMram).bringUp straps bad cause

/-- A reset of everything but the AON domain (pin, chip, deep-sleep wake). -/
def State.pinClassReset (straps : BitVec 4) (bad : List Nat) (cause : Nat) (s : State) : State :=
  (s.cleared keepAon).bringUp straps bad cause

/-- What a warm reset keeps of the registers: the AON counters and straps, the clock status, the PCIe link, the DRC pages and the
power states of their domains. -/
def keepWarm (a : Nat) : Bool :=
  let pg := a / 4096
  let off := a % 4096
  keepAon a || (decide (pg = Pg.RST) && decide (off = 0x100)) || (decide (pg = Pg.CLK) && (decide (off = 0x100) || decide (off = 0x104)))
    || (decide (pg = Pg.HIF) && decide (off = 0x104)) || (decide (Pg.DRC 0 ≤ pg) && decide (pg ≤ Pg.DRC 3))
    || decide (a = addrOf Pg.CAV 0x100)

/-- Warm reset: SAMPLE_TIME counts on, and the PCIe endpoint, the DRC controllers with their table, DRAM, MRAM, straps and RST
counters stay. -/
def State.warmReset (bad : List Nat) (cause : Nat) (s : State) : State :=
  let role := s.get Pg.CAV CAV.ROLE
  let doms := (List.range 4).map fun n => s.get Pg.PWD1 (PWD1.STATE.nth (136 + n))
  let c := s.cleared keepWarm
  let h := c.host
  let c : State := { c with
    time := s.time
    dram := s.dram
    shadow := s.shadow.filter fun e => decide (Pg.DRC 0 ≤ e.1 / 4096) && decide (e.1 / 4096 ≤ Pg.DRC 3)
    host := { h with d3hot := s.host.d3hot, msiMask := s.host.msiMask, msiSent := s.host.msiSent, urCount := s.host.urCount }
    clk := { s.clk with wdtAt := some s.time, sleepAt := none } }
  let c := (c.setReg Pg.CAV 0x100 0).put Pg.CAV CAV.ROLE role
  let c := forEach doms.zipIdx (fun e s => s.put Pg.PWD1 (PWD1.STATE.nth (136 + e.2)) e.1) c
  let c := ((c.latchFuse.put Pg.RST RST.LAST_CAUSE cause).count Pg.RST RST.WARM_CNT).mramScan bad
  if identityBad bad then c.stage 0xF1 else c.bootSource c.time

/-- Leaving deep sleep (R434). -/
def State.wake (straps : BitVec 4) (bad : List Nat) (s : State) : State := s.pinClassReset straps bad 7

/-- POWER_ON_RESET: a monitored rail was below its threshold and every monitor passes again. -/
def execPowerOnReset (straps : BitVec 4) (bad : List Nat) (s : State) : Res := finish (s.powerReset straps bad 0)

/-- XIN_LOSS (R404): XIN delivered no edge for 100 µs, and has returned. -/
def execXinLoss (straps : BitVec 4) (bad : List Nat) (s : State) : Res := finish (s.powerReset straps bad 2)

/-- PIN_RESET: RESET_N low for 1 µs; in deep sleep it wakes the YG256 (R434). -/
def execPinReset (straps : BitVec 4) (bad : List Nat) (s : State) : Res :=
  finish (if s.asleep then s.wake straps bad else (s.pinClassReset straps bad 1).count Pg.RST RST.PIN_CNT)

/-- WDT_EXPIRED (R408): the watchdog counted from WDT_MS to zero. -/
def State.wdtExpired (straps : BitVec 4) (bad : List Nat) (s : State) : State :=
  match s.clk.wdtAt with
  | none => s
  | some a =>
    if s.wdtRuns = false ∨ s.time < a + msTicks (s.get Pg.RST RST.WDT_MS) then s
    else
      let s := (s.event Pg.RST RST.EV_WDT_EXPIRED).count Pg.RST RST.WDT_CNT
      match s.get Pg.RST RST.WDT_ACTION with
      | 1 => s.warmReset bad 5
      | 2 => s.pinClassReset straps bad 6
      | _ => { s with clk := { s.clk with wdtAt := none } }

/-- WDT_EXPIRED. -/
def execWdtExpired (t : Nat) (straps : BitVec 4) (bad : List Nat) (s : State) : Res :=
  finish ((s.atTick t).wdtExpired straps bad)

/-- DEEP_SLEEP_WAKE (R297, R434): the AON timer after DS_WAKE_S, where it is not 0, or RESET_N. -/
def execDeepSleepWake (t : Nat) (pin : Bool) (straps : BitVec 4) (bad : List Nat) (s : State) : Res :=
  let after := s.get Pg.SEC SEC.DS_WAKE_S
  finish (onlyIf (s.clk.sleepAt.any fun a => pin || (decide (after ≠ 0) && decide (a + after * 2048000 ≤ t))) (State.wake straps bad) s)

/-! ## DRAM training -/

/-- Size of the MIRAGE_RING region in MiB for a capacity in MiB (R414). -/
def ringMib (cap : Nat) : Nat := if 8192 ≤ cap then Nat.max (cap / 4 * 3) (cap - 8192) else cap - 2048

/-- The default layout (R414): kind, base and size in MiB, ECC, HOST_WR. -/
def defaultRegions (cap : Nat) : List (Nat × Nat × Nat × Bool × Bool) :=
  let ring := ringMib cap
  [(1, 0, 64, true, true), (3, 64, 32, true, false), (2, 96, 32, true, false), (10, 128, 4, true, false),
   (5, 132, 32, true, false), (4, 164, 512, true, false), (8, 676, 32, true, false), (9, 708, 256, true, false),
   (11, 964, 64, true, false), (12, 1028, 64, true, false), (6, 1092, cap - ring - 1092, true, true),
   (7, cap - ring, ring, false, false)]

/-- Writes entry r of the region table. -/
def State.setRegion (r : Nat) (e : Nat × Nat × Nat × Bool × Bool) (s : State) : State :=
  let (kind, base, size, ecc, hw) := e
  let s := s.setReg (Pg.DRC 0) (0x400 + 16 * r) (BitVec.ofNat 32 (kind + 256 + ecc.toNat * 512 + hw.toNat * 1024))
  (s.put (Pg.DRC 0) (DRC.BASE.nth r) (16 * base)).put (Pg.DRC 0) (DRC.SIZE.nth r) (16 * size)

/-- The boot ROM writes the default region table (R414). -/
def State.defaultTable (cap : Nat) (s : State) : State :=
  forEach (defaultRegions cap).zipIdx (fun e s => s.setRegion e.2 e.1) s

/-- Sets a channel's training result. -/
def State.channelState (r : DramTraining) (st : Nat) (n : Nat) (s : State) : State :=
  let pg := Pg.DRC n
  let failed := !r.ok.getD n false
  let s := (s.put pg DRC.STATE st).put pg DRC.DENSITY_GB (r.density.getD n 0)
  let s := s.put pg DRC.DATA_RATE (s.rate8533 && !r.fellBack).toNat
  let s := onlyIf (failed || decide (st = 2)) (State.event pg DRC.EV_TRAIN_FAIL) s
  s.put Pg.PWD1 (PWD1.STATE.nth (136 + n)) (if st = 1 then 2 else 0)

/-- Densities that training accepts, in GB per channel (R409). -/
def densityOk (d : Nat) : Bool := [2, 4, 8, 16, 32].contains d

/-- DRAM training has ended with a result (R409, R410, R414, R419). -/
def State.dramTrained (r : DramTraining) (t : Nat) (s : State) : State :=
  let s := onlyIf (s.rate8533 && r.fellBack) (State.event Pg.SEC SEC.EV_RATE_FALLBACK) s
  let dens := ((List.range 4).filter fun n => r.ok.getD n false).map fun n => r.density.getD n 0
  let mixed := dens.any fun d => decide (d ≠ dens.headD 0)
  if mixed then
    let s := forEach (List.range 4) (fun n s => (s.channelState r 2 n).put (Pg.DRC n) DRC.POP_MISMATCH 1) s
    s.bootSource t
  else
    let pair := fun k => r.ok.getD (2 * k) false && r.ok.getD (2 * k + 1) false && densityOk (dens.headD 0)
    let used := fun n => pair (n / 2)
    let any := pair 0 || pair 1
    let s := forEach (List.range 4) (fun n s =>
      s.channelState r (if used n then 1 else if any || r.ok.getD n false then 3 else 2) n) s
    if any = false then s.bootSource t
    else
      let chans := (List.range 4).filter used
      let cap := dens.headD 0 * 1024 * chans.length
      let s := s.put (Pg.DRC 0) DRC.CAPACITY_MIB cap
      let s := s.put (Pg.DRC 0) DRC.CHANNELS_ACTIVE ((chans.map (2 ^ ·)).sum)
      let s := s.put (Pg.DRC 0) DRC.DEGRADED (decide (chans.length = 2)).toNat
      let s : State := { s with clk := { s.clk with scrubAt := t } }
      (s.defaultTable cap).bootSource t

/-- DRAM_TRAINING_DONE: the training that follows a reset has ended. -/
def execDramTrainingDone (t : Nat) (result : DramTraining) (s : State) : Res :=
  finish (onlyIf ((List.range 4).all fun n => decide (s.get (Pg.DRC n) DRC.STATE = 0)) (State.dramTrained result t) (s.atTick t))

end Sys2Proof.Machine
end

