-- ==== Sys2Proof/Machine/Boot.lean ====
section
/-! DEFINITION. Boot, attestation, debug lock and flash (20_startup_boot_security.md, R419 to R433). -/
namespace Sys2Proof.Machine

/-! ## Images (R420, R421) -/

/-- A little-endian field of an image whose bytes `rd` reads. -/
def imageField (rd : Nat → Byte) (off n : Nat) : Nat := leNat ((List.range n).map fun i => rd (off + i))

/-- Bytes of an image. -/
def imageBytes (rd : Nat → Byte) (off n : Nat) : List Byte := (List.range n).map fun i => rd (off + i)

def IMG.HEADER : Nat := 128
def IMG.SIGNATURE : Nat := 16224
def imageLength (rd : Nat → Byte) : Nat := imageField rd 16 4
def imageSvn (rd : Nat → Byte) : Nat := imageField rd 8 4

/-- Check 3: FORMAT is 1, LENGTH is a multiple of 4 from 65,536 to 33,537,920, and ENTRY lies in the body. -/
def imageFormOk (rd : Nat → Byte) : Bool :=
  let len := imageLength rd
  decide (imageField rd 4 4 = 1) && decide (len % 4 = 0) && decide (65536 ≤ len) && decide (len ≤ 33537920)
    && decide (imageField rd 20 4 < len)

/-- Checks 2 to 7 of R421 in order: the code of the first that fails, 0 where all pass. -/
def imageCheck (rd : Nat → Byte) (rollback : Nat) : Nat :=
  let len := imageLength rd
  if imageField rd 0 4 ≠ 0x594C4731 then 1
  else if imageFormOk rd = false then 2
  else if Config.shake256 (imageBytes rd 72 48) 48 ≠ Config.imageKeyHash then 3
  else if Config.slhDsaVerify (imageBytes rd 72 48) (imageBytes rd 0 IMG.HEADER)
      (imageBytes rd (IMG.HEADER + len) IMG.SIGNATURE) = false then 4
  else if Config.shake256 (imageBytes rd IMG.HEADER len) 48 ≠ imageBytes rd 24 48 then 5
  else if imageSvn rd < rollback then 6
  else 0

/-- Byte `a` of the boot flash; erased flash reads all ones. -/
def State.flashByte (s : State) (a : Nat) : Byte :=
  BitVec.ofNat 8 ((Tab.get (fun _ => 0xFFFFFFFF) s.sec.flash (a / 4)).toNat / 2 ^ (8 * (a % 4)))

/-- Byte `a` of the FIRMWARE region; 0 where there is none. -/
def State.fwByte (s : State) (a : Nat) : Byte :=
  match s.regionOf 1 with
  | none => 0
  | some r => s.dramByte (s.regionBase r + a)

/-- An image was refused: the code stands in the field, BOOT_FAIL sets and BOOT_FAIL_CNT counts. -/
def State.bootFail (f : Fld) (code : Nat) (s : State) : State :=
  ((s.put Pg.SEC f code).event Pg.SEC SEC.EV_BOOT_FAIL).count Pg.SEC SEC.BOOT_FAIL_CNT

/-- The control cluster starts (R418, R425): FW_STATE BOOTING. -/
def State.launch (s : State) : State :=
  let s : State := { s with sec := { s.sec with stopAt := none } }
  ((s.put Pg.LNK LNK.FW_STATE FW.BOOTING).event Pg.SEC SEC.EV_FW_STARTED).stage 0x60

/-- An image has passed every check: SVN and BODY_DIGEST are shown (R421). -/
def State.accepted (rd : Nat → Byte) (s : State) : State :=
  let s := s.put Pg.SEC SEC.FW_SVN (imageSvn rd)
  let s := forEach (List.range 12) (fun i s => s.put Pg.SEC (SEC.FW_MEAS.nth i) (imageField rd (24 + 4 * i) 4)) s
  s.stage 0x50

/-- Copies an image to the start of the FIRMWARE region. -/
def State.copyImage (rd : Nat → Byte) (s : State) : State :=
  match s.regionOf 1 with
  | none => s
  | some r => s.dramStore (s.regionBase r) (imageBytes rd 0 (IMG.HEADER + imageLength rd + IMG.SIGNATURE))

/-- The code of a QSPI slot: READ_FAIL where it cannot be read. -/
def State.slotCheck (s : State) (b : Bool) (read : Bool) : Nat :=
  if read then imageCheck (fun a => s.flashByte (a + b.toNat * 0x2000000)) s.mrm.rollback else 7

/-- Starts the image of a QSPI slot; NO_AUTO_START holds it (R425). -/
def State.startSlot (b : Bool) (s : State) : State :=
  let rd := fun a => s.flashByte (a + b.toNat * 0x2000000)
  let s := ((s.copyImage rd).accepted rd).put Pg.SEC SEC.FW_SLOT b.toNat
  if s.noAutoStart then s else s.launch

/-- BOOT_IMAGE_VERIFY (R419, R421, R422): the slot that PREF_SLOT names, then the other; recovery where both fail. -/
def State.verifyBoot (readA readB : Bool) (s : State) : State :=
  let b := s.prefB
  let field := fun (x : Bool) => if x then SEC.BOOT_ERR_B else SEC.BOOT_ERR_A
  let read := fun (x : Bool) => if x then readB else readA
  let c := s.slotCheck b (read b)
  if c = 0 then s.startSlot b
  else
    let s := s.bootFail (field b) c
    let d := s.slotCheck (!b) (read (!b))
    if d = 0 then s.startSlot (!b) else (s.bootFail (field (!b)) d).recover s.time

/-- BOOT_IMAGE_VERIFY. -/
def execBootImageVerify (t : Nat) (readA readB : Bool) (s : State) : Res :=
  finish (onlyIf (decide (s.get Pg.RST RST.BOOT_STAGE = 0x30)) (State.verifyBoot readA readB) (s.atTick t))

/-- Link firmware does not run: FW_STATE is STOPPED or HALTED. -/
def State.fwIdle (s : State) : Bool := decide (s.fwState = FW.STOPPED) || decide (s.fwState = FW.HALTED)

/-- The boot ROM checks the FIRMWARE region and starts it; a failure leaves link firmware STOPPED (R425). -/
def State.startRegion (host : Bool) (s : State) : State :=
  let c := imageCheck s.fwByte s.mrm.rollback
  if c ≠ 0 then
    let s := s.bootFail SEC.BOOT_ERR_HOST c
    if host then s else s.put Pg.LNK LNK.FW_STATE FW.STOPPED
  else
    let s := s.accepted s.fwByte
    (onlyIf host (State.put Pg.SEC SEC.FW_SLOT 2) s).launch

/-- A SEC command that the state of link firmware refuses with STATE. -/
def State.secWhen (ok : Bool) (f : State → State) (s : State) : State := if ok then f s else s.refuse Pg.SEC ErrCode.STATE 0x040

/-- SEC CMD FW_START (R425). -/
def State.fwStart (s : State) : State := s.secWhen s.fwIdle (State.startRegion false)

/-- SEC CMD BOOT_HOST (R419, R422). -/
def State.bootHost (s : State) : State := s.secWhen s.fwIdle (State.startRegion true)

/-- Automatic restarts of the last hour. -/
def State.recentRestarts (s : State) : List Nat := s.sec.restarts.filter fun x => decide (s.time < x + 3600 * 2048000)

/-- AUTO_FW_RESTART (R425): 100 ms after a stop by watchdog or fault, with fewer than RESTART_MAX restarts in the last hour. -/
def State.autoRestart (s : State) : State :=
  match s.sec.stopAt with
  | none => s
  | some a =>
    if s.time < a + msTicks 100 ∨ s.fwState ≠ FW.STOPPED ∨ s.get Pg.SEC SEC.RESTART_MAX ≤ s.recentRestarts.length then s
    else
      let s : State := { s with sec := { s.sec with restarts := s.time :: s.recentRestarts, stopAt := none } }
      ((s.event Pg.SEC SEC.EV_RESTART).count Pg.SEC SEC.RESTART_CNT).startRegion false

/-- AUTO_FW_RESTART. -/
def execAutoFwRestart (t : Nat) (s : State) : Res := finish ((s.atTick t).autoRestart)

/-- SEC CMD RECOVERY (R422), refused while link firmware runs. -/
def State.recovery (s : State) : State := s.secWhen (decide (s.fwState ≠ FW.RUNNING)) fun s => s.recover s.time

/-- SEC CMD ADVANCE (R423): the anti-rollback counter rises to FW_SVN and never decreases. -/
def State.advance (s : State) : State :=
  s.secWhen (decide (s.fwState = FW.RUNNING)) fun s =>
    let v := s.get Pg.SEC SEC.FW_SVN
    if s.mrm.rollback < v then
      let s : State := { s with mrm := { s.mrm with rollback := v } }
      s.event Pg.SEC SEC.EV_ADVANCED
    else s

/-! ## Attestation (R427) -/

/-- SEC CMD ATTEST: takes the nonce, refused while BUSY; unread words of an earlier report are discarded. -/
def State.attest (s : State) : State :=
  s.secWhen (s.sec.job.isNone) fun s =>
    let s : State := { s with sec := { s.sec with job := some (.attest s.sec.nonce), att := [] } }
    s.put Pg.SEC SEC.BUSY 1

/-- Exactly n bytes of a list, missing ones 0. -/
def fitBytes (n : Nat) (l : List Byte) : List Byte := (List.range n).map fun i => l.getD i 0

/-- The 216-byte report over a nonce. -/
def State.report (s : State) (nonce : List Word) : List Byte :=
  leBytes 8 Config.uid.toNat ++ leBytes 1 1 ++ leBytes 1 (s.get Pg.SEC SEC.DEBUG_LEVEL) ++ leBytes 1 (s.get Pg.SEC SEC.UNLOCKED)
    ++ leBytes 1 (s.get Pg.SEC SEC.FW_SLOT) ++ leBytes 4 (s.get Pg.GLB GLB.CHIP_ID) ++ fitBytes 48 Config.bootRomHash
    ++ (List.range 12).flatMap (fun i => leBytes 4 (s.get Pg.SEC (SEC.FW_MEAS.nth i)))
    ++ leBytes 4 (s.get Pg.LNK LNK.FW_VERSION) ++ leBytes 4 (s.get Pg.SEC SEC.FW_SVN) ++ leBytes 4 s.mrm.rollback
    ++ leBytes 4 (s.get Pg.RST RST.LAST_CAUSE) ++ leBytes 8 s.time
    ++ (List.range 8).flatMap (fun i => leBytes 4 (nonce.getD i 0).toNat) ++ fitBytes 48 Config.idPub

/-- The words of a byte list whose length is a multiple of 4. -/
def bytesToWords (n : Nat) (l : List Byte) : List Word :=
  (List.range n).map fun i => BitVec.ofNat 32 (leNat ((l.drop (4 * i)).take 4))

/-- ATT_DONE: the report is signed, and ATT_DATA holds report and signature. -/
def State.attDone (s : State) : State :=
  match s.sec.job with
  | some (.attest nonce) =>
    let rep := s.report nonce
    let att := bytesToWords 54 rep ++ bytesToWords 8916 (fitBytes 35664 (Config.slhDsaSign rep))
    let s : State := { s with sec := { s.sec with job := none, att := att } }
    ((s.put Pg.SEC SEC.BUSY 0).event Pg.SEC SEC.EV_ATT_DONE).count Pg.SEC SEC.ATT_CNT
  | _ => s

/-- ATT_DONE. -/
def execAttDone (t : Nat) (s : State) : Res := finish ((s.atTick t).attDone)

/-- A read of ATT_DATA: the next word, or 0 past the end. -/
def State.attRead (s : State) : State :=
  let s := s.answer (s.sec.att.headD 0)
  { s with sec := { s.sec with att := s.sec.att.drop 1 } }

/-! ## Debug lock (R432) -/

/-- Words of a debug token: scope, key, signature. -/
def tokenWords : Nat := 4069

/-- SEC CMD UNLOCK_CHALLENGE: 32 random bytes, for one UNLOCK. -/
def State.challenge (s : State) : State :=
  let s := forEach (List.range 8) (fun i s => s.withFree fun n s => s.put Pg.SEC (SEC.CHALLENGE.nth i) n) s
  { s with sec := { s.sec with fresh := true, token := [] } }

/-- A write to TOKEN. -/
def State.tokenWord (v : Word) (s : State) : State :=
  { s with sec := { s.sec with token := if s.sec.token.length < tokenWords then s.sec.token ++ [v] else s.sec.token } }

/-- SEC CMD UNLOCK: the check of the token begins, and the challenge is spent. -/
def State.unlock (s : State) : State :=
  s.secWhen s.sec.job.isNone fun s =>
    let chal := (List.range 8).map fun i => s.reg Pg.SEC (SEC.CHALLENGE.nth i).off
    let s : State := { s with sec := { s.sec with
      job := some .unlock, checking := (s.sec.token, if s.sec.fresh then some chal else none), fresh := false, token := [] } }
    s.put Pg.SEC SEC.BUSY 1

/-- Bytes of words, little-endian. -/
def wordsToBytes (l : List Word) : List Byte := l.flatMap fun w => leBytes 4 w.toNat

/-- The scope that a token grants for a challenge, 0 where it fails. -/
def tokenScope (token : List Word) (chal : List Word) : Nat :=
  let scope := (token.headD 0).toNat
  let key := wordsToBytes ((token.drop 1).take 12)
  let msg := leBytes 8 Config.uid.toNat ++ wordsToBytes chal ++ leBytes 4 scope
  if token.length = tokenWords ∧ (scope = 1 ∨ scope = 2) ∧ Config.shake256 key 48 = Config.debugKeyHash
      ∧ Config.slhDsaVerify key msg (wordsToBytes (token.drop 13)) = true then scope else 0

/-- UNLOCK_VERIFY_DONE: the scope is granted, or the token fails. -/
def State.unlockDone (s : State) : State :=
  if s.sec.job = some .unlock then
    let scope := match s.sec.checking.2 with
      | some chal => tokenScope s.sec.checking.1 chal
      | none => 0
    let s : State := { s with sec := { s.sec with job := none, checking := ([], none)
                                                  scope := if scope = 0 then s.sec.scope else scope } }
    let s := s.put Pg.SEC SEC.BUSY 0
    if scope = 0 then (s.event Pg.SEC SEC.EV_UNLOCK_FAIL).count Pg.SEC SEC.UNLOCK_FAIL_CNT
    else (s.put Pg.SEC SEC.UNLOCKED 1).event Pg.SEC SEC.EV_UNLOCK_OK
  else s

/-- UNLOCK_VERIFY_DONE. -/
def execUnlockVerifyDone (t : Nat) (s : State) : Res := finish ((s.atTick t).unlockDone)

/-- SEC CMD FUSE_LOCK: with KEY 0x4C4B the fuse is blown from BSCAN to LOCKED; it takes effect at the next reset. -/
def State.fuseLock (key : Nat) (s : State) : State :=
  if key = 0x4C4B then { s with sec := { s.sec with blown := true } } else s

/-! ## Flash (R433) -/

/-- A flash operation begins: 1 program, 2 erase; refused during BOOT_STAGE 0x30, and while one is in progress. -/
def State.flashStart (op : Nat) (s : State) : State :=
  s.secWhen (decide (s.get Pg.RST RST.BOOT_STAGE ≠ 0x30) && s.sec.flashOp.isNone) fun s =>
    { s with sec := { s.sec with flashOp := some (op, s.get Pg.SEC SEC.FLASH_ADDR) } }

/-- The flash after an operation: the 64 words of a page lose the bits that the buffer clears (an erased bit reads 1), or a
64 KiB sector is erased. -/
def flashAfter (flash : Tab Word) (buf : List Word) (op a : Nat) : Tab Word :=
  if op = 1 then
    let base := a / 256 * 64
    buf.zipIdx.foldl (fun m e => Tab.set (fun _ => 0xFFFFFFFF) m (base + e.2) (e.1 &&& Tab.get (fun _ => 0xFFFFFFFF) m (base + e.2)))
      flash
  else Tab.drop (fun k => decide (k / 16384 = a / 65536)) flash

/-- FLASH_DONE: the operation in progress has ended. -/
def State.flashDone (s : State) : State :=
  match s.sec.flashOp with
  | none => s
  | some (op, a) =>
    let s : State := { s with sec := { s.sec with
      flash := flashAfter s.sec.flash s.sec.buf op a, buf := if op = 1 then [] else s.sec.buf, flashOp := none } }
    s.event Pg.SEC SEC.EV_FLASH_DONE

/-- FLASH_DONE. -/
def execFlashDone (t : Nat) (s : State) : Res := finish ((s.atTick t).flashDone)

/-- A read of FLASH_DATA: the flash word at FLASH_ADDR. -/
def State.flashRead (s : State) : State :=
  s.answer (Tab.get (fun _ => 0xFFFFFFFF) s.sec.flash (s.get Pg.SEC SEC.FLASH_ADDR / 4))

/-- A write to FLASH_DATA: the next word of the page buffer; a full buffer takes no more. -/
def State.flashWrite (v : Word) (s : State) : State :=
  { s with sec := { s.sec with buf := if s.sec.buf.length < 64 then s.sec.buf ++ [v] else s.sec.buf } }

end Sys2Proof.Machine
end

