-- ==== Sys2Proof/Machine/Sense.lean ====
section
/-! DEFINITION. The sense front end (13_sense_front_end.md) and the decimation chain (14_decimation_and_loop_outputs.md, R314
to R325): slots, ranges, excitation, blanking, wiring checks, event detectors, the output of a sample word with its flags,
capture, the Seif route and DSYNC. -/
namespace Sys2Proof.Machine

def State.snsCh (s : State) (n : Nat) : SnsCh := Tab.get (fun _ => SnsCh.idle) s.sns.ch n
def State.setSnsCh (n : Nat) (c : SnsCh) (s : State) : State :=
  { s with sns := { s.sns with ch := Tab.set (fun _ => SnsCh.idle) s.sns.ch n c } }
def State.snsGrp (s : State) (g : Nat) : SnsGrp := Tab.get (fun _ => SnsGrp.idle) s.sns.grp g
def State.setSnsGrp (g : Nat) (x : SnsGrp) (s : State) : State :=
  { s with sns := { s.sns with grp := Tab.set (fun _ => SnsGrp.idle) s.sns.grp g x } }
def State.blankPin (s : State) (k : Nat) : BlankPin := Tab.get (fun _ => BlankPin.idle) s.sns.pins k
def State.setBlankPin (k : Nat) (p : BlankPin) (s : State) : State :=
  { s with sns := { s.sns with pins := Tab.set (fun _ => BlankPin.idle) s.sns.pins k p } }
def State.detector (s : State) (k : Nat) : Detector := Tab.get (fun _ => Detector.idle) s.sns.det k
def State.setDetector (k : Nat) (d : Detector) (s : State) : State :=
  { s with sns := { s.sns with det := Tab.set (fun _ => Detector.idle) s.sns.det k d } }
def State.loop (s : State) (n : Nat) : LoopCh := Tab.get (fun _ => LoopCh.idle) s.loops n
def State.setLoop (n : Nat) (l : LoopCh) (s : State) : State :=
  { s with loops := Tab.set (fun _ => LoopCh.idle) s.loops n l }

/-! ## Settings -/

/-- SEQ_EN of a group, and the inputs of its mask in ascending order. -/
def State.seqMask (s : State) (g : Nat) : Nat := s.get Pg.SNS (SNS.SEQ_EN.nth g)
def maskInputs (m : Nat) : List Nat := (List.range 4).filter fun i => decide (bitOf m i = 1)

/-- A group with one input in its mask is dedicated, one with more rotates. -/
def State.dedicated (s : State) (g : Nat) : Bool := decide ((maskInputs (s.seqMask g)).length = 1)
def State.rotating (s : State) (g : Nat) : Bool := decide (2 ≤ (maskInputs (s.seqMask g)).length)

/-- The modulator group domain of a group is on (R298). -/
def State.snsOn (s : State) (g : Nat) : Bool := s.domOn (142 + g / 4)

/-- SETTLE in ticks: a tick is two modulator clocks. -/
def State.settleTicks (s : State) (g : Nat) : Nat := (s.get Pg.SNS (SNS.SETTLE.nth g) + 1) / 2

/-- Output period P in ticks of a channel (R315). -/
def periodOfRate (r : Nat) : Nat := 2048 / 2 ^ r
def State.decPeriod (s : State) (n : Nat) : Nat := periodOfRate (s.get Pg.DEC (DEC.CH_RATE.nth n))

/-- Settling length in output periods (R318). -/
def settleLength (mode : Nat) : Nat := [17, 18, 9, 10, 1].getD mode 1
def State.decSettle (s : State) (n : Nat) : Nat := settleLength (s.get Pg.DEC (DEC.CH_MODE.nth n))

/-- The first instant of a grid of period p at or after a tick, and whether a tick lies on it (R315). -/
def State.gridFrom (s : State) (p t : Nat) : Nat :=
  if t ≤ s.sns.epoch then s.sns.epoch else s.sns.epoch + (t - s.sns.epoch + p - 1) / p * p
def State.onGrid (s : State) (p t : Nat) : Bool := decide (s.sns.epoch ≤ t) && decide ((t - s.sns.epoch) % p = 0)

/-- A pin acts on a group (R307). -/
def State.pinRoutes (s : State) (k g : Nat) : Bool :=
  s.flag Pg.SNS (SNS.BLANK_EN.nth k) &&
    decide (bitOf (s.get Pg.SNS (if k = 0 then SNS.BLANK0_GROUPS else SNS.BLANK1_GROUPS)) g = 1)

/-- POST_GUARD of a pin in ticks. -/
def State.postGuard (s : State) (k : Nat) : Nat := usTicks (100 * s.get Pg.SNS (SNS.POST_GUARD.nth k))

/-- The look-back delay of a group (R307). -/
def State.lookBack (s : State) (g : Nat) : Nat :=
  (List.range 2).foldl (fun m k => if s.pinRoutes k g then Nat.max m (s.preGuard k) else m) 0

/-- The delay from an output's stamp to its delivery: 12 modulator clocks and the look-back (R316). -/
def State.outLatency (s : State) (g : Nat) : Nat := 6 + s.lookBack g

/-- The range code of an input at an instant. -/
def State.rangeNow (s : State) (n : Nat) : Nat := s.get Pg.SNS (SNS.RANGE_NOW.nth n)
def State.rangeAtTick (s : State) (n t : Nat) : Nat :=
  match (s.snsCh n).ranges.find? fun r => decide (r.1 ≤ t) with
  | some r => r.2
  | none => s.rangeNow n

/-- Changes the range code at a tick: counted, remembered for the flags of the outputs, and the up-range hold restarts
(R303, R304). -/
def State.changeRange (n t code : Nat) (s : State) : State :=
  let c := s.snsCh n
  let past := if c.ranges = [] then [(0, s.rangeNow n)] else c.ranges
  let s := s.setSnsCh n { c with ranges := ((t, code) :: past).take 64, quietFrom := t }
  (s.put Pg.SNS (SNS.RANGE_NOW.nth n) code).count Pg.SNS SNS.RANGE_CHANGE_CNT

/-! ## Wire state (R309 to R312) -/

/-- The ports whose amplifier RTD is decimator channel n (R289). -/
def State.ampPorts (s : State) (n : Nat) : List Nat :=
  (List.range 16).filter fun p => s.flag Pg.OAS (OAS.AMP_RTD_EN.nth p) && decide (s.get Pg.OAS (OAS.AMP_RTD.nth p) = n)

/-- Shows an input's wire state: OPEN before SHORT, OK once decided, else UNCHECKED; and its bit of WIRE_FAULTS. -/
def State.showWire (n : Nat) (s : State) : State :=
  let c := s.snsCh n
  let st := if c.isOpen then 2 else if c.isShort then 3 else if c.decided then 1 else 0
  let all := s.get Pg.SNS SNS.WIRE_FAULTS
  let bit := 2 ^ n
  let cleared := all / (2 * bit) * (2 * bit) + all % bit
  let s := (s.put Pg.SNS (SNS.STATE.nth n) st).put Pg.SNS SNS.WIRE_FAULTS (if 2 ≤ st then cleared + bit else cleared)
  forEach (s.ampPorts n) (fun p s =>
    let silent := decide (Tab.get (fun _ => 0) s.oas.ampAt p + 2048000 ≤ s.time)
    s.put Pg.OAS (OAS.AMP_SENSOR_FAULT.nth p) (if 2 ≤ st || silent then 1 else 0)) s

/-- The input is found open: entry sets its event and counts. -/
def State.wireOpen (n : Nat) (s : State) : State :=
  let c := s.snsCh n
  let s := s.setSnsCh n { c with isOpen := true, decided := true, passes := 0 }
  let s := if c.isOpen then s else (s.event Pg.SNS SNS.EV_OPEN).count Pg.SNS SNS.OPEN_CNT
  s.showWire n

/-- The condition of SHORT is seen at tick t. -/
def State.wireShort (n t : Nat) (s : State) : State :=
  let c := s.snsCh n
  let s := s.setSnsCh n { c with isShort := true, decided := true, shortAt := t }
  let s := if c.isShort then s else (s.event Pg.SNS SNS.EV_SHORT).count Pg.SNS SNS.SHORT_CNT
  s.showWire n

/-- Sets or clears REVERSED; entry sets its event and counts (R311). -/
def State.wireReversed (n : Nat) (rev : Bool) (s : State) : State :=
  let was := s.flag Pg.SNS (SNS.REVERSED.nth n)
  let s := s.put Pg.SNS (SNS.REVERSED.nth n) (if rev then 1 else 0)
  if rev && !was then (s.event Pg.SNS SNS.EV_REVERSED).count Pg.SNS SNS.REVERSED_CNT else s

/-! ## Excitation (R305, R306) -/

/-- The excitation source that feeds an input now. -/
def State.excSource (s : State) (n : Nat) : Option Nat :=
  if s.domOn 144 = false then none
  else (List.range 4).find? fun e =>
    s.flag Pg.EXC (EXC.ON.nth e) && decide (s.get Pg.EXC (EXC.INPUT_NOW.nth e) = n)

/-- An input's following outputs are flagged for a switch at tick t. -/
def State.flagSwitch (n t : Nat) (s : State) : State :=
  let c := s.snsCh n
  s.setSnsCh n { c with excs := (t :: c.excs).take 16 }

/-- The settings of a source. -/
def State.excWord (s : State) (e : Nat) : Word := s.reg Pg.EXC (EXC.CODE.nth e).off

/-- A source takes its armed settings at an output boundary `t` of the input that it feeds (R306). -/
def State.excApply (e t : Nat) (s : State) : State :=
  let old := s.excWord e
  let was := s.get Pg.EXC (EXC.INPUT_NOW.nth e)
  let off := (EXC.CODE.nth e).off
  let s := s.safePartAt t Pg.EXC fun o => decide (o = off)
  if s.excWord e = old then s
  else
    let n := s.get Pg.EXC (EXC.INPUT.nth e)
    let n := if s.flag Pg.EXC (EXC.FOLLOW.nth e) then n / 4 * 4 + (s.snsGrp (n / 4)).cur else n
    let s := s.put Pg.EXC (EXC.INPUT_NOW.nth e) n
    let s := s.put Pg.EXC (EXC.ON.nth e) (if s.get Pg.EXC (EXC.CODE.nth e) = 0 then 0 else 1)
    let s := s.put Pg.EXC (EXC.COMPLIANCE.nth e) 0
    let s := (s.eventBit Pg.EXC EXC.EV_SWITCHED e).count Pg.EXC EXC.SWITCH_CNT
    let s := s.flagSwitch n t
    if was = n then s else s.flagSwitch was t

/-- Sources in FOLLOW mode on a group switch to its input (R300). -/
def State.excFollow (g : Nat) (s : State) : State :=
  if s.domOn 144 = false then s
  else
    let n := 4 * g + (s.snsGrp g).cur
    forEach (List.range 4) (fun e s =>
      if s.flag Pg.EXC (EXC.FOLLOW.nth e) && decide (s.get Pg.EXC (EXC.INPUT.nth e) / 4 = g) &&
          decide (s.get Pg.EXC (EXC.INPUT_NOW.nth e) ≠ n) then
        (s.put Pg.EXC (EXC.INPUT_NOW.nth e) n).count Pg.EXC EXC.SWITCH_CNT
      else s) s

/-! ## Slots (R300 to R302) -/

/-- ACTIVE of the inputs of a group: only the one whose slot runs. -/
def State.showActive (g : Nat) (s : State) : State :=
  let x := s.snsGrp g
  let live : Bool := decide (x.phase = .settling) || decide (x.phase = .running)
  forEach (List.range 4) (fun i s =>
    s.put Pg.SNS (SNS.ACTIVE.nth (4 * g + i)) (if live && decide (x.cur = i) then 1 else 0)) s

/-- The multiplexer switches to input `i` of a group at tick t and settles (steps 1 and 2 of R300). With AUTORANGE the input starts
at the code that it held at the end of its previous slot, at RANGE where it has had none (R303). -/
def State.slotBegin (g i t : Nat) (s : State) : State :=
  let n := 4 * g + i
  let s := s.setSnsGrp g ⟨i, .settling, t, s.get Pg.SNS (SNS.OUTPUTS_PER_SLOT.nth g)⟩
  let held := (s.snsCh n).held
  let s := s.setSnsCh n { s.snsCh n with start := none, lastOut := none, held := true }
  let s := if s.flag Pg.SNS (SNS.AUTORANGE.nth n) && held then s
    else s.put Pg.SNS (SNS.RANGE_NOW.nth n) (s.get Pg.SNS (SNS.RANGE.nth n))
  (s.excFollow g).showActive g

/-- A group whose mask has changed starts afresh. -/
def State.groupRestart (g t : Nat) (s : State) : State :=
  match maskInputs (s.seqMask g) with
  | [] => (s.setSnsGrp g { s.snsGrp g with phase := .stopped }).showActive g
  | [i] => s.slotBegin g i t
  | _ => (s.setSnsGrp g { s.snsGrp g with phase := .ended, cur := 3 }).showActive g

/-- The fields of a group become active at its safe point; a changed mask restarts the group. -/
def State.groupSafe (g t : Nat) (s : State) : State :=
  let old := s.seqMask g
  let s := s.safePartAt t Pg.SNS fun o => decide (o = 0x010 + 4 * g) || decide (o = 0x030 + 4 * g)
  if s.seqMask g = old then s else s.groupRestart g t

/-- The fields of an input become active at its output boundary; a changed fixed or starting range is a range change. -/
def State.inputSafe (n t : Nat) (s : State) : State :=
  let old := s.get Pg.SNS (SNS.RANGE.nth n)
  let s := s.safePartAt t Pg.SNS fun o => decide (o / 16 = 0x40 + n)
  let new := s.get Pg.SNS (SNS.RANGE.nth n)
  if (s.flag Pg.SNS (SNS.AUTORANGE.nth n) = true ∧ new = old) ∨ new = s.rangeNow n then s else s.changeRange n t new

/-- The fields of SNS that belong to no group or input: pins, checks, detectors. -/
def State.snsGlobalSafe (t : Nat) (s : State) : State := s.safePartAt t Pg.SNS fun o => decide (0x050 ≤ o) && decide (o < 0x100)

/-- The fields of a channel become active at boundary t (R319): a changed mode or rate starts it from an empty filter at the
first instant of its new grid. -/
def State.channelSafe (n t : Nat) (s : State) : State :=
  let off := (DEC.CH_MODE.nth n).off
  let old := s.reg Pg.DEC off
  let s := s.safePartAt t Pg.DEC fun o => decide (o = off)
  if DEC.CH_MODE.of (s.reg Pg.DEC off) = DEC.CH_MODE.of old ∧ DEC.CH_RATE.of (s.reg Pg.DEC off) = DEC.CH_RATE.of old then s
  else
    let c := s.snsCh n
    if c.start.isSome then s.setSnsCh n { c with start := some (s.gridFrom (s.decPeriod n) t), lastOut := none } else s

/-- The global fields of DEC become active at a boundary of any channel. -/
def State.decGlobalSafe (t : Nat) (s : State) : State := s.safePartAt t Pg.DEC fun o => decide (o < 0x100)

/-- The input is being measured. -/
def State.served (s : State) (n : Nat) : Bool :=
  let x := s.snsGrp (n / 4)
  s.snsOn (n / 4) && decide (x.cur = n % 4) && decide (x.phase = .running)

/-- SAFE_POINT of SNS, DEC and EXC: the parts that no output boundary reaches, because nothing measures them (DESIGN CHOICE, log 157:
an idle part is at its safe point at once). -/
def State.snsIdleSafe (t : Nat) (s : State) : State :=
  let s := forEach (List.range 8) (fun g s =>
    onlyIf (decide ((s.snsGrp g).phase = .stopped) || decide ((s.snsGrp g).phase = .ended)) (State.groupSafe g t) s) s
  let s := forEach (List.range 32) (fun n s => onlyIf (!s.served n) (State.inputSafe n t) s) s
  onlyIf ((List.range 32).all fun n => !s.served n) (State.snsGlobalSafe t) s

def State.decIdleSafe (t : Nat) (s : State) : State :=
  let s := forEach (List.range 32) (fun n s => onlyIf (!s.served n) (State.channelSafe n t) s) s
  onlyIf ((List.range 32).all fun n => !s.served n) (State.decGlobalSafe t) s

def State.excIdleSafe (t : Nat) (s : State) : State :=
  let s := forEach (List.range 4) (fun e s =>
    onlyIf (!s.served (s.get Pg.EXC (EXC.INPUT_NOW.nth e))) (State.excApply e t) s) s
  onlyIf ((List.range 32).all fun n => !s.served n) (State.safePartAt t Pg.EXC fun o => decide (o = EXC.AUTO_BLANK.off)) s

/-- The next input of a mask after input `i`, in ascending order. -/
def nextInput (m i : Nat) : Nat :=
  let l := maskInputs m
  (l.find? fun j => decide (i < j)).getD (l.headD 0)

/-- SENSE_SLOT_START: a rotating group whose slot has ended takes its armed fields and switches to the next input. -/
def State.slotStart (g t : Nat) (s : State) : State :=
  if s.snsOn g = false ∨ (s.snsGrp g).phase ≠ .ended then s
  else
    let s := s.groupSafe g t
    if (s.snsGrp g).phase = .ended ∧ s.rotating g = true then s.slotBegin g (nextInput (s.seqMask g) (s.snsGrp g).cur) t
    else s

/-- SENSE_SLOT_START. -/
def execSenseSlotStart (t : Nat) (group : Fin 8) (s : State) : Res := finish ((s.atTick t).slotStart group.val t)

/-- SETTLE_DONE (step 3 of R300): the channel starts from an empty filter at the next instant of its grid. -/
def State.settleEnd (g t : Nat) (s : State) : State :=
  let x := s.snsGrp g
  if s.snsOn g = false ∨ x.phase ≠ .settling ∨ t < x.slotAt + s.settleTicks g then s
  else
    let n := 4 * g + x.cur
    let s := s.setSnsGrp g { x with phase := .running }
    s.setSnsCh n { s.snsCh n with start := some (s.gridFrom (s.decPeriod n) t), lastOut := none }

/-- SETTLE_DONE. -/
def execSettleDone (t : Nat) (group : Fin 8) (s : State) : Res := finish ((s.atTick t).settleEnd group.val t)

/-- A modulator input, in units of 1/2^20 of full scale at the current range, lies beyond the detection level of 105 % (R299). -/
def beyondScale (v : BitVec 22) : Bool := decide (105 * 2 ^ 20 < 100 * v.toInt.natAbs)

/-- RANGE_OVERLOAD (R303): with AUTORANGE the code falls by one, never below RANGE_MIN; there, and with a fixed range, the
overloaded outputs carry OVERRANGE. -/
def State.rangeOverload (n t : Nat) (s : State) : State :=
  let x := s.snsGrp (n / 4)
  let busy : Bool := decide (x.phase = .settling) || decide (x.phase = .running)
  if s.snsOn (n / 4) = false ∨ busy = false ∨ x.cur ≠ n % 4 then s
  else if s.flag Pg.SNS (SNS.AUTORANGE.nth n) ∧ s.get Pg.SNS (SNS.RANGE_MIN.nth n) < s.rangeNow n then
    s.changeRange n t (s.rangeNow n - 1)
  else
    let c := s.snsCh n
    s.setSnsCh n { c with overs := (t :: c.overs).take 64, quietFrom := t }

/-- RANGE_OVERLOAD: the modulator inputs of two successive clocks; both beyond the detection level are an overload (R303). -/
def execRangeOverload (t : Nat) (input : Fin 32) (first second : BitVec 22) (s : State) : Res :=
  finish (onlyIf (beyondScale first && beyondScale second) (State.rangeOverload input.val t) (s.atTick t))

/-- COMPLIANCE_LOSS (R305): the output voltage that a source would need for its current exceeds VSNS − 0.5 V, both in mV; its input
reports OPEN at once. -/
def execComplianceLoss (t : Nat) (source : Fin 4) (need vsns : BitVec 16) (s : State) : Res :=
  let e := source.val
  finish (onlyIf (s.domOn 144 && s.flag Pg.EXC (EXC.ON.nth e) && decide (vsns.toNat < need.toNat + 500))
    (fun s =>
      let s := ((s.put Pg.EXC (EXC.COMPLIANCE.nth e) 1).eventBit Pg.EXC EXC.EV_COMPLIANCE e).count Pg.EXC EXC.COMPLIANCE_CNT
      let n := s.get Pg.EXC (EXC.INPUT_NOW.nth e)
      onlyIf (s.snsOn (n / 4)) (fun s => (s.wireOpen n).event Pg.SNS SNS.EV_COMPLIANCE_SEEN) s) (s.atTick t))

/-! ## Open checks (R309) -/

/-- An input serves the active MTB set as a timebase source (R67): its source number. -/
def State.timebaseSource (s : State) (n : Nat) : Option Nat :=
  if s.get Pg.MTB MTB.MODE ≠ 1 then none
  else (List.range 3).find? fun i =>
    decide (bitOf (s.get Pg.MTB MTB.SRC_EN) i = 1) &&
      decide ([s.get Pg.MTB MTB.SENSE_SEL0, s.get Pg.MTB MTB.SENSE_SEL1, s.get Pg.MTB MTB.SENSE_SEL2].getD i 32 = n)

/-- A check starts on an input: the check current is applied and the range forced to code 0. -/
def State.checkBegin (n t : Nat) (s : State) : State :=
  let g := n / 4
  let c := s.snsCh n
  let s := s.setSnsCh n { c with checking := some t, checkDue := false, checkRange := s.rangeNow n, start := none, lastCheck := t }
  ((s.put Pg.SNS (SNS.RANGE_NOW.nth n) 0).setSnsGrp g { s.snsGrp g with phase := .check, slotAt := t }).showActive g

/-- A check that is due starts where the input is measured alone; for a timebase source 1 ms after its crossing. In a
rotating group it waits for the end of the input's own slot. -/
def State.checkTry (n t : Nat) (s : State) : State :=
  let g := n / 4
  let x := s.snsGrp g
  let moment : Bool := match s.timebaseSource n with
    | some i => decide ((Tab.get (fun _ => MtbSrc.idle) s.mtb.src i).last = some (t - msTicks 1))
    | none => true
  let free : Bool := decide (x.phase = .running) || decide (x.phase = .settling)
  if s.dedicated g && decide (x.cur = n % 4) && moment && free then s.checkBegin n t else s

/-- OPEN_CHECK_DUE: CHECK_MS after the last check of an input with OPEN_CHECK, or for a check that waits. -/
def State.openCheckDue (n t : Nat) (s : State) : State :=
  let c := s.snsCh n
  let ms := s.get Pg.SNS SNS.CHECK_MS
  let due : Bool := c.checkDue || (s.flag Pg.SNS (SNS.OPEN_CHECK.nth n) && decide (ms ≠ 0) &&
    decide (msTicks ms ≤ t - c.lastCheck))
  if s.snsOn (n / 4) && due && c.checking.isNone then (s.setSnsCh n { c with checkDue := true }).checkTry n t else s

/-- OPEN_CHECK_DUE. -/
def execOpenCheckDue (t : Nat) (input : Fin 32) (s : State) : Res := finish ((s.atTick t).openCheckDue input.val t)

/-- SNS_CHECK_NOW: the named inputs are checked now. -/
def State.openCheckNow (mask : Nat) (s : State) : State :=
  forEach ((List.range 32).filter fun n => decide (bitOf mask n = 1)) (fun n s =>
    let c := s.snsCh n
    if s.snsOn (n / 4) && c.checking.isNone then
      (s.setSnsCh n { c with checkDue := true, checkNow := true }).checkTry n s.time
    else s) s

/-- When the check that started at tick `t0` has its output: SETTLE, then one settled output (R309). -/
def State.checkReady (s : State) (n t0 : Nat) : Nat :=
  s.gridFrom (s.decPeriod n) (t0 + s.settleTicks (n / 4)) + s.decSettle n * s.decPeriod n

/-- OPEN_CHECK_DONE: the check output in mV is judged against +1.1 V; OPEN clears after 3 passing checks, or on a passing
CHECK_NOW (R312). Delivery starts again behind SETTLE, in a rotating group with the next slot. -/
def State.openCheckDone (n t : Nat) (mv : BitVec 16) (s : State) : State :=
  let c := s.snsCh n
  let g := n / 4
  match c.checking with
  | none => s
  | some t0 =>
    if s.snsOn g = false ∨ t < s.checkReady n t0 then s
    else
      let pass := decide (mv.toInt ≤ 1100)
      let s := (s.put Pg.SNS (SNS.CHECK_MV.nth n) mv.toNat).count Pg.SNS SNS.CHECK_CNT
      let s := s.put Pg.SNS (SNS.RANGE_NOW.nth n) c.checkRange
      let passes := if pass then c.passes + 1 else 0
      let stays : Bool := c.isOpen && !(decide (3 ≤ passes) || c.checkNow)
      let s := s.setSnsCh n { c with checking := none, checkNow := false, decided := true, passes := passes
                                     isOpen := if pass then stays else c.isOpen }
      let s := if pass then s.showWire n else s.wireOpen n
      if s.rotating g then (s.setSnsGrp g { s.snsGrp g with phase := .ended }).showActive g
      else (s.setSnsGrp g { s.snsGrp g with phase := .settling, slotAt := t }).showActive g

/-- OPEN_CHECK_DONE. -/
def execOpenCheckDone (t : Nat) (input : Fin 32) (mv : BitVec 16) (s : State) : Res :=
  finish ((s.atTick t).openCheckDone input.val t mv)

/-- A leg of an input, in mV, lies outside the common-mode range of 0.3 to 3.0 V (R299). -/
def legOut (mv : BitVec 16) : Bool := decide (mv.toInt < 300) || decide (3000 < mv.toInt)

/-- COMMON_MODE_SHORT (R310): a leg of the input, at `pMv` or `nMv`, has been outside the common-mode range since tick `since`, for
at least 10 ms. -/
def execCommonModeShort (t : Nat) (input : Fin 32) (since : Nat) (pMv nMv : BitVec 16) (s : State) : Res :=
  finish (onlyIf (s.snsOn (input.val / 4) && (legOut pMv || legOut nMv) && decide (msTicks 10 ≤ t - since))
    (State.wireShort input.val t) (s.atTick t))

/-- SHORT_CLEAR (R312): 1 s without the condition. -/
def execShortClear (t : Nat) (input : Fin 32) (s : State) : Res :=
  let n := input.val
  finish (onlyIf (s.snsOn (n / 4) && (s.snsCh n).isShort && decide (msTicks 1000 ≤ t - (s.snsCh n).shortAt))
    (fun s => (s.setSnsCh n { s.snsCh n with isShort := false }).showWire n) (s.atTick t))

/-- REVERSE_CHECK_DONE (R311): over 4 mains cycles, the phase of a CURRENT input's fundamental against the voltage on
REF_INPUT in 1/65,536 turn, and its amplitude in 1/10,000 of full scale. -/
def execReverseCheckDone (t : Nat) (input : Fin 32) (angle : BitVec 16) (amplitude : Nat) (s : State) : Res :=
  let n := input.val
  let tb := s.get Pg.MTB MTB.STATE
  let judged : Bool := s.snsOn (n / 4) && s.flag Pg.SNS (SNS.REV_CHECK.nth n) &&
    decide (s.get Pg.SNS (SNS.KIND.nth n) = 2) && (decide (tb = 2) || decide (tb = 3))
  let opposite := decide (0x8000 - 0x2000 ≤ angle.toNat) && decide (angle.toNat ≤ 0x8000 + 0x2000)
  finish (onlyIf judged (State.wireReversed n (opposite && decide (100 < amplitude))) (s.atTick t))

/-! ## Blanking (R307, R308) -/

/-- A pin's window opens for the outputs, and for Erg on its ports (R143): a pre-guard longer than 4 symbol periods of an
affected engine is cut there and reported. -/
def State.blankOpen (k t : Nat) (s : State) : State :=
  let pre := s.preGuard k
  let s : State := { s with
    sns := { s.sns with wins := (⟨k, t - pre, none⟩ :: s.sns.wins).take 16 }
    erg := { s.erg with blank := s.erg.blank.filter (fun b => match b.stop with
      | some e => markKeep e t
      | none => decide (b.pin ≠ k)) ++ [⟨k, t, t - pre, none⟩] } }
  let s := s.put Pg.SNS SNS.BLANK_ACTIVE (s.get Pg.SNS SNS.BLANK_ACTIVE ||| 2 ^ k)
  let ports := s.get Pg.ERGX (if k = 0 then ERGX.BLANK0_PORTS else ERGX.BLANK1_PORTS)
  let cut := (List.range 256).any fun c =>
    s.isLive c && decide (s.eget c (if k = 0 then ERG.BLANK0 else ERG.BLANK1) = 1) &&
      decide (bitOf ports (s.eget c ERG.PORT) = 1) && decide (4 * symTicks (s.eget c ERG.RATE) < pre)
  onlyIf cut (fun s => (s.event Pg.ERGX ERGX.EV_BLANK_TRUNC).count Pg.ERGX ERGX.BLANK_TRUNC_CNT) s

/-- The pin is ignored, and has not been inactive for one full POST_GUARD (R308). -/
def State.pinIgnored (s : State) (k t : Nat) : Bool :=
  let p := s.blankPin k
  p.ignored && (match p.released with | some r => decide (t < r + s.postGuard k) | none => true)

/-- The level of pin k has stood since tick `since` for the 2 µs of the glitch filter at tick t (R299, R307). -/
def pinSettled (since t : Nat) : Bool := decide (usTicks 2 ≤ t - since)

/-- A level of pin k is its active one: POL 0 is active high (R307). -/
def State.pinActive (s : State) (k : Nat) (level : Bool) : Bool := level != s.flag Pg.SNS (SNS.POL.nth k)

/-- An activating edge of pin k at tick `t`. -/
def State.blankActivate (k t : Nat) (s : State) : State :=
  if s.domOn 142 = false ∨ s.flag Pg.SNS (SNS.BLANK_EN.nth k) = false ∨ (s.blankPin k).active = true then s
  else if s.pinIgnored k t then s.setBlankPin k { s.blankPin k with active := true, released := none }
  else
    let p := s.blankPin k
    let s := s.put Pg.SNS SNS.BLANK_IGNORED (s.get Pg.SNS SNS.BLANK_IGNORED &&& (3 ^^^ 2 ^ k))
    let s := (s.eventBit Pg.SNS SNS.EV_BLANK_EDGE k).trigger (8 + k) t
    match p.opened with
    | some _ => s.setBlankPin k { p with active := true, released := none, ignored := false }
    | none => (s.setBlankPin k ⟨true, some t, none, false⟩).blankOpen k t

/-- BLANK_ACTIVATE: the pin has shown `level` since its edge at `since`; recognised behind the glitch filter, where it is the active
level of POL. -/
def execBlankActivate (t : Nat) (pin : Fin 2) (since : Nat) (level : Bool) (s : State) : Res :=
  finish (onlyIf (s.pinActive pin.val level && pinSettled since t) (State.blankActivate pin.val since) (s.atTick t))

/-- BLANK_RELEASE: the pin has shown its inactive level since `since`, behind the glitch filter; the post-guard starts at that
edge. -/
def execBlankRelease (t : Nat) (pin : Fin 2) (since : Nat) (level : Bool) (s : State) : Res :=
  let k := pin.val
  finish (onlyIf (s.domOn 142 && (s.blankPin k).active && !s.pinActive k level && pinSettled since t)
    (fun s => s.setBlankPin k { s.blankPin k with active := false, released := some since }) (s.atTick t))

/-- A window ends at tick `e`: its outputs are judged by that end, PAUSE groups settle again and then start from an empty
filter, its side-log record is written and Erg's window closes. -/
def State.blankClose (k e : Nat) (s : State) : State :=
  let start := match s.sns.wins.find? fun w => decide (w.pin = k) && w.stop.isNone with
    | some w => w.start
    | none => e
  let pause := decide (s.get Pg.SNS (SNS.MODE.nth k) = 0)
  let s : State := { s with
    sns := { s.sns with wins := s.sns.wins.map fun w => if w.pin = k ∧ w.stop = none then { w with stop := some e } else w }
    erg := { s.erg with blank := s.erg.blank.map fun b => if b.pin = k ∧ b.stop = none then { b with stop := some e } else b } }
  let s := s.put Pg.SNS SNS.BLANK_ACTIVE (s.get Pg.SNS SNS.BLANK_ACTIVE &&& (3 ^^^ 2 ^ k))
  let s := s.setBlankPin k { s.blankPin k with opened := none }
  let s := if pause then
      forEach ((List.range 8).filter fun g => s.pinRoutes k g) (fun g s =>
        let x := s.snsGrp g
        if x.phase = .running ∨ x.phase = .settling then
          let n := 4 * g + x.cur
          (s.setSnsGrp g { x with phase := .settling, slotAt := e }).setSnsCh n { s.snsCh n with start := none, lastOut := none }
        else s) s
    else s
  s.sideLog start SideKind.BLANK 0 k (e - start)

/-- BLANK_WINDOW_END: POST_GUARD after the releasing edge; an ignored pin that has been inactive that long counts again. -/
def State.blankEnd (k t : Nat) (s : State) : State :=
  let p := s.blankPin k
  match p.active, p.released with
  | false, some r =>
    if s.domOn 142 = false ∨ t < r + s.postGuard k then s
    else if p.ignored then
      (s.setBlankPin k { p with ignored := false }).put Pg.SNS SNS.BLANK_IGNORED
        (s.get Pg.SNS SNS.BLANK_IGNORED &&& (3 ^^^ 2 ^ k))
    else if p.opened.isSome then s.blankClose k (r + s.postGuard k)
    else s
  | _, _ => s

/-- BLANK_WINDOW_END. -/
def execBlankWindowEnd (t : Nat) (pin : Fin 2) (s : State) : Res := finish ((s.atTick t).blankEnd pin.val t)

/-- BLANK_STUCK: a window open for BLANK_MAX_MS is ended and its pin ignored. -/
def State.blankStuck (k t : Nat) (s : State) : State :=
  match (s.blankPin k).opened with
  | none => s
  | some t0 =>
    if s.domOn 142 = false ∨ t - t0 < msTicks (s.get Pg.SNS SNS.BLANK_MAX_MS) then s
    else
      let s := s.blankClose k t
      let s := s.setBlankPin k { s.blankPin k with ignored := true }
      let s := s.put Pg.SNS SNS.BLANK_IGNORED (s.get Pg.SNS SNS.BLANK_IGNORED ||| 2 ^ k)
      (s.eventBit Pg.SNS SNS.EV_BLANK_STUCK k).count Pg.SNS SNS.BLANK_STUCK_CNT

/-- BLANK_STUCK. -/
def execBlankStuck (t : Nat) (pin : Fin 2) (s : State) : Res := finish ((s.atTick t).blankStuck pin.val t)

/-! ## Event detectors (R313) -/

/-- RMS in µV of `n` outputs whose values, taken to range code 7, have squares that add to `sum`. -/
def rmsUv (sum n : Nat) : Nat := natSqrt (sum * 1440000000000 / (Nat.max 1 n * 2 ^ 54))

/-- A detector's window ends at tick t. -/
def State.detectorEnd (k t : Nat) (s : State) : State :=
  let kind := s.get Pg.SNS (SNS.DET_KIND.nth k)
  let n := s.get Pg.SNS (SNS.SRC.nth k)
  let d := s.detector k
  let late : Bool := match (s.snsCh n).lastOut with
    | some o => decide (s.decPeriod n ≤ t - s.outLatency (n / 4) - o)
    | none => true
  if kind = 0 then s.setDetector k Detector.idle
  else if d.bad || late || decide (d.n = 0) then s.setDetector k { Detector.idle with silentTo := d.silentTo }
  else
    let rms := rmsUv d.sum d.n
    let th := s.get Pg.SNS (SNS.THRESH_UV.nth k)
    let meets : Bool := match kind, d.prev with
      | 1, _ => decide (th < rms)
      | 2, _ => decide (rms < th)
      | 3, some p => decide (th < ((rms : Int) - (p : Int)).natAbs)
      | _, _ => false
    let fires := meets && decide (d.silentTo ≤ t)
    let quiet := if fires then t + msTicks (s.get Pg.SNS (SNS.HOLDOFF_MS.nth k)) else d.silentTo
    let s := s.setDetector k { Detector.idle with prev := some rms, silentTo := quiet }
    if fires then
      let s := (s.eventBit Pg.SNS SNS.EV_GRID_EVENT k).count Pg.SNS SNS.GRID_EVENT_CNT
      let s := ((s.put Pg.SNS SNS.EVT_TIME_LO t).put Pg.SNS SNS.EVT_TIME_HI (t / 2 ^ 32)).put Pg.SNS SNS.EVT_LAST k
      s.trigger k t
    else s

/-- The number of the detectors' window at tick t: the half-cycle, or, while the timebase is OFF or in ACQUIRE, the 10 ms (R313). -/
def State.windowAt (s : State) (t : Nat) : Nat :=
  if s.tb = TB.OFF ∨ s.tb = TB.ACQUIRE then t / msTicks 10 else s.countsAt t / 32768

/-- DETECTOR_WINDOW_END: at the first tick of a new window the detectors judge the one that has ended. -/
def State.windowEnd (t : Nat) (s : State) : State :=
  let w := s.windowAt t
  if s.domOn 142 = false ∨ w = s.sns.detWin then s
  else forEach (List.range 8) (fun k s => s.detectorEnd k t) { s with sns := { s.sns with detWin := w } }

/-- DETECTOR_WINDOW_END. -/
def execDetectorWindowEnd (t : Nat) (s : State) : Res := finish ((s.atTick t).windowEnd t)

/-! ## The sample word (R322) -/

def WordBit.UNSETTLED : Nat := 0
def WordBit.EXC_CHANGE : Nat := 1
def WordBit.RANGE_CHANGE : Nat := 2
def WordBit.OVERRANGE : Nat := 3
def WordBit.BLANKED : Nat := 4
def WordBit.WIRE_FAULT : Nat := 5
def WordBit.LOSS : Nat := 6

/-- A sample word of VALUE, RANGE and its flags, the lowest flag first. -/
def sampleWord (value : BitVec 22) (range : Nat) (flags : List Bool) : Word :=
  BitVec.ofNat 32 (value.toNat * 1024 + range * 128 + (flags.zipIdx).foldl (fun a f => if f.1 then a + 2 ^ f.2 else a) 0)

/-- A word with LOSS set or clear. -/
def withLoss (w : Word) (loss : Bool) : Word := BitVec.ofNat 32 (w.toNat / 128 * 128 + w.toNat % 64 + if loss then 64 else 0)

/-! ## Capture (R325) -/

/-- Entries that the DEC_CAPTURE region holds. -/
def State.capCapacity (s : State) : Nat :=
  match s.regionOf 11 with
  | some r => s.regionData r / 8
  | none => 0

/-- Shows CAP_FILL. -/
def State.showCap (s : State) : State := s.put Pg.DEC DEC.CAP_FILL (sat 24 ((s.sns.cap.length + 1) / 2))

/-- CAPTURE_WRITE: an output enters capture, behind a time entry where stamp bits 55:24 changed; a full region drops it. -/
def State.capture (n stamp : Nat) (w : Word) (s : State) : State :=
  if s.flag Pg.DEC DEC.CAP_EN = false ∨ bitOf (s.get Pg.DEC DEC.CAP_MASK) n = 0 then s
  else
    let c := s.snsCh n
    let hi := stamp / 2 ^ 24 % 2 ^ 32
    let low := BitVec.ofNat 32 (stamp % 2 ^ 24 * 256)
    let mark : List Word := if s.sns.capHi = some hi then [] else [low + 0x80, BitVec.ofNat 32 hi]
    let entry : List Word := [low + BitVec.ofNat 32 n, withLoss w (c.lossX || c.lossC)]
    if s.capCapacity < (s.sns.cap.length + 1) / 2 + mark.length / 2 + 1 then
      ((s.setSnsCh n { c with lossC := true }).event Pg.DEC DEC.EV_CAP_LOSS).count Pg.DEC DEC.CAP_LOSS_CNT
    else
      let s := s.setSnsCh n { c with lossC := false }
      let s : State := { s with sns := { s.sns with cap := s.sns.cap ++ mark ++ entry, capHi := some hi } }
      s.showCap

/-- CAP_DATA_READ: the next capture word, 0 when capture is empty. -/
def State.capRead (s : State) : State :=
  match s.sns.cap with
  | [] => s.answer 0
  | w :: rest =>
    let s : State := { s with sns := { s.sns with cap := rest } }
    s.showCap.answer w

/-- CAP_FLUSH empties capture; the next entry is again a first entry. -/
def State.capFlush (s : State) : State :=
  let s : State := { s with sns := { s.sns with cap := [], capHi := none } }
  s.showCap

/-- The Seif route (R325, R333). -/
def State.seifRoute (n stamp : Nat) (w : Word) (s : State) : State :=
  if bitOf (s.get Pg.DEC DEC.SEIF_MASK) n = 0 then s
  else
    let c := s.snsCh n
    let (s, ok) := s.dinPush (s.get Pg.DEC DEC.SEIF_CORE) (BitVec.ofNat 32 (stamp % 2 ^ 24 * 256 + n))
      (withLoss w (c.lossX || c.lossS))
    let s := s.setSnsCh n { s.snsCh n with lossS := !ok }
    if ok then s else (s.event Pg.DEC DEC.EV_SEIF_LOSS).count Pg.DEC DEC.SEIF_LOSS_CNT

/-! ## Consumers of an output -/

/-- VALUE as it would stand at range code 7. -/
def atRange7 (value : Int) (range : Nat) : Int := value * (2 ^ (7 - range) : Nat)

/-- Resistance tests and temperatures use an output's voltage over the source's current: VALUE × 1,200,000 against
0.1 Ω units × CODE × 2^(20 + RANGE) (R310, R311). -/
def State.resistanceTests (n : Nat) (stamp : Nat) (value : Int) (range : Nat) (s : State) : State :=
  let kind := s.get Pg.SNS (SNS.KIND.nth n)
  let lim := s.get Pg.SNS (SNS.SHORT_LIMIT.nth n)
  match s.excSource n with
  | none => s
  | some e =>
    if lim = 0 ∨ (kind ≠ 3 ∧ kind ≠ 4) then s
    else
      let scale : Int := (lim * s.get Pg.EXC (EXC.CODE.nth e) * 2 ^ (20 + range) : Nat)
      let v := value * 1200000
      let s := if v < scale then s.wireShort n stamp
        else (s.setSnsCh n { s.snsCh n with decided := true }).showWire n
      onlyIf (s.flag Pg.SNS (SNS.REV_CHECK.nth n)) (State.wireReversed n (decide (v < -scale))) s

/-- Oasis takes the amplifier temperature of the ports whose RTD the channel is (R289). An open or shorted input makes no port
hot: its port runs at f = 0.5. -/
def State.ampTake (n t : Nat) (value : Int) (range : Nat) (s : State) : State :=
  match s.excSource n with
  | none => s
  | some e =>
    let den := s.get Pg.EXC (EXC.CODE.nth e) * 2 ^ (20 + range)
    let temp := Config.rtdCelsius (value * 120000000 / (Nat.max 1 den : Nat))
    let fault := if 2 ≤ s.get Pg.SNS (SNS.STATE.nth n) then 1 else 0
    forEach (s.ampPorts n) (fun p s =>
      let hot := decide (fault = 0) && decide ((s.get Pg.OAS (OAS.AMP_T_MAX.nth p) : Int) ≤ temp)
      let was := s.flag Pg.OAS (OAS.AMP_HOT.nth p)
      let s := (s.put Pg.OAS (OAS.AMP_T.nth p) (satSigned 8 temp)).put Pg.OAS (OAS.AMP_SENSOR_FAULT.nth p) fault
      let s := s.put Pg.OAS (OAS.AMP_HOT.nth p) (if hot then 1 else 0)
      let s : State := { s with oas := { s.oas with ampAt := Tab.set (fun _ => 0) s.oas.ampAt p t } }
      onlyIf (hot && !was) (State.event Pg.OAS OAS.EV_AMP_HOT) s) s

/-- Loops whose source the channel is gather the output (R327, R328). -/
def State.loopTake (n : Nat) (usable flagged : Bool) (v7 : Int) (s : State) : State :=
  forEach (List.range 2) (fun i s =>
    if s.domOn (145 + i) && decide (s.get Pg.LOOP (LOOP.SRC.nth i) = 1) &&
        decide (s.get Pg.LOOP (LOOP.DEC_CH.nth i) = n) then
      let l := s.loop i
      s.setLoop i { l with flagged := flagged, sum := if usable then l.sum + v7 else l.sum, n := if usable then l.n + 1 else l.n }
    else s) s

/-- Detectors that watch the channel gather the output, or mark their window (R313). -/
def State.detectorTake (n : Nat) (ok : Bool) (v7 : Int) (s : State) : State :=
  forEach (List.range 8) (fun k s =>
    if s.get Pg.SNS (SNS.DET_KIND.nth k) ≠ 0 ∧ s.get Pg.SNS (SNS.SRC.nth k) = n then
      let d := s.detector k
      s.setDetector k (if ok then { d with sum := d.sum + (v7 * v7).toNat, n := d.n + 1 } else { d with bad := true })
    else s) s

/-- Group delay of a channel in quarter ticks, from R317's figures in modulator clocks of half a tick: D clocks make an output
period. -/
def State.groupDelay (s : State) (n : Nat) : Nat :=
  let d := 2 * s.decPeriod n
  match s.get Pg.DEC (DEC.CH_MODE.nth n) with
  | 0 => 66 * d - 3
  | 1 => 68 * d - 5
  | 2 => 11 * d - 3
  | 3 => 13 * d - 5
  | _ => 4 * d - 4

/-- A delivered output reaches its consumers and both further paths (R316, R325). -/
def State.deliverOutput (n t stamp : Nat) (value : BitVec 22) (range : Nat) (w : Word) (s : State) : State :=
  let bit (i : Nat) : Bool := decide (w.toNat / 2 ^ i % 2 = 1)
  let settled := !bit WordBit.UNSETTLED && !bit WordBit.EXC_CHANGE
  let usable := settled && !bit WordBit.BLANKED
  let v7 := atRange7 value.toInt range
  let c := s.snsCh n
  let s := s.tbFeed n stamp (s.decPeriod n) (s.groupDelay n) v7 usable
  let s := s.put Pg.DEC (DEC.LAST.nth n) (withLoss w c.lossX).toNat
  let s := onlyIf (bit WordBit.OVERRANGE) (State.count Pg.SNS SNS.OVERRANGE_CNT) s
  let s := (s.capture n stamp w).seifRoute n stamp w
  let s := s.setSnsCh n { s.snsCh n with lossX := false }
  let s := onlyIf settled (State.resistanceTests n stamp value.toInt range) s
  let s := onlyIf usable (State.ampTake n t value.toInt range) s
  let s := s.loopTake n usable (bit WordBit.WIRE_FAULT || bit WordBit.OVERRANGE) v7
  s.detectorTake n (!bit WordBit.BLANKED && !bit WordBit.WIRE_FAULT) v7

/-- The range rises by one at an output boundary once every sample of UP_HOLD_MS has stayed within 40 % of the higher code's
full scale, 20 % of the present one's; `peak` is the largest magnitude since the last boundary, in 1/2^20 of the present full scale
(R304). -/
def State.rangeUp (n stamp : Nat) (peak : BitVec 22) (s : State) : State :=
  let c := s.snsCh n
  if 2 ^ 20 < 5 * peak.toNat then s.setSnsCh n { c with quietFrom := stamp }
  else if s.flag Pg.SNS (SNS.AUTORANGE.nth n) ∧ s.rangeNow n < s.get Pg.SNS (SNS.RANGE_MAX.nth n) ∧
      msTicks (s.get Pg.SNS (SNS.UP_HOLD_MS.nth n)) ≤ stamp - c.quietFrom then
    s.changeRange n stamp (s.rangeNow n + 1)
  else s

/-- A window overlaps a span (lo, stamp] for a group, in the given MODE. -/
def State.windowOver (s : State) (g mode lo stamp : Nat) : Bool :=
  s.sns.wins.any fun w =>
    s.pinRoutes w.pin g && decide (s.get Pg.SNS (SNS.MODE.nth w.pin) = mode) && decide (w.start < stamp) &&
      (match w.stop with | some e => decide (lo < e) | none => true)

/-- What happens at the output boundary `stamp` of a channel beside the output itself: armed fields become active, the range
may rise, and a rotating group's slot counts its settled outputs. -/
def State.boundary (n t stamp : Nat) (peak : BitVec 22) (counts : Bool) (s : State) : State :=
  let g := n / 4
  let s := s.rangeUp n stamp peak
  let s := (s.inputSafe n stamp).snsGlobalSafe stamp
  let s := onlyIf (s.dedicated g) (State.groupSafe g stamp) s
  let s := (s.channelSafe n stamp).decGlobalSafe stamp
  let s := onlyIf (s.domOn 144) (fun s =>
    let s := forEach (List.range 4) (fun e s =>
      onlyIf (decide (s.get Pg.EXC (EXC.INPUT_NOW.nth e) = n)) (State.excApply e stamp) s) s
    s.safePartAt stamp Pg.EXC fun o => decide (o = EXC.AUTO_BLANK.off)) s
  let x := s.snsGrp g
  if s.rotating g && counts && decide (x.phase = .running) && decide (x.cur = n % 4) then
    if x.left ≤ 1 then
      let s := s.setSnsCh n { s.snsCh n with start := none, lastOut := none }
      let s := (s.setSnsGrp g { x with phase := .ended, left := 0 }).showActive g
      onlyIf (s.snsCh n).checkDue (State.checkBegin n t) s
    else s.setSnsGrp g { x with left := x.left - 1 }
  else s

/-- DECIMATOR_OUTPUT (R315 to R325): the output of channel n that becomes readable at tick t; its stamp lies the latency of
R316 earlier. VALUE, the largest magnitude of the modulator samples since the last boundary, and the output voltage of the
excitation source feeding the input are what the device measures; `lost` tells that the crossing of R18 dropped it. -/
def State.output (t n : Nat) (value peak : BitVec 22) (volts : BitVec 16) (lost : Bool) (s : State) : State :=
  let g := n / 4
  let lat := s.outLatency g
  let stamp := t - lat
  let c := s.snsCh n
  let p := s.decPeriod n
  match c.start with
  | none => s
  | some t0 =>
    if !s.served n || decide (t < lat) || !s.onGrid p stamp || decide (stamp < t0 + p) ||
        (match c.lastOut with | some o => decide (stamp ≤ o) | none => false) then s
    else
      let span := s.decSettle n * p
      let settled := decide (t0 + span ≤ stamp)
      let lo := Nat.max t0 (stamp - span)
      let gap : Bool := match c.lastOut with | some o => decide (stamp ≠ o + p) | none => false
      let excChange := c.excs.any fun e => decide (lo < e) && decide (e < stamp)
      let excSettle := c.excs.any fun e => decide (e < stamp) && decide (stamp < e + span)
      let range := s.rangeAtTick n stamp
      let w := sampleWord value range
        [!settled || excSettle, excChange, c.ranges.any (fun r => decide (lo < r.1) && decide (r.1 ≤ stamp) && decide (r.1 ≠ 0)),
         c.overs.any (fun o => decide (lo < o) && decide (o ≤ stamp)), s.windowOver g 1 lo stamp,
         decide (2 ≤ s.get Pg.SNS (SNS.STATE.nth n)), false]
      let s := s.setSnsCh n { c with lastOut := some stamp }
      let s := match s.excSource n with | some e => s.put Pg.EXC (EXC.V_OUT_MV.nth e) volts.toNat | none => s
      let s := onlyIf gap (State.detectorTake n false 0) s
      let paused := s.windowOver g 0 lo stamp
      let blanked := s.domOn 144 && s.flag Pg.EXC EXC.AUTO_BLANK && (excChange || excSettle)
      let s :=
        if settled = false ∧ s.flag Pg.DEC DEC.EMIT_SETTLING = false then s
        else if paused then (s.count Pg.SNS SNS.BLANKED_CNT).detectorTake n false 0
        else if blanked then (s.count Pg.EXC EXC.EXC_BLANK_CNT).detectorTake n false 0
        else if lost then
          ((s.setSnsCh n { s.snsCh n with lossX := true }).count Pg.DEC DEC.QLOSS_CNT).detectorTake n false 0
        else s.deliverOutput n t stamp value range w
      s.boundary n t stamp peak (settled && !paused)

/-- DECIMATOR_OUTPUT. -/
def execDecimatorOutput (t : Nat) (ch : Fin 32) (value peak : BitVec 22) (volts : BitVec 16) (lost : Bool)
    (s : State) : Res := finish ((s.atTick t).output t ch.val value peak volts lost)

/-! ## DSYNC (R320, R321) -/

/-- The device is a slave of a Caravan ring. -/
def State.cavSlave (s : State) : Bool := s.enabled Pg.CAV && !s.flag Pg.CAV CAV.ROLE

/-- DSYNC_RESET: at T_R every channel takes the new epoch and starts from an empty filter; an armed DEC set applies, and a
rotating group restarts the count of its slot without settling again. -/
def State.dsyncReset (tr : Nat) (s : State) : State :=
  let s : State := { s with sns := { s.sns with epoch := tr } }
  let s := s.safePartAt tr Pg.DEC fun _ => true
  let s := forEach (List.range 8) (fun g s =>
    let x := s.snsGrp g
    if s.snsOn g && (decide (x.phase = .running) || decide (x.phase = .settling)) then
      let n := 4 * g + x.cur
      (s.setSnsGrp g { x with phase := .running, left := s.get Pg.SNS (SNS.OUTPUTS_PER_SLOT.nth g) }).setSnsCh n
        { s.snsCh n with start := some tr, lastOut := none }
    else s) s
  let s := (s.put Pg.DEC DEC.DSYNC_TIME_LO tr).put Pg.DEC DEC.DSYNC_TIME_HI (tr / 2 ^ 32)
  (s.event Pg.DEC DEC.EV_DSYNC).count Pg.DEC DEC.DSYNC_CNT

/-- A DSYNC recognised on this device: the reset at T_R, and the message to the ring of a connected master (R388). -/
def State.dsyncHere (tr : Nat) (s : State) : State :=
  let s := s.dsyncReset tr
  if s.enabled Pg.CAV && s.flag Pg.CAV CAV.ROLE && decide (s.get Pg.CAV CAV.STATE = 2) then
    { s with cav := { s.cav with out := s.cav.out ++ [.dsync tr] } }
  else s

/-- DSYNC_PIN: the pin has read low on two successive ticks, first at `since`. Of a pin that stays low only the first counts,
and PIN_HELD shows it until it is high again. -/
def State.dsyncPin (since : Nat) (s : State) : State :=
  if s.domOn 142 = false then s
  else
    let s := s.put Pg.DEC DEC.PIN_LEVEL 0
    if s.sns.pinLow then
      if s.flag Pg.DEC DEC.PIN_HELD then s else (s.put Pg.DEC DEC.PIN_HELD 1).event Pg.DEC DEC.EV_DSYNC_HELD
    else if s.flag Pg.DEC DEC.DSYNC_EN = false ∨ s.cavSlave = true then s
    else
      let s : State := { s with sns := { s.sns with pinLow := true } }
      s.dsyncHere (since + 2)

/-- DSYNC_PIN. -/
def execDsyncPin (t : Nat) (since : Nat) (s : State) : Res := finish ((s.atTick t).dsyncPin since)

/-- DSYNC_RELEASE: the pin has read high for 2 successive ticks. -/
def execDsyncRelease (t : Nat) (s : State) : Res :=
  finish (onlyIf (s.domOn 142)
    (fun s =>
      let s : State := { s with sns := { s.sns with pinLow := false } }
      (s.put Pg.DEC DEC.PIN_LEVEL 1).put Pg.DEC DEC.PIN_HELD 0) (s.atTick t))

/-! ## Power domains -/

/-- A modulator group domain goes off: its groups stop, and what they gathered is lost. -/
def State.snsOff (d : Nat) (s : State) : State :=
  let first := if d = 142 then 0 else 4
  forEach (List.range 4) (fun i s =>
    let g := first + i
    let s := (s.setSnsGrp g SnsGrp.idle).showActive g
    forEach (List.range 4) (fun j s => s.setSnsCh (4 * g + j) SnsCh.idle) s) s

/-- A modulator group domain comes on: its inputs are UNCHECKED, and groups with a mask start (R300, R312). -/
def State.snsOnDomain (d t : Nat) (s : State) : State :=
  let first := if d = 142 then 0 else 4
  let s := forEach (List.range 16) (fun i s => s.showWire (4 * first + i)) s
  forEach (List.range 4) (fun i s => s.groupRestart (first + i) t) s

end Sys2Proof.Machine
end

