-- ==== Sys2Proof/Machine/Caravan.lean ====
section
/-! DEFINITION. The Caravan ring (18_caravan_cascade.md, R383 to R398): links and their training, time marks and beacons,
DSYNC over the ring, the states of R389, and the token messages. -/
namespace Sys2Proof.Machine

/-- The Caravan block runs: its domain is on and CTRL.ENABLE has taken it out of OFF. -/
def State.cavOn (s : State) : Bool := s.domOn 147 && decide (s.cavState ≠ CS.OFF)

/-- FAULT codes of a refused join (R383). -/
def CavFault.MULTI_ROOT : Nat := 1
def CavFault.ZONE_MISMATCH : Nat := 2
def CavFault.MODE_MISMATCH : Nat := 3
def CavFault.SIZE_MISMATCH : Nat := 4

/-- A join is refused for a cause; the device stays as it is. -/
def State.joinRefused (fault : Nat) (s : State) : State := (s.put Pg.CAV CAV.FAULT fault).event Pg.CAV CAV.EV_JOIN_REFUSED

/-- The device runs its SAMPLE domain from its local oscillator again, where it ran from the ring's clock (R21, R386, R402). -/
def State.ownClock (s : State) : State :=
  if s.get Pg.CLK CLK.SAMPLE_SRC ≠ 1 then s
  else if s.clk.sclkFailed then s.sclkLost
  else s.put Pg.CLK CLK.SAMPLE_SRC 0

/-- A slave runs its SAMPLE domain from the clock that it recovers from the ring; a domain that had stopped runs again (R386, R402). -/
def State.ringClock (s : State) : State :=
  let s : State := { s with clk := { s.clk with stopped := false, returning := false } }
  s.put Pg.CLK CLK.SAMPLE_SRC 1

/-- A lane of an orphan that is not on the line starts nothing more: its message waits with BUSY (R222, R390); a run between two
copies ends there, an attempt not made. -/
def State.orphanLane (p l : Nat) (x : Lane) (t : Nat) (s : State) : State :=
  if x.onLine then s
  else
    let s := s.setLane p l none
    match x.kind with
    | .data | .class0 =>
      if x.copy ≠ 0 then (s.disarm x.queue x.tag).notMade x.queue x.tag Delay.BUSY t else s.unstart x.queue x.tag Delay.BUSY t
    | _ => s

/-- What waits for its start on any port of an orphan does not start (R390). -/
def State.orphanStarts (t : Nat) (s : State) : State :=
  let s := forEach s.mac.trains (fun r s => s.abandonTrain r Delay.BUSY t) s
  forEach (List.range 16) (fun p s =>
    (forEach (s.portLanes p) (fun e s => s.orphanLane p e.1 e.2 t) s).dropC0Next p t) s

/-- The class-0 bounds of the messages that an orphan holds lapse (R390). -/
def State.lapseBounds (s : State) : State :=
  { s with wad := { s.wad with queues := s.wad.queues.map fun e =>
      (e.1, { e.2 with msgs := e.2.msgs.map fun m => { m with lapsed := true } }) } }

/-- An orphan serves again (R389). -/
def State.serveAgain (s : State) : State := s.lapseBounds.put Pg.CAV CAV.STATE CS.CONNECTED

/-- A slave becomes an orphan (R389, R390): its tokens and claims lapse, nothing of its own starts any more, its timebase holds over
from the last beacon, and its SAMPLE clock falls back to its own oscillator (R21, R402). -/
def State.orphan (t : Nat) (s : State) : State :=
  let s := s.orphanStarts t
  let s := ((s.put Pg.CAV CAV.STATE CS.ORPHAN).event Pg.CAV CAV.EV_ORPHAN).count Pg.CAV CAV.ORPHAN_CNT
  let s := s.modCav fun c => { c with mine := [], claims := [] }
  let s := s.ownClock
  if s.tb = TB.OFF then s else s.enterHoldover t

/-- A slave in service or on its way back. -/
def State.slaveLinked (s : State) : Bool :=
  !s.isMaster && (decide (s.cavState = CS.CONNECTED) || decide (s.cavState = CS.REJOINING))

/-- The master enters service once its out-link is UP: its position, clock and time are its own (R383). -/
def State.masterUp (s : State) : State :=
  if s.isMaster && decide (s.cavState = CS.TRAINING) && s.cav.outUp then
    (((s.put Pg.CAV CAV.STATE CS.CONNECTED).put Pg.CAV CAV.POSITION 0).put Pg.CAV CAV.MEMBERS 1).event Pg.CAV CAV.EV_CONNECTED
  else s

/-- LINK_UP (R384, R385): training ended with both lanes aligned; corrected polarity or swapped lanes set POL_FIX. -/
def State.linkUp (out : Bool) (lanes : Nat) (hopNs linkNs : Nat) (s : State) : State :=
  if s.cavOn = false ∨ lanes % 4 ≠ 3 then s
  else
    let s := if out then (s.put Pg.CAV CAV.OUT_LANES lanes).modCav fun c => { c with outUp := true }
      else (((s.put Pg.CAV CAV.IN_LANES lanes).put Pg.CAV CAV.HOP_NS hopNs).put Pg.CAV CAV.LINK_NS linkNs).modCav
        fun c => { c with inUp := true }
    let s := onlyIf (decide (lanes / 4 ≠ 0)) (State.event Pg.CAV CAV.EV_POL_FIX) s
    s.masterUp

/-- LINK_UP. -/
def execLinkUp (t : Nat) (out : Bool) (lanes : BitVec 5) (hopNs : BitVec 32) (linkNs : BitVec 32) (s : State) : Res :=
  finish ((s.atTick t).linkUp out lanes.toNat hopNs.toNat linkNs.toNat)

/-- A link goes DOWN: counted; a slave in service that loses its in-link is an orphan (R389). -/
def State.linkLost (t : Nat) (out : Bool) (s : State) : State :=
  if (if out then s.cav.outUp else s.cav.inUp) then
    let s := (s.event Pg.CAV CAV.EV_LINK_DOWN).count Pg.CAV CAV.LINK_DOWN_CNT
    let s := s.modCav fun c => if out then { c with outUp := false, outDownAt := t } else { c with inUp := false, inDownAt := t }
    onlyIf (!out && s.slaveLinked) (State.orphan t) s
  else s

/-- A link goes DOWN (R385): a lane has lost its characters, code violations exceed CV_LIMIT in 1 ms, or a ring message has been
resent 4 times without success. -/
def State.linkFails (s : State) (lanes : BitVec 5) (violations resends : Nat) : Bool :=
  decide (lanes.toNat % 4 ≠ 3) || decide (s.get Pg.CAV CAV.CV_LIMIT < violations) || decide (4 ≤ resends)

/-- LINK_DOWN (R385): the lanes that are left UP, the code violations that the millisecond held, and how often one ring message
was resent without success. -/
def execLinkDown (t : Nat) (out : Bool) (lanes : BitVec 5) (violations resends : Nat) (s : State) : Res :=
  finish (onlyIf s.cavOn
    (fun s =>
      let s := s.countBy Pg.CAV CAV.CV_CNT violations
      let s := s.put Pg.CAV (if out then CAV.OUT_LANES else CAV.IN_LANES) lanes.toNat
      onlyIf (s.linkFails lanes violations resends) (State.linkLost t out) s) (s.atTick t))

/-- CMD.RETRAIN: both links go DOWN and train again. -/
def State.retrain (s : State) : State :=
  if s.cavOn then ((s.linkLost s.time false).linkLost s.time true |>.put Pg.CAV CAV.IN_LANES 0).put Pg.CAV CAV.OUT_LANES 0 else s

/-- RETRAIN_TIMER (R385): a link that has been DOWN for TRAIN_MS starts training again; LINK_UP ends it. Its lanes lose what they
had found. -/
def execRetrainTimer (t : Nat) (out : Bool) (s : State) : Res :=
  let down := if out then !s.cav.outUp else !s.cav.inUp
  let at_ := if out then s.cav.outDownAt else s.cav.inDownAt
  finish (onlyIf (s.cavOn && down && decide (at_ + msTicks (s.get Pg.CAV CAV.TRAIN_MS) ≤ t))
    (fun s => (s.put Pg.CAV (if out then CAV.OUT_LANES else CAV.IN_LANES) 0).modCav fun c =>
      if out then { c with outDownAt := t } else { c with inDownAt := t }) (s.atTick t))

/-- RING_MESSAGE_RESEND (R385). -/
def execRingMessageResend (t : Nat) (s : State) : Res :=
  finish (onlyIf s.cavOn (State.count Pg.CAV CAV.RESEND_CNT) (s.atTick t))

/-! ## Time marks (R386, R391) -/

/-- The fields of CAV become active at a time mark; in OFF they do at once. -/
def State.cavSafe (s : State) : State := s.safeAll Pg.CAV

/-- The connected master shows the positions that are CONNECTED, its own among them, and releases every token of a device that is
no more at the planned end of that token's transmission (R389, R390). -/
def State.showMembers (t members : Nat) (s : State) : State :=
  if s.cavState ≠ CS.CONNECTED then s
  else
    let now := members ||| 1
    let gone := s.cav.held.filter fun k => decide (bitOf now k.dev = 0) && decide (k.planned ≤ t)
    forEach gone State.masterRelease (s.put Pg.CAV CAV.MEMBERS now)

/-- TIME_MARK_SEND: every 1 ms the master sends its SAMPLE_TIME. `members` is what its ring tells it of the positions that are
CONNECTED: no command of its own carries that. -/
def execTimeMarkSend (t : Nat) (members : BitVec 8) (s : State) : Res :=
  finish (onlyIf (s.cavOn && s.isMaster) (fun s => (s.cavSafe.showMembers t members.toNat).ringSend (.mark t)) (s.atTick t))

/-- The path latency from the master in 1/16 tick: HOP_NS nanoseconds, rounded (R386). -/
def State.pathSixteenths (s : State) : Nat := (s.get Pg.CAV CAV.HOP_NS * 32768 + 500000) / 1000000

/-- How far the device's SAMPLE_TIME stands ahead of the master's when a mark arrives, in 1/16 tick: the mark's value plus the path
latency is the master's time then (R386). -/
def State.markErr (m : TimeMark) (s : State) : Int :=
  ((16 * s.time + m.frac.val : Nat) : Int) - ((16 * m.time + s.pathSixteenths : Nat) : Int)

/-- A slave steps to the master's SAMPLE_TIME: `err` is its own time less the master's in 1/16 tick. Mirage records a span that a step
forward skips as a gap (R176, R391). The step is made as the mark arrives, marks coming once in 1 ms. DESIGN CHOICE (log 90): R391 names the
next 1 ms tick. -/
def State.timeStep (err : Int) (s : State) : State :=
  let now := ((s.time : Int) - err / 16).toNat
  let s := onlyIf (decide (s.time < now)) (State.sideLog s.time SideKind.GAP 0 0 (now - s.time)) s
  { s with time := now }

/-- The master's own mark returns (R383): the ring closes when it holds as many devices as RING_SIZE_M1 states. -/
def State.markReturned (t : Nat) (m : TimeMark) (s : State) : State :=
  let s := s.modCav fun c => { c with returnAt := t }
  if m.otherRoot then s.joinRefused CavFault.MULTI_ROOT
  else if s.flag Pg.CAV CAV.RING then s
  else if m.hops ≠ s.get Pg.CAV CAV.RING_SIZE_M1 + 1 then
    if s.get Pg.CAV CAV.FAULT = CavFault.SIZE_MISMATCH then s else s.joinRefused CavFault.SIZE_MISMATCH
  else ((s.put Pg.CAV CAV.RING 1).put Pg.CAV CAV.FAULT 0).put Pg.CAV CAV.MEMBERS (2 ^ m.hops - 1)

/-- Why a slave refuses to join (R383). -/
def State.joinFault (s : State) (m : TimeMark) : Option Nat :=
  if m.otherRoot then some CavFault.MULTI_ROOT
  else if m.zone ≠ s.get Pg.CAV CAV.ZONE_ID then some CavFault.ZONE_MISMATCH
  else if m.mode ≠ s.get Pg.CAV CAV.MODE then some CavFault.MODE_MISMATCH
  else if m.sizeM1 ≠ s.get Pg.CAV CAV.RING_SIZE_M1 ∨ m.sizeM1 < m.hops then some CavFault.SIZE_MISMATCH
  else none

/-- A slave corrects its SAMPLE_TIME without running it backwards (R391): behind the master it steps forward, ahead of it by more than a
tick it slows its clock by 500 ppm. -/
def State.timeCorrect (err : Int) (s : State) : State :=
  if err < 0 then (s.timeStep err).event Pg.CAV CAV.EV_TIME_STEP
  else onlyIf (decide (16 < err)) (State.put Pg.CAV CAV.SLEW_PPM (unsigned 16 (-500))) s

/-- The slave is CONNECTED: its time is the master's within one tick (R389). -/
def State.connected (s : State) : State :=
  ((s.put Pg.CAV CAV.SLEW_PPM 0).put Pg.CAV CAV.STATE CS.CONNECTED).event Pg.CAV CAV.EV_CONNECTED

/-- A slave in TRAINING joins: at the first join after reset by a step in either direction, later as in R391; it is CONNECTED once its
time is aligned (R389). -/
def State.join (m : TimeMark) (s : State) : State :=
  let err := s.markErr m
  let first := !s.cav.joined
  let s := ((s.put Pg.CAV CAV.POSITION m.hops).put Pg.CAV CAV.FAULT 0).ringClock
  let s := if first then s.timeStep err else if err.natAbs ≤ 16 then s else s.timeCorrect err
  let s := s.modCav fun c => { c with joined := true, beaconAt := s.time }
  if first ∨ err ≤ 16 then s.connected else s

/-- REJOIN (R391): behind the master the slave steps forward, ahead of it it slows its clock by 500 ppm. -/
def State.rejoin (m : TimeMark) (s : State) : State :=
  let err := s.markErr m
  let s := (s.put Pg.CAV CAV.STATE CS.REJOINING).event Pg.CAV CAV.EV_REJOIN
  let s := s.modCav fun c => { c with beaconAt := s.time }
  s.ringClock.timeCorrect err

/-- TIME_MARK_RECEIVE. -/
def State.timeMark (t : Nat) (m : TimeMark) (s : State) : State :=
  if s.cavOn = false ∨ s.cav.inUp = false then s
  else if s.isMaster then s.markReturned t m
  else
    let err := s.markErr m
    let s := (s.modCav fun c => { c with markAt := t }).put Pg.CAV CAV.TIME_ERR (satSigned 16 err)
    let s := s.cavSafe
    let st := s.cavState
    if st = CS.TRAINING then
      match s.joinFault m with
      | some f => s.joinRefused f
      | none => s.join m
    else if st = CS.ORPHAN then s.rejoin m
    else if st = CS.REJOINING then
      if err.natAbs ≤ 16 then (s.put Pg.CAV CAV.SLEW_PPM 0).serveAgain
      else s.timeCorrect err
    else s

/-- TIME_MARK_RECEIVE. -/
def execTimeMarkReceive (t : Nat) (mark : TimeMark) (s : State) : Res := finish ((s.atTick t).timeMark t mark)

/-! ## Beacons (R387, R79) -/

/-- BEACON_SEND: at a half-cycle start the connected master tells its phase. -/
def execBeaconSend (t : Nat) (s : State) : Res :=
  finish (onlyIf (s.cavOn && s.isMaster && decide (s.cavState = CS.CONNECTED))
    (fun s => s.ringSend (.beacon (s.mainsTime t).1 t s.tb (s.get Pg.MTB MTB.FREQ))) (s.atTick t))

/-- The half of the cycle that a beacon starts: the one nearer to the phase of a slave that tracks; the second where the beacon before
it named the same cycle, for another slave. A beacon carries no phase. DEDUCED: log 90. -/
def State.beaconHalf (s : State) (b : Beacon) : Nat :=
  if s.tb = TB.LOCKED ∨ s.tb = TB.HOLDOVER then (if s.phaseAt b.time / 16384 % 4 = 1 ∨ s.phaseAt b.time / 16384 % 4 = 2 then 32768 else 0)
  else if s.cav.beaconCycle = some b.cycle then 32768
  else 0

/-- A slave that tracks corrects its phase under R71 and counts the master's cycles: its own clock at the beacon's instant less the
phase error stands in the cycle that the beacon names. -/
def State.beaconTrack (t half : Nat) (b : Beacon) (s : State) : State :=
  let own : Int := (s.countsAt b.time : Nat)
  let e := wrapErr (own - (half : Int))
  let cycle := s.get Pg.MTB MTB.CYCLE
  let named : Int := (own - e - (half : Int)) / 65536
  let s := (s.tbFreq t b.freq).tbRelock t e
  s.put Pg.MTB MTB.CYCLE (unsigned 32 ((cycle : Int) + (b.cycle : Int) - named))

/-- A slave that does not track takes phase and cycle count at once. -/
def State.beaconTake (t half : Nat) (b : Beacon) (s : State) : State :=
  let phi := half * phiCount + (t - b.time) * b.freq
  let s : State := { s with mtb := { s.mtb with phi := phi % phiCycle, anchor := t, slew := 0, slewEnd := 0, holdEnd := 0, left := 0 } }
  ((s.put Pg.MTB MTB.FREQ b.freq).put Pg.MTB MTB.CYCLE (b.cycle + phi / phiCycle))

/-- The timebase takes a beacon (R79, R387): phase, cycle count and frequency at the SAMPLE_TIME that it carries, and the master's
state. The frequency stands in place of periods of the slave's own, which HOLDOVER would hold. -/
def State.tbBeacon (t : Nat) (b : Beacon) (s : State) : State :=
  let half := s.beaconHalf b
  let s : State := { s with mtb := { s.mtb with periods := [] } }
  if b.state = TB.OFF then
    if s.tb = TB.OFF then s.put Pg.MTB MTB.CYCLE b.cycle
    else (((s.tbAnchor t).put Pg.MTB MTB.CYCLE b.cycle).tbState TB.OFF).accRebase t
  else if s.tb = TB.LOCKED ∨ s.tb = TB.HOLDOVER then
    let s := s.beaconTrack t half b
    if s.tb = b.state then s else s.tbState b.state
  else
    let s := s.beaconTake t half b
    (if s.tb = b.state then s else s.tbState b.state).accRebase t

/-- BEACON_RECEIVE: a slave whose timebase is enabled takes the beacon. -/
def State.beacon (t : Nat) (b : Beacon) (s : State) : State :=
  if s.cavOn = false ∨ s.slaveLinked = false ∨ s.cav.inUp = false then s
  else
    let s := onlyIf (s.enabled Pg.MTB) (fun s => (s.tbBeacon t b).recopy) s
    s.modCav fun c => { c with beaconAt := t, beaconCycle := some b.cycle }

/-- BEACON_RECEIVE. -/
def execBeaconReceive (t : Nat) (beacon : Beacon) (s : State) : Res := finish ((s.atTick t).beacon t beacon)

/-! ## DSYNC, orphans, ring (R388, R389) -/

/-- DSYNC_MESSAGE: a CONNECTED slave resets its decimators at T_R from the last 128 µs of modulator bits. -/
def execDsyncMessage (t : Nat) (tr : Nat) (s : State) : Res :=
  finish (onlyIf (s.cavOn && !s.isMaster && decide (s.cavState = CS.CONNECTED) && s.domOn 142 &&
      decide (t ≤ tr + usTicks 128)) (State.dsyncReset tr) (s.atTick t))

/-- The half-cycle of the frequency that a slave holds, in ticks. -/
def State.halfCycleTicks (s : State) : Nat := s.cycleTicks / 2

/-- ORPHAN_TIMEOUT: no time mark for ORPHAN_US, no beacon for three half-cycles, or a dead in-link. -/
def execOrphanTimeout (t : Nat) (s : State) : Res :=
  let s := s.atTick t
  let silent := decide (usTicks (s.get Pg.CAV CAV.ORPHAN_US) ≤ t - s.cav.markAt)
  let blind := decide (3 * s.halfCycleTicks ≤ t - s.cav.beaconAt)
  let st := s.cavState
  let lost := (decide (st = CS.CONNECTED) && (silent || blind || !s.cav.inUp)) ||
    (decide (st = CS.REJOINING) && !s.cav.inUp)
  finish (onlyIf (s.cavOn && !s.isMaster && lost) (State.orphan t) s)

/-- RING_OPEN: the master's marks have stopped returning for ORPHAN_US; it serves on. -/
def execRingOpen (t : Nat) (s : State) : Res :=
  finish (onlyIf (s.cavOn && s.isMaster && s.flag Pg.CAV CAV.RING &&
      decide (usTicks (s.get Pg.CAV CAV.ORPHAN_US) ≤ t - s.cav.returnAt))
    (fun s => (s.put Pg.CAV CAV.RING 0).event Pg.CAV CAV.EV_RING_OPEN) (s.atTick t))

/-! ## Token messages (R392 to R394) -/

/-- TOKEN_CLAIM: the master receives a slave's claim. -/
def execTokenClaim (t : Nat) (token : Token) (s : State) : Res :=
  finish (onlyIf (s.cavOn && s.isMaster) (State.masterClaim token) (s.atTick t))

/-- This device claims that token. -/
def State.claimed_ (s : State) (k : Token) : Bool := s.cav.claims.any fun x => sameToken x k

/-- TOKEN_GRANT: a device receives a grant; one that it has withdrawn goes back at once. -/
def execTokenGrant (t : Nat) (token : Token) (s : State) : Res :=
  finish (onlyIf (s.cavOn && !s.isMaster && decide (s.cavState = CS.CONNECTED) &&
      decide (token.dev = s.get Pg.CAV CAV.POSITION))
    (fun s => if s.claimed_ token then s.tokenArrive token else s.ringSend (.release token)) (s.atTick t))

/-- A token of this device still serves: the start that it was granted for is to come, its transmission has not fallen, its
acknowledgement window is open, or its train runs (R392). -/
def State.tokenInUse (s : State) (k : Token) : Bool :=
  (s.txs.lanes.any fun e => match e.2 with
    | some x => decide (e.1 / 16 = k.port) && decide (x.centre = k.centre) && decide (x.rate = k.rate)
    | none => false) ||
  (s.mac.wins.any fun w => decide (w.port = k.port) && decide (w.centre = k.centre) && decide (w.rate = k.rate)) ||
  (s.mac.trains.any fun n => decide (n.port = k.port)) ||
  (s.mac.attempts.any fun a => decide (a.port = k.port) && decide (s.txCentre a.port a.ch = k.centre) && decide (s.txRate a.port a.ch = k.rate))

/-- TOKEN_RELEASE: a device gives a token back once nothing uses it; the master takes one back and serves the claims that
wait. -/
def execTokenRelease (t : Nat) (token : Token) (s : State) : Res :=
  finish (onlyIf s.cavOn
    (fun s =>
      if s.cav.mine.any (fun x => sameToken x token) then
        if s.tokenInUse token then s else s.releaseToken token
      else onlyIf s.isMaster (State.masterRelease token) s) (s.atTick t))

/-- PREEMPT: a holder cuts its transmissions of classes 1 to 3 on the token's band. -/
def execPreempt (t : Nat) (token : Token) (s : State) : Res :=
  finish (onlyIf s.cavOn (State.preempted token) (s.atTick t))

/-- ACK_RESERVATION (R394): a device that owes an acknowledgement reserves its band at the master. -/
def execAckReservation (t : Nat) (token : Token) (s : State) : Res :=
  let k : Token := { token with ack := true }
  finish (onlyIf s.cavOn
    (fun s =>
      if s.isMaster then s.modCav fun c => { c with held := c.held ++ [k] }
      else (s.modCav fun c => { c with mine := c.mine ++ [k] }).ringSend (.reserve k)) (s.atTick t))

/-! ## Enable and power -/

/-- CTRL.ENABLE of CAV (R389): setting it in OFF starts training, clearing it releases the tokens and stops ring traffic. -/
def State.cavEnable (on : Bool) (s : State) : State :=
  if on then
    if s.cavState = CS.OFF then s.cavSafe.put Pg.CAV CAV.STATE CS.TRAINING else s
  else
    let s := forEach s.cav.mine State.releaseToken s
    let s := s.modCav fun c => { c with mine := [], claims := [], held := [], queue := [], inUp := false, outUp := false }
    (((s.ownClock.put Pg.CAV CAV.STATE CS.OFF).put Pg.CAV CAV.RING 0).put Pg.CAV CAV.MEMBERS 0).put Pg.CAV CAV.SLEW_PPM 0

/-- SOFT_RESET of CAV: its state returns to that of a device just enabled, or OFF. -/
def State.cavSoftReset (s : State) : State :=
  let role := s.get Pg.CAV CAV.ROLE
  let on := s.enabled Pg.CAV
  let s := (s.cavEnable false).clearStatus Pg.CAV
  let s := (s.modCav fun c => { c with out := [], merged := [] }).put Pg.CAV CAV.ROLE role
  if on then s.cavEnable true else s

end Sys2Proof.Machine
end

