-- ==== Sys2Proof/Machine/Crc.lean ====
section
/-! DEFINITION. The check-value units CRC0 to CRC3 (17_check_units_and_uarts.md, R367 to R370). -/
namespace Sys2Proof.Machine

/-- Stores the shadow value of a register and leaves the page DIRTY (R45). -/
def State.setShadow (pg off : Nat) (v : Word) (s : State) : State :=
  let s : State := { s with shadow := Tab.put s.shadow (addrOf pg off) v }
  s.put pg CFG.PENDING 1

/-- WIDTH of the active set. -/
def State.crcWidth (s : State) (n : Nat) : Nat := s.get (Pg.CRC n) CRC.WIDTH_M1 + 1

/-- STATE after a feed of bytes (R367). -/
def State.crcFed (s : State) (n : Nat) (bytes : List Byte) : Nat :=
  bytes.foldl (crcByte (s.crcWidth n) (s.get (Pg.CRC n) CRC.POLY) (s.flag (Pg.CRC n) CRC.REFLECT))
    (s.get (Pg.CRC n) CRC.STATE)

/-- Feeds bytes into a unit. -/
def State.crcFeed (n : Nat) (bytes : List Byte) (s : State) : State :=
  (s.put (Pg.CRC n) CRC.STATE (s.crcFed n bytes)).countBy (Pg.CRC n) CRC.BYTE_CNT bytes.length

/-- RESULT (R368): STATE XOR XOROUT, limited to WIDTH bits. -/
def State.crcResult (s : State) (n : Nat) : Nat :=
  (s.get (Pg.CRC n) CRC.STATE ^^^ s.get (Pg.CRC n) CRC.XOROUT) % 2 ^ s.crcWidth n

/-- A preset of R369: WIDTH, POLY, INIT, REFLECT, XOROUT. -/
def crcPreset : Nat → Option (Nat × Nat × Nat × Nat × Nat)
  | 1 => some (8, 0x07, 0x00, 0, 0x00)
  | 2 => some (16, 0x1021, 0xFFFF, 0, 0x0000)
  | 3 => some (32, 0x1EDC6F41, 0xFFFFFFFF, 1, 0xFFFFFFFF)
  | 4 => some (16, 0x8005, 0xFFFF, 1, 0x0000)
  | 5 => some (32, 0x04C11DB7, 0xFFFFFFFF, 1, 0xFFFFFFFF)
  | _ => none

/-- PRESET_NOW: the preset that matches the active set exactly, 0 for none. -/
def State.crcPresetNow (s : State) (n : Nat) : Nat :=
  let pg := Pg.CRC n
  let now := (s.crcWidth n, s.get pg CRC.POLY, s.get pg CRC.INIT, s.get pg CRC.REFLECT, s.get pg CRC.XOROUT)
  ([1, 2, 3, 4, 5].find? fun i => decide (crcPreset i = some now)).getD 0

/-- PRESET (R369): copies a preset into the shadow set; refused while the page is ARMED. -/
def State.crcPresetWrite (n i : Nat) (s : State) : State :=
  let pg := Pg.CRC n
  match crcPreset i with
  | none => s
  | some (w, poly, init, refl, xor) =>
    if s.flag pg CFG.ARMED then s.refuse pg ErrCode.SHADOW_LOCKED CRC.PRESET.off
    else
      let word := CRC.REFLECT.ins (CRC.WIDTH_M1.ins (s.shadowReg pg CRC.WIDTH_M1.off) (w - 1)) refl
      (((s.setShadow pg CRC.POLY.off (BitVec.ofNat 32 poly)).setShadow pg CRC.INIT.off (BitVec.ofNat 32 init)).setShadow pg
        CRC.XOROUT.off (BitVec.ofNat 32 xor)).setShadow pg CRC.WIDTH_M1.off word

/-- RESTART, and an applied COMMIT (R369): STATE takes the active INIT. -/
def State.crcRestart (n : Nat) (s : State) : State :=
  (s.put (Pg.CRC n) CRC.STATE (s.get (Pg.CRC n) CRC.INIT)).count (Pg.CRC n) CRC.RESTART_CNT

end Sys2Proof.Machine
end

