-- ==== Sys2Proof/Machine/Keys.lean ====
section
/-! DEFINITION. The key store's page and the MRAM window (20_startup_boot_security.md, R428, R429). -/
namespace Sys2Proof.Machine

/-- The key-store number of the grid key. -/
def gridSlot : Nat := 0x800

/-- Stores a key in an endpoint slot and binds it to an address (R236, R428): TX_CTR, CTR_HI and FLOOR are 0, the duplicate cache
is empty; key and binding go to MRAM. -/
def State.bindKey (slot addr : Nat) (key : List Byte) (s : State) : State :=
  let old := s.keySlot slot
  let s := s.setKeySlot slot { KeySlot.idle with addr := some addr, key := key, seq := old.seq }
  let s := (s.setMramKey (4 * slot) key).setMram (MR.BINDING + slot) (BitVec.ofNat 32 (2 ^ 31 + addr % 4096))
  (s.setTxCtr slot 0).setCtrHi slot 0

/-- Stores the grid key with its TX_CTR at 0. -/
def State.bindGrid (key : List Byte) (s : State) : State :=
  let s : State := { s with key := { s.key with grid := { KeySlot.idle with key := key } } }
  ((s.setMramKey MR.GRID_KEY key).setMram MR.GRID_MARK 1).setGridCtr 0

/-- Unbinds an endpoint slot: its key and its binding are gone. -/
def State.unbindKey (slot : Nat) (s : State) : State :=
  let s := s.setKeySlot slot { s.keySlot slot with addr := none, key := [], cache := [], replays := 0 }
  (s.setMramKey (4 * slot) []).setMram (MR.BINDING + slot) 0

/-- Removes the grid key. -/
def State.unbindGrid (s : State) : State :=
  let s : State := { s with key := { s.key with grid := { s.key.grid with key := [] } } }
  (s.setMramKey MR.GRID_KEY []).setMram MR.GRID_MARK 0

/-- A KEY command is refused (R428). -/
def State.keyRefused (code : Nat) (s : State) : State :=
  ((s.refuse Pg.KEY code 0x040).event Pg.KEY KEY.EV_REFUSED).count Pg.KEY KEY.REFUSED_CNT

/-- FW_STATE forbids KEY commands (R428). -/
def State.keyLocked (s : State) : Bool := decide (s.fwState = FW.BOOTING) || decide (s.fwState = FW.RUNNING)

/-- KEY OP WRITE (R428). -/
def State.keyWrite (s : State) : State :=
  let slot := s.get Pg.KEY KEY.SLOT
  let addr := s.get Pg.KEY KEY.ADDR
  let key := (List.range 4).flatMap fun i => leBytes 4 (s.key.keyIn.getD i 0).toNat
  if s.keyLocked then s.keyRefused ErrCode.NOT_PERMITTED
  else if slot = gridSlot then (s.bindGrid key).count Pg.KEY KEY.WRITE_CNT
  else if 2048 ≤ slot ∨ addr = 0 ∨ addr = 0xFFF then s.keyRefused ErrCode.RANGE
  else if s.slotOf addr ≠ none ∧ s.slotOf addr ≠ some slot then s.keyRefused ErrCode.INCONSISTENT
  else (s.bindKey slot addr key).count Pg.KEY KEY.WRITE_CNT

/-- KEY OP CLEAR (R428). -/
def State.keyClear (s : State) : State :=
  let slot := s.get Pg.KEY KEY.SLOT
  if s.keyLocked then s.keyRefused ErrCode.NOT_PERMITTED
  else if slot = gridSlot then s.unbindGrid.count Pg.KEY KEY.CLEAR_CNT
  else if 2048 ≤ slot then s.keyRefused ErrCode.RANGE
  else (s.unbindKey slot).count Pg.KEY KEY.CLEAR_CNT

/-! ## MRAM window (R429) -/

/-- Words that MRM.DATA reaches: BOOT_PARAM and HOST. -/
def mramOpen (a : Nat) : Bool := (decide (8320 ≤ a) && decide (a < 8336)) || (decide (212992 ≤ a) && decide (a < 245760))

/-- The address moves on by 1 with INC. -/
def State.mramNext (s : State) : State :=
  if s.flag Pg.MRM MRM.INC then s.put Pg.MRM MRM.ADDR (s.get Pg.MRM MRM.ADDR + 1) else s

/-- A read of MRM.DATA with an outcome of the word's check bits; what an uncorrectable word returns is not stated. -/
def State.mramRead (e : EccResult) (s : State) : State :=
  let a := s.get Pg.MRM MRM.ADDR
  if mramOpen a then
    (match e with
    | .clean => s.answer (s.mramWord a)
    | .corrected => ((s.answer (s.mramWord a)).event Pg.MRM MRM.EV_CE).count Pg.MRM MRM.CE_CNT
    | .uncorrectable => ((s.withFree fun n s => s.answer (BitVec.ofNat 32 n)).event Pg.MRM MRM.EV_UE).count Pg.MRM
        MRM.UE_CNT).mramNext
  else (s.answer 0).mramNext

/-- A write of MRM.DATA. -/
def State.mramWrite (v : Word) (s : State) : State :=
  let a := s.get Pg.MRM MRM.ADDR
  if mramOpen a then ((s.setMram a v).count Pg.MRM MRM.HOST_WR_CNT).mramNext
  else s.refuse Pg.MRM ErrCode.NOT_PERMITTED 0x014

end Sys2Proof.Machine
end

