-- ==== Sys2Proof/Machine/Array.lean ====
section
/-! DEFINITION. The Erg array's shared operations (06_erg_receive_array.md): engine states (R141), the safe point of ERG
pages (R133) with the checks that tie them to transmit channels (R155, R156), erasure marks of whole engines (R90, R143),
parking (R152) and the trellis pool (R146 to R148). -/
namespace Sys2Proof.Machine

/-! ## Power requests -/

/-- Asks Oasis to wake a domain (R277). -/
def State.requestWake (d : Nat) (s : State) : State :=
  if s.domOn d ∨ d ∈ s.oas.waitWake ∨ s.oas.waking.any (fun w => decide (w.1 = d)) = true then s
  else { s with oas := { s.oas with waitWake := s.oas.waitWake ++ [d] } }

/-! ## Engine states (R141) -/

/-- Port p delivers samples to the engines: not OFF, RX AFE domain on (R141); in a DEEPEN slave, while it is CONNECTED. -/
def State.portSamples (s : State) (p : Nat) : Bool :=
  if s.deepenSlave then decide (s.cavState = CS.CONNECTED)
  else decide (s.get (Pg.LPT p) LPT.STATE ≠ 0) && s.domOn (96 + p)

/-- The state in which an engine of a role runs when nothing occupies it. -/
def State.roleState (s : State) (c : Nat) : Nat :=
  match s.eget c ERG.ROLE with
  | 1 => if s.portSamples (s.eget c ERG.PORT) then ES.HUNT else ES.NO_INPUT
  | 2 => ES.IDLE
  | _ => ES.OFF

/-- Moves engine c to a state; its preamble watch runs while it is busy or away with Mirage (R150, R151), and a LIVE engine's activity
that ends is noted for sensing (R197, R199). -/
def State.setEst (c st : Nat) (s : State) : State :=
  let s := onlyIf (s.isLive c && s.engBusy c && (decide (st < 5) || decide (8 < st)))
    (fun s => s.noteEnd (s.eget c ERG.PORT) (s.eget c ERG.CENTRE) (s.eget c ERG.RATE) false s.time) s
  (s.eput c ERG.STATE st).eput c ERG.WATCH (decide (5 ≤ st) && decide (st ≤ 10) && s.isLive c).toNat

/-- Sets bit e of a per-engine event of page ERG. -/
def State.eevent (c : Nat) (f : Fld) (s : State) : State := s.eventBit (Pg.ERG (c / 4)) f (c % 4)

/-! ## Checks between transmit channels and alarm engines (R155, R156) -/

/-- Channels of port p, other than its alarm channel, whose guard zone overlaps the band of a LIVE ALARM engine, as a mask;
`rd` reads a field of the page. -/
def State.blockedMask (s : State) (p : Nat) (rd : Fld → Nat) : Nat :=
  let al := s.alarmEngines p
  (List.range 16).foldl (fun m k =>
    let other := decide (rd TXS.ALARM_EN = 0) || decide (rd TXS.ALARM_CH ≠ k)
    if other && decide (rd (TXS.EN.nth k) = 1) && al.any (fun c =>
        inGuardZone (s.eget c ERG.CENTRE) (s.eget c ERG.RATE) (rd (TXS.CENTRE.nth k)) (rd (TXS.RATE.nth k)))
    then m ||| 2 ^ k else m) 0

/-- The alarm channel of port p matches a LIVE ALARM engine. -/
def State.alarmMatched (s : State) (p : Nat) (rd : Fld → Nat) : Bool :=
  let k := rd TXS.ALARM_CH
  (s.alarmEngines p).any fun c => decide (s.eget c ERG.CENTRE = rd (TXS.CENTRE.nth k))
    && decide (s.eget c ERG.RATE = rd (TXS.RATE.nth k)) && decide (s.eget c ERG.SYNC_WORD = rd (TXS.SYNC_WORD.nth k))

/-- Why a TXS set is refused (R155): the code and the offset it names. -/
def State.txsConflict (s : State) (p : Nat) (rd : Fld → Nat) : Option (Nat × Nat) :=
  let en := rd TXS.ALARM_EN = 1
  let a := rd TXS.ALARM_CH
  let chans := (List.range 16).filter fun k => decide (rd (TXS.EN.nth k) = 1)
  match chans.find? fun k => !bandOk (rd (TXS.CENTRE.nth k)) (rd (TXS.RATE.nth k)) || decide (rd (TXS.PREAMBLE.nth k) < 16) with
  | some k => some (ErrCode.RANGE, 0x400 + 16 * k)
  | none =>
    if en ∧ rd (TXS.EN.nth a) = 0 then some (ErrCode.INCONSISTENT, 0x010)
    else if en ∧ s.alarmMatched p rd = false then some (ErrCode.INCONSISTENT, 0x010)
    else if s.blockedMask p rd ≠ 0 then
      some (ErrCode.INCONSISTENT, 0x400 + 16 * ((List.range 16).find? fun k => decide (bitOf (s.blockedMask p rd) k = 1)).getD 0)
    else if en ∧ rd (TXS.LEVEL.nth a) < rd TXS.LEVEL_SUM_MAX then some (ErrCode.INCONSISTENT, 0x404 + 16 * a)
    else if rd TXS.ACK_LEVEL < rd TXS.LEVEL_SUM_MAX then some (ErrCode.INCONSISTENT, 0x014)
    else match chans.find? fun k => (decide (rd TXS.ALARM_EN = 0) || decide (a ≠ k))
        && decide (rd (TXS.LEVEL.nth k) < rd TXS.LEVEL_SUM_MAX + rd TXS.HEADROOM_DB) with
      | some k => some (ErrCode.INCONSISTENT, 0x404 + 16 * k)
      | none => none

/-- ALARM_MISMATCH and BLOCKED_CH of port p follow the active sets; a condition of R155 that is newly broken, of one more channel or
of the alarm channel's match, sets the event (R156). -/
def State.refreshMismatch (p : Nat) (s : State) : State :=
  let pg := Pg.TXS p
  let rd := s.get pg
  let mask := s.blockedMask p rd
  let alone := decide (rd TXS.ALARM_EN = 1) && !s.alarmMatched p rd
  let more := (List.range 16).any fun k => decide (bitOf mask k = 1) && decide (bitOf (rd TXS.BLOCKED_CH) k = 0)
  let new := more || (alone && !s.txs.unmatched.contains p)
  let s := (s.put pg TXS.BLOCKED_CH mask).put pg TXS.ALARM_MISMATCH (decide (mask ≠ 0) || alone).toNat
  let others := s.txs.unmatched.filter fun x => decide (x ≠ p)
  let s : State := { s with txs := { s.txs with unmatched := if alone then p :: others else others } }
  onlyIf new (State.event pg TXS.EV_ALARM_MISMATCH) s

/-! ## Safe point of ERG pages (R133) -/

/-- Engines of page ERGq that have not taken the armed set yet. -/
def State.ergDue (s : State) (q : Nat) : Nat := Tab.get (fun _ => 0) s.erg.due q

/-- Page offsets of the configuration block of engine e of its page. -/
def ergBlock (e off : Nat) : Bool := decide (0x010 + 0x30 * e ≤ off) && decide (off < 0x040 + 0x30 * e)

/-- Engine c takes the armed set of its page; the last of the four completes the commit (R133, R156). -/
def State.ergTake (c : Nat) (s : State) : State :=
  let q := c / 4
  let due := s.ergDue q
  if s.flag (Pg.ERG q) CFG.ARMED = false ∨ bitOf due (c % 4) = 0 then s
  else
    let s := s.applyShadow (Pg.ERG q) (ergBlock (c % 4))
    let left := due - 2 ^ (c % 4)
    let s : State := { s with erg := { s.erg with due := Tab.set (fun _ => 0) s.erg.due q left } }
    let s := if s.eget c ERG.ROLE = 0 then s.setEst c ES.OFF
      else if s.est c = ES.PARKED then s
      else s.setEst c (s.roleState c)
    if left = 0 then forEach (List.range 16) State.refreshMismatch ((s.applyShadow (Pg.ERG q) fun _ => true).markApplied (Pg.ERG q))
    else s

/-- The engine is in decode (R133). -/
def State.engDecoding (s : State) (c : Nat) : Bool := s.engBusy c

/-- Engine c is away with Mirage. -/
def State.engAway (s : State) (c : Nat) : Bool := decide (s.est c = ES.LENT) || decide (s.est c = ES.RECALL)

/-- The safe point of an ERG page for the engines that are at their frame boundary. -/
def State.ergSafePoint (q : Nat) (s : State) : State :=
  forEach (List.range 4) (fun e s =>
    if s.engDecoding (4 * q + e) || s.engAway (4 * q + e) then s else s.ergTake (4 * q + e)) s

/-! ## Parking (R152) -/

/-- ROLE LIVE or POOL, not an alarm engine. -/
def State.parkable (s : State) (c : Nat) : Bool :=
  (decide (s.eget c ERG.ROLE = 1) || decide (s.eget c ERG.ROLE = 2)) && !s.isAlarm c

/-- Engine a is ranked above engine b: at L3 POOL engines come after every LIVE one; then the lower RANK value, then the
lower channel number. -/
def State.rankedAbove (s : State) (a b : Nat) : Bool :=
  let ra := s.eget a ERG.ROLE
  let rb := s.eget b ERG.ROLE
  let ka := s.eget a ERG.RANK
  let kb := s.eget b ERG.RANK
  if ra ≠ rb then decide (ra < rb) else if ka ≠ kb then decide (ka < kb) else decide (a < b)

/-- Engine c is to be parked at a level (R152). -/
def State.shouldPark (s : State) (level c : Nat) : Bool :=
  if s.parkable c = false ∨ level < 3 then false
  else if level = 3 then
    let others := channels.filter s.parkable
    decide (others.length / 2 ≤ (others.filter fun a => s.rankedAbove a c).length)
  else if level = 4 then
    if s.isLive c then
      let others := channels.filter fun a => s.parkable a && s.isLive a
      decide (64 ≤ (others.filter fun a => s.rankedAbove a c).length)
    else true
  else true

/-- Parks engine c. -/
def State.parkNow (c : Nat) (s : State) : State :=
  let s := (s.setEst c ES.PARKED).setEng c { Eng.idle with armed := none }
  (s.eevent c ERG.EV_PARK_CHANGE).event Pg.ERGX ERGX.EV_PARK_CHANGE

/-! ## Returning to HUNT -/

/-- An acknowledgement window that still waits for an engine takes engine c, back in HUNT before the acknowledgement window
opens (R207). -/
def State.armLate (c t : Nat) (s : State) : State :=
  match s.mac.wins.find? fun w => decide (w.engine = none) && decide (t < w.tEnd) && s.matches c w.port w.centre w.rate w.sync with
  | none => s
  | some w =>
    let s : State := { s with mac := { s.mac with wins := s.mac.wins.map fun x =>
      if x.queue = w.queue ∧ x.tag = w.tag then { x with engine := some c } else x } }
    s.setEng c { s.eng c with armed := some (w.queue, w.tag, w.robust) }

/-- Engine c ends its frame at tick `t`: back to HUNT or IDLE (NO_INPUT where its port has stopped), taking an armed set
(R133), parked where parking waited for this (R152), armed where a window waits (R207). -/
def State.toHunt (c t : Nat) (s : State) : State :=
  let e := s.eng c
  let s := s.setEng c { Eng.idle with armed := e.armed, parkDue := e.parkDue }
  let s := (s.setEst c (s.roleState c)).ergTake c
  if e.parkDue.isSome ∧ s.shouldPark s.level c then s.parkNow c
  else
    let s := s.setEng c { s.eng c with parkDue := none }
    if s.est c = ES.HUNT ∧ (s.eng c).armed = none then s.armLate c t else s

/-- The timebase tracks the mains or runs on at its last frequency, so that bins have a meaning. -/
def State.binsMean (s : State) : Bool := decide (s.tb = TB.LOCKED) || decide (s.tb = TB.HOLDOVER) || decide (s.tb = TB.NOMINAL)

/-! ## Marks on whole engines -/

/-- Engine c lies under a transmit mark at tick `t` (R90). -/
def State.underMark (s : State) (c t : Nat) : Bool :=
  s.txs.marks.any fun m =>
    let open_ : Bool := match m.stop with
      | some e => decide (t < e)
      | none => true
    decide (m.port = s.eget c ERG.PORT) && decide (m.start ≤ t) && open_
      && inGuardZone (s.eget c ERG.CENTRE) (s.eget c ERG.RATE) m.centre m.rate

/-- The windows of a blanking pin act on engine c (R143): it has the pin's bit set and lies on a routed port. -/
def State.blankPinHits (s : State) (c pin : Nat) : Bool :=
  let on := if pin = 0 then s.eget c ERG.BLANK0 else s.eget c ERG.BLANK1
  let ports := if pin = 0 then s.get Pg.ERGX ERGX.BLANK0_PORTS else s.get Pg.ERGX ERGX.BLANK1_PORTS
  decide (on = 1) && decide (bitOf ports (s.eget c ERG.PORT) = 1)

/-- A blanking window acts on engine c. -/
def State.blankHits (s : State) (c : Nat) (b : ErgBlank) : Bool := s.blankPinHits c b.pin

/-- Engine c is under an open blanking window (R143). -/
def State.underBlank (s : State) (c : Nat) : Bool := s.erg.blank.any fun b => b.stop.isNone && s.blankHits c b

/-! ## Trellis pool (R146 to R148) -/

/-- Decoder d's job. -/
def State.decoder (s : State) (d : Nat) : Option TJob := Tab.get (fun _ => none) s.trl.dec d

/-- The best waiting job: lowest rank, then oldest; replay jobs only while fewer than REPLAY_MAX are held (R146). -/
def bestJob (allowReplay : Bool) : List TJob → Option TJob
  | [] => none
  | j :: t =>
    let rest := bestJob allowReplay t
    if j.rank = 3 ∧ allowReplay = false then rest
    else match rest with
      | some k => if k.rank < j.rank ∨ (k.rank = j.rank ∧ k.since < j.since) then some k else some j
      | none => some j

/-- Removes the first occurrence of a job. -/
def dropJob (j : TJob) : List TJob → List TJob
  | [] => []
  | k :: t => if k = j then t else k :: dropJob j t

/-- A free decoder of a powered group takes the best waiting job (R146). -/
def State.trlTake (t : Nat) (s : State) : State :=
  let replays := (s.trl.dec.filter fun e => match e.2 with
    | some j => decide (j.rank = 3)
    | none => false).length
  match (List.range 16).find? fun d => s.domOn (128 + d / 4) && decide (s.decoder d = none) with
  | none => s
  | some d =>
    match bestJob (decide (replays < s.get Pg.TRL TRL.REPLAY_MAX)) s.trl.waiting with
    | none => s
    | some j =>
      let s : State := { s with trl := { s.trl with
        waiting := dropJob j s.trl.waiting, dec := Tab.set (fun _ => none) s.trl.dec d (some j)
        groupAt := Tab.set (fun _ => 0) s.trl.groupAt (d / 4) t } }
      let us := (t - j.since) * 1000 / 2048
      onlyIf (decide (j.rank = 1) && decide (s.get Pg.TRL TRL.ALARM_WAIT_MAX < us))
        (State.put Pg.TRL TRL.ALARM_WAIT_MAX (sat 16 us)) s

/-- The pool takes every job it can; a job that still waits wakes a further group (R147). The safe point of page TRL is a
job start. -/
def State.trlRun (t : Nat) (s : State) : State :=
  let s := s.safeAll Pg.TRL
  let s := (List.range 16).foldl (fun s _ => s.trlTake t) s
  if s.trl.waiting = [] then s
  else match (List.range 4).find? fun g => !s.domOn (128 + g) with
    | some g => (s.requestWake (128 + g)).event Pg.TRL TRL.EV_GROUP_WAKE
    | none => s

/-- A job enters the pool's queue (R146). -/
def State.trlPush (j : TJob) (t : Nat) (s : State) : State :=
  let s : State := { s with trl := { s.trl with waiting := s.trl.waiting ++ [j] } }
  let s := onlyIf (decide (256 < s.trl.waiting.length)) (State.event Pg.TRL TRL.EV_QUEUE_HIGH) s
  s.trlRun t

end Sys2Proof.Machine
end

