-- ==== Sys2Proof/Machine/Erase.lean ====
section
/-! DEFINITION. Erasures (06_erg_receive_array.md, R83, R90, R138, R139, R142, R143): which symbols of a received transmission carry
no information, live and in a replay of the ring (R176), and the maximum-likelihood test of the trellis decoders (R146). -/
namespace Sys2Proof.Machine

/-! ## Marks over a span of time -/

/-- The span from tick `a` up to, not including, `b` shares a tick with a marked span. -/
def meets (a b : Nat) (m : Nat × Nat) : Bool := decide (m.1 < b) && decide (a < m.2)

/-- What marks the symbols of one transmission: spans of ticks, and the noise map with the settings of the engine (R142). -/
structure Marks where
  spans : List (Nat × Nat)
  /-- The ticks from one to another, not included, lack a sample (R174). -/
  hole : Nat → Nat → Bool
  /-- The cell in use at a tick; one that is not VALID marks nothing. -/
  cell : Nat → Word
  rate : Nat
  /-- The frozen AGC reference in 1/16 dBFS. -/
  agc : Int
  /-- ERASE_SNR in 0.25 dB and IMPULSE_DB in 0.5 dB. -/
  eraseSnr : Int
  impulse : Nat

/-- 160 log10 of the engine width in kHz: ten times its logarithm in 1/16 dB, rounded down and up, for the four rates (W is 5,
10, 20 or 40 kHz). -/
def widthFloor (rate : Nat) : Int := [111, 160, 208, 256].getD rate 256
def widthCeil (rate : Nat) : Int := [112, 160, 209, 257].getD rate 257

/-- The cell SNR, AGC_REF less N_band, is below ERASE_SNR (R142), all in 1/16 dB: N_band is −n/8 dBFS plus 10 log10 W. -/
def Marks.quietCell (m : Marks) (w : Word) : Bool := decide (m.agc + 2 * (cellNoise w : Int) - 4 * m.eraseSnr < widthCeil m.rate)

/-- The error power of a symbol, in 1/16 dBFS, exceeds N_band by IMPULSE_DB (R142). -/
def Marks.impulseAt (m : Marks) (w : Word) (err : Int) : Bool :=
  decide (m.impulse ≠ 0) && decide (widthFloor m.rate < err + 2 * (cellNoise w : Int) - 8 * (m.impulse : Int))

/-- The symbol that lasts from tick `a` to `b` is erased. The matched-filter span of a symbol is taken as the symbol's own interval
(DEDUCED, log entry 129: the worked example of R83 has a mark of 10 ticks reach at most two symbols). -/
def Marks.erased (m : Marks) (a b : Nat) (err : BitVec 16) : Bool :=
  let w := m.cell ((a + b) / 2)
  m.spans.any (meets a b) || m.hole a b || (cellValid w && (m.quietCell w || m.impulseAt w err.toInt))

/-- Which of the `n` symbols from tick `start` on are erased; `errs` gives their error powers. -/
def Marks.flags (m : Marks) (start n : Nat) (errs : List (BitVec 16)) : List Bool :=
  (List.range n).map fun i => m.erased (start + i * symTicks m.rate) (start + (i + 1) * symTicks m.rate) (errs.getD i 0x8000)

/-- The soft values of `b` bits per symbol with every value of an erased symbol, and every one that is missing, an erasure
(R138, R139). -/
def eraseSoft (b : Nat) (flags : List Bool) (soft : List Nat) : List Nat :=
  (flags.zipIdx).flatMap fun e => (List.range b).map fun j => if e.1 then 8 else soft.getD (e.2 * b + j) 8

/-- The soft values with those at the listed positions lost (R148). -/
def loseSoft (lost : List Nat) (soft : List Nat) : List Nat := lost.foldl (fun l i => l.set i 8) soft

/-! ## Marks on a live engine -/

/-- The span of a transmit mark; one that lasts has no end yet. -/
def State.markSpan (s : State) (m : TxMark) : Nat × Nat := (m.start, m.stop.getD (s.time + markLife))

/-- Transmit marks over engine c (R90). -/
def State.txSpans (s : State) (c : Nat) : List (Nat × Nat) :=
  ((s.txs.marks ++ s.txs.past).filter fun m => decide (m.port = s.eget c ERG.PORT)
    && inGuardZone (s.eget c ERG.CENTRE) (s.eget c ERG.RATE) m.centre m.rate).map s.markSpan

/-- Blanking windows over engine c (R143): the engine reaches back at most 4 symbol periods before the pin edge. -/
def State.blankSpans (s : State) (c : Nat) : List (Nat × Nat) :=
  (s.erg.blank.filter (s.blankHits c)).map fun b =>
    (Nat.max b.start (b.edge - 4 * symTicks (s.eget c ERG.RATE)), b.stop.getD (s.time + markLife))

/-- The marks over the transmission that LIVE engine c receives: overload spans of its port (R83), transmit marks, blanking windows
and the noise-map cells that it has used. -/
def State.liveMarks (s : State) (c : Nat) : Marks :=
  { spans := (s.lptSt (s.eget c ERG.PORT)).marks ++ s.txSpans c ++ s.blankSpans c
    hole := fun _ _ => false
    cell := fun t => (((s.eng c).cells.find? fun e => decide (e.1 ≤ t)).map (·.2)).getD 0
    rate := s.eget c ERG.RATE, agc := signed 16 (s.eget c ERG.AGC_REF), eraseSnr := signed 8 (s.eget c ERG.ERASE_SNR)
    impulse := s.eget c ERG.IMPULSE_DB }

/-- Erased symbols of the `n` symbols that follow the sync word of engine c, from symbol `first` on. -/
def State.liveFlags (s : State) (c first n : Nat) (errs : List (BitVec 16)) : List Bool :=
  (s.liveMarks c).flags ((s.eng c).tSync + first * symTicks (s.eget c ERG.RATE)) n errs

/-- Counts erased symbols of engine c in ERASED_SYM_CNT (R139). -/
def State.countErased (c : Nat) (flags : List Bool) (s : State) : State :=
  s.countBy (Pg.ERG (c / 4)) (ERG.ERASED_SYM_CNT.nth (c % 4)) (flags.filter fun x => x).length

/-- Bit errors of 32 decisions, the last of which ends at `tSync`, against a sync word: those that differ, and those that a blanking
window takes away (R107, R143). -/
def syncErrors (sym : Nat) (spans : List (Nat × Nat)) (tSync word : Nat) (decisions : Word) : Nat :=
  ((List.range 32).filter fun i =>
    decide (bitOf decisions.toNat i ≠ bitOf word i)
      || spans.any (meets (tSync - (32 - i) * sym) (tSync - (31 - i) * sym))).length

/-- Engine c finds a sync word (R107): at most SYNC_TOL errors. -/
def State.syncMatch (s : State) (c tSync word : Nat) (decisions : Word) : Bool :=
  decide (syncErrors (symTicks (s.eget c ERG.RATE)) (s.blankSpans c) tSync word decisions ≤ s.eget c ERG.SYNC_TOL)

/-- Decisions and power are those of a cut (R127): at most 1 bit from S_cut, and at least 10 dB below the frozen AGC reference over
the 8 symbols that follow; `fall` is in 1/16 dB. -/
def cutMatch (sync : Nat) (decisions : Word) (fall : Nat) : Bool :=
  decide (hamming32 decisions.toNat (syncCut sync) ≤ 1) && decide (160 ≤ fall)

/-- The noise-map cell that engine c reads at tick `t` as it marks symbols: a cell without VALID where the map makes no marks
(R142). -/
def State.markCell (s : State) (c t : Nat) : Word :=
  let w := s.cell (cellIndex (s.eget c ERG.PORT) (zoneOf (s.eget c ERG.CENTRE)) (s.binAt t))
  if s.binsMean ∧ s.eget c ERG.NMAP_ERASE = 1 ∧ s.cellUsable w = true then w else 0

/-- Engine c uses the cell of its present bin from tick `t` on. -/
def State.noteCell (c t : Nat) (s : State) : State :=
  s.setEng c { s.eng c with cells := (t, s.markCell c t) :: (s.eng c).cells }

/-! ## Marks in a replay of the ring (R174, R176) -/

/-- A record of the side log: tick, kind, port, DATA and SPAN. -/
def State.sideAt (s : State) (base i : Nat) : Nat × Nat × Nat × Nat × Nat :=
  let a := base + 16 * i
  let hi := (s.dramWord (a + 4)).toNat
  ((s.dramWord a).toNat + 2 ^ 32 * (hi % 65536), hi / 65536 % 16, hi / 2 ^ 20 % 16, (s.dramWord (a + 8)).toNat,
   (s.dramWord (a + 12)).toNat)

/-- The records that the side log holds. -/
def State.sideRecords (s : State) : List (Nat × Nat × Nat × Nat × Nat) :=
  match s.regionOf 9 with
  | none => []
  | some r => (List.range (Nat.min s.mir.sideCnt s.sideCap)).map (s.sideAt (s.regionBase r))

/-- A band shares more than an edge with a zone given by its edges in 250 Hz units. -/
def bandInZone (centre rate lo hi : Nat) : Bool :=
  decide (centre < hi + widthUnits rate / 2) && decide (lo < centre + widthUnits rate / 2)

/-- The span that a GAIN record with OVERLOAD marks on a port (R83). -/
def sideOverload (port : Nat) (e : Nat × Nat × Nat × Nat × Nat) : Option (Nat × Nat) :=
  let (tick, kind, p, data, span) := e
  if kind = SideKind.GAIN ∧ p = port ∧ bitOf data 3 = 1 then some (tick - span, tick + data / 256 % 256) else none

/-- The span of a transmit mark over a channel (R90). -/
def sideTx (port centre rate : Nat) (e : Nat × Nat × Nat × Nat × Nat) : Option (Nat × Nat) :=
  let (tick, kind, p, data, span) := e
  if kind = SideKind.TX_MARK ∧ p = port ∧ bandInZone centre rate (data % 2048) (data / 65536 % 2048) = true then
    some (tick, tick + span)
  else none

/-- The span of a blanking window of a pin in `pins`, reaching back at most 4 symbol periods before the pin edge, which stands
`guard` ticks after the window's start (R143). -/
def sideBlank (rate pins : Nat) (guard : Nat → Nat) (e : Nat × Nat × Nat × Nat × Nat) : Option (Nat × Nat) :=
  let (tick, kind, _, data, span) := e
  if kind = SideKind.BLANK ∧ bitOf pins (data % 2) = 1 then
    some (Nat.max tick (tick + guard (data % 2) - 4 * symTicks rate), tick + span)
  else none

/-- Sample of port p at a recorded tick. -/
def State.ringCode (s : State) (p tick : Nat) : Nat :=
  match s.regionOf 7, s.slabOf tick with
  | some r, some m =>
    let a := s.regionBase r + m * 65536 + p * 4096 + 2 * (tick % 2048)
    (s.dramWord (a / 4 * 4)).toNat / 2 ^ (8 * (a % 4)) % 65536
  | _, _ => 0x8000

/-- A tick from `a` to `b` (not included) holds no sample: 0x8000 stands for one that was lost (R174). -/
def State.ringHole (s : State) (p a b : Nat) : Bool :=
  (List.range (b - a)).any fun i => decide (s.ringCode p (a + i) = 0x8000)

/-! ## The trellis decoders (R146)

A decoder finds the field whose coded bits agree best with the soft values, over the 64 states of the encoder of R111. -/

/-- Worth of one coded bit against its soft value: +7 is the strongest 0, −7 the strongest 1, an erasure or a punctured
position none (R139). -/
def softWorth (bit soft : Nat) : Int :=
  if soft = 8 then 0 else if bit = 0 then signed 4 soft else - signed 4 soft

/-- The soft values in the order of the coded bits, and padded with erasures (R113): the interleaver of 16 rows and K columns
undone. -/
def deinterleave (k c : Nat) (soft : List Nat) : List Nat :=
  (List.range c).map fun i => soft.getD (i % 16 * k + i / 16) 8

/-- Soft values of the mother code's bits A and B per encoder input (R112): a punctured position counts as an erasure. -/
def depunctureFrom (code : Nat) : Nat → Nat → List Nat → List (Nat × Nat)
  | 0, _, _ => []
  | n + 1, i, l =>
    let a := l.headD 8
    let b := (l.drop 1).headD 8
    match code, i % 6 with
    | 0, _ => (a, b) :: depunctureFrom code n (i + 1) (l.drop 2)
    | 1, k => if k % 2 = 0 then (a, b) :: depunctureFrom code n (i + 1) (l.drop 2)
              else (a, 8) :: depunctureFrom code n (i + 1) (l.drop 1)
    | _, k => if k % 3 = 0 then (a, b) :: depunctureFrom code n (i + 1) (l.drop 2)
              else if k % 3 = 1 then (a, 8) :: depunctureFrom code n (i + 1) (l.drop 1)
              else (8, a) :: depunctureFrom code n (i + 1) (l.drop 1)

/-- Decoder inputs of a data field of N bytes: M pairs of soft values. -/
def decoderInput (mod code n : Nat) (soft : List Nat) : List (Nat × Nat) :=
  let m := 8 * n + tailLen code n
  let c := codedLen code m
  depunctureFrom code m 0 (deinterleave (columns mod c) c soft)

/-- Worth of a sequence of coded bit pairs. -/
def pathWorth : List (Nat × Nat) → List (Nat × Nat) → Int
  | (a, b) :: t, (x, y) :: u => softWorth a x + softWorth b y + pathWorth t u
  | _, _ => 0

/-- One step of the 64-state search: the best worth with which each state of the encoder is reached, none for a state that is
not; in the tail only inputs of 0 are taken. -/
def viterbiStep (tail : Bool) (worth : List (Option Int)) (soft : Nat × Nat) : List (Option Int) :=
  (List.range 64).map fun h =>
    let x := h % 2
    if tail ∧ x = 1 then none
    else [h / 2, h / 2 + 32].foldl (fun best old =>
      match worth.getD old none, convFrom old [x] with
      | some w, (a, b) :: _ =>
        let v := w + softWorth a soft.1 + softWorth b soft.2
        (match best with
          | some z => if z < v then some v else some z
          | none => some v)
      | _, _ => best) none

/-- The best worth of any `m` bits, from the all-zero state and back to it over the tail of zeros (R111, R112). -/
def bestWorth (m : Nat) (input : List (Nat × Nat)) : Option Int :=
  let body := (input.take m).foldl (viterbiStep false) (some 0 :: List.replicate 63 none)
  ((input.drop m).foldl (viterbiStep true) body).getD 0 none

/-- Worth of a field against the decoder's inputs. -/
def fieldWorth (code : Nat) (field : List Byte) (input : List (Nat × Nat)) : Int :=
  pathWorth (convFrom 0 (scramble (byteBits field) ++ List.replicate (tailLen code field.length) 0)) input

/-- A field that a decoder may answer for the soft values of a header's data field: no other field agrees better with them. Which
of several equally good ones it is, the spec leaves open. -/
def bestField (h : PhyHeader) (soft : List Nat) (field : List Byte) : Bool :=
  let input := decoderInput h.mod h.code h.length soft
  decide (field.length = h.length) && (match bestWorth (8 * h.length) input with
    | some w => decide (w ≤ fieldWorth h.code field input)
    | none => true)

end Sys2Proof.Machine
end

