-- ==== Sys2Proof/Machine/Replay.lean ====
section
/-! DEFINITION. Mirage replay (08_mirage_replay.md, R178 to R191 and R196): the phase of past instants (R78), combine slots and
the search for earlier copies (R182 to R185), the queue of replay jobs (R178, R179), loans (R149, R180, R181), combining (R186,
R187), and diagnostic replay. -/
namespace Sys2Proof.Machine

/-! ## Phase of a past instant (R78, R183) -/

/-- Walks the timebase log back from record `k`, whose cycle ends at `next`, to the cycle that holds tick `t`: its start, its
length and its count. Records further apart than two nominal cycles do not bound one cycle: the timebase was OFF between. -/
def State.cycleBack (s : State) (r t : Nat) : Nat → Nat → Nat → Option (Nat × Nat × Nat)
  | 0, _, _ => none
  | fuel + 1, k, next =>
    let rec_ := s.logRecord r k
    if rec_.1 = 0 then none
    else if rec_.1 ≤ t then
      (if next - rec_.1 ≤ 2 * (phiCycle / Nat.max 1 s.tbNominal) then some (rec_.1, next - rec_.1, rec_.2) else none)
    else State.cycleBack s r t fuel ((k + 131071) % 131072) rec_.1

/-- The mains cycle that holds tick `t`: start, length and count, read from the timebase log; the present cycle and later
ones follow the clock's frequency. None where the timebase was OFF. -/
def State.cycleAt (s : State) (t : Nat) : Option (Nat × Nat × Nat) :=
  match s.regionOf regionTimebaseLog with
  | none => none
  | some r =>
    let k := (s.get Pg.MTB MTB.LOG_HEAD + 131071) % 131072
    let last := s.logRecord r k
    if last.1 = 0 then none
    else if last.1 ≤ t then
      if s.tb = TB.OFF then none
      else
        let len := s.cycleTicks
        let m := (t - last.1) / Nat.max 1 len
        some (last.1 + m * len, len, last.2 + m)
    else s.cycleBack r t 131072 ((k + 131071) % 131072) last.1

/-- The logged cycle that holds tick `t`: start, length and count, both its start and the next being in the log (R78). -/
def State.loggedCycle (s : State) (t : Nat) : Option (Nat × Nat × Nat) :=
  match s.regionOf regionTimebaseLog with
  | none => none
  | some r =>
    let k := (s.get Pg.MTB MTB.LOG_HEAD + 131071) % 131072
    let last := s.logRecord r k
    if last.1 = 0 ∨ last.1 ≤ t then none else s.cycleBack r t 131072 ((k + 131071) % 131072) last.1

/-- The phase at a past instant: the interpolation of R78, or the free phase of R74 where the log covers none. -/
def State.pastPhase (s : State) (t : Nat) : Nat :=
  match s.cycleAt t with
  | some (a, len, _) => 65536 * (t - a) / Nat.max 1 len % 65536
  | none => s.freeCounts t % 65536

/-- MAINS_TIME of a past instant (R78, R188). -/
def State.pastMains (s : State) (t : Nat) : Nat × Nat :=
  match s.cycleAt t with
  | some (_, _, c) => (c % 2 ^ 32, s.pastPhase t)
  | none => (s.get Pg.MTB MTB.CYCLE, s.pastPhase t)

/-- The first tick at which the free phase count reaches `c`. -/
def State.freeTick (s : State) (c : Nat) : Nat := ceilDiv (c * 2048000) (Nat.max 1 (s.tbNominal / 65536) * 65536)

/-- The latest instant at or before `limit` with a given phase, and whether the log covers it (R183 step 5). -/
def State.lastWith (s : State) (target limit : Nat) : Nat × Bool :=
  let free :=
    let here := s.freeCounts limit
    (s.freeTick (here - (here + 65536 - target) % 65536), false)
  match s.cycleAt limit with
  | none => free
  | some (a, len, _) =>
    let x := a + ceilDiv (target * len) 65536
    if x ≤ limit then (x, true)
    else match s.cycleAt (a - 1) with
      | none => free
      | some (b, len, _) => (b + ceilDiv (target * len) 65536, true)

/-- The first instant at or after `from_` with a given phase (R76). -/
def State.nextWith (s : State) (target from_ : Nat) : Nat :=
  match s.cycleAt from_ with
  | none =>
    let here := s.freeCounts from_
    s.freeTick (here + (target + 65536 - here % 65536) % 65536)
  | some (a, len, _) =>
    let x := a + ceilDiv (target * len) 65536
    if from_ ≤ x then x
    else match s.cycleAt (a + len) with
      | none => a + len + ceilDiv (target * len) 65536
      | some (b, len, _) => b + ceilDiv (target * len) 65536

/-! ## Predicted copies (R183) -/

/-- What R183 predicts of a run from copy k. -/
structure RunGuess where
  n : Nat
  k : Nat
  pEst : Nat
  tCopy : Nat
  /-- Phase of copy 0. -/
  p0 : Nat
  /-- t0 of copies k, k − 1, …, 0 in this order, and whether the log covers each instant. -/
  starts : List (Nat × Bool)
deriving DecidableEq, Repr

/-- t0 of copies j, j − 1, …, 0, where copy j + 1 starts at `next` (R183 step 5). -/
def State.startsBefore (s : State) (p0 spread tCopy : Nat) : Nat → Nat → List (Nat × Bool)
  | 0, _ => []
  | j + 1, next =>
    let x := s.lastWith ((p0 + j * spread) % 65536) (next - tCopy - ticks1ms)
    x :: State.startsBefore s p0 spread tCopy j x.1

/-- The prediction of R183 from a decided header; none for a single copy. -/
def State.runGuess (s : State) (rate word tSync tPre : Nat) : Option RunGuess :=
  let h := PhyHeader.ofWord word
  let n := runCopies h.rep
  if n = 1 then none
  else
    let sym := symTicks rate
    let pEst := Nat.max 16 ((tSync - tPre + sym / 2) / sym - 32)
    let tCopy := (pEst + 352 + dataSymbols h.mod h.code h.length) * sym
    let t0 := tSync - (pEst + 32) * sym
    let k := h.copyIndex
    let spread := 65536 / n
    let p0 := (s.pastPhase t0 + 65536 - k * spread % 65536) % 65536
    some ⟨n, k, pEst, tCopy, p0, (t0, (s.cycleAt t0).isSome) :: s.startsBefore p0 spread tCopy k t0⟩

/-- t0 of copy j of a prediction. -/
def RunGuess.t0 (g : RunGuess) (j : Nat) : Nat := (g.starts.getD (g.k - j) (0, false)).1

/-- End of the final copy, following R76 forward from copy k. -/
def State.endAfter (s : State) (p0 spread tCopy : Nat) : Nat → Nat → Nat → Nat
  | 0, _, t0 => t0 + tCopy
  | fuel + 1, k, t0 =>
    State.endAfter s p0 spread tCopy fuel (k + 1) (s.nextWith ((p0 + (k + 1) * spread) % 65536) (t0 + tCopy + ticks1ms))

/-- End of the run's final copy (R118, R187). -/
def State.runEnd (s : State) (g : RunGuess) : Nat :=
  s.endAfter g.p0 (65536 / g.n) g.tCopy (g.n - 1 - g.k) g.k (g.t0 g.k)

/-- SEARCH_WIN_US in ticks. -/
def State.searchWin (s : State) : Nat := usTicks (s.get Pg.MIR MIR.SEARCH_WIN_US)

/-- The window of copy j (R183, R184): widened by a mains period on both sides where the timebase was OFF, and to the side
of the alternative where the slack leaves one. -/
def State.copyWindow (s : State) (g : RunGuess) (j : Nat) : Nat × Nat :=
  let w := s.searchWin
  let cyc := s.cycleTicks
  let slack := g.t0 (j + 1) - g.t0 j - g.tCopy - ticks1ms
  let off := if g.starts.any (fun x => !x.2) then cyc else 0
  let before := if slack < w then cyc else 0
  let after := if cyc < slack + w then cyc else 0
  (g.t0 j - w - before - off, g.t0 j + g.tCopy + w + after + off)

/-! ## Jobs on engines (R181) -/

/-- Kinds of replay jobs. -/
def RK.REPEAT : Nat := 1
def RK.PLAIN : Nat := 2
def RK.WIDE : Nat := 3
def RK.DIAG : Nat := 4

/-- The job that runs on engine c. -/
def State.runningJob (s : State) (c : Nat) : Option RJob := Tab.get (fun _ => none) s.mir.running c

/-- Replaces the job that runs on engine c. -/
def State.setRunning (c : Nat) (j : Option RJob) (s : State) : State :=
  { s with mir := { s.mir with running := Tab.set (fun _ => none) s.mir.running c j } }

/-- A slab lies in the window of a job that runs or waits to resume. -/
def State.slabHeldBy (s : State) (slab : Nat) : Bool :=
  let in_ := fun (j : RJob) => decide (slab * slabTicks < j.stop) && decide (j.start < (slab + 1) * slabTicks)
  s.mir.running.any (fun e => match e.2 with
    | some j => in_ j
    | none => false) || s.mir.jobs.any fun j => decide (j.speed ≠ 0) && in_ j

/-- The slabs of an ended job are held no longer, but for those that another running job holds (R181). -/
def State.unhold (j : RJob) (s : State) : State :=
  s.modDir j.start j.stop fun e => dirSetHeld (s.slabHeldBy (dirSlab e)) e

/-- A queued job that had started, and will not go on, holds its slabs no longer (R181). -/
def State.letGo (j : RJob) (s : State) : State := if j.speed = 0 then s else s.unhold j

/-! ## Slots (R182, R187) -/

/-- Combine slot i. -/
def State.slot (s : State) (i : Nat) : Option Slot := Tab.get (fun _ => none) s.mir.slots i

/-- Replaces combine slot i. -/
def State.setSlot (i : Nat) (x : Option Slot) (s : State) : State :=
  { s with mir := { s.mir with slots := Tab.set (fun _ => none) s.mir.slots i x } }

/-- Combine slots in use. -/
def State.slotsUsed (s : State) : Nat := s.mir.slots.length

/-- MODE byte of a header as slots keep it: REP 2 and 3 are one mode (R117, R182). -/
def slotMode (word : Nat) : Nat :=
  let h := PhyHeader.ofWord word
  h.rate + 4 * h.mod + 16 * h.code + 64 * (if h.rep = 3 then 2 else h.rep)

/-- The slot that holds a run (R182). -/
def State.slotFor (s : State) (eng word t0 : Nat) : Option Nat :=
  let w := s.searchWin
  (List.find? (fun e => match e.2 with
    | some x => decide (x.eng = eng) && decide (x.mode = slotMode word) && decide (x.length = (PhyHeader.ofWord word).length)
        && decide (x.t0 ≤ t0 + w) && decide (t0 ≤ x.t0 + w)
    | none => false) s.mir.slots).map (·.1)

/-- Cancels the queued jobs of a slot and ends its running ones at their next block boundary (R182). -/
def State.cancelSlotJobs (i : Nat) (s : State) : State :=
  let gone := s.mir.jobs.filter fun j => decide (j.slot = some i)
  let s : State := { s with mir := { s.mir with
    jobs := s.mir.jobs.filter fun j => decide (j.slot ≠ some i)
    running := s.mir.running.map fun e => (e.1, e.2.map fun j =>
      if j.slot = some i then { j with ending := true, slot := none } else j) } }
  forEach gone State.letGo s

/-- The run of a slot is delivered: the slot is free and its jobs end (R182, R187). -/
def State.slotDelivered (i : Nat) (s : State) : State := (s.cancelSlotJobs i).setSlot i none

/-- Frees a slot whose run was never delivered (R187). -/
def State.slotFailed (i : Nat) (s : State) : State := (s.slotDelivered i).count Pg.MIR MIR.COMBINE_FAIL_CNT

/-- One second in ticks. -/
def ticks1s : Nat := 2048000

/-- The slot in use whose final copy ended longest ago. -/
def State.oldestSlot (s : State) : Option (Nat × Nat) :=
  s.mir.slots.foldl (fun best e => match e.2 with
    | none => best
    | some x => match best with
      | some (i, stop) => if x.finalEnd < stop then some (e.1, x.finalEnd) else some (i, stop)
      | none => some (e.1, x.finalEnd)) none

/-- A slot for a new run at tick `t`: a free one, else the one whose final copy ended longest ago, at least 1 s earlier;
SLOT_FULL where there is none (R187). -/
def State.takeSlot (x : Slot) (t : Nat) (s : State) : Option Nat × State :=
  match (List.range 512).find? fun i => decide (s.slot i = none) with
  | some i => (some i, s.setSlot i (some x))
  | none =>
    match s.oldestSlot with
    | some (i, stop) =>
      if stop + ticks1s ≤ t then (some i, (s.slotFailed i).setSlot i (some x))
      else (none, (s.count Pg.MIR MIR.SLOT_FULL_CNT).event Pg.MIR MIR.EV_SLOT_FULL)
    | none => (none, s)

/-! ## Jobs (R178, R179, R191) -/

/-- Instant of the acknowledgement after a run that ends at `stop` (R118). -/
def ackInstant (stop : Nat) : Nat := stop + 2 * ticks1ms

/-- Rank of a job at tick `t` (R178): a REPEAT job stands at rank 1 while its run's acknowledgement instant is ahead. -/
def State.jobRank (s : State) (j : RJob) (t : Nat) : Nat :=
  if j.kind = RK.REPEAT then
    match j.slot with
    | some i => match s.slot i with
      | some x => if t < ackInstant x.finalEnd then 1 else 2
      | none => 2
    | none => 2
  else j.rank

/-- The diagnostic order ends with a result (R196). -/
def State.diagEnd (result : Nat) (s : State) : State :=
  ((s.put Pg.MIR MIR.DIAG_STATE 3).put Pg.MIR MIR.RESULT result).event Pg.MIR MIR.EV_DIAG_DONE

/-- A job ends as RING_LOST (R191): causes 0 OVERWRITTEN, 1 NOT_RECORDED, 2 QUEUE_FULL. -/
def State.ringLost (j : RJob) (cause : Nat) (s : State) : State :=
  let s := (s.event Pg.MIR MIR.EV_RING_LOST).count Pg.MIR MIR.RING_LOST_CNT
  let s := ((s.put Pg.MIR MIR.LAST_LOST_ENGINE j.eng).put Pg.MIR MIR.LAST_LOST_KIND j.kind).put Pg.MIR
    MIR.LAST_LOST_CAUSE cause
  let s := (s.put Pg.MIR MIR.LOST_TIME_LO j.start).put Pg.MIR MIR.LOST_TIME_HI (j.start / 2 ^ 32)
  onlyIf (decide (j.kind = RK.DIAG)) (State.diagEnd 2) s

/-- A queued job takes a new one in (R179): same channel, a window that covers the new one, and the same kind, or a REPEAT
window over a PLAIN or WIDE job. R179 does not say that jobs of other kinds merge: that a PLAIN window leaves a WIDE job queued,
a WIDE one a PLAIN job, and either a REPEAT job, is a DESIGN CHOICE (log entry 138). -/
def covers (q j : RJob) : Bool :=
  decide (q.port = j.port) && decide (q.centre = j.centre) && decide (q.rate = j.rate) && decide (q.sync = j.sync)
    && decide (q.start ≤ j.start) && decide (j.stop ≤ q.stop) && decide (j.kind ≠ RK.DIAG)
    && (decide (q.kind = j.kind) || (decide (q.kind = RK.REPEAT) && (decide (j.kind = RK.PLAIN) || decide (j.kind = RK.WIDE))))

/-- The queued job with the oldest window start. -/
def oldestJob : List RJob → Option RJob
  | [] => none
  | j :: t => match oldestJob t with
    | some k => if k.start < j.start then some k else some j
    | none => some j

/-- Jobs that the queue holds (R179). -/
def jobQueueMax : Nat := 262144

/-- Removes a job from the queue. -/
def State.unqueue (j : RJob) (s : State) : State :=
  { s with mir := { s.mir with jobs := s.mir.jobs.filter fun q => decide (q.id ≠ j.id) } }

/-- Queues a job: a full queue first loses the job with the oldest window start (R179). -/
def State.enqueue (j : RJob) (s : State) : State :=
  let s := if s.mir.jobs.length < jobQueueMax then s
    else match oldestJob s.mir.jobs with
      | some o => ((s.unqueue o).letGo o).ringLost o 2
      | none => s
  let s : State := { s with mir := { s.mir with jobs := s.mir.jobs ++ [{ j with id := s.mir.nextJob }]
                                                nextJob := s.mir.nextJob + 1 } }
  onlyIf (decide (131072 < s.mir.jobs.length)) (State.event Pg.MIR MIR.EV_JOBQ_HIGH) s

/-- Filing of a kind is on (R178). -/
def State.kindOn (s : State) (kind : Nat) : Bool :=
  match kind with
  | 1 => s.flag Pg.MIR MIR.REPEAT_EN
  | 2 => s.flag Pg.MIR MIR.PLAIN_EN
  | 3 => s.flag Pg.MIR MIR.WIDE_EN
  | _ => true

/-- Files a job (R178, R179): nothing while its kind or Mirage is off; merged into a queued job that covers it; else queued
and counted by kind. -/
def State.fileJob (j : RJob) (s : State) : State :=
  if s.kindOn j.kind = false ∨ s.enabled Pg.MIR = false ∨ s.domOn 141 = false then s
  else if s.mir.jobs.any (fun q => covers q j) then s.count Pg.MIR MIR.MERGED_CNT
  else
    let s := s.enqueue j
    match j.kind with
    | 1 => s.count Pg.MIR MIR.REPEAT_JOBS
    | 2 => s.count Pg.MIR MIR.PLAIN_JOBS
    | 3 => s.count Pg.MIR MIR.WIDE_JOBS
    | _ => s

/-- A job with the settings of engine c (R178). -/
def State.engineJob (s : State) (c kind rank start stop : Nat) : RJob :=
  { id := 0, rank := rank, kind := kind, eng := c, port := s.eget c ERG.PORT, centre := s.eget c ERG.CENTRE
    rate := s.eget c ERG.RATE, sync := s.eget c ERG.SYNC_WORD
    tol := if kind = RK.WIDE then s.get Pg.MIR MIR.WIDE_TOL else s.eget c ERG.SYNC_TOL
    wide := decide (kind = RK.WIDE) || decide (s.eget c ERG.TIMING = 1), start := start, stop := stop, slot := none, copy := 0
    doneTo := start, ending := false, speed := 0, ring := 0, dump := none, pdThresh := s.eget c ERG.PD_THRESH
    nmap := decide (s.eget c ERG.NMAP_ERASE = 1), eraseSnr := signed 8 (s.eget c ERG.ERASE_SNR)
    impulse := s.eget c ERG.IMPULSE_DB, blank := s.eget c ERG.BLANK0 + 2 * s.eget c ERG.BLANK1 }

/-- Files the report of engine c for a transmission that it saw from T_PRE on (R148, R151: PLAIN; R136: WIDE). -/
def State.fileReport (c kind tPre : Nat) (s : State) : State :=
  let sym := symTicks (s.eget c ERG.RATE)
  s.fileJob (s.engineJob c kind (kind + 1) (tPre - sym) (tPre + msTicks (s.get Pg.MIR MIR.WIDE_SPAN_MS)))

/-- Files the REPEAT job of copy j of a slot's run, with the settings of `base`, and notes that the copy is searched (R182, R184). -/
def State.fileRepeat (base : RJob) (i : Nat) (g : RunGuess) (j : Nat) (s : State) : State :=
  match s.slot i with
  | none => s
  | some x =>
    if s.kindOn RK.REPEAT = false ∨ x.held.any (fun h => decide (h.1 = j)) = true ∨ j ∈ x.searched then s
    else
      let w := s.copyWindow g j
      let s := s.setSlot i (some { x with searched := x.searched ++ [j] })
      s.fileJob { base with start := w.1, stop := w.2, doneTo := w.1, slot := some i, copy := j }

/-- A header decision for a copy of a run (R182): opens a combine slot unless one holds the run, and files REPEAT jobs for
the copies below k, with the settings of `base`; answers the slot. -/
def State.openRun (base : RJob) (word tSync tPre t : Nat) (s : State) : Option Nat × State :=
  match s.runGuess base.rate word tSync tPre with
  | none => (none, s)
  | some g =>
    let (i, s) := match s.slotFor base.eng word (g.t0 0) with
      | some i => (some i, s)
      | none => s.takeSlot ⟨base.eng, slotMode word, (PhyHeader.ofWord word).length, g.n, g.t0 0, g.pEst, g.tCopy, [], [], 0,
          s.runEnd g⟩ t
    match i with
    | none => (none, s)
    | some i => (some i, forEach (List.range g.k) (fun j s => s.fileRepeat base i g (g.k - 1 - j)) s)

/-- The slot of the run of a header already decided (R182). -/
def State.runSlot (s : State) (c word tSync tPre : Nat) : Option Nat :=
  match s.runGuess (s.eget c ERG.RATE) word tSync tPre with
  | some g => s.slotFor c word (g.t0 0)
  | none => none

/-- A copy enters a slot (R185, R186); a copy index already held stays as it is. -/
def State.slotCopy (i k : Nat) (soft : List Nat) (snr : Int) (tSync tPre : Nat) (ring : Bool) (s : State) : State :=
  match s.slot i with
  | none => s
  | some x =>
    if x.held.any (fun h => decide (h.1 = k)) then s
    else s.setSlot i (some { x with held := x.held ++ [(k, soft, snr, tSync, tPre, ring)], lastSnr := snr })

/-! ## Loans (R149, R180, R181) -/

/-- Engines LENT or in RECALL. -/
def State.lentCount (s : State) : Nat := (channels.filter s.engAway).length

/-- A POOL engine waits. -/
def State.poolIdle (s : State) : Bool := channels.any fun c => decide (s.eget c ERG.ROLE = 2) && decide (s.est c = ES.IDLE)

/-- Engine c may be lent (R149): POOL engines first. -/
def State.lendable (s : State) (c : Nat) : Bool :=
  s.flag Pg.ERGX ERGX.LEND_EN && decide (s.lentCount < s.get Pg.ERGX ERGX.LEND_LIMIT)
    && ((decide (s.eget c ERG.ROLE = 2) && decide (s.est c = ES.IDLE))
      || (s.isLive c && decide (s.est c = ES.HUNT) && !s.isAlarm c && decide (s.eget c ERG.LEND_OK = 1) && !s.poolIdle))

/-- Speed of a job at present: its SPEED, capped at 16 in sprint at L0 and at 8 otherwise (R180). -/
def State.speedNow (s : State) (j : RJob) : Nat :=
  Nat.min j.speed (if s.flag Pg.OAS OAS.SPRINT ∧ s.level = 0 then 16 else 8)

/-- Asks for the credit of the next block of the job on engine c (R180, R282). -/
def State.askBlock (c : Nat) (j : RJob) (t : Nat) (s : State) : State :=
  s.addJob (.replay c) (if s.jobRank j t = 1 then 1 else 3) (s.speedNow j * (s.cost 5 + s.cost 6)) t

/-- The window of a job has been passed by the writer, or will not be recorded any more. -/
def State.windowPast (s : State) (j : RJob) : Bool :=
  decide (j.stop ≤ s.mir.nextSlab) || (!s.recording && decide (j.stop ≤ s.time))

/-- The next job to be served at tick `t` (R178, R179). -/
def State.nextReplay (s : State) (t : Nat) : Option RJob :=
  (s.mir.jobs.filter s.windowPast).foldl (fun best j => match best with
    | none => some j
    | some b =>
      let rb := s.jobRank b t
      let rj := s.jobRank j t
      if rj < rb ∨ (rj = rb ∧ j.start < b.start) then some j else some b) none

/-- A window falls in a gap of the recording: one of the side log, a slab whose entry was lost to an uncorrectable error (R417), or
what the writer has not written. -/
def State.inGap (s : State) (a b : Nat) : Bool :=
  decide (s.mir.nextSlab < b)
    || s.mir.lostSlabs.any (fun n => meets a b (n * slabTicks, (n + 1) * slabTicks))
    || s.sideRecords.any fun e => decide (e.2.1 = SideKind.GAP) && meets a b (e.1, e.1 + e.2.2.2.2)

/-- Why a job does not start (R181): 0 OVERWRITTEN, 1 NOT_RECORDED; a job that resumes holds its slabs. -/
def State.jobGone (s : State) (j : RJob) : Option Nat :=
  if j.speed ≠ 0 then none
  else if s.oldestTick ≤ j.start ∧ s.spanRecorded j.start j.stop = true then none
  else if s.inGap j.start j.stop then some 1
  else some 0

/-- REPLAY_JOB_START: the next queued job starts on engine c, holding its slabs, or ends where its window is gone. -/
def State.replayStart (t c : Nat) (s : State) : State :=
  if s.domOn 141 = false ∨ 2 ≤ s.level ∨ s.lendable c = false then s
  else match s.nextReplay t with
    | none => s
    | some j =>
      let s := s.unqueue j
      match s.jobGone j with
      | some cause => if j.kind = RK.REPEAT then s.count Pg.MIR MIR.COPY_MISSING_CNT else s.ringLost j cause
      | none =>
        let j : RJob := if j.speed ≠ 0 then j else
          { j with speed := s.get Pg.MIR MIR.SPEED, tol := if j.kind = RK.WIDE then s.get Pg.MIR MIR.WIDE_TOL else j.tol }
        let s := (s.modDir j.start j.stop (dirSetHeld true)).setRunning c (some j)
        let s := onlyIf (decide (j.kind = RK.DIAG)) (State.put Pg.MIR MIR.DIAG_STATE 2) s
        (s.setEst c ES.LENT).askBlock c j t

/-- REPLAY_JOB_START. -/
def execReplayJobStart (t : Nat) (eng : Fin 256) (s : State) : Res := finish ((s.atTick t).replayStart t eng.val)

/-! ## What a replay engine finds (R176, R178)

A replay engine applies the marks of the side log and the noise map of the present as a live engine applies its own. -/

/-- Blanking pins that act on the port of a job (R143). -/
def State.jobPins (s : State) (j : RJob) : Nat :=
  j.blank &&& (bitOf (s.get Pg.ERGX ERGX.BLANK0_PORTS) j.port + 2 * bitOf (s.get Pg.ERGX ERGX.BLANK1_PORTS) j.port)

/-- Blanking windows and transmit marks of the side log over a job's channel. -/
def State.jobBlanks (s : State) (j : RJob) : List (Nat × Nat) := s.sideRecords.filterMap (sideBlank j.rate (s.jobPins j) s.preGuard)
def State.jobTx (s : State) (j : RJob) : List (Nat × Nat) := s.sideRecords.filterMap (sideTx j.port j.centre j.rate)

/-- The noise-map cell of a job's channel at a past instant: the map as it stands, for the phase bin of R78; none where the log
covers no cycle. -/
def State.pastCell (s : State) (j : RJob) (t : Nat) : Word :=
  let w := s.cell (cellIndex j.port (zoneOf j.centre) (s.pastPhase t / 1024))
  if j.nmap ∧ (s.cycleAt t).isSome ∧ s.cellUsable w = true then w else 0

/-- The marks over a transmission that a job replays. -/
def State.jobMarks (s : State) (j : RJob) (agc : Int) : Marks :=
  { spans := s.sideRecords.filterMap (sideOverload j.port) ++ s.jobTx j ++ s.jobBlanks j, hole := s.ringHole j.port
    cell := s.pastCell j, rate := j.rate, agc := agc, eraseSnr := j.eraseSnr, impulse := j.impulse }

/-- Symbol rate in Hz. -/
def symbolRate (rate : Nat) : Nat := 2048000 / symTicks rate

/-- The settings of a job admit a find: its preamble was detected outside transmit marks and blanking windows (R90, R143) with a
correlation of at least PD_THRESH, a WIDE job within its carrier search of ±0.1 × Rs (R178), and its decisions match the sync word
within the tolerance (R107). -/
def State.admits (s : State) (j : RJob) (f : ReplayFind) : Bool :=
  let blanks := s.jobBlanks j
  !(s.jobTx j ++ blanks).any (meets f.detAt (f.detAt + 1)) && decide (j.pdThresh ≤ f.corr)
    && (decide (j.kind ≠ RK.WIDE) || decide (10 * f.carrier.toInt.natAbs ≤ symbolRate j.rate))
    && decide (syncErrors (symTicks j.rate) blanks f.tSync j.sync f.decisions ≤ j.tol)

/-- The soft values of a found copy with the values of marked symbols as erasures, and how many of its symbols, the header's
included, are erased (R139). -/
def State.findSoft (s : State) (j : RJob) (f : ReplayFind) : Nat × List Nat :=
  let h := PhyHeader.ofWord f.word.toNat
  let n := dataSymbols h.mod h.code h.length
  let flags := (s.jobMarks j f.agc.toInt).flags f.tSync (headerSymbols + n) f.errs
  ((flags.filter fun x => x).length,
   eraseSoft (bitsPerSymbol h.mod) (flags.drop headerSymbols) (f.soft.map (·.toNat)))

/-! ## Blocks -/

/-- The engine returns from Mirage (R133, R150): a LIVE engine recalled by its watch takes over the watch's estimates. -/
def State.engineReturn (c t : Nat) (recalled : Bool) (s : State) : State :=
  let e := s.eng c
  let s := s.setRunning c none
  let s := onlyIf recalled (State.count Pg.ERGX ERGX.RECALL_CNT) s
  let s := s.toHunt c t
  match e.watchPre with
  | some p =>
    if s.est c = ES.HUNT then (s.setEst c ES.SYNC_SEARCH).setEng c { s.eng c with tPre := p, handoff := true, armed := e.armed }
    else s
  | none => s

/-- A job on engine c ends and its engine goes back (R179, R181). -/
def State.jobEnds (c t : Nat) (j : RJob) (recalled : Bool) (s : State) : State :=
  ((s.setRunning c none).unhold j).engineReturn c t recalled

/-- A found copy as the trellis pool receives it. -/
def State.foundCopy (s : State) (c : Nat) (j : RJob) (f : ReplayFind) (soft : List Nat) (slot : Option Nat) : RxCopy :=
  { eng := if j.kind = RK.DIAG then c else j.eng, port := j.port, centre := j.centre, rate := j.rate, sync := j.sync
    alarm := s.isAlarm j.eng, hdr := f.word.toNat, tSync := f.tSync, tPre := f.tPre, snr := f.snr.toInt, field := []
    soft := soft, late := true, diag := if j.kind = RK.DIAG then some j.ring else none, combined := 0
    slot := slot, copy := (PhyHeader.ofWord f.word.toNat).copyIndex, cut := none }

/-- Queues a field for decoding as a replay job (R146); `buf` names the engine whose soft buffer holds it. -/
def State.decodeFound (x : RxCopy) (buf : Option Nat) (t : Nat) (s : State) : State := s.trlPush ⟨3, t, x, buf⟩ t

/-- The lent engine c stores a found copy in a soft buffer, and it is decoded as a replay job. With both buffers full the copy is
not stored, and the report of R148 names it anew, but for a diagnostic order (DEDUCED, log entry 139: R148 speaks of any engine). -/
def State.storeFound (c t : Nat) (j : RJob) (f : ReplayFind) (x : RxCopy) (s : State) : State :=
  if s.eget c ERG.SOFT_BUF < 2 then
    (s.eput c ERG.SOFT_BUF (s.eget c ERG.SOFT_BUF + 1)).decodeFound x (some c) t
  else
    let s := (s.ecount2 c ERG.DECODE_OVR_CNT ERGX.DECODE_OVR_TOT).eventBit (Pg.ERG (c / 4)) ERG.EV_DECODE_OVR (c % 4)
    if j.kind = RK.DIAG then s
    else
      let stop := f.tPre + msTicks (s.get Pg.MIR MIR.WIDE_SPAN_MS)
      let start := f.tPre - symTicks j.rate
      s.fileJob { j with kind := RK.PLAIN, rank := 3, start := start, stop := stop, doneTo := start, slot := none, copy := 0
                         ending := false, speed := 0 }

/-- What a job makes of a copy that its block found; answers whether the job ends (R179, R185, R196). -/
def State.useFind (c t : Nat) (j : RJob) (f : ReplayFind) (s : State) : Bool × State :=
  let w := f.word.toNat
  let h := PhyHeader.ofWord w
  let (erased, soft) := s.findSoft j f
  let s := s.countBy (Pg.ERG (c / 4)) (ERG.ERASED_SYM_CNT.nth (c % 4)) erased
  if phyHeaderOk j.rate w = false then
    if j.kind = RK.DIAG then (false, s.bumpSat Pg.MIR MIR.FAILS)
    else (false, s.ecount2 j.eng ERG.HDR_INVALID_CNT ERGX.HDR_INVALID_TOT)
  else match j.kind with
    | 1 =>
      match j.slot with
      | none => (true, s)
      | some i => match s.slot i with
        | none => (true, s)
        | some x =>
          if x.mode = slotMode w ∧ x.length = h.length ∧ h.copyIndex = j.copy then
            let s := (s.slotCopy i j.copy soft f.snr.toInt f.tSync f.tPre true).count Pg.MIR MIR.COPY_FOUND_CNT
            (true, s.storeFound c t j f (s.foundCopy c j f soft (some i)))
          else (false, s)
    | 4 => (false, s.storeFound c t j f (s.foundCopy c j f soft none))
    | _ =>
      if h.length < 11 then (false, s.ecount2 j.eng ERG.FRAME_SHORT_CNT ERGX.FRAME_SHORT_TOT)
      else
        let base : RJob := { s.engineJob j.eng RK.REPEAT 1 0 0 with port := j.port, centre := j.centre, rate := j.rate, sync := j.sync }
        let (i, s) := s.openRun base w f.tSync f.tPre t
        let s := match i with
          | some i => s.slotCopy i h.copyIndex soft f.snr.toInt f.tSync f.tPre true
          | none => s
        (true, s.storeFound c t j f (s.foundCopy c j f soft i))

/-- The finds of a block in their order, until one ends the job; those that the job's settings do not admit are none. -/
def State.useFinds (c t : Nat) (j : RJob) : List ReplayFind → State → Bool × State
  | [], s => (false, s)
  | f :: l, s =>
    if s.admits j f = false then State.useFinds c t j l s
    else match s.useFind c t j f with
      | (true, s) => (true, s)
      | (false, s) => State.useFinds c t j l s

/-- A diagnostic order's block writes its baseband words to the dump (R196). -/
def State.diagBlock (j : RJob) (dump : List Byte) (s : State) : RJob × State :=
  match j.dump with
  | some a => ({ j with dump := some (a + dump.length) }, s.dramStore a dump)
  | none => (j, s)

/-- A job has come to its end: a REPEAT window without its copy counts COPY_MISSING_CNT (R185); a diagnostic order is DONE
(R196). -/
def State.jobDone (j : RJob) (found : Bool) (s : State) : State :=
  match j.kind with
  | 1 => if found ∨ j.ending then s else s.count Pg.MIR MIR.COPY_MISSING_CNT
  | 4 => s.diagEnd (if j.ending then 1 else 0)
  | _ => s

/-- Uncorrectable errors that a block's reads meet (R174, R417): samples of the ring become 0x8000 with LOSS and are counted, directory
entries are not VALID; answers whether the span of a side-log or timebase-log record is lost. -/
def State.blockUes (ue : List Nat) (s : State) : Bool × State :=
  let lost := ue.any fun a => match s.eccAt a with
    | some (k, _) => decide (8 ≤ k) && decide (k ≤ 10)
    | none => false
  let s := forEach ue (fun a s => match s.eccAt a with
    | some (7, o) =>
      let s := s.dramStore (a / 8 * 8) ((List.replicate 4 (leBytes 2 0x8000)).flatten)
      let s := (s.countBy Pg.MIR MIR.WRITE_LOSS_CNT 4).event Pg.MIR MIR.EV_WRITE_LOSS
      let e := s.dir (o / 65536)
      s.setDir (o / 65536) (dirEntry (dirSlab e) true (dirHeld e) (dirPinned e) (dirValid e))
    | _ => s) (s.dirUes ue)
  (lost, s)

/-- REPLAY_BLOCK_BOUNDARY: the block that had its credit has been replayed; the job ends, or asks for its next block; a
recalled engine returns and its job waits for another (R150, R180). -/
def State.blockBoundary (t c : Nat) (finds : List ReplayFind) (dump : List Byte) (ue : List Nat) (s : State) : State :=
  match s.runningJob c with
  | none => s
  | some j =>
    let (lost, s) := s.blockUes ue
    let ran := s.jobRunning (.replay c)
    let s := s.endJob (.replay c)
    let doneTo := if ran then Nat.min j.stop (j.doneTo + s.speedNow j * 2048) else j.doneTo
    let (found, s) := if ran then s.useFinds c t j finds else (false, s)
    let (j, s) := if ran ∧ j.kind = RK.DIAG then s.diagBlock j dump else (j, s)
    let j := { ((s.runningJob c).getD j) with doneTo := doneTo, dump := j.dump }
    let s := s.safeAll Pg.MIR
    let recalled := decide (s.est c = ES.RECALL) || decide (2 ≤ s.level)
    if lost then (s.ringLost j 1).jobEnds c t j recalled
    else if found ∨ j.ending ∨ doneTo = j.stop then (s.jobDone j found).jobEnds c t j recalled
    else if recalled then
      let s : State := { s with mir := { s.mir with jobs := s.mir.jobs ++ [j] } }
      s.engineReturn c t true
    else (s.setRunning c (some j)).askBlock c j t

/-- REPLAY_BLOCK_BOUNDARY; `finds` is what the block found, in order; `ue` lists DRAM addresses that the block reads with an uncorrectable error. -/
def execReplayBlockBoundary (t : Nat) (eng : Fin 256) (finds : List ReplayFind) (dump : List Byte) (ue : List Nat) (s : State) : Res :=
  finish ((s.atTick t).blockBoundary t eng.val finds dump ue)

/-- Why replay does not go on (PAUSE_REASON): LEVEL, CREDIT, or NO_ENGINE. -/
def State.pauseReason (s : State) : Nat :=
  if s.mir.jobs = [] ∧ s.mir.running = [] then 0
  else if 2 ≤ s.level then 1
  else if s.mir.running.any (fun e => e.2.isSome && !s.jobRunning (.replay e.1)) then 2
  else if s.mir.jobs.any s.windowPast && !channels.any s.lendable then 3
  else 0

/-! ## Combining (R186, R187) -/

/-- The weight of an SNR in 0.25 dB, limited to −10 to +30 dB: 10^(SNR/10), times 10^10. -/
def weightOf (snr : Int) : Nat :=
  let i := (clampInt (-40) 120 snr + 40).toNat
  quarterTable.getD (i % 40) 0 * 10 ^ (i / 40)

/-- One coded-bit position over the copies that hold it: sat7 of the truncated weighted mean; 8 marks an erasure. -/
def combineBit (l : List (Nat × Nat)) : Nat :=
  let live := l.filter fun e => decide (e.2 ≠ 8)
  if live = [] then 8
  else
    let wmax := live.foldl (fun m e => Nat.max m e.1) 0
    let sum := live.foldl (fun (a : Int) e => a + (e.1 : Int) * signed 4 e.2) 0
    unsigned 4 (clampInt (-7) 7 (Int.tdiv sum (wmax : Int)))

/-- The combined field of copies given as (weight, soft values): one value per position of the longest. -/
def combineFields : Nat → List (Nat × List Nat) → List Nat
  | 0, _ => []
  | n + 1, l => combineBit (l.map fun e => (e.1, e.2.headD 8)) :: combineFields n (l.map fun e => (e.1, e.2.tail))

/-- The combined field of a slot. -/
def Slot.combined (x : Slot) : List Nat :=
  combineFields (x.held.foldl (fun m h => Nat.max m h.2.1.length) 0) (x.held.map fun h => (weightOf h.2.2.1, h.2.1))

/-- The held copy with the highest index: index, T_SYNC and T_PRE. -/
def Slot.highest (x : Slot) : Nat × Nat × Nat :=
  x.held.foldl (fun b y => if b.1 ≤ y.1 then (y.1, y.2.2.2.1, y.2.2.2.2.1) else b) (0, 0, 0)

/-- The held copy with the lowest index (R188). -/
def Slot.lowest (x : Slot) : Nat × Nat × Nat :=
  match x.held with
  | [] => (0, 0, 0)
  | h :: t => t.foldl (fun b y => if y.1 < b.1 then (y.1, y.2.2.2.1, y.2.2.2.2.1) else b) (h.1, h.2.2.2.1, h.2.2.2.2.1)

/-- COMBINE_DONE: the kernel forms one field from the copies held by a slot and sends it to the trellis pool. -/
def State.combineDone (t i : Nat) (s : State) : State :=
  match s.slot i with
  | none => s
  | some x =>
    if s.domOn 141 = false ∨ s.flag Pg.MIR MIR.COMBINE_EN = false ∨ s.fwRunning = false ∨ x.held.length < 2 then s
    else
      let (k, tSync, tPre) := x.lowest
      let hdr := copyHeader (x.mode % 4) (x.mode / 4 % 4) (x.mode / 16 % 4) x.length x.n k
      let rx : RxCopy :=
        { eng := x.eng, port := s.eget x.eng ERG.PORT, centre := s.eget x.eng ERG.CENTRE, rate := s.eget x.eng ERG.RATE
          sync := s.eget x.eng ERG.SYNC_WORD, alarm := s.isAlarm x.eng, hdr := hdr.word, tSync := tSync, tPre := tPre
          snr := x.lastSnr, field := [], soft := x.combined, late := x.held.any fun h => h.2.2.2.2.2, diag := none
          combined := x.held.length, slot := some i, copy := k, cut := none }
      s.decodeFound rx none t

/-- COMBINE_DONE. -/
def execCombineDone (t : Nat) (slot : Fin 512) (s : State) : Res := finish ((s.atTick t).combineDone t slot.val)

/-- SLOT_TIMEOUT: 1 s after the end of the final copy, with every REPEAT job of the run ended. -/
def State.slotTimeout (t i : Nat) (s : State) : State :=
  match s.slot i with
  | none => s
  | some x =>
    let busy := s.mir.jobs.any (fun j => decide (j.slot = some i)) || s.mir.running.any fun e => match e.2 with
      | some j => decide (j.slot = some i)
      | none => false
    if s.domOn 141 = false ∨ busy ∨ t < x.finalEnd + ticks1s then s else s.slotFailed i

/-- SLOT_TIMEOUT. -/
def execSlotTimeout (t : Nat) (slot : Fin 512) (s : State) : Res := finish ((s.atTick t).slotTimeout t slot.val)

/-! ## Diagnostic replay (R196) -/

/-- DIAG window ticks. -/
def State.diagStart (s : State) : Nat := s.get Pg.MIR MIR.DIAG_START_LO + 2 ^ 32 * s.get Pg.MIR MIR.DIAG_START_HI
def State.diagStop (s : State) : Nat := s.get Pg.MIR MIR.DIAG_END_LO + 2 ^ 32 * s.get Pg.MIR MIR.DIAG_END_HI

/-- Bytes of a dump: one word per output sample, two samples per symbol. -/
def State.dumpBytes (s : State) : Nat :=
  ceilDiv (s.diagStop - s.diagStart) (symTicks (s.get Pg.MIR MIR.DIAG_RATE) / 2) * 4

/-- The dump would pass the end of its region; with no region it has none. -/
def State.dumpTooLong (s : State) : Bool :=
  s.flag Pg.MIR MIR.DIAG_DUMP && match s.regionOf 12 with
    | some r => decide (s.regionData r < s.get Pg.MIR MIR.DIAG_DUMP_ADDR * 65536 + s.dumpBytes)
    | none => true

/-- Why GO is refused: the code and the offset it names. -/
def State.diagRefusal (s : State) : Option (Nat × Nat) :=
  let st := s.get Pg.MIR MIR.DIAG_STATE
  if st = 1 ∨ st = 2 then some (ErrCode.STATE, 0x090)
  else if s.get Pg.MIR MIR.DIAG_PD_THRESH = 0 then some (ErrCode.ZERO_REFUSED, 0x070)
  else if s.get Pg.MIR MIR.DIAG_RING = 0 then some (ErrCode.ZERO_REFUSED, 0x074)
  else if bandOk (s.get Pg.MIR MIR.DIAG_CENTRE) (s.get Pg.MIR MIR.DIAG_RATE) = false then some (ErrCode.RANGE, 0x074)
  else if s.diagStop ≤ s.diagStart ∨ 60 * ticks1s < s.diagStop - s.diagStart ∨ s.mir.nextSlab < s.diagStop
      ∨ s.dumpTooLong = true then some (ErrCode.RANGE, 0x090)
  else none

/-- DIAG_CMD GO. The settings that the DIAG fields do not give stand at the reset values of an ERG page (DESIGN CHOICE, log
entry 137). -/
def State.diagGo (s : State) : State :=
  match s.diagRefusal with
  | some (code, off) => s.refuse Pg.MIR code off
  | none =>
    let g := s.get Pg.MIR
    let dump := if s.flag Pg.MIR MIR.DIAG_DUMP then (s.regionOf 12).map fun r => s.regionBase r + g MIR.DIAG_DUMP_ADDR * 65536
      else none
    let j : RJob :=
      { id := 0, rank := 5, kind := RK.DIAG, eng := 0, port := g MIR.DIAG_PORT, centre := g MIR.DIAG_CENTRE
        rate := g MIR.DIAG_RATE, sync := g MIR.DIAG_SYNC, tol := g MIR.DIAG_SYNC_TOL, wide := s.flag Pg.MIR MIR.DIAG_TIMING
        start := s.diagStart, stop := s.diagStop, slot := none, copy := 0, doneTo := s.diagStart, ending := false, speed := 0
        ring := g MIR.DIAG_RING, dump := dump, pdThresh := g MIR.DIAG_PD_THRESH, nmap := !s.flag Pg.MIR MIR.DIAG_NO_ERASE
        eraseSnr := 16, impulse := 20, blank := 0 }
    (((s.setReg Pg.MIR 0x170 0).put Pg.MIR MIR.DIAG_STATE 1)).enqueue j

/-- DIAG_ABORT: a running order ends at its next block boundary. -/
def State.diagAbort (s : State) : State :=
  { s with mir := { s.mir with running := s.mir.running.map fun e => (e.1, e.2.map fun j =>
      if j.kind = RK.DIAG then { j with ending := true } else j) } }

end Sys2Proof.Machine
end

