-- ==== Sys2Proof/Machine/Receive.lean ====
section
/-! DEFINITION. The Erg array's commands (06_erg_receive_array.md): the engine states of R141 with their counters and reports,
parking (R152), the trellis pool's results (R146), and the noise map (R144, R145). -/
namespace Sys2Proof.Machine

/-! ## Abandoning -/

/-- Engine c can no longer receive the acknowledgement it was armed for: its window waits for another engine (R207). -/
def State.unarm (c : Nat) (s : State) : State :=
  if (s.eng c).armed = none then s
  else
    let s : State := { s with mac := { s.mac with wins := s.mac.wins.map fun w =>
      if w.engine = (some c) then { w with engine := none } else w } }
    s.setEng c { s.eng c with armed := none }

/-- A lent engine leaves Mirage at once: its job waits to resume from its last finished block (R180). -/
def State.endLoan (c t : Nat) (s : State) : State :=
  match s.runningJob c with
  | none => s
  | some j =>
    let s : State := { s with mir := { s.mir with jobs := s.mir.jobs ++ [j] } }
    ((s.endJob (.replay c)).setRunning c none).toHunt c t

/-! ## Port samples -/

/-- PORT_SAMPLES_START: engines in NO_INPUT on a port that delivers samples go to HUNT, those that the level parks to PARKED. -/
def State.samplesStart (p : Nat) (s : State) : State :=
  if s.portSamples p then
    forEach (s.liveEngines.filter fun c => decide (s.eget c ERG.PORT = p) && decide (s.est c = ES.NO_INPUT))
      (fun c s => if s.shouldPark s.level c then s.parkNow c else s.setEst c ES.HUNT) s
  else s

/-- PORT_SAMPLES_START. -/
def execPortSamplesStart (t : Nat) (port : Fin 16) (s : State) : Res := finish ((s.atTick t).samplesStart port.val)

/-- Soft values of the frame in DATA that are not demodulated at tick `t` (R141). -/
def State.softAhead (s : State) (c t : Nat) : Nat :=
  if s.est c = ES.DATA then
    let e := s.eng c
    let h := PhyHeader.ofWord e.hdr
    let n := dataSymbols h.mod h.code h.length
    let sym := symTicks (s.eget c ERG.RATE)
    let stop := e.tSync + (headerSymbols + n) * sym
    Nat.min n (ceilDiv (stop - t) sym) * bitsPerSymbol h.mod
  else 0

/-- Soft values are lost (R18, R141, R148). -/
def State.softLost (c n : Nat) (s : State) : State :=
  if n = 0 then s else (s.countBy (Pg.ERG (c / 4)) (ERG.QLOSS_CNT.nth (c % 4)) n).eventBit (Pg.ERG (c / 4)) ERG.EV_QLOSS (c % 4)

/-- PORT_SAMPLES_STOP: every LIVE engine of the port in any state except OFF abandons its frame, a lent one its loan, and goes to
NO_INPUT (R141); an engine whose quad's domain is off is not there to move. -/
def State.samplesStop (t p : Nat) (s : State) : State :=
  if s.portSamples p then s
  else forEach (s.liveEngines.filter fun c => decide (s.eget c ERG.PORT = p) && decide (s.est c ≠ ES.OFF)
      && decide (s.est c ≠ ES.NO_INPUT) && s.domOn (c / 4))
    (fun c s =>
      let s := ((s.softLost c (s.softAhead c t)).endLoan c t).unarm c
      ((s.setEng c Eng.idle).setEst c ES.NO_INPUT).ergTake c) s

/-- PORT_SAMPLES_STOP. -/
def execPortSamplesStop (t : Nat) (port : Fin 16) (s : State) : Res := finish ((s.atTick t).samplesStop t port.val)

/-! ## Detection and sync (R135, R136, R141) -/

/-- PREAMBLE_DETECT: in HUNT, not under a transmit mark or blanking, with a correlation of at least PD_THRESH sixteenths. -/
def State.preamble (t c tPre corr : Nat) (s : State) : State :=
  if s.est c ≠ ES.HUNT ∨ corr < s.eget c ERG.PD_THRESH ∨ s.underMark c t = true ∨ s.underBlank c = true then s
  else
    let s := (s.setEst c ES.SYNC_SEARCH).setEng c { s.eng c with tPre := tPre, handoff := false, watchPre := none, cells := [] }
    (s.noteCell c 0).ecount c ERG.DETECT_CNT

/-- PREAMBLE_DETECT. -/
def execPreambleDetect (t : Nat) (eng : Fin 256) (tPre corr : Nat) (s : State) : Res :=
  finish ((s.atTick t).preamble t eng.val tPre corr)

/-- A sync word is found: the AGC freezes and T_SYNC is recorded; a handoff has succeeded (R150). -/
def State.syncAt (c tSync agc carrier st : Nat) (s : State) : State :=
  let hand := (s.eng c).handoff
  let s := ((s.eput c ERG.AGC_REF agc).eput c ERG.CARRIER_OFF carrier).eput c ERG.T_SYNC_LO tSync
  let s := s.eput c ERG.T_SYNC_HI (tSync / 2 ^ 32)
  let s := (s.setEst c st).setEng c { s.eng c with tSync := tSync, handoff := false }
  onlyIf hand (State.count Pg.ERGX ERGX.HANDOFF_CNT) s

/-- SYNC_FOUND: in SYNC_SEARCH the 32 latest decisions match S (R107). -/
def execSyncFound (t : Nat) (eng : Fin 256) (tSync : Nat) (agc carrier : BitVec 16) (decisions : Word) (s : State) : Res :=
  let s := s.atTick t
  let c := eng.val
  finish (onlyIf (decide (s.est c = ES.SYNC_SEARCH) && s.syncMatch c tSync (s.eget c ERG.SYNC_WORD) decisions)
    (State.syncAt c tSync agc.toNat carrier.toNat ES.HEADER) s)

/-- ACK_WIN_US in ticks. -/
def State.ackWinTicks (s : State) : Nat := usTicks (s.get Pg.MAC MAC.ACK_WIN_US)

/-- T_SYNC lies in the matching span of an acknowledgement window (R207): t_end + 2.000 ms + 64 / Rs, give or take
ACK_WIN_US. -/
def State.inAckSpan (s : State) (w : AckWin) (tSync : Nat) : Bool :=
  let mid := w.tEnd + 2 * ticks1ms + 64 * symTicks w.rate
  decide (mid ≤ tSync + s.ackWinTicks) && decide (tSync ≤ mid + s.ackWinTicks)

/-- Engine c may receive the answer of a window (R207): it is the armed engine, or none is armed and it matches the
channel. -/
def State.ackEngine (s : State) (w : AckWin) (c : Nat) : Bool :=
  match w.engine with
  | some e => decide (e = c)
  | none => s.matches c w.port w.centre w.rate w.sync

/-- An engine that may receive the answer of a window has found S_ack in its matching span, and has not decided the body yet
(R207). -/
def State.ackHeld (s : State) (w : AckWin) : Bool :=
  s.liveEngines.any fun c => decide (s.est c = ES.ACK_BODY) && s.ackEngine w c && s.inAckSpan w (s.eng c).tSync

/-- In SYNC_SEARCH the 32 latest decisions match S_ack (R107); where its T_SYNC lies in the matching span it holds the window open until its body is
decided (R207). -/
def State.ackSync (c tSync agc carrier : Nat) (s : State) : State :=
  let s := s.syncAt c tSync agc carrier ES.ACK_BODY
  { s with mac := { s.mac with wins := s.mac.wins.map fun w =>
      if (s.ackEngine w c && s.inAckSpan w tSync) then { w with found := true } else w } }

/-- ACK_SYNC_FOUND. -/
def execAckSyncFound (t : Nat) (eng : Fin 256) (tSync : Nat) (agc carrier : BitVec 16) (decisions : Word) (s : State) : Res :=
  let s := s.atTick t
  let c := eng.val
  finish (onlyIf (decide (s.est c = ES.SYNC_SEARCH) && s.syncMatch c tSync (syncAck (s.eget c ERG.SYNC_WORD)) decisions)
    (State.ackSync c tSync agc.toNat carrier.toNat) s)

/-- SYNC_FAIL (R136): SYNC_WIN symbols have followed the last preamble-like symbol, which ended at tick `last`. -/
def State.syncFail (t c last : Nat) (s : State) : State :=
  if s.est c ≠ ES.SYNC_SEARCH ∨ last < (s.eng c).tPre
      ∨ t < last + s.eget c ERG.SYNC_WIN * symTicks (s.eget c ERG.RATE) then s
  else
    let pre := (s.eng c).tPre
    ((s.ecount c ERG.SYNC_FAIL_CNT).fileReport c RK.WIDE pre).toHunt c t

/-- SYNC_FAIL. -/
def execSyncFail (t : Nat) (eng : Fin 256) (last : Nat) (s : State) : Res := finish ((s.atTick t).syncFail t eng.val last)

/-! ## Header and data field -/

/-- The live copy that engine c receives. -/
def State.liveCopy (s : State) (c : Nat) (soft : List Nat) (snr : Int) (slot : Option Nat) (cut : Option Nat) : RxCopy :=
  let e := s.eng c
  { eng := c, port := s.eget c ERG.PORT, centre := s.eget c ERG.CENTRE, rate := s.eget c ERG.RATE
    sync := s.eget c ERG.SYNC_WORD, alarm := s.isAlarm c, hdr := e.hdr, tSync := e.tSync, tPre := e.tPre, snr := snr
    field := [], soft := soft, late := false, diag := none, combined := 0, slot := slot
    copy := (PhyHeader.ofWord e.hdr).copyIndex, cut := cut }

/-- HEADER_DECIDED (R116, R122, R148, R182): erased header symbols are counted; `errs` gives the error powers of the 320. -/
def State.headerDecided (t c w : Nat) (errs : List (BitVec 16)) (s : State) : State :=
  if s.est c ≠ ES.HEADER then s
  else
    let s := s.countErased c (s.liveFlags c 0 headerSymbols errs)
    let e := s.eng c
    if phyHeaderOk (s.eget c ERG.RATE) w = false then
      ((s.ecount2 c ERG.HDR_INVALID_CNT ERGX.HDR_INVALID_TOT).fileReport c RK.WIDE e.tPre).toHunt c t
    else
      let s := (s.ecount c ERG.HDR_OK_CNT).eput c ERG.LAST_HDR w
      if (PhyHeader.ofWord w).length < 11 then
        (s.ecount2 c ERG.FRAME_SHORT_CNT ERGX.FRAME_SHORT_TOT).toHunt c t
      else
        let store := decide (s.eget c ERG.SOFT_BUF < 2)
        let s := onlyIf (!store) (fun s =>
          ((s.ecount2 c ERG.DECODE_OVR_CNT ERGX.DECODE_OVR_TOT).eventBit (Pg.ERG (c / 4)) ERG.EV_DECODE_OVR
            (c % 4)).fileReport c RK.PLAIN e.tPre) s
        let s := (s.openRun (s.engineJob c RK.REPEAT 1 0 0) w e.tSync e.tPre t).2
        (s.setEng c { s.eng c with hdr := w, stored := store }).setEst c ES.DATA

/-- HEADER_DECIDED. -/
def execHeaderDecided (t : Nat) (eng : Fin 256) (word : Word) (errs : List (BitVec 16)) (s : State) : Res :=
  finish ((s.atTick t).headerDecided t eng.val word.toNat errs)

/-- The soft buffer of engine c closes as a trellis job; alarm engines rank first (R146). -/
def State.closeBuffer (c t : Nat) (x : RxCopy) (s : State) : State :=
  let s := s.eput c ERG.SOFT_BUF (s.eget c ERG.SOFT_BUF + 1)
  s.trlPush ⟨if s.isAlarm c then 1 else 2, t, x, some c⟩ t

/-- The run on engine c whose copy 0 starts at `t0` ends at `stop`: an acknowledgement that it is owed follows that end (R118). -/
def State.retimeRun (c t0 stop : Nat) (s : State) : State :=
  let w := s.searchWin
  let same := fun (r : Nat × Nat × Nat × Nat × Nat) =>
    decide (r.1 = c) && decide (r.2.2.2.1 ≤ t0 + w) && decide (t0 ≤ r.2.2.2.1 + w)
  let ends := (s.key.runs.filter same).map (·.2.2.2.2)
  { s with
    key := { s.key with runs := s.key.runs.map fun r => if same r then (r.1, r.2.1, r.2.2.1, r.2.2.2.1, stop) else r }
    mac := { s.mac with owed := s.mac.owed.map fun o =>
      if o.engine = c ∧ o.tEnd ∈ ends ∧ o.sent = false then { o with tEnd := stop } else o } }

/-- Engine c has received a run's final copy, whose last symbol ends at `stop` (R118, R135). -/
def State.finalCopy (c : Nat) (s : State) : State :=
  let e := s.eng c
  let h := PhyHeader.ofWord e.hdr
  match s.runGuess (s.eget c ERG.RATE) e.hdr e.tSync e.tPre with
  | some g => if g.k + 1 = g.n then
      s.retimeRun c (g.t0 0) (e.tSync + (headerSymbols + dataSymbols h.mod h.code h.length) * symTicks (s.eget c ERG.RATE)) else s
  | none => s

/-- LAST_DATA_SYMBOL: LAST_SNR and LAST_RATE_ERR are recorded, the soft values of marked symbols become erasures and are counted,
so do those lost on the way to SYS (R148), the copy enters its run's slot (R186), and the engine returns to HUNT. -/
def State.lastSymbol (t c : Nat) (soft : List Nat) (errs : List (BitVec 16)) (snr : Int) (rateErr : Nat) (lost : List Nat)
    (s : State) : State :=
  if s.est c ≠ ES.DATA then s
  else
    let e := s.eng c
    let h := PhyHeader.ofWord e.hdr
    let b := bitsPerSymbol h.mod
    let n := dataSymbols h.mod h.code h.length
    let flags := s.liveFlags c headerSymbols n errs
    let gone := (lost.filter fun i => decide (i < n * b)).eraseDups
    let soft := loseSoft gone (eraseSoft b flags soft)
    let s := ((s.eput c ERG.LAST_SNR (unsigned 16 snr)).eput c ERG.LAST_RATE_ERR rateErr).countErased c flags
    let s := (s.softLost c gone.length).finalCopy c
    let i := s.runSlot c e.hdr e.tSync e.tPre
    let s := if e.stored then
        let s := match i with
          | some i => s.slotCopy i h.copyIndex soft snr e.tSync e.tPre false
          | none => s
        s.closeBuffer c t (s.liveCopy c soft snr i none)
      else s
    s.toHunt c t

/-- LAST_DATA_SYMBOL. -/
def execLastDataSymbol (t : Nat) (eng : Fin 256) (soft : List (BitVec 4)) (errs : List (BitVec 16)) (snr rateErr : BitVec 16)
    (lost : List Nat) (s : State) : Res :=
  finish ((s.atTick t).lastSymbol t eng.val (soft.map (·.toNat)) errs snr.toInt rateErr.toNat lost)

/-- A cut copy ends its run (R118): no acknowledgement of the run is owed any more, and its slot expects no later copy. -/
def State.cutRun (c t : Nat) (s : State) : State :=
  let e := s.eng c
  match s.runGuess (s.eget c ERG.RATE) e.hdr e.tSync e.tPre with
  | none => s
  | some g =>
    let w := s.searchWin
    let ends := (s.key.runs.filter fun r => decide (r.1 = c) && decide (r.2.2.2.1 ≤ g.t0 0 + w)
      && decide (g.t0 0 ≤ r.2.2.2.1 + w)).map (·.2.2.2.2)
    let s : State := { s with
      mac := { s.mac with owed := s.mac.owed.filter fun o => !(decide (o.engine = c) && decide (o.tEnd ∈ ends)) }
      key := { s.key with cuts := (c, g.t0 0) :: s.key.cuts } }
    match s.slotFor c e.hdr (g.t0 0) with
    | some i => match s.slot i with
      | some x => s.setSlot i (some { x with finalEnd := Nat.min x.finalEnd t })
      | none => s
    | none => s

/-- A copy that engine c received cut before its header was decided ends the run whose span holds it (R118; DEDUCED, log entry 131:
without a header the copy's time alone tells its run). -/
def State.cutRunOf (c t : Nat) (s : State) : State :=
  let at_ := (s.eng c).tSync
  let runs := s.key.runs.filter fun r => decide (r.1 = c) && decide (r.2.2.2.1 ≤ at_) && decide (at_ ≤ r.2.2.2.2)
  let slots := s.mir.slots.filterMap fun e => match e.2 with
    | some x => if x.eng = c ∧ x.t0 ≤ at_ ∧ at_ ≤ x.finalEnd then some x.t0 else none
    | none => none
  let s : State := { s with
    mac := { s.mac with owed := s.mac.owed.filter fun o =>
      !(decide (o.engine = c) && decide (o.tEnd ∈ runs.map (·.2.2.2.2))) }
    key := { s.key with cuts := (runs.map (fun r => (c, r.2.2.2.1)) ++ slots.map fun x => (c, x)) ++ s.key.cuts } }
  { s with mir := { s.mir with slots := s.mir.slots.map fun e => (e.1, e.2.map fun x =>
      if x.eng = c ∧ x.t0 ≤ at_ ∧ at_ ≤ x.finalEnd then { x with finalEnd := Nat.min x.finalEnd t } else x) } }

/-- A report without a field goes straight to the frame path. -/
def State.pushRx (x : RxCopy) (s : State) : State := { s with key := { s.key with rx := s.key.rx ++ [x] } }

/-- Symbols that engine c received after the sync word before a pattern of 32 symbols that ends at tick `at_`. -/
def State.symbolsBefore (s : State) (c at_ : Nat) : Nat :=
  (at_ - (s.eng c).tSync) / symTicks (s.eget c ERG.RATE) - 32

/-- CUT_DETECT (R127, R138): a match of S_cut with the fall in power. In the data field the part received goes to the pool, the
missing symbols as erasures; in the header only the flag and the time are reported. Either way the run ends (R118). -/
def State.cutDetect (t c : Nat) (cut : CutFind) (soft : List Nat) (errs : List (BitVec 16)) (snr : Int) (s : State) : State :=
  if cutMatch (s.eget c ERG.SYNC_WORD) cut.decisions cut.fall = false then s
  else if s.est c = ES.HEADER then
    let s := (s.eput c ERG.LAST_SNR (unsigned 16 snr)).ecount c ERG.CUT_CNT
    let s := (s.countErased c (s.liveFlags c 0 (Nat.min headerSymbols (s.symbolsBefore c cut.at_)) errs)).cutRunOf c t
    (s.pushRx { s.liveCopy c [] snr none (some 0) with hdr := 0 }).toHunt c t
  else if s.est c = ES.DATA then
    let h := PhyHeader.ofWord (s.eng c).hdr
    let n := dataSymbols h.mod h.code h.length
    let got := Nat.min n (s.symbolsBefore c cut.at_ - headerSymbols)
    let flags := (s.liveFlags c headerSymbols got errs) ++ List.replicate (n - got) true
    let s := (s.eput c ERG.LAST_SNR (unsigned 16 snr)).ecount c ERG.CUT_CNT
    let s := (s.countErased c flags).cutRun c t
    let x := s.liveCopy c (eraseSoft (bitsPerSymbol h.mod) flags soft) snr none (some got)
    let s := if (s.eng c).stored then s.closeBuffer c t x else s.pushRx { x with cut := some 0 }
    s.toHunt c t
  else s

/-- CUT_DETECT. -/
def execCutDetect (t : Nat) (eng : Fin 256) (cut : CutFind) (soft : List (BitVec 4)) (errs : List (BitVec 16)) (snr : BitVec 16)
    (s : State) : Res :=
  finish ((s.atTick t).cutDetect t eng.val cut (soft.map (·.toNat)) errs snr.toInt)

/-! ## Commit, recall and watch -/

/-- CFG_ABORT (R133): 1 s after a COMMIT was accepted, an engine that has not taken the set abandons its frame and takes
it. -/
def State.cfgAbort (t c : Nat) (s : State) : State :=
  let q := c / 4
  if s.flag (Pg.ERG q) CFG.ARMED = false ∨ bitOf (s.ergDue q) (c % 4) = 0
      ∨ t < Tab.get (fun _ => 0) s.erg.armAt q + ticks1s then s
  else
    let s := (s.eevent c ERG.EV_CFG_ABORT).event Pg.ERGX ERGX.EV_CFG_ABORT
    let s := s.count Pg.ERGX ERGX.CFG_ABORT_CNT
    if s.engAway c then s.endLoan c t else s.toHunt c t

/-- CFG_ABORT. -/
def execCfgAbort (t : Nat) (eng : Fin 256) (s : State) : Res := finish ((s.atTick t).cfgAbort t eng.val)

/-- ENGINE_RECALL (R150): by the watch of a LIVE engine, which detects nothing under a mark or blanking, by Oasis or by the host. -/
def execEngineRecall (t : Nat) (eng : Fin 256) (watch : Option Nat) (s : State) : Res :=
  let s := s.atTick t
  let c := eng.val
  finish (onlyIf (decide (s.est c = ES.LENT) && (watch.isNone || (s.isLive c && !s.underMark c t && !s.underBlank c)))
    (fun s => (s.eput c ERG.STATE ES.RECALL).setEng c { s.eng c with watchPre := watch }) s)

/-- WATCH_REPORT (R151). -/
def State.watchReport (t c tPre : Nat) (s : State) : State :=
  if s.isLive c = false ∨ s.engBusy c = false ∨ s.underMark c t = true ∨ s.underBlank c = true then s
  else
    let s := (s.ecount2 c ERG.WATCH_REPORT_CNT ERGX.WATCH_REPORT_TOT).eventBit (Pg.ERG (c / 4)) ERG.EV_WATCH_REPORT (c % 4)
    s.fileReport c RK.PLAIN tPre

/-- WATCH_REPORT. -/
def execWatchReport (t : Nat) (eng : Fin 256) (tPre : Nat) (s : State) : Res := finish ((s.atTick t).watchReport t eng.val tPre)

/-! ## Parking (R152) -/

/-- ENGINE_PARK: at L5 at once; at L3 and L4 at the end of the frame in progress, and a lent engine when it returns. -/
def State.enginePark (t c : Nat) (s : State) : State :=
  if s.est c = ES.PARKED ∨ s.shouldPark s.level c = false then s
  else if s.level < 5 ∧ (s.engBusy c = true ∨ s.engAway c = true) then
    (if (s.eng c).parkDue.isSome then s else s.setEng c { s.eng c with parkDue := some (Nat.max s.oas.levelAt 1) })
  else ((s.endLoan c t).unarm c).parkNow c

/-- ENGINE_PARK. -/
def execEnginePark (t : Nat) (eng : Fin 256) (s : State) : Res := finish ((s.atTick t).enginePark t eng.val)

/-- PARK_TIMEOUT: a frame still in progress 50 ms after the level change is abandoned. -/
def State.parkTimeout (t c : Nat) (s : State) : State :=
  match (s.eng c).parkDue with
  | some t0 => if t0 + msTicks 50 ≤ t ∧ s.shouldPark s.level c = true then ((s.endLoan c t).unarm c).parkNow c else s
  | none => s

/-- PARK_TIMEOUT. -/
def execParkTimeout (t : Nat) (eng : Fin 256) (s : State) : Res := finish ((s.atTick t).parkTimeout t eng.val)

/-- ENGINE_UNPARK: a parked engine that the level no longer parks restarts; a quad whose domain is off asks for its dispatch
job first (R282). -/
def State.engineUnpark (t c : Nat) (s : State) : State :=
  if s.est c ≠ ES.PARKED ∨ s.shouldPark s.level c = true then s
  else if s.domOn (c / 4) = false then s.addJob (.quad (c / 4)) 1 (s.cost 1) t
  else
    let s := (s.setEst c (s.roleState c)).ergTake c
    (s.eevent c ERG.EV_PARK_CHANGE).event Pg.ERGX ERGX.EV_PARK_CHANGE

/-- ENGINE_UNPARK. -/
def execEngineUnpark (t : Nat) (eng : Fin 256) (s : State) : Res := finish ((s.atTick t).engineUnpark t eng.val)

/-! ## Trellis results (R146) -/

/-- Counts a decoded job and its bits, in units of 1,024. -/
def State.countDecoded (rank bits : Nat) (s : State) : State :=
  let s := s.count Pg.TRL (if rank = 1 then TRL.JOBS_ALARM else if rank = 2 then TRL.JOBS_LIVE else TRL.JOBS_REPLAY)
  let sum := s.trl.bits + bits
  let s : State := { s with trl := { s.trl with bits := sum % 1024 } }
  s.countBy Pg.TRL TRL.KBITS_DECODED (sum / 1024)

/-- TRELLIS_DECODE_DONE: decoder d passes its field to the frame path and takes the next job. The field is one that agrees best with
the soft values of its job. -/
def State.trellisDone (t d : Nat) (field : List Byte) (s : State) : State :=
  match s.decoder d with
  | none => s
  | some j =>
    let h := PhyHeader.ofWord j.rx.hdr
    if bestField h j.rx.soft field = false then s
    else
      let s : State := { s with trl := { s.trl with dec := Tab.set (fun _ => none) s.trl.dec d none
                                                    groupAt := Tab.set (fun _ => 0) s.trl.groupAt (d / 4) t } }
      let s := s.countDecoded j.rank (8 * h.length + tailLen h.code h.length)
      let s := match j.buf with
        | some c => s.eput c ERG.SOFT_BUF (s.eget c ERG.SOFT_BUF - 1)
        | none => s
      (s.pushRx { j.rx with field := field }).trlRun t

/-- TRELLIS_DECODE_DONE. -/
def execTrellisDecodeDone (t : Nat) (dec : Fin 16) (field : List Byte) (s : State) : Res :=
  finish ((s.atTick t).trellisDone t dec.val field)

/-! ## Noise map (R144, R145) -/

/-- What an unlisted cell holds (R144). -/
def cellReset : Word := 0x00FF0000

/-- STALE_CELLS and OLDEST_AGE follow the map; STALE is set when the count rises from 0 (R145). With all 16,384 cells stale the
count does not fit STALE_CELLS, whose 14 bits then read 0 (DESIGN CHOICE, log entry 130: the spec gives the field no
saturation). -/
def State.followStale (s : State) : State :=
  let lim := s.get Pg.NMAP NMAP.AGE_LIMIT_S
  let stale := (s.nmap.filter fun e => cellValid e.2 && decide (lim ≠ 0) && decide (lim < cellAge e.2)).length
  let old := (s.nmap.filter fun e => cellValid e.2).foldl (fun m e => Nat.max m (cellAge e.2)) 0
  let was := s.get Pg.NMAP NMAP.STALE_CELLS
  let s := (s.put Pg.NMAP NMAP.STALE_CELLS stale).put Pg.NMAP NMAP.OLDEST_AGE old
  onlyIf (decide (was = 0) && decide (0 < stale)) (State.event Pg.NMAP NMAP.EV_STALE) s

/-- Writes a cell: AGE 0, whatever the value's AGE (R144). -/
def State.writeCell (i : Nat) (v : Word) (s : State) : State :=
  let s : State := { s with nmap := Tab.set (fun _ => cellReset) s.nmap i (v &&& 0x010003FF) }
  (s.count Pg.NMAP NMAP.CELL_WRITE_CNT).followStale

/-- IDX advances by 1 under INC, wrapping. -/
def State.stepIdx (s : State) : State :=
  if s.flag Pg.NMAP NMAP.INC then s.put Pg.NMAP NMAP.IDX (s.get Pg.NMAP NMAP.IDX + 1) else s

/-- A refused cell write. -/
def State.cellRefused (s : State) : State := (s.event Pg.NMAP NMAP.EV_WRITE_REFUSED).count Pg.NMAP NMAP.WRITE_REFUSED_CNT

/-- A host write to CELL_DATA: refused under OWNER LINK. Either way the access advances IDX under INC. -/
def State.hostCell (v : Word) (s : State) : State :=
  if s.flag Pg.NMAP NMAP.OWNER then
    ((s.writeCell (s.get Pg.NMAP NMAP.IDX) v).count Pg.NMAP NMAP.HOST_WRITE_CNT).stepIdx
  else (s.refuse Pg.NMAP ErrCode.NOT_PERMITTED 0x018).cellRefused.stepIdx

/-- A read of CELL_DATA. -/
def State.readCell (s : State) : State := (s.answer (s.cell (s.get Pg.NMAP NMAP.IDX))).stepIdx

/-- NMAP_KERNEL_WRITE: the noise-map kernel of running link firmware writes a cell; refused and counted under OWNER HOST. In the
fallback regime no kernel runs. -/
def execNmapKernelWrite (cell : Fin 16384) (value : Word) (s : State) : Res :=
  finish (onlyIf (s.fwRunning && decide (s.get Pg.MAC MAC.REGIME = 0))
    (fun s => if s.flag Pg.NMAP NMAP.OWNER then s.cellRefused else s.writeCell cell.val value) s)

/-- The cell one second older. -/
def olderCell (w : Word) : Word := if cellAge w < 255 then w + 0x10000 else w

/-- NMAP_AGE_TICK: every cell's AGE rises by one, saturating. -/
def State.ageCells (s : State) : State :=
  let s : State := { s with nmap := s.nmap.filterMap fun e =>
    (if olderCell e.2 = cellReset then none else some (e.1, olderCell e.2)) }
  s.followStale

/-- NMAP_AGE_TICK. -/
def execNmapAgeTick (t : Nat) (s : State) : Res := finish (s.atTick t).ageCells

end Sys2Proof.Machine
end

