-- ==== Sys2Proof/Machine/Level.lean ====
section
/-! DEFINITION. Measurements, throttle levels and sprint of Oasis (12_oasis_governor.md, R279, R280, R290 to R296). -/
namespace Sys2Proof.Machine

/-- Changes what Oasis keeps beside its registers. -/
def State.modOas (f : OasSt → OasSt) (s : State) : State := { s with oas := f s.oas }

/-! ## Seif clock (R282, R295, R350) -/

/-- Running Seif cores and kernel runs bear the rate of the present clock; FREE follows. -/
def State.reclock (s : State) : State :=
  let r := s.seifCost
  let isSeif : Job → Bool := fun j => match j.kind with
    | .core _ => true
    | .kernel _ => true
    | _ => false
  let jobs := s.oas.running.filter isSeif
  let old := (jobs.map (·.rate)).sum
  let s := s.modOas fun o => { o with
    running := o.running.map (fun j => if isSeif j then { j with rate := r } else j)
    free := o.free + (old : Int) - ((r * jobs.length : Nat) : Int) }
  s.showCredit

/-- Sprint ends (R296). -/
def State.sprintEnd (s : State) : State :=
  if s.flag Pg.OAS OAS.SPRINT then
    let s := (s.put Pg.OAS OAS.SPRINT 0).put Pg.OAS OAS.SPRINT_TIME_S (sat 16 ((s.time - s.oas.sprintAt) / 2048000))
    ((s.event Pg.OAS OAS.EV_SPRINT_END).put Pg.CLK CLK.SPR_LOCK 0).reclock
  else s

/-! ## Levels (R290 to R294) -/

/-- REASON codes. -/
def Rsn.NONE : Nat := 0
def Rsn.THERMAL : Nat := 1
def Rsn.THERMAL_SPRINT : Nat := 2
def Rsn.CAP : Nat := 3
def Rsn.RAIL : Nat := 4
def Rsn.TRIP : Nat := 5
def Rsn.HOST : Nat := 6
def Rsn.SENSOR : Nat := 7

/-- The rail level (R293). -/
def State.railLevel (s : State) : Nat :=
  if s.oas.exLimit ∨ s.time < s.oas.holdLimit then 2 else if s.oas.exSprint ∨ s.time < s.oas.holdSprint then 1 else 0

/-- The contributions to the level with their reasons, in the order of ties (R290). -/
def State.contributions (s : State) : List (Nat × Nat) :=
  let tj := s.oas.tjLevel
  let hot := s.oas.thermalSprint && decide (tj = 1)
  [(if tj = 5 then tj else 0, Rsn.TRIP), (if hot then 0 else tj, Rsn.THERMAL), (s.oas.sensorLevel, Rsn.SENSOR),
   (if hot then 1 else 0, Rsn.THERMAL_SPRINT), (s.railLevel, Rsn.RAIL), (s.get Pg.OAS OAS.CAP_LEVEL, Rsn.CAP),
   (s.get Pg.OAS OAS.FORCE_LEVEL, Rsn.HOST)]

/-- The level and its reason: the highest contribution, the first of equals. -/
def State.wantedLevel (s : State) : Nat × Nat :=
  s.contributions.foldl (fun b e => if b.1 < e.1 then e else b) (0, Rsn.NONE)

/-- Lent engines are recalled (R294 at L2). -/
def State.recallLent (s : State) : State :=
  forEach s.mir.running (fun e s => if e.2.isSome ∧ s.est e.1 = ES.LENT then s.eput e.1 ERG.STATE ES.RECALL else s) s

/-- The actions of a rise of the level from `old` to `n` (R294): sprint ends from L1, Seif cores slow and lent engines return
from L2, Mirage is triggered from L4, every port is ramped to zero at L5. -/
def State.levelRise (old n : Nat) (s : State) : State :=
  let s := (s.count Pg.OAS OAS.LEVEL_UP_CNT).modOas fun o => { o with act := Nat.max o.act n }
  let s := s.sprintEnd
  let s := onlyIf (decide (old < 2) && decide (2 ≤ n)) (fun s => s.recallLent.reclock) s
  let s := onlyIf (decide (old < 4) && decide (4 ≤ n)) (fun s => s.trigger 11 s.time) s
  onlyIf (decide (n = 5)) (fun s =>
    ((s.event Pg.OAS OAS.EV_TRIP).count Pg.OAS OAS.TRIP_CNT).allPortsOut s.time) s

/-- LEVEL and REASON follow the contributions (R290). -/
def State.setLevel (s : State) : State :=
  let (n, why) := s.wantedLevel
  let old := s.get Pg.OAS OAS.LEVEL
  let s := (s.put Pg.OAS OAS.LEVEL n).put Pg.OAS OAS.REASON why
  if n = old then s
  else
    let s := (s.event Pg.OAS OAS.EV_LEVEL_CHANGE).modOas fun o => { o with levelAt := s.time }
    if n < old then s else s.levelRise old n

/-! ## Rails (R279, R292, R293) -/

/-- Mean of a list of numbers, 0 for none. -/
def meanNat (l : List Nat) : Nat := l.sum / Nat.max 1 l.length

/-- How long P_TOTAL has stayed above CAP_MW, and below CAP_MW less CAP_HYST_MW (R292). -/
def State.capTimers (s : State) : State :=
  let cap := s.get Pg.OAS OAS.CAP_MW
  let p := s.get Pg.OAS OAS.P_TOTAL_MW
  let ovf := decide (cap ≠ 0) && decide (cap < p)
  let under := decide (cap ≠ 0) && decide (p + s.get Pg.OAS OAS.CAP_HYST_MW < cap)
  s.modOas fun o => { o with
    overSince := if ovf then some (o.overSince.getD s.time) else none
    underSince := if under then some (o.underSince.getD s.time) else none }

/-- An excursion begins or ends with a VCORE sample: whether it was on, whether it may begin, and the new state. -/
def excursion (was may above above2 : Bool) : Bool := if was then above else may && above && above2

/-- The excursions of VCORE (R293). -/
def State.vcoreSample (ma : Nat) (s : State) : State :=
  let lastMa := s.oas.vcore.headD 0
  let o := s.oas
  let sp := s.get Pg.OAS OAS.VCORE_SPRINT_MA
  let li := s.get Pg.OAS OAS.VCORE_LIMIT_MA
  let sprint := s.flag Pg.OAS OAS.SPRINT
  let exS := excursion o.exSprint sprint (decide (sp < ma)) (decide (sp < lastMa))
  let exL := excursion o.exLimit true (decide (li < ma)) (decide (li < lastMa))
  let began := (exS && !o.exSprint).toNat + (exL && !o.exLimit).toNat
  let s := s.modOas fun o => { o with
    vcore := [ma, lastMa], exSprint := exS, exLimit := exL
    holdSprint := if o.exSprint && !exS then s.time + 2048000 else o.holdSprint
    holdLimit := if o.exLimit && !exL then s.time + 2048000 else o.holdLimit }
  onlyIf (decide (0 < began)) (fun s => (s.event Pg.OAS OAS.EV_RAIL_LIMIT).countBy Pg.OAS OAS.RAIL_LIMIT_CNT began) s

/-- RAIL_SAMPLE: currents in mA and voltages in mV of the nine rails in the order of R279. -/
def State.railSample (ma mv : List Nat) (s : State) : State :=
  let mw := fun i => ma.getD i 0 * mv.getD i 0 / 1000
  let s := forEach (List.range 9) (fun i s =>
    (s.put Pg.OAS (OAS.RAIL_MA.nth i) (sat 16 (ma.getD i 0))).put Pg.OAS (OAS.RAIL_MW.nth i) (sat 16 (mw i))) s
  let sum := ((List.range 9).map mw).sum
  let s := s.modOas fun o => { o with sums := (sum :: o.sums).take 1000, winSums := sum :: o.winSums }
  let s := s.put Pg.OAS OAS.P_TOTAL_MW (sat 16 (meanNat s.oas.sums))
  ((s.capTimers).vcoreSample (ma.getD 0 0)).setLevel

/-- RAIL_SAMPLE. -/
def execRailSample (t : Nat) (ma mv : List Nat) (s : State) : Res :=
  wellFormedOr (Operands.rails ma mv) (finish ((s.atTick t).railSample ma mv))

/-- RAIL_HOLD_EXPIRY (R293): 1 s after an excursion its hold ends. -/
def execRailHoldExpiry (t : Nat) (s : State) : Res := finish ((s.atTick t).setLevel)

/-- CAP_LEVEL_UP (R292): P_TOTAL has stayed above CAP_MW for CAP_OVER_MS. -/
def State.capUp (s : State) : State :=
  match s.oas.overSince with
  | none => s
  | some t0 =>
    if s.time < t0 + msTicks (s.get Pg.OAS OAS.CAP_OVER_MS) then s
    else
      let n := s.get Pg.OAS OAS.CAP_LEVEL
      let s := s.modOas fun o => { o with overSince := some s.time }
      if n < 4 then (s.put Pg.OAS OAS.CAP_LEVEL (n + 1)).setLevel else s.event Pg.OAS OAS.EV_CAP_UNREACHABLE

/-- CAP_LEVEL_UP. -/
def execCapLevelUp (t : Nat) (s : State) : Res := finish ((s.atTick t).capUp)

/-- CAP_LEVEL_DOWN (R292): P_TOTAL has stayed below CAP_MW less CAP_HYST_MW for CAP_HOLD_MS. -/
def State.capDown (s : State) : State :=
  match s.oas.underSince with
  | none => s
  | some t0 =>
    if s.time < t0 + msTicks (s.get Pg.OAS OAS.CAP_HOLD_MS) then s
    else
      let s := s.modOas fun o => { o with underSince := some s.time }
      (s.put Pg.OAS OAS.CAP_LEVEL (s.get Pg.OAS OAS.CAP_LEVEL - 1)).setLevel

/-- CAP_LEVEL_DOWN. -/
def execCapLevelDown (t : Nat) (s : State) : Res := finish ((s.atTick t).capDown)

/-! ## Sensors (R280, R291) -/

/-- The threshold of thermal level n in 1/16 °C. -/
def State.tjThreshold (s : State) (n : Nat) : Int :=
  16 * ((match n with
    | 1 => s.get Pg.OAS OAS.TJ_L1
    | 2 => s.get Pg.OAS OAS.TJ_L2
    | 3 => s.get Pg.OAS OAS.TJ_L3
    | 4 => s.get Pg.OAS OAS.TJ_L4
    | _ => 128 : Nat) : Int)

/-- The highest level whose threshold a reading meets. -/
def State.tjWants (s : State) (r : Int) : Nat :=
  (List.range 5).foldl (fun b i => if s.tjThreshold (i + 1) ≤ r then i + 1 else b) 0

/-- A sensor's reading in use and the tick of its last change. -/
def State.sensor (s : State) (i : Nat) : Int × Nat := Tab.get (fun _ => (0, 0)) s.oas.sensors i

/-- Takes the reading of sensor i: a change notes where the other sensors stood. -/
def State.takeReading (readings : List Int) (i : Nat) (s : State) : State :=
  let r := readings.getD i 0
  if (s.sensor i).1 = r then s
  else
    let s := s.modOas fun o => { o with sensors := Tab.set (fun _ => (0, 0)) o.sensors i (r, s.time)
                                        outrun := o.outrun.filter fun j => decide (j ≠ i) }
    forEach (List.range 16) (fun j s => s.modOas fun o =>
      { o with sensorRef := Tab.set (fun _ => 0) o.sensorRef (16 * i + j) (readings.getD j 0) }) s

/-- Notes the sensors beside which another has now changed by more than 2 °C since their own last change. -/
def State.noteOutrun (readings : List Int) (s : State) : State :=
  let moved := fun i => (List.range 16).any fun j =>
    decide (32 < (readings.getD j 0 - Tab.get (fun _ => 0) s.oas.sensorRef (16 * i + j)).natAbs)
  s.modOas fun o => { o with outrun := (List.range 16).filter fun i => o.outrun.contains i || moved i }

/-- Sensor i is valid (R280): in range, and not still for 10 s while another has moved by more than 2 °C. -/
def State.sensorOk (s : State) (readings : List Int) (i : Nat) : Bool :=
  let r := readings.getD i 0
  let still := decide ((s.sensor i).2 + 20480000 ≤ s.time)
  decide (-960 ≤ r) && decide (r ≤ 2560) && !(still && s.oas.outrun.contains i)

/-- The highest of the valid readings and its sensor. -/
def hottest (readings : List Int) (valid : List Nat) : Option (Int × Nat) :=
  valid.foldl (fun b i => match b with
    | none => some (readings.getD i 0, i)
    | some m => if m.1 < readings.getD i 0 then some (readings.getD i 0, i) else b) none

/-- Shows the sensors' readings and validity; a sensor that turns invalid sets SENSOR_FAULT. -/
def State.showSensors (readings : List Int) (valid : List Nat) (s : State) : State :=
  forEach (List.range 16) (fun i s =>
    let ok := valid.contains i
    let was := s.flag Pg.OAS (OAS.VALID.nth i)
    let s := (s.put Pg.OAS (OAS.TJ_S.nth i) (satSigned 16 (readings.getD i 0))).put Pg.OAS (OAS.VALID.nth i) ok.toNat
    onlyIf (was && !ok) (fun s => (s.event Pg.OAS OAS.EV_SENSOR_FAULT).count Pg.OAS OAS.SENSOR_FAULT_CNT) s) s

/-- THERMAL_SAMPLE: readings of the 16 sensors in 1/16 °C. -/
def State.thermalSample (readings : List Int) (s : State) : State :=
  let s := (forEach (List.range 16) (fun i s => s.takeReading readings i) s).noteOutrun readings
  let valid := (List.range 16).filter (s.sensorOk readings)
  let s := s.showSensors readings valid
  let s := s.put Pg.OAS OAS.VALID_SENSORS ((valid.map (2 ^ ·)).sum)
  let sensorLevel := if valid = [] then 4 else if valid.length < 12 then 2 else 0
  let s := s.modOas fun o => { o with sensorLevel := sensorLevel }
  let s := match hottest readings valid with
    | none => s.modOas fun o => { o with coolSince := none }
    | some (r, i) =>
      let s := (s.put Pg.OAS OAS.TJ (satSigned 8 (r / 16))).put Pg.OAS OAS.HOT_SENSOR i
      let want := s.tjWants r
      let heat := s.flag Pg.OAS OAS.SPRINT && decide (1 ≤ want)
      let s := s.modOas fun o => { o with tj := r, tjLevel := Nat.max o.tjLevel want, thermalSprint := o.thermalSprint || heat }
      let cool := decide (0 < s.oas.tjLevel)
        && decide (r ≤ s.tjThreshold s.oas.tjLevel - 16 * (s.get Pg.OAS OAS.TJ_HYST : Int))
      s.modOas fun o => { o with coolSince := if cool then some (o.coolSince.getD s.time) else none }
  (s.put Pg.OAS OAS.THERMAL_LEVEL (Nat.max s.oas.tjLevel sensorLevel)).setLevel

/-- THERMAL_SAMPLE. -/
def execThermalSample (t : Nat) (readings : List Int) (s : State) : Res :=
  wellFormedOr (Operands.sensors readings) (finish ((s.atTick t).thermalSample readings))

/-- THERMAL_STEP_DOWN (R291): Tj has stayed low for STEP_DOWN_MS; the thermal level falls by one. -/
def State.thermalDown (s : State) : State :=
  match s.oas.coolSince with
  | none => s
  | some t0 =>
    if s.time < t0 + msTicks (s.get Pg.OAS OAS.STEP_DOWN_MS) then s
    else
      let s := s.modOas fun o => { o with
        tjLevel := o.tjLevel - 1, coolSince := none, thermalSprint := false }
      (s.put Pg.OAS OAS.THERMAL_LEVEL (Nat.max s.oas.tjLevel s.oas.sensorLevel)).setLevel

/-- THERMAL_STEP_DOWN. -/
def execThermalStepDown (t : Nat) (s : State) : Res := finish ((s.atTick t).thermalDown)

/-! ## Sprint (R295, R296) -/

/-- Seif cores that run. -/
def State.busyCores (s : State) : List Nat := (List.range 32).filter fun k => s.seifRunning k

/-- Ticks that a core ran in the last 100 ms. -/
def State.ranTicks (s : State) (k : Nat) : Nat :=
  let c := s.core k
  let from_ := s.time - msTicks 100
  let now := match c.busyFrom with
    | some t0 => s.time - Nat.max t0 from_
    | none => 0
  now + ((c.runs.map fun r => r.2 - Nat.max r.1 from_)).sum

/-- There is demand for sprint: queued Mirage jobs, or a busy core that was busy for 90 % of the last 100 ms. -/
def State.demand (s : State) : Bool :=
  decide (s.mir.jobs ≠ []) || s.busyCores.any fun k => decide (msTicks 90 ≤ s.ranTicks k)

/-- FREE has room, which it always has without a cap (R281). -/
def State.freeAtLeast (s : State) (n : Nat) : Bool :=
  decide (s.get Pg.OAS OAS.CAP_MW = 0) || decide ((n : Int) ≤ s.oas.free)

/-- The conditions of R295. -/
def State.maySprint (s : State) : Bool :=
  s.flag Pg.OAS OAS.SPRINT_EN && !s.flag Pg.OAS OAS.SPRINT && decide (s.get Pg.OAS OAS.LEVEL = 0) && decide (s.level = 0)
    && decide (s.oas.tj ≤ s.tjThreshold 1 - 16 * (s.get Pg.OAS OAS.TJ_HYST : Int)) && s.demand
    && s.freeAtLeast ((s.cost 4 - s.cost 3) * s.busyCores.length)

/-- Sprint starts. -/
def State.sprintStart (s : State) : State :=
  let s := s.modOas fun o => { o with sprintAt := s.time, demandAt := s.time }
  let s := ((s.put Pg.OAS OAS.SPRINT 1).event Pg.OAS OAS.EV_SPRINT_START).count Pg.OAS OAS.SPRINT_CNT
  (s.put Pg.CLK CLK.SPR_LOCK 1).reclock

/-- Sprint at a window boundary: it starts, notes demand, or ends because FREE fell below 0. -/
def State.sprintWindow (s : State) : State :=
  let s := if s.maySprint then s.sprintStart
    else if s.flag Pg.OAS OAS.SPRINT && s.demand then s.modOas fun o => { o with demandAt := s.time } else s
  if s.freeAtLeast 0 then s else s.sprintEnd

/-- SPRINT_DEMAND_TIMEOUT (R296): no demand for 100 ms. -/
def execSprintDemandTimeout (t : Nat) (s : State) : Res :=
  let s := s.atTick t
  finish (onlyIf (!s.demand && decide (s.oas.demandAt + msTicks 100 ≤ t)) State.sprintEnd s)

/-- AMP_SENSOR_TIMEOUT (R289): the RTD channel of a port's amplifier has delivered no output for 1 s. -/
def execAmpSensorTimeout (t : Nat) (port : Fin 16) (s : State) : Res :=
  let p := port.val
  let s := s.atTick t
  finish (onlyIf (s.flag Pg.OAS (OAS.AMP_RTD_EN.nth p) && decide (Tab.get (fun _ => 0) s.oas.ampAt p + 2048000 ≤ t))
    (fun s => (s.put Pg.OAS (OAS.AMP_SENSOR_FAULT.nth p) 1).put Pg.OAS (OAS.DERATE.nth p) 1) s)

end Sys2Proof.Machine
end

