-- ==== Sys2Proof/Machine/Loop.lean ====
section
/-! DEFINITION. The loop outputs (14_decimation_and_loop_outputs.md, R326 to R329): the commanded current from the source
value, the fault level, and the state of the loop wiring. -/
namespace Sys2Proof.Machine

/-- DRIVE and CAUSE of a loop. -/
def LD.OFF : Nat := 0
def LD.RUN : Nat := 1
def LD.FAULT_LEVEL : Nat := 2

/-- The commanded current in µA for x (R327): 4 mA + 16 mA × (x − X_LO) / (X_HI − X_LO), rounded down, limited to CLAMP_LO
and CLAMP_HI. -/
def loopCurrent (x lo hi clampLo clampHi : Int) : Int :=
  clampInt clampLo clampHi (4000 + 16000 * (x - lo) / (hi - lo))

/-- The mean in µV at the pins of `n` outputs whose values, taken to range code 7, add to `sum` (R327), rounded down. -/
def meanUv (sum : Int) (n : Nat) : Int := sum * 1200000 / ((Nat.max 1 n : Nat) * 2 ^ 27 : Nat)

/-- The DAC code of a current in µA: 24.0 mA over 16 bits, rounded to nearest (R326; DEDUCED, log entry 145). -/
def loopCode (ua : Nat) : Nat := Nat.min 65535 ((ua * 65536 + 12000) / 24000)

/-- A loop takes a commanded current in µA: it shows it and writes the DAC 20 µs after the tick (R328). -/
def State.loopCommand (n t ua : Nat) (s : State) : State :=
  let s := s.put Pg.LOOP (LOOP.I_CMD_UA.nth n) ua
  s.setLoop n { s.loop n with dac := loopCode ua, dacAt := t + usTicks 20 }

/-- The source gives x at the tick t of an update: a window's mean, or the last value written (R327, R328). -/
def State.loopSource (n t : Nat) (s : State) : State :=
  let l := s.loop n
  let l := match s.get Pg.LOOP (LOOP.SRC.nth n) with
    | 1 => if l.n = 0 then l else { l with x := BitVec.ofNat 32 (unsigned 32 (meanUv l.sum l.n)), xAt := t }
    | 2 =>
      match l.seifAt with
      | some w => { l with x := BitVec.ofNat 32 (s.get Pg.LOOP (LOOP.SEIF_VALUE.nth n)), xAt := Nat.max l.xAt w }
      | none => l
    | 3 =>
      match l.hostAt with
      | some w => { l with x := BitVec.ofNat 32 (s.get Pg.LOOP (LOOP.HOST_VALUE.nth n)), xAt := Nat.max l.xAt w }
      | none => l
    | _ => l
  s.setLoop n { l with sum := 0, n := 0 }

/-- Why the source of a loop is in fault at tick t (R328): CAUSE, 0 for none. -/
def State.loopCause (s : State) (n t : Nat) : Nat :=
  let l := s.loop n
  let ms := s.get Pg.LOOP (LOOP.SRC_TIMEOUT_MS.nth n)
  if l.forced then 3
  else if s.get Pg.LOOP (LOOP.SRC.nth n) = 1 ∧ s.flag Pg.LOOP (LOOP.FAULT_ON_FLAG.nth n) = true ∧ l.flagged = true then 2
  else if ms ≠ 0 ∧ msTicks ms ≤ t - l.xAt then 1
  else 0

/-- The drive state of a loop at an update, and its commanded current (R328). -/
def State.loopDrive (n t : Nat) (s : State) : State :=
  let drive := s.get Pg.LOOP (LOOP.DRIVE.nth n)
  if s.get Pg.LOOP (LOOP.SRC.nth n) = 0 then
    ((s.put Pg.LOOP (LOOP.DRIVE.nth n) LD.OFF).put Pg.LOOP (LOOP.CAUSE.nth n) 0).loopCommand n t 0
  else
    let s := if drive = LD.OFF then s.setLoop n { s.loop n with xAt := t, flagged := false } else s
    let s := s.loopSource n t
    let l := s.loop n
    let cause := s.loopCause n t
    let s := (s.put Pg.LOOP (LOOP.X_NOW.nth n) l.x.toNat).put Pg.LOOP (LOOP.CAUSE.nth n) cause
    if cause = 0 then
      let i := loopCurrent l.x.toInt (s.getInt Pg.LOOP (LOOP.X_LO.nth n)) (s.getInt Pg.LOOP (LOOP.X_HI.nth n))
        (s.get Pg.LOOP (LOOP.CLAMP_LO_UA.nth n)) (s.get Pg.LOOP (LOOP.CLAMP_HI_UA.nth n))
      (s.put Pg.LOOP (LOOP.DRIVE.nth n) LD.RUN).loopCommand n t i.toNat
    else
      let s := if drive = LD.FAULT_LEVEL then s
        else (s.eventBit Pg.LOOP LOOP.EV_FAULT_LEVEL n).count Pg.LOOP LOOP.FAULT_LEVEL_CNT
      (s.put Pg.LOOP (LOOP.DRIVE.nth n) LD.FAULT_LEVEL).loopCommand n t
        (if s.flag Pg.LOOP (LOOP.FAIL_HIGH.nth n) then 21000 else 3600)

/-- Since when a condition holds: kept while it lasts, none when it does not. -/
def since (cond : Bool) (old : Option Nat) (t : Nat) : Option Nat := if cond then some (old.getD t) else none

/-- A condition has held for a number of milliseconds. -/
def heldFor (from_ : Option Nat) (ms t : Nat) : Bool := match from_ with | some t0 => decide (msTicks ms ≤ t - t0) | none => false

/-- The loop current in µA that a readback code gives: ±1.25 V over 16 bits, across RSENSE_MOHM (R326). -/
def State.loopUa (s : State) (n : Nat) (code : BitVec 16) : Int :=
  code.toInt * 1250000000 / (32768 * (Nat.max 1 (s.get Pg.LOOP (LOOP.RSENSE_MOHM.nth n)) : Nat))

/-- The loop voltage in mV: LOOPn_VMON behind the 1:20 divider (R326). -/
def loopMv (vmon : BitVec 16) : Nat := 20 * vmon.toNat

/-- The loop wiring at an update, from the readback against the command that stood until now (R329). -/
def State.loopWire (n t : Nat) (rb : LoopReadback) (s : State) : State :=
  let cmd : Int := s.get Pg.LOOP (LOOP.I_CMD_UA.nth n)
  let vmin := s.get Pg.LOOP (LOOP.VMIN_MV.nth n)
  let ua := s.loopUa n rb.code
  let mv := loopMv rb.vmon
  let l := s.loop n
  let opening := since (decide (ua < cmd - 500) && rb.atLimit) l.openAt t
  let closing := since (decide ((ua - cmd).natAbs ≤ 100)) l.openOk t
  let shorting := since (decide (mv < vmin)) l.shortAt t
  let clearing := since (decide (vmin + 1000 < mv)) l.shortOk t
  let isOpen := if l.isOpen then !heldFor closing 100 t else heldFor opening (s.get Pg.LOOP (LOOP.OPEN_MS.nth n)) t
  let isShort := if l.isShort then !heldFor clearing 100 t else heldFor shorting (s.get Pg.LOOP (LOOP.SHORT_MS.nth n)) t
  let s := s.setLoop n { l with openAt := opening, openOk := closing, shortAt := shorting, shortOk := clearing
                                isOpen := isOpen, isShort := isShort }
  let s := if isOpen && !l.isOpen then (s.eventBit Pg.LOOP LOOP.EV_OPEN n).count Pg.LOOP LOOP.OPEN_CNT else s
  let s := if isShort && !l.isShort then (s.eventBit Pg.LOOP LOOP.EV_SHORT n).count Pg.LOOP LOOP.SHORT_CNT else s
  let s := s.put Pg.LOOP (LOOP.WIRE.nth n) (if isShort then 2 else if isOpen then 1 else 0)
  (s.put Pg.LOOP (LOOP.I_RB_UA.nth n) (sat 16 ua.toNat)).put Pg.LOOP (LOOP.V_LOOP_MV.nth n) (sat 16 mv)

/-- The domains of a loop are on. -/
def State.loopOn (s : State) (n : Nat) : Bool := s.domOn (145 + n)

/-- LOOP_UPDATE: the 1 ms tick is the safe point of page LOOP; then every loop judges its wiring and takes its current. -/
def State.loopUpdate (t : Nat) (rb : List LoopReadback) (s : State) : State :=
  if t % 2048 ≠ 0 then s
  else
    let s := onlyIf (s.loopOn 0) (State.safePart Pg.LOOP fun o => decide (o < 0x030)) s
    let s := onlyIf (s.loopOn 1) (State.safePart Pg.LOOP fun o => decide (0x030 ≤ o)) s
    forEach (List.range 2) (fun n s =>
      if s.loopOn n then
        let s := match rb[n]? with | some r => s.loopWire n t r | none => s
        s.loopDrive n t
      else s) s

/-- LOOP_UPDATE. -/
def execLoopUpdate (t : Nat) (readback : List LoopReadback) (s : State) : Res :=
  wellFormedOr (Operands.loops readback) (finish ((s.atTick t).loopUpdate t readback))

/-- Forces or releases the fault level of the loops named in a mask (R328). -/
def State.loopForce (on : Bool) (mask : Nat) (s : State) : State :=
  forEach ((List.range 2).filter fun n => decide (bitOf mask n = 1)) (fun n s => s.setLoop n { s.loop n with forced := on }) s

/-- A value written by the host renews the loop's host source (R327). -/
def State.loopHostValue (n : Nat) (v : Word) (s : State) : State :=
  (s.put Pg.LOOP (LOOP.HOST_VALUE.nth n) v.toNat).setLoop n { s.loop n with hostAt := some s.time }

/-- A loop's domain goes off: it drives 0 mA (R328). -/
def State.loopOff (n : Nat) (s : State) : State :=
  let s := s.setLoop n LoopCh.idle
  (((s.put Pg.LOOP (LOOP.DRIVE.nth n) LD.OFF).put Pg.LOOP (LOOP.CAUSE.nth n) 0).put Pg.LOOP (LOOP.I_CMD_UA.nth n) 0).put
    Pg.LOOP (LOOP.WIRE.nth n) 0

end Sys2Proof.Machine
end

