-- ==== Sys2Proof/Machine/Lpt.lean ====
section
/-! DEFINITION. Line ports (04_line_ports.md): gain control (R81 to R85), amplifier faults and overcurrents (R87, R88), coupler
checks (R91, R92), port states and retries (R93, R94), and the echo canceller's reset (R89). -/
namespace Sys2Proof.Machine

/-- Port states. -/
def LS.OFF : Nat := 0
def LS.CHECK : Nat := 1
def LS.SERVICE : Nat := 2
def LS.FAULT : Nat := 3
def LS.FAULT_LATCHED : Nat := 4

/-- Causes of a port fault. -/
def LC.NONE : Nat := 0
def LC.SHORT : Nat := 1
def LC.OPEN : Nat := 2
def LC.REVERSED : Nat := 3
def LC.AMP_FAULT : Nat := 4
def LC.OVERCURRENT : Nat := 5

/-- STATE of port p. -/
def State.lps (s : State) (p : Nat) : Nat := s.get (Pg.LPT p) LPT.STATE

/-- Port p moves to a state; a change sets STATE_CHANGE (R93). -/
def State.lptTo (p st : Nat) (s : State) : State :=
  if s.lps p = st then s else (s.put (Pg.LPT p) LPT.STATE st).event (Pg.LPT p) LPT.EV_STATE_CHANGE

/-- Changes what port p keeps beside its registers. -/
def State.modLpt (p : Nat) (f : LptSt → LptSt) (s : State) : State := s.setLpt p (f (s.lptSt p))

/-! ## Gain (R81 to R85) -/

/-- GAIN_NOW of port p. -/
def State.gainNow (s : State) (p : Nat) : Nat := s.get (Pg.LPT p) LPT.GAIN_NOW

/-- DATA of a GAIN record (R176). -/
def gainData (code : Nat) (overload : Bool) (erase : Nat) : Nat := code + 8 * overload.toNat + 256 * erase

/-- A planned gain step at tick `t` (R82): no erasure, a tag in the side log. -/
def State.gainTo (p g t : Nat) (s : State) : State :=
  let old := s.gainNow p
  if old = g then s
  else
    let s := ((s.put (Pg.LPT p) LPT.GAIN_NOW g).event (Pg.LPT p) LPT.EV_GAIN_STEP).count (Pg.LPT p) LPT.GAIN_STEP_CNT
    let s := s.modLpt p fun x => { x with stepAt := t, stepFrom := old }
    s.sideLog t SideKind.GAIN p (gainData g false 0) 0

/-- The gain that port p's mode asks for in the bin at tick `t`. -/
def State.gainWanted (s : State) (p t : Nat) : Nat :=
  let pg := Pg.LPT p
  if s.get pg LPT.GAIN_MODE = 2 then s.get pg (LPT.GAIN_SCHED.nth (s.binAt t)) else s.get pg LPT.GAIN

/-- A sample above UP_THRESH at tick `at_`: the hold of R84 runs from the last of them. -/
def State.loudSample (p : Nat) (at_ : Option Nat) (t : Nat) (s : State) : State :=
  match at_ with
  | some a => s.modLpt p fun x => { x with loudAt := Nat.max x.loudAt (Nat.min a t) }
  | none => s

/-- UP_HOLD_MS has passed without a loud sample (R84). -/
def State.holdPassed (s : State) (p t : Nat) : Bool :=
  decide ((s.lptSt p).loudAt + msTicks (s.get (Pg.LPT p) LPT.UP_HOLD_MS) ≤ t)

/-- The planned step of port p at a phase-bin boundary: FIXED takes a committed GAIN, AUTO comes down to its ceiling, SCHEDULE
takes the bin's entry, a higher one only once the hold has passed, and then in one step (DESIGN CHOICE, log entry 126: R84 has an
overload's recovery rise by one code at a time and says of a SCHEDULE entry only that it applies); after an overload step the
gain rises by R84 alone. -/
def State.gainBoundary (p t : Nat) (s : State) : State :=
  let want := s.gainWanted p t
  let now := s.gainNow p
  let mode := s.get (Pg.LPT p) LPT.GAIN_MODE
  let s := onlyIf (decide (want ≤ now)) (fun s => s.modLpt p fun x => { x with ovl := false }) s
  if want < now then s.gainTo p want t
  else if want = now ∨ (s.lptSt p).ovl = true then s
  else if mode = 0 ∨ (mode = 2 ∧ s.holdPassed p t = true) then s.gainTo p want t
  else s

/-- The samples of port p up to tick `t` are an overload (R83): OVL_COUNT successive ones, none of them part of an earlier
overload, with a magnitude of OVL_THRESH or more. -/
def State.overloaded (s : State) (t p : Nat) (samples : List (BitVec 16)) : Bool :=
  decide (samples.length = s.get (Pg.LPT p) LPT.OVL_COUNT) && decide ((s.lptSt p).ovlAt + samples.length ≤ t)
    && samples.all fun v => decide (s.get (Pg.LPT p) LPT.OVL_THRESH ≤ v.toInt.natAbs)

/-- Marks a span of samples of port p as erasure-carrying (R83). -/
def LptSt.mark (x : LptSt) (a b : Nat) : LptSt :=
  { x with marks := (a, b) :: x.marks.filter fun m => markKeep m.2 a }

/-- An overload is confirmed by the samples before tick `t`, and the sample at `t` is the first at the new gain (R83, R85). -/
def State.overload (t p : Nat) (samples : List (BitVec 16)) (s : State) : State :=
  let pg := Pg.LPT p
  if s.portSamples p = false ∨ s.overloaded t p samples = false then s
  else
    let first := t - samples.length
    let s := (s.event pg LPT.EV_OVERLOAD).count pg LPT.OVL_CNT
    let floor := s.get pg LPT.GAIN_MIN
    let x := { s.lptSt p with ovlAt := t, loudAt := Nat.max (s.lptSt p).loudAt (t - 1) }
    let base := if x.stepAt = t then x.stepFrom else s.gainNow p
    let erase := s.get pg LPT.OVL_ERASE
    if s.gainNow p ≤ floor then
      let s := (s.count pg LPT.OVL_AT_MIN_CNT).setLpt p (x.mark first t)
      s.sideLog t SideKind.GAIN p (gainData (s.gainNow p) true 0) (t - first)
    else
      let g := Nat.min (s.gainNow p) (Nat.max floor (base - s.get pg LPT.OVL_STEPS))
      let s := (s.put pg LPT.GAIN_NOW g).count pg LPT.GAIN_STEP_CNT
      let s := s.setLpt p { x.mark first (t + erase) with ovl := true }
      s.sideLog t SideKind.GAIN p (gainData g true erase) (t - first)

/-- OVERLOAD. -/
def execOverload (t : Nat) (port : Fin 16) (samples : List (BitVec 16)) (s : State) : Res :=
  finish ((s.atTick t).overload t port.val samples)

/-- GAIN_STEP_UP (R84): at a phase-bin boundary, with the hold passed, the gain rises by one code toward what the mode asks
for, and the hold starts again. -/
def State.gainUp (t p : Nat) (s : State) : State :=
  let now := s.gainNow p
  let want := s.gainWanted p t
  if s.portSamples p = false ∨ t ≠ s.mtb.boundary ∨ want ≤ now ∨ s.holdPassed p t = false then s
  else
    let s := s.gainTo p (now + 1) t
    s.modLpt p fun x => { x with loudAt := Nat.max x.loudAt t, ovl := x.ovl && decide (now + 1 < want) }

/-- GAIN_STEP_UP. -/
def execGainStepUp (t : Nat) (port : Fin 16) (s : State) : Res := finish ((s.atTick t).gainUp t port.val)

/-- The part of port p in a phase-bin boundary: the safe point of its page (R81), BIN_PEAK and the planned gain step.
In timebase state OFF 1 ms ticks take the boundary's place; no bin ends then, and BIN_PEAK stays. -/
def State.lptBoundary (t p : Nat) (peak : PortPeak) (s : State) : State :=
  let pg := Pg.LPT p
  if s.domOn (96 + p) = false then s
  else
    let s := s.safeAll pg
    let s := onlyIf (decide (s.lps p = LS.SERVICE) && decide (s.get pg LPT.ENA_MODE = 1) && s.domOn (112 + p))
      (State.setEna p true t) s
    if s.portSamples p then
      let s := onlyIf (decide (s.tb ≠ TB.OFF)) (fun s => s.put pg LPT.BIN_PEAK peak.peak.toNat) s
      (s.loudSample p peak.loud t).gainBoundary p t
    else s

/-! ## Checks and states (R91 to R94) -/

/-- Asks for the pilot of a check of port p, where its TX AFE domain is on (R91). -/
def State.startPilot (p t : Nat) (s : State) : State :=
  let tx := s.domOn (112 + p)
  let s := s.modLpt p fun x => { x with pilot := tx, pilotAt := if tx then t else 0, piloted := false }
  onlyIf tx (State.setEna p true t) s

/-- Starts a check of port p (R93): the pilot where the TX AFE domain is on, and the polarity measurement where asked. -/
def State.startCheck (p t : Nat) (polar : Bool) (s : State) : State :=
  (s.modLpt p fun x => { x with checking := true, checkAt := t, polar := polar, ocFound := false }).startPilot p t

/-- Retry r of R94 follows RETRY_FIRST_MS × 2^(r−1), at most RETRY_MAX_S, after `t`. -/
def State.retryAt (s : State) (p t : Nat) : Nat :=
  let pg := Pg.LPT p
  let r := s.get pg LPT.RETRIES
  t + Nat.min (msTicks (s.get pg LPT.RETRY_FIRST_MS) * 2 ^ Nat.min r 40) (s.get pg LPT.RETRY_MAX_S * ticks1s)

/-- Port p enters FAULT with a cause (R93, R95): transmit stops at once, a retry is scheduled, and where the retry count has
reached RETRY_LIMIT the port latches. -/
def State.portFault (p cause t : Nat) (s : State) : State :=
  let pg := Pg.LPT p
  let s := (s.put pg LPT.CAUSE cause).lptTo p LS.FAULT
  let s := (((s.count pg LPT.FAULT_CNT).put pg LPT.TX_AVAIL 0).portOut p t).trigger 10 t
  let s := s.modLpt p fun x => { x with retryDue := s.retryAt p t }
  let lim := s.get pg LPT.RETRY_LIMIT
  if lim ≠ 0 ∧ lim ≤ s.get pg LPT.RETRIES then s.lptTo p LS.FAULT_LATCHED else s

/-- Starts port p from OFF where it is enabled and its RX AFE domain is on (R93). -/
def State.portStart (p t : Nat) (s : State) : State :=
  if s.lps p = LS.OFF ∧ s.enabled (Pg.LPT p) = true ∧ s.domOn (96 + p) = true then
    ((s.put (Pg.LPT p) LPT.RETRIES 0).lptTo p LS.CHECK).startCheck p t true
  else s

/-- Port p goes OFF (R93, R95): transmit stops at once; CAUSE is kept. -/
def State.portOff (p t : Nat) (s : State) : State :=
  if s.lps p = LS.OFF then s
  else ((s.lptTo p LS.OFF).put (Pg.LPT p) LPT.TX_AVAIL 0).portOut p t

/-- CTRL.SOFT_RESET of page LPTp (R44, R93): status, events, counters, CAUSE, the retry count and the strikes clear; the echo
taps and the analog settings stay; a check starts at once where the port may run. -/
def State.portSoftReset (p t : Nat) (s : State) : State :=
  let pg := Pg.LPT p
  let canc := s.reg pg 0x114
  let taps := s.regs.filter fun e => inPage pg (fun off => decide (0x800 ≤ off) && decide (off < 0xC00)) e.1
  let was := decide (s.lps p ≠ LS.OFF)
  let s := s.portOff p t
  let x := s.lptSt p
  let s := (s.clearStatus pg).setReg pg 0x114 canc
  let s : State := { s with regs := taps.foldl (fun r e => Tab.set resetWord r e.1 e.2) s.regs }
  let s := s.setLpt p { LptSt.idle with fltLow := x.fltLow, fltSince := x.fltSince, echoReset := x.echoReset, marks := x.marks }
  let s := s.put pg LPT.FLT x.fltLow.toNat
  let s := onlyIf was (State.event pg LPT.EV_STATE_CHANGE) s
  s.portStart p t

/-- The timebase serves a polarity check (R92). -/
def State.polarReady (s : State) : Bool := decide (s.tb = TB.LOCKED) || decide (s.tb = TB.HOLDOVER)

/-- The polarity that a residual's phase shows: d and REV_STATE (R92). -/
def polarity (phase offset : Nat) : Nat × Nat :=
  let d := (phase + 65536 - offset) % 65536
  (d, if d ≤ 8192 ∨ 57344 ≤ d then 1 else if 24576 ≤ d ∧ d ≤ 40960 then 2 else 3)

/-- The square of the pilot's amplitude at the amplifier output of port p in µV: the DAC amplitude, PILOT_LEVEL × 6 dB below ±1.0 V,
times AMP_GAIN / 10 (R91). -/
def State.pilotSquare (s : State) (p : Nat) : Nat :=
  let g := s.get (Pg.LPT p) LPT.AMP_GAIN
  10 ^ 12 * g * g * levelPower (12 * s.get (Pg.LPT p) LPT.PILOT_LEVEL) / 10 ^ 20

/-- RX_RET_DB: the return of a pilot of amplitude `rx` µV at the RX pins, in dB of attenuation to the nearest dB (R91). -/
def State.pilotReturn (s : State) (p : Nat) (rx : BitVec 24) : Nat :=
  sat 8 ((tenthsOf 30 (rx.toNat * rx.toNat * 10 ^ 18 / Nat.max 1 (s.pilotSquare p)) + 5) / 10)

/-- Z: the line impedance in 0.1 Ω, the amplitude at the amplifier output over the pilot's current (R91). -/
def State.pilotZ (s : State) (p : Nat) (isns : BitVec 24) : Nat :=
  let ua := isns.toNat * s.get (Pg.LPT p) LPT.ISNS_SCALE
  if ua = 0 then 0xFFFF else sat 16 (natSqrt (s.pilotSquare p * 6553600 / (ua * ua)))

/-- What the last pilot found (R91): SHORT, OPEN or nothing. -/
def State.pilotCause (s : State) (p : Nat) : Nat :=
  let pg := Pg.LPT p
  if s.get pg LPT.Z < s.get pg LPT.Z_MIN then LC.SHORT
  else if s.get pg LPT.Z_MAX < s.get pg LPT.Z ∨ s.get pg LPT.PILOT_RX_MIN_DB < s.get pg LPT.RX_RET_DB then LC.OPEN
  else LC.NONE

/-- The pilot of the check in progress has ended: return and impedance are recorded, CHECK_DONE is set, and the echo taps stand
where the pilot has adapted them (R89). -/
def State.pilotResult (p : Nat) (r : PilotResult) (s : State) : State :=
  let pg := Pg.LPT p
  let s := (((s.put pg LPT.RX_RET_DB (s.pilotReturn p r.rx)).put pg LPT.Z (s.pilotZ p r.isns)).event pg LPT.EV_CHECK_DONE).tapsAdapt p r.echo
  s.modLpt p fun x => { x with pilot := false, piloted := true }

/-- The polarity of the check is recorded (R92): UNKNOWN below the detection floor or without a locked timebase. -/
def State.polarResult (p : Nat) (residual : Option (BitVec 16)) (s : State) : State :=
  let pg := Pg.LPT p
  match residual with
  | none => s.put pg LPT.REV_STATE 0
  | some r =>
    if s.polarReady = false then s.put pg LPT.REV_STATE 0
    else
      let d := polarity r.toNat (s.get pg LPT.REV_OFFSET)
      let s := (s.put pg LPT.REV_PHASE d.1).put pg LPT.REV_STATE d.2
      onlyIf (decide (d.2 = 2)) (State.event pg LPT.EV_REVERSED) s

/-- The first cause that a check has found, in the order SHORT, OVERCURRENT, OPEN, REVERSED (R93); an amplifier fault has ended
the check at once. -/
def State.checkCause (s : State) (p : Nat) (polar : Bool) : Nat :=
  let x := s.lptSt p
  let c := if x.piloted then s.pilotCause p else LC.NONE
  if c = LC.SHORT then c
  else if x.ocFound then LC.OVERCURRENT
  else if c = LC.OPEN then c
  else if polar ∧ s.get (Pg.LPT p) LPT.REV_STATE = 2 ∧ s.get (Pg.LPT p) LPT.REV_ACTION = 2 then LC.REVERSED
  else LC.NONE

/-- The check has finished both parts (R93): the first cause found takes the port to FAULT; a passing check clears CAUSE and the
retry count and puts the port in service. -/
def State.judgeCheck (p t : Nat) (polar : Bool) (s : State) : State :=
  let pg := Pg.LPT p
  let piloted := (s.lptSt p).piloted
  let cause := s.checkCause p polar
  let s := (s.count pg LPT.CHECK_CNT).modLpt p fun x => { x with checking := false }
  let s := onlyIf (!piloted) (State.event pg LPT.EV_CHECK_DONE) s
  if cause ≠ LC.NONE then s.portFault p cause t
  else
    let s := onlyIf piloted (fun s => s.put pg LPT.TX_AVAIL (s.domOn (112 + p)).toNat) s
    if s.lps p = LS.CHECK then
      let s := ((s.put pg LPT.CAUSE LC.NONE).put pg LPT.RETRIES 0).lptTo p LS.SERVICE
      let s := s.modLpt p fun x => { x with lastCheck := t }
      onlyIf (decide (s.get pg LPT.ENA_MODE = 1) && s.domOn (112 + p)) (State.setEna p true t) s
    else s

/-- CHECK_DONE (R91 to R93): the measurements of the check in progress on port p as far as they have ended at tick `t`: the
pilot 2 ms after its start, the polarity after 4 cycles, or at once where the timebase cannot serve it. In SERVICE a finding of the
pilot takes the port to FAULT at once, and a pilot that has passed sets TX_AVAIL. -/
def State.checkDone (t p : Nat) (pilot : Option PilotResult) (residual : Option (BitVec 16)) (s : State) : State :=
  let x := s.lptSt p
  if x.checking = false then s
  else
    let s := match pilot with
      | some r => if x.pilot ∧ s.pilotEnd p ≤ t then s.pilotResult p r else s
      | none => s
    let polar := x.polar && decide (s.get (Pg.LPT p) LPT.REV_ACTION ≠ 0)
    let wait := polar && s.polarReady && decide (t < x.checkAt + 4 * s.cycleTicks)
    let serving := decide (s.lps p = LS.SERVICE) && (s.lptSt p).piloted
    let found := serving && decide (s.pilotCause p ≠ LC.NONE)
    let s := onlyIf (serving && !found) (fun s => s.put (Pg.LPT p) LPT.TX_AVAIL (s.domOn (112 + p)).toNat) s
    if (s.lptSt p).pilot = true then s
    else if found then s.judgeCheck p t false
    else if wait then s
    else (onlyIf polar (State.polarResult p residual) s).judgeCheck p t polar

/-- CHECK_DONE. -/
def execCheckDone (t : Nat) (port : Fin 16) (pilot : Option PilotResult) (residual : Option (BitVec 16)) (s : State) : Res :=
  finish ((s.atTick t).checkDone t port.val pilot residual)

/-- PILOT_CHECK_DUE (R91, R92): every CHECK_MS in SERVICE. -/
def State.checkDue (t p : Nat) (s : State) : State :=
  let ms := s.get (Pg.LPT p) LPT.CHECK_MS
  let x := s.lptSt p
  if s.lps p ≠ LS.SERVICE ∨ ms = 0 ∨ x.checking = true ∨ t < x.lastCheck + msTicks ms then s
  else (s.startCheck p t true).modLpt p fun x => { x with lastCheck := t }

/-- PILOT_CHECK_DUE. -/
def execPilotCheckDue (t : Nat) (port : Fin 16) (s : State) : Res := finish ((s.atTick t).checkDue t port.val)

/-- CMD.CHECK_NOW (R91, R93): from FAULT or FAULT_LATCHED a full check with the retry count reset; in SERVICE a pilot
check. -/
def State.checkNow (p : Nat) (s : State) : State :=
  let st := s.lps p
  if st = LS.FAULT ∨ st = LS.FAULT_LATCHED then
    ((s.put (Pg.LPT p) LPT.RETRIES 0).lptTo p LS.CHECK).startCheck p s.time true
  else if st = LS.SERVICE ∧ (s.lptSt p).checking = false then s.startCheck p s.time false
  else s

/-- PORT_RETRY_DUE (R94). -/
def State.portRetry (t p : Nat) (s : State) : State :=
  let pg := Pg.LPT p
  let lim := s.get pg LPT.RETRY_LIMIT
  if s.lps p ≠ LS.FAULT ∨ t < (s.lptSt p).retryDue then s
  else if lim ≠ 0 ∧ lim ≤ s.get pg LPT.RETRIES then s.lptTo p LS.FAULT_LATCHED
  else ((s.bumpSat pg LPT.RETRIES).lptTo p LS.CHECK).startCheck p t true

/-- PORT_RETRY_DUE. -/
def execPortRetryDue (t : Nat) (port : Fin 16) (s : State) : Res := finish ((s.atTick t).portRetry t port.val)

/-- The TX AFE domain of port p in SERVICE has come on (R91, R95): a pilot check at once, its pilot part of a check that is in
progress. -/
def State.txAfeOn (t p : Nat) (s : State) : State :=
  let x := s.lptSt p
  if s.lps p ≠ LS.SERVICE ∨ s.domOn (112 + p) = false ∨ s.flag (Pg.LPT p) LPT.TX_AVAIL = true ∨ x.pilot = true then s
  else if x.checking then s.startPilot p t
  else s.startCheck p t false

/-- TX_AFE_ON. -/
def execTxAfeOn (t : Nat) (port : Fin 16) (s : State) : Res := finish ((s.atTick t).txAfeOn t port.val)

/-! ## Faults (R87, R88) -/

/-- AMP_FAULT (R87): the level of LPn_FLT_N, low since a tick; low for 10 µs while LPn_ENA is high and more than 20 µs old, it
is an amplifier fault. -/
def State.ampFault (t p : Nat) (low : Bool) (since : Nat) (s : State) : State :=
  let pg := Pg.LPT p
  let s := (s.modLpt p fun x => { x with fltLow := low, fltSince := since }).put pg LPT.FLT low.toNat
  let from_ := Nat.max since ((s.lptSt p).enaSince + usTicks 20)
  if low = true ∧ s.flag pg LPT.ENA = true ∧ from_ + usTicks 10 ≤ t ∧ (s.lps p = LS.SERVICE ∨ s.lps p = LS.CHECK) then
    (s.event pg LPT.EV_AMP_FAULT).portFault p LC.AMP_FAULT t
  else s

/-- AMP_FAULT. -/
def execAmpFault (t : Nat) (port : Fin 16) (low : Bool) (since : Nat) (s : State) : Res :=
  finish ((s.atTick t).ampFault t port.val low since)

/-- The amplifier current of port p that a code of its LPn_ISNS converter stands for, in µA: (code − 2,048) × ISNS_SCALE (R88). -/
def State.ampCurrent (s : State) (p : Nat) (code : BitVec 12) : Int :=
  ((code.toNat : Int) - 2048) * (s.get (Pg.LPT p) LPT.ISNS_SCALE : Nat)

/-- The current of port p has been above ILIM_MA in magnitude for ILIM_US without a break at tick `t` (R88): since `since`, the
smallest magnitude being that of `code`, and later than the last overcurrent. -/
def State.isOvercurrent (s : State) (t p since : Nat) (code : BitVec 12) : Bool :=
  decide (s.get (Pg.LPT p) LPT.ILIM_MA * 1000 < (s.ampCurrent p code).natAbs)
    && decide (since + usTicks (s.get (Pg.LPT p) LPT.ILIM_US) ≤ t) && (s.lptSt p).strikes.all fun x => decide (x < since ∨ t < x)

/-- OVERCURRENT (R88): the port's frames end; OC_STRIKES overcurrents within OC_WINDOW_MS take it to FAULT, from CHECK when the
check is judged (R93). The frames on the line at the last strike end as attempts first, and then the port enters FAULT
(DESIGN CHOICE, log entry 127: R88 gives both effects and not their order; under R95 alone they would end with 0x12). -/
def State.overcurrent (t p since : Nat) (code : BitVec 12) (s : State) : State :=
  let pg := Pg.LPT p
  if (s.lps p ≠ LS.SERVICE ∧ s.lps p ≠ LS.CHECK) ∨ s.isOvercurrent t p since code = false then s
  else
    let s := (s.event pg LPT.EV_OVERCURRENT).count pg LPT.OC_CNT
    let window := msTicks (s.get pg LPT.OC_WINDOW_MS)
    let strikes := t :: (s.lptSt p).strikes.filter fun x => decide (t < x + window)
    let s := (s.modLpt p fun x => { x with strikes := strikes }).abortPort p .overcurrent t
    if strikes.length < s.get pg LPT.OC_STRIKES then s
    else if s.lps p = LS.CHECK then s.modLpt p fun x => { x with ocFound := true }
    else s.portFault p LC.OVERCURRENT t

/-- OVERCURRENT. -/
def execOvercurrent (t : Nat) (port : Fin 16) (since : Nat) (code : BitVec 12) (s : State) : Res :=
  finish ((s.atTick t).overcurrent t port.val since code)

/-- CMD.ECHO_RESET (R89): at the end of a transmission in progress. -/
def State.echoResetCmd (p : Nat) (s : State) : State :=
  (s.modLpt p fun x => { x with echoReset := true }).echoResetDue p

end Sys2Proof.Machine
end

