-- ==== Sys2Proof/Machine/Uart.lean ====
section
/-! DEFINITION. The UARTs (17_check_units_and_uarts.md, R371 to R382): receiver and transmitter FIFOs, breaks and stuck lines,
driver enable, bit-rate measurement and the safe point. -/
namespace Sys2Proof.Machine

def State.uartSt (s : State) (n : Nat) : UartSt := Tab.get (fun _ => UartSt.idle) s.uart n
def State.setUart (n : Nat) (u : UartSt) (s : State) : State :=
  { s with uart := Tab.set (fun _ => UartSt.idle) s.uart n u }

/-- AB_STATE values (R380). -/
def AB.IDLE : Nat := 0
def AB.ARMED : Nat := 1
def AB.DONE : Nat := 2
def AB.FAILED : Nat := 3

/-- Measurement is armed: a failed one stays armed (R380). -/
def State.abArmed (s : State) (n : Nat) : Bool :=
  let st := s.get (Pg.UART n) UART.AB_STATE
  decide (st = AB.ARMED) || decide (st = AB.FAILED)

/-! ## Time on the line (R371) -/

/-- Fabric cycles of one bit: 16 ticks of DIV_INT + DIV_FRAC / 16 cycles, by the active divisor. -/
def State.bitCycles (s : State) (n : Nat) : Nat := 16 * s.get (Pg.UART n) UART.DIV_INT + s.get (Pg.UART n) UART.DIV_FRAC

/-- Bits of a character, the start bit and the stop bits with them. -/
def State.charBits (s : State) (n : Nat) : Nat :=
  let pg := Pg.UART n
  1 + (if s.flag pg UART.DATA_BITS then 7 else 8) + (if s.get pg UART.PARITY = 0 then 0 else 1) + (if s.flag pg UART.STOP then 2 else 1)

/-- SAMPLE ticks, rounded down, of a number of fabric cycles of 600 MHz: 9,375 cycles last 32 ticks. -/
def cyclesTicks (c : Nat) : Nat := 32 * c / 9375

/-- `c` fabric cycles may have passed between an instant of tick `a` and one of tick `b`: ticks show whole SAMPLE periods. -/
def cyclesPassed (a b c : Nat) : Bool := decide (32 * c < 9375 * (b + 1 - a))

/-- Cycles of half a bit times `h`, and of a number of UART ticks, sixteen to a bit. -/
def State.halfBits (s : State) (n h : Nat) : Nat := h * s.bitCycles n / 2
def State.uartTicks (s : State) (n k : Nat) : Nat := k * s.bitCycles n / 16

/-- A UART operates: its domain is on and CTRL.ENABLE set. -/
def State.uartOn (s : State) (n : Nat) : Bool := s.domOn 150 && s.enabled (Pg.UART n)

/-- Shows RX_FILL, TX_FILL and TX_BUSY. -/
def State.showUart (n : Nat) (s : State) : State :=
  let u := s.uartSt n
  ((s.put (Pg.UART n) UART.RX_FILL u.rx.length).put (Pg.UART n) UART.TX_FILL u.tx.length).put (Pg.UART n) UART.TX_BUSY
    (if u.cur.isSome then 1 else 0)

/-! ## Receiver (R372 to R376) -/

/-- The receiver is on: RX_EN, and not held off (R375). -/
def State.uartRxOn (s : State) (n : Nat) : Bool :=
  s.uartOn n && s.flag (Pg.UART n) UART.RX_EN && !s.flag (Pg.UART n) UART.RX_OFF

/-- The receiver listens to RXD: not to the transmitter (LOOPBACK), and in NORMAL not while its own driver is enabled
(R378, R379). -/
def State.uartHears (s : State) (n : Nat) : Bool :=
  let pg := Pg.UART n
  let mode := s.get pg UART.MODE
  s.uartRxOn n && decide (mode ≠ 1) && (s.flag pg UART.RX_WHILE_TX || decide (mode ≠ 0) || !s.flag pg UART.DE)

/-- Stores an entry (R376): a character that finds the FIFO full is dropped, and the next entry carries OVR. -/
def State.uartStore (n : Nat) (data : Byte) (brk fe pe : Bool) (s : State) : State :=
  let pg := Pg.UART n
  let u := s.uartSt n
  if 64 ≤ u.rx.length then
    ((s.setUart n { u with ovr := true }).count pg UART.OVERRUN_CNT).event pg UART.EV_OVERRUN
  else
    let w : Nat := 2 ^ 31 + (if u.ovr then 2 ^ 12 else 0) + (if u.gap then 2 ^ 11 else 0) + (if brk then 2 ^ 10 else 0) +
      (if fe then 2 ^ 9 else 0) + (if pe then 2 ^ 8 else 0) + data.toNat
    let s := s.setUart n { u with rx := u.rx ++ [BitVec.ofNat 32 w], ovr := false, gap := false }
    let s := (s.count pg UART.RX_CHAR_CNT).showUart n
    onlyIf (decide (u.rx.length + 1 = s.get pg UART.RX_THRESH)) (State.event pg UART.EV_RX_THRESH) s

/-- The parity bit of a character is wrong (R371). -/
def State.parityBad (s : State) (n : Nat) (data : Nat) (parity : Bool) : Bool :=
  let ones := ((List.range 8).map fun i => bitOf data i).sum + (if parity then 1 else 0)
  match s.get (Pg.UART n) UART.PARITY with
  | 1 => decide (ones % 2 = 1)
  | 2 => decide (ones % 2 = 0)
  | _ => false

/-- The data bits of a character: bit 7 is 0 for 7-bit characters. -/
def State.uartData (s : State) (n : Nat) (data : Byte) : Byte :=
  if s.flag (Pg.UART n) UART.DATA_BITS then data &&& 0x7F else data

/-- The half-bits from the start edge of a character to its mid-stop sample, or to the mid-start sample of a false start. -/
def State.startSpan (s : State) (n : Nat) (start : Bool) : Nat :=
  if start then 2 * (s.charBits n - (if s.flag (Pg.UART n) UART.STOP then 2 else 1)) + 1 else 1

/-- A start edge whose character is sampled now was one that the receiver accepts: none before `rxFree`. -/
def State.startHeard (s : State) (n : Nat) (start : Bool) : Bool :=
  cyclesPassed (s.uartSt n).rxFree s.time (s.halfBits n (s.startSpan n start))

/-- The receiver accepts no start edge for `h` half-bits from now. -/
def State.rxHold (n h : Nat) (s : State) : State :=
  s.setUart n { s.uartSt n with rxFree := Nat.max (s.uartSt n).rxFree (s.time + cyclesTicks (s.halfBits n h)) }

/-- RXD has been low for a full character time (R374): one entry, and nothing more until RXD has been high for one bit. -/
def State.uartBreak (n : Nat) (s : State) : State :=
  let pg := Pg.UART n
  (((s.event pg UART.EV_BREAK).count pg UART.BREAK_CNT).uartStore n 0 true true false).rxHold n 2

/-- A character at its mid-stop sample (R372, R373): whether the start bit read low at its mid-point, its data bits, its
parity bit, whether RXD is high at the mid-stop sample, and whether it is high half a bit later. -/
def State.uartChar (n : Nat) (start : Bool) (data : Byte) (parity stop half : Bool) (s : State) : State :=
  let pg := Pg.UART n
  if s.uartHears n = false ∨ s.startHeard n start = false then s
  else if start = false then s.count pg UART.FALSE_START_CNT
  else if s.abArmed n then s
  else
    let s := (s.put pg UART.LINE (if stop then 1 else 0)).rxHold n 0
    let d := s.uartData n data
    let par := parity && decide (s.get pg UART.PARITY ≠ 0)
    let bad := s.parityBad n d.toNat par
    if stop then
      let s := if bad then (s.event pg UART.EV_PE).count pg UART.PE_CNT else s
      s.uartStore n d false false bad
    else if d = 0 && !par && !half then s.uartBreak n
    else
      let s := if half then s.rxHold n 3 else s
      let s := (s.event pg UART.EV_FE).count pg UART.FE_CNT
      let s := if bad then (s.event pg UART.EV_PE).count pg UART.PE_CNT else s
      s.uartStore n d false true bad

/-! ## Transmitter (R377, R378) -/

/-- The transmitter may take the next item: enabled, TX_EN, not in ECHO. -/
def State.uartSends (s : State) (n : Nat) : Bool :=
  s.uartOn n && s.flag (Pg.UART n) UART.TX_EN && decide (s.get (Pg.UART n) UART.MODE ≠ 2)

/-- The start bit of the next item goes on the line at tick `t0`: a break that is due, else the oldest character. The last
character that leaves the FIFO sets TX_EMPTY. -/
def State.uartTake (n t0 : Nat) (s : State) : State :=
  let u := { s.uartSt n with leadFrom := none, startAt := t0 }
  if s.uartSends n = false then (s.setUart n { u with cur := none }).showUart n
  else if u.brkDue then (s.setUart n { u with cur := some .brk, brkDue := false }).showUart n
  else match u.tx with
    | [] => (s.setUart n { u with cur := none }).showUart n
    | b :: rest =>
      onlyIf (decide (rest = [])) (State.event (Pg.UART n) UART.EV_TX_EMPTY)
        ((s.setUart n { u with cur := some (.char b), tx := rest }).showUart n)

/-- A start bit that waited for DE_LEAD has gone out: carried out with the unit's next command or read. -/
def State.uartDue (n : Nat) (s : State) : State :=
  match (s.uartSt n).leadFrom with
  | none => s
  | some t0 =>
    let lead := s.uartTicks n (s.get (Pg.UART n) UART.DE_LEAD)
    if t0 + cyclesTicks lead ≤ s.time then s.uartTake n (t0 + cyclesTicks lead) else s

/-- The transmitter goes on with what waits, or falls idle. A transmission begins with DE asserted DE_LEAD ticks before its
first start bit; one whose driver is still enabled goes on without (R378). -/
def State.uartNext (n : Nat) (s : State) : State :=
  let pg := Pg.UART n
  let u := s.uartSt n
  let waits := s.uartSends n && (u.brkDue || decide (u.tx ≠ []))
  if waits && s.flag pg UART.DE_EN && decide (s.get pg UART.MODE = 0) && !s.flag pg UART.DE then
    ((s.put pg UART.DE 1).setUart n { u with cur := none, leadFrom := some s.time }).showUart n |>.uartDue n
  else s.uartTake n s.time

/-- An idle transmitter whose gap has passed starts. -/
def State.uartStart (n : Nat) (s : State) : State :=
  let u := s.uartSt n
  if u.cur.isNone && u.leadFrom.isNone && !u.gapWait && (u.brkDue || decide (u.tx ≠ [])) then s.uartNext n else s

/-- TX_DATA (R377): queues a character, or drops it when the FIFO is full. -/
def State.uartTx (n : Nat) (b : Byte) (s : State) : State :=
  let s := s.uartDue n
  let u := s.uartSt n
  if 64 ≤ u.tx.length then (s.event (Pg.UART n) UART.EV_TX_OVF).count (Pg.UART n) UART.TX_OVF_CNT
  else ((s.setUart n { u with tx := u.tx ++ [b] }).showUart n).uartStart n

/-- CMD.SEND_BREAK (R377). -/
def State.sendBreak (n : Nat) (s : State) : State :=
  let s := s.uartDue n
  (s.setUart n { s.uartSt n with brkDue := true }).uartStart n

/-- CMD.TX_FLUSH. -/
def State.txFlush (n : Nat) (s : State) : State :=
  let s := s.uartDue n
  (s.setUart n { s.uartSt n with tx := [] }).showUart n

/-- The level of the DE pin: high while DE is asserted, or low where DE_POL is set (R378). -/
def State.dePin (s : State) (n : Nat) : Bool := s.flag (Pg.UART n) UART.DE != s.flag (Pg.UART n) UART.DE_POL

/-- DE as the mode has it (R379): held asserted in ECHO with DE_EN, released in LOOPBACK; in NORMAL it stays with a transmission
under way. -/
def State.showDe (n was : Nat) (s : State) : State :=
  let pg := Pg.UART n
  let on := match s.get pg UART.MODE with
    | 0 => s.flag pg UART.DE && s.flag pg UART.DE_EN && decide (was = 0)
    | 2 => s.flag pg UART.DE_EN
    | _ => false
  s.put pg UART.DE (if on then 1 else 0)

/-- An armed set of a UART page applies (R382): the divisor in use and the mode follow. -/
def State.uartApply (n : Nat) (s : State) : State :=
  let was := s.get (Pg.UART n) UART.MODE
  let s := s.safeAll (Pg.UART n)
  ((s.put (Pg.UART n) UART.DIV_NOW (s.get (Pg.UART n) UART.DIV_INT + 65536 * s.get (Pg.UART n) UART.DIV_FRAC)).showDe n was).uartStart n

/-- A set that has waited 10 ms applies at the transmitter's character boundary (R382): the character that the receiver is
taking is dropped. -/
def State.uartAbort (n : Nat) (s : State) : State :=
  let pg := Pg.UART n
  let s := s.setUart n { s.uartSt n with rxFree := Nat.max (s.uartSt n).rxFree s.time }
  ((s.uartApply n).event pg UART.EV_CFG_ABORT).count pg UART.CFG_ABORT_CNT

/-- The set armed on a UART page has waited 10 ms at `t`. -/
def State.uartLate (s : State) (n t : Nat) : Bool :=
  s.flag (Pg.UART n) CFG.ARMED && decide (msTicks 10 ≤ t - (s.uartSt n).commitAt)

/-- The set armed on a UART page applies at an instant between characters with the receiver idle (R382). -/
def State.uartQuiet (n : Nat) (rxIdle : Bool) (s : State) : State :=
  onlyIf (rxIdle && (s.uartSt n).cur.isNone && s.flag (Pg.UART n) CFG.ARMED) (State.uartApply n) s

/-- UART_CHAR_RECEIVED: the receiver is idle after it unless RXD was low at its stop bit. -/
def execUartCharReceived (t : Nat) (unit : Fin 4) (start : Bool) (data : Byte) (parity : Bool) (stop : Bool) (half : Bool)
    (s : State) : Res :=
  let n := unit.val
  finish ((((s.atTick t).uartDue n).uartChar n start data parity stop half).uartQuiet n (stop || !start))

/-- BREAK (R374): RXD has been low since the start edge of tick `since` for a full character time; one entry, however long the
low level lasts. -/
def execBreak_ (t : Nat) (unit : Fin 4) (since : Nat) (s : State) : Res :=
  let n := unit.val
  let s := (s.atTick t).uartDue n
  finish (onlyIf (s.uartHears n && !s.abArmed n && decide ((s.uartSt n).rxFree ≤ since) &&
      cyclesPassed since t (s.halfBits n (2 * s.charBits n)))
    (fun s => (s.put (Pg.UART n) UART.LINE 0).uartBreak n) s)

/-- LINE_STUCK (R375): RXD has been low since tick `since` for STUCK_MS. -/
def execLineStuck (t : Nat) (unit : Fin 4) (since : Nat) (s : State) : Res :=
  let pg := Pg.UART unit.val
  let ms := s.get pg UART.STUCK_MS
  let s := (s.atTick t).uartDue unit.val
  finish (onlyIf (s.uartOn unit.val && decide (ms ≠ 0) && decide (msTicks ms ≤ t - since) && !s.flag pg UART.LINE_STUCK)
    (fun s =>
      let s := (((s.put pg UART.LINE_STUCK 1).put pg UART.LINE 0).event pg UART.EV_LINE_STUCK).count pg UART.STUCK_CNT
      onlyIf (s.flag pg UART.STUCK_ACTION) (State.put pg UART.RX_OFF 1) s) s)

/-- LINE_RECOVER (R375): RXD has been high since tick `since` for one character time. -/
def execLineRecover (t : Nat) (unit : Fin 4) (since : Nat) (s : State) : Res :=
  let n := unit.val
  let s := (s.atTick t).uartDue n
  finish (onlyIf (s.uartOn n && cyclesPassed since t (s.halfBits n (2 * s.charBits n)))
    (fun s => (s.put (Pg.UART n) UART.LINE_STUCK 0).put (Pg.UART n) UART.LINE 1) s)

/-- RX_DATA_READ (R376). -/
def State.uartRead (n : Nat) (s : State) : State :=
  let u := s.uartSt n
  match u.rx with
  | [] => s.answer 0
  | w :: rest => ((s.setUart n { u with rx := rest }).showUart n).answer w

/-- Cycles that an item keeps the line: a character, or a break of one character time and one bit (R377). -/
def State.itemCycles (s : State) (n : Nat) (i : UartItem) : Nat :=
  s.halfBits n (2 * s.charBits n + match i with | .char _ => 0 | .brk => 2)

/-- In LOOPBACK the receiver has taken the item that the transmitter sent (R379). -/
def State.loopItem (n : Nat) (i : UartItem) (s : State) : State :=
  if s.get (Pg.UART n) UART.MODE = 1 ∧ s.uartRxOn n = true ∧ s.abArmed n = false then
    match i with
    | .char b => s.uartStore n (s.uartData n b) false false false
    | .brk => s.uartBreak n
  else s

/-- UART_CHAR_SENT: the item on the line ends; between characters, with the receiver idle or after 10 ms, the page is at its
safe point (R382); the next item follows, or the line goes idle. -/
def State.uartSent (n : Nat) (rxIdle : Bool) (s : State) : State :=
  let pg := Pg.UART n
  match (s.uartSt n).cur with
  | none => s
  | some item =>
    let s := match item with
      | .char _ => s.count pg UART.TX_CHAR_CNT
      | .brk => s
    let s := s.loopItem n item
    let s := s.setUart n { s.uartSt n with cur := none, endAt := s.time }
    let s := if rxIdle && s.flag pg CFG.ARMED then s.uartApply n else if s.uartLate n s.time then s.uartAbort n else s
    let s := s.uartNext n
    let u := s.uartSt n
    if u.cur.isNone && u.leadFrom.isNone then s.setUart n { u with gapWait := decide (s.get pg UART.TX_GAP ≠ 0) } else s

/-- UART_CHAR_SENT: the item has been on the line for its time. -/
def execUartCharSent (t : Nat) (unit : Fin 4) (rxIdle : Bool) (s : State) : Res :=
  let n := unit.val
  let s := (s.atTick t).uartDue n
  let u := s.uartSt n
  finish (onlyIf (s.uartOn n && u.cur.all fun i => cyclesPassed u.startAt t (s.itemCycles n i)) (State.uartSent n rxIdle) s)

/-- TX_GAP_EXPIRY: TX_GAP half-characters have passed since the last stop bit; the transmitter may start again. -/
def execTxGapExpiry (t : Nat) (unit : Fin 4) (s : State) : Res :=
  let n := unit.val
  let u := s.uartSt n
  finish (onlyIf (s.uartOn n && u.cur.isNone && cyclesPassed u.endAt t (s.halfBits n (s.get (Pg.UART n) UART.TX_GAP * s.charBits n)))
    (fun s => (s.setUart n { s.uartSt n with gapWait := false }).uartStart n) (s.atTick t))

/-- DE_RELEASE (R378): DE_LAG ticks after the last stop bit, once the FIFO is empty; the receiver stays deaf 1 UART tick more.
In ECHO the driver stays enabled (R379). -/
def execDeRelease (t : Nat) (unit : Fin 4) (s : State) : Res :=
  let n := unit.val
  let pg := Pg.UART n
  let s := (s.atTick t).uartDue n
  let u := s.uartSt n
  finish (onlyIf (s.domOn 150 && u.cur.isNone && u.leadFrom.isNone && decide (u.tx = []) && decide (s.get pg UART.MODE ≠ 2) &&
      cyclesPassed u.endAt t (s.uartTicks n (s.get pg UART.DE_LAG)))
    (fun s =>
      let deaf := s.time + cyclesTicks (s.uartTicks n 1)
      (s.put pg UART.DE 0).setUart n { u with rxFree := if s.flag pg UART.RX_WHILE_TX then u.rxFree else Nat.max u.rxFree deaf }) s)

/-- IDLE (R381): RXD has been high since the stop bit that ended at tick `since`, for IDLE_GAP half-characters; the next
character stored carries GAP. A gap is reported once. -/
def execIdle (t : Nat) (unit : Fin 4) (since : Nat) (s : State) : Res :=
  let n := unit.val
  let pg := Pg.UART n
  let s := (s.atTick t).uartDue n
  let gap := s.get pg UART.IDLE_GAP
  finish (onlyIf (s.uartOn n && decide (gap ≠ 0) && decide ((s.uartSt n).idleFrom ≠ some since) &&
      cyclesPassed since t (s.halfBits n (gap * s.charBits n)))
    (fun s => ((s.setUart n { s.uartSt n with gap := true, idleFrom := some since }).put pg UART.LINE 1).event pg UART.EV_IDLE) s)

/-! ## Bit-rate measurement (R380) -/

/-- The levels of a character on the line: start bit, data bits, parity bit, first stop bit. -/
def charLevels (seven : Bool) (parity data : Nat) : List Nat :=
  let n := if seven then 7 else 8
  let bits := (List.range n).map fun i => bitOf data i
  let par := match parity with
    | 1 => [bits.sum % 2]
    | 2 => [(bits.sum + 1) % 2]
    | _ => []
  [0] ++ bits ++ par ++ [1]

/-- Positions of the falling edges of a character after its start edge, in bits from the start edge. -/
def fallingEdges (levels : List Nat) : List Nat :=
  (List.range levels.length).filter fun i => decide (0 < i) && decide (levels.getD (i - 1) 0 = 1) && decide (levels.getD i 1 = 0)

/-- The edges of the character that a UART expects. -/
def State.abEdges (s : State) (n : Nat) : List Nat :=
  fallingEdges (charLevels (s.flag (Pg.UART n) UART.DATA_BITS) (s.get (Pg.UART n) UART.PARITY) (s.get (Pg.UART n) UART.AB_CHAR))

/-- A measurement from the falling edges seen, in fabric cycles from the start edge: the divisor in sixteenths and the rate,
none where R380 fails it. -/
def abMeasure (expected seen : List Nat) : Option (Nat × Nat) :=
  let k := expected.getLastD 0
  let t := seen.getLastD 0
  let rate := 600000000 * k / Nat.max 1 t
  let near := (expected.zip seen).all fun e => decide (4 * ((e.2 * k : Int) - (e.1 * t : Int)).natAbs ≤ t)
  if decide (0 < k) && decide (0 < t) && decide (seen.length = expected.length) && near && decide (1200 * t ≤ 600000000 * k) &&
      decide (600000000 * k ≤ 6000000 * t) then some (t / k, rate) else none

/-- AB_MEASURE_DONE. -/
def State.abDone (n : Nat) (edges : List Nat) (s : State) : State :=
  let pg := Pg.UART n
  if s.uartRxOn n = false ∨ s.abArmed n = false ∨ (s.get pg UART.MODE ≠ 1 ∧ s.uartHears n = false) then s
  else match abMeasure (s.abEdges n) edges with
    | some (div16, rate) =>
      let s := (s.put pg UART.DIV_INT (div16 / 16)).put pg UART.DIV_FRAC (div16 % 16)
      let s := (s.put pg UART.DIV_NOW (div16 / 16 + 65536 * (div16 % 16))).put pg UART.AB_BAUD rate
      let s := (s.put pg UART.AB_STATE AB.DONE).event pg UART.EV_AB_DONE
      if s.flag pg UART.AB_STORE then s.uartStore n (BitVec.ofNat 8 (s.get pg UART.AB_CHAR)) false false false else s
    | none => ((s.put pg UART.AB_STATE AB.FAILED).event pg UART.EV_AB_FAIL).count pg UART.AB_FAIL_CNT

/-- AB_MEASURE_DONE. -/
def execAbMeasureDone (t : Nat) (unit : Fin 4) (edges : List Nat) (s : State) : Res :=
  finish (((s.atTick t).uartDue unit.val).abDone unit.val edges)

/-! ## Commands -/

/-- UART_CFG_ABORT (R382): a set that has waited 10 ms applies at the transmitter's character boundary; with a character on the
line that boundary is its end (UART_CHAR_SENT). -/
def execUartCfgAbort (t : Nat) (unit : Fin 4) (s : State) : Res :=
  let s := (s.atTick t).uartDue unit.val
  finish (onlyIf (s.uartOn unit.val && s.uartLate unit.val t && (s.uartSt unit.val).cur.isNone) (State.uartAbort unit.val) s)

/-- CTRL.ENABLE of a UART (R44, R380): AB_ON_ENABLE arms; a disabled UART is idle. -/
def State.uartEnable (n : Nat) (on : Bool) (s : State) : State :=
  if on then
    let s := onlyIf (s.flag (Pg.UART n) UART.AB_ON_ENABLE) (State.put (Pg.UART n) UART.AB_STATE AB.ARMED) s
    let s := s.setUart n { s.uartSt n with rxFree := s.time }
    (s.showDe n (s.get (Pg.UART n) UART.MODE)).uartStart n
  else
    ((s.setUart n { s.uartSt n with cur := none, leadFrom := none, brkDue := false, gapWait := false }).put (Pg.UART n) UART.DE 0).showUart n

/-- SOFT_RESET of a UART: FIFOs, status, events and counters return to reset; the active divisor stays in force. -/
def State.uartSoftReset (n : Nat) (s : State) : State :=
  let s := (s.setUart n UartSt.idle).clearStatus (Pg.UART n)
  s.put (Pg.UART n) UART.DIV_NOW (s.get (Pg.UART n) UART.DIV_INT + 65536 * s.get (Pg.UART n) UART.DIV_FRAC)

/-- The UART domain goes off: FIFO contents are lost. -/
def State.uartOff (s : State) : State := forEach (List.range 4) (fun n s => s.uartSoftReset n) s

end Sys2Proof.Machine
end

