-- ==== Sys2Proof/Machine/SafePoint.lean ====
section
/-! DEFINITION. Safe points of the pages (R20, R45): what applying an armed set does on each, and the checks between pages that
follow it (R156, R209, R221, R285, R288). -/
namespace Sys2Proof.Machine

/-! ## Checks that the active sets must keep -/

/-- Ports whose TXS active set has ALARM_EN. -/
def State.alarmPorts (s : State) : List Nat := (List.range 16).filter fun p => s.flag (Pg.TXS p) TXS.ALARM_EN

/-- The reserve passes R285 for a reading of page OAS. -/
def State.reserveOk (s : State) (rd : Fld → Nat) : Bool :=
  decide (rd OAS.RES_C0_EN = 0) || (decide (s.alarmPorts.length * s.cost 0 ≤ rd OAS.RES_C0_MW)
    && (decide (rd OAS.CAP_MW = 0) || decide (rd OAS.RES_C0_MW + 1500 ≤ rd OAS.CAP_MW)))

/-- RESERVE_SHORT follows the active sets (R285). -/
def State.refreshReserve (s : State) : State :=
  let bad := !s.reserveOk (s.get Pg.OAS)
  let was := s.flag Pg.OAS OAS.RESERVE_SHORT
  onlyIf (bad && !was) (State.event Pg.OAS OAS.EV_RESERVE_SHORT) (s.put Pg.OAS OAS.RESERVE_SHORT bad.toNat)

/-- Offset of profile j of page DWL. -/
def profOff (j : Nat) : Nat := 0x800 + 16 * j

/-- Profile of port p, and of TXCHk of port p, in a reading of page DWL. -/
def profOfPort (rd : Fld → Nat) (p : Nat) : Nat :=
  (if p < 8 then rd DWL.PORT_PROF_LO else rd DWL.PORT_PROF_HI) / 2 ^ (4 * (p % 8)) % 16
def profOfChan (rd : Fld → Nat) (p k : Nat) : Nat :=
  (if k < 8 then rd (DWL.CH_PROF_LO.nth p) else rd (DWL.CH_PROF_HI.nth p)) / 2 ^ (4 * (k % 8)) % 16

/-- The conditions of R220 that make a dwell reserve inconsistent, for port p with an alarm channel; the offset they name. -/
def State.dwellShort (s : State) (rd : Fld → Nat) (p : Nat) : Option Nat :=
  let j := profOfPort rd p
  let c := profOfChan rd p (s.get (Pg.TXS p) TXS.ALARM_CH)
  let on := rd DWL.C0_ON_MS
  let en := fun i => decide (rd (DWL.EN.nth i) = 1)
  let w := fun i => rd (DWL.WINDOW_S.nth i)
  let d := fun i => rd (DWL.DUTY_PM.nth i)
  if en j && (decide (d j < rd DWL.RESERVE_PM) || decide (rd DWL.RESERVE_PM * w j < on)) then some (profOff j + 8)
  else if en c && (decide (rd (DWL.MAX_ON_MS.nth c) < on) || decide (d c * w c < on)) then some (profOff c)
  else none

/-- R220 is broken in its INCONSISTENT conditions: the offset named. -/
def State.dwellConflict (s : State) (rd : Fld → Nat) : Option Nat :=
  if rd DWL.RESERVE_EN = 0 then (if s.alarmPorts = [] then none else some 0x010)
  else s.alarmPorts.findSome? (s.dwellShort rd)

/-- RESERVE_MISMATCH follows the active sets (R221). -/
def State.refreshDwell (s : State) : State :=
  let bad := (s.dwellConflict (s.get Pg.DWL)).isSome
  let was := s.flag Pg.DWL DWL.RESERVE_MISMATCH
  onlyIf (bad && !was) (State.event Pg.DWL DWL.EV_RESERVE_MISMATCH) (s.put Pg.DWL DWL.RESERVE_MISMATCH bad.toNat)

/-! ## What applying a set does -/

/-- The safe point of page TXSp but for its predistortion taps: the next DAC sample. -/
def State.txsSafe (p : Nat) (s : State) : State :=
  if s.flag (Pg.TXS p) CFG.ARMED then
    (((s.safePart (Pg.TXS p) fun o => decide (o < 0x800)).refreshMismatch p).refreshDwell).refreshReserve
  else s

/-- Taps that link firmware has committed for port p. -/
def State.linkTaps (s : State) (p : Nat) : List Nat := Tab.get (fun _ => []) s.txs.linkTaps p

/-- The taps of link firmware become the active ones. -/
def State.takeLinkTaps (p : Nat) (s : State) : State :=
  let s := forEach ((s.linkTaps p).zipIdx) (fun e s => s.put (Pg.TXS p) (TXS.PD_TAP.nth e.2) e.1) s
  { s with txs := { s.txs with linkTaps := Tab.set (fun _ => []) s.txs.linkTaps p [] } }

/-- Committed predistortion taps, the host's or link firmware's, take effect at a phase-bin boundary; the old ones fade out from
there (R164). -/
def State.tapsSafe (p : Nat) (s : State) : State :=
  let pg := Pg.TXS p
  let host := s.flag pg CFG.ARMED && s.shadow.any (fun e => inPage pg (fun o => decide (0x800 ≤ o)) e.1)
  if host || decide (s.linkTaps p ≠ []) then
    let old := s.pdTaps p
    let s := (onlyIf host (State.safePart pg fun o => decide (0x800 ≤ o)) s).takeLinkTaps p
    let s : State := { s with txs := { s.txs with oldTaps := Tab.set (fun _ => []) s.txs.oldTaps p old
                                                  tapsAt := Tab.set (fun _ => 0) s.txs.tapsAt p s.time } }
    s.event pg TXS.EV_PD_APPLIED
  else s

/-- A change of FORCE_FALLBACK (R209). -/
def State.macSafe (t : Nat) (s : State) : State :=
  let was := s.flag Pg.MAC MAC.FORCE_FALLBACK
  let s := s.safeAll Pg.MAC
  let now := s.flag Pg.MAC MAC.FORCE_FALLBACK
  if now && !was && decide (s.get Pg.MAC MAC.REGIME = 0) then s.toFallback Why.FORCED t
  else if was && !now && s.fwRunning then s.toNormal
  else s

/-- The safe point of page DWL (R221). -/
def State.dwlSafe (s : State) : State := if s.flag Pg.DWL CFG.ARMED then (s.safeAll Pg.DWL).refreshDwell else s

/-- LINE_MW of the ports, for the commits that make it non-zero (R288). -/
def State.lineMws (s : State) : List Nat := (List.range 16).map fun p => s.get Pg.OAS (OAS.LINE_MW.nth p)

/-- The line tokens of port p in µJ. -/
def State.token (s : State) (p : Nat) : Int := Tab.get (fun _ => 0) s.oas.tokens p

/-- Sets the line tokens of port p; TOKENS shows mJ. -/
def State.setToken (p : Nat) (v : Int) (s : State) : State :=
  let s := s.modOas fun o => { o with tokens := Tab.set (fun _ => 0) o.tokens p v }
  s.put Pg.OAS (OAS.TOKENS.nth p) (satSigned 16 (v / 1000))

/-- A port whose AMP_RTD_EN is 0 has no amplifier temperature: it is neither hot nor at fault (R289). -/
def State.ampIdle (p : Nat) (s : State) : State :=
  if s.flag Pg.OAS (OAS.AMP_RTD_EN.nth p) then s
  else ((s.put Pg.OAS (OAS.AMP_T.nth p) 0).put Pg.OAS (OAS.AMP_HOT.nth p) 0).put Pg.OAS (OAS.AMP_SENSOR_FAULT.nth p) 0

/-- The safe point of page OAS: a window boundary. Buckets start full, a lifted cap lifts the cap level. -/
def State.oasSafe (s : State) : State :=
  if s.flag Pg.OAS CFG.ARMED then
    let old := s.lineMws
    let s := s.safeAll Pg.OAS
    let s := forEach (List.range 16) (fun p s =>
      let now := s.get Pg.OAS (OAS.LINE_MW.nth p)
      if now = 0 then s.setToken p 0
      else if old.getD p 0 = 0 then s.setToken p (1000 * (s.get Pg.OAS (OAS.LINE_BURST_MJ.nth p) : Int))
      else s) s
    let s := if s.get Pg.OAS OAS.CAP_MW = 0 then
        (s.put Pg.OAS OAS.CAP_LEVEL 0).modOas fun o => { o with overSince := none, underSince := none }
      else s
    let s := forEach (List.range 16) State.ampIdle s
    s.refreshReserve.setLevel
  else s

/-- The safe point of a CRC page (R369): a change of parameters restarts the unit. -/
def State.crcSafe (n : Nat) (s : State) : State :=
  if s.flag (Pg.CRC n) CFG.ARMED then (s.safeAll (Pg.CRC n)).crcRestart n else s

/-- Applies an armed set of a page whatever the instant: at power-on (R45), and for pages whose safe point is the COMMIT. -/
def State.pageApply (pg t : Nat) (s : State) : State :=
  match pageIndex pg with
  | none => s
  | some (k, _, i) =>
    match k with
    | .rst => s.rstSafe
    | .drc0 => s.drcSafe
    | .oas => s.oasSafe
    | .mtb => s.tbSafePoint
    | .erg => forEach (List.range 4) (fun e s => s.ergTake (4 * i + e)) s
    | .txs => (s.txsSafe i).tapsSafe i
    | .mac => s.macSafe t
    | .dwl => s.dwlSafe
    | .wqd => s.queueSafe (s.get Pg.WQD WQD.QD_IDX)
    | .crc => s.crcSafe i
    | .uart => if s.flag pg CFG.ARMED then s.uartApply i else s
    | _ => s.safeAll pg

/-- The pages whose safe point is the COMMIT itself, at present: clocks, reset, DRAM, security, filter, CRC units, a Seif core
that does not run, and Caravan in OFF. -/
def State.appliesAtCommit (s : State) (pg : Nat) : Bool :=
  match pageIndex pg with
  | none => false
  | some (k, _, i) =>
    match k with
    | .glb | .hif | .clk | .rst | .drc0 | .drc | .sec | .flt | .crc | .lnk => k ≠ .lnk
    | .seif => !(decide (s.coreState i = XS.RUNNING) || decide (s.coreState i = XS.WAITING))
    | .cav => decide (s.cavState = CS.OFF)
    | _ => false

/-- The instant `t` is a safe point of a page, for the pages whose whole set applies at one instant. -/
def State.isSafePoint (s : State) (pg t : Nat) : Bool :=
  match pageIndex pg with
  | none => false
  | some (k, _, i) =>
    match k with
    | .oas | .pwd0 | .mac | .dwl => decide (t % 2048 = 0)
    | .mtb | .lpt | .ergx | .nmap => s.binDue t
    | .txs | .wad | .wqd => true
    | .mir => s.mir.running.all fun e => e.2.isNone
    | .lnk => decide (s.lnk.commitAt + 2048 ≤ t)
    | .seif => true
    | .uart => (s.uartSt i).cur.isNone
    | _ => s.appliesAtCommit pg

/-- SAFE_POINT: the block of a page is at its safe point at `t`, or the parts of it that are take their share of the set. -/
def State.safePoint (pg t : Nat) (s : State) : State :=
  match pageIndex pg with
  | none => s
  | some (k, _, i) =>
    if s.pageOn pg = false ∨ s.clockStopped pg = true then s
    else match k with
      | .erg => s.ergSafePoint i
      | .txs => if s.binDue t then (s.txsSafe i).tapsSafe i else s.txsSafe i
      | .sns => s.snsIdleSafe t
      | .dec => s.decIdleSafe t
      | .exc => s.excIdleSafe t
      | .loop =>
        if t % 2048 = 0 then
          let s := onlyIf (s.loopOn 0) (State.safePart Pg.LOOP fun o => decide (o < 0x030)) s
          onlyIf (s.loopOn 1) (State.safePart Pg.LOOP fun o => decide (0x030 ≤ o)) s
        else s
      | _ => if s.isSafePoint pg t then s.pageApply pg t else s

end Sys2Proof.Machine
end

