-- ==== Sys2Proof/Machine/Power.lean ====
section
/-! DEFINITION. Power domains and modes (12_oasis_governor.md, R274 to R278, R297): when a domain is on, in which order domains
wake, and what going on and off does to a block (R15, R45, R47). -/
namespace Sys2Proof.Machine

/-- PWD1 STATE values. -/
def DS.OFF : Nat := 0
def DS.WAKING : Nat := 1
def DS.ON : Nat := 2
def DS.DRAINING : Nat := 3

/-- PWD1 CAUSE values. -/
def DC.DEMAND : Nat := 0
def DC.HOST : Nat := 1
def DC.THROTTLE : Nat := 2
def DC.MODE : Nat := 3
def DC.STRAP : Nat := 4
def DC.IDLE : Nat := 5

/-- STATE and request of domain d. -/
def State.domState (s : State) (d : Nat) : Nat := s.get Pg.PWD1 (PWD1.STATE.nth d)
def State.domReq (s : State) (d : Nat) : Nat := s.get Pg.PWD0 (PWD0.REQ.nth d)

/-- The mode is STANDBY. -/
def State.standby (s : State) : Bool := decide (s.get Pg.OAS OAS.MODE = 1)

/-- The engines of quad q. -/
def quadEngines (q : Nat) : List Nat := (List.range 4).map fun e => 4 * q + e

/-- Port p has a running engine, and a LIVE ALARM engine (R275). -/
def State.portRuns (s : State) (p : Nat) : Bool :=
  s.liveEngines.any fun c => decide (s.eget c ERG.PORT = p) && decide (s.est c ≠ ES.OFF) && decide (s.est c ≠ ES.PARKED)
def State.portAlarm (s : State) (p : Nat) : Bool := s.liveEngines.any fun c => s.isAlarm c && decide (s.eget c ERG.PORT = p)

/-- A quad is parked as a whole: every engine PARKED or OFF under throttle (R152). -/
def State.quadParked (s : State) (q : Nat) : Bool :=
  (quadEngines q).all (fun c => decide (s.est c = ES.PARKED) || decide (s.eget c ERG.ROLE = 0))
    && (quadEngines q).any fun c => decide (s.est c = ES.PARKED)

/-- A trellis group holds a job. -/
def State.groupBusy (s : State) (g : Nat) : Bool := s.trl.dec.any fun e => decide (e.1 / 4 = g) && e.2.isSome

/-- Why Oasis keeps domain d off (R275): a CAUSE, none where it is to be on. -/
def State.offCause (s : State) (d : Nat) : Option Nat :=
  let l := s.level
  if d < 64 then
    if s.quadParked d && (quadEngines d).any (s.shouldPark l) then some DC.THROTTLE
    else if s.standby && !(quadEngines d).any s.isAlarm then some DC.MODE
    else none
  else if d < 96 then if l = 5 then some DC.THROTTLE else if s.standby then some DC.MODE else none
  else if d < 112 then
    let p := d - 96
    if l = 4 ∧ s.portRuns p = false then some DC.THROTTLE
    else if l = 5 ∧ s.portAlarm p = false then some DC.THROTTLE
    else if s.standby && !s.portAlarm p then some DC.MODE
    else none
  else if d < 128 then
    if l = 5 then some DC.THROTTLE else if s.standby && !s.portAlarm (d - 112) then some DC.MODE else none
  else if d < 132 then
    let g := d - 128
    if s.get Pg.TRL TRL.GROUPS_MIN ≤ g ∧ s.groupBusy g = false ∧ d ∉ s.oas.waitWake
        ∧ Tab.get (fun _ => 0) s.trl.groupAt g + 2048 ≤ s.time then some DC.IDLE else none
  else if d < 136 then if s.standby then some DC.MODE else none
  else if d < 140 then if 2 ≤ s.get (Pg.DRC (d - 136)) DRC.STATE then some DC.IDLE else none
  else if d = 140 then none
  else if d = 141 then if l = 5 then some DC.THROTTLE else if s.standby then some DC.MODE else none
  else if d < 144 then
    if s.standby && !(List.range 16).any (fun i => (s.timebaseSource (16 * (d - 142) + i)).isSome) then some DC.MODE else none
  else if d = 147 then if s.standby && !s.enabled Pg.CAV then some DC.MODE else none
  else if d = 148 then if s.flag Pg.HIF HIF.LINK_HOST then some DC.STRAP else none
  else if d = 149 then if s.flag Pg.HIF HIF.LINK_HOST then none else some DC.STRAP
  else if s.standby then some DC.MODE else none

/-- The cause for which domain d has to be off under its request (R276): KEEP_OFF holds it off; KEEP_ON holds it on, except at
L5 and against throttle parking, and for the interface that was not selected. -/
def State.mustOff (s : State) (d : Nat) : Option Nat :=
  match s.domReq d with
  | 2 => some DC.HOST
  | 1 => match s.offCause d with
    | some c => if s.level = 5 ∨ (c = DC.THROTTLE ∧ d < 64) ∨ c = DC.STRAP then some c else none
    | none => none
  | _ => s.offCause d

/-- Domain d is off and is to be on. A parked quad waits for the grant of its unparking (R282), a trellis group above
GROUPS_MIN for a job. -/
def State.wantsWake (s : State) (d : Nat) : Bool :=
  decide (s.domState d = DS.OFF) && (s.mustOff d).isNone
    && (if d < 64 then !s.quadParked d || s.oas.waitWake.contains d || decide (s.domReq d = 1)
        else if 128 ≤ d ∧ d < 132 then decide (d - 128 < s.get Pg.TRL TRL.GROUPS_MIN) || s.oas.waitWake.contains d
          || decide (s.domReq d = 1)
        else true)

/-- A port has an alarm channel in its active TXS set. -/
def State.alarmEn (s : State) (p : Nat) : Bool := s.flag (Pg.TXS p) TXS.ALARM_EN

/-- Urgent domains (R277): trellis groups and the domains of the class-0 path. -/
def State.urgent (s : State) (d : Nat) : Bool :=
  if d < 64 then (quadEngines d).any s.isAlarm
  else if 96 ≤ d ∧ d < 112 then s.alarmEn (d - 96)
  else if 112 ≤ d ∧ d < 128 then s.alarmEn (d - 112)
  else (decide (128 ≤ d) && decide (d < 132)) || decide (d = 140)

/-- The rank of a quad: the lowest RANK of its engines. -/
def State.quadRank (s : State) (q : Nat) : Nat := (quadEngines q).foldl (fun m c => Nat.min m (s.eget c ERG.RANK)) 256

/-- The best-ranked quad of a list, the lowest number among equals. -/
def State.bestQuad (s : State) (l : List Nat) : Option Nat :=
  l.foldl (fun b q => match b with
    | none => some q
    | some x => if s.quadRank q < s.quadRank x then some q else b) none

/-- Domains in the order in which Oasis wakes them, but for the urgent ones and the quads (R277). -/
def wakeEarly : List Nat := [148, 149, 136, 137, 138, 139, 132, 133, 134, 135] ++ (List.range 32).map (96 + ·) ++ [141]
def wakeLate : List Nat := (List.range 32).map (64 + ·) ++ [142, 143, 144, 145, 146, 147, 150, 151] ++ [128, 129, 130, 131, 140]

/-- The urgent domain that wakes next, lowest number first. -/
def State.nextUrgent (s : State) : Option Nat :=
  (List.range 152).find? fun d => s.urgent d && s.wantsWake d

/-- The domain that wakes next (R277). -/
def State.nextWake (s : State) : Option Nat :=
  match s.nextUrgent with
  | some d => some d
  | none => match wakeEarly.find? s.wantsWake with
    | some d => some d
    | none => match s.bestQuad ((List.range 64).filter s.wantsWake) with
      | some q => some q
      | none => wakeLate.find? s.wantsWake

/-- Moves a domain to a state with a cause (R278). -/
def State.setDomain (d st cause : Nat) (s : State) : State :=
  ((s.put Pg.PWD1 (PWD1.STATE.nth d) st).put Pg.PWD1 (PWD1.CAUSE.nth d) cause).event Pg.PWD1 PWD1.EV_DOMAIN_CHANGE

/-- OAS.STAGGER_US in ticks. -/
def State.oasStagger (s : State) : Nat := usTicks (s.get Pg.OAS OAS.STAGGER_US)

/-- DOMAIN_WAKE_START: one domain at a time; an urgent one as soon as no other is inside its 8 µs, others STAGGER_US after the
last one finished. -/
def State.wakeStart (t : Nat) (s : State) : State :=
  if s.oas.waking.isSome ∨ s.asleep = true then s
  else match s.nextWake with
    | none => s
    | some d =>
      let u := s.urgent d
      if u = false ∧ s.oas.wakeDone ≠ 0 ∧ t < s.oas.wakeDone + s.oasStagger then s
      else
        let s := s.setDomain d DS.WAKING (if s.domReq d = 1 then DC.HOST else DC.DEMAND)
        let s := (s.put Pg.PWD1 (PWD1.WAKE_CNT.nth d) (s.get Pg.PWD1 (PWD1.WAKE_CNT.nth d) + 1)).count Pg.PWD1 PWD1.WAKE_TOTAL
        let s := onlyIf u (State.count Pg.PWD1 PWD1.URGENT_WAKE_CNT) s
        s.modOas fun o => { o with waking := some (d, t) }

/-- DOMAIN_WAKE_START. -/
def execDomainWakeStart (t : Nat) (s : State) : Res := finish ((s.atTick t).wakeStart t)

/-! ## Blocks going on (R45, R47) -/

/-- A page's status, events and counters return to reset at power-on, and an armed set applies. -/
def State.pagePowerOn (pg t : Nat) (s : State) : State := (s.clearStatus pg).pageApply pg t

/-- Quad q comes on: its engines run as their roles ask, unless throttle still parks them (R152). -/
def State.quadOn (q t : Nat) (s : State) : State :=
  let parked := (quadEngines q).filter fun c => decide (s.est c = ES.PARKED)
  let s := s.pagePowerOn (Pg.ERG q) t
  forEach (quadEngines q) (fun c s =>
    let s := s.setEng c Eng.idle
    if s.shouldPark s.level c then s.setEst c ES.PARKED
    else
      let s := s.setEst c (s.roleState c)
      onlyIf (parked.contains c) (fun s => (s.eevent c ERG.EV_PARK_CHANGE).event Pg.ERGX ERGX.EV_PARK_CHANGE) s) s

/-- The Caravan block comes on: its role is strapped, and it trains where it is enabled (R389). -/
def State.cavOnDomain (t : Nat) (s : State) : State :=
  let s := (s.pagePowerOn Pg.CAV t).put Pg.CAV CAV.ROLE (s.get Pg.RST RST.CAV_ROOT)
  if s.enabled Pg.CAV then s.cavEnable true else s

/-- What a domain's block does when it comes on. -/
def State.domainOn (d t : Nat) (s : State) : State :=
  if d < 64 then s.quadOn d t
  else if d < 96 then (s.pagePowerOn (Pg.SEIF (d - 64)) t).seifOn (d - 64)
  else if d < 112 then (s.pagePowerOn (Pg.LPT (d - 96)) t).portStart (d - 96) t
  else if d < 128 then
    let p := d - 112
    let s : State := { s with txs := { s.txs with estK := Tab.erase s.txs.estK p } }
    (s.pagePowerOn (Pg.TXS p) t).refreshMismatch p
  else if d < 132 then s.trlRun t
  else if d < 140 then s
  else if d = 140 then s.pagePowerOn Pg.KEY t
  else if d = 141 then s.pagePowerOn Pg.MIR t
  else if d = 142 then (((s.pagePowerOn Pg.SNS t).pagePowerOn Pg.DEC t)).snsOnDomain 142 t
  else if d = 143 then s.snsOnDomain 143 t
  else if d = 144 then s.pagePowerOn Pg.EXC t
  else if d = 145 then s.pagePowerOn Pg.LOOP t
  else if d = 147 then s.cavOnDomain t
  else if d = 150 then forEach (List.range 4) (fun n s =>
    let s := s.pagePowerOn (Pg.UART n) t
    if s.enabled (Pg.UART n) then s.uartEnable n true else s) s
  else if d = 151 then forEach (List.range 4) (fun n s => s.pagePowerOn (Pg.CRC n) t) s
  else s

/-- DOMAIN_WAKE_DONE: 8 µs after its start the domain is on. -/
def State.wakeFinish (t : Nat) (s : State) : State :=
  match s.oas.waking with
  | none => s
  | some (d, t0) =>
    if t < t0 + 17 then s
    else
      let s := s.modOas fun o => { o with waking := none, wakeDone := t, waitWake := o.waitWake.filter fun x => decide (x ≠ d) }
      (s.setDomain d DS.ON (s.get Pg.PWD1 (PWD1.CAUSE.nth d))).domainOn d t

/-- DOMAIN_WAKE_DONE. -/
def execDomainWakeDone (t : Nat) (s : State) : Res := finish ((s.atTick t).wakeFinish t)

/-! ## Blocks going off (R278) -/

/-- The block of a domain is idle: no frame in decode or in transmission, no replay block in progress. -/
def State.domainIdle (s : State) (d : Nat) : Bool :=
  if d < 64 then (quadEngines d).all fun c => !s.engBusy c && !s.engAway c
  else if d < 96 then true
  else if d < 112 then s.liveEngines.all fun c => decide (s.eget c ERG.PORT ≠ d - 96) || !s.engBusy c
  else if d < 128 then !s.portOnLine (d - 112)
  else if d < 132 then !s.groupBusy (d - 128)
  else if d = 141 then s.mir.running.all fun e => e.2.isNone || !s.jobRunning (.replay e.1)
  else true

/-- What a domain's block does when it goes off. -/
def State.domainOff (d t : Nat) (s : State) : State :=
  if d < 64 then forEach (quadEngines d) (fun c s => if s.est c = ES.PARKED then s else (s.setEng c Eng.idle).setEst c ES.OFF) s
  else if d < 96 then (s.seifDrain (d - 64) 16).1.seifOff (d - 64)
  else if d < 112 then (s.portOff (d - 96) t).samplesStop t (d - 96)
  else if d < 128 then
    s.txAfeOff (d - 112) t
  else if d = 141 then forEach s.mir.running (fun e s => s.endLoan e.1 t) s
  else if d = 142 ∨ d = 143 then s.snsOff d
  else if d = 145 ∨ d = 146 then s.loopOff (d - 145)
  else if d = 147 then s.cavEnable false
  else if d = 150 then s.uartOff
  else s

/-- DOMAIN_SWITCH_OFF: a domain that has to be off goes off once its block is idle, switch-offs STAGGER_US apart. -/
def State.switchOff (d t : Nat) (s : State) : State :=
  match s.mustOff d with
  | none => s
  | some cause =>
    if s.domOn d = false ∨ (s.oas.offDone ≠ 0 ∧ t < s.oas.offDone + s.oasStagger) then s
    else if s.domainIdle d = false then if s.domState d = DS.DRAINING then s else s.setDomain d DS.DRAINING cause
    else
      let s := s.domainOff d t
      (s.setDomain d DS.OFF cause).modOas fun o => { o with offDone := t }

/-- DOMAIN_SWITCH_OFF. -/
def execDomainSwitchOff (t : Nat) (domain : Fin 152) (s : State) : Res := finish ((s.atTick t).switchOff domain.val t)

/-- ON_COUNT and WAIT_COUNT of PWD1. -/
def State.onCount (s : State) : Nat := ((List.range 152).filter s.domOn).length
def State.waitCount (s : State) : Nat := ((List.range 152).filter s.wantsWake).length

/-! ## Modes (R297) -/

/-- MODE_CMD SERVICE: leaving STANDBY, the boot ROM starts link firmware unless NO_AUTO_START is set (R425). -/
def State.modeService (s : State) : State :=
  if s.standby then
    let s := s.put Pg.OAS OAS.MODE 0
    if s.noAutoStart || !s.fwIdle then s else s.startRegion false
  else s

/-- MODE_CMD STANDBY: refused with more than 16 LIVE ALARM engines; link firmware stops as by a host halt. -/
def State.modeStandby (s : State) : State :=
  if s.standby then s
  else if 16 < (s.liveEngines.filter s.isAlarm).length then s.refuse Pg.OAS ErrCode.STATE 0x040
  else
    let s := if s.fwIdle then s else s.fwStop FW.HALTED false s.time
    s.sprintEnd.put Pg.OAS OAS.MODE 1

/-- The registers that deep sleep keeps: the AON domain's, and the wake timer. -/
def keepAsleep (a : Nat) : Bool := keepAon a || decide (a = addrOf Pg.SEC 0x014)

/-- MODE_CMD DEEP_SLEEP: refused while the 32.768 kHz input fails (R404); every domain and the always-on fabric lose power. -/
def State.modeDeepSleep (s : State) : State :=
  if s.flag Pg.CLK CLK.AON_OK = false then s.refuse Pg.OAS ErrCode.STATE 0x040
  else
    let c := s.cleared keepAsleep
    { c with time := s.time, clk := { c.clk with stopped := true, sleepAt := some s.time } }

end Sys2Proof.Machine
end

