-- ==== Sys2Proof/Machine/Arbiter.lean ====
section
/-! DEFINITION. The arbiter of Wadi (11_wadi_queues_and_classes.md, R260 to R264, R272) and the dispatcher of Oasis
(12_oasis_governor.md, R281 to R288): which message or job goes next, and the credit windows. -/
namespace Sys2Proof.Machine

/-! ## Granting and refusing (R281, R283, R285) -/

/-- A job of a rate fits the general credit (R281). -/
def State.fits (s : State) (rate : Nat) : Bool := s.freeAtLeast rate

/-- A job is granted: it runs, and is charged to the general credit or to the reserve. What R284 names is never a job. -/
def State.runJob (j : Job) (s : State) : State :=
  let s := s.modOas fun o => { o with
    running := o.running ++ [j], ready := o.ready.filter fun x => decide (x.kind ≠ j.kind)
    ranRate := o.ranRate + j.rate, free := if j.reserve then o.free else o.free - (j.rate : Int) }
  s.showCredit

/-- A job of classes 1 and 2 has been refused for STARVE_MS without a break at tick `t`. -/
def State.starved (s : State) (t : Nat) (j : Job) : Bool :=
  let ms := s.get Pg.OAS OAS.STARVE_MS
  (decide (j.cls = 1) || decide (j.cls = 2)) && decide (ms ≠ 0) && decide (msTicks ms ≤ t - j.refused.getD t)

/-- A job is refused (R283): counted, its run of refusals goes on, and after STARVE_MS the dispatcher holds for it. -/
def State.refuseJob (k : JobKind) (cls rate t : Nat) (s : State) : State :=
  let s := (s.count Pg.OAS OAS.DISPATCH_REFUSE_CNT).addJob k cls rate t
  let fresh := s.oas.ready.any fun j => decide (j.kind = k) && s.starved t j && !j.holding
  let s := s.modOas fun o => { o with ready := o.ready.map fun j =>
    if j.kind = k then { j with refused := some (j.refused.getD t), holding := j.holding || s.starved t j } else j }
  onlyIf fresh (State.count Pg.OAS OAS.STARVE_HOLD_CNT) s

/-- The unbroken run of refusals of a job ends (R283). -/
def State.breakRun (k : JobKind) (s : State) : State :=
  s.modOas fun o => { o with ready := o.ready.map fun j =>
    if j.kind = k then { j with refused := none, holding := false } else j }

/-- The dispatcher holds for a job of a higher class than `cls` (R283). -/
def State.heldBack (s : State) (cls : Nat) : Bool := s.oas.ready.any fun j => j.holding && decide (j.cls < cls)

/-! ## Messages that wait (R252, R260 to R264) -/

/-- Ticks of on-time of one copy of a message (R217). -/
def State.copyOn (s : State) (p : Plan) (m : Msg) : Nat :=
  let rate := s.txRate p.port p.ch
  let len := if m.seq.isSome then m.field.length else s.fieldLen p m.payload.length
  airTicks rate (copySymbols (s.get (Pg.TXS p.port) (TXS.PREAMBLE.nth p.ch)) (modeMod p.mode) (modeCode p.mode) len + 2)

/-- Planned on-time of a message, its whole run of copies, in µs rounded up (R261). -/
def State.plannedUs (s : State) (p : Plan) (m : Msg) : Nat :=
  ceilDiv (modeCopies p.mode * s.copyOn p m * 1000) 2048

/-- Engines that could receive the acknowledgement of a message (R207, R208). -/
def State.ackEngines (s : State) (p : Plan) : List Nat :=
  s.matching p.port (s.txCentre p.port p.ch) (s.txRate p.port p.ch) (s.get (Pg.TXS p.port) (TXS.SYNC_WORD.nth p.ch))

/-- A start that asks for an acknowledgement has no engine for it (R208). Class 0 is never held this way. -/
def State.deaf (s : State) (p : Plan) : Bool :=
  p.ackReq && decide (p.cls ≠ 0) && (s.ackEngines p).all fun c => decide (s.est c = ES.PARKED)

/-- The transmit channel of a message exists and may start (R252). -/
def State.chanReady (s : State) (p : Plan) : Bool :=
  if p.cls = 0 then s.alarmEn p.port && s.flag (Pg.TXS p.port) (TXS.EN.nth p.ch) else s.txUsable p.port p.ch

/-- Port states in which FAULT_POLICY decides (R264). -/
def State.portGone (s : State) (p : Nat) : Bool := decide (s.lps p = LS.OFF) || decide (LS.FAULT ≤ s.lps p)

/-- What other than credit holds a message, as a DELAY_REASON (R262); none for an eligible message. -/
def State.holdReason (s : State) (n : Nat) (m : Msg) : Option Nat :=
  let p := s.plan n m
  if s.throttled p.cls then some Delay.THROTTLE
  else if !s.portGone p.port && !s.portReady p.port then some Delay.THROTTLE
  else if s.deaf p && !(s.ackEngines p).isEmpty then some Delay.THROTTLE
  else if s.isSleepy n p then some Delay.SLEEPY
  else if s.portGone p.port || !s.chanReady p || s.isOrphan || s.deaf p then some Delay.BUSY
  else none

/-- A message of a queue has nothing in progress: no attempt, acknowledgement window, train or granted job. -/
def State.isIdle (s : State) (n : Nat) (m : Msg) : Bool :=
  !m.onLine && !s.jobRunning (.tx n m.tag)
    && s.mac.attempts.all (fun a => !(decide (a.queue = n) && decide (a.tag = m.tag)))
    && s.mac.wins.all (fun w => !(decide (w.queue = n) && decide (w.tag = m.tag)))
    && s.mac.trains.all (fun r => !(decide (r.queue = n) && decide (r.tag = m.tag)))

/-- The message of queue n whose turn it is: the one in flight where it is idle, else the head (R260). -/
def State.nextOf (s : State) (n : Nat) : Option Msg :=
  let q := s.queue n
  match q.msgs.find? (·.inFlight) with
  | some m => if s.isIdle n m then some m else none
  | none => q.msgs.head?

/-- Messages whose turn it is, of the queues that hold any. -/
def State.turns (s : State) : List (Nat × Msg) := s.wad.queues.filterMap fun e => (s.nextOf e.1).map fun m => (e.1, m)

/-- Shows a DELAY_REASON where it differs from the one shown; a cut message shows CLASS0_PREEMPT over all but THROTTLE. -/
def State.setDelay (n : Nat) (m : Msg) (why t : Nat) (s : State) : State :=
  let why := if m.cut && decide (why ≠ Delay.THROTTLE) then Delay.PREEMPT else why
  if m.delay = why then s else s.showDelay n m.tag why t

/-- Sets or clears the DEAF bit of a channel; NO_ACK_ENGINE where it holds a start (R208). -/
def State.setDeaf (p : Plan) (on : Bool) (s : State) : State :=
  let b := 16 * p.port + p.ch
  let s := s.putBit Pg.MAC (MAC.DEAF.nth (b / 32)) (b % 32) on
  onlyIf on (State.event Pg.MAC MAC.EV_NO_ACK_ENGINE) s

/-- Refreshes what a message whose turn it is shows while it waits (R262); under FAULT_POLICY FAIL it ends where its port is
OFF or in a fault (R264). -/
def State.refreshTurn (t n : Nat) (m : Msg) (s : State) : State :=
  let p := s.plan n m
  if s.queueState n ≠ 1 then s.setDelay n m Delay.NONE t
  else if s.portGone p.port && !(s.queue n).hold then s.endMsg n m.tag Outc.FAILED_PORT_FAULT 0 t
  else
    let s := onlyIf (p.ackReq && decide (p.cls ≠ 0)) (State.setDeaf p (s.deaf p)) s
    match s.holdReason n m with
    | some why => s.setDelay n m why t
    | none => if m.delay = Delay.BUDGET then s else s.setDelay n m Delay.NONE t

/-- Refreshes every message whose turn it is. -/
def State.refreshTurns (t : Nat) (s : State) : State := forEach s.turns (fun e s => s.refreshTurn t e.1 e.2) s

/-- Messages of class c on port p that are eligible: in OPEN queues, with nothing that holds them (R261). -/
def State.eligible (s : State) (p c : Nat) : List (Nat × Msg) :=
  s.turns.filter fun e =>
    let pl := s.plan e.1 e.2
    decide (pl.port = p) && decide (pl.cls = c) && decide (s.queueState e.1 = 1) && (s.holdReason e.1 e.2).isNone

/-! ## Offering a transmission (R266, R282, R285, R288) -/

/-- The line budget of port p admits an estimate of `e` µJ (R288). While AMP_HOT is set the port carries only class-0 frames and
acknowledgements (R289; DEDUCED, log entry 143: with LINE_MW at 0 too). -/
def State.lineFits (s : State) (p t e : Nat) : Bool :=
  !s.flag Pg.OAS (OAS.AMP_HOT.nth p)
    && (decide (s.get Pg.OAS (OAS.LINE_MW.nth p) = 0)
      || decide (1000 * (s.get Pg.OAS (OAS.LINE_RES_MJ.nth p) : Int) ≤ s.token p - (s.energyOut p t : Int) - (e : Int)))

/-- Why a message that could be granted ends there instead (R266, R417): its slot unreadable, too long for the present route,
or not to be secured. -/
def State.grantRefusal (s : State) (n : Nat) (m : Msg) (p : Plan) (ue : List (Nat × Nat × Nat)) : Option Nat :=
  if ue.any fun e => decide (e.1 = n) && decide (e.2.1 = m.tag) then some Outc.REFUSED_QUEUE_STATE
  else if m.seq.isSome then none
  else if p.sec ∧ 232 - routeBytes (s.airPath p).2.length < m.payload.length then some Outc.REFUSED_TOO_LONG
  else if s.cannotSecure p then some Outc.FAILED_AUTH
  else none

/-- FTYPE of SCHEDULE frames (R226), which start at general access points (R202). -/
def ftypeSchedule : Nat := 3

/-- BE_MIN of a class (R199). -/
def State.beMin (s : State) (c : Nat) : Nat :=
  if c = 1 then s.get Pg.MAC MAC.BE_MIN1 else if c = 2 then s.get Pg.MAC MAC.BE_MIN2 else s.get Pg.MAC MAC.BE_MIN3

/-- Span of a message's run from its first t0 to its last fall at the latest (R128). -/
def State.messageSpan (s : State) (p : Plan) (m : Msg) : Nat := s.runSpan (modeCopies p.mode) (s.copyOn p m)

/-- An attempt of a message begins (R199, R203): backoff draws its slots at random; a class-0 attempt after the first waits for
no margin (R204). A start that may come at the next slot or access point claims its token (R392, R393). -/
def State.newAttempt (n : Nat) (m : Msg) (p : Plan) (t : Nat) (s : State) : State :=
  let be := if p.cls = 0 ∨ p.ftype = ftypeSchedule then 0 else s.beMin p.cls
  let ready := if p.cls = 0 ∧ m.attempts ≠ 0 then 0 else t
  s.withFree fun r s =>
    let wait := r % 2 ^ be
    let s : State := { s with mac := { s.mac with attempts := s.mac.attempts ++
      [⟨n, m.tag, p.port, p.ch, p.cls, be, 0, wait, 0, ready, false⟩] } }
    if wait = 0 then
      s.claimToken p.port (s.txCentre p.port p.ch) (s.txRate p.port p.ch) p.cls (t + s.messageSpan p m)
    else s

/-- A transmission is granted. -/
def State.grantTx (n : Nat) (m : Msg) (p : Plan) (t : Nat) (reserve : Bool) (s : State) : State :=
  let s := s.runJob ⟨.tx n m.tag, p.cls, s.cost 0, reserve, t, none, false⟩
  let s := (s.showDelay n m.tag Delay.NONE t).modMsg n m.tag fun x => { x with inFlight := true, cut := false }
  s.newAttempt n m p t

/-- A transmission that fits is granted, or ends at its grant; answers whether it goes. -/
def State.grantOrEnd (n : Nat) (m : Msg) (p : Plan) (t : Nat) (reserve : Bool) (ue : List (Nat × Nat × Nat)) (s : State) :
    Bool × State :=
  match s.grantRefusal n m p ue with
  | some code =>
    let s := forEach (ue.filter fun e => decide (e.1 = n) && decide (e.2.1 = m.tag)) (fun e s => s.dramUe e.2.2) s
    (false, s.endMsg n m.tag code 0 t)
  | none => (true, s.grantTx n m p t reserve)

/-- A class-0 message is offered (R285, R286): granted at once from the reserve, or against the general credit while RES_C0_EN
is 0; a grant beyond the reserve is counted. -/
def State.offerC0 (n : Nat) (m : Msg) (t : Nat) (ue : List (Nat × Nat × Nat)) (s : State) : State :=
  let p := s.plan n m
  let rate := s.cost 0
  if s.flag Pg.OAS OAS.RES_C0_EN then
    let (ok, s) := s.grantOrEnd n m p t true ue
    if ok && decide (s.get Pg.OAS OAS.RES_C0_MW < s.c0Committed) then
      (s.event Pg.OAS OAS.EV_C0_OVERDRAW).count Pg.OAS OAS.C0_OVERDRAW_CNT
    else s
  else if s.fits rate then (s.grantOrEnd n m p t false ue).2
  else (s.refuseJob (.tx n m.tag) 0 rate t).setDelay n m Delay.BUDGET t

/-- A class-0 transmission of port p is in progress: an attempt, a lane, or an open acknowledgement window (R203). -/
def State.c0Busy (s : State) (p : Nat) : Bool :=
  s.mac.attempts.any (fun a => decide (a.cls = 0) && decide (a.port = p))
    || (s.portLanes p).any (fun e => decide (e.2.kind = .class0))
    || s.mac.wins.any fun w => decide (w.cls = 0) && decide (w.port = p)

/-- The message accepted first of a list. -/
def firstAccepted (l : List (Nat × Msg)) : Option (Nat × Msg) :=
  l.foldl (fun b e => match b with
    | none => some e
    | some x => if e.2.ord < x.2.ord then some e else b) none

/-- The class-0 message of port p that goes next is offered: one already in flight, else the one accepted first (R261, R273).
A message of a queue in `skip` is not offered. -/
def State.offerClass0 (t : Nat) (ue : List (Nat × Nat × Nat)) (skip : List Nat) (p : Nat) (s : State) : State :=
  if s.c0Busy p then s
  else
    let l := s.eligible p 0
    let fly := l.filter fun e => e.2.inFlight
    match firstAccepted (if fly = [] then l else fly) with
    | none => s
    | some (n, m) => if skip.contains n then s else s.offerC0 n m t ue

/-- A transmission of classes 1 to 3 is offered (R283, R288); answers whether it was granted. -/
def State.offerTx (n : Nat) (m : Msg) (t : Nat) (ue : List (Nat × Nat × Nat)) (s : State) : Bool × State :=
  let p := s.plan n m
  let rate := s.cost 0
  let e := modeCopies p.mode * s.energyOf p.port (s.get (Pg.TXS p.port) (TXS.LEVEL.nth p.ch)) (s.copyOn p m)
  if s.lineFits p.port t e = false then (false, (s.count Pg.OAS OAS.LINE_WAIT_CNT).setDelay n m Delay.BUDGET t)
  else if s.heldBack p.cls || !s.fits rate then
    (false, (s.refuseJob (.tx n m.tag) p.cls rate t).setDelay n m Delay.BUDGET t)
  else s.grantOrEnd n m p t false ue

/-! ## Deficit round robin (R261) -/

/-- A list of numbers in rotation, those after `last` first. -/
def rotateAfter (last : Nat) (l : List Nat) : List Nat := (l.filter fun x => decide (last < x)) ++ l.filter fun x => decide (x ≤ last)

/-- Numbers without repeats, in rising order. -/
def distinct (l : List Nat) : List Nat :=
  l.foldl (fun acc x => if acc.contains x then acc
    else (acc.filter fun y => decide (y < x)) ++ [x] ++ acc.filter fun y => decide (x < y)) []

/-- The endpoint that a message of queue n counts as: a queue of DST 0xFFF is one of its own (R261). -/
def State.turnKey (s : State) (n : Nat) (m : Msg) : Nat :=
  let dst := (s.plan n m).dst
  if dst = 0xFFF then 4096 + n else dst

/-- The candidates of class c on port p: each endpoint in rotation with the queue of its turn. -/
def State.candidates (s : State) (p c : Nat) (l : List (Nat × Msg)) : List (Nat × Nat × Msg) :=
  let key := 4 * p + c
  let eps := rotateAfter (Tab.get (fun _ => 0) s.wad.lastEp key) (distinct (l.map fun e => s.turnKey e.1 e.2))
  eps.filterMap fun ep =>
    let mine := l.filter fun e => decide (s.turnKey e.1 e.2 = ep)
    let qs := rotateAfter (Tab.get (fun _ => 0) s.wad.lastQueue (key * 16384 + ep)) (distinct (mine.map (·.1)))
    (qs.head?).bind fun n => (mine.find? fun e => decide (e.1 = n)).map fun e => (ep, e.1, e.2)

/-- Port p can start a further transmission of classes 1 to 3 (R153, R261): a data lane is free beyond those that granted
attempts are still to take. -/
def State.roomFor (s : State) (p : Nat) : Bool :=
  decide (s.dataBusy p + (s.mac.attempts.filter fun a => decide (a.port = p) && decide (a.cls ≠ 0) && !a.started).length
    < s.get (Pg.TXS p) TXS.DATA_LANES) && (s.freeLane p).isSome

/-- WEIGHT of a class. -/
def State.weight (s : State) (c : Nat) : Nat :=
  if c = 1 then s.get Pg.WAD WAD.WEIGHT1 else if c = 2 then s.get Pg.WAD WAD.WEIGHT2 else s.get Pg.WAD WAD.WEIGHT3

/-- Deficit of class c on port p. -/
def State.deficit (s : State) (p c : Nat) : Nat := Tab.get (fun _ => 0) s.wad.deficit (4 * p + c)

/-- Sets the deficit of class c on port p. -/
def State.setDeficit (p c v : Nat) (s : State) : State :=
  { s with wad := { s.wad with deficit := Tab.set (fun _ => 0) s.wad.deficit (4 * p + c) v } }

/-- The class with which the rotation of port p goes on: 1, 2 or 3. -/
def State.turn (s : State) (p : Nat) : Nat := Tab.get (fun _ => 0) s.wad.turn p % 3 + 1

/-- The rotation goes on with the class after `c`. -/
def State.passTurn (p c : Nat) (s : State) : State := { s with wad := { s.wad with turn := Tab.set (fun _ => 0) s.wad.turn p (c % 3) } }

/-- The message that class c of port p offers next, with its endpoint: endpoints in rotation, then the queues of that endpoint;
`tried` are the queues that the dispatcher has refused. -/
def State.nextEligible (s : State) (p c : Nat) (tried : List Nat) : Option (Nat × Nat × Msg) :=
  (s.candidates p c ((s.eligible p c).filter fun e => !e.2.inFlight && !tried.contains e.1)).head?

/-- The deficit that one visit adds to a class (R261). -/
def State.visitGain (s : State) (c : Nat) : Nat := s.weight c * s.get Pg.WAD WAD.QUANTUM_US

/-- Visits of class c in the rotation until its deficit covers its next message, at least one; none where it has no message to
offer. -/
def State.visitsTo (s : State) (p c : Nat) (tried : List Nat) : Option Nat :=
  (s.nextEligible p c tried).map fun e =>
    Nat.max 1 (ceilDiv (s.plannedUs (s.plan e.2.1 e.2.2) e.2.2 - s.deficit p c) (Nat.max 1 (s.visitGain c)))

/-- The class that the rotation reaches first with its deficit covering its next message, and the visits that takes: the fewest
visits, the earlier in the rotation at equal numbers. -/
def State.firstClass (s : State) (p : Nat) (tried : List Nat) : Option (Nat × Nat) :=
  ((List.range 3).map fun i => (s.turn p - 1 + i) % 3 + 1).foldl (fun best c => match s.visitsTo p c tried, best with
    | some v, some b => if v < b.2 then some (c, v) else best
    | some v, none => some (c, v)
    | none, _ => best) none

/-- The rotation of port p runs up to the visit of class `c`, its `v`-th: every class with a message to offer gains its quantum at each
of its visits, one with no eligible message has a deficit of 0 (R261). -/
def State.rotate (p c v : Nat) (tried : List Nat) (s : State) : State :=
  let at_ := fun k => (k + 3 - s.turn p) % 3
  forEach [1, 2, 3] (fun k s =>
    if (s.eligible p k).all fun e => e.2.inFlight then s.setDeficit p k 0
    else if (s.nextEligible p k tried).isNone then s
    else s.setDeficit p k (s.deficit p k + (if at_ k ≤ at_ c then v else v - 1) * s.visitGain k)) s

/-- The arbiter of port p while it can start a transmission (R261): the rotation goes on until a deficit covers its message, which is
offered; a granted one is charged, a refused one is not, and the arbiter moves on. It stops before a class above `top`. -/
def State.arbitratePort (t top p : Nat) (ue : List (Nat × Nat × Nat)) : Nat → List Nat → State → State
  | 0, _, s => s
  | k + 1, tried, s =>
    if s.roomFor p = false then s
    else match s.firstClass p tried with
      | none => s
      | some (c, v) =>
        if top < c then s
        else
          let s := (s.rotate p c v tried).passTurn p c
          match s.nextEligible p c tried with
          | none => s
          | some (ep, n, m) =>
            let on := s.plannedUs (s.plan n m) m
            let (ok, s) := s.offerTx n m t ue
            let s := if ok then
                let s := s.setDeficit p c (s.deficit p c - on)
                let key := 4 * p + c
                { s with wad := { s.wad with lastEp := Tab.set (fun _ => 0) s.wad.lastEp key ep
                                             lastQueue := Tab.set (fun _ => 0) s.wad.lastQueue (key * 16384 + ep) n } }
              else s
            State.arbitratePort t top p ue k (n :: tried) s

/-- Port p up to class c: attempts of messages of class c in flight are offered, and the rotation goes on while the class that it
comes to is not above c. A message of a queue in `skip` is not offered. -/
def State.offerPort (t c : Nat) (ue : List (Nat × Nat × Nat)) (skip : List Nat) (p : Nat) (s : State) : State :=
  let again := (s.eligible p c).filter fun e => e.2.inFlight && !skip.contains e.1
  let s := forEach again (fun e s => (s.offerTx e.1 e.2 t ue).2) s
  s.arbitratePort t c p ue ((s.eligible p 1).length + (s.eligible p 2).length + (s.eligible p 3).length) skip

/-! ## Other jobs (R282, R294) -/

/-- The level lets a job of a kind and class start (R180, R294). -/
def State.levelAllows (s : State) (j : Job) : Bool :=
  let l := s.level
  match j.kind with
  | .quad _ => decide (l < 3)
  | .replay _ => decide (l < 2)
  | _ => decide (l < 4) || (decide (l = 4) && decide (j.cls ≤ 1))

/-- Why a core waits in START_PENDING: 1 BUDGET, 2 LEVEL. -/
def State.pendingWhy (j : Job) (why : Nat) (s : State) : State :=
  match j.kind with
  | .core k => s.put (Pg.SEIF k) SEIF.PENDING_REASON why
  | _ => s

/-- What the grant of a job does beside its cost: a quad is woken, a core started. -/
def State.jobStarts (j : Job) (s : State) : State :=
  match j.kind with
  | .quad q => s.requestWake q
  | .core k => s.seifStart k
  | _ => s

/-- A ready job other than a transmission is offered. -/
def State.offerJob (t : Nat) (j : Job) (s : State) : State :=
  if s.levelAllows j = false then (s.breakRun j.kind).pendingWhy j 2
  else if s.heldBack j.cls || !s.fits j.rate then (s.refuseJob j.kind j.cls j.rate t).pendingWhy j 1
  else (s.runJob { j with refused := none, holding := false }).jobStarts j

/-- A job is a transmission's. -/
def Job.isTx (j : Job) : Bool :=
  match j.kind with
  | .tx _ _ => true
  | _ => false

/-- The other ready jobs of a class are offered, oldest first. -/
def State.offerJobs (t c : Nat) (s : State) : State :=
  forEach (s.oas.ready.filter fun j => decide (j.cls = c) && !j.isTx) (State.offerJob t) s

/-- The dispatcher takes the ready jobs in class order (R283). An arbitration decision is the safe point of page WAD. -/
def State.dispatch (t : Nat) (ue : List (Nat × Nat × Nat)) (s : State) : State :=
  let s := (s.safeAll Pg.WAD).refreshTurns t
  let s := forEach (List.range 16) (State.offerClass0 t ue []) s
  forEach [1, 2, 3] (fun c s => (forEach (List.range 16) (State.offerPort t c ue []) s).offerJobs t c) s

/-- Queues whose message in turn the dispatcher has refused: it is refused again only at a window boundary (R283). -/
def State.refusedQueues (s : State) : List Nat :=
  (s.turns.filter fun e => decide (e.2.delay = Delay.BUDGET)
    || s.oas.ready.any fun j => decide (j.kind = .tx e.1 e.2.tag)).map (·.1)

/-- The arbiter's part of a slot boundary (R261): messages that have become ready and that the dispatcher has not refused are
offered. -/
def State.arbitrate (t : Nat) (s : State) : State :=
  let s := s.refreshTurns t
  let skip := s.refusedQueues
  let s := forEach (List.range 16) (State.offerClass0 t [] skip) s
  forEach [1, 2, 3] (fun c s => forEach (List.range 16) (State.offerPort t c [] skip) s) s

/-- Class of a kernel's runs (R282). -/
def kernelClass (k : KernelJob) : Nat :=
  match k with
  | .noiseMap => 1
  | .predistortion _ _ => 2
  | .powerQuality => 3

/-- DISPATCH: jobs are granted or refused; a kernel of running link firmware may have become ready. `ue` lists messages whose
WADI_MSG slot holds an uncorrectable error, with its address. -/
def execDispatch (t : Nat) (ready : Option KernelJob) (ue : List (Nat × Nat × Nat)) (s : State) : Res :=
  let s := s.atTick t
  let s := match ready with
    | some k => if s.fwRunning then s.addJob (.kernel k) (kernelClass k) s.seifCost t else s
    | none => s
  finish (s.dispatch t ue)

/-! ## Credit windows (R281, R288) -/

/-- The derating factor f of port p as a fraction (R289). -/
def State.derate (s : State) (p : Nat) : Int × Int :=
  if s.flag Pg.OAS (OAS.AMP_RTD_EN.nth p) = false then (1, 1)
  else if s.flag Pg.OAS (OAS.AMP_SENSOR_FAULT.nth p) then (1, 2)
  else
    let lo : Int := s.get Pg.OAS (OAS.AMP_T_DERATE.nth p)
    let hi : Int := s.get Pg.OAS (OAS.AMP_T_MAX.nth p)
    (clampInt 0 (hi - lo) (hi - s.getInt Pg.OAS (OAS.AMP_T.nth p)), hi - lo)

/-- The bucket of port p over a window: filled at LINE_MW × f, drained by the measured line power (R288). -/
def State.fillToken (p : Nat) (s : State) : State :=
  let f := s.derate p
  let s := s.put Pg.OAS (OAS.DERATE.nth p) (decide (f.1 < f.2)).toNat
  let mw := s.get Pg.OAS (OAS.LINE_MW.nth p)
  if mw = 0 then s
  else
    let burst : Int := 1000 * (s.get Pg.OAS (OAS.LINE_BURST_MJ.nth p) : Int)
    let used := Tab.get (fun _ => 0) s.oas.lineMw p
    s.setToken p (clampInt (-burst) burst (s.token p + (mw : Int) * f.1 / (if f.2 = 0 then 1 else f.2) - used))

/-- Kernel runs last to the end of their window; a quad that is on is measured from then on, not committed. -/
def State.shortJob (s : State) (j : Job) : Bool :=
  match j.kind with
  | .kernel _ => true
  | .quad q => s.domOn q
  | _ => false

/-- A predistortion run ends: its taps are committed, or refused where the host owns them (R164). -/
def State.kernelDone (j : Job) (s : State) : State :=
  match j.kind with
  | .kernel (.predistortion port taps) =>
    let p := port.val
    if s.flag (Pg.TXS p) TXS.PD_OWNER then s.refuse (Pg.TXS p) ErrCode.NOT_PERMITTED TXS.PD_TAP.off
    else
      { s with txs := { s.txs with linkTaps := Tab.set (fun _ => []) s.txs.linkTaps p ((taps.take 32).map fun x => x.toNat) } }
  | _ => s

/-- FREE of the new window (R281). A window in which no rail sample fell leaves P_BASE as it was (DESIGN CHOICE, log entry
144). -/
def State.newFree (s : State) : State :=
  let base : Int := if s.oas.winSums = [] then s.oas.base else (meanNat s.oas.winSums : Int) - (s.oas.ranRate : Int)
  let res := if s.flag Pg.OAS OAS.RES_C0_EN then s.get Pg.OAS OAS.RES_C0_MW else 0
  let s := s.put Pg.OAS OAS.P_BASE_MW (sat 16 base.toNat)
  let free := (s.get Pg.OAS OAS.CAP_MW : Int) - (res : Int) - base - (s.committed : Int)
  (s.modOas fun o => { o with free := free, base := base, winSums := [], ranRate := s.committed + s.c0Committed }).showCredit

/-- The actions of a level that has fallen lift at the window boundary (R294). -/
def State.liftLevel (s : State) : State :=
  let l := s.get Pg.OAS OAS.LEVEL
  if l < s.oas.act then (s.modOas fun o => { o with act := l }).reclock else s

/-- Transmissions that are no longer refused for credit alone end their run of refusals (R283). -/
def State.brokenRuns (s : State) : State :=
  s.modOas fun o => { o with ready := o.ready.filter fun j =>
    match j.kind with
    | .tx n tag => (s.msg n tag).any fun m => decide (m.delay = Delay.BUDGET)
    | _ => true }

/-- CREDIT_WINDOW at a window boundary. -/
def State.creditWindow (t : Nat) (ue : List (Nat × Nat × Nat)) (s : State) : State :=
  let s := s.oasSafe.safeAll Pg.PWD0
  let s := s.liftLevel
  let s := (forEach s.oas.running State.kernelDone s).endJobs s.shortJob
  let s := forEach (List.range 16) State.fillToken s.newFree
  (s.sprintWindow.dispatch t ue).brokenRuns

/-- CREDIT_WINDOW: windows begin at the ticks that are multiples of 2,048. -/
def execCreditWindow (t : Nat) (ue : List (Nat × Nat × Nat)) (s : State) : Res :=
  finish (onlyIf (decide (t % 2048 = 0)) (State.creditWindow t ue) (s.atTick t))

/-! ## Link firmware's part -/

/-- COST_TABLE_LOAD (R287): link firmware, running or starting, replaces the cost table; the reserve check follows (R285). -/
def State.costLoad (rates : List (BitVec 16)) (s : State) : State :=
  if s.fwState = FW.RUNNING ∨ s.fwState = FW.BOOTING then
    (forEach rates.zipIdx (fun e s => s.put Pg.OAS (OAS.COST.nth e.2) e.1.toNat) s).refreshReserve
  else s

/-- COST_TABLE_LOAD: the table has eight entries. -/
def execCostTableLoad (rates : List (BitVec 16)) (s : State) : Res :=
  wellFormedOr (Operands.costRates rates) (finish (s.costLoad rates))

/-- LINK_CORE_START (R349, R282): link firmware starts one of its cores from HALTED as a class-1 job; until it is granted the
core waits in START_PENDING. -/
def State.linkCoreStart (k t : Nat) (s : State) : State :=
  if s.fwRunning && s.domOn (64 + k) && !s.customer k && decide (s.coreState k = XS.HALTED) then
    let s := ((s.put (Pg.SEIF k) SEIF.CAUSE 0).seifEnter k XS.START_PENDING).addJob (.core k) 1 s.seifCost t
    forEach (s.oas.ready.filter fun j => decide (j.kind = .core k)) (State.offerJob t) s
  else s

/-- LINK_CORE_START. -/
def execLinkCoreStart (t : Nat) (core : Fin 32) (s : State) : Res := finish ((s.atTick t).linkCoreStart core.val t)

end Sys2Proof.Machine
end

