-- ==== Sys2Proof/Machine/Drw.lean ====
section
/-! DEFINITION. The DRAM word window, page DRW (02_host_interface_and_pages.md, R57 to R59), with the region table's host-write
rule (R413) and the check bits of an ECC region (R415). -/
namespace Sys2Proof.Machine

/-- The byte address that DRW works on. -/
def State.drwAddr (s : State) : Nat := s.get Pg.DRW DRW.ADDR_LO * 4 + s.get Pg.DRW DRW.ADDR_HI * 2 ^ 32

/-- Moves the address on by 4 under INC; 37 bits wrap. -/
def State.drwAdvance (s : State) : State :=
  if s.flag Pg.DRW DRW.MODE then
    let a := (s.drwAddr + 4) % 2 ^ 37
    (s.put Pg.DRW DRW.ADDR_LO (a / 4)).put Pg.DRW DRW.ADDR_HI (a / 2 ^ 32)
  else s

/-- Empties the prefetch (R58). -/
def State.drwForget (s : State) : State := { s with host := { s.host with preAddr := 0, preWords := [] } }

/-- The address lies in the check bits at the end of an ECC region (R415). -/
def State.checkBits (s : State) (a : Nat) : Bool :=
  match s.regionAt a with
  | some r => s.flag (Pg.DRC 0) (DRC.ECC.nth r) && decide (s.regionBase r + s.regionData r ≤ a)
  | none => false

/-- The word of DRAM that the window shows at an address: 0 beyond the capacity and in check bits. -/
def State.drwWord (s : State) (a : Nat) : Word := if s.dramCapacity ≤ a ∨ s.checkBits a = true then 0 else s.dramWord a

/-- STATUS of page DRW. -/
def State.drwStatus (s : State) : Word :=
  match s.regionAt s.drwAddr with
  | none => 0xFF
  | some r =>
    let f := fun (x : Fld) => (s.flag (Pg.DRC 0) (x.nth r)).toNat
    BitVec.ofNat 32 (r + f DRC.ECC * 256 + f DRC.HOST_WR * 512 + (decide (s.get (Pg.DRC 0) (DRC.KIND.nth r) = 7)).toNat * 1024)

/-- The 16 words that follow the one read are prefetched under INC: the words already held stay as they were fetched (R58). -/
def State.drwPrefetch (a : Nat) (kept : List Word) (s : State) : State :=
  if s.flag Pg.DRW DRW.MODE then
    let more := (List.range (16 - kept.length)).map fun i => s.drwWord ((a + 4 * (kept.length + 1 + i)) % 2 ^ 37)
    { s with host := { s.host with preAddr := (a + 4) % 2 ^ 37, preWords := kept ++ more } }
  else s.drwForget

/-- What the check bits of an ECC region found in the word that the window returns (R59, R416, R417). -/
def State.drwEcc (a : Nat) (e : EccResult) (s : State) : State :=
  match s.eccAt a with
  | none => s
  | some _ =>
    match e with
    | .clean => s
    | .corrected => ((s.dramEcc a e).event Pg.DRW DRW.EV_CE).count Pg.DRW DRW.CE_CNT
    | .uncorrectable =>
      ((((s.dramEcc a e).event Pg.DRW DRW.EV_UE).count Pg.DRW DRW.UE_CNT).put Pg.DRW DRW.UE_ADDR_LO a).put Pg.DRW
        DRW.UE_ADDR_HI (a / 2 ^ 32)

/-- A read of DRW.DATA, with what the check bits found. -/
def State.drwRead (e : EccResult) (s : State) : State :=
  let a := s.drwAddr
  if s.dramCapacity ≤ a then ((s.answer 0).event Pg.DRW DRW.EV_OUT_OF_RANGE).drwAdvance
  else
    let hit := decide (s.host.preAddr = a) && decide (s.host.preWords ≠ [])
    let v := if hit then s.host.preWords.headD 0 else s.drwWord a
    let kept := if hit then s.host.preWords.drop 1 else []
    ((((s.answer v).drwPrefetch a kept).drwEcc a e)).drwAdvance

/-- A host write to the word at an address is refused (R57, R413, R415). -/
def State.drwRefused (s : State) (a : Nat) : Bool :=
  decide (s.dramCapacity ≤ a) || s.checkBits a ||
    match s.regionAt a with
    | none => false
    | some r =>
      let kind := s.get (Pg.DRC 0) (DRC.KIND.nth r)
      let fw := s.get Pg.LNK LNK.FW_STATE
      decide (kind = 7) || !s.flag (Pg.DRC 0) (DRC.HOST_WR.nth r) || (decide (kind = 1) && (decide (fw = 1) || decide (fw = 2)))

/-- A write of DRW.DATA. -/
def State.drwWrite (v : Word) (s : State) : State :=
  let a := s.drwAddr
  let s := s.drwForget
  if s.drwRefused a then
    let s := onlyIf (decide (s.dramCapacity ≤ a)) (State.event Pg.DRW DRW.EV_OUT_OF_RANGE) s
    ((s.event Pg.DRW DRW.EV_WR_REFUSED).count Pg.DRW DRW.WR_REFUSED_CNT).drwAdvance
  else (s.dramStore a (leBytes 4 v.toNat)).drwAdvance

/-- A write of ADDR_LO or ADDR_HI. -/
def State.drwSetAddr (high : Bool) (v : Word) (s : State) : State :=
  (if high then s.put Pg.DRW DRW.ADDR_HI v.toNat else s.put Pg.DRW DRW.ADDR_LO (v.toNat / 4)).drwForget

/-- A write of MODE. -/
def State.drwSetMode (v : Word) (s : State) : State := (s.put Pg.DRW DRW.MODE v.toNat).drwForget

end Sys2Proof.Machine
end

