-- ==== Sys2Proof/Machine/FramePath.lean ====
section
/-! DEFINITION. The frame path on receive (10_slafer_link_protocol.md, R223 to R236; R118, R122, R129 of
05_slafer_waveform.md; R188 to R190 of 08_mirage_replay.md; R206, R210 of 09_medium_access.md; R268 of
11_wadi_queues_and_classes.md). -/
namespace Sys2Proof.Machine

/-! ## Records (R271) -/

/-- MAINS_TIME of an instant that lies in no logged cycle: before the clock was last started, the count that it held with the free
phase (R74); otherwise what the clock holds, run back at its frequency for an instant before its last change. -/
def State.clockMains (s : State) (t : Nat) : Nat × Nat :=
  if t < s.mtb.onSince then (s.mtb.onCycle, s.freeCounts t % 65536)
  else if s.mtb.anchor ≤ t then s.mainsTime t
  else
    let c := s.get Pg.MTB MTB.CYCLE * 65536 + s.mtb.phi / phiCount - (s.mtb.anchor - t) * s.get Pg.MTB MTB.FREQ / phiCount
    (c / 65536 % 2 ^ 32, c % 65536)

/-- MAINS_TIME of the instant of a sync word (R78, R188): the interpolation between two logged cycle starts, whatever the timebase
does now, so that a frame keeps its stamp; the clock for an instant that no logged cycle holds. -/
def State.stampMains (s : State) (t : Nat) : Nat × Nat :=
  match s.loggedCycle t with
  | some (a, len, c) => (c % 2 ^ 32, 65536 * (t - a) / Nat.max 1 len % 65536)
  | none => s.clockMains t

/-- Flag bits of HDR0 of a delivery record (R271). -/
def RxFlag.LATE : Nat := 2 ^ 8
def RxFlag.COMBINED : Nat := 2 ^ 9
def RxFlag.OVERHEARD : Nat := 2 ^ 10
def RxFlag.ALARM : Nat := 2 ^ 11
def RxFlag.CUT : Nat := 2 ^ 12
def RxFlag.AUTH_FAIL : Nat := 2 ^ 13
def RxFlag.MAC_VALID : Nat := 2 ^ 14
def RxFlag.DIAG : Nat := 2 ^ 15

/-- The delivery record of a copy: `flags` besides LATE and COMBINED, the 50-bit MAC header and counter where they are known,
and the payload (R271). -/
def State.rxRecord (s : State) (x : RxCopy) (flags mac counter : Nat) (payload : List Byte) : Rec :=
  let mt := s.stampMains x.tSync
  let own := (if x.late then RxFlag.LATE else 0) + (if 1 < x.combined then RxFlag.COMBINED else 0)
  let pre := sat 16 ((x.tSync - x.tPre) / Nat.max 1 (symTicks x.rate) - 32)
  let valid := decide (flags / RxFlag.MAC_VALID % 2 = 1)
  let h2 := mac / 2 ^ 32 % 2 ^ 18 + (x.combined - 1) % 16 * 2 ^ 20 + lqiOf x.snr * 2 ^ 24
  ⟨[BitVec.ofNat 32 (2 ^ 31 + 2 ^ 28 + x.port * 2 ^ 24 + payload.length % 256 * 2 ^ 16 + flags + own + x.eng % 256),
    BitVec.ofNat 32 (if valid then mac else 0), BitVec.ofNat 32 (if valid then h2 else 0),
    BitVec.ofNat 32 (if valid then counter else 0)] ++ stampWords x.tSync
    ++ [BitVec.ofNat 32 mt.1, BitVec.ofNat 32 (mt.2 + pre * 65536)], payload, s.time⟩

/-- Writes a delivery record; LATE_CNT counts those with LATE. -/
def State.deliverRx (ring : Nat) (x : RxCopy) (flags mac counter : Nat) (payload : List Byte) (s : State) : State :=
  (onlyIf x.late (State.count Pg.MIR MIR.LATE_CNT) s).deliver ring (s.rxRecord x flags mac counter payload)

/-- The ring that a frame of a class reaches (R268). -/
def State.classRing (s : State) (cls : Nat) : Nat :=
  if cls = 0 then 0
  else if s.flag Pg.MAC MAC.REGIME then s.get Pg.WAD WAD.FB_RING
  else s.get Pg.WAD (if cls = 1 then WAD.RX_RING1 else if cls = 2 then WAD.RX_RING2 else WAD.RX_RING3)

/-- ALARM marks class-0 frames. -/
def alarmFlag (cls : Nat) : Nat := if cls = 0 then RxFlag.ALARM else 0

/-! ## A field as the frame path takes it -/

/-- A copy with its field taken apart. -/
structure RxFrame where
  x : RxCopy
  h : MacHeader
  /-- 50 bits of the MAC header as received. -/
  mac : Nat
  counter : Nat
  /-- A field that a slave of a DEEPEN ring decoded: its drop reasons are that device's (R396). -/
  remote : Bool
deriving DecidableEq, Repr

/-- Takes the field of a copy apart. -/
def RxFrame.of (x : RxCopy) (remote : Bool) : RxFrame :=
  let h := fieldHeader x.field
  ⟨x, h, leNat (x.field.take 7) % 2 ^ 50, if h.sec then fieldCounter x.field else 0, remote⟩

/-- The frame for link firmware. -/
def RxFrame.link (f : RxFrame) (payload : List Byte) (accepted : Bool) : LnkFrame :=
  ⟨f.h, f.counter, fieldRoute f.x.field, payload, f.x.tSync, f.x.eng, lqiOf f.x.snr, f.x.late, accepted⟩

/-- Counts a drop reason of R129 at the engine that received the frame. -/
def State.rxDrop (f : RxFrame) (cnt tot : Fld) (s : State) : State :=
  if f.remote then s else s.ecount2 f.x.eng cnt tot

/-- The run that a copy belongs to has been delivered (R118): its combine slot is free. -/
def State.runOver (f : RxFrame) (s : State) : State :=
  match f.x.slot with
  | some i => s.slotDelivered i
  | none => s

/-- t0 of copy 0 and end of the final copy of the run of a copy; none for a single copy. -/
def State.runOf (s : State) (x : RxCopy) : Option (Nat × Nat) :=
  (s.runGuess x.rate x.hdr x.tSync x.tPre).map fun g => (g.t0 0, s.runEnd g)

/-- End of the last symbol of a copy (R98, R135). -/
def copyEnd (x : RxCopy) : Nat :=
  let h := PhyHeader.ofWord x.hdr
  x.tSync + (headerSymbols + dataSymbols h.mod h.code h.length) * symTicks x.rate

/-- The run of a copy has been delivered already (R118): same engine, SRC and SEQ, and the copy timing of one run. -/
def State.runSeen (s : State) (f : RxFrame) : Bool :=
  match s.runOf f.x with
  | none => false
  | some (t0, _) =>
    let w := s.searchWin
    s.key.runs.any fun r => decide (r.1 = f.x.eng) && decide (r.2.1 = f.h.src) && decide (r.2.2.1 = f.h.seq)
      && decide (r.2.2.2.1 ≤ t0 + w) && decide (t0 ≤ r.2.2.2.1 + w)

/-- End of the run of a frame, from its latest decoded copy (R118): of a combination, the held copy with the highest index. -/
def State.frameRun (s : State) (x : RxCopy) : Option (Nat × Nat) :=
  match x.slot with
  | some i => match s.slot i with
    | some sl =>
      if x.combined < 2 then s.runOf x
      else
        let (k, tSync, tPre) := sl.highest
        s.runOf { x with hdr := (copyHeader (sl.mode % 4) (sl.mode / 4 % 4) (sl.mode / 16 % 4) sl.length sl.n k).word
                         tSync := tSync, tPre := tPre }
    | none => s.runOf x
  | none => s.runOf x

/-- Notes that the run of a copy is done. -/
def State.noteRun (f : RxFrame) (s : State) : State :=
  match s.frameRun f.x with
  | none => s
  | some (t0, e) => { s with key := { s.key with runs := (f.x.eng, f.h.src, f.h.seq, t0, e) :: s.key.runs } }

/-- A cut copy has ended the run of a copy (R118). -/
def State.runCut (s : State) (x : RxCopy) : Bool :=
  match s.runOf x with
  | none => false
  | some (t0, _) => s.key.cuts.any fun e => decide (e.1 = x.eng) && decide (e.2 ≤ t0 + s.searchWin) && decide (t0 ≤ e.2 + s.searchWin)

/-- An acknowledgement is owed for a frame with ACK_REQ (R118, R189, R205, R206); a frame that passed too late gets none, and
counts ACK_LATE. An orphan acknowledges nothing (R390). On a shared feeder the device reserves the band (R394). -/
def State.oweAck (f : RxFrame) (dup : Bool) (s : State) : State :=
  if f.h.ackReq = false ∨ f.x.cut.isSome ∨ s.isOrphan ∨ s.runCut f.x = true then s
  else
    let run := s.frameRun f.x
    let tEnd := match run with
      | some (_, e) => e
      | none => copyEnd f.x
    if tEnd + usTicks (s.get Pg.MIR MIR.ACK_CUTOFF_US) < s.time then
      (s.count Pg.MAC MAC.ACK_LATE_CNT).event Pg.MAC MAC.EV_ACK_LATE
    else
      let o : Owed := {
        engine := f.x.eng, port := f.x.port, centre := f.x.centre, rate := f.x.rate, sync := f.x.sync, seq := f.h.seq
        dst := f.h.src, dup := dup, lqi := lqiOf f.x.snr, robust := run.isSome, tEnd := tEnd, passed := s.time
        combined := decide (1 < f.x.combined), body := none, sent := false }
      let s : State := { s with mac := { s.mac with owed := s.mac.owed ++ [o] } }
      if s.needToken o.port then
        let k := s.tokenFor o.port o.centre o.rate 0 true (tEnd + 2 * ticks1ms + airTicks o.rate (ackSymbols o.robust))
        if s.isMaster then s.modCav fun c => { c with held := c.held ++ [k] }
        else (s.modCav fun c => { c with mine := c.mine ++ [k] }).ringSend (.reserve k)
      else s

/-! ## Failures of authentication (R223, R225, R236) -/

/-- A frame fails authentication: counted, and written to the diagnostic ring with AUTH_DIAG. -/
def State.authFail (f : RxFrame) (reason : Fld) (payload : List Byte) (s : State) : State :=
  let s := (s.rxDrop f ERG.AUTH_FAIL_CNT ERGX.AUTH_FAIL_TOT).count Pg.LNK reason
  onlyIf (s.flag Pg.LNK LNK.AUTH_DIAG)
    (State.deliverRx (s.get Pg.LNK LNK.AUTH_DIAG_RING) f.x (RxFlag.AUTH_FAIL + RxFlag.MAC_VALID + alarmFlag f.h.cls) f.mac
      f.counter payload) s

/-- A secured frame whose owner has no slot (R223, R249, R397): FOREIGN in MULTIPLY; else NO_KEY, and UNKNOWN_SOURCE at most
once per address per minute. -/
def State.noKey (f : RxFrame) (s : State) : State :=
  if s.cavState ≠ CS.OFF ∧ s.get Pg.CAV CAV.MODE = 2 then s.count Pg.CAV CAV.FOREIGN_CNT
  else
    let s := s.authFail f LNK.NO_KEY_CNT (fieldPayload f.x.field)
    let a := f.h.src
    let last := Tab.find? s.lnk.unknownAt a
    let due := match last with
      | some t => decide (t + 60 * ticks1s ≤ s.time)
      | none => true
    if due && s.fwRunning then
      (s.modLnk fun l => { l with unknownAt := Tab.put l.unknownAt a s.time }).evt Evt.UNKNOWN_SOURCE a 0 []
    else s

/-- A replayed counter with a valid MIC (R234 to R236): after REPLAY_LIMIT in a row link firmware marks the endpoint
COUNTER_LOST. -/
def State.replayFail (f : RxFrame) (slot : Nat) (payload : List Byte) (s : State) : State :=
  let s := s.authFail f LNK.CTR_REPLAY_CNT payload
  let k := s.keySlot slot
  let s := s.setKeySlot slot { k with replays := k.replays + 1 }
  let r := s.ep f.h.src
  if s.fwRunning ∧ s.get Pg.LNK LNK.REPLAY_LIMIT ≤ k.replays + 1 ∧ r.state ≠ EpState.absent ∧ r.state ≠ EpState.counterLost then
    (s.setEp f.h.src { r with state := .counterLost }).evt Evt.COUNTER_LOST f.h.src 0 [k.ctrHi]
  else s

/-! ## Counters and the duplicate cache (R228, R234, R235) -/

/-- Inserts a cache entry in time order. -/
def cacheInsert (e : DupEnt) : List DupEnt → List DupEnt
  | [] => [e]
  | x :: t => if e.time < x.time then e :: x :: t else x :: cacheInsert e t

/-- A new entry enters a slot's cache; a ninth drops the oldest, whose counter becomes FLOOR (R228). -/
def KeySlot.enter (k : KeySlot) (e : DupEnt) : KeySlot :=
  let l := cacheInsert e k.cache
  if l.length ≤ 8 then { k with cache := l }
  else match l with
    | [] => k
    | o :: t => { k with cache := t, floor := o.counter.getD k.floor }

/-- R234: a live secured frame passes with a counter above CTR_HI, or as a cached frame. -/
def KeySlot.livePass (k : KeySlot) (seq c : Nat) : Bool :=
  decide (c ≠ 0) && (decide (k.ctrHi < c) || k.cache.any fun e => decide (e.seq = seq) && decide (e.counter = some c))

/-- R235: a LATE frame passes with a counter that fits its place among the cached ones, ordered by on-line time. -/
def KeySlot.latePass (k : KeySlot) (t c : Nat) : Bool :=
  let before := ((k.cache.filter fun e => decide (e.time < t)).filterMap (·.counter)).getLast?.getD k.floor
  let after := ((k.cache.filter fun e => decide (t < e.time)).filterMap (·.counter)).head?
  k.cache.all (fun e => decide (e.counter ≠ some c)) && decide (before < c)
    && (match after with
      | some a => decide (c < a)
      | none => true)

/-- R228: a live frame is a duplicate of a cached one. -/
def State.isDup (s : State) (f : RxFrame) (k : KeySlot) : Bool :=
  k.cache.any fun e => decide (e.seq = f.h.seq) &&
    (if f.h.sec then decide (e.counter = some f.counter)
     else decide (e.time ≤ f.x.tSync) && decide (f.x.tSync ≤ e.time + s.get Pg.LNK LNK.DUP_HOLD_S * ticks1s))

/-- The cases of R190 for a LATE frame: its SEQ is cached, or it is older than a full cache. -/
def lateSeen (f : RxFrame) (k : KeySlot) : Bool := k.cache.any fun e => decide (e.seq = f.h.seq)
def lateStale (f : RxFrame) (k : KeySlot) : Bool :=
  decide (8 ≤ k.cache.length) && (match k.cache.head? with
    | some o => decide (f.x.tSync < o.time)
    | none => false)

/-! ## Link firmware's part -/

/-- FTYPE names of R226. -/
def FT.DATA : Nat := 0
def FT.HELLO : Nat := 4
def FT.ASSIGN : Nat := 5
def FT.SESS_OPEN : Nat := 6
def FT.SEG : Nat := 7
def FT.SACK : Nat := 8
def FT.SESS_CTRL : Nat := 9
def FT.NEIGHBOUR : Nat := 10
def FT.REPORT : Nat := 11
def FT.TEST : Nat := 15

/-- A REPORT with code AUTH_REJECT. -/
def isAuthReject (h : MacHeader) (payload : List Byte) : Bool :=
  decide (h.ftype = FT.REPORT) && decide ((payload.headD 0).toNat = 1) && decide (payload ≠ [])

/-- A frame breaks a "must" of R226 in SEC or ACK_REQ. -/
def ruleBroken (h : MacHeader) (payload : List Byte) : Bool :=
  match h.ftype with
  | 2 => h.sec || h.ackReq
  | 3 => !h.sec || h.ackReq
  | 4 | 5 | 6 | 9 => !h.sec || !h.ackReq
  | 7 | 8 | 10 => !h.sec || h.ackReq
  | 11 => (!h.sec && !isAuthReject h payload) || h.ackReq
  | _ => false

/-- An accepted frame of another type than DATA reaches link firmware (R224, R239, R249): reserved types and broken rules are
discarded and counted, frames that only the head-end sends and session commands with no operation of R226 are discarded, the others
wait to be worked on. -/
def State.toLink (f : RxFrame) (payload : List Byte) (s : State) : State :=
  if s.fwRunning = false then s
  else if 12 ≤ f.h.ftype ∧ f.h.ftype ≤ 14 then s.count Pg.LNK LNK.FTYPE_UNKNOWN_CNT
  else if ruleBroken f.h payload then s.count Pg.LNK LNK.FTYPE_RULE_CNT
  else if f.h.ftype = 2 ∨ f.h.ftype = 3 ∨ f.h.ftype = 5 then s
  else if f.h.ftype = FT.SESS_CTRL ∧ ((payload.getD 1 0).toNat = 0 ∨ 4 < (payload.getD 1 0).toNat) then s
  else s.modLnk fun l => { l with inbox := l.inbox ++ [f.link payload true] }

/-- The relays of a downlink path that an overheard uplink hop shows (R237, R238): the uplink path turned round. -/
def uplinkRelays (f : RxFrame) : Option (List Nat) :=
  let path := f.h.dst :: fieldRoute f.x.field
  match path.getLast? with
  | some 0 => some (path.dropLast.reverse)
  | _ => none

/-- Link firmware learns a downlink route of an endpoint (R238): at most 4 relays, each once, the endpoint not among them. -/
def State.learnRoute (a : Nat) (route : List Nat) (s : State) : State :=
  let r := s.ep a
  if r.state = EpState.absent ∨ 4 < route.length ∨ ¬ route.Nodup ∨ a ∈ route ∨ 0 ∈ route ∨ 0xFFF ∈ route ∨ route = r.route
      ∨ route ∈ r.learned then s
  else s.setEp a { r with learned := r.learned ++ [route] }

/-- The first hop of the downlink message whose frame an echo relays: that of the frame sent with the echo's SEQ, else that of the
endpoint's route. -/
def State.echoHop (s : State) (a : Nat) (seq : Nat) : Option Nat :=
  match (s.wad.queues.flatMap fun e => e.2.msgs.filter fun m =>
      decide (m.seq = some seq) && decide (s.finalDst (s.plan e.1 m) = a)).head? with
  | some m => some (fieldHeader m.field).dst
  | none => (s.ep a).route.head?

/-- Link firmware takes an echo (R223, R237): its DST and route list are the rest of a downlink path that works, after the relay
that the frame was first sent to. -/
def State.echoIn (f : RxFrame) (s : State) : State :=
  let path := f.h.dst :: fieldRoute f.x.field
  match s.fwRunning, path.getLast? with
  | true, some a => match s.echoHop a f.h.seq with
    | some r => s.learnRoute a (r :: path.dropLast)
    | none => s
  | _, _ => s

/-- A frame from an endpoint has passed FCS and MIC (R214): its guard starts anew, and the engine that heard it is noted. -/
def State.heardFrom (f : RxFrame) (s : State) : State :=
  let r := s.ep f.h.src
  if s.fwRunning = false ∨ r.state = EpState.absent then s
  else s.setEp f.h.src { r with heard := Nat.max r.heard f.x.tSync, unlocked := s.outTicks s.time
                                lastLqi := lqiOf f.x.snr, eng := if f.remote then r.eng else f.x.eng }

/-- A contact (R239): the time is noted, misses are forgotten (R215), and a SILENT or DRIFTED endpoint is ACTIVE again. -/
def State.contact (f : RxFrame) (s : State) : State :=
  let a := f.h.src
  let r := s.ep a
  if s.fwRunning = false ∨ r.state = EpState.absent then s
  else
    let s := s.setEp a { r with lastContact := Nat.max r.lastContact f.x.tSync, missed := 0, fullMissed := 0 }
    if r.state = EpState.silent ∨ r.state = EpState.drifted then s.epTo a .active else s

/-- A slave of a WIDEN or MULTIPLY ring copies an accepted or overheard frame to the master's link firmware (R398). -/
def State.forwardRoute (f : RxFrame) (payload : List Byte) (accepted : Bool) (s : State) : State :=
  if s.cavState ≠ CS.OFF ∧ s.isMaster = false ∧ s.flag Pg.CAV CAV.FWD_ROUTE ∧ s.get Pg.CAV CAV.MODE ≠ 1 then
    s.ringSend (.routeCopy (f.link payload accepted))
  else s

/-! ## The steps of R223 -/

/-- Step 10: counter state and cache follow, an acknowledgement is owed, and the frame is delivered (R16, R224, R268). -/
def State.accept (f : RxFrame) (slot : Option Nat) (payload : List Byte) (s : State) : State :=
  let s := match slot with
    | none => s
    | some n =>
      let k := s.keySlot n
      let s := s.setKeySlot n { k.enter ⟨f.h.seq, if f.h.sec then some f.counter else none, f.x.tSync⟩ with replays := 0 }
      if f.h.sec ∧ k.ctrHi < f.counter then
        let jump := decide (k.ctrHi + 2 ^ s.get Pg.LNK LNK.CTR_GAP_LOG2 < f.counter)
        let s := onlyIf jump (fun s => (s.count Pg.LNK LNK.CTR_JUMP_CNT).evt Evt.COUNTER_JUMP f.h.src 0 [k.ctrHi, f.counter]) s
        let s := onlyIf (decide (k.ctrHi < rekeyAt) && decide (rekeyAt ≤ f.counter)) (State.evt Evt.REKEY_DUE f.h.src 1 []) s
        s.setCtrHi n f.counter
      else s
  let s := (((s.noteRun f).oweAck f false).contact f).runOver f
  let s := onlyIf (decide (f.h.hops ≠ 0)) (State.count Pg.LNK LNK.ROUTE_ODD_CNT) s
  let s := onlyIf (decide (1 < f.x.combined)) (State.count Pg.MIR MIR.COMBINE_OK_CNT) s
  let s := s.forwardRoute f payload true
  let flags := RxFlag.MAC_VALID + alarmFlag f.h.cls
  let fallback := s.flag Pg.MAC MAC.REGIME
  let s := onlyIf (decide (f.h.cls = 0) || fallback || decide (f.h.ftype = FT.DATA))
    (State.deliverRx (s.classRing f.h.cls) f.x flags f.mac f.counter payload) s
  onlyIf (!fallback && decide (f.h.ftype ≠ FT.DATA)) (State.toLink f payload) s

/-- Step 9: a duplicate is not delivered; it is acknowledged with DUP, and a live one counted in DUP_CNT, a LATE one in
LATE_DUP_CNT (R190, R228). -/
def State.duplicate (f : RxFrame) (s : State) : State :=
  let s := if f.x.late then s.count Pg.MIR MIR.LATE_DUP_CNT else s.count Pg.LNK LNK.DUP_CNT
  let s := s.noteRun f
  let inTime := match s.frameRun f.x with
    | some (_, e) => decide (s.time ≤ e + usTicks (s.get Pg.MIR MIR.ACK_CUTOFF_US))
    | none => decide (s.time ≤ copyEnd f.x + usTicks (s.get Pg.MIR MIR.ACK_CUTOFF_US))
  (onlyIf (!f.x.late || inTime) (State.oweAck f true) s).runOver f

/-- Step 7: a frame for another address is delivered OVERHEARD, and link firmware learns from it (R206, R223, R238, R268). -/
def State.overhear (f : RxFrame) (payload : List Byte) (s : State) : State :=
  let s := (s.count Pg.MAC MAC.OVERHEARD_CNT).runOver f
  let s := s.forwardRoute f payload false
  let s := match s.fwRunning, uplinkRelays f with
    | true, some r => s.learnRoute f.h.src r
    | _, _ => s
  let ring := s.get Pg.WAD WAD.OVH_RING
  onlyIf (decide (ring ≠ 0))
    (State.deliverRx ring f.x (RxFlag.OVERHEARD + RxFlag.MAC_VALID + alarmFlag f.h.cls) f.mac f.counter payload) s

/-- Steps 7 to 10 for a frame that is authentic or unsecured. -/
def State.pathPlain (f : RxFrame) (slot : Option Nat) (payload : List Byte) (s : State) : State :=
  let s := s.heardFrom f
  if f.h.dst ≠ 0 then s.overhear f payload
  else match slot with
    | none => s.accept f none payload
    | some n =>
      let k := s.keySlot n
      if f.x.late then
        if lateSeen f k then s.duplicate f
        else if lateStale f k then (s.count Pg.MIR MIR.LATE_STALE_CNT).runOver f
        else if f.h.sec && !k.latePass f.x.tSync f.counter then s.replayFail f n payload
        else s.accept f (some n) payload
      else if f.h.sec && !k.livePass f.h.seq f.counter then s.replayFail f n payload
      else if s.isDup f k then s.duplicate f
      else s.accept f (some n) payload

/-- Steps 3 to 6. -/
def State.pathAuth (f : RxFrame) (s : State) : State :=
  let raw := fieldPayload f.x.field
  if f.h.src = 0 then ((s.count Pg.LNK LNK.ECHO_CNT).echoIn f).runOver f
  else if f.h.sec = false then
    if s.flag Pg.LNK LNK.REQUIRE_SEC && !isAuthReject f.h raw then s.authFail f LNK.UNSECURED_CNT raw
    else s.pathPlain f (s.slotOf f.h.src) raw
  else match s.slotOf f.h.src with
    | none => s.noKey f
    | some n =>
      let key := (s.keySlot n).key
      if micOk key f.h.src false f.x.field = false then s.authFail f LNK.MIC_FAIL_CNT raw
      else s.pathPlain f (some n) (openPayload key f.h.src false f.x.field)

/-- The address filter of FALLBACK (R210): the counter of the reason for which it drops a frame. -/
def State.filtered (s : State) (h : MacHeader) : Option Fld :=
  if s.get Pg.MAC MAC.REGIME = 0 then none
  else if h.dst = 0 then
    (if bitOf (s.get Pg.FLT (FLT.ALLOW.nth (h.src / 32))) (h.src % 32) = 1 then none else some FLT.FILTERED_SRC_CNT)
  else if h.dst = 0xFFF then
    (if bitOf (s.get Pg.FLT FLT.BCAST_FTYPES) h.ftype = 1 then none else some FLT.FILTERED_BCAST_CNT)
  else some FLT.FILTERED_DST_CNT

/-- Steps 1 and 2; a frame that enters step 1 is a safe point of page LNK. -/
def State.pathSteps (f : RxFrame) (s : State) : State :=
  let s := s.safeAll Pg.LNK
  if f.h.cls = 0 ∧ f.h.sec = false then s.rxDrop f ERG.CLASS0_UNSEC_CNT ERGX.CLASS0_UNSEC_TOT
  else match s.filtered f.h with
    | some cnt => (s.count Pg.FLT cnt).event Pg.FLT FLT.EV_FILTERED
    | none => s.pathAuth f

/-! ## Copies (R118, R122, R138, R196, R396) -/

/-- The master of a DEEPEN ring has decided a copy of the frame already (R396): same SRC and SEQ, T_SYNC within one symbol
period. -/
def State.mergedAway (s : State) (f : RxFrame) : Bool :=
  let sym := symTicks f.x.rate
  s.cav.merged.any fun e => decide (e.1 = f.h.src) && decide (e.2.1 = f.h.seq) && decide (e.2.2 ≤ f.x.tSync + sym)
    && decide (f.x.tSync ≤ e.2.2 + sym)

/-- The device is the master of a DEEPEN ring. -/
def State.deepMaster (s : State) : Bool := decide (s.cavState ≠ CS.OFF) && s.isMaster && decide (s.get Pg.CAV CAV.MODE = 1)

/-- The report of a cut copy (R138): the MAC header where at least 75 % of the field's symbols were received, else the flag and
the times. -/
def State.cutReport (x : RxCopy) (symbols : Nat) (s : State) : State :=
  let h := PhyHeader.ofWord x.hdr
  if 0 < symbols ∧ 3 * dataSymbols h.mod h.code h.length ≤ 4 * symbols then
    let f := RxFrame.of x false
    s.deliverRx (s.classRing f.h.cls) x (RxFlag.CUT + RxFlag.MAC_VALID + alarmFlag f.h.cls) f.mac f.counter []
  else s.deliverRx (s.get Pg.WAD WAD.CUT_RING) x RxFlag.CUT 0 0 []

/-- A field found by a diagnostic replay (R196): delivered to its ring when it passes the FCS, else counted. -/
def State.diagFrame (x : RxCopy) (ring : Nat) (s : State) : State :=
  if fcsOk x.field = false then s.bumpSat Pg.MIR MIR.FAILS
  else
    let f := RxFrame.of x false
    let raw := fieldPayload x.field
    let payload := match s.slotOf f.h.src with
      | some n =>
        let key := (s.keySlot n).key
        if f.h.sec && micOk key f.h.src false x.field then openPayload key f.h.src false x.field else raw
      | none => raw
    (s.bumpSat Pg.MIR MIR.FRAMES).deliverRx ring x (RxFlag.DIAG + RxFlag.MAC_VALID + alarmFlag f.h.cls) f.mac f.counter payload

/-- A copy reaches the frame path. -/
def State.rxCopy (x : RxCopy) (remote : Bool) (s : State) : State :=
  match x.cut with
  | some n => s.cutReport x n
  | none =>
    match x.diag with
    | some ring => s.diagFrame x ring
    | none =>
      let f := RxFrame.of x remote
      if fcsOk x.field = false then
        (if 0 < x.combined then s else s.rxDrop f ERG.FCS_FAIL_CNT ERGX.FCS_FAIL_TOT)
      else if formatOk x.field = false then s.rxDrop f ERG.FORMAT_INVALID_CNT ERGX.FORMAT_INVALID_TOT
      else if s.deepMaster && s.mergedAway f then s.count Pg.CAV CAV.MERGE_CNT
      else
        let s := onlyIf s.deepMaster (State.modCav fun c => { c with merged := (f.h.src, f.h.seq, x.tSync) :: c.merged }) s
        if s.runSeen f then
          let s : State := onlyIf (decide (x.combined = 0))
            (fun s => { s with key := { s.key with laterCopies := s.key.laterCopies + 1 } }) s
          let s := match x.late, s.runOf x with
            | false, some (t0, e) => s.retimeRun x.eng t0 e
            | _, _ => s
          onlyIf (x.late && (match s.slotOf f.h.src with
            | some n => lateSeen f (s.keySlot n)
            | none => false)) (State.count Pg.MIR MIR.LATE_DUP_CNT) s
        else s.pathSteps f

/-- The oldest copy that waits for the frame path. -/
def State.framePath (s : State) : State :=
  match s.key.rx with
  | [] => s
  | x :: t => ({ s with key := { s.key with rx := t } } : State).rxCopy x false

end Sys2Proof.Machine
end

