-- ==== Sys2Proof/Machine/Link.lean ====
section
/-! DEFINITION. Link firmware 4.2 (10_slafer_link_protocol.md): what it sends, endpoint records (R239), routes (R238), sessions
(R241 to R248), the mailbox (R250) and the event FIFO (R251), its watchdog and its stops (R17). -/
namespace Sys2Proof.Machine

/-! ## Sending (R226, R246, R253) -/

/-- The transmit channel that link firmware uses toward an endpoint: on the port of the engine that heard it last, the lowest
enabled channel with that engine's centre and rate; channel 0 where there is none. -/
def State.epChannel (s : State) (a : Nat) : Nat × Nat :=
  let e := (s.ep a).eng
  let p := s.eget e ERG.PORT
  (p, ((List.range 16).find? fun k => s.flag (Pg.TXS p) (TXS.EN.nth k)
    && decide (s.get (Pg.TXS p) (TXS.CENTRE.nth k) = s.eget e ERG.CENTRE)
    && decide (s.get (Pg.TXS p) (TXS.RATE.nth k) = s.eget e ERG.RATE)).getD 0)

/-- Queues of link firmware (R253). -/
def linkQueues : List Nat := (List.range 63).map (· + 8128)

/-- Link firmware submits a frame to an address on a transmit channel through one of its own queues: one that serves this address,
channel and class already, else an empty one, which it describes anew; with none left the frame is lost. -/
def State.fwPush (a p k ftype cls : Nat) (sec ackReq more : Bool) (payload : List Byte) (s : State) : State :=
  let d14 := WQD.TXCH.ins (WQD.PORT.ins (WQD.CLASS.ins Queue.idle.d14 cls) p) k
  let d18 := WQD.DST.ins Queue.idle.d18 a
  let mine := fun n => (s.queue n).isOpen && decide ((s.queue n).d14 = d14) && decide ((s.queue n).d18 = d18)
  let hdr := BitVec.ofNat 32 (ackReq.toNat * 2 ^ 8 + sec.toNat * 2 ^ 9 + more.toNat * 2 ^ 10)
  let queue := match linkQueues.find? mine with
    | some n => some n
    | none => linkQueues.find? fun n => decide ((s.queue n).msgs = [])
  match queue with
  | none => s
  | some n =>
    let s := s.setQueue n { s.queue n with d14 := d14, d18 := d18, isOpen := true }
    (s.submit n [hdr, 0, 0, 0] payload ftype true).2

/-- Link firmware sends a secured frame to an endpoint on its channel. -/
def State.fwSend (a ftype cls : Nat) (ackReq more : Bool) (payload : List Byte) (s : State) : State :=
  s.fwPush a (s.epChannel a).1 (s.epChannel a).2 ftype cls true ackReq more payload

/-- The payload of a SCHEDULE frame (R226): at most 76 entries of an endpoint address and a delay in ms. -/
def schedulePayload (entries : List (BitVec 12 × BitVec 12)) : List Byte :=
  let l := entries.take 76
  leBytes 1 l.length ++ l.flatMap fun e => leBytes 3 (e.1.toNat + 4096 * e.2.toNat)

/-- Link firmware sends a frame that it has composed (R226, R231): SCHEDULE frames secured with the grid key to 0xFFF in class 1, TEST
frames to an endpoint in class 3. -/
def State.fwCompose (x : FwFrame) (s : State) : State :=
  match x with
  | .schedule p k entries => s.fwPush 0xFFF p.val k.val ftypeSchedule 1 true false false (schedulePayload entries)
  | .test a sec ackReq bytes =>
    s.fwPush a.val (s.epChannel a.val).1 (s.epChannel a.val).2 FT.TEST 3 sec ackReq false bytes

/-- SESS_CTRL operations and reasons (R226, R242). -/
def Op.ACCEPT : Nat := 1
def Op.REFUSE : Nat := 2
def Op.QUERY : Nat := 3
def Op.ABORT : Nat := 4
def Reason.NONE : Nat := 0
def Reason.BAD_PARAM : Nat := 1
def Reason.NO_MEMORY : Nat := 2
def Reason.TOO_MANY : Nat := 3
def Reason.CANCELLED : Nat := 4
def Reason.OBJECT_CHECK : Nat := 5
def Reason.PEER_INCONSISTENT : Nat := 6
def Reason.UNKNOWN_SID : Nat := 7
def Reason.EXPIRED : Nat := 8

/-- Sends a SESS_CTRL frame. -/
def State.sendCtrl (a sid op reason win : Nat) (s : State) : State :=
  s.fwSend a FT.SESS_CTRL 1 true false (leBytes 1 sid ++ leBytes 1 op ++ leBytes 1 reason ++ leBytes 1 win)

/-- Sends ASSIGN with an endpoint's uplink route: its relays turned round, without the first hop, ending with 0x000 (R226,
R238); CYCLE is set at t0. -/
def State.sendAssign (a : Nat) (s : State) : State :=
  let r := (s.ep a).route
  let up := if r = [] then [] else r.reverse.tail ++ [0]
  let packed := (encodeRoute up ++ List.replicate 6 0).take 6
  s.fwSend a FT.ASSIGN 1 true false (leBytes 1 up.length ++ packed ++ leBytes 4 0)

/-! ## Sessions (R241 to R248) -/

/-- Outcomes of sessions (R248). -/
def Done.COMPLETE : Nat := 0
def Done.CANCELLED : Nat := 1
def Done.PEER_REFUSED : Nat := 2
def Done.PEER_LOST : Nat := 3
def Done.PEER_REBOOT : Nat := 4
def Done.PEER_INCONSISTENT : Nat := 5
def Done.OBJECT_CHECK : Nat := 6
def Done.PEER_REOPEN : Nat := 7
def Done.PEER_ABORT : Nat := 8

/-- The session under a handle. -/
def State.sess (s : State) (h : Nat) : Option Sess := Tab.get (fun _ => none) s.lnk.sess h

/-- Replaces the session under a handle. -/
def State.setSess (h : Nat) (x : Option Sess) (s : State) : State :=
  s.modLnk fun l => { l with sess := Tab.set (fun _ => none) l.sess h x }

/-- Changes the session under a handle. -/
def State.modSess (h : Nat) (f : Sess → Sess) (s : State) : State := s.setSess h ((s.sess h).map f)

/-- Open sessions, with their handles. -/
def State.openSess (s : State) : List (Nat × Sess) := s.lnk.sess.filterMap fun e => e.2.map fun x => (e.1, x)

/-- The handle of the session (endpoint, direction, SID) (R241). -/
def State.sessOf (s : State) (a : Nat) (rx : Bool) (sid : Nat) : Option Nat :=
  (s.openSess.find? fun e => decide (e.2.ep = a) && decide (e.2.rx = rx) && decide (e.2.sid = sid)).map (·.1)

/-- Segments of a session, and the bytes of segment i. -/
def Sess.count (x : Sess) : Nat := ceilDiv x.total (Nat.max 1 x.segSize)
def Sess.segLen (x : Sess) (i : Nat) : Nat := Nat.min x.segSize (x.total - i * x.segSize)

/-- Segment i is held. -/
def Sess.has (x : Sess) (i : Nat) : Bool := decide (i < x.base) || decide (i ∈ x.held)

/-- Advances BASE over held segments. -/
def advanceBase : Nat → Nat → List Nat → Nat
  | 0, b, _ => b
  | fuel + 1, b, held => if b ∈ held then advanceBase fuel (b + 1) held else b

/-- The record with more segments held and BASE moved on (R243, R245). -/
def Sess.withHeld (x : Sess) (base : Nat) (held : List Nat) : Sess :=
  let all := held.filter fun i => decide (base ≤ i)
  let b := advanceBase all.length base all
  { x with base := b, held := all.filter fun i => decide (b ≤ i) }

/-- Bytes that a session's record shows held. -/
def Sess.bytes (x : Sess) : Nat := Nat.min x.total ((x.base + x.held.length) * x.segSize)

/-- Byte address of the object of a session in the SESSION_OBJ region, where there is one. -/
def State.objAt (s : State) (x : Sess) : Option Nat := (s.regionOf 6).map fun r => s.regionBase r + x.offset * 4096

/-- The bytes of a span of a session's object. -/
def State.objBytes (s : State) (x : Sess) (i n : Nat) : List Byte :=
  match s.objAt x with
  | some a => (List.range n).map fun k => s.dramByte (a + i + k)
  | none => List.replicate n 0

/-- A session closes with an outcome (R248): it raises SESSION_DONE, unless it has been reported COMPLETE. -/
def State.closeSess (h outcome word3 : Nat) (s : State) : State :=
  match s.sess h with
  | none => s
  | some x =>
    let s := s.setSess h none
    if x.state = .complete then s
    else
      let s := s.count Pg.LNK (if outcome = Done.COMPLETE then LNK.SESS_DONE_CNT else LNK.SESS_FAIL_CNT)
      s.evt Evt.SESSION_DONE x.ep outcome [x.sid + x.rx.toNat * 2 ^ 8 + h % 65536 * 2 ^ 16, x.offset, word3]

/-- A session closes, reporting the bytes held. -/
def State.endSess (h outcome : Nat) (s : State) : State :=
  match s.sess h with
  | some x => s.closeSess h outcome x.bytes
  | none => s

/-- The head-end aborts a session with a reason (R242). -/
def State.abortSess (h reason outcome : Nat) (s : State) : State :=
  match s.sess h with
  | some x => (s.sendCtrl x.ep x.sid Op.ABORT reason 0).endSess h outcome
  | none => s

/-- The largest segment that the route to an endpoint leaves room for: SEG_SIZE + 4 fits a secured payload (R122, R242). -/
def segRoom (hops : Nat) : Nat := 228 - routeBytes hops

/-- The session limits of R241 leave room for one more. -/
def State.sessRoom (s : State) (a : Nat) (rx : Bool) : Bool :=
  decide (s.openSess.length < 256)
    && decide ((s.openSess.filter fun e => decide (e.2.ep = a) && decide (e.2.rx = rx)).length < 2)

/-- A free handle. -/
def State.freeHandle (s : State) : Nat :=
  ((List.range 257).map fun i => (s.lnk.nextHandle + i) % 65536).find? (fun h => decide (s.sess h = none)) |>.getD 0

/-- Opens a session under a new handle. -/
def State.addSess (x : Sess) (s : State) : Nat × State :=
  let h := s.freeHandle
  (h, (s.setSess h (some x)).modLnk fun l => { l with nextHandle := (h + 1) % 65536 })

/-- The next own SID toward an endpoint: 1 to 255 in rotation, skipping those in use (R241). -/
def State.takeSid (a : Nat) (s : State) : Nat × State :=
  let last := Tab.get (fun _ => 0) s.lnk.nextSid a
  let sid := ((List.range 255).map fun i => (last + i) % 255 + 1).find? (fun k => decide (s.sessOf a false k = none)) |>.getD 1
  (sid, s.modLnk fun l => { l with nextSid := Tab.set (fun _ => 0) l.nextSid a sid })

/-- Sends the SESS_OPEN of a session and waits for ACCEPT. -/
def State.sendOpen (h : Nat) (s : State) : State :=
  match s.sess h with
  | none => s
  | some x =>
    let s := s.modSess h fun x => { x with waitFrom := some s.time }
    s.fwSend x.ep FT.SESS_OPEN 1 true false (leBytes 1 x.sid ++ leBytes 4 x.total ++ leBytes 1 x.segSize ++ leBytes 1 x.win
      ++ leBytes 1 x.sackEvery ++ leBytes 4 x.check ++ leBytes 2 x.objType)

/-- Opens a session that the head-end sends (R241, R246); answers its handle and SID. -/
def State.startSess (a offset total segSize win every check objType : Nat) (auto : Bool) (s : State) : (Nat × Nat) × State :=
  let (sid, s) := s.takeSid a
  let x : Sess := {
    ep := a, rx := false, sid := sid, state := .opening, total := total, segSize := segSize, win := win, sackEvery := every
    check := check, objType := objType, offset := offset, base := 0, held := [], sent := [], autoRestart := auto, sackCtr := 0
    contra := 0, queries := 0, waitFrom := none, queryAt := s.time, suspAt := s.time, lastRx := s.time, replace := false
    sinceSack := 0 }
  let (h, s) := s.addSess x
  ((h, sid), s.sendOpen h)

/-- Sends SESS_CTRL QUERY of a session. -/
def State.sendQuery (h : Nat) (s : State) : State :=
  match s.sess h with
  | none => s
  | some x => (s.modSess h fun x => { x with queryAt := s.time }).sendCtrl x.ep x.sid Op.QUERY Reason.NONE 0

/-- A sender suspends its session. -/
def State.suspend (h : Nat) (s : State) : State :=
  s.modSess h fun x => { x with state := .suspended, suspAt := s.time, waitFrom := none, queries := 0, sent := [] }

/-- The messages of a session's own frames, opens, segments and commands, that link firmware's queues still hold. -/
def State.sessMsgs (s : State) (x : Sess) : List Msg :=
  s.wad.queues.flatMap fun e => e.2.msgs.filter fun m =>
    isLinkQueue e.1 && decide ((s.plan e.1 m).dst = x.ep) && decide (m.ftype = 6 ∨ m.ftype = 7 ∨ m.ftype = 9)
      && decide ((m.payload.headD 0).toNat = x.sid)

/-- Segments of a session that wait to go out or are going out. -/
def State.queuedSegs (s : State) (x : Sess) : List Nat :=
  ((s.sessMsgs x).filter fun m => decide (m.ftype = 7)).map fun m => leNat ((m.payload.drop 1).take 3)

/-- Sends segments, MORE set on all but the last (R244). -/
def State.sendSegs (h : Nat) : List Nat → State → State
  | [], s => s
  | i :: t, s =>
    match s.sess h with
    | none => s
    | some x =>
      let s := s.fwSend x.ep FT.SEG 3 false (decide (t ≠ []))
        (leBytes 1 x.sid ++ leBytes 3 i ++ s.objBytes x (i * x.segSize) (x.segLen i))
      State.sendSegs h t (s.modSess h fun x => { x with sent := i :: x.sent })

/-- The sender's burst (R244): the segments of its window that are neither held nor sent since the last SACK; then it waits. -/
def State.burst (h : Nat) (s : State) : State :=
  match s.sess h with
  | none => s
  | some x =>
    let todo := ((List.range x.win).map (· + x.base)).filter fun i =>
      decide (i < x.count) && !x.has i && !decide (i ∈ x.sent)
    (s.sendSegs h todo).modSess h fun x => { x with waitFrom := some s.time }

/-- BITMAP of a SACK (R226). -/
def sackBits (base : Nat) (held : List Nat) : Nat :=
  (List.range 64).foldl (fun b i => if base + 1 + i ∈ held then b + 2 ^ i else b) 0

/-- The receiver sends a SACK. -/
def State.sendSack (h : Nat) (answer : Bool) (s : State) : State :=
  match s.sess h with
  | none => s
  | some x =>
    let flags := (if x.state = .complete then 1 else 0) + (if answer then 2 else 0)
    (s.modSess h fun x => { x with sinceSack := 0 }).fwSend x.ep FT.SACK 3 false false
      (leBytes 1 x.sid ++ leBytes 1 flags ++ leBytes 3 x.base ++ leBytes 8 (sackBits x.base x.held))

/-- An uncorrectable error in a session's object aborts the session (R417). -/
def State.objUe (ue : List Nat) (h : Nat) (s : State) : State :=
  match s.sess h with
  | none => s
  | some x =>
    match s.objAt x with
    | none => s
    | some a =>
      let hit := ue.any fun b => decide (a ≤ b) && decide (b < a + x.total)
        && (match s.eccAt b with
          | some (k, _) => decide (k = 6)
          | none => false)
      if hit then s.abortSess h Reason.OBJECT_CHECK Done.OBJECT_CHECK else s

/-! ### Receiving an object -/

/-- Numbers in a payload. -/
def payNat (p : List Byte) (i n : Nat) : Nat := leNat ((p.drop i).take n)

/-- A free place for an object, in 4 KiB units: the lowest one that no open session's object covers (R242). -/
def State.findPlace (s : State) (units : Nat) : Option Nat :=
  match s.regionOf 6 with
  | none => none
  | some r =>
    let size := s.regionData r / 4096
    let used := s.openSess.map fun e => (e.2.offset, e.2.offset + ceilDiv e.2.total 4096)
    let fits := fun (o : Nat) => decide (o + units ≤ size) && used.all fun u => decide (o + units ≤ u.1) || decide (u.2 ≤ o)
    let ok := (0 :: used.map (·.2)).filter fits
    ok.foldl (fun b o => match b with
      | some m => some (Nat.min m o)
      | none => some o) none

/-- SESS_OPEN handled as from IDLE (R242). -/
def State.openFresh (a : Nat) (p : List Byte) (s : State) : State :=
  let sid := payNat p 0 1
  let total := payNat p 1 4
  let seg := payNat p 5 1
  let win := payNat p 6 1
  let every := payNat p 7 1
  let bad := decide (total = 0) || decide (16777216 < total) || decide (seg < 16) || decide (segRoom (s.ep a).route.length < seg)
    || decide (win = 0) || decide (64 < win) || decide (every = 0) || decide (win < every)
  if bad then s.sendCtrl a sid Op.REFUSE Reason.BAD_PARAM 0
  else if s.sessRoom a true = false then s.sendCtrl a sid Op.REFUSE Reason.TOO_MANY 0
  else match s.findPlace (ceilDiv total 4096) with
    | none => s.sendCtrl a sid Op.REFUSE Reason.NO_MEMORY 0
    | some o =>
      let x : Sess := {
        ep := a, rx := true, sid := sid, state := .receiving, total := total, segSize := seg, win := win, sackEvery := every
        check := payNat p 8 4, objType := payNat p 12 2, offset := o, base := 0, held := [], sent := [], autoRestart := false
        sackCtr := 0, contra := 0, queries := 0, waitFrom := none, queryAt := s.time, suspAt := s.time, lastRx := s.time
        replace := false, sinceSack := 0 }
      (s.addSess x).2.sendCtrl a sid Op.ACCEPT Reason.NONE win

/-- SESS_OPEN (receiver table): a repeat is answered again, other parameters close the old session. -/
def State.sessOpened (f : LnkFrame) (s : State) : State :=
  let a := f.hdr.src
  let p := f.payload
  match s.sessOf a true (payNat p 0 1) with
  | none => s.openFresh a p
  | some h =>
    match s.sess h with
    | none => s
    | some x =>
      if x.total = payNat p 1 4 ∧ x.segSize = payNat p 5 1 ∧ x.check = payNat p 8 4 then
        ((s.modSess h fun x => { x with lastRx := s.time }).sendCtrl a x.sid Op.ACCEPT Reason.NONE x.win).sendSack h false
      else (s.endSess h Done.PEER_REOPEN).openFresh a p

/-- Every segment is held (R243): the object's CRC-32C decides. -/
def State.objectDone (h : Nat) (s : State) : State :=
  match s.sess h with
  | none => s
  | some x =>
    if crc32c (s.objBytes x 0 x.total) = x.check then
      let s := (s.modSess h fun x => { x with state := .complete }).sendSack h false
      (s.count Pg.LNK LNK.SESS_DONE_CNT).evt Evt.SESSION_DONE x.ep Done.COMPLETE
        [x.sid + 2 ^ 8 + h % 65536 * 2 ^ 16, x.offset, x.total]
    else s.abortSess h Reason.OBJECT_CHECK Done.OBJECT_CHECK

/-- A segment's data enters the object under the bit rule (R243). -/
def State.writeSeg (h i : Nat) (data : List Byte) (s : State) : State :=
  match s.sess h with
  | none => s
  | some x =>
    let s := match s.objAt x with
      | some a => s.dramStore (a + i * x.segSize) data
      | none => s
    s.modSess h fun x => { x.withHeld x.base (i :: x.held) with sinceSack := x.sinceSack + 1 }

/-- SEG (R243). -/
def State.segIn (f : LnkFrame) (ue : List Nat) (s : State) : State :=
  let a := f.hdr.src
  let sid := payNat f.payload 0 1
  let i := payNat f.payload 1 3
  let data := f.payload.drop 4
  match s.sessOf a true sid with
  | none => (s.count Pg.LNK LNK.SEG_BAD_CNT).sendCtrl a sid Op.ABORT Reason.UNKNOWN_SID 0
  | some h =>
    match s.sess h with
    | none => s
    | some x =>
      let s := s.modSess h fun x => { x with lastRx := s.time }
      if x.state = .complete then s.sendSack h false
      else if x.count ≤ i then (s.count Pg.LNK LNK.SEG_BAD_CNT).sendSack h false
      else if x.has i then
        let s := s.count Pg.LNK LNK.SEG_DUP_CNT
        if f.hdr.more then s else s.sendSack h false
      else if x.base + x.win ≤ i then (s.count Pg.LNK LNK.SEG_OUT_WIN_CNT).sendSack h false
      else if data.length ≠ x.segLen i then (s.count Pg.LNK LNK.SEG_BAD_CNT).sendSack h false
      else
        let s := s.writeSeg h i data
        match s.sess h with
        | none => s
        | some y =>
          if y.base = y.count then
            let t := s.objUe ue h
            if (t.sess h).isSome then t.objectDone h else t
          else if f.hdr.more = false ∨ y.sackEvery ≤ y.sinceSack then s.sendSack h false
          else s

/-- SESS_CTRL QUERY: answered with a SACK with ANSWER (R243). -/
def State.queryIn (f : LnkFrame) (s : State) : State :=
  let sid := payNat f.payload 0 1
  match s.sessOf f.hdr.src true sid with
  | none => s.sendCtrl f.hdr.src sid Op.ABORT Reason.UNKNOWN_SID 0
  | some h => (s.modSess h fun x => { x with lastRx := s.time }).sendSack h true

/-! ### Sending an object -/

/-- The segments that a SACK shows held beyond its BASE. -/
def sackHeld (base bits : Nat) : List Nat := ((List.range 64).filter fun i => decide (bitOf bits i = 1)).map (· + base + 1)

/-- A SACK contradicts the sender's record (R245): a lower BASE, or a held segment that it shows as not held. -/
def Sess.contradicted (x : Sess) (base bits : Nat) : Bool :=
  decide (base < x.base)
    || x.held.any fun i => decide (base ≤ i) && decide (i ≤ base + 64) && !decide (i ∈ sackHeld base bits)

/-- The sender's record after a SACK (R245); the segments in `queued` have not gone out yet and are not sent again (R244). -/
def Sess.afterSack (x : Sess) (base bits t ctr : Nat) (whole : Bool) (queued : List Nat) : Sess :=
  let n := Nat.min base x.count
  let new := (sackHeld n bits).filter fun i => decide (i < x.count)
  let y := if whole then x.withHeld n new
    else x.withHeld (Nat.max x.base n) (x.held ++ new.filter fun i => !decide (i ∈ x.held))
  { y with state := .sending, sent := queued, queries := 0, lastRx := t, sackCtr := ctr
           replace := if whole then false else x.replace }

/-- A SACK that is not stale reaches its session. -/
def State.sackFresh (h : Nat) (x : Sess) (f : LnkFrame) (ue : List Nat) (s : State) : State :=
  let flags := payNat f.payload 1 1
  let base := payNat f.payload 2 3
  let bits := payNat f.payload 5 8
  let whole := x.replace && decide (flags / 2 % 2 = 1)
  if flags % 2 = 1 then (s.modSess h fun y => { y with base := y.count, held := [] }).endSess h Done.COMPLETE
  else
    let bad := !whole && x.contradicted base bits
    let s := onlyIf bad (State.count Pg.LNK LNK.SACK_CONTRA_CNT) s
    let s := s.setSess h (some { x.afterSack base bits s.time f.counter whole (s.queuedSegs x) with contra := if bad then x.contra + 1 else 0 })
    if bad ∧ s.get Pg.LNK LNK.CONTRA_LIMIT ≤ x.contra + 1 then
      s.abortSess h Reason.PEER_INCONSISTENT Done.PEER_INCONSISTENT
    else (s.burst h).objUe ue h

/-- SACK (R244, R245). -/
def State.sackIn (f : LnkFrame) (ue : List Nat) (s : State) : State :=
  let sid := payNat f.payload 0 1
  match s.sessOf f.hdr.src false sid with
  | none => (s.count Pg.LNK LNK.SEG_BAD_CNT).sendCtrl f.hdr.src sid Op.ABORT Reason.UNKNOWN_SID 0
  | some h =>
    match s.sess h with
    | none => s
    | some x =>
      if x.state = .opening ∨ f.counter < x.sackCtr then s else s.sackFresh h x f ue

/-- SESS_CTRL ACCEPT: an OPENING sender takes the granted window and sends. -/
def State.acceptIn (f : LnkFrame) (ue : List Nat) (s : State) : State :=
  match s.sessOf f.hdr.src false (payNat f.payload 0 1) with
  | none => s
  | some h =>
    match s.sess h with
    | none => s
    | some x =>
      if x.state ≠ .opening then s
      else
        let win := Nat.max 1 (Nat.min x.win (payNat f.payload 3 1))
        ((s.modSess h fun x => { x with state := .sending, win := win, queries := 0, lastRx := s.time }).burst h).objUe ue h

/-- SESS_CTRL REFUSE closes an OPENING session. -/
def State.refuseIn (f : LnkFrame) (s : State) : State :=
  match s.sessOf f.hdr.src false (payNat f.payload 0 1) with
  | none => s
  | some h =>
    match s.sess h with
    | none => s
    | some x => if x.state = .opening then s.closeSess h Done.PEER_REFUSED (payNat f.payload 2 1) else s

/-- SESS_CTRL ABORT closes the session that it names: the one the head-end sends where the reason is a receiver's, else the one
it receives. -/
def State.abortIn (f : LnkFrame) (s : State) : State :=
  let a := f.hdr.src
  let sid := payNat f.payload 0 1
  let reason := payNat f.payload 2 1
  let first := decide (reason ≠ Reason.OBJECT_CHECK) && decide (reason ≠ Reason.UNKNOWN_SID)
  match (match s.sessOf a first sid with
    | some h => some h
    | none => s.sessOf a (!first) sid) with
  | none => s
  | some h => s.closeSess h Done.PEER_ABORT reason

/-- SACK_WAIT_EXPIRY (R244): once all that the session has to send has gone out, and SACK_WAIT_MS after that, an OPENING sender opens
again, a SENDING one queries; after QUERY_LIMIT the session suspends. -/
def State.sackWait (t h : Nat) (s : State) : State :=
  match s.sess h with
  | none => s
  | some x =>
    match x.waitFrom with
    | none => s
    | some w =>
      if s.fwRunning = false ∨ x.rx ∨ s.sessMsgs x ≠ [] ∨ t < w + msTicks (s.get Pg.LNK LNK.SACK_WAIT_MS) then s
      else
        let lim := s.get Pg.LNK LNK.QUERY_LIMIT
        if x.state = .opening then
          if lim ≤ x.queries + 1 then s.suspend h
          else (s.modSess h fun x => { x with queries := x.queries + 1 }).sendOpen h
        else if x.state = .sending then
          if lim ≤ x.queries then s.suspend h
          else (s.modSess h fun x => { x with queries := x.queries + 1, waitFrom := some t }).sendQuery h
        else s

/-! ## Endpoint records and routes (R237 to R240) -/

/-- A route leaves room for the segments of every open session with the endpoint (R238). -/
def State.routeFits (s : State) (a : Nat) (r : List Nat) : Bool :=
  s.openSess.all fun e => !decide (e.2.ep = a) || decide (e.2.segSize ≤ segRoom r.length)

/-- An endpoint takes a new route (R238): ASSIGN tells it, ROUTE_CHANGE the host. -/
def State.routeTo (a : Nat) (r : List Nat) (s : State) : State :=
  let e := s.ep a
  let s := (s.setEp a { e with route := r, learned := e.learned.filter fun x => decide (x ≠ r), noAck := 0 }).sendAssign a
  let packed := leNat (encodeRoute r)
  s.evt Evt.ROUTE_CHANGE a r.length [packed, packed / 2 ^ 32]

/-- The routes that an endpoint may take instead of its own: those learned, or where there are none the path without relays (DEDUCED,
log entry 140: a route that is dropped with none to follow leaves no relay). -/
def EpRec.others (e : EpRec) : List (List Nat) := if e.learned = [] ∧ e.route ≠ [] then [[]] else e.learned

/-- After 3 successive FAILED_NOACK outcomes link firmware drops a route that is not pinned and takes the next one it has learned;
where none of these leaves room for the segments of the open sessions, those it sends suspend (R238). -/
def State.routeRepair (a : Nat) (s : State) : State :=
  let e := s.ep a
  if s.fwRunning = false ∨ e.state = EpState.absent ∨ e.pinned ∨ e.noAck < 3 ∨ e.others = [] then s
  else match e.others.find? fun r => s.routeFits a r with
    | some r => s.routeTo a r
    | none => forEach (s.openSess.filter fun x => decide (x.2.ep = a) && !x.2.rx && decide (x.2.state ≠ .suspended))
        (fun x s => s.suspend x.1) s

/-- COMPLETION_RECORD_WRITE (R267): the first completion record due for a ring is written, held or lost; link firmware repairs the
routes on which three messages in a row have failed (R238). -/
def execCompletionRecordWrite (t : Nat) (ring : Fin 64) (s : State) : Res :=
  let s := (s.atTick t).writeDue t ring.val
  finish (forEach (s.lnk.eps.map (·.1)) State.routeRepair s)

/-- What an endpoint's new BOOT does to a session with it (R247): `listed` holds the SIDs that the HELLO lists with PERSIST. -/
def State.bootSess (listed : List Nat) (h : Nat) (s : State) : State :=
  match s.sess h with
  | none => s
  | some x =>
    if x.sid ∈ listed then
      if x.rx then s
      else ((s.suspend h).modSess h fun x => { x with replace := true }).sendQuery h
    else
      let s := s.endSess h Done.PEER_REBOOT
      if x.autoRestart && !x.rx then
        (s.startSess x.ep x.offset x.total x.segSize x.win x.sackEvery x.check x.objType false).2
      else s

/-- The parameters of a HELLO replace those of the record (R226, R239). -/
def EpRec.hello (r : EpRec) (p : List Byte) : EpRec :=
  let caps := payNat p 3 1
  { r with boot := payNat p 0 2, sleepy := decide (caps % 2 = 1), mainsLocked := decide (caps / 2 % 2 = 1)
           relay := decide (caps / 4 % 2 = 1), persist := decide (caps / 8 % 2 = 1), wiMs := payNat p 4 4, lMs := payNat p 8 2
           guardMs := payNat p 10 2, driftPpm := payNat p 12 2 }

/-- HELLO (R239, R247). -/
def State.helloIn (f : LnkFrame) (s : State) : State :=
  let a := f.hdr.src
  let r := s.ep a
  let p := f.payload
  if r.state = .provisioned then ((s.setEp a { r.hello p with state := .active }).sendAssign a).routeRepair a
  else if r.state = .active then
    if payNat p 0 2 = r.boot then (s.sendAssign a).routeRepair a
    else
      let k := s.keySlot r.slot
      let s := s.setKeySlot r.slot { k with cache := [], floor := k.ctrHi }
      let s := (s.setEp a (r.hello p)).evt Evt.ENDPOINT_BOOT a 0 [payNat p 0 2]
      let listed := if payNat p 3 1 / 8 % 2 = 1 then (List.range (Nat.min 2 (payNat p 14 1))).map fun j => payNat p (15 + 4 * j) 1
        else []
      let s := forEach ((s.openSess.filter fun e => decide (e.2.ep = a)).map (·.1)) (State.bootSess listed) s
      (s.sendAssign a).routeRepair a
  else if r.state = EpState.absent then s
  else (s.sendAssign a).routeRepair a

/-- NEIGHBOUR (R238): each address that an endpoint hears may be reached over it, and it over each of them. -/
def State.neighbourIn (f : LnkFrame) (s : State) : State :=
  let a := f.hdr.src
  let heard := (List.range (Nat.min 16 (payNat f.payload 0 1))).map fun i => payNat f.payload (1 + 3 * i) 3 % 4096
  forEach heard (fun b s =>
    if b = 0 then (s.learnRoute a []).routeRepair a
    else
      let s := (s.learnRoute b ((s.ep a).route ++ [a])).routeRepair b
      if (s.ep b).state = EpState.absent then s else (s.learnRoute a ((s.ep b).route ++ [b])).routeRepair a) s

/-- REPORT (R240): AUTH_REJECT marks the messages in flight to its sender that carry the SEQ it names. -/
def State.reportIn (f : LnkFrame) (s : State) : State :=
  if payNat f.payload 0 1 ≠ 1 then s
  else
    let seq := payNat f.payload 1 2
    let hits := s.wad.queues.flatMap fun e => (e.2.msgs.filter fun m =>
      decide (m.seq = some seq) && m.inFlight && decide ((s.plan e.1 m).dst = f.hdr.src)).map fun m => (e.1, m.tag)
    forEach hits (fun e s => s.modMsg e.1 e.2 fun m => { m with authReject := true }) s

/-- The oldest frame that waits for link firmware, where it has the type and the operation asked for. -/
def State.takeFrame (ftype : Nat) (op : Option Nat) (f : LnkFrame → State → State) (s : State) : State :=
  match s.lnk.inbox with
  | [] => s
  | x :: t =>
    let opOk := match op with
      | some k => decide (payNat x.payload 1 1 = k)
      | none => true
    if s.fwRunning && decide (x.hdr.ftype = ftype) && opOk then f x (s.modLnk fun l => { l with inbox := t }) else s

/-- HELLO_RECEIVED. -/
def execHelloReceived (t : Nat) (s : State) : Res := finish ((s.atTick t).takeFrame FT.HELLO none State.helloIn)

/-- NEIGHBOUR_RECEIVED. -/
def execNeighbourReceived (t : Nat) (s : State) : Res := finish ((s.atTick t).takeFrame FT.NEIGHBOUR none State.neighbourIn)

/-- REPORT_RECEIVED. -/
def execReportReceived (t : Nat) (s : State) : Res := finish ((s.atTick t).takeFrame FT.REPORT none State.reportIn)

/-- TEST_RECEIVED: link firmware takes the frame; the spec gives it nothing to do with it. -/
def execTestReceived (t : Nat) (s : State) : Res := finish ((s.atTick t).takeFrame FT.TEST none fun _ s => s)

/-- SESS_OPEN_RECEIVED. -/
def execSessOpenReceived (t : Nat) (s : State) : Res := finish ((s.atTick t).takeFrame FT.SESS_OPEN none State.sessOpened)

/-- SEG_RECEIVED; `ue`: DRAM addresses that were read with an uncorrectable error while the object was checked. -/
def execSegReceived (t : Nat) (ue : List Nat) (s : State) : Res :=
  finish (((s.atTick t).takeFrame FT.SEG none fun f s => s.segIn f ue).dramUes ue)

/-- SACK_RECEIVED; `ue`: DRAM addresses that were read with an uncorrectable error while segments were formed. -/
def execSackReceived (t : Nat) (ue : List Nat) (s : State) : Res :=
  finish (((s.atTick t).takeFrame FT.SACK none fun f s => s.sackIn f ue).dramUes ue)

/-- SESS_ACCEPT_RECEIVED; `ue` as for SACK_RECEIVED. -/
def execSessAcceptReceived (t : Nat) (ue : List Nat) (s : State) : Res :=
  finish (((s.atTick t).takeFrame FT.SESS_CTRL (some Op.ACCEPT) fun f s => s.acceptIn f ue).dramUes ue)

/-- SESS_REFUSE_RECEIVED. -/
def execSessRefuseReceived (t : Nat) (s : State) : Res :=
  finish ((s.atTick t).takeFrame FT.SESS_CTRL (some Op.REFUSE) State.refuseIn)

/-- SESS_QUERY_RECEIVED. -/
def execSessQueryReceived (t : Nat) (s : State) : Res :=
  finish ((s.atTick t).takeFrame FT.SESS_CTRL (some Op.QUERY) State.queryIn)

/-- SESS_ABORT_RECEIVED. -/
def execSessAbortReceived (t : Nat) (s : State) : Res :=
  finish ((s.atTick t).takeFrame FT.SESS_CTRL (some Op.ABORT) State.abortIn)

/-! ## Timers of link firmware -/

/-- ENDPOINT_SILENT (R239): an ACTIVE endpoint without contact for SILENT_S. -/
def execEndpointSilent (t : Nat) (ep : Fin 4096) (s : State) : Res :=
  let s := s.atTick t
  let r := s.ep ep.val
  let silent := s.get Pg.LNK LNK.SILENT_S
  finish (onlyIf (s.fwRunning && decide (r.state = .active) && decide (silent ≠ 0)
    && decide (r.lastContact + silent * ticks1s ≤ t)) (State.epTo ep.val .silent) s)

/-- SACK_WAIT_EXPIRY. -/
def execSackWaitExpiry (t : Nat) (handle : BitVec 16) (s : State) : Res := finish ((s.atTick t).sackWait t handle.toNat)

/-- PROBE_EXPIRY: a suspended sender queries again PROBE_S after its last query. -/
def execProbeExpiry (t : Nat) (handle : BitVec 16) (s : State) : Res :=
  let s := s.atTick t
  finish (match s.sess handle.toNat with
    | none => s
    | some x => onlyIf (s.fwRunning && !x.rx && decide (x.state = .suspended)
        && decide (x.queryAt + s.get Pg.LNK LNK.PROBE_S * ticks1s ≤ t)) (State.sendQuery handle.toNat) s)

/-- SESSION_HOLD_EXPIRY: HOLD_S in SUSPENDED, or without a frame of a session in RECEIVING. -/
def State.holdExpiry (t h : Nat) (s : State) : State :=
  match s.sess h with
  | none => s
  | some x =>
    let hold := s.get Pg.LNK LNK.HOLD_S * ticks1s
    if s.fwRunning = false then s
    else if x.state = .suspended ∧ x.suspAt + hold ≤ t then s.abortSess h Reason.EXPIRED Done.PEER_LOST
    else if x.state = .receiving ∧ x.lastRx + hold ≤ t then s.endSess h Done.PEER_LOST
    else s

/-- SESSION_HOLD_EXPIRY. -/
def execSessionHoldExpiry (t : Nat) (handle : BitVec 16) (s : State) : Res := finish ((s.atTick t).holdExpiry t handle.toNat)

/-! ## Frames from the frame path -/

/-- A contact makes the suspended senders of an endpoint query (sender table; R214). -/
def State.contactQueries (old s : State) : State :=
  forEach (s.openSess.filter fun e => decide (e.2.state = .suspended)
      && decide ((old.ep e.2.ep).heard < (s.ep e.2.ep).heard)) (fun e s => s.sendQuery e.1) s

/-- FRAME_PATH_RECEIVE. -/
def execFramePathReceive (t : Nat) (s : State) : Res :=
  let s := s.atTick t
  finish (s.contactQueries s.framePath)

/-- DEEPEN_FIELD_RECEIVE (R396): the master of a DEEPEN ring takes a data field that a slave decoded. -/
def execDeepenFieldReceive (t : Nat) (position : Fin 8) (field : RingField) (s : State) : Res :=
  let s := s.atTick t
  let x : RxCopy := {
    eng := field.eng, port := field.port, centre := field.centre, rate := field.rate, sync := field.sync, alarm := field.alarm
    hdr := field.word.toNat, tSync := field.tSync, tPre := field.tPre, snr := field.snr, field := field.field, soft := []
    late := false, diag := none, combined := 0, slot := none, copy := (PhyHeader.ofWord field.word.toNat).copyIndex, cut := none }
  finish (if s.deepMaster && s.domOn 147 then
      s.contactQueries ((s.count Pg.CAV (CAV.FWD_FRAME_CNT.nth position.val)).rxCopy x true)
    else s)

/-! ## Mailbox (R250) -/

/-- RESULT codes. -/
def MB.OK : Nat := 0
def MB.BAD_ARG : Nat := 1
def MB.NO_SUCH_ENDPOINT : Nat := 2
def MB.TABLE_FULL : Nat := 3
def MB.SESSION_LIMIT : Nat := 4
def MB.NO_MEMORY : Nat := 5
def MB.SLOT_IN_USE : Nat := 6
def MB.UNKNOWN_CMD : Nat := 0xFE
def MB.NOT_RUNNING : Nat := 0xFF

/-- What link firmware makes of a command: RESULT, response words and the state. -/
abbrev MbAns := (Nat × List Nat) × State

/-- MB_ARGi as link firmware reads it. -/
def State.arg (s : State) (i : Nat) : Nat := (s.lnk.args.getD i 0).toNat

/-- A write of MB_CMD: dropped with STATE while BUSY, answered NOT_RUNNING at once while link firmware does not run, else given to
link firmware. -/
def State.mailbox (tag : Nat) (f : State → MbAns) (s : State) : State :=
  if s.lnk.mb.isSome then s.refuse Pg.LNK ErrCode.STATE 0x040
  else
    let s := s.put Pg.LNK LNK.MB_TAG tag
    if s.fwRunning = false then (s.put Pg.LNK LNK.RESULT MB.NOT_RUNNING).event Pg.LNK LNK.EV_MB_DONE
    else
      let ((r, resp), s) := f s
      s.modLnk fun l => { l with mb := some ⟨tag, r, resp⟩ }

/-- MB_DONE: link firmware publishes its answer. -/
def State.mbDone (s : State) : State :=
  match s.lnk.mb with
  | none => s
  | some m =>
    let s := s.modLnk fun l => { l with mb := none }
    let s := forEach (List.range 8) (fun i s => s.put Pg.LNK (LNK.MB_RESP.nth i) (m.resp.getD i 0)) s
    ((s.put Pg.LNK LNK.MB_TAG m.tag).put Pg.LNK LNK.RESULT m.result).event Pg.LNK LNK.EV_MB_DONE

/-- MB_DONE. -/
def execMbDone (t : Nat) (s : State) : Res := finish (s.atTick t).mbDone

/-- NOP. -/
def State.mbNop (s : State) : MbAns := ((MB.OK, [s.get Pg.LNK LNK.FW_VERSION]), s)

/-- HALT: answered, and link firmware stops (R17). -/
def State.mbHalt (tag : Nat) (s : State) : State :=
  if s.lnk.mb.isSome ∨ s.fwRunning = false then s.mailbox tag State.mbNop
  else ((((s.put Pg.LNK LNK.MB_TAG tag).put Pg.LNK LNK.RESULT MB.OK).event Pg.LNK LNK.EV_MB_DONE).fwStop FW.HALTED false s.time)

/-- Runs `f` for an endpoint that has a record. -/
def State.withEp (a : Nat) (f : EpRec → State → MbAns) (s : State) : MbAns :=
  if (s.ep a).state = EpState.absent then ((MB.NO_SUCH_ENDPOINT, []), s) else f (s.ep a) s

/-- EP_ADD. -/
def State.mbEpAdd (s : State) : MbAns :=
  let a := s.arg 0 % 4096
  let slot := s.arg 0 / 2 ^ 16 % 2048
  if a = 0 ∨ a = 0xFFF ∨ (s.ep a).state ≠ EpState.absent then ((MB.BAD_ARG, []), s)
  else if s.lnk.eps.any fun e => decide (e.2.slot = slot) then ((MB.SLOT_IN_USE, []), s)
  else if 2048 ≤ s.lnk.eps.length ∨ s.regionOf 2 = none then ((MB.TABLE_FULL, []), s)
  else
    ((MB.OK, []), s.setEp a { EpRec.idle with
      state := .provisioned, slot := slot, sleepy := decide (s.arg 1 % 2 = 1), mainsLocked := decide (s.arg 1 / 2 % 2 = 1)
      wiMs := s.arg 2, lMs := s.arg 3 % 65536, guardMs := s.arg 3 / 65536, driftPpm := s.arg 4 % 65536 })

/-- Link firmware's frames to an endpoint are formed, with the key that they still have (DEDUCED, log entry 141: the ABORT frames of a
removed endpoint must be secured, and its slot is free at once). -/
def State.formAll (a : Nat) (s : State) : State :=
  let l := s.wad.queues.flatMap fun e => (e.2.msgs.filter fun m =>
    isLinkQueue e.1 && m.seq.isNone && decide ((s.plan e.1 m).dst = a) && !s.cannotSecure (s.plan e.1 m)).map fun m => (e.1, m.tag)
  forEach l (fun e s => s.formField e.1 e.2) s

/-- EP_REMOVE (R239): its sessions are aborted, its slot is free. -/
def State.mbEpRemove (s : State) : MbAns :=
  let a := s.arg 0 % 4096
  s.withEp a fun r s =>
    let s := forEach ((s.openSess.filter fun e => decide (e.2.ep = a)).map (·.1))
      (fun h s => s.abortSess h Reason.CANCELLED Done.CANCELLED) s
    ((MB.OK, []), ((s.formAll a).unbindKey r.slot).setEp a EpRec.idle)

/-- EP_QUERY. -/
def State.mbEpQuery (s : State) : MbAns :=
  s.withEp (s.arg 0 % 4096) fun r s =>
    let k := s.keySlot r.slot
    ((MB.OK, [Config.epCode r.state.index % 16 + r.boot * 2 ^ 16, k.txCtr, k.ctrHi, r.lastContact, r.lastContact / 2 ^ 32,
      r.route.length + r.lastLqi * 2 ^ 8]), s)

/-- KEY_SET (R236): the key and its slot's endpoint are bound; counters and cache are reset. -/
def State.mbKeySet (s : State) : MbAns :=
  let slot := s.arg 0 % 4096
  let key := (List.range 4).flatMap fun i => leBytes 4 (s.arg (i + 1))
  if slot = gridSlot then ((MB.OK, []), s.bindGrid key)
  else if 2048 ≤ slot then ((MB.BAD_ARG, []), s)
  else match List.find? (fun e => decide (e.2.slot = slot)) s.lnk.eps with
    | none => ((MB.NO_SUCH_ENDPOINT, []), s)
    | some e =>
      let s := s.bindKey slot e.1 key
      ((MB.OK, []), if e.2.state = EpState.counterLost then s.setEp e.1 { e.2 with state := .provisioned } else s)

/-- SESS_SEND (R241, R246): the object's check is computed and the session opened. -/
def State.mbSessSend (ue : List Nat) (s : State) : MbAns :=
  let a := s.arg 0 % 4096
  let offset := s.arg 1
  let total := s.arg 2
  let seg := s.arg 3 % 256
  let win := s.arg 3 / 2 ^ 8 % 256
  let every := s.arg 3 / 2 ^ 16 % 256
  s.withEp a fun r s =>
    let bad := decide (total = 0) || decide (16777216 < total) || decide (seg < 16) || decide (segRoom r.route.length < seg)
      || decide (win = 0) || decide (64 < win) || decide (every = 0) || decide (win < every)
    match s.regionOf 6 with
    | none => ((MB.NO_MEMORY, []), s)
    | some g =>
      if bad ∨ s.regionData g < offset * 4096 + total then ((MB.BAD_ARG, []), s)
      else if s.sessRoom a false = false then ((MB.SESSION_LIMIT, []), s)
      else
        let base := s.regionBase g + offset * 4096
        let check := crc32c ((List.range total).map fun i => s.dramByte (base + i))
        let ((h, sid), s) := s.startSess a offset total seg win every check (s.arg 4 % 65536) (decide (s.arg 4 / 65536 % 2 = 1))
        ((MB.OK, [sid + h % 65536 * 2 ^ 16]), (s.objUe ue h).dramUes ue)

/-- SESS_CANCEL. -/
def State.mbSessCancel (s : State) : MbAns :=
  let h := s.arg 0 % 65536
  match s.sess h with
  | none => ((MB.BAD_ARG, []), s)
  | some x => if x.state = .complete then ((MB.BAD_ARG, []), s)
    else ((MB.OK, []), s.abortSess h Reason.CANCELLED Done.CANCELLED)

/-- The states of a session, numbered in the order of the tables. -/
def SessState.index : SessState → Nat
  | .opening => 0
  | .sending => 1
  | .suspended => 2
  | .receiving => 3
  | .complete => 4
  | .closed => 5

/-- SESS_QUERY. -/
def State.mbSessQuery (s : State) : MbAns :=
  match s.sess (s.arg 0 % 65536) with
  | none => ((MB.BAD_ARG, []), s)
  | some x => ((MB.OK, [Config.sessCode x.state.index % 16, x.base, x.base + x.held.length]), s)

/-- SESS_RELEASE: the object of a COMPLETE session is free. -/
def State.mbSessRelease (s : State) : MbAns :=
  let h := s.arg 0 % 65536
  match s.sess h with
  | none => ((MB.BAD_ARG, []), s)
  | some x => if x.state = .complete then ((MB.OK, []), s.setSess h none) else ((MB.BAD_ARG, []), s)

/-- ROUTE_QUERY. -/
def State.mbRouteQuery (s : State) : MbAns :=
  s.withEp (s.arg 0 % 4096) fun r s =>
    let packed := leNat (encodeRoute r.route)
    ((MB.OK, [r.route.length, packed % 2 ^ 32, packed / 2 ^ 32]), s)

/-- ROUTE_SET (R238): the route is set and ASSIGN sent; PIN exempts it from repair. A route that leaves no room for the segments of
an open session is not taken and the command answers BAD_ARG (DESIGN CHOICE, log entry 142: R238 forbids the route and R250 names no
answer for it). -/
def State.mbRouteSet (s : State) : MbAns :=
  let a := s.arg 0 % 4096
  let hops := s.arg 0 / 2 ^ 16 % 8
  let route := decodeRoute hops (leBytes 4 (s.arg 1) ++ leBytes 4 (s.arg 2))
  s.withEp a fun r s =>
    if 4 < hops ∨ ¬ route.Nodup ∨ 0 ∈ route ∨ 0xFFF ∈ route ∨ a ∈ route ∨ s.routeFits a route = false then
      ((MB.BAD_ARG, []), s)
    else
      let s := s.setEp a { r with pinned := decide (s.arg 0 / 2 ^ 24 % 2 = 1) }
      ((MB.OK, []), if route = r.route then s.sendAssign a else s.routeTo a route)

/-- A write of MB_CMD with an opcode (R250). -/
def State.mbCmd (opcode tag : Nat) (ue : List Nat) (s : State) : State :=
  match opcode with
  | 0x01 => s.mailbox tag State.mbNop
  | 0x02 => s.mbHalt tag
  | 0x10 => s.mailbox tag State.mbEpAdd
  | 0x11 => s.mailbox tag State.mbEpRemove
  | 0x12 => s.mailbox tag State.mbEpQuery
  | 0x18 => s.mailbox tag State.mbKeySet
  | 0x20 => s.mailbox tag (State.mbSessSend ue)
  | 0x21 => s.mailbox tag State.mbSessCancel
  | 0x22 => s.mailbox tag State.mbSessQuery
  | 0x23 => s.mailbox tag State.mbSessRelease
  | 0x28 => s.mailbox tag State.mbRouteQuery
  | 0x29 => s.mailbox tag State.mbRouteSet
  | _ => s.mailbox tag fun s => ((MB.UNKNOWN_CMD, []), s)

/-! ## Event FIFO (R251) -/

/-- A read of EVT_DATA returns the next word; with its last word an event leaves the FIFO, and EVT_OVERFLOW takes the room where
events were lost. -/
def State.evtRead (s : State) : State :=
  match s.lnk.events with
  | [] => s.answer 0
  | e :: t =>
    let i := s.lnk.evtRead
    let s := s.answer (e.getD i 0)
    if i < 7 then s.modLnk fun l => { l with evtRead := i + 1 }
    else
      let lost := s.lnk.evtLost
      let s := s.modLnk fun l => { l with events := t, evtRead := 0, evtLost := 0 }
      if lost = 0 then s else s.evtPut (s.evtWords Evt.EVT_OVERFLOW 0 0 [lost])

/-! ## Running and stopping (R17, R209, R248) -/

/-- Link firmware starts to run: FW_STATE, the regime, and the sessions, whose timers stood still (R248). -/
def State.fwRuns (t : Nat) (version : Word) (s : State) : State :=
  let stopped := t - s.lnk.stoppedAt
  let s := ((s.put Pg.LNK LNK.FW_STATE FW.RUNNING).put Pg.LNK LNK.FW_VERSION version.toNat).event Pg.LNK LNK.EV_FW_RUNNING
  let s := s.stage 0x70
  let s := s.modLnk fun l => { l with
    hbAt := t
    sess := l.sess.map fun e => (e.1, e.2.map fun x =>
      if x.rx then { x with lastRx := x.lastRx + stopped }
      else if x.state = .suspended then { x with suspAt := x.suspAt + stopped, queryAt := x.queryAt + stopped }
      else { x with state := .suspended, suspAt := t, queryAt := t, waitFrom := none, queries := 0, sent := [] }) }
  if s.flag Pg.MAC MAC.FORCE_FALLBACK then s else s.toNormal

/-- LNK_REPORTS_RUNNING. -/
def execLnkReportsRunning (t : Nat) (version : Word) (s : State) : Res :=
  let s := s.atTick t
  finish (onlyIf (decide (s.fwState = FW.BOOTING)) (State.fwRuns t version) s)

/-- HEARTBEAT: link firmware is at work; `frames` are the SCHEDULE and TEST frames that it has composed since the last one. When it
composes them and with which entries is its own (DESIGN CHOICE, log entry 124: R226 gives their form, no rule their occasion). -/
def execHeartbeat (t : Nat) (frames : List FwFrame) (s : State) : Res :=
  let s := s.atTick t
  finish (onlyIf s.fwRunning (fun s =>
    let s := (s.put Pg.LNK LNK.HEARTBEAT (s.get Pg.LNK LNK.HEARTBEAT + 1)).modLnk fun l => { l with hbAt := t }
    forEach frames State.fwCompose s) s)

/-- LNK_WATCHDOG_EXPIRY: no heartbeat for WD_MS. -/
def execLnkWatchdogExpiry (t : Nat) (s : State) : Res :=
  let s := s.atTick t
  finish (onlyIf (s.fwRunning && decide (s.lnk.hbAt + msTicks (s.get Pg.LNK LNK.WD_MS) ≤ t)) (State.fwStop FW.STOPPED true t) s)

/-- LNK_FAULT. -/
def execLnkFault (t : Nat) (s : State) : Res :=
  let s := s.atTick t
  finish (onlyIf s.fwRunning (State.fwStop FW.STOPPED true t) s)

end Sys2Proof.Machine
end

