-- ==== Sys2Proof/Machine/Mac.lean ====
section
/-! DEFINITION. Medium access (09_medium_access.md): sensing (R197, R198), backoff and start checks (R199 to R202), class-0 access
(R203, R204), acknowledgements (R205 to R208), wake trains (R213 to R216), and the boundaries of the timebase that the other
blocks wait for (R66, R73). -/
namespace Sys2Proof.Machine

/-! ## Sensing (R197, R198) -/

/-- The noise-map cell of a channel of port p in the bin at tick `t` (R142). -/
def State.chanCell (s : State) (p centre t : Nat) : Word := s.cell (cellIndex p (zoneOf centre) (s.binAt t))

/-- 10 log10 of the engine width in kHz, in 1/8 dB rounded down, for the four rates: W is 5, 10, 20 or 40 kHz. -/
def widthEighths (rate : Nat) : Nat := [55, 80, 104, 128].getD rate 128

/-- The carrier-sense detector of a channel reads above its threshold (R198). -/
def State.csAbove (s : State) (t : Nat) (x : ChannelSense) : Bool :=
  let p := x.port.val
  let centre := s.txCentre p x.ch.val
  let cell := s.chanCell p centre t
  if s.binsMean && s.cellUsable cell then
    decide (((widthEighths (s.txRate p x.ch.val) + 4 * s.get Pg.MAC MAC.CS_DB : Nat) : Int) <
      (cellNoise cell : Int) - 4 * (x.level : Int))
  else decide (x.level < s.get Pg.MAC MAC.CS_ABS)

/-- Takes the carrier-sense readings of an instant. -/
def State.takeSense (t : Nat) (sense : List ChannelSense) (s : State) : State :=
  let on := (sense.filter (s.csAbove t)).map fun x => 16 * x.port.val + x.ch.val
  { s with mac := { s.mac with sensed := on } }

/-- TXCHk of port p is busy (R197). -/
def State.chanBusy (s : State) (p k : Nat) : Bool :=
  let c := s.txCentre p k
  let r := s.txRate p k
  s.mac.sensed.contains (16 * p + k)
    || s.liveEngines.any (fun e => decide (s.eget e ERG.PORT = p) && s.engBusy e
        && bandsOverlap c r (s.eget e ERG.CENTRE) (s.eget e ERG.RATE))
    || (s.portLanes p).any (fun e => e.2.onLine && inGuardZone c r e.2.centre e.2.rate)
    || s.mac.wins.any (fun w => decide (w.port = p) && w.isOpen && bandsOverlap c r w.centre w.rate)
    || s.mac.owed.any (fun o => decide (o.port = p) && bandsOverlap c r o.centre o.rate)
    || s.tokenOther p c r

/-- TXCHk of port p is not idle for the whole CCA_US before `t` (R199, R203): busy at `t`, or an activity on an overlapping band
ended within that span. -/
def State.ccaBusy (s : State) (p k t : Nat) : Bool :=
  let c := s.txCentre p k
  let r := s.txRate p k
  s.chanBusy p k || s.mac.ended.any fun x =>
    decide (x.port = p) && decide (t < x.at_ + usTicks (s.get Pg.MAC MAC.CCA_US))
      && (if x.guarded then inGuardZone c r x.centre x.rate else bandsOverlap c r x.centre x.rate)

/-- Word i of BUSY0 to BUSY7. -/
def State.busyWord (s : State) (i : Nat) : Word :=
  BitVec.ofNat 32 ((List.range 32).map fun b =>
    let n := 32 * i + b
    if s.chanBusy (n / 16) (n % 16) then 2 ^ b else 0).sum

/-! ## Attempts (R199) -/

/-- The bin of an instant is noisy for the channel (R201). -/
def State.noisySlot (s : State) (p k t : Nat) : Bool :=
  let zone := zoneOf (s.txCentre p k)
  let cell := s.chanCell p (s.txCentre p k) t
  let valid := ((List.range 64).map fun b => s.cell (cellIndex p zone b)).filter cellValid
  let quietest := valid.foldl (fun m c => Nat.max m (cellNoise c)) 0
  cellValid cell && decide (cellNoise cell + 4 * s.get Pg.MAC MAC.NOISY_DB < quietest)

/-- A lane that carries message `m` from the instant `t0` on. -/
def State.frameLane (s : State) (kind : LaneKind) (n : Nat) (m : Msg) (p : Plan) (due t0 : Nat) : Lane :=
  { kind := kind, phase := .scheduled, queue := n, tag := m.tag, cls := p.cls, ch := p.ch, centre := s.txCentre p.port p.ch
    rate := s.txRate p.port p.ch, preamble := s.get (Pg.TXS p.port) (TXS.PREAMBLE.nth p.ch)
    level := s.get (Pg.TXS p.port) (TXS.LEVEL.nth p.ch), sync := s.get (Pg.TXS p.port) (TXS.SYNC_WORD.nth p.ch)
    mod := modeMod p.mode, code := modeCode p.mode, copies := modeCopies p.mode, copy := 0, p0 := 0, due := due, t0 := t0
    tEnd := t0, ackReq := p.ackReq, field := m.field, ack := none, robust := false, energy := 0, victim := false, cutFrom := 0
    held := false, phases := [] }

/-- The t0 that a flexible start of port p, due at `due`, would get (R165). -/
def State.flexAt (s : State) (p due : Nat) : Nat := earliestClear s.staggerTicks due (s.otherStarts p false)

/-- When a start that is decided at slot `t` is due (R86), and the t0 that the stagger gives it. -/
def State.slotT0 (s : State) (p t : Nat) : Nat := s.flexAt p (t + s.enaLead p)

/-- The start of a message's attempt is handed to transmit synthesis at its slot (R199, R165). -/
def State.handStart (kind : LaneKind) (a : Attempt) (lane : Nat) (m : Msg) (p : Plan) (t : Nat) (s : State) : State :=
  let due := t + s.enaLead p.port
  let (t0, s) := s.placeFlexible p.port due false
  let s := s.setLane p.port lane (some (s.frameLane kind a.queue m p due t0))
  (s.modAttempt a.queue a.tag fun x => { x with started := true }).showDelay a.queue a.tag Delay.NONE t

/-- The dwell check of a message's run that would start at `t` (R218): the window of its duty checks ends at the upper bound of the
run's span (R128), the charge is the on-time with the falls (R217). -/
def State.runDwell (s : State) (p : Plan) (m : Msg) (t : Nat) : Nat :=
  let on := s.copyOn p m
  let air := on - 2 * symTicks (s.txRate p.port p.ch)
  let n := modeCopies p.mode
  s.dwellCheck p.port p.ch t on (t + s.runSpan n air) (s.planRun t n air on)

/-- Counts a dwell wait (R218). -/
def State.dwellWait (s : State) : State := s.count Pg.DWL DWL.DWELL_WAIT_CNT

/-- The token need of a start at this slot is not met (R392): the claim is withdrawn. -/
def State.tokenMissing (s : State) (p : Plan) : Bool := !s.tokenOk p.port (s.txCentre p.port p.ch) (s.txRate p.port p.ch)

/-- The start slot is refused for another cause than the transmit window: the run of its refusals ends (R201). -/
def State.slotRefused (a : Attempt) (why t : Nat) (s : State) : State :=
  (s.showDelay a.queue a.tag why t).modAttempt a.queue a.tag fun x => { x with winRefusals := 0 }

/-- The transmit window defers a start at `t0` (R201), `n` successive starts having been deferred before. -/
def State.windowDefers (s : State) (p k t0 n : Nat) : Bool :=
  s.flag Pg.MAC MAC.TXWIN_EN && s.noisySlot p k t0 && decide (n < s.get Pg.MAC MAC.TXWIN_MAX_SLOTS)

/-- DELAY_REASON of a start that no engine could receive the acknowledgement of (R208). -/
def State.deafWhy (s : State) (p : Plan) : Nat := if (s.ackEngines p).isEmpty then Delay.BUSY else Delay.THROTTLE

/-- The start slot of an attempt of classes 1 to 3 (R199 to R202, R208, R218, R392): the first check that fails decides. The level is
tested at t0 (R160). -/
def State.attemptSlot (a : Attempt) (m : Msg) (t : Nat) (s : State) : State :=
  let p := s.plan a.queue m
  let n := a.queue
  let t0 := s.slotT0 p.port t
  if s.throttled p.cls then (s.slotRefused a Delay.THROTTLE t).redraw a a.be
  else if !s.portReady p.port then s.slotRefused a (if s.portGone p.port then Delay.BUSY else Delay.THROTTLE) t
  else if s.deaf p then (s.setDeaf p true).slotRefused a (s.deafWhy p) t
  else if !s.chanReady p || s.isOrphan then s.slotRefused a Delay.BUSY t
  else if s.isSleepy n p then (s.showDelay n m.tag Delay.SLEEPY t).dropAttempt n m.tag
  else if s.tokenMissing p then
    (s.withdrawClaim p.port (s.txCentre p.port p.ch) (s.txRate p.port p.ch)).busyFind a t
  else if s.ccaBusy p.port p.ch t then s.busyFind a t
  else match s.runDwell p m t0 with
    | 1 => s.dwellRefused.endMsg n m.tag Outc.REFUSED_DWELL 0 t
    | 2 => (s.dwellWait.slotRefused a Delay.DWELL t).redraw a a.be
    | _ =>
      if s.windowDefers p.port p.ch t0 a.winRefusals then
        (s.count Pg.MAC MAC.TXWIN_DEFER_CNT).modAttempt n m.tag fun x => { x with winRefusals := x.winRefusals + 1 }
      else match s.dataLane p.port with
        | none => s.slotRefused a Delay.BUSY t
        | some l => s.handStart .data a l m p t

/-- The attempt is that of a SCHEDULE frame, which starts at a general access point (R202). -/
def State.isSchedule (s : State) (a : Attempt) : Bool :=
  decide (a.cls ≠ 0) && (s.msg a.queue a.tag).any fun m => decide ((s.plan a.queue m).ftype = ftypeSchedule)

/-- A SCHEDULE frame at the general access point `t` (R202, R218): it starts where its channel is idle, and otherwise waits for the
next access point. -/
def State.scheduleTry (t : Nat) (a : Attempt) (s : State) : State :=
  match s.msg a.queue a.tag with
  | none => s.dropAttempt a.queue a.tag
  | some m =>
    let p := s.plan a.queue m
    let wait := fun why s => State.showDelay a.queue a.tag why t s
    if a.started then s
    else if s.throttled p.cls then wait Delay.THROTTLE s
    else if !s.portReady p.port then wait (if s.portGone p.port then Delay.BUSY else Delay.THROTTLE) s
    else if !s.chanReady p || s.isOrphan || s.tokenMissing p then wait Delay.BUSY s
    else if s.ccaBusy p.port p.ch t then wait Delay.BUSY s
    else match s.runDwell p m (s.slotT0 p.port t) with
      | 1 => s.dwellRefused.endMsg a.queue a.tag Outc.REFUSED_DWELL 0 t
      | 2 => wait Delay.DWELL s.dwellWait
      | _ => match s.dataLane p.port with
        | none => wait Delay.BUSY s
        | some l => s.handStart .schedule a l m p t

/-- A slot boundary for one attempt of classes 1 to 3: the wait counts down, or it is the start slot. -/
def State.slotAttempt (t : Nat) (a : Attempt) (s : State) : State :=
  if a.cls = 0 ∨ a.started = true ∨ t ≤ a.ready ∨ s.isSchedule a = true then s
  else match s.msg a.queue a.tag with
    | none => s.dropAttempt a.queue a.tag
    | some m =>
      if a.wait ≠ 0 then s.modAttempt a.queue a.tag fun x => { x with wait := x.wait - 1 } else s.attemptSlot a m t

/-- Attempts whose start slot is the next one claim their tokens (R392). -/
def State.claimNext (t : Nat) (s : State) : State :=
  forEach (s.mac.attempts.filter fun a => decide (a.cls ≠ 0) && !a.started && decide (a.wait = 0))
    (fun a s => match s.msg a.queue a.tag with
      | none => s
      | some m => s.claimToken a.port (s.txCentre a.port a.ch) (s.txRate a.port a.ch) a.cls
          (t + s.messageSpan (s.plan a.queue m) m)) s

/-- A new set of the noise map's settings takes effect; the cells that are stale under its AGE_LIMIT_S follow (R145). -/
def State.nmapSafe (s : State) : State := (s.safeAll Pg.NMAP).followStale

/-- The device-wide part of a phase-bin boundary, and of a 1 ms tick in timebase state OFF (R81, R133, R164): safe points of the
ports, the predistortion taps and the array-wide pages. -/
def State.boundaryParts (t : Nat) (peaks : List PortPeak) (s : State) : State :=
  let s := forEach (List.range 16) (fun p s => (s.lptBoundary t p (peaks.getD p ⟨0, none⟩)).tapsSafe p) s
  (s.safeAll Pg.ERGX).nmapSafe

/-- The cells that LIVE engines read at a boundary (R142): CELL_NOW, and for an engine with a transmission in progress the cell that
marks its symbols from here on. -/
def State.readCells (t : Nat) (s : State) : State :=
  let s := if s.binsMean then
      forEach (s.liveEngines.filter fun c => decide (s.eget c ERG.NMAP_ERASE = 1) && decide (4 ≤ s.est c) && decide (s.est c ≤ 8))
        (fun c s => s.eput c ERG.CELL_NOW (s.chanCell (s.eget c ERG.PORT) (s.eget c ERG.CENTRE) t).toNat) s
    else s
  forEach (s.liveEngines.filter s.engBusy) (State.noteCell · t) s

/-- SLOT_BOUNDARY at a multiple of 2,048 ticks: safe points of MAC and DWL, dwell windows, backoff, the starts
that are due (R199), and arbitration (R261). -/
def State.slotBoundary (t : Nat) (sense : List ChannelSense) (peaks : List PortPeak) (s : State) : State :=
  let s := ((s.macSafe t).dwlSafe).dwellStep t
  let s := if s.tb = TB.OFF then ((s.tbSafePoint.tickBoundary t).boundaryParts t peaks).readCells t else s
  let s := s.takeSense t sense
  let s := forEach s.mac.attempts (State.slotAttempt t) s
  (s.claimNext t).arbitrate t

/-- SLOT_BOUNDARY. -/
def execSlotBoundary (t : Nat) (sense : List ChannelSense) (peaks : List PortPeak) (s : State) : Res :=
  finish (onlyIf (decide (t % 2048 = 0)) (State.slotBoundary t sense peaks) (s.atTick t))

/-! ## Phase-bin boundaries and access points (R66, R73) -/

/-- PHASE_BIN_BOUNDARY: the phase clock has entered a new bin; `peaks` are the peak samples of the ports in the bin that ended. -/
def State.binBoundary (t : Nat) (peaks : List PortPeak) (s : State) : State :=
  let s := (s.tbSafePoint.tbBoundary t).boundaryParts t peaks
  s.readCells t

/-- PHASE_BIN_BOUNDARY; in OFF there are no bins. -/
def execPhaseBinBoundary (t : Nat) (peaks : List PortPeak) (s : State) : Res :=
  let s := s.atTick t
  finish (onlyIf (decide (s.tb ≠ TB.OFF) && s.binDue t) (State.binBoundary t peaks) s)

/-! ## Class 0 (R203, R204) -/

/-- An attempt of class 0 may start on its port at the access point `t` of index `i`. -/
def State.c0May (s : State) (a : Attempt) (p : Plan) (t i : Nat) : Bool :=
  (decide (a.ready = 0) || decide (a.ready + usTicks 400 ≤ t))
    && (s.lane p.port 15).all (fun x => decide (x.kind = .ack))
    && s.mac.wins.all (fun w => !(decide (w.port = p.port) && decide (w.cls = 0)))
    && s.portReady p.port && s.chanReady p && !s.isOrphan && !s.throttled 0 && !s.tokenMissing p
    && decide (Tab.get (fun _ => 0) s.txs.c0Half p.port ≠ i + 1)

/-- A class-0 frame is placed at its access point (R165, R203), as a forced access where the channel was busy within CCA_US before
it; it takes lane 15 at its t0 (R169). -/
def State.c0Start (a : Attempt) (m : Msg) (p : Plan) (t i : Nat) (s : State) : State :=
  let s := onlyIf (s.ccaBusy p.port p.ch t) (fun s => (s.event Pg.MAC MAC.EV_FORCED_ACCESS).count Pg.MAC MAC.FORCED_CNT) s
  let (t0, s) := s.placeFlexible p.port t true
  let x := s.frameLane .class0 a.queue m p t t0
  let s : State := { s with txs := { s.txs with c0Next := Tab.set (fun _ => none) s.txs.c0Next p.port (some x)
                                                c0Half := Tab.set (fun _ => 0) s.txs.c0Half p.port (i + 1) } }
  s.modAttempt a.queue a.tag fun x => { x with started := true }

/-- The class-0 attempts that wait for an access point, in order of port number (R165). -/
def State.c0Waiting (s : State) : List Attempt :=
  (s.mac.attempts.filter fun a => decide (a.cls = 0) && !a.started).foldl (fun l a =>
    l.takeWhile (fun x => decide (x.port ≤ a.port)) ++ [a] ++ l.dropWhile fun x => decide (x.port ≤ a.port)) []

/-- CLASS0_ACCESS_POINT: every port starts a ready class-0 frame. -/
def State.class0Access (t : Nat) (sense : List ChannelSense) (s : State) : State :=
  let s := s.accFollow t
  let i := s.accIndex s.mtb.c0Eff t
  if i = s.mtb.c0Idx then s
  else
    let s : State := { s with mtb := { s.mtb with c0Idx := i } }
    let s := s.takeSense t sense
    forEach s.c0Waiting
      (fun a s => match s.msg a.queue a.tag with
        | none => s.dropAttempt a.queue a.tag
        | some m =>
          let p := s.plan a.queue m
          if s.c0May a p t i then s.c0Start a m p t i else s) s

/-- CLASS0_ACCESS_POINT. -/
def execClass0AccessPoint (t : Nat) (sense : List ChannelSense) (s : State) : Res := finish ((s.atTick t).class0Access t sense)

/-! ## Wake trains (R213 to R216) -/

/-- Bytes of a WAKE frame's data field (R226). -/
def wakeBytes : Nat := 15

/-- Symbols of a wake frame for a message: its channel's preamble and its mode, without repetition. -/
def State.wakeSymbols (s : State) (p : Plan) : Nat :=
  copySymbols (s.get (Pg.TXS p.port) (TXS.PREAMBLE.nth p.ch)) (modeMod p.mode) (modeCode p.mode) wakeBytes

/-- Airtime of a wake frame, and the period of a train, in ticks (R213). -/
def State.wakeAir (s : State) (p : Plan) : Nat := airTicks (s.txRate p.port p.ch) (s.wakeSymbols p)
def State.wakePeriod (s : State) (p : Plan) : Nat := s.wakeAir p + msTicks (s.get Pg.MAC MAC.WAKE_GAP_MS)

/-- The guard of an endpoint at tick `t` (R214). -/
def State.wakeGuard (s : State) (r : EpRec) (t : Nat) : Nat :=
  let elapsed := if r.mainsLocked then s.outTicks t - r.unlocked else t - r.heard
  Nat.min (msTicks r.guardMs + 2 * r.driftPpm * elapsed / 1000000) (msTicks r.wiMs / 2)

/-- The next predicted wake of an endpoint whose train could still start in time at `t` (R213). -/
def State.nextWakeAt (s : State) (r : EpRec) (t : Nat) : Nat :=
  let wi := Nat.max 1 (msTicks r.wiMs)
  r.heard + ceilDiv (t + s.wakeGuard r t - r.heard) wi * wi

/-- Span of the next train of an endpoint (R213, R215). -/
def State.trainSpan (s : State) (r : EpRec) (t : Nat) : Nat :=
  if r.state = .drifted then msTicks r.wiMs * (1000000 + 2 * r.driftPpm) / 1000000 + msTicks r.lMs
  else 2 * s.wakeGuard r t + msTicks r.lMs

/-- The train of an endpoint is due at the general access point `t`: a full-interval train at once, another at the last access
point before the predicted wake less the guard, or where its access point has found the channel taken. -/
def State.trainDue (s : State) (a : Nat) (r : EpRec) (t : Nat) : Bool :=
  decide (r.state = .drifted) || s.mac.again.contains a
    || decide (s.nextWakeAt r t < t + s.wakeGuard r t + s.cycleTicks / 2)

/-- The endpoint's train is tried again at the next access point, its message showing why it waits. -/
def State.trainAgain (a n : Nat) (m : Msg) (why t : Nat) (s : State) : State :=
  let s : State := { s with mac := { s.mac with again := a :: s.mac.again.filter fun x => decide (x ≠ a) } }
  s.setDelay n m why t

/-- Wake frames that the span of a train takes. -/
def State.trainFrames (s : State) (p : Plan) (r : EpRec) (t : Nat) : Nat :=
  Nat.max 1 (ceilDiv (s.trainSpan r t) (Nat.max 1 (s.wakePeriod p)))

/-- The dwell check of a train at `t` (R218). -/
def State.trainDwell (s : State) (p : Plan) (r : EpRec) (t : Nat) : Nat :=
  let on := airTicks (s.txRate p.port p.ch) (s.wakeSymbols p + 2)
  let k := s.trainFrames p r t
  let period := s.wakePeriod p
  s.dwellCheck p.port p.ch t on (t + s.trainSpan r t) ((List.range k).map fun j => (t + j * period, t + j * period + on))

/-- A train of endpoint a starts on lane l (R213): its message is in flight, its data frame's t0 is fixed. -/
def State.trainStart (a n l : Nat) (m : Msg) (p : Plan) (r : EpRec) (t : Nat) (s : State) : State :=
  let s := s.runJob ⟨.train a, 1, s.cost 0, false, t, none, false⟩
  let due := t + s.enaLead p.port
  let (t0, s) := s.placeFlexible p.port due false
  let k := s.trainFrames p r t
  let period := s.wakePeriod p
  let air := s.wakeAir p
  let dataT := t0 + (k - 1) * period + air + msTicks (s.get Pg.MAC MAC.WAKE_DATA_GAP_MS)
  let x : Lane := { s.frameLane .wake a m p due t0 with copies := 1, ackReq := false, cls := 1, field := [] }
  let s := s.setLane p.port l (some x)
  let tr : Train := ⟨a, n, m.tag, p.port, p.ch, l, t0 + period, t0 + k * period, air, dataT, 0, 0, decide (r.state = .drifted)⟩
  let s : State := { s with mac := { s.mac with trains := s.mac.trains ++ [tr], again := s.mac.again.filter fun x => decide (x ≠ a) } }
  (s.showDelay n m.tag Delay.NONE t).modMsg n m.tag fun x => { x with inFlight := true, cut := false }

/-- The checks of a train's first start (R202, R213, R218, R282, R288, R392). -/
def State.trainTry (t n : Nat) (m : Msg) (s : State) : State :=
  let p := s.plan n m
  let a := p.dst
  let r := s.ep a
  let c := s.txCentre p.port p.ch
  let rate := s.txRate p.port p.ch
  let e := s.trainFrames p r t * s.energyOf p.port (s.get (Pg.TXS p.port) (TXS.LEVEL.nth p.ch))
    (airTicks rate (s.wakeSymbols p + 2))
  if s.trainDue a r t = false then s
  else if s.deaf p then (s.setDeaf p true).trainAgain a n m (s.deafWhy p) t
  else if !s.chanReady p || s.isOrphan then s.trainAgain a n m Delay.BUSY t
  else if s.tokenMissing p then
    (s.claimToken p.port c rate 1 (t + s.trainSpan r t)).trainAgain a n m Delay.BUSY t
  else if s.ccaBusy p.port p.ch t then s.trainAgain a n m Delay.SLEEPY t
  else match s.trainDwell p r (s.slotT0 p.port t) with
    | 1 => s.dwellRefused.endPending a Outc.REFUSED_DWELL t
    | 2 => s.dwellWait.trainAgain a n m Delay.DWELL t
    | _ =>
      match s.dataLane p.port with
      | none => s.trainAgain a n m Delay.BUSY t
      | some l =>
        if s.lineFits p.port t e = false then (s.count Pg.OAS OAS.LINE_WAIT_CNT).trainAgain a n m Delay.BUDGET t
        else if s.heldBack 1 || !s.fits (s.cost 0) then
          (s.refuseJob (.train a) 1 (s.cost 0) t).trainAgain a n m Delay.BUDGET t
        else match s.grantRefusal n m p [] with
          | some code => s.endMsg n m.tag code 0 t
          | none => s.trainStart a n l m p r t

/-- Messages that wait for a train, the first of each endpoint: the lower class first, then the one accepted first. -/
def State.trainTurns (s : State) : List (Nat × Msg) :=
  let l := s.turns.filter fun e =>
    let p := s.plan e.1 e.2
    s.isSleepy e.1 p && decide (s.queueState e.1 = 1) && !s.throttled p.cls && s.portReady p.port
      && s.mac.trains.all fun r => decide (r.ep ≠ p.dst)
  let better := fun (x y : Nat × Msg) =>
    let cx := (s.plan x.1 x.2).cls
    let cy := (s.plan y.1 y.2).cls
    decide (cx < cy) || (decide (cx = cy) && decide (x.2.ord < y.2.ord))
  l.filter fun e => l.all fun o =>
    decide ((s.plan o.1 o.2).dst ≠ (s.plan e.1 e.2).dst) || !better o e

/-- ACCESS_POINT: a general access point offers starts to schedule frames and to the wake trains that are due. -/
def State.generalAccess (t : Nat) (sense : List ChannelSense) (s : State) : State :=
  let s := s.accFollow t
  let i := s.accIndex s.mtb.accEff t
  if i = s.mtb.accIdx then s
  else
    let s : State := { s with mtb := { s.mtb with accIdx := i } }
    let s := s.takeSense t sense
    let s := forEach (s.mac.attempts.filter s.isSchedule) (State.scheduleTry t) s
    forEach s.trainTurns (fun e s => s.trainTry t e.1 e.2) s

/-- ACCESS_POINT. -/
def execAccessPoint (t : Nat) (sense : List ChannelSense) (s : State) : Res := finish ((s.atTick t).generalAccess t sense)

/-- The train of an endpoint. -/
def State.train (s : State) (a : Nat) : Option Train := s.mac.trains.find? fun r => decide (r.ep = a)

/-- WAKE_FRAME_DUE: the next wake frame of a train starts WAKE_GAP_MS after the last one, without sensing, a flexible start (R165);
where its lane is missing it is skipped (R202, R213). -/
def State.wakeFrame (t a : Nat) (s : State) : State :=
  match s.train a with
  | none => s
  | some r =>
    let gap := msTicks (s.get Pg.MAC MAC.WAKE_GAP_MS)
    let last := r.dataT - msTicks (s.get Pg.MAC MAC.WAKE_DATA_GAP_MS) - r.air
    if t < r.next ∨ last + (r.air + gap) / 2 < r.next then s
    else
      let s := s.setTrain { r with next := r.next + r.air + gap }
      match s.lane r.port r.lane with
      | none => s.wakeSkip
      | some x =>
        if decide (x.kind = LaneKind.wake) && decide (x.phase = LanePhase.between) && s.portReady r.port then
          let (t0, s) := s.placeFlexible r.port r.next false
          s.setLane r.port r.lane (some { x with phase := .scheduled, due := r.next, t0 := t0 })
        else s.wakeSkip

/-- WAKE_FRAME_DUE. -/
def execWakeFrameDue (t : Nat) (ep : Fin 4096) (s : State) : Res := finish ((s.atTick t).wakeFrame t ep.val)

/-- The data frame of a train is placed on the train's lane: at the promised instant, or for a later slot (R216). -/
def State.trainData (r : Train) (m : Msg) (p : Plan) (t : Nat) (s : State) : State :=
  let due := if r.holds = 0 then r.dataT else t + s.enaLead p.port
  let (t0, s) := s.placeFlexible p.port due false
  s.setLane p.port r.lane (some { s.frameLane .data r.queue m p due t0 with held := true })

/-- The lane of a train is its own and idle; or its data frame is placed and waits for its t0. -/
def State.trainLaneIs (s : State) (r : Train) (k : LaneKind) (ph : LanePhase) : Bool :=
  match s.lane r.port r.lane with
  | some x => decide (x.kind = k) && decide (x.phase = ph)
  | none => false

/-- The checks of a train's data frame at a promised instant or a later slot: those of R199, without draws; the first that fails
decides what the message shows, and the frame waits for the next slot (R216). -/
def State.wakeCheck (r : Train) (m : Msg) (p : Plan) (t : Nat) (s : State) : State :=
  let t0 := s.flexAt p.port (if r.holds = 0 then r.dataT else t + s.enaLead p.port)
  if s.throttled p.cls then s.trainHold r Delay.THROTTLE t
  else if !s.portReady p.port then s.trainHold r (if s.portGone p.port then Delay.BUSY else Delay.THROTTLE) t
  else if s.deaf p then (s.setDeaf p true).trainHold r (s.deafWhy p) t
  else if !s.chanReady p || s.isOrphan || !s.trainLaneIs r .wake .between then s.trainHold r Delay.BUSY t
  else if s.tokenMissing p || s.ccaBusy p.port p.ch t then (s.count Pg.MAC MAC.LBT_BUSY_CNT).trainHold r Delay.BUSY t
  else match s.runDwell p m t0 with
    | 1 => (s.dwellRefused.endMsg r.queue r.tag Outc.REFUSED_DWELL 0 t).trainLost r t
    | 2 => s.dwellWait.trainHold r Delay.DWELL t
    | _ =>
      if s.windowDefers p.port p.ch t0 r.winRefusals then
        (s.count Pg.MAC MAC.TXWIN_DEFER_CNT).trainHold { r with winRefusals := r.winRefusals + 1 } Delay.BUSY t
      else s.trainData r m p t

/-- WAKE_DATA_DUE: at the promised instant, and then at each slot up to WAKE_HOLD_SLOTS of them, the data frame senses and
starts; otherwise its train has failed (R216). -/
def State.wakeData (t a : Nat) (sense : List ChannelSense) (s : State) : State :=
  match s.train a with
  | none => s
  | some r =>
    if t < r.dataT ∨ (r.holds ≠ 0 ∧ t % 2048 ≠ 0) ∨ s.trainLaneIs r .data .scheduled = true then s
    else match s.msg r.queue r.tag with
      | none => s.abandonTrain r Delay.NONE t
      | some m => (s.takeSense t sense).wakeCheck r m (s.plan r.queue m) t

/-- WAKE_DATA_DUE. -/
def execWakeDataDue (t : Nat) (ep : Fin 4096) (sense : List ChannelSense) (s : State) : Res :=
  finish ((s.atTick t).wakeData t ep.val sense)

/-! ## Acknowledgements that the device owes (R205, R153, R157, R160, R212) -/

/-- PENDING of an acknowledgement to an endpoint (R212). -/
def State.ackPending (s : State) (dst : Nat) : Bool :=
  s.flag Pg.MAC MAC.REGIME && s.wad.queues.any fun e => e.2.msgs.any fun m => decide ((s.plan e.1 m).dst = dst)

/-- ACK_START: the body of an owed acknowledgement is released to transmit synthesis, with PENDING as the bitmap stands now (R212); it
starts at its fixed instant. Where the frame has not passed by ACK_CUTOFF_US it is not sent (R205). -/
def State.ackStart (c : Nat) (s : State) : State :=
  match s.mac.owed.find? fun o => decide (o.engine = c) && o.body.isNone with
  | none => s
  | some o =>
    if o.tEnd + usTicks (s.get Pg.MIR MIR.ACK_CUTOFF_US) < o.passed then
      ((s.forgetOwed o).count Pg.MAC MAC.ACK_LATE_CNT).event Pg.MAC MAC.EV_ACK_LATE
    else
      let body : AckBody := ⟨s.ackPending o.dst, o.dup, o.seq, o.dst, o.lqi⟩
      let s : State := { s with mac := { s.mac with owed := s.mac.owed.map fun x => if x = o then { x with body := some body } else x } }
      s.placeFixed o.port o.t0 false

/-- ACK_START. -/
def execAckStart (t : Nat) (eng : Fin 256) (s : State) : Res := finish ((s.atTick t).ackStart eng.val)

/-! ## Acknowledgements that the device awaits (R207) -/

/-- Removes an acknowledgement window and releases its engine. -/
def State.closeWin (w : AckWin) (s : State) : State :=
  let s := s.noteEnd w.port w.centre w.rate false s.time
  let s : State := { s with mac := { s.mac with wins := s.mac.wins.filter fun x =>
    !(decide (x.queue = w.queue) && decide (x.tag = w.tag)) } }
  s.disarm w.queue w.tag

/-- An attempt ends without its acknowledgement (R200, R207). -/
def State.ackMissed (w : AckWin) (t : Nat) (s : State) : State :=
  ((s.closeWin w).count Pg.MAC MAC.ACK_MISS_CNT).attemptFailed w.queue w.tag t

/-- An attempt ends with its acknowledgement (R200, R229); the endpoint's trains have succeeded (R215). -/
def State.ackGot (w : AckWin) (dup : Bool) (lqi t : Nat) (s : State) : State :=
  let s := (s.closeWin w).count Pg.MAC MAC.ACK_RX_CNT
  let s := match s.msg w.queue w.tag with
    | some m =>
      let p := s.plan w.queue m
      if m.byTrain then s.setEp p.dst { s.ep p.dst with missed := 0, fullMissed := 0 } else s
    | none => s
  s.endMsg w.queue w.tag (if dup then Outc.DELIVERED_DUP else Outc.DELIVERED) lqi t

/-- ACK_WINDOW_CLOSE: a window whose time is over closes without the answer, unless a found S_ack holds it open. -/
def State.windowClose (t n tag : Nat) (s : State) : State :=
  match s.mac.wins.find? fun w => decide (w.queue = n) && decide (w.tag = tag) with
  | none => s
  | some w => if w.isOpen = false ∨ t < w.close ∨ (w.found = true ∧ s.ackHeld w = true) then s else s.ackMissed w t

/-- ACK_WINDOW_CLOSE. -/
def execAckWindowClose (t : Nat) (queue : Fin 8192) (tag : BitVec 16) (s : State) : Res :=
  finish ((s.atTick t).windowClose t queue.val tag.toNat)

/-- A seven-byte acknowledgement body with a good CRC-16: DUP, SEQ, DST and LQI (R125). The CRC alone decides, as R125 and R137
say; its FTYPE is not looked at. -/
def ackFields (b : List Byte) : Option (Bool × Nat × Nat × Nat) :=
  if b.length = 7 ∧ leNat (b.drop 5) = crc16 (b.take 5) then
    let v := leNat ((b.drop 1).take 3)
    some (decide (bitOf (b.getD 0 0).toNat 5 = 1), v % 4096, v / 4096, (b.getD 4 0).toNat)
  else none

/-- The body that engine c decoded (R137): the armed form, or the first of single and robust form that passes. -/
def State.ackBody (s : State) (c : Nat) (single robust : List Byte) : Option (Bool × Nat × Nat × Nat) :=
  match (s.eng c).armed with
  | some (_, _, true) => ackFields robust
  | some (_, _, false) => ackFields single
  | none => match ackFields single with
    | some a => some a
    | none => ackFields robust

/-- Symbols of the body that engine c has decoded: 128, or 512 in the robust form (R137). -/
def State.bodySymbols (s : State) (c : Nat) (single : List Byte) : Nat :=
  match (s.eng c).armed with
  | some (_, _, robust) => if robust then 512 else 128
  | none => if (ackFields single).isSome then 128 else 512

/-- An acknowledgement whose SEQ and DST match nothing that the device has sent is counted and passed to link firmware (R125). -/
def State.strayAck (c seq dst lqi : Nat) (s : State) : State :=
  if dst = 0 ∧ s.mac.wins.any (fun w => decide (w.seq = seq)) = true then s
  else s.modLnk fun l => { l with strayCnt := l.strayCnt + 1, strays := if s.fwRunning then l.strays ++ [⟨c, seq, dst, lqi, s.time⟩] else l.strays }

/-- ACK_BODY_DECIDED: the windows that the body may answer end with it, stay open, or end without it where the body held them
open beyond their close (R207). -/
def State.bodyDecided (t c : Nat) (single robust : List Byte) (errs : List (BitVec 16)) (s : State) : State :=
  if s.est c ≠ ES.ACK_BODY then s
  else
    let body := s.ackBody c single robust
    let s := s.countErased c (s.liveFlags c 0 (s.bodySymbols c single) errs)
    let mine := s.mac.wins.filter fun w => s.ackEngine w c && s.inAckSpan w (s.eng c).tSync && w.isOpen
    let s := if body.isNone then s.ecount2 c ERG.ACK_CRC_FAIL_CNT ERGX.ACK_CRC_FAIL_TOT else s
    let s := match body with
      | some (_, seq, dst, lqi) => s.strayAck c seq dst lqi
      | none => s
    let s := forEach mine (fun w s => match body with
      | some (dup, seq, dst, lqi) =>
        if seq = w.seq ∧ dst = 0 then (s.ackGot w dup lqi t)
        else if w.close ≤ t then (s.ackMissed w t) else s
      | none => if w.close ≤ t then (s.ackMissed w t) else s) s
    let wins := s.mac.wins.map fun w => (if (s.ackEngine w c) = true then { w with found := false } else w)
    let s : State := { s with mac := { s.mac with wins := wins } }
    s.toHunt c t

/-- ACK_BODY_DECIDED; `errs` gives the error powers of the body's symbols. -/
def execAckBodyDecided (t : Nat) (eng : Fin 256) (single robust : List Byte) (errs : List (BitVec 16)) (s : State) : Res :=
  finish ((s.atTick t).bodyDecided t eng.val single robust errs)

end Sys2Proof.Machine
end

