-- ==== Sys2Proof/Machine/HostRead.lean ====
section
/-! DEFINITION. What a host read of a page returns: registers under their access codes (R9 to R11), counter snapshots (R51), and
the status registers that follow the state of their block. -/
namespace Sys2Proof.Machine

/-! ## Queue status (R254, R262) -/

/-- DELAY_REASON of the message at the head of queue n (R262): NONE for a PAUSED queue and on the line; while the message waits,
the highest of the reasons that hold now and of the one found last. -/
def State.delayNow (s : State) (n : Nat) (m : Msg) : Nat :=
  let p := s.plan n m
  let waits := !m.onLine && s.mac.wins.all fun w => !(decide (w.queue = n) && decide (w.tag = m.tag))
  if s.queueState n ≠ 1 ∨ waits = false then Delay.NONE
  else if s.throttled p.cls || (!s.portGone p.port && !s.portReady p.port) || (s.deaf p && !(s.ackEngines p).isEmpty) then Delay.THROTTLE
  else if m.cut then Delay.PREEMPT
  else if s.isIdle n m then (s.holdReason n m).getD m.delay
  else m.delay

/-- QSTATUS of queue n. -/
def State.qstatus (s : State) (n : Nat) : Word :=
  let q := s.queue n
  let d := match q.msgs.head? with
    | some m => s.delayNow n m
    | none => 0
  BitVec.ofNat 32 (Nat.min q.msgs.length 0xFFFF * 65536 + q.cls * 1024 + d * 128 + (s.inFlight n).toNat * 64
    + (s.lnkPaused n).toNat * 32 + q.hostPause.toNat * 16 + s.queueState n)

/-- The number whose set bits are those of a list. -/
def bitsOf (l : List Nat) : Nat := l.foldl (fun n i => n ||| 2 ^ i) 0

/-- The lines of a run of pages (R50), page `first + i` in bit i. -/
def State.lines (s : State) (first n : Nat) : Nat := bitsOf ((List.range n).filter fun i => s.lineOf (first + i))

/-- The SPI status byte (R36). -/
def State.spiStatus (s : State) : Nat :=
  (decide (s.host.spiBuf ≠ [])).toNat + 2 * s.host.wrOvf.toNat + 4 * s.host.rdTimeout.toNat + 8 * s.host.frameErr.toNat
    + 16 * s.host.cmdErr.toNat + 32 * s.intAsserted.toNat

/-- Word i of a bitmap over the 256 engines. -/
def engWord (p : Nat → Bool) (i : Nat) : Nat := bitsOf ((List.range 32).filter fun b => p (32 * i + b))

/-- Class-0 traffic of port p is on the line, between the copies of its run, or waits for its acknowledgement (R169). -/
def State.c0Active (s : State) (p : Nat) : Bool :=
  (s.portLanes p).any (fun e => decide (e.2.kind = .class0) && e.2.held)
    || s.mac.wins.any fun w => decide (w.port = p) && decide (w.cls = 0)

/-- Addresses with a waiting or in-flight message (R265). -/
def State.pendingWord (s : State) (i : Nat) : Nat :=
  bitsOf ((List.range 32).filter fun b => s.wad.queues.any fun e => decide (e.2.msgs ≠ []) && decide (e.2.dst = 32 * i + b))

/-- MIR.STATE. -/
def State.mirState (s : State) : Nat := if s.enabled Pg.MIR = false then 0 else if s.recording then 1 else 2

/-- The speed of the running job whose window starts first; 0 while none runs. -/
def State.mirSpeed (s : State) : Nat :=
  match oldestJob (s.mir.running.filterMap (·.2)) with
  | some j => s.speedNow j
  | none => 0

/-- Age in ms of the oldest queued window, 0 with none. -/
def State.jobAge (s : State) : Nat :=
  match oldestJob s.mir.jobs with
  | some j => (s.time - j.start) / 2048
  | none => 0

/-- A register with some of its fields replaced. -/
def insFields (w : Word) (l : List (Fld × Nat)) : Word := l.foldl (fun w e => e.1.ins w e.2) w

/-- Status registers of the line side that follow the state of their block. -/
def State.liveLine (s : State) (k : PageKind) (i off : Nat) : Option Word :=
  let num := fun (n : Nat) => some (BitVec.ofNat 32 n)
  match k with
  | .mtb => if off = 0x104 then num (s.phaseAt s.time + s.binAt s.time * 65536) else none
  | .ergx =>
    let role := fun (r : Nat) => (channels.filter fun c => decide (s.eget c ERG.ROLE = r)).length
    let parked := fun (c : Nat) => decide (s.est c = ES.PARKED)
    if off = 0x100 then num (role 1 + role 2 * 65536)
    else if off = 0x104 then num (s.lentCount + (channels.filter parked).length * 65536)
    else if off = 0x108 then num ((channels.filter s.isAlarm).length + s.oas.act * 256)
    else if 0x110 ≤ off ∧ off < 0x130 then num (engWord s.engBusy ((off - 0x110) / 4))
    else if 0x130 ≤ off ∧ off < 0x150 then num (engWord s.engAway ((off - 0x130) / 4))
    else if 0x150 ≤ off ∧ off < 0x170 then num (engWord parked ((off - 0x150) / 4))
    else none
  | .trl =>
    let waits := fun (r : Nat) => (s.trl.waiting.filter fun j => decide (j.rank = r)).length
    if off = 0x100 then
      num (bitsOf ((List.range 16).filter fun d => (s.decoder d).isSome)
        + 65536 * bitsOf ((List.range 4).filter fun g => s.domOn (128 + g)))
    else if off = 0x104 then num (waits 1 % 1024 + waits 2 % 1024 * 65536)
    else if off = 0x108 then num (waits 3 % 1024)
    else none
  | .txs =>
    let lanes := (s.portLanes i).filter fun e => e.2.held
    if off = 0x100 then
      let data := (lanes.filter fun e => e.2.isData).length
      some (insFields (s.reg (Pg.TXS i) off) [(TXS.LANE_BUSY, bitsOf (lanes.map (·.1))), (TXS.DATA_BUSY, data),
        (TXS.C0_ACTIVE, (s.c0Active i).toNat)])
    else if off = 0x108 then some (insFields (s.reg (Pg.TXS i) off) [(TXS.COMP_LEVEL, s.compLevel i)])
    else none
  | .mac =>
    if off = 0x100 then some (insFields (s.reg Pg.MAC off) [(MAC.TRAINS, s.mac.trains.length)])
    else if 0x110 ≤ off ∧ off < 0x130 then some (s.busyWord ((off - 0x110) / 4))
    else none
  | .dwl =>
    if 0x100 ≤ off ∧ off < 0x140 then
      let u := s.portUsed ((off - 0x100) / 4)
      num (u.1 % 1024 + u.2 % 1024 * 65536)
    else none
  | .mir =>
    if off = 0x100 then
      num (s.mirState + (s.mir.running.any (·.2.isSome)).toNat * 16 + s.pauseReason * 256 + s.mirSpeed * 65536)
    else if off = 0x104 then num s.slabCount
    else if off = 0x108 then num s.slabsPinned
    else if off = 0x110 then num s.oldestTick
    else if off = 0x114 then num (s.oldestTick / 2 ^ 32)
    else if off = 0x118 then num (sat 16 ((s.slabCount - s.slabsPinned) / 1000))
    else if off = 0x11C then num s.mir.jobs.length
    else if off = 0x120 then num (sat 16 s.jobAge + s.slotsUsed * 65536)
    else none
  | _ => none

/-- Status registers of the other blocks that follow the state of their block. -/
def State.liveOther (s : State) (k : PageKind) (i off : Nat) : Option Word :=
  let num := fun (n : Nat) => some (BitVec.ofNat 32 n)
  match k with
  | .glb =>
    if off = 0x110 then num s.eventSummary
    else if off = 0x114 then num s.faultSummary
    else if off = 0x118 then num (s.lines (Pg.LPT 0) 16)
    else if off = 0x11C then num (s.lines (Pg.TXS 0) 16)
    else if off = 0x120 then num (s.lines (Pg.ERG 0) 32)
    else if off = 0x124 then num (s.lines (Pg.ERG 32) 32)
    else if off = 0x128 then num (s.lines (Pg.SEIF 0) 32)
    else if off = 0x12C then
      num (s.lines (Pg.CRC 0) 4 + 16 * s.lines (Pg.UART 0) 4 + 256 * s.lines (Pg.DRC 0) 4 + 4096 * s.lines Pg.DRW 1)
    else none
  | .hif => if off = 0x108 then num s.spiStatus else none
  | .lnk =>
    if off = 0x10C then some (insFields (s.reg Pg.LNK off) [(LNK.BUSY, s.lnk.mb.isSome.toNat)])
    else if off = 0x130 then num s.lnk.events.length
    else if off = 0x134 then
      num ((s.lnk.eps.filter fun e => decide (e.2.state ≠ .absent)).length
        + (s.lnk.sess.filter fun e => match e.2 with
            | some x => decide (x.state ≠ .closed)
            | none => false).length * 65536)
    else none
  | .wad =>
    if off = 0x100 then num s.msgQueued
    else if off = 0x104 then num s.poolFree
    else if off = 0x108 then
      let c0 := s.wad.queues.foldl (fun n e => if e.2.cls = 0 then n + e.2.msgs.length else n) 0
      num ((s.wad.queues.filter fun e => decide (s.queueState e.1 ≠ 0)).length + sat 16 c0 * 65536)
    else if off = 0x10C then num s.heldRefusals
    else if 0x800 ≤ off ∧ off < 0xA00 then num (s.pendingWord ((off - 0x800) / 4))
    else none
  | .wqd =>
    let n := s.get Pg.WQD WQD.QD_IDX
    let q := s.queue n
    if off = 0x100 then some (s.qstatus n)
    else if off = 0x104 then
      match q.msgs.find? (·.inFlight) with
      | some m => num (m.tag + Nat.min m.attempts 15 * 65536)
      | none => num 0
    else if off = 0x108 then
      match q.msgs.head? with
      | some m => num (sat 16 ((s.time - m.accepted) / 2048))
      | none => num 0
    else if off = 0x10C then num q.accepted
    else if off = 0x110 then num q.endedOk
    else if off = 0x114 then num q.endedOther
    else none
  | .oas =>
    if off = 0x110 ∧ s.flag Pg.OAS OAS.SPRINT = true then
      some (insFields (s.reg Pg.OAS off) [(OAS.SPRINT_TIME_S, sat 16 ((s.time - s.oas.sprintAt) / 2048000))])
    else none
  | .pwd1 => if off = 0x100 then num (s.onCount + s.waitCount * 256) else none
  | .seif =>
    let c := s.core i
    let st := s.coreState i
    if off = 0x100 then some (insFields (s.reg (Pg.SEIF i) off) [(SEIF.CLK_MHZ, s.seifMhz)])
    else if off = 0x104 then some (insFields (s.reg (Pg.SEIF i) off) [(SEIF.PC, c.pc)])
    else if off = 0x108 then some (if st = XS.HALTED ∨ st = XS.FAULT then c.st else 0)
    else if off = 0x110 then num (s.dinFill i + s.irqPend i * 65536)
    else none
  | .crc =>
    if off = 0x100 then num (s.crcResult i) else if off = 0x104 then num (s.crcPresetNow i) else none
  | .cav =>
    if off = 0x110 then some (insFields (s.reg Pg.CAV off) [(CAV.TOKENS_HELD, s.cav.mine.length)]) else none
  | .rst => if off = 0x10C then num (sat 16 s.wdtLeft) else none
  | .sec =>
    if off = 0x104 then num s.mrm.rollback else if off = 0x190 then num s.sec.att.length else none
  | .key =>
    let slot := s.get Pg.KEY KEY.SLOT
    let x := if slot = gridSlot then s.key.grid else s.keySlot slot
    if off = 0x100 then num ((decide (x.key ≠ [])).toNat + x.addr.getD 0 * 65536)
    else if off = 0x104 then num x.txCtr
    else if off = 0x108 then num x.ctrHi
    else if off = 0x10C then num x.floor
    else if off = 0x110 then num s.boundCount
    else none
  | .drw => if off = 0x100 then some s.drwStatus else none
  | _ => none

/-- A status register that follows the state of its block. -/
def State.liveReg (s : State) (k : PageKind) (i off : Nat) : Option Word := (s.liveLine k i off).or (s.liveOther k i off)

/-- The access code of a register: its fields share one, and the common frame's own registers have none here. -/
def accOf (k : PageKind) (off : Nat) : Option Acc := ((fieldsAt k off).head?).map (·.1.acc)

/-- What a page's register reads as (R11): counters their snapshot (R51), RWS the shadow value, WO 0. -/
def State.readReg (s : State) (pg off : Nat) : Word :=
  match pageIndex pg with
  | none => 0
  | some (k, _, i) =>
    if 0x300 ≤ off ∧ off ≤ 0x3F8 then Tab.get (fun _ => 0) s.snap (addrOf pg off)
    else match s.liveReg k i off with
      | some w => w
      | none =>
        match accOf k off with
        | some .rws => s.shadowReg pg off
        | some .wo => 0
        | _ => s.reg pg off

/-- A read that reaches a page: data ports answer as their chapters state, other registers with their value. -/
def State.readPort (pg off : Nat) (s : State) : State :=
  let plain := s.answer (s.readReg pg off)
  match pageIndex pg with
  | none => plain
  | some (k, _, i) =>
    match k with
    | .nmap => if off = 0x018 then s.readCell else plain
    | .lnk => if off = 0x070 then s.evtRead else plain
    | .dec => if off = 0x044 then s.capRead else plain
    | .uart =>
      let s := s.uartDue i
      if off = 0x048 then s.uartRead i else s.answer (s.readReg pg off)
    | .sec => if off = 0x06C then s.attRead else if off = 0x074 then s.flashRead else plain
    | .mrm => if off = 0x014 then s.mramRead .clean else plain
    | .drw => if off = 0x018 then s.drwRead .clean else plain
    | _ => plain

/-- A read of queue window n (R9, R11, R55). -/
def State.readWindow (n off : Nat) (s : State) : State :=
  let w := s.window n
  if off = 0x000 then s.answer (BitVec.ofNat 32 (w.bindValid.toNat * 2 ^ 31 + w.bindQueue))
  else if off = 0x004 then s.answer w.lastResult
  else if off = 0x008 then s.answer (if w.bindValid then s.qstatus w.bindQueue else 0)
  else if off = 0x00C then s.answer (s.rstatus n)
  else if off = 0x040 then s.qwPopHdr0 n
  else if 0x044 ≤ off ∧ off ≤ 0x05C then s.qwPopHdr n ((off - 0x040) / 4)
  else if off = 0x060 then s.qwPopData n
  else s.answer 0

/-- A host read of the word at a BAR0 address (R8, R41). -/
def State.busRead (addr : Nat) (s : State) : State :=
  let a := addr / 4 * 4 % 2 ^ 24
  if a < 0x200000 then
    match pageIndex (a / 4096) with
    | some (k, _, _) =>
      if offAnswer k (a % 4096) && !s.unreachable then s.readPort (a / 4096) (a % 4096)
      else s.pageRead (a / 4096) (State.readPort (a / 4096) (a % 4096))
    | none => s.pageRead (a / 4096) (State.readPort (a / 4096) (a % 4096))
  else if a < 0x240000 then s.pageRead Pg.HIF (State.readWindow ((a - 0x200000) / 4096) (a % 4096))
  else if a < 0x241000 then s.pageRead Pg.DRW (State.readPort Pg.DRW (a % 4096))
  else if a < 0x800000 then s.pageRead Pg.HIF (State.answer 0)
  else s.pageRead (Pg.SEIF (seifWindow a).1) (State.seifWindowRead a)

end Sys2Proof.Machine
end

