-- ==== Sys2Proof/Machine/Check.lean ====
section
/-! DEFINITION. When a write or a COMMIT is refused (R12, R13, R45, R49, R452): values that a field never accepts, at the write, and
sets that are inconsistent by themselves or with the active sets of other pages, at the COMMIT. -/
namespace Sys2Proof.Machine

/-- Why a refusal is made, and the page offset that ERR_DETAIL names. -/
abbrev Refused := Option (Nat × Nat)

/-- The first condition of a list that holds. -/
def firstOf (l : List (Bool × Nat × Nat)) : Refused := (l.find? (·.1)).map (·.2)

/-- The first refusal found over a list. -/
def firstIn {α : Type} (l : List α) (f : α → List (Bool × Nat × Nat)) : Refused := firstOf (l.flatMap f)

/-! ## Values refused at the write (R13, R452) -/

/-- The code with which a field refuses a value by itself. -/
def FldSpec.verdict (r : FldSpec) (v : Nat) : Option Nat :=
  if r.noZero ∧ v = 0 then some ErrCode.ZERO_REFUSED
  else if v < r.lo ∨ r.hi < v then some ErrCode.RANGE
  else none

/-- Values that a register refuses by rules of its own: CAP_MW of 1 to 1,499, bit 1 of BCAST_FTYPES, an odd DIN_LEN or one of 2,
and MOD or CODE 3 in a queue's MODE. -/
def regVerdict (k : PageKind) (off : Nat) (w : Word) : Option Nat :=
  let bad : Bool := match k with
    | .oas => decide (off = 0x010) && decide (0 < OAS.CAP_MW.of w) && decide (OAS.CAP_MW.of w < 1500)
    | .flt => decide (off = 0x010) && decide (bitOf w.toNat 1 = 1)
    | .seif => decide (off = 0x018) && (decide (SEIF.DIN_LEN.of w % 2 = 1) || decide (SEIF.DIN_LEN.of w = 2)
        || decide (16384 < SEIF.DIN_LEN.of w))
    | .wqd => decide (off = 0x014) && (decide (modeMod (WQD.MODE.of w) = 3) || decide (modeCode (WQD.MODE.of w) = 3))
    | _ => false
  if bad then some ErrCode.RANGE else none

/-- The code with which a register refuses a word. -/
def wordVerdict (k : PageKind) (off : Nat) (w : Word) : Option Nat :=
  match (fieldsAt k off).findSome? fun e => e.1.verdict (e.2.of w) with
  | some c => some c
  | none => regVerdict k off w

/-- The word that a register takes: reserved bits are ignored (R10). -/
def maskWord (k : PageKind) (off : Nat) (w : Word) : Word :=
  BitVec.ofNat 32 ((fieldsAt k off).foldl (fun n e => n + e.2.of w * 2 ^ e.2.lsb) 0)

/-! ## Inconsistent sets (R12) -/

/-- Page MTB (R67): the checks read the set that the COMMIT would make active. -/
def State.mtbCheck (s : State) : Refused :=
  let g := s.sget Pg.MTB
  let src := (List.range 3).filter fun n => decide (bitOf (g MTB.SRC_EN) n = 1)
  let sel := fun n => g ([MTB.SENSE_SEL0, MTB.SENSE_SEL1, MTB.SENSE_SEL2].getD n MTB.SENSE_SEL0)
  firstOf [
    (decide (g MTB.MODE ≠ 0) && decide (g MTB.SRC_EN = 0), ErrCode.ZERO_REFUSED, 0x010),
    (decide (g MTB.MODE = 1) && src.any (fun n => decide (s.get Pg.DEC (DEC.CH_RATE.nth (sel n)) < 2)), ErrCode.INCONSISTENT, 0x014),
    (decide (g MTB.REJECT_THRESH < g MTB.LOCK_THRESH), ErrCode.INCONSISTENT, 0x028)]

/-- Page LPTp. -/
def State.lptCheck (s : State) (pg : Nat) : Refused :=
  let g := s.sget pg
  firstOf [
    (decide (g LPT.GAIN < g LPT.GAIN_MIN), ErrCode.INCONSISTENT, 0x010),
    (decide (g LPT.OVL_THRESH ≤ g LPT.UP_THRESH), ErrCode.INCONSISTENT, 0x018),
    (decide (g LPT.Z_MAX ≤ g LPT.Z_MIN), ErrCode.INCONSISTENT, 0x02C)]

/-- A field of engine c as it stands when page q's shadow set is active. -/
def State.egetWith (s : State) (q c : Nat) (f : Fld) : Nat :=
  if c / 4 = q then s.sget (Pg.ERG q) (f.nth (c % 4)) else s.eget c f

/-- Page ERGq (R97, R108, R109, R131, R132): the checks of R97, the alarm marks, and the sync words of its LIVE engines. -/
def State.ergCheck (s : State) (q : Nat) : Refused :=
  let g := s.egetWith q
  let live := fun c => decide (g c ERG.ROLE = 1)
  let all := channels.filter live
  let alarms := (all.filter fun c => decide (g c ERG.ALARM = 1)).length
  let off := fun c o => o + 0x30 * (c % 4)
  let clash := fun c d => decide (c ≠ d) && decide (g c ERG.PORT = g d ERG.PORT)
    && bandsOverlap (g c ERG.CENTRE) (g c ERG.RATE) (g d ERG.CENTRE) (g d ERG.RATE)
    && !syncPairOk (g c ERG.SYNC_WORD) (g d ERG.SYNC_WORD) (Nat.max (g c ERG.SYNC_TOL) (g d ERG.SYNC_TOL))
  (firstIn (quadEngines q) fun c => [
    (live c && !bandOk (g c ERG.CENTRE) (g c ERG.RATE), ErrCode.RANGE, off c 0x014),
    (decide (g c ERG.ALARM = 1) && !live c, ErrCode.INCONSISTENT, off c 0x010),
    (decide (g c ERG.ALARM = 1) && decide (32 < alarms), ErrCode.INCONSISTENT, off c 0x010)]).or
  (firstIn ((quadEngines q).filter live) fun c => [
    (!syncWordOk (g c ERG.SYNC_WORD) (g c ERG.SYNC_TOL), ErrCode.INCONSISTENT, off c 0x018),
    (all.any (clash c), ErrCode.INCONSISTENT, off c 0x018)])

/-- Page MAC: BE_MAX below a BE_MIN; a raw-frame queue of class 0 (R252). -/
def State.macCheck (s : State) : Refused :=
  let g := s.sget Pg.MAC
  firstOf [
    (decide ((s.queue (g MAC.RAW_QUEUE)).cls = 0), ErrCode.INCONSISTENT, 0x010),
    ([MAC.BE_MIN1, MAC.BE_MIN2, MAC.BE_MIN3].any (fun f => decide (g MAC.BE_MAX < g f)), ErrCode.INCONSISTENT, 0x018)]

/-- Page DWL (R220). -/
def State.dwlCheck (s : State) : Refused :=
  let g := s.sget Pg.DWL
  match firstIn ((List.range 16).filter fun j => decide (g (DWL.EN.nth j) = 1)) fun j => [
    (decide (g (DWL.MAX_ON_MS.nth j) = 0), ErrCode.ZERO_REFUSED, profOff j),
    (decide (g (DWL.WINDOW_S.nth j) = 0), ErrCode.ZERO_REFUSED, profOff j + 4),
    (decide (g (DWL.DUTY_PM.nth j) = 0), ErrCode.ZERO_REFUSED, profOff j + 8),
    (decide (3600 < g (DWL.WINDOW_S.nth j)), ErrCode.RANGE, profOff j + 4),
    (decide (1000 < g (DWL.DUTY_PM.nth j)), ErrCode.RANGE, profOff j + 8)] with
  | some r => some r
  | none => (s.dwellConflict g).map fun o => (ErrCode.INCONSISTENT, o)

/-- Page WQD (R252, R255), for the indexed queue. -/
def State.wqdCheck (s : State) : Refused :=
  let g := s.sget Pg.WQD
  let n := s.get Pg.WQD WQD.QD_IDX
  let q := s.queue n
  let cls := g WQD.CLASS
  let still := decide (s.queueState n = 0) || (q.hostPause && decide (q.msgs = []))
  let moved := fun f => decide (g f ≠ s.get Pg.WQD f)
  firstOf [
    (decide (cls = 0) && (!s.flag (Pg.TXS (g WQD.PORT)) TXS.ALARM_EN || s.isRaw n), ErrCode.INCONSISTENT, 0x014),
    (decide (g WQD.DST = 0) || (decide (g WQD.COMP_RING = 0) && decide (cls ≠ 0)), ErrCode.INCONSISTENT, 0x018),
    (!still && (moved WQD.CLASS || moved WQD.PORT || moved WQD.TXCH), ErrCode.STATE, 0x014),
    (!still && moved WQD.DST, ErrCode.STATE, 0x018),
    (!still && moved WQD.CAPACITY, ErrCode.STATE, 0x01C)]

/-- Bytes of the WADI_RING region's data. -/
def State.ringBytes (s : State) : Nat :=
  match s.regionOf 5 with
  | some r => s.regionData r
  | none => 0

/-- Page WAD: rings that frames and records must find, and ring entries that change while in use. -/
def State.wadCheck (s : State) : Refused :=
  let g := s.sget Pg.WAD
  (firstOf [
    ([WAD.RX_RING1, WAD.RX_RING2, WAD.RX_RING3, WAD.FB_RING].any (fun f => decide (g f = 0)), ErrCode.INCONSISTENT, 0x010),
    (decide (g WAD.CUT_RING = 0), ErrCode.INCONSISTENT, 0x014),
    (decide (g (WAD.EN.nth 0) = 0), ErrCode.INCONSISTENT, 0x400)]).or
  (firstIn (List.range 64) fun n =>
    let size := decide (g (WAD.SIZE_M1.nth n) ≠ s.get Pg.WAD (WAD.SIZE_M1.nth n))
    let base := decide (g (WAD.BASE.nth n) ≠ s.get Pg.WAD (WAD.BASE.nth n))
    let used := s.flag Pg.WAD (WAD.EN.nth n) || decide ((s.ring n).recs ≠ [])
    [(size && used, ErrCode.STATE, 0x400 + 16 * n),
     (base && used, ErrCode.STATE, 0x404 + 16 * n),
     (base && decide (s.ringBytes ≤ g (WAD.BASE.nth n) * 4096), ErrCode.RANGE, 0x404 + 16 * n)])

/-- Page OAS (R285, R286, R289). -/
def State.oasCheck (s : State) : Refused :=
  let g := s.sget Pg.OAS
  (firstOf [
    (decide (g OAS.RES_C0_EN = 0) && decide (s.alarmPorts ≠ []), ErrCode.INCONSISTENT, 0x014),
    (!s.reserveOk g, ErrCode.INCONSISTENT, 0x010),
    (!(decide (g OAS.TJ_L1 < g OAS.TJ_L2) && decide (g OAS.TJ_L2 < g OAS.TJ_L3) && decide (g OAS.TJ_L3 < g OAS.TJ_L4)),
      ErrCode.INCONSISTENT, 0x018),
    (decide (g OAS.VCORE_LIMIT_MA < g OAS.VCORE_SPRINT_MA), ErrCode.INCONSISTENT, 0x028)]).or
  (firstIn (List.range 16) fun p => [
    (decide (g (OAS.LINE_MW.nth p) ≠ 0) && decide (g (OAS.LINE_BURST_MJ.nth p) = 0), ErrCode.ZERO_REFUSED, 0x400 + 16 * p),
    (decide (g (OAS.LINE_BURST_MJ.nth p) < g (OAS.LINE_RES_MJ.nth p)), ErrCode.INCONSISTENT, 0x404 + 16 * p),
    (decide (g (OAS.AMP_T_MAX.nth p) ≤ g (OAS.AMP_T_DERATE.nth p)), ErrCode.INCONSISTENT, 0x408 + 16 * p)])

/-- KEEP_OFF on domain d is refused (R276). -/
def State.keepsOn (s : State) (d : Nat) : Bool :=
  if d < 64 then (quadEngines d).any s.isAlarm
  else if d < 96 then false
  else if d < 112 then s.alarmEn (d - 96)
  else if d < 128 then s.alarmEn (d - 112)
  else if d < 132 then false
  else if d < 136 then s.fwRunning
  else if d < 140 then
    bitOf (s.get (Pg.DRC 0) DRC.CHANNELS_ACTIVE) (d - 136) = 1 && (List.range 32).any fun r => s.flag (Pg.DRC 0) (DRC.EN.nth r)
  else if d = 140 then true
  else if d = 148 then !s.flag Pg.HIF HIF.LINK_HOST
  else if d = 149 then s.flag Pg.HIF HIF.LINK_HOST
  else false

/-- Page PWD0 (R276). -/
def State.pwdCheck (s : State) : Refused :=
  let spi := s.flag Pg.HIF HIF.LINK_HOST
  firstIn (List.range 152) fun d =>
    let req := s.sget Pg.PWD0 (PWD0.REQ.nth d)
    [(decide (req = 2) && s.keepsOn d, ErrCode.STATE, 0x400 + 4 * d),
     (decide (req = 1) && (decide (d = 148) && spi || decide (d = 149) && !spi), ErrCode.STATE, 0x400 + 4 * d)]

/-- The sum of R309 in ticks for input n: twice SETTLE, one output period, and the settling length in output periods. -/
def checkSpan (settle : Nat → Nat) (mode rate : Nat → Nat) (n : Nat) : Nat :=
  let period := periodOfRate (rate n)
  settle (n / 4) + period + settleLength (mode n) * period

/-- An input that the active MTB set uses as a timebase source breaks R309. -/
def State.spanBroken (s : State) (settle mode rate : Nat → Nat) (n : Nat) : Bool :=
  (s.timebaseSource n).isSome && decide (12 * 2048 < checkSpan settle mode rate n)

/-- Page SNS (R309, R311, R313). -/
def State.snsCheck (s : State) : Refused :=
  let g := s.sget Pg.SNS
  let span := s.spanBroken (fun j => g (SNS.SETTLE.nth j)) (fun n => s.get Pg.DEC (DEC.CH_MODE.nth n))
    (fun n => s.get Pg.DEC (DEC.CH_RATE.nth n))
  (firstIn (List.range 8) fun k =>
    [(decide (g (SNS.DET_KIND.nth k) ≠ 0) && decide (g (SNS.THRESH_UV.nth k) = 0), ErrCode.ZERO_REFUSED, 0x084 + 8 * k)]).or
  (firstIn (List.range 32) fun n => [
    (decide (g (SNS.RANGE_MAX.nth n) < g (SNS.RANGE_MIN.nth n)), ErrCode.INCONSISTENT, 0x400 + 16 * n),
    (decide (g (SNS.REV_CHECK.nth n) = 1) && decide (g (SNS.KIND.nth n) = 2)
      && decide (g (SNS.KIND.nth (g (SNS.REF_INPUT.nth n))) ≠ 1), ErrCode.INCONSISTENT, 0x400 + 16 * n),
    (span n, ErrCode.INCONSISTENT, 0x030 + 4 * (n / 4))])

/-- Page EXC (R305). -/
def State.excCheck (s : State) : Refused :=
  let g := s.sget Pg.EXC
  let on := fun e => decide (g (EXC.CODE.nth e) ≠ 0)
  let follow := fun e => decide (g (EXC.FOLLOW.nth e) = 1)
  firstIn (List.range 4) fun e =>
    [((List.range e).any (fun d =>
        (on d && on e && decide (g (EXC.INPUT.nth d) = g (EXC.INPUT.nth e)))
        || (follow d && follow e && decide (g (EXC.INPUT.nth d) / 4 = g (EXC.INPUT.nth e) / 4))), ErrCode.INCONSISTENT, 0x010 + 4 * e)]

/-- Page DEC (R309, R314, R319). -/
def State.decCheck (s : State) : Refused :=
  let g := s.sget Pg.DEC
  let mode := fun n => g (DEC.CH_MODE.nth n)
  let rate := fun n => g (DEC.CH_RATE.nth n)
  let span := s.spanBroken (fun j => s.get Pg.SNS (SNS.SETTLE.nth j)) mode rate
  firstIn (List.range 32) fun n => [
    (decide (mode n = 4) && decide (3 < rate n), ErrCode.RANGE, 0x400 + 8 * n),
    ((s.timebaseSource n).isSome && decide (rate n < 2), ErrCode.INCONSISTENT, 0x400 + 8 * n),
    (span n, ErrCode.INCONSISTENT, 0x400 + 8 * n)]

/-- Page LOOP (R327). -/
def State.loopCheck (s : State) : Refused :=
  let g := s.sget Pg.LOOP
  firstIn (List.range 2) fun n => [
    (decide (g (LOOP.SRC.nth n) ≠ 0) && decide (g (LOOP.X_HI.nth n) = g (LOOP.X_LO.nth n)), ErrCode.INCONSISTENT, 0x014 + 32 * n),
    (decide (g (LOOP.CLAMP_LO_UA.nth n) ≤ 3600) || decide (21000 ≤ g (LOOP.CLAMP_HI_UA.nth n)), ErrCode.INCONSISTENT, 0x020 + 32 * n)]

/-- Page CRCn (R369). -/
def State.crcCheck (s : State) (pg : Nat) : Refused :=
  let g := s.sget pg
  let lim := 2 ^ (g CRC.WIDTH_M1 + 1)
  firstOf [
    (decide (g CRC.POLY % 2 = 0) || decide (lim ≤ g CRC.POLY), ErrCode.INCONSISTENT, 0x010),
    (decide (lim ≤ g CRC.INIT), ErrCode.INCONSISTENT, 0x014),
    (decide (lim ≤ g CRC.XOROUT), ErrCode.INCONSISTENT, 0x018)]

/-- Page UARTn: a divisor below 6.25 (R371), and an AB_CHAR whose last falling edge lies fewer than 4 bits after the start
(R380). -/
def State.uartCheck (s : State) (pg : Nat) : Refused :=
  let g := s.sget pg
  let edges := fallingEdges (charLevels (decide (g UART.DATA_BITS = 1)) (g UART.PARITY) (g UART.AB_CHAR))
  firstOf [
    (decide (g UART.DIV_INT * 16 + g UART.DIV_FRAC < 100), ErrCode.RANGE, 0x014),
    (decide (edges.getLast?.getD 0 < 4), ErrCode.RANGE, 0x020)]

/-- Page CAV (R383, R395). -/
def State.cavCheck (s : State) : Refused :=
  let g := s.sget Pg.CAV
  let moved := fun f => decide (g f ≠ s.get Pg.CAV f)
  let up := decide (s.cavState ≠ CS.OFF)
  firstOf ([
    (up && (moved CAV.MODE || moved CAV.RING_SIZE_M1), ErrCode.STATE, 0x010),
    (up && moved CAV.ZONE_ID, ErrCode.STATE, 0x030)] ++
    (List.range 4).map fun w =>
      (decide (g CAV.MODE = 0) && decide (g (CAV.FEEDER_ID.nth w) ≠ 0), ErrCode.INCONSISTENT, 0x014 + 4 * w))

/-- Page SEIFk (R333, R352). -/
def State.seifCheck (s : State) (k : Nat) : Refused :=
  let g := s.sget (Pg.SEIF k)
  let wr := g SEIF.LOOP_WR
  firstOf [
    (decide (16384 < g SEIF.DIN_BASE + g SEIF.DIN_LEN), ErrCode.INCONSISTENT, 0x018),
    ((List.range 32).any (fun j => decide (j ≠ k) && decide (s.get (Pg.SEIF j) SEIF.LOOP_WR &&& wr ≠ 0)), ErrCode.INCONSISTENT, 0x020)]

/-- The owner of a region kind is idle (R412). -/
def State.ownerIdle (s : State) (kind : Nat) : Bool :=
  let fw := s.get Pg.LNK LNK.FW_STATE
  match kind with
  | 1 | 2 | 3 | 6 => decide (fw = 0) || decide (fw = 3)
  | 4 => s.wad.queues.all fun e => decide (s.queueState e.1 = 0)
  | 5 => s.wad.rings.all (fun e => decide (e.2.recs = [])) && s.wad.due.all fun d => !d.held
  | 7 | 8 | 9 => !s.enabled Pg.MIR && s.mir.running.all fun e => e.2.isNone
  | 10 => !s.enabled Pg.MTB
  | 11 => !s.flag Pg.DEC DEC.CAP_EN
  | 12 => let d := s.get Pg.MIR MIR.DIAG_STATE
          decide (d ≠ 1) && decide (d ≠ 2)
  | _ => true

/-- The region table of page DRC0 (R413). -/
def State.drcCheck (s : State) : Refused :=
  let pg := Pg.DRC 0
  let g := s.sget pg
  let en := fun r => decide (g (DRC.EN.nth r) = 1)
  let kind := fun r => g (DRC.KIND.nth r)
  let base := fun r => g (DRC.BASE.nth r)
  let size := fun r => g (DRC.SIZE.nth r)
  let others := fun r => (List.range 32).filter fun d => en d && decide (d ≠ r)
  let was := fun r => s.flag pg (DRC.EN.nth r)
  let same := fun r => [0, 4, 8].all fun o => decide (s.shadowReg pg (0x400 + 16 * r + o) = s.reg pg (0x400 + 16 * r + o))
  firstIn (List.range 32) fun r =>
    let o := 0x400 + 16 * r
    let k := kind r
    [(en r && decide (size r = 0), ErrCode.ZERO_REFUSED, o),
     (en r && (decide (s.dramCapacity < (base r + size r) * 65536) || (decide (k = 7) && decide (1966080 < size r))), ErrCode.RANGE, o),
     (en r && (decide (k = 0) || decide (14 ≤ k)
        || (others r).any (fun d => (decide (base r < base d + size d) && decide (base d < base r + size r))
            || (decide (kind d = k) && decide (k ≠ 13)))), ErrCode.INCONSISTENT, o),
     (en r && decide (g (DRC.HOST_WR.nth r) = 1) && decide (k ≠ 1) && decide (k ≠ 6) && decide (k ≠ 13), ErrCode.INCONSISTENT, o),
     ((en r || was r) && !same r && !((!en r || s.ownerIdle k) && (!was r || s.ownerIdle (s.get pg (DRC.KIND.nth r)))),
       ErrCode.STATE, o)]

/-- Why a COMMIT of a page is refused, none where its set is consistent. -/
def State.commitCheck (s : State) (pg : Nat) : Refused :=
  match pageIndex pg with
  | none => none
  | some (k, _, i) =>
    let g := s.sget pg
    match k with
    | .mtb => s.mtbCheck
    | .lpt => s.lptCheck pg
    | .erg => s.ergCheck i
    | .txs => s.txsConflict i g
    | .mac => s.macCheck
    | .dwl => s.dwlCheck
    | .mir => firstOf [(decide (g MIR.TRIG_PRE_MS = 0) && decide (g MIR.TRIG_POST_MS = 0), ErrCode.INCONSISTENT, 0x020)]
    | .wad => s.wadCheck
    | .wqd => s.wqdCheck
    | .lnk => firstOf [(decide (g LNK.AUTH_DIAG = 1) && decide (g LNK.AUTH_DIAG_RING = 0), ErrCode.INCONSISTENT, 0x010)]
    | .oas => s.oasCheck
    | .pwd0 => s.pwdCheck
    | .sns => s.snsCheck
    | .exc => s.excCheck
    | .dec => s.decCheck
    | .loop => s.loopCheck
    | .crc => s.crcCheck pg
    | .uart => s.uartCheck pg
    | .cav => s.cavCheck
    | .seif => s.seifCheck i
    | .drc0 => s.drcCheck
    | _ => none

end Sys2Proof.Machine
end

