-- ==== Sys2Proof/Machine/Page.lean ====
section
/-! DEFINITION. What a host write does to a page's common frame and fields (02_host_interface_and_pages.md, R9 to R13, R43 to R51,
R452): CTRL, COMMIT, shadow values, events, counters. -/
namespace Sys2Proof.Machine

/-! ## Shadow values and COMMIT (R45) -/

/-- A write to the RWS fields of a register is not open to the host: a descriptor of link firmware's queues (R253), a page of a
link-firmware core (15_seif_programming_model.md, Registers), predistortion taps that link firmware writes (R164). -/
def State.notHosts (s : State) (k : PageKind) (i off : Nat) : Bool :=
  match k with
  | .wqd => isLinkQueue (s.get Pg.WQD WQD.QD_IDX)
  | .seif => !s.customer i
  | .txs => decide (0x800 ≤ off) && !s.flag (Pg.TXS i) TXS.PD_OWNER
  | _ => false

/-- A write to an RWS register: dropped with SHADOW_LOCKED in ARMED, refused for its values or its writer, otherwise stored in
shadow, and the page is DIRTY. -/
def State.rwsStore (pg off : Nat) (v : Word) (s : State) : State :=
  match pageIndex pg with
  | none => s
  | some (k, _, i) =>
    if s.flag pg CFG.ARMED then s.refuse pg ErrCode.SHADOW_LOCKED off
    else if s.notHosts k i off then s.refuse pg ErrCode.NOT_PERMITTED off
    else
      let w := maskWord k off v
      match wordVerdict k off w with
      | some code => s.refuse pg code off
      | none =>
        let s : State := { s with shadow := Tab.put s.shadow (addrOf pg off) w }
        s.put pg CFG.PENDING 1

/-- A COMMIT that is accepted: the page is ARMED, and a page whose safe point is the COMMIT applies its set at once. -/
def State.commitAccept (pg : Nat) (s : State) : State :=
  let s := s.arm pg
  match pageIndex pg with
  | none => s
  | some (k, _, i) =>
    match k with
    | .erg => { s with erg := { s.erg with armAt := Tab.set (fun _ => 0) s.erg.armAt i s.time
                                           due := Tab.set (fun _ => 0) s.erg.due i 15 } }
    | .lnk => { s with lnk := { s.lnk with commitAt := s.time } }
    | .uart => s.setUart i { s.uartSt i with commitAt := s.time }
    | _ => if s.appliesAtCommit pg then s.pageApply pg s.time else s

/-- COMMIT = 0x1 (R45). -/
def State.commitApply (pg : Nat) (s : State) : State :=
  if s.flag pg CFG.ARMED then s.refuse pg ErrCode.COMMIT_BUSY 0x008
  else if s.flag pg CFG.PENDING = false then (s.put pg CFG.APPLY_CNT (s.get pg CFG.APPLY_CNT + 1)).put pg CFG.CFG_ERR 0
  else match s.commitCheck pg with
    | some (code, off) => s.refuse pg code off
    | none => s.commitAccept pg

/-- A safe point of the page's block at the present tick wins over a discard or a cancel that reaches it in the same cycle (R46). On
the pages whose safe points are no instants of the tick grid, SAFE_POINT alone says which came first. -/
def State.safePointFirst (pg : Nat) (s : State) : State :=
  match pageIndex pg with
  | none => s
  | some (k, _, _) =>
    match k with
    | .oas | .pwd0 | .mac | .dwl | .mtb | .lpt | .ergx | .nmap | .loop =>
      onlyIf (s.flag pg CFG.ARMED) (State.safePoint pg s.time) s
    | _ => s

/-- COMMIT = 0x2 (R45, R46): discards the shadow set, and an armed one with it. -/
def State.commitDiscard (pg : Nat) (s : State) : State :=
  let s := (s.safePointFirst pg).discard pg
  match pageIndex pg with
  | some (.erg, _, i) => { s with erg := { s.erg with due := Tab.set (fun _ => 0) s.erg.due i 0 } }
  | _ => s

/-! ## SOFT_RESET (R44) -/

/-- Status that reads the current value (R11) of a thing which is no state of the page's block, so that SOFT_RESET of the page does
not move it: the host link, clocks, straps and boot progress, trained DRAM channels, the MRAM journal, fuses and boot results,
power states, link firmware and the regime it brings (R209), the cost table that link firmware writes (R287), and EST_K, which TXS
keeps (R172). DEDUCED: log 27. -/
def keptStatus (k : PageKind) (off : Nat) : Bool :=
  let status := decide (0x100 ≤ off) && decide (off < 0x200)
  match k with
  | .hif => decide (off = 0x104)
  | .clk | .mrm => status
  | .rst => decide (off = 0x100) || decide (off = 0x108)
  | .drc0 => decide (off = 0x100) || decide (off = 0x120)
  | .drc => decide (off = 0x100)
  | .sec => status && decide (off < 0x170)
  | .pwd1 => decide (0x400 ≤ off)
  | .oas => decide (0x500 ≤ off)
  | .lnk => decide (off = 0x100) || decide (off = 0x104) || decide (off = 0x108)
  | .mac => decide (off = 0x100)
  | .txs => decide (off = 0x110)
  | _ => false

/-- Status, events and counters of a page return to reset, but for what the hardware around the block shows. -/
def State.clearBlock (pg : Nat) (s : State) : State :=
  match pageIndex pg with
  | none => s
  | some (k, _, _) =>
    let kept := s.regs.filter fun e => inPage pg (keptStatus k) e.1
    let s := s.clearStatus pg
    { s with regs := kept.foldl (fun r e => Tab.set resetWord r e.1 e.2) s.regs }

/-- The engines of a quad stop what they do and start again as their roles ask (R141). -/
def State.ergSoft (q : Nat) (s : State) : State :=
  let parked := (quadEngines q).filter fun c => decide (s.est c = ES.PARKED)
  let s := forEach (quadEngines q) (fun c s => if s.engAway c then s.endLoan c s.time else s) s
  let s := s.clearBlock (Pg.ERG q)
  let s : State := { s with erg := { s.erg with due := Tab.set (fun _ => 0) s.erg.due q 0 } }
  forEach (quadEngines q) (fun c s =>
    let s := s.setEng c Eng.idle
    s.setEst c (if parked.contains c then ES.PARKED else s.roleState c)) s

/-- Medium access forgets its attempts that are not on the line, acknowledgements owed, and trains; the messages wait again. -/
def State.macSoft (s : State) : State :=
  let off := s.mac.attempts.filter fun a => !a.started
  let s := forEach off (fun a s => (s.dropAttempt a.queue a.tag).modMsg a.queue a.tag fun m => { m with inFlight := decide (m.attempts ≠ 0) }) s
  let s := forEach s.mac.trains (fun r s => s.abandonTrain r Delay.NONE s.time) s
  let s : State := { s with mac := { s.mac with owed := [], sensed := [], again := [], ended := [] } }
  s.clearBlock Pg.MAC

/-- Mirage forgets its jobs, combine slots, pins and directory; lent engines return. -/
def State.mirSoft (s : State) : State :=
  let s := forEach s.mir.running (fun e s => s.endLoan e.1 s.time) s
  let s : State := { s with mir := { State.reset.mir with nextSlab := s.mir.nextSlab } }
  s.clearBlock Pg.MIR

/-- Wadi forgets its messages and records: every queue is CLOSED and empty with its descriptor kept, every ring empty. -/
def State.wadSoft (s : State) : State :=
  let msgs := s.wad.queues.flatMap fun e => e.2.msgs.map fun m => (e.1, m.tag)
  let s := forEach msgs (fun e s => s.dropAttempt e.1 e.2) s
  let queues := s.wad.queues.map fun e => (e.1, { Queue.idle with d14 := e.2.d14, d18 := e.2.d18, d1C := e.2.d1C, d20 := e.2.d20 })
  let queues := queues.filter fun e => decide (e.2 ≠ Queue.idle)
  let win := (s.host.win.map fun e => (e.1, { e.2 with pop := none })).filter fun e => decide (e.2 ≠ Window.idle)
  let s : State := { s with wad := { State.reset.wad with queues := queues, lnkPause := s.wad.lnkPause }
                            host := { s.host with win := win } }
  s.clearBlock Pg.WAD

/-- The governor starts afresh in SERVICE with full buckets, at the level that its set asks for; the jobs are those of other
blocks. -/
def State.oasSoft (s : State) : State :=
  let s := s.sprintEnd.modeService.clearBlock Pg.OAS
  let s := s.modOas fun o => { State.reset.oas with
    ready := o.ready, running := o.running, waking := o.waking, wakeDone := o.wakeDone, offDone := o.offDone, waitWake := o.waitWake
    levelAt := s.time }
  let s := forEach ((List.range 16).filter fun p => decide (s.get Pg.OAS (OAS.LINE_MW.nth p) ≠ 0)) (fun p s =>
    s.setToken p (1000 * (s.get Pg.OAS (OAS.LINE_BURST_MJ.nth p) : Int))) s
  s.refreshReserve.setLevel

/-- What SOFT_RESET does to a block and its page. -/
def State.blockReset (pg : Nat) (s : State) : State :=
  match pageIndex pg with
  | none => s
  | some (k, _, i) =>
    match k with
    | .mtb => s.tbSoftReset
    | .lpt => s.portSoftReset i s.time
    | .erg => s.ergSoft i
    | .trl => ({ s with trl := State.reset.trl } : State).clearBlock pg
    | .nmap => ({ s with nmap := [] } : State).clearBlock pg
    | .txs => (s.clearBlock pg).refreshMismatch i
    | .mac => s.macSoft
    | .dwl => (({ s with txs := { s.txs with hist := [] } } : State).clearBlock pg).refreshDwell
    | .mir => s.mirSoft
    | .wad => s.wadSoft
    | .lnk => (s.clearBlock pg).modLnk fun l => { l with events := [], evtRead := 0, evtLost := 0, args := [], mb := none }
    | .sns =>
      let on := fun d => decide (s.domOn d)
      let s := ((s.snsOff 142).snsOff 143).clearBlock pg
      let s : State := { s with sns := { s.sns with pins := [], wins := [], det := [] } }
      forEach ([142, 143].filter on) (fun d s => s.snsOnDomain d s.time) s
    | .dec => ({ s with sns := { s.sns with cap := [], capHi := none, pinLow := false } } : State).clearBlock pg
    | .exc => forEach (List.range 4) (fun e s => s.put pg (EXC.COMPLIANCE.nth e) 0) (s.clearBlock pg)
    | .loop => ((s.loopOff 0).loopOff 1).clearBlock pg
    | .crc => (s.clearBlock pg).crcRestart i
    | .uart => s.uartSoftReset i
    | .cav => s.cavSoftReset
    | .seif => s.seifSoftReset i
    | .sec =>
      let s := s.clearBlock pg
      ({ s with sec := { s.sec with nonce := [], token := [], fresh := false, checking := ([], none), job := none, att := [], buf := [] } }
        : State).put pg SEC.BUSY 0
    | .key => ({ s with key := { s.key with keyIn := [] } } : State).clearBlock pg
    | .drc0 => ({ s with clk := { s.clk with ceAt := Tab.set (fun _ => []) s.clk.ceAt i [] } } : State).clearBlock pg
    | .drc => ({ s with clk := { s.clk with ceAt := Tab.set (fun _ => []) s.clk.ceAt i [] } } : State).clearBlock pg
    | .drw => s.drwForget.clearBlock pg
    | .hif =>
      ({ s with host := { s.host with active := 0, spiBuf := [], wrOvf := false, rdTimeout := false, frameErr := false, cmdErr := false } }
        : State).clearBlock pg
    | .oas => s.oasSoft
    | .rst => ({ s with clk := { s.clk with wdtAt := some s.time } } : State).clearBlock pg
    | _ => s.clearBlock pg

/-- CTRL.SOFT_RESET (R44 to R46): an armed commit is cancelled with its shadow kept, then the block returns to reset. -/
def State.softReset (pg : Nat) (s : State) : State := ((s.safePointFirst pg).put pg CFG.ARMED 0).blockReset pg

/-! ## ENABLE and FREEZE_CNT (R44) -/

/-- What a change of ENABLE does to the block of a page. -/
def State.enableBlock (pg : Nat) (on : Bool) (s : State) : State :=
  match pageIndex pg with
  | none => s
  | some (k, _, i) =>
    match k with
    | .mtb => s.tbEnable on
    | .lpt => if on then s.portStart i s.time else s.portOff i s.time
    | .cav => s.cavEnable on
    | .uart => s.uartEnable i on
    | _ => s

/-- A write of ENABLE: refused with STATE on MIR without a sound ring (R173) and on LPT of a DEEPEN slave (R396). -/
def State.setEnable (pg : Nat) (on : Bool) (s : State) : State :=
  match pageIndex pg with
  | none => s
  | some (k, _, _) =>
    if on && ((decide (k = .mir) && !s.ringOk) || (decide (k = .lpt) && s.deepenSlave)) then s.refuse pg ErrCode.STATE CMN.CTRL
    else
      let was := s.enabled pg
      let s := s.put pg CTRL.ENABLE on.toNat
      if was = on then s else s.enableBlock pg on

/-- A write of CTRL. -/
def State.ctrlWrite (pg : Nat) (v : Word) (s : State) : State :=
  let s := (s.put pg CTRL.FREEZE_CNT (bitOf v.toNat 2)).setEnable pg (decide (bitOf v.toNat 0 = 1))
  if bitOf v.toNat 1 = 1 then s.softReset pg else s

/-! ## Events and counters (R50, R51) -/

/-- The EVENTS bits of a kind of page: those of its block, CFG_REFUSED and COMMIT_APPLIED. -/
def eventMask (k : PageKind) : Word :=
  BitVec.ofNat 32 ((fieldsAt k CMN.EVENTS).foldl (fun n e => n ||| e.2.mask) 0xC0000000)

/-- A write to EVENTS: a 1 clears its bit. -/
def State.eventsClear (pg : Nat) (v : Word) (s : State) : State := s.setReg pg CMN.EVENTS (s.reg pg CMN.EVENTS &&& ~~~v)

/-- A write to EVENT_FORCE: a 1 sets its bit. -/
def State.eventForce (pg : Nat) (v : Word) (s : State) : State :=
  match pageIndex pg with
  | none => s
  | some (k, _, _) => s.setReg pg CMN.EVENTS (s.reg pg CMN.EVENTS ||| (v &&& eventMask k))

/-- A write to CNT_SNAP: the snapshot takes every live counter of the page. -/
def State.cntSnap (pg : Nat) (s : State) : State :=
  { s with snap := (List.range 63).foldl (fun m i => Tab.set (fun _ => 0) m (addrOf pg (0x300 + 4 * i)) (s.reg pg (0x300 + 4 * i)))
                     (Tab.drop (inPage pg fun _ => true) s.snap) }

/-! ## Immediate registers -/

/-- A write to an immediate register without an effect of its own: judged at the write (R13, R49), reserved bits ignored (R10). -/
def State.rwStore (pg off : Nat) (v : Word) (s : State) : State :=
  match pageIndex pg with
  | none => s
  | some (k, _, _) =>
    let w := maskWord k off v
    match wordVerdict k off w with
    | some code => s.refuse pg code off
    | none => s.setReg pg off w

/-- A write to WQD.QD_IDX: refused with STATE while the page is DIRTY or ARMED; the descriptor fields show the new queue's. -/
def State.setQdIdx (v : Word) (s : State) : State :=
  if s.flag Pg.WQD CFG.PENDING then s.refuse Pg.WQD ErrCode.STATE 0x010
  else
    let n := v.toNat % 8192
    let q := s.queue n
    let s := s.put Pg.WQD WQD.QD_IDX n
    (((s.setReg Pg.WQD 0x014 q.d14).setReg Pg.WQD 0x018 q.d18).setReg Pg.WQD 0x01C q.d1C).setReg Pg.WQD 0x020 q.d20

end Sys2Proof.Machine
end

