-- ==== Sys2Proof/Machine/Bus.lean ====
section
/-! DEFINITION. What a host write of a word does at each BAR0 address (02_host_interface_and_pages.md): the BAR0 map (R8, R41), the
command and data registers of the pages, the common frame, and the queue windows. -/
namespace Sys2Proof.Machine

/-- The low 16 and the high 16 bits of a word. -/
def lo16 (v : Word) : Nat := v.toNat % 65536
def hi16 (v : Word) : Nat := v.toNat / 65536

/-- Bit b of a written word asks for `f`. -/
def ifBit (v : Word) (b : Nat) (f : State → State) (s : State) : State := onlyIf (decide (bitOf v.toNat b = 1)) f s

/-- WQD.CMD (R254, R264). -/
def State.wqdWrite (v : Word) (s : State) : State :=
  match v.toNat % 16 with
  | 1 => s.wqdCmd State.wqdOpen
  | 2 => s.wqdCmd State.wqdClose
  | 3 => s.wqdCmd (State.wqdPause true)
  | 4 => s.wqdCmd (State.wqdPause false)
  | 5 => s.wqdCmd State.cancelWaiting
  | 6 => s.wqdCmd fun n s => s.wqdCancel n (hi16 v)
  | _ => s

/-- SEIF.CMD (R349, R351). -/
def State.seifWrite (k : Nat) (v : Word) (s : State) : State :=
  match v.toNat % 8 with
  | 1 => s.seifRun k
  | 2 => s.seifHaltCmd k
  | 3 => s.seifStep k
  | 4 => s.claim k
  | 5 => s.seifRelease k
  | _ => s

/-- SEC.CMD (20_startup_boot_security.md, Registers). -/
def State.secWrite (v : Word) (s : State) : State :=
  match v.toNat % 16 with
  | 1 => s.fwStart
  | 2 => s.bootHost
  | 3 => s.advance
  | 4 => s.attest
  | 5 => s.challenge
  | 6 => s.unlock
  | 7 => s.fuseLock (hi16 v)
  | 8 => s.recovery
  | 9 => s.flashStart 1
  | 10 => s.flashStart 2
  | _ => s

/-- UART.CMD. -/
def State.uartCmd (n : Nat) (v : Word) (s : State) : State :=
  let pg := Pg.UART n
  let s := ifBit v 0 (State.put pg UART.AB_STATE AB.ARMED) s
  let s := ifBit v 1 (State.put pg UART.AB_STATE AB.IDLE) s
  let s := ifBit v 2 (State.put pg UART.RX_OFF 0) s
  let s := ifBit v 3 (fun s => (s.setUart n { s.uartSt n with rx := [] }).showUart n) s
  let s := ifBit v 4 (State.txFlush n) s
  ifBit v 5 (State.sendBreak n) s

/-- The straps that a chip reset samples, taken as they were sampled last. -/
def State.strapPins (s : State) : BitVec 4 := BitVec.ofNat 4 (s.reg Pg.RST 0x100).toNat

/-- RST.RESET_CMD (R406). -/
def State.resetCmd (v : Word) (s : State) : State :=
  if lo16 v = 0x5752 then s.warmReset [] 3
  else if lo16 v = 0x4348 then s.pinClassReset s.strapPins [] 4
  else s

/-- CLK.CMD SAMPLE_RETURN, with SCLK_IN good for a time that the command does not carry. -/
def State.returnCmd (s : State) : State :=
  s.withFree fun n s => s.sampleReturn (if s.flag Pg.CLK CLK.SCLK_OK then n + 1 else 0)

/-- Writes to VEC_MASK: a pending vector that becomes unmasked sends its message (R61). -/
def State.vecMask (v : Word) (s : State) : State :=
  let old := s.get Pg.HIF HIF.VEC_MASK
  let s := s.put Pg.HIF HIF.VEC_MASK v.toNat
  forEach ((List.range 32).filter fun i => decide (bitOf old i = 1) && decide (bitOf v.toNat i = 0)
      && decide (bitOf (s.get Pg.HIF HIF.VEC_PEND) i = 1)) State.sendMsi s

/-- Writes to VEC_ACK: the bit clears; where a source of the vector is still active, it sets again with a new message (R61). -/
def State.vecAck (v : Word) (s : State) : State :=
  let acked := (List.range 32).filter fun i => decide (bitOf v.toNat i = 1)
  let s := s.put Pg.HIF HIF.VEC_PEND (s.get Pg.HIF HIF.VEC_PEND &&& (0xFFFFFFFF ^^^ v.toNat))
  let src := s.activeSources
  forEach (acked.filter fun i => (List.range 96).any fun n => decide (bitOf src n = 1) && decide (s.vectorOf n = i)) State.raiseVec s

/-- Registers of the line side that a write acts on beyond storing: none where the register has no such effect. -/
def lineCommand (k : PageKind) (i off : Nat) (v : Word) : Option (State → State) :=
  match k with
  | .mtb => if off = 0x040 then some State.tbSnap else none
  | .lpt => if off = 0x040 then some fun s => ifBit v 1 (State.echoResetCmd i) (ifBit v 0 (State.checkNow i) s) else none
  | .nmap => if off = 0x018 then some (State.hostCell v) else none
  | .mir =>
    if off = 0x050 then
      match v.toNat / 256 % 4 with
      | 1 => some (State.hostPin (v.toNat % 16))
      | 2 => some (State.hostUnpin (v.toNat % 16))
      | _ => some id
    else if off = 0x060 then some (State.lookupTick false v)
    else if off = 0x064 then some (State.lookupTick true v)
    else if off = 0x090 then some fun s => ifBit v 1 State.diagAbort (ifBit v 0 State.diagGo s)
    else none
  | _ => none

/-- The same for the other blocks. -/
def otherCommand (k : PageKind) (i off : Nat) (v : Word) : Option (State → State) :=
  match k with
  | .hif => if off = 0x010 then some (State.vecMask v) else if off = 0x014 then some (State.vecAck v) else none
  | .oas =>
    if off = 0x040 then
      match v.toNat % 4 with
      | 1 => some State.modeService
      | 2 => some State.modeStandby
      | 3 => some State.modeDeepSleep
      | _ => some id
    else none
  | .wqd => if off = 0x040 then some (State.wqdWrite v) else if off = 0x010 then some (State.setQdIdx v) else none
  | .lnk =>
    if off = 0x040 then some (State.mbCmd (v.toNat % 256) (v.toNat / 256 % 256) [])
    else if 0x044 ≤ off ∧ off ≤ 0x060 then
      some fun s => s.modLnk fun l => { l with args := (List.range 8).map fun j => if j = (off - 0x044) / 4 then v else l.args.getD j 0 }
    else none
  | .sns => if off = 0x060 then some (State.openCheckNow v.toNat) else none
  | .dec =>
    if off = 0x040 then
      some fun s => ifBit v 1 State.capFlush (ifBit v 0 (fun s => if s.cavSlave then s else s.dsyncHere (s.time + 2)) s)
    else none
  | .loop =>
    if off = 0x070 then some fun s => (s.loopForce true (v.toNat % 4)).loopForce false (v.toNat / 16 % 4)
    else if off = 0x060 then some (State.loopHostValue 0 v)
    else if off = 0x064 then some (State.loopHostValue 1 v)
    else none
  | .seif => if off = 0x040 then some (State.seifWrite i v) else if off = 0x044 then some (State.mboxIn i v) else none
  | .crc =>
    if off = 0x040 then some fun s => ifBit v 8 (State.crcRestart i) (s.crcPresetWrite i (v.toNat % 8))
    else if off = 0x044 then some (State.crcFeed i (leBytes 1 (v.toNat % 2 ^ 8)))
    else if off = 0x048 then some (State.crcFeed i (leBytes 2 (v.toNat % 2 ^ 16)))
    else if off = 0x04C then some (State.crcFeed i (leBytes 4 v.toNat))
    else if off = 0x050 then some fun s => s.put (Pg.CRC i) CRC.STATE (v.toNat % 2 ^ s.crcWidth i)
    else none
  | .uart => if off = 0x040 then some (State.uartCmd i v) else if off = 0x044 then some (State.uartTx i (v.setWidth 8)) else none
  | .cav =>
    if off = 0x040 then some (ifBit v 0 State.retrain) else none
  | .clk => if off = 0x040 then some (ifBit v 0 State.returnCmd) else none
  | .rst => if off = 0x040 then some (State.wdtKick (lo16 v)) else if off = 0x044 then some (State.resetCmd v) else none
  | .sec =>
    if off = 0x040 then some (State.secWrite v)
    else if 0x048 ≤ off ∧ off ≤ 0x064 then
      some fun s => { s with sec := { s.sec with nonce := (List.range 8).map fun j =>
        if j = (off - 0x048) / 4 then v else s.sec.nonce.getD j 0 } }
    else if off = 0x068 then some (State.tokenWord v)
    else if off = 0x074 then some (State.flashWrite v)
    else none
  | .key =>
    if 0x018 ≤ off ∧ off ≤ 0x024 then
      some fun s => { s with key := { s.key with keyIn := (List.range 4).map fun j =>
        if j = (off - 0x018) / 4 then v else s.key.keyIn.getD j 0 } }
    else if off = 0x040 then
      match v.toNat % 4 with
      | 1 => some State.keyWrite
      | 2 => some State.keyClear
      | _ => some id
    else none
  | .mrm => if off = 0x014 then some (State.mramWrite v) else none
  | .drw =>
    if off = 0x010 then some (State.drwSetAddr false v)
    else if off = 0x014 then some (State.drwSetAddr true v)
    else if off = 0x018 then some (State.drwWrite v)
    else if off = 0x01C then some (State.drwSetMode v)
    else none
  | _ => none

/-- A write to the common frame and to plain fields (R9, R11, R43): each under its access code. A COMMIT of another value than
0x1 and 0x2 has no effect (R48). -/
def State.plainWrite (pg : Nat) (k : PageKind) (off : Nat) (v : Word) (s : State) : State :=
  if off = CMN.CTRL then s.ctrlWrite pg v
  else if off = CMN.COMMIT then
    if v = 1 then s.commitApply pg else if v = 2 then s.commitDiscard pg else s
  else if off = CMN.EVENTS then s.eventsClear pg v
  else if off = CMN.EVENT_EN then s.setReg pg CMN.EVENT_EN v
  else if off = CMN.EVENT_FORCE then s.eventForce pg v
  else if off = CMN.CNT_SNAP then s.cntSnap pg
  else match accOf k off with
    | some .rws => s.rwsStore pg off v
    | some .rw => s.rwStore pg off v
    | _ => s

/-- A write that reaches a page. -/
def State.writePort (pg off : Nat) (v : Word) (s : State) : State :=
  match pageIndex pg with
  | none => s
  | some (k, _, i) =>
    match (lineCommand k i off v).or (otherCommand k i off v) with
    | some f => f s
    | none => s.plainWrite pg k off v

/-- A write to queue window n (R9, R52 to R55). -/
def State.writeWindow (n off : Nat) (v : Word) (s : State) : State :=
  if off = 0x000 then s.qwBind n v
  else if off = 0x010 then s.qwPushHdr0 n v
  else if 0x014 ≤ off ∧ off ≤ 0x01C then s.qwPushHdr n ((off - 0x010) / 4) v
  else if off = 0x020 then s.qwPushData n v
  else if off = 0x024 then s.qwPushEnd n (v.toNat % 2 ^ 17)
  else if off = 0x064 then
    match v.toNat % 4 with
    | 1 => s.qwRelease n
    | 2 => s.qwRewind n
    | _ => s
  else s

/-- A host write of the word at a BAR0 address (R8, R41). In a Seif memory window the core's domain is looked at first, so that a
write to an unassigned part of the window of a core that is off counts OFF_DOMAIN_CNT and not UNMAPPED_CNT. DESIGN CHOICE (log 156): R15 and
R41 give no order. -/
def State.busWrite (addr : Nat) (v : Word) (s : State) : State :=
  let a := addr / 4 * 4 % 2 ^ 24
  if a < 0x200000 then
    let pg := a / 4096
    if (pageIndex pg).isNone then s.pageWrite Pg.HIF State.unmapped else s.pageWrite pg (State.writePort pg (a % 4096) v)
  else if a < 0x240000 then s.pageWrite Pg.HIF (State.writeWindow ((a - 0x200000) / 4096) (a % 4096) v)
  else if a < 0x241000 then s.pageWrite Pg.DRW (State.writePort Pg.DRW (a % 4096) v)
  else if a < 0x800000 then s.pageWrite Pg.HIF State.unmapped
  else s.pageWrite (Pg.SEIF (seifWindow a).1) (State.seifWindowWrite a v)

end Sys2Proof.Machine
end

