-- ==== Sys2Proof/Machine/Host.lean ====
section
/-! DEFINITION. The host interface's commands (02_host_interface_and_pages.md): PCIe and SPI accesses, registers, COMMIT, events,
queue windows and interrupt vectors. -/
namespace Sys2Proof.Machine

/-! ## PCIe endpoint (R25 to R29) -/

/-- The strap selected the PCIe endpoint, or the SPI target (R23). -/
def State.onSpi (s : State) : Bool := s.flag Pg.HIF HIF.LINK_HOST
def State.onPcie (s : State) : Bool := !s.onSpi && !s.asleep

/-- PCIE_LONG_READ (R26): a read longer than one DW completes with Unsupported Request status. -/
def execPcieLongRead (_addr : BitVec 24) (ndw : Nat) (s : State) : Res :=
  finish (onlyIf (s.onPcie && !s.unreachable && decide (1 < ndw)) (fun s => { s with host := { s.host with urCount := s.host.urCount + 1 } }) s)

/-- A write that the endpoint drops whole (R26). -/
def State.badWrite (s : State) : State := (s.event Pg.HIF HIF.EV_BAD_WR).count Pg.HIF HIF.BAD_WR_CNT

/-- PCIE_BAD_WRITE (R26): longer than one DW, or byte enables other than 0xF. -/
def execPcieBadWrite (_addr : BitVec 24) (ndw : Nat) (be : BitVec 4) (s : State) : Res :=
  finish (onlyIf (s.onPcie && !s.unreachable && (decide (1 < ndw) || decide (be ≠ 0xF))) State.badWrite s)

/-! ### Configuration space (R25, R28) -/

/-- What the root complex has written to the MSI capability: MSI Enable, the number of vectors granted as a power of two, and the
mask bits. -/
def State.msiControl (s : State) : Nat :=
  s.get Pg.HIF HIF.LINK_MSI_EN + 5 * 2 ^ 1 + s.get Pg.HIF HIF.LINK_MSI_LOG2 * 2 ^ 4 + 2 ^ 7 + 2 ^ 8

/-- Configuration values of the function by their offset: Device and Vendor ID, class code and Revision ID, the type of BAR0 (32-bit,
non-prefetchable), no I/O BAR, no expansion ROM, Interrupt Pin 0, and the MSI capability with 32 vectors requested, 64-bit address
and per-vector masking. The place of the MSI capability is not the spec's. DESIGN CHOICE: log 125. -/
def State.configWord (s : State) (off : Nat) : Word :=
  match off with
  | 0x00 => 0x02561F7B
  | 0x08 => 0x118000B1
  | 0x3C => 0
  | 0x50 => BitVec.ofNat 32 (s.msiControl * 2 ^ 16 + 5)
  | 0x60 => BitVec.ofNat 32 s.host.msiMask
  | 0x64 => s.reg Pg.HIF HIF.VEC_PEND.off
  | _ => 0

/-- Every open push is discarded; open records stay (R29). LAST_RESULT stays as it is. DESIGN CHOICE (log 23): the spec names no window code
for a push that a link reset discards. -/
def State.dropPushes (s : State) : State :=
  let win := (s.host.win.map fun e => (e.1, { e.2 with push := none })).filter fun e => decide (e.2 ≠ Window.idle)
  { s with host := { s.host with win := win } }

/-- The PCIe endpoint's own state returns to reset: power state, MSI Enable, granted vectors and MSI mask bits. -/
def State.endpointReset (s : State) : State :=
  let s : State := { s with host := { s.host with d3hot := false, msiMask := 0 } }
  (s.put Pg.HIF HIF.LINK_MSI_EN 0).put Pg.HIF HIF.LINK_MSI_LOG2 0

/-- PCIE_LINK_RESET (R29): a link-down or hot reset takes the data link down; a return from D3hot leaves it up. -/
def State.linkReset (cause : LinkResetCause) (s : State) : State :=
  let s := s.endpointReset.dropPushes
  match cause with
  | .d3Return => s
  | _ => s.put Pg.HIF HIF.LINK_UP 0

/-- PCIE_LINK_RESET. -/
def execPcieLinkReset (cause : LinkResetCause) (s : State) : Res :=
  finish (onlyIf (s.onPcie && (decide (cause ≠ .d3Return) || s.host.d3hot)) (State.linkReset cause) s)

/-- PCIE_D3HOT_ENTRY (R28). -/
def execPcieD3hotEntry (s : State) : Res :=
  finish (onlyIf s.onPcie (fun s => { s with host := { s.host with d3hot := true } }) s)

/-- The root complex sets MSI Enable, the granted vectors and the mask bits: a pending vector that becomes unmasked sends its
message (R60, R61). -/
def State.msiWrite (c : MsiConfig) (s : State) : State :=
  let may := fun (s : State) v => s.flag Pg.HIF HIF.LINK_MSI_EN && decide (bitOf s.host.msiMask v = 0)
  let was := (List.range 32).filter (may s)
  let s := (s.put Pg.HIF HIF.LINK_MSI_EN c.enable.toNat).put Pg.HIF HIF.LINK_MSI_LOG2 (Nat.min 5 c.granted.toNat)
  let s : State := { s with host := { s.host with msiMask := c.mask.toNat } }
  forEach ((List.range 32).filter fun v => may s v && !was.contains v && decide (bitOf (s.get Pg.HIF HIF.VEC_PEND) v = 1))
    State.sendMsi s

/-- The data link is up, with what the root complex has written to configuration space by then (R25, R61). -/
def State.linkIsUp (msi : MsiConfig) (s : State) : State := (s.put Pg.HIF HIF.LINK_UP 1).msiWrite msi

/-- PCIE_LINK_UP. -/
def execPcieLinkUp (msi : MsiConfig) (s : State) : Res := finish (onlyIf s.onPcie (State.linkIsUp msi) s)

/-! ## SPI target (R30 to R36) -/

/-- The address is a data port (R32): every RC register, PUSH_DATA, DRW.DATA, and the registers that their chapters name. -/
def dataPort (a : Nat) : Bool :=
  let off := a % 4096
  if a < 0x200000 ∨ (0x240000 ≤ a ∧ a < 0x241000) then
    match pageIndex (if a < 0x200000 then a / 4096 else Pg.DRW) with
    | none => false
    | some (k, _, _) =>
      decide (accOf k off = some .rc) || (match k with
        | .nmap => decide (off = 0x018)
        | .crc => decide (off = 0x044) || decide (off = 0x048) || decide (off = 0x04C)
        | .uart => decide (off = 0x044)
        | .sec => decide (off = 0x068) || decide (off = 0x074)
        | .mrm => decide (off = 0x014)
        | .drw => decide (off = 0x018)
        | _ => false)
  else decide (0x200000 ≤ a) && decide (a < 0x240000) && (decide (off = 0x020) || decide (off = 0x060))

/-- The address of the next word of a command (R32). -/
def nextAddr (a : Nat) : Nat := if dataPort a then a else (a + 4) % 2 ^ 24

/-- An SPI error: SPI_ERR and its counter. -/
def State.spiErr (s : State) : State := (s.event Pg.HIF HIF.EV_SPI_ERR).count Pg.HIF HIF.SPI_ERR_CNT

/-- Performs the oldest `n` buffered words (R37). -/
def State.spiPerform : Nat → State → State
  | 0, s => s
  | n + 1, s =>
    match s.host.spiBuf with
    | [] => s
    | (a, v) :: t => (({ s with host := { s.host with spiBuf := t } } : State).busWrite a v).spiPerform n

/-- Performs every buffered word. -/
def State.spiDrain (s : State) : State := s.spiPerform s.host.spiBuf.length

/-- A host write of a register follows every word written before it (R37). -/
def State.hostWrite (pg : Nat) (f : State → State) (s : State) : State := s.spiDrain.pageWrite pg f

/-- A host read of a register follows every word written before it (R37). -/
def State.hostRead (pg : Nat) (f : State → State) (s : State) : State := s.spiDrain.pageRead pg f

/-- As much of the buffer as the time since the last word allowed has been performed: the spec does not say how much. -/
def State.spiRun (s : State) : State :=
  if s.host.spiBuf = [] then s
  else s.withFree fun n s => s.spiPerform (n % (s.host.spiBuf.length + 1))

/-- A data word of a write arrives (R34): the buffer holds 64 words, and a word that finds it full is dropped. -/
def State.spiArrive (a : Nat) (v : Word) (s : State) : State :=
  let s := if s.host.spiBuf.length < 64 then s else s.spiRun
  if s.host.spiBuf.length < 64 then { s with host := { s.host with spiBuf := s.host.spiBuf ++ [(a, v)] } }
  else ({ s with host := { s.host with wrOvf := true } } : State).spiErr

/-- The data words of a write, from address `a` on. -/
def State.spiWords : List Word → Nat → State → State
  | [], _, s => s
  | v :: t, a, s => (s.spiArrive a v).spiWords t (nextAddr a)

/-- A trailing partial word is dropped at CS_N rise (R35). -/
def State.spiTail (tail : Nat) (s : State) : State :=
  if tail = 0 then s else ({ s with host := { s.host with frameErr := true } } : State).spiErr

/-- A command starts: nothing has been driven yet. -/
def State.spiBegin (s : State) : State := { s with host := { s.host with spiOut := [], spiReading := false } }

/-- The SPI target takes commands: the strap selected it, and the YG256 is awake. -/
def State.spiOn (s : State) : Bool := s.onSpi && !s.asleep

/-- Commands 0x02 and 0x32. -/
def State.spiWrite (addr : Nat) (data : List Word) (tail : Nat) (s : State) : State :=
  (((s.spiBegin).spiWords data (addr / 4 * 4)).spiTail tail).spiRun

/-- WRITE. -/
def execWrite (addr : BitVec 24) (data : List Word) (tail : Fin 4) (s : State) : Res :=
  finish (onlyIf s.spiOn (State.spiWrite addr.toNat data tail.val) s)

/-- WRITE_QUAD: as WRITE on four lines. -/
def execWriteQuad (addr : BitVec 24) (data : List Word) (tail : Fin 4) (s : State) : Res :=
  finish (onlyIf s.spiOn (State.spiWrite addr.toNat data tail.val) s)

/-- Appends bytes to what the target drives: data words go byte 0 first (R31). -/
def State.spiDrive (l : List Byte) (s : State) : State := { s with host := { s.host with spiOut := s.host.spiOut ++ l } }

/-- The words of a read from address `a` on (R33): wait bytes, the marker 0xA5 and the word, little-endian. A word that is not
fetched yet has one or more wait bytes before it, a fetched one none: the first has at least `wait`, and how many there are is a
free number. -/
def State.spiReads : Nat → Nat → Nat → State → State
  | 0, _, _, s => s
  | n + 1, wait, a, s =>
    let s := s.busRead a
    (s.withFree fun k s => s.spiDrive (List.replicate (wait + k) 0x00 ++ [0xA5] ++ leBytes 4 s.host.rdata.toNat)).spiReads n 0
      (nextAddr a)

/-- Commands 0x0B and 0xEB: the reads follow every write received before them (R37). The command may go on until CS_N rises. -/
def State.spiRead (addr words : Nat) (s : State) : State :=
  let s := (s.spiBegin.spiDrain).spiReads words 1 (addr / 4 * 4)
  { s with host := { s.host with spiReading := true } }

/-- READ. -/
def execRead (addr : BitVec 24) (words : Nat) (s : State) : Res := finish (onlyIf s.spiOn (State.spiRead addr.toNat words) s)

/-- READ_QUAD: as READ on four lines. -/
def execReadQuad (addr : BitVec 24) (words : Nat) (s : State) : Res := finish (onlyIf s.spiOn (State.spiRead addr.toNat words) s)

/-- The SPI error flags clear. -/
def State.spiClear (s : State) : State :=
  { s with host := { s.host with wrOvf := false, rdTimeout := false, frameErr := false, cmdErr := false } }

/-- STATUS (R36). -/
def execStatus (s : State) : Res :=
  finish (onlyIf s.spiOn (fun s =>
    let s := s.spiBegin.spiRun
    (s.spiDrive [BitVec.ofNat 8 s.spiStatus]).spiClear) s)

/-- TARGET_RESET (R30): the SPI target's own state returns to reset; what its buffer still holds is lost. -/
def execTargetReset (s : State) : Res :=
  finish (onlyIf s.spiOn (fun s =>
    let s := s.spiBegin.spiRun
    ({ s with host := { s.host with spiBuf := [] } } : State).spiClear) s)

/-- The opcodes that the target decodes (R30). -/
def spiOpcodes : List Byte := [0x02, 0x32, 0x0B, 0xEB, 0x05, 0x99]

/-- SPI_UNKNOWN_OPCODE (R35): what follows the opcode is ignored, a partial word among it too. -/
def execSpiUnknownOpcode (opcode : Byte) (_tail : Fin 4) (s : State) : Res :=
  finish (onlyIf (s.spiOn && !spiOpcodes.contains opcode) (fun s =>
    ({ s.spiBegin with host := { s.spiBegin.host with cmdErr := true } } : State).spiErr) s)

/-- A read in progress finds no data: the marker 0xE1 and zeros, and every later byte of the command reads 0xFF (R33). -/
def State.readFails (later : Nat) (s : State) : State :=
  let s := s.spiDrive ([0xE1, 0x00, 0x00, 0x00, 0x00] ++ List.replicate later 0xFF)
  ({ s with host := { s.host with rdTimeout := true, spiReading := false, rdata := 0 } } : State).spiErr

/-- RD_TIMEOUT (R33): of a read in progress. `later` bytes are clocked after it. -/
def execRdTimeout (later : Nat) (s : State) : Res :=
  finish (onlyIf (s.spiOn && s.host.spiReading) (State.readFails later) s)

/-- XING_TIMEOUT (R40): a handshake is abandoned; a read returns all ones. -/
def execXingTimeout (isRead : Bool) (s : State) : Res :=
  finish (onlyIf (!s.unreachable) (fun s => if isRead then s.xingTimeout.answer 0xFFFFFFFF else s.xingTimeout) s)

/-! ## Registers -/

/-- A write to a page of the index, or to none (R41). -/
def State.onPage (pg : Nat) (f : State → State) (s : State) : State :=
  if (pageIndex pg).isNone then s.hostWrite Pg.HIF State.unmapped else s.hostWrite pg f

/-- REGISTER_WRITE. -/
def execRegisterWrite (addr : BitVec 24) (value : Word) (s : State) : Res := finish (s.spiDrain.busWrite addr.toNat value)

/-- A write to an RWS register; other registers are no subject of the command. -/
def State.rwsWrite (pg off : Nat) (v : Word) (s : State) : State :=
  match pageIndex pg with
  | none => s
  | some (k, _, _) => if accOf k off = some .rws then s.rwsStore pg off v else s

/-- RWS_WRITE. -/
def execRwsWrite (page : Fin 512) (off : BitVec 12) (value : Word) (s : State) : Res :=
  finish (s.onPage page.val (State.rwsWrite page.val (off.toNat / 4 * 4) value))

/-- COMMIT_APPLY. -/
def execCommitApply (page : Fin 512) (s : State) : Res := finish (s.onPage page.val (State.commitApply page.val))

/-- COMMIT_DISCARD. -/
def execCommitDiscard (page : Fin 512) (s : State) : Res := finish (s.onPage page.val (State.commitDiscard page.val))

/-- SAFE_POINT. -/
def execSafePoint (t : Nat) (page : Fin 512) (s : State) : Res := finish ((s.atTick t).safePoint page.val t)

/-- SOFT_RESET. -/
def execSoftReset (page : Fin 512) (s : State) : Res := finish (s.onPage page.val (State.softReset page.val))

/-- CTRL_ENABLE. -/
def execCtrlEnable (page : Fin 512) (on : Bool) (s : State) : Res := finish (s.onPage page.val (State.setEnable page.val on))

/-- FREEZE_CNT. -/
def execFreezeCnt (page : Fin 512) (on : Bool) (s : State) : Res :=
  finish (s.onPage page.val (State.put page.val CTRL.FREEZE_CNT on.toNat))

/-- EVENTS_CLEAR. -/
def execEventsClear (page : Fin 512) (mask : Word) (s : State) : Res := finish (s.onPage page.val (State.eventsClear page.val mask))

/-- EVENT_FORCE. -/
def execEventForce (page : Fin 512) (mask : Word) (s : State) : Res := finish (s.onPage page.val (State.eventForce page.val mask))

/-- CNT_SNAP. -/
def execCntSnap (page : Fin 512) (s : State) : Res := finish (s.onPage page.val (State.cntSnap page.val))

/-! ## Queue windows (R52 to R56) -/

/-- BIND. -/
def execBind (win : Fin 64) (value : Word) (s : State) : Res := finish (s.hostWrite Pg.HIF (State.qwBind win.val value))

/-- PUSH_HDR0. -/
def execPushHdr0 (win : Fin 64) (value : Word) (s : State) : Res := finish (s.hostWrite Pg.HIF (State.qwPushHdr0 win.val value))

/-- PUSH_HDR1 to PUSH_HDR3: `index` 0 is PUSH_HDR1. -/
def execPushHdrWord (win : Fin 64) (index : Fin 3) (value : Word) (s : State) : Res :=
  finish (s.hostWrite Pg.HIF (State.qwPushHdr win.val (index.val + 1) value))

/-- PUSH_DATA. -/
def execPushData (win : Fin 64) (value : Word) (s : State) : Res := finish (s.hostWrite Pg.HIF (State.qwPushData win.val value))

/-- PUSH_END. -/
def execPushEnd (win : Fin 64) (bytes : BitVec 17) (s : State) : Res :=
  finish (s.hostWrite Pg.HIF (State.qwPushEnd win.val bytes.toNat))

/-- POP_HDR0. -/
def execPopHdr0 (win : Fin 64) (s : State) : Res := finish (s.hostRead Pg.HIF (State.qwPopHdr0 win.val))

/-- POP_DATA. -/
def execPopData (win : Fin 64) (s : State) : Res := finish (s.hostRead Pg.HIF (State.qwPopData win.val))

/-- RELEASE. -/
def execRelease (win : Fin 64) (s : State) : Res := finish (s.hostWrite Pg.HIF (State.qwRelease win.val))

/-- REWIND. -/
def execRewind (win : Fin 64) (s : State) : Res := finish (s.hostWrite Pg.HIF (State.qwRewind win.val))

/-! ## Vectors (R60 to R62) -/

/-- VEC_ACK. -/
def execVecAck (value : Word) (s : State) : Res := finish (s.hostWrite Pg.HIF (State.vecAck value))

/-- VEC_MASK_WRITE. -/
def execVecMaskWrite (value : Word) (s : State) : Res := finish (s.hostWrite Pg.HIF (State.vecMask value))

end Sys2Proof.Machine
end

