-- ==== Sys2Proof/Machine/HostRows.lean ====
section
/-! DEFINITION. The host's accesses that have a row of their own: the command and data registers of the blocks. Each follows the
words written before it (R37). -/
namespace Sys2Proof.Machine

/-- FW_START. -/
def execFwStart (s : State) : Res := finish (s.hostWrite Pg.SEC State.fwStart)

/-- BOOT_HOST. -/
def execBootHost (s : State) : Res := finish (s.hostWrite Pg.SEC State.bootHost)

/-- RECOVERY. -/
def execRecovery (s : State) : Res := finish (s.hostWrite Pg.SEC State.recovery)

/-- ADVANCE. -/
def execAdvance (s : State) : Res := finish (s.hostWrite Pg.SEC State.advance)

/-- ATTEST. -/
def execAttest (s : State) : Res := finish (s.hostWrite Pg.SEC State.attest)

/-- ATT_DATA_READ. -/
def execAttDataRead (s : State) : Res := finish (s.hostRead Pg.SEC State.attRead)

/-- UNLOCK_CHALLENGE. -/
def execUnlockChallenge (s : State) : Res := finish (s.hostWrite Pg.SEC State.challenge)

/-- TOKEN_WRITE. -/
def execTokenWrite (value : Word) (s : State) : Res := finish (s.hostWrite Pg.SEC (State.tokenWord value))

/-- UNLOCK. -/
def execUnlock (s : State) : Res := finish (s.hostWrite Pg.SEC State.unlock)

/-- FUSE_LOCK. -/
def execFuseLock (key : BitVec 16) (s : State) : Res := finish (s.hostWrite Pg.SEC (State.fuseLock key.toNat))

/-- FLASH_PROGRAM. -/
def execFlashProgram (s : State) : Res := finish (s.hostWrite Pg.SEC (State.flashStart 1))

/-- FLASH_ERASE. -/
def execFlashErase (s : State) : Res := finish (s.hostWrite Pg.SEC (State.flashStart 2))

/-- FLASH_DATA_READ. -/
def execFlashDataRead (s : State) : Res := finish (s.hostRead Pg.SEC State.flashRead)

/-- FLASH_DATA_WRITE. -/
def execFlashDataWrite (value : Word) (s : State) : Res := finish (s.hostWrite Pg.SEC (State.flashWrite value))

/-- PIN. -/
def execPin (region : Fin 16) (s : State) : Res := finish (s.hostWrite Pg.MIR (State.hostPin region.val))

/-- UNPIN. -/
def execUnpin (region : Fin 16) (s : State) : Res := finish (s.hostWrite Pg.MIR (State.hostUnpin region.val))

/-- LOOKUP. -/
def execLookup (high : Bool) (value : Word) (s : State) : Res :=
  finish (s.hostWrite Pg.MIR (State.lookupTick high value))

/-- RETRAIN: both links go DOWN and train again. -/
def execRetrain (s : State) : Res :=
  finish (s.hostWrite Pg.CAV State.retrain)

/-- SAMPLE_RETURN. -/
def execSampleReturn (good : Nat) (s : State) : Res := finish (s.hostWrite Pg.CLK (State.sampleReturn good))

/-- WDT_KICK. -/
def execWdtKick (value : BitVec 16) (s : State) : Res := finish (s.hostWrite Pg.RST (State.wdtKick value.toNat))

/-- DATA8. -/
def execData8 (unit : Fin 4) (value : Word) (s : State) : Res :=
  finish (s.hostWrite (Pg.CRC unit.val) (State.crcFeed unit.val (leBytes 1 (value.toNat % 2 ^ 8))))

/-- DATA16. -/
def execData16 (unit : Fin 4) (value : Word) (s : State) : Res :=
  finish (s.hostWrite (Pg.CRC unit.val) (State.crcFeed unit.val (leBytes 2 (value.toNat % 2 ^ 16))))

/-- DATA32. -/
def execData32 (unit : Fin 4) (value : Word) (s : State) : Res :=
  finish (s.hostWrite (Pg.CRC unit.val) (State.crcFeed unit.val (leBytes 4 value.toNat)))

/-- PRESET. -/
def execPreset (unit : Fin 4) (number : Fin 8) (s : State) : Res :=
  finish (s.hostWrite (Pg.CRC unit.val) (State.crcPresetWrite unit.val number.val))

/-- RESTART. -/
def execRestart (unit : Fin 4) (s : State) : Res := finish (s.hostWrite (Pg.CRC unit.val) (State.crcRestart unit.val))

/-- CRC_STATE_WRITE (R370): bits at or above WIDTH are ignored. -/
def execCrcStateWrite (unit : Fin 4) (value : Word) (s : State) : Res :=
  finish (s.hostWrite (Pg.CRC unit.val) (fun s => s.put (Pg.CRC unit.val) CRC.STATE (value.toNat % 2 ^ s.crcWidth unit.val)))

/-- DRW_ADDR_WRITE. -/
def execDrwAddrWrite (high : Bool) (value : Word) (s : State) : Res := finish (s.hostWrite Pg.DRW (State.drwSetAddr high value))

/-- DRW_MODE_WRITE. -/
def execDrwModeWrite (value : Word) (s : State) : Res := finish (s.hostWrite Pg.DRW (State.drwSetMode value))

/-- DRW_DATA_READ. -/
def execDrwDataRead (ecc : EccResult) (s : State) : Res := finish (s.hostRead Pg.DRW (State.drwRead ecc))

/-- DRW_DATA_WRITE. -/
def execDrwDataWrite (value : Word) (s : State) : Res := finish (s.hostWrite Pg.DRW (State.drwWrite value))

/-- KEY_WRITE. -/
def execKeyWrite (s : State) : Res := finish (s.hostWrite Pg.KEY State.keyWrite)

/-- KEY_CLEAR. -/
def execKeyClear (s : State) : Res := finish (s.hostWrite Pg.KEY State.keyClear)

/-- MRM_DATA_READ. -/
def execMrmDataRead (ecc : EccResult) (s : State) : Res := finish (s.hostRead Pg.MRM (State.mramRead ecc))

/-- MRM_DATA_WRITE. -/
def execMrmDataWrite (value : Word) (s : State) : Res := finish (s.hostWrite Pg.MRM (State.mramWrite value))

/-- LNK_NOP. -/
def execLnkNop (tag : Byte) (s : State) : Res := finish (s.hostWrite Pg.LNK (State.mbCmd 0x01 tag.toNat []))

/-- LNK_HALT. -/
def execLnkHalt (tag : Byte) (s : State) : Res := finish (s.hostWrite Pg.LNK (State.mbCmd 0x02 tag.toNat []))

/-- EP_ADD. -/
def execEpAdd (tag : Byte) (s : State) : Res := finish (s.hostWrite Pg.LNK (State.mbCmd 0x10 tag.toNat []))

/-- EP_REMOVE. -/
def execEpRemove (tag : Byte) (s : State) : Res := finish (s.hostWrite Pg.LNK (State.mbCmd 0x11 tag.toNat []))

/-- EP_QUERY. -/
def execEpQuery (tag : Byte) (s : State) : Res := finish (s.hostWrite Pg.LNK (State.mbCmd 0x12 tag.toNat []))

/-- KEY_SET. -/
def execKeySet (tag : Byte) (s : State) : Res := finish (s.hostWrite Pg.LNK (State.mbCmd 0x18 tag.toNat []))

/-- SESS_SEND; `ue`: DRAM addresses that were read with an uncorrectable error while the object's check was computed. -/
def execSessSend (tag : Byte) (ue : List Nat) (s : State) : Res := finish (s.hostWrite Pg.LNK (State.mbCmd 0x20 tag.toNat ue))

/-- SESS_CANCEL. -/
def execSessCancel (tag : Byte) (s : State) : Res := finish (s.hostWrite Pg.LNK (State.mbCmd 0x21 tag.toNat []))

/-- SESS_QUERY. -/
def execSessQuery (tag : Byte) (s : State) : Res := finish (s.hostWrite Pg.LNK (State.mbCmd 0x22 tag.toNat []))

/-- SESS_RELEASE. -/
def execSessRelease (tag : Byte) (s : State) : Res := finish (s.hostWrite Pg.LNK (State.mbCmd 0x23 tag.toNat []))

/-- ROUTE_QUERY. -/
def execRouteQuery (tag : Byte) (s : State) : Res := finish (s.hostWrite Pg.LNK (State.mbCmd 0x28 tag.toNat []))

/-- ROUTE_SET. -/
def execRouteSet (tag : Byte) (s : State) : Res := finish (s.hostWrite Pg.LNK (State.mbCmd 0x29 tag.toNat []))

/-- UNKNOWN_CMD: an opcode that R250 does not assign. -/
def execUnknownCmd (opcode tag : Byte) (s : State) : Res :=
  wellFormedOr (Operands.unassigned opcode) (finish (s.hostWrite Pg.LNK (State.mbCmd opcode.toNat tag.toNat [])))

/-- EVT_DATA_READ. -/
def execEvtDataRead (s : State) : Res := finish (s.hostRead Pg.LNK State.evtRead)

/-- FORCE_FAULT. -/
def execForceFault (loops : BitVec 2) (s : State) : Res :=
  finish (s.hostWrite Pg.LOOP (State.loopForce true loops.toNat))

/-- FORCE_RELEASE. -/
def execForceRelease (loops : BitVec 2) (s : State) : Res :=
  finish (s.hostWrite Pg.LOOP (State.loopForce false loops.toNat))

/-- HOST_VALUE_WRITE. -/
def execHostValueWrite (loop : Fin 2) (value : Word) (s : State) : Res :=
  finish (s.hostWrite Pg.LOOP (State.loopHostValue loop.val value))

/-- CHECK_NOW. -/
def execCheckNow (port : Fin 16) (s : State) : Res := finish (s.hostWrite (Pg.LPT port.val) (State.checkNow port.val))

/-- ECHO_RESET. -/
def execEchoReset (port : Fin 16) (s : State) : Res :=
  finish (s.hostWrite (Pg.LPT port.val) (State.echoResetCmd port.val))

/-- SNAP. -/
def execSnap (s : State) : Res := finish (s.hostWrite Pg.MTB State.tbSnap)

/-- MODE_SERVICE. -/
def execModeService (s : State) : Res := finish (s.hostWrite Pg.OAS State.modeService)

/-- MODE_STANDBY. -/
def execModeStandby (s : State) : Res := finish (s.hostWrite Pg.OAS State.modeStandby)

/-- MODE_DEEP_SLEEP. -/
def execModeDeepSleep (s : State) : Res := finish (s.hostWrite Pg.OAS State.modeDeepSleep)

/-- CELL_DATA_WRITE. -/
def execCellDataWrite (value : Word) (s : State) : Res := finish (s.hostWrite Pg.NMAP (State.hostCell value))

/-- CELL_DATA_READ. -/
def execCellDataRead (s : State) : Res := finish (s.hostRead Pg.NMAP State.readCell)

/-- DIAG_GO. -/
def execDiagGo (s : State) : Res := finish (s.hostWrite Pg.MIR State.diagGo)

/-- DIAG_ABORT. -/
def execDiagAbort (s : State) : Res := finish (s.hostWrite Pg.MIR State.diagAbort)

/-- WARM: RST.RESET_CMD WARM. -/
def execWarm (bad : List Nat) (s : State) : Res := finish (s.hostWrite Pg.RST (State.warmReset bad 3))

/-- CHIP: RST.RESET_CMD CHIP. -/
def execChip (straps : BitVec 4) (bad : List Nat) (s : State) : Res :=
  finish (s.hostWrite Pg.RST (State.pinClassReset straps bad 4))

/-- SEIF_RUN. -/
def execSeifRun (core : Fin 32) (s : State) : Res := finish (s.hostWrite (Pg.SEIF core.val) (State.seifRun core.val))

/-- SEIF_HALT. -/
def execSeifHalt (core : Fin 32) (s : State) : Res := finish (s.hostWrite (Pg.SEIF core.val) (State.seifHaltCmd core.val))

/-- SEIF_STEP. -/
def execSeifStep (core : Fin 32) (s : State) : Res := finish (s.hostWrite (Pg.SEIF core.val) (State.seifStep core.val))

/-- CLAIM. -/
def execClaim (core : Fin 32) (s : State) : Res := finish (s.hostWrite (Pg.SEIF core.val) (State.claim core.val))

/-- SEIF_RELEASE. -/
def execSeifRelease (core : Fin 32) (s : State) : Res :=
  finish (s.hostWrite (Pg.SEIF core.val) (State.seifRelease core.val))

/-- MBOX_IN_WRITE. -/
def execMboxInWrite (core : Fin 32) (value : Word) (s : State) : Res :=
  finish (s.hostWrite (Pg.SEIF core.val) (State.mboxIn core.val value))

/-- SEIF_WINDOW_WRITE. -/
def execSeifWindowWrite (addr : BitVec 24) (value : Word) (s : State) : Res :=
  finish (s.hostWrite (Pg.SEIF (seifWindow addr.toNat).1) (State.seifWindowWrite addr.toNat value))

/-- SEIF_WINDOW_READ. -/
def execSeifWindowRead (addr : BitVec 24) (s : State) : Res :=
  finish (s.hostRead (Pg.SEIF (seifWindow addr.toNat).1) (State.seifWindowRead addr.toNat))

/-- SNS_CHECK_NOW. -/
def execSnsCheckNow (inputs : BitVec 32) (s : State) : Res :=
  finish (s.hostWrite Pg.SNS (State.openCheckNow inputs.toNat))

/-- CAP_DATA_READ. -/
def execCapDataRead (s : State) : Res := finish (s.hostRead Pg.DEC State.capRead)

/-- CAP_FLUSH. -/
def execCapFlush (s : State) : Res := finish (s.hostWrite Pg.DEC State.capFlush)

/-- DSYNC: a write of CMD.DSYNC, with T_R at the second tick after it. -/
def execDsync (s : State) : Res :=
  finish (s.hostWrite Pg.DEC (fun s => if s.cavSlave then s else s.dsyncHere (s.time + 2)))

/-- RX_DATA_READ. -/
def execRxDataRead (unit : Fin 4) (s : State) : Res := finish (s.hostRead (Pg.UART unit.val) (State.uartRead unit.val))

/-- TX_DATA. -/
def execTxData (unit : Fin 4) (value : Byte) (s : State) : Res :=
  finish (s.hostWrite (Pg.UART unit.val) (State.uartTx unit.val value))

/-- AB_ARM and AB_CANCEL. -/
def execAbArm (unit : Fin 4) (s : State) : Res :=
  finish (s.hostWrite (Pg.UART unit.val) (State.put (Pg.UART unit.val) UART.AB_STATE AB.ARMED))

def execAbCancel (unit : Fin 4) (s : State) : Res :=
  finish (s.hostWrite (Pg.UART unit.val) (State.put (Pg.UART unit.val) UART.AB_STATE AB.IDLE))

/-- RX_RESUME (R375). -/
def execRxResume (unit : Fin 4) (s : State) : Res :=
  finish (s.hostWrite (Pg.UART unit.val) (State.put (Pg.UART unit.val) UART.RX_OFF 0))

/-- RX_FLUSH empties the receive FIFO. -/
def execRxFlush (unit : Fin 4) (s : State) : Res :=
  finish (s.hostWrite (Pg.UART unit.val) fun s => (s.setUart unit.val { s.uartSt unit.val with rx := [] }).showUart unit.val)

/-- TX_FLUSH empties the transmit FIFO. -/
def execTxFlush (unit : Fin 4) (s : State) : Res :=
  finish (s.hostWrite (Pg.UART unit.val) (State.txFlush unit.val))

/-- SEND_BREAK: after the character in progress and before the next. -/
def execSendBreak (unit : Fin 4) (s : State) : Res :=
  finish (s.hostWrite (Pg.UART unit.val) (State.sendBreak unit.val))

/-- OPEN. -/
def execOpenQueue (s : State) : Res := finish (s.hostWrite Pg.WQD (State.wqdCmd State.wqdOpen))

/-- CLOSE. -/
def execCloseQueue (s : State) : Res := finish (s.hostWrite Pg.WQD (State.wqdCmd State.wqdClose))

/-- PAUSE: sets HOST_PAUSE; no new attempt starts. -/
def execPauseQueue (s : State) : Res := finish (s.hostWrite Pg.WQD (State.wqdCmd (State.wqdPause true)))

/-- RESUME: clears HOST_PAUSE. -/
def execResumeQueue (s : State) : Res := finish (s.hostWrite Pg.WQD (State.wqdCmd (State.wqdPause false)))

/-- FLUSH: ends every waiting message; the state is unchanged. -/
def execFlushQueue (s : State) : Res := finish (s.hostWrite Pg.WQD (State.wqdCmd State.cancelWaiting))

/-- CANCEL. -/
def execCancelMsg (tag : BitVec 16) (s : State) : Res := finish (s.hostWrite Pg.WQD (State.wqdCmd fun n s => s.wqdCancel n tag.toNat))

end Sys2Proof.Machine
end

