-- ==== Sys2Proof/Machine/SeifIns.lean ====
section
/-! DEFINITION. The instructions of the Seif cores (R361 to R366): the command of an instruction is the cycle in which a
running core fetches that instruction at its PC. What it does then runs through the stages of `State.seifCycle`; its operation
is `seifCompute` for compute operations and `seifDe`, `seifRd`, `seifEx2` for control operations. -/
namespace Sys2Proof.Machine

/-- NOP (R361): No compute operation; the moves execute. -/
def execInsNop (core : Fin 32) (s : State) : Res := finish (s.seifIssue 0x00 core.val)

/-- MOV (R361): Copies a D register. -/
def execInsMov (core : Fin 32) (s : State) : Res := finish (s.seifIssue 0x10 core.val)

/-- CLR (R361): Clears a D register. -/
def execInsClr (core : Fin 32) (s : State) : Res := finish (s.seifIssue 0x11 core.val)

/-- ADD (R361): Adds two D registers. -/
def execInsAdd (core : Fin 32) (s : State) : Res := finish (s.seifIssue 0x12 core.val)

/-- SUB (R361): Subtracts two D registers. -/
def execInsSub (core : Fin 32) (s : State) : Res := finish (s.seifIssue 0x13 core.val)

/-- ADDQ (R361): Adds a 7-bit signed immediate to a D register. -/
def execInsAddq (core : Fin 32) (s : State) : Res := finish (s.seifIssue 0x14 core.val)

/-- NEG (R361): Negates a D register. -/
def execInsNeg (core : Fin 32) (s : State) : Res := finish (s.seifIssue 0x15 core.val)

/-- ABS (R361): Takes the absolute value of a D register. -/
def execInsAbs (core : Fin 32) (s : State) : Res := finish (s.seifIssue 0x16 core.val)

/-- MIN (R361): Takes the signed smaller of two D registers. -/
def execInsMin (core : Fin 32) (s : State) : Res := finish (s.seifIssue 0x17 core.val)

/-- MAX (R361): Takes the signed larger of two D registers. -/
def execInsMax (core : Fin 32) (s : State) : Res := finish (s.seifIssue 0x18 core.val)

/-- CMP (R361): Sets flags from the difference of two D registers. -/
def execInsCmp (core : Fin 32) (s : State) : Res := finish (s.seifIssue 0x19 core.val)

/-- TST (R361): Sets flags from a D register. -/
def execInsTst (core : Fin 32) (s : State) : Res := finish (s.seifIssue 0x1A core.val)

/-- AND (R361): Bitwise AND of two D registers. -/
def execInsAnd (core : Fin 32) (s : State) : Res := finish (s.seifIssue 0x1B core.val)

/-- OR (R361): Bitwise OR of two D registers. -/
def execInsOr (core : Fin 32) (s : State) : Res := finish (s.seifIssue 0x1C core.val)

/-- XOR (R361): Bitwise XOR of two D registers. -/
def execInsXor (core : Fin 32) (s : State) : Res := finish (s.seifIssue 0x1D core.val)

/-- NOT (R361): Bitwise complement of a D register. -/
def execInsNot (core : Fin 32) (s : State) : Res := finish (s.seifIssue 0x1E core.val)

/-- ASL (R361): Arithmetic left shift by an immediate. -/
def execInsAsl (core : Fin 32) (s : State) : Res := finish (s.seifIssue 0x1F core.val)

/-- ASR (R361): Arithmetic right shift by an immediate, truncating. -/
def execInsAsr (core : Fin 32) (s : State) : Res := finish (s.seifIssue 0x20 core.val)

/-- LSR (R361): Logical right shift by an immediate. -/
def execInsLsr (core : Fin 32) (s : State) : Res := finish (s.seifIssue 0x21 core.val)

/-- ASHV (R361): Shifts left or right by a signed register count. -/
def execInsAshv (core : Fin 32) (s : State) : Res := finish (s.seifIssue 0x22 core.val)

/-- NORM (R361): Counts the redundant sign bits of a D register. -/
def execInsNorm (core : Fin 32) (s : State) : Res := finish (s.seifIssue 0x23 core.val)

/-- SXT16 (R361): Sign-extends the low 16 bits of a D register. -/
def execInsSxt16 (core : Fin 32) (s : State) : Res := finish (s.seifIssue 0x24 core.val)

/-- MPY (R361): Multiplies the I halves of two registers to Q31. -/
def execInsMpy (core : Fin 32) (s : State) : Res := finish (s.seifIssue 0x25 core.val)

/-- CADD (R362): Adds two packed complex words. -/
def execInsCadd (core : Fin 32) (s : State) : Res := finish (s.seifIssue 0x30 core.val)

/-- CSUB (R362): Subtracts two packed complex words. -/
def execInsCsub (core : Fin 32) (s : State) : Res := finish (s.seifIssue 0x31 core.val)

/-- CCONJ (R362): Conjugates a packed complex word. -/
def execInsCconj (core : Fin 32) (s : State) : Res := finish (s.seifIssue 0x32 core.val)

/-- CROTJ (R362): Multiplies a packed complex word by j. -/
def execInsCrotj (core : Fin 32) (s : State) : Res := finish (s.seifIssue 0x33 core.val)

/-- PACK (R362): Packs two Q31 reals into one complex word. -/
def execInsPack (core : Fin 32) (s : State) : Res := finish (s.seifIssue 0x34 core.val)

/-- CASR (R362): Shifts each complex half right by an immediate. -/
def execInsCasr (core : Fin 32) (s : State) : Res := finish (s.seifIssue 0x35 core.val)

/-- CLRA (R363): Clears an accumulator. -/
def execInsClra (core : Fin 32) (s : State) : Res := finish (s.seifIssue 0x40 core.val)

/-- LDA (R363): Loads an accumulator's halves from two D registers. -/
def execInsLda (core : Fin 32) (s : State) : Res := finish (s.seifIssue 0x41 core.val)

/-- MAC (R363): Accumulates the product of I halves into AcR. -/
def execInsMac (core : Fin 32) (s : State) : Res := finish (s.seifIssue 0x42 core.val)

/-- MSU (R363): Subtracts the product of I halves from AcR. -/
def execInsMsu (core : Fin 32) (s : State) : Res := finish (s.seifIssue 0x43 core.val)

/-- MAC2 (R363): Accumulates the I and Q products into the two halves. -/
def execInsMac2 (core : Fin 32) (s : State) : Res := finish (s.seifIssue 0x44 core.val)

/-- CMPY (R363): Sets an accumulator to a complex product. -/
def execInsCmpy (core : Fin 32) (s : State) : Res := finish (s.seifIssue 0x45 core.val)

/-- CMAC (R363): Accumulates a complex product. -/
def execInsCmac (core : Fin 32) (s : State) : Res := finish (s.seifIssue 0x46 core.val)

/-- CMACJ (R363): Accumulates a product with the conjugate of the second operand. -/
def execInsCmacj (core : Fin 32) (s : State) : Res := finish (s.seifIssue 0x47 core.val)

/-- CMSU (R363): Subtracts a complex product from an accumulator. -/
def execInsCmsu (core : Fin 32) (s : State) : Res := finish (s.seifIssue 0x48 core.val)

/-- MAG2A (R363): Accumulates the squared magnitude of a complex word into AcR. -/
def execInsMag2a (core : Fin 32) (s : State) : Res := finish (s.seifIssue 0x49 core.val)

/-- ADDA (R363): Adds one accumulator to another. -/
def execInsAdda (core : Fin 32) (s : State) : Res := finish (s.seifIssue 0x4A core.val)

/-- SUBA (R363): Subtracts one accumulator from another. -/
def execInsSuba (core : Fin 32) (s : State) : Res := finish (s.seifIssue 0x4B core.val)

/-- SHA (R363): Shifts both accumulator halves by a signed count. -/
def execInsSha (core : Fin 32) (s : State) : Res := finish (s.seifIssue 0x4C core.val)

/-- EXTR (R363): Extracts AcR narrowed to 32 bits. -/
def execInsExtr (core : Fin 32) (s : State) : Res := finish (s.seifIssue 0x4D core.val)

/-- EXTI (R363): Extracts AcI narrowed to 32 bits. -/
def execInsExti (core : Fin 32) (s : State) : Res := finish (s.seifIssue 0x4E core.val)

/-- CEXT (R363): Extracts a complex word from the two accumulator halves. -/
def execInsCext (core : Fin 32) (s : State) : Res := finish (s.seifIssue 0x4F core.val)

/-- MAXX (R364): Keeps the running maximum in AcR and its X move address in IX. -/
def execInsMaxx (core : Fin 32) (s : State) : Res := finish (s.seifIssue 0x50 core.val)

/-- MAXY (R364): Keeps the running maximum in AcR and its Y move address in IX. -/
def execInsMaxy (core : Fin 32) (s : State) : Res := finish (s.seifIssue 0x51 core.val)

/-- MINX (R364): Keeps the running minimum in AcR and its X move address in IX. -/
def execInsMinx (core : Fin 32) (s : State) : Res := finish (s.seifIssue 0x52 core.val)

/-- MINY (R364): Keeps the running minimum in AcR and its Y move address in IX. -/
def execInsMiny (core : Fin 32) (s : State) : Res := finish (s.seifIssue 0x53 core.val)

/-- JMP (R365): Jumps after the delay slot. -/
def execInsJmp (core : Fin 32) (s : State) : Res := finish (s.seifIssue 0x01 core.val)

/-- CALL (R365): Saves the return address in D15 and jumps after the delay slot. -/
def execInsCall (core : Fin 32) (s : State) : Res := finish (s.seifIssue 0x02 core.val)

/-- RET (R365): Returns to D15 after the delay slot. -/
def execInsRet (core : Fin 32) (s : State) : Res := finish (s.seifIssue 0x03 core.val)

/-- RETI (R347): Restores ST from IST and continues at IPC after the delay slot. -/
def execInsReti (core : Fin 32) (s : State) : Res := finish (s.seifIssue 0x04 core.val)

/-- DO (R343): Starts a hardware loop with an immediate count on the next free level. -/
def execInsDo (core : Fin 32) (s : State) : Res := finish (s.seifIssue 0x05 core.val)

/-- DOR (R365): Starts a hardware loop with the count in a D register. -/
def execInsDor (core : Fin 32) (s : State) : Res := finish (s.seifIssue 0x06 core.val)

/-- WAIT (R365): Enters WAITING after the delay slot until an interrupt. -/
def execInsWait (core : Fin 32) (s : State) : Res := finish (s.seifIssue 0x07 core.val)

/-- STOP (R365): Halts the core as CMD HALT would and sets EVENTS.HALTED. -/
def execInsStop (core : Fin 32) (s : State) : Res := finish (s.seifStop core.val)

/-- LDI (R365): Loads a 32-bit immediate into a move register. -/
def execInsLdi (core : Fin 32) (s : State) : Res := finish (s.seifIssue 0x09 core.val)

/-- STSET (R365): Sets ST bits from a mask. -/
def execInsStset (core : Fin 32) (s : State) : Res := finish (s.seifIssue 0x0A core.val)

/-- STCLR (R365): Clears ST bits from a mask. -/
def execInsStclr (core : Fin 32) (s : State) : Res := finish (s.seifIssue 0x0B core.val)

end Sys2Proof.Machine
end

