-- ==== Sys2Proof/Machine/Dispatch.lean ====
section
/-! DEFINITION. The meaning of every command: one arm per constructor of Instr. -/
namespace Sys2Proof.Machine

def exec (i : Instr) (s : State) : Host.Outcome State Fault Refusal :=
  match i with
  | .pcieLongRead addr ndw => Sys2Proof.Machine.execPcieLongRead addr ndw s
  | .pcieBadWrite addr ndw be => Sys2Proof.Machine.execPcieBadWrite addr ndw be s
  | .pcieLinkReset cause => Sys2Proof.Machine.execPcieLinkReset cause s
  | .pcieD3hotEntry => Sys2Proof.Machine.execPcieD3hotEntry s
  | .write addr data tail => Sys2Proof.Machine.execWrite addr data tail s
  | .writeQuad addr data tail => Sys2Proof.Machine.execWriteQuad addr data tail s
  | .read addr words => Sys2Proof.Machine.execRead addr words s
  | .readQuad addr words => Sys2Proof.Machine.execReadQuad addr words s
  | .status => Sys2Proof.Machine.execStatus s
  | .targetReset => Sys2Proof.Machine.execTargetReset s
  | .spiUnknownOpcode opcode tail => Sys2Proof.Machine.execSpiUnknownOpcode opcode tail s
  | .rdTimeout later => Sys2Proof.Machine.execRdTimeout later s
  | .xingTimeout isRead => Sys2Proof.Machine.execXingTimeout isRead s
  | .registerWrite addr value => Sys2Proof.Machine.execRegisterWrite addr value s
  | .rwsWrite page off value => Sys2Proof.Machine.execRwsWrite page off value s
  | .commitApply page => Sys2Proof.Machine.execCommitApply page s
  | .commitDiscard page => Sys2Proof.Machine.execCommitDiscard page s
  | .safePoint t page => Sys2Proof.Machine.execSafePoint t page s
  | .softReset page => Sys2Proof.Machine.execSoftReset page s
  | .ctrlEnable page on => Sys2Proof.Machine.execCtrlEnable page on s
  | .freezeCnt page on => Sys2Proof.Machine.execFreezeCnt page on s
  | .eventsClear page mask => Sys2Proof.Machine.execEventsClear page mask s
  | .eventForce page mask => Sys2Proof.Machine.execEventForce page mask s
  | .cntSnap page => Sys2Proof.Machine.execCntSnap page s
  | .bind win value => Sys2Proof.Machine.execBind win value s
  | .pushHdr0 win value => Sys2Proof.Machine.execPushHdr0 win value s
  | .pushHdrWord win index value => Sys2Proof.Machine.execPushHdrWord win index value s
  | .pushData win value => Sys2Proof.Machine.execPushData win value s
  | .pushEnd win bytes => Sys2Proof.Machine.execPushEnd win bytes s
  | .popHdr0 win => Sys2Proof.Machine.execPopHdr0 win s
  | .popData win => Sys2Proof.Machine.execPopData win s
  | .release win => Sys2Proof.Machine.execRelease win s
  | .rewind win => Sys2Proof.Machine.execRewind win s
  | .drwAddrWrite high value => Sys2Proof.Machine.execDrwAddrWrite high value s
  | .drwModeWrite value => Sys2Proof.Machine.execDrwModeWrite value s
  | .drwDataRead ecc => Sys2Proof.Machine.execDrwDataRead ecc s
  | .drwDataWrite value => Sys2Proof.Machine.execDrwDataWrite value s
  | .vecAck value => Sys2Proof.Machine.execVecAck value s
  | .vecMaskWrite value => Sys2Proof.Machine.execVecMaskWrite value s
  | .ringHoldExpiry t ring => Sys2Proof.Machine.execRingHoldExpiry t ring s
  | .zeroCrossing t src => Sys2Proof.Machine.execZeroCrossing t src s
  | .mzcEdge t pin high => Sys2Proof.Machine.execMzcEdge t pin high s
  | .referenceLoss t => Sys2Proof.Machine.execReferenceLoss t s
  | .nominalEnter t => Sys2Proof.Machine.execNominalEnter t s
  | .acqRestart t => Sys2Proof.Machine.execAcqRestart t s
  | .phaseWrap t => Sys2Proof.Machine.execPhaseWrap t s
  | .phaseBinBoundary t peaks => Sys2Proof.Machine.execPhaseBinBoundary t peaks s
  | .accessPoint t sense => Sys2Proof.Machine.execAccessPoint t sense s
  | .class0AccessPoint t sense => Sys2Proof.Machine.execClass0AccessPoint t sense s
  | .snap => Sys2Proof.Machine.execSnap s
  | .overload t port samples => Sys2Proof.Machine.execOverload t port samples s
  | .gainStepUp t port => Sys2Proof.Machine.execGainStepUp t port s
  | .ampFault t port low since => Sys2Proof.Machine.execAmpFault t port low since s
  | .overcurrent t port since code => Sys2Proof.Machine.execOvercurrent t port since code s
  | .pilotCheckDue t port => Sys2Proof.Machine.execPilotCheckDue t port s
  | .checkNow port => Sys2Proof.Machine.execCheckNow port s
  | .checkDone t port pilot residual => Sys2Proof.Machine.execCheckDone t port pilot residual s
  | .portRetryDue t port => Sys2Proof.Machine.execPortRetryDue t port s
  | .txAfeOn t port => Sys2Proof.Machine.execTxAfeOn t port s
  | .echoReset port => Sys2Proof.Machine.execEchoReset port s
  | .portSamplesStart t port => Sys2Proof.Machine.execPortSamplesStart t port s
  | .portSamplesStop t port => Sys2Proof.Machine.execPortSamplesStop t port s
  | .preambleDetect t eng tPre corr => Sys2Proof.Machine.execPreambleDetect t eng tPre corr s
  | .syncFound t eng tSync agc carrier decisions => Sys2Proof.Machine.execSyncFound t eng tSync agc carrier decisions s
  | .ackSyncFound t eng tSync agc carrier decisions => Sys2Proof.Machine.execAckSyncFound t eng tSync agc carrier decisions s
  | .syncFail t eng last => Sys2Proof.Machine.execSyncFail t eng last s
  | .headerDecided t eng word errs => Sys2Proof.Machine.execHeaderDecided t eng word errs s
  | .cutDetect t eng cut soft errs snr => Sys2Proof.Machine.execCutDetect t eng cut soft errs snr s
  | .lastDataSymbol t eng soft errs snr rateErr lost => Sys2Proof.Machine.execLastDataSymbol t eng soft errs snr rateErr lost s
  | .ackBodyDecided t eng single robust errs => Sys2Proof.Machine.execAckBodyDecided t eng single robust errs s
  | .cfgAbort t eng => Sys2Proof.Machine.execCfgAbort t eng s
  | .engineRecall t eng watch => Sys2Proof.Machine.execEngineRecall t eng watch s
  | .watchReport t eng tPre => Sys2Proof.Machine.execWatchReport t eng tPre s
  | .enginePark t eng => Sys2Proof.Machine.execEnginePark t eng s
  | .parkTimeout t eng => Sys2Proof.Machine.execParkTimeout t eng s
  | .engineUnpark t eng => Sys2Proof.Machine.execEngineUnpark t eng s
  | .trellisDecodeDone t dec field => Sys2Proof.Machine.execTrellisDecodeDone t dec field s
  | .cellDataWrite value => Sys2Proof.Machine.execCellDataWrite value s
  | .cellDataRead => Sys2Proof.Machine.execCellDataRead s
  | .nmapKernelWrite cell value => Sys2Proof.Machine.execNmapKernelWrite cell value s
  | .nmapAgeTick t => Sys2Proof.Machine.execNmapAgeTick t s
  | .transmissionStart t port lane => Sys2Proof.Machine.execTransmissionStart t port lane s
  | .victimCut t port lane => Sys2Proof.Machine.execVictimCut t port lane s
  | .transmissionEnd t port lane echo => Sys2Proof.Machine.execTransmissionEnd t port lane echo s
  | .txEnergyReport t port figures => Sys2Proof.Machine.execTxEnergyReport t port figures s
  | .slabWrite t samples ue => Sys2Proof.Machine.execSlabWrite t samples ue s
  | .replayJobStart t eng => Sys2Proof.Machine.execReplayJobStart t eng s
  | .replayBlockBoundary t eng finds dump ue => Sys2Proof.Machine.execReplayBlockBoundary t eng finds dump ue s
  | .combineDone t slot => Sys2Proof.Machine.execCombineDone t slot s
  | .slotTimeout t slot => Sys2Proof.Machine.execSlotTimeout t slot s
  | .pin region => Sys2Proof.Machine.execPin region s
  | .unpin region => Sys2Proof.Machine.execUnpin region s
  | .lookup high value => Sys2Proof.Machine.execLookup high value s
  | .diagGo => Sys2Proof.Machine.execDiagGo s
  | .diagAbort => Sys2Proof.Machine.execDiagAbort s
  | .slotBoundary t sense peaks => Sys2Proof.Machine.execSlotBoundary t sense peaks s
  | .ackStart t eng => Sys2Proof.Machine.execAckStart t eng s
  | .ackWindowClose t queue tag => Sys2Proof.Machine.execAckWindowClose t queue tag s
  | .wakeFrameDue t ep => Sys2Proof.Machine.execWakeFrameDue t ep s
  | .wakeDataDue t ep sense => Sys2Proof.Machine.execWakeDataDue t ep sense s
  | .framePathReceive t => Sys2Proof.Machine.execFramePathReceive t s
  | .helloReceived t => Sys2Proof.Machine.execHelloReceived t s
  | .endpointSilent t ep => Sys2Proof.Machine.execEndpointSilent t ep s
  | .neighbourReceived t => Sys2Proof.Machine.execNeighbourReceived t s
  | .reportReceived t => Sys2Proof.Machine.execReportReceived t s
  | .testReceived t => Sys2Proof.Machine.execTestReceived t s
  | .sessOpenReceived t => Sys2Proof.Machine.execSessOpenReceived t s
  | .segReceived t ue => Sys2Proof.Machine.execSegReceived t ue s
  | .sackReceived t ue => Sys2Proof.Machine.execSackReceived t ue s
  | .sessAcceptReceived t ue => Sys2Proof.Machine.execSessAcceptReceived t ue s
  | .sessRefuseReceived t => Sys2Proof.Machine.execSessRefuseReceived t s
  | .sessQueryReceived t => Sys2Proof.Machine.execSessQueryReceived t s
  | .sessAbortReceived t => Sys2Proof.Machine.execSessAbortReceived t s
  | .sackWaitExpiry t handle => Sys2Proof.Machine.execSackWaitExpiry t handle s
  | .probeExpiry t handle => Sys2Proof.Machine.execProbeExpiry t handle s
  | .sessionHoldExpiry t handle => Sys2Proof.Machine.execSessionHoldExpiry t handle s
  | .lnkNop tag => Sys2Proof.Machine.execLnkNop tag s
  | .lnkHalt tag => Sys2Proof.Machine.execLnkHalt tag s
  | .epAdd tag => Sys2Proof.Machine.execEpAdd tag s
  | .epRemove tag => Sys2Proof.Machine.execEpRemove tag s
  | .epQuery tag => Sys2Proof.Machine.execEpQuery tag s
  | .keySet tag => Sys2Proof.Machine.execKeySet tag s
  | .sessSend tag ue => Sys2Proof.Machine.execSessSend tag ue s
  | .sessCancel tag => Sys2Proof.Machine.execSessCancel tag s
  | .sessQuery tag => Sys2Proof.Machine.execSessQuery tag s
  | .sessRelease tag => Sys2Proof.Machine.execSessRelease tag s
  | .routeQuery tag => Sys2Proof.Machine.execRouteQuery tag s
  | .routeSet tag => Sys2Proof.Machine.execRouteSet tag s
  | .unknownCmd opcode tag => Sys2Proof.Machine.execUnknownCmd opcode tag s
  | .evtDataRead => Sys2Proof.Machine.execEvtDataRead s
  | .lnkWatchdogExpiry t => Sys2Proof.Machine.execLnkWatchdogExpiry t s
  | .lnkFault t => Sys2Proof.Machine.execLnkFault t s
  | .lnkReportsRunning t version => Sys2Proof.Machine.execLnkReportsRunning t version s
  | .costTableLoad rates => Sys2Proof.Machine.execCostTableLoad rates s
  | .openQueue => Sys2Proof.Machine.execOpenQueue s
  | .closeQueue => Sys2Proof.Machine.execCloseQueue s
  | .pauseQueue => Sys2Proof.Machine.execPauseQueue s
  | .resumeQueue => Sys2Proof.Machine.execResumeQueue s
  | .flushQueue => Sys2Proof.Machine.execFlushQueue s
  | .cancelMsg tag => Sys2Proof.Machine.execCancelMsg tag s
  | .expiredDeadline t queue tag => Sys2Proof.Machine.execExpiredDeadline t queue tag s
  | .refusedBudget t queue tag => Sys2Proof.Machine.execRefusedBudget t queue tag s
  | .completionRecordWrite t ring => Sys2Proof.Machine.execCompletionRecordWrite t ring s
  | .lossRecordWrite t ring => Sys2Proof.Machine.execLossRecordWrite t ring s
  | .creditWindow t ue => Sys2Proof.Machine.execCreditWindow t ue s
  | .dispatch t ready ue => Sys2Proof.Machine.execDispatch t ready ue s
  | .railSample t ma mv => Sys2Proof.Machine.execRailSample t ma mv s
  | .railHoldExpiry t => Sys2Proof.Machine.execRailHoldExpiry t s
  | .thermalSample t readings => Sys2Proof.Machine.execThermalSample t readings s
  | .thermalStepDown t => Sys2Proof.Machine.execThermalStepDown t s
  | .capLevelUp t => Sys2Proof.Machine.execCapLevelUp t s
  | .capLevelDown t => Sys2Proof.Machine.execCapLevelDown t s
  | .sprintDemandTimeout t => Sys2Proof.Machine.execSprintDemandTimeout t s
  | .ampSensorTimeout t port => Sys2Proof.Machine.execAmpSensorTimeout t port s
  | .domainWakeStart t => Sys2Proof.Machine.execDomainWakeStart t s
  | .domainWakeDone t => Sys2Proof.Machine.execDomainWakeDone t s
  | .domainSwitchOff t domain => Sys2Proof.Machine.execDomainSwitchOff t domain s
  | .modeService => Sys2Proof.Machine.execModeService s
  | .modeStandby => Sys2Proof.Machine.execModeStandby s
  | .modeDeepSleep => Sys2Proof.Machine.execModeDeepSleep s
  | .senseSlotStart t group => Sys2Proof.Machine.execSenseSlotStart t group s
  | .settleDone t group => Sys2Proof.Machine.execSettleDone t group s
  | .rangeOverload t input first second => Sys2Proof.Machine.execRangeOverload t input first second s
  | .complianceLoss t source need vsns => Sys2Proof.Machine.execComplianceLoss t source need vsns s
  | .openCheckDue t input => Sys2Proof.Machine.execOpenCheckDue t input s
  | .snsCheckNow inputs => Sys2Proof.Machine.execSnsCheckNow inputs s
  | .openCheckDone t input mv => Sys2Proof.Machine.execOpenCheckDone t input mv s
  | .commonModeShort t input since pMv nMv => Sys2Proof.Machine.execCommonModeShort t input since pMv nMv s
  | .shortClear t input => Sys2Proof.Machine.execShortClear t input s
  | .reverseCheckDone t input angle amplitude => Sys2Proof.Machine.execReverseCheckDone t input angle amplitude s
  | .blankActivate t pin since level => Sys2Proof.Machine.execBlankActivate t pin since level s
  | .blankRelease t pin since level => Sys2Proof.Machine.execBlankRelease t pin since level s
  | .blankWindowEnd t pin => Sys2Proof.Machine.execBlankWindowEnd t pin s
  | .blankStuck t pin => Sys2Proof.Machine.execBlankStuck t pin s
  | .detectorWindowEnd t => Sys2Proof.Machine.execDetectorWindowEnd t s
  | .decimatorOutput t ch value peak volts lost => Sys2Proof.Machine.execDecimatorOutput t ch value peak volts lost s
  | .dsyncPin t since => Sys2Proof.Machine.execDsyncPin t since s
  | .dsync => Sys2Proof.Machine.execDsync s
  | .capDataRead => Sys2Proof.Machine.execCapDataRead s
  | .capFlush => Sys2Proof.Machine.execCapFlush s
  | .loopUpdate t readback => Sys2Proof.Machine.execLoopUpdate t readback s
  | .forceFault loops => Sys2Proof.Machine.execForceFault loops s
  | .forceRelease loops => Sys2Proof.Machine.execForceRelease loops s
  | .hostValueWrite loop value => Sys2Proof.Machine.execHostValueWrite loop value s
  | .seifRun core => Sys2Proof.Machine.execSeifRun core s
  | .seifHalt core => Sys2Proof.Machine.execSeifHalt core s
  | .seifStep core => Sys2Proof.Machine.execSeifStep core s
  | .claim core => Sys2Proof.Machine.execClaim core s
  | .claimDecision t core grant => Sys2Proof.Machine.execClaimDecision t core grant s
  | .seifRelease core => Sys2Proof.Machine.execSeifRelease core s
  | .mboxInWrite core value => Sys2Proof.Machine.execMboxInWrite core value s
  | .seifWindowWrite addr value => Sys2Proof.Machine.execSeifWindowWrite addr value s
  | .seifTimerTick t core => Sys2Proof.Machine.execSeifTimerTick t core s
  | .interruptEntry core => Sys2Proof.Machine.execInterruptEntry core s
  | .illegalInstruction core => Sys2Proof.Machine.execIllegalInstruction core s
  | .insNop core => Sys2Proof.Machine.execInsNop core s
  | .insMov core => Sys2Proof.Machine.execInsMov core s
  | .insClr core => Sys2Proof.Machine.execInsClr core s
  | .insAdd core => Sys2Proof.Machine.execInsAdd core s
  | .insSub core => Sys2Proof.Machine.execInsSub core s
  | .insAddq core => Sys2Proof.Machine.execInsAddq core s
  | .insNeg core => Sys2Proof.Machine.execInsNeg core s
  | .insAbs core => Sys2Proof.Machine.execInsAbs core s
  | .insMin core => Sys2Proof.Machine.execInsMin core s
  | .insMax core => Sys2Proof.Machine.execInsMax core s
  | .insCmp core => Sys2Proof.Machine.execInsCmp core s
  | .insTst core => Sys2Proof.Machine.execInsTst core s
  | .insAnd core => Sys2Proof.Machine.execInsAnd core s
  | .insOr core => Sys2Proof.Machine.execInsOr core s
  | .insXor core => Sys2Proof.Machine.execInsXor core s
  | .insNot core => Sys2Proof.Machine.execInsNot core s
  | .insAsl core => Sys2Proof.Machine.execInsAsl core s
  | .insAsr core => Sys2Proof.Machine.execInsAsr core s
  | .insLsr core => Sys2Proof.Machine.execInsLsr core s
  | .insAshv core => Sys2Proof.Machine.execInsAshv core s
  | .insNorm core => Sys2Proof.Machine.execInsNorm core s
  | .insSxt16 core => Sys2Proof.Machine.execInsSxt16 core s
  | .insMpy core => Sys2Proof.Machine.execInsMpy core s
  | .insCadd core => Sys2Proof.Machine.execInsCadd core s
  | .insCsub core => Sys2Proof.Machine.execInsCsub core s
  | .insCconj core => Sys2Proof.Machine.execInsCconj core s
  | .insCrotj core => Sys2Proof.Machine.execInsCrotj core s
  | .insPack core => Sys2Proof.Machine.execInsPack core s
  | .insCasr core => Sys2Proof.Machine.execInsCasr core s
  | .insClra core => Sys2Proof.Machine.execInsClra core s
  | .insLda core => Sys2Proof.Machine.execInsLda core s
  | .insMac core => Sys2Proof.Machine.execInsMac core s
  | .insMsu core => Sys2Proof.Machine.execInsMsu core s
  | .insMac2 core => Sys2Proof.Machine.execInsMac2 core s
  | .insCmpy core => Sys2Proof.Machine.execInsCmpy core s
  | .insCmac core => Sys2Proof.Machine.execInsCmac core s
  | .insCmacj core => Sys2Proof.Machine.execInsCmacj core s
  | .insCmsu core => Sys2Proof.Machine.execInsCmsu core s
  | .insMag2a core => Sys2Proof.Machine.execInsMag2a core s
  | .insAdda core => Sys2Proof.Machine.execInsAdda core s
  | .insSuba core => Sys2Proof.Machine.execInsSuba core s
  | .insSha core => Sys2Proof.Machine.execInsSha core s
  | .insExtr core => Sys2Proof.Machine.execInsExtr core s
  | .insExti core => Sys2Proof.Machine.execInsExti core s
  | .insCext core => Sys2Proof.Machine.execInsCext core s
  | .insMaxx core => Sys2Proof.Machine.execInsMaxx core s
  | .insMaxy core => Sys2Proof.Machine.execInsMaxy core s
  | .insMinx core => Sys2Proof.Machine.execInsMinx core s
  | .insMiny core => Sys2Proof.Machine.execInsMiny core s
  | .insJmp core => Sys2Proof.Machine.execInsJmp core s
  | .insCall core => Sys2Proof.Machine.execInsCall core s
  | .insRet core => Sys2Proof.Machine.execInsRet core s
  | .insReti core => Sys2Proof.Machine.execInsReti core s
  | .insDo core => Sys2Proof.Machine.execInsDo core s
  | .insDor core => Sys2Proof.Machine.execInsDor core s
  | .insWait core => Sys2Proof.Machine.execInsWait core s
  | .insStop core => Sys2Proof.Machine.execInsStop core s
  | .insLdi core => Sys2Proof.Machine.execInsLdi core s
  | .insStset core => Sys2Proof.Machine.execInsStset core s
  | .insStclr core => Sys2Proof.Machine.execInsStclr core s
  | .data8 unit value => Sys2Proof.Machine.execData8 unit value s
  | .data16 unit value => Sys2Proof.Machine.execData16 unit value s
  | .data32 unit value => Sys2Proof.Machine.execData32 unit value s
  | .preset unit number => Sys2Proof.Machine.execPreset unit number s
  | .restart unit => Sys2Proof.Machine.execRestart unit s
  | .crcStateWrite unit value => Sys2Proof.Machine.execCrcStateWrite unit value s
  | .uartCharReceived t unit start data parity stop half => Sys2Proof.Machine.execUartCharReceived t unit start data parity stop half s
  | .break_ t unit since => Sys2Proof.Machine.execBreak_ t unit since s
  | .lineStuck t unit since => Sys2Proof.Machine.execLineStuck t unit since s
  | .lineRecover t unit since => Sys2Proof.Machine.execLineRecover t unit since s
  | .rxDataRead unit => Sys2Proof.Machine.execRxDataRead unit s
  | .txData unit value => Sys2Proof.Machine.execTxData unit value s
  | .uartCharSent t unit rxIdle => Sys2Proof.Machine.execUartCharSent t unit rxIdle s
  | .txGapExpiry t unit => Sys2Proof.Machine.execTxGapExpiry t unit s
  | .deRelease t unit => Sys2Proof.Machine.execDeRelease t unit s
  | .idle t unit since => Sys2Proof.Machine.execIdle t unit since s
  | .abArm unit => Sys2Proof.Machine.execAbArm unit s
  | .abCancel unit => Sys2Proof.Machine.execAbCancel unit s
  | .abMeasureDone t unit edges => Sys2Proof.Machine.execAbMeasureDone t unit edges s
  | .rxResume unit => Sys2Proof.Machine.execRxResume unit s
  | .rxFlush unit => Sys2Proof.Machine.execRxFlush unit s
  | .txFlush unit => Sys2Proof.Machine.execTxFlush unit s
  | .sendBreak unit => Sys2Proof.Machine.execSendBreak unit s
  | .uartCfgAbort t unit => Sys2Proof.Machine.execUartCfgAbort t unit s
  | .linkUp t out lanes hopNs linkNs => Sys2Proof.Machine.execLinkUp t out lanes hopNs linkNs s
  | .linkDown t out lanes violations resends => Sys2Proof.Machine.execLinkDown t out lanes violations resends s
  | .retrainTimer t out => Sys2Proof.Machine.execRetrainTimer t out s
  | .ringMessageResend t => Sys2Proof.Machine.execRingMessageResend t s
  | .retrain => Sys2Proof.Machine.execRetrain s
  | .timeMarkSend t members => Sys2Proof.Machine.execTimeMarkSend t members s
  | .timeMarkReceive t mark => Sys2Proof.Machine.execTimeMarkReceive t mark s
  | .beaconSend t => Sys2Proof.Machine.execBeaconSend t s
  | .beaconReceive t beacon => Sys2Proof.Machine.execBeaconReceive t beacon s
  | .dsyncMessage t tr => Sys2Proof.Machine.execDsyncMessage t tr s
  | .orphanTimeout t => Sys2Proof.Machine.execOrphanTimeout t s
  | .ringOpen t => Sys2Proof.Machine.execRingOpen t s
  | .tokenClaim t token => Sys2Proof.Machine.execTokenClaim t token s
  | .tokenGrant t token => Sys2Proof.Machine.execTokenGrant t token s
  | .tokenRelease t token => Sys2Proof.Machine.execTokenRelease t token s
  | .preempt t token => Sys2Proof.Machine.execPreempt t token s
  | .ackReservation t token => Sys2Proof.Machine.execAckReservation t token s
  | .deepenFieldReceive t position field => Sys2Proof.Machine.execDeepenFieldReceive t position field s
  | .sclkFail t ppm noEdge => Sys2Proof.Machine.execSclkFail t ppm noEdge s
  | .sampleReturn good => Sys2Proof.Machine.execSampleReturn good s
  | .returnDone t => Sys2Proof.Machine.execReturnDone t s
  | .xinLoss straps bad => Sys2Proof.Machine.execXinLoss straps bad s
  | .aonFail => Sys2Proof.Machine.execAonFail s
  | .powerOnReset straps bad => Sys2Proof.Machine.execPowerOnReset straps bad s
  | .pinReset straps bad => Sys2Proof.Machine.execPinReset straps bad s
  | .warm bad => Sys2Proof.Machine.execWarm bad s
  | .chip straps bad => Sys2Proof.Machine.execChip straps bad s
  | .wdtKick value => Sys2Proof.Machine.execWdtKick value s
  | .wdtExpired t straps bad => Sys2Proof.Machine.execWdtExpired t straps bad s
  | .deepSleepWake t pin straps bad => Sys2Proof.Machine.execDeepSleepWake t pin straps bad s
  | .dramTrainingDone t result => Sys2Proof.Machine.execDramTrainingDone t result s
  | .scrubPass t errors => Sys2Proof.Machine.execScrubPass t errors s
  | .dramHot channel range => Sys2Proof.Machine.execDramHot channel range s
  | .bootImageVerify t readA readB => Sys2Proof.Machine.execBootImageVerify t readA readB s
  | .fwStart => Sys2Proof.Machine.execFwStart s
  | .bootHost => Sys2Proof.Machine.execBootHost s
  | .advance => Sys2Proof.Machine.execAdvance s
  | .attest => Sys2Proof.Machine.execAttest s
  | .attDone t => Sys2Proof.Machine.execAttDone t s
  | .attDataRead => Sys2Proof.Machine.execAttDataRead s
  | .unlockChallenge => Sys2Proof.Machine.execUnlockChallenge s
  | .tokenWrite value => Sys2Proof.Machine.execTokenWrite value s
  | .unlock => Sys2Proof.Machine.execUnlock s
  | .unlockVerifyDone t => Sys2Proof.Machine.execUnlockVerifyDone t s
  | .fuseLock key => Sys2Proof.Machine.execFuseLock key s
  | .recovery => Sys2Proof.Machine.execRecovery s
  | .flashProgram => Sys2Proof.Machine.execFlashProgram s
  | .flashErase => Sys2Proof.Machine.execFlashErase s
  | .flashDone t => Sys2Proof.Machine.execFlashDone t s
  | .flashDataRead => Sys2Proof.Machine.execFlashDataRead s
  | .flashDataWrite value => Sys2Proof.Machine.execFlashDataWrite value s
  | .autoFwRestart t => Sys2Proof.Machine.execAutoFwRestart t s
  | .keyWrite => Sys2Proof.Machine.execKeyWrite s
  | .keyClear => Sys2Proof.Machine.execKeyClear s
  | .mrmDataRead ecc => Sys2Proof.Machine.execMrmDataRead ecc s
  | .mrmDataWrite value => Sys2Proof.Machine.execMrmDataWrite value s
  | .heartbeat t frames => Sys2Proof.Machine.execHeartbeat t frames s
  | .mbDone t => Sys2Proof.Machine.execMbDone t s
  | .linkCoreStart t core => Sys2Proof.Machine.execLinkCoreStart t core s
  | .seifWindowRead addr => Sys2Proof.Machine.execSeifWindowRead addr s
  | .pllUnlock pll => Sys2Proof.Machine.execPllUnlock pll s
  | .enaLeadStart t port => Sys2Proof.Machine.execEnaLeadStart t port s
  | .enaLagExpiry t port => Sys2Proof.Machine.execEnaLagExpiry t port s
  | .txMarkEnd t port lane => Sys2Proof.Machine.execTxMarkEnd t port lane s
  | .dsyncRelease t => Sys2Proof.Machine.execDsyncRelease t s
  | .pcieLinkUp msi => Sys2Proof.Machine.execPcieLinkUp msi s

end Sys2Proof.Machine
end

