-- ==== Sys2Proof/Machine/Idle.lean ====
section
/-! DEFINITION. What the block does on an empty queue: the SPI target performs the words that wait in its write buffer (R37),
and SAMPLE_TIME advances by one tick (R7). DESIGN CHOICE: the spec has no row for a tick. -/
namespace Sys2Proof.Machine

/-- SAMPLE_TIME advances by one tick while the SAMPLE domain is clocked: not with SCLK_IN lost and no failover (R401), and
not in deep sleep (R297). -/
def State.tick (s : State) : State := if s.clk.stopped || s.asleep then s else { s with time := s.time + 1 }

/-- No command waits. -/
def State.idle (s : State) : Res := finish s.spiDrain.tick

end Sys2Proof.Machine
end

