-- ==== Sys2Proof/Safety.lean ====
section
/-! DEFINITION. What counts as a sound state of the block, and the words in which statements speak of what a command leaves
alone. -/
namespace Sys2Proof.Machine

/-- The timebase serves: LOCKED or HOLDOVER (R70). -/
def State.tbServes (s : State) : Prop := s.get Pg.MTB MTB.STATE = 2 ∨ s.get Pg.MTB MTB.STATE = 3

/-- The summaries have been followed: the copy of FAULT_SUMMARY against which FAULT_RISE and FAULT_FALL are judged is the live
one (R63), the interrupt sources taken into the vectors are the active ones (R61), and the time outside LOCKED and HOLDOVER
runs exactly while the timebase does not serve (R214). -/
def State.Followed (s : State) : Prop :=
  s.host.faults = s.faultSummary ∧ s.host.active = s.activeSources ∧ (s.lnk.outSince.isSome = true ↔ ¬ s.tbServes)

/-- The sparse tables that hold the registers (by BAR0 address), DRAM and the MRAM words are in canonical form. -/
def State.Canonical (s : State) : Prop :=
  Tab.wf resetWord s.regs = true ∧ Tab.wf (fun _ => (0 : Byte)) s.dram = true ∧ Tab.wf (fun _ => (0 : Word)) s.mrm.words = true

/-- The registers that follow every command: GLB.EVENTS (FAULT_RISE, FAULT_FALL) and HIF.VEC_PEND. -/
def follows (a : Nat) : Bool := decide (a = addrOf Pg.GLB CMN.EVENTS) || decide (a = addrOf Pg.HIF HIF.VEC_PEND.off)

/-- Between `s` and `t` no register has changed but those whose BAR0 address `touched` admits and those that follow every
command. -/
def State.RegsKept (touched : Nat → Prop) (s t : State) : Prop :=
  ∀ pg off, ¬ touched (addrOf pg off) → follows (addrOf pg off) = false → t.reg pg off = s.reg pg off

/-- The state with other registers, MSI messages and records of what has been followed; all else is that of `s`. -/
def State.refollowed (s : State) (regs : Tab Word) (msi : List Nat) (act flt total : Nat) (since : Option Nat) : State :=
  let host := { s.host with msiSent := msi, active := act, faults := flt }
  let lnk := { s.lnk with outTotal := total, outSince := since }
  { s with regs := regs, host := host, lnk := lnk }

/-- Between `s` and `t` nothing has changed but registers that `touched` admits, the registers that follow every command, and
the records of what has been followed: DRAM, every other memory, every queue, buffer and timer, and SAMPLE_TIME are equal. -/
def State.RegsOnly (touched : Nat → Prop) (s t : State) : Prop :=
  s.RegsKept touched t ∧ ∃ regs msi act flt total since, t = s.refollowed regs msi act flt total since

/-- Between `s` and `t` transmit synthesis has changed nothing but the starts of copies that runs are still to send (R76). -/
def State.CopiesMoved (s t : State) : Prop :=
  t.txs = { s.txs with lanes := t.txs.lanes } ∧ ∀ k, match Tab.get (fun _ => none) s.txs.lanes k with
    | some x => Tab.get (fun _ => none) t.txs.lanes k = some x ∨
        (x.phase = .between ∧ ∃ at_, Tab.get (fun _ => none) t.txs.lanes k = some { x with t0 := at_, due := at_ })
    | none => Tab.get (fun _ => none) t.txs.lanes k = none

/-- The BAR0 addresses of the listed registers, each as page and page offset. -/
def regsAt (l : List (Nat × Nat)) (a : Nat) : Prop := a ∈ l.map fun e => addrOf e.1 e.2

/-- The BAR0 addresses of the listed pages. -/
def onPages (pgs : List Nat) (a : Nat) : Prop := a / 4096 ∈ pgs

/-- Every byte of DRAM reads as before. -/
def State.DramKept (s t : State) : Prop := ∀ a, t.dramByte a = s.dramByte a

/-- DRAM reads as before outside the 16 bytes of the side-log record that Mirage writes next (R176). -/
def State.SideKept (s t : State) : Prop :=
  ∀ a, (∀ r, s.regionOf 9 = some r → a < s.regionBase r + 16 * (s.mir.sideCnt % s.sideCap) ∨
    s.regionBase r + 16 * (s.mir.sideCnt % s.sideCap) + 16 ≤ a) → t.dramByte a = s.dramByte a

/-- Nothing is on the lanes of port p and no class-0 frame waits for its t0, no message or wake train is in hand, and no trigger
watches port faults: what a port does when it leaves service then concerns the port alone. -/
def State.QuietPort (p : Nat) (s : State) : Prop :=
  s.portLanes p = [] ∧ Tab.get (fun _ => none) s.txs.c0Next p = none ∧ s.mac.trains = [] ∧ s.wad.queues = [] ∧ bitOf (s.get Pg.MIR MIR.TRIG_EN) 10 = 0

/-- Between `s` and `t` the echo taps of port p stand where an adaptation has left them (R89), unmoved while ECHO_FREEZE is 1 or the
canceller is off. -/
def State.TapsAdapted (p : Nat) (e : EchoResult) (s t : State) : Prop :=
  ∀ i, i < 256 → t.get (Pg.LPT p) (LPT.ECHO_TAP.nth i) =
    if s.flag (Pg.LPT p) LPT.ECHO_FREEZE = false ∧ s.flag (Pg.LPT p) LPT.ECHO_EN = true ∧ i < e.taps.length then
      (e.taps.getD i 0).toNat
    else s.get (Pg.LPT p) (LPT.ECHO_TAP.nth i)

/-- The BAR0 addresses of the echo taps of port p. -/
def echoTaps (p a : Nat) : Prop := ∃ i, i < 256 ∧ a = addrOf (Pg.LPT p) (LPT.ECHO_TAP.nth i).off

/-- Engine c is LIVE on a port that delivers samples, with no set of its page armed and no parking due: what ends its frame takes
it back to HUNT (R141). -/
def State.EngineFree (c : Nat) (s : State) : Prop :=
  s.isLive c = true ∧ s.portSamples (s.eget c ERG.PORT) = true ∧ s.flag (Pg.ERG (c / 4)) CFG.ARMED = false ∧ (s.eng c).parkDue = none

/-- A host access reaches a page: the YG256 answers, the page's power domain is on (R15), its clock runs (R40), and no SPI word
waits before it (R37). -/
def State.Reaches (pg : Nat) (s : State) : Prop :=
  s.unreachable = false ∧ s.pageOn pg = true ∧ s.clockStopped pg = false ∧ s.host.spiBuf = []

/-- The shadow table in canonical form: addresses strictly rising, and only RWS registers listed (R45). -/
def State.ShadowSound (s : State) : Prop :=
  Tab.rising 0 s.shadow = true ∧ ∀ e, e ∈ s.shadow → ∀ k code inst, pageIndex (e.1 / 4096) = some (k, code, inst) →
    accOf k (e.1 % 4096) = some .rws

/-- A counter of a page has advanced by one, wrapping at its width, unless FREEZE_CNT stops the page's counters (R44, R51). -/
def State.Counted (pg : Nat) (f : Fld) (s t : State) : Prop :=
  t.get pg f = if s.flag pg CTRL.FREEZE_CNT then s.get pg f else (s.get pg f + 1) % 2 ^ f.w

/-- A counter of a page has advanced by n in the same way. -/
def State.CountedBy (pg : Nat) (f : Fld) (n : Nat) (s t : State) : Prop :=
  t.get pg f = if s.flag pg CTRL.FREEZE_CNT then s.get pg f else (s.get pg f + n) % 2 ^ f.w

/-- A message is all that the transmit queues hold, it is in flight, its attempt `a` is the only one and has not started, no
other job waits, no port needs a transmit token, and no set of MAC, DWL or WAD is armed. -/
def State.OneAttempt (a : Attempt) (m : Msg) (s : State) : Prop :=
  s.mac.attempts = [a] ∧ a.started = false ∧ (∃ q, s.wad.queues = [(a.queue, q)] ∧ q.msgs = [m]) ∧ m.tag = a.tag ∧
    m.inFlight = true ∧ s.oas.ready = [] ∧ (∀ p, s.needToken p = false) ∧
    ∀ pg, pg ∈ [Pg.MAC, Pg.DWL, Pg.WAD] → s.flag pg CFG.ARMED = false

/-- A start of a message passes every check that comes before the sensing of its channel (R199, R202, R208). -/
def State.StartMay (p : Plan) (s : State) : Prop :=
  s.throttled p.cls = false ∧ s.portReady p.port = true ∧ s.deaf p = false ∧ s.chanReady p = true ∧ s.isOrphan = false

/-- A wake train for a message of queue n passes every check at the access point `tick` and has lane l (R202, R213, R218, R282,
R288). -/
def State.TrainMay (tick n l : Nat) (p : Plan) (s : State) : Prop :=
  s.trainDue p.dst (s.ep p.dst) tick = true ∧ s.StartMay p ∧ s.tokenMissing p = false ∧ s.ccaBusy p.port p.ch tick = false ∧
    s.trainDwell p (s.ep p.dst) (s.slotT0 p.port tick) = 0 ∧ s.dataLane p.port = some l ∧
    s.lineFits p.port tick (s.trainFrames p (s.ep p.dst) tick * s.energyOf p.port (s.get (Pg.TXS p.port) (TXS.LEVEL.nth p.ch))
      (airTicks (s.txRate p.port p.ch) (s.wakeSymbols p + 2))) = true ∧
    s.heldBack 1 = false ∧ s.fits (s.cost 0) = true ∧ s.isSleepy n p = true ∧ s.queueState n = 1

/-- Link firmware can send a payload of `bytes` to endpoint a: the transmit queues hold nothing, a slot of the pool is free, no dwell
profile is in force, the raw-frame queue is none of its own (R253), and the secured payload fits the endpoint's route (R258). -/
def State.LinkCanSend (a bytes : Nat) (s : State) : Prop :=
  a < 4096 ∧ s.wad.queues = [] ∧ 0 < s.poolFree ∧ (∀ j, j < 16 → s.profEn j = false) ∧ isLinkQueue (s.get Pg.MAC MAC.RAW_QUEUE) = false ∧
    routeBytes (s.ep a).route.length + bytes ≤ 232

/-- Link firmware has submitted one frame of a type and class to endpoint a through one of its own queues (R253). -/
def State.Sent (a ftype cls : Nat) (payload : List Byte) (t : State) : Prop :=
  ∃ n q m, t.wad.queues = [(n, q)] ∧ isLinkQueue n = true ∧ q.dst = a ∧ q.cls = cls ∧ q.msgs = [m] ∧ m.ftype = ftype ∧
    m.payload = payload

/-- Link firmware has put one event more into the event FIFO (R251). -/
def State.Told (kind addr code : Nat) (s t : State) : Prop :=
  ∃ w, t.lnk.events = s.lnk.events ++ [w] ∧ w.length = 8 ∧ (w.getD 0 0).toNat = kind + addr * 2 ^ 8 + code % 256 * 2 ^ 20

/-- Registers that a submission of link firmware or an event of its may change. -/
def linkRegs : List (Nat × Nat) := [(Pg.LNK, CMN.EVENTS), (Pg.WAD, CMN.EVENTS), (Pg.WAD, WAD.ACCEPTED_CNT.off)]

/-- The frame that link firmware works on next is f, and link firmware runs with room for an event. -/
def State.NextFrame (f : LnkFrame) (rest : List LnkFrame) (s : State) : Prop :=
  s.lnk.inbox = f :: rest ∧ s.fwRunning = true ∧ s.lnk.events.length < evtMax ∧ f.hdr.src < 4096

/-- Link firmware has a mailbox command in hand with this tag, result and response, to be published at MB_DONE (R250). -/
def State.Answers (tag : Byte) (result : Nat) (resp : List Nat) (t : State) : Prop :=
  t.lnk.mb = some ⟨tag.toNat, result, resp⟩ ∧ t.get Pg.LNK LNK.MB_TAG = tag.toNat

/-- A sequence of commands, each answering a next state, leads from `s` to `t`. -/
def State.AfterAll : List Instr → State → State → Prop
  | [], s, t => t = s
  | c :: l, s, t => ∃ u, exec c s = .next u ∧ State.AfterAll l u t

/-! ## Seif cores -/

/-- Core k runs with nothing in flight, no branch or loop in hand and no set of its page armed; at its PC stands the legal word w,
and the n words behind it are NOPs without moves. -/
def State.AtWord (k : Nat) (w : BitVec 64) (n : Nat) (s : State) : Prop :=
  s.seifRunning k = true ∧ s.flag (Pg.SEIF k) CFG.ARMED = false ∧ (s.core k).pipe = [] ∧ (s.core k).slotNext = false ∧
    (s.core k).target = none ∧ (s.core k).waitNext = false ∧ stBit (s.core k).st ST.LA0 = false ∧
    stBit (s.core k).st ST.LA1 = false ∧ (s.core k).pc < 4096 ∧ (s.core k).i (s.core k).pc = w ∧ seifIllegal w = false ∧
    ∀ j, 1 ≤ j → j ≤ n → (s.core k).i ((s.core k).pc + j) = 0

/-- The moves of a word transfer nothing and move no pointer: NONE, or UPDATE with form (Pn) (R356). -/
def stillMoves (w : BitVec 64) : Prop :=
  (moveKind (seifXMove w) = 0 ∨ (moveKind (seifXMove w) = 3 ∧ moveForm (seifXMove w) = 0)) ∧
    (moveKind (seifYMove w) = 0 ∨ (moveKind (seifYMove w) = 3 ∧ moveForm (seifYMove w) = 0))

/-- What the compute operation of word w makes of the registers of a core (R361 to R364). -/
def SeifCore.result (c : SeifCore) (w : BitVec 64) : SeifOut :=
  let an := 2 * seifAc w
  let ax := 2 * seifAx w
  let x := if moveKind (seifXMove w) = 0 then 0 else (c.reg (MR.P + movePtr (seifXMove w))).toNat
  let y := if moveKind (seifYMove w) = 0 then 0 else (c.reg (MR.P + (4 + movePtr (seifYMove w)))).toNat
  seifCompute (seifOp w) (stBit c.st ST.SAT) (c.reg (seifDa w)).toNat (c.reg (seifDb w)).toNat (c.half an).toInt
    (c.half (an + 1)).toInt (c.half ax).toInt (c.half (ax + 1)).toInt (seifImm7 w)
    (if seifOp w = 0x51 ∨ seifOp w = 0x53 then y else x)

/-- Of core k nothing has changed but its pipeline, its accumulators and registers that `r` names; no other core has changed. -/
def State.CoreKept (k : Nat) (r : Nat → Prop) (s t : State) : Prop :=
  (∃ regs acc pc pipe slotNext target waitNext, t.core k = { s.core k with
    r := regs, acc := acc, pc := pc, pipe := pipe, slotNext := slotNext, target := target, waitNext := waitNext }) ∧
    (∀ i, ¬ r i → (t.core k).reg i = (s.core k).reg i) ∧ ∀ j, j ≠ k → t.core j = s.core j

/-- Between `s` and `t` core k has carried out the compute operation of word w: where its condition holds, Dd, the halves of An, IX and
the ST bits of the operation take their results, a carry that the rules leave open being either; nothing else of the core but
its pipeline has changed. -/
def State.Computed (k : Nat) (w : BitVec 64) (s t : State) : Prop :=
  let c := s.core k
  let d := t.core k
  let o := if seifCondition (seifCond w) c.st then c.result w else SeifOut.none_
  (∀ r, r < 16 → d.reg r = match o.d with
    | some v => if r = seifDd w then BitVec.ofNat 32 v else c.reg r
    | none => c.reg r) ∧
  (∀ h, d.half h = match o.re, o.im with
    | some v, some u => if h = 2 * seifAc w then BitVec.ofNat 40 v else if h = 2 * seifAc w + 1 then BitVec.ofNat 40 u else c.half h
    | some v, none => if h = 2 * seifAc w then BitVec.ofNat 40 v else c.half h
    | none, some u => if h = 2 * seifAc w + 1 then BitVec.ofNat 40 u else c.half h
    | none, none => c.half h) ∧
  d.reg MR.IX = (match o.ix with
    | some v => BitVec.ofNat 32 (v % 2 ^ 14)
    | none => c.reg MR.IX) ∧
  (o.flagMask = 0 → d.st = c.st) ∧
  (o.flagMask ≠ 0 → ∃ carry, (carry = 0 ∨ (o.freeC = true ∧ carry = ST.C)) ∧ d.st = (c.mergeSt o.flagMask (o.flags + carry)).st) ∧
  s.CoreKept k (fun r => r < 16 ∨ r = MR.IX ∨ r = MR.ST) t

/-- Between `s` and `t` nothing has changed outside the cores but cycle counters and uses of free values. -/
def State.CoresOnly (k : Nat) (s t : State) : Prop :=
  State.RegsOnly (regsAt [(Pg.SEIF k, SEIF.CYCLE_CNT.off)]) { s with seif := t.seif, free := t.free } t

/-! ## Resets -/

/-- Between `s` and `t` a reset has taken effect (R406, R407, R418, R430), every word of the MRAM having read well: the straps and the
cause are shown, DRAM training and its boot stage have begun, a blown fuse has locked debugging (R432), keys stand as MRAM binds
them, registers that `keep` names stand as before but those of `cnt`, and everything else is as `State.reset` has it but the
MRAM, the boot flash, the fuse, and the model's own queue and counter of free values. -/
def State.BroughtUp (keep : Nat → Bool) (cnt : List (Nat × Nat)) (straps : BitVec 4) (cause : Nat) (s t : State) : Prop :=
  t.get Pg.RST RST.HOST_SEL = straps.toNat % 2 ∧ t.get Pg.RST RST.CAV_ROOT = straps.toNat / 2 % 2 ∧
  t.get Pg.RST RST.BOOT_SEL = straps.toNat / 4 ∧ t.get Pg.HIF HIF.LINK_HOST = straps.toNat % 2 ∧
  t.get Pg.CAV CAV.ROLE = straps.toNat / 2 % 2 ∧ t.get Pg.RST RST.LAST_CAUSE = cause ∧ t.get Pg.RST RST.BOOT_STAGE = 0x20 ∧
  t.get Pg.CLK CLK.SCLK_OK = 1 ∧ t.get Pg.CLK CLK.AON_OK = 1 ∧ (s.sec.blown = true → t.get Pg.SEC SEC.DEBUG_LEVEL = 2) ∧
  (∀ n, n < 2048 → ((s.mramWord (MR.BINDING + n)).toNat < 2 ^ 31 → t.keySlot n = { KeySlot.idle with
      txCtr := s.scanCounter [] (n + 2048), ctrHi := s.scanCounter [] n }) ∧
    (2 ^ 31 ≤ (s.mramWord (MR.BINDING + n)).toNat → t.keySlot n = { KeySlot.idle with
      addr := some ((s.mramWord (MR.BINDING + n)).toNat % 4096), key := s.mramKey (4 * n)
      txCtr := s.scanCounter [] (n + 2048), ctrHi := s.scanCounter [] n })) ∧
  ((s.mramWord MR.GRID_MARK).toNat ≠ 0 → t.key.grid.key = s.mramKey MR.GRID_KEY ∧ t.key.grid.txCtr = s.scanCounter [] 4096) ∧
  s.RegsKept (fun a => keep a = false ∨ regsAt cnt a) t ∧
  State.RegsOnly (fun a => keep a = true ∨ regsAt ([(Pg.RST, 0x100), (Pg.RST, 0x104), (Pg.RST, 0x108), (Pg.HIF, HIF.LINK_HOST.off),
      (Pg.CAV, CAV.ROLE.off), (Pg.SEC, SEC.DEBUG_LEVEL.off), (Pg.CLK, CLK.SCLK_OK.off)] ++
      (List.range 4).map fun n => (Pg.PWD1, (PWD1.STATE.nth (136 + n)).off)) a)
    { State.reset with free := s.free, mrm := s.mrm, key := t.key, pending := s.pending
                       sec := { State.reset.sec with flash := s.sec.flash, blown := s.sec.blown } } t

/-- Between `s` and `t` a warm reset has taken effect (R406), every word of the MRAM having read well: SAMPLE_TIME, DRAM and MRAM stand,
with the registers that `keepWarm` names; the cause is shown, WARM_CNT has counted, and boot goes on from the straps. -/
def State.WarmStarted (cause : Nat) (s t : State) : Prop :=
  t.time = s.time ∧ t.dram = s.dram ∧ t.mrm = s.mrm ∧ t.sec.flash = s.sec.flash ∧ t.get Pg.RST RST.LAST_CAUSE = cause ∧
  t.get Pg.RST RST.WARM_CNT = (s.get Pg.RST RST.WARM_CNT + 1) % 2 ^ 32 ∧ t.get Pg.CAV CAV.ROLE = s.get Pg.CAV CAV.ROLE ∧
  (s.get (Pg.DRC 0) DRC.CAPACITY_MIB = 0 → t.get Pg.RST RST.BOOT_STAGE = 0xF0) ∧
  (s.get (Pg.DRC 0) DRC.CAPACITY_MIB ≠ 0 → t.get Pg.RST RST.BOOT_STAGE = [0x30, 0x80, 0xE0, 0x30].getD (s.get Pg.RST RST.BOOT_SEL) 0) ∧
  t.shadow = s.shadow.filter (fun e => decide (Pg.DRC 0 ≤ e.1 / 4096) && decide (e.1 / 4096 ≤ Pg.DRC 3)) ∧
  t.wad.queues = [] ∧ t.lnk.eps = [] ∧ t.erg = State.reset.erg ∧ t.txs = State.reset.txs ∧ t.oas = State.reset.oas ∧
  t.mtb = State.reset.mtb ∧ t.sns = State.reset.sns ∧ t.seif = [] ∧ t.pending = s.pending ∧
  s.RegsKept (fun a => keepWarm a = false ∨ regsAt [(Pg.CAV, CAV.ROLE.off), (Pg.RST, RST.WARM_CNT.off)] a) t ∧
  State.RegsKept (fun a => keepWarm a = true ∨ regsAt ([(Pg.RST, 0x104), (Pg.RST, 0x108), (Pg.SEC, SEC.DEBUG_LEVEL.off),
      (Pg.MAC, MAC.REGIME.off), (Pg.MAC, CMN.EVENTS), (Pg.LNK, LNK.FW_STATE.off)] ++
      (List.range 4).map fun n => (Pg.PWD1, (PWD1.STATE.nth (136 + n)).off)) a) State.reset t

end Sys2Proof.Machine
end

