-- ==== Sys2Proof/Certificates/Slice0/Obligations.lean ====
section
/-! DEFINITION. The statements for the provers, from the numbered rules of spec/. The hypotheses of a statement about a command are
those under which the rules give the command its effect; its conclusion says that `exec` answers a next state, what that state
holds, and by `RegsOnly` (see Safety) that nothing else has changed. Each statement names the rules that it follows. -/

open Sys2Proof Sys2Proof.Machine

/-! ## Whole machine -/

/-- A step carries out the command at the front of the queue on the state with the rest of the queue (notes/assumptions/1.md, the
model's own rule of the queue). -/
def Obligations.StepRunsFrontCommand : Prop :=
  ∀ (c : Instr) (rest : List Instr) (s : State), s.pending = c :: rest → step s = exec c { s with pending := rest }

/-- On an empty queue, with no SPI word waiting, the block idles: SAMPLE_TIME advances by one tick while the SAMPLE domain is
clocked, and no register changes (notes/assumptions/1.md, the model's own choice). -/
def Obligations.EmptyQueueIdles : Prop :=
  ∀ s : State, s.pending = [] → s.host.spiBuf = [] →
    ∃ t, step s = .next t ∧
      ((s.clk.stopped = false ∧ s.asleep = false → t.time = s.time + 1) ∧ (s.clk.stopped = true ∨ s.asleep = true → t.time = s.time)) ∧
      State.RegsOnly (fun _ => False) { s with time := t.time } t

/-- Every step leaves the summaries followed: the copy of FAULT_SUMMARY against which rises and falls are judged is the live one
(R63), the interrupt sources taken into the vectors are the active ones (R61), and time outside LOCKED and HOLDOVER runs exactly
while the timebase does not serve (R214). -/
def Obligations.StepKeepsSummariesFollowed : Prop :=
  ∀ s s' : State, s.Followed → step s = .next s' → s'.Followed

/-- The state right after reset has its summaries followed, and its tables of registers and memory in canonical form. -/
def Obligations.ResetHasSummariesFollowed : Prop := State.reset.Followed ∧ State.reset.Canonical

/-! ## Host interface: PCIe endpoint and SPI target (R25 to R40) -/

/-- PCIe requests (R26, R28, R29): a read longer than one DW ends as an Unsupported Request; a write longer than one DW or with
byte enables other than 0xF is dropped whole and counted; D3hot is entered; the data link comes up with what the root complex has
written to the MSI capability, and a pending vector that becomes unmasked sends its message (R61); a link-down or hot reset resets the endpoint, discards every open push and keeps every open record. -/
def Obligations.PcieRequestsAndLink : Prop :=
  ∀ s : State, s.onPcie = true → s.unreachable = false →
    (∀ addr ndw, 1 < ndw → ∃ t, exec (.pcieLongRead addr ndw) s = .next t ∧ t.host.urCount = s.host.urCount + 1 ∧
      State.RegsOnly (fun _ => False) { s with host := { s.host with urCount := s.host.urCount + 1 } } t) ∧
    (∀ addr ndw be, 1 < ndw ∨ be ≠ 0xF → ∃ t, exec (.pcieBadWrite addr ndw be) s = .next t ∧
      t.get Pg.HIF HIF.EV_BAD_WR = 1 ∧ s.Counted Pg.HIF HIF.BAD_WR_CNT t ∧
      s.RegsOnly (regsAt [(Pg.HIF, CMN.EVENTS), (Pg.HIF, HIF.BAD_WR_CNT.off)]) t) ∧
    (∃ t, exec .pcieD3hotEntry s = .next t ∧
      State.RegsOnly (fun _ => False) { s with host := { s.host with d3hot := true } } t) ∧
    (∀ msi : MsiConfig, ∃ t, exec (.pcieLinkUp msi) s = .next t ∧ t.get Pg.HIF HIF.LINK_UP = 1 ∧
      t.get Pg.HIF HIF.LINK_MSI_EN = msi.enable.toNat ∧ t.get Pg.HIF HIF.LINK_MSI_LOG2 = Nat.min 5 msi.granted.toNat ∧
      (∀ v, v < 32 → bitOf (s.get Pg.HIF HIF.VEC_PEND) v = 1 → bitOf (s.get Pg.HIF HIF.VEC_MASK) v = 0 → msi.enable = true →
        bitOf msi.mask.toNat v = 0 → s.flag Pg.HIF HIF.LINK_MSI_EN = false ∨ bitOf s.host.msiMask v = 1 →
        msiData (Nat.min 5 msi.granted.toNat) v ∈ t.host.msiSent) ∧
      State.RegsOnly (regsAt [(Pg.HIF, HIF.LINK_UP.off)]) { s with host := { s.host with msiMask := msi.mask.toNat } } t) ∧
    (∀ cause, cause ≠ .d3Return → ∃ t, exec (.pcieLinkReset cause) s = .next t ∧ t.get Pg.HIF HIF.LINK_UP = 0 ∧
      t.get Pg.HIF HIF.LINK_MSI_EN = 0 ∧ t.host.d3hot = false ∧ t.host.msiMask = 0 ∧
      (∀ n, (t.window n).push = none ∧ (t.window n).pop = (s.window n).pop) ∧ t.wad = s.wad ∧ s.DramKept t ∧
      s.RegsKept (regsAt [(Pg.HIF, HIF.LINK_UP.off)]) t)

/-- SPI errors and flags (R33, R35, R36): an unknown opcode sets CMD_ERR, a read in progress without data sets RD_TIMEOUT and drives
0xE1, zeros, and 0xFF for every byte clocked after them, each sets SPI_ERR; STATUS returns the status byte and then clears the four flags; TARGET_RESET empties the write
buffer and clears them (R30).
An SPI read is served only after every write received before it (R37), and drives one or more wait bytes, the marker 0xA5 and the
four bytes of the word, low byte first, on either number of lines (R31, R33): GLB.SCRATCH reads back as written, whatever the pace of the write
buffer. -/
def Obligations.SpiStatusErrorsAndOrder : Prop :=
  (∀ s : State, s.spiOn = true → s.host.spiBuf = [] →
      (∀ op, op ∉ spiOpcodes → ∃ t, exec (.spiUnknownOpcode op 0) s = .next t ∧ t.host.cmdErr = true ∧
        t.get Pg.HIF HIF.EV_SPI_ERR = 1 ∧ s.Counted Pg.HIF HIF.SPI_ERR_CNT t ∧ t.host.spiOut = [] ∧
        s.RegsKept (regsAt [(Pg.HIF, CMN.EVENTS), (Pg.HIF, HIF.SPI_ERR_CNT.off)]) t ∧ s.DramKept t) ∧
      (∀ later, s.host.spiReading = true → ∃ t, exec (.rdTimeout later) s = .next t ∧ t.host.rdTimeout = true ∧
        t.host.spiOut = s.host.spiOut ++ ([0xE1, 0, 0, 0, 0] ++ List.replicate later 0xFF) ∧ t.get Pg.HIF HIF.EV_SPI_ERR = 1 ∧ s.Counted Pg.HIF HIF.SPI_ERR_CNT t ∧
        s.RegsKept (regsAt [(Pg.HIF, CMN.EVENTS), (Pg.HIF, HIF.SPI_ERR_CNT.off)]) t ∧ s.DramKept t) ∧
      (∃ t, exec .status s = .next t ∧ t.host.spiOut = [BitVec.ofNat 8 s.spiStatus] ∧ t.host.wrOvf = false ∧
        t.host.rdTimeout = false ∧ t.host.frameErr = false ∧ t.host.cmdErr = false ∧
        s.RegsKept (fun _ => False) t ∧ s.DramKept t) ∧
      (∃ t, exec .targetReset s = .next t ∧ t.host.spiBuf = [] ∧ t.host.wrOvf = false ∧ t.host.rdTimeout = false ∧
        t.host.frameErr = false ∧ t.host.cmdErr = false ∧ s.RegsKept (fun _ => False) t ∧ s.DramKept t)) ∧
  (∀ (s : State) (w : Word), s.spiOn = true → s.host.spiBuf = [] →
      (∃ t, exec (.write 0x10 [w] 0) s = .next t ∧ s.DramKept t ∧
        ∃ u n, exec (.read 0x10 1) t = .next u ∧ u.reg Pg.GLB 0x010 = w ∧ u.host.spiBuf = [] ∧
          u.host.spiOut = List.replicate (1 + n) 0x00 ++ [0xA5] ++ leBytes 4 w.toNat) ∧
      (∃ t, exec (.writeQuad 0x10 [w] 0) s = .next t ∧ s.DramKept t ∧
        ∃ u n, exec (.readQuad 0x10 1) t = .next u ∧ u.reg Pg.GLB 0x010 = w ∧ u.host.spiBuf = [] ∧
          u.host.spiOut = List.replicate (1 + n) 0x00 ++ [0xA5] ++ leBytes 4 w.toNat))

/-! ## Registers and the common frame (R9 to R13, R43 to R51) -/

/-- A register write acts under the access code of the field (R11) and the common frame (R43, R44, R50, R51): GLB.SCRATCH is
stored; ENABLE and FREEZE_CNT follow the written bit; a 1 written to EVENTS clears its bit and a 1 written to EVENT_FORCE sets
it; CNT_SNAP copies every live counter. Here for every page that has no reaction of its own to ENABLE.
The shadow state of a page (R45): an RWS write of legal values in CLEAN or DIRTY stores the value in shadow, leaves the active
register as it is and makes the page DIRTY; an RWS write while ARMED is refused SHADOW_LOCKED and stores nothing; a COMMIT while ARMED is
refused COMMIT_BUSY; a discard makes shadow equal active and the page CLEAN, and of an unarmed page changes nothing else; a COMMIT of a CLEAN page increments APPLY_CNT and
applies nothing. -/
def Obligations.CommonFrameAndShadowWrites : Prop :=
  (∀ (s : State) (page : Fin 512) (k : PageKind) (code inst : Nat), s.Reaches page.val →
      pageIndex page.val = some (k, code, inst) → page.val ≠ Pg.GLB →
      (s.Reaches Pg.GLB → ∀ v, ∃ t, exec (.registerWrite 0x10 v) s = .next t ∧ t.reg Pg.GLB 0x010 = v ∧
        s.RegsOnly (regsAt [(Pg.GLB, 0x010)]) t) ∧
      (k ∉ [.mtb, .lpt, .cav, .uart, .mir] → ∀ on : Bool, ∃ t, exec (.ctrlEnable page on) s = .next t ∧
        t.get page.val CTRL.ENABLE = on.toNat ∧ s.RegsOnly (regsAt [(page.val, CMN.CTRL)]) t) ∧
      (∀ on : Bool, ∃ t, exec (.freezeCnt page on) s = .next t ∧ t.get page.val CTRL.FREEZE_CNT = on.toNat ∧
        s.RegsOnly (regsAt [(page.val, CMN.CTRL)]) t) ∧
      (∀ mask, ∃ t, exec (.eventsClear page mask) s = .next t ∧ t.reg page.val CMN.EVENTS = s.reg page.val CMN.EVENTS &&& ~~~mask ∧
        s.RegsOnly (regsAt [(page.val, CMN.EVENTS)]) t) ∧
      (∀ mask, ∃ t, exec (.eventForce page mask) s = .next t ∧
        t.reg page.val CMN.EVENTS = s.reg page.val CMN.EVENTS ||| (mask &&& eventMask k) ∧
        s.RegsOnly (regsAt [(page.val, CMN.EVENTS)]) t) ∧
      (∃ t, exec (.cntSnap page) s = .next t ∧ State.RegsOnly (fun _ => False) { s with snap := t.snap } t ∧
        ∀ i, i < 63 → Tab.get (fun _ => 0) t.snap (addrOf page.val (0x300 + 4 * i)) = s.reg page.val (0x300 + 4 * i))) ∧
  (∀ (s : State) (page : Fin 512), s.Reaches page.val → (pageIndex page.val).isSome = true → page.val ≠ Pg.GLB →
      (∀ (off : BitVec 12) (v : Word) (k : PageKind) (code inst o : Nat), pageIndex page.val = some (k, code, inst) →
        o = off.toNat / 4 * 4 → accOf k o = some .rws → s.flag page.val CFG.ARMED = false → s.notHosts k inst o = false →
        wordVerdict k o (maskWord k o v) = none → ∃ t, exec (.rwsWrite page off v) s = .next t ∧
          t.shadowReg page.val o = maskWord k o v ∧ t.reg page.val o = s.reg page.val o ∧ t.get page.val CFG.PENDING = 1 ∧
          (∀ a, a ≠ addrOf page.val o → Tab.find? t.shadow a = Tab.find? s.shadow a) ∧
          State.RegsOnly (regsAt [(page.val, CMN.CFG_STATE)]) { s with shadow := t.shadow } t) ∧
      (∀ (off : BitVec 12) (v : Word) (k : PageKind) (code inst : Nat), pageIndex page.val = some (k, code, inst) →
        accOf k (off.toNat / 4 * 4) = some .rws → s.flag page.val CFG.ARMED = true →
        ∃ t, exec (.rwsWrite page off v) s = .next t ∧ t.get page.val CFG.CFG_ERR = 1 ∧
          t.get page.val CFG.ERR_CODE = ErrCode.SHADOW_LOCKED ∧ t.get page.val CMN.EV_CFG_REFUSED = 1 ∧
          s.RegsOnly (regsAt [(page.val, CMN.CFG_STATE), (page.val, CMN.ERR_DETAIL), (page.val, CMN.EVENTS)]) t) ∧
      (s.flag page.val CFG.ARMED = true → ∃ t, exec (.commitApply page) s = .next t ∧ t.get page.val CFG.CFG_ERR = 1 ∧
        t.get page.val CFG.ERR_CODE = ErrCode.COMMIT_BUSY ∧ t.get page.val CFG.ARMED = 1 ∧
        s.RegsOnly (regsAt [(page.val, CMN.CFG_STATE), (page.val, CMN.ERR_DETAIL), (page.val, CMN.EVENTS)]) t) ∧
      (s.flag page.val CFG.ARMED = false → s.flag page.val CFG.PENDING = false →
        ∃ t, exec (.commitApply page) s = .next t ∧
          t.get page.val CFG.APPLY_CNT = (s.get page.val CFG.APPLY_CNT + 1) % 16 ∧ t.get page.val CFG.PENDING = 0 ∧
          s.RegsOnly (regsAt [(page.val, CMN.CFG_STATE)]) t) ∧
      (∃ t, exec (.commitDiscard page) s = .next t ∧ t.get page.val CFG.ARMED = 0 ∧ t.get page.val CFG.PENDING = 0 ∧
        t.hasShadow page.val = false ∧
        (s.flag page.val CFG.ARMED = false → s.RegsKept (regsAt [(page.val, CMN.CFG_STATE)]) t ∧ s.DramKept t)))

/-- A new value reaches the active set by RWS write, COMMIT and safe point (R45): the write stores it in shadow and makes the page
DIRTY, the COMMIT of a consistent set arms the page, and at the safe point the value is active, TICK holds the low half of
SAMPLE_TIME, APPLY_CNT has advanced and COMMIT_APPLIED is set. Here on page NMAP, whose safe point is a phase-bin boundary and
whose set is never inconsistent.
The safe point of a page whose whole set applies at one instant (R20, R45): every shadow value becomes active, the page is CLEAN,
TICK holds the low half of SAMPLE_TIME, APPLY_CNT has advanced and COMMIT_APPLIED is set. The page's block
may do more, which is left to the statements about it: a check unit loads STATE with the new INIT (R369), dwell mismatches follow (R221),
a transmitter goes on. Timebase, governor, engines, transmit synthesis, descriptors and the parts of the sense chain take their sets
by rules of their own; SAFE_POINT completes for them as for every page.
SOFT_RESET (R44, R45): an armed commit is cancelled with its shadow kept, status, events and counters return to reset,
configuration stays, and no other page changes. The effect is stated for the pages whose block does no more than that (filter, trellis,
noise map, key store, DRAM, power, engine control, descriptors), none of them at a safe point of its own at that instant; SOFT_RESET
completes for every page. -/
def Obligations.CommitAndSoftReset : Prop :=
  (∀ (s : State) (v : Word) (tick : Nat), s.Reaches Pg.NMAP → s.flag Pg.NMAP CFG.ARMED = false → s.shadow = [] →
      accOf .nmap 0x010 = some .rws → wordVerdict .nmap 0x010 (maskWord .nmap 0x010 v) = none → s.binDue tick = true →
      ∃ t1, exec (.rwsWrite ⟨Pg.NMAP, by decide⟩ 0x010 v) s = .next t1 ∧
        t1.shadowReg Pg.NMAP 0x010 = maskWord .nmap 0x010 v ∧ t1.reg Pg.NMAP 0x010 = s.reg Pg.NMAP 0x010 ∧
        t1.get Pg.NMAP CFG.PENDING = 1 ∧
      ∃ t2, exec (.commitApply ⟨Pg.NMAP, by decide⟩) t1 = .next t2 ∧ t2.get Pg.NMAP CFG.ARMED = 1 ∧
        t2.get Pg.NMAP CFG.CFG_ERR = 0 ∧ t2.reg Pg.NMAP 0x010 = s.reg Pg.NMAP 0x010 ∧
      ∃ t3, exec (.safePoint tick ⟨Pg.NMAP, by decide⟩) t2 = .next t3 ∧ t3.reg Pg.NMAP 0x010 = maskWord .nmap 0x010 v ∧
        t3.get Pg.NMAP CFG.ARMED = 0 ∧ t3.get Pg.NMAP CFG.PENDING = 0 ∧ t3.get Pg.NMAP CFG.TICK = Nat.max s.time tick % 65536 ∧
        t3.get Pg.NMAP CFG.APPLY_CNT = (s.get Pg.NMAP CFG.APPLY_CNT + 1) % 16 ∧ t3.get Pg.NMAP CMN.EV_COMMIT_APPLIED = 1 ∧
        s.RegsKept (regsAt [(Pg.NMAP, 0x010), (Pg.NMAP, CMN.CFG_STATE), (Pg.NMAP, CMN.EVENTS)]) t3 ∧ s.DramKept t3) ∧
  (∀ (s : State) (page : Fin 512) (k : PageKind) (code inst tick : Nat), pageIndex page.val = some (k, code, inst) →
      s.pageOn page.val = true → s.clockStopped page.val = false → s.ShadowSound → s.flag page.val CFG.ARMED = true →
      (∃ t, exec (.safePoint tick page) s = .next t) ∧
      (s.isSafePoint page.val tick = true →
        k ∉ [.oas, .mtb, .erg, .txs, .sns, .dec, .exc, .loop, .mac, .dwl, .wqd, .crc, .uart] →
        ∃ t, exec (.safePoint tick page) s = .next t ∧ t.get page.val CFG.ARMED = 0 ∧ t.get page.val CFG.PENDING = 0 ∧
          t.get page.val CFG.TICK = Nat.max s.time tick % 65536 ∧
          t.get page.val CFG.APPLY_CNT = (s.get page.val CFG.APPLY_CNT + 1) % 16 ∧ t.get page.val CMN.EV_COMMIT_APPLIED = 1 ∧
          t.hasShadow page.val = false ∧ (∀ off, accOf k off = some .rws → off < 4096 → t.reg page.val off = s.shadowReg page.val off) ∧
          s.RegsKept (onPages [page.val]) t ∧ s.DramKept t) ∧
      (s.isSafePoint page.val tick = true → k = .crc → ∃ t, exec (.safePoint tick page) s = .next t ∧ t.get page.val CFG.ARMED = 0 ∧ t.hasShadow page.val = false ∧
        t.get page.val CFG.APPLY_CNT = (s.get page.val CFG.APPLY_CNT + 1) % 16 ∧
        (∀ off, accOf k off = some .rws → off < 4096 → t.reg page.val off = s.shadowReg page.val off) ∧
        t.get page.val CRC.STATE = s.sget page.val CRC.INIT ∧ s.RegsKept (onPages [page.val]) t ∧ s.DramKept t) ∧
      (s.isSafePoint page.val tick = true → k ∈ [.dwl, .uart] ∨
        (k = .mac ∧ s.sflag page.val MAC.FORCE_FALLBACK = s.flag page.val MAC.FORCE_FALLBACK) → ∃ t, exec (.safePoint tick page) s = .next t ∧ t.get page.val CFG.ARMED = 0 ∧ t.hasShadow page.val = false ∧
        t.get page.val CFG.APPLY_CNT = (s.get page.val CFG.APPLY_CNT + 1) % 16 ∧
        (∀ off, accOf k off = some .rws → off < 4096 → t.reg page.val off = s.shadowReg page.val off) ∧
        s.RegsKept (onPages [page.val]) t ∧ s.DramKept t)) ∧
  (∀ (s : State) (page : Fin 512) (k : PageKind) (code inst : Nat), s.Reaches page.val → pageIndex page.val = some (k, code, inst) →
      (∃ t, exec (.softReset page) s = .next t) ∧
      (k ∈ [.flt, .trl, .nmap, .key, .drc, .drw, .pwd0, .ergx, .pwd1, .wqd] →
      (k ∈ [.pwd0, .ergx, .nmap] → s.flag page.val CFG.ARMED = false) →
      ∃ t, exec (.softReset page) s = .next t ∧ t.get page.val CFG.ARMED = 0 ∧ t.shadow = s.shadow ∧
        t.reg page.val CMN.EVENTS = resetWord (addrOf page.val CMN.EVENTS) ∧
        (∀ off, off < 4096 → accOf k off = some .rws → t.reg page.val off = s.reg page.val off) ∧
        (∀ off, 0x300 ≤ off → off ≤ 0x3F8 → off % 4 = 0 → (fieldsAt k off).all (fun e => decide (e.1.acc = .ro)) = true →
          t.reg page.val off = resetWord (addrOf page.val off)) ∧
        s.RegsKept (onPages [page.val]) t ∧ s.DramKept t))

/-! ## Queue windows, DRAM window, vectors (R52 to R62) -/

/-- A push through a queue window (R52, R54): BIND sets the queue and discards an open push, which LAST_RESULT reports as
PUSH_ABORTED; PUSH_HDR0 opens a push on a bound window and reports NOT_BOUND on an unbound one; PUSH_HDR1 to PUSH_HDR3 set a
header word; PUSH_DATA appends a word; without an open push each is dropped and reports NO_OPEN_PUSH; PUSH_END with BYTES
outside the words appended reports COUNT_MISMATCH, closes the push and submits nothing.
A submission that Wadi accepts (R52, R53, R258, R259): PUSH_END on a window bound to queue q, with BYTES inside the words appended
and every check of R258 passed, closes the push, takes the next tag, reports ACCEPTED with it in LAST_RESULT, and the message
waits at the end of the queue with exactly the bytes pushed. -/
def Obligations.PushBuildsAndSubmits : Prop :=
  (∀ (s : State) (win : Fin 64), s.Reaches Pg.HIF →
      (∀ v : Word, ∃ t, exec (.bind win v) s = .next t ∧
        (t.window win.val).bindValid = decide (v.toNat / 2 ^ 31 = 1) ∧ (t.window win.val).bindQueue = v.toNat % 8192 ∧
        (t.window win.val).push = none ∧ (t.window win.val).pop = (s.window win.val).pop ∧
        (t.window win.val).lastResult = (if (s.window win.val).push.isSome then 0x304 else (s.window win.val).lastResult) ∧
        State.RegsOnly (fun _ => False) { s with host := { s.host with win := t.host.win } } t ∧
        ∀ n, n ≠ win.val → t.window n = s.window n) ∧
      (∀ v : Word, (s.window win.val).bindValid = true → ∃ t, exec (.pushHdr0 win v) s = .next t ∧
        (t.window win.val).push = some ⟨[v, 0, 0, 0], [], false⟩ ∧
        State.RegsOnly (fun _ => False) { s with host := { s.host with win := t.host.win } } t) ∧
      (∀ v : Word, (s.window win.val).bindValid = false → ∃ t, exec (.pushHdr0 win v) s = .next t ∧
        (t.window win.val).push = none ∧ (t.window win.val).lastResult = 0x301) ∧
      (∀ (v : Word) (i : Fin 3) p, (s.window win.val).push = some p → ∃ t, exec (.pushHdrWord win i v) s = .next t ∧
        (t.window win.val).push = some { p with hdr := p.hdr.set (i.val + 1) v } ∧
        State.RegsOnly (fun _ => False) { s with host := { s.host with win := t.host.win } } t) ∧
      (∀ (v : Word) p, (s.window win.val).push = some p → p.words.length < 16384 → ∃ t, exec (.pushData win v) s = .next t ∧
        (t.window win.val).push = some { p with words := p.words ++ [v] } ∧
        State.RegsOnly (fun _ => False) { s with host := { s.host with win := t.host.win } } t) ∧
      (∀ (v : Word) p, (s.window win.val).push = some p → 16384 ≤ p.words.length → ∃ t, exec (.pushData win v) s = .next t ∧
        (t.window win.val).push = some { p with tooLong := true }) ∧
      ((s.window win.val).push = none → ∀ (c : Instr) (v : Word) (i : Fin 3) (bytes : BitVec 17),
        c ∈ [.pushHdrWord win i v, .pushData win v, .pushEnd win bytes] → ∃ t, exec c s = .next t ∧
        t.window win.val = { s.window win.val with lastResult := 0x302 } ∧ (∀ n, n ≠ win.val → t.window n = s.window n) ∧
        State.RegsOnly (fun _ => False) { s with host := { s.host with win := t.host.win } } t) ∧
      (∀ (bytes : BitVec 17) p, (s.window win.val).push = some p → p.tooLong = false → bytes ≠ 0 →
        (bytes.toNat ≤ 4 * (p.words.length - 1) ∨ 4 * p.words.length < bytes.toNat) → ∃ t, exec (.pushEnd win bytes) s = .next t ∧
        (t.window win.val).push = none ∧ (t.window win.val).lastResult = 0x303 ∧ t.wad = s.wad)) ∧
  (∀ (s : State) (win : Fin 64) (bytes : BitVec 17) (p : OpenPush) (u : State) (n tag : Nat) (payload : List Byte),
      s.Reaches Pg.HIF → (s.window win.val).push = some p → p.tooLong = false → bytes ≠ 0 →
      4 * (p.words.length - 1) < bytes.toNat → bytes.toNat ≤ 4 * p.words.length →
      n = (s.window win.val).bindQueue → tag = nextTagFrom ((s.queue n).msgs.map (·.tag)) 65536 s.wad.nextTag →
      payload = (p.words.flatMap fun v => leBytes 4 v.toNat).take bytes.toNat →
      u = { s.setWindow win.val { s.window win.val with push := none } with
            wad := { s.wad with nextTag := (tag + 1) % 65536, nextOrd := s.wad.nextOrd + 1 } } →
      u.submitCheck n (newMsg tag p.hdr payload 0 s.wad.nextOrd s.time none) payload.length false = none →
      ∃ t m, exec (.pushEnd win bytes) s = .next t ∧ (t.window win.val).push = none ∧
        (t.window win.val).lastResult = lastResultWord 1 0 tag ∧ (t.queue n).msgs = (s.queue n).msgs ++ [m] ∧
        m.tag = tag ∧ m.payload = payload ∧ m.hdr = p.hdr ∧ m.ftype = 0 ∧ m.inFlight = false ∧ m.attempts = 0 ∧ s.DramKept t)

/-- A pop through a queue window (R55): POP_HDR0 opens the oldest record of the ring and returns its first header word, or 0 for an
empty ring; POP_DATA returns the next payload word and then 0 with POP_PAST_END; REWIND starts again at the first payload word;
RELEASE frees the open record; without an open record RELEASE and REWIND report NO_OPEN_POP. -/
def Obligations.PopReadsAndFreesRecords : Prop :=
  ∀ (s : State) (win : Fin 64), s.Reaches Pg.HIF →
    (∀ r rs, (s.window win.val).pop = none → (s.ring win.val).recs = r :: rs → ∃ t, exec (.popHdr0 win) s = .next t ∧
      t.host.rdata = r.hdr.getD 0 0 ∧ (t.window win.val).pop = some (r, 0) ∧ t.wad = s.wad ∧ s.RegsKept (fun _ => False) t) ∧
    ((s.window win.val).pop = none → (s.ring win.val).recs = [] → ∃ t, exec (.popHdr0 win) s = .next t ∧ t.host.rdata = 0 ∧
      State.RegsOnly (fun _ => False) { s with host := { s.host with rdata := 0 } } t) ∧
    (∀ r i, (s.window win.val).pop = some (r, i) → 4 * i < r.payload.length → ∃ t, exec (.popData win) s = .next t ∧
      t.host.rdata = BitVec.ofNat 32 (leNat ((r.payload.drop (4 * i)).take 4)) ∧ (t.window win.val).pop = some (r, i + 1) ∧
      t.wad = s.wad ∧ s.RegsKept (fun _ => False) t) ∧
    (∀ r i, (s.window win.val).pop = some (r, i) → r.payload.length ≤ 4 * i → ∃ t, exec (.popData win) s = .next t ∧
      t.host.rdata = 0 ∧ (t.window win.val).lastResult = 0x306 ∧ (t.window win.val).pop = some (r, i)) ∧
    (∀ r i, (s.window win.val).pop = some (r, i) → ∃ t, exec (.rewind win) s = .next t ∧ (t.window win.val).pop = some (r, 0) ∧
      t.wad = s.wad ∧ s.RegsKept (fun _ => False) t) ∧
    (∀ r i, (s.window win.val).pop = some (r, i) → ∃ t, exec (.release win) s = .next t ∧ (t.window win.val).pop = none ∧
      (t.ring win.val).recs = (s.ring win.val).recs.tail ∧ (∀ n, n ≠ win.val → t.ring n = s.ring n) ∧
      t.wad.queues = s.wad.queues ∧ s.RegsKept (fun _ => False) t) ∧
    ((s.window win.val).pop = none → (∃ t, exec (.release win) s = .next t ∧ (t.window win.val).lastResult = 0x305 ∧ t.wad = s.wad) ∧
      ∃ t, exec (.rewind win) s = .next t ∧ (t.window win.val).lastResult = 0x305 ∧ t.wad = s.wad)

/-- The DRAM word window (R57, R58): ADDR_LO, ADDR_HI and MODE are set and empty the prefetch; a write that is not refused stores
its four bytes, low byte first, at the address and leaves every other byte of DRAM alone; a refused write stores nothing and
is counted; a read returns the word at the address; with INC either advances the address by 4. -/
def Obligations.DrwReadsAndWritesDram : Prop :=
  ∀ s : State, s.Reaches Pg.DRW →
    (∀ v : Word, ∃ t, exec (.drwAddrWrite false v) s = .next t ∧ t.get Pg.DRW DRW.ADDR_LO = v.toNat / 4 ∧
      t.host.preWords = [] ∧ s.RegsKept (regsAt [(Pg.DRW, DRW.ADDR_LO.off)]) t ∧ s.DramKept t) ∧
    (∀ v : Word, ∃ t, exec (.drwAddrWrite true v) s = .next t ∧ t.get Pg.DRW DRW.ADDR_HI = v.toNat % 32 ∧
      t.host.preWords = [] ∧ s.RegsKept (regsAt [(Pg.DRW, DRW.ADDR_HI.off)]) t ∧ s.DramKept t) ∧
    (∀ v : Word, ∃ t, exec (.drwModeWrite v) s = .next t ∧ t.get Pg.DRW DRW.MODE = v.toNat % 2 ∧
      t.host.preWords = [] ∧ s.RegsKept (regsAt [(Pg.DRW, DRW.MODE.off)]) t ∧ s.DramKept t) ∧
    (∀ v : Word, s.drwRefused s.drwAddr = false → ∃ t, exec (.drwDataWrite v) s = .next t ∧
      (∀ a, t.dramByte a = if s.drwAddr ≤ a ∧ a < s.drwAddr + 4 then (leBytes 4 v.toNat).getD (a - s.drwAddr) 0 else s.dramByte a) ∧
      t.drwAddr = (if s.flag Pg.DRW DRW.MODE then (s.drwAddr + 4) % 2 ^ 37 else s.drwAddr) ∧ t.host.preWords = [] ∧
      s.RegsKept (regsAt [(Pg.DRW, DRW.ADDR_LO.off), (Pg.DRW, DRW.ADDR_HI.off)]) t) ∧
    (∀ v : Word, s.drwRefused s.drwAddr = true → ∃ t, exec (.drwDataWrite v) s = .next t ∧ s.DramKept t ∧
      t.get Pg.DRW DRW.EV_WR_REFUSED = 1 ∧ s.Counted Pg.DRW DRW.WR_REFUSED_CNT t) ∧
    (s.host.preWords = [] → s.drwAddr < s.dramCapacity → s.checkBits s.drwAddr = false → ∃ t, exec (.drwDataRead .clean) s = .next t ∧
      t.host.rdata = s.dramWord s.drwAddr ∧
      t.drwAddr = (if s.flag Pg.DRW DRW.MODE then (s.drwAddr + 4) % 2 ^ 37 else s.drwAddr) ∧ s.DramKept t ∧
      s.RegsKept (regsAt [(Pg.DRW, DRW.ADDR_LO.off), (Pg.DRW, DRW.ADDR_HI.off)]) t)

/-- Vectors and abandoned handshakes (R40, R61, R270): VEC_ACK clears the pending bits written while no source is active; VEC_MASK
takes the written word; a record older than INT_HOLD_US makes its ring active; a handshake not finished in 2 µs is counted,
and a read then returns all ones. -/
def Obligations.VectorsAndAbandonedAccesses : Prop :=
  ∀ s : State,
    (s.Reaches Pg.HIF → s.Followed → s.activeSources = 0 → ∀ v : Word, ∃ t, exec (.vecAck v) s = .next t ∧
      t.get Pg.HIF HIF.VEC_PEND = s.get Pg.HIF HIF.VEC_PEND &&& (0xFFFFFFFF ^^^ v.toNat) ∧ s.RegsOnly (fun _ => False) t) ∧
    (s.Reaches Pg.HIF → ∀ v : Word, ∃ t, exec (.vecMaskWrite v) s = .next t ∧ t.get Pg.HIF HIF.VEC_MASK = v.toNat ∧
      s.RegsOnly (regsAt [(Pg.HIF, HIF.VEC_MASK.off)]) t) ∧
    (s.unreachable = false → ∃ t, exec (.xingTimeout true) s = .next t ∧ t.host.rdata = 0xFFFFFFFF ∧
      t.get Pg.HIF HIF.EV_XING_TIMEOUT = 1 ∧ s.Counted Pg.HIF HIF.XING_TO_CNT t ∧
      s.RegsKept (regsAt [(Pg.HIF, CMN.EVENTS), (Pg.HIF, HIF.XING_TO_CNT.off)]) t ∧ s.DramKept t) ∧
    (∀ (tick : Nat) (ring : Fin 64) (r : Rec), r ∈ (s.ring ring.val).recs → s.get Pg.WAD (WAD.INT_HOLD_US.nth ring.val) ≠ 0 →
      usTicks (s.get Pg.WAD (WAD.INT_HOLD_US.nth ring.val)) ≤ tick - r.at_ → ∃ t, exec (.ringHoldExpiry tick ring) s = .next t ∧
      t.ringActive ring.val = true ∧ (t.ring ring.val).recs = (s.ring ring.val).recs ∧ s.RegsKept (fun _ => False) t ∧ s.DramKept t)

/-! ## Mains timebase (R64 to R79) -/

/-- Judging a crossing of the one source in use that fell at tick `c` (R69, R70, R71): the first crossing after a restart is a
reference only; one outside 14.5 to 23.0 ms is counted invalid; the first valid one of an acquisition puts the clock, at the instant
of the crossing, at the source's offset, sets its frequency to the reciprocal of the measured period, within the lock range of R72,
and sets PHASE_STEP; a second successive cycle within LOCK_THRESH locks. Runs that are still to send copies follow the clock (R76).
Relock from HOLDOVER (R70, R71): two successive valid crossings whose errors differ by at most REJECT_THRESH lock the timebase;
a clock more than 8,192 counts behind jumps forward onto the reference, one more than 8,192 counts ahead is held still until
the reference has caught up, and either is counted as a step. -/
def Obligations.CrossingsLockAndRelock : Prop :=
  (∀ (s : State) (tick c : Nat) (src : Fin 3), s.tbSlave = false → s.tbSources = [src.val] → s.crossingDue tick src.val = some c →
      s.time ≤ tick →
      (s.tb ≠ TB.OFF → (s.tbSrc src.val).last = none → ∃ t, exec (.zeroCrossing tick src) s = .next t ∧
        (t.tbSrc src.val).last = some c ∧ t.phiAt tick = s.phiAt tick ∧ s.CopiesMoved t ∧
        State.RegsOnly (fun _ => False) { s.atTick tick with mtb := t.mtb, txs := t.txs } t) ∧
      (∀ last, (s.tbSrc src.val).last = some last → s.mtb.cyc = [] →
        (s.tb = TB.ACQUIRE ∨ s.tb = TB.HOLDOVER ∨ s.tb = TB.NOMINAL) → c - last < 29696 ∨ 47104 < c - last →
        ∃ t, exec (.zeroCrossing tick src) s = .next t ∧ s.Counted Pg.MTB MTB.INVALID_CNT t ∧ t.tb = s.tb ∧
          t.get Pg.MTB MTB.SRC_VALID = 0 ∧ (t.tbSrc src.val).last = some c ∧ t.phiAt tick = s.phiAt tick ∧ s.CopiesMoved t ∧
          State.RegsOnly (regsAt [(Pg.MTB, MTB.INVALID_CNT.off), (Pg.MTB, MTB.SRC_VALID.off)])
            { s.atTick tick with mtb := t.mtb, txs := t.txs } t) ∧
      (∀ last, (s.tbSrc src.val).last = some last → s.mtb.cyc = [] → 29696 ≤ c - last → c - last ≤ 47104 →
        (s.tb = TB.NOMINAL ∨ (s.tb = TB.ACQUIRE ∧ s.mtb.firstValid = none) → ∃ t, exec (.zeroCrossing tick src) s = .next t ∧
          t.tb = TB.ACQUIRE ∧ t.get Pg.MTB MTB.FREQ = lockRange ((phiCycle / (c - last) : Nat) : Int) ∧
          (s.mtb.anchor ≤ c → s.phiAt tick = s.phiAt c + (tick - c) * s.get Pg.MTB MTB.FREQ →
            t.phiAt tick % phiCycle = (s.srcOffset src.val * phiCount + s.phiAt c % phiCount + (tick - c) * t.get Pg.MTB MTB.FREQ) % phiCycle) ∧
          t.get Pg.MTB MTB.EV_PHASE_STEP = 1 ∧ t.get Pg.MTB MTB.SRC_VALID = 2 ^ src.val ∧ t.mtb.firstValid = some c ∧ s.CopiesMoved t ∧
          State.RegsOnly (regsAt [(Pg.MTB, MTB.STATE.off), (Pg.MTB, MTB.FREQ.off), (Pg.MTB, MTB.PHASE_ERR.off), (Pg.MTB, CMN.EVENTS)])
            { s.atTick tick with mtb := t.mtb, txs := t.txs } t) ∧
        (s.tb = TB.ACQUIRE → s.mtb.firstValid ≠ none → 1 ≤ s.mtb.okRun →
          (s.crossErr c src.val).natAbs ≤ s.get Pg.MTB MTB.LOCK_THRESH → ∃ t, exec (.zeroCrossing tick src) s = .next t ∧
          t.tb = TB.LOCKED ∧ t.get Pg.MTB MTB.EV_LOCKED = 1 ∧ t.get Pg.MTB MTB.SRC_VALID = 2 ^ src.val ∧
          t.getInt Pg.MTB MTB.PHASE_ERR = s.crossErr c src.val ∧ t.phiAt tick = s.phiAt tick ∧
          45 * 65536 ≤ t.get Pg.MTB MTB.FREQ ∧ t.get Pg.MTB MTB.FREQ ≤ 65 * 65536 ∧ s.CopiesMoved t ∧
          State.RegsOnly (regsAt [(Pg.MTB, MTB.STATE.off), (Pg.MTB, MTB.FREQ.off), (Pg.MTB, MTB.PHASE_ERR.off), (Pg.MTB, CMN.EVENTS)])
            { s.atTick tick with mtb := t.mtb, txs := t.txs } t))) ∧
  (∀ (s : State) (tick c last : Nat) (src : Fin 3) (e0 : Int), s.tbSlave = false → s.tbSources = [src.val] → s.tb = TB.HOLDOVER →
      s.crossingDue tick src.val = some c → s.time ≤ tick →
      (s.tbSrc src.val).last = some last → s.mtb.cyc = [] → 29696 ≤ c - last → c - last ≤ 47104 → s.mtb.holdErr = some e0 →
      (wrapErr (s.crossErr c src.val - e0)).natAbs ≤ s.get Pg.MTB MTB.REJECT_THRESH →
      ∃ t, exec (.zeroCrossing tick src) s = .next t ∧ t.tb = TB.LOCKED ∧ t.get Pg.MTB MTB.EV_LOCKED = 1 ∧
        t.get Pg.MTB MTB.FREQ = s.get Pg.MTB MTB.FREQ ∧ t.get Pg.MTB MTB.CYCLE = s.get Pg.MTB MTB.CYCLE ∧
        ((s.crossErr c src.val).natAbs ≤ 8192 → t.phiAt tick = s.phiAt tick ∧ t.reg Pg.MTB MTB.STEP_CNT.off = s.reg Pg.MTB MTB.STEP_CNT.off) ∧
        (s.crossErr c src.val < -8192 → t.get Pg.MTB MTB.EV_PHASE_STEP = 1 ∧ s.Counted Pg.MTB MTB.STEP_CNT t ∧
          (s.mtb.anchor ≤ c → s.phiAt tick = s.phiAt c + (tick - c) * s.get Pg.MTB MTB.FREQ →
            t.phiAt tick % phiCycle = (s.srcOffset src.val * phiCount + s.phiAt c % phiCount + (tick - c) * s.get Pg.MTB MTB.FREQ) % phiCycle)) ∧
        (8192 < s.crossErr c src.val → t.get Pg.MTB MTB.EV_PHASE_STEP = 1 ∧ s.Counted Pg.MTB MTB.STEP_CNT t ∧
          ∀ later, tick ≤ later → later ≤ tick + (s.crossErr c src.val).natAbs * phiCount / Nat.max 1 (s.get Pg.MTB MTB.FREQ) →
            t.phiAt later = s.phiAt tick) ∧
        s.CopiesMoved t ∧
        State.RegsOnly (regsAt [(Pg.MTB, MTB.STATE.off), (Pg.MTB, MTB.STEP_CNT.off), (Pg.MTB, CMN.EVENTS)])
          { s.atTick tick with mtb := t.mtb, txs := t.txs } t)

/-- Losing the reference (R70): 1.5 held periods without a valid crossing move LOCKED to HOLDOVER at the mean frequency of the last
valid cycles; HOLDOVER held for HOLDOVER_MS moves to NOMINAL, phase-continuously; 8 cycles in ACQUIRE without lock restart the
acquisition at the nominal frequency. -/
def Obligations.ReferenceLossAndRestart : Prop :=
  ∀ (s : State) (tick : Nat),
    (s.tb = TB.LOCKED → s.tbSlave = false → s.mtb.periods ≠ [] → 3 * s.heldPeriod ≤ 2 * (tick - s.mtb.lastValid) →
      ∃ t, exec (.referenceLoss tick) s = .next t ∧ t.tb = TB.HOLDOVER ∧ t.get Pg.MTB MTB.HOLD_MS = 0 ∧ t.mtb.holdStart = tick ∧
        t.phiAt tick = s.phiAt tick ∧
        t.get Pg.MTB MTB.FREQ = phiCycle * s.mtb.periods.length / Nat.max 1 (s.mtb.periods.foldl (· + ·) 0) % 2 ^ 32 ∧
        t.get Pg.MTB MTB.EV_HOLDOVER_ENTER = 1 ∧ t.get Pg.MTB MTB.EV_NO_SOURCE = 1 ∧ t.get Pg.MTB MTB.SRC_VALID = 0 ∧
        s.Counted Pg.MTB MTB.HOLDOVER_CNT t ∧ s.CopiesMoved t ∧
        State.RegsOnly (regsAt [(Pg.MTB, MTB.STATE.off), (Pg.MTB, MTB.FREQ.off), (Pg.MTB, MTB.HOLDOVER_CNT.off), (Pg.MTB, CMN.EVENTS)])
          { s.atTick tick with mtb := t.mtb, txs := t.txs } t) ∧
    (s.tb = TB.HOLDOVER → msTicks (s.get Pg.MTB MTB.HOLDOVER_MS) ≤ tick - s.mtb.holdStart →
      ∃ t, exec (.nominalEnter tick) s = .next t ∧ t.tb = TB.NOMINAL ∧ t.get Pg.MTB MTB.FREQ = s.tbNominal ∧
        t.phiAt tick = s.phiAt tick ∧ t.get Pg.MTB MTB.EV_NOMINAL_ENTER = 1 ∧ s.CopiesMoved t ∧
        State.RegsOnly (regsAt [(Pg.MTB, MTB.STATE.off), (Pg.MTB, MTB.FREQ.off), (Pg.MTB, CMN.EVENTS)])
          { s.atTick tick with mtb := t.mtb, txs := t.txs } t) ∧
    (s.tb = TB.ACQUIRE → s.mtb.firstValid ≠ none → 8 ≤ s.mtb.cyclesSince → ∃ t, exec (.acqRestart tick) s = .next t ∧
      t.tb = TB.ACQUIRE ∧ t.get Pg.MTB MTB.FREQ = s.tbNominal ∧ t.mtb.firstValid = none ∧ t.phiAt tick = s.phiAt tick ∧
      s.Counted Pg.MTB MTB.ACQ_RESTART_CNT t ∧ s.CopiesMoved t ∧
      State.RegsOnly (regsAt [(Pg.MTB, MTB.FREQ.off), (Pg.MTB, MTB.ACQ_RESTART_CNT.off)])
        { s.atTick tick with mtb := t.mtb, txs := t.txs } t)

/-- The MZC pins (R68): a level shorter than MZC_GLITCH is ignored and counted; the end of a long enough level of the edge that
MZC_EDGE selects gives a crossing at the edge that began it, less MZC_DELAY. A ZERO_CROSSING of the pin within such a level is
that crossing.
A phase wrap (R65, R78): the cycle count increments modulo 2 to the 32, the clock goes on from what exceeds one cycle, and the
16-byte record of the cycle's start is stored at LOG_HEAD of the timebase-log region, which advances modulo 131,072; no other
byte of DRAM changes. In OFF (R74) no record enters and the count stays. -/
def Obligations.MzcFilterAndPhaseWrap : Prop :=
  (∀ (s : State) (tick : Nat) (pin : Fin 3) (p : MzcPin) (high : Bool), p = Tab.get (fun _ => MzcPin.idle) s.mtb.mzc pin.val →
      p.raw ≠ high → p.raw ≠ p.level →
      (tick - p.since < s.get Pg.MTB MTB.MZC_GLITCH → ∃ t, exec (.mzcEdge tick pin high) s = .next t ∧
        s.Counted Pg.MTB MTB.GLITCH_CNT t ∧ Tab.get (fun _ => MzcPin.idle) t.mtb.mzc pin.val = ⟨p.level, high, tick⟩ ∧
        t.mtb.src = s.mtb.src ∧ State.RegsOnly (regsAt [(Pg.MTB, MTB.GLITCH_CNT.off)]) { s.atTick tick with mtb := t.mtb } t) ∧
      (s.get Pg.MTB MTB.MZC_GLITCH ≤ tick - p.since → p.raw = !s.flag Pg.MTB MTB.MZC_EDGE → s.get Pg.MTB MTB.MODE = 2 →
        s.tb ≠ TB.OFF → s.tbSlave = false → pin.val ∈ s.tbSources → (s.tbSrc pin.val).last = none →
        ∃ t, exec (.mzcEdge tick pin high) s = .next t ∧ (t.tbSrc pin.val).last = some (p.since - s.get Pg.MTB MTB.MZC_DELAY) ∧
          Tab.get (fun _ => MzcPin.idle) t.mtb.mzc pin.val = ⟨p.raw, high, tick⟩ ∧ s.CopiesMoved t ∧
          State.RegsOnly (fun _ => False) { s.atTick tick with mtb := t.mtb, txs := t.txs } t) ∧
      (s.get Pg.MTB MTB.MZC_GLITCH ≤ tick - p.since → p.raw = !s.flag Pg.MTB MTB.MZC_EDGE → s.get Pg.MTB MTB.MODE = 2 →
        s.tb ≠ TB.OFF → s.tbSlave = false → pin.val ∈ s.tbSources → (s.tbSrc pin.val).last = none →
        ∃ t, exec (.zeroCrossing tick pin) s = .next t ∧ (t.tbSrc pin.val).last = some (p.since - s.get Pg.MTB MTB.MZC_DELAY) ∧
          Tab.get (fun _ => MzcPin.idle) t.mtb.mzc pin.val = ⟨p.raw, p.raw, p.since⟩ ∧ s.CopiesMoved t ∧
          State.RegsOnly (fun _ => False) { s.atTick tick with mtb := t.mtb, txs := t.txs } t)) ∧
  (∀ (s : State) (tick : Nat),
      (∀ r, s.tb ≠ TB.OFF → phiCycle ≤ s.phiAt tick → s.regionOf regionTimebaseLog = some r → ∃ t, exec (.phaseWrap tick) s = .next t ∧
        t.get Pg.MTB MTB.CYCLE = (s.get Pg.MTB MTB.CYCLE + 1) % 2 ^ 32 ∧ t.phiAt tick + phiCycle = s.phiAt tick ∧
        t.get Pg.MTB MTB.LOG_HEAD = (s.get Pg.MTB MTB.LOG_HEAD + 1) % 131072 ∧
        (∀ i, i < 16 → t.dramByte (s.regionBase r + 16 * s.get Pg.MTB MTB.LOG_HEAD + i) =
          (leBytes 8 tick ++ leBytes 4 (t.get Pg.MTB MTB.CYCLE) ++ leBytes 1 s.tb ++ leBytes 3 0).getD i 0) ∧
        (∀ a, a < s.regionBase r + 16 * s.get Pg.MTB MTB.LOG_HEAD ∨ s.regionBase r + 16 * s.get Pg.MTB MTB.LOG_HEAD + 16 ≤ a →
          t.dramByte a = s.dramByte a) ∧
        State.RegsOnly (regsAt [(Pg.MTB, MTB.CYCLE.off), (Pg.MTB, MTB.LOG_HEAD.off)])
          { s.atTick tick with mtb := t.mtb, dram := t.dram } t) ∧
      (s.tb = TB.OFF → ∃ t, exec (.phaseWrap tick) s = .next t ∧ State.RegsOnly (fun _ => False) (s.atTick tick) t))

/-- SNAP (R77) latches SAMPLE_TIME, the cycle count, the phase and the state at one instant, and changes nothing else. -/
def Obligations.SnapLatchesOneInstant : Prop :=
  ∀ s : State, s.Reaches Pg.MTB → s.time < 2 ^ 64 → ∃ t, exec .snap s = .next t ∧
    t.get Pg.MTB MTB.SNAP_TIME_LO + 2 ^ 32 * t.get Pg.MTB MTB.SNAP_TIME_HI = s.time ∧
    (t.get Pg.MTB MTB.SNAP_CYCLE, t.get Pg.MTB MTB.SNAP_PHASE) = s.mainsTime s.time ∧ t.get Pg.MTB MTB.SNAP_STATE = s.tb ∧
    s.RegsOnly (regsAt [(Pg.MTB, MTB.SNAP_TIME_LO.off), (Pg.MTB, MTB.SNAP_TIME_HI.off), (Pg.MTB, MTB.SNAP_CYCLE.off),
      (Pg.MTB, MTB.SNAP_PHASE.off)]) t

/-! ## Line ports (R80 to R96) -/

/-- Gain (R83 to R85): OVL_COUNT successive samples at OVL_THRESH or more are an overload, which lowers the gain by OVL_STEPS, never
below GAIN_MIN, from what the gain was before a step planned for the same sample, and marks the samples from the first overloaded
one to OVL_ERASE ticks after the step; at GAIN_MIN it only marks and counts; after UP_HOLD_MS without a loud sample the gain rises by one code at a phase-bin boundary toward what the
mode asks for. The side log takes one record, and no other byte of DRAM changes. -/
def Obligations.OverloadAndGainSteps : Prop :=
  ∀ (s : State) (tick first : Nat) (port : Fin 16) (samples : List (BitVec 16)), s.portSamples port.val = true →
    (∀ now base, s.overloaded tick port.val samples = true → first = tick - samples.length → now = s.get (Pg.LPT port.val) LPT.GAIN_NOW → s.get (Pg.LPT port.val) LPT.GAIN_MIN < now →
      base = (if (s.lptSt port.val).stepAt = tick then (s.lptSt port.val).stepFrom else now) →
      ∃ t, exec (.overload tick port samples) s = .next t ∧
        t.get (Pg.LPT port.val) LPT.GAIN_NOW =
          Nat.min now (Nat.max (s.get (Pg.LPT port.val) LPT.GAIN_MIN) (base - s.get (Pg.LPT port.val) LPT.OVL_STEPS)) ∧
        t.get (Pg.LPT port.val) LPT.EV_OVERLOAD = 1 ∧ s.Counted (Pg.LPT port.val) LPT.OVL_CNT t ∧
        s.Counted (Pg.LPT port.val) LPT.GAIN_STEP_CNT t ∧ (t.lptSt port.val).ovlAt = tick ∧
        (t.lptSt port.val).marks.head? = some (first, tick + s.get (Pg.LPT port.val) LPT.OVL_ERASE) ∧ s.SideKept t ∧
        State.RegsOnly (regsAt [(Pg.LPT port.val, LPT.GAIN_NOW.off), (Pg.LPT port.val, CMN.EVENTS),
          (Pg.LPT port.val, LPT.OVL_CNT.off), (Pg.LPT port.val, LPT.GAIN_STEP_CNT.off)])
          { s.atTick tick with lpt := t.lpt, mir := t.mir, dram := t.dram } t) ∧
    (s.overloaded tick port.val samples = true → first = tick - samples.length →
      s.get (Pg.LPT port.val) LPT.GAIN_NOW ≤ s.get (Pg.LPT port.val) LPT.GAIN_MIN →
      ∃ t, exec (.overload tick port samples) s = .next t ∧ t.get (Pg.LPT port.val) LPT.GAIN_NOW = s.get (Pg.LPT port.val) LPT.GAIN_NOW ∧
        t.get (Pg.LPT port.val) LPT.EV_OVERLOAD = 1 ∧ s.Counted (Pg.LPT port.val) LPT.OVL_AT_MIN_CNT t ∧
        (t.lptSt port.val).ovlAt = tick ∧ (t.lptSt port.val).marks.head? = some (first, tick) ∧ s.SideKept t ∧
        State.RegsOnly (regsAt [(Pg.LPT port.val, CMN.EVENTS), (Pg.LPT port.val, LPT.OVL_CNT.off),
          (Pg.LPT port.val, LPT.OVL_AT_MIN_CNT.off)]) { s.atTick tick with lpt := t.lpt, mir := t.mir, dram := t.dram } t) ∧
    (tick = s.mtb.boundary → s.get (Pg.LPT port.val) LPT.GAIN_NOW < s.gainWanted port.val tick → s.holdPassed port.val tick = true →
      ∃ t, exec (.gainStepUp tick port) s = .next t ∧
        t.get (Pg.LPT port.val) LPT.GAIN_NOW = s.get (Pg.LPT port.val) LPT.GAIN_NOW + 1 ∧
        t.get (Pg.LPT port.val) LPT.EV_GAIN_STEP = 1 ∧ s.Counted (Pg.LPT port.val) LPT.GAIN_STEP_CNT t ∧
        (t.lptSt port.val).loudAt = Nat.max (s.lptSt port.val).loudAt tick ∧ s.SideKept t ∧
        State.RegsOnly (regsAt [(Pg.LPT port.val, LPT.GAIN_NOW.off), (Pg.LPT port.val, CMN.EVENTS),
          (Pg.LPT port.val, LPT.GAIN_STEP_CNT.off)]) { s.atTick tick with lpt := t.lpt, mir := t.mir, dram := t.dram } t)

/-- A check starts (R91, R93): on ENABLE in OFF with the RX AFE domain on, every CHECK_MS in SERVICE, on CHECK_NOW in FAULT,
FAULT_LATCHED and SERVICE, when a retry falls due, and when the TX AFE domain comes on in SERVICE; the pilot is sent and
LPn_ENA rises where the TX AFE domain is on.
A check ends (R91 to R93, R95): the pilot's amplitudes give return and line impedance (R91), and its echo has adapted the taps
(R89); with the pilot within its limits and no polarity check asked for, the port goes into service
with CAUSE and the retry count cleared and TX_AVAIL 1; an impedance below Z_MIN, above Z_MAX or a weak return takes a quiet port
to FAULT with cause SHORT or OPEN, and a reversed residual under REV_ACTION FAULT with cause REVERSED. -/
def Obligations.ChecksStartAndEnd : Prop :=
  (∀ (s : State) (tick : Nat) (port : Fin 16) (tx : Bool), tx = s.domOn (112 + port.val) →
      (∀ page : Fin 512, page.val = Pg.LPT port.val → s.Reaches page.val → s.deepenSlave = false → s.enabled page.val = false →
        s.lps port.val = LS.OFF → ∃ t, exec (.ctrlEnable page true) s = .next t ∧ t.lps port.val = LS.CHECK ∧
          t.get page.val LPT.RETRIES = 0 ∧ t.get page.val LPT.EV_STATE_CHANGE = 1 ∧ (tx = true → t.get page.val LPT.ENA = 1) ∧
          (t.lptSt port.val).checking = true ∧ (t.lptSt port.val).checkAt = s.time ∧ (t.lptSt port.val).polar = true ∧
          (t.lptSt port.val).pilot = tx ∧
          State.RegsOnly (regsAt [(page.val, CMN.CTRL), (page.val, LPT.STATE.off), (page.val, CMN.EVENTS)]) { s with lpt := t.lpt } t) ∧
      (s.lps port.val = LS.SERVICE → s.get (Pg.LPT port.val) LPT.CHECK_MS ≠ 0 → (s.lptSt port.val).checking = false →
        (s.lptSt port.val).lastCheck + msTicks (s.get (Pg.LPT port.val) LPT.CHECK_MS) ≤ tick →
        ∃ t, exec (.pilotCheckDue tick port) s = .next t ∧ t.lps port.val = LS.SERVICE ∧
          (t.lptSt port.val).checking = true ∧ (t.lptSt port.val).checkAt = tick ∧ (t.lptSt port.val).lastCheck = tick ∧
          (t.lptSt port.val).polar = true ∧ (t.lptSt port.val).pilot = tx ∧ (tx = true → t.get (Pg.LPT port.val) LPT.ENA = 1) ∧
          State.RegsOnly (regsAt [(Pg.LPT port.val, LPT.ENA.off)]) { s.atTick tick with lpt := t.lpt } t) ∧
      (s.Reaches (Pg.LPT port.val) → s.lps port.val = LS.FAULT ∨ s.lps port.val = LS.FAULT_LATCHED →
        ∃ t, exec (.checkNow port) s = .next t ∧ t.lps port.val = LS.CHECK ∧ t.get (Pg.LPT port.val) LPT.RETRIES = 0 ∧
          t.get (Pg.LPT port.val) LPT.EV_STATE_CHANGE = 1 ∧ (t.lptSt port.val).checking = true ∧ (t.lptSt port.val).polar = true ∧
          (t.lptSt port.val).pilot = tx ∧
          State.RegsOnly (regsAt [(Pg.LPT port.val, LPT.STATE.off), (Pg.LPT port.val, CMN.EVENTS)]) { s with lpt := t.lpt } t) ∧
      (s.Reaches (Pg.LPT port.val) → s.lps port.val = LS.SERVICE → (s.lptSt port.val).checking = false →
        ∃ t, exec (.checkNow port) s = .next t ∧ t.lps port.val = LS.SERVICE ∧ (t.lptSt port.val).checking = true ∧
          (t.lptSt port.val).polar = false ∧ (t.lptSt port.val).pilot = tx ∧
          State.RegsOnly (regsAt [(Pg.LPT port.val, LPT.ENA.off)]) { s with lpt := t.lpt } t) ∧
      (s.lps port.val = LS.FAULT → (s.lptSt port.val).retryDue ≤ tick →
        (s.get (Pg.LPT port.val) LPT.RETRY_LIMIT = 0 ∨ s.get (Pg.LPT port.val) LPT.RETRIES < s.get (Pg.LPT port.val) LPT.RETRY_LIMIT) →
        ∃ t, exec (.portRetryDue tick port) s = .next t ∧ t.lps port.val = LS.CHECK ∧
          t.get (Pg.LPT port.val) LPT.RETRIES = Nat.min (s.get (Pg.LPT port.val) LPT.RETRIES + 1) 255 ∧
          t.get (Pg.LPT port.val) LPT.EV_STATE_CHANGE = 1 ∧ (t.lptSt port.val).checking = true ∧ (t.lptSt port.val).checkAt = tick ∧
          State.RegsOnly (regsAt [(Pg.LPT port.val, LPT.STATE.off), (Pg.LPT port.val, CMN.EVENTS)])
            { s.atTick tick with lpt := t.lpt } t) ∧
      (s.lps port.val = LS.FAULT → (s.lptSt port.val).retryDue ≤ tick → s.get (Pg.LPT port.val) LPT.RETRY_LIMIT ≠ 0 →
        s.get (Pg.LPT port.val) LPT.RETRY_LIMIT ≤ s.get (Pg.LPT port.val) LPT.RETRIES →
        ∃ t, exec (.portRetryDue tick port) s = .next t ∧ t.lps port.val = LS.FAULT_LATCHED ∧
          t.get (Pg.LPT port.val) LPT.EV_STATE_CHANGE = 1 ∧
          State.RegsOnly (regsAt [(Pg.LPT port.val, LPT.STATE.off), (Pg.LPT port.val, CMN.EVENTS)]) (s.atTick tick) t) ∧
      (s.lps port.val = LS.SERVICE → tx = true → s.flag (Pg.LPT port.val) LPT.TX_AVAIL = false → (s.lptSt port.val).pilot = false →
        ∃ t, exec (.txAfeOn tick port) s = .next t ∧ t.get (Pg.LPT port.val) LPT.TX_AVAIL = 0 ∧
          (t.lptSt port.val).checking = true ∧ (t.lptSt port.val).pilot = true ∧ (t.lptSt port.val).pilotAt = tick ∧
          (t.lptSt port.val).polar = ((s.lptSt port.val).checking && (s.lptSt port.val).polar) ∧
          t.get (Pg.LPT port.val) LPT.ENA = 1 ∧
          State.RegsOnly (regsAt [(Pg.LPT port.val, LPT.ENA.off)]) { s.atTick tick with lpt := t.lpt } t)) ∧
  (∀ (s : State) (tick ret z : Nat) (port : Fin 16) (m : PilotResult), (s.lptSt port.val).checking = true →
      ret = s.pilotReturn port.val m.rx → z = s.pilotZ port.val m.isns → (s.lptSt port.val).ocFound = false →
      (s.lptSt port.val).pilot = true → s.pilotEnd port.val ≤ tick → s.lps port.val = LS.CHECK →
      s.domOn (112 + port.val) = true →
      (s.get (Pg.LPT port.val) LPT.REV_ACTION = 0 → s.get (Pg.LPT port.val) LPT.Z_MIN ≤ z →
        z ≤ s.get (Pg.LPT port.val) LPT.Z_MAX → ret ≤ s.get (Pg.LPT port.val) LPT.PILOT_RX_MIN_DB →
        ∃ t, exec (.checkDone tick port (some m) none) s = .next t ∧ t.lps port.val = LS.SERVICE ∧
          t.get (Pg.LPT port.val) LPT.CAUSE = LC.NONE ∧ t.get (Pg.LPT port.val) LPT.RETRIES = 0 ∧
          t.get (Pg.LPT port.val) LPT.TX_AVAIL = 1 ∧ t.get (Pg.LPT port.val) LPT.Z = z ∧
          t.get (Pg.LPT port.val) LPT.RX_RET_DB = ret ∧ t.get (Pg.LPT port.val) LPT.EV_CHECK_DONE = 1 ∧
          t.get (Pg.LPT port.val) LPT.EV_STATE_CHANGE = 1 ∧ s.Counted (Pg.LPT port.val) LPT.CHECK_CNT t ∧
          (t.lptSt port.val).checking = false ∧ s.TapsAdapted port.val m.echo t ∧
          State.RegsOnly (fun a => regsAt [(Pg.LPT port.val, LPT.STATE.off), (Pg.LPT port.val, LPT.Z.off), (Pg.LPT port.val, CMN.EVENTS),
            (Pg.LPT port.val, LPT.CHECK_CNT.off)] a ∨ echoTaps port.val a) { s.atTick tick with lpt := t.lpt } t) ∧
      (∀ cause, s.QuietPort port.val → s.get (Pg.LPT port.val) LPT.REV_ACTION = 0 → s.get (Pg.LPT port.val) LPT.RETRY_LIMIT = 0 →
        cause = (if z < s.get (Pg.LPT port.val) LPT.Z_MIN then LC.SHORT else LC.OPEN) →
        (z < s.get (Pg.LPT port.val) LPT.Z_MIN ∨ s.get (Pg.LPT port.val) LPT.Z_MAX < z ∨
          s.get (Pg.LPT port.val) LPT.PILOT_RX_MIN_DB < ret) →
        ∃ t, exec (.checkDone tick port (some m) none) s = .next t ∧ t.lps port.val = LS.FAULT ∧
          t.get (Pg.LPT port.val) LPT.CAUSE = cause ∧ t.get (Pg.LPT port.val) LPT.ENA = 0 ∧ t.get (Pg.LPT port.val) LPT.TX_AVAIL = 0 ∧
          s.Counted (Pg.LPT port.val) LPT.FAULT_CNT t ∧ s.Counted (Pg.LPT port.val) LPT.CHECK_CNT t ∧
          (t.lptSt port.val).checking = false ∧ (t.lptSt port.val).retryDue = s.retryAt port.val tick ∧
          s.TapsAdapted port.val m.echo t ∧
          State.RegsOnly (fun a => regsAt [(Pg.LPT port.val, LPT.STATE.off), (Pg.LPT port.val, LPT.Z.off), (Pg.LPT port.val, CMN.EVENTS),
            (Pg.LPT port.val, LPT.CHECK_CNT.off), (Pg.LPT port.val, LPT.FAULT_CNT.off)] a ∨ echoTaps port.val a)
            { s.atTick tick with lpt := t.lpt } t) ∧
      (∀ (r : BitVec 16) (d : Nat), s.QuietPort port.val → s.get (Pg.LPT port.val) LPT.REV_ACTION = 2 → (s.lptSt port.val).polar = true →
        s.polarReady = true → (s.lptSt port.val).checkAt + 4 * s.cycleTicks ≤ tick → s.get (Pg.LPT port.val) LPT.RETRY_LIMIT = 0 →
        s.get (Pg.LPT port.val) LPT.Z_MIN ≤ z → z ≤ s.get (Pg.LPT port.val) LPT.Z_MAX →
        ret ≤ s.get (Pg.LPT port.val) LPT.PILOT_RX_MIN_DB →
        d = (r.toNat + 65536 - s.get (Pg.LPT port.val) LPT.REV_OFFSET) % 65536 → 24576 ≤ d → d ≤ 40960 →
        ∃ t, exec (.checkDone tick port (some m) (some r)) s = .next t ∧ t.lps port.val = LS.FAULT ∧
          t.get (Pg.LPT port.val) LPT.CAUSE = LC.REVERSED ∧ t.get (Pg.LPT port.val) LPT.REV_STATE = 2 ∧
          t.get (Pg.LPT port.val) LPT.REV_PHASE = d ∧ t.get (Pg.LPT port.val) LPT.EV_REVERSED = 1))

/-- Faults at the amplifier (R87, R88, R93, R95) of a quiet port: LPn_FLT_N low for 10 µs, with LPn_ENA high for more than 20 µs
before, takes a port in service to FAULT with cause AMP_FAULT and drops LPn_ENA; while LPn_ENA is low the level only shows;
a current above ILIM_MA for ILIM_US is counted as an overcurrent, and the OC_STRIKESth within OC_WINDOW_MS takes a port in service to
FAULT with cause OVERCURRENT; a port under its check judges it with what else the check finds.
The retry interval (R94): retry r follows RETRY_FIRST_MS × 2^(r−1) after the entry to FAULT, and never later than
RETRY_MAX_S seconds after it; `s.retryAt p tick` is the instant at which the model lets retry RETRIES + 1 fall due. -/
def Obligations.AmplifierFaultsAndRetries : Prop :=
  (∀ (s : State) (tick since : Nat) (port : Fin 16) (window : Nat) (code : BitVec 12), s.QuietPort port.val →
      s.get (Pg.LPT port.val) LPT.RETRY_LIMIT = 0 → window = msTicks (s.get (Pg.LPT port.val) LPT.OC_WINDOW_MS) →
      (s.lps port.val = LS.SERVICE → s.flag (Pg.LPT port.val) LPT.ENA = true →
        Nat.max since ((s.lptSt port.val).enaSince + usTicks 20) + usTicks 10 ≤ tick →
        ∃ t, exec (.ampFault tick port true since) s = .next t ∧ t.lps port.val = LS.FAULT ∧
          t.get (Pg.LPT port.val) LPT.CAUSE = LC.AMP_FAULT ∧ t.get (Pg.LPT port.val) LPT.ENA = 0 ∧
          t.get (Pg.LPT port.val) LPT.TX_AVAIL = 0 ∧ t.get (Pg.LPT port.val) LPT.FLT = 1 ∧
          t.get (Pg.LPT port.val) LPT.EV_AMP_FAULT = 1 ∧ t.get (Pg.LPT port.val) LPT.EV_STATE_CHANGE = 1 ∧
          s.Counted (Pg.LPT port.val) LPT.FAULT_CNT t ∧
          State.RegsOnly (regsAt [(Pg.LPT port.val, LPT.STATE.off), (Pg.LPT port.val, CMN.EVENTS), (Pg.LPT port.val, LPT.FAULT_CNT.off)])
            { s.atTick tick with lpt := t.lpt } t) ∧
      (∀ low : Bool, s.flag (Pg.LPT port.val) LPT.ENA = false → ∃ t, exec (.ampFault tick port low since) s = .next t ∧
        t.get (Pg.LPT port.val) LPT.FLT = low.toNat ∧ t.lps port.val = s.lps port.val ∧
        State.RegsOnly (regsAt [(Pg.LPT port.val, LPT.FLT.off)]) { s.atTick tick with lpt := t.lpt } t) ∧
      (s.lps port.val = LS.SERVICE → s.isOvercurrent tick port.val since code = true →
        ((s.lptSt port.val).strikes.filter fun x => decide (tick < x + window)).length + 1 < s.get (Pg.LPT port.val) LPT.OC_STRIKES →
        ∃ t, exec (.overcurrent tick port since code) s = .next t ∧ t.lps port.val = LS.SERVICE ∧
          t.get (Pg.LPT port.val) LPT.EV_OVERCURRENT = 1 ∧ s.Counted (Pg.LPT port.val) LPT.OC_CNT t ∧
          (t.lptSt port.val).strikes = tick :: (s.lptSt port.val).strikes.filter (fun x => decide (tick < x + window)) ∧
          State.RegsOnly (regsAt [(Pg.LPT port.val, CMN.EVENTS), (Pg.LPT port.val, LPT.OC_CNT.off)]) { s.atTick tick with lpt := t.lpt } t) ∧
      (s.lps port.val = LS.CHECK → s.isOvercurrent tick port.val since code = true →
        s.get (Pg.LPT port.val) LPT.OC_STRIKES ≤ ((s.lptSt port.val).strikes.filter fun x => decide (tick < x + window)).length + 1 →
        ∃ t, exec (.overcurrent tick port since code) s = .next t ∧ t.lps port.val = LS.CHECK ∧ (t.lptSt port.val).ocFound = true ∧
          t.get (Pg.LPT port.val) LPT.EV_OVERCURRENT = 1 ∧ s.Counted (Pg.LPT port.val) LPT.OC_CNT t ∧
          State.RegsOnly (regsAt [(Pg.LPT port.val, CMN.EVENTS), (Pg.LPT port.val, LPT.OC_CNT.off)]) { s.atTick tick with lpt := t.lpt } t) ∧
      (s.lps port.val = LS.SERVICE → s.isOvercurrent tick port.val since code = true →
        s.get (Pg.LPT port.val) LPT.OC_STRIKES ≤ ((s.lptSt port.val).strikes.filter fun x => decide (tick < x + window)).length + 1 →
        ∃ t, exec (.overcurrent tick port since code) s = .next t ∧ t.lps port.val = LS.FAULT ∧
          t.get (Pg.LPT port.val) LPT.CAUSE = LC.OVERCURRENT ∧ t.get (Pg.LPT port.val) LPT.ENA = 0 ∧
          t.get (Pg.LPT port.val) LPT.TX_AVAIL = 0 ∧ t.get (Pg.LPT port.val) LPT.EV_OVERCURRENT = 1 ∧
          s.Counted (Pg.LPT port.val) LPT.OC_CNT t ∧ s.Counted (Pg.LPT port.val) LPT.FAULT_CNT t ∧
          State.RegsOnly (regsAt [(Pg.LPT port.val, LPT.STATE.off), (Pg.LPT port.val, CMN.EVENTS), (Pg.LPT port.val, LPT.OC_CNT.off),
            (Pg.LPT port.val, LPT.FAULT_CNT.off)]) { s.atTick tick with lpt := t.lpt } t)) ∧
  (∀ (s : State) (p tick : Nat), p < 16 → s.get (Pg.LPT p) LPT.RETRIES ≤ 40 →
      (s.get (Pg.LPT p) LPT.RETRY_FIRST_MS * 2 ^ s.get (Pg.LPT p) LPT.RETRIES ≤ 1000 * s.get (Pg.LPT p) LPT.RETRY_MAX_S →
        s.retryAt p tick = tick + 2048 * (s.get (Pg.LPT p) LPT.RETRY_FIRST_MS * 2 ^ s.get (Pg.LPT p) LPT.RETRIES)) ∧
      (1000 * s.get (Pg.LPT p) LPT.RETRY_MAX_S ≤ s.get (Pg.LPT p) LPT.RETRY_FIRST_MS * 2 ^ s.get (Pg.LPT p) LPT.RETRIES →
        s.retryAt p tick = tick + 2048000 * s.get (Pg.LPT p) LPT.RETRY_MAX_S))

/-- LPn_ENA and the echo canceller (R86, R89): in PER_FRAME mode LPn_ENA rises once the next t0 of a lane lies within ENA_LEAD_US, and
falls ENA_LAG_US after the last DAC sample with no start so near; ECHO_RESET returns taps and analog settings to the fused
defaults at once on a silent port, and waits on a port that transmits.
Port samples and engines (R141, R152): when a port begins to deliver samples, its LIVE engines in NO_INPUT go to HUNT, or to
PARKED where the throttle level parks them; when it has stopped, its LIVE engines in any state except OFF go to NO_INPUT; engines of
other ports keep their states. -/
def Obligations.PinsEchoAndPortSamples : Prop :=
  (∀ (s : State) (tick : Nat) (port : Fin 16),
      (∀ l x t0, s.portReady port.val = true → s.get (Pg.LPT port.val) LPT.ENA_MODE = 0 → (l, x) ∈ s.portLanes port.val →
        s.laneNext x = some t0 → t0 ≤ tick + usTicks (s.get (Pg.LPT port.val) LPT.ENA_LEAD_US) → ∃ t, exec (.enaLeadStart tick port) s = .next t ∧
          t.get (Pg.LPT port.val) LPT.ENA = 1 ∧
          State.RegsOnly (regsAt [(Pg.LPT port.val, LPT.ENA.off)]) { s.atTick tick with lpt := t.lpt } t) ∧
      (s.get (Pg.LPT port.val) LPT.ENA_MODE = 0 → s.portOnLine port.val = false →
        s.startSoon port.val (tick + usTicks (s.get (Pg.LPT port.val) LPT.ENA_LEAD_US)) = false → (s.lptSt port.val).pilot = false →
        (s.lptSt port.val).piloted = false →
        (∀ h, h ∈ s.txs.hist → h.port = port.val → h.stop + usTicks (s.get (Pg.LPT port.val) LPT.ENA_LAG_US) ≤ tick) →
        usTicks (s.get (Pg.LPT port.val) LPT.ENA_LAG_US) ≤ tick → ∃ t, exec (.enaLagExpiry tick port) s = .next t ∧
          t.get (Pg.LPT port.val) LPT.ENA = 0 ∧ State.RegsOnly (regsAt [(Pg.LPT port.val, LPT.ENA.off)]) (s.atTick tick) t) ∧
      (s.Reaches (Pg.LPT port.val) → s.portOnLine port.val = false → ∃ t, exec (.echoReset port) s = .next t ∧
        t.reg (Pg.LPT port.val) LPT.CANC_GAIN.off = resetWord (addrOf (Pg.LPT port.val) LPT.CANC_GAIN.off) ∧
        (∀ i, i < 256 → t.get (Pg.LPT port.val) (LPT.ECHO_TAP.nth i) = 0) ∧
        (∀ pg off, (pg ≠ Pg.LPT port.val ∨ off < 0x114 ∨ (0x118 ≤ off ∧ off < 0x800) ∨ 0xC00 ≤ off) → off < 4096 →
          follows (addrOf pg off) = false → t.reg pg off = s.reg pg off) ∧
        s.DramKept t) ∧
      (s.Reaches (Pg.LPT port.val) → s.portOnLine port.val = true → ∃ t, exec (.echoReset port) s = .next t ∧
        (t.lptSt port.val).echoReset = true ∧ State.RegsOnly (fun _ => False) { s with lpt := t.lpt } t)) ∧
  (∀ (s : State) (tick : Nat) (port : Fin 16),
      (s.portSamples port.val = true → ∃ t, exec (.portSamplesStart tick port) s = .next t ∧
        (∀ c, c ∈ s.liveEngines → t.est c =
          (if s.eget c ERG.PORT = port.val ∧ s.est c = ES.NO_INPUT then
            (if s.shouldPark s.level c then ES.PARKED else ES.HUNT) else s.est c)) ∧ s.DramKept t ∧
        s.RegsKept (onPages (Pg.ERGX :: (List.range 64).map Pg.ERG)) t) ∧
      (s.portSamples port.val = false → (∀ q, q < 64 → s.flag (Pg.ERG q) CFG.ARMED = false) →
        (∀ c, c ∈ s.liveEngines → s.runningJob c = none) → ∃ t, exec (.portSamplesStop tick port) s = .next t ∧
        (∀ c, c ∈ s.liveEngines → t.est c =
          (if s.eget c ERG.PORT = port.val ∧ s.est c ≠ ES.OFF ∧ s.domOn (c / 4) = true then ES.NO_INPUT else s.est c)) ∧ s.DramKept t ∧
        s.RegsKept (onPages ((List.range 64).map Pg.ERG)) t))

/-! ## Erg receive array (R130 to R152) -/

/-- Detection and sync (R90, R107, R135, R136, R141): in HUNT a preamble of PD_THRESH or more moves an engine to SYNC_SEARCH, but not
under a transmit mark or a blanking window; decisions that match S or S_ack freeze the AGC figures, record T_SYNC and move it to HEADER
or ACK_BODY, and a handoff is counted; SYNC_WIN symbols without a sync word are counted as a failed search, file a WIDE report where
Mirage takes it, and return a free engine to HUNT.
Headers and data fields (R116, R122, R127, R138, R139, R141, R148): erased header symbols are counted; a valid header with LENGTH
11 or more shows in LAST_HDR and moves the engine to DATA, its field in a soft buffer where one of the two is free and counted as
DECODE_OVR where none is; an invalid or too short one is counted for the engine and the device and returns a free engine to HUNT;
after the last data symbol LAST_SNR and LAST_RATE_ERR show and a stored field is held in one soft buffer more; a match of S_cut with
the fall in power is counted as a cut, in the header or in the data field, and returns a free engine to HUNT. -/
def Obligations.EnginesReceiveFrames : Prop :=
  (∀ (s : State) (tick tm corr : Nat) (eng : Fin 256) (pg e : Nat), pg = Pg.ERG (eng.val / 4) → e = eng.val % 4 →
      (s.est eng.val = ES.HUNT → s.isLive eng.val = true → s.eget eng.val ERG.PD_THRESH ≤ corr → s.underMark eng.val tick = false →
        s.underBlank eng.val = false →
        ∃ t, exec (.preambleDetect tick eng tm corr) s = .next t ∧ t.est eng.val = ES.SYNC_SEARCH ∧ (t.eng eng.val).tPre = tm ∧
          t.eget eng.val ERG.WATCH = 1 ∧ s.Counted pg (ERG.DETECT_CNT.nth e) t ∧
          State.RegsOnly (regsAt [(pg, (ERG.STATE.nth e).off), (pg, (ERG.DETECT_CNT.nth e).off)])
            { s.atTick tick with erg := t.erg } t) ∧
      (s.est eng.val = ES.HUNT → corr < s.eget eng.val ERG.PD_THRESH ∨ s.underMark eng.val tick = true ∨ s.underBlank eng.val = true →
        ∃ t, exec (.preambleDetect tick eng tm corr) s = .next t ∧ State.RegsOnly (fun _ => False) (s.atTick tick) t) ∧
      (∀ (agc carrier : BitVec 16) (dec : Word), s.est eng.val = ES.SYNC_SEARCH → tm < 2 ^ 64 →
        (s.syncMatch eng.val tm (s.eget eng.val ERG.SYNC_WORD) dec = true → ∃ t, exec (.syncFound tick eng tm agc carrier dec) s = .next t ∧ t.est eng.val = ES.HEADER ∧
          t.eget eng.val ERG.AGC_REF = agc.toNat ∧ t.eget eng.val ERG.CARRIER_OFF = carrier.toNat ∧
          t.eget eng.val ERG.T_SYNC_LO + 2 ^ 32 * t.eget eng.val ERG.T_SYNC_HI = tm ∧
          ((s.eng eng.val).handoff = true → s.Counted Pg.ERGX ERGX.HANDOFF_CNT t) ∧
          ((s.eng eng.val).handoff = false → t.reg Pg.ERGX ERGX.HANDOFF_CNT.off = s.reg Pg.ERGX ERGX.HANDOFF_CNT.off) ∧
          State.RegsOnly (regsAt [(pg, (ERG.STATE.nth e).off), (pg, (ERG.AGC_REF.nth e).off), (pg, (ERG.T_SYNC_LO.nth e).off),
            (pg, (ERG.T_SYNC_HI.nth e).off), (Pg.ERGX, ERGX.HANDOFF_CNT.off)]) { s.atTick tick with erg := t.erg } t) ∧
        (s.syncMatch eng.val tm (syncAck (s.eget eng.val ERG.SYNC_WORD)) dec = true →
          ∃ t, exec (.ackSyncFound tick eng tm agc carrier dec) s = .next t ∧ t.est eng.val = ES.ACK_BODY ∧
          t.eget eng.val ERG.AGC_REF = agc.toNat ∧ t.eget eng.val ERG.CARRIER_OFF = carrier.toNat ∧
          t.eget eng.val ERG.T_SYNC_LO + 2 ^ 32 * t.eget eng.val ERG.T_SYNC_HI = tm ∧
          State.RegsOnly (regsAt [(pg, (ERG.STATE.nth e).off), (pg, (ERG.AGC_REF.nth e).off), (pg, (ERG.T_SYNC_LO.nth e).off),
            (pg, (ERG.T_SYNC_HI.nth e).off), (Pg.ERGX, ERGX.HANDOFF_CNT.off)])
            { s.atTick tick with erg := t.erg, mac := t.mac } t)) ∧
      (∀ j last, (s.eng eng.val).tPre ≤ last →
        last + s.eget eng.val ERG.SYNC_WIN * symTicks (s.eget eng.val ERG.RATE) ≤ tick → s.est eng.val = ES.SYNC_SEARCH → s.EngineFree eng.val →
        j = s.engineJob eng.val RK.WIDE 4 ((s.eng eng.val).tPre - symTicks (s.eget eng.val ERG.RATE))
          ((s.eng eng.val).tPre + msTicks (s.get Pg.MIR MIR.WIDE_SPAN_MS)) →
        ∃ t, exec (.syncFail tick eng last) s = .next t ∧ t.est eng.val = ES.HUNT ∧ s.Counted pg (ERG.SYNC_FAIL_CNT.nth e) t ∧
          (s.kindOn RK.WIDE = true → s.enabled Pg.MIR = true → s.domOn 141 = true → s.mir.jobs.any (fun q => covers q j) = false →
            s.mir.jobs.length < 131072 → t.mir.jobs = s.mir.jobs ++ [{ j with id := s.mir.nextJob }] ∧
              s.Counted Pg.MIR MIR.WIDE_JOBS t) ∧
          (s.kindOn RK.WIDE = false → t.mir.jobs = s.mir.jobs) ∧ (s.mir.jobs.length < jobQueueMax → s.DramKept t) ∧
          State.RegsOnly (fun a => onPages [Pg.MIR] a ∨ regsAt [(pg, (ERG.STATE.nth e).off), (pg, (ERG.SYNC_FAIL_CNT.nth e).off)] a)
            { s.atTick tick with erg := t.erg, mac := t.mac, mir := t.mir, dram := t.dram } t)) ∧
  (∀ (s : State) (tick : Nat) (eng : Fin 256) (pg e : Nat) (errs : List (BitVec 16)), pg = Pg.ERG (eng.val / 4) → e = eng.val % 4 →
      (∀ w : Word, s.est eng.val = ES.HEADER → phyHeaderOk (s.eget eng.val ERG.RATE) w.toNat = true →
        11 ≤ (PhyHeader.ofWord w.toNat).length →
        ∃ t, exec (.headerDecided tick eng w errs) s = .next t ∧ t.est eng.val = ES.DATA ∧ t.eget eng.val ERG.LAST_HDR = w.toNat ∧
          (t.eng eng.val).hdr = w.toNat ∧ (t.eng eng.val).stored = decide (s.eget eng.val ERG.SOFT_BUF < 2) ∧
          s.Counted pg (ERG.HDR_OK_CNT.nth e) t ∧
          s.CountedBy pg (ERG.ERASED_SYM_CNT.nth e) ((s.liveFlags eng.val 0 headerSymbols errs).filter fun x => x).length t ∧
          (2 ≤ s.eget eng.val ERG.SOFT_BUF → s.Counted pg (ERG.DECODE_OVR_CNT.nth e) t ∧ s.Counted Pg.ERGX ERGX.DECODE_OVR_TOT t ∧
            bitOf (t.get pg ERG.EV_DECODE_OVR) e = 1) ∧
          (s.eget eng.val ERG.SOFT_BUF < 2 → runCopies (PhyHeader.ofWord w.toNat).rep = 1 →
            State.RegsOnly (regsAt [(pg, (ERG.STATE.nth e).off), (pg, (ERG.LAST_HDR.nth e).off), (pg, (ERG.HDR_OK_CNT.nth e).off),
              (pg, (ERG.ERASED_SYM_CNT.nth e).off)]) { s.atTick tick with erg := t.erg } t) ∧
          State.RegsOnly (fun a => onPages [Pg.MIR] a ∨ regsAt [(pg, (ERG.STATE.nth e).off), (pg, (ERG.LAST_HDR.nth e).off),
            (pg, (ERG.HDR_OK_CNT.nth e).off), (pg, (ERG.ERASED_SYM_CNT.nth e).off), (pg, (ERG.DECODE_OVR_CNT.nth e).off),
            (pg, CMN.EVENTS), (Pg.ERGX, ERGX.DECODE_OVR_TOT.off)] a)
            { s.atTick tick with erg := t.erg, mir := t.mir, dram := t.dram } t) ∧
      (∀ w : Word, s.est eng.val = ES.HEADER → s.EngineFree eng.val → phyHeaderOk (s.eget eng.val ERG.RATE) w.toNat = false →
        ∃ t, exec (.headerDecided tick eng w errs) s = .next t ∧ t.est eng.val = ES.HUNT ∧ s.Counted pg (ERG.HDR_INVALID_CNT.nth e) t ∧
          s.Counted Pg.ERGX ERGX.HDR_INVALID_TOT t ∧
          State.RegsOnly (fun a => onPages [Pg.MIR] a ∨ regsAt [(pg, (ERG.STATE.nth e).off), (pg, (ERG.HDR_INVALID_CNT.nth e).off),
            (pg, (ERG.ERASED_SYM_CNT.nth e).off), (Pg.ERGX, ERGX.HDR_INVALID_TOT.off)] a)
            { s.atTick tick with erg := t.erg, mac := t.mac, mir := t.mir, dram := t.dram } t) ∧
      (∀ w : Word, s.est eng.val = ES.HEADER → s.EngineFree eng.val → phyHeaderOk (s.eget eng.val ERG.RATE) w.toNat = true →
        (PhyHeader.ofWord w.toNat).length < 11 → ∃ t, exec (.headerDecided tick eng w errs) s = .next t ∧ t.est eng.val = ES.HUNT ∧
          s.Counted pg (ERG.HDR_OK_CNT.nth e) t ∧ s.Counted pg (ERG.FRAME_SHORT_CNT.nth e) t ∧
          s.Counted Pg.ERGX ERGX.FRAME_SHORT_TOT t ∧ t.mir = s.mir) ∧
      (∀ (soft : List (BitVec 4)) (snr rateErr : BitVec 16) (lost : List Nat), s.est eng.val = ES.DATA → s.EngineFree eng.val →
        s.eget eng.val ERG.SOFT_BUF < 2 → ∃ t, exec (.lastDataSymbol tick eng soft errs snr rateErr lost) s = .next t ∧
          t.est eng.val = ES.HUNT ∧ t.eget eng.val ERG.LAST_SNR = snr.toNat ∧ t.eget eng.val ERG.LAST_RATE_ERR = rateErr.toNat ∧
          t.eget eng.val ERG.SOFT_BUF = s.eget eng.val ERG.SOFT_BUF + (if (s.eng eng.val).stored then 1 else 0) ∧
          s.DramKept t) ∧
      (∀ (cut : CutFind) (soft : List (BitVec 4)) (snr : BitVec 16), s.EngineFree eng.val →
        cutMatch (s.eget eng.val ERG.SYNC_WORD) cut.decisions cut.fall = true →
        (s.est eng.val = ES.HEADER → ∃ t x, exec (.cutDetect tick eng cut soft errs snr) s = .next t ∧ t.est eng.val = ES.HUNT ∧
          s.Counted pg (ERG.CUT_CNT.nth e) t ∧ t.eget eng.val ERG.LAST_SNR = snr.toNat ∧
          t.key.rx = s.key.rx ++ [x] ∧ x.eng = eng.val ∧ x.cut = some 0 ∧ x.field = [] ∧
          State.RegsOnly (regsAt [(pg, (ERG.STATE.nth e).off), (pg, (ERG.CUT_CNT.nth e).off), (pg, (ERG.LAST_SNR.nth e).off),
            (pg, (ERG.ERASED_SYM_CNT.nth e).off)])
            { s.atTick tick with erg := t.erg, mac := t.mac, key := t.key, mir := t.mir } t) ∧
        (s.est eng.val = ES.DATA → ∃ t, exec (.cutDetect tick eng cut soft errs snr) s = .next t ∧ t.est eng.val = ES.HUNT ∧
          s.Counted pg (ERG.CUT_CNT.nth e) t ∧ t.eget eng.val ERG.LAST_SNR = snr.toNat ∧ s.DramKept t)))

/-- Recall, watch, late commits and parking (R133, R150, R151, R152): a LENT engine that is recalled waits in RECALL; the watch of a
busy engine counts and reports another preamble; 1 s after its COMMIT an engine that has not taken the set abandons its frame
for it; parking takes an engine at once where it is idle or the level is L5, and else at the end of its frame or 50 ms after the level
change; an engine that is no longer to be parked runs again.
The order in which parking takes engines (R152): no alarm engine is ever to be parked, none below L3; at L3 the higher-ranked half
of the engines with role LIVE or POOL, alarm engines apart, keeps running, and POOL engines rank below every LIVE one. -/
def Obligations.EnginesRecallAndParkByRank : Prop :=
  (∀ (s : State) (tick : Nat) (eng : Fin 256) (pg e : Nat), pg = Pg.ERG (eng.val / 4) → e = eng.val % 4 →
      (∀ watch : Option Nat, s.est eng.val = ES.LENT →
        watch = none ∨ (s.isLive eng.val = true ∧ s.underMark eng.val tick = false ∧ s.underBlank eng.val = false) →
        ∃ t, exec (.engineRecall tick eng watch) s = .next t ∧ t.est eng.val = ES.RECALL ∧ (t.eng eng.val).watchPre = watch ∧
          State.RegsOnly (regsAt [(pg, (ERG.STATE.nth e).off)]) { s.atTick tick with erg := t.erg } t) ∧
      (∀ tPre, s.isLive eng.val = true → s.engBusy eng.val = true → s.underMark eng.val tick = false → s.underBlank eng.val = false →
        ∃ t, exec (.watchReport tick eng tPre) s = .next t ∧ t.est eng.val = s.est eng.val ∧
          s.Counted pg (ERG.WATCH_REPORT_CNT.nth e) t ∧ s.Counted Pg.ERGX ERGX.WATCH_REPORT_TOT t ∧
          bitOf (t.get pg ERG.EV_WATCH_REPORT) e = 1 ∧ (s.mir.jobs.length < jobQueueMax → s.DramKept t) ∧
          State.RegsOnly (fun a => onPages [Pg.MIR] a ∨ regsAt [(pg, CMN.EVENTS), (pg, (ERG.WATCH_REPORT_CNT.nth e).off),
            (Pg.ERGX, ERGX.WATCH_REPORT_TOT.off)] a) { s.atTick tick with mir := t.mir, dram := t.dram } t) ∧
      (s.flag pg CFG.ARMED = true → bitOf (s.ergDue (eng.val / 4)) e = 1 → s.engAway eng.val = false → s.ShadowSound →
        Tab.get (fun _ => 0) s.erg.armAt (eng.val / 4) + 2048000 ≤ tick → ∃ t, exec (.cfgAbort tick eng) s = .next t ∧
          bitOf (t.get pg ERG.EV_CFG_ABORT) e = 1 ∧ t.get Pg.ERGX ERGX.EV_CFG_ABORT = 1 ∧ s.Counted Pg.ERGX ERGX.CFG_ABORT_CNT t ∧
          t.engBusy eng.val = false ∧ bitOf (t.ergDue (eng.val / 4)) e = 0 ∧ s.DramKept t) ∧
      (s.est eng.val ≠ ES.PARKED → s.shouldPark s.level eng.val = true →
        (s.engBusy eng.val = false ∧ s.engAway eng.val = false) ∨ 5 ≤ s.level →
        s.runningJob eng.val = none → ∃ t, exec (.enginePark tick eng) s = .next t ∧ t.est eng.val = ES.PARKED ∧
          bitOf (t.get pg ERG.EV_PARK_CHANGE) e = 1 ∧ t.get Pg.ERGX ERGX.EV_PARK_CHANGE = 1 ∧
          State.RegsOnly (regsAt [(pg, (ERG.STATE.nth e).off), (pg, CMN.EVENTS), (Pg.ERGX, CMN.EVENTS)])
            { s.atTick tick with erg := t.erg, mac := t.mac } t) ∧
      (s.engBusy eng.val = true ∨ s.engAway eng.val = true → s.shouldPark s.level eng.val = true → s.level < 5 →
        (s.eng eng.val).parkDue = none →
        ∃ t, exec (.enginePark tick eng) s = .next t ∧ t.est eng.val = s.est eng.val ∧ (t.eng eng.val).parkDue.isSome = true ∧
          State.RegsOnly (fun _ => False) { s.atTick tick with erg := t.erg } t) ∧
      (∀ t0, (s.eng eng.val).parkDue = some t0 → t0 + 102400 ≤ tick → s.shouldPark s.level eng.val = true →
        s.runningJob eng.val = none → ∃ t, exec (.parkTimeout tick eng) s = .next t ∧ t.est eng.val = ES.PARKED ∧
          bitOf (t.get pg ERG.EV_PARK_CHANGE) e = 1 ∧ t.get Pg.ERGX ERGX.EV_PARK_CHANGE = 1 ∧
          State.RegsOnly (regsAt [(pg, (ERG.STATE.nth e).off), (pg, CMN.EVENTS), (Pg.ERGX, CMN.EVENTS)])
            { s.atTick tick with erg := t.erg, mac := t.mac } t) ∧
      (s.est eng.val = ES.PARKED → s.shouldPark s.level eng.val = false → s.domOn (eng.val / 4) = true → s.flag pg CFG.ARMED = false →
        ∃ t, exec (.engineUnpark tick eng) s = .next t ∧ t.est eng.val = s.roleState eng.val ∧
          bitOf (t.get pg ERG.EV_PARK_CHANGE) e = 1 ∧ t.get Pg.ERGX ERGX.EV_PARK_CHANGE = 1 ∧
          State.RegsOnly (regsAt [(pg, (ERG.STATE.nth e).off), (pg, CMN.EVENTS), (Pg.ERGX, CMN.EVENTS)]) (s.atTick tick) t)) ∧
  (∀ (s : State) (level c d : Nat), c < 256 → d < 256 →
      (s.isAlarm c = true → s.shouldPark level c = false) ∧ (level < 3 → s.shouldPark level c = false) ∧
      (5 ≤ level → s.parkable c = true → s.shouldPark level c = true) ∧
      (s.parkable c = true → s.parkable d = true → s.rankedAbove c d = true → s.shouldPark 3 c = true → s.shouldPark 3 d = true) ∧
      (channels.filter fun a => s.parkable a && !s.shouldPark 3 a).length = (channels.filter s.parkable).length / 2)

/-- A trellis result (R146): a field that agrees best with the soft values of the job goes to the frame path with its copy, decoder d
becomes free, the job is counted by its rank, and the soft buffer that held the field is given back; here with no other job
waiting.
The noise map (R144, R145): under OWNER HOST a host write to CELL_DATA stores NOISE and VALID with AGE 0 in the cell at IDX,
and the kernel's write is refused and counted; under OWNER LINK the kernel writes and the host is refused; outside the NORMAL regime
no kernel runs (R209); a read returns the cell
at IDX; every access, a refused one too, advances IDX under INC; every second each cell ages by one, up to 255. -/
def Obligations.TrellisResultsAndNoiseMap : Prop :=
  (∀ (s : State) (tick : Nat) (dec : Fin 16) (j : TJob) (field : List Byte), s.decoder dec.val = some j → s.trl.waiting = [] →
      bestField (PhyHeader.ofWord j.rx.hdr) j.rx.soft field = true → (∀ c, j.buf = some c → c < 256) → s.flag Pg.TRL CFG.ARMED = false →
      ∃ t, exec (.trellisDecodeDone tick dec field) s = .next t ∧ t.decoder dec.val = none ∧
        t.key.rx = s.key.rx ++ [{ j.rx with field := field }] ∧
        (j.rank = 1 → s.Counted Pg.TRL TRL.JOBS_ALARM t) ∧ (j.rank = 2 → s.Counted Pg.TRL TRL.JOBS_LIVE t) ∧
        (j.rank = 3 → s.Counted Pg.TRL TRL.JOBS_REPLAY t) ∧
        (∀ c, j.buf = some c → t.eget c ERG.SOFT_BUF = s.eget c ERG.SOFT_BUF - 1) ∧
        State.RegsOnly (fun a => regsAt [(Pg.TRL, TRL.JOBS_ALARM.off), (Pg.TRL, TRL.JOBS_LIVE.off), (Pg.TRL, TRL.JOBS_REPLAY.off),
          (Pg.TRL, TRL.KBITS_DECODED.off)] a ∨ ∃ c, j.buf = some c ∧ a = addrOf (Pg.ERG (c / 4)) (ERG.SOFT_BUF.nth (c % 4)).off)
          { s.atTick tick with trl := t.trl, key := t.key } t) ∧
  (∀ (s : State) (v : Word) (idx : Nat), idx = s.get Pg.NMAP NMAP.IDX →
      (s.Reaches Pg.NMAP → s.flag Pg.NMAP NMAP.OWNER = true → ∃ t, exec (.cellDataWrite v) s = .next t ∧
        (∀ i, t.cell i = if i = idx then v &&& 0x010003FF else s.cell i) ∧
        t.get Pg.NMAP NMAP.IDX = (if s.flag Pg.NMAP NMAP.INC then (idx + 1) % 16384 else idx) ∧
        s.Counted Pg.NMAP NMAP.CELL_WRITE_CNT t ∧ s.Counted Pg.NMAP NMAP.HOST_WRITE_CNT t ∧ s.RegsKept (onPages [Pg.NMAP]) t ∧
        s.DramKept t) ∧
      (s.Reaches Pg.NMAP → s.flag Pg.NMAP NMAP.OWNER = false → ∃ t, exec (.cellDataWrite v) s = .next t ∧ t.nmap = s.nmap ∧
        t.get Pg.NMAP CFG.ERR_CODE = ErrCode.NOT_PERMITTED ∧ t.get Pg.NMAP NMAP.EV_WRITE_REFUSED = 1 ∧
        t.get Pg.NMAP NMAP.IDX = (if s.flag Pg.NMAP NMAP.INC then (idx + 1) % 16384 else idx) ∧
        s.Counted Pg.NMAP NMAP.WRITE_REFUSED_CNT t ∧
        s.RegsOnly (regsAt [(Pg.NMAP, CMN.CFG_STATE), (Pg.NMAP, CMN.ERR_DETAIL), (Pg.NMAP, CMN.EVENTS), (Pg.NMAP, NMAP.IDX.off),
          (Pg.NMAP, NMAP.WRITE_REFUSED_CNT.off)]) t) ∧
      (s.Reaches Pg.NMAP → ∃ t, exec .cellDataRead s = .next t ∧ t.host.rdata = s.cell idx ∧ t.nmap = s.nmap ∧
        t.get Pg.NMAP NMAP.IDX = (if s.flag Pg.NMAP NMAP.INC then (idx + 1) % 16384 else idx) ∧
        s.RegsKept (regsAt [(Pg.NMAP, NMAP.IDX.off)]) t ∧ s.DramKept t) ∧
      (∀ cell : Fin 16384, s.fwRunning = true → s.get Pg.MAC MAC.REGIME = 0 → s.flag Pg.NMAP NMAP.OWNER = false → ∃ t, exec (.nmapKernelWrite cell v) s = .next t ∧
        (∀ i, t.cell i = if i = cell.val then v &&& 0x010003FF else s.cell i) ∧ s.Counted Pg.NMAP NMAP.CELL_WRITE_CNT t ∧
        s.RegsKept (onPages [Pg.NMAP]) t ∧ s.DramKept t) ∧
      (∀ cell : Fin 16384, s.get Pg.MAC MAC.REGIME ≠ 0 → ∃ t, exec (.nmapKernelWrite cell v) s = .next t ∧
        s.RegsOnly (fun _ => False) t) ∧
      (∀ cell : Fin 16384, s.fwRunning = true → s.get Pg.MAC MAC.REGIME = 0 → s.flag Pg.NMAP NMAP.OWNER = true → ∃ t, exec (.nmapKernelWrite cell v) s = .next t ∧
        t.nmap = s.nmap ∧ t.get Pg.NMAP NMAP.EV_WRITE_REFUSED = 1 ∧ s.Counted Pg.NMAP NMAP.WRITE_REFUSED_CNT t ∧
        s.RegsOnly (regsAt [(Pg.NMAP, CMN.EVENTS), (Pg.NMAP, NMAP.WRITE_REFUSED_CNT.off)]) t) ∧
      (∀ tick, Tab.wf (fun _ => cellReset) s.nmap = true → ∃ t, exec (.nmapAgeTick tick) s = .next t ∧
        (∀ i, cellAge (t.cell i) = Nat.min (cellAge (s.cell i) + 1) 255 ∧ cellNoise (t.cell i) = cellNoise (s.cell i) ∧
          cellValid (t.cell i) = cellValid (s.cell i)) ∧ s.RegsKept (onPages [Pg.NMAP]) t ∧ s.DramKept t))

/-! ## Transmit synthesis (R153 to R172) -/

/-- What is due on a lane goes on the line at its t0 (R99, R153, R156, R158 to R161, R205), on a port in service of a device that is no
orphan, below L5: the first copy of a frame of classes 1 to 3 with the settings of its channel definition, its message counting the
attempt and holding its SEQ from then on; a class-0 frame that waits for its staggered t0 on lane 15; a later copy with the settings
latched at copy 0, or, where it does not fit or its channel is blocked, not at all: its run ends and its message counts the attempt as
not made; an acknowledgement whose body is released, on the lane of its channel; a wake frame, skipped where its channel may start
nothing or its level does not fit. -/
def Obligations.TransmissionsStart : Prop :=
  ∀ (s : State) (tick : Nat) (port lane : Fin 16) (txs lpt : Nat), txs = Pg.TXS port.val → lpt = Pg.LPT port.val →
    s.portReady port.val = true → s.isOrphan = false → s.level ≠ 5 →
    (∀ x m, (lane.val = 15 → Tab.get (fun _ => none) s.txs.c0Next port.val = none) → s.lane port.val lane.val = some x →
      x.onLine = false → x.t0 ≤ tick → s.msg x.queue x.tag = some m →
      m.seq.isSome = true ∨ s.cannotSecure (s.plan x.queue m) = false →
      (x.kind = .data ∨ x.kind = .schedule → x.copy = 0 → s.trainOf x.queue x.tag = none → s.txUsable port.val x.ch = true →
        (s.atTick tick).startFits port.val x = true →
        ∃ t, exec (.transmissionStart tick port lane) s = .next t ∧ s.Counted txs TXS.FRAME_CNT t ∧
          (∃ y, t.lane port.val lane.val = some y ∧ y.phase = .onLine ∧ y.kind = x.kind ∧ y.centre = s.txCentre port.val x.ch ∧
            y.rate = s.txRate port.val x.ch ∧ y.preamble = s.get txs (TXS.PREAMBLE.nth x.ch) ∧
            y.level = s.get txs (TXS.LEVEL.nth x.ch) ∧ y.sync = s.get txs (TXS.SYNC_WORD.nth x.ch) ∧
            y.mod = modeMod (s.plan x.queue m).mode ∧ y.code = modeCode (s.plan x.queue m).mode ∧
            y.copies = modeCopies (s.plan x.queue m).mode) ∧
          (∃ m', t.msg x.queue x.tag = some m' ∧ m'.attempts = m.attempts + 1 ∧ m'.onLine = true ∧ m'.seq.isSome = true ∧
            m'.payload = m.payload ∧ m'.hdr = m.hdr) ∧ s.DramKept t) ∧
      (∀ symbols, x.kind = .data → x.copy ≠ 0 → (s.atTick tick).dataLevelFits port.val x.level = true →
        bitOf (s.get txs TXS.BLOCKED_CH) x.ch ≠ 1 → symbols = copySymbols x.preamble x.mod x.code x.field.length →
        ∃ t, exec (.transmissionStart tick port lane) s = .next t ∧
          t.lane port.val lane.val = some { x with
            phase := .onLine, held := true, tEnd := x.t0 + airTicks x.rate symbols
            phases := copyPhases x.preamble x.sync (copyHeader x.rate x.mod x.code x.field.length x.copies x.copy) x.field
            energy := s.energyOf port.val x.level (airTicks x.rate (symbols + 2)) } ∧
          s.Counted txs TXS.FRAME_CNT t ∧ t.wad = s.wad ∧ s.DramKept t ∧
          (x.copy + 1 < x.copies ∨ x.ackReq = false → State.RegsOnly (regsAt [(txs, TXS.FRAME_CNT.off), (lpt, LPT.ENA.off)])
            { s.atTick tick with txs := t.txs, lpt := t.lpt } t)) ∧
      (x.kind = .data → x.copy ≠ 0 → m.cancelled = false → m.byTrain = false →
        (s.atTick tick).dataLevelFits port.val x.level = false ∨ bitOf (s.get txs TXS.BLOCKED_CH) x.ch = 1 →
        ∃ t, exec (.transmissionStart tick port lane) s = .next t ∧ t.lane port.val lane.val = none ∧
          s.Counted txs TXS.RUN_END_CNT t ∧ t.get txs TXS.EV_RUN_END = 1 ∧
          (∃ m', t.msg x.queue x.tag = some m' ∧ m'.attempts = m.attempts - 1 ∧ m'.inFlight = m.inFlight ∧ m'.onLine = false ∧
            m'.seq = m.seq ∧ m'.payload = m.payload) ∧
          State.RegsOnly (regsAt [(txs, CMN.EVENTS), (txs, TXS.RUN_END_CNT.off), (Pg.OAS, OAS.COMMITTED_MW.off),
            (Pg.OAS, OAS.C0_COMMITTED_MW.off), (Pg.OAS, OAS.FREE_MW.off)])
            { s.atTick tick with txs := t.txs, wad := t.wad, mac := t.mac, oas := t.oas } t)) ∧
    (∀ x m, lane.val = 15 → Tab.get (fun _ => none) s.txs.c0Next port.val = some x → x.t0 ≤ tick →
      (∀ y, s.lane port.val 15 = some y → y.kind = .ack) → x.kind = .class0 → x.copy = 0 → s.msg x.queue x.tag = some m →
      m.seq.isSome = true ∨ s.cannotSecure (s.plan x.queue m) = false →
      ∃ t y m', exec (.transmissionStart tick port lane) s = .next t ∧ Tab.get (fun _ => none) t.txs.c0Next port.val = none ∧
        t.lane port.val 15 = some y ∧ y.kind = .class0 ∧ y.phase = .onLine ∧ y.t0 = x.t0 ∧ s.Counted txs TXS.FRAME_CNT t ∧
        t.msg x.queue x.tag = some m' ∧ m'.attempts = m.attempts + 1 ∧ m'.onLine = true ∧ m'.seq.isSome = true) ∧
    (∀ o a, (lane.val = 15 → Tab.get (fun _ => none) s.txs.c0Next port.val = none) → s.lane port.val lane.val = none →
      s.ackDue tick port.val lane.val = some o → s.ackYields o = false → s.ackLane o = some lane.val → o.body = some a →
      s.ackLevelFits port.val (s.get txs TXS.ACK_LEVEL) = true → ∃ t, exec (.transmissionStart tick port lane) s = .next t ∧
        t.lane port.val lane.val = some { s.ackLaneOf o with
          phase := .onLine, held := true, tEnd := o.t0 + airTicks o.rate (ackSymbols o.robust), phases := ackPhases o.sync o.robust a
          energy := s.energyOf port.val (s.get txs TXS.ACK_LEVEL) (airTicks o.rate (ackSymbols o.robust + 2)) } ∧
        s.Counted txs TXS.ACK_CNT t ∧ t.get lpt LPT.ENA = 1 ∧
        t.mac.owed = s.mac.owed.map (fun y => if y = o then { y with sent := true } else y) ∧
        State.RegsOnly (regsAt [(txs, TXS.ACK_CNT.off), (lpt, LPT.ENA.off), (Pg.DWL, CMN.EVENTS), (Pg.DWL, DWL.ACK_OVER_CNT.off),
          (Pg.DWL, DWL.OVER.off), (Pg.MIR, MIR.ACKED_COMBINED_CNT.off)])
          { s.atTick tick with txs := t.txs, lpt := t.lpt, mac := t.mac } t) ∧
    (∀ x r, (lane.val = 15 → Tab.get (fun _ => none) s.txs.c0Next port.val = none) → s.lane port.val lane.val = some x →
      x.phase = .scheduled → x.t0 ≤ tick → x.kind = .wake → s.mac.trains.find? (fun r => decide (r.ep = x.queue)) = some r →
      (s.txUsable port.val x.ch = true → (s.atTick tick).startFits port.val x = true →
        ∃ t, exec (.transmissionStart tick port lane) s = .next t ∧ s.Counted txs TXS.FRAME_CNT t ∧
          s.Counted Pg.MAC MAC.WAKE_FRAME_CNT t ∧ (∃ y, t.lane port.val lane.val = some y ∧ y.phase = .onLine ∧ y.kind = .wake) ∧
          State.RegsOnly (regsAt [(txs, TXS.FRAME_CNT.off), (lpt, LPT.ENA.off), (Pg.MAC, MAC.WAKE_FRAME_CNT.off)])
            { s.atTick tick with txs := t.txs, lpt := t.lpt, key := t.key } t) ∧
      (s.txUsable port.val x.ch = false ∨ (s.atTick tick).startFits port.val x = false →
        ∃ t, exec (.transmissionStart tick port lane) s = .next t ∧
          t.lane port.val lane.val = some { x with phase := .between, held := true } ∧ s.Counted Pg.MAC MAC.WAKE_SKIP_CNT t ∧
          t.get Pg.MAC MAC.EV_WAKE_SKIP = 1 ∧
          State.RegsOnly (regsAt [(Pg.MAC, CMN.EVENTS), (Pg.MAC, MAC.WAKE_SKIP_CNT.off)]) { s.atTick tick with txs := t.txs } t))

/-- A victim is cut at its first symbol boundary at or after the class-0 t0, up to its last data symbol (R126, R167, R168): in its
preamble or sync word it ends there with no pattern, later it sends S_cut at its own rate; its run ends, and its message waits for its
next grant with CLASS0_PREEMPT, the attempt not made, its SEQ kept.
A transmission ends after its fall (R76, R89, R90, R100, R207): its on-time is recorded and its mark lasts 256 ticks more; the
echo taps take the adapted values unless ECHO_FREEZE keeps them, the analog settings where the cancellation DAC is on; an
acknowledgement's lane is free and it is owed no longer, a run waits for the instant of its next copy, and the last copy of a frame
that asks for an acknowledgement leaves its window open. -/
def Obligations.TransmissionsAreCutOrEnd : Prop :=
  (∀ (s : State) (tick n : Nat) (port lane : Fin 16) (x : Lane) (m : Msg) (txs : Nat), txs = Pg.TXS port.val →
      s.lane port.val lane.val = some x → x.victim = true → x.phase = .onLine → tick = x.boundaryFrom x.cutFrom → tick < x.tEnd →
      n = (tick - x.t0) / symTicks x.rate → s.msg x.queue x.tag = some m → m.cancelled = false → m.byTrain = false →
      ∃ t, exec (.victimCut tick port lane) s = .next t ∧ t.get txs TXS.EV_CUT = 1 ∧
        (n < x.preamble + 32 → s.Counted txs TXS.CUT_SILENT_CNT t ∧ t.lane port.val lane.val =
          some { x with phase := .ending, copies := x.copy + 1, tEnd := tick, phases := x.phases.take n }) ∧
        (x.preamble + 32 ≤ n → s.Counted txs TXS.CUT_PATTERN_CNT t ∧ t.lane port.val lane.val =
          some { x with phase := .ending, copies := x.copy + 1, tEnd := tick + airTicks x.rate 32
                        phases := x.phases.take n ++ cutPhases x.sync }) ∧
        (∃ m', t.msg x.queue x.tag = some m' ∧ m'.attempts = m.attempts - 1 ∧ m'.inFlight = m.inFlight ∧ m'.onLine = false ∧
          m'.delay = Delay.PREEMPT ∧ m'.cut = true ∧ m'.seq = m.seq) ∧
        s.RegsKept (regsAt [(txs, CMN.EVENTS), (txs, TXS.CUT_SILENT_CNT.off), (txs, TXS.CUT_PATTERN_CNT.off),
          (Pg.OAS, OAS.COMMITTED_MW.off), (Pg.OAS, OAS.C0_COMMITTED_MW.off), (Pg.OAS, OAS.FREE_MW.off)]) t ∧ s.DramKept t) ∧
  (∀ (s : State) (tick : Nat) (port lane : Fin 16) (x : Lane) (e : EchoResult) (lpt : Nat), lpt = Pg.LPT port.val →
      s.lane port.val lane.val = some x → x.phase = .onLine → x.fallEnd ≤ tick →
      (x.kind = .ack → (s.lptSt port.val).echoReset = false →
        ∃ t, exec (.transmissionEnd tick port lane e) s = .next t ∧ t.lane port.val lane.val = none ∧
          t.txs.hist.head? = some (x.onTime port.val) ∧ s.TapsAdapted port.val e t ∧
          (s.flag lpt LPT.CANC_EN = true → t.get lpt LPT.CANC_GAIN = e.gain.toNat ∧ t.get lpt LPT.CANC_DELAY = e.delay.toNat) ∧
          (s.flag lpt LPT.CANC_EN = false → t.reg lpt LPT.CANC_GAIN.off = s.reg lpt LPT.CANC_GAIN.off) ∧
          (∀ m, m ∈ s.txs.marks → m.port = port.val → m.lane = lane.val → m.stop = none →
            { m with stop := some (x.fallEnd + 256) } ∈ t.txs.marks) ∧
          (∀ o, o ∈ t.mac.owed ↔ o ∈ s.mac.owed ∧
            ¬ (o.port = port.val ∧ o.centre = x.centre ∧ o.rate = x.rate ∧ o.tEnd = x.due)) ∧
          State.RegsOnly (fun a => echoTaps port.val a ∨ regsAt [(lpt, LPT.CANC_GAIN.off)] a)
            { s.atTick tick with txs := t.txs, mac := t.mac } t) ∧
      (x.kind = .data → x.copy + 1 < x.copies → s.isOrphan = false → (s.lptSt port.val).echoReset = false →
        ∃ t at', exec (.transmissionEnd tick port lane e) s = .next t ∧
          at' = s.copyInstant x.tEnd x.p0 x.copies x.copy ∧
          t.lane port.val lane.val = some { x with phase := .between, copy := x.copy + 1, t0 := at', due := at' } ∧
          x.tEnd + 2048 ≤ at' ∧ t.wad = s.wad ∧ s.DramKept t) ∧
      (x.kind = .data → x.copies ≤ x.copy + 1 → x.ackReq = true →
        ∃ t, exec (.transmissionEnd tick port lane e) s = .next t ∧ t.lane port.val lane.val = none ∧
          (∀ w, w ∈ t.mac.wins → w.queue = x.queue → w.tag = x.tag → w.isOpen = true) ∧ s.DramKept t))

/-- The 1 ms figures and transmit marks (R90, R162, R172): line power and currents follow from the converter's codes, crest control's
deepest gain and the clipped samples from the DAC samples of the window; EST_K moves one step of 1/1,024 in a window louder than −40 dBFS and stays otherwise; a mark whose 256 ticks have passed is gone. -/
def Obligations.EnergyFiguresAndMarks : Prop :=
  ∀ (s : State) (tick : Nat) (port lane : Fin 16) (g : EnergyFigures) (txs lpt : Nat), txs = Pg.TXS port.val → lpt = Pg.LPT port.val →
    (s.domOn (112 + port.val) = true → ∃ t, exec (.txEnergyReport tick port g) s = .next t ∧
      t.get txs TXS.DAC_RMS = g.dacRms.toNat ∧ t.get txs TXS.P_LINE_MW = satSigned 16 (s.lineMw port.val g.product) ∧
      t.get txs TXS.I_RMS_MA = sat 16 (s.codeMa port.val g.rms) ∧
      t.get txs TXS.CREST_GAIN_MIN = s.crestDepth port.val (Nat.max s.time tick) ∧
      t.get lpt LPT.I_MEAN_MA = sat 16 (s.codeMa port.val g.mean) ∧ t.get lpt LPT.I_PEAK_MA = sat 16 (s.codeMa port.val g.peak) ∧
      s.CountedBy txs TXS.CLIP_CNT (s.clipCount port.val (Nat.max s.time tick)) t ∧
      (0 < s.clipCount port.val (Nat.max s.time tick) → t.get txs TXS.EV_CLIP = 1) ∧
      Tab.get (fun _ => 0) t.oas.lineMw port.val = s.lineMw port.val g.product ∧
      (400 ≤ g.dacRms.toNat → t.estK port.val = s.estK port.val ∧ t.get txs TXS.EST_K = s.get txs TXS.EST_K) ∧
      (g.dacRms.toNat < 400 → t.estK port.val = estStep (s.estK port.val) g.dacRms.toNat (s.lineMw port.val g.product) ∧
        t.get txs TXS.EST_K = Nat.min (t.estK port.val / 1048576) 65535) ∧
      State.RegsOnly (regsAt [(txs, TXS.DAC_RMS.off), (txs, TXS.EST_K.off), (txs, TXS.CREST_GAIN_MIN.off), (txs, CMN.EVENTS),
        (txs, TXS.CLIP_CNT.off), (lpt, LPT.I_MEAN_MA.off)]) { s.atTick tick with txs := t.txs, oas := t.oas } t) ∧
    (∃ t, exec (.txMarkEnd tick port lane) s = .next t ∧
      (∀ m, m ∈ t.txs.marks ↔ m ∈ s.txs.marks ∧
        ¬ (m.port = port.val ∧ m.lane = lane.val ∧ ∃ e, m.stop = some e ∧ e ≤ tick)) ∧
      (s.recording = false → s.DramKept t) ∧
      (∀ m, s.txs.marks.filter (fun m => decide (m.port = port.val) && decide (m.lane = lane.val)) = [m] → s.SideKept t) ∧
      State.RegsOnly (fun _ => False) { s.atTick tick with txs := t.txs, mir := t.mir, dram := t.dram } t)

/-! ## Mirage (R173 to R196) -/

/-- Recording (R173 to R176): the slab that ends at a tick is stored at the next position that is neither pinned nor held, the
samples of every port whose RX AFE domain is on saturated to ±32,767 and 0 for the others, and its directory entry is rewritten; a sample that a full queue lost is 0x8000 in the ring, is counted, and sets LOSS in the entry (R174).
Stated for a slab that follows the last one, with the ring clear of its own directory region. -/
def Obligations.SlabsAreRecorded : Prop :=
  ∀ (s : State) (tick m r : Nat) (samples : List (List (Option (BitVec 16)))) (codes : List Nat), s.regionOf 7 = some r →
    (∀ d, s.regionOf 8 = some d → s.regionBase d + 8 * m + 8 ≤ s.regionBase r + 65536 * m ∨
      s.regionBase r + 65536 * m + 65536 ≤ s.regionBase d + 8 * m) → s.recording = true → 2048 ≤ tick →
    nextFreeSlab s.mir.dir s.slabCount (s.mir.dir.length + 1) (s.get Pg.MIR MIR.HEAD_SLAB) = some m →
    tick / 2048 * 2048 - 2048 ≤ s.mir.nextSlab ∨ s.mir.nextSlab = 0 →
    codes = (List.range 16).flatMap (s.slabPort samples) →
    ∃ t, exec (.slabWrite tick samples []) s = .next t ∧
      (∀ p i, p < 16 → i < 2048 → ∀ v, v = (if s.domOn (96 + p) then
            (match (samples.getD p []).getD i none with
              | some x => ringSample x
              | none => 0x8000)
          else 0) →
        t.dramByte (s.regionBase r + 65536 * m + 4096 * p + 2 * i) = BitVec.ofNat 8 v ∧
        t.dramByte (s.regionBase r + 65536 * m + 4096 * p + 2 * i + 1) = BitVec.ofNat 8 (v / 256)) ∧
      (∀ a, a < s.regionBase r + 65536 * m ∨ s.regionBase r + 65536 * m + 65536 ≤ a →
        (∀ d, s.regionOf 8 = some d → a < s.regionBase d + 8 * m ∨ s.regionBase d + 8 * m + 8 ≤ a) → t.dramByte a = s.dramByte a) ∧
      dirSlab (t.dir m) = (tick / 2048 - 1) % 2 ^ 54 ∧ dirValid (t.dir m) = true ∧ dirHeld (t.dir m) = false ∧
      (bitOf (t.dir m) 60 = 1 ↔ 0x8000 ∈ codes) ∧ (0x8000 ∈ codes → t.get Pg.MIR MIR.EV_WRITE_LOSS = 1) ∧
      s.CountedBy Pg.MIR MIR.WRITE_LOSS_CNT (codes.count 0x8000) t ∧
      (∀ k, k ≠ m → t.dir k = s.dir k) ∧ t.mir.nextSlab = tick / 2048 * 2048 ∧
      s.RegsKept (onPages [Pg.MIR]) t

/-- Pinned regions and look-up (R192, R193, R195): a PIN of a region that is not FREE, or of a span that ends before it starts, is
refused and pins nothing; an accepted PIN whose span is recorded pins every VALID slab of it and reads HELD with PIN_DONE;
UNPIN frees the region; LOOKUP answers the position of the slab that holds the tick, or FOUND 0.
Combining and slots (R186, R187): the kernel of running link firmware forms one field from the two or more copies of a slot and
queues it for the trellis pool with the number of copies in it; a position erased in every copy stays erased and every combined value
lies within ±7; 1 s after the end of the run's final copy, with its jobs ended, an undelivered slot is freed and counted.
Diagnostic replay (R196): GO is refused with STATE while an order is queued or running, and otherwise for a bad window or dump;
an accepted order reads QUEUED and is one job with the settings given, to be delivered to ring DIAG_RING; ABORT lets the
running order end at its next block boundary. -/
def Obligations.PinsLookupAndDiagnostics : Prop :=
  (∀ (s : State) (region : Fin 16) (start stop : Nat), s.Reaches Pg.MIR →
      start = s.get Pg.MIR MIR.PIN_START_LO + 2 ^ 32 * s.get Pg.MIR MIR.PIN_START_HI →
      stop = s.get Pg.MIR MIR.PIN_END_LO + 2 ^ 32 * s.get Pg.MIR MIR.PIN_END_HI →
      (∀ code, s.pinRefusal region.val start stop = some code → ∃ t, exec (.pin region) s = .next t ∧
        t.get Pg.MIR CFG.ERR_CODE = code ∧ t.get Pg.MIR CMN.EV_CFG_REFUSED = 1 ∧
        s.RegsOnly (regsAt [(Pg.MIR, CMN.CFG_STATE), (Pg.MIR, CMN.ERR_DETAIL), (Pg.MIR, CMN.EVENTS)]) t) ∧
      (s.pinState region.val ≠ 0 → s.pinRefusal region.val start stop = some ErrCode.STATE) ∧
      (s.pinState region.val = 0 → stop ≤ start ∨ stop ≤ s.oldestTick → s.pinRefusal region.val start stop = some ErrCode.RANGE) ∧
      (s.pinRefusal region.val start stop = none → stop ≤ s.mir.nextSlab → Tab.wf (fun _ => 0) s.mir.dir = true →
        ∃ t, exec (.pin region) s = .next t ∧ t.pinState region.val = 2 ∧ t.get Pg.MIR MIR.EV_PIN_DONE = 1 ∧
          t.get Pg.MIR (MIR.PARTIAL.nth region.val) = (if start < s.oldestTick then 1 else 0) ∧
          t.get Pg.MIR (MIR.TRIGGERED.nth region.val) = 0 ∧
          (∀ m, dirValid (s.dir m) = true → dirSlab (s.dir m) * 2048 < stop →
            Nat.max start s.oldestTick < (dirSlab (s.dir m) + 1) * 2048 → dirPinned (t.dir m) = true) ∧
          s.RegsKept (regsAt [(Pg.MIR, (MIR.PIN_ST.nth region.val).off), (Pg.MIR, CMN.EVENTS)]) t) ∧
      (∃ t, exec (.unpin region) s = .next t ∧ t.pinState region.val = 0 ∧
        (∀ p, s.pin region.val = some p → t.pin region.val = none) ∧
        s.RegsKept (regsAt [(Pg.MIR, (MIR.PIN_ST.nth region.val).off)]) t) ∧
      (∀ (high : Bool) (v : Word) (at' : Nat),
        at' = (if high then s.get Pg.MIR MIR.LOOKUP_LO + 2 ^ 32 * v.toNat else v.toNat + 2 ^ 32 * s.get Pg.MIR MIR.LOOKUP_HI) →
        ∃ t, exec (.lookup high v) s = .next t ∧ (t.get Pg.MIR MIR.LOOKUP_FOUND = if (s.slabOf at').isSome then 1 else 0) ∧
          (∀ m, s.slabOf at' = some m → t.get Pg.MIR MIR.LOOKUP_SLAB = m % 2 ^ 21) ∧
          s.RegsOnly (regsAt [(Pg.MIR, if high then MIR.LOOKUP_HI.off else MIR.LOOKUP_LO.off), (Pg.MIR, MIR.LOOKUP_SLAB.off)]) t)) ∧
  ((∀ l : List (Nat × Nat), (∀ e, e ∈ l → e.2 = 8) → combineBit l = 8) ∧
    (∀ l : List (Nat × Nat), (∀ e, e ∈ l → 0 < e.1 ∧ e.2 < 16) → (∃ e, e ∈ l ∧ e.2 ≠ 8) →
      combineBit l < 16 ∧ combineBit l ≠ 8) ∧
    ∀ (s : State) (tick : Nat) (slot : Fin 512) (x : Slot), s.slot slot.val = some x → s.domOn 141 = true →
      (s.flag Pg.MIR MIR.COMBINE_EN = true → s.fwRunning = true → 2 ≤ x.held.length → s.flag Pg.TRL CFG.ARMED = false →
        (∀ d, d < 16 → s.domOn (128 + d / 4) = true → s.decoder d ≠ none) → ∃ t rx, exec (.combineDone tick slot) s = .next t ∧
          t.trl.waiting = s.trl.waiting ++ [⟨3, tick, rx, none⟩] ∧ rx.soft = x.combined ∧ rx.combined = x.held.length ∧
          rx.slot = some slot.val ∧ rx.eng = x.eng ∧ t.mir = s.mir ∧ s.DramKept t ∧ s.RegsKept (onPages [Pg.TRL]) t) ∧
      ((∀ j, j ∈ s.mir.jobs → j.slot ≠ some slot.val) → (∀ e j, e ∈ s.mir.running → e.2 = some j → j.slot ≠ some slot.val) →
        x.finalEnd + 2048000 ≤ tick → ∃ t, exec (.slotTimeout tick slot) s = .next t ∧ t.slot slot.val = none ∧
          (∀ k, k ≠ slot.val → t.slot k = s.slot k) ∧ s.Counted Pg.MIR MIR.COMBINE_FAIL_CNT t ∧
          State.RegsOnly (regsAt [(Pg.MIR, MIR.COMBINE_FAIL_CNT.off)]) { s.atTick tick with mir := t.mir } t)) ∧
  (∀ s : State, s.Reaches Pg.MIR →
      (∀ code off, off < 4096 → s.diagRefusal = some (code, off) → ∃ t, exec .diagGo s = .next t ∧ t.get Pg.MIR CFG.ERR_CODE = code ∧
        t.get Pg.MIR CMN.ERR_OFFSET = off ∧ t.get Pg.MIR CMN.EV_CFG_REFUSED = 1 ∧
        s.RegsOnly (regsAt [(Pg.MIR, CMN.CFG_STATE), (Pg.MIR, CMN.ERR_DETAIL), (Pg.MIR, CMN.EVENTS)]) t) ∧
      (s.get Pg.MIR MIR.DIAG_STATE = 1 ∨ s.get Pg.MIR MIR.DIAG_STATE = 2 → s.diagRefusal = some (ErrCode.STATE, 0x090)) ∧
      (s.diagRefusal = none → s.mir.jobs.length < 131072 → ∃ t j, exec .diagGo s = .next t ∧ t.get Pg.MIR MIR.DIAG_STATE = 1 ∧
        t.mir.jobs = s.mir.jobs ++ [j] ∧ j.kind = RK.DIAG ∧ j.rank = 5 ∧ j.start = s.diagStart ∧ j.stop = s.diagStop ∧
        j.port = s.get Pg.MIR MIR.DIAG_PORT ∧ j.ring = s.get Pg.MIR MIR.DIAG_RING ∧ j.sync = s.get Pg.MIR MIR.DIAG_SYNC ∧
        State.RegsOnly (regsAt [(Pg.MIR, MIR.DIAG_STATE.off)]) { s with mir := t.mir } t) ∧
      (∃ t, exec .diagAbort s = .next t ∧ t.mir.jobs = s.mir.jobs ∧
        (∀ e j, e ∈ t.mir.running → e.2 = some j → j.kind = RK.DIAG → j.ending = true) ∧
        State.RegsOnly (fun _ => False) { s with mir := t.mir } t))

/-- Replay on lent engines (R149, R179 to R181, R185): the best queued job starts on a lendable engine, holding its slabs; one whose
window is gone ends as RING_LOST with its engine, kind and cause, or for a REPEAT window as a missing copy; at the last block
boundary of a job that found nothing the engine returns. -/
def Obligations.ReplayJobsRunOnLentEngines : Prop :=
  ∀ (s : State) (tick : Nat) (eng : Fin 256) (j : RJob) (pg : Nat), pg = Pg.ERG (eng.val / 4) → s.domOn 141 = true →
    (s.level < 2 → s.lendable eng.val = true → (s.atTick tick).nextReplay tick = some j → j.kind ≠ RK.DIAG →
      ((s.atTick tick).unqueue j).jobGone j = none → ∃ t, exec (.replayJobStart tick eng) s = .next t ∧ t.est eng.val = ES.LENT ∧
        (∃ k, t.runningJob eng.val = some k ∧ k.start = j.start ∧ k.stop = j.stop ∧ k.port = j.port ∧ k.sync = j.sync ∧
          k.doneTo = j.doneTo) ∧ j ∉ t.mir.jobs ∧
        s.RegsKept (regsAt [(pg, (ERG.STATE.nth (eng.val % 4)).off)]) t) ∧
    (∀ cause, s.level < 2 → s.lendable eng.val = true → (s.atTick tick).nextReplay tick = some j →
      ((s.atTick tick).unqueue j).jobGone j = some cause → ∃ t, exec (.replayJobStart tick eng) s = .next t ∧
        t.est eng.val = s.est eng.val ∧ t.mir.running = s.mir.running ∧
        (j.kind = RK.REPEAT → s.Counted Pg.MIR MIR.COPY_MISSING_CNT t) ∧
        (j.kind ≠ RK.REPEAT → t.get Pg.MIR MIR.EV_RING_LOST = 1 ∧ s.Counted Pg.MIR MIR.RING_LOST_CNT t ∧
          t.get Pg.MIR MIR.LAST_LOST_ENGINE = j.eng % 256 ∧ t.get Pg.MIR MIR.LAST_LOST_KIND = j.kind % 8 ∧
          t.get Pg.MIR MIR.LAST_LOST_CAUSE = cause) ∧
        State.RegsOnly (onPages [Pg.MIR]) { s.atTick tick with mir := t.mir } t) ∧
    (s.runningJob eng.val = some j → j.kind = RK.REPEAT → j.ending = false → j.stop ≤ j.doneTo + s.speedNow j * 2048 →
      s.jobRunning (.replay eng.val) = true → s.est eng.val = ES.LENT → s.level < 2 → s.flag Pg.MIR CFG.ARMED = false →
      s.EngineFree eng.val → (s.eng eng.val).watchPre = none →
      ∃ t, exec (.replayBlockBoundary tick eng [] [] []) s = .next t ∧ t.est eng.val = ES.HUNT ∧ t.runningJob eng.val = none ∧
        s.Counted Pg.MIR MIR.COPY_MISSING_CNT t) ∧
    (s.runningJob eng.val = none → ∃ t, exec (.replayBlockBoundary tick eng [] [] []) s = .next t ∧
      State.RegsOnly (fun _ => False) (s.atTick tick) t)

/-! ## Medium access (R197 to R219) -/

/-- Phase-bin boundaries (R66, R73, R81, R142): with no set armed, the timebase notes the bin and at a half-cycle start takes the
access phases that are active; every port that delivers samples shows the peak of the bin that ended; and an engine that
erases from the noise map and is in HUNT to ACK_BODY reads the cell of its channel. -/
def Obligations.BinBoundariesMeasureAndRead : Prop :=
  ∀ (s : State) (tick : Nat) (peaks : List PortPeak), s.tb ≠ TB.OFF → s.binDue tick = true →
    (∀ pg, pg ∈ [Pg.MTB, Pg.ERGX, Pg.NMAP] → s.flag pg CFG.ARMED = false) →
    (∀ p, p < 16 → s.flag (Pg.LPT p) CFG.ARMED = false ∧ s.flag (Pg.TXS p) CFG.ARMED = false ∧ s.linkTaps p = []) →
    ∃ t, exec (.phaseBinBoundary tick peaks) s = .next t ∧ t.mtb.lastBin = s.binAt tick ∧ t.mtb.boundary = tick ∧
      (s.countsAt tick / 32768 % 2 ^ 33 ≠ s.mtb.halfIdx → t.mtb.accEff = s.get Pg.MTB MTB.ACC_PHASE ∧ t.mtb.c0Eff = s.get Pg.MTB MTB.C0_PHASE) ∧
      (∀ p, p < 16 → s.domOn (96 + p) = true → s.portSamples p = true →
        t.get (Pg.LPT p) LPT.BIN_PEAK = (peaks.getD p ⟨0, none⟩).peak.toNat) ∧
      (∀ c, c < 256 → s.isLive c = true → s.eget c ERG.NMAP_ERASE = 1 → 4 ≤ s.est c → s.est c ≤ 8 →
        s.binsMean = true → t.eget c ERG.CELL_NOW = (s.chanCell (s.eget c ERG.PORT) (s.eget c ERG.CENTRE) tick).toNat) ∧
      s.RegsKept (fun a => onPages [Pg.MTB] a ∨ regsAt [(Pg.NMAP, NMAP.STALE_CELLS.off), (Pg.NMAP, NMAP.OLDEST_AGE.off),
          (Pg.NMAP, CMN.EVENTS)] a ∨ (∃ p, p < 16 ∧ onPages [Pg.LPT p] a) ∨
        ∃ c, c < 256 ∧ regsAt [(Pg.ERG (c / 4), (ERG.CELL_NOW.nth (c % 4)).off)] a) t ∧
      t.wad = s.wad ∧ t.mac = s.mac ∧ t.txs = s.txs ∧ t.nmap = s.nmap ∧
      t.erg = { s.erg with eng := t.erg.eng } ∧ ∀ c, t.eng c = { s.eng c with cells := (t.eng c).cells }

/-- Attempts at their boundaries (R199 to R204): at a slot an attempt counts down; at its start slot a busy channel is counted and
backoff goes on with a larger exponent and a new draw (a free value, notes/assumptions/64.md); a free one with everything
allowed hands the frame to a lane, with a t0 that leaves ENA_LEAD_US; at a class-0 access point a class-0 frame is placed for
lane 15, on a busy channel as a forced access. A channel counts as busy while it is and for CCA_US after (R199). Stated for the one message that is in flight, with no start placed on another port. -/
def Obligations.AttemptsCountDownAndStart : Prop :=
  ∀ (s u v : State) (tick t0 i : Nat) (sense : List ChannelSense) (peaks : List PortPeak) (a : Attempt) (m : Msg) (p : Plan),
    p = s.plan a.queue m → u = (s.atTick tick).takeSense tick sense → v = (s.atTick tick).accFollow tick → s.OneAttempt a m →
    t0 = tick + s.enaLead p.port → (a.cls ≠ 0 → p.ftype ≠ ftypeSchedule ∧ u.isSleepy a.queue p = false) →
    (tick % 2048 = 0 → s.tb ≠ TB.OFF → a.cls ≠ 0 → a.ready < tick → 1 < a.wait →
      ∃ t, exec (.slotBoundary tick sense peaks) s = .next t ∧ t.mac.attempts = [{ a with wait := a.wait - 1 }] ∧
        t.wad.queues = s.wad.queues ∧ State.RegsOnly (regsAt [(Pg.DWL, DWL.OVER.off)])
          { s.atTick tick with mac := t.mac, wad := t.wad } t) ∧
    (tick % 2048 = 0 → s.tb ≠ TB.OFF → a.cls ≠ 0 → a.ready < tick → a.wait = 0 → s.StartMay p → u.ccaBusy p.port p.ch tick = true →
      a.busyFinds + 1 < s.get Pg.MAC MAC.LIMIT → ∃ t be, exec (.slotBoundary tick sense peaks) s = .next t ∧
        be = Nat.min (a.be + 1) (s.get Pg.MAC MAC.BE_MAX) ∧
        t.mac.attempts = [{ a with busyFinds := a.busyFinds + 1, winRefusals := 0, be := be, wait := Config.freeNat s.free % 2 ^ be }] ∧
        (t.msg a.queue a.tag).map (·.delay) = some Delay.BUSY ∧ s.Counted Pg.MAC MAC.LBT_BUSY_CNT t ∧
        State.RegsOnly (regsAt [(Pg.DWL, DWL.OVER.off), (Pg.MAC, MAC.LBT_BUSY_CNT.off)])
          { s.atTick tick with mac := t.mac, wad := t.wad, free := s.free + 1 } t) ∧
    (∀ l, tick % 2048 = 0 → s.tb ≠ TB.OFF → a.cls ≠ 0 → a.ready < tick → a.wait = 0 → s.StartMay p → s.txs.placed = [] →
      u.ccaBusy p.port p.ch tick = false → u.runDwell p m t0 = 0 → u.windowDefers p.port p.ch t0 a.winRefusals = false →
      s.dataLane p.port = some l →
      ∃ t, exec (.slotBoundary tick sense peaks) s = .next t ∧ t.lane p.port l = some (s.frameLane .data a.queue m p t0 t0) ∧
        (∀ port k, k < 16 → (port, k) ≠ (p.port, l) → t.lane port k = s.lane port k) ∧
        t.mac.attempts = [{ a with started := true }] ∧ (t.msg a.queue a.tag).map (·.delay) = some Delay.NONE ∧
        State.RegsOnly (regsAt [(Pg.DWL, DWL.OVER.off)])
          { s.atTick tick with mac := t.mac, wad := t.wad, txs := t.txs } t) ∧
    (a.cls = 0 → i = v.accIndex v.mtb.c0Eff tick → i ≠ s.mtb.c0Idx → s.c0May a p tick i = true →
      s.txs.placed = [] → ∃ t, exec (.class0AccessPoint tick sense) s = .next t ∧
        Tab.get (fun _ => none) t.txs.c0Next p.port = some (s.frameLane .class0 a.queue m p tick tick) ∧ t.mtb.c0Idx = i ∧
        t.txs.lanes = s.txs.lanes ∧ t.mac.attempts = [{ a with started := true }] ∧
        (u.ccaBusy p.port p.ch tick = true → t.get Pg.MAC MAC.EV_FORCED_ACCESS = 1 ∧ s.Counted Pg.MAC MAC.FORCED_CNT t) ∧
        (u.ccaBusy p.port p.ch tick = false → s.RegsKept (fun _ => False) t) ∧
        State.RegsOnly (regsAt [(Pg.MAC, CMN.EVENTS), (Pg.MAC, MAC.FORCED_CNT.off)])
          { s.atTick tick with mtb := t.mtb, mac := t.mac, txs := t.txs } t)

/-- Wake trains (R213, R216): at a general access point a due train whose checks all pass starts; its message is in flight and its
first wake frame is on a lane; each further wake frame follows at its instant without sensing, or is skipped where its
lane is not free for it; at the promised instant the data frame starts where it may, waits for another slot while
WAKE_HOLD_SLOTS allows, and otherwise the train has failed and its message waits again. -/
def Obligations.WakeTrainsRun : Prop :=
  ∀ (s u v : State) (tick : Nat) (sense : List ChannelSense), u = (s.atTick tick).takeSense tick sense →
    v = (s.atTick tick).accFollow tick →
    (∀ n l t0 q m p, t0 = tick + s.enaLead p.port → s.wad.queues = [(n, q)] → q.msgs = [m] → m.inFlight = false → p = s.plan n m → s.mac.trains = [] → s.mac.attempts = [] →
      s.txs.placed = [] → v.accIndex v.mtb.accEff tick ≠ s.mtb.accIdx → u.TrainMay tick n l p → s.grantRefusal n m p [] = none →
      ∃ t r x, exec (.accessPoint tick sense) s = .next t ∧ t.mtb.accIdx = v.accIndex v.mtb.accEff tick ∧
        t.mac.trains = [r] ∧ r.ep = p.dst ∧ r.queue = n ∧ r.tag = m.tag ∧ r.lane = l ∧ r.next = t0 + s.wakePeriod p ∧
        r.dataT = t0 + (s.trainFrames p (s.ep p.dst) tick - 1) * s.wakePeriod p + s.wakeAir p +
          msTicks (s.get Pg.MAC MAC.WAKE_DATA_GAP_MS) ∧
        t.lane p.port l = some x ∧ x.kind = .wake ∧ x.phase = .scheduled ∧ x.t0 = t0 ∧ x.queue = p.dst ∧
        (t.msg n m.tag).map (·.inFlight) = some true ∧ t.jobRunning (.train p.dst) = true ∧
        State.RegsOnly (regsAt [(Pg.OAS, OAS.COMMITTED_MW.off), (Pg.OAS, OAS.C0_COMMITTED_MW.off), (Pg.OAS, OAS.FREE_MW.off)])
          { s.atTick tick with mtb := t.mtb, mac := t.mac, txs := t.txs, oas := t.oas, wad := t.wad } t) ∧
    (∀ (ep : Fin 4096) r x gap, s.train ep.val = some r → gap = msTicks (s.get Pg.MAC MAC.WAKE_GAP_MS) → r.next ≤ tick →
      r.next ≤ r.dataT - msTicks (s.get Pg.MAC MAC.WAKE_DATA_GAP_MS) - r.air + (r.air + gap) / 2 → r.port < 16 → r.lane < 16 →
      s.lane r.port r.lane = some x →
      (x.kind = .wake → x.phase = .between → s.portReady r.port = true → ∃ t at_, exec (.wakeFrameDue tick ep) s = .next t ∧
        r.next ≤ at_ ∧ (s.txs.placed = [] → at_ = r.next) ∧
        t.lane r.port r.lane = some { x with phase := .scheduled, due := r.next, t0 := at_ } ∧
        t.train ep.val = some { r with next := r.next + r.air + gap } ∧
        State.RegsOnly (regsAt [(Pg.TXS r.port, TXS.STAGGER_DELAY_CNT.off)]) { s.atTick tick with mac := t.mac, txs := t.txs } t) ∧
      (x.kind ≠ .wake ∨ x.phase ≠ .between ∨ s.portReady r.port = false → ∃ t, exec (.wakeFrameDue tick ep) s = .next t ∧
        t.train ep.val = some { r with next := r.next + r.air + gap } ∧ s.Counted Pg.MAC MAC.WAKE_SKIP_CNT t ∧
        t.get Pg.MAC MAC.EV_WAKE_SKIP = 1 ∧
        State.RegsOnly (regsAt [(Pg.MAC, CMN.EVENTS), (Pg.MAC, MAC.WAKE_SKIP_CNT.off)])
          { s.atTick tick with mac := t.mac } t)) ∧
    (∀ (ep : Fin 4096) r m p t0 may, s.train ep.val = some r → s.msg r.queue r.tag = some m → p = s.plan r.queue m → r.port < 16 →
      r.lane < 16 → p.port = r.port → r.dataT ≤ tick → r.holds = 0 ∨ tick % 2048 = 0 →
      s.trainLaneIs r .data .scheduled = false → t0 = u.flexAt p.port (if r.holds = 0 then r.dataT else tick + s.enaLead p.port) →
      u.runDwell p m t0 ≠ 1 →
      may = (s.portReady p.port && s.chanReady p && !s.isOrphan && !s.throttled p.cls && !s.deaf p && !s.tokenMissing p &&
        !u.ccaBusy p.port p.ch tick && decide (u.runDwell p m t0 = 0) && s.trainLaneIs r .wake .between &&
        !u.windowDefers p.port p.ch t0 r.winRefusals) →
      (may = true → ∃ t, exec (.wakeDataDue tick ep sense) s = .next t ∧ t.train ep.val = some r ∧
        t.lane r.port r.lane = some { s.frameLane .data r.queue m p
          (if r.holds = 0 then r.dataT else tick + s.enaLead p.port) t0 with held := true } ∧
        State.RegsOnly (regsAt [(Pg.TXS r.port, TXS.STAGGER_DELAY_CNT.off)])
          { s.atTick tick with mac := t.mac, txs := t.txs } t) ∧
      (may = false → r.holds < s.get Pg.MAC MAC.WAKE_HOLD_SLOTS →
        ∃ t x, exec (.wakeDataDue tick ep sense) s = .next t ∧ t.train ep.val = some x ∧
          x = { r with holds := r.holds + 1, winRefusals := x.winRefusals } ∧
          (s.StartMay p → s.trainLaneIs r .wake .between = true → u.ccaBusy p.port p.ch tick = true →
            s.Counted Pg.MAC MAC.LBT_BUSY_CNT t ∧ (t.msg r.queue r.tag).map (·.delay) = some Delay.BUSY) ∧
          State.RegsOnly (regsAt [(Pg.MAC, MAC.LBT_BUSY_CNT.off), (Pg.DWL, DWL.DWELL_WAIT_CNT.off),
            (Pg.MAC, MAC.TXWIN_DEFER_CNT.off), (Pg.MAC, (MAC.DEAF.nth ((16 * p.port + p.ch) / 32)).off), (Pg.MAC, CMN.EVENTS)]) { s.atTick tick with mac := t.mac, wad := t.wad } t) ∧
      (may = false → s.get Pg.MAC MAC.WAKE_HOLD_SLOTS ≤ r.holds →
        (s.ep ep.val).state = .active → (s.ep ep.val).missed + 1 < s.get Pg.MAC MAC.MISS_LIMIT →
        ∃ t, exec (.wakeDataDue tick ep sense) s = .next t ∧ t.train ep.val = none ∧
          (t.msg r.queue r.tag).map (·.inFlight) = some m.inFlight ∧ (t.ep ep.val).missed = (s.ep ep.val).missed + 1 ∧
          s.Counted Pg.MAC MAC.WAKE_FAIL_CNT t))

/-- Acknowledgements (R205, R207, R208, R212): the body of an acknowledgement that is owed and not late is released to transmit
synthesis for the instant 2.000 ms after the answered copy, with PENDING as the bitmap stands; a late one is dropped and counted. A window whose time is over ends the attempt without its
acknowledgement: the message waits for its next attempt, or ends FAILED_NOACK after its last; the body that answers a
window ends its message DELIVERED or DELIVERED_DUP. -/
def Obligations.AcknowledgementsOwedAndAwaited : Prop :=
  ∀ (s : State) (tick : Nat) (eng : Fin 256),
    (∀ o, (s.mac.owed.find? fun x => decide (x.engine = eng.val) && x.body.isNone) = some o → o.port < 16 →
      (o.passed ≤ o.tEnd + usTicks (s.get Pg.MIR MIR.ACK_CUTOFF_US) →
        ∃ t, exec (.ackStart tick eng) s = .next t ∧ t.mac.owed = s.mac.owed.map (fun x => if x = o then
            { x with body := some ⟨s.ackPending o.dst, o.dup, o.seq, o.dst, o.lqi⟩ } else x) ∧
          (∃ e, e ∈ t.txs.placed ∧ e.port = o.port ∧ e.at_ = o.tEnd + 4096 ∧ e.fixed = true) ∧ t.txs.lanes = s.txs.lanes ∧
          State.RegsOnly (regsAt [(Pg.TXS o.port, CMN.EVENTS), (Pg.TXS o.port, TXS.STAGGER_VIOL_CNT.off)])
            { s.atTick tick with mac := t.mac, txs := t.txs } t) ∧
      (o.tEnd + usTicks (s.get Pg.MIR MIR.ACK_CUTOFF_US) < o.passed → ∃ t, exec (.ackStart tick eng) s = .next t ∧
        o ∉ t.mac.owed ∧ s.Counted Pg.MAC MAC.ACK_LATE_CNT t ∧ t.get Pg.MAC MAC.EV_ACK_LATE = 1 ∧
        State.RegsOnly (regsAt [(Pg.MAC, CMN.EVENTS), (Pg.MAC, MAC.ACK_LATE_CNT.off)])
          { s.atTick tick with mac := t.mac } t)) ∧
    (∀ (queue : Fin 8192) (tag : BitVec 16) w m p, s.mac.wins = [w] → w.queue = queue.val → w.tag = tag.toNat → w.isOpen = true →
      w.found = false ∨ s.ackHeld w = false → w.close ≤ tick → s.msg queue.val tag.toNat = some m → p = s.plan queue.val m →
      m.byTrain = false → m.cancelled = false →
      (m.attempts < s.attemptLimit p.cls → ∃ t, exec (.ackWindowClose tick queue tag) s = .next t ∧ t.mac.wins = [] ∧
        t.msg queue.val tag.toNat = some { m with onLine := false, delay := Delay.NONE, delayAt := tick } ∧
        s.Counted Pg.MAC MAC.ACK_MISS_CNT t ∧
        State.RegsOnly (regsAt [(Pg.MAC, MAC.ACK_MISS_CNT.off), (Pg.OAS, OAS.COMMITTED_MW.off),
          (Pg.OAS, OAS.C0_COMMITTED_MW.off), (Pg.OAS, OAS.FREE_MW.off)])
          { s.atTick tick with erg := t.erg, mac := t.mac, oas := t.oas, wad := t.wad } t) ∧
      (s.attemptLimit p.cls ≤ m.attempts → s.flag Pg.WQD CFG.ARMED = false → isLinkQueue queue.val = false →
        ∃ t d, exec (.ackWindowClose tick queue tag) s = .next t ∧ t.mac.wins = [] ∧ t.msg queue.val tag.toNat = none ∧
          s.Counted Pg.MAC MAC.ACK_MISS_CNT t ∧ s.Counted Pg.WAD WAD.FAILED_CNT t ∧ t.wad.due = s.wad.due ++ [d] ∧
          (d.record.hdr.getD 0 0).toNat / 256 % 256 = (if m.authReject then Outc.FAILED_AUTH else Outc.FAILED_NOACK) ∧
          State.RegsOnly (regsAt [(Pg.MAC, MAC.ACK_MISS_CNT.off), (Pg.WAD, WAD.FAILED_CNT.off), (Pg.OAS, OAS.COMMITTED_MW.off),
            (Pg.OAS, OAS.C0_COMMITTED_MW.off), (Pg.OAS, OAS.FREE_MW.off)])
            { s.atTick tick with erg := t.erg, mac := t.mac, oas := t.oas, wad := t.wad, lnk := t.lnk } t)) ∧
    (∀ (single robust : List Byte) (errs : List (BitVec 16)) w m dup lqi pg e, pg = Pg.ERG (eng.val / 4) → e = eng.val % 4 →
      s.est eng.val = ES.ACK_BODY → s.EngineFree eng.val → s.mac.wins = [w] → s.ackEngine w eng.val = true →
      s.inAckSpan w (s.eng eng.val).tSync = true → w.isOpen = true →
      s.ackBody eng.val single robust = some (dup, w.seq, 0, lqi) → lqi < 256 → s.msg w.queue w.tag = some m →
      m.seq.getD 0 < 4096 → s.flag Pg.WQD CFG.ARMED = false → isLinkQueue w.queue = false →
      ∃ t d, exec (.ackBodyDecided tick eng single robust errs) s = .next t ∧ t.est eng.val = ES.HUNT ∧ t.mac.wins = [] ∧
        t.msg w.queue w.tag = none ∧ s.Counted Pg.MAC MAC.ACK_RX_CNT t ∧
        s.Counted Pg.WAD WAD.DELIVERED_CNT t ∧ t.wad.due = s.wad.due ++ [d] ∧
        (d.record.hdr.getD 0 0).toNat / 256 % 256 = (if dup then Outc.DELIVERED_DUP else Outc.DELIVERED) ∧
        (d.record.hdr.getD 2 0).toNat / 2 ^ 24 = lqi ∧
        State.RegsOnly (regsAt [(pg, (ERG.STATE.nth e).off), (pg, (ERG.ERASED_SYM_CNT.nth e).off), (Pg.MAC, MAC.ACK_RX_CNT.off),
          (Pg.WAD, WAD.DELIVERED_CNT.off), (Pg.OAS, OAS.COMMITTED_MW.off), (Pg.OAS, OAS.C0_COMMITTED_MW.off),
          (Pg.OAS, OAS.FREE_MW.off)])
          { s.atTick tick with erg := t.erg, mac := t.mac, oas := t.oas, wad := t.wad, lnk := t.lnk } t)

/-! ## Slafer link (R223 to R251) -/

/-- The frame path (R129, R206, R223, R224, R234, R268): a field that fails its FCS is counted and goes no further; with REGIME FALLBACK
the address filter drops and counts; a secured live frame whose MIC is wrong fails authentication; an unsecured or a secured
and authentic DATA frame for the head-end becomes one delivery record in the ring of its class, a secured one with CTR_HI and
the duplicate cache following; one for another address is counted as overheard. Stated for a single copy with no
acknowledgement asked for, on a device without a cascade and with no session open. -/
def Obligations.FramePathJudgesFrames : Prop :=
  ∀ (s : State) (tick : Nat) (x : RxCopy) (rest : List RxCopy) (f : RxFrame), f = RxFrame.of x false → s.key.rx = x :: rest →
    x.cut = none → x.diag = none → x.combined = 0 → x.slot = none → x.late = false → x.eng < 256 → s.cavState = CS.OFF →
    s.openSess = [] → s.flag Pg.LNK CFG.ARMED = false →
    (fcsOk x.field = false → ∃ t, exec (.framePathReceive tick) s = .next t ∧ t.key.rx = rest ∧
      s.Counted (Pg.ERG (x.eng / 4)) (ERG.FCS_FAIL_CNT.nth (x.eng % 4)) t ∧ s.Counted Pg.ERGX ERGX.FCS_FAIL_TOT t ∧
      State.RegsOnly (regsAt [(Pg.ERG (x.eng / 4), (ERG.FCS_FAIL_CNT.nth (x.eng % 4)).off), (Pg.ERGX, ERGX.FCS_FAIL_TOT.off)])
        { s.atTick tick with key := t.key } t) ∧
    (fcsOk x.field = true → formatOk x.field = true → s.runSeen f = false → (f.h.cls ≠ 0 ∨ f.h.sec = true) →
      (∀ cnt, s.filtered f.h = some cnt → ∃ t, exec (.framePathReceive tick) s = .next t ∧ t.key.rx = rest ∧
        t.get Pg.FLT FLT.EV_FILTERED = 1 ∧ s.Counted Pg.FLT cnt t ∧
        State.RegsOnly (regsAt [(Pg.FLT, cnt.off), (Pg.FLT, CMN.EVENTS)]) { s.atTick tick with key := t.key } t) ∧
      (∀ n, s.filtered f.h = none → f.h.src ≠ 0 → f.h.sec = true → s.slotOf f.h.src = some n → s.flag Pg.LNK LNK.AUTH_DIAG = false →
        micOk (s.keySlot n).key f.h.src false x.field = false → ∃ t, exec (.framePathReceive tick) s = .next t ∧
          t.key.rx = rest ∧ t.key.slots = s.key.slots ∧ s.Counted Pg.LNK LNK.MIC_FAIL_CNT t ∧
          s.Counted Pg.ERGX ERGX.AUTH_FAIL_TOT t ∧
          State.RegsOnly (regsAt [(Pg.ERG (x.eng / 4), (ERG.AUTH_FAIL_CNT.nth (x.eng % 4)).off),
            (Pg.ERGX, ERGX.AUTH_FAIL_TOT.off), (Pg.LNK, LNK.MIC_FAIL_CNT.off)]) { s.atTick tick with key := t.key } t) ∧
      (∀ ring, s.filtered f.h = none → f.h.src ≠ 0 → f.h.sec = false → s.flag Pg.LNK LNK.REQUIRE_SEC = false → f.h.dst = 0 →
        s.slotOf f.h.src = none → f.h.ackReq = false → f.h.ftype = FT.DATA → f.h.hops = 0 → s.runOf x = none →
        ring = s.classRing f.h.cls → s.ringEn ring = true → s.ringRoom ring = true → s.lossPending ring = false → s.wad.due = [] →
        (s.ep f.h.src).state = .absent → ∃ t r, exec (.framePathReceive tick) s = .next t ∧
          (t.ring ring).recs = (s.ring ring).recs ++ [r] ∧ r.payload = fieldPayload x.field ∧ r.hdr.length = 8 ∧
          s.Counted Pg.WAD WAD.RX_RECORD_CNT t ∧ State.RegsOnly (regsAt [(Pg.WAD, WAD.RX_RECORD_CNT.off)])
            { s.atTick tick with key := { s.key with rx := rest }, wad := t.wad } t) ∧
      (∀ ring n, s.filtered f.h = none → f.h.src ≠ 0 → f.h.sec = true → s.slotOf f.h.src = some n → f.h.dst = 0 → f.h.ackReq = false →
        f.h.ftype = FT.DATA → f.h.hops = 0 → s.runOf x = none → micOk (s.keySlot n).key f.h.src false x.field = true →
        (s.keySlot n).ctrHi < f.counter → f.counter < rekeyAt →
        f.counter ≤ (s.keySlot n).ctrHi + 2 ^ s.get Pg.LNK LNK.CTR_GAP_LOG2 →
        (∀ e, e ∈ (s.keySlot n).cache → e.counter ≠ some f.counter) → ring = s.classRing f.h.cls → s.ringEn ring = true →
        s.ringRoom ring = true → s.lossPending ring = false → s.wad.due = [] → (s.ep f.h.src).state = .absent →
        ∃ t r, exec (.framePathReceive tick) s = .next t ∧ (t.ring ring).recs = (s.ring ring).recs ++ [r] ∧
          r.payload = openPayload (s.keySlot n).key f.h.src false x.field ∧ (t.keySlot n).ctrHi = f.counter ∧
          (t.keySlot n).replays = 0 ∧ (t.keySlot n).key = (s.keySlot n).key ∧ s.Counted Pg.WAD WAD.RX_RECORD_CNT t ∧
          State.RegsOnly (fun a => onPages [Pg.MRM] a ∨ regsAt [(Pg.WAD, WAD.RX_RECORD_CNT.off)] a)
            { s.atTick tick with key := t.key, wad := t.wad, mrm := t.mrm } t) ∧
      (s.filtered f.h = none → f.h.src ≠ 0 → f.h.sec = false → s.flag Pg.LNK LNK.REQUIRE_SEC = false → f.h.dst ≠ 0 →
        (s.ep f.h.src).state = .absent → s.get Pg.WAD WAD.OVH_RING = 0 → ∃ t, exec (.framePathReceive tick) s = .next t ∧
          s.Counted Pg.MAC MAC.OVERHEARD_CNT t ∧ State.RegsOnly (regsAt [(Pg.MAC, MAC.OVERHEARD_CNT.off)])
            { s.atTick tick with key := { s.key with rx := rest } } t))

/-- What link firmware does with frames for it and with silence (R226, R238 to R240, R251): HELLO of a PROVISIONED endpoint takes its
parameters, makes it ACTIVE and is answered with ASSIGN; NEIGHBOUR teaches a direct route; REPORT AUTH_REJECT marks the messages
in flight that carry its SEQ; TEST is taken; an ACTIVE endpoint without contact for SILENT_S is SILENT and reported. -/
def Obligations.EndpointRecordsFollowFrames : Prop :=
  ∀ (s : State) (tick a : Nat) (f : LnkFrame) (rest : List LnkFrame),
    (s.NextFrame f rest → a = f.hdr.src → f.hdr.ftype = FT.HELLO → (s.ep a).state = .provisioned → (s.ep a).noAck < 3 →
      s.LinkCanSend a 11 → ∃ t up, exec (.helloReceived tick) s = .next t ∧ t.lnk.inbox = rest ∧
        t.ep a = { (s.ep a).hello f.payload with state := .active } ∧ (∀ b, b ≠ a → t.ep b = s.ep b) ∧
        t.Sent a FT.ASSIGN 1 up ∧ up.length = 11 ∧ State.RegsOnly (regsAt linkRegs) { s.atTick tick with wad := t.wad, lnk := t.lnk } t) ∧
    (s.NextFrame f rest → a = f.hdr.src → f.hdr.ftype = FT.NEIGHBOUR → (s.ep a).state ≠ .absent → (s.ep a).route ≠ [] →
      [] ∉ (s.ep a).learned → (s.ep a).noAck < 3 → payNat f.payload 0 1 = 1 → payNat f.payload 1 3 % 4096 = 0 →
      ∃ t, exec (.neighbourReceived tick) s = .next t ∧ t.lnk.inbox = rest ∧
        t.ep a = { s.ep a with learned := (s.ep a).learned ++ [[]] } ∧ (∀ b, b ≠ a → t.ep b = s.ep b) ∧
        State.RegsOnly (fun _ => False) { s.atTick tick with lnk := t.lnk } t) ∧
    (s.NextFrame f rest → f.hdr.ftype = FT.REPORT → payNat f.payload 0 1 = 1 → ∃ t, exec (.reportReceived tick) s = .next t ∧
      t.lnk.inbox = rest ∧
      (∀ n tag m, s.msg n tag = some m → m.seq = some (payNat f.payload 1 2) → m.inFlight = true →
        (s.plan n m).dst = f.hdr.src → (t.msg n tag).map (·.authReject) = some true) ∧
      State.RegsOnly (fun _ => False) { s.atTick tick with wad := t.wad, lnk := t.lnk } t) ∧
    (s.NextFrame f rest → f.hdr.ftype = FT.TEST → ∃ t, exec (.testReceived tick) s = .next t ∧ t.lnk.inbox = rest ∧
      State.RegsOnly (fun _ => False) { s.atTick tick with lnk := t.lnk } t) ∧
    (∀ ep : Fin 4096, s.fwRunning = true → (s.ep ep.val).state = .active → s.get Pg.LNK LNK.SILENT_S ≠ 0 →
      (s.ep ep.val).lastContact + s.get Pg.LNK LNK.SILENT_S * 2048000 ≤ tick → s.lnk.events.length < evtMax →
      ∃ t, exec (.endpointSilent tick ep) s = .next t ∧ t.ep ep.val = { s.ep ep.val with state := .silent } ∧
        (∀ b, b ≠ ep.val → t.ep b = s.ep b) ∧ s.Told Evt.ENDPOINT_STATE ep.val (Config.epCode 3) t ∧
        State.RegsOnly (regsAt [(Pg.LNK, CMN.EVENTS)]) { s.atTick tick with lnk := t.lnk } t)

/-- Sessions (R241 to R248): SESS_OPEN with sound parameters, room and a place opens a RECEIVING session and is answered ACCEPT; a segment
in the window is stored at its place and held; ACCEPT takes a sender to SENDING with the granted window; a SACK with COMPLETE
closes its session as done, a stale one changes nothing; REFUSE and ABORT close theirs; QUERY of an unknown session is
answered ABORT; once all that a session sends has gone out, timers open again, query, suspend, or close the session as lost. -/
def Obligations.SessionsOpenMoveAndClose : Prop :=
  ∀ (s : State) (tick a sid h : Nat) (f : LnkFrame) (rest : List LnkFrame) (x : Sess),
    a = f.hdr.src → sid = payNat f.payload 0 1 →
    (∀ total seg win every o, s.NextFrame f rest → f.hdr.ftype = FT.SESS_OPEN → s.sessOf a true sid = none →
      total = payNat f.payload 1 4 → seg = payNat f.payload 5 1 → win = payNat f.payload 6 1 → every = payNat f.payload 7 1 →
      0 < total → total ≤ 16777216 → 16 ≤ seg → seg ≤ segRoom (s.ep a).route.length → 0 < win → win ≤ 64 → 0 < every →
      every ≤ win → s.sessRoom a true = true → s.findPlace (ceilDiv total 4096) = some o → s.LinkCanSend a 4 →
      ∃ t k y, exec (.sessOpenReceived tick) s = .next t ∧ t.sess k = some y ∧ y.ep = a ∧ y.rx = true ∧ y.sid = sid ∧
        y.state = .receiving ∧ y.total = total ∧ y.segSize = seg ∧ y.win = win ∧ y.offset = o ∧ y.base = 0 ∧ y.held = [] ∧
        (∀ j, j ≠ k → t.sess j = s.sess j) ∧
        t.Sent a FT.SESS_CTRL 1 [BitVec.ofNat 8 sid, BitVec.ofNat 8 Op.ACCEPT, 0, BitVec.ofNat 8 win] ∧
        State.RegsOnly (regsAt linkRegs) { s.atTick tick with wad := t.wad, lnk := t.lnk } t) ∧
    (∀ i data addr, s.NextFrame f rest → f.hdr.ftype = FT.SEG → s.sessOf a true sid = some h → s.sess h = some x →
      x.state = .receiving → i = payNat f.payload 1 3 → data = f.payload.drop 4 → i < x.count → x.has i = false →
      i < x.base + x.win → data.length = x.segLen i → (x.withHeld x.base (i :: x.held)).base ≠ x.count → f.hdr.more = true →
      x.sinceSack + 1 < x.sackEvery → s.objAt x = some addr → ∃ t, exec (.segReceived tick []) s = .next t ∧
        t.sess h = some { x.withHeld x.base (i :: x.held) with sinceSack := x.sinceSack + 1, lastRx := (s.atTick tick).time } ∧
        (∀ j, j < data.length → t.dramByte (addr + i * x.segSize + j) = data.getD j 0) ∧
        (∀ d, d < addr + i * x.segSize ∨ addr + i * x.segSize + data.length ≤ d → t.dramByte d = s.dramByte d) ∧
        State.RegsOnly (fun _ => False) { s.atTick tick with dram := t.dram, lnk := t.lnk } t) ∧
    (s.NextFrame f rest → f.hdr.ftype = FT.SACK → s.sessOf a false sid = some h → s.sess h = some x → x.ep = a → x.state = .sending →
      (x.sackCtr ≤ f.counter → payNat f.payload 1 1 % 2 = 1 → ∃ t, exec (.sackReceived tick []) s = .next t ∧ t.sess h = none ∧
        (∀ j, j ≠ h → t.sess j = s.sess j) ∧ s.Counted Pg.LNK LNK.SESS_DONE_CNT t ∧ s.Told Evt.SESSION_DONE a Done.COMPLETE t ∧
        State.RegsOnly (regsAt [(Pg.LNK, CMN.EVENTS), (Pg.LNK, LNK.SESS_DONE_CNT.off)]) { s.atTick tick with lnk := t.lnk } t) ∧
      (f.counter < x.sackCtr → ∃ t, exec (.sackReceived tick []) s = .next t ∧ t.lnk.sess = s.lnk.sess ∧ t.lnk.inbox = rest ∧
        State.RegsOnly (fun _ => False) { s.atTick tick with lnk := t.lnk } t)) ∧
    (s.NextFrame f rest → f.hdr.ftype = FT.SESS_CTRL → payNat f.payload 1 1 = Op.ACCEPT → s.sessOf a false sid = some h →
      s.sess h = some x → x.state = .opening → ∃ t y, exec (.sessAcceptReceived tick []) s = .next t ∧ t.sess h = some y ∧
        y.state = .sending ∧ y.win = Nat.max 1 (Nat.min x.win (payNat f.payload 3 1)) ∧ y.base = x.base ∧
        y.waitFrom = some (s.atTick tick).time ∧ (∀ j, j ≠ h → t.sess j = s.sess j) ∧
        State.RegsOnly (onPages [Pg.WAD]) { s.atTick tick with wad := t.wad, lnk := t.lnk } t) ∧
    (s.NextFrame f rest → f.hdr.ftype = FT.SESS_CTRL → payNat f.payload 1 1 = Op.REFUSE → s.sessOf a false sid = some h →
      s.sess h = some x → x.ep = a → x.state = .opening → ∃ t, exec (.sessRefuseReceived tick) s = .next t ∧ t.sess h = none ∧
        (∀ j, j ≠ h → t.sess j = s.sess j) ∧ s.Counted Pg.LNK LNK.SESS_FAIL_CNT t ∧ s.Told Evt.SESSION_DONE a Done.PEER_REFUSED t ∧
        State.RegsOnly (regsAt [(Pg.LNK, CMN.EVENTS), (Pg.LNK, LNK.SESS_FAIL_CNT.off)]) { s.atTick tick with lnk := t.lnk } t) ∧
    (s.NextFrame f rest → f.hdr.ftype = FT.SESS_CTRL → payNat f.payload 1 1 = Op.ABORT →
      s.sessOf a (decide (payNat f.payload 2 1 ≠ Reason.OBJECT_CHECK) && decide (payNat f.payload 2 1 ≠ Reason.UNKNOWN_SID)) sid = some h →
      s.sess h = some x → x.ep = a → x.state ≠ .complete → ∃ t, exec (.sessAbortReceived tick) s = .next t ∧ t.sess h = none ∧
        (∀ j, j ≠ h → t.sess j = s.sess j) ∧ s.Counted Pg.LNK LNK.SESS_FAIL_CNT t ∧ s.Told Evt.SESSION_DONE a Done.PEER_ABORT t ∧
        State.RegsOnly (regsAt [(Pg.LNK, CMN.EVENTS), (Pg.LNK, LNK.SESS_FAIL_CNT.off)]) { s.atTick tick with lnk := t.lnk } t) ∧
    (s.NextFrame f rest → f.hdr.ftype = FT.SESS_CTRL → payNat f.payload 1 1 = Op.QUERY → s.sessOf a true sid = none →
      s.LinkCanSend a 4 → ∃ t, exec (.sessQueryReceived tick) s = .next t ∧ t.lnk.sess = s.lnk.sess ∧
        t.Sent a FT.SESS_CTRL 1 [BitVec.ofNat 8 sid, BitVec.ofNat 8 Op.ABORT, BitVec.ofNat 8 Reason.UNKNOWN_SID, 0] ∧
        State.RegsOnly (regsAt linkRegs) { s.atTick tick with wad := t.wad, lnk := t.lnk } t) ∧
    (∀ handle : BitVec 16, h = handle.toNat → s.sess h = some x → s.fwRunning = true → x.rx = false →
      (∀ w, x.waitFrom = some w → w + msTicks (s.get Pg.LNK LNK.SACK_WAIT_MS) ≤ tick →
        (s.sessMsgs x = [] → x.state = .opening → x.queries + 1 < s.get Pg.LNK LNK.QUERY_LIMIT → ∃ t, exec (.sackWaitExpiry tick handle) s = .next t ∧
          t.sess h = some { x with queries := x.queries + 1, waitFrom := some (s.atTick tick).time } ∧
          (s.LinkCanSend x.ep 14 → ∃ p, t.Sent x.ep FT.SESS_OPEN 1 p) ∧
          State.RegsOnly (onPages [Pg.WAD]) { s.atTick tick with wad := t.wad, lnk := t.lnk } t) ∧
        (s.sessMsgs x = [] → x.state = .sending → x.queries < s.get Pg.LNK LNK.QUERY_LIMIT → ∃ t, exec (.sackWaitExpiry tick handle) s = .next t ∧
          t.sess h = some { x with queries := x.queries + 1, waitFrom := some tick, queryAt := (s.atTick tick).time } ∧
          State.RegsOnly (onPages [Pg.WAD]) { s.atTick tick with wad := t.wad, lnk := t.lnk } t) ∧
        (s.sessMsgs x = [] → x.state = .sending → s.get Pg.LNK LNK.QUERY_LIMIT ≤ x.queries → ∃ t, exec (.sackWaitExpiry tick handle) s = .next t ∧
          (t.sess h).map (·.state) = some .suspended ∧
          State.RegsOnly (fun _ => False) { s.atTick tick with lnk := t.lnk } t) ∧
        (s.sessMsgs x ≠ [] → ∃ t, exec (.sackWaitExpiry tick handle) s = .next t ∧
          State.RegsOnly (fun _ => False) (s.atTick tick) t)) ∧
      (x.state = .suspended → x.queryAt + s.get Pg.LNK LNK.PROBE_S * 2048000 ≤ tick →
        ∃ t, exec (.probeExpiry tick handle) s = .next t ∧ t.sess h = some { x with queryAt := (s.atTick tick).time } ∧
          State.RegsOnly (onPages [Pg.WAD]) { s.atTick tick with wad := t.wad, lnk := t.lnk } t) ∧
      (x.state = .suspended → x.suspAt + s.get Pg.LNK LNK.HOLD_S * 2048000 ≤ tick → s.lnk.events.length < evtMax → x.ep < 4096 →
        ∃ t, exec (.sessionHoldExpiry tick handle) s = .next t ∧ t.sess h = none ∧ s.Counted Pg.LNK LNK.SESS_FAIL_CNT t ∧
          s.Told Evt.SESSION_DONE x.ep Done.PEER_LOST t ∧
          State.RegsOnly (fun a => onPages [Pg.WAD] a ∨ regsAt [(Pg.LNK, CMN.EVENTS), (Pg.LNK, LNK.SESS_FAIL_CNT.off)] a)
            { s.atTick tick with wad := t.wad, lnk := t.lnk } t))

/-- Mailbox, all commands (R250): a write of MB_CMD while a command is in hand is refused with STATE; while link firmware does not run
it is answered NOT_RUNNING at once; MB_DONE publishes the answer that link firmware has in hand.
Link firmware runs and stops (R17, R209, R250, R251, R254): at its report it is RUNNING with its version, at BOOT_STAGE 0x70, and
medium access is in NORMAL unless FORCE_FALLBACK is 1; a heartbeat counts; HALT is answered and stops it, a missed watchdog or
a fault stops it too; the SCHEDULE and TEST frames that a heartbeat tells are queued (R226, notes/assumptions/124.md): medium access goes to FALLBACK, its queues and those of classes 1 to 3 pause, and frames for it are
dropped; a read of EVT_DATA returns the words of the oldest event in turn. Stops are stated with no wake train running and no core
claim unanswered. -/
def Obligations.MailboxAndFirmwareState : Prop :=
  (∀ (s : State) (tag opcode : Byte) (tick : Nat), s.Reaches Pg.LNK → Operands.unassigned opcode = true →
      (∀ c, c ∈ [Instr.lnkNop tag, .lnkHalt tag, .epAdd tag, .epRemove tag, .epQuery tag, .keySet tag, .sessSend tag [], .sessCancel tag,
          .sessQuery tag, .sessRelease tag, .routeQuery tag, .routeSet tag, .unknownCmd opcode tag] →
        (s.lnk.mb.isSome = true → ∃ t, exec c s = .next t ∧ t.lnk.mb = s.lnk.mb ∧ t.get Pg.LNK CFG.ERR_CODE = ErrCode.STATE ∧
          t.get Pg.LNK CMN.EV_CFG_REFUSED = 1 ∧ s.RegsOnly (regsAt [(Pg.LNK, CMN.CFG_STATE), (Pg.LNK, CMN.ERR_DETAIL),
            (Pg.LNK, CMN.EVENTS)]) t) ∧
        (s.lnk.mb = none → s.fwRunning = false → ∃ t, exec c s = .next t ∧ t.get Pg.LNK LNK.RESULT = MB.NOT_RUNNING ∧
          t.get Pg.LNK LNK.MB_TAG = tag.toNat ∧ t.get Pg.LNK LNK.EV_MB_DONE = 1 ∧
          s.RegsOnly (regsAt [(Pg.LNK, LNK.RESULT.off), (Pg.LNK, CMN.EVENTS)]) t)) ∧
      (s.lnk.mb = none → s.fwRunning = true → ∃ t, exec (.unknownCmd opcode tag) s = .next t ∧ t.Answers tag MB.UNKNOWN_CMD [] ∧
        State.RegsOnly (regsAt [(Pg.LNK, LNK.MB_TAG.off)]) { s with lnk := t.lnk } t) ∧
      (∀ m, s.lnk.mb = some m → ∃ t, exec (.mbDone tick) s = .next t ∧ t.lnk.mb = none ∧ t.get Pg.LNK LNK.RESULT = m.result % 256 ∧
        t.get Pg.LNK LNK.MB_TAG = m.tag % 256 ∧ t.get Pg.LNK LNK.EV_MB_DONE = 1 ∧
        (∀ i, i < 8 → t.get Pg.LNK (LNK.MB_RESP.nth i) = m.resp.getD i 0 % 2 ^ 32) ∧
        State.RegsOnly (fun a => regsAt [(Pg.LNK, LNK.RESULT.off), (Pg.LNK, CMN.EVENTS)] a ∨
          ∃ i, i < 8 ∧ regsAt [(Pg.LNK, (LNK.MB_RESP.nth i).off)] a) { s.atTick tick with lnk := t.lnk } t)) ∧
  (∀ (s : State) (tick : Nat) (tag : Byte) (version : Word),
      (s.fwState = FW.BOOTING → ∃ t, exec (.lnkReportsRunning tick version) s = .next t ∧ t.fwState = FW.RUNNING ∧
        t.get Pg.LNK LNK.FW_VERSION = version.toNat ∧ t.get Pg.LNK LNK.EV_FW_RUNNING = 1 ∧ t.get Pg.RST RST.BOOT_STAGE = 0x70 ∧
        (s.flag Pg.MAC MAC.FORCE_FALLBACK = false → t.get Pg.MAC MAC.REGIME = 0) ∧
        (s.flag Pg.MAC MAC.FORCE_FALLBACK = true → t.get Pg.MAC MAC.REGIME = s.get Pg.MAC MAC.REGIME) ∧
        (∀ h x, s.sess h = some x → x.rx = false → (t.sess h).map (·.state) = some .suspended) ∧
        State.RegsOnly (regsAt [(Pg.LNK, LNK.FW_STATE.off), (Pg.LNK, LNK.FW_VERSION.off), (Pg.LNK, CMN.EVENTS),
          (Pg.RST, RST.BOOT_STAGE.off), (Pg.MAC, MAC.REGIME.off), (Pg.MAC, CMN.EVENTS)])
          { s.atTick tick with lnk := t.lnk, wad := t.wad } t) ∧
      (s.fwRunning = true → (∃ t, exec (.heartbeat tick []) s = .next t ∧ t.lnk.hbAt = tick ∧
          t.get Pg.LNK LNK.HEARTBEAT = (s.get Pg.LNK LNK.HEARTBEAT + 1) % 2 ^ 32 ∧
          State.RegsOnly (regsAt [(Pg.LNK, LNK.HEARTBEAT.off)]) { s.atTick tick with lnk := t.lnk } t) ∧
        (∀ port txch entries, s.LinkCanSend 0xFFF (schedulePayload entries).length →
          ∃ t, exec (.heartbeat tick [.schedule port txch entries]) s = .next t ∧
            t.Sent 0xFFF ftypeSchedule 1 (schedulePayload entries) ∧
            State.RegsOnly (regsAt ((Pg.LNK, LNK.HEARTBEAT.off) :: linkRegs)) { s.atTick tick with lnk := t.lnk, wad := t.wad } t) ∧
        (∀ ep sec ackReq bytes, bytes ≠ [] → s.LinkCanSend ep.val bytes.length →
          ∃ t, exec (.heartbeat tick [.test ep sec ackReq bytes]) s = .next t ∧ t.Sent ep.val FT.TEST 3 bytes ∧
            State.RegsOnly (regsAt ((Pg.LNK, LNK.HEARTBEAT.off) :: linkRegs)) { s.atTick tick with lnk := t.lnk, wad := t.wad } t)) ∧
      (s.fwRunning = true → (∀ k, k < 32 → s.get (Pg.SEIF k) SEIF.OWNER ≠ 2) → s.mac.trains = [] → s.lnk.mb = none →
        (s.Reaches Pg.LNK → ∃ t, exec (.lnkHalt tag) s = .next t ∧ t.fwState = FW.HALTED ∧ t.get Pg.LNK LNK.RESULT = MB.OK ∧
          t.get Pg.LNK LNK.MB_TAG = tag.toNat ∧ t.get Pg.LNK LNK.EV_MB_DONE = 1 ∧ t.get Pg.LNK LNK.EV_FW_STOPPED = 1 ∧
          t.get Pg.MAC MAC.REGIME = 1 ∧ t.wad.lnkPause = true ∧ t.lnk.inbox = [] ∧ t.sec.stopAt = none ∧
          State.RegsOnly (regsAt [(Pg.LNK, LNK.FW_STATE.off), (Pg.LNK, LNK.FW_VERSION.off), (Pg.LNK, CMN.EVENTS),
            (Pg.LNK, LNK.RESULT.off), (Pg.MAC, MAC.REGIME.off), (Pg.MAC, CMN.EVENTS)])
            { s with sec := t.sec, lnk := t.lnk, wad := t.wad } t) ∧
        (∀ c, (c = .lnkWatchdogExpiry tick ∧ s.lnk.hbAt + msTicks (s.get Pg.LNK LNK.WD_MS) ≤ tick) ∨ c = .lnkFault tick →
          ∃ t, exec c s = .next t ∧ t.fwState = FW.STOPPED ∧ t.get Pg.LNK LNK.EV_FW_STOPPED = 1 ∧ t.get Pg.MAC MAC.REGIME = 1 ∧
            t.wad.lnkPause = true ∧ t.lnk.inbox = [] ∧ t.sec.stopAt = some tick ∧
            State.RegsOnly (regsAt [(Pg.LNK, LNK.FW_STATE.off), (Pg.LNK, LNK.FW_VERSION.off), (Pg.LNK, CMN.EVENTS),
              (Pg.MAC, MAC.REGIME.off), (Pg.MAC, CMN.EVENTS)])
              { s.atTick tick with sec := t.sec, lnk := t.lnk, wad := t.wad } t)) ∧
      (∀ e rest, s.Reaches Pg.LNK → s.lnk.events = e :: rest → s.lnk.evtLost = 0 → ∃ t, exec .evtDataRead s = .next t ∧
        t.host.rdata = e.getD s.lnk.evtRead 0 ∧
        (s.lnk.evtRead < 7 → t.lnk.events = s.lnk.events ∧ t.lnk.evtRead = s.lnk.evtRead + 1) ∧
        (7 ≤ s.lnk.evtRead → t.lnk.events = rest ∧ t.lnk.evtRead = 0) ∧
        s.RegsKept (fun _ => False) t ∧ t.wad = s.wad ∧ s.DramKept t))

/-- Mailbox commands as running link firmware carries them out (R236, R238, R239, R242, R246, R250): NOP answers the version; EP_ADD
makes a PROVISIONED record, EP_REMOVE ends it and unbinds its slot, EP_QUERY reads it; KEY_SET binds a key with its counters
at 0; SESS_SEND opens a session with the object's CRC-32C, SESS_CANCEL aborts one, SESS_QUERY reads one, SESS_RELEASE frees a
complete one; ROUTE_QUERY reads a route and ROUTE_SET sets it and tells the endpoint. The codes that EP_QUERY and SESS_QUERY
show are free values (notes/assumptions/69.md). -/
def Obligations.MailboxCommandsAct : Prop :=
  ∀ (s : State) (tag : Byte) (a h : Nat) (r : EpRec), s.Reaches Pg.LNK → s.lnk.mb = none → s.fwRunning = true →
    a = s.arg 0 % 4096 → h = s.arg 0 % 65536 → r = s.ep a →
    (∃ t, exec (.lnkNop tag) s = .next t ∧ t.Answers tag MB.OK [s.get Pg.LNK LNK.FW_VERSION] ∧
      State.RegsOnly (regsAt [(Pg.LNK, LNK.MB_TAG.off)]) { s with lnk := t.lnk } t) ∧
    (∀ slot, slot = s.arg 0 / 2 ^ 16 % 2048 → a ≠ 0 → a ≠ 0xFFF → r.state = .absent → (∀ e, e ∈ s.lnk.eps → e.2.slot ≠ slot) →
      s.lnk.eps.length < 2048 → s.regionOf 2 ≠ none → ∃ t, exec (.epAdd tag) s = .next t ∧ t.Answers tag MB.OK [] ∧
        (t.ep a).state = .provisioned ∧ (t.ep a).slot = slot ∧ (t.ep a).wiMs = s.arg 2 ∧ (t.ep a).sleepy = decide (s.arg 1 % 2 = 1) ∧
        (∀ b, b ≠ a → t.ep b = s.ep b) ∧ State.RegsOnly (regsAt [(Pg.LNK, LNK.MB_TAG.off)]) { s with lnk := t.lnk } t) ∧
    (r.state ≠ .absent → s.openSess = [] → (∀ e, e ∈ s.wad.queues → isLinkQueue e.1 = false) → ∃ t, exec (.epRemove tag) s = .next t ∧ t.Answers tag MB.OK [] ∧ t.ep a = EpRec.idle ∧
      (t.keySlot r.slot).addr = none ∧ (t.keySlot r.slot).key = [] ∧ (∀ b, b ≠ a → t.ep b = s.ep b) ∧
      State.RegsOnly (regsAt [(Pg.LNK, LNK.MB_TAG.off)]) { s with lnk := t.lnk, key := t.key, mrm := t.mrm } t) ∧
    (r.state ≠ .absent → ∃ t, exec (.epQuery tag) s = .next t ∧
      t.Answers tag MB.OK [Config.epCode r.state.index % 16 + r.boot * 2 ^ 16, (s.keySlot r.slot).txCtr, (s.keySlot r.slot).ctrHi,
        r.lastContact, r.lastContact / 2 ^ 32, r.route.length + r.lastLqi * 2 ^ 8] ∧ (∀ b, t.ep b = s.ep b) ∧
      State.RegsOnly (regsAt [(Pg.LNK, LNK.MB_TAG.off)]) { s with lnk := t.lnk } t) ∧
    (∀ slot e, slot = s.arg 0 % 4096 → slot < 2048 → List.find? (fun e => decide (e.2.slot = slot)) s.lnk.eps = some e →
      ∃ t, exec (.keySet tag) s = .next t ∧ t.Answers tag MB.OK [] ∧ (t.keySlot slot).addr = some e.1 ∧
        (t.keySlot slot).key = (List.range 4).flatMap (fun i => leBytes 4 (s.arg (i + 1))) ∧ (t.keySlot slot).txCtr = 0 ∧
        (t.keySlot slot).ctrHi = 0 ∧ (t.keySlot slot).floor = 0 ∧ (t.keySlot slot).cache = [] ∧
        (∀ k, k ≠ slot → t.keySlot k = s.keySlot k) ∧
        State.RegsOnly (fun a => onPages [Pg.MRM] a ∨ regsAt [(Pg.LNK, LNK.MB_TAG.off)] a)
          { s with lnk := t.lnk, key := t.key, mrm := t.mrm } t) ∧
    (∀ offset total seg win every g, offset = s.arg 1 → total = s.arg 2 → seg = s.arg 3 % 256 → win = s.arg 3 / 2 ^ 8 % 256 →
      every = s.arg 3 / 2 ^ 16 % 256 → r.state ≠ .absent → s.regionOf 6 = some g → 0 < total → total ≤ 16777216 → 16 ≤ seg →
      seg ≤ segRoom r.route.length → 0 < win → win ≤ 64 → 0 < every → every ≤ win → offset * 4096 + total ≤ s.regionData g →
      s.sessRoom a false = true → s.LinkCanSend a 14 → ∃ t k y p, exec (.sessSend tag []) s = .next t ∧ t.sess k = some y ∧
        t.Answers tag MB.OK [y.sid + k * 2 ^ 16] ∧ y.ep = a ∧ y.rx = false ∧ y.state = .opening ∧ y.total = total ∧ y.segSize = seg ∧
        y.check = crc32c ((List.range total).map fun i => s.dramByte (s.regionBase g + offset * 4096 + i)) ∧ y.offset = offset ∧
        1 ≤ y.sid ∧ y.sid ≤ 255 ∧ (∀ j, j ≠ k → t.sess j = s.sess j) ∧ t.Sent a FT.SESS_OPEN 1 p ∧
        State.RegsOnly (regsAt ((Pg.LNK, LNK.MB_TAG.off) :: linkRegs)) { s with lnk := t.lnk, wad := t.wad } t) ∧
    (∀ x, s.sess h = some x →
      (x.state ≠ .complete → s.lnk.events.length < evtMax → x.ep < 4096 → ∃ t, exec (.sessCancel tag) s = .next t ∧
        t.Answers tag MB.OK [] ∧ t.sess h = none ∧ (∀ j, j ≠ h → t.sess j = s.sess j) ∧ s.Counted Pg.LNK LNK.SESS_FAIL_CNT t ∧
        s.Told Evt.SESSION_DONE x.ep Done.CANCELLED t ∧
        State.RegsOnly (fun a => onPages [Pg.WAD] a ∨ regsAt [(Pg.LNK, LNK.MB_TAG.off), (Pg.LNK, CMN.EVENTS),
          (Pg.LNK, LNK.SESS_FAIL_CNT.off)] a) { s with lnk := t.lnk, wad := t.wad } t) ∧
      (∃ t, exec (.sessQuery tag) s = .next t ∧ t.lnk.sess = s.lnk.sess ∧
        t.Answers tag MB.OK [Config.sessCode x.state.index % 16, x.base, x.base + x.held.length] ∧
        State.RegsOnly (regsAt [(Pg.LNK, LNK.MB_TAG.off)]) { s with lnk := t.lnk } t) ∧
      (x.state = .complete → ∃ t, exec (.sessRelease tag) s = .next t ∧ t.Answers tag MB.OK [] ∧ t.sess h = none ∧
        (∀ j, j ≠ h → t.sess j = s.sess j) ∧ State.RegsOnly (regsAt [(Pg.LNK, LNK.MB_TAG.off)]) { s with lnk := t.lnk } t)) ∧
    (r.state ≠ .absent → ∃ t, exec (.routeQuery tag) s = .next t ∧
      t.Answers tag MB.OK [r.route.length, leNat (encodeRoute r.route) % 2 ^ 32, leNat (encodeRoute r.route) / 2 ^ 32] ∧
      State.RegsOnly (regsAt [(Pg.LNK, LNK.MB_TAG.off)]) { s with lnk := t.lnk } t) ∧
    (∀ route, route = decodeRoute (s.arg 0 / 2 ^ 16 % 8) (leBytes 4 (s.arg 1) ++ leBytes 4 (s.arg 2)) → r.state ≠ .absent →
      route.length ≤ 4 → route.Nodup → 0 ∉ route → 0xFFF ∉ route → a ∉ route → route ≠ r.route → s.routeFits a route = true → s.LinkCanSend a 11 →
      s.lnk.events.length < evtMax → ∃ t p, exec (.routeSet tag) s = .next t ∧ t.Answers tag MB.OK [] ∧ (t.ep a).route = route ∧
        (t.ep a).pinned = decide (s.arg 0 / 2 ^ 24 % 2 = 1) ∧ (∀ b, b ≠ a → t.ep b = s.ep b) ∧ t.Sent a FT.ASSIGN 1 p ∧
        s.Told Evt.ROUTE_CHANGE a route.length t ∧
        State.RegsOnly (regsAt ((Pg.LNK, LNK.MB_TAG.off) :: linkRegs)) { s with lnk := t.lnk, wad := t.wad } t)

/-! ## Wadi queues and arbitration (R252 to R273, R281 to R288) -/

/-- Queue commands and endings (R253, R254, R263, R264, R266): OPEN opens a CLOSED queue, but not while the descriptor page has a set
pending; PAUSE and RESUME set and clear HOST_PAUSE of one that is not CLOSED; where R254 has no row for the command nothing
happens (notes/assumptions/113.md, the model's own choice); a queue of link firmware refuses every command; CLOSE and FLUSH end the waiting messages
CANCELLED_HOST, CANCEL one of them, or marks one on the line; a class-1 message past its deadline and not on the line ends
EXPIRED_DEADLINE, one of classes 2 and 3 that showed BUDGET for BUDGET_WAIT_MS ends REFUSED_BUDGET. -/
def Obligations.QueuesOpenPauseAndEndMessages : Prop :=
  ∀ (s : State) (tick n : Nat) (tag : BitVec 16) (q : Queue), n = s.get Pg.WQD WQD.QD_IDX → q = s.queue n →
    (s.Reaches Pg.WQD → isLinkQueue n = true →
      ∀ c, c ∈ [Instr.openQueue, .closeQueue, .pauseQueue, .resumeQueue, .flushQueue, .cancelMsg tag] → ∃ t, exec c s = .next t ∧
        t.wad = s.wad ∧ t.get Pg.WQD CFG.ERR_CODE = ErrCode.NOT_PERMITTED ∧ t.get Pg.WQD WQD.EV_CMD_REFUSED = 1 ∧
        s.RegsOnly (regsAt [(Pg.WQD, CMN.CFG_STATE), (Pg.WQD, CMN.ERR_DETAIL), (Pg.WQD, CMN.EVENTS)]) t) ∧
    (s.Reaches Pg.WQD → isLinkQueue n = false →
      (s.queueState n = 0 → s.flag Pg.WQD CFG.PENDING = false → ∃ t, exec .openQueue s = .next t ∧ t.queue n = { q with isOpen := true } ∧
        (∀ k, k ≠ n → t.queue k = s.queue k) ∧ State.RegsOnly (fun _ => False) { s with wad := t.wad } t) ∧
      (s.queueState n = 0 → s.flag Pg.WQD CFG.PENDING = true → ∃ t, exec .openQueue s = .next t ∧ t.wad = s.wad ∧
        t.get Pg.WQD CFG.ERR_CODE = ErrCode.STATE ∧ t.get Pg.WQD WQD.EV_CMD_REFUSED = 1) ∧
      (s.queueState n ≠ 0 → ∃ t, exec .openQueue s = .next t ∧ State.RegsOnly (fun _ => False) s t) ∧
      (∀ (c : Instr) (on : Bool), (c, on) ∈ [(Instr.pauseQueue, true), (.resumeQueue, false)] →
        (s.queueState n ≠ 0 → ∃ t, exec c s = .next t ∧ t.queue n = { q with hostPause := on } ∧ (∀ k, k ≠ n → t.queue k = s.queue k) ∧
          State.RegsOnly (fun _ => False) { s with wad := t.wad } t) ∧
        (s.queueState n = 0 → ∃ t, exec c s = .next t ∧ State.RegsOnly (fun _ => False) s t)) ∧
      (∀ c, (c = Instr.closeQueue ∨ c = .flushQueue) → (∀ m, m ∈ q.msgs → m.inFlight = false) → (q.msgs.map (·.tag)).Nodup →
        s.flag Pg.WQD CFG.ARMED = false → ∃ t l, exec c s = .next t ∧ (t.queue n).msgs = [] ∧
          (t.queue n).isOpen = (if c = .closeQueue then false else q.isOpen) ∧ t.wad.due = s.wad.due ++ l ∧
          l.length = q.msgs.length ∧ (∀ d, d ∈ l → (d.record.hdr.getD 0 0).toNat / 256 % 256 = Outc.CANCELLED_HOST) ∧
          (∀ k, k ≠ n → t.queue k = s.queue k) ∧
          State.RegsOnly (regsAt [(Pg.WAD, WAD.CANCELLED_CNT.off), (Pg.OAS, OAS.COMMITTED_MW.off), (Pg.OAS, OAS.C0_COMMITTED_MW.off),
            (Pg.OAS, OAS.FREE_MW.off)]) { s with mac := t.mac, oas := t.oas, wad := t.wad, lnk := t.lnk } t) ∧
      (∀ m, s.msg n tag.toNat = some m →
        (m.onLine = false → s.flag Pg.WQD CFG.ARMED = false → ∃ t d, exec (.cancelMsg tag) s = .next t ∧
          t.msg n tag.toNat = none ∧ t.wad.due = s.wad.due ++ [d] ∧
          (d.record.hdr.getD 0 0).toNat / 256 % 256 = Outc.CANCELLED_HOST ∧ s.Counted Pg.WAD WAD.CANCELLED_CNT t ∧
          (∀ k, k ≠ n → t.queue k = s.queue k) ∧
          State.RegsOnly (regsAt [(Pg.WAD, WAD.CANCELLED_CNT.off), (Pg.OAS, OAS.COMMITTED_MW.off), (Pg.OAS, OAS.C0_COMMITTED_MW.off),
            (Pg.OAS, OAS.FREE_MW.off)]) { s with mac := t.mac, oas := t.oas, wad := t.wad, lnk := t.lnk } t) ∧
        (m.onLine = true → ∃ t, exec (.cancelMsg tag) s = .next t ∧ t.msg n tag.toNat = some { m with cancelled := true } ∧
          (∀ k, k ≠ n → t.queue k = s.queue k) ∧ State.RegsOnly (fun _ => False) { s with wad := t.wad } t)) ∧
      (s.msg n tag.toNat = none → ∃ t, exec (.cancelMsg tag) s = .next t ∧ t.wad = s.wad ∧
        t.get Pg.WQD CFG.ERR_CODE = ErrCode.STATE ∧ t.get Pg.WQD WQD.EV_CMD_REFUSED = 1)) ∧
    (∀ (queue : Fin 8192) m, s.msg queue.val tag.toNat = some m → isLinkQueue queue.val = false → s.flag Pg.WQD CFG.ARMED = false →
      (∀ d, m.deadline = some d → d ≤ tick → m.onLine = false → ∃ t e, exec (.expiredDeadline tick queue tag) s = .next t ∧
        t.msg queue.val tag.toNat = none ∧ t.wad.due = s.wad.due ++ [e] ∧
        (e.record.hdr.getD 0 0).toNat / 256 % 256 = Outc.EXPIRED_DEADLINE ∧ s.Counted Pg.WAD WAD.EXPIRED_CNT t ∧
        State.RegsOnly (regsAt [(Pg.WAD, WAD.EXPIRED_CNT.off), (Pg.OAS, OAS.COMMITTED_MW.off), (Pg.OAS, OAS.C0_COMMITTED_MW.off),
          (Pg.OAS, OAS.FREE_MW.off)]) { s.atTick tick with mac := t.mac, oas := t.oas, wad := t.wad, lnk := t.lnk } t) ∧
      (2 ≤ (s.queue queue.val).cls → (s.queue queue.val).budgetWait ≠ 0 → m.delay = Delay.BUDGET → m.inFlight = false →
        msTicks (s.queue queue.val).budgetWait ≤ m.budgetTicks + (tick - m.delayAt) →
        ∃ t e, exec (.refusedBudget tick queue tag) s = .next t ∧ t.msg queue.val tag.toNat = none ∧ t.wad.due = s.wad.due ++ [e] ∧
          (e.record.hdr.getD 0 0).toNat / 256 % 256 = Outc.REFUSED_BUDGET ∧ s.Counted Pg.WAD WAD.REFUSED_CNT t ∧
          t.get Pg.WAD WAD.EV_BUDGET_REFUSED = 1 ∧
          State.RegsOnly (regsAt [(Pg.WAD, WAD.REFUSED_CNT.off), (Pg.WAD, CMN.EVENTS), (Pg.OAS, OAS.COMMITTED_MW.off),
            (Pg.OAS, OAS.C0_COMMITTED_MW.off), (Pg.OAS, OAS.FREE_MW.off)])
            { s.atTick tick with mac := t.mac, oas := t.oas, wad := t.wad, lnk := t.lnk } t))

/-- Records and credit (R261, R267, R269, R281 to R283, R287, R288): a due completion record enters its ring, waits held where the ring is
full (a refusal is lost and counted once 4,096 refusals wait), and is lost where it is not enabled; a LOSS record tells what was dropped; a credit window shows P_BASE and FREE and fills
the line tokens; the arbiter's rotation reaches the message whose turn it is and goes on with the next class; the dispatcher grants a kernel run, or the transmission of a message, that fits, and refuses and counts one
that does not; a cost table of eight entries is taken, one of another length is no command. -/
def Obligations.RecordsAndCreditFollow : Prop :=
  ∀ (s : State) (tick : Nat),
    (∀ (ring : Fin 64) d, (s.wad.due.find? fun e => decide (e.ring = ring.val)) = some d → (∀ a, (s.ep a).noAck < 3) →
      (s.ringEn ring.val = true → s.lossPending ring.val = false → s.ringRoom ring.val = true →
        ∃ t, exec (.completionRecordWrite tick ring) s = .next t ∧
          (t.ring ring.val).recs = (s.ring ring.val).recs ++ [{ d.record with at_ := tick }] ∧
          t.wad.due = dropFirstDue ring.val s.wad.due ∧ (∀ k, k ≠ ring.val → t.ring k = s.ring k) ∧
          State.RegsOnly (fun _ => False) { s.atTick tick with wad := t.wad } t) ∧
      (∀ e, s.ringEn ring.val = true → s.lossPending ring.val = false → s.ringRoom ring.val = false → s.newDue ring.val = some e →
        (e.refusal = false ∨ s.heldRefusals < 4096 → ∃ t, exec (.completionRecordWrite tick ring) s = .next t ∧
          t.wad.rings = s.wad.rings ∧ t.wad.due = markFirstHeld ring.val s.wad.due ∧ t.get Pg.WAD WAD.EV_COMP_HELD = 1 ∧
          State.RegsOnly (regsAt [(Pg.WAD, CMN.EVENTS)]) { s.atTick tick with wad := t.wad } t) ∧
        (e.refusal = true → 4096 ≤ s.heldRefusals → ∃ t, exec (.completionRecordWrite tick ring) s = .next t ∧
          t.wad.due = dropFirstNew ring.val s.wad.due ∧ (t.ring ring.val).recs = (s.ring ring.val).recs ∧
          (t.ring ring.val).lostRefusal = 1 ∧ s.Counted Pg.WAD WAD.COMP_LOST_CNT t ∧
          State.RegsOnly (regsAt [(Pg.WAD, WAD.COMP_LOST_CNT.off)]) { s.atTick tick with wad := t.wad } t)) ∧
      (s.ringEn ring.val = false → ∃ t, exec (.completionRecordWrite tick ring) s = .next t ∧ t.wad.rings = s.wad.rings ∧
        t.wad.due = dropFirstDue ring.val s.wad.due ∧ s.Counted Pg.WAD WAD.COMP_LOST_CNT t ∧
        State.RegsOnly (regsAt [(Pg.WAD, WAD.COMP_LOST_CNT.off)]) { s.atTick tick with wad := t.wad } t)) ∧
    (∀ ring : Fin 64, s.ringEn ring.val = true → s.lossPending ring.val = true → s.ringRoom ring.val = true →
      ∃ t, exec (.lossRecordWrite tick ring) s = .next t ∧
        (t.ring ring.val).recs = (s.ring ring.val).recs ++ [(s.atTick tick).lossRecord ring.val] ∧ t.lossPending ring.val = false ∧
        (∀ k, k ≠ ring.val → t.ring k = s.ring k) ∧ t.wad.due = s.wad.due ∧
        State.RegsOnly (fun _ => False) { s.atTick tick with wad := t.wad } t) ∧
    (∀ base : Int, tick % 2048 = 0 → s.wad.queues = [] → s.oas.ready = [] → s.get Pg.OAS OAS.LEVEL = s.oas.act →
      (∀ pg, pg ∈ [Pg.OAS, Pg.PWD0, Pg.WAD] → s.flag pg CFG.ARMED = false) → s.flag Pg.OAS OAS.SPRINT_EN = false →
      s.flag Pg.OAS OAS.SPRINT = false → (∀ j, j ∈ s.oas.running → s.shortJob j = false) →
      base = (if s.oas.winSums = [] then s.oas.base else (meanNat s.oas.winSums : Int) - (s.oas.ranRate : Int)) → ∃ t, exec (.creditWindow tick []) s = .next t ∧
        t.get Pg.OAS OAS.P_BASE_MW = sat 16 base.toNat ∧ t.oas.base = base ∧ t.oas.winSums = [] ∧ t.oas.ranRate = s.committed + s.c0Committed ∧
        t.oas.free = (s.get Pg.OAS OAS.CAP_MW : Int) - (if s.flag Pg.OAS OAS.RES_C0_EN then s.get Pg.OAS OAS.RES_C0_MW else 0 : Nat) -
          base - (s.committed : Int) ∧ t.get Pg.OAS OAS.FREE_MW = satSigned 16 t.oas.free ∧ t.oas.running = s.oas.running ∧
        (∀ p burst mw, p < 16 → burst = 1000 * (s.get Pg.OAS (OAS.LINE_BURST_MJ.nth p) : Int) →
          mw = s.get Pg.OAS (OAS.LINE_MW.nth p) → mw ≠ 0 → s.flag Pg.OAS (OAS.AMP_RTD_EN.nth p) = false →
          t.token p = clampInt (-burst) burst (s.token p + (mw : Int) - Tab.get (fun _ => 0) s.oas.lineMw p)) ∧
        State.RegsOnly (onPages [Pg.OAS]) { s.atTick tick with oas := t.oas, wad := t.wad } t) ∧
    (∀ k cls, cls = kernelClass k → s.wad.queues = [] → s.oas.ready = [] → s.flag Pg.WAD CFG.ARMED = false → s.fwRunning = true →
      s.jobRunning (.kernel k) = false → s.level < 4 →
      (s.fits s.seifCost = true → ∃ t, exec (.dispatch tick (some k) []) s = .next t ∧
        t.oas.running = s.oas.running ++ [⟨.kernel k, cls, s.seifCost, false, tick, none, false⟩] ∧ t.oas.ready = [] ∧
        t.oas.free = s.oas.free - (s.seifCost : Int) ∧
        State.RegsOnly (regsAt [(Pg.OAS, OAS.COMMITTED_MW.off), (Pg.OAS, OAS.C0_COMMITTED_MW.off), (Pg.OAS, OAS.FREE_MW.off)])
          { s.atTick tick with oas := t.oas, wad := t.wad } t) ∧
      (s.fits s.seifCost = false → ∃ t, exec (.dispatch tick (some k) []) s = .next t ∧ t.oas.running = s.oas.running ∧
        t.oas.ready = [⟨.kernel k, cls, s.seifCost, false, tick, some tick, false⟩] ∧ s.Counted Pg.OAS OAS.DISPATCH_REFUSE_CNT t ∧
        State.RegsOnly (regsAt [(Pg.OAS, OAS.DISPATCH_REFUSE_CNT.off)]) { s.atTick tick with oas := t.oas, wad := t.wad } t)) ∧
    (∀ n q m p, s.wad.queues = [(n, q)] → q.msgs = [m] → m.inFlight = false → p = s.plan n m → 0 < p.cls → p.cls < 4 → p.port < 16 →
      p.ftype ≠ ftypeSchedule → s.oas.ready = [] →
      s.flag Pg.WAD CFG.ARMED = false → s.queueState n = 1 → (s.atTick tick).holdReason n m = none → (∀ port, s.needToken port = false) →
      s.roomFor p.port = true → s.grantRefusal n m p [] = none →
      s.lineFits p.port tick (modeCopies p.mode * s.energyOf p.port (s.get (Pg.TXS p.port) (TXS.LEVEL.nth p.ch)) (s.copyOn p m)) = true →
      s.fits (s.cost 0) = true → ∃ t a, exec (.dispatch tick none []) s = .next t ∧
        (t.msg n m.tag).map (·.inFlight) = some true ∧ t.mac.attempts = s.mac.attempts ++ [a] ∧ a.queue = n ∧ a.tag = m.tag ∧
        a.cls = p.cls ∧ a.port = p.port ∧ a.be = s.beMin p.cls ∧ a.wait = Config.freeNat s.free % 2 ^ s.beMin p.cls ∧
        a.started = false ∧ t.jobRunning (.tx n m.tag) = true ∧ t.turn p.port = p.cls % 3 + 1 ∧ t.oas.free = s.oas.free - (s.cost 0 : Int) ∧
        State.RegsOnly (fun b => regsAt [(Pg.OAS, OAS.COMMITTED_MW.off), (Pg.OAS, OAS.C0_COMMITTED_MW.off), (Pg.OAS, OAS.FREE_MW.off)] b ∨
          regsAt [(Pg.MAC, (MAC.DEAF.nth ((16 * p.port + p.ch) / 32)).off), (Pg.MAC, CMN.EVENTS)] b)
          { s.atTick tick with mac := t.mac, wad := t.wad, oas := t.oas, free := s.free + 1 } t) ∧
    (∀ rates : List (BitVec 16),
      (rates.length = 8 → s.fwState = FW.RUNNING ∨ s.fwState = FW.BOOTING → ∃ t, exec (.costTableLoad rates) s = .next t ∧
        (∀ i, i < 8 → t.cost i = (rates.getD i 0).toNat) ∧
        s.RegsOnly (fun a => regsAt [(Pg.OAS, OAS.RESERVE_SHORT.off), (Pg.OAS, CMN.EVENTS)] a ∨
          ∃ i, i < 8 ∧ regsAt [(Pg.OAS, (OAS.COST.nth i).off)] a) t) ∧
      (rates.length ≠ 8 → exec (.costTableLoad rates) s = .fault .badOperands))

/-! ## Oasis: levels, sprint, domains and modes (R274 to R297) -/

/-- Levels follow their contributions (R279, R280, R289 to R296): a rail sample shows currents, powers and P_TOTAL; a thermal sample
with every sensor in range and moving shows all valid and takes the hottest reading; each later expiry moves its contribution by
one step or ends it; in every case LEVEL and REASON then are the highest contribution and its reason, and where LEVEL does not
rise nothing outside Oasis changes. Sprint ends without demand for 100 ms; an amplifier sensor silent for 1 s derates its port. -/
def Obligations.LevelsFollowContributions : Prop :=
  ∀ (s : State) (tick : Nat) (calm : State → Prop), s.oas.tjLevel ≤ 5 → s.oas.sensorLevel ≤ 5 →
    (∀ t, calm t ↔ t.get Pg.OAS OAS.LEVEL = t.wantedLevel.1 ∧ t.get Pg.OAS OAS.REASON = t.wantedLevel.2 ∧
      (t.get Pg.OAS OAS.LEVEL ≤ s.get Pg.OAS OAS.LEVEL → State.RegsOnly (onPages [Pg.OAS]) { s.atTick tick with oas := t.oas } t)) →
    (∀ ma mv : List Nat, ma.length = 9 → mv.length = 9 → ∃ t sum, exec (.railSample tick ma mv) s = .next t ∧ calm t ∧
      (∀ i, i < 9 → t.get Pg.OAS (OAS.RAIL_MA.nth i) = sat 16 (ma.getD i 0) ∧
        t.get Pg.OAS (OAS.RAIL_MW.nth i) = sat 16 (ma.getD i 0 * mv.getD i 0 / 1000)) ∧
      sum = ((List.range 9).map fun i => ma.getD i 0 * mv.getD i 0 / 1000).sum ∧
      t.get Pg.OAS OAS.P_TOTAL_MW = sat 16 (meanNat ((sum :: s.oas.sums).take 1000))) ∧
    (∀ ma mv : List Nat, ma.length ≠ 9 ∨ mv.length ≠ 9 → exec (.railSample tick ma mv) s = .fault .badOperands) ∧
    (∃ t, exec (.railHoldExpiry tick) s = .next t ∧ calm t) ∧
    (∀ t0, s.oas.overSince = some t0 → t0 + msTicks (s.get Pg.OAS OAS.CAP_OVER_MS) ≤ tick →
      (s.get Pg.OAS OAS.CAP_LEVEL < 4 → ∃ t, exec (.capLevelUp tick) s = .next t ∧ calm t ∧
        t.get Pg.OAS OAS.CAP_LEVEL = s.get Pg.OAS OAS.CAP_LEVEL + 1) ∧
      (4 ≤ s.get Pg.OAS OAS.CAP_LEVEL → ∃ t, exec (.capLevelUp tick) s = .next t ∧ t.get Pg.OAS OAS.EV_CAP_UNREACHABLE = 1 ∧
        State.RegsOnly (regsAt [(Pg.OAS, CMN.EVENTS)]) { s.atTick tick with oas := t.oas } t)) ∧
    (∀ t0, s.oas.underSince = some t0 → t0 + msTicks (s.get Pg.OAS OAS.CAP_HOLD_MS) ≤ tick →
      ∃ t, exec (.capLevelDown tick) s = .next t ∧ calm t ∧ t.get Pg.OAS OAS.CAP_LEVEL = s.get Pg.OAS OAS.CAP_LEVEL - 1) ∧
    (∀ readings : List Int, readings.length = 16 → (∀ r, r ∈ readings → -960 ≤ r ∧ r ≤ 2560) →
      (∀ i, i < 16 → (s.sensor i).1 ≠ readings.getD i 0) → ∃ t r, exec (.thermalSample tick readings) s = .next t ∧ calm t ∧
        r ∈ readings ∧ (∀ x, x ∈ readings → x ≤ r) ∧ t.oas.tjLevel = Nat.max s.oas.tjLevel (s.tjWants r) ∧ t.oas.sensorLevel = 0 ∧
        t.get Pg.OAS OAS.VALID_SENSORS = 0xFFFF ∧ t.get Pg.OAS OAS.TJ = satSigned 8 (r / 16) ∧
        t.get Pg.OAS OAS.THERMAL_LEVEL = t.oas.tjLevel) ∧
    (∀ readings : List Int, readings.length ≠ 16 → exec (.thermalSample tick readings) s = .fault .badOperands) ∧
    (∀ t0, s.oas.coolSince = some t0 → t0 + msTicks (s.get Pg.OAS OAS.STEP_DOWN_MS) ≤ tick →
      ∃ t, exec (.thermalStepDown tick) s = .next t ∧ calm t ∧ t.oas.tjLevel = s.oas.tjLevel - 1 ∧ t.oas.coolSince = none) ∧
    ((s.atTick tick).demand = false → s.oas.demandAt + msTicks 100 ≤ tick → s.flag Pg.OAS OAS.SPRINT = true →
      ∃ t, exec (.sprintDemandTimeout tick) s = .next t ∧ t.get Pg.OAS OAS.SPRINT = 0 ∧ t.get Pg.OAS OAS.EV_SPRINT_END = 1 ∧
        t.get Pg.OAS OAS.SPRINT_TIME_S = sat 16 (((s.atTick tick).time - s.oas.sprintAt) / 2048000) ∧ t.get Pg.CLK CLK.SPR_LOCK = 0 ∧
        State.RegsOnly (fun a => onPages [Pg.OAS] a ∨ regsAt [(Pg.CLK, CLK.SPR_LOCK.off)] a) { s.atTick tick with oas := t.oas } t) ∧
    (∀ port : Fin 16, s.flag Pg.OAS (OAS.AMP_RTD_EN.nth port.val) = true →
      Tab.get (fun _ => 0) s.oas.ampAt port.val + 2048000 ≤ tick → ∃ t, exec (.ampSensorTimeout tick port) s = .next t ∧
        t.get Pg.OAS (OAS.AMP_SENSOR_FAULT.nth port.val) = 1 ∧ t.get Pg.OAS (OAS.DERATE.nth port.val) = 1 ∧
        State.RegsOnly (regsAt [(Pg.OAS, (OAS.DERATE.nth port.val).off)]) (s.atTick tick) t)

/-- Domains and modes (R276 to R278, R297, R425): the domain whose turn it is starts to wake and is on 8 µs later; a domain that has to
be off drains until its block is idle and then is off with its cause; SERVICE and STANDBY set the mode, STANDBY not with more
than 16 live alarm engines; DEEP_SLEEP keeps SAMPLE_TIME and the always-on counters and takes every other register to reset,
and is refused while the 32.768 kHz input fails. Modes are stated with link firmware stopped and no sprint on. -/
def Obligations.DomainsAndModesSwitch : Prop :=
  ∀ (s : State) (tick : Nat),
    (∀ d, s.oas.waking = none → s.asleep = false → d < 152 →
      s.urgent d = true ∨ s.oas.wakeDone = 0 ∨ s.oas.wakeDone + s.oasStagger ≤ tick → (s.atTick tick).nextWake = some d →
      ∃ t, exec (.domainWakeStart tick) s = .next t ∧ t.domState d = DS.WAKING ∧ t.oas.waking = some (d, tick) ∧
        s.Counted Pg.PWD1 PWD1.WAKE_TOTAL t ∧ (s.urgent d = true → s.Counted Pg.PWD1 PWD1.URGENT_WAKE_CNT t) ∧
        t.get Pg.PWD1 PWD1.EV_DOMAIN_CHANGE = 1 ∧ (∀ k, k < 152 → k ≠ d → t.domState k = s.domState k) ∧
        State.RegsOnly (onPages [Pg.PWD1]) { s.atTick tick with oas := t.oas } t) ∧
    (∀ d t0, s.oas.waking = some (d, t0) → t0 + 17 ≤ tick → (132 ≤ d ∧ d < 140) ∨ d = 148 ∨ d = 149 →
      ∃ t, exec (.domainWakeDone tick) s = .next t ∧ t.domState d = DS.ON ∧ t.oas.waking = none ∧ t.oas.wakeDone = tick ∧
        State.RegsOnly (onPages [Pg.PWD1]) { s.atTick tick with oas := t.oas } t) ∧
    (∀ d t0, s.oas.waking = some (d, t0) → t0 + 17 ≤ tick → 64 ≤ d → d < 96 → s.flag (Pg.SEIF (d - 64)) CFG.ARMED = false →
      ∃ t, exec (.domainWakeDone tick) s = .next t ∧ t.domState d = DS.ON ∧ t.coreState (d - 64) = XS.HALTED ∧
        t.core (d - 64) = SeifCore.idle ∧ t.get (Pg.SEIF (d - 64)) SEIF.EV_RELOAD = 1) ∧
    (∀ (domain : Fin 152) cause, (s.atTick tick).mustOff domain.val = some cause → cause < 8 → s.domOn domain.val = true →
      (s.oas.offDone = 0 ∨ s.oas.offDone + s.oasStagger ≤ tick) →
      (s.domainIdle domain.val = false → s.domState domain.val = DS.ON → ∃ t, exec (.domainSwitchOff tick domain) s = .next t ∧
        t.domState domain.val = DS.DRAINING ∧ t.get Pg.PWD1 (PWD1.CAUSE.nth domain.val) = cause ∧
        State.RegsOnly (regsAt [(Pg.PWD1, (PWD1.STATE.nth domain.val).off), (Pg.PWD1, CMN.EVENTS)]) (s.atTick tick) t) ∧
      (s.domainIdle domain.val = true → 132 ≤ domain.val → domain.val ≤ 140 → ∃ t, exec (.domainSwitchOff tick domain) s = .next t ∧
        t.domState domain.val = DS.OFF ∧ t.get Pg.PWD1 (PWD1.CAUSE.nth domain.val) = cause ∧ t.oas.offDone = tick ∧
        State.RegsOnly (regsAt [(Pg.PWD1, (PWD1.STATE.nth domain.val).off), (Pg.PWD1, CMN.EVENTS)])
          { s.atTick tick with oas := t.oas } t)) ∧
    (s.Reaches Pg.OAS → s.fwIdle = true → s.flag Pg.OAS OAS.SPRINT = false →
      (s.standby = true → s.noAutoStart = true → ∃ t, exec .modeService s = .next t ∧ t.get Pg.OAS OAS.MODE = 0 ∧
        s.RegsOnly (regsAt [(Pg.OAS, OAS.MODE.off)]) t) ∧
      (s.standby = false → (s.liveEngines.filter s.isAlarm).length ≤ 16 → ∃ t, exec .modeStandby s = .next t ∧ t.standby = true ∧
        s.RegsOnly (regsAt [(Pg.OAS, OAS.MODE.off)]) t) ∧
      (s.standby = false → 16 < (s.liveEngines.filter s.isAlarm).length → ∃ t, exec .modeStandby s = .next t ∧ t.standby = false ∧
        t.get Pg.OAS CFG.ERR_CODE = ErrCode.STATE ∧ t.get Pg.OAS CMN.EV_CFG_REFUSED = 1 ∧
        s.RegsOnly (regsAt [(Pg.OAS, CMN.CFG_STATE), (Pg.OAS, CMN.ERR_DETAIL), (Pg.OAS, CMN.EVENTS)]) t)) ∧
    (s.Reaches Pg.OAS → s.flag Pg.CLK CLK.AON_OK = true → ∃ t, exec .modeDeepSleep s = .next t ∧ t.asleep = true ∧ t.time = s.time ∧
      t.mrm = s.mrm ∧ t.dram = [] ∧ t.pending = s.pending ∧ (∀ pg off, follows (addrOf pg off) = false →
        t.reg pg off = if keepAsleep (addrOf pg off) then s.reg pg off else resetWord (addrOf pg off))) ∧
    (s.Reaches Pg.OAS → s.flag Pg.CLK CLK.AON_OK = false → ∃ t, exec .modeDeepSleep s = .next t ∧ t.asleep = false ∧
      t.get Pg.OAS CFG.ERR_CODE = ErrCode.STATE ∧
      s.RegsOnly (regsAt [(Pg.OAS, CMN.CFG_STATE), (Pg.OAS, CMN.ERR_DETAIL), (Pg.OAS, CMN.EVENTS)]) t)

/-! ## Sense front end (R298 to R313) -/

/-- Slots, ranges and blanking (R300 to R308): a rotating group whose slot has ended switches to the next input of its mask and
settles; after SETTLE the channel starts at the next instant of its grid; an overload lowers the range by one code, never
below RANGE_MIN; a blanking edge opens a window PRE_GUARD before it, the window ends POST_GUARD after the release with one
side-log record, and a window open for BLANK_MAX_MS is ended and its pin ignored. Nothing outside the sense front end and what
follows it changes. -/
def Obligations.SlotsRangesAndBlanking : Prop :=
  ∀ (s : State) (tick : Nat) (group : Fin 8) (pin : Fin 2) (x : SnsGrp) (n : Nat), x = s.snsGrp group.val →
    (∀ i, s.snsOn group.val = true → x.phase = .ended → s.rotating group.val = true → s.flag Pg.SNS CFG.ARMED = false →
      i = nextInput (s.seqMask group.val) x.cur → ∃ t, exec (.senseSlotStart tick group) s = .next t ∧
        t.snsGrp group.val = ⟨i, .settling, tick, s.get Pg.SNS (SNS.OUTPUTS_PER_SLOT.nth group.val)⟩ ∧
        (t.snsCh (4 * group.val + i)).start = none ∧ (t.snsCh (4 * group.val + i)).held = true ∧
        t.rangeNow (4 * group.val + i) =
          (if s.flag Pg.SNS (SNS.AUTORANGE.nth (4 * group.val + i)) && (s.snsCh (4 * group.val + i)).held then
            s.rangeNow (4 * group.val + i) else s.get Pg.SNS (SNS.RANGE.nth (4 * group.val + i))) ∧
        (∀ j, j < 4 → t.get Pg.SNS (SNS.ACTIVE.nth (4 * group.val + j)) = if j = i then 1 else 0) ∧
        (∀ g, g ≠ group.val → t.snsGrp g = s.snsGrp g) ∧
        State.RegsOnly (onPages [Pg.SNS, Pg.EXC]) { s.atTick tick with sns := t.sns } t) ∧
    (n = 4 * group.val + x.cur → s.snsOn group.val = true → x.phase = .settling → x.slotAt + s.settleTicks group.val ≤ tick →
      ∃ t, exec (.settleDone tick group) s = .next t ∧ t.snsGrp group.val = { x with phase := .running } ∧
        (t.snsCh n).start = some (s.gridFrom (s.decPeriod n) tick) ∧ (t.snsCh n).lastOut = none ∧
        State.RegsOnly (fun _ => False) { s.atTick tick with sns := t.sns } t) ∧
    (∀ (input : Fin 32) (first second : BitVec 22), beyondScale first = true → beyondScale second = true →
      input.val / 4 = group.val → input.val % 4 = x.cur → s.snsOn group.val = true →
      x.phase = .settling ∨ x.phase = .running → ∃ t, exec (.rangeOverload tick input first second) s = .next t ∧
        (t.snsCh input.val).quietFrom = tick ∧
        (s.flag Pg.SNS (SNS.AUTORANGE.nth input.val) = true → s.get Pg.SNS (SNS.RANGE_MIN.nth input.val) < s.rangeNow input.val →
          t.rangeNow input.val = s.rangeNow input.val - 1 ∧ s.Counted Pg.SNS SNS.RANGE_CHANGE_CNT t) ∧
        (s.flag Pg.SNS (SNS.AUTORANGE.nth input.val) = false ∨
          s.rangeNow input.val ≤ s.get Pg.SNS (SNS.RANGE_MIN.nth input.val) →
          t.rangeNow input.val = s.rangeNow input.val ∧ tick ∈ (t.snsCh input.val).overs) ∧
        State.RegsOnly (regsAt [(Pg.SNS, (SNS.RANGE_NOW.nth input.val).off), (Pg.SNS, SNS.RANGE_CHANGE_CNT.off)])
          { s.atTick tick with sns := t.sns } t) ∧
    (∀ (since : Nat) (level : Bool), s.pinActive pin.val level = true → pinSettled since tick = true →
      s.domOn 142 = true → s.flag Pg.SNS (SNS.BLANK_EN.nth pin.val) = true → (s.blankPin pin.val).active = false →
      (s.blankPin pin.val).ignored = false → (s.blankPin pin.val).opened = none →
      bitOf (s.get Pg.MIR MIR.TRIG_EN) (8 + pin.val) = 0 → ∃ t, exec (.blankActivate tick pin since level) s = .next t ∧
        t.blankPin pin.val = ⟨true, some since, none, false⟩ ∧ bitOf (t.get Pg.SNS SNS.BLANK_ACTIVE) pin.val = 1 ∧
        bitOf (t.get Pg.SNS SNS.EV_BLANK_EDGE) pin.val = 1 ∧
        t.sns.wins.head? = some ⟨pin.val, since - s.preGuard pin.val, none⟩ ∧
        t.erg.blank = s.erg.blank.filter (fun b => match b.stop with
          | some e => markKeep e since
          | none => decide (b.pin ≠ pin.val)) ++ [⟨pin.val, since, since - s.preGuard pin.val, none⟩] ∧
        State.RegsOnly (regsAt [(Pg.SNS, SNS.BLANK_ACTIVE.off), (Pg.SNS, CMN.EVENTS), (Pg.ERGX, CMN.EVENTS),
          (Pg.ERGX, ERGX.BLANK_TRUNC_CNT.off)]) { s.atTick tick with sns := t.sns, erg := t.erg } t) ∧
    (∀ (since : Nat) (level : Bool), s.pinActive pin.val level = false → pinSettled since tick = true →
      s.domOn 142 = true → (s.blankPin pin.val).active = true → ∃ t, exec (.blankRelease tick pin since level) s = .next t ∧
      t.blankPin pin.val = { s.blankPin pin.val with active := false, released := some since } ∧
      State.RegsOnly (fun _ => False) { s.atTick tick with sns := t.sns } t) ∧
    (∀ r, s.domOn 142 = true → (s.blankPin pin.val).active = false → (s.blankPin pin.val).released = some r →
      r + s.postGuard pin.val ≤ tick →
      ((s.blankPin pin.val).ignored = true → ∃ t, exec (.blankWindowEnd tick pin) s = .next t ∧
        (t.blankPin pin.val).ignored = false ∧ bitOf (t.get Pg.SNS SNS.BLANK_IGNORED) pin.val = 0 ∧
        State.RegsOnly (regsAt [(Pg.SNS, SNS.BLANK_IGNORED.off)]) { s.atTick tick with sns := t.sns } t) ∧
      ((s.blankPin pin.val).ignored = false → (s.blankPin pin.val).opened.isSome = true →
        ∃ t, exec (.blankWindowEnd tick pin) s = .next t ∧ (t.blankPin pin.val).opened = none ∧
        bitOf (t.get Pg.SNS SNS.BLANK_ACTIVE) pin.val = 0 ∧ (∀ b, b ∈ t.erg.blank → b.pin = pin.val → b.stop ≠ none) ∧
        (∀ w, w ∈ t.sns.wins → w.pin = pin.val → w.stop ≠ none) ∧ s.SideKept t ∧
        State.RegsOnly (regsAt [(Pg.SNS, SNS.BLANK_ACTIVE.off)])
          { s.atTick tick with sns := t.sns, erg := t.erg, mir := t.mir, dram := t.dram } t)) ∧
    (∀ t0, s.domOn 142 = true → (s.blankPin pin.val).opened = some t0 → t0 + msTicks (s.get Pg.SNS SNS.BLANK_MAX_MS) ≤ tick →
      ∃ t, exec (.blankStuck tick pin) s = .next t ∧ (t.blankPin pin.val).ignored = true ∧ (t.blankPin pin.val).opened = none ∧
        bitOf (t.get Pg.SNS SNS.BLANK_IGNORED) pin.val = 1 ∧ bitOf (t.get Pg.SNS SNS.BLANK_ACTIVE) pin.val = 0 ∧
        bitOf (t.get Pg.SNS SNS.EV_BLANK_STUCK) pin.val = 1 ∧ s.Counted Pg.SNS SNS.BLANK_STUCK_CNT t ∧ s.SideKept t ∧
        State.RegsOnly (regsAt [(Pg.SNS, SNS.BLANK_ACTIVE.off), (Pg.SNS, CMN.EVENTS), (Pg.SNS, SNS.BLANK_STUCK_CNT.off)])
          { s.atTick tick with sns := t.sns, erg := t.erg, mir := t.mir, dram := t.dram } t)

/-- Wiring checks (R305, R309 to R312): a source that loses compliance reports its input OPEN at once; a check that falls due, or is
asked for, on an input measured alone applies the check current and forces range code 0; its output above +1.1 V means OPEN,
and OPEN clears after 3 passing checks or one that was asked for; a leg outside the common-mode range for 10 ms is SHORT,
which clears after 1 s; a reversed CURRENT input is marked where its amplitude exceeds 1 % of full scale. -/
def Obligations.WiringChecksDecideWireState : Prop :=
  ∀ (s : State) (tick : Nat) (input : Fin 32) (c : SnsCh) (n : Nat), n = input.val → c = s.snsCh n → s.snsOn (n / 4) = true →
    (∀ (e : Fin 4) (need vsns : BitVec 16), vsns.toNat < need.toNat + 500 → s.domOn 144 = true →
      s.flag Pg.EXC (EXC.ON.nth e.val) = true → s.get Pg.EXC (EXC.INPUT_NOW.nth e.val) = n →
      ∃ t, exec (.complianceLoss tick e need vsns) s = .next t ∧ t.get Pg.EXC (EXC.COMPLIANCE.nth e.val) = 1 ∧
        bitOf (t.get Pg.EXC EXC.EV_COMPLIANCE) e.val = 1 ∧ s.Counted Pg.EXC EXC.COMPLIANCE_CNT t ∧ (t.snsCh n).isOpen = true ∧
        t.get Pg.SNS (SNS.STATE.nth n) = 2 ∧ bitOf (t.get Pg.SNS SNS.WIRE_FAULTS) n = 1 ∧
        t.get Pg.SNS SNS.EV_COMPLIANCE_SEEN = 1 ∧
        State.RegsOnly (onPages [Pg.SNS, Pg.EXC, Pg.OAS]) { s.atTick tick with sns := t.sns } t) ∧
    (c.checking = none → s.dedicated (n / 4) = true → (s.snsGrp (n / 4)).cur = n % 4 → s.timebaseSource n = none →
      (s.snsGrp (n / 4)).phase = .running ∨ (s.snsGrp (n / 4)).phase = .settling →
      (s.flag Pg.SNS (SNS.OPEN_CHECK.nth n) = true → s.get Pg.SNS SNS.CHECK_MS ≠ 0 →
        c.lastCheck + msTicks (s.get Pg.SNS SNS.CHECK_MS) ≤ tick → ∃ t, exec (.openCheckDue tick input) s = .next t ∧
        (t.snsCh n).checking = some tick ∧ (t.snsCh n).lastCheck = tick ∧ (t.snsCh n).checkRange = s.rangeNow n ∧ t.rangeNow n = 0 ∧
        (t.snsGrp (n / 4)).phase = .check ∧ State.RegsOnly (onPages [Pg.SNS]) { s.atTick tick with sns := t.sns } t) ∧
      (∀ inputs : BitVec 32, inputs.toNat = 2 ^ n → s.Reaches Pg.SNS → ∃ t, exec (.snsCheckNow inputs) s = .next t ∧
        (t.snsCh n).checking = some s.time ∧ (t.snsCh n).checkNow = true ∧ t.rangeNow n = 0 ∧
        (t.snsGrp (n / 4)).phase = .check ∧ State.RegsOnly (onPages [Pg.SNS]) { s with sns := t.sns } t)) ∧
    (∀ t0 (mv : BitVec 16), c.checking = some t0 → s.checkReady n t0 ≤ tick → c.checkRange < 8 →
      ∃ t, exec (.openCheckDone tick input mv) s = .next t ∧ t.get Pg.SNS (SNS.CHECK_MV.nth n) = mv.toNat ∧
        s.Counted Pg.SNS SNS.CHECK_CNT t ∧ (t.snsCh n).checking = none ∧ t.rangeNow n = c.checkRange ∧
        (1100 < mv.toInt → (t.snsCh n).isOpen = true ∧ t.get Pg.SNS (SNS.STATE.nth n) = 2 ∧ (t.snsCh n).passes = 0) ∧
        (mv.toInt ≤ 1100 → (t.snsCh n).passes = c.passes + 1 ∧
          ((t.snsCh n).isOpen = true ↔ c.isOpen = true ∧ c.passes < 2 ∧ c.checkNow = false)) ∧
        (t.snsGrp (n / 4)).phase = (if s.rotating (n / 4) then .ended else .settling) ∧
        State.RegsOnly (onPages [Pg.SNS, Pg.OAS]) { s.atTick tick with sns := t.sns } t) ∧
    (∀ (since : Nat) (pMv nMv : BitVec 16), legOut pMv = true ∨ legOut nMv = true → since + msTicks 10 ≤ tick →
      ∃ t, exec (.commonModeShort tick input since pMv nMv) s = .next t ∧
      (t.snsCh n).isShort = true ∧ (t.snsCh n).shortAt = tick ∧ t.get Pg.SNS (SNS.STATE.nth n) = (if c.isOpen then 2 else 3) ∧
      (c.isShort = false → t.get Pg.SNS SNS.EV_SHORT = 1 ∧ s.Counted Pg.SNS SNS.SHORT_CNT t) ∧
      State.RegsOnly (onPages [Pg.SNS, Pg.OAS]) { s.atTick tick with sns := t.sns } t) ∧
    (c.isShort = true → c.shortAt + msTicks 1000 ≤ tick → ∃ t, exec (.shortClear tick input) s = .next t ∧
      (t.snsCh n).isShort = false ∧
      t.get Pg.SNS (SNS.STATE.nth n) = (if c.isOpen then 2 else if c.decided then 1 else 0) ∧
      State.RegsOnly (onPages [Pg.SNS, Pg.OAS]) { s.atTick tick with sns := t.sns } t) ∧
    (∀ (angle : BitVec 16) amplitude, s.flag Pg.SNS (SNS.REV_CHECK.nth n) = true → s.get Pg.SNS (SNS.KIND.nth n) = 2 → s.tbServes →
      ∃ t, exec (.reverseCheckDone tick input angle amplitude) s = .next t ∧
        (t.get Pg.SNS (SNS.REVERSED.nth n) = 1 ↔ 0x6000 ≤ angle.toNat ∧ angle.toNat ≤ 0xA000 ∧ 100 < amplitude) ∧
        State.RegsOnly (regsAt [(Pg.SNS, (SNS.REVERSED.nth n).off), (Pg.SNS, CMN.EVENTS), (Pg.SNS, SNS.REVERSED_CNT.off)])
          (s.atTick tick) t)

/-! ## Decimation chain and detectors (R313 to R325) -/

/-- Outputs, detectors, capture and DSYNC (R313, R315 to R325): a settled output of a channel that is measured alone at a fixed range
stands in LAST as VALUE and RANGE with no flag set, and enters capture behind the stamp; one that the crossing dropped is counted and the
next one carries LOSS; a detector whose window meets its condition sets its event and latches the time; CAP_DATA returns the next
word and 0 when empty; CAP_FLUSH empties capture; a DSYNC sets the epoch T_R two ticks after the first low tick of the pin, or
after the write, and every running channel starts there from an empty filter. -/
def Obligations.OutputsCaptureAndDsync : Prop :=
  ∀ (s : State) (tick : Nat),
    (∀ (ch : Fin 32) (value peak : BitVec 22) (volts : BitVec 16) (n p stamp t0 : Nat) (c : SnsCh) (w : Word),
      n = ch.val → c = s.snsCh n → p = s.decPeriod n → stamp = tick - s.outLatency (n / 4) → s.outLatency (n / 4) ≤ tick →
      c.start = some t0 → s.served n = true → s.onGrid p stamp = true → 0 < p → t0 + s.decSettle n * p ≤ stamp → t0 + p ≤ stamp →
      c.lastOut = none ∨ c.lastOut = some (stamp - p) → c.ranges = [] → c.overs = [] → c.excs = [] → s.sns.wins = [] →
      s.get Pg.SNS (SNS.STATE.nth n) < 2 → s.flag Pg.SNS (SNS.AUTORANGE.nth n) = false →
      s.get Pg.SNS (SNS.RANGE.nth n) = s.rangeNow n → s.rotating (n / 4) = false →
      (∀ pg, pg ∈ [Pg.SNS, Pg.DEC, Pg.EXC] → s.flag pg CFG.ARMED = false) → bitOf (s.get Pg.DEC DEC.SEIF_MASK) n = 0 →
      w = BitVec.ofNat 32 (value.toNat * 1024 + s.rangeNow n * 128) →
      (c.lossX = false → ∃ t, exec (.decimatorOutput tick ch value peak volts false) s = .next t ∧
        t.get Pg.DEC (DEC.LAST.nth n) = w.toNat ∧ (t.snsCh n).lastOut = some stamp ∧ (t.snsCh n).lossX = false ∧
        (s.flag Pg.DEC DEC.CAP_EN = true → bitOf (s.get Pg.DEC DEC.CAP_MASK) n = 1 → c.lossC = false →
          s.sns.capHi = some (stamp / 2 ^ 24 % 2 ^ 32) → (s.sns.cap.length + 1) / 2 + 1 ≤ s.capCapacity →
          t.sns.cap = s.sns.cap ++ [BitVec.ofNat 32 (stamp % 2 ^ 24 * 256) + BitVec.ofNat 32 n, w]) ∧
        (s.flag Pg.DEC DEC.CAP_EN = false → t.sns.cap = s.sns.cap) ∧
        State.RegsOnly (onPages [Pg.SNS, Pg.DEC, Pg.EXC, Pg.OAS])
          { s.atTick tick with sns := t.sns, mtb := t.mtb, loops := t.loops, oas := t.oas } t) ∧
      (∃ t, exec (.decimatorOutput tick ch value peak volts true) s = .next t ∧
        t.get Pg.DEC (DEC.LAST.nth n) = s.get Pg.DEC (DEC.LAST.nth n) ∧ (t.snsCh n).lossX = true ∧ s.Counted Pg.DEC DEC.QLOSS_CNT t ∧
        t.sns.cap = s.sns.cap ∧ State.RegsOnly (onPages [Pg.SNS, Pg.DEC, Pg.EXC]) { s.atTick tick with sns := t.sns } t)) ∧
    (∀ k n o rms, k < 8 → s.domOn 142 = true → (s.atTick tick).windowAt tick ≠ s.sns.detWin →
      (∀ j, j < 8 → j ≠ k → s.get Pg.SNS (SNS.DET_KIND.nth j) = 0) →
      n = s.get Pg.SNS (SNS.SRC.nth k) → (s.detector k).bad = false → (s.detector k).n ≠ 0 → (s.snsCh n).lastOut = some o →
      tick - s.outLatency (n / 4) - o < s.decPeriod n → rms = rmsUv (s.detector k).sum (s.detector k).n →
      (s.detector k).silentTo ≤ tick → tick < 2 ^ 64 → bitOf (s.get Pg.MIR MIR.TRIG_EN) k = 0 →
      (s.get Pg.SNS (SNS.DET_KIND.nth k) = 1 ∧ s.get Pg.SNS (SNS.THRESH_UV.nth k) < rms) ∨
        (s.get Pg.SNS (SNS.DET_KIND.nth k) = 2 ∧ rms < s.get Pg.SNS (SNS.THRESH_UV.nth k)) →
      ∃ t, exec (.detectorWindowEnd tick) s = .next t ∧ bitOf (t.get Pg.SNS SNS.EV_GRID_EVENT) k = 1 ∧
        s.Counted Pg.SNS SNS.GRID_EVENT_CNT t ∧ t.get Pg.SNS SNS.EVT_TIME_LO + 2 ^ 32 * t.get Pg.SNS SNS.EVT_TIME_HI = tick ∧
        t.get Pg.SNS SNS.EVT_LAST = k ∧ t.sns.detWin = (s.atTick tick).windowAt tick ∧
        t.detector k = { Detector.idle with prev := some rms, silentTo := tick + msTicks (s.get Pg.SNS (SNS.HOLDOFF_MS.nth k)) } ∧
        State.RegsOnly (regsAt [(Pg.SNS, CMN.EVENTS), (Pg.SNS, SNS.GRID_EVENT_CNT.off), (Pg.SNS, SNS.EVT_TIME_LO.off),
          (Pg.SNS, SNS.EVT_TIME_HI.off), (Pg.SNS, SNS.EVT_LAST.off)]) { s.atTick tick with sns := t.sns } t) ∧
    (s.Reaches Pg.DEC →
      (∀ w rest, s.sns.cap = w :: rest → ∃ t, exec .capDataRead s = .next t ∧ t.host.rdata = w ∧
        t.get Pg.DEC DEC.CAP_FILL = sat 24 ((rest.length + 1) / 2) ∧ State.RegsOnly (regsAt [(Pg.DEC, DEC.CAP_FILL.off)])
          { s with sns := { s.sns with cap := rest }, host := { s.host with rdata := w } } t) ∧
      (s.sns.cap = [] → ∃ t, exec .capDataRead s = .next t ∧
        State.RegsOnly (fun _ => False) { s with host := { s.host with rdata := 0 } } t) ∧
      (∃ t, exec .capFlush s = .next t ∧ t.get Pg.DEC DEC.CAP_FILL = 0 ∧
        State.RegsOnly (regsAt [(Pg.DEC, DEC.CAP_FILL.off)]) { s with sns := { s.sns with cap := [], capHi := none } } t)) ∧
    (∀ since, s.enabled Pg.CAV = false → s.flag Pg.DEC CFG.ARMED = false → since + 2 < 2 ^ 64 → s.time + 2 < 2 ^ 64 →
      (s.domOn 142 = true → s.sns.pinLow = false → s.flag Pg.DEC DEC.DSYNC_EN = true → ∃ t, exec (.dsyncPin tick since) s = .next t ∧
        t.sns.epoch = since + 2 ∧ t.sns.pinLow = true ∧ t.get Pg.DEC DEC.PIN_LEVEL = 0 ∧
        t.get Pg.DEC DEC.DSYNC_TIME_LO + 2 ^ 32 * t.get Pg.DEC DEC.DSYNC_TIME_HI = since + 2 ∧ t.get Pg.DEC DEC.EV_DSYNC = 1 ∧
        s.Counted Pg.DEC DEC.DSYNC_CNT t ∧ State.RegsOnly (onPages [Pg.DEC]) { s.atTick tick with sns := t.sns } t) ∧
      (s.Reaches Pg.DEC → ∃ t, exec .dsync s = .next t ∧ t.sns.epoch = s.time + 2 ∧
        t.get Pg.DEC DEC.DSYNC_TIME_LO + 2 ^ 32 * t.get Pg.DEC DEC.DSYNC_TIME_HI = s.time + 2 ∧ t.get Pg.DEC DEC.EV_DSYNC = 1 ∧
        s.Counted Pg.DEC DEC.DSYNC_CNT t ∧
        (∀ g, g < 8 → s.snsOn g = true → (s.snsGrp g).phase = .running → (s.snsGrp g).cur < 4 →
          (t.snsCh (4 * g + (s.snsGrp g).cur)).start = some (s.time + 2)) ∧
        State.RegsOnly (onPages [Pg.DEC]) { s with sns := t.sns } t)) ∧
    (s.domOn 142 = true → ∃ t, exec (.dsyncRelease tick) s = .next t ∧ t.sns = { s.sns with pinLow := false } ∧
      t.get Pg.DEC DEC.PIN_LEVEL = 1 ∧ t.get Pg.DEC DEC.PIN_HELD = 0 ∧
      State.RegsOnly (regsAt [(Pg.DEC, DEC.PIN_LEVEL.off)]) { s.atTick tick with sns := { s.sns with pinLow := false } } t)

/-! ## Loop outputs and check-value units (R326 to R329, R367 to R370) -/

/-- Loop outputs (R327 to R329): at a 1 ms tick a loop that is off drives 0 mA; a loop in fault drives 21,000 or 3,600 µA; a loop whose
source gives a value drives the current of that value, and shows the readback; the DAC takes its code 20 µs after the tick; FORCE_FAULT and FORCE_RELEASE act on the
loops named; a host value is stored and renews the source. -/
def Obligations.LoopsDriveTheirSource : Prop :=
  ∀ (s : State) (tick : Nat) (rb : List LoopReadback),
    (rb.length ≠ 2 → exec (.loopUpdate tick rb) s = .fault .badOperands) ∧
    (∀ n r, tick % 2048 = 0 → rb.length = 2 → rb[n]? = some r → s.domOn (145 + n) = true → s.flag Pg.LOOP CFG.ARMED = false →
      ∃ t, exec (.loopUpdate tick rb) s = .next t ∧ 
        t.get Pg.LOOP (LOOP.I_RB_UA.nth n) = sat 16 (s.loopUa n r.code).toNat ∧
        t.get Pg.LOOP (LOOP.V_LOOP_MV.nth n) = sat 16 (loopMv r.vmon) ∧ (t.loop n).dacAt = tick + usTicks 20 ∧
        (s.get Pg.LOOP (LOOP.SRC.nth n) = 0 → t.get Pg.LOOP (LOOP.DRIVE.nth n) = LD.OFF ∧
          t.get Pg.LOOP (LOOP.CAUSE.nth n) = 0 ∧ t.get Pg.LOOP (LOOP.I_CMD_UA.nth n) = 0 ∧ (t.loop n).dac = loopCode 0) ∧
        (s.get Pg.LOOP (LOOP.SRC.nth n) ≠ 0 → (s.loop n).forced = true → t.get Pg.LOOP (LOOP.DRIVE.nth n) = LD.FAULT_LEVEL ∧
          t.get Pg.LOOP (LOOP.CAUSE.nth n) = 3 ∧
          t.get Pg.LOOP (LOOP.I_CMD_UA.nth n) = (if s.flag Pg.LOOP (LOOP.FAIL_HIGH.nth n) then 21000 else 3600) ∧
          (t.loop n).dac = loopCode (if s.flag Pg.LOOP (LOOP.FAIL_HIGH.nth n) then 21000 else 3600)) ∧
        (s.get Pg.LOOP (LOOP.SRC.nth n) = 3 → (s.loop n).forced = false → (s.loop n).hostAt.isSome = true →
          s.get Pg.LOOP (LOOP.SRC_TIMEOUT_MS.nth n) = 0 → t.get Pg.LOOP (LOOP.DRIVE.nth n) = LD.RUN ∧
          t.get Pg.LOOP (LOOP.CAUSE.nth n) = 0 ∧ t.get Pg.LOOP (LOOP.X_NOW.nth n) = s.get Pg.LOOP (LOOP.HOST_VALUE.nth n) ∧
          t.get Pg.LOOP (LOOP.I_CMD_UA.nth n) = (loopCurrent (s.getInt Pg.LOOP (LOOP.HOST_VALUE.nth n))
            (s.getInt Pg.LOOP (LOOP.X_LO.nth n)) (s.getInt Pg.LOOP (LOOP.X_HI.nth n))
            (s.get Pg.LOOP (LOOP.CLAMP_LO_UA.nth n)) (s.get Pg.LOOP (LOOP.CLAMP_HI_UA.nth n))).toNat) ∧
        State.RegsOnly (onPages [Pg.LOOP]) { s.atTick tick with loops := t.loops } t) ∧
    (∀ loops : BitVec 2, s.Reaches Pg.LOOP →
      (∃ t, exec (.forceFault loops) s = .next t ∧
        (∀ n, n < 2 → t.loop n = { s.loop n with forced := loops.toNat.testBit n || (s.loop n).forced }) ∧
        State.RegsOnly (fun _ => False) { s with loops := t.loops } t) ∧
      (∃ t, exec (.forceRelease loops) s = .next t ∧
        (∀ n, n < 2 → t.loop n = { s.loop n with forced := !loops.toNat.testBit n && (s.loop n).forced }) ∧
        State.RegsOnly (fun _ => False) { s with loops := t.loops } t)) ∧
    (∀ (n : Fin 2) (v : Word), s.Reaches Pg.LOOP → ∃ t, exec (.hostValueWrite n v) s = .next t ∧
      t.reg Pg.LOOP (LOOP.HOST_VALUE.nth n.val).off = v ∧ t.loop n.val = { s.loop n.val with hostAt := some s.time } ∧
      State.RegsOnly (regsAt [(Pg.LOOP, (LOOP.HOST_VALUE.nth n.val).off)]) { s with loops := t.loops } t)

/-- Check-value units (R367 to R370): DATA8, DATA16 and DATA32 feed one, two and four bytes, low byte first, and count them; PRESET copies
a preset into the shadow set and is refused while the page is ARMED; RESTART takes INIT; a write of STATE keeps only WIDTH bits.
Over the preset of R369 for CRC-32C, the bytes "123456789" give 0xE3069283 and over CRC-16/CCITT 0x29B1. -/
def Obligations.CheckUnitsFeedAndRestart : Prop :=
  ∀ (s : State) (unit : Fin 4) (v : Word), s.Reaches (Pg.CRC unit.val) →
    (∀ cmd n, (cmd, n) ∈ [(Instr.data8 unit v, 1), (.data16 unit v, 2), (.data32 unit v, 4)] → ∃ t, exec cmd s = .next t ∧
      t.get (Pg.CRC unit.val) CRC.STATE = ((leBytes n (v.toNat % 2 ^ (8 * n))).foldl
        (crcByte (s.get (Pg.CRC unit.val) CRC.WIDTH_M1 + 1) (s.get (Pg.CRC unit.val) CRC.POLY) (s.flag (Pg.CRC unit.val) CRC.REFLECT))
        (s.get (Pg.CRC unit.val) CRC.STATE)) % 2 ^ 32 ∧
      (s.flag (Pg.CRC unit.val) CTRL.FREEZE_CNT = false →
        t.get (Pg.CRC unit.val) CRC.BYTE_CNT = (s.get (Pg.CRC unit.val) CRC.BYTE_CNT + n) % 2 ^ 32) ∧
      s.RegsOnly (regsAt [(Pg.CRC unit.val, CRC.STATE.off), (Pg.CRC unit.val, CRC.BYTE_CNT.off)]) t) ∧
    (∀ (number : Fin 8) w poly init refl xor, crcPreset number.val = some (w, poly, init, refl, xor) →
      (s.flag (Pg.CRC unit.val) CFG.ARMED = false → ∃ t, exec (.preset unit number) s = .next t ∧
        t.sget (Pg.CRC unit.val) CRC.WIDTH_M1 = w - 1 ∧ t.sget (Pg.CRC unit.val) CRC.POLY = poly ∧
        t.sget (Pg.CRC unit.val) CRC.INIT = init ∧ t.sget (Pg.CRC unit.val) CRC.REFLECT = refl ∧
        t.sget (Pg.CRC unit.val) CRC.XOROUT = xor ∧ t.get (Pg.CRC unit.val) CFG.PENDING = 1 ∧
        State.RegsOnly (regsAt [(Pg.CRC unit.val, CMN.CFG_STATE)]) { s with shadow := t.shadow } t) ∧
      (s.flag (Pg.CRC unit.val) CFG.ARMED = true → ∃ t, exec (.preset unit number) s = .next t ∧
        t.get (Pg.CRC unit.val) CFG.ERR_CODE = ErrCode.SHADOW_LOCKED ∧ t.get (Pg.CRC unit.val) CFG.CFG_ERR = 1 ∧
        s.RegsOnly (regsAt [(Pg.CRC unit.val, CMN.CFG_STATE), (Pg.CRC unit.val, CMN.ERR_DETAIL), (Pg.CRC unit.val, CMN.EVENTS)]) t)) ∧
    (∃ t, exec (.restart unit) s = .next t ∧ t.get (Pg.CRC unit.val) CRC.STATE = s.get (Pg.CRC unit.val) CRC.INIT ∧
      s.Counted (Pg.CRC unit.val) CRC.RESTART_CNT t ∧
      s.RegsOnly (regsAt [(Pg.CRC unit.val, CRC.STATE.off), (Pg.CRC unit.val, CRC.RESTART_CNT.off)]) t) ∧
    (∃ t, exec (.crcStateWrite unit v) s = .next t ∧
      t.get (Pg.CRC unit.val) CRC.STATE = v.toNat % 2 ^ (s.get (Pg.CRC unit.val) CRC.WIDTH_M1 + 1) ∧
      s.RegsOnly (regsAt [(Pg.CRC unit.val, CRC.STATE.off)]) t) ∧
    ([0x31, 0x32, 0x33, 0x34, 0x35, 0x36, 0x37, 0x38, 0x39].foldl (crcByte 32 0x1EDC6F41 true) 0xFFFFFFFF ^^^ 0xFFFFFFFF
      = 0xE3069283) ∧
    ([0x31, 0x32, 0x33, 0x34, 0x35, 0x36, 0x37, 0x38, 0x39].foldl (crcByte 16 0x1021 false) 0xFFFF = 0x29B1)

/-! ## Seif cores (R330 to R366) -/

/-- Every compute operation of a Seif core (R340, R357, R361 to R364): fetched by a running core with an empty pipeline and followed by five
NOPs, it has carried out its operation on the registers as they stood; the PC has advanced by six words, and nothing outside
the core has changed but its cycle counter. -/
def Obligations.ComputeOperationsComplete : Prop :=
  ∀ (s : State) (core : Fin 32) (w : BitVec 64) (op : Nat) (cmd : Instr),
    (op, cmd) ∈
      [(0x10, .insMov core), (0x11, .insClr core), (0x12, .insAdd core), (0x13, .insSub core), (0x14, .insAddq core),
       (0x15, .insNeg core), (0x16, .insAbs core), (0x17, .insMin core), (0x18, .insMax core), (0x19, .insCmp core),
       (0x1A, .insTst core), (0x1B, .insAnd core), (0x1C, .insOr core), (0x1D, .insXor core), (0x1E, .insNot core),
       (0x1F, .insAsl core), (0x20, .insAsr core), (0x21, .insLsr core), (0x22, .insAshv core), (0x23, .insNorm core),
       (0x24, .insSxt16 core), (0x25, .insMpy core), (0x30, .insCadd core), (0x31, .insCsub core), (0x32, .insCconj core),
       (0x33, .insCrotj core), (0x34, .insPack core), (0x35, .insCasr core), (0x40, .insClra core), (0x41, .insLda core),
       (0x42, .insMac core), (0x43, .insMsu core), (0x44, .insMac2 core), (0x45, .insCmpy core), (0x46, .insCmac core),
       (0x47, .insCmacj core), (0x48, .insCmsu core), (0x49, .insMag2a core), (0x4A, .insAdda core), (0x4B, .insSuba core),
       (0x4C, .insSha core), (0x4D, .insExtr core), (0x4E, .insExti core), (0x4F, .insCext core), (0x50, .insMaxx core),
       (0x51, .insMaxy core), (0x52, .insMinx core), (0x53, .insMiny core)] →
    seifOp w = op → stillMoves w → s.AtWord core.val w 5 →
    ∃ u t, exec cmd s = .next u ∧ State.AfterAll (List.replicate 5 (.insNop core)) u t ∧
      s.Computed core.val w t ∧ (t.core core.val).pc = ((s.core core.val).pc + 6) % 4096 ∧ t.seifRunning core.val = true ∧
      s.CoresOnly core.val t

/-- The results of the compute operations (R336, R360 to R363) from their operands: wrapping without SAT and saturating with it, carry
and overflow of additions and subtractions, logic, shifts by the count, sign extension, Q31 products, complex products into 40-bit accumulators, and the
redundant sign bits. -/
def Obligations.ComputeResultsAreExact : Prop :=
  ∀ (a b : Word) (re im xre xim : BitVec 40) (q : BitVec 7) (addr : Nat) (op : Nat → Bool → SeifOut) (ai aq bi bq : Int),
    (op = fun n sat => seifCompute n sat a.toNat b.toNat re.toInt im.toInt xre.toInt xim.toInt q.toInt addr) →
    ai = (a.setWidth 16).toInt → aq = (a.extractLsb' 16 16).toInt → bi = (b.setWidth 16).toInt → bq = (b.extractLsb' 16 16).toInt →
    ((op 0x12 false).d = some (a + b).toNat ∧ (op 0x13 false).d = some (a - b).toNat ∧
      (op 0x14 false).d = some (a + q.signExtend 32).toNat ∧ (op 0x15 false).d = some (-a).toNat ∧
      (op 0x12 true).d = some (BitVec.ofInt 32 (clampInt (-2 ^ 31) (2 ^ 31 - 1) (a.toInt + b.toInt))).toNat ∧
      (op 0x13 true).d = some (BitVec.ofInt 32 (clampInt (-2 ^ 31) (2 ^ 31 - 1) (a.toInt - b.toInt))).toNat ∧
      ((op 0x12 false).flags.testBit 2 = decide (2 ^ 32 ≤ a.toNat + b.toNat)) ∧
      ((op 0x13 false).flags.testBit 2 = decide (b.toNat ≤ a.toNat)) ∧
      ((op 0x12 false).flags.testBit 3 = decide (a.toInt + b.toInt ≠ (a + b).toInt)) ∧
      (op 0x19 false).d = none ∧ (op 0x19 false).flags = (op 0x13 false).flags) ∧
    ((op 0x10 false).d = some a.toNat ∧ (op 0x11 false).d = some 0 ∧ (op 0x1B false).d = some (a &&& b).toNat ∧
      (op 0x1C false).d = some (a ||| b).toNat ∧ (op 0x1D false).d = some (a ^^^ b).toNat ∧ (op 0x1E false).d = some (~~~a).toNat ∧
      (op 0x1A false).d = none ∧ (op 0x1A false).flags.testBit 0 = decide (a = 0) ∧ (op 0x1A false).flags.testBit 1 = a.msb ∧
      (op 0x17 false).d = some (if b.toInt < a.toInt then b else a).toNat ∧
      (op 0x18 false).d = some (if a.toInt < b.toInt then b else a).toNat ∧
      (op 0x16 true).d = some (if a = BitVec.intMin 32 then BitVec.intMax 32 else if a.msb then -a else a).toNat) ∧
    ((op 0x1F false).d = some (a <<< (q.toNat % 32)).toNat ∧ (op 0x20 false).d = some (a.sshiftRight (q.toNat % 32)).toNat ∧
      (op 0x21 false).d = some (a >>> (q.toNat % 32)).toNat ∧ (op 0x24 false).d = some ((a.setWidth 16).signExtend 32).toNat ∧
      (op 0x25 false).d = some (BitVec.ofInt 32 (2 * (ai * bi))).toNat ∧
      (op 0x34 false).d = some (b.extractLsb' 16 16 ++ a.extractLsb' 16 16).toNat ∧
      (op 0x30 false).d = some (BitVec.ofInt 16 (aq + bq) ++ BitVec.ofInt 16 (ai + bi)).toNat ∧
      (op 0x31 false).d = some (BitVec.ofInt 16 (aq - bq) ++ BitVec.ofInt 16 (ai - bi)).toNat ∧
      (op 0x32 false).d = some (BitVec.ofInt 16 (-aq) ++ BitVec.ofInt 16 ai).toNat ∧
      (op 0x33 false).d = some (BitVec.ofInt 16 ai ++ BitVec.ofInt 16 (-aq)).toNat) ∧
    ((op 0x42 false).re = some (BitVec.ofInt 40 (re.toInt + 2 * (ai * bi))).toNat ∧ (op 0x42 false).im = none ∧
      (op 0x43 false).re = some (BitVec.ofInt 40 (re.toInt - 2 * (ai * bi))).toNat ∧
      (op 0x45 false).re = some (BitVec.ofInt 40 (2 * (ai * bi - aq * bq))).toNat ∧
      (op 0x45 false).im = some (BitVec.ofInt 40 (2 * (ai * bq + aq * bi))).toNat ∧
      (op 0x46 false).re = some (BitVec.ofInt 40 (re.toInt + 2 * (ai * bi - aq * bq))).toNat ∧
      (op 0x46 false).im = some (BitVec.ofInt 40 (im.toInt + 2 * (ai * bq + aq * bi))).toNat ∧
      (op 0x49 false).re = some (BitVec.ofInt 40 (re.toInt + 2 * (ai * ai + aq * aq))).toNat ∧
      (op 0x4A false).re = some (re + xre).toNat ∧ (op 0x4A false).im = some (im + xim).toNat ∧
      (op 0x40 false).re = some 0 ∧ (op 0x41 false).re = some (a.signExtend 40).toNat ∧
      (op 0x4D false).d = some (re.setWidth 32).toNat ∧
      (op 0x4D true).d = some (BitVec.ofInt 32 (clampInt (-2 ^ 31) (2 ^ 31 - 1) re.toInt)).toNat) ∧
    ((re.toInt < a.toInt → (op 0x50 false).re = some (a.signExtend 40).toNat ∧ (op 0x50 false).ix = some addr) ∧
      (a.toInt ≤ re.toInt → op 0x50 false = SeifOut.none_) ∧
      (a.toInt < re.toInt → (op 0x52 false).re = some (a.signExtend 40).toNat ∧ (op 0x52 false).ix = some addr) ∧
      (re.toInt ≤ a.toInt → op 0x52 false = SeifOut.none_))

/-- Moves and control operations (R337, R340, R342, R343, R347, R356, R357, R365): a move reads or writes its memory at RD and updates its
pointer at AG; LDI, STSET and STCLR write their register; a branch, with its condition, takes effect after the one delay slot,
CALL leaves the return address in D15, RETI restores ST and goes on at IPC; DO and DOR start a loop on level 0, or skip it
with count 0; WAIT waits after its delay slot; STOP halts at once with the PC behind it. -/
def Obligations.MovesAndControlOperations : Prop :=
  ∀ (s : State) (core : Fin 32) (w : BitVec 64) (k : Nat) (c : SeifCore) (op : Nat) (ok : Bool) (nops : Nat → List Instr),
    k = core.val → c = s.core k → op = seifOp w → ok = seifCondition (seifCond w) c.st →
    (nops = fun n => List.replicate n (.insNop core)) →
    (∀ (m base n a p st : Nat) (v : Nat → Word), op = 0 → n = base + movePtr m →
      (a, p, st) = formAddress (moveForm m) (c.reg (MR.P + n)).toNat (c.reg (MR.B + n)).toNat (c.reg (MR.L + n)).toNat
        (c.reg (MR.M + moveMod m)).toInt →
      (v = fun r => if r = MR.P + n ∧ moveForm m ≠ 0 then narrowReg r p
        else if r = MR.ST ∧ st ≠ 0 then (c.mergeSt st st).st else c.reg r) → s.AtWord k w 3 →
      (m = seifXMove w → base = 0 → moveKind (seifYMove w) = 0 → a < 0x3FF0 → moveKind m ≠ 0 →
        ∃ u t, exec (.insNop core) s = .next u ∧ State.AfterAll (nops 3) u t ∧ s.CoresOnly k t ∧ (t.core k).ym = c.ym ∧ (t.core k).im = c.im ∧
          (moveKind m = 1 → ∀ r, r < 0x3A → (t.core k).reg r = if r = moveReg m then narrowReg r (c.x a).toNat else v r) ∧
          (moveKind m ≠ 1 → ∀ r, r < 0x3A → (t.core k).reg r = v r) ∧
          (∀ j, j < 16384 → (t.core k).x j = if moveKind m = 2 ∧ j = a then v (moveReg m) else c.x j)) ∧
      (m = seifYMove w → base = 4 → moveKind (seifXMove w) = 0 → a < 16384 → moveKind m ≠ 0 →
        ∃ u t, exec (.insNop core) s = .next u ∧ State.AfterAll (nops 3) u t ∧ s.CoresOnly k t ∧ (t.core k).xm = c.xm ∧ (t.core k).im = c.im ∧
          (moveKind m = 1 → ∀ r, r < 0x3A → (t.core k).reg r = if r = moveReg m then narrowReg r (c.y a).toNat else v r) ∧
          (moveKind m ≠ 1 → ∀ r, r < 0x3A → (t.core k).reg r = v r) ∧
          (∀ j, j < 16384 → (t.core k).y j = if moveKind m = 2 ∧ j = a then v (moveReg m) else c.y j))) ∧
    (s.AtWord k w 3 → op = 9 → seifReg w < 0x3A → ∃ u t, exec (.insLdi core) s = .next u ∧ State.AfterAll (nops 3) u t ∧ s.CoresOnly k t ∧
      (t.core k).reg (seifReg w) = (if ok then narrowReg (seifReg w) (seifImm w) else c.reg (seifReg w)) ∧
      s.CoreKept k (fun r => r = seifReg w) t) ∧
    (s.AtWord k w 5 → op = 0x0A → ∃ u t, exec (.insStset core) s = .next u ∧ State.AfterAll (nops 5) u t ∧ s.CoresOnly k t ∧
      (t.core k).st = (if ok then narrowReg MR.ST (c.st.toNat ||| seifImm w) else c.st) ∧ s.CoreKept k (fun r => r = MR.ST) t) ∧
    (s.AtWord k w 5 → op = 0x0B → ∃ u t, exec (.insStclr core) s = .next u ∧ State.AfterAll (nops 5) u t ∧ s.CoresOnly k t ∧
      (t.core k).st = (if ok then narrowReg MR.ST (c.st.toNat &&& (0xFFFFFFFF ^^^ seifImm w)) else c.st) ∧
      s.CoreKept k (fun r => r = MR.ST) t) ∧
    (s.AtWord k w 1 →
      (op = 1 → ∃ u t, exec (.insJmp core) s = .next u ∧ State.AfterAll (nops 1) u t ∧ s.CoresOnly k t ∧ s.CoreKept k (fun _ => False) t ∧
        (t.core k).pc = if ok then seifImm w % 4096 else (c.pc + 2) % 4096) ∧
      (op = 2 → ∃ u t, exec (.insCall core) s = .next u ∧ State.AfterAll (nops 1) u t ∧ s.CoresOnly k t ∧ s.CoreKept k (fun r => r = 15) t ∧
        (t.core k).reg 15 = (if ok then BitVec.ofNat 32 ((c.pc + 2) % 4096) else c.reg 15) ∧
        (t.core k).pc = if ok then seifImm w % 4096 else (c.pc + 2) % 4096) ∧
      (op = 3 → ∃ u t, exec (.insRet core) s = .next u ∧ State.AfterAll (nops 1) u t ∧ s.CoresOnly k t ∧ s.CoreKept k (fun _ => False) t ∧
        (t.core k).pc = if ok then (c.reg 15).toNat % 4096 else (c.pc + 2) % 4096) ∧
      (op = 4 → ∃ u t, exec (.insReti core) s = .next u ∧ State.AfterAll (nops 1) u t ∧ s.CoresOnly k t ∧ s.CoreKept k (fun r => r = MR.ST) t ∧
        (t.core k).st = (if ok then narrowReg MR.ST (c.reg MR.IST).toNat else c.st) ∧
        (t.core k).pc = if ok then (c.reg MR.IPC).toNat else (c.pc + 2) % 4096) ∧
      (∀ (cmd : Instr) count stop, (op = 5 ∧ cmd = .insDo core ∧ count = seifImm w % 65536) ∨
          (op = 6 ∧ cmd = .insDor core ∧ count = (c.reg (seifReg w)).toNat % 65536) → stop = seifImm w / 65536 % 4096 →
        ∃ u t, exec cmd s = .next u ∧ State.AfterAll (nops 1) u t ∧ s.CoresOnly k t ∧
          (count = 0 → s.CoreKept k (fun _ => False) t ∧ (t.core k).pc = (stop + 1) % 4096) ∧
          (count ≠ 0 → s.CoreKept k (fun r => r = MR.LC 0 ∨ r = MR.LS 0 ∨ r = MR.LE 0 ∨ r = MR.ST) t ∧
            (t.core k).pc = (c.pc + 2) % 4096 ∧ (t.core k).reg (MR.LC 0) = BitVec.ofNat 32 count ∧
            (t.core k).reg (MR.LS 0) = BitVec.ofNat 32 ((c.pc + 2) % 4096) ∧ (t.core k).reg (MR.LE 0) = BitVec.ofNat 32 stop ∧
            stBit (t.core k).st ST.LA0 = true)) ∧
      (op = 7 → ok = true → ∃ u t, exec (.insWait core) s = .next u ∧ State.AfterAll (nops 1) u t ∧ t.coreState k = XS.WAITING ∧
        (t.core k).pc = (c.pc + 2) % 4096 ∧ (t.core k).pipe = [] ∧ (t.core k).r = c.r ∧ (t.core k).acc = c.acc ∧
        State.RegsOnly (regsAt [(Pg.SEIF k, SEIF.CYCLE_CNT.off), (Pg.SEIF k, SEIF.STATE.off)])
          { s with seif := t.seif, free := t.free } t)) ∧
    (s.AtWord k w 0 → op = 8 → ok = true → ∃ t, exec (.insStop core) s = .next t ∧ t.coreState k = XS.HALTED ∧
      (t.core k).pc = (c.pc + 1) % 4096 ∧ (t.core k).pipe = [] ∧ (t.core k).r = c.r ∧ (t.core k).acc = c.acc ∧
      t.get (Pg.SEIF k) SEIF.EV_HALTED = 1 ∧ (∀ j, j ∈ t.oas.running → j.kind ≠ .core k) ∧
      State.RegsOnly (onPages [Pg.SEIF k, Pg.OAS]) { s with seif := t.seif, oas := t.oas, free := t.free } t)

/-- Commands of a core's page (R345, R349 to R351): RUN, HALT, STEP and RELEASE are refused on a core that is not the customer's; RUN
of a halted core waits for the dispatcher as a class-3 job; HALT withdraws a pending start and halts a running core; STEP
carries out one word; a claim outside cores 24 to 31 is refused, waits for running link firmware, or is granted at once with
memories cleared; RELEASE returns the core; link firmware starts one of its cores at START_PC where its rate fits.
Memories and interrupts of a core (R331, R332, R345, R346, R349, R359): a host write reaches IM of a halted customer core, XM below
the port words and YM at any time, and is refused on a core of link firmware; a read returns the word; MBOX_IN and the timer make their
source pending; an enabled pending interrupt saves PC and ST, clears IE, LA0 and LA1 and fetches from VEC; an illegal
word takes the core to FAULT with cause ILLEGAL and the word's address. -/
def Obligations.SeifCoresAndMemories : Prop :=
  (∀ (s : State) (tick : Nat) (core : Fin 32) (k pg : Nat) (c : SeifCore) (job : Job), k = core.val → pg = Pg.SEIF k → c = s.core k →
      s.Reaches pg →
      (s.customer k = false → ∀ cmd, cmd ∈ [Instr.seifRun core, .seifHalt core, .seifStep core, .seifRelease core] →
        ∃ t, exec cmd s = .next t ∧ t.get pg CFG.CFG_ERR = 1 ∧ t.get pg CFG.ERR_CODE = ErrCode.NOT_PERMITTED ∧
          t.get pg CMN.EV_CFG_REFUSED = 1 ∧
          s.RegsOnly (regsAt [(pg, CMN.CFG_STATE), (pg, CMN.ERR_DETAIL), (pg, CMN.EVENTS)]) t) ∧
      (s.customer k = true →
        (s.coreState k = XS.HALTED ∨ s.coreState k = XS.FAULT →
          (∀ j, j ∈ s.oas.ready ++ s.oas.running → j.kind ≠ .core k) → job = ⟨.core k, 3, s.seifCost, false, s.time, none, false⟩ →
          ∃ t, exec (.seifRun core) s = .next t ∧ t.coreState k = XS.START_PENDING ∧ t.get pg SEIF.CAUSE = 0 ∧
            t.oas = { s.oas with ready := s.oas.ready ++ [job] } ∧ (t.core k).pc = c.pc ∧
            State.RegsOnly (regsAt [(pg, SEIF.STATE.off)]) { s with seif := t.seif, oas := t.oas } t) ∧
        (s.coreState k = XS.START_PENDING ∨ ((s.coreState k = XS.RUNNING ∨ s.coreState k = XS.WAITING) ∧ c.pipe = []) →
          ∃ t, exec (.seifHalt core) s = .next t ∧ t.coreState k = XS.HALTED ∧ t.get pg SEIF.EV_HALTED = 1 ∧
            t.get pg SEIF.PENDING_REASON = 0 ∧ (∀ j, j ∈ t.oas.ready ++ t.oas.running → j.kind ≠ .core k) ∧ (t.core k).pc = c.pc ∧
            (t.core k).r = c.r ∧ State.RegsOnly (onPages [pg, Pg.OAS]) { s with seif := t.seif, oas := t.oas } t) ∧
        (∀ w, s.coreState k = XS.HALTED → c.pipe = [] → c.slotNext = false → c.target = none → c.pc < 4096 → c.i c.pc = w →
          stBit c.st ST.LA0 = false → stBit c.st ST.LA1 = false → seifIllegal w = false → seifWide w = false → stillMoves w →
          ∃ t, exec (.seifStep core) s = .next t ∧ s.Computed k w t ∧ (t.core k).pc = (c.pc + 1) % 4096 ∧ (t.core k).pipe = [] ∧
            t.coreState k = XS.HALTED ∧ State.RegsOnly (fun _ => False) { s with seif := t.seif, free := t.free } t) ∧
        (s.coreState k = XS.HALTED → ∃ t, exec (.seifRelease core) s = .next t ∧ t.get pg SEIF.OWNER = 0 ∧ (t.core k).im = [] ∧
          (t.core k).xm = [] ∧ (t.core k).ym = [] ∧ (t.core k).r = c.r ∧
          State.RegsOnly (onPages [pg, Pg.OAS]) { s with seif := t.seif, oas := t.oas } t)) ∧
      (s.get pg SEIF.OWNER = 0 →
        (k < 24 ∨ 8 ≤ s.claimed → ∃ t, exec (.claim core) s = .next t ∧ t.get pg SEIF.OWNER = 0 ∧
          t.get pg CFG.ERR_CODE = ErrCode.NOT_PERMITTED ∧ t.get pg SEIF.EV_GRANT_REFUSED = 1 ∧
          s.RegsOnly (regsAt [(pg, SEIF.OWNER.off), (pg, CMN.CFG_STATE), (pg, CMN.ERR_DETAIL), (pg, CMN.EVENTS)]) t) ∧
        (24 ≤ k → s.claimed < 8 → s.fwRunning = true → ∃ t, exec (.claim core) s = .next t ∧ t.get pg SEIF.OWNER = 2 ∧
          s.RegsOnly (regsAt [(pg, SEIF.OWNER.off)]) t) ∧
        (24 ≤ k → s.claimed < 8 → s.fwRunning = false → s.coreState k = XS.HALTED → ∃ t, exec (.claim core) s = .next t ∧
          t.get pg SEIF.OWNER = 1 ∧ t.get pg SEIF.LOOP_WR = 0 ∧ t.get pg SEIF.EV_GRANT = 1 ∧ (t.core k).im = [] ∧
          (t.core k).xm = [] ∧ (t.core k).ym = [] ∧
          State.RegsOnly (onPages [pg, Pg.OAS]) { s with seif := t.seif, oas := t.oas, shadow := t.shadow } t)) ∧
      (s.get pg SEIF.OWNER = 2 →
        (∃ t, exec (.claimDecision tick core false) s = .next t ∧ t.get pg SEIF.OWNER = 0 ∧ t.get pg SEIF.EV_GRANT_REFUSED = 1 ∧
          State.RegsOnly (regsAt [(pg, SEIF.OWNER.off), (pg, CMN.CFG_STATE), (pg, CMN.ERR_DETAIL), (pg, CMN.EVENTS)]) (s.atTick tick) t) ∧
        (s.coreState k = XS.HALTED → ∃ t, exec (.claimDecision tick core true) s = .next t ∧ t.get pg SEIF.OWNER = 1 ∧
          t.get pg SEIF.EV_GRANT = 1 ∧ (t.core k).im = [] ∧ (t.core k).xm = [] ∧ (t.core k).ym = [] ∧
          State.RegsOnly (onPages [pg, Pg.OAS]) { s.atTick tick with seif := t.seif, oas := t.oas, shadow := t.shadow } t)) ∧
      (s.fwRunning = true → s.customer k = false → s.coreState k = XS.HALTED → s.level = 0 →
        (∀ j, j ∈ s.oas.ready ++ s.oas.running → j.kind ≠ .core k) → s.heldBack 1 = false →
        (s.fits s.seifCost = true → ∃ t, exec (.linkCoreStart tick core) s = .next t ∧ t.coreState k = XS.RUNNING ∧
          (t.core k).pc = s.get pg SEIF.START_PC ∧ t.get pg SEIF.CAUSE = 0 ∧ t.oas.free = s.oas.free - s.seifCost ∧
          State.RegsOnly (onPages [pg, Pg.OAS]) { s.atTick tick with seif := t.seif, oas := t.oas } t) ∧
        (s.fits s.seifCost = false → ∃ t, exec (.linkCoreStart tick core) s = .next t ∧ t.coreState k = XS.START_PENDING ∧
          t.get pg SEIF.PENDING_REASON = 1 ∧ s.Counted Pg.OAS OAS.DISPATCH_REFUSE_CNT t ∧
          State.RegsOnly (onPages [pg, Pg.OAS]) { s.atTick tick with seif := t.seif, oas := t.oas } t))) ∧
  (∀ (s : State) (tick : Nat) (core : Fin 32) (k pg : Nat) (c : SeifCore), k = core.val → pg = Pg.SEIF k → c = s.core k →
      (∀ (addr : BitVec 24) (v : Word) (off n : Nat), s.Reaches pg → addr.toNat = 0x800000 + 0x40000 * k + off → off < 0x30000 →
        n = off / 4 % 16384 →
        (s.customer k = false → off < 0x8000 ∨ 0x10000 ≤ off → ∃ t, exec (.seifWindowWrite addr v) s = .next t ∧
          t.get pg CFG.ERR_CODE = ErrCode.NOT_PERMITTED ∧ s.Counted pg SEIF.WIN_REFUSED_CNT t ∧
          s.RegsOnly (regsAt [(pg, SEIF.WIN_REFUSED_CNT.off), (pg, CMN.CFG_STATE), (pg, CMN.ERR_DETAIL), (pg, CMN.EVENTS)]) t) ∧
        (s.customer k = true → s.coreState k = XS.HALTED →
          (off < 0x8000 → ∃ t, exec (.seifWindowWrite addr v) s = .next t ∧
            (∀ a, a < 4096 → (t.core k).i a = if a = n / 2 then
              (if n % 2 = 0 then (c.i a).extractLsb' 32 32 ++ v else v ++ (c.i a).extractLsb' 0 32) else c.i a) ∧
            (t.core k).xm = c.xm ∧ (t.core k).ym = c.ym ∧ (t.core k).r = c.r ∧
            State.RegsOnly (fun _ => False) { s with seif := t.seif } t) ∧
          (0x10000 ≤ off → off < 0x20000 → n < 0x3FF0 → ∃ t, exec (.seifWindowWrite addr v) s = .next t ∧
            (∀ a, a < 16384 → (t.core k).x a = if a = n then v else c.x a) ∧ (t.core k).im = c.im ∧ (t.core k).ym = c.ym ∧
            State.RegsOnly (fun _ => False) { s with seif := t.seif } t) ∧
          (0x20000 ≤ off → ∃ t, exec (.seifWindowWrite addr v) s = .next t ∧
            (∀ a, a < 16384 → (t.core k).y a = if a = n then v else c.y a) ∧ (t.core k).im = c.im ∧ (t.core k).xm = c.xm ∧
            State.RegsOnly (fun _ => False) { s with seif := t.seif } t) ∧
          (∀ x : Word, (off < 0x8000 ∧ x = if n % 2 = 0 then (c.i (n / 2)).setWidth 32 else (c.i (n / 2)).extractLsb' 32 32) ∨
              (0x10000 ≤ off ∧ off < 0x20000 ∧ n < 0x3FF0 ∧ x = c.x n) ∨ (0x20000 ≤ off ∧ x = c.y n) →
            ∃ t, exec (.seifWindowRead addr) s = .next t ∧
              State.RegsOnly (fun _ => False) { s with host := { s.host with rdata := x } } t))) ∧
      (s.Reaches pg → ∀ v : Word, ∃ t, exec (.mboxInWrite core v) s = .next t ∧ t.get pg SEIF.MBOX_IN = v.toNat ∧
        t.core k = { c with mboxPend := true } ∧ State.RegsOnly (regsAt [(pg, SEIF.MBOX_IN.off)]) { s with seif := t.seif } t) ∧
      (s.domOn (64 + k) = true → s.get pg SEIF.TIMER_US ≠ 0 → 
        timerPeriod (s.get pg SEIF.TIMER_US) c.timerAt < timerPeriod (s.get pg SEIF.TIMER_US) tick →
        ∃ t, exec (.seifTimerTick tick core) s = .next t ∧ t.core k = { c with timerPend := true, timerAt := tick } ∧
          State.RegsOnly (fun _ => False) { s.atTick tick with seif := t.seif } t) ∧
      (s.domOn (64 + k) = true → s.flag pg CFG.ARMED = false → c.pipe = [] →
        (s.coreState k = XS.RUNNING ∨ s.coreState k = XS.WAITING → stBit c.st ST.IE = true → c.slotNext = false → c.pc < 4096 →
          s.irqPend k &&& s.get pg SEIF.IRQ_EN ≠ 0 → ∃ t, exec (.interruptEntry core) s = .next t ∧ t.coreState k = XS.RUNNING ∧
          (t.core k).reg MR.IPC = BitVec.ofNat 32 c.pc ∧ (t.core k).reg MR.IST = c.st ∧
          (t.core k).st = (c.mergeSt (ST.IE + ST.LA0 + ST.LA1) 0).st ∧ (t.core k).pc = s.get pg SEIF.VEC ∧
          s.Counted pg SEIF.IRQ_CNT t ∧ (∀ r, r ≠ MR.IPC → r ≠ MR.IST → r ≠ MR.ST → (t.core k).reg r = c.reg r) ∧
          State.RegsOnly (regsAt [(pg, SEIF.STATE.off), (pg, SEIF.IRQ_CNT.off)]) { s with seif := t.seif } t) ∧
        (s.coreState k = XS.RUNNING → c.waitNext = false → c.pc < 4096 → seifIllegalAt c.slotNext (c.i c.pc) = true →
          ∃ t, exec (.illegalInstruction core) s = .next t ∧ t.coreState k = XS.FAULT ∧ t.get pg SEIF.CAUSE = 1 ∧
          t.get pg SEIF.FAULT_PC = c.pc ∧ t.get pg SEIF.EV_FAULT = 1 ∧ s.Counted pg SEIF.FAULT_CNT t ∧
          (∀ j, j ∈ t.oas.running → j.kind ≠ .core k) ∧
          State.RegsOnly (onPages [pg, Pg.OAS]) { s with seif := t.seif, oas := t.oas } t)))

/-! ## UARTs (R371 to R382) -/

/-- The receiver of a UART (R372 to R376, R379 to R381): a false start is counted; a character enters the FIFO with its OVR, GAP, FE and
PE marks, and is dropped as an overrun where the FIFO is full; a line that stays low is a break with one entry, and the receiver then
waits until the line has been high for one bit; a line low for STUCK_MS is reported and, with RX_OFF, closes the receiver; a gap is
marked once; RX_DATA takes the oldest entry; a bit-rate measurement sets the divisor, or fails and counts.
The transmitter of a UART and its safe point (R377, R378, R382): TX_DATA on an idle transmitter enables the driver in MODE NORMAL with
DE_EN and goes to the line DE_LEAD later, or at once where the driver is enabled or not used; behind others it waits, and into a full
FIFO it is dropped and counted; the end of a character starts the next, or leaves the line idle; a break goes out before the next
character; the driver is released DE_LAG after the last stop bit; TX_FLUSH empties the FIFO; a set that has waited 10 ms applies and is
reported. -/
def Obligations.UartsReceiveAndSend : Prop :=
  (∀ (s : State) (tick : Nat) (unit : Fin 4) (n pg : Nat) (u : UartSt) (marks now : Nat), n = unit.val → pg = Pg.UART n →
      u = s.uartSt n → now = (s.atTick tick).time → marks = 2 ^ 31 + (if u.ovr then 2 ^ 12 else 0) + (if u.gap then 2 ^ 11 else 0) →
      (s.uartHears n = true → u.leadFrom = none → s.flag pg CFG.ARMED = false →
        (∀ data par stop half, (s.atTick tick).startHeard n false = true →
          ∃ t, exec (.uartCharReceived tick unit false data par stop half) s = .next t ∧
          s.Counted pg UART.FALSE_START_CNT t ∧ State.RegsOnly (regsAt [(pg, UART.FALSE_START_CNT.off)]) (s.atTick tick) t) ∧
        ((s.atTick tick).startHeard n true = true → s.abArmed n = false →
          (∀ data par half d bad, u.rx.length < 64 → d = s.uartData n data →
            bad = s.parityBad n d.toNat (par && decide (s.get pg UART.PARITY ≠ 0)) →
            ∃ t, exec (.uartCharReceived tick unit true data par true half) s = .next t ∧
              t.uartSt n = { u with rx := u.rx ++ [BitVec.ofNat 32 (marks + (if bad then 2 ^ 8 else 0) + d.toNat)]
                                    ovr := false, gap := false, rxFree := Nat.max u.rxFree now } ∧
              t.get pg UART.RX_FILL = u.rx.length + 1 ∧ t.get pg UART.LINE = 1 ∧ s.Counted pg UART.RX_CHAR_CNT t ∧
              (bad = true → t.get pg UART.EV_PE = 1 ∧ s.Counted pg UART.PE_CNT t) ∧
              State.RegsOnly (regsAt [(pg, UART.RX_FILL.off), (pg, UART.RX_CHAR_CNT.off), (pg, UART.PE_CNT.off), (pg, CMN.EVENTS)])
                { s.atTick tick with uart := t.uart } t) ∧
          (∀ data par half, 64 ≤ u.rx.length → ∃ t, exec (.uartCharReceived tick unit true data par true half) s = .next t ∧
            (t.uartSt n).rx = u.rx ∧ (t.uartSt n).ovr = true ∧ t.get pg UART.EV_OVERRUN = 1 ∧ s.Counted pg UART.OVERRUN_CNT t ∧
            State.RegsOnly (regsAt [(pg, UART.LINE.off), (pg, UART.OVERRUN_CNT.off), (pg, UART.PE_CNT.off), (pg, CMN.EVENTS)])
              { s.atTick tick with uart := t.uart } t) ∧
          (∀ data d, u.rx.length < 64 → d = s.uartData n data → d ≠ 0 → s.get pg UART.PARITY = 0 →
            ∃ t, exec (.uartCharReceived tick unit true data false false false) s = .next t ∧
              (t.uartSt n).rx = u.rx ++ [BitVec.ofNat 32 (marks + 2 ^ 9 + d.toNat)] ∧ t.get pg UART.EV_FE = 1 ∧
              t.get pg UART.LINE = 0 ∧ s.Counted pg UART.FE_CNT t) ∧
          (∀ data, u.rx.length < 64 → s.uartData n data = 0 →
            ∃ t, exec (.uartCharReceived tick unit true data false false false) s = .next t ∧
              t.uartSt n = { u with rx := u.rx ++ [BitVec.ofNat 32 (marks + 2 ^ 10 + 2 ^ 9)], ovr := false, gap := false
                                    rxFree := Nat.max u.rxFree (now + cyclesTicks (s.halfBits n 2)) } ∧
              t.get pg UART.EV_BREAK = 1 ∧ s.Counted pg UART.BREAK_CNT t ∧ t.get pg UART.LINE = 0 ∧
              State.RegsOnly (regsAt [(pg, UART.RX_FILL.off), (pg, UART.RX_CHAR_CNT.off), (pg, UART.BREAK_CNT.off), (pg, CMN.EVENTS)])
                { s.atTick tick with uart := t.uart } t)) ∧
        (∀ since, s.abArmed n = false → u.rx.length < 64 → u.rxFree ≤ since →
          cyclesPassed since tick (s.halfBits n (2 * s.charBits n)) = true → ∃ t, exec (.break_ tick unit since) s = .next t ∧
          t.uartSt n = { u with rx := u.rx ++ [BitVec.ofNat 32 (marks + 2 ^ 10 + 2 ^ 9)], ovr := false, gap := false
                                rxFree := Nat.max u.rxFree (now + cyclesTicks (s.halfBits n 2)) } ∧
          t.get pg UART.EV_BREAK = 1 ∧ s.Counted pg UART.BREAK_CNT t ∧ t.get pg UART.LINE = 0 ∧
          State.RegsOnly (regsAt [(pg, UART.RX_FILL.off), (pg, UART.RX_CHAR_CNT.off), (pg, UART.BREAK_CNT.off), (pg, CMN.EVENTS)])
            { s.atTick tick with uart := t.uart } t)) ∧
      (s.uartOn n = true → u.leadFrom = none →
        (∀ since, s.get pg UART.STUCK_MS ≠ 0 → since + msTicks (s.get pg UART.STUCK_MS) ≤ tick → s.flag pg UART.LINE_STUCK = false →
          ∃ t, exec (.lineStuck tick unit since) s = .next t ∧ t.get pg UART.LINE_STUCK = 1 ∧ t.get pg UART.LINE = 0 ∧
            t.get pg UART.RX_OFF = (if s.flag pg UART.STUCK_ACTION then 1 else s.get pg UART.RX_OFF) ∧
            t.get pg UART.EV_LINE_STUCK = 1 ∧ s.Counted pg UART.STUCK_CNT t ∧
            State.RegsOnly (regsAt [(pg, UART.LINE.off), (pg, UART.STUCK_CNT.off), (pg, CMN.EVENTS)]) (s.atTick tick) t) ∧
        (∀ since, cyclesPassed since tick (s.halfBits n (2 * s.charBits n)) = true → ∃ t, exec (.lineRecover tick unit since) s = .next t ∧
          t.get pg UART.LINE_STUCK = 0 ∧ t.get pg UART.LINE = 1 ∧ State.RegsOnly (regsAt [(pg, UART.LINE.off)]) (s.atTick tick) t) ∧
        (∀ since, s.get pg UART.IDLE_GAP ≠ 0 → u.idleFrom ≠ some since →
          cyclesPassed since tick (s.halfBits n (s.get pg UART.IDLE_GAP * s.charBits n)) = true →
          ∃ t, exec (.idle tick unit since) s = .next t ∧ t.uartSt n = { u with gap := true, idleFrom := some since } ∧
          t.get pg UART.LINE = 1 ∧ t.get pg UART.EV_IDLE = 1 ∧
          State.RegsOnly (regsAt [(pg, UART.LINE.off), (pg, CMN.EVENTS)]) { s.atTick tick with uart := t.uart } t) ∧
        (∀ edges, s.uartRxOn n = true → s.abArmed n = true → s.get pg UART.MODE = 1 ∨ s.uartHears n = true →
          s.flag pg UART.AB_STORE = false →
          (∀ div rate, abMeasure (s.abEdges n) edges = some (div, rate) → ∃ t, exec (.abMeasureDone tick unit edges) s = .next t ∧
            t.get pg UART.AB_STATE = AB.DONE ∧ t.get pg UART.DIV_INT = div / 16 % 2 ^ 16 ∧ t.get pg UART.DIV_FRAC = div % 16 ∧
            t.get pg UART.DIV_NOW = t.get pg UART.DIV_INT + 65536 * t.get pg UART.DIV_FRAC ∧
            t.get pg UART.AB_BAUD = rate % 2 ^ 23 ∧ t.get pg UART.EV_AB_DONE = 1 ∧
            State.RegsOnly (regsAt [(pg, UART.AB_STATE.off), (pg, UART.DIV_INT.off), (pg, UART.DIV_NOW.off), (pg, UART.AB_BAUD.off),
              (pg, CMN.EVENTS)]) (s.atTick tick) t) ∧
          (abMeasure (s.abEdges n) edges = none → ∃ t, exec (.abMeasureDone tick unit edges) s = .next t ∧
            t.get pg UART.AB_STATE = AB.FAILED ∧ t.get pg UART.EV_AB_FAIL = 1 ∧ s.Counted pg UART.AB_FAIL_CNT t ∧
            State.RegsOnly (regsAt [(pg, UART.AB_STATE.off), (pg, UART.AB_FAIL_CNT.off), (pg, CMN.EVENTS)]) (s.atTick tick) t))) ∧
      (s.Reaches pg →
        (∀ w rest, u.rx = w :: rest → ∃ t, exec (.rxDataRead unit) s = .next t ∧ t.host.rdata = w ∧
          t.uartSt n = { u with rx := rest } ∧ t.get pg UART.RX_FILL = rest.length % 128 ∧
          State.RegsOnly (regsAt [(pg, UART.RX_FILL.off)]) { s with uart := t.uart, host := { s.host with rdata := w } } t) ∧
        (u.rx = [] → ∃ t, exec (.rxDataRead unit) s = .next t ∧
          State.RegsOnly (fun _ => False) { s with host := { s.host with rdata := 0 } } t) ∧
        (∃ t, exec (.rxFlush unit) s = .next t ∧ t.uartSt n = { u with rx := [] } ∧ t.get pg UART.RX_FILL = 0 ∧
          State.RegsOnly (regsAt [(pg, UART.RX_FILL.off)]) { s with uart := t.uart } t) ∧
        (∃ t, exec (.rxResume unit) s = .next t ∧ t.get pg UART.RX_OFF = 0 ∧ s.RegsOnly (regsAt [(pg, UART.RX_OFF.off)]) t) ∧
        (∃ t, exec (.abArm unit) s = .next t ∧ t.get pg UART.AB_STATE = AB.ARMED ∧ s.RegsOnly (regsAt [(pg, UART.AB_STATE.off)]) t) ∧
        (∃ t, exec (.abCancel unit) s = .next t ∧ t.get pg UART.AB_STATE = AB.IDLE ∧ s.RegsOnly (regsAt [(pg, UART.AB_STATE.off)]) t))) ∧
  (∀ (s : State) (tick : Nat) (unit : Fin 4) (n pg : Nat) (u : UartSt) (now lead : Nat), n = unit.val → pg = Pg.UART n →
      u = s.uartSt n → now = (s.atTick tick).time → lead = cyclesTicks (s.uartTicks n (s.get pg UART.DE_LEAD)) →
      (∀ b : Byte, s.Reaches pg →
        (u.leadFrom = none → 64 ≤ u.tx.length → ∃ t, exec (.txData unit b) s = .next t ∧ t.get pg UART.EV_TX_OVF = 1 ∧
          s.Counted pg UART.TX_OVF_CNT t ∧ s.RegsOnly (regsAt [(pg, UART.TX_OVF_CNT.off), (pg, CMN.EVENTS)]) t) ∧
        (u.leadFrom = none → u.tx.length < 64 → u.cur.isSome = true → ∃ t, exec (.txData unit b) s = .next t ∧
          t.uartSt n = { u with tx := u.tx ++ [b] } ∧
          t.get pg UART.TX_FILL = u.tx.length + 1 ∧ State.RegsOnly (regsAt [(pg, UART.TX_FILL.off)]) { s with uart := t.uart } t) ∧
        (u.leadFrom = none → u.tx = [] → u.cur = none → u.gapWait = false → u.brkDue = false → s.uartSends n = true →
          (s.flag pg UART.DE_EN = false ∨ s.get pg UART.MODE ≠ 0 ∨ s.flag pg UART.DE = true → ∃ t, exec (.txData unit b) s = .next t ∧
            t.uartSt n = { u with cur := some (.char b), startAt := s.time } ∧ t.get pg UART.TX_BUSY = 1 ∧ t.get pg UART.TX_FILL = 0 ∧
            t.get pg UART.EV_TX_EMPTY = 1 ∧ t.get pg UART.DE = s.get pg UART.DE ∧
            State.RegsOnly (regsAt [(pg, UART.TX_FILL.off), (pg, CMN.EVENTS)]) { s with uart := t.uart } t) ∧
          (s.flag pg UART.DE_EN = true → s.get pg UART.MODE = 0 → s.flag pg UART.DE = false → 0 < lead →
            ∃ t, exec (.txData unit b) s = .next t ∧ t.uartSt n = { u with tx := [b], leadFrom := some s.time } ∧
            t.get pg UART.DE = 1 ∧ t.get pg UART.TX_BUSY = 0 ∧ t.get pg UART.TX_FILL = 1 ∧
            State.RegsOnly (regsAt [(pg, UART.TX_FILL.off)]) { s with uart := t.uart } t)) ∧
        (∀ t0 c rest, u.leadFrom = some t0 → t0 + lead ≤ s.time → s.uartSends n = true → u.brkDue = false → u.tx = c :: rest →
          rest.length < 64 → ∃ t, exec (.txData unit b) s = .next t ∧
          t.uartSt n = { u with leadFrom := none, startAt := t0 + lead, cur := some (.char c), tx := rest ++ [b] } ∧
          t.get pg UART.TX_BUSY = 1 ∧ t.get pg UART.TX_FILL = rest.length + 1 ∧
          State.RegsOnly (regsAt [(pg, UART.TX_FILL.off), (pg, CMN.EVENTS)]) { s with uart := t.uart } t)) ∧
      (∀ (rxIdle : Bool) item, s.uartOn n = true → u.leadFrom = none → u.cur = some item →
        cyclesPassed u.startAt tick (s.itemCycles n item) = true → s.get pg UART.MODE = 0 → s.flag pg CFG.ARMED = false →
        s.uartSends n = true → u.brkDue = false →
        (∀ b rest, u.tx = b :: rest → s.flag pg UART.DE_EN = false ∨ s.flag pg UART.DE = true →
          ∃ t, exec (.uartCharSent tick unit rxIdle) s = .next t ∧
          t.uartSt n = { u with cur := some (.char b), tx := rest, startAt := now, endAt := now } ∧ t.get pg UART.TX_BUSY = 1 ∧
          (item ≠ .brk → s.Counted pg UART.TX_CHAR_CNT t) ∧ (rest = [] → t.get pg UART.EV_TX_EMPTY = 1) ∧
          State.RegsOnly (regsAt [(pg, UART.TX_FILL.off), (pg, UART.TX_CHAR_CNT.off), (pg, CMN.EVENTS)])
            { s.atTick tick with uart := t.uart } t) ∧
        (u.tx = [] → ∃ t, exec (.uartCharSent tick unit rxIdle) s = .next t ∧
          t.uartSt n = { u with cur := none, startAt := now, endAt := now, gapWait := decide (s.get pg UART.TX_GAP ≠ 0) } ∧
          t.get pg UART.TX_BUSY = 0 ∧ (item ≠ .brk → s.Counted pg UART.TX_CHAR_CNT t) ∧
          State.RegsOnly (regsAt [(pg, UART.TX_FILL.off), (pg, UART.TX_CHAR_CNT.off)]) { s.atTick tick with uart := t.uart } t)) ∧
      (∀ b rest, s.uartOn n = true → s.uartSends n = true → u.leadFrom = none → u.cur = none → u.brkDue = false → u.tx = b :: rest →
        cyclesPassed u.endAt tick (s.halfBits n (s.get pg UART.TX_GAP * s.charBits n)) = true →
        s.flag pg UART.DE_EN = false ∨ s.get pg UART.MODE ≠ 0 ∨ s.flag pg UART.DE = true →
        ∃ t, exec (.txGapExpiry tick unit) s = .next t ∧
          t.uartSt n = { u with gapWait := false, cur := some (.char b), tx := rest, startAt := now } ∧ t.get pg UART.TX_BUSY = 1 ∧
          State.RegsOnly (regsAt [(pg, UART.TX_FILL.off), (pg, CMN.EVENTS)]) { s.atTick tick with uart := t.uart } t) ∧
      (s.domOn 150 = true → u.leadFrom = none → u.cur = none → u.tx = [] → s.get pg UART.MODE ≠ 2 →
        cyclesPassed u.endAt tick (s.uartTicks n (s.get pg UART.DE_LAG)) = true →
        ∃ t, exec (.deRelease tick unit) s = .next t ∧ t.get pg UART.DE = 0 ∧
          t.uartSt n = { u with rxFree := if s.flag pg UART.RX_WHILE_TX then u.rxFree
                                else Nat.max u.rxFree (now + cyclesTicks (s.uartTicks n 1)) } ∧
          State.RegsOnly (regsAt [(pg, UART.DE.off)]) { s.atTick tick with uart := t.uart } t) ∧
      (s.Reaches pg → u.leadFrom = none →
        (u.cur.isSome = true → ∃ t, exec (.sendBreak unit) s = .next t ∧ t.uartSt n = { u with brkDue := true } ∧
          State.RegsOnly (fun _ => False) { s with uart := t.uart } t) ∧
        (u.cur = none → u.gapWait = false → s.uartSends n = true →
          s.flag pg UART.DE_EN = false ∨ s.get pg UART.MODE ≠ 0 ∨ s.flag pg UART.DE = true → ∃ t, exec (.sendBreak unit) s = .next t ∧
          t.uartSt n = { u with cur := some .brk, brkDue := false, startAt := s.time } ∧ t.get pg UART.TX_BUSY = 1 ∧
          State.RegsOnly (regsAt [(pg, UART.TX_BUSY.off)]) { s with uart := t.uart } t) ∧
        (∃ t, exec (.txFlush unit) s = .next t ∧ t.uartSt n = { u with tx := [] } ∧ t.get pg UART.TX_FILL = 0 ∧
          State.RegsOnly (regsAt [(pg, UART.TX_FILL.off)]) { s with uart := t.uart } t)) ∧
      (s.uartOn n = true → u.leadFrom = none → u.cur = none → s.flag pg CFG.ARMED = true → u.commitAt + msTicks 10 ≤ tick →
        (∀ e, e ∈ s.shadow → e.1 / 4096 = pg → 0x010 ≤ e.1 % 4096 ∧ e.1 % 4096 < 0x100) →
        ∃ t, exec (.uartCfgAbort tick unit) s = .next t ∧ t.get pg CFG.ARMED = 0 ∧ t.hasShadow pg = false ∧
          t.get pg CMN.EV_COMMIT_APPLIED = 1 ∧ t.get pg UART.DIV_NOW = t.get pg UART.DIV_INT + 65536 * t.get pg UART.DIV_FRAC ∧
          t.get pg UART.EV_CFG_ABORT = 1 ∧ s.Counted pg UART.CFG_ABORT_CNT t ∧
          State.RegsOnly (onPages [pg]) { s.atTick tick with shadow := t.shadow, uart := t.uart } t))

/-! ## Caravan ring (R383 to R398) -/

/-- Links, time and the states of R389 (R383 to R391, R79): the master is in service once its out-link is UP; a link that goes DOWN is
counted, and a slave that loses its in-link is an orphan in HOLDOVER on its own clock; the master sends its SAMPLE_TIME, shows the
devices that are connected and takes the tokens of the others back; it closes the ring when its mark has passed as many devices
as configured; a slave joins on a mark that fits once its time is the master's, refuses one that does not, comes back through
REJOINING, and takes its phase from beacons; a DSYNC message resets the decimators; silence
orphans a slave and opens the master's ring.
Tokens and fields on the ring (R392 to R396): the master queues a claim that clashes with a token held and grants any other; a slave
keeps a grant that it claimed and gives any other back; a token that nothing uses goes back, and the master takes it off its
table; PREEMPT marks the data transmissions on the band as victims; an acknowledgement owed reserves its band; the master of a DEEPEN
ring delivers the first copy of a frame that a slave decoded and counts a later copy as merged. -/
def Obligations.RingLinksTokensAndFields : Prop :=
  (∀ (s : State) (tick : Nat) (lost : State → Prop), s.cavOn = true →
      (∀ t, lost t ↔ t.cavState = CS.ORPHAN ∧ t.get Pg.CAV CAV.EV_ORPHAN = 1 ∧ s.Counted Pg.CAV CAV.ORPHAN_CNT t ∧ t.cav.mine = [] ∧
        t.cav.claims = [] ∧
        (s.clk.sclkFailed = false →
          t.get Pg.CLK CLK.SAMPLE_SRC = if s.get Pg.CLK CLK.SAMPLE_SRC = 1 then 0 else s.get Pg.CLK CLK.SAMPLE_SRC) ∧
        (s.tb = TB.OFF → t.tb = TB.OFF) ∧ (s.tb ≠ TB.OFF → t.tb = TB.HOLDOVER ∧ t.get Pg.MTB MTB.EV_HOLDOVER_ENTER = 1)) →
      (∀ (lanes : BitVec 5) hop link, s.isMaster = true → s.cavState = CS.TRAINING → lanes.toNat % 4 = 3 →
        ∃ t, exec (.linkUp tick true lanes hop link) s = .next t ∧ t.cavState = CS.CONNECTED ∧ t.get Pg.CAV CAV.POSITION = 0 ∧
          t.get Pg.CAV CAV.MEMBERS = 1 ∧ t.get Pg.CAV CAV.EV_CONNECTED = 1 ∧ t.get Pg.CAV CAV.OUT_LANES = lanes.toNat ∧
          (4 ≤ lanes.toNat → t.get Pg.CAV CAV.EV_POL_FIX = 1) ∧
          State.RegsOnly (regsAt [(Pg.CAV, CAV.STATE.off), (Pg.CAV, CAV.OUT_LANES.off), (Pg.CAV, CMN.EVENTS)])
            { s.atTick tick with cav := { s.cav with outUp := true } } t) ∧
      (∀ (lanes : BitVec 5) hop link, s.isMaster = false ∨ s.cavState ≠ CS.TRAINING → lanes.toNat % 4 = 3 →
        ∃ t, exec (.linkUp tick true lanes hop link) s = .next t ∧ t.get Pg.CAV CAV.OUT_LANES = lanes.toNat ∧
          (4 ≤ lanes.toNat → t.get Pg.CAV CAV.EV_POL_FIX = 1) ∧
          State.RegsOnly (regsAt [(Pg.CAV, CAV.OUT_LANES.off), (Pg.CAV, CMN.EVENTS)])
            { s.atTick tick with cav := { s.cav with outUp := true } } t) ∧
      (∀ (lanes : BitVec 5) (hop link : BitVec 32), s.isMaster = false ∨ s.cavState ≠ CS.TRAINING ∨ s.cav.outUp = false →
        lanes.toNat % 4 = 3 →
        ∃ t, exec (.linkUp tick false lanes hop link) s = .next t ∧
        t.get Pg.CAV CAV.IN_LANES = lanes.toNat ∧ t.get Pg.CAV CAV.HOP_NS = hop.toNat ∧ t.get Pg.CAV CAV.LINK_NS = link.toNat ∧
        (4 ≤ lanes.toNat → t.get Pg.CAV CAV.EV_POL_FIX = 1) ∧
        State.RegsOnly (regsAt [(Pg.CAV, CAV.IN_LANES.off), (Pg.CAV, CAV.HOP_NS.off), (Pg.CAV, CAV.LINK_NS.off), (Pg.CAV, CMN.EVENTS)])
          { s.atTick tick with cav := { s.cav with inUp := true } } t) ∧
      (∀ (out : Bool) (lanes : BitVec 5) violations resends, s.linkFails lanes violations resends = false →
        ∃ t, exec (.linkDown tick out lanes violations resends) s = .next t ∧
          t.get Pg.CAV (if out then CAV.OUT_LANES else CAV.IN_LANES) = lanes.toNat ∧ s.CountedBy Pg.CAV CAV.CV_CNT violations t ∧
          State.RegsOnly (regsAt [(Pg.CAV, CAV.IN_LANES.off), (Pg.CAV, CAV.CV_CNT.off)]) (s.atTick tick) t) ∧
      (∀ (out : Bool) (lanes : BitVec 5) violations resends, s.linkFails lanes violations resends = true →
        (if out then s.cav.outUp else s.cav.inUp) = true →
        (out = true ∨ s.slaveLinked = false → ∃ t, exec (.linkDown tick out lanes violations resends) s = .next t ∧
          (if out then t.cav.outUp else t.cav.inUp) = false ∧ t.get Pg.CAV CAV.EV_LINK_DOWN = 1 ∧ s.Counted Pg.CAV CAV.LINK_DOWN_CNT t ∧
          t.get Pg.CAV (if out then CAV.OUT_LANES else CAV.IN_LANES) = lanes.toNat ∧
          State.RegsOnly (regsAt [(Pg.CAV, CAV.IN_LANES.off), (Pg.CAV, CAV.CV_CNT.off), (Pg.CAV, CAV.LINK_DOWN_CNT.off), (Pg.CAV, CMN.EVENTS)])
            { s.atTick tick with cav := t.cav } t) ∧
        (out = false → s.slaveLinked = true → ∃ t, exec (.linkDown tick out lanes violations resends) s = .next t ∧
          t.cav.inUp = false ∧ lost t ∧
          s.Counted Pg.CAV CAV.LINK_DOWN_CNT t ∧ s.DramKept t)) ∧
      (∀ out : Bool, (if out then s.cav.outUp else s.cav.inUp) = false →
        (if out then s.cav.outDownAt else s.cav.inDownAt) + msTicks (s.get Pg.CAV CAV.TRAIN_MS) ≤ tick →
        ∃ t, exec (.retrainTimer tick out) s = .next t ∧
        t.get Pg.CAV (if out then CAV.OUT_LANES else CAV.IN_LANES) = 0 ∧
        State.RegsOnly (regsAt [(Pg.CAV, CAV.IN_LANES.off)]) { s.atTick tick with
          cav := if out then { s.cav with outDownAt := tick } else { s.cav with inDownAt := tick } } t) ∧
      (∃ t, exec (.ringMessageResend tick) s = .next t ∧ s.Counted Pg.CAV CAV.RESEND_CNT t ∧
        State.RegsOnly (regsAt [(Pg.CAV, CAV.RESEND_CNT.off)]) (s.atTick tick) t) ∧
      (s.Reaches Pg.CAV →
        (s.slaveLinked = false ∨ s.cav.inUp = false → ∃ t, exec .retrain s = .next t ∧
          t.get Pg.CAV CAV.IN_LANES = 0 ∧ t.get Pg.CAV CAV.OUT_LANES = 0 ∧
          (s.cav.inUp = true ∨ s.cav.outUp = true → t.get Pg.CAV CAV.EV_LINK_DOWN = 1) ∧
          State.RegsOnly (regsAt [(Pg.CAV, CAV.IN_LANES.off), (Pg.CAV, CAV.LINK_DOWN_CNT.off), (Pg.CAV, CMN.EVENTS)])
            { s with cav := { s.cav with inUp := false, outUp := false
                                         inDownAt := if s.cav.inUp then s.time else s.cav.inDownAt
                                         outDownAt := if s.cav.outUp then s.time else s.cav.outDownAt } } t) ∧
        (s.slaveLinked = true → s.cav.inUp = true → ∃ t, exec .retrain s = .next t ∧ t.cav.inUp = false ∧ t.cav.outUp = false ∧
          lost t ∧ t.get Pg.CAV CAV.EV_LINK_DOWN = 1 ∧ s.DramKept t)) ∧
      (s.flag Pg.CAV CFG.ARMED = false →
        (∀ members : BitVec 8, s.isMaster = true →
          (s.cavState ≠ CS.CONNECTED → ∃ t, exec (.timeMarkSend tick members) s = .next t ∧
            State.RegsOnly (fun _ => False) { s.atTick tick with cav := { s.cav with out := s.cav.out ++ [.mark tick] } } t) ∧
          (s.cavState = CS.CONNECTED → (∀ k, k ∈ s.cav.held → bitOf (members.toNat ||| 1) k.dev ≠ 0 ∨ tick < k.planned) →
            ∃ t, exec (.timeMarkSend tick members) s = .next t ∧ t.get Pg.CAV CAV.MEMBERS = members.toNat ||| 1 ∧
            State.RegsOnly (regsAt [(Pg.CAV, CAV.MEMBERS.off)])
              { s.atTick tick with cav := { s.cav with out := s.cav.out ++ [.mark tick] } } t) ∧
          (∀ k, s.cavState = CS.CONNECTED → s.cav.held = [k] → s.cav.queue = [] → bitOf (members.toNat ||| 1) k.dev = 0 → k.planned ≤ tick →
            ∃ t, exec (.timeMarkSend tick members) s = .next t ∧ t.get Pg.CAV CAV.MEMBERS = members.toNat ||| 1 ∧
            State.RegsOnly (regsAt [(Pg.CAV, CAV.MEMBERS.off)]) { s.atTick tick with
              cav := { s.cav with held := [], out := s.cav.out ++ [.mark tick] }, mac := { s.mac with ended := t.mac.ended } } t)) ∧
        (∀ (m : TimeMark) (err : Int), err = (s.atTick tick).markErr m → s.cav.inUp = true →
          (s.isMaster = true → m.otherRoot = false → s.flag Pg.CAV CAV.RING = false → m.hops = s.get Pg.CAV CAV.RING_SIZE_M1 + 1 →
            ∃ t, exec (.timeMarkReceive tick m) s = .next t ∧ t.get Pg.CAV CAV.RING = 1 ∧ t.get Pg.CAV CAV.FAULT = 0 ∧
            t.get Pg.CAV CAV.MEMBERS = 2 ^ m.hops - 1 ∧
            State.RegsOnly (regsAt [(Pg.CAV, CAV.RING.off)]) { s.atTick tick with cav := { s.cav with returnAt := tick } } t) ∧
          (s.isMaster = false → s.cavState = CS.TRAINING → s.joinFault m = none → s.cav.joined = true →
            (err.natAbs ≤ 16 → ∃ t, exec (.timeMarkReceive tick m) s = .next t ∧ t.cavState = CS.CONNECTED ∧
              t.get Pg.CAV CAV.POSITION = m.hops % 8 ∧ t.get Pg.CAV CAV.EV_CONNECTED = 1 ∧ t.get Pg.CLK CLK.SAMPLE_SRC = 1 ∧
              t.get Pg.CAV CAV.TIME_ERR = satSigned 16 err ∧ t.cav.markAt = tick ∧
              State.RegsOnly (regsAt [(Pg.CAV, CAV.STATE.off), (Pg.CAV, CAV.TIME_ERR.off), (Pg.CAV, CMN.EVENTS),
                (Pg.CLK, CLK.SAMPLE_SRC.off)])
                { s.atTick tick with cav := t.cav, clk := { s.clk with stopped := false, returning := false } } t) ∧
            (16 < err → ∃ t, exec (.timeMarkReceive tick m) s = .next t ∧ t.cavState = CS.TRAINING ∧
              t.get Pg.CLK CLK.SAMPLE_SRC = 1 ∧ t.getInt Pg.CAV CAV.SLEW_PPM = -500 ∧ t.time = Nat.max s.time tick) ∧
            (err < -16 → ∃ t, exec (.timeMarkReceive tick m) s = .next t ∧ t.cavState = CS.CONNECTED ∧
              t.get Pg.CAV CAV.EV_TIME_STEP = 1 ∧ t.time = (((Nat.max s.time tick : Nat) : Int) - err / 16).toNat)) ∧
          (s.isMaster = false → s.cavState = CS.TRAINING → s.joinFault m = none → s.cav.joined = false →
            ∃ t, exec (.timeMarkReceive tick m) s = .next t ∧ t.cavState = CS.CONNECTED ∧ t.cav.joined = true ∧
            t.time = (((Nat.max s.time tick : Nat) : Int) - err / 16).toNat) ∧
          (∀ f, s.isMaster = false → s.cavState = CS.TRAINING → s.joinFault m = some f → ∃ t, exec (.timeMarkReceive tick m) s = .next t ∧
            t.cavState = CS.TRAINING ∧ t.get Pg.CAV CAV.FAULT = f ∧ t.get Pg.CAV CAV.EV_JOIN_REFUSED = 1) ∧
          (s.isMaster = false → s.cavState = CS.ORPHAN → ∃ t, exec (.timeMarkReceive tick m) s = .next t ∧
            t.cavState = CS.REJOINING ∧ t.get Pg.CAV CAV.EV_REJOIN = 1 ∧ t.get Pg.CLK CLK.SAMPLE_SRC = 1 ∧
            (err < 0 → t.get Pg.CAV CAV.EV_TIME_STEP = 1 ∧ t.time = (((Nat.max s.time tick : Nat) : Int) - err / 16).toNat) ∧
            (16 < err → t.getInt Pg.CAV CAV.SLEW_PPM = -500 ∧ t.time = Nat.max s.time tick)) ∧
          (s.isMaster = false → s.cavState = CS.REJOINING → err.natAbs ≤ 16 → ∃ t, exec (.timeMarkReceive tick m) s = .next t ∧
            t.cavState = CS.CONNECTED ∧ t.get Pg.CAV CAV.SLEW_PPM = 0 ∧
            ∀ e, e ∈ t.wad.queues → ∀ x, x ∈ e.2.msgs → x.lapsed = true))) ∧
      (s.isMaster = true → s.cavState = CS.CONNECTED → ∃ t, exec (.beaconSend tick) s = .next t ∧
        State.RegsOnly (fun _ => False) { s.atTick tick with cav := { s.cav with out := s.cav.out ++
          [.beacon (s.mainsTime tick).1 tick s.tb (s.get Pg.MTB MTB.FREQ)] } } t) ∧
      (∀ b : Beacon, s.slaveLinked = true → s.cav.inUp = true → b.state < 8 → b.freq < 2 ^ 32 →
        (s.enabled Pg.MTB = false → ∃ t, exec (.beaconReceive tick b) s = .next t ∧ State.RegsOnly (fun _ => False)
          { s.atTick tick with cav := { s.cav with beaconAt := tick, beaconCycle := some b.cycle } } t) ∧
        (s.enabled Pg.MTB = true → b.state = TB.OFF → s.tb = TB.OFF → ∃ t, exec (.beaconReceive tick b) s = .next t ∧
          t.get Pg.MTB MTB.CYCLE = b.cycle % 2 ^ 32 ∧ s.CopiesMoved t ∧ State.RegsOnly (regsAt [(Pg.MTB, MTB.CYCLE.off)])
            { s.atTick tick with cav := { s.cav with beaconAt := tick, beaconCycle := some b.cycle }
                                 mtb := { s.mtb with periods := [] }, txs := t.txs } t) ∧
        (∀ phi, s.enabled Pg.MTB = true → b.state ≠ TB.OFF → s.tb ≠ TB.LOCKED → s.tb ≠ TB.HOLDOVER →
          phi = s.beaconHalf b * phiCount + (tick - b.time) * b.freq →
          ∃ t, exec (.beaconReceive tick b) s = .next t ∧ t.tb = b.state ∧ t.get Pg.MTB MTB.FREQ = b.freq ∧
            t.mtb.phi = phi % phiCycle ∧ t.mtb.anchor = tick ∧ t.get Pg.MTB MTB.CYCLE = (b.cycle + phi / phiCycle) % 2 ^ 32 ∧
            State.RegsOnly (regsAt [(Pg.MTB, MTB.STATE.off), (Pg.MTB, MTB.FREQ.off), (Pg.MTB, MTB.CYCLE.off)])
              { s.atTick tick with cav := { s.cav with beaconAt := tick, beaconCycle := some b.cycle }, mtb := t.mtb
                                   txs := { s.txs with lanes := t.txs.lanes, c0Half := [] } } t)) ∧
      (∀ tr, s.isMaster = false → s.cavState = CS.CONNECTED → s.domOn 142 = true → tick ≤ tr + usTicks 128 →
        s.flag Pg.DEC CFG.ARMED = false → ∃ t, exec (.dsyncMessage tick tr) s = .next t ∧ t.sns.epoch = tr ∧
          t.get Pg.DEC DEC.EV_DSYNC = 1 ∧ s.Counted Pg.DEC DEC.DSYNC_CNT t ∧
          State.RegsOnly (onPages [Pg.DEC]) { s.atTick tick with sns := t.sns } t) ∧
      (s.isMaster = false → s.cavState = CS.CONNECTED → s.cav.markAt + usTicks (s.get Pg.CAV CAV.ORPHAN_US) ≤ tick →
        ∃ t, exec (.orphanTimeout tick) s = .next t ∧ lost t ∧ s.DramKept t) ∧
      (s.isMaster = true → s.flag Pg.CAV CAV.RING = true → s.cav.returnAt + usTicks (s.get Pg.CAV CAV.ORPHAN_US) ≤ tick →
        ∃ t, exec (.ringOpen tick) s = .next t ∧ t.get Pg.CAV CAV.RING = 0 ∧ t.get Pg.CAV CAV.EV_RING_OPEN = 1 ∧
          t.cavState = s.cavState ∧ State.RegsOnly (regsAt [(Pg.CAV, CAV.RING.off), (Pg.CAV, CMN.EVENTS)]) (s.atTick tick) t)) ∧
  (∀ (s : State) (tick : Nat) (k : Token), s.cavOn = true →
      (s.isMaster = true →
        (s.mustQueue k = true → ∃ t, exec (.tokenClaim tick k) s = .next t ∧
          State.RegsOnly (fun _ => False) { s.atTick tick with cav := { s.cav with queue := s.cav.queue ++ [k] } } t) ∧
        (s.mustQueue k = false → k.cls ≠ 0 → k.dev ≠ s.get Pg.CAV CAV.POSITION → ∃ t, exec (.tokenClaim tick k) s = .next t ∧
          State.RegsOnly (fun _ => False)
            { s.atTick tick with cav := { s.cav with held := s.cav.held ++ [k], out := s.cav.out ++ [.grant k] } } t) ∧
        (s.cav.mine = [] → s.cav.queue = [] → ∃ t, exec (.tokenRelease tick k) s = .next t ∧ State.RegsOnly (fun _ => False)
          { s.atTick tick with cav := { s.cav with held := s.cav.held.filter fun h => !sameToken h k }
                               mac := { s.mac with ended := t.mac.ended } } t) ∧
        (∃ t, exec (.ackReservation tick k) s = .next t ∧ State.RegsOnly (fun _ => False)
          { s.atTick tick with cav := { s.cav with held := s.cav.held ++ [{ k with ack := true }] } } t)) ∧
      (s.isMaster = false →
        (s.cavState = CS.CONNECTED → k.dev = s.get Pg.CAV CAV.POSITION →
          (s.claimed_ k = true → k.cls ≠ 0 → ∃ t, exec (.tokenGrant tick k) s = .next t ∧ t.cav.mine = s.cav.mine ++ [k] ∧
            (∀ x, x ∈ t.cav.claims → x ∈ s.cav.claims ∧ ¬ (x.feeder = k.feeder ∧ x.centre = k.centre ∧ x.rate = k.rate ∧ x.ack = k.ack)) ∧
            t.cav.out = s.cav.out ∧ State.RegsOnly (fun _ => False) { s.atTick tick with cav := t.cav } t) ∧
          (s.claimed_ k = false → ∃ t, exec (.tokenGrant tick k) s = .next t ∧
            State.RegsOnly (fun _ => False) { s.atTick tick with cav := { s.cav with out := s.cav.out ++ [.release k] } } t)) ∧
        (k ∈ s.cav.mine → s.tokenInUse k = false → ∃ t, exec (.tokenRelease tick k) s = .next t ∧
          State.RegsOnly (fun _ => False) { s.atTick tick with
            cav := { s.cav with mine := s.cav.mine.filter (fun x => !sameToken x k), out := s.cav.out ++ [.release k] } } t) ∧
        (∃ t, exec (.ackReservation tick k) s = .next t ∧ State.RegsOnly (fun _ => False) { s.atTick tick with
          cav := { s.cav with mine := s.cav.mine ++ [{ k with ack := true }], out := s.cav.out ++ [.reserve { k with ack := true }] } } t)) ∧
      (∀ (p l : Nat) (x : Lane), l < 16 → s.txs.lanes = [(16 * p + l, some x)] → s.feederOf p = k.feeder → x.kind = .data →
        x.onLine = true → bandsOverlap x.centre x.rate k.centre k.rate = true → x.victim = false →
        ∃ t, exec (.preempt tick k) s = .next t ∧ t.lane p l = some { x with victim := true, cutFrom := (s.atTick tick).time } ∧
          t.get Pg.CAV CAV.EV_PREEMPT = 1 ∧
          s.Counted Pg.CAV CAV.PREEMPT_CNT t ∧ State.RegsOnly (regsAt [(Pg.CAV, CAV.PREEMPT_CNT.off), (Pg.CAV, CMN.EVENTS)])
            { s.atTick tick with txs := t.txs } t) ∧
      (s.txs.lanes = [] → ∃ t, exec (.preempt tick k) s = .next t ∧ t.get Pg.CAV CAV.EV_PREEMPT = 1 ∧
        State.RegsOnly (regsAt [(Pg.CAV, CMN.EVENTS)]) (s.atTick tick) t) ∧
      (∀ (position : Fin 8) (d : RingField) (x : RxCopy) (f : RxFrame) (ring : Nat), s.deepMaster = true → s.openSess = [] →
        x = { eng := d.eng, port := d.port, centre := d.centre, rate := d.rate, sync := d.sync, alarm := d.alarm, hdr := d.word.toNat,
              tSync := d.tSync, tPre := d.tPre, snr := d.snr, field := d.field, soft := [], late := false, diag := none, combined := 0,
              slot := none, copy := (PhyHeader.ofWord d.word.toNat).copyIndex, cut := none } → f = RxFrame.of x true →
        fcsOk d.field = true → formatOk d.field = true →
        (s.mergedAway f = true → ∃ t, exec (.deepenFieldReceive tick position d) s = .next t ∧
          s.Counted Pg.CAV (CAV.FWD_FRAME_CNT.nth position.val) t ∧ s.Counted Pg.CAV CAV.MERGE_CNT t ∧
          State.RegsOnly (regsAt [(Pg.CAV, (CAV.FWD_FRAME_CNT.nth position.val).off), (Pg.CAV, CAV.MERGE_CNT.off)]) (s.atTick tick) t) ∧
        (s.mergedAway f = false → s.runOf x = none → s.flag Pg.LNK CFG.ARMED = false → s.get Pg.MAC MAC.REGIME = 0 → f.h.cls ≠ 0 →
          f.h.sec = false → f.h.src ≠ 0 → f.h.dst = 0 → f.h.ackReq = false → f.h.ftype = FT.DATA → f.h.hops = 0 →
          s.flag Pg.LNK LNK.REQUIRE_SEC = false → s.slotOf f.h.src = none → (s.ep f.h.src).state = .absent →
          ring = s.classRing f.h.cls → s.ringEn ring = true → s.ringRoom ring = true → s.lossPending ring = false → s.wad.due = [] →
          ∃ t r, exec (.deepenFieldReceive tick position d) s = .next t ∧ (t.ring ring).recs = (s.ring ring).recs ++ [r] ∧
            r.payload = fieldPayload d.field ∧ s.Counted Pg.WAD WAD.RX_RECORD_CNT t ∧
            t.cav.merged = (f.h.src, f.h.seq, x.tSync) :: s.cav.merged ∧
            State.RegsOnly (regsAt [(Pg.CAV, (CAV.FWD_FRAME_CNT.nth position.val).off), (Pg.WAD, WAD.RX_RECORD_CNT.off)])
              { s.atTick tick with cav := t.cav, wad := t.wad } t)))

/-! ## Clocks, resets and DRAM (R400 to R417) -/

/-- Clock failures (R401 to R404, page CLK): SCLK_IN without an edge for 1 µs, or more than MON_PPM away, sets
SAMPLE_FAIL, is counted and clears SCLK_OK; a device that runs from
SCLK_IN goes over to the fallback source with FAILOVER_EN set, and its SAMPLE domain stops with FAILOVER_EN clear; SAMPLE_RETURN is
accepted on the fallback source once SCLK_IN has been good for 1 s, and refused with STATE otherwise; its end sets RETURN_DONE;
AON_FAIL and PLL_UNLOCK set their events and clear their status bits. -/
def Obligations.ClocksFailAndReturn : Prop :=
  ∀ (s : State) (tick good : Nat) (ppm : BitVec 16),
    (∀ noEdge, s.monitorFails ppm noEdge = false → ∃ t, exec (.sclkFail tick ppm noEdge) s = .next t ∧
      t.get Pg.CLK CLK.SCLK_PPM = ppm.toNat ∧ State.RegsOnly (regsAt [(Pg.CLK, CLK.SCLK_PPM.off)]) (s.atTick tick) t) ∧
    (∀ noEdge, s.monitorFails ppm noEdge = true → ∃ t, exec (.sclkFail tick ppm noEdge) s = .next t ∧
      t.get Pg.CLK CLK.EV_SAMPLE_FAIL = 1 ∧ s.Counted Pg.CLK CLK.SAMPLE_FAIL_CNT t ∧
      t.get Pg.CLK CLK.SCLK_OK = 0 ∧ t.get Pg.CLK CLK.SCLK_PPM = ppm.toNat ∧
      (s.get Pg.CLK CLK.SAMPLE_SRC = 0 → s.flag Pg.CLK CLK.FAILOVER_EN = true → t.get Pg.CLK CLK.SAMPLE_SRC = 2 ∧
        t.get Pg.CLK CLK.EV_FAILOVER = 1 ∧ t.clk.stopped = s.clk.stopped) ∧
      (s.get Pg.CLK CLK.SAMPLE_SRC = 0 → s.flag Pg.CLK CLK.FAILOVER_EN = false → t.get Pg.CLK CLK.SAMPLE_SRC = 0 ∧
        t.clk.stopped = true) ∧
      (s.get Pg.CLK CLK.SAMPLE_SRC ≠ 0 → t.get Pg.CLK CLK.SAMPLE_SRC = s.get Pg.CLK CLK.SAMPLE_SRC ∧ t.clk.stopped = s.clk.stopped) ∧
      State.RegsOnly (regsAt [(Pg.CLK, 0x100), (Pg.CLK, CLK.SCLK_PPM.off), (Pg.CLK, CMN.EVENTS), (Pg.CLK, CLK.SAMPLE_FAIL_CNT.off)])
        { s.atTick tick with clk := { s.clk with sclkFailed := true, returning := false, stopped := t.clk.stopped } } t) ∧
    (s.Reaches Pg.CLK → ∃ t, exec (.sampleReturn good) s = .next t ∧
      (s.get Pg.CLK CLK.SAMPLE_SRC = 2 → 2048000 ≤ good → State.RegsOnly (regsAt [(Pg.CLK, CLK.SCLK_OK.off)])
        { s with clk := { s.clk with returning := true } } t ∧ t.get Pg.CLK CLK.SAMPLE_SRC = 2) ∧
      (s.get Pg.CLK CLK.SAMPLE_SRC ≠ 2 ∨ good < 2048000 → t.get Pg.CLK CFG.CFG_ERR = 1 ∧ t.get Pg.CLK CFG.ERR_CODE = ErrCode.STATE ∧
        t.get Pg.CLK CMN.EV_CFG_REFUSED = 1 ∧ s.RegsOnly (regsAt [(Pg.CLK, CLK.SCLK_OK.off), (Pg.CLK, CMN.CFG_STATE),
          (Pg.CLK, CMN.ERR_DETAIL), (Pg.CLK, CMN.EVENTS)]) t)) ∧
    (s.clk.returning = true → ∃ t, exec (.returnDone tick) s = .next t ∧ t.get Pg.CLK CLK.SAMPLE_SRC = 0 ∧ t.get Pg.CLK CLK.SCLK_OK = 1 ∧
      t.get Pg.CLK CLK.EV_RETURN_DONE = 1 ∧ State.RegsOnly (regsAt [(Pg.CLK, 0x100), (Pg.CLK, CMN.EVENTS)])
        { s.atTick tick with clk := { s.clk with returning := false, sclkFailed := false } } t) ∧
    (∃ t, exec .aonFail s = .next t ∧ t.get Pg.CLK CLK.AON_OK = 0 ∧ t.get Pg.CLK CLK.EV_AON_FAIL = 1 ∧
      s.RegsOnly (regsAt [(Pg.CLK, 0x100), (Pg.CLK, CMN.EVENTS)]) t) ∧
    (∀ pll f, [CLK.SYS_LOCK, CLK.SPR_LOCK, CLK.SAMPLE_LOCK, CLK.DRAM01_LOCK, CLK.DRAM23_LOCK][pll.val]? = some f →
      ∃ t, exec (.pllUnlock pll) s = .next t ∧ t.get Pg.CLK f = 0 ∧ t.get Pg.CLK CLK.EV_PLL_UNLOCK = 1 ∧
        s.Counted Pg.CLK CLK.PLL_UNLOCK_CNT t ∧
        s.RegsOnly (regsAt [(Pg.CLK, 0x100), (Pg.CLK, CMN.EVENTS), (Pg.CLK, CLK.PLL_UNLOCK_CNT.off)]) t)

/-- Resets (R404, R406 to R408, R418, R430): each source resets what its row of R406 names and keeps the rest, latches the straps but on a
warm reset, and shows its cause in LAST_CAUSE; RESET_N and WARM are counted; in deep sleep RESET_N and the AON timer wake the YG256;
0x5A5A restarts the watchdog and any other kick is counted; at expiry it is counted and acts as WDT_ACTION says. Stated for an MRAM
whose words read well; that DRAM reads as empty after a reset that does not keep it is notes/assumptions/4.md. -/
def Obligations.ResetsKeepWhatTheySay : Prop :=
  ∀ (s : State) (tick : Nat) (straps : BitVec 4) (v : BitVec 16) (pin : Bool),
    (∃ t, exec (.powerOnReset straps []) s = .next t ∧ s.BroughtUp keepMram [] straps 0 t) ∧
    (∃ t, exec (.xinLoss straps []) s = .next t ∧ s.BroughtUp keepMram [] straps 2 t) ∧
    (s.asleep = false → ∃ t, exec (.pinReset straps []) s = .next t ∧ s.BroughtUp keepAon [(Pg.RST, RST.PIN_CNT.off)] straps 1 t ∧
      t.get Pg.RST RST.PIN_CNT = (s.get Pg.RST RST.PIN_CNT + 1) % 2 ^ 32) ∧
    (s.asleep = true → (∃ t, exec (.pinReset straps []) s = .next t ∧ s.BroughtUp keepAon [] straps 7 t) ∧
      (∀ a, s.clk.sleepAt = some a →
        pin = true ∨ (s.get Pg.SEC SEC.DS_WAKE_S ≠ 0 ∧ a + s.get Pg.SEC SEC.DS_WAKE_S * 2048000 ≤ tick) →
        ∃ t, exec (.deepSleepWake tick pin straps []) s = .next t ∧ s.BroughtUp keepAon [] straps 7 t)) ∧
    (s.Reaches Pg.RST →
      (∃ t, exec (.chip straps []) s = .next t ∧ s.BroughtUp keepAon [] straps 4 t) ∧
      (∃ t, exec (.warm []) s = .next t ∧ s.WarmStarted 3 t) ∧
      (∃ t, exec (.wdtKick v) s = .next t ∧
        (v = 0x5A5A → State.RegsOnly (fun _ => False) { s with clk := { s.clk with wdtAt := some s.time } } t) ∧
        (v ≠ 0x5A5A → s.Counted Pg.RST RST.WDT_BAD_KICK_CNT t ∧ s.RegsOnly (regsAt [(Pg.RST, RST.WDT_BAD_KICK_CNT.off)]) t))) ∧
    (∀ a, s.asleep = false → s.clk.wdtAt = some a → s.get Pg.RST RST.WDT_MS ≠ 0 → a + msTicks (s.get Pg.RST RST.WDT_MS) ≤ tick →
      ∃ t, exec (.wdtExpired tick straps []) s = .next t ∧ s.Counted Pg.RST RST.WDT_CNT t ∧
        (s.get Pg.RST RST.WDT_ACTION = 0 → t.get Pg.RST RST.EV_WDT_EXPIRED = 1 ∧
          State.RegsOnly (regsAt [(Pg.RST, CMN.EVENTS), (Pg.RST, RST.WDT_CNT.off)])
            { s.atTick tick with clk := { s.clk with wdtAt := none } } t) ∧
        (s.get Pg.RST RST.WDT_ACTION = 1 → ∃ u, u.RegsKept (regsAt [(Pg.RST, CMN.EVENTS), (Pg.RST, RST.WDT_CNT.off)]) s ∧
          (∃ regs, u = { s.atTick tick with regs := regs }) ∧ u.WarmStarted 5 t) ∧
        (s.get Pg.RST RST.WDT_ACTION = 2 → s.BroughtUp keepAon [(Pg.RST, RST.WDT_CNT.off)] straps 6 t))

/-- DRAM (R409, R410, R414 to R417, R419): four trained channels of one density give four times its capacity; a pair with a failed channel
leaves the other pair alone at half capacity, DEGRADED; a population that mixes densities, or a failure in both pairs, gives no
DRAM and stops boot at 0xF0; where there is DRAM, the boot ROM writes the default region table. A scrub pass is counted, and each
error that it meets counts in its channel with the address; a hot device sets DRAM_HOT. -/
def Obligations.DramTrainsAndReportsErrors : Prop :=
  ∀ (s : State) (tick : Nat),
    (∀ (d : Nat) (ok : List Bool) (dens : List Nat) (fell : Bool), (∀ n, n < 4 → s.get (Pg.DRC n) DRC.STATE = 0) →
      s.get (Pg.DRC 0) DRC.CAPACITY_MIB = 0 → s.get Pg.RST RST.BOOT_STAGE ≠ 0xF1 → s.get Pg.RST RST.BOOT_SEL ≠ 2 →
      ok.length = 4 → dens.length = 4 →
      ∃ t, exec (.dramTrainingDone tick ⟨ok, dens, fell⟩) s = .next t ∧
        (∀ used, densityOk d = true → (∀ n, n < 4 → ok[n]? = some true → dens[n]? = some d) →
          (used = [0, 1, 2, 3] ∧ ok = [true, true, true, true] ∨ used = [0, 1] ∧ ok.take 2 = [true, true] ∧ ok.drop 2 ≠ [true, true] ∨
            used = [2, 3] ∧ ok.drop 2 = [true, true] ∧ ok.take 2 ≠ [true, true]) →
          t.get (Pg.DRC 0) DRC.CAPACITY_MIB = d * 1024 * used.length ∧
          t.get (Pg.DRC 0) DRC.CHANNELS_ACTIVE = (used.map (2 ^ ·)).sum ∧
          t.get (Pg.DRC 0) DRC.DEGRADED = (if used.length = 2 then 1 else 0) ∧
          (∀ n, n < 4 → t.get (Pg.DRC n) DRC.STATE = if n ∈ used then 1 else 3) ∧
          (∀ n, n < 4 → ok[n]? = some false → t.get (Pg.DRC n) DRC.EV_TRAIN_FAIL = 1) ∧
          (∀ r kind base size ecc wr, (defaultRegions (d * 1024 * used.length))[r]? = some (kind, base, size, ecc, wr) →
            t.get (Pg.DRC 0) (DRC.KIND.nth r) = kind ∧ t.get (Pg.DRC 0) (DRC.EN.nth r) = 1 ∧
            t.get (Pg.DRC 0) (DRC.ECC.nth r) = ecc.toNat ∧ t.get (Pg.DRC 0) (DRC.HOST_WR.nth r) = wr.toNat ∧
            t.regionBase r = base * 2 ^ 20 ∧ t.regionSize r = size * 2 ^ 20) ∧
          t.get Pg.RST RST.BOOT_STAGE = (if s.get Pg.RST RST.BOOT_SEL = 1 then 0x80 else 0x30)) ∧
        (∀ n m x y, n < 4 → m < 4 → ok[n]? = some true → ok[m]? = some true → dens[n]? = some x → dens[m]? = some y → x ≠ y →
          t.get Pg.RST RST.BOOT_STAGE = 0xF0 ∧ ∀ k, k < 4 → t.get (Pg.DRC k) DRC.STATE = 2 ∧ t.get (Pg.DRC k) DRC.POP_MISMATCH = 1 ∧
            t.get (Pg.DRC k) DRC.EV_TRAIN_FAIL = 1) ∧
        (ok.take 2 ≠ [true, true] → ok.drop 2 ≠ [true, true] → t.get Pg.RST RST.BOOT_STAGE = 0xF0 ∧
          t.get (Pg.DRC 0) DRC.CAPACITY_MIB = 0) ∧
        State.RegsOnly (fun a => onPages [Pg.DRC 0, Pg.DRC 1, Pg.DRC 2, Pg.DRC 3] a ∨
          regsAt ([(Pg.RST, RST.BOOT_STAGE.off), (Pg.SEC, CMN.EVENTS)] ++
            (List.range 4).map fun n => (Pg.PWD1, (PWD1.STATE.nth (136 + n)).off)) a)
          { s.atTick tick with clk := { s.clk with scrubAt := t.clk.scrubAt } } t) ∧
    (s.flag (Pg.DRC 0) DRC.SCRUB_EN = true → s.get (Pg.DRC 0) DRC.CHANNELS_ACTIVE ≠ 0 →
      s.clk.scrubAt + s.get (Pg.DRC 0) DRC.SCRUB_H * hourTicks ≤ tick →
      (∃ t, exec (.scrubPass tick []) s = .next t ∧ s.Counted (Pg.DRC 0) DRC.SCRUB_PASS_CNT t ∧
        State.RegsOnly (regsAt [(Pg.DRC 0, DRC.SCRUB_PASS_CNT.off)])
          { s.atTick tick with clk := { s.clk with scrubAt := tick } } t) ∧
      (∀ a r n, s.regionAt a = some r → s.flag (Pg.DRC 0) (DRC.ECC.nth r) = true → n = s.channelOf a →
        (∃ t, exec (.scrubPass tick [(a, .corrected)]) s = .next t ∧ t.get (Pg.DRC n) DRC.EV_CE = 1 ∧
          s.Counted (Pg.DRC n) DRC.CE_CNT t ∧ s.Counted (Pg.DRC 0) DRC.SCRUB_PASS_CNT t ∧
          t.get (Pg.DRC n) DRC.CE_ADDR_LO + 2 ^ 32 * t.get (Pg.DRC n) DRC.CE_ADDR_HI = a ∧
          State.RegsOnly (regsAt [(Pg.DRC n, CMN.EVENTS), (Pg.DRC n, DRC.CE_CNT.off), (Pg.DRC n, DRC.CE_ADDR_LO.off),
            (Pg.DRC n, DRC.CE_ADDR_HI.off), (Pg.DRC 0, DRC.SCRUB_PASS_CNT.off)])
            { s.atTick tick with clk := { t.clk with scrubAt := tick } } t) ∧
        (∃ t, exec (.scrubPass tick [(a, .uncorrectable)]) s = .next t ∧ t.get (Pg.DRC n) DRC.EV_UE = 1 ∧
          s.Counted (Pg.DRC n) DRC.UE_CNT t ∧ s.Counted (Pg.DRC 0) DRC.SCRUB_PASS_CNT t ∧
          t.get (Pg.DRC n) DRC.UE_ADDR_LO + 2 ^ 32 * t.get (Pg.DRC n) DRC.UE_ADDR_HI = a ∧
          State.RegsOnly (regsAt [(Pg.DRC n, CMN.EVENTS), (Pg.DRC n, DRC.UE_CNT.off), (Pg.DRC n, DRC.UE_ADDR_LO.off),
            (Pg.DRC n, DRC.UE_ADDR_HI.off), (Pg.DRC 0, DRC.SCRUB_PASS_CNT.off)])
            { s.atTick tick with clk := { s.clk with scrubAt := tick } } t))) ∧
    (∀ (ch : Fin 4) (range : BitVec 3), s.domOn (136 + ch.val) = true → ∃ t, exec (.dramHot ch range) s = .next t ∧
      t.get (Pg.DRC ch.val) DRC.TEMP_RANGE = range.toNat ∧ t.get (Pg.DRC ch.val) DRC.EV_DRAM_HOT = 1 ∧
      s.RegsOnly (regsAt [(Pg.DRC ch.val, DRC.TEMP_RANGE.off), (Pg.DRC ch.val, CMN.EVENTS)]) t)

/-! ## Boot, security and MRAM (R419 to R433) -/

/-- Images (R419 to R423, R425): an image passes when its magic, form, key, signature, digest and SVN do; BOOT_IMAGE_VERIFY starts the
preferred slot that passes, else the other, with its SVN, digest and bytes in place, and enters recovery where both fail; FW_START
and BOOT_HOST check the FIRMWARE region while link firmware is STOPPED or HALTED and start it or record the code; a stop is followed
by an automatic restart 100 ms later; RECOVERY while link firmware does not run; ADVANCE raises the anti-rollback counter. Recovery
is stated with no wake train running. That ENTRY lies below LENGTH is notes/assumptions/100.md; that BOOT_HOST and RECOVERY are
refused in the states named, and that ADVANCED is set when the counter rises, notes/assumptions/102.md. -/
def Obligations.ImagesAreCheckedAndStarted : Prop :=
  ∀ (s : State) (tick : Nat),
    (∀ (rd : Nat → Byte) (rb : Nat), imageCheck rd rb = 0 ↔
      (imageField rd 0 4 = 0x594C4731 ∧
        (imageField rd 4 4 = 1 ∧ imageField rd 16 4 % 4 = 0 ∧ 65536 ≤ imageField rd 16 4 ∧ imageField rd 16 4 ≤ 33537920 ∧
          imageField rd 20 4 < imageField rd 16 4) ∧
        Config.shake256 (imageBytes rd 72 48) 48 = Config.imageKeyHash ∧
        Config.slhDsaVerify (imageBytes rd 72 48) (imageBytes rd 0 128) (imageBytes rd (128 + imageField rd 16 4) 16224) = true ∧
        Config.shake256 (imageBytes rd 128 (imageField rd 16 4)) 48 = imageBytes rd 24 48 ∧ rb ≤ imageField rd 8 4)) ∧
    (∀ (readA readB x : Bool) (read : Bool → Bool) (rd : Nat → Byte) (field : Bool → Fld), s.get Pg.RST RST.BOOT_STAGE = 0x30 →
      (∀ b, read b = if b then readB else readA) → (∀ b, field b = if b then SEC.BOOT_ERR_B else SEC.BOOT_ERR_A) →
      (rd = fun a => s.flashByte (a + x.toNat * 0x2000000)) →
      (s.slotCheck x (read x) = 0 → x = s.prefB ∨ s.slotCheck (!x) (read (!x)) ≠ 0 →
        ∃ t, exec (.bootImageVerify tick readA readB) s = .next t ∧ t.get Pg.SEC SEC.FW_SLOT = x.toNat ∧
          t.get Pg.SEC SEC.FW_SVN = imageField rd 8 4 ∧
          (∀ i, i < 12 → t.get Pg.SEC (SEC.FW_MEAS.nth i) = imageField rd (24 + 4 * i) 4) ∧
          (x ≠ s.prefB → t.get Pg.SEC (field (!x)) = s.slotCheck (!x) (read (!x)) ∧ t.get Pg.SEC SEC.EV_BOOT_FAIL = 1 ∧
            s.Counted Pg.SEC SEC.BOOT_FAIL_CNT t) ∧
          (s.noAutoStart = true → t.get Pg.RST RST.BOOT_STAGE = 0x50 ∧ t.fwState = s.fwState) ∧
          (s.noAutoStart = false → t.get Pg.RST RST.BOOT_STAGE = 0x60 ∧ t.fwState = FW.BOOTING ∧
            t.get Pg.SEC SEC.EV_FW_STARTED = 1) ∧
          (∀ r, s.regionOf 1 = some r →
            (∀ i, i < 128 + imageField rd 16 4 + 16224 → t.dramByte (s.regionBase r + i) = rd i) ∧
            (∀ a, a < s.regionBase r ∨ s.regionBase r + (128 + imageField rd 16 4 + 16224) ≤ a → t.dramByte a = s.dramByte a)) ∧
          State.RegsOnly (regsAt ([(Pg.SEC, SEC.FW_SLOT.off), (Pg.SEC, SEC.FW_SVN.off), (Pg.SEC, CMN.EVENTS),
              (Pg.SEC, SEC.BOOT_FAIL_CNT.off), (Pg.RST, RST.BOOT_STAGE.off), (Pg.LNK, LNK.FW_STATE.off)] ++
              (List.range 12).map fun i => (Pg.SEC, (SEC.FW_MEAS.nth i).off)))
            { s.atTick tick with dram := t.dram, sec := { s.sec with stopAt := t.sec.stopAt } } t) ∧
      (s.slotCheck x (read x) ≠ 0 → s.slotCheck (!x) (read (!x)) ≠ 0 → s.mac.trains = [] →
        ∃ t, exec (.bootImageVerify tick readA readB) s = .next t ∧ t.get Pg.RST RST.BOOT_STAGE = 0xE0 ∧
          (∀ b, t.get Pg.SEC (field b) = s.slotCheck b (read b)) ∧ t.get Pg.SEC SEC.EV_BOOT_FAIL = 1 ∧
          t.get Pg.MAC MAC.REGIME = 1 ∧ t.get Pg.MAC MAC.REASON = Why.RECOVERY ∧ t.fwState = FW.STOPPED ∧
          State.RegsOnly (regsAt [(Pg.SEC, SEC.FW_SLOT.off), (Pg.SEC, CMN.EVENTS), (Pg.SEC, SEC.BOOT_FAIL_CNT.off),
            (Pg.RST, RST.BOOT_STAGE.off), (Pg.LNK, LNK.FW_STATE.off), (Pg.MAC, MAC.REGIME.off), (Pg.MAC, CMN.EVENTS)])
            { s.atTick tick with wad := { s.wad with lnkPause := true } } t)) ∧
    (∀ c host, (c, host) ∈ [(Instr.fwStart, false), (.bootHost, true)] → s.Reaches Pg.SEC →
      (s.fwState ≠ FW.STOPPED → s.fwState ≠ FW.HALTED → ∃ t, exec c s = .next t ∧ t.get Pg.SEC CFG.ERR_CODE = ErrCode.STATE ∧
        t.get Pg.SEC CFG.CFG_ERR = 1 ∧ s.RegsOnly (regsAt [(Pg.SEC, CMN.CFG_STATE), (Pg.SEC, CMN.ERR_DETAIL), (Pg.SEC, CMN.EVENTS)]) t) ∧
      (s.fwState = FW.STOPPED ∨ s.fwState = FW.HALTED → ∃ t, exec c s = .next t ∧
        (imageCheck s.fwByte s.mrm.rollback = 0 → t.fwState = FW.BOOTING ∧ t.get Pg.RST RST.BOOT_STAGE = 0x60 ∧
          t.get Pg.SEC SEC.EV_FW_STARTED = 1 ∧ t.get Pg.SEC SEC.FW_SVN = imageField s.fwByte 8 4 ∧
          t.get Pg.SEC SEC.FW_SLOT = (if host then 2 else s.get Pg.SEC SEC.FW_SLOT) ∧ t.sec.stopAt = none) ∧
        (imageCheck s.fwByte s.mrm.rollback ≠ 0 → t.get Pg.SEC SEC.BOOT_ERR_HOST = imageCheck s.fwByte s.mrm.rollback ∧
          t.get Pg.SEC SEC.EV_BOOT_FAIL = 1 ∧ s.Counted Pg.SEC SEC.BOOT_FAIL_CNT t ∧
          t.fwState = (if host then s.fwState else FW.STOPPED)) ∧
        State.RegsOnly (regsAt ([(Pg.SEC, SEC.FW_SLOT.off), (Pg.SEC, SEC.FW_SVN.off), (Pg.SEC, CMN.EVENTS),
            (Pg.SEC, SEC.BOOT_FAIL_CNT.off), (Pg.RST, RST.BOOT_STAGE.off), (Pg.LNK, LNK.FW_STATE.off)] ++
            (List.range 12).map fun i => (Pg.SEC, (SEC.FW_MEAS.nth i).off)))
          { s with sec := { s.sec with stopAt := t.sec.stopAt } } t)) ∧
    (∀ a, s.sec.stopAt = some a → s.fwState = FW.STOPPED → a + msTicks 100 ≤ tick →
      (s.sec.restarts.filter fun x => decide (tick < x + 3600 * 2048000)).length < s.get Pg.SEC SEC.RESTART_MAX → s.time ≤ tick →
      ∃ t, exec (.autoFwRestart tick) s = .next t ∧ t.get Pg.SEC SEC.EV_RESTART = 1 ∧ s.Counted Pg.SEC SEC.RESTART_CNT t ∧
        t.sec.stopAt = none ∧ t.sec.restarts = tick :: s.sec.restarts.filter (fun x => decide (tick < x + 3600 * 2048000)) ∧
        t.fwState = (if imageCheck s.fwByte s.mrm.rollback = 0 then FW.BOOTING else FW.STOPPED) ∧
        State.RegsOnly (regsAt ([(Pg.SEC, SEC.FW_SLOT.off), (Pg.SEC, SEC.FW_SVN.off), (Pg.SEC, CMN.EVENTS),
            (Pg.SEC, SEC.BOOT_FAIL_CNT.off), (Pg.SEC, SEC.RESTART_CNT.off), (Pg.RST, RST.BOOT_STAGE.off),
            (Pg.LNK, LNK.FW_STATE.off)] ++ (List.range 12).map fun i => (Pg.SEC, (SEC.FW_MEAS.nth i).off)))
          { s.atTick tick with sec := t.sec } t) ∧
    (s.Reaches Pg.SEC →
      (s.fwState ≠ FW.RUNNING → s.mac.trains = [] → ∃ t, exec .recovery s = .next t ∧ t.get Pg.RST RST.BOOT_STAGE = 0xE0 ∧
        t.get Pg.MAC MAC.REGIME = 1 ∧ t.get Pg.MAC MAC.REASON = Why.RECOVERY ∧ t.fwState = FW.STOPPED ∧
        State.RegsOnly (regsAt [(Pg.RST, RST.BOOT_STAGE.off), (Pg.LNK, LNK.FW_STATE.off), (Pg.MAC, MAC.REGIME.off),
          (Pg.MAC, CMN.EVENTS)]) { s with wad := { s.wad with lnkPause := true } } t) ∧
      (s.fwState = FW.RUNNING → ∃ t, exec .advance s = .next t ∧
        t.mrm = { s.mrm with rollback := Nat.max s.mrm.rollback (s.get Pg.SEC SEC.FW_SVN) } ∧
        (s.mrm.rollback < s.get Pg.SEC SEC.FW_SVN → t.get Pg.SEC SEC.EV_ADVANCED = 1) ∧
        State.RegsOnly (regsAt [(Pg.SEC, CMN.EVENTS)]) { s with mrm := t.mrm } t) ∧
      (∀ c, (c = .recovery ∧ s.fwState = FW.RUNNING) ∨ (c = .advance ∧ s.fwState ≠ FW.RUNNING) → ∃ t, exec c s = .next t ∧
        t.get Pg.SEC CFG.ERR_CODE = ErrCode.STATE ∧ t.get Pg.SEC CFG.CFG_ERR = 1 ∧ t.get Pg.SEC CMN.EV_CFG_REFUSED = 1 ∧
        s.RegsOnly (regsAt [(Pg.SEC, CMN.CFG_STATE), (Pg.SEC, CMN.ERR_DETAIL), (Pg.SEC, CMN.EVENTS)]) t))

/-- Attestation and the debug lock (R427, R432): ATTEST takes the nonce, sets BUSY and discards unread words; its end leaves report and signature in
ATT_DATA, the report carrying UID, anti-rollback counter and nonce at their places; each read takes a word, 0 past the end; a
challenge serves one UNLOCK; the check of the token it answers grants the token's scope or counts a failure; FUSE_LOCK blows the
fuse with its key alone; ATTEST is refused while BUSY, and so is UNLOCK (notes/assumptions/102.md). -/
def Obligations.AttestationAndDebugUnlock : Prop :=
  ∀ (s : State) (tick : Nat) (v : Word) (key : BitVec 16),
    (s.Reaches Pg.SEC →
      (s.sec.job = none → ∃ t, exec .attest s = .next t ∧ t.get Pg.SEC SEC.BUSY = 1 ∧ State.RegsOnly (regsAt [(Pg.SEC, SEC.BUSY.off)])
        { s with sec := { s.sec with job := some (.attest s.sec.nonce), att := [] } } t) ∧
      (s.sec.job = none → ∃ t, exec .unlock s = .next t ∧ t.get Pg.SEC SEC.BUSY = 1 ∧ State.RegsOnly (regsAt [(Pg.SEC, SEC.BUSY.off)])
        { s with sec := { s.sec with job := some .unlock, fresh := false, token := [], checking := (s.sec.token,
            if s.sec.fresh then some ((List.range 8).map fun i => s.reg Pg.SEC (SEC.CHALLENGE.nth i).off) else none) } } t) ∧
      (∀ c, c ∈ [Instr.attest, .unlock] → s.sec.job ≠ none → ∃ t, exec c s = .next t ∧ t.get Pg.SEC CFG.ERR_CODE = ErrCode.STATE ∧
        t.get Pg.SEC CFG.CFG_ERR = 1 ∧ t.get Pg.SEC CMN.EV_CFG_REFUSED = 1 ∧
        s.RegsOnly (regsAt [(Pg.SEC, CMN.CFG_STATE), (Pg.SEC, CMN.ERR_DETAIL), (Pg.SEC, CMN.EVENTS)]) t) ∧
      (∃ t, exec .attDataRead s = .next t ∧ State.RegsOnly (fun _ => False)
        { s with host := { s.host with rdata := s.sec.att.headD 0 }, sec := { s.sec with att := s.sec.att.tail } } t) ∧
      (∃ t, exec .unlockChallenge s = .next t ∧ State.RegsOnly (regsAt ((List.range 8).map fun i => (Pg.SEC, (SEC.CHALLENGE.nth i).off)))
        { s with free := t.free, sec := { s.sec with fresh := true, token := [] } } t) ∧
      (∃ t, exec (.tokenWrite v) s = .next t ∧ State.RegsOnly (fun _ => False)
        { s with sec := { s.sec with token := (s.sec.token ++ [v]).take (Nat.max s.sec.token.length 4069) } } t) ∧
      (∃ t, exec (.fuseLock key) s = .next t ∧ State.RegsOnly (fun _ => False)
        { s with sec := { s.sec with blown := s.sec.blown || decide (key = 0x4C4B) } } t)) ∧
    (∀ nonce, s.sec.job = some (.attest nonce) → ∃ t, exec (.attDone tick) s = .next t ∧ t.get Pg.SEC SEC.BUSY = 0 ∧ t.get Pg.SEC SEC.EV_ATT_DONE = 1 ∧
      s.Counted Pg.SEC SEC.ATT_CNT t ∧ t.sec.att.length = 8970 ∧
      (t.sec.att.getD 0 0).toNat + 2 ^ 32 * (t.sec.att.getD 1 0).toNat = Config.uid.toNat ∧
      (t.sec.att.getD 30 0).toNat = s.mrm.rollback % 2 ^ 32 ∧ (∀ i, i < 8 → t.sec.att.getD (34 + i) 0 = nonce.getD i 0) ∧
      State.RegsOnly (regsAt [(Pg.SEC, SEC.BUSY.off), (Pg.SEC, CMN.EVENTS), (Pg.SEC, SEC.ATT_CNT.off)])
        { s.atTick tick with sec := { s.sec with job := none, att := t.sec.att } } t) ∧
    (∀ tok chal, s.sec.job = some .unlock → s.sec.checking = (tok, chal) → ∃ t, exec (.unlockVerifyDone tick) s = .next t ∧
      t.get Pg.SEC SEC.BUSY = 0 ∧
      (∀ ch scope, chal = some ch → tok.length = 4069 → tok.head? = some scope → (scope = 1 ∨ scope = 2) →
        Config.shake256 (wordsToBytes ((tok.drop 1).take 12)) 48 = Config.debugKeyHash →
        Config.slhDsaVerify (wordsToBytes ((tok.drop 1).take 12)) (leBytes 8 Config.uid.toNat ++ wordsToBytes ch ++ leBytes 4 scope.toNat)
          (wordsToBytes (tok.drop 13)) = true →
        t.get Pg.SEC SEC.UNLOCKED = 1 ∧ t.sec.scope = scope.toNat ∧ t.get Pg.SEC SEC.EV_UNLOCK_OK = 1) ∧
      (chal = none ∨ tok.length ≠ 4069 ∨ (tok.headD 0 ≠ 1 ∧ tok.headD 0 ≠ 2) → t.get Pg.SEC SEC.EV_UNLOCK_FAIL = 1 ∧
        t.get Pg.SEC SEC.UNLOCKED = s.get Pg.SEC SEC.UNLOCKED ∧ t.sec.scope = s.sec.scope ∧ s.Counted Pg.SEC SEC.UNLOCK_FAIL_CNT t) ∧
      State.RegsOnly (regsAt [(Pg.SEC, SEC.BUSY.off), (Pg.SEC, CMN.EVENTS), (Pg.SEC, SEC.UNLOCK_FAIL_CNT.off)])
        { s.atTick tick with sec := { s.sec with job := none, checking := ([], none), scope := t.sec.scope } } t)

/-- Boot flash (R433): FLASH_DATA reads the flash word at FLASH_ADDR, and writes of it fill the 64-word page buffer; FLASH_PROGRAM and
FLASH_ERASE take FLASH_ADDR and are refused with STATE during BOOT_STAGE 0x30; at the end of an operation, which sets FLASH_DONE, the
erased words of the page hold the buffer, or the 64 KiB sector is erased; the running image in DRAM is not affected. -/
def Obligations.FlashReadsProgramsErases : Prop :=
  ∀ (s : State) (tick : Nat) (v : Word),
    (s.Reaches Pg.SEC →
      (∀ c op, (c, op) ∈ [(Instr.flashProgram, 1), (.flashErase, 2)] →
        (s.get Pg.RST RST.BOOT_STAGE ≠ 0x30 → s.sec.flashOp = none → ∃ t, exec c s = .next t ∧ State.RegsOnly (fun _ => False)
          { s with sec := { s.sec with flashOp := some (op, s.get Pg.SEC SEC.FLASH_ADDR) } } t) ∧
        (s.get Pg.RST RST.BOOT_STAGE = 0x30 → ∃ t, exec c s = .next t ∧ t.get Pg.SEC CFG.ERR_CODE = ErrCode.STATE ∧
          t.get Pg.SEC CFG.CFG_ERR = 1 ∧ t.get Pg.SEC CMN.EV_CFG_REFUSED = 1 ∧
          s.RegsOnly (regsAt [(Pg.SEC, CMN.CFG_STATE), (Pg.SEC, CMN.ERR_DETAIL), (Pg.SEC, CMN.EVENTS)]) t)) ∧
      (∃ t, exec .flashDataRead s = .next t ∧ State.RegsOnly (fun _ => False) { s with host := { s.host with
        rdata := Tab.get (fun _ => 0xFFFFFFFF) s.sec.flash (s.get Pg.SEC SEC.FLASH_ADDR / 4) } } t) ∧
      (s.sec.buf.length < 64 → ∃ t, exec (.flashDataWrite v) s = .next t ∧ State.RegsOnly (fun _ => False)
        { s with sec := { s.sec with buf := s.sec.buf ++ [v] } } t)) ∧
    (∀ a, s.sec.flashOp = some (1, a) → ∃ t, exec (.flashDone tick) s = .next t ∧ t.get Pg.SEC SEC.EV_FLASH_DONE = 1 ∧
      t.sec.buf = [] ∧ t.sec.flashOp = none ∧
      (∀ i w, s.sec.buf[i]? = some w → Tab.get (fun _ => 0xFFFFFFFF) s.sec.flash (a / 256 * 64 + i) = 0xFFFFFFFF →
        Tab.get (fun _ => 0xFFFFFFFF) t.sec.flash (a / 256 * 64 + i) = w) ∧
      (∀ k, k < a / 256 * 64 ∨ a / 256 * 64 + s.sec.buf.length ≤ k →
        Tab.get (fun _ => 0xFFFFFFFF) t.sec.flash k = Tab.get (fun _ => 0xFFFFFFFF) s.sec.flash k) ∧
      State.RegsOnly (regsAt [(Pg.SEC, CMN.EVENTS)]) { s.atTick tick with sec := { s.sec with
        flash := t.sec.flash, buf := [], flashOp := none } } t) ∧
    (∀ a, s.sec.flashOp = some (2, a) → ∃ t, exec (.flashDone tick) s = .next t ∧ t.get Pg.SEC SEC.EV_FLASH_DONE = 1 ∧
      (∀ k, Tab.get (fun _ => 0xFFFFFFFF) t.sec.flash k =
        if k / 16384 = a / 65536 then 0xFFFFFFFF else Tab.get (fun _ => 0xFFFFFFFF) s.sec.flash k) ∧
      State.RegsOnly (regsAt [(Pg.SEC, CMN.EVENTS)]) { s.atTick tick with sec := { s.sec with
        flash := t.sec.flash, flashOp := none } } t)

/-- The key store's page and the MRAM window (R428, R429): WRITE binds a key with fresh counters and CLEAR unbinds it, with the codes of
R428 where it is refused; MRM.DATA reaches BOOT_PARAM and HOST words alone, the address moving on with INC; what an uncorrectable
word reads as stays open (notes/assumptions/105.md). -/
def Obligations.KeysAndMramWindow : Prop :=
  ∀ (s : State) (v : Word),
    (∀ slot addr key, s.Reaches Pg.KEY → s.get Pg.KEY KEY.SLOT = slot → s.get Pg.KEY KEY.ADDR = addr →
      key = (List.range 4).flatMap (fun i => leBytes 4 (s.key.keyIn.getD i 0).toNat) →
      (∀ c code, ((c = .keyWrite ∨ c = .keyClear) ∧ (s.fwState = FW.BOOTING ∨ s.fwState = FW.RUNNING) ∧ code = ErrCode.NOT_PERMITTED) ∨
          (c = .keyWrite ∧ s.fwState ≠ FW.BOOTING ∧ s.fwState ≠ FW.RUNNING ∧ slot < 2048 ∧ (addr = 0 ∨ addr = 0xFFF) ∧
            code = ErrCode.RANGE) ∨
          (∃ other, c = .keyWrite ∧ s.fwState ≠ FW.BOOTING ∧ s.fwState ≠ FW.RUNNING ∧ slot < 2048 ∧ addr ≠ 0 ∧ addr ≠ 0xFFF ∧
            s.slotOf addr = some other ∧ other ≠ slot ∧ code = ErrCode.INCONSISTENT) →
        ∃ t, exec c s = .next t ∧ t.get Pg.KEY CFG.CFG_ERR = 1 ∧ t.get Pg.KEY CFG.ERR_CODE = code ∧ t.get Pg.KEY KEY.EV_REFUSED = 1 ∧
          s.Counted Pg.KEY KEY.REFUSED_CNT t ∧
          s.RegsOnly (regsAt [(Pg.KEY, CMN.CFG_STATE), (Pg.KEY, CMN.ERR_DETAIL), (Pg.KEY, CMN.EVENTS), (Pg.KEY, KEY.REFUSED_CNT.off)]) t) ∧
      (s.fwState ≠ FW.BOOTING → s.fwState ≠ FW.RUNNING →
        (slot < 2048 → addr ≠ 0 → addr ≠ 0xFFF → s.slotOf addr = none ∨ s.slotOf addr = some slot → ∃ t, exec .keyWrite s = .next t ∧
          t.keySlot slot = { KeySlot.idle with addr := some addr, key := key, seq := (s.keySlot slot).seq } ∧
          (∀ n, n ≠ slot → t.keySlot n = s.keySlot n) ∧ t.mramKey (4 * slot) = key ∧
          (t.mramWord (MR.BINDING + slot)).toNat = 2 ^ 31 + addr ∧ s.Counted Pg.KEY KEY.WRITE_CNT t ∧
          State.RegsOnly (regsAt [(Pg.KEY, KEY.WRITE_CNT.off), (Pg.MRM, MRM.JOURNAL_HEAD.off), (Pg.MRM, MRM.LIVE.off),
            (Pg.MRM, MRM.JOURNAL_PASSES.off)]) { s with key := { s.key with slots := t.key.slots }, mrm := t.mrm } t) ∧
        (slot = 2048 → ∃ t, exec .keyWrite s = .next t ∧ t.key.grid = { KeySlot.idle with key := key } ∧ t.mramKey MR.GRID_KEY = key ∧
          s.Counted Pg.KEY KEY.WRITE_CNT t ∧
          State.RegsOnly (regsAt [(Pg.KEY, KEY.WRITE_CNT.off), (Pg.MRM, MRM.JOURNAL_HEAD.off), (Pg.MRM, MRM.LIVE.off),
            (Pg.MRM, MRM.JOURNAL_PASSES.off)]) { s with key := { s.key with grid := t.key.grid }, mrm := t.mrm } t) ∧
        (slot < 2048 → ∃ t, exec .keyClear s = .next t ∧ (t.keySlot slot).addr = none ∧ (t.keySlot slot).key = [] ∧
          (∀ n, n ≠ slot → t.keySlot n = s.keySlot n) ∧ t.mramWord (MR.BINDING + slot) = 0 ∧ s.Counted Pg.KEY KEY.CLEAR_CNT t ∧
          State.RegsOnly (regsAt [(Pg.KEY, KEY.CLEAR_CNT.off)]) { s with key := { s.key with slots := t.key.slots }, mrm := t.mrm } t))) ∧
    (∀ a, s.Reaches Pg.MRM → s.get Pg.MRM MRM.ADDR = a →
      (∀ ecc, ∃ t, exec (.mrmDataRead ecc) s = .next t ∧
        t.get Pg.MRM MRM.ADDR = (if s.flag Pg.MRM MRM.INC then (a + 1) % 2 ^ 18 else a) ∧
        (mramOpen a = false → t.host.rdata = 0 ∧ t.free = s.free) ∧
        (mramOpen a = true → ecc = .clean ∨ ecc = .corrected → t.host.rdata = s.mramWord a ∧ t.free = s.free) ∧
        (mramOpen a = true → ecc = .corrected → t.get Pg.MRM MRM.EV_CE = 1 ∧ s.Counted Pg.MRM MRM.CE_CNT t) ∧
        (mramOpen a = true → ecc = .uncorrectable → t.get Pg.MRM MRM.EV_UE = 1 ∧ s.Counted Pg.MRM MRM.UE_CNT t) ∧
        State.RegsOnly (regsAt [(Pg.MRM, MRM.ADDR.off), (Pg.MRM, CMN.EVENTS), (Pg.MRM, MRM.CE_CNT.off), (Pg.MRM, MRM.UE_CNT.off)])
          { s with free := t.free, host := { s.host with rdata := t.host.rdata } } t) ∧
      (mramOpen a = true → ∃ t, exec (.mrmDataWrite v) s = .next t ∧ t.mramWord a = v ∧
        (∀ n, n ≠ a → t.mramWord n = s.mramWord n) ∧ s.Counted Pg.MRM MRM.HOST_WR_CNT t ∧
        t.get Pg.MRM MRM.ADDR = (if s.flag Pg.MRM MRM.INC then (a + 1) % 2 ^ 18 else a) ∧
        State.RegsOnly (regsAt [(Pg.MRM, MRM.ADDR.off), (Pg.MRM, MRM.HOST_WR_CNT.off)]) { s with mrm := t.mrm } t) ∧
      (mramOpen a = false → ∃ t, exec (.mrmDataWrite v) s = .next t ∧ t.get Pg.MRM CFG.CFG_ERR = 1 ∧
        t.get Pg.MRM CFG.ERR_CODE = ErrCode.NOT_PERMITTED ∧ t.get Pg.MRM CMN.EV_CFG_REFUSED = 1 ∧
        s.RegsOnly (regsAt [(Pg.MRM, CMN.CFG_STATE), (Pg.MRM, CMN.ERR_DETAIL), (Pg.MRM, CMN.EVENTS)]) t))
end

