-- ==== Sys2Proof/Laws/Field.lean ====
section
/-! SUPPORT. Data fields: little-endian bytes and their number, the FCS, the lengths of AES and CCM results, and what the MIC
check of a field without payload compares. -/
namespace Sys2Proof.Machine

theorem leBytes_length (n v : Nat) : (leBytes n v).length = n := by
  induction n generalizing v with
  | zero => rfl
  | succ n ih => simp [leBytes, ih]

theorem leNat_leBytes (n v : Nat) : leNat (leBytes n v) = v % 256 ^ n := by
  induction n generalizing v with
  | zero => simp [leBytes, leNat, Nat.mod_one]
  | succ n ih =>
    simp only [leBytes, leNat, ih, BitVec.toNat_ofNat]
    have h : (2 : Nat) ^ 8 = 256 := rfl
    rw [h, Nat.pow_succ, Nat.mul_comm (256 ^ n) 256, Nat.mod_mul]

theorem crcStepLsb_lt (s b : Nat) (h : s < 2 ^ 32) : crcStepLsb (revBits 32 0x1EDC6F41) s b < 2 ^ 32 := by
  have hs : s >>> 1 < 2 ^ 32 := by rw [Nat.shiftRight_eq_div_pow]; omega
  unfold crcStepLsb
  split
  · exact hs
  · exact Nat.xor_lt_two_pow hs (by decide)

theorem crcFold_lt (l : List Nat) (s : Nat) (h : s < 2 ^ 32) :
    l.foldl (crcStepLsb (revBits 32 0x1EDC6F41)) s < 2 ^ 32 := by
  induction l generalizing s with
  | nil => exact h
  | cons b l ih => exact ih _ (crcStepLsb_lt s b h)

theorem crc32c_lt (bs : List Byte) : crc32c bs < 2 ^ 32 := by
  have h : ∀ (l : List Byte) (s : Nat), s < 2 ^ 32 → crcBytes 32 0x1EDC6F41 true s l < 2 ^ 32 := by
    intro l
    induction l with
    | nil => intro s hs; exact hs
    | cons b l ih => intro s hs; exact ih _ (crcFold_lt _ _ hs)
  exact Nat.xor_lt_two_pow (h bs _ (by decide)) (by decide)

theorem fcsOk_withFcs (body : List Byte) : fcsOk (withFcs body) = true := by
  have h := crc32c_lt body
  simp [fcsOk, withFcs, leBytes_length, leNat_leBytes] <;> omega

theorem xorBytes_length (a b : List Byte) : (xorBytes a b).length = Nat.min a.length b.length :=
  List.length_zipWith

theorem aesNextKey_length (rc : Byte) (k : List Byte) (h : k.length = 16) : (aesNextKey rc k).length = 16 := by
  simp [aesNextKey, xorBytes, h]

theorem aesShiftRows_length (s : List Byte) : (aesShiftRows s).length = 16 := rfl

theorem aesMixColumns_length (s : List Byte) : (aesMixColumns s).length = 16 := by
  simp [aesMixColumns, aesMixColumn, List.range_succ]

theorem aesRounds_length (n : Nat) (rc : Byte) (k s : List Byte) (hk : k.length = 16) (hs : s.length = 16) :
    (aesRounds n rc k s).length = 16 := by
  induction n generalizing rc k s with
  | zero => exact hs
  | succ n ih =>
    apply ih _ _ _ (aesNextKey_length rc k hk)
    rw [xorBytes_length, aesNextKey_length rc k hk]
    split
    · rfl
    · rw [aesMixColumns_length]; rfl

theorem aes128_length (key block : List Byte) (hk : key.length = 16) (hb : block.length = 16) : (aes128 key block).length = 16 :=
  aesRounds_length 10 1 key _ hk (by rw [xorBytes_length, hk, hb]; rfl)

theorem beBytes_length (n v : Nat) : (beBytes n v).length = n := by simp [beBytes, leBytes_length]

theorem blocks16_length (n : Nat) (bs : List Byte) : ∀ b, b ∈ blocks16 n bs → b.length = 16 := by
  induction n generalizing bs with
  | zero => intro b h; cases h
  | succ n ih =>
    intro b h
    unfold blocks16 at h
    split at h
    · cases h
    · rcases List.mem_cons.mp h with h | h
      · subst h; simp <;> omega
      · exact ih _ b h

theorem cbcMac_length (key : List Byte) (bs : List (List Byte)) (hk : key.length = 16) (hb : ∀ b, b ∈ bs → b.length = 16) :
    (cbcMac key bs).length = 16 := by
  have h : ∀ (l : List (List Byte)) (x : List Byte), x.length = 16 → (∀ b, b ∈ l → b.length = 16) →
      (l.foldl (fun x b => aes128 key (xorBytes x b)) x).length = 16 := by
    intro l
    induction l with
    | nil => intro x hx _; exact hx
    | cons b l ih =>
      intro x hx hl
      apply ih _ _ (fun c hc => hl c (List.mem_cons_of_mem _ hc))
      exact aes128_length _ _ hk (by rw [xorBytes_length, hx, hl b List.mem_cons_self]; rfl)
  exact h bs _ (by simp) hb

theorem ccmNonce_length (owner : Nat) (headEnd : Bool) (counter seq ftype : Nat) :
    (ccmNonce owner headEnd counter seq ftype).length = 13 := by
  simp [ccmNonce, leBytes_length]

theorem ccmTag_length (key nonce aad payload : List Byte) (hk : key.length = 16) (hn : nonce.length = 13) :
    (ccmTag key nonce aad payload).length = 8 := by
  have h1 : (ccmAuth key nonce aad payload).length = 16 := by
    apply cbcMac_length _ _ hk
    intro b hb
    rcases List.mem_append.mp hb with hb | hb
    · rcases List.mem_cons.mp hb with hb | hb
      · subst hb; simp [hn, beBytes_length]
      · split at hb
        · cases hb
        · exact blocks16_length _ _ b hb
    · exact blocks16_length _ _ b hb
  have h2 : (ccmStream key nonce 0).length = 16 := aes128_length _ _ hk (by simp [hn, beBytes_length])
  simp [ccmTag, xorBytes_length, h1, h2]

/-- Without payload the MIC check compares the field's MIC with the tag of its header and counter alone. -/
theorem micOk_of_empty (key : List Byte) (owner : Nat) (headEnd : Bool) (field : List Byte) (h : fieldPayload field = []) :
    micOk key owner headEnd field = decide (ccmTag key (ccmNonce owner headEnd (fieldCounter field) (fieldHeader field).seq
      (fieldHeader field).ftype) (ccmAad (fieldHeader field) (fieldCounter field)) [] = fieldMic field) := by
  simp [micOk, openPayload, h, ccmCrypt, xorBytes]

end Sys2Proof.Machine
end

