-- ==== Sys2Proof/Laws/Tab.lean ====
section
/-! SUPPORT. The laws of sparse tables: a read after a write to the same key gives the value written, a write leaves every
other key alone, and every operation keeps the canonical form. -/
namespace Sys2Proof.Machine

variable {α : Type}

/-! ## Reading -/

theorem Tab.find?_cons (j : Nat) (v : α) (t : Tab α) (k : Nat) :
    Tab.find? ((j, v) :: t) k = if j = k then some v else Tab.find? t k := rfl

theorem Tab.find?_put (t : Tab α) (k j : Nat) (v : α) :
    Tab.find? (Tab.put t k v) j = if k = j then some v else Tab.find? t j := by
  induction t with
  | nil => simp [Tab.put, Tab.find?]
  | cons e t ih =>
    obtain ⟨i, u⟩ := e
    simp only [Tab.put]
    split
    · next h => subst h; simp only [Tab.find?_cons]; split <;> rfl
    · split
      · simp only [Tab.find?_cons]
      · next h1 h2 =>
        simp only [Tab.find?_cons, ih]
        by_cases h3 : k = j
        · simp [h3, show i ≠ j from h3 ▸ h1]
        · simp [h3]

theorem Tab.find?_filter (t : Tab α) (p : Nat → Bool) (j : Nat) :
    Tab.find? (t.filter fun e => p e.1) j = if p j then Tab.find? t j else none := by
  induction t with
  | nil => simp [Tab.find?]
  | cons e t ih =>
    obtain ⟨i, u⟩ := e
    simp only [List.filter_cons, Tab.find?_cons]
    by_cases h : i = j
    · subst h; cases hp : p i <;> simp [hp, ih, Tab.find?_cons]
    · cases hp : p i <;> simp [ih, Tab.find?_cons, h]

theorem Tab.find?_erase (t : Tab α) (k j : Nat) :
    Tab.find? (Tab.erase t k) j = if k = j then none else Tab.find? t j := by
  have h := Tab.find?_filter t (fun i => decide (i ≠ k)) j
  simp only [Tab.erase]
  rw [h]
  by_cases hk : k = j
  · simp [hk]
  · simp [hk, Ne.symm hk]

/-- Reading any key after a write. -/
theorem Tab.get_set [DecidableEq α] (d : Nat → α) (t : Tab α) (k j : Nat) (v : α) :
    Tab.get d (Tab.set d t k v) j = if k = j then v else Tab.get d t j := by
  unfold Tab.set Tab.get
  by_cases hv : v = d k
  · rw [if_pos hv, Tab.find?_erase]
    by_cases h : k = j
    · subst h; simp [hv]
    · simp [h]
  · rw [if_neg hv, Tab.find?_put]
    by_cases h : k = j
    · simp [h]
    · simp [h]

@[simp] theorem Tab.get_set_same [DecidableEq α] (d : Nat → α) (t : Tab α) (k : Nat) (v : α) :
    Tab.get d (Tab.set d t k v) k = v := by simp [Tab.get_set]

theorem Tab.get_set_other [DecidableEq α] (d : Nat → α) (t : Tab α) {k j : Nat} (v : α) (h : k ≠ j) :
    Tab.get d (Tab.set d t k v) j = Tab.get d t j := by simp [Tab.get_set, h]

@[simp] theorem Tab.get_nil (d : Nat → α) (k : Nat) : Tab.get d [] k = d k := rfl

theorem Tab.get_drop (d : Nat → α) (p : Nat → Bool) (t : Tab α) (k : Nat) :
    Tab.get d (Tab.drop p t) k = if p k then d k else Tab.get d t k := by
  have h := Tab.find?_filter t (fun i => !p i) k
  unfold Tab.get Tab.drop
  rw [h]
  by_cases hp : p k = true
  · simp [hp]
  · simp [hp]

/-! ## The canonical form -/

theorem Tab.rising_weaken (t : Tab α) {a b : Nat} (h : a ≤ b) (ht : Tab.rising b t = true) : Tab.rising a t = true := by
  cases t with
  | nil => rfl
  | cons e t =>
    simp only [Tab.rising, Bool.and_eq_true, decide_eq_true_eq] at *
    exact ⟨by omega, ht.2⟩

theorem Tab.rising_filter (p : Nat × α → Bool) (t : Tab α) :
    ∀ b, Tab.rising b t = true → Tab.rising b (t.filter p) = true := by
  induction t with
  | nil => intro b _; rfl
  | cons e t ih =>
    intro b h
    simp only [Tab.rising, Bool.and_eq_true, decide_eq_true_eq] at h
    by_cases hp : p e = true
    · rw [List.filter_cons_of_pos hp]
      simp only [Tab.rising, Bool.and_eq_true, decide_eq_true_eq]
      exact ⟨h.1, ih _ h.2⟩
    · rw [List.filter_cons_of_neg hp]
      exact ih _ (Tab.rising_weaken t (by omega) h.2)

theorem Tab.rising_put (t : Tab α) (k : Nat) (v : α) :
    ∀ b, b ≤ k → Tab.rising b t = true → Tab.rising b (Tab.put t k v) = true := by
  induction t with
  | nil => intro b hb _; simp [Tab.put, Tab.rising, hb]
  | cons e t ih =>
    obtain ⟨j, u⟩ := e
    intro b hb h
    simp only [Tab.rising, Bool.and_eq_true, decide_eq_true_eq] at h
    simp only [Tab.put]
    split
    · next hj => subst hj; simp only [Tab.rising, Bool.and_eq_true, decide_eq_true_eq]; exact ⟨hb, h.2⟩
    · split
      · next hj hk =>
        simp only [Tab.rising, Bool.and_eq_true, decide_eq_true_eq]
        exact ⟨hb, by omega, h.2⟩
      · next hj hk =>
        simp only [Tab.rising, Bool.and_eq_true, decide_eq_true_eq]
        exact ⟨h.1, ih _ (by omega) h.2⟩

theorem Tab.mem_put (t : Tab α) (k : Nat) (v : α) (e : Nat × α) (h : e ∈ Tab.put t k v) : e = (k, v) ∨ e ∈ t := by
  induction t with
  | nil => simpa [Tab.put] using h
  | cons c t ih =>
    obtain ⟨j, u⟩ := c
    simp only [Tab.put] at h
    split at h
    · simp only [List.mem_cons] at h ⊢; tauto
    · split at h
      · simp only [List.mem_cons] at h ⊢; tauto
      · simp only [List.mem_cons] at h ⊢
        rcases h with h | h
        · tauto
        · rcases ih h with h | h <;> tauto

theorem Tab.wf_nil [DecidableEq α] (d : Nat → α) : Tab.wf d [] = true := rfl

theorem Tab.wf_filter [DecidableEq α] (d : Nat → α) (p : Nat × α → Bool) (t : Tab α) (h : Tab.wf d t = true) :
    Tab.wf d (t.filter p) = true := by
  simp only [Tab.wf, Bool.and_eq_true, List.all_eq_true] at *
  exact ⟨Tab.rising_filter p t 0 h.1, fun e he => h.2 e (List.mem_of_mem_filter he)⟩

theorem Tab.wf_drop [DecidableEq α] (d : Nat → α) (p : Nat → Bool) (t : Tab α) (h : Tab.wf d t = true) :
    Tab.wf d (Tab.drop p t) = true := Tab.wf_filter d _ t h

/-- A write keeps the canonical form. -/
theorem Tab.wf_set [DecidableEq α] (d : Nat → α) (t : Tab α) (k : Nat) (v : α) (h : Tab.wf d t = true) :
    Tab.wf d (Tab.set d t k v) = true := by
  unfold Tab.set
  split
  · exact Tab.wf_filter d _ t h
  · next hv =>
    simp only [Tab.wf, Bool.and_eq_true, List.all_eq_true] at *
    refine ⟨Tab.rising_put t k v 0 (Nat.zero_le _) h.1, fun e he => ?_⟩
    rcases Tab.mem_put t k v e he with rfl | he
    · simpa using hv
    · exact h.2 e he

/-- A list of writes keeps the canonical form. -/
theorem Tab.wf_foldl_set [DecidableEq α] {β : Type} (d : Nat → α) (l : List β) (key : β → Nat) (val : β → α) :
    ∀ t : Tab α, Tab.wf d t = true → Tab.wf d (l.foldl (fun m e => Tab.set d m (key e) (val e)) t) = true := by
  induction l with
  | nil => intro t h; exact h
  | cons e l ih => intro t h; exact ih _ (Tab.wf_set d t _ _ h)

end Sys2Proof.Machine
end

