-- ==== Sys2Proof/Laws/Reg.lean ====
section
/-! SUPPORT. The laws of registers and fields: what a read gives after a write to the same or another register or field, and
what the shared operations on registers leave alone. -/
namespace Sys2Proof.Machine

/-! ## Fields of a word -/

theorem Fld.of_lt (f : Fld) (w : Word) : f.of w < 2 ^ f.w := Nat.mod_lt _ (Nat.two_pow_pos _)

theorem Fld.ins_toNat (f : Fld) (w : Word) (v : Nat) (hf : f.lsb + f.w ≤ 32) :
    (f.ins w v).toNat = w.toNat / 2 ^ (f.lsb + f.w) * 2 ^ (f.lsb + f.w) + v % 2 ^ f.w * 2 ^ f.lsb + w.toNat % 2 ^ f.lsb := by
  have hw : w.toNat < 2 ^ 32 := w.isLt
  have hp : 0 < 2 ^ (f.lsb + f.w) := Nat.two_pow_pos _
  have hl : 0 < 2 ^ f.lsb := Nat.two_pow_pos _
  have hv : v % 2 ^ f.w + 1 ≤ 2 ^ f.w := Nat.mod_lt _ (Nat.two_pow_pos _)
  have hr : w.toNat % 2 ^ f.lsb < 2 ^ f.lsb := Nat.mod_lt _ hl
  have h1 : v % 2 ^ f.w * 2 ^ f.lsb + 2 ^ f.lsb ≤ 2 ^ (f.lsb + f.w) := by
    rw [Nat.pow_add, Nat.mul_comm (2 ^ f.lsb)]
    calc v % 2 ^ f.w * 2 ^ f.lsb + 2 ^ f.lsb = (v % 2 ^ f.w + 1) * 2 ^ f.lsb := by ring
      _ ≤ _ := Nat.mul_le_mul_right _ hv
  have h2 : w.toNat / 2 ^ (f.lsb + f.w) * 2 ^ (f.lsb + f.w) + 2 ^ (f.lsb + f.w) ≤ 2 ^ 32 := by
    have h3 : w.toNat / 2 ^ (f.lsb + f.w) < 2 ^ (32 - (f.lsb + f.w)) := by
      rw [Nat.div_lt_iff_lt_mul hp, ← Nat.pow_add]
      simpa [show 32 - (f.lsb + f.w) + (f.lsb + f.w) = 32 by omega] using hw
    calc w.toNat / 2 ^ (f.lsb + f.w) * 2 ^ (f.lsb + f.w) + 2 ^ (f.lsb + f.w)
        = (w.toNat / 2 ^ (f.lsb + f.w) + 1) * 2 ^ (f.lsb + f.w) := by ring
      _ ≤ 2 ^ (32 - (f.lsb + f.w)) * 2 ^ (f.lsb + f.w) := Nat.mul_le_mul_right _ h3
      _ = 2 ^ 32 := by rw [← Nat.pow_add]; congr 1; omega
  unfold Fld.ins
  rw [BitVec.toNat_ofNat, Nat.mod_eq_of_lt]
  omega

/-- A field reads as what was inserted, cut to its width. -/
theorem Fld.of_ins (f : Fld) (w : Word) (v : Nat) (hf : f.lsb + f.w ≤ 32) : f.of (f.ins w v) = v % 2 ^ f.w := by
  unfold Fld.of
  rw [Fld.ins_toNat f w v hf]
  have hl : 0 < 2 ^ f.lsb := Nat.two_pow_pos _
  have h : w.toNat / 2 ^ (f.lsb + f.w) * 2 ^ (f.lsb + f.w) + v % 2 ^ f.w * 2 ^ f.lsb + w.toNat % 2 ^ f.lsb
      = w.toNat % 2 ^ f.lsb + 2 ^ f.lsb * (v % 2 ^ f.w + 2 ^ f.w * (w.toNat / 2 ^ (f.lsb + f.w))) := by
    rw [Nat.pow_add]; ring
  rw [h, Nat.add_mul_div_left _ _ hl, Nat.div_eq_of_lt (Nat.mod_lt _ hl), Nat.zero_add, Nat.add_mul_mod_self_left,
    Nat.mod_mod]

/-- The bits of a word between two positions. -/
def bitsBetween (n lo w : Nat) : Nat := n / 2 ^ lo % 2 ^ w

/-- A field below the one inserted is unchanged. -/
theorem Fld.of_ins_below (f g : Fld) (w : Word) (v : Nat) (hf : f.lsb + f.w ≤ 32) (h : g.lsb + g.w ≤ f.lsb) :
    g.of (f.ins w v) = g.of w := by
  unfold Fld.of
  rw [Fld.ins_toNat f w v hf]
  have hd : w.toNat / 2 ^ (f.lsb + f.w) * 2 ^ (f.lsb + f.w) + v % 2 ^ f.w * 2 ^ f.lsb + w.toNat % 2 ^ f.lsb
      = w.toNat % 2 ^ f.lsb + 2 ^ f.lsb * (v % 2 ^ f.w + 2 ^ f.w * (w.toNat / 2 ^ (f.lsb + f.w))) := by
    rw [Nat.pow_add]; ring
  have key : ∀ n : Nat, n / 2 ^ g.lsb % 2 ^ g.w = (n % 2 ^ f.lsb) / 2 ^ g.lsb % 2 ^ g.w := by
    intro n
    have : f.lsb = g.lsb + (f.lsb - g.lsb) := by omega
    rw [this, Nat.pow_add, Nat.mod_mul_right_div_self]
    rw [Nat.mod_mod_of_dvd _ (Nat.pow_dvd_pow 2 (by omega))]
  rw [key, hd, Nat.add_mul_mod_self_left, Nat.mod_mod, ← key]

/-- A field above the one inserted is unchanged. -/
theorem Fld.of_ins_above (f g : Fld) (w : Word) (v : Nat) (hf : f.lsb + f.w ≤ 32) (h : f.lsb + f.w ≤ g.lsb) :
    g.of (f.ins w v) = g.of w := by
  unfold Fld.of
  rw [Fld.ins_toNat f w v hf]
  have hl : 0 < 2 ^ f.lsb := Nat.two_pow_pos _
  have hp : 0 < 2 ^ (f.lsb + f.w) := Nat.two_pow_pos _
  have hr : w.toNat % 2 ^ f.lsb < 2 ^ f.lsb := Nat.mod_lt _ hl
  have hv : v % 2 ^ f.w + 1 ≤ 2 ^ f.w := Nat.mod_lt _ (Nat.two_pow_pos _)
  have h1 : v % 2 ^ f.w * 2 ^ f.lsb + w.toNat % 2 ^ f.lsb < 2 ^ (f.lsb + f.w) := by
    rw [Nat.pow_add, Nat.mul_comm (2 ^ f.lsb)]
    calc v % 2 ^ f.w * 2 ^ f.lsb + w.toNat % 2 ^ f.lsb < (v % 2 ^ f.w + 1) * 2 ^ f.lsb := by
          rw [Nat.add_mul, Nat.one_mul]; omega
      _ ≤ _ := Nat.mul_le_mul_right _ hv
  have hd : (w.toNat / 2 ^ (f.lsb + f.w) * 2 ^ (f.lsb + f.w) + v % 2 ^ f.w * 2 ^ f.lsb + w.toNat % 2 ^ f.lsb) / 2 ^ (f.lsb + f.w)
      = w.toNat / 2 ^ (f.lsb + f.w) := by
    rw [Nat.add_assoc, Nat.mul_comm, Nat.mul_add_div hp, Nat.div_eq_of_lt h1, Nat.add_zero]
  have key : ∀ n : Nat, n / 2 ^ g.lsb = n / 2 ^ (f.lsb + f.w) / 2 ^ (g.lsb - (f.lsb + f.w)) := by
    intro n
    rw [Nat.div_div_eq_div_mul, ← Nat.pow_add]; congr 2; omega
  rw [key, hd, ← key]

/-- Two fields of the same register that share no bit. -/
def Fld.apart (f g : Fld) : Prop := g.lsb + g.w ≤ f.lsb ∨ f.lsb + f.w ≤ g.lsb

theorem Fld.of_ins_apart (f g : Fld) (w : Word) (v : Nat) (hf : f.lsb + f.w ≤ 32) (h : Fld.apart f g) :
    g.of (f.ins w v) = g.of w := by
  rcases h with h | h
  · exact Fld.of_ins_below f g w v hf h
  · exact Fld.of_ins_above f g w v hf h

/-- A one-bit field after OR with a bit mask. -/
theorem Fld.of_or_bit (f : Fld) (w : Word) (i : Nat) (hf : f.w = 1) (hi : i < 32) :
    f.of (w ||| BitVec.ofNat 32 (2 ^ i)) = if f.lsb = i then 1 else f.of w := by
  have hb : ∀ n : Nat, n / 2 ^ f.lsb % 2 ^ f.w = (n.testBit f.lsb).toNat := by
    intro n; rw [hf, Nat.testBit_eq_decide_div_mod_eq]
    rcases Nat.mod_two_eq_zero_or_one (n / 2 ^ f.lsb) with h | h <;> simp [h]
  unfold Fld.of
  rw [hb, hb]
  have : (w ||| BitVec.ofNat 32 (2 ^ i)).toNat = w.toNat ||| 2 ^ i := by
    rw [BitVec.toNat_or, BitVec.toNat_ofNat, Nat.mod_eq_of_lt (Nat.pow_lt_pow_right (by norm_num) hi)]
  rw [this, Nat.testBit_or, Nat.testBit_two_pow]
  by_cases h : f.lsb = i
  · subst h; simp
  · simp [h, Ne.symm h]

/-! ## Registers -/

theorem State.reg_setReg (s : State) (pg off pg' off' : Nat) (v : Word) :
    (s.setReg pg off v).reg pg' off' = if addrOf pg off = addrOf pg' off' then v else s.reg pg' off' := by
  unfold State.reg State.setReg; exact Tab.get_set _ _ _ _ _

@[simp] theorem State.reg_setReg_same (s : State) (pg off : Nat) (v : Word) : (s.setReg pg off v).reg pg off = v := by
  simp [State.reg_setReg]

theorem State.reg_setReg_other (s : State) {pg off pg' off' : Nat} (v : Word) (h : addrOf pg off ≠ addrOf pg' off') :
    (s.setReg pg off v).reg pg' off' = s.reg pg' off' := by simp [State.reg_setReg, h]

theorem State.reg_put (s : State) (pg pg' off' : Nat) (f : Fld) (v : Nat) :
    (s.put pg f v).reg pg' off' = if addrOf pg f.off = addrOf pg' off' then f.ins (s.reg pg f.off) v else s.reg pg' off' :=
  State.reg_setReg _ _ _ _ _ _

/-- A field reads as what was put there, cut to its width. -/
theorem State.get_put_same (s : State) (pg : Nat) (f : Fld) (v : Nat) (hf : f.lsb + f.w ≤ 32) :
    (s.put pg f v).get pg f = v % 2 ^ f.w := by
  simp [State.get, State.put, Fld.of_ins f _ _ hf]

/-- A field of another register is unchanged. -/
theorem State.get_put_other (s : State) {pg pg' : Nat} {f g : Fld} (v : Nat) (h : addrOf pg f.off ≠ addrOf pg' g.off) :
    (s.put pg f v).get pg' g = s.get pg' g := by
  simp [State.get, State.put, State.reg_setReg_other _ _ h]

/-- Another field of the same register is unchanged. -/
theorem State.get_put_apart (s : State) {pg : Nat} {f g : Fld} (v : Nat) (ho : g.off = f.off) (hf : f.lsb + f.w ≤ 32)
    (h : Fld.apart f g) : (s.put pg f v).get pg g = s.get pg g := by
  simp [State.get, State.put, ho, Fld.of_ins_apart f g _ _ hf h]

/-- Reading any field after a put. -/
theorem State.get_put (s : State) (pg pg' : Nat) (f g : Fld) (v : Nat) (hf : f.lsb + f.w ≤ 32)
    (hfg : addrOf pg f.off ≠ addrOf pg' g.off ∨ (pg = pg' ∧ g.off = f.off ∧ Fld.apart f g)) :
    (s.put pg f v).get pg' g = s.get pg' g := by
  rcases hfg with h | ⟨rfl, ho, h⟩
  · exact State.get_put_other s v h
  · exact State.get_put_apart s v ho hf h

theorem State.get_setReg_other (s : State) {pg off pg' : Nat} {g : Fld} (v : Word) (h : addrOf pg off ≠ addrOf pg' g.off) :
    (s.setReg pg off v).get pg' g = s.get pg' g := by simp [State.get, State.reg_setReg_other _ _ h]

theorem State.event_eq (s : State) (pg : Nat) (f : Fld) :
    s.event pg f = s.setReg pg CMN.EVENTS (s.reg pg CMN.EVENTS ||| BitVec.ofNat 32 (2 ^ f.lsb)) := rfl

/-- An event bit reads set after the event. -/
theorem State.get_event_same (s : State) (pg : Nat) (f : Fld) (ho : f.off = CMN.EVENTS) (hw : f.w = 1) (hl : f.lsb < 32) :
    (s.event pg f).get pg f = 1 := by
  rw [State.event_eq, State.get, ho, State.reg_setReg_same, Fld.of_or_bit f _ f.lsb hw hl, if_pos rfl]

/-- Events change no field of another register. -/
theorem State.get_eventBit_other (s : State) {pg pg' : Nat} {f g : Fld} (i : Nat) (h : addrOf pg CMN.EVENTS ≠ addrOf pg' g.off) :
    (s.eventBit pg f i).get pg' g = s.get pg' g := State.get_setReg_other _ _ h

theorem State.get_event_other (s : State) {pg pg' : Nat} {f g : Fld} (h : addrOf pg CMN.EVENTS ≠ addrOf pg' g.off) :
    (s.event pg f).get pg' g = s.get pg' g := State.get_eventBit_other s 0 h

/-- An event sets no other event bit of its page. -/
theorem State.get_event_apart (s : State) {pg : Nat} {f g : Fld} (ho : g.off = CMN.EVENTS) (hw : g.w = 1) (hl : f.lsb < 32)
    (h : g.lsb ≠ f.lsb) : (s.event pg f).get pg g = s.get pg g := by
  rw [State.event_eq, State.get, State.get, ho, State.reg_setReg_same, Fld.of_or_bit g _ f.lsb hw hl, if_neg h]

theorem State.reg_event (s : State) (pg pg' off' : Nat) (f : Fld) :
    (s.event pg f).reg pg' off' =
      if addrOf pg CMN.EVENTS = addrOf pg' off' then s.reg pg CMN.EVENTS ||| BitVec.ofNat 32 (2 ^ f.lsb) else s.reg pg' off' := by
  unfold State.event State.eventBit; rw [State.reg_setReg]; simp

/-- A counter that is not frozen has advanced. -/
theorem State.get_countBy_same (s : State) (pg : Nat) (f : Fld) (n : Nat) (hf : f.lsb + f.w ≤ 32)
    (hz : s.flag pg CTRL.FREEZE_CNT = false) : (s.countBy pg f n).get pg f = (s.get pg f + n) % 2 ^ f.w := by
  simp [State.countBy, hz, State.get_put_same _ _ _ _ hf]

theorem State.get_count_same (s : State) (pg : Nat) (f : Fld) (hf : f.lsb + f.w ≤ 32)
    (hz : s.flag pg CTRL.FREEZE_CNT = false) : (s.count pg f).get pg f = (s.get pg f + 1) % 2 ^ f.w :=
  State.get_countBy_same s pg f 1 hf hz

theorem State.get_countBy_other (s : State) {pg pg' : Nat} {f g : Fld} (n : Nat) (h : addrOf pg f.off ≠ addrOf pg' g.off) :
    (s.countBy pg f n).get pg' g = s.get pg' g := by
  unfold State.countBy; split
  · rfl
  · exact State.get_put_other s _ h

theorem State.get_count_other (s : State) {pg pg' : Nat} {f g : Fld} (h : addrOf pg f.off ≠ addrOf pg' g.off) :
    (s.count pg f).get pg' g = s.get pg' g := State.get_countBy_other s 1 h

theorem State.reg_countBy_other (s : State) {pg pg' off' : Nat} {f : Fld} (n : Nat) (h : addrOf pg f.off ≠ addrOf pg' off') :
    (s.countBy pg f n).reg pg' off' = s.reg pg' off' := by
  unfold State.countBy; split
  · rfl
  · exact State.reg_setReg_other s _ h

/-! ## The canonical form of the register files and of DRAM -/

theorem State.setReg_keeps_wf (s : State) (pg off : Nat) (v : Word) (h : Tab.wf resetWord s.regs = true) :
    Tab.wf resetWord (s.setReg pg off v).regs = true := Tab.wf_set _ _ _ _ h

theorem State.put_keeps_wf (s : State) (pg : Nat) (f : Fld) (v : Nat) (h : Tab.wf resetWord s.regs = true) :
    Tab.wf resetWord (s.put pg f v).regs = true := Tab.wf_set _ _ _ _ h

theorem State.applyShadow_keeps_wf (s : State) (pg : Nat) (p : Nat → Bool) (h : Tab.wf resetWord s.regs = true) :
    Tab.wf resetWord (s.applyShadow pg p).regs = true :=
  Tab.wf_foldl_set resetWord _ Prod.fst Prod.snd _ h

/-- Every store to DRAM keeps the canonical form of the memory. -/
theorem State.dramStore_keeps_wf (s : State) (a : Nat) (bs : List Byte) (h : Tab.wf (fun _ => (0 : Byte)) s.dram = true) :
    Tab.wf (fun _ => (0 : Byte)) (s.dramStore a bs).dram = true :=
  Tab.wf_foldl_set (fun _ => (0 : Byte)) bs.zipIdx (fun e => a + e.2) Prod.fst s.dram h

theorem reset_dram_wf : Tab.wf (fun _ => (0 : Byte)) State.reset.dram = true := rfl

theorem reset_regs_wf : Tab.wf resetWord State.reset.regs = true := rfl

/-! ## DRAM: read after write -/

theorem dramFold_get (bs : List Byte) (a i n : Nat) (t : Tab Byte) :
    Tab.get (fun _ => (0 : Byte)) ((bs.zipIdx n).foldl (fun m e => Tab.set (fun _ => (0 : Byte)) m (a + e.2) e.1) t) i =
      if a + n ≤ i ∧ i < a + n + bs.length then bs.getD (i - a - n) 0 else Tab.get (fun _ => (0 : Byte)) t i := by
  induction bs generalizing n t with
  | nil => rw [if_neg (by simp)]; rfl
  | cons b bs ih =>
    simp only [List.zipIdx_cons, List.foldl_cons, List.length_cons]
    rw [ih, Tab.get_set]
    by_cases h1 : a + (n + 1) ≤ i ∧ i < a + (n + 1) + bs.length
    · rw [if_pos h1, if_pos (by omega)]
      have : i - a - n = i - a - (n + 1) + 1 := by omega
      rw [this, List.getD_cons_succ]
    · rw [if_neg h1]
      by_cases h2 : a + n = i
      · rw [if_pos h2, if_pos (by omega), show i - a - n = 0 by omega, List.getD_cons_zero]
      · rw [if_neg h2, if_neg (by omega)]

/-- A byte of DRAM after a store: the stored byte inside the stored span, what it held before outside it. -/
theorem State.dramByte_dramStore (s : State) (a : Nat) (bs : List Byte) (i : Nat) :
    (s.dramStore a bs).dramByte i = if a ≤ i ∧ i < a + bs.length then bs.getD (i - a) 0 else s.dramByte i := by
  have h := dramFold_get bs a i 0 s.dram
  simpa [State.dramByte, State.dramStore] using h

theorem State.dramByte_dramStore_outside (s : State) (a : Nat) (bs : List Byte) (i : Nat) (h : i < a ∨ a + bs.length ≤ i) :
    (s.dramStore a bs).dramByte i = s.dramByte i := by
  rw [State.dramByte_dramStore, if_neg (by omega)]

end Sys2Proof.Machine
end

