-- ==== Sys2Proof/Laws/Settle.lean ====
section
/-! SUPPORT. What every command ends with (`State.settle`): it follows the fault summary, the interrupt sources and the
timebase, and changes nothing but GLB.EVENTS, HIF.VEC_PEND and its own records. -/
namespace Sys2Proof.Machine

/-! ## What the summaries read -/

theorem orFold_acc {β : Type} (g : β → Nat) (l : List β) (n : Nat) :
    l.foldl (fun acc e => acc ||| g e) n = n ||| l.foldl (fun acc e => acc ||| g e) 0 := by
  induction l generalizing n with
  | nil => simp
  | cons e l ih => simp only [List.foldl_cons]; rw [ih (n ||| g e), ih (0 ||| g e)]; simp [Nat.or_assoc]

theorem orFold_cons {β : Type} (g : β → Nat) (e : β) (l : List β) :
    (e :: l).foldl (fun acc e => acc ||| g e) 0 = g e ||| l.foldl (fun acc e => acc ||| g e) 0 := by
  rw [List.foldl_cons, orFold_acc]; simp

theorem orFold_put {α : Type} (g : Nat × α → Nat) (t : Tab α) (k : Nat) (v : α) (h : ∀ u, g (k, u) = 0) :
    (Tab.put t k v).foldl (fun acc e => acc ||| g e) 0 = t.foldl (fun acc e => acc ||| g e) 0 := by
  induction t with
  | nil => simp [Tab.put, h]
  | cons e t ih =>
    obtain ⟨j, u⟩ := e
    simp only [Tab.put]
    split
    · next hj => subst hj; rw [orFold_cons, orFold_cons, h, h]
    · split
      · rw [orFold_cons, h]; simp
      · rw [orFold_cons, orFold_cons, ih]

theorem orFold_erase {α : Type} (g : Nat × α → Nat) (t : Tab α) (k : Nat) (h : ∀ u, g (k, u) = 0) :
    (Tab.erase t k).foldl (fun acc e => acc ||| g e) 0 = t.foldl (fun acc e => acc ||| g e) 0 := by
  induction t with
  | nil => rfl
  | cons e t ih =>
    obtain ⟨j, u⟩ := e
    unfold Tab.erase at *
    rw [List.filter_cons]
    by_cases hj : j = k
    · subst hj; simp only [ne_eq, not_true_eq_false, decide_false]; rw [orFold_cons, h]; simpa using ih
    · simp only [ne_eq, hj, not_false_eq_true, decide_true, if_true]; rw [orFold_cons, orFold_cons, ih]

/-- An OR over the listed registers does not see a write to a register that contributes nothing. -/
theorem orFold_set {α : Type} [DecidableEq α] (d : Nat → α) (g : Nat × α → Nat) (t : Tab α) (k : Nat) (v : α)
    (h : ∀ u, g (k, u) = 0) :
    (Tab.set d t k v).foldl (fun acc e => acc ||| g e) 0 = t.foldl (fun acc e => acc ||| g e) 0 := by
  unfold Tab.set; split
  · exact orFold_erase g t k h
  · exact orFold_put g t k v h

/-- The contribution of one listed register to EVENT_SUMMARY. -/
def eventBitOf (s : State) (e : Nat × Word) : Nat :=
  if e.1 % 4096 = CMN.EVENT_EN ∧ s.lineOf (e.1 / 4096) = true then 2 ^ groupOf (e.1 / 4096) else 0

theorem State.eventSummary_eq (s : State) : s.eventSummary = s.regs.foldl (fun acc e => acc ||| eventBitOf s e) 0 := by
  unfold State.eventSummary
  congr 1
  funext acc e
  unfold eventBitOf
  split <;> simp

/-- FAULT_SUMMARY without the registers of the pages. -/
def State.faultBits (s : State) : Nat :=
  let lvl := s.get Pg.OAS OAS.LEVEL
  let why := s.get Pg.OAS OAS.REASON
  let thermal := if 0 < lvl ∧ (why = 1 ∨ why = 2 ∨ why = 5 ∨ why = 7) then 64 else 0
  let fw := s.get Pg.LNK LNK.FW_STATE
  let lnk := if fw = 0 ∨ fw = 3 then 128 else 0
  let tb := s.get Pg.MTB MTB.STATE
  let timebase := if tb = 2 ∨ tb = 3 then 0 else 256
  let clock := if s.clk.sclkFailed then 512 else 0
  thermal ||| lnk ||| timebase ||| clock

theorem State.faultSummary_eq (s : State) :
    s.faultSummary = s.regs.foldl (fun acc e => acc ||| faultOfEntry e.1 e.2) 0 ||| s.faultBits := by
  unfold State.faultSummary State.faultBits
  simp only [Nat.or_assoc]

/-- The active interrupt sources depend on the registers, on Wadi and on SAMPLE_TIME alone. -/
theorem State.activeSources_congr {s t : State} (hr : t.regs = s.regs) (hw : t.wad = s.wad) (ht : t.time = s.time) :
    t.activeSources = s.activeSources := by
  unfold State.activeSources State.eventSummary State.lineOf State.pageOn State.domOn State.ringActive State.ring
    State.get State.reg
  rw [hr, hw, ht]

/-- FAULT_SUMMARY reads the registers and the clock's state alone. -/
theorem State.faultSummary_congr {s t : State} (hr : t.regs = s.regs) (hc : t.clk = s.clk) :
    t.faultSummary = s.faultSummary := by
  unfold State.faultSummary State.get State.reg; rw [hr, hc]

/-- A write to a register that no summary reads. -/
theorem State.faultSummary_setReg (s : State) (pg off : Nat) (v : Word) (h0 : ∀ u, faultOfEntry (addrOf pg off) u = 0)
    (h1 : addrOf pg off ≠ addrOf Pg.OAS OAS.LEVEL.off) (h2 : addrOf pg off ≠ addrOf Pg.OAS OAS.REASON.off)
    (h3 : addrOf pg off ≠ addrOf Pg.LNK LNK.FW_STATE.off) (h4 : addrOf pg off ≠ addrOf Pg.MTB MTB.STATE.off) :
    (s.setReg pg off v).faultSummary = s.faultSummary := by
  rw [State.faultSummary_eq, State.faultSummary_eq]
  congr 1
  · exact orFold_set resetWord (fun e => faultOfEntry e.1 e.2) s.regs _ v h0
  · unfold State.faultBits
    rw [State.get_setReg_other _ v h1, State.get_setReg_other _ v h2, State.get_setReg_other _ v h3,
      State.get_setReg_other _ v h4]
    rfl

theorem State.faultSummary_setEvents (s : State) (v : Word) :
    (s.setReg Pg.GLB CMN.EVENTS v).faultSummary = s.faultSummary :=
  State.faultSummary_setReg s _ _ v (fun _ => rfl) (by decide) (by decide) (by decide) (by decide)

theorem State.faultSummary_setPend (s : State) (v : Word) :
    (s.setReg Pg.HIF HIF.VEC_PEND.off v).faultSummary = s.faultSummary :=
  State.faultSummary_setReg s _ _ v (fun _ => rfl) (by decide) (by decide) (by decide) (by decide)

theorem State.domOn_setPend (s : State) (v : Word) (d : Nat) :
    (s.setReg Pg.HIF HIF.VEC_PEND.off v).domOn d = s.domOn d := by
  unfold State.domOn
  rw [State.get_setReg_other]
  show addrOf 1 0x100 ≠ addrOf 6 _
  unfold addrOf; omega

theorem State.pageOn_setPend (s : State) (v : Word) (pg : Nat) :
    (s.setReg Pg.HIF HIF.VEC_PEND.off v).pageOn pg = s.pageOn pg := by
  unfold State.pageOn
  by_cases h : pg = 1
  · subst h; rfl
  · split
    · rfl
    · rw [State.domOn_setPend, State.get_setReg_other]
      show addrOf 1 0x100 ≠ addrOf pg 0x100
      unfold addrOf; omega

theorem State.lineOf_setPend (s : State) (v : Word) (pg : Nat) :
    (s.setReg Pg.HIF HIF.VEC_PEND.off v).lineOf pg = s.lineOf pg := by
  unfold State.lineOf
  rw [State.pageOn_setPend, State.reg_setReg_other, State.reg_setReg_other]
  · show addrOf 1 0x100 ≠ addrOf pg 0x204
    unfold addrOf; omega
  · show addrOf 1 0x100 ≠ addrOf pg 0x200
    unfold addrOf; omega

theorem State.eventSummary_setPend (s : State) (v : Word) :
    (s.setReg Pg.HIF HIF.VEC_PEND.off v).eventSummary = s.eventSummary := by
  rw [State.eventSummary_eq, State.eventSummary_eq]
  have hg : eventBitOf (s.setReg Pg.HIF HIF.VEC_PEND.off v) = eventBitOf s := by
    funext e; unfold eventBitOf; rw [State.lineOf_setPend]
  rw [hg]
  exact orFold_set resetWord (eventBitOf s) s.regs _ v fun u => if_neg fun h => absurd (show (4352 : Nat) % 4096 = 0x204 from h.1) (by decide)

theorem State.ringActive_setPend (s : State) (v : Word) (n : Nat) :
    (s.setReg Pg.HIF HIF.VEC_PEND.off v).ringActive n = s.ringActive n := by
  unfold State.ringActive
  have h (f : Fld) : (s.setReg Pg.HIF HIF.VEC_PEND.off v).get Pg.WAD (f.nth n) = s.get Pg.WAD (f.nth n) := by
    apply State.get_setReg_other
    show addrOf 1 0x100 ≠ addrOf 0xA8 _
    unfold addrOf; omega
  rw [h, h]; rfl

theorem State.activeSources_setPend (s : State) (v : Word) :
    (s.setReg Pg.HIF HIF.VEC_PEND.off v).activeSources = s.activeSources := by
  unfold State.activeSources
  rw [State.eventSummary_setPend]
  simp only [State.ringActive_setPend]
  rfl

/-! ## What follows a command changes little -/

/-- `t` differs from `s` at most in GLB.EVENTS, VEC_PEND, the MSI messages sent and the records of what has been followed. -/
structure State.SettledTo (s t : State) : Prop where
  reg : ∀ pg off, follows (addrOf pg off) = false → t.reg pg off = s.reg pg off
  rest : t = s.refollowed t.regs t.host.msiSent t.host.active t.host.faults t.lnk.outTotal t.lnk.outSince

theorem State.SettledTo.refl (s : State) : s.SettledTo s := ⟨fun _ _ _ => rfl, rfl⟩

theorem State.SettledTo.trans {s t u : State} (h : s.SettledTo t) (k : t.SettledTo u) : s.SettledTo u := by
  refine ⟨fun pg off hf => (k.reg pg off hf).trans (h.reg pg off hf), ?_⟩
  have h1 := h.rest
  have h2 := k.rest
  rw [h2, h1]; rfl

theorem State.settledTo_setReg (s : State) (pg off : Nat) (v : Word) (h : follows (addrOf pg off) = true) :
    s.SettledTo (s.setReg pg off v) := by
  refine ⟨fun pg' off' hf => State.reg_setReg_other s v ?_, rfl⟩
  intro he; rw [← he, h] at hf; cases hf

theorem State.settledTo_onlyIf (s : State) (c : Bool) (f : State → State) (h : s.SettledTo (f s)) :
    s.SettledTo (onlyIf c f s) := by
  unfold onlyIf; split
  · exact h
  · exact State.SettledTo.refl s

theorem State.settledTo_faults (s : State) (n : Nat) : s.SettledTo { s with host := { s.host with faults := n } } :=
  ⟨fun _ _ _ => rfl, rfl⟩

theorem State.followFaults_settled (s : State) : s.SettledTo s.followFaults := by
  unfold State.followFaults
  dsimp only
  split
  · exact State.SettledTo.refl s
  · refine State.SettledTo.trans ?_ (State.settledTo_faults _ _)
    have he : ∀ (c : Bool) (f : Fld) (u : State), u.SettledTo (onlyIf c (State.event Pg.GLB f) u) := fun c f u =>
      State.settledTo_onlyIf u c _ (State.settledTo_setReg u _ _ _ rfl)
    exact State.SettledTo.trans (he _ _ s) (he _ _ _)

theorem State.sendMsi_settled (v : Nat) (s : State) : s.SettledTo (s.sendMsi v) := by
  unfold State.sendMsi; split
  · exact ⟨fun _ _ _ => rfl, rfl⟩
  · exact State.SettledTo.refl s

theorem State.raiseVec_settled (v : Nat) (s : State) : s.SettledTo (s.raiseVec v) := by
  unfold State.raiseVec
  dsimp only
  split
  · exact State.SettledTo.refl s
  · exact State.SettledTo.trans (State.settledTo_setReg _ _ _ _ rfl) (State.sendMsi_settled v _)

theorem State.forEach_settled {α : Type} (f : α → State → State) (hf : ∀ (a : α) (s : State), s.SettledTo (f a s)) (l : List α) :
    ∀ s : State, s.SettledTo (forEach l f s) := by
  induction l with
  | nil => exact State.SettledTo.refl
  | cons a l ih => intro s; exact State.SettledTo.trans (hf a s) (ih (f a s))

theorem State.settledTo_active (s : State) (n : Nat) : s.SettledTo { s with host := { s.host with active := n } } :=
  ⟨fun _ _ _ => rfl, rfl⟩

theorem State.followSources_settled (s : State) : s.SettledTo s.followSources := by
  unfold State.followSources
  dsimp only
  split
  · exact State.SettledTo.refl s
  · split
    · exact State.settledTo_active _ _
    · exact State.SettledTo.trans (State.settledTo_active _ _)
        (State.forEach_settled _ (fun i s => State.raiseVec_settled _ s) _ _)

theorem State.followTimebase_settled (s : State) : s.SettledTo s.followTimebase := by
  unfold State.followTimebase
  dsimp only
  split
  · split
    · exact ⟨fun _ _ _ => rfl, rfl⟩
    · exact State.SettledTo.refl s
  · split
    · exact State.SettledTo.refl s
    · exact ⟨fun _ _ _ => rfl, rfl⟩

/-- Everything that `settle` can do. -/
theorem State.settle_settled (s : State) : s.SettledTo s.settle :=
  State.SettledTo.trans (State.SettledTo.trans (State.followFaults_settled s) (State.followSources_settled _))
    (State.followTimebase_settled _)

/-! ## Reads after `settle` -/

theorem State.settle_reg (s : State) (pg off : Nat) (h : follows (addrOf pg off) = false) : s.settle.reg pg off = s.reg pg off :=
  (State.settle_settled s).reg pg off h

theorem State.settle_get (s : State) (pg : Nat) (f : Fld) (h : follows (addrOf pg f.off) = false) :
    s.settle.get pg f = s.get pg f := by unfold State.get; rw [State.settle_reg s pg f.off h]

@[simp] theorem State.settle_time (s : State) : s.settle.time = s.time := by rw [(State.settle_settled s).rest]; rfl
@[simp] theorem State.settle_free (s : State) : s.settle.free = s.free := by rw [(State.settle_settled s).rest]; rfl
@[simp] theorem State.settle_shadow (s : State) : s.settle.shadow = s.shadow := by rw [(State.settle_settled s).rest]; rfl
@[simp] theorem State.settle_snap (s : State) : s.settle.snap = s.snap := by rw [(State.settle_settled s).rest]; rfl
@[simp] theorem State.settle_dram (s : State) : s.settle.dram = s.dram := by rw [(State.settle_settled s).rest]; rfl
@[simp] theorem State.settle_mtb (s : State) : s.settle.mtb = s.mtb := by rw [(State.settle_settled s).rest]; rfl
@[simp] theorem State.settle_lpt (s : State) : s.settle.lpt = s.lpt := by rw [(State.settle_settled s).rest]; rfl
@[simp] theorem State.settle_txs (s : State) : s.settle.txs = s.txs := by rw [(State.settle_settled s).rest]; rfl
@[simp] theorem State.settle_wad (s : State) : s.settle.wad = s.wad := by rw [(State.settle_settled s).rest]; rfl
@[simp] theorem State.settle_mac (s : State) : s.settle.mac = s.mac := by rw [(State.settle_settled s).rest]; rfl
@[simp] theorem State.settle_oas (s : State) : s.settle.oas = s.oas := by rw [(State.settle_settled s).rest]; rfl
@[simp] theorem State.settle_erg (s : State) : s.settle.erg = s.erg := by rw [(State.settle_settled s).rest]; rfl
@[simp] theorem State.settle_trl (s : State) : s.settle.trl = s.trl := by rw [(State.settle_settled s).rest]; rfl
@[simp] theorem State.settle_mir (s : State) : s.settle.mir = s.mir := by rw [(State.settle_settled s).rest]; rfl
@[simp] theorem State.settle_nmap (s : State) : s.settle.nmap = s.nmap := by rw [(State.settle_settled s).rest]; rfl
@[simp] theorem State.settle_key (s : State) : s.settle.key = s.key := by rw [(State.settle_settled s).rest]; rfl
@[simp] theorem State.settle_cav (s : State) : s.settle.cav = s.cav := by rw [(State.settle_settled s).rest]; rfl
@[simp] theorem State.settle_mrm (s : State) : s.settle.mrm = s.mrm := by rw [(State.settle_settled s).rest]; rfl
@[simp] theorem State.settle_sns (s : State) : s.settle.sns = s.sns := by rw [(State.settle_settled s).rest]; rfl
@[simp] theorem State.settle_loops (s : State) : s.settle.loops = s.loops := by rw [(State.settle_settled s).rest]; rfl
@[simp] theorem State.settle_seif (s : State) : s.settle.seif = s.seif := by rw [(State.settle_settled s).rest]; rfl
@[simp] theorem State.settle_uart (s : State) : s.settle.uart = s.uart := by rw [(State.settle_settled s).rest]; rfl
@[simp] theorem State.settle_clk (s : State) : s.settle.clk = s.clk := by rw [(State.settle_settled s).rest]; rfl
@[simp] theorem State.settle_sec (s : State) : s.settle.sec = s.sec := by rw [(State.settle_settled s).rest]; rfl
@[simp] theorem State.settle_pending (s : State) : s.settle.pending = s.pending := by rw [(State.settle_settled s).rest]; rfl
@[simp] theorem State.settle_rdata (s : State) : s.settle.host.rdata = s.host.rdata := by rw [(State.settle_settled s).rest]; rfl
@[simp] theorem State.settle_spiOut (s : State) : s.settle.host.spiOut = s.host.spiOut := by rw [(State.settle_settled s).rest]; rfl
@[simp] theorem State.settle_spiBuf (s : State) : s.settle.host.spiBuf = s.host.spiBuf := by rw [(State.settle_settled s).rest]; rfl
@[simp] theorem State.settle_win (s : State) : s.settle.host.win = s.host.win := by rw [(State.settle_settled s).rest]; rfl
@[simp] theorem State.settle_urCount (s : State) : s.settle.host.urCount = s.host.urCount := by
  rw [(State.settle_settled s).rest]; rfl
@[simp] theorem State.settle_d3hot (s : State) : s.settle.host.d3hot = s.host.d3hot := by rw [(State.settle_settled s).rest]; rfl
@[simp] theorem State.settle_eps (s : State) : s.settle.lnk.eps = s.lnk.eps := by rw [(State.settle_settled s).rest]; rfl
@[simp] theorem State.settle_sess (s : State) : s.settle.lnk.sess = s.lnk.sess := by rw [(State.settle_settled s).rest]; rfl
@[simp] theorem State.settle_events (s : State) : s.settle.lnk.events = s.lnk.events := by rw [(State.settle_settled s).rest]; rfl
@[simp] theorem State.settle_inbox (s : State) : s.settle.lnk.inbox = s.lnk.inbox := by rw [(State.settle_settled s).rest]; rfl
@[simp] theorem State.settle_mb (s : State) : s.settle.lnk.mb = s.lnk.mb := by rw [(State.settle_settled s).rest]; rfl

@[simp] theorem State.settle_dramByte (s : State) (a : Nat) : s.settle.dramByte a = s.dramByte a := by
  unfold State.dramByte; rw [State.settle_dram]

/-! ## The summaries have been followed -/

/-- The state with another record of the followed faults. -/
def State.setFaults (n : Nat) (s : State) : State := { s with host := { s.host with faults := n } }

theorem State.setFaults_faultSummary (n : Nat) (s : State) : (s.setFaults n).faultSummary = s.faultSummary :=
  State.faultSummary_congr rfl rfl

theorem State.setFaults_faults (n : Nat) (s : State) : (s.setFaults n).host.faults = n := rfl

theorem State.faultSummary_onlyIf (c : Bool) (f : Fld) (u : State) :
    (onlyIf c (State.event Pg.GLB f) u).faultSummary = u.faultSummary := by
  unfold onlyIf; split
  · exact State.faultSummary_setEvents u _
  · rfl

/-- What `followFaults` can do. -/
theorem State.followFaults_cases (s : State) :
    s.followFaults = s ∧ s.host.faults = s.faultSummary ∨
      ∃ u : State, u.faultSummary = s.faultSummary ∧ s.followFaults = u.setFaults s.faultSummary := by
  by_cases h : s.faultSummary = s.host.faults
  · exact .inl ⟨if_pos h, h.symm⟩
  · exact .inr ⟨_, (State.faultSummary_onlyIf _ _ _).trans (State.faultSummary_onlyIf _ _ _), if_neg h⟩

theorem State.followFaults_faults (s : State) : s.followFaults.host.faults = s.followFaults.faultSummary := by
  rcases State.followFaults_cases s with ⟨h, hs⟩ | ⟨u, hu, h⟩
  · rw [h, hs]
  · rw [h, State.setFaults_faultSummary, State.setFaults_faults, hu]

theorem State.sendMsi_summaries (v : Nat) (u : State) :
    (u.sendMsi v).faultSummary = u.faultSummary ∧ (u.sendMsi v).activeSources = u.activeSources ∧
      (u.sendMsi v).host.faults = u.host.faults ∧ (u.sendMsi v).host.active = u.host.active := by
  have h : (u.sendMsi v).regs = u.regs ∧ (u.sendMsi v).clk = u.clk ∧ (u.sendMsi v).wad = u.wad ∧
      (u.sendMsi v).time = u.time ∧ (u.sendMsi v).host.faults = u.host.faults ∧ (u.sendMsi v).host.active = u.host.active := by
    unfold State.sendMsi; split <;> exact ⟨rfl, rfl, rfl, rfl, rfl, rfl⟩
  exact ⟨State.faultSummary_congr h.1 h.2.1, State.activeSources_congr h.1 h.2.2.1 h.2.2.2.1, h.2.2.2.2.1, h.2.2.2.2.2⟩

theorem State.raiseVec_cases (v : Nat) (s : State) :
    s.raiseVec v = s ∨ ∃ w, s.raiseVec v = (s.setReg Pg.HIF HIF.VEC_PEND.off w).sendMsi v := by
  by_cases h : bitOf (s.get Pg.HIF HIF.VEC_PEND) v = 1
  · exact .inl (if_pos h)
  · exact .inr ⟨_, if_neg h⟩

theorem State.raiseVec_summaries (v : Nat) (s : State) :
    (s.raiseVec v).faultSummary = s.faultSummary ∧ (s.raiseVec v).activeSources = s.activeSources ∧
      (s.raiseVec v).host.faults = s.host.faults ∧ (s.raiseVec v).host.active = s.host.active := by
  rcases State.raiseVec_cases v s with h | ⟨w, h⟩
  · rw [h]; exact ⟨rfl, rfl, rfl, rfl⟩
  · obtain ⟨h1, h2, h3, h4⟩ := State.sendMsi_summaries v (s.setReg Pg.HIF HIF.VEC_PEND.off w)
    rw [h]
    exact ⟨h1.trans (State.faultSummary_setPend s w), h2.trans (State.activeSources_setPend s w), h3, h4⟩

theorem State.raiseAll_summaries (l : List Nat) (g : State → Nat → Nat) :
    ∀ s : State, (forEach l (fun i s => s.raiseVec (g s i)) s).faultSummary = s.faultSummary ∧
      (forEach l (fun i s => s.raiseVec (g s i)) s).activeSources = s.activeSources ∧
      (forEach l (fun i s => s.raiseVec (g s i)) s).host.faults = s.host.faults ∧
      (forEach l (fun i s => s.raiseVec (g s i)) s).host.active = s.host.active := by
  induction l with
  | nil => intro s; exact ⟨rfl, rfl, rfl, rfl⟩
  | cons i l ih =>
    intro s
    obtain ⟨h1, h2, h3, h4⟩ := ih (s.raiseVec (g s i))
    obtain ⟨k1, k2, k3, k4⟩ := State.raiseVec_summaries (g s i) s
    exact ⟨h1.trans k1, h2.trans k2, h3.trans k3, h4.trans k4⟩

/-- The state with another record of the active sources. -/
def State.setActive (n : Nat) (s : State) : State := { s with host := { s.host with active := n } }

/-- What `followSources` can do. -/
theorem State.followSources_cases (s : State) :
    s.followSources = s ∧ s.host.active = s.activeSources ∨ s.followSources = s.setActive s.activeSources ∨
      ∃ l, s.followSources = forEach l (fun i s => s.raiseVec (s.vectorOf i)) (s.setActive s.activeSources) := by
  by_cases h : s.activeSources = s.host.active
  · exact .inl ⟨if_pos h, h.symm⟩
  · right
    by_cases h2 : s.activeSources &&& (s.activeSources ^^^ s.host.active) = 0
    · exact .inl ((if_neg h).trans (if_pos h2))
    · exact .inr ⟨_, (if_neg h).trans (if_neg h2)⟩

theorem State.setActive_summaries (n : Nat) (s : State) :
    (s.setActive n).faultSummary = s.faultSummary ∧ (s.setActive n).activeSources = s.activeSources ∧
      (s.setActive n).host.faults = s.host.faults ∧ (s.setActive n).host.active = n :=
  ⟨State.faultSummary_congr rfl rfl, State.activeSources_congr rfl rfl rfl, rfl, rfl⟩

theorem State.followSources_summaries (s : State) :
    s.followSources.faultSummary = s.faultSummary ∧ s.followSources.host.faults = s.host.faults ∧
      s.followSources.host.active = s.followSources.activeSources := by
  obtain ⟨k1, k2, k3, k4⟩ := State.setActive_summaries s.activeSources s
  rcases State.followSources_cases s with ⟨h, ha⟩ | h | ⟨l, h⟩
  · rw [h]; exact ⟨rfl, rfl, ha⟩
  · rw [h]; exact ⟨k1, k3, k4.trans k2.symm⟩
  · obtain ⟨h1, h2, h3, h4⟩ := State.raiseAll_summaries l (fun s i => s.vectorOf i) (s.setActive s.activeSources)
    rw [h]
    exact ⟨h1.trans k1, h3.trans k3, (h4.trans k4).trans (h2.trans k2).symm⟩

/-- The timebase's state decides whether time outside LOCKED and HOLDOVER runs. -/
theorem State.followTimebase_cases (u : State) :
    ∃ n a, u.followTimebase = { u with lnk := { u.lnk with outTotal := n, outSince := a } } ∧
      (a.isSome = true ↔ ¬ u.tbServes) := by
  unfold State.followTimebase State.tbServes
  dsimp only
  split
  · next ho =>
    split
    · next hc =>
      simp only [Bool.and_eq_true, decide_eq_true_eq] at hc
      exact ⟨_, _, rfl, by simp; exact hc⟩
    · next hc =>
      simp only [Bool.and_eq_true, decide_eq_true_eq] at hc
      exact ⟨u.lnk.outTotal, u.lnk.outSince, rfl, by rw [ho]; simp; tauto⟩
  · next a ho =>
    split
    · next hc =>
      simp only [Bool.and_eq_true, decide_eq_true_eq] at hc
      exact ⟨u.lnk.outTotal, u.lnk.outSince, rfl, by rw [ho]; simp; exact hc⟩
    · next hc =>
      simp only [Bool.and_eq_true, decide_eq_true_eq] at hc
      exact ⟨_, _, rfl, by simp; tauto⟩

/-- The state with another record of the time outside LOCKED and HOLDOVER. -/
def State.setOut (n : Nat) (a : Option Nat) (s : State) : State :=
  { s with lnk := { s.lnk with outTotal := n, outSince := a } }

theorem State.setOut_followed (n : Nat) (a : Option Nat) (u : State) (hf : u.host.faults = u.faultSummary)
    (ha : u.host.active = u.activeSources) (h : a.isSome = true ↔ ¬ u.tbServes) : (u.setOut n a).Followed :=
  ⟨hf.trans (State.faultSummary_congr rfl rfl).symm, ha.trans (State.activeSources_congr rfl rfl rfl).symm, h⟩

/-- After `settle` the summaries have been followed. -/
theorem State.settle_followed (s : State) : s.settle.Followed := by
  obtain ⟨h1, h2, h3⟩ := State.followSources_summaries s.followFaults
  obtain ⟨n, a, hu, ha⟩ := State.followTimebase_cases s.followFaults.followSources
  have h : s.settle = s.followFaults.followSources.setOut n a := hu
  rw [h]
  exact State.setOut_followed n a _ (h2.trans ((State.followFaults_faults s).trans h1.symm)) h3 ha

end Sys2Proof.Machine
end

