-- ==== Sys2Proof/Laws/Frame.lean ====
section
/-! SUPPORT. How frames compose: the shared operations on registers keep `RegsOnly` and `RegsKept`, and so does what follows
every command. -/
namespace Sys2Proof.Machine

theorem State.regsOnly_refl (touched : Nat → Prop) (s : State) : s.RegsOnly touched s :=
  ⟨fun _ _ _ _ => rfl, s.regs, s.host.msiSent, s.host.active, s.host.faults, s.lnk.outTotal, s.lnk.outSince, rfl⟩

theorem State.regsOnly_setReg {touched : Nat → Prop} {s u : State} {pg off : Nat} (v : Word) (h : s.RegsOnly touched u)
    (ht : touched (addrOf pg off)) : s.RegsOnly touched (u.setReg pg off v) := by
  obtain ⟨hk, regs, msi, act, flt, n, a, rfl⟩ := h
  refine ⟨fun pg' off' hn hf => ?_, _, msi, act, flt, n, a, rfl⟩
  rw [State.reg_setReg_other _ v (fun he => hn (he ▸ ht))]
  exact hk pg' off' hn hf

theorem State.regsOnly_put {touched : Nat → Prop} {s u : State} {pg : Nat} {f : Fld} (v : Nat) (h : s.RegsOnly touched u)
    (ht : touched (addrOf pg f.off)) : s.RegsOnly touched (u.put pg f v) := State.regsOnly_setReg _ h ht

theorem State.regsOnly_eventBit {touched : Nat → Prop} {s u : State} {pg : Nat} {f : Fld} (i : Nat) (h : s.RegsOnly touched u)
    (ht : touched (addrOf pg CMN.EVENTS)) : s.RegsOnly touched (u.eventBit pg f i) := State.regsOnly_setReg _ h ht

theorem State.regsOnly_event {touched : Nat → Prop} {s u : State} {pg : Nat} {f : Fld} (h : s.RegsOnly touched u)
    (ht : touched (addrOf pg CMN.EVENTS)) : s.RegsOnly touched (u.event pg f) := State.regsOnly_setReg _ h ht

theorem State.regsOnly_countBy {touched : Nat → Prop} {s u : State} {pg : Nat} {f : Fld} (n : Nat) (h : s.RegsOnly touched u)
    (ht : touched (addrOf pg f.off)) : s.RegsOnly touched (u.countBy pg f n) := by
  unfold State.countBy; split
  · exact h
  · exact State.regsOnly_put _ h ht

theorem State.regsOnly_count {touched : Nat → Prop} {s u : State} {pg : Nat} {f : Fld} (h : s.RegsOnly touched u)
    (ht : touched (addrOf pg f.off)) : s.RegsOnly touched (u.count pg f) := State.regsOnly_countBy 1 h ht

theorem State.regsOnly_onlyIf {touched : Nat → Prop} {s u : State} (c : Bool) {f : State → State} (h : s.RegsOnly touched u)
    (hf : s.RegsOnly touched (f u)) : s.RegsOnly touched (onlyIf c f u) := by
  unfold onlyIf; split
  · exact hf
  · exact h

/-- What follows a command keeps its frame. -/
theorem State.regsOnly_settle {touched : Nat → Prop} {s u : State} (h : s.RegsOnly touched u) : s.RegsOnly touched u.settle := by
  obtain ⟨hk, regs, msi, act, flt, n, a, rfl⟩ := h
  have hs := State.settle_settled (s.refollowed regs msi act flt n a)
  refine ⟨fun pg off hn hf => (hs.reg pg off hf).trans (hk pg off hn hf), ?_⟩
  rw [hs.rest]
  exact ⟨_, _, _, _, _, _, rfl⟩

theorem State.regsKept_settle {touched : Nat → Prop} {s u : State} (h : s.RegsKept touched u) : s.RegsKept touched u.settle :=
  fun pg off hn hf => (State.settle_reg u pg off hf).trans (h pg off hn hf)

theorem State.RegsOnly.dram {touched : Nat → Prop} {s t : State} (h : s.RegsOnly touched t) : s.DramKept t := by
  obtain ⟨_, regs, msi, act, flt, n, a, rfl⟩ := h
  intro a; rfl

/-- A host write that reaches its page acts. -/
theorem State.pageWrite_reaches {pg : Nat} {s : State} (f : State → State) (h : s.Reaches pg) : s.pageWrite pg f = f s := by
  unfold State.pageWrite; simp [h.1, h.2.1, h.2.2]

/-- A host read that reaches its page acts. -/
theorem State.pageRead_reaches {pg : Nat} {s : State} (f : State → State) (h : s.Reaches pg) : s.pageRead pg f = f s := by
  unfold State.pageRead; simp [h.1, h.2.1, h.2.2]

/-- FREEZE_CNT is what it was unless its register is written. -/
theorem State.counted_count {s u : State} {pg : Nat} {f : Fld} (hf : f.lsb + f.w ≤ 32) (hg : u.get pg f = s.get pg f)
    (hz : u.flag pg CTRL.FREEZE_CNT = s.flag pg CTRL.FREEZE_CNT) : s.Counted pg f (u.count pg f) := by
  unfold State.Counted
  cases h : s.flag pg CTRL.FREEZE_CNT with
  | false =>
    have h' : u.flag pg CTRL.FREEZE_CNT = false := hz.trans h
    simp [State.get_count_same u pg f hf h', hg]
  | true =>
    have h' : u.flag pg CTRL.FREEZE_CNT = true := hz.trans h
    simp [State.count, State.countBy, h', hg]

theorem State.Counted.of_get {s t u : State} {pg : Nat} {f : Fld} (h : s.Counted pg f u) (ht : t.get pg f = u.get pg f) :
    s.Counted pg f t := by unfold State.Counted at *; rw [ht, h]

end Sys2Proof.Machine
end

