-- ==== Sys2Proof/Laws/State.lean ====
section
/-! SUPPORT. One lemma per field per update: what each named update of State leaves alone, true by unfolding, and what a unit of a
table reads as after it was written. -/
namespace Sys2Proof.Machine

/-! ### State.answer changes `host` alone -/

@[simp] theorem State.answer_time (v : Word) (s : State) : (s.answer v).time = s.time := rfl
@[simp] theorem State.answer_free (v : Word) (s : State) : (s.answer v).free = s.free := rfl
@[simp] theorem State.answer_regs (v : Word) (s : State) : (s.answer v).regs = s.regs := rfl
@[simp] theorem State.answer_shadow (v : Word) (s : State) : (s.answer v).shadow = s.shadow := rfl
@[simp] theorem State.answer_snap (v : Word) (s : State) : (s.answer v).snap = s.snap := rfl
@[simp] theorem State.answer_dram (v : Word) (s : State) : (s.answer v).dram = s.dram := rfl
@[simp] theorem State.answer_mtb (v : Word) (s : State) : (s.answer v).mtb = s.mtb := rfl
@[simp] theorem State.answer_lpt (v : Word) (s : State) : (s.answer v).lpt = s.lpt := rfl
@[simp] theorem State.answer_txs (v : Word) (s : State) : (s.answer v).txs = s.txs := rfl
@[simp] theorem State.answer_wad (v : Word) (s : State) : (s.answer v).wad = s.wad := rfl
@[simp] theorem State.answer_mac (v : Word) (s : State) : (s.answer v).mac = s.mac := rfl
@[simp] theorem State.answer_oas (v : Word) (s : State) : (s.answer v).oas = s.oas := rfl
@[simp] theorem State.answer_erg (v : Word) (s : State) : (s.answer v).erg = s.erg := rfl
@[simp] theorem State.answer_trl (v : Word) (s : State) : (s.answer v).trl = s.trl := rfl
@[simp] theorem State.answer_mir (v : Word) (s : State) : (s.answer v).mir = s.mir := rfl
@[simp] theorem State.answer_nmap (v : Word) (s : State) : (s.answer v).nmap = s.nmap := rfl
@[simp] theorem State.answer_key (v : Word) (s : State) : (s.answer v).key = s.key := rfl
@[simp] theorem State.answer_lnk (v : Word) (s : State) : (s.answer v).lnk = s.lnk := rfl
@[simp] theorem State.answer_cav (v : Word) (s : State) : (s.answer v).cav = s.cav := rfl
@[simp] theorem State.answer_mrm (v : Word) (s : State) : (s.answer v).mrm = s.mrm := rfl
@[simp] theorem State.answer_sns (v : Word) (s : State) : (s.answer v).sns = s.sns := rfl
@[simp] theorem State.answer_loops (v : Word) (s : State) : (s.answer v).loops = s.loops := rfl
@[simp] theorem State.answer_seif (v : Word) (s : State) : (s.answer v).seif = s.seif := rfl
@[simp] theorem State.answer_uart (v : Word) (s : State) : (s.answer v).uart = s.uart := rfl
@[simp] theorem State.answer_clk (v : Word) (s : State) : (s.answer v).clk = s.clk := rfl
@[simp] theorem State.answer_sec (v : Word) (s : State) : (s.answer v).sec = s.sec := rfl
@[simp] theorem State.answer_pending (v : Word) (s : State) : (s.answer v).pending = s.pending := rfl
@[simp] theorem State.answer_reg (v : Word) (s : State) (pg off : Nat) : (s.answer v).reg pg off = s.reg pg off := rfl
@[simp] theorem State.answer_get (v : Word) (s : State) (pg : Nat) (fd : Fld) : (s.answer v).get pg fd = s.get pg fd := rfl
@[simp] theorem State.answer_flag (v : Word) (s : State) (pg : Nat) (fd : Fld) : (s.answer v).flag pg fd = s.flag pg fd := rfl

/-! ### State.setPin changes `mir` alone -/

@[simp] theorem State.setPin_time (r : Nat) (x : Option PinSpan) (s : State) : (s.setPin r x).time = s.time := rfl
@[simp] theorem State.setPin_free (r : Nat) (x : Option PinSpan) (s : State) : (s.setPin r x).free = s.free := rfl
@[simp] theorem State.setPin_regs (r : Nat) (x : Option PinSpan) (s : State) : (s.setPin r x).regs = s.regs := rfl
@[simp] theorem State.setPin_shadow (r : Nat) (x : Option PinSpan) (s : State) : (s.setPin r x).shadow = s.shadow := rfl
@[simp] theorem State.setPin_snap (r : Nat) (x : Option PinSpan) (s : State) : (s.setPin r x).snap = s.snap := rfl
@[simp] theorem State.setPin_dram (r : Nat) (x : Option PinSpan) (s : State) : (s.setPin r x).dram = s.dram := rfl
@[simp] theorem State.setPin_host (r : Nat) (x : Option PinSpan) (s : State) : (s.setPin r x).host = s.host := rfl
@[simp] theorem State.setPin_mtb (r : Nat) (x : Option PinSpan) (s : State) : (s.setPin r x).mtb = s.mtb := rfl
@[simp] theorem State.setPin_lpt (r : Nat) (x : Option PinSpan) (s : State) : (s.setPin r x).lpt = s.lpt := rfl
@[simp] theorem State.setPin_txs (r : Nat) (x : Option PinSpan) (s : State) : (s.setPin r x).txs = s.txs := rfl
@[simp] theorem State.setPin_wad (r : Nat) (x : Option PinSpan) (s : State) : (s.setPin r x).wad = s.wad := rfl
@[simp] theorem State.setPin_mac (r : Nat) (x : Option PinSpan) (s : State) : (s.setPin r x).mac = s.mac := rfl
@[simp] theorem State.setPin_oas (r : Nat) (x : Option PinSpan) (s : State) : (s.setPin r x).oas = s.oas := rfl
@[simp] theorem State.setPin_erg (r : Nat) (x : Option PinSpan) (s : State) : (s.setPin r x).erg = s.erg := rfl
@[simp] theorem State.setPin_trl (r : Nat) (x : Option PinSpan) (s : State) : (s.setPin r x).trl = s.trl := rfl
@[simp] theorem State.setPin_nmap (r : Nat) (x : Option PinSpan) (s : State) : (s.setPin r x).nmap = s.nmap := rfl
@[simp] theorem State.setPin_key (r : Nat) (x : Option PinSpan) (s : State) : (s.setPin r x).key = s.key := rfl
@[simp] theorem State.setPin_lnk (r : Nat) (x : Option PinSpan) (s : State) : (s.setPin r x).lnk = s.lnk := rfl
@[simp] theorem State.setPin_cav (r : Nat) (x : Option PinSpan) (s : State) : (s.setPin r x).cav = s.cav := rfl
@[simp] theorem State.setPin_mrm (r : Nat) (x : Option PinSpan) (s : State) : (s.setPin r x).mrm = s.mrm := rfl
@[simp] theorem State.setPin_sns (r : Nat) (x : Option PinSpan) (s : State) : (s.setPin r x).sns = s.sns := rfl
@[simp] theorem State.setPin_loops (r : Nat) (x : Option PinSpan) (s : State) : (s.setPin r x).loops = s.loops := rfl
@[simp] theorem State.setPin_seif (r : Nat) (x : Option PinSpan) (s : State) : (s.setPin r x).seif = s.seif := rfl
@[simp] theorem State.setPin_uart (r : Nat) (x : Option PinSpan) (s : State) : (s.setPin r x).uart = s.uart := rfl
@[simp] theorem State.setPin_clk (r : Nat) (x : Option PinSpan) (s : State) : (s.setPin r x).clk = s.clk := rfl
@[simp] theorem State.setPin_sec (r : Nat) (x : Option PinSpan) (s : State) : (s.setPin r x).sec = s.sec := rfl
@[simp] theorem State.setPin_pending (r : Nat) (x : Option PinSpan) (s : State) : (s.setPin r x).pending = s.pending := rfl
@[simp] theorem State.setPin_reg (r : Nat) (x : Option PinSpan) (s : State) (pg off : Nat) : (s.setPin r x).reg pg off = s.reg pg off := rfl
@[simp] theorem State.setPin_get (r : Nat) (x : Option PinSpan) (s : State) (pg : Nat) (fd : Fld) : (s.setPin r x).get pg fd = s.get pg fd := rfl
@[simp] theorem State.setPin_flag (r : Nat) (x : Option PinSpan) (s : State) (pg : Nat) (fd : Fld) : (s.setPin r x).flag pg fd = s.flag pg fd := rfl

/-! ### State.drwForget changes `host` alone -/

@[simp] theorem State.drwForget_time (s : State) : (s.drwForget).time = s.time := rfl
@[simp] theorem State.drwForget_free (s : State) : (s.drwForget).free = s.free := rfl
@[simp] theorem State.drwForget_regs (s : State) : (s.drwForget).regs = s.regs := rfl
@[simp] theorem State.drwForget_shadow (s : State) : (s.drwForget).shadow = s.shadow := rfl
@[simp] theorem State.drwForget_snap (s : State) : (s.drwForget).snap = s.snap := rfl
@[simp] theorem State.drwForget_dram (s : State) : (s.drwForget).dram = s.dram := rfl
@[simp] theorem State.drwForget_mtb (s : State) : (s.drwForget).mtb = s.mtb := rfl
@[simp] theorem State.drwForget_lpt (s : State) : (s.drwForget).lpt = s.lpt := rfl
@[simp] theorem State.drwForget_txs (s : State) : (s.drwForget).txs = s.txs := rfl
@[simp] theorem State.drwForget_wad (s : State) : (s.drwForget).wad = s.wad := rfl
@[simp] theorem State.drwForget_mac (s : State) : (s.drwForget).mac = s.mac := rfl
@[simp] theorem State.drwForget_oas (s : State) : (s.drwForget).oas = s.oas := rfl
@[simp] theorem State.drwForget_erg (s : State) : (s.drwForget).erg = s.erg := rfl
@[simp] theorem State.drwForget_trl (s : State) : (s.drwForget).trl = s.trl := rfl
@[simp] theorem State.drwForget_mir (s : State) : (s.drwForget).mir = s.mir := rfl
@[simp] theorem State.drwForget_nmap (s : State) : (s.drwForget).nmap = s.nmap := rfl
@[simp] theorem State.drwForget_key (s : State) : (s.drwForget).key = s.key := rfl
@[simp] theorem State.drwForget_lnk (s : State) : (s.drwForget).lnk = s.lnk := rfl
@[simp] theorem State.drwForget_cav (s : State) : (s.drwForget).cav = s.cav := rfl
@[simp] theorem State.drwForget_mrm (s : State) : (s.drwForget).mrm = s.mrm := rfl
@[simp] theorem State.drwForget_sns (s : State) : (s.drwForget).sns = s.sns := rfl
@[simp] theorem State.drwForget_loops (s : State) : (s.drwForget).loops = s.loops := rfl
@[simp] theorem State.drwForget_seif (s : State) : (s.drwForget).seif = s.seif := rfl
@[simp] theorem State.drwForget_uart (s : State) : (s.drwForget).uart = s.uart := rfl
@[simp] theorem State.drwForget_clk (s : State) : (s.drwForget).clk = s.clk := rfl
@[simp] theorem State.drwForget_sec (s : State) : (s.drwForget).sec = s.sec := rfl
@[simp] theorem State.drwForget_pending (s : State) : (s.drwForget).pending = s.pending := rfl
@[simp] theorem State.drwForget_reg (s : State) (pg off : Nat) : (s.drwForget).reg pg off = s.reg pg off := rfl
@[simp] theorem State.drwForget_get (s : State) (pg : Nat) (fd : Fld) : (s.drwForget).get pg fd = s.get pg fd := rfl
@[simp] theorem State.drwForget_flag (s : State) (pg : Nat) (fd : Fld) : (s.drwForget).flag pg fd = s.flag pg fd := rfl

/-! ### State.setEng changes `erg` alone -/

@[simp] theorem State.setEng_time (c : Nat) (e : Eng) (s : State) : (s.setEng c e).time = s.time := rfl
@[simp] theorem State.setEng_free (c : Nat) (e : Eng) (s : State) : (s.setEng c e).free = s.free := rfl
@[simp] theorem State.setEng_regs (c : Nat) (e : Eng) (s : State) : (s.setEng c e).regs = s.regs := rfl
@[simp] theorem State.setEng_shadow (c : Nat) (e : Eng) (s : State) : (s.setEng c e).shadow = s.shadow := rfl
@[simp] theorem State.setEng_snap (c : Nat) (e : Eng) (s : State) : (s.setEng c e).snap = s.snap := rfl
@[simp] theorem State.setEng_dram (c : Nat) (e : Eng) (s : State) : (s.setEng c e).dram = s.dram := rfl
@[simp] theorem State.setEng_host (c : Nat) (e : Eng) (s : State) : (s.setEng c e).host = s.host := rfl
@[simp] theorem State.setEng_mtb (c : Nat) (e : Eng) (s : State) : (s.setEng c e).mtb = s.mtb := rfl
@[simp] theorem State.setEng_lpt (c : Nat) (e : Eng) (s : State) : (s.setEng c e).lpt = s.lpt := rfl
@[simp] theorem State.setEng_txs (c : Nat) (e : Eng) (s : State) : (s.setEng c e).txs = s.txs := rfl
@[simp] theorem State.setEng_wad (c : Nat) (e : Eng) (s : State) : (s.setEng c e).wad = s.wad := rfl
@[simp] theorem State.setEng_mac (c : Nat) (e : Eng) (s : State) : (s.setEng c e).mac = s.mac := rfl
@[simp] theorem State.setEng_oas (c : Nat) (e : Eng) (s : State) : (s.setEng c e).oas = s.oas := rfl
@[simp] theorem State.setEng_trl (c : Nat) (e : Eng) (s : State) : (s.setEng c e).trl = s.trl := rfl
@[simp] theorem State.setEng_mir (c : Nat) (e : Eng) (s : State) : (s.setEng c e).mir = s.mir := rfl
@[simp] theorem State.setEng_nmap (c : Nat) (e : Eng) (s : State) : (s.setEng c e).nmap = s.nmap := rfl
@[simp] theorem State.setEng_key (c : Nat) (e : Eng) (s : State) : (s.setEng c e).key = s.key := rfl
@[simp] theorem State.setEng_lnk (c : Nat) (e : Eng) (s : State) : (s.setEng c e).lnk = s.lnk := rfl
@[simp] theorem State.setEng_cav (c : Nat) (e : Eng) (s : State) : (s.setEng c e).cav = s.cav := rfl
@[simp] theorem State.setEng_mrm (c : Nat) (e : Eng) (s : State) : (s.setEng c e).mrm = s.mrm := rfl
@[simp] theorem State.setEng_sns (c : Nat) (e : Eng) (s : State) : (s.setEng c e).sns = s.sns := rfl
@[simp] theorem State.setEng_loops (c : Nat) (e : Eng) (s : State) : (s.setEng c e).loops = s.loops := rfl
@[simp] theorem State.setEng_seif (c : Nat) (e : Eng) (s : State) : (s.setEng c e).seif = s.seif := rfl
@[simp] theorem State.setEng_uart (c : Nat) (e : Eng) (s : State) : (s.setEng c e).uart = s.uart := rfl
@[simp] theorem State.setEng_clk (c : Nat) (e : Eng) (s : State) : (s.setEng c e).clk = s.clk := rfl
@[simp] theorem State.setEng_sec (c : Nat) (e : Eng) (s : State) : (s.setEng c e).sec = s.sec := rfl
@[simp] theorem State.setEng_pending (c : Nat) (e : Eng) (s : State) : (s.setEng c e).pending = s.pending := rfl
@[simp] theorem State.setEng_reg (c : Nat) (e : Eng) (s : State) (pg off : Nat) : (s.setEng c e).reg pg off = s.reg pg off := rfl
@[simp] theorem State.setEng_get (c : Nat) (e : Eng) (s : State) (pg : Nat) (fd : Fld) : (s.setEng c e).get pg fd = s.get pg fd := rfl
@[simp] theorem State.setEng_flag (c : Nat) (e : Eng) (s : State) (pg : Nat) (fd : Fld) : (s.setEng c e).flag pg fd = s.flag pg fd := rfl

/-! ### State.setEp changes `lnk` alone -/

@[simp] theorem State.setEp_time (a : Nat) (r : EpRec) (s : State) : (s.setEp a r).time = s.time := rfl
@[simp] theorem State.setEp_free (a : Nat) (r : EpRec) (s : State) : (s.setEp a r).free = s.free := rfl
@[simp] theorem State.setEp_regs (a : Nat) (r : EpRec) (s : State) : (s.setEp a r).regs = s.regs := rfl
@[simp] theorem State.setEp_shadow (a : Nat) (r : EpRec) (s : State) : (s.setEp a r).shadow = s.shadow := rfl
@[simp] theorem State.setEp_snap (a : Nat) (r : EpRec) (s : State) : (s.setEp a r).snap = s.snap := rfl
@[simp] theorem State.setEp_dram (a : Nat) (r : EpRec) (s : State) : (s.setEp a r).dram = s.dram := rfl
@[simp] theorem State.setEp_host (a : Nat) (r : EpRec) (s : State) : (s.setEp a r).host = s.host := rfl
@[simp] theorem State.setEp_mtb (a : Nat) (r : EpRec) (s : State) : (s.setEp a r).mtb = s.mtb := rfl
@[simp] theorem State.setEp_lpt (a : Nat) (r : EpRec) (s : State) : (s.setEp a r).lpt = s.lpt := rfl
@[simp] theorem State.setEp_txs (a : Nat) (r : EpRec) (s : State) : (s.setEp a r).txs = s.txs := rfl
@[simp] theorem State.setEp_wad (a : Nat) (r : EpRec) (s : State) : (s.setEp a r).wad = s.wad := rfl
@[simp] theorem State.setEp_mac (a : Nat) (r : EpRec) (s : State) : (s.setEp a r).mac = s.mac := rfl
@[simp] theorem State.setEp_oas (a : Nat) (r : EpRec) (s : State) : (s.setEp a r).oas = s.oas := rfl
@[simp] theorem State.setEp_erg (a : Nat) (r : EpRec) (s : State) : (s.setEp a r).erg = s.erg := rfl
@[simp] theorem State.setEp_trl (a : Nat) (r : EpRec) (s : State) : (s.setEp a r).trl = s.trl := rfl
@[simp] theorem State.setEp_mir (a : Nat) (r : EpRec) (s : State) : (s.setEp a r).mir = s.mir := rfl
@[simp] theorem State.setEp_nmap (a : Nat) (r : EpRec) (s : State) : (s.setEp a r).nmap = s.nmap := rfl
@[simp] theorem State.setEp_key (a : Nat) (r : EpRec) (s : State) : (s.setEp a r).key = s.key := rfl
@[simp] theorem State.setEp_cav (a : Nat) (r : EpRec) (s : State) : (s.setEp a r).cav = s.cav := rfl
@[simp] theorem State.setEp_mrm (a : Nat) (r : EpRec) (s : State) : (s.setEp a r).mrm = s.mrm := rfl
@[simp] theorem State.setEp_sns (a : Nat) (r : EpRec) (s : State) : (s.setEp a r).sns = s.sns := rfl
@[simp] theorem State.setEp_loops (a : Nat) (r : EpRec) (s : State) : (s.setEp a r).loops = s.loops := rfl
@[simp] theorem State.setEp_seif (a : Nat) (r : EpRec) (s : State) : (s.setEp a r).seif = s.seif := rfl
@[simp] theorem State.setEp_uart (a : Nat) (r : EpRec) (s : State) : (s.setEp a r).uart = s.uart := rfl
@[simp] theorem State.setEp_clk (a : Nat) (r : EpRec) (s : State) : (s.setEp a r).clk = s.clk := rfl
@[simp] theorem State.setEp_sec (a : Nat) (r : EpRec) (s : State) : (s.setEp a r).sec = s.sec := rfl
@[simp] theorem State.setEp_pending (a : Nat) (r : EpRec) (s : State) : (s.setEp a r).pending = s.pending := rfl
@[simp] theorem State.setEp_reg (a : Nat) (r : EpRec) (s : State) (pg off : Nat) : (s.setEp a r).reg pg off = s.reg pg off := rfl
@[simp] theorem State.setEp_get (a : Nat) (r : EpRec) (s : State) (pg : Nat) (fd : Fld) : (s.setEp a r).get pg fd = s.get pg fd := rfl
@[simp] theorem State.setEp_flag (a : Nat) (r : EpRec) (s : State) (pg : Nat) (fd : Fld) : (s.setEp a r).flag pg fd = s.flag pg fd := rfl

/-! ### State.modLnk changes `lnk` alone -/

@[simp] theorem State.modLnk_time (f : LnkSt → LnkSt) (s : State) : (s.modLnk f).time = s.time := rfl
@[simp] theorem State.modLnk_free (f : LnkSt → LnkSt) (s : State) : (s.modLnk f).free = s.free := rfl
@[simp] theorem State.modLnk_regs (f : LnkSt → LnkSt) (s : State) : (s.modLnk f).regs = s.regs := rfl
@[simp] theorem State.modLnk_shadow (f : LnkSt → LnkSt) (s : State) : (s.modLnk f).shadow = s.shadow := rfl
@[simp] theorem State.modLnk_snap (f : LnkSt → LnkSt) (s : State) : (s.modLnk f).snap = s.snap := rfl
@[simp] theorem State.modLnk_dram (f : LnkSt → LnkSt) (s : State) : (s.modLnk f).dram = s.dram := rfl
@[simp] theorem State.modLnk_host (f : LnkSt → LnkSt) (s : State) : (s.modLnk f).host = s.host := rfl
@[simp] theorem State.modLnk_mtb (f : LnkSt → LnkSt) (s : State) : (s.modLnk f).mtb = s.mtb := rfl
@[simp] theorem State.modLnk_lpt (f : LnkSt → LnkSt) (s : State) : (s.modLnk f).lpt = s.lpt := rfl
@[simp] theorem State.modLnk_txs (f : LnkSt → LnkSt) (s : State) : (s.modLnk f).txs = s.txs := rfl
@[simp] theorem State.modLnk_wad (f : LnkSt → LnkSt) (s : State) : (s.modLnk f).wad = s.wad := rfl
@[simp] theorem State.modLnk_mac (f : LnkSt → LnkSt) (s : State) : (s.modLnk f).mac = s.mac := rfl
@[simp] theorem State.modLnk_oas (f : LnkSt → LnkSt) (s : State) : (s.modLnk f).oas = s.oas := rfl
@[simp] theorem State.modLnk_erg (f : LnkSt → LnkSt) (s : State) : (s.modLnk f).erg = s.erg := rfl
@[simp] theorem State.modLnk_trl (f : LnkSt → LnkSt) (s : State) : (s.modLnk f).trl = s.trl := rfl
@[simp] theorem State.modLnk_mir (f : LnkSt → LnkSt) (s : State) : (s.modLnk f).mir = s.mir := rfl
@[simp] theorem State.modLnk_nmap (f : LnkSt → LnkSt) (s : State) : (s.modLnk f).nmap = s.nmap := rfl
@[simp] theorem State.modLnk_key (f : LnkSt → LnkSt) (s : State) : (s.modLnk f).key = s.key := rfl
@[simp] theorem State.modLnk_cav (f : LnkSt → LnkSt) (s : State) : (s.modLnk f).cav = s.cav := rfl
@[simp] theorem State.modLnk_mrm (f : LnkSt → LnkSt) (s : State) : (s.modLnk f).mrm = s.mrm := rfl
@[simp] theorem State.modLnk_sns (f : LnkSt → LnkSt) (s : State) : (s.modLnk f).sns = s.sns := rfl
@[simp] theorem State.modLnk_loops (f : LnkSt → LnkSt) (s : State) : (s.modLnk f).loops = s.loops := rfl
@[simp] theorem State.modLnk_seif (f : LnkSt → LnkSt) (s : State) : (s.modLnk f).seif = s.seif := rfl
@[simp] theorem State.modLnk_uart (f : LnkSt → LnkSt) (s : State) : (s.modLnk f).uart = s.uart := rfl
@[simp] theorem State.modLnk_clk (f : LnkSt → LnkSt) (s : State) : (s.modLnk f).clk = s.clk := rfl
@[simp] theorem State.modLnk_sec (f : LnkSt → LnkSt) (s : State) : (s.modLnk f).sec = s.sec := rfl
@[simp] theorem State.modLnk_pending (f : LnkSt → LnkSt) (s : State) : (s.modLnk f).pending = s.pending := rfl
@[simp] theorem State.modLnk_reg (f : LnkSt → LnkSt) (s : State) (pg off : Nat) : (s.modLnk f).reg pg off = s.reg pg off := rfl
@[simp] theorem State.modLnk_get (f : LnkSt → LnkSt) (s : State) (pg : Nat) (fd : Fld) : (s.modLnk f).get pg fd = s.get pg fd := rfl
@[simp] theorem State.modLnk_flag (f : LnkSt → LnkSt) (s : State) (pg : Nat) (fd : Fld) : (s.modLnk f).flag pg fd = s.flag pg fd := rfl

/-! ### State.setKeySlot changes `key` alone -/

@[simp] theorem State.setKeySlot_time (n : Nat) (k : KeySlot) (s : State) : (s.setKeySlot n k).time = s.time := rfl
@[simp] theorem State.setKeySlot_free (n : Nat) (k : KeySlot) (s : State) : (s.setKeySlot n k).free = s.free := rfl
@[simp] theorem State.setKeySlot_regs (n : Nat) (k : KeySlot) (s : State) : (s.setKeySlot n k).regs = s.regs := rfl
@[simp] theorem State.setKeySlot_shadow (n : Nat) (k : KeySlot) (s : State) : (s.setKeySlot n k).shadow = s.shadow := rfl
@[simp] theorem State.setKeySlot_snap (n : Nat) (k : KeySlot) (s : State) : (s.setKeySlot n k).snap = s.snap := rfl
@[simp] theorem State.setKeySlot_dram (n : Nat) (k : KeySlot) (s : State) : (s.setKeySlot n k).dram = s.dram := rfl
@[simp] theorem State.setKeySlot_host (n : Nat) (k : KeySlot) (s : State) : (s.setKeySlot n k).host = s.host := rfl
@[simp] theorem State.setKeySlot_mtb (n : Nat) (k : KeySlot) (s : State) : (s.setKeySlot n k).mtb = s.mtb := rfl
@[simp] theorem State.setKeySlot_lpt (n : Nat) (k : KeySlot) (s : State) : (s.setKeySlot n k).lpt = s.lpt := rfl
@[simp] theorem State.setKeySlot_txs (n : Nat) (k : KeySlot) (s : State) : (s.setKeySlot n k).txs = s.txs := rfl
@[simp] theorem State.setKeySlot_wad (n : Nat) (k : KeySlot) (s : State) : (s.setKeySlot n k).wad = s.wad := rfl
@[simp] theorem State.setKeySlot_mac (n : Nat) (k : KeySlot) (s : State) : (s.setKeySlot n k).mac = s.mac := rfl
@[simp] theorem State.setKeySlot_oas (n : Nat) (k : KeySlot) (s : State) : (s.setKeySlot n k).oas = s.oas := rfl
@[simp] theorem State.setKeySlot_erg (n : Nat) (k : KeySlot) (s : State) : (s.setKeySlot n k).erg = s.erg := rfl
@[simp] theorem State.setKeySlot_trl (n : Nat) (k : KeySlot) (s : State) : (s.setKeySlot n k).trl = s.trl := rfl
@[simp] theorem State.setKeySlot_mir (n : Nat) (k : KeySlot) (s : State) : (s.setKeySlot n k).mir = s.mir := rfl
@[simp] theorem State.setKeySlot_nmap (n : Nat) (k : KeySlot) (s : State) : (s.setKeySlot n k).nmap = s.nmap := rfl
@[simp] theorem State.setKeySlot_lnk (n : Nat) (k : KeySlot) (s : State) : (s.setKeySlot n k).lnk = s.lnk := rfl
@[simp] theorem State.setKeySlot_cav (n : Nat) (k : KeySlot) (s : State) : (s.setKeySlot n k).cav = s.cav := rfl
@[simp] theorem State.setKeySlot_mrm (n : Nat) (k : KeySlot) (s : State) : (s.setKeySlot n k).mrm = s.mrm := rfl
@[simp] theorem State.setKeySlot_sns (n : Nat) (k : KeySlot) (s : State) : (s.setKeySlot n k).sns = s.sns := rfl
@[simp] theorem State.setKeySlot_loops (n : Nat) (k : KeySlot) (s : State) : (s.setKeySlot n k).loops = s.loops := rfl
@[simp] theorem State.setKeySlot_seif (n : Nat) (k : KeySlot) (s : State) : (s.setKeySlot n k).seif = s.seif := rfl
@[simp] theorem State.setKeySlot_uart (n : Nat) (k : KeySlot) (s : State) : (s.setKeySlot n k).uart = s.uart := rfl
@[simp] theorem State.setKeySlot_clk (n : Nat) (k : KeySlot) (s : State) : (s.setKeySlot n k).clk = s.clk := rfl
@[simp] theorem State.setKeySlot_sec (n : Nat) (k : KeySlot) (s : State) : (s.setKeySlot n k).sec = s.sec := rfl
@[simp] theorem State.setKeySlot_pending (n : Nat) (k : KeySlot) (s : State) : (s.setKeySlot n k).pending = s.pending := rfl
@[simp] theorem State.setKeySlot_reg (n : Nat) (k : KeySlot) (s : State) (pg off : Nat) : (s.setKeySlot n k).reg pg off = s.reg pg off := rfl
@[simp] theorem State.setKeySlot_get (n : Nat) (k : KeySlot) (s : State) (pg : Nat) (fd : Fld) : (s.setKeySlot n k).get pg fd = s.get pg fd := rfl
@[simp] theorem State.setKeySlot_flag (n : Nat) (k : KeySlot) (s : State) (pg : Nat) (fd : Fld) : (s.setKeySlot n k).flag pg fd = s.flag pg fd := rfl

/-! ### State.setMram changes `mrm` alone -/

@[simp] theorem State.setMram_time (n : Nat) (v : Word) (s : State) : (s.setMram n v).time = s.time := rfl
@[simp] theorem State.setMram_free (n : Nat) (v : Word) (s : State) : (s.setMram n v).free = s.free := rfl
@[simp] theorem State.setMram_regs (n : Nat) (v : Word) (s : State) : (s.setMram n v).regs = s.regs := rfl
@[simp] theorem State.setMram_shadow (n : Nat) (v : Word) (s : State) : (s.setMram n v).shadow = s.shadow := rfl
@[simp] theorem State.setMram_snap (n : Nat) (v : Word) (s : State) : (s.setMram n v).snap = s.snap := rfl
@[simp] theorem State.setMram_dram (n : Nat) (v : Word) (s : State) : (s.setMram n v).dram = s.dram := rfl
@[simp] theorem State.setMram_host (n : Nat) (v : Word) (s : State) : (s.setMram n v).host = s.host := rfl
@[simp] theorem State.setMram_mtb (n : Nat) (v : Word) (s : State) : (s.setMram n v).mtb = s.mtb := rfl
@[simp] theorem State.setMram_lpt (n : Nat) (v : Word) (s : State) : (s.setMram n v).lpt = s.lpt := rfl
@[simp] theorem State.setMram_txs (n : Nat) (v : Word) (s : State) : (s.setMram n v).txs = s.txs := rfl
@[simp] theorem State.setMram_wad (n : Nat) (v : Word) (s : State) : (s.setMram n v).wad = s.wad := rfl
@[simp] theorem State.setMram_mac (n : Nat) (v : Word) (s : State) : (s.setMram n v).mac = s.mac := rfl
@[simp] theorem State.setMram_oas (n : Nat) (v : Word) (s : State) : (s.setMram n v).oas = s.oas := rfl
@[simp] theorem State.setMram_erg (n : Nat) (v : Word) (s : State) : (s.setMram n v).erg = s.erg := rfl
@[simp] theorem State.setMram_trl (n : Nat) (v : Word) (s : State) : (s.setMram n v).trl = s.trl := rfl
@[simp] theorem State.setMram_mir (n : Nat) (v : Word) (s : State) : (s.setMram n v).mir = s.mir := rfl
@[simp] theorem State.setMram_nmap (n : Nat) (v : Word) (s : State) : (s.setMram n v).nmap = s.nmap := rfl
@[simp] theorem State.setMram_key (n : Nat) (v : Word) (s : State) : (s.setMram n v).key = s.key := rfl
@[simp] theorem State.setMram_lnk (n : Nat) (v : Word) (s : State) : (s.setMram n v).lnk = s.lnk := rfl
@[simp] theorem State.setMram_cav (n : Nat) (v : Word) (s : State) : (s.setMram n v).cav = s.cav := rfl
@[simp] theorem State.setMram_sns (n : Nat) (v : Word) (s : State) : (s.setMram n v).sns = s.sns := rfl
@[simp] theorem State.setMram_loops (n : Nat) (v : Word) (s : State) : (s.setMram n v).loops = s.loops := rfl
@[simp] theorem State.setMram_seif (n : Nat) (v : Word) (s : State) : (s.setMram n v).seif = s.seif := rfl
@[simp] theorem State.setMram_uart (n : Nat) (v : Word) (s : State) : (s.setMram n v).uart = s.uart := rfl
@[simp] theorem State.setMram_clk (n : Nat) (v : Word) (s : State) : (s.setMram n v).clk = s.clk := rfl
@[simp] theorem State.setMram_sec (n : Nat) (v : Word) (s : State) : (s.setMram n v).sec = s.sec := rfl
@[simp] theorem State.setMram_pending (n : Nat) (v : Word) (s : State) : (s.setMram n v).pending = s.pending := rfl
@[simp] theorem State.setMram_reg (n : Nat) (v : Word) (s : State) (pg off : Nat) : (s.setMram n v).reg pg off = s.reg pg off := rfl
@[simp] theorem State.setMram_get (n : Nat) (v : Word) (s : State) (pg : Nat) (fd : Fld) : (s.setMram n v).get pg fd = s.get pg fd := rfl
@[simp] theorem State.setMram_flag (n : Nat) (v : Word) (s : State) (pg : Nat) (fd : Fld) : (s.setMram n v).flag pg fd = s.flag pg fd := rfl

/-! ### State.spiBegin changes `host` alone -/

@[simp] theorem State.spiBegin_time (s : State) : (s.spiBegin).time = s.time := rfl
@[simp] theorem State.spiBegin_free (s : State) : (s.spiBegin).free = s.free := rfl
@[simp] theorem State.spiBegin_regs (s : State) : (s.spiBegin).regs = s.regs := rfl
@[simp] theorem State.spiBegin_shadow (s : State) : (s.spiBegin).shadow = s.shadow := rfl
@[simp] theorem State.spiBegin_snap (s : State) : (s.spiBegin).snap = s.snap := rfl
@[simp] theorem State.spiBegin_dram (s : State) : (s.spiBegin).dram = s.dram := rfl
@[simp] theorem State.spiBegin_mtb (s : State) : (s.spiBegin).mtb = s.mtb := rfl
@[simp] theorem State.spiBegin_lpt (s : State) : (s.spiBegin).lpt = s.lpt := rfl
@[simp] theorem State.spiBegin_txs (s : State) : (s.spiBegin).txs = s.txs := rfl
@[simp] theorem State.spiBegin_wad (s : State) : (s.spiBegin).wad = s.wad := rfl
@[simp] theorem State.spiBegin_mac (s : State) : (s.spiBegin).mac = s.mac := rfl
@[simp] theorem State.spiBegin_oas (s : State) : (s.spiBegin).oas = s.oas := rfl
@[simp] theorem State.spiBegin_erg (s : State) : (s.spiBegin).erg = s.erg := rfl
@[simp] theorem State.spiBegin_trl (s : State) : (s.spiBegin).trl = s.trl := rfl
@[simp] theorem State.spiBegin_mir (s : State) : (s.spiBegin).mir = s.mir := rfl
@[simp] theorem State.spiBegin_nmap (s : State) : (s.spiBegin).nmap = s.nmap := rfl
@[simp] theorem State.spiBegin_key (s : State) : (s.spiBegin).key = s.key := rfl
@[simp] theorem State.spiBegin_lnk (s : State) : (s.spiBegin).lnk = s.lnk := rfl
@[simp] theorem State.spiBegin_cav (s : State) : (s.spiBegin).cav = s.cav := rfl
@[simp] theorem State.spiBegin_mrm (s : State) : (s.spiBegin).mrm = s.mrm := rfl
@[simp] theorem State.spiBegin_sns (s : State) : (s.spiBegin).sns = s.sns := rfl
@[simp] theorem State.spiBegin_loops (s : State) : (s.spiBegin).loops = s.loops := rfl
@[simp] theorem State.spiBegin_seif (s : State) : (s.spiBegin).seif = s.seif := rfl
@[simp] theorem State.spiBegin_uart (s : State) : (s.spiBegin).uart = s.uart := rfl
@[simp] theorem State.spiBegin_clk (s : State) : (s.spiBegin).clk = s.clk := rfl
@[simp] theorem State.spiBegin_sec (s : State) : (s.spiBegin).sec = s.sec := rfl
@[simp] theorem State.spiBegin_pending (s : State) : (s.spiBegin).pending = s.pending := rfl
@[simp] theorem State.spiBegin_reg (s : State) (pg off : Nat) : (s.spiBegin).reg pg off = s.reg pg off := rfl
@[simp] theorem State.spiBegin_get (s : State) (pg : Nat) (fd : Fld) : (s.spiBegin).get pg fd = s.get pg fd := rfl
@[simp] theorem State.spiBegin_flag (s : State) (pg : Nat) (fd : Fld) : (s.spiBegin).flag pg fd = s.flag pg fd := rfl

/-! ### State.spiDrive changes `host` alone -/

@[simp] theorem State.spiDrive_time (l : List Byte) (s : State) : (s.spiDrive l).time = s.time := rfl
@[simp] theorem State.spiDrive_free (l : List Byte) (s : State) : (s.spiDrive l).free = s.free := rfl
@[simp] theorem State.spiDrive_regs (l : List Byte) (s : State) : (s.spiDrive l).regs = s.regs := rfl
@[simp] theorem State.spiDrive_shadow (l : List Byte) (s : State) : (s.spiDrive l).shadow = s.shadow := rfl
@[simp] theorem State.spiDrive_snap (l : List Byte) (s : State) : (s.spiDrive l).snap = s.snap := rfl
@[simp] theorem State.spiDrive_dram (l : List Byte) (s : State) : (s.spiDrive l).dram = s.dram := rfl
@[simp] theorem State.spiDrive_mtb (l : List Byte) (s : State) : (s.spiDrive l).mtb = s.mtb := rfl
@[simp] theorem State.spiDrive_lpt (l : List Byte) (s : State) : (s.spiDrive l).lpt = s.lpt := rfl
@[simp] theorem State.spiDrive_txs (l : List Byte) (s : State) : (s.spiDrive l).txs = s.txs := rfl
@[simp] theorem State.spiDrive_wad (l : List Byte) (s : State) : (s.spiDrive l).wad = s.wad := rfl
@[simp] theorem State.spiDrive_mac (l : List Byte) (s : State) : (s.spiDrive l).mac = s.mac := rfl
@[simp] theorem State.spiDrive_oas (l : List Byte) (s : State) : (s.spiDrive l).oas = s.oas := rfl
@[simp] theorem State.spiDrive_erg (l : List Byte) (s : State) : (s.spiDrive l).erg = s.erg := rfl
@[simp] theorem State.spiDrive_trl (l : List Byte) (s : State) : (s.spiDrive l).trl = s.trl := rfl
@[simp] theorem State.spiDrive_mir (l : List Byte) (s : State) : (s.spiDrive l).mir = s.mir := rfl
@[simp] theorem State.spiDrive_nmap (l : List Byte) (s : State) : (s.spiDrive l).nmap = s.nmap := rfl
@[simp] theorem State.spiDrive_key (l : List Byte) (s : State) : (s.spiDrive l).key = s.key := rfl
@[simp] theorem State.spiDrive_lnk (l : List Byte) (s : State) : (s.spiDrive l).lnk = s.lnk := rfl
@[simp] theorem State.spiDrive_cav (l : List Byte) (s : State) : (s.spiDrive l).cav = s.cav := rfl
@[simp] theorem State.spiDrive_mrm (l : List Byte) (s : State) : (s.spiDrive l).mrm = s.mrm := rfl
@[simp] theorem State.spiDrive_sns (l : List Byte) (s : State) : (s.spiDrive l).sns = s.sns := rfl
@[simp] theorem State.spiDrive_loops (l : List Byte) (s : State) : (s.spiDrive l).loops = s.loops := rfl
@[simp] theorem State.spiDrive_seif (l : List Byte) (s : State) : (s.spiDrive l).seif = s.seif := rfl
@[simp] theorem State.spiDrive_uart (l : List Byte) (s : State) : (s.spiDrive l).uart = s.uart := rfl
@[simp] theorem State.spiDrive_clk (l : List Byte) (s : State) : (s.spiDrive l).clk = s.clk := rfl
@[simp] theorem State.spiDrive_sec (l : List Byte) (s : State) : (s.spiDrive l).sec = s.sec := rfl
@[simp] theorem State.spiDrive_pending (l : List Byte) (s : State) : (s.spiDrive l).pending = s.pending := rfl
@[simp] theorem State.spiDrive_reg (l : List Byte) (s : State) (pg off : Nat) : (s.spiDrive l).reg pg off = s.reg pg off := rfl
@[simp] theorem State.spiDrive_get (l : List Byte) (s : State) (pg : Nat) (fd : Fld) : (s.spiDrive l).get pg fd = s.get pg fd := rfl
@[simp] theorem State.spiDrive_flag (l : List Byte) (s : State) (pg : Nat) (fd : Fld) : (s.spiDrive l).flag pg fd = s.flag pg fd := rfl

/-! ### State.spiClear changes `host` alone -/

@[simp] theorem State.spiClear_time (s : State) : (s.spiClear).time = s.time := rfl
@[simp] theorem State.spiClear_free (s : State) : (s.spiClear).free = s.free := rfl
@[simp] theorem State.spiClear_regs (s : State) : (s.spiClear).regs = s.regs := rfl
@[simp] theorem State.spiClear_shadow (s : State) : (s.spiClear).shadow = s.shadow := rfl
@[simp] theorem State.spiClear_snap (s : State) : (s.spiClear).snap = s.snap := rfl
@[simp] theorem State.spiClear_dram (s : State) : (s.spiClear).dram = s.dram := rfl
@[simp] theorem State.spiClear_mtb (s : State) : (s.spiClear).mtb = s.mtb := rfl
@[simp] theorem State.spiClear_lpt (s : State) : (s.spiClear).lpt = s.lpt := rfl
@[simp] theorem State.spiClear_txs (s : State) : (s.spiClear).txs = s.txs := rfl
@[simp] theorem State.spiClear_wad (s : State) : (s.spiClear).wad = s.wad := rfl
@[simp] theorem State.spiClear_mac (s : State) : (s.spiClear).mac = s.mac := rfl
@[simp] theorem State.spiClear_oas (s : State) : (s.spiClear).oas = s.oas := rfl
@[simp] theorem State.spiClear_erg (s : State) : (s.spiClear).erg = s.erg := rfl
@[simp] theorem State.spiClear_trl (s : State) : (s.spiClear).trl = s.trl := rfl
@[simp] theorem State.spiClear_mir (s : State) : (s.spiClear).mir = s.mir := rfl
@[simp] theorem State.spiClear_nmap (s : State) : (s.spiClear).nmap = s.nmap := rfl
@[simp] theorem State.spiClear_key (s : State) : (s.spiClear).key = s.key := rfl
@[simp] theorem State.spiClear_lnk (s : State) : (s.spiClear).lnk = s.lnk := rfl
@[simp] theorem State.spiClear_cav (s : State) : (s.spiClear).cav = s.cav := rfl
@[simp] theorem State.spiClear_mrm (s : State) : (s.spiClear).mrm = s.mrm := rfl
@[simp] theorem State.spiClear_sns (s : State) : (s.spiClear).sns = s.sns := rfl
@[simp] theorem State.spiClear_loops (s : State) : (s.spiClear).loops = s.loops := rfl
@[simp] theorem State.spiClear_seif (s : State) : (s.spiClear).seif = s.seif := rfl
@[simp] theorem State.spiClear_uart (s : State) : (s.spiClear).uart = s.uart := rfl
@[simp] theorem State.spiClear_clk (s : State) : (s.spiClear).clk = s.clk := rfl
@[simp] theorem State.spiClear_sec (s : State) : (s.spiClear).sec = s.sec := rfl
@[simp] theorem State.spiClear_pending (s : State) : (s.spiClear).pending = s.pending := rfl
@[simp] theorem State.spiClear_reg (s : State) (pg off : Nat) : (s.spiClear).reg pg off = s.reg pg off := rfl
@[simp] theorem State.spiClear_get (s : State) (pg : Nat) (fd : Fld) : (s.spiClear).get pg fd = s.get pg fd := rfl
@[simp] theorem State.spiClear_flag (s : State) (pg : Nat) (fd : Fld) : (s.spiClear).flag pg fd = s.flag pg fd := rfl

/-! ### State.setLane changes `txs` alone -/

@[simp] theorem State.setLane_time (p l : Nat) (x : Option Lane) (s : State) : (s.setLane p l x).time = s.time := rfl
@[simp] theorem State.setLane_free (p l : Nat) (x : Option Lane) (s : State) : (s.setLane p l x).free = s.free := rfl
@[simp] theorem State.setLane_regs (p l : Nat) (x : Option Lane) (s : State) : (s.setLane p l x).regs = s.regs := rfl
@[simp] theorem State.setLane_shadow (p l : Nat) (x : Option Lane) (s : State) : (s.setLane p l x).shadow = s.shadow := rfl
@[simp] theorem State.setLane_snap (p l : Nat) (x : Option Lane) (s : State) : (s.setLane p l x).snap = s.snap := rfl
@[simp] theorem State.setLane_dram (p l : Nat) (x : Option Lane) (s : State) : (s.setLane p l x).dram = s.dram := rfl
@[simp] theorem State.setLane_host (p l : Nat) (x : Option Lane) (s : State) : (s.setLane p l x).host = s.host := rfl
@[simp] theorem State.setLane_mtb (p l : Nat) (x : Option Lane) (s : State) : (s.setLane p l x).mtb = s.mtb := rfl
@[simp] theorem State.setLane_lpt (p l : Nat) (x : Option Lane) (s : State) : (s.setLane p l x).lpt = s.lpt := rfl
@[simp] theorem State.setLane_wad (p l : Nat) (x : Option Lane) (s : State) : (s.setLane p l x).wad = s.wad := rfl
@[simp] theorem State.setLane_mac (p l : Nat) (x : Option Lane) (s : State) : (s.setLane p l x).mac = s.mac := rfl
@[simp] theorem State.setLane_oas (p l : Nat) (x : Option Lane) (s : State) : (s.setLane p l x).oas = s.oas := rfl
@[simp] theorem State.setLane_erg (p l : Nat) (x : Option Lane) (s : State) : (s.setLane p l x).erg = s.erg := rfl
@[simp] theorem State.setLane_trl (p l : Nat) (x : Option Lane) (s : State) : (s.setLane p l x).trl = s.trl := rfl
@[simp] theorem State.setLane_mir (p l : Nat) (x : Option Lane) (s : State) : (s.setLane p l x).mir = s.mir := rfl
@[simp] theorem State.setLane_nmap (p l : Nat) (x : Option Lane) (s : State) : (s.setLane p l x).nmap = s.nmap := rfl
@[simp] theorem State.setLane_key (p l : Nat) (x : Option Lane) (s : State) : (s.setLane p l x).key = s.key := rfl
@[simp] theorem State.setLane_lnk (p l : Nat) (x : Option Lane) (s : State) : (s.setLane p l x).lnk = s.lnk := rfl
@[simp] theorem State.setLane_cav (p l : Nat) (x : Option Lane) (s : State) : (s.setLane p l x).cav = s.cav := rfl
@[simp] theorem State.setLane_mrm (p l : Nat) (x : Option Lane) (s : State) : (s.setLane p l x).mrm = s.mrm := rfl
@[simp] theorem State.setLane_sns (p l : Nat) (x : Option Lane) (s : State) : (s.setLane p l x).sns = s.sns := rfl
@[simp] theorem State.setLane_loops (p l : Nat) (x : Option Lane) (s : State) : (s.setLane p l x).loops = s.loops := rfl
@[simp] theorem State.setLane_seif (p l : Nat) (x : Option Lane) (s : State) : (s.setLane p l x).seif = s.seif := rfl
@[simp] theorem State.setLane_uart (p l : Nat) (x : Option Lane) (s : State) : (s.setLane p l x).uart = s.uart := rfl
@[simp] theorem State.setLane_clk (p l : Nat) (x : Option Lane) (s : State) : (s.setLane p l x).clk = s.clk := rfl
@[simp] theorem State.setLane_sec (p l : Nat) (x : Option Lane) (s : State) : (s.setLane p l x).sec = s.sec := rfl
@[simp] theorem State.setLane_pending (p l : Nat) (x : Option Lane) (s : State) : (s.setLane p l x).pending = s.pending := rfl
@[simp] theorem State.setLane_reg (p l : Nat) (x : Option Lane) (s : State) (pg off : Nat) : (s.setLane p l x).reg pg off = s.reg pg off := rfl
@[simp] theorem State.setLane_get (p l : Nat) (x : Option Lane) (s : State) (pg : Nat) (fd : Fld) : (s.setLane p l x).get pg fd = s.get pg fd := rfl
@[simp] theorem State.setLane_flag (p l : Nat) (x : Option Lane) (s : State) (pg : Nat) (fd : Fld) : (s.setLane p l x).flag pg fd = s.flag pg fd := rfl

/-! ### State.setLpt changes `lpt` alone -/

@[simp] theorem State.setLpt_time (p : Nat) (x : LptSt) (s : State) : (s.setLpt p x).time = s.time := rfl
@[simp] theorem State.setLpt_free (p : Nat) (x : LptSt) (s : State) : (s.setLpt p x).free = s.free := rfl
@[simp] theorem State.setLpt_regs (p : Nat) (x : LptSt) (s : State) : (s.setLpt p x).regs = s.regs := rfl
@[simp] theorem State.setLpt_shadow (p : Nat) (x : LptSt) (s : State) : (s.setLpt p x).shadow = s.shadow := rfl
@[simp] theorem State.setLpt_snap (p : Nat) (x : LptSt) (s : State) : (s.setLpt p x).snap = s.snap := rfl
@[simp] theorem State.setLpt_dram (p : Nat) (x : LptSt) (s : State) : (s.setLpt p x).dram = s.dram := rfl
@[simp] theorem State.setLpt_host (p : Nat) (x : LptSt) (s : State) : (s.setLpt p x).host = s.host := rfl
@[simp] theorem State.setLpt_mtb (p : Nat) (x : LptSt) (s : State) : (s.setLpt p x).mtb = s.mtb := rfl
@[simp] theorem State.setLpt_txs (p : Nat) (x : LptSt) (s : State) : (s.setLpt p x).txs = s.txs := rfl
@[simp] theorem State.setLpt_wad (p : Nat) (x : LptSt) (s : State) : (s.setLpt p x).wad = s.wad := rfl
@[simp] theorem State.setLpt_mac (p : Nat) (x : LptSt) (s : State) : (s.setLpt p x).mac = s.mac := rfl
@[simp] theorem State.setLpt_oas (p : Nat) (x : LptSt) (s : State) : (s.setLpt p x).oas = s.oas := rfl
@[simp] theorem State.setLpt_erg (p : Nat) (x : LptSt) (s : State) : (s.setLpt p x).erg = s.erg := rfl
@[simp] theorem State.setLpt_trl (p : Nat) (x : LptSt) (s : State) : (s.setLpt p x).trl = s.trl := rfl
@[simp] theorem State.setLpt_mir (p : Nat) (x : LptSt) (s : State) : (s.setLpt p x).mir = s.mir := rfl
@[simp] theorem State.setLpt_nmap (p : Nat) (x : LptSt) (s : State) : (s.setLpt p x).nmap = s.nmap := rfl
@[simp] theorem State.setLpt_key (p : Nat) (x : LptSt) (s : State) : (s.setLpt p x).key = s.key := rfl
@[simp] theorem State.setLpt_lnk (p : Nat) (x : LptSt) (s : State) : (s.setLpt p x).lnk = s.lnk := rfl
@[simp] theorem State.setLpt_cav (p : Nat) (x : LptSt) (s : State) : (s.setLpt p x).cav = s.cav := rfl
@[simp] theorem State.setLpt_mrm (p : Nat) (x : LptSt) (s : State) : (s.setLpt p x).mrm = s.mrm := rfl
@[simp] theorem State.setLpt_sns (p : Nat) (x : LptSt) (s : State) : (s.setLpt p x).sns = s.sns := rfl
@[simp] theorem State.setLpt_loops (p : Nat) (x : LptSt) (s : State) : (s.setLpt p x).loops = s.loops := rfl
@[simp] theorem State.setLpt_seif (p : Nat) (x : LptSt) (s : State) : (s.setLpt p x).seif = s.seif := rfl
@[simp] theorem State.setLpt_uart (p : Nat) (x : LptSt) (s : State) : (s.setLpt p x).uart = s.uart := rfl
@[simp] theorem State.setLpt_clk (p : Nat) (x : LptSt) (s : State) : (s.setLpt p x).clk = s.clk := rfl
@[simp] theorem State.setLpt_sec (p : Nat) (x : LptSt) (s : State) : (s.setLpt p x).sec = s.sec := rfl
@[simp] theorem State.setLpt_pending (p : Nat) (x : LptSt) (s : State) : (s.setLpt p x).pending = s.pending := rfl
@[simp] theorem State.setLpt_reg (p : Nat) (x : LptSt) (s : State) (pg off : Nat) : (s.setLpt p x).reg pg off = s.reg pg off := rfl
@[simp] theorem State.setLpt_get (p : Nat) (x : LptSt) (s : State) (pg : Nat) (fd : Fld) : (s.setLpt p x).get pg fd = s.get pg fd := rfl
@[simp] theorem State.setLpt_flag (p : Nat) (x : LptSt) (s : State) (pg : Nat) (fd : Fld) : (s.setLpt p x).flag pg fd = s.flag pg fd := rfl

/-! ### State.modOas changes `oas` alone -/

@[simp] theorem State.modOas_time (f : OasSt → OasSt) (s : State) : (s.modOas f).time = s.time := rfl
@[simp] theorem State.modOas_free (f : OasSt → OasSt) (s : State) : (s.modOas f).free = s.free := rfl
@[simp] theorem State.modOas_regs (f : OasSt → OasSt) (s : State) : (s.modOas f).regs = s.regs := rfl
@[simp] theorem State.modOas_shadow (f : OasSt → OasSt) (s : State) : (s.modOas f).shadow = s.shadow := rfl
@[simp] theorem State.modOas_snap (f : OasSt → OasSt) (s : State) : (s.modOas f).snap = s.snap := rfl
@[simp] theorem State.modOas_dram (f : OasSt → OasSt) (s : State) : (s.modOas f).dram = s.dram := rfl
@[simp] theorem State.modOas_host (f : OasSt → OasSt) (s : State) : (s.modOas f).host = s.host := rfl
@[simp] theorem State.modOas_mtb (f : OasSt → OasSt) (s : State) : (s.modOas f).mtb = s.mtb := rfl
@[simp] theorem State.modOas_lpt (f : OasSt → OasSt) (s : State) : (s.modOas f).lpt = s.lpt := rfl
@[simp] theorem State.modOas_txs (f : OasSt → OasSt) (s : State) : (s.modOas f).txs = s.txs := rfl
@[simp] theorem State.modOas_wad (f : OasSt → OasSt) (s : State) : (s.modOas f).wad = s.wad := rfl
@[simp] theorem State.modOas_mac (f : OasSt → OasSt) (s : State) : (s.modOas f).mac = s.mac := rfl
@[simp] theorem State.modOas_erg (f : OasSt → OasSt) (s : State) : (s.modOas f).erg = s.erg := rfl
@[simp] theorem State.modOas_trl (f : OasSt → OasSt) (s : State) : (s.modOas f).trl = s.trl := rfl
@[simp] theorem State.modOas_mir (f : OasSt → OasSt) (s : State) : (s.modOas f).mir = s.mir := rfl
@[simp] theorem State.modOas_nmap (f : OasSt → OasSt) (s : State) : (s.modOas f).nmap = s.nmap := rfl
@[simp] theorem State.modOas_key (f : OasSt → OasSt) (s : State) : (s.modOas f).key = s.key := rfl
@[simp] theorem State.modOas_lnk (f : OasSt → OasSt) (s : State) : (s.modOas f).lnk = s.lnk := rfl
@[simp] theorem State.modOas_cav (f : OasSt → OasSt) (s : State) : (s.modOas f).cav = s.cav := rfl
@[simp] theorem State.modOas_mrm (f : OasSt → OasSt) (s : State) : (s.modOas f).mrm = s.mrm := rfl
@[simp] theorem State.modOas_sns (f : OasSt → OasSt) (s : State) : (s.modOas f).sns = s.sns := rfl
@[simp] theorem State.modOas_loops (f : OasSt → OasSt) (s : State) : (s.modOas f).loops = s.loops := rfl
@[simp] theorem State.modOas_seif (f : OasSt → OasSt) (s : State) : (s.modOas f).seif = s.seif := rfl
@[simp] theorem State.modOas_uart (f : OasSt → OasSt) (s : State) : (s.modOas f).uart = s.uart := rfl
@[simp] theorem State.modOas_clk (f : OasSt → OasSt) (s : State) : (s.modOas f).clk = s.clk := rfl
@[simp] theorem State.modOas_sec (f : OasSt → OasSt) (s : State) : (s.modOas f).sec = s.sec := rfl
@[simp] theorem State.modOas_pending (f : OasSt → OasSt) (s : State) : (s.modOas f).pending = s.pending := rfl
@[simp] theorem State.modOas_reg (f : OasSt → OasSt) (s : State) (pg off : Nat) : (s.modOas f).reg pg off = s.reg pg off := rfl
@[simp] theorem State.modOas_get (f : OasSt → OasSt) (s : State) (pg : Nat) (fd : Fld) : (s.modOas f).get pg fd = s.get pg fd := rfl
@[simp] theorem State.modOas_flag (f : OasSt → OasSt) (s : State) (pg : Nat) (fd : Fld) : (s.modOas f).flag pg fd = s.flag pg fd := rfl

/-! ### State.atTick changes `time` alone -/

@[simp] theorem State.atTick_free (t : Nat) (s : State) : (s.atTick t).free = s.free := rfl
@[simp] theorem State.atTick_regs (t : Nat) (s : State) : (s.atTick t).regs = s.regs := rfl
@[simp] theorem State.atTick_shadow (t : Nat) (s : State) : (s.atTick t).shadow = s.shadow := rfl
@[simp] theorem State.atTick_snap (t : Nat) (s : State) : (s.atTick t).snap = s.snap := rfl
@[simp] theorem State.atTick_dram (t : Nat) (s : State) : (s.atTick t).dram = s.dram := rfl
@[simp] theorem State.atTick_host (t : Nat) (s : State) : (s.atTick t).host = s.host := rfl
@[simp] theorem State.atTick_mtb (t : Nat) (s : State) : (s.atTick t).mtb = s.mtb := rfl
@[simp] theorem State.atTick_lpt (t : Nat) (s : State) : (s.atTick t).lpt = s.lpt := rfl
@[simp] theorem State.atTick_txs (t : Nat) (s : State) : (s.atTick t).txs = s.txs := rfl
@[simp] theorem State.atTick_wad (t : Nat) (s : State) : (s.atTick t).wad = s.wad := rfl
@[simp] theorem State.atTick_mac (t : Nat) (s : State) : (s.atTick t).mac = s.mac := rfl
@[simp] theorem State.atTick_oas (t : Nat) (s : State) : (s.atTick t).oas = s.oas := rfl
@[simp] theorem State.atTick_erg (t : Nat) (s : State) : (s.atTick t).erg = s.erg := rfl
@[simp] theorem State.atTick_trl (t : Nat) (s : State) : (s.atTick t).trl = s.trl := rfl
@[simp] theorem State.atTick_mir (t : Nat) (s : State) : (s.atTick t).mir = s.mir := rfl
@[simp] theorem State.atTick_nmap (t : Nat) (s : State) : (s.atTick t).nmap = s.nmap := rfl
@[simp] theorem State.atTick_key (t : Nat) (s : State) : (s.atTick t).key = s.key := rfl
@[simp] theorem State.atTick_lnk (t : Nat) (s : State) : (s.atTick t).lnk = s.lnk := rfl
@[simp] theorem State.atTick_cav (t : Nat) (s : State) : (s.atTick t).cav = s.cav := rfl
@[simp] theorem State.atTick_mrm (t : Nat) (s : State) : (s.atTick t).mrm = s.mrm := rfl
@[simp] theorem State.atTick_sns (t : Nat) (s : State) : (s.atTick t).sns = s.sns := rfl
@[simp] theorem State.atTick_loops (t : Nat) (s : State) : (s.atTick t).loops = s.loops := rfl
@[simp] theorem State.atTick_seif (t : Nat) (s : State) : (s.atTick t).seif = s.seif := rfl
@[simp] theorem State.atTick_uart (t : Nat) (s : State) : (s.atTick t).uart = s.uart := rfl
@[simp] theorem State.atTick_clk (t : Nat) (s : State) : (s.atTick t).clk = s.clk := rfl
@[simp] theorem State.atTick_sec (t : Nat) (s : State) : (s.atTick t).sec = s.sec := rfl
@[simp] theorem State.atTick_pending (t : Nat) (s : State) : (s.atTick t).pending = s.pending := rfl
@[simp] theorem State.atTick_reg (t : Nat) (s : State) (pg off : Nat) : (s.atTick t).reg pg off = s.reg pg off := rfl
@[simp] theorem State.atTick_get (t : Nat) (s : State) (pg : Nat) (fd : Fld) : (s.atTick t).get pg fd = s.get pg fd := rfl
@[simp] theorem State.atTick_flag (t : Nat) (s : State) (pg : Nat) (fd : Fld) : (s.atTick t).flag pg fd = s.flag pg fd := rfl

/-! ### State.dramStore changes `dram` alone -/

@[simp] theorem State.dramStore_time (a : Nat) (bs : List Byte) (s : State) : (s.dramStore a bs).time = s.time := rfl
@[simp] theorem State.dramStore_free (a : Nat) (bs : List Byte) (s : State) : (s.dramStore a bs).free = s.free := rfl
@[simp] theorem State.dramStore_regs (a : Nat) (bs : List Byte) (s : State) : (s.dramStore a bs).regs = s.regs := rfl
@[simp] theorem State.dramStore_shadow (a : Nat) (bs : List Byte) (s : State) : (s.dramStore a bs).shadow = s.shadow := rfl
@[simp] theorem State.dramStore_snap (a : Nat) (bs : List Byte) (s : State) : (s.dramStore a bs).snap = s.snap := rfl
@[simp] theorem State.dramStore_host (a : Nat) (bs : List Byte) (s : State) : (s.dramStore a bs).host = s.host := rfl
@[simp] theorem State.dramStore_mtb (a : Nat) (bs : List Byte) (s : State) : (s.dramStore a bs).mtb = s.mtb := rfl
@[simp] theorem State.dramStore_lpt (a : Nat) (bs : List Byte) (s : State) : (s.dramStore a bs).lpt = s.lpt := rfl
@[simp] theorem State.dramStore_txs (a : Nat) (bs : List Byte) (s : State) : (s.dramStore a bs).txs = s.txs := rfl
@[simp] theorem State.dramStore_wad (a : Nat) (bs : List Byte) (s : State) : (s.dramStore a bs).wad = s.wad := rfl
@[simp] theorem State.dramStore_mac (a : Nat) (bs : List Byte) (s : State) : (s.dramStore a bs).mac = s.mac := rfl
@[simp] theorem State.dramStore_oas (a : Nat) (bs : List Byte) (s : State) : (s.dramStore a bs).oas = s.oas := rfl
@[simp] theorem State.dramStore_erg (a : Nat) (bs : List Byte) (s : State) : (s.dramStore a bs).erg = s.erg := rfl
@[simp] theorem State.dramStore_trl (a : Nat) (bs : List Byte) (s : State) : (s.dramStore a bs).trl = s.trl := rfl
@[simp] theorem State.dramStore_mir (a : Nat) (bs : List Byte) (s : State) : (s.dramStore a bs).mir = s.mir := rfl
@[simp] theorem State.dramStore_nmap (a : Nat) (bs : List Byte) (s : State) : (s.dramStore a bs).nmap = s.nmap := rfl
@[simp] theorem State.dramStore_key (a : Nat) (bs : List Byte) (s : State) : (s.dramStore a bs).key = s.key := rfl
@[simp] theorem State.dramStore_lnk (a : Nat) (bs : List Byte) (s : State) : (s.dramStore a bs).lnk = s.lnk := rfl
@[simp] theorem State.dramStore_cav (a : Nat) (bs : List Byte) (s : State) : (s.dramStore a bs).cav = s.cav := rfl
@[simp] theorem State.dramStore_mrm (a : Nat) (bs : List Byte) (s : State) : (s.dramStore a bs).mrm = s.mrm := rfl
@[simp] theorem State.dramStore_sns (a : Nat) (bs : List Byte) (s : State) : (s.dramStore a bs).sns = s.sns := rfl
@[simp] theorem State.dramStore_loops (a : Nat) (bs : List Byte) (s : State) : (s.dramStore a bs).loops = s.loops := rfl
@[simp] theorem State.dramStore_seif (a : Nat) (bs : List Byte) (s : State) : (s.dramStore a bs).seif = s.seif := rfl
@[simp] theorem State.dramStore_uart (a : Nat) (bs : List Byte) (s : State) : (s.dramStore a bs).uart = s.uart := rfl
@[simp] theorem State.dramStore_clk (a : Nat) (bs : List Byte) (s : State) : (s.dramStore a bs).clk = s.clk := rfl
@[simp] theorem State.dramStore_sec (a : Nat) (bs : List Byte) (s : State) : (s.dramStore a bs).sec = s.sec := rfl
@[simp] theorem State.dramStore_pending (a : Nat) (bs : List Byte) (s : State) : (s.dramStore a bs).pending = s.pending := rfl
@[simp] theorem State.dramStore_reg (a : Nat) (bs : List Byte) (s : State) (pg off : Nat) : (s.dramStore a bs).reg pg off = s.reg pg off := rfl
@[simp] theorem State.dramStore_get (a : Nat) (bs : List Byte) (s : State) (pg : Nat) (fd : Fld) : (s.dramStore a bs).get pg fd = s.get pg fd := rfl
@[simp] theorem State.dramStore_flag (a : Nat) (bs : List Byte) (s : State) (pg : Nat) (fd : Fld) : (s.dramStore a bs).flag pg fd = s.flag pg fd := rfl

/-! ### State.pushRx changes `key` alone -/

@[simp] theorem State.pushRx_time (x : RxCopy) (s : State) : (s.pushRx x).time = s.time := rfl
@[simp] theorem State.pushRx_free (x : RxCopy) (s : State) : (s.pushRx x).free = s.free := rfl
@[simp] theorem State.pushRx_regs (x : RxCopy) (s : State) : (s.pushRx x).regs = s.regs := rfl
@[simp] theorem State.pushRx_shadow (x : RxCopy) (s : State) : (s.pushRx x).shadow = s.shadow := rfl
@[simp] theorem State.pushRx_snap (x : RxCopy) (s : State) : (s.pushRx x).snap = s.snap := rfl
@[simp] theorem State.pushRx_dram (x : RxCopy) (s : State) : (s.pushRx x).dram = s.dram := rfl
@[simp] theorem State.pushRx_host (x : RxCopy) (s : State) : (s.pushRx x).host = s.host := rfl
@[simp] theorem State.pushRx_mtb (x : RxCopy) (s : State) : (s.pushRx x).mtb = s.mtb := rfl
@[simp] theorem State.pushRx_lpt (x : RxCopy) (s : State) : (s.pushRx x).lpt = s.lpt := rfl
@[simp] theorem State.pushRx_txs (x : RxCopy) (s : State) : (s.pushRx x).txs = s.txs := rfl
@[simp] theorem State.pushRx_wad (x : RxCopy) (s : State) : (s.pushRx x).wad = s.wad := rfl
@[simp] theorem State.pushRx_mac (x : RxCopy) (s : State) : (s.pushRx x).mac = s.mac := rfl
@[simp] theorem State.pushRx_oas (x : RxCopy) (s : State) : (s.pushRx x).oas = s.oas := rfl
@[simp] theorem State.pushRx_erg (x : RxCopy) (s : State) : (s.pushRx x).erg = s.erg := rfl
@[simp] theorem State.pushRx_trl (x : RxCopy) (s : State) : (s.pushRx x).trl = s.trl := rfl
@[simp] theorem State.pushRx_mir (x : RxCopy) (s : State) : (s.pushRx x).mir = s.mir := rfl
@[simp] theorem State.pushRx_nmap (x : RxCopy) (s : State) : (s.pushRx x).nmap = s.nmap := rfl
@[simp] theorem State.pushRx_lnk (x : RxCopy) (s : State) : (s.pushRx x).lnk = s.lnk := rfl
@[simp] theorem State.pushRx_cav (x : RxCopy) (s : State) : (s.pushRx x).cav = s.cav := rfl
@[simp] theorem State.pushRx_mrm (x : RxCopy) (s : State) : (s.pushRx x).mrm = s.mrm := rfl
@[simp] theorem State.pushRx_sns (x : RxCopy) (s : State) : (s.pushRx x).sns = s.sns := rfl
@[simp] theorem State.pushRx_loops (x : RxCopy) (s : State) : (s.pushRx x).loops = s.loops := rfl
@[simp] theorem State.pushRx_seif (x : RxCopy) (s : State) : (s.pushRx x).seif = s.seif := rfl
@[simp] theorem State.pushRx_uart (x : RxCopy) (s : State) : (s.pushRx x).uart = s.uart := rfl
@[simp] theorem State.pushRx_clk (x : RxCopy) (s : State) : (s.pushRx x).clk = s.clk := rfl
@[simp] theorem State.pushRx_sec (x : RxCopy) (s : State) : (s.pushRx x).sec = s.sec := rfl
@[simp] theorem State.pushRx_pending (x : RxCopy) (s : State) : (s.pushRx x).pending = s.pending := rfl
@[simp] theorem State.pushRx_reg (x : RxCopy) (s : State) (pg off : Nat) : (s.pushRx x).reg pg off = s.reg pg off := rfl
@[simp] theorem State.pushRx_get (x : RxCopy) (s : State) (pg : Nat) (fd : Fld) : (s.pushRx x).get pg fd = s.get pg fd := rfl
@[simp] theorem State.pushRx_flag (x : RxCopy) (s : State) (pg : Nat) (fd : Fld) : (s.pushRx x).flag pg fd = s.flag pg fd := rfl

/-! ### State.setRunning changes `mir` alone -/

@[simp] theorem State.setRunning_time (c : Nat) (j : Option RJob) (s : State) : (s.setRunning c j).time = s.time := rfl
@[simp] theorem State.setRunning_free (c : Nat) (j : Option RJob) (s : State) : (s.setRunning c j).free = s.free := rfl
@[simp] theorem State.setRunning_regs (c : Nat) (j : Option RJob) (s : State) : (s.setRunning c j).regs = s.regs := rfl
@[simp] theorem State.setRunning_shadow (c : Nat) (j : Option RJob) (s : State) : (s.setRunning c j).shadow = s.shadow := rfl
@[simp] theorem State.setRunning_snap (c : Nat) (j : Option RJob) (s : State) : (s.setRunning c j).snap = s.snap := rfl
@[simp] theorem State.setRunning_dram (c : Nat) (j : Option RJob) (s : State) : (s.setRunning c j).dram = s.dram := rfl
@[simp] theorem State.setRunning_host (c : Nat) (j : Option RJob) (s : State) : (s.setRunning c j).host = s.host := rfl
@[simp] theorem State.setRunning_mtb (c : Nat) (j : Option RJob) (s : State) : (s.setRunning c j).mtb = s.mtb := rfl
@[simp] theorem State.setRunning_lpt (c : Nat) (j : Option RJob) (s : State) : (s.setRunning c j).lpt = s.lpt := rfl
@[simp] theorem State.setRunning_txs (c : Nat) (j : Option RJob) (s : State) : (s.setRunning c j).txs = s.txs := rfl
@[simp] theorem State.setRunning_wad (c : Nat) (j : Option RJob) (s : State) : (s.setRunning c j).wad = s.wad := rfl
@[simp] theorem State.setRunning_mac (c : Nat) (j : Option RJob) (s : State) : (s.setRunning c j).mac = s.mac := rfl
@[simp] theorem State.setRunning_oas (c : Nat) (j : Option RJob) (s : State) : (s.setRunning c j).oas = s.oas := rfl
@[simp] theorem State.setRunning_erg (c : Nat) (j : Option RJob) (s : State) : (s.setRunning c j).erg = s.erg := rfl
@[simp] theorem State.setRunning_trl (c : Nat) (j : Option RJob) (s : State) : (s.setRunning c j).trl = s.trl := rfl
@[simp] theorem State.setRunning_nmap (c : Nat) (j : Option RJob) (s : State) : (s.setRunning c j).nmap = s.nmap := rfl
@[simp] theorem State.setRunning_key (c : Nat) (j : Option RJob) (s : State) : (s.setRunning c j).key = s.key := rfl
@[simp] theorem State.setRunning_lnk (c : Nat) (j : Option RJob) (s : State) : (s.setRunning c j).lnk = s.lnk := rfl
@[simp] theorem State.setRunning_cav (c : Nat) (j : Option RJob) (s : State) : (s.setRunning c j).cav = s.cav := rfl
@[simp] theorem State.setRunning_mrm (c : Nat) (j : Option RJob) (s : State) : (s.setRunning c j).mrm = s.mrm := rfl
@[simp] theorem State.setRunning_sns (c : Nat) (j : Option RJob) (s : State) : (s.setRunning c j).sns = s.sns := rfl
@[simp] theorem State.setRunning_loops (c : Nat) (j : Option RJob) (s : State) : (s.setRunning c j).loops = s.loops := rfl
@[simp] theorem State.setRunning_seif (c : Nat) (j : Option RJob) (s : State) : (s.setRunning c j).seif = s.seif := rfl
@[simp] theorem State.setRunning_uart (c : Nat) (j : Option RJob) (s : State) : (s.setRunning c j).uart = s.uart := rfl
@[simp] theorem State.setRunning_clk (c : Nat) (j : Option RJob) (s : State) : (s.setRunning c j).clk = s.clk := rfl
@[simp] theorem State.setRunning_sec (c : Nat) (j : Option RJob) (s : State) : (s.setRunning c j).sec = s.sec := rfl
@[simp] theorem State.setRunning_pending (c : Nat) (j : Option RJob) (s : State) : (s.setRunning c j).pending = s.pending := rfl
@[simp] theorem State.setRunning_reg (c : Nat) (j : Option RJob) (s : State) (pg off : Nat) : (s.setRunning c j).reg pg off = s.reg pg off := rfl
@[simp] theorem State.setRunning_get (c : Nat) (j : Option RJob) (s : State) (pg : Nat) (fd : Fld) : (s.setRunning c j).get pg fd = s.get pg fd := rfl
@[simp] theorem State.setRunning_flag (c : Nat) (j : Option RJob) (s : State) (pg : Nat) (fd : Fld) : (s.setRunning c j).flag pg fd = s.flag pg fd := rfl

/-! ### State.setSlot changes `mir` alone -/

@[simp] theorem State.setSlot_time (i : Nat) (x : Option Slot) (s : State) : (s.setSlot i x).time = s.time := rfl
@[simp] theorem State.setSlot_free (i : Nat) (x : Option Slot) (s : State) : (s.setSlot i x).free = s.free := rfl
@[simp] theorem State.setSlot_regs (i : Nat) (x : Option Slot) (s : State) : (s.setSlot i x).regs = s.regs := rfl
@[simp] theorem State.setSlot_shadow (i : Nat) (x : Option Slot) (s : State) : (s.setSlot i x).shadow = s.shadow := rfl
@[simp] theorem State.setSlot_snap (i : Nat) (x : Option Slot) (s : State) : (s.setSlot i x).snap = s.snap := rfl
@[simp] theorem State.setSlot_dram (i : Nat) (x : Option Slot) (s : State) : (s.setSlot i x).dram = s.dram := rfl
@[simp] theorem State.setSlot_host (i : Nat) (x : Option Slot) (s : State) : (s.setSlot i x).host = s.host := rfl
@[simp] theorem State.setSlot_mtb (i : Nat) (x : Option Slot) (s : State) : (s.setSlot i x).mtb = s.mtb := rfl
@[simp] theorem State.setSlot_lpt (i : Nat) (x : Option Slot) (s : State) : (s.setSlot i x).lpt = s.lpt := rfl
@[simp] theorem State.setSlot_txs (i : Nat) (x : Option Slot) (s : State) : (s.setSlot i x).txs = s.txs := rfl
@[simp] theorem State.setSlot_wad (i : Nat) (x : Option Slot) (s : State) : (s.setSlot i x).wad = s.wad := rfl
@[simp] theorem State.setSlot_mac (i : Nat) (x : Option Slot) (s : State) : (s.setSlot i x).mac = s.mac := rfl
@[simp] theorem State.setSlot_oas (i : Nat) (x : Option Slot) (s : State) : (s.setSlot i x).oas = s.oas := rfl
@[simp] theorem State.setSlot_erg (i : Nat) (x : Option Slot) (s : State) : (s.setSlot i x).erg = s.erg := rfl
@[simp] theorem State.setSlot_trl (i : Nat) (x : Option Slot) (s : State) : (s.setSlot i x).trl = s.trl := rfl
@[simp] theorem State.setSlot_nmap (i : Nat) (x : Option Slot) (s : State) : (s.setSlot i x).nmap = s.nmap := rfl
@[simp] theorem State.setSlot_key (i : Nat) (x : Option Slot) (s : State) : (s.setSlot i x).key = s.key := rfl
@[simp] theorem State.setSlot_lnk (i : Nat) (x : Option Slot) (s : State) : (s.setSlot i x).lnk = s.lnk := rfl
@[simp] theorem State.setSlot_cav (i : Nat) (x : Option Slot) (s : State) : (s.setSlot i x).cav = s.cav := rfl
@[simp] theorem State.setSlot_mrm (i : Nat) (x : Option Slot) (s : State) : (s.setSlot i x).mrm = s.mrm := rfl
@[simp] theorem State.setSlot_sns (i : Nat) (x : Option Slot) (s : State) : (s.setSlot i x).sns = s.sns := rfl
@[simp] theorem State.setSlot_loops (i : Nat) (x : Option Slot) (s : State) : (s.setSlot i x).loops = s.loops := rfl
@[simp] theorem State.setSlot_seif (i : Nat) (x : Option Slot) (s : State) : (s.setSlot i x).seif = s.seif := rfl
@[simp] theorem State.setSlot_uart (i : Nat) (x : Option Slot) (s : State) : (s.setSlot i x).uart = s.uart := rfl
@[simp] theorem State.setSlot_clk (i : Nat) (x : Option Slot) (s : State) : (s.setSlot i x).clk = s.clk := rfl
@[simp] theorem State.setSlot_sec (i : Nat) (x : Option Slot) (s : State) : (s.setSlot i x).sec = s.sec := rfl
@[simp] theorem State.setSlot_pending (i : Nat) (x : Option Slot) (s : State) : (s.setSlot i x).pending = s.pending := rfl
@[simp] theorem State.setSlot_reg (i : Nat) (x : Option Slot) (s : State) (pg off : Nat) : (s.setSlot i x).reg pg off = s.reg pg off := rfl
@[simp] theorem State.setSlot_get (i : Nat) (x : Option Slot) (s : State) (pg : Nat) (fd : Fld) : (s.setSlot i x).get pg fd = s.get pg fd := rfl
@[simp] theorem State.setSlot_flag (i : Nat) (x : Option Slot) (s : State) (pg : Nat) (fd : Fld) : (s.setSlot i x).flag pg fd = s.flag pg fd := rfl

/-! ### State.setCore changes `seif` alone -/

@[simp] theorem State.setCore_time (k : Nat) (c : SeifCore) (s : State) : (s.setCore k c).time = s.time := rfl
@[simp] theorem State.setCore_free (k : Nat) (c : SeifCore) (s : State) : (s.setCore k c).free = s.free := rfl
@[simp] theorem State.setCore_regs (k : Nat) (c : SeifCore) (s : State) : (s.setCore k c).regs = s.regs := rfl
@[simp] theorem State.setCore_shadow (k : Nat) (c : SeifCore) (s : State) : (s.setCore k c).shadow = s.shadow := rfl
@[simp] theorem State.setCore_snap (k : Nat) (c : SeifCore) (s : State) : (s.setCore k c).snap = s.snap := rfl
@[simp] theorem State.setCore_dram (k : Nat) (c : SeifCore) (s : State) : (s.setCore k c).dram = s.dram := rfl
@[simp] theorem State.setCore_host (k : Nat) (c : SeifCore) (s : State) : (s.setCore k c).host = s.host := rfl
@[simp] theorem State.setCore_mtb (k : Nat) (c : SeifCore) (s : State) : (s.setCore k c).mtb = s.mtb := rfl
@[simp] theorem State.setCore_lpt (k : Nat) (c : SeifCore) (s : State) : (s.setCore k c).lpt = s.lpt := rfl
@[simp] theorem State.setCore_txs (k : Nat) (c : SeifCore) (s : State) : (s.setCore k c).txs = s.txs := rfl
@[simp] theorem State.setCore_wad (k : Nat) (c : SeifCore) (s : State) : (s.setCore k c).wad = s.wad := rfl
@[simp] theorem State.setCore_mac (k : Nat) (c : SeifCore) (s : State) : (s.setCore k c).mac = s.mac := rfl
@[simp] theorem State.setCore_oas (k : Nat) (c : SeifCore) (s : State) : (s.setCore k c).oas = s.oas := rfl
@[simp] theorem State.setCore_erg (k : Nat) (c : SeifCore) (s : State) : (s.setCore k c).erg = s.erg := rfl
@[simp] theorem State.setCore_trl (k : Nat) (c : SeifCore) (s : State) : (s.setCore k c).trl = s.trl := rfl
@[simp] theorem State.setCore_mir (k : Nat) (c : SeifCore) (s : State) : (s.setCore k c).mir = s.mir := rfl
@[simp] theorem State.setCore_nmap (k : Nat) (c : SeifCore) (s : State) : (s.setCore k c).nmap = s.nmap := rfl
@[simp] theorem State.setCore_key (k : Nat) (c : SeifCore) (s : State) : (s.setCore k c).key = s.key := rfl
@[simp] theorem State.setCore_lnk (k : Nat) (c : SeifCore) (s : State) : (s.setCore k c).lnk = s.lnk := rfl
@[simp] theorem State.setCore_cav (k : Nat) (c : SeifCore) (s : State) : (s.setCore k c).cav = s.cav := rfl
@[simp] theorem State.setCore_mrm (k : Nat) (c : SeifCore) (s : State) : (s.setCore k c).mrm = s.mrm := rfl
@[simp] theorem State.setCore_sns (k : Nat) (c : SeifCore) (s : State) : (s.setCore k c).sns = s.sns := rfl
@[simp] theorem State.setCore_loops (k : Nat) (c : SeifCore) (s : State) : (s.setCore k c).loops = s.loops := rfl
@[simp] theorem State.setCore_uart (k : Nat) (c : SeifCore) (s : State) : (s.setCore k c).uart = s.uart := rfl
@[simp] theorem State.setCore_clk (k : Nat) (c : SeifCore) (s : State) : (s.setCore k c).clk = s.clk := rfl
@[simp] theorem State.setCore_sec (k : Nat) (c : SeifCore) (s : State) : (s.setCore k c).sec = s.sec := rfl
@[simp] theorem State.setCore_pending (k : Nat) (c : SeifCore) (s : State) : (s.setCore k c).pending = s.pending := rfl
@[simp] theorem State.setCore_reg (k : Nat) (c : SeifCore) (s : State) (pg off : Nat) : (s.setCore k c).reg pg off = s.reg pg off := rfl
@[simp] theorem State.setCore_get (k : Nat) (c : SeifCore) (s : State) (pg : Nat) (fd : Fld) : (s.setCore k c).get pg fd = s.get pg fd := rfl
@[simp] theorem State.setCore_flag (k : Nat) (c : SeifCore) (s : State) (pg : Nat) (fd : Fld) : (s.setCore k c).flag pg fd = s.flag pg fd := rfl

/-! ### State.setSnsCh changes `sns` alone -/

@[simp] theorem State.setSnsCh_time (n : Nat) (c : SnsCh) (s : State) : (s.setSnsCh n c).time = s.time := rfl
@[simp] theorem State.setSnsCh_free (n : Nat) (c : SnsCh) (s : State) : (s.setSnsCh n c).free = s.free := rfl
@[simp] theorem State.setSnsCh_regs (n : Nat) (c : SnsCh) (s : State) : (s.setSnsCh n c).regs = s.regs := rfl
@[simp] theorem State.setSnsCh_shadow (n : Nat) (c : SnsCh) (s : State) : (s.setSnsCh n c).shadow = s.shadow := rfl
@[simp] theorem State.setSnsCh_snap (n : Nat) (c : SnsCh) (s : State) : (s.setSnsCh n c).snap = s.snap := rfl
@[simp] theorem State.setSnsCh_dram (n : Nat) (c : SnsCh) (s : State) : (s.setSnsCh n c).dram = s.dram := rfl
@[simp] theorem State.setSnsCh_host (n : Nat) (c : SnsCh) (s : State) : (s.setSnsCh n c).host = s.host := rfl
@[simp] theorem State.setSnsCh_mtb (n : Nat) (c : SnsCh) (s : State) : (s.setSnsCh n c).mtb = s.mtb := rfl
@[simp] theorem State.setSnsCh_lpt (n : Nat) (c : SnsCh) (s : State) : (s.setSnsCh n c).lpt = s.lpt := rfl
@[simp] theorem State.setSnsCh_txs (n : Nat) (c : SnsCh) (s : State) : (s.setSnsCh n c).txs = s.txs := rfl
@[simp] theorem State.setSnsCh_wad (n : Nat) (c : SnsCh) (s : State) : (s.setSnsCh n c).wad = s.wad := rfl
@[simp] theorem State.setSnsCh_mac (n : Nat) (c : SnsCh) (s : State) : (s.setSnsCh n c).mac = s.mac := rfl
@[simp] theorem State.setSnsCh_oas (n : Nat) (c : SnsCh) (s : State) : (s.setSnsCh n c).oas = s.oas := rfl
@[simp] theorem State.setSnsCh_erg (n : Nat) (c : SnsCh) (s : State) : (s.setSnsCh n c).erg = s.erg := rfl
@[simp] theorem State.setSnsCh_trl (n : Nat) (c : SnsCh) (s : State) : (s.setSnsCh n c).trl = s.trl := rfl
@[simp] theorem State.setSnsCh_mir (n : Nat) (c : SnsCh) (s : State) : (s.setSnsCh n c).mir = s.mir := rfl
@[simp] theorem State.setSnsCh_nmap (n : Nat) (c : SnsCh) (s : State) : (s.setSnsCh n c).nmap = s.nmap := rfl
@[simp] theorem State.setSnsCh_key (n : Nat) (c : SnsCh) (s : State) : (s.setSnsCh n c).key = s.key := rfl
@[simp] theorem State.setSnsCh_lnk (n : Nat) (c : SnsCh) (s : State) : (s.setSnsCh n c).lnk = s.lnk := rfl
@[simp] theorem State.setSnsCh_cav (n : Nat) (c : SnsCh) (s : State) : (s.setSnsCh n c).cav = s.cav := rfl
@[simp] theorem State.setSnsCh_mrm (n : Nat) (c : SnsCh) (s : State) : (s.setSnsCh n c).mrm = s.mrm := rfl
@[simp] theorem State.setSnsCh_loops (n : Nat) (c : SnsCh) (s : State) : (s.setSnsCh n c).loops = s.loops := rfl
@[simp] theorem State.setSnsCh_seif (n : Nat) (c : SnsCh) (s : State) : (s.setSnsCh n c).seif = s.seif := rfl
@[simp] theorem State.setSnsCh_uart (n : Nat) (c : SnsCh) (s : State) : (s.setSnsCh n c).uart = s.uart := rfl
@[simp] theorem State.setSnsCh_clk (n : Nat) (c : SnsCh) (s : State) : (s.setSnsCh n c).clk = s.clk := rfl
@[simp] theorem State.setSnsCh_sec (n : Nat) (c : SnsCh) (s : State) : (s.setSnsCh n c).sec = s.sec := rfl
@[simp] theorem State.setSnsCh_pending (n : Nat) (c : SnsCh) (s : State) : (s.setSnsCh n c).pending = s.pending := rfl
@[simp] theorem State.setSnsCh_reg (n : Nat) (c : SnsCh) (s : State) (pg off : Nat) : (s.setSnsCh n c).reg pg off = s.reg pg off := rfl
@[simp] theorem State.setSnsCh_get (n : Nat) (c : SnsCh) (s : State) (pg : Nat) (fd : Fld) : (s.setSnsCh n c).get pg fd = s.get pg fd := rfl
@[simp] theorem State.setSnsCh_flag (n : Nat) (c : SnsCh) (s : State) (pg : Nat) (fd : Fld) : (s.setSnsCh n c).flag pg fd = s.flag pg fd := rfl

/-! ### State.setSnsGrp changes `sns` alone -/

@[simp] theorem State.setSnsGrp_time (g : Nat) (x : SnsGrp) (s : State) : (s.setSnsGrp g x).time = s.time := rfl
@[simp] theorem State.setSnsGrp_free (g : Nat) (x : SnsGrp) (s : State) : (s.setSnsGrp g x).free = s.free := rfl
@[simp] theorem State.setSnsGrp_regs (g : Nat) (x : SnsGrp) (s : State) : (s.setSnsGrp g x).regs = s.regs := rfl
@[simp] theorem State.setSnsGrp_shadow (g : Nat) (x : SnsGrp) (s : State) : (s.setSnsGrp g x).shadow = s.shadow := rfl
@[simp] theorem State.setSnsGrp_snap (g : Nat) (x : SnsGrp) (s : State) : (s.setSnsGrp g x).snap = s.snap := rfl
@[simp] theorem State.setSnsGrp_dram (g : Nat) (x : SnsGrp) (s : State) : (s.setSnsGrp g x).dram = s.dram := rfl
@[simp] theorem State.setSnsGrp_host (g : Nat) (x : SnsGrp) (s : State) : (s.setSnsGrp g x).host = s.host := rfl
@[simp] theorem State.setSnsGrp_mtb (g : Nat) (x : SnsGrp) (s : State) : (s.setSnsGrp g x).mtb = s.mtb := rfl
@[simp] theorem State.setSnsGrp_lpt (g : Nat) (x : SnsGrp) (s : State) : (s.setSnsGrp g x).lpt = s.lpt := rfl
@[simp] theorem State.setSnsGrp_txs (g : Nat) (x : SnsGrp) (s : State) : (s.setSnsGrp g x).txs = s.txs := rfl
@[simp] theorem State.setSnsGrp_wad (g : Nat) (x : SnsGrp) (s : State) : (s.setSnsGrp g x).wad = s.wad := rfl
@[simp] theorem State.setSnsGrp_mac (g : Nat) (x : SnsGrp) (s : State) : (s.setSnsGrp g x).mac = s.mac := rfl
@[simp] theorem State.setSnsGrp_oas (g : Nat) (x : SnsGrp) (s : State) : (s.setSnsGrp g x).oas = s.oas := rfl
@[simp] theorem State.setSnsGrp_erg (g : Nat) (x : SnsGrp) (s : State) : (s.setSnsGrp g x).erg = s.erg := rfl
@[simp] theorem State.setSnsGrp_trl (g : Nat) (x : SnsGrp) (s : State) : (s.setSnsGrp g x).trl = s.trl := rfl
@[simp] theorem State.setSnsGrp_mir (g : Nat) (x : SnsGrp) (s : State) : (s.setSnsGrp g x).mir = s.mir := rfl
@[simp] theorem State.setSnsGrp_nmap (g : Nat) (x : SnsGrp) (s : State) : (s.setSnsGrp g x).nmap = s.nmap := rfl
@[simp] theorem State.setSnsGrp_key (g : Nat) (x : SnsGrp) (s : State) : (s.setSnsGrp g x).key = s.key := rfl
@[simp] theorem State.setSnsGrp_lnk (g : Nat) (x : SnsGrp) (s : State) : (s.setSnsGrp g x).lnk = s.lnk := rfl
@[simp] theorem State.setSnsGrp_cav (g : Nat) (x : SnsGrp) (s : State) : (s.setSnsGrp g x).cav = s.cav := rfl
@[simp] theorem State.setSnsGrp_mrm (g : Nat) (x : SnsGrp) (s : State) : (s.setSnsGrp g x).mrm = s.mrm := rfl
@[simp] theorem State.setSnsGrp_loops (g : Nat) (x : SnsGrp) (s : State) : (s.setSnsGrp g x).loops = s.loops := rfl
@[simp] theorem State.setSnsGrp_seif (g : Nat) (x : SnsGrp) (s : State) : (s.setSnsGrp g x).seif = s.seif := rfl
@[simp] theorem State.setSnsGrp_uart (g : Nat) (x : SnsGrp) (s : State) : (s.setSnsGrp g x).uart = s.uart := rfl
@[simp] theorem State.setSnsGrp_clk (g : Nat) (x : SnsGrp) (s : State) : (s.setSnsGrp g x).clk = s.clk := rfl
@[simp] theorem State.setSnsGrp_sec (g : Nat) (x : SnsGrp) (s : State) : (s.setSnsGrp g x).sec = s.sec := rfl
@[simp] theorem State.setSnsGrp_pending (g : Nat) (x : SnsGrp) (s : State) : (s.setSnsGrp g x).pending = s.pending := rfl
@[simp] theorem State.setSnsGrp_reg (g : Nat) (x : SnsGrp) (s : State) (pg off : Nat) : (s.setSnsGrp g x).reg pg off = s.reg pg off := rfl
@[simp] theorem State.setSnsGrp_get (g : Nat) (x : SnsGrp) (s : State) (pg : Nat) (fd : Fld) : (s.setSnsGrp g x).get pg fd = s.get pg fd := rfl
@[simp] theorem State.setSnsGrp_flag (g : Nat) (x : SnsGrp) (s : State) (pg : Nat) (fd : Fld) : (s.setSnsGrp g x).flag pg fd = s.flag pg fd := rfl

/-! ### State.setBlankPin changes `sns` alone -/

@[simp] theorem State.setBlankPin_time (k : Nat) (p : BlankPin) (s : State) : (s.setBlankPin k p).time = s.time := rfl
@[simp] theorem State.setBlankPin_free (k : Nat) (p : BlankPin) (s : State) : (s.setBlankPin k p).free = s.free := rfl
@[simp] theorem State.setBlankPin_regs (k : Nat) (p : BlankPin) (s : State) : (s.setBlankPin k p).regs = s.regs := rfl
@[simp] theorem State.setBlankPin_shadow (k : Nat) (p : BlankPin) (s : State) : (s.setBlankPin k p).shadow = s.shadow := rfl
@[simp] theorem State.setBlankPin_snap (k : Nat) (p : BlankPin) (s : State) : (s.setBlankPin k p).snap = s.snap := rfl
@[simp] theorem State.setBlankPin_dram (k : Nat) (p : BlankPin) (s : State) : (s.setBlankPin k p).dram = s.dram := rfl
@[simp] theorem State.setBlankPin_host (k : Nat) (p : BlankPin) (s : State) : (s.setBlankPin k p).host = s.host := rfl
@[simp] theorem State.setBlankPin_mtb (k : Nat) (p : BlankPin) (s : State) : (s.setBlankPin k p).mtb = s.mtb := rfl
@[simp] theorem State.setBlankPin_lpt (k : Nat) (p : BlankPin) (s : State) : (s.setBlankPin k p).lpt = s.lpt := rfl
@[simp] theorem State.setBlankPin_txs (k : Nat) (p : BlankPin) (s : State) : (s.setBlankPin k p).txs = s.txs := rfl
@[simp] theorem State.setBlankPin_wad (k : Nat) (p : BlankPin) (s : State) : (s.setBlankPin k p).wad = s.wad := rfl
@[simp] theorem State.setBlankPin_mac (k : Nat) (p : BlankPin) (s : State) : (s.setBlankPin k p).mac = s.mac := rfl
@[simp] theorem State.setBlankPin_oas (k : Nat) (p : BlankPin) (s : State) : (s.setBlankPin k p).oas = s.oas := rfl
@[simp] theorem State.setBlankPin_erg (k : Nat) (p : BlankPin) (s : State) : (s.setBlankPin k p).erg = s.erg := rfl
@[simp] theorem State.setBlankPin_trl (k : Nat) (p : BlankPin) (s : State) : (s.setBlankPin k p).trl = s.trl := rfl
@[simp] theorem State.setBlankPin_mir (k : Nat) (p : BlankPin) (s : State) : (s.setBlankPin k p).mir = s.mir := rfl
@[simp] theorem State.setBlankPin_nmap (k : Nat) (p : BlankPin) (s : State) : (s.setBlankPin k p).nmap = s.nmap := rfl
@[simp] theorem State.setBlankPin_key (k : Nat) (p : BlankPin) (s : State) : (s.setBlankPin k p).key = s.key := rfl
@[simp] theorem State.setBlankPin_lnk (k : Nat) (p : BlankPin) (s : State) : (s.setBlankPin k p).lnk = s.lnk := rfl
@[simp] theorem State.setBlankPin_cav (k : Nat) (p : BlankPin) (s : State) : (s.setBlankPin k p).cav = s.cav := rfl
@[simp] theorem State.setBlankPin_mrm (k : Nat) (p : BlankPin) (s : State) : (s.setBlankPin k p).mrm = s.mrm := rfl
@[simp] theorem State.setBlankPin_loops (k : Nat) (p : BlankPin) (s : State) : (s.setBlankPin k p).loops = s.loops := rfl
@[simp] theorem State.setBlankPin_seif (k : Nat) (p : BlankPin) (s : State) : (s.setBlankPin k p).seif = s.seif := rfl
@[simp] theorem State.setBlankPin_uart (k : Nat) (p : BlankPin) (s : State) : (s.setBlankPin k p).uart = s.uart := rfl
@[simp] theorem State.setBlankPin_clk (k : Nat) (p : BlankPin) (s : State) : (s.setBlankPin k p).clk = s.clk := rfl
@[simp] theorem State.setBlankPin_sec (k : Nat) (p : BlankPin) (s : State) : (s.setBlankPin k p).sec = s.sec := rfl
@[simp] theorem State.setBlankPin_pending (k : Nat) (p : BlankPin) (s : State) : (s.setBlankPin k p).pending = s.pending := rfl
@[simp] theorem State.setBlankPin_reg (k : Nat) (p : BlankPin) (s : State) (pg off : Nat) : (s.setBlankPin k p).reg pg off = s.reg pg off := rfl
@[simp] theorem State.setBlankPin_get (k : Nat) (p : BlankPin) (s : State) (pg : Nat) (fd : Fld) : (s.setBlankPin k p).get pg fd = s.get pg fd := rfl
@[simp] theorem State.setBlankPin_flag (k : Nat) (p : BlankPin) (s : State) (pg : Nat) (fd : Fld) : (s.setBlankPin k p).flag pg fd = s.flag pg fd := rfl

/-! ### State.setDetector changes `sns` alone -/

@[simp] theorem State.setDetector_time (k : Nat) (d : Detector) (s : State) : (s.setDetector k d).time = s.time := rfl
@[simp] theorem State.setDetector_free (k : Nat) (d : Detector) (s : State) : (s.setDetector k d).free = s.free := rfl
@[simp] theorem State.setDetector_regs (k : Nat) (d : Detector) (s : State) : (s.setDetector k d).regs = s.regs := rfl
@[simp] theorem State.setDetector_shadow (k : Nat) (d : Detector) (s : State) : (s.setDetector k d).shadow = s.shadow := rfl
@[simp] theorem State.setDetector_snap (k : Nat) (d : Detector) (s : State) : (s.setDetector k d).snap = s.snap := rfl
@[simp] theorem State.setDetector_dram (k : Nat) (d : Detector) (s : State) : (s.setDetector k d).dram = s.dram := rfl
@[simp] theorem State.setDetector_host (k : Nat) (d : Detector) (s : State) : (s.setDetector k d).host = s.host := rfl
@[simp] theorem State.setDetector_mtb (k : Nat) (d : Detector) (s : State) : (s.setDetector k d).mtb = s.mtb := rfl
@[simp] theorem State.setDetector_lpt (k : Nat) (d : Detector) (s : State) : (s.setDetector k d).lpt = s.lpt := rfl
@[simp] theorem State.setDetector_txs (k : Nat) (d : Detector) (s : State) : (s.setDetector k d).txs = s.txs := rfl
@[simp] theorem State.setDetector_wad (k : Nat) (d : Detector) (s : State) : (s.setDetector k d).wad = s.wad := rfl
@[simp] theorem State.setDetector_mac (k : Nat) (d : Detector) (s : State) : (s.setDetector k d).mac = s.mac := rfl
@[simp] theorem State.setDetector_oas (k : Nat) (d : Detector) (s : State) : (s.setDetector k d).oas = s.oas := rfl
@[simp] theorem State.setDetector_erg (k : Nat) (d : Detector) (s : State) : (s.setDetector k d).erg = s.erg := rfl
@[simp] theorem State.setDetector_trl (k : Nat) (d : Detector) (s : State) : (s.setDetector k d).trl = s.trl := rfl
@[simp] theorem State.setDetector_mir (k : Nat) (d : Detector) (s : State) : (s.setDetector k d).mir = s.mir := rfl
@[simp] theorem State.setDetector_nmap (k : Nat) (d : Detector) (s : State) : (s.setDetector k d).nmap = s.nmap := rfl
@[simp] theorem State.setDetector_key (k : Nat) (d : Detector) (s : State) : (s.setDetector k d).key = s.key := rfl
@[simp] theorem State.setDetector_lnk (k : Nat) (d : Detector) (s : State) : (s.setDetector k d).lnk = s.lnk := rfl
@[simp] theorem State.setDetector_cav (k : Nat) (d : Detector) (s : State) : (s.setDetector k d).cav = s.cav := rfl
@[simp] theorem State.setDetector_mrm (k : Nat) (d : Detector) (s : State) : (s.setDetector k d).mrm = s.mrm := rfl
@[simp] theorem State.setDetector_loops (k : Nat) (d : Detector) (s : State) : (s.setDetector k d).loops = s.loops := rfl
@[simp] theorem State.setDetector_seif (k : Nat) (d : Detector) (s : State) : (s.setDetector k d).seif = s.seif := rfl
@[simp] theorem State.setDetector_uart (k : Nat) (d : Detector) (s : State) : (s.setDetector k d).uart = s.uart := rfl
@[simp] theorem State.setDetector_clk (k : Nat) (d : Detector) (s : State) : (s.setDetector k d).clk = s.clk := rfl
@[simp] theorem State.setDetector_sec (k : Nat) (d : Detector) (s : State) : (s.setDetector k d).sec = s.sec := rfl
@[simp] theorem State.setDetector_pending (k : Nat) (d : Detector) (s : State) : (s.setDetector k d).pending = s.pending := rfl
@[simp] theorem State.setDetector_reg (k : Nat) (d : Detector) (s : State) (pg off : Nat) : (s.setDetector k d).reg pg off = s.reg pg off := rfl
@[simp] theorem State.setDetector_get (k : Nat) (d : Detector) (s : State) (pg : Nat) (fd : Fld) : (s.setDetector k d).get pg fd = s.get pg fd := rfl
@[simp] theorem State.setDetector_flag (k : Nat) (d : Detector) (s : State) (pg : Nat) (fd : Fld) : (s.setDetector k d).flag pg fd = s.flag pg fd := rfl

/-! ### State.setLoop changes `loops` alone -/

@[simp] theorem State.setLoop_time (n : Nat) (l : LoopCh) (s : State) : (s.setLoop n l).time = s.time := rfl
@[simp] theorem State.setLoop_free (n : Nat) (l : LoopCh) (s : State) : (s.setLoop n l).free = s.free := rfl
@[simp] theorem State.setLoop_regs (n : Nat) (l : LoopCh) (s : State) : (s.setLoop n l).regs = s.regs := rfl
@[simp] theorem State.setLoop_shadow (n : Nat) (l : LoopCh) (s : State) : (s.setLoop n l).shadow = s.shadow := rfl
@[simp] theorem State.setLoop_snap (n : Nat) (l : LoopCh) (s : State) : (s.setLoop n l).snap = s.snap := rfl
@[simp] theorem State.setLoop_dram (n : Nat) (l : LoopCh) (s : State) : (s.setLoop n l).dram = s.dram := rfl
@[simp] theorem State.setLoop_host (n : Nat) (l : LoopCh) (s : State) : (s.setLoop n l).host = s.host := rfl
@[simp] theorem State.setLoop_mtb (n : Nat) (l : LoopCh) (s : State) : (s.setLoop n l).mtb = s.mtb := rfl
@[simp] theorem State.setLoop_lpt (n : Nat) (l : LoopCh) (s : State) : (s.setLoop n l).lpt = s.lpt := rfl
@[simp] theorem State.setLoop_txs (n : Nat) (l : LoopCh) (s : State) : (s.setLoop n l).txs = s.txs := rfl
@[simp] theorem State.setLoop_wad (n : Nat) (l : LoopCh) (s : State) : (s.setLoop n l).wad = s.wad := rfl
@[simp] theorem State.setLoop_mac (n : Nat) (l : LoopCh) (s : State) : (s.setLoop n l).mac = s.mac := rfl
@[simp] theorem State.setLoop_oas (n : Nat) (l : LoopCh) (s : State) : (s.setLoop n l).oas = s.oas := rfl
@[simp] theorem State.setLoop_erg (n : Nat) (l : LoopCh) (s : State) : (s.setLoop n l).erg = s.erg := rfl
@[simp] theorem State.setLoop_trl (n : Nat) (l : LoopCh) (s : State) : (s.setLoop n l).trl = s.trl := rfl
@[simp] theorem State.setLoop_mir (n : Nat) (l : LoopCh) (s : State) : (s.setLoop n l).mir = s.mir := rfl
@[simp] theorem State.setLoop_nmap (n : Nat) (l : LoopCh) (s : State) : (s.setLoop n l).nmap = s.nmap := rfl
@[simp] theorem State.setLoop_key (n : Nat) (l : LoopCh) (s : State) : (s.setLoop n l).key = s.key := rfl
@[simp] theorem State.setLoop_lnk (n : Nat) (l : LoopCh) (s : State) : (s.setLoop n l).lnk = s.lnk := rfl
@[simp] theorem State.setLoop_cav (n : Nat) (l : LoopCh) (s : State) : (s.setLoop n l).cav = s.cav := rfl
@[simp] theorem State.setLoop_mrm (n : Nat) (l : LoopCh) (s : State) : (s.setLoop n l).mrm = s.mrm := rfl
@[simp] theorem State.setLoop_sns (n : Nat) (l : LoopCh) (s : State) : (s.setLoop n l).sns = s.sns := rfl
@[simp] theorem State.setLoop_seif (n : Nat) (l : LoopCh) (s : State) : (s.setLoop n l).seif = s.seif := rfl
@[simp] theorem State.setLoop_uart (n : Nat) (l : LoopCh) (s : State) : (s.setLoop n l).uart = s.uart := rfl
@[simp] theorem State.setLoop_clk (n : Nat) (l : LoopCh) (s : State) : (s.setLoop n l).clk = s.clk := rfl
@[simp] theorem State.setLoop_sec (n : Nat) (l : LoopCh) (s : State) : (s.setLoop n l).sec = s.sec := rfl
@[simp] theorem State.setLoop_pending (n : Nat) (l : LoopCh) (s : State) : (s.setLoop n l).pending = s.pending := rfl
@[simp] theorem State.setLoop_reg (n : Nat) (l : LoopCh) (s : State) (pg off : Nat) : (s.setLoop n l).reg pg off = s.reg pg off := rfl
@[simp] theorem State.setLoop_get (n : Nat) (l : LoopCh) (s : State) (pg : Nat) (fd : Fld) : (s.setLoop n l).get pg fd = s.get pg fd := rfl
@[simp] theorem State.setLoop_flag (n : Nat) (l : LoopCh) (s : State) (pg : Nat) (fd : Fld) : (s.setLoop n l).flag pg fd = s.flag pg fd := rfl

/-! ### State.modCav changes `cav` alone -/

@[simp] theorem State.modCav_time (f : CavSt → CavSt) (s : State) : (s.modCav f).time = s.time := rfl
@[simp] theorem State.modCav_free (f : CavSt → CavSt) (s : State) : (s.modCav f).free = s.free := rfl
@[simp] theorem State.modCav_regs (f : CavSt → CavSt) (s : State) : (s.modCav f).regs = s.regs := rfl
@[simp] theorem State.modCav_shadow (f : CavSt → CavSt) (s : State) : (s.modCav f).shadow = s.shadow := rfl
@[simp] theorem State.modCav_snap (f : CavSt → CavSt) (s : State) : (s.modCav f).snap = s.snap := rfl
@[simp] theorem State.modCav_dram (f : CavSt → CavSt) (s : State) : (s.modCav f).dram = s.dram := rfl
@[simp] theorem State.modCav_host (f : CavSt → CavSt) (s : State) : (s.modCav f).host = s.host := rfl
@[simp] theorem State.modCav_mtb (f : CavSt → CavSt) (s : State) : (s.modCav f).mtb = s.mtb := rfl
@[simp] theorem State.modCav_lpt (f : CavSt → CavSt) (s : State) : (s.modCav f).lpt = s.lpt := rfl
@[simp] theorem State.modCav_txs (f : CavSt → CavSt) (s : State) : (s.modCav f).txs = s.txs := rfl
@[simp] theorem State.modCav_wad (f : CavSt → CavSt) (s : State) : (s.modCav f).wad = s.wad := rfl
@[simp] theorem State.modCav_mac (f : CavSt → CavSt) (s : State) : (s.modCav f).mac = s.mac := rfl
@[simp] theorem State.modCav_oas (f : CavSt → CavSt) (s : State) : (s.modCav f).oas = s.oas := rfl
@[simp] theorem State.modCav_erg (f : CavSt → CavSt) (s : State) : (s.modCav f).erg = s.erg := rfl
@[simp] theorem State.modCav_trl (f : CavSt → CavSt) (s : State) : (s.modCav f).trl = s.trl := rfl
@[simp] theorem State.modCav_mir (f : CavSt → CavSt) (s : State) : (s.modCav f).mir = s.mir := rfl
@[simp] theorem State.modCav_nmap (f : CavSt → CavSt) (s : State) : (s.modCav f).nmap = s.nmap := rfl
@[simp] theorem State.modCav_key (f : CavSt → CavSt) (s : State) : (s.modCav f).key = s.key := rfl
@[simp] theorem State.modCav_lnk (f : CavSt → CavSt) (s : State) : (s.modCav f).lnk = s.lnk := rfl
@[simp] theorem State.modCav_mrm (f : CavSt → CavSt) (s : State) : (s.modCav f).mrm = s.mrm := rfl
@[simp] theorem State.modCav_sns (f : CavSt → CavSt) (s : State) : (s.modCav f).sns = s.sns := rfl
@[simp] theorem State.modCav_loops (f : CavSt → CavSt) (s : State) : (s.modCav f).loops = s.loops := rfl
@[simp] theorem State.modCav_seif (f : CavSt → CavSt) (s : State) : (s.modCav f).seif = s.seif := rfl
@[simp] theorem State.modCav_uart (f : CavSt → CavSt) (s : State) : (s.modCav f).uart = s.uart := rfl
@[simp] theorem State.modCav_clk (f : CavSt → CavSt) (s : State) : (s.modCav f).clk = s.clk := rfl
@[simp] theorem State.modCav_sec (f : CavSt → CavSt) (s : State) : (s.modCav f).sec = s.sec := rfl
@[simp] theorem State.modCav_pending (f : CavSt → CavSt) (s : State) : (s.modCav f).pending = s.pending := rfl
@[simp] theorem State.modCav_reg (f : CavSt → CavSt) (s : State) (pg off : Nat) : (s.modCav f).reg pg off = s.reg pg off := rfl
@[simp] theorem State.modCav_get (f : CavSt → CavSt) (s : State) (pg : Nat) (fd : Fld) : (s.modCav f).get pg fd = s.get pg fd := rfl
@[simp] theorem State.modCav_flag (f : CavSt → CavSt) (s : State) (pg : Nat) (fd : Fld) : (s.modCav f).flag pg fd = s.flag pg fd := rfl

/-! ### State.setTrain changes `mac` alone -/

@[simp] theorem State.setTrain_time (r : Train) (s : State) : (s.setTrain r).time = s.time := rfl
@[simp] theorem State.setTrain_free (r : Train) (s : State) : (s.setTrain r).free = s.free := rfl
@[simp] theorem State.setTrain_regs (r : Train) (s : State) : (s.setTrain r).regs = s.regs := rfl
@[simp] theorem State.setTrain_shadow (r : Train) (s : State) : (s.setTrain r).shadow = s.shadow := rfl
@[simp] theorem State.setTrain_snap (r : Train) (s : State) : (s.setTrain r).snap = s.snap := rfl
@[simp] theorem State.setTrain_dram (r : Train) (s : State) : (s.setTrain r).dram = s.dram := rfl
@[simp] theorem State.setTrain_host (r : Train) (s : State) : (s.setTrain r).host = s.host := rfl
@[simp] theorem State.setTrain_mtb (r : Train) (s : State) : (s.setTrain r).mtb = s.mtb := rfl
@[simp] theorem State.setTrain_lpt (r : Train) (s : State) : (s.setTrain r).lpt = s.lpt := rfl
@[simp] theorem State.setTrain_txs (r : Train) (s : State) : (s.setTrain r).txs = s.txs := rfl
@[simp] theorem State.setTrain_wad (r : Train) (s : State) : (s.setTrain r).wad = s.wad := rfl
@[simp] theorem State.setTrain_oas (r : Train) (s : State) : (s.setTrain r).oas = s.oas := rfl
@[simp] theorem State.setTrain_erg (r : Train) (s : State) : (s.setTrain r).erg = s.erg := rfl
@[simp] theorem State.setTrain_trl (r : Train) (s : State) : (s.setTrain r).trl = s.trl := rfl
@[simp] theorem State.setTrain_mir (r : Train) (s : State) : (s.setTrain r).mir = s.mir := rfl
@[simp] theorem State.setTrain_nmap (r : Train) (s : State) : (s.setTrain r).nmap = s.nmap := rfl
@[simp] theorem State.setTrain_key (r : Train) (s : State) : (s.setTrain r).key = s.key := rfl
@[simp] theorem State.setTrain_lnk (r : Train) (s : State) : (s.setTrain r).lnk = s.lnk := rfl
@[simp] theorem State.setTrain_cav (r : Train) (s : State) : (s.setTrain r).cav = s.cav := rfl
@[simp] theorem State.setTrain_mrm (r : Train) (s : State) : (s.setTrain r).mrm = s.mrm := rfl
@[simp] theorem State.setTrain_sns (r : Train) (s : State) : (s.setTrain r).sns = s.sns := rfl
@[simp] theorem State.setTrain_loops (r : Train) (s : State) : (s.setTrain r).loops = s.loops := rfl
@[simp] theorem State.setTrain_seif (r : Train) (s : State) : (s.setTrain r).seif = s.seif := rfl
@[simp] theorem State.setTrain_uart (r : Train) (s : State) : (s.setTrain r).uart = s.uart := rfl
@[simp] theorem State.setTrain_clk (r : Train) (s : State) : (s.setTrain r).clk = s.clk := rfl
@[simp] theorem State.setTrain_sec (r : Train) (s : State) : (s.setTrain r).sec = s.sec := rfl
@[simp] theorem State.setTrain_pending (r : Train) (s : State) : (s.setTrain r).pending = s.pending := rfl
@[simp] theorem State.setTrain_reg (r : Train) (s : State) (pg off : Nat) : (s.setTrain r).reg pg off = s.reg pg off := rfl
@[simp] theorem State.setTrain_get (r : Train) (s : State) (pg : Nat) (fd : Fld) : (s.setTrain r).get pg fd = s.get pg fd := rfl
@[simp] theorem State.setTrain_flag (r : Train) (s : State) (pg : Nat) (fd : Fld) : (s.setTrain r).flag pg fd = s.flag pg fd := rfl

/-! ### State.setUart changes `uart` alone -/

@[simp] theorem State.setUart_time (n : Nat) (u : UartSt) (s : State) : (s.setUart n u).time = s.time := rfl
@[simp] theorem State.setUart_free (n : Nat) (u : UartSt) (s : State) : (s.setUart n u).free = s.free := rfl
@[simp] theorem State.setUart_regs (n : Nat) (u : UartSt) (s : State) : (s.setUart n u).regs = s.regs := rfl
@[simp] theorem State.setUart_shadow (n : Nat) (u : UartSt) (s : State) : (s.setUart n u).shadow = s.shadow := rfl
@[simp] theorem State.setUart_snap (n : Nat) (u : UartSt) (s : State) : (s.setUart n u).snap = s.snap := rfl
@[simp] theorem State.setUart_dram (n : Nat) (u : UartSt) (s : State) : (s.setUart n u).dram = s.dram := rfl
@[simp] theorem State.setUart_host (n : Nat) (u : UartSt) (s : State) : (s.setUart n u).host = s.host := rfl
@[simp] theorem State.setUart_mtb (n : Nat) (u : UartSt) (s : State) : (s.setUart n u).mtb = s.mtb := rfl
@[simp] theorem State.setUart_lpt (n : Nat) (u : UartSt) (s : State) : (s.setUart n u).lpt = s.lpt := rfl
@[simp] theorem State.setUart_txs (n : Nat) (u : UartSt) (s : State) : (s.setUart n u).txs = s.txs := rfl
@[simp] theorem State.setUart_wad (n : Nat) (u : UartSt) (s : State) : (s.setUart n u).wad = s.wad := rfl
@[simp] theorem State.setUart_mac (n : Nat) (u : UartSt) (s : State) : (s.setUart n u).mac = s.mac := rfl
@[simp] theorem State.setUart_oas (n : Nat) (u : UartSt) (s : State) : (s.setUart n u).oas = s.oas := rfl
@[simp] theorem State.setUart_erg (n : Nat) (u : UartSt) (s : State) : (s.setUart n u).erg = s.erg := rfl
@[simp] theorem State.setUart_trl (n : Nat) (u : UartSt) (s : State) : (s.setUart n u).trl = s.trl := rfl
@[simp] theorem State.setUart_mir (n : Nat) (u : UartSt) (s : State) : (s.setUart n u).mir = s.mir := rfl
@[simp] theorem State.setUart_nmap (n : Nat) (u : UartSt) (s : State) : (s.setUart n u).nmap = s.nmap := rfl
@[simp] theorem State.setUart_key (n : Nat) (u : UartSt) (s : State) : (s.setUart n u).key = s.key := rfl
@[simp] theorem State.setUart_lnk (n : Nat) (u : UartSt) (s : State) : (s.setUart n u).lnk = s.lnk := rfl
@[simp] theorem State.setUart_cav (n : Nat) (u : UartSt) (s : State) : (s.setUart n u).cav = s.cav := rfl
@[simp] theorem State.setUart_mrm (n : Nat) (u : UartSt) (s : State) : (s.setUart n u).mrm = s.mrm := rfl
@[simp] theorem State.setUart_sns (n : Nat) (u : UartSt) (s : State) : (s.setUart n u).sns = s.sns := rfl
@[simp] theorem State.setUart_loops (n : Nat) (u : UartSt) (s : State) : (s.setUart n u).loops = s.loops := rfl
@[simp] theorem State.setUart_seif (n : Nat) (u : UartSt) (s : State) : (s.setUart n u).seif = s.seif := rfl
@[simp] theorem State.setUart_clk (n : Nat) (u : UartSt) (s : State) : (s.setUart n u).clk = s.clk := rfl
@[simp] theorem State.setUart_sec (n : Nat) (u : UartSt) (s : State) : (s.setUart n u).sec = s.sec := rfl
@[simp] theorem State.setUart_pending (n : Nat) (u : UartSt) (s : State) : (s.setUart n u).pending = s.pending := rfl
@[simp] theorem State.setUart_reg (n : Nat) (u : UartSt) (s : State) (pg off : Nat) : (s.setUart n u).reg pg off = s.reg pg off := rfl
@[simp] theorem State.setUart_get (n : Nat) (u : UartSt) (s : State) (pg : Nat) (fd : Fld) : (s.setUart n u).get pg fd = s.get pg fd := rfl
@[simp] theorem State.setUart_flag (n : Nat) (u : UartSt) (s : State) (pg : Nat) (fd : Fld) : (s.setUart n u).flag pg fd = s.flag pg fd := rfl

/-! ### State.setQueue changes `wad` alone -/

@[simp] theorem State.setQueue_time (n : Nat) (q : Queue) (s : State) : (s.setQueue n q).time = s.time := rfl
@[simp] theorem State.setQueue_free (n : Nat) (q : Queue) (s : State) : (s.setQueue n q).free = s.free := rfl
@[simp] theorem State.setQueue_regs (n : Nat) (q : Queue) (s : State) : (s.setQueue n q).regs = s.regs := rfl
@[simp] theorem State.setQueue_shadow (n : Nat) (q : Queue) (s : State) : (s.setQueue n q).shadow = s.shadow := rfl
@[simp] theorem State.setQueue_snap (n : Nat) (q : Queue) (s : State) : (s.setQueue n q).snap = s.snap := rfl
@[simp] theorem State.setQueue_dram (n : Nat) (q : Queue) (s : State) : (s.setQueue n q).dram = s.dram := rfl
@[simp] theorem State.setQueue_host (n : Nat) (q : Queue) (s : State) : (s.setQueue n q).host = s.host := rfl
@[simp] theorem State.setQueue_mtb (n : Nat) (q : Queue) (s : State) : (s.setQueue n q).mtb = s.mtb := rfl
@[simp] theorem State.setQueue_lpt (n : Nat) (q : Queue) (s : State) : (s.setQueue n q).lpt = s.lpt := rfl
@[simp] theorem State.setQueue_txs (n : Nat) (q : Queue) (s : State) : (s.setQueue n q).txs = s.txs := rfl
@[simp] theorem State.setQueue_mac (n : Nat) (q : Queue) (s : State) : (s.setQueue n q).mac = s.mac := rfl
@[simp] theorem State.setQueue_oas (n : Nat) (q : Queue) (s : State) : (s.setQueue n q).oas = s.oas := rfl
@[simp] theorem State.setQueue_erg (n : Nat) (q : Queue) (s : State) : (s.setQueue n q).erg = s.erg := rfl
@[simp] theorem State.setQueue_trl (n : Nat) (q : Queue) (s : State) : (s.setQueue n q).trl = s.trl := rfl
@[simp] theorem State.setQueue_mir (n : Nat) (q : Queue) (s : State) : (s.setQueue n q).mir = s.mir := rfl
@[simp] theorem State.setQueue_nmap (n : Nat) (q : Queue) (s : State) : (s.setQueue n q).nmap = s.nmap := rfl
@[simp] theorem State.setQueue_key (n : Nat) (q : Queue) (s : State) : (s.setQueue n q).key = s.key := rfl
@[simp] theorem State.setQueue_lnk (n : Nat) (q : Queue) (s : State) : (s.setQueue n q).lnk = s.lnk := rfl
@[simp] theorem State.setQueue_cav (n : Nat) (q : Queue) (s : State) : (s.setQueue n q).cav = s.cav := rfl
@[simp] theorem State.setQueue_mrm (n : Nat) (q : Queue) (s : State) : (s.setQueue n q).mrm = s.mrm := rfl
@[simp] theorem State.setQueue_sns (n : Nat) (q : Queue) (s : State) : (s.setQueue n q).sns = s.sns := rfl
@[simp] theorem State.setQueue_loops (n : Nat) (q : Queue) (s : State) : (s.setQueue n q).loops = s.loops := rfl
@[simp] theorem State.setQueue_seif (n : Nat) (q : Queue) (s : State) : (s.setQueue n q).seif = s.seif := rfl
@[simp] theorem State.setQueue_uart (n : Nat) (q : Queue) (s : State) : (s.setQueue n q).uart = s.uart := rfl
@[simp] theorem State.setQueue_clk (n : Nat) (q : Queue) (s : State) : (s.setQueue n q).clk = s.clk := rfl
@[simp] theorem State.setQueue_sec (n : Nat) (q : Queue) (s : State) : (s.setQueue n q).sec = s.sec := rfl
@[simp] theorem State.setQueue_pending (n : Nat) (q : Queue) (s : State) : (s.setQueue n q).pending = s.pending := rfl
@[simp] theorem State.setQueue_reg (n : Nat) (q : Queue) (s : State) (pg off : Nat) : (s.setQueue n q).reg pg off = s.reg pg off := rfl
@[simp] theorem State.setQueue_get (n : Nat) (q : Queue) (s : State) (pg : Nat) (fd : Fld) : (s.setQueue n q).get pg fd = s.get pg fd := rfl
@[simp] theorem State.setQueue_flag (n : Nat) (q : Queue) (s : State) (pg : Nat) (fd : Fld) : (s.setQueue n q).flag pg fd = s.flag pg fd := rfl

/-! ### State.setRing changes `wad` alone -/

@[simp] theorem State.setRing_time (n : Nat) (r : Ring) (s : State) : (s.setRing n r).time = s.time := rfl
@[simp] theorem State.setRing_free (n : Nat) (r : Ring) (s : State) : (s.setRing n r).free = s.free := rfl
@[simp] theorem State.setRing_regs (n : Nat) (r : Ring) (s : State) : (s.setRing n r).regs = s.regs := rfl
@[simp] theorem State.setRing_shadow (n : Nat) (r : Ring) (s : State) : (s.setRing n r).shadow = s.shadow := rfl
@[simp] theorem State.setRing_snap (n : Nat) (r : Ring) (s : State) : (s.setRing n r).snap = s.snap := rfl
@[simp] theorem State.setRing_dram (n : Nat) (r : Ring) (s : State) : (s.setRing n r).dram = s.dram := rfl
@[simp] theorem State.setRing_host (n : Nat) (r : Ring) (s : State) : (s.setRing n r).host = s.host := rfl
@[simp] theorem State.setRing_mtb (n : Nat) (r : Ring) (s : State) : (s.setRing n r).mtb = s.mtb := rfl
@[simp] theorem State.setRing_lpt (n : Nat) (r : Ring) (s : State) : (s.setRing n r).lpt = s.lpt := rfl
@[simp] theorem State.setRing_txs (n : Nat) (r : Ring) (s : State) : (s.setRing n r).txs = s.txs := rfl
@[simp] theorem State.setRing_mac (n : Nat) (r : Ring) (s : State) : (s.setRing n r).mac = s.mac := rfl
@[simp] theorem State.setRing_oas (n : Nat) (r : Ring) (s : State) : (s.setRing n r).oas = s.oas := rfl
@[simp] theorem State.setRing_erg (n : Nat) (r : Ring) (s : State) : (s.setRing n r).erg = s.erg := rfl
@[simp] theorem State.setRing_trl (n : Nat) (r : Ring) (s : State) : (s.setRing n r).trl = s.trl := rfl
@[simp] theorem State.setRing_mir (n : Nat) (r : Ring) (s : State) : (s.setRing n r).mir = s.mir := rfl
@[simp] theorem State.setRing_nmap (n : Nat) (r : Ring) (s : State) : (s.setRing n r).nmap = s.nmap := rfl
@[simp] theorem State.setRing_key (n : Nat) (r : Ring) (s : State) : (s.setRing n r).key = s.key := rfl
@[simp] theorem State.setRing_lnk (n : Nat) (r : Ring) (s : State) : (s.setRing n r).lnk = s.lnk := rfl
@[simp] theorem State.setRing_cav (n : Nat) (r : Ring) (s : State) : (s.setRing n r).cav = s.cav := rfl
@[simp] theorem State.setRing_mrm (n : Nat) (r : Ring) (s : State) : (s.setRing n r).mrm = s.mrm := rfl
@[simp] theorem State.setRing_sns (n : Nat) (r : Ring) (s : State) : (s.setRing n r).sns = s.sns := rfl
@[simp] theorem State.setRing_loops (n : Nat) (r : Ring) (s : State) : (s.setRing n r).loops = s.loops := rfl
@[simp] theorem State.setRing_seif (n : Nat) (r : Ring) (s : State) : (s.setRing n r).seif = s.seif := rfl
@[simp] theorem State.setRing_uart (n : Nat) (r : Ring) (s : State) : (s.setRing n r).uart = s.uart := rfl
@[simp] theorem State.setRing_clk (n : Nat) (r : Ring) (s : State) : (s.setRing n r).clk = s.clk := rfl
@[simp] theorem State.setRing_sec (n : Nat) (r : Ring) (s : State) : (s.setRing n r).sec = s.sec := rfl
@[simp] theorem State.setRing_pending (n : Nat) (r : Ring) (s : State) : (s.setRing n r).pending = s.pending := rfl
@[simp] theorem State.setRing_reg (n : Nat) (r : Ring) (s : State) (pg off : Nat) : (s.setRing n r).reg pg off = s.reg pg off := rfl
@[simp] theorem State.setRing_get (n : Nat) (r : Ring) (s : State) (pg : Nat) (fd : Fld) : (s.setRing n r).get pg fd = s.get pg fd := rfl
@[simp] theorem State.setRing_flag (n : Nat) (r : Ring) (s : State) (pg : Nat) (fd : Fld) : (s.setRing n r).flag pg fd = s.flag pg fd := rfl

/-! ### State.setDue changes `wad` alone -/

@[simp] theorem State.setDue_time (l : List DueRec) (s : State) : (s.setDue l).time = s.time := rfl
@[simp] theorem State.setDue_free (l : List DueRec) (s : State) : (s.setDue l).free = s.free := rfl
@[simp] theorem State.setDue_regs (l : List DueRec) (s : State) : (s.setDue l).regs = s.regs := rfl
@[simp] theorem State.setDue_shadow (l : List DueRec) (s : State) : (s.setDue l).shadow = s.shadow := rfl
@[simp] theorem State.setDue_snap (l : List DueRec) (s : State) : (s.setDue l).snap = s.snap := rfl
@[simp] theorem State.setDue_dram (l : List DueRec) (s : State) : (s.setDue l).dram = s.dram := rfl
@[simp] theorem State.setDue_host (l : List DueRec) (s : State) : (s.setDue l).host = s.host := rfl
@[simp] theorem State.setDue_mtb (l : List DueRec) (s : State) : (s.setDue l).mtb = s.mtb := rfl
@[simp] theorem State.setDue_lpt (l : List DueRec) (s : State) : (s.setDue l).lpt = s.lpt := rfl
@[simp] theorem State.setDue_txs (l : List DueRec) (s : State) : (s.setDue l).txs = s.txs := rfl
@[simp] theorem State.setDue_mac (l : List DueRec) (s : State) : (s.setDue l).mac = s.mac := rfl
@[simp] theorem State.setDue_oas (l : List DueRec) (s : State) : (s.setDue l).oas = s.oas := rfl
@[simp] theorem State.setDue_erg (l : List DueRec) (s : State) : (s.setDue l).erg = s.erg := rfl
@[simp] theorem State.setDue_trl (l : List DueRec) (s : State) : (s.setDue l).trl = s.trl := rfl
@[simp] theorem State.setDue_mir (l : List DueRec) (s : State) : (s.setDue l).mir = s.mir := rfl
@[simp] theorem State.setDue_nmap (l : List DueRec) (s : State) : (s.setDue l).nmap = s.nmap := rfl
@[simp] theorem State.setDue_key (l : List DueRec) (s : State) : (s.setDue l).key = s.key := rfl
@[simp] theorem State.setDue_lnk (l : List DueRec) (s : State) : (s.setDue l).lnk = s.lnk := rfl
@[simp] theorem State.setDue_cav (l : List DueRec) (s : State) : (s.setDue l).cav = s.cav := rfl
@[simp] theorem State.setDue_mrm (l : List DueRec) (s : State) : (s.setDue l).mrm = s.mrm := rfl
@[simp] theorem State.setDue_sns (l : List DueRec) (s : State) : (s.setDue l).sns = s.sns := rfl
@[simp] theorem State.setDue_loops (l : List DueRec) (s : State) : (s.setDue l).loops = s.loops := rfl
@[simp] theorem State.setDue_seif (l : List DueRec) (s : State) : (s.setDue l).seif = s.seif := rfl
@[simp] theorem State.setDue_uart (l : List DueRec) (s : State) : (s.setDue l).uart = s.uart := rfl
@[simp] theorem State.setDue_clk (l : List DueRec) (s : State) : (s.setDue l).clk = s.clk := rfl
@[simp] theorem State.setDue_sec (l : List DueRec) (s : State) : (s.setDue l).sec = s.sec := rfl
@[simp] theorem State.setDue_pending (l : List DueRec) (s : State) : (s.setDue l).pending = s.pending := rfl
@[simp] theorem State.setDue_reg (l : List DueRec) (s : State) (pg off : Nat) : (s.setDue l).reg pg off = s.reg pg off := rfl
@[simp] theorem State.setDue_get (l : List DueRec) (s : State) (pg : Nat) (fd : Fld) : (s.setDue l).get pg fd = s.get pg fd := rfl
@[simp] theorem State.setDue_flag (l : List DueRec) (s : State) (pg : Nat) (fd : Fld) : (s.setDue l).flag pg fd = s.flag pg fd := rfl

/-! ### State.setWindow changes `host` alone -/

@[simp] theorem State.setWindow_time (n : Nat) (w : Window) (s : State) : (s.setWindow n w).time = s.time := rfl
@[simp] theorem State.setWindow_free (n : Nat) (w : Window) (s : State) : (s.setWindow n w).free = s.free := rfl
@[simp] theorem State.setWindow_regs (n : Nat) (w : Window) (s : State) : (s.setWindow n w).regs = s.regs := rfl
@[simp] theorem State.setWindow_shadow (n : Nat) (w : Window) (s : State) : (s.setWindow n w).shadow = s.shadow := rfl
@[simp] theorem State.setWindow_snap (n : Nat) (w : Window) (s : State) : (s.setWindow n w).snap = s.snap := rfl
@[simp] theorem State.setWindow_dram (n : Nat) (w : Window) (s : State) : (s.setWindow n w).dram = s.dram := rfl
@[simp] theorem State.setWindow_mtb (n : Nat) (w : Window) (s : State) : (s.setWindow n w).mtb = s.mtb := rfl
@[simp] theorem State.setWindow_lpt (n : Nat) (w : Window) (s : State) : (s.setWindow n w).lpt = s.lpt := rfl
@[simp] theorem State.setWindow_txs (n : Nat) (w : Window) (s : State) : (s.setWindow n w).txs = s.txs := rfl
@[simp] theorem State.setWindow_wad (n : Nat) (w : Window) (s : State) : (s.setWindow n w).wad = s.wad := rfl
@[simp] theorem State.setWindow_mac (n : Nat) (w : Window) (s : State) : (s.setWindow n w).mac = s.mac := rfl
@[simp] theorem State.setWindow_oas (n : Nat) (w : Window) (s : State) : (s.setWindow n w).oas = s.oas := rfl
@[simp] theorem State.setWindow_erg (n : Nat) (w : Window) (s : State) : (s.setWindow n w).erg = s.erg := rfl
@[simp] theorem State.setWindow_trl (n : Nat) (w : Window) (s : State) : (s.setWindow n w).trl = s.trl := rfl
@[simp] theorem State.setWindow_mir (n : Nat) (w : Window) (s : State) : (s.setWindow n w).mir = s.mir := rfl
@[simp] theorem State.setWindow_nmap (n : Nat) (w : Window) (s : State) : (s.setWindow n w).nmap = s.nmap := rfl
@[simp] theorem State.setWindow_key (n : Nat) (w : Window) (s : State) : (s.setWindow n w).key = s.key := rfl
@[simp] theorem State.setWindow_lnk (n : Nat) (w : Window) (s : State) : (s.setWindow n w).lnk = s.lnk := rfl
@[simp] theorem State.setWindow_cav (n : Nat) (w : Window) (s : State) : (s.setWindow n w).cav = s.cav := rfl
@[simp] theorem State.setWindow_mrm (n : Nat) (w : Window) (s : State) : (s.setWindow n w).mrm = s.mrm := rfl
@[simp] theorem State.setWindow_sns (n : Nat) (w : Window) (s : State) : (s.setWindow n w).sns = s.sns := rfl
@[simp] theorem State.setWindow_loops (n : Nat) (w : Window) (s : State) : (s.setWindow n w).loops = s.loops := rfl
@[simp] theorem State.setWindow_seif (n : Nat) (w : Window) (s : State) : (s.setWindow n w).seif = s.seif := rfl
@[simp] theorem State.setWindow_uart (n : Nat) (w : Window) (s : State) : (s.setWindow n w).uart = s.uart := rfl
@[simp] theorem State.setWindow_clk (n : Nat) (w : Window) (s : State) : (s.setWindow n w).clk = s.clk := rfl
@[simp] theorem State.setWindow_sec (n : Nat) (w : Window) (s : State) : (s.setWindow n w).sec = s.sec := rfl
@[simp] theorem State.setWindow_pending (n : Nat) (w : Window) (s : State) : (s.setWindow n w).pending = s.pending := rfl
@[simp] theorem State.setWindow_reg (n : Nat) (w : Window) (s : State) (pg off : Nat) : (s.setWindow n w).reg pg off = s.reg pg off := rfl
@[simp] theorem State.setWindow_get (n : Nat) (w : Window) (s : State) (pg : Nat) (fd : Fld) : (s.setWindow n w).get pg fd = s.get pg fd := rfl
@[simp] theorem State.setWindow_flag (n : Nat) (w : Window) (s : State) (pg : Nat) (fd : Fld) : (s.setWindow n w).flag pg fd = s.flag pg fd := rfl

/-! ### State.setReg changes `regs` alone -/

@[simp] theorem State.setReg_time (pg off : Nat) (v : Word) (s : State) : (s.setReg pg off v).time = s.time := rfl
@[simp] theorem State.setReg_free (pg off : Nat) (v : Word) (s : State) : (s.setReg pg off v).free = s.free := rfl
@[simp] theorem State.setReg_shadow (pg off : Nat) (v : Word) (s : State) : (s.setReg pg off v).shadow = s.shadow := rfl
@[simp] theorem State.setReg_snap (pg off : Nat) (v : Word) (s : State) : (s.setReg pg off v).snap = s.snap := rfl
@[simp] theorem State.setReg_dram (pg off : Nat) (v : Word) (s : State) : (s.setReg pg off v).dram = s.dram := rfl
@[simp] theorem State.setReg_host (pg off : Nat) (v : Word) (s : State) : (s.setReg pg off v).host = s.host := rfl
@[simp] theorem State.setReg_mtb (pg off : Nat) (v : Word) (s : State) : (s.setReg pg off v).mtb = s.mtb := rfl
@[simp] theorem State.setReg_lpt (pg off : Nat) (v : Word) (s : State) : (s.setReg pg off v).lpt = s.lpt := rfl
@[simp] theorem State.setReg_txs (pg off : Nat) (v : Word) (s : State) : (s.setReg pg off v).txs = s.txs := rfl
@[simp] theorem State.setReg_wad (pg off : Nat) (v : Word) (s : State) : (s.setReg pg off v).wad = s.wad := rfl
@[simp] theorem State.setReg_mac (pg off : Nat) (v : Word) (s : State) : (s.setReg pg off v).mac = s.mac := rfl
@[simp] theorem State.setReg_oas (pg off : Nat) (v : Word) (s : State) : (s.setReg pg off v).oas = s.oas := rfl
@[simp] theorem State.setReg_erg (pg off : Nat) (v : Word) (s : State) : (s.setReg pg off v).erg = s.erg := rfl
@[simp] theorem State.setReg_trl (pg off : Nat) (v : Word) (s : State) : (s.setReg pg off v).trl = s.trl := rfl
@[simp] theorem State.setReg_mir (pg off : Nat) (v : Word) (s : State) : (s.setReg pg off v).mir = s.mir := rfl
@[simp] theorem State.setReg_nmap (pg off : Nat) (v : Word) (s : State) : (s.setReg pg off v).nmap = s.nmap := rfl
@[simp] theorem State.setReg_key (pg off : Nat) (v : Word) (s : State) : (s.setReg pg off v).key = s.key := rfl
@[simp] theorem State.setReg_lnk (pg off : Nat) (v : Word) (s : State) : (s.setReg pg off v).lnk = s.lnk := rfl
@[simp] theorem State.setReg_cav (pg off : Nat) (v : Word) (s : State) : (s.setReg pg off v).cav = s.cav := rfl
@[simp] theorem State.setReg_mrm (pg off : Nat) (v : Word) (s : State) : (s.setReg pg off v).mrm = s.mrm := rfl
@[simp] theorem State.setReg_sns (pg off : Nat) (v : Word) (s : State) : (s.setReg pg off v).sns = s.sns := rfl
@[simp] theorem State.setReg_loops (pg off : Nat) (v : Word) (s : State) : (s.setReg pg off v).loops = s.loops := rfl
@[simp] theorem State.setReg_seif (pg off : Nat) (v : Word) (s : State) : (s.setReg pg off v).seif = s.seif := rfl
@[simp] theorem State.setReg_uart (pg off : Nat) (v : Word) (s : State) : (s.setReg pg off v).uart = s.uart := rfl
@[simp] theorem State.setReg_clk (pg off : Nat) (v : Word) (s : State) : (s.setReg pg off v).clk = s.clk := rfl
@[simp] theorem State.setReg_sec (pg off : Nat) (v : Word) (s : State) : (s.setReg pg off v).sec = s.sec := rfl
@[simp] theorem State.setReg_pending (pg off : Nat) (v : Word) (s : State) : (s.setReg pg off v).pending = s.pending := rfl

/-! ### State.put changes `regs` alone -/

@[simp] theorem State.put_time (pg : Nat) (fd : Fld) (v : Nat) (s : State) : (s.put pg fd v).time = s.time := rfl
@[simp] theorem State.put_free (pg : Nat) (fd : Fld) (v : Nat) (s : State) : (s.put pg fd v).free = s.free := rfl
@[simp] theorem State.put_shadow (pg : Nat) (fd : Fld) (v : Nat) (s : State) : (s.put pg fd v).shadow = s.shadow := rfl
@[simp] theorem State.put_snap (pg : Nat) (fd : Fld) (v : Nat) (s : State) : (s.put pg fd v).snap = s.snap := rfl
@[simp] theorem State.put_dram (pg : Nat) (fd : Fld) (v : Nat) (s : State) : (s.put pg fd v).dram = s.dram := rfl
@[simp] theorem State.put_host (pg : Nat) (fd : Fld) (v : Nat) (s : State) : (s.put pg fd v).host = s.host := rfl
@[simp] theorem State.put_mtb (pg : Nat) (fd : Fld) (v : Nat) (s : State) : (s.put pg fd v).mtb = s.mtb := rfl
@[simp] theorem State.put_lpt (pg : Nat) (fd : Fld) (v : Nat) (s : State) : (s.put pg fd v).lpt = s.lpt := rfl
@[simp] theorem State.put_txs (pg : Nat) (fd : Fld) (v : Nat) (s : State) : (s.put pg fd v).txs = s.txs := rfl
@[simp] theorem State.put_wad (pg : Nat) (fd : Fld) (v : Nat) (s : State) : (s.put pg fd v).wad = s.wad := rfl
@[simp] theorem State.put_mac (pg : Nat) (fd : Fld) (v : Nat) (s : State) : (s.put pg fd v).mac = s.mac := rfl
@[simp] theorem State.put_oas (pg : Nat) (fd : Fld) (v : Nat) (s : State) : (s.put pg fd v).oas = s.oas := rfl
@[simp] theorem State.put_erg (pg : Nat) (fd : Fld) (v : Nat) (s : State) : (s.put pg fd v).erg = s.erg := rfl
@[simp] theorem State.put_trl (pg : Nat) (fd : Fld) (v : Nat) (s : State) : (s.put pg fd v).trl = s.trl := rfl
@[simp] theorem State.put_mir (pg : Nat) (fd : Fld) (v : Nat) (s : State) : (s.put pg fd v).mir = s.mir := rfl
@[simp] theorem State.put_nmap (pg : Nat) (fd : Fld) (v : Nat) (s : State) : (s.put pg fd v).nmap = s.nmap := rfl
@[simp] theorem State.put_key (pg : Nat) (fd : Fld) (v : Nat) (s : State) : (s.put pg fd v).key = s.key := rfl
@[simp] theorem State.put_lnk (pg : Nat) (fd : Fld) (v : Nat) (s : State) : (s.put pg fd v).lnk = s.lnk := rfl
@[simp] theorem State.put_cav (pg : Nat) (fd : Fld) (v : Nat) (s : State) : (s.put pg fd v).cav = s.cav := rfl
@[simp] theorem State.put_mrm (pg : Nat) (fd : Fld) (v : Nat) (s : State) : (s.put pg fd v).mrm = s.mrm := rfl
@[simp] theorem State.put_sns (pg : Nat) (fd : Fld) (v : Nat) (s : State) : (s.put pg fd v).sns = s.sns := rfl
@[simp] theorem State.put_loops (pg : Nat) (fd : Fld) (v : Nat) (s : State) : (s.put pg fd v).loops = s.loops := rfl
@[simp] theorem State.put_seif (pg : Nat) (fd : Fld) (v : Nat) (s : State) : (s.put pg fd v).seif = s.seif := rfl
@[simp] theorem State.put_uart (pg : Nat) (fd : Fld) (v : Nat) (s : State) : (s.put pg fd v).uart = s.uart := rfl
@[simp] theorem State.put_clk (pg : Nat) (fd : Fld) (v : Nat) (s : State) : (s.put pg fd v).clk = s.clk := rfl
@[simp] theorem State.put_sec (pg : Nat) (fd : Fld) (v : Nat) (s : State) : (s.put pg fd v).sec = s.sec := rfl
@[simp] theorem State.put_pending (pg : Nat) (fd : Fld) (v : Nat) (s : State) : (s.put pg fd v).pending = s.pending := rfl

/-! ### State.event changes `regs` alone -/

@[simp] theorem State.event_time (pg : Nat) (fd : Fld) (s : State) : (s.event pg fd).time = s.time := rfl
@[simp] theorem State.event_free (pg : Nat) (fd : Fld) (s : State) : (s.event pg fd).free = s.free := rfl
@[simp] theorem State.event_shadow (pg : Nat) (fd : Fld) (s : State) : (s.event pg fd).shadow = s.shadow := rfl
@[simp] theorem State.event_snap (pg : Nat) (fd : Fld) (s : State) : (s.event pg fd).snap = s.snap := rfl
@[simp] theorem State.event_dram (pg : Nat) (fd : Fld) (s : State) : (s.event pg fd).dram = s.dram := rfl
@[simp] theorem State.event_host (pg : Nat) (fd : Fld) (s : State) : (s.event pg fd).host = s.host := rfl
@[simp] theorem State.event_mtb (pg : Nat) (fd : Fld) (s : State) : (s.event pg fd).mtb = s.mtb := rfl
@[simp] theorem State.event_lpt (pg : Nat) (fd : Fld) (s : State) : (s.event pg fd).lpt = s.lpt := rfl
@[simp] theorem State.event_txs (pg : Nat) (fd : Fld) (s : State) : (s.event pg fd).txs = s.txs := rfl
@[simp] theorem State.event_wad (pg : Nat) (fd : Fld) (s : State) : (s.event pg fd).wad = s.wad := rfl
@[simp] theorem State.event_mac (pg : Nat) (fd : Fld) (s : State) : (s.event pg fd).mac = s.mac := rfl
@[simp] theorem State.event_oas (pg : Nat) (fd : Fld) (s : State) : (s.event pg fd).oas = s.oas := rfl
@[simp] theorem State.event_erg (pg : Nat) (fd : Fld) (s : State) : (s.event pg fd).erg = s.erg := rfl
@[simp] theorem State.event_trl (pg : Nat) (fd : Fld) (s : State) : (s.event pg fd).trl = s.trl := rfl
@[simp] theorem State.event_mir (pg : Nat) (fd : Fld) (s : State) : (s.event pg fd).mir = s.mir := rfl
@[simp] theorem State.event_nmap (pg : Nat) (fd : Fld) (s : State) : (s.event pg fd).nmap = s.nmap := rfl
@[simp] theorem State.event_key (pg : Nat) (fd : Fld) (s : State) : (s.event pg fd).key = s.key := rfl
@[simp] theorem State.event_lnk (pg : Nat) (fd : Fld) (s : State) : (s.event pg fd).lnk = s.lnk := rfl
@[simp] theorem State.event_cav (pg : Nat) (fd : Fld) (s : State) : (s.event pg fd).cav = s.cav := rfl
@[simp] theorem State.event_mrm (pg : Nat) (fd : Fld) (s : State) : (s.event pg fd).mrm = s.mrm := rfl
@[simp] theorem State.event_sns (pg : Nat) (fd : Fld) (s : State) : (s.event pg fd).sns = s.sns := rfl
@[simp] theorem State.event_loops (pg : Nat) (fd : Fld) (s : State) : (s.event pg fd).loops = s.loops := rfl
@[simp] theorem State.event_seif (pg : Nat) (fd : Fld) (s : State) : (s.event pg fd).seif = s.seif := rfl
@[simp] theorem State.event_uart (pg : Nat) (fd : Fld) (s : State) : (s.event pg fd).uart = s.uart := rfl
@[simp] theorem State.event_clk (pg : Nat) (fd : Fld) (s : State) : (s.event pg fd).clk = s.clk := rfl
@[simp] theorem State.event_sec (pg : Nat) (fd : Fld) (s : State) : (s.event pg fd).sec = s.sec := rfl
@[simp] theorem State.event_pending (pg : Nat) (fd : Fld) (s : State) : (s.event pg fd).pending = s.pending := rfl

/-! ### State.eventBit changes `regs` alone -/

@[simp] theorem State.eventBit_time (pg : Nat) (fd : Fld) (i : Nat) (s : State) : (s.eventBit pg fd i).time = s.time := rfl
@[simp] theorem State.eventBit_free (pg : Nat) (fd : Fld) (i : Nat) (s : State) : (s.eventBit pg fd i).free = s.free := rfl
@[simp] theorem State.eventBit_shadow (pg : Nat) (fd : Fld) (i : Nat) (s : State) : (s.eventBit pg fd i).shadow = s.shadow := rfl
@[simp] theorem State.eventBit_snap (pg : Nat) (fd : Fld) (i : Nat) (s : State) : (s.eventBit pg fd i).snap = s.snap := rfl
@[simp] theorem State.eventBit_dram (pg : Nat) (fd : Fld) (i : Nat) (s : State) : (s.eventBit pg fd i).dram = s.dram := rfl
@[simp] theorem State.eventBit_host (pg : Nat) (fd : Fld) (i : Nat) (s : State) : (s.eventBit pg fd i).host = s.host := rfl
@[simp] theorem State.eventBit_mtb (pg : Nat) (fd : Fld) (i : Nat) (s : State) : (s.eventBit pg fd i).mtb = s.mtb := rfl
@[simp] theorem State.eventBit_lpt (pg : Nat) (fd : Fld) (i : Nat) (s : State) : (s.eventBit pg fd i).lpt = s.lpt := rfl
@[simp] theorem State.eventBit_txs (pg : Nat) (fd : Fld) (i : Nat) (s : State) : (s.eventBit pg fd i).txs = s.txs := rfl
@[simp] theorem State.eventBit_wad (pg : Nat) (fd : Fld) (i : Nat) (s : State) : (s.eventBit pg fd i).wad = s.wad := rfl
@[simp] theorem State.eventBit_mac (pg : Nat) (fd : Fld) (i : Nat) (s : State) : (s.eventBit pg fd i).mac = s.mac := rfl
@[simp] theorem State.eventBit_oas (pg : Nat) (fd : Fld) (i : Nat) (s : State) : (s.eventBit pg fd i).oas = s.oas := rfl
@[simp] theorem State.eventBit_erg (pg : Nat) (fd : Fld) (i : Nat) (s : State) : (s.eventBit pg fd i).erg = s.erg := rfl
@[simp] theorem State.eventBit_trl (pg : Nat) (fd : Fld) (i : Nat) (s : State) : (s.eventBit pg fd i).trl = s.trl := rfl
@[simp] theorem State.eventBit_mir (pg : Nat) (fd : Fld) (i : Nat) (s : State) : (s.eventBit pg fd i).mir = s.mir := rfl
@[simp] theorem State.eventBit_nmap (pg : Nat) (fd : Fld) (i : Nat) (s : State) : (s.eventBit pg fd i).nmap = s.nmap := rfl
@[simp] theorem State.eventBit_key (pg : Nat) (fd : Fld) (i : Nat) (s : State) : (s.eventBit pg fd i).key = s.key := rfl
@[simp] theorem State.eventBit_lnk (pg : Nat) (fd : Fld) (i : Nat) (s : State) : (s.eventBit pg fd i).lnk = s.lnk := rfl
@[simp] theorem State.eventBit_cav (pg : Nat) (fd : Fld) (i : Nat) (s : State) : (s.eventBit pg fd i).cav = s.cav := rfl
@[simp] theorem State.eventBit_mrm (pg : Nat) (fd : Fld) (i : Nat) (s : State) : (s.eventBit pg fd i).mrm = s.mrm := rfl
@[simp] theorem State.eventBit_sns (pg : Nat) (fd : Fld) (i : Nat) (s : State) : (s.eventBit pg fd i).sns = s.sns := rfl
@[simp] theorem State.eventBit_loops (pg : Nat) (fd : Fld) (i : Nat) (s : State) : (s.eventBit pg fd i).loops = s.loops := rfl
@[simp] theorem State.eventBit_seif (pg : Nat) (fd : Fld) (i : Nat) (s : State) : (s.eventBit pg fd i).seif = s.seif := rfl
@[simp] theorem State.eventBit_uart (pg : Nat) (fd : Fld) (i : Nat) (s : State) : (s.eventBit pg fd i).uart = s.uart := rfl
@[simp] theorem State.eventBit_clk (pg : Nat) (fd : Fld) (i : Nat) (s : State) : (s.eventBit pg fd i).clk = s.clk := rfl
@[simp] theorem State.eventBit_sec (pg : Nat) (fd : Fld) (i : Nat) (s : State) : (s.eventBit pg fd i).sec = s.sec := rfl
@[simp] theorem State.eventBit_pending (pg : Nat) (fd : Fld) (i : Nat) (s : State) : (s.eventBit pg fd i).pending = s.pending := rfl

/-! ### State.countBy changes `regs` alone -/

@[simp] theorem State.countBy_time (pg : Nat) (fd : Fld) (n : Nat) (s : State) : (s.countBy pg fd n).time = s.time := by unfold State.countBy; split <;> rfl
@[simp] theorem State.countBy_free (pg : Nat) (fd : Fld) (n : Nat) (s : State) : (s.countBy pg fd n).free = s.free := by unfold State.countBy; split <;> rfl
@[simp] theorem State.countBy_shadow (pg : Nat) (fd : Fld) (n : Nat) (s : State) : (s.countBy pg fd n).shadow = s.shadow := by unfold State.countBy; split <;> rfl
@[simp] theorem State.countBy_snap (pg : Nat) (fd : Fld) (n : Nat) (s : State) : (s.countBy pg fd n).snap = s.snap := by unfold State.countBy; split <;> rfl
@[simp] theorem State.countBy_dram (pg : Nat) (fd : Fld) (n : Nat) (s : State) : (s.countBy pg fd n).dram = s.dram := by unfold State.countBy; split <;> rfl
@[simp] theorem State.countBy_host (pg : Nat) (fd : Fld) (n : Nat) (s : State) : (s.countBy pg fd n).host = s.host := by unfold State.countBy; split <;> rfl
@[simp] theorem State.countBy_mtb (pg : Nat) (fd : Fld) (n : Nat) (s : State) : (s.countBy pg fd n).mtb = s.mtb := by unfold State.countBy; split <;> rfl
@[simp] theorem State.countBy_lpt (pg : Nat) (fd : Fld) (n : Nat) (s : State) : (s.countBy pg fd n).lpt = s.lpt := by unfold State.countBy; split <;> rfl
@[simp] theorem State.countBy_txs (pg : Nat) (fd : Fld) (n : Nat) (s : State) : (s.countBy pg fd n).txs = s.txs := by unfold State.countBy; split <;> rfl
@[simp] theorem State.countBy_wad (pg : Nat) (fd : Fld) (n : Nat) (s : State) : (s.countBy pg fd n).wad = s.wad := by unfold State.countBy; split <;> rfl
@[simp] theorem State.countBy_mac (pg : Nat) (fd : Fld) (n : Nat) (s : State) : (s.countBy pg fd n).mac = s.mac := by unfold State.countBy; split <;> rfl
@[simp] theorem State.countBy_oas (pg : Nat) (fd : Fld) (n : Nat) (s : State) : (s.countBy pg fd n).oas = s.oas := by unfold State.countBy; split <;> rfl
@[simp] theorem State.countBy_erg (pg : Nat) (fd : Fld) (n : Nat) (s : State) : (s.countBy pg fd n).erg = s.erg := by unfold State.countBy; split <;> rfl
@[simp] theorem State.countBy_trl (pg : Nat) (fd : Fld) (n : Nat) (s : State) : (s.countBy pg fd n).trl = s.trl := by unfold State.countBy; split <;> rfl
@[simp] theorem State.countBy_mir (pg : Nat) (fd : Fld) (n : Nat) (s : State) : (s.countBy pg fd n).mir = s.mir := by unfold State.countBy; split <;> rfl
@[simp] theorem State.countBy_nmap (pg : Nat) (fd : Fld) (n : Nat) (s : State) : (s.countBy pg fd n).nmap = s.nmap := by unfold State.countBy; split <;> rfl
@[simp] theorem State.countBy_key (pg : Nat) (fd : Fld) (n : Nat) (s : State) : (s.countBy pg fd n).key = s.key := by unfold State.countBy; split <;> rfl
@[simp] theorem State.countBy_lnk (pg : Nat) (fd : Fld) (n : Nat) (s : State) : (s.countBy pg fd n).lnk = s.lnk := by unfold State.countBy; split <;> rfl
@[simp] theorem State.countBy_cav (pg : Nat) (fd : Fld) (n : Nat) (s : State) : (s.countBy pg fd n).cav = s.cav := by unfold State.countBy; split <;> rfl
@[simp] theorem State.countBy_mrm (pg : Nat) (fd : Fld) (n : Nat) (s : State) : (s.countBy pg fd n).mrm = s.mrm := by unfold State.countBy; split <;> rfl
@[simp] theorem State.countBy_sns (pg : Nat) (fd : Fld) (n : Nat) (s : State) : (s.countBy pg fd n).sns = s.sns := by unfold State.countBy; split <;> rfl
@[simp] theorem State.countBy_loops (pg : Nat) (fd : Fld) (n : Nat) (s : State) : (s.countBy pg fd n).loops = s.loops := by unfold State.countBy; split <;> rfl
@[simp] theorem State.countBy_seif (pg : Nat) (fd : Fld) (n : Nat) (s : State) : (s.countBy pg fd n).seif = s.seif := by unfold State.countBy; split <;> rfl
@[simp] theorem State.countBy_uart (pg : Nat) (fd : Fld) (n : Nat) (s : State) : (s.countBy pg fd n).uart = s.uart := by unfold State.countBy; split <;> rfl
@[simp] theorem State.countBy_clk (pg : Nat) (fd : Fld) (n : Nat) (s : State) : (s.countBy pg fd n).clk = s.clk := by unfold State.countBy; split <;> rfl
@[simp] theorem State.countBy_sec (pg : Nat) (fd : Fld) (n : Nat) (s : State) : (s.countBy pg fd n).sec = s.sec := by unfold State.countBy; split <;> rfl
@[simp] theorem State.countBy_pending (pg : Nat) (fd : Fld) (n : Nat) (s : State) : (s.countBy pg fd n).pending = s.pending := by unfold State.countBy; split <;> rfl

/-! ### State.count changes `regs` alone -/

@[simp] theorem State.count_time (pg : Nat) (fd : Fld) (s : State) : (s.count pg fd).time = s.time := by unfold State.count State.countBy; split <;> rfl
@[simp] theorem State.count_free (pg : Nat) (fd : Fld) (s : State) : (s.count pg fd).free = s.free := by unfold State.count State.countBy; split <;> rfl
@[simp] theorem State.count_shadow (pg : Nat) (fd : Fld) (s : State) : (s.count pg fd).shadow = s.shadow := by unfold State.count State.countBy; split <;> rfl
@[simp] theorem State.count_snap (pg : Nat) (fd : Fld) (s : State) : (s.count pg fd).snap = s.snap := by unfold State.count State.countBy; split <;> rfl
@[simp] theorem State.count_dram (pg : Nat) (fd : Fld) (s : State) : (s.count pg fd).dram = s.dram := by unfold State.count State.countBy; split <;> rfl
@[simp] theorem State.count_host (pg : Nat) (fd : Fld) (s : State) : (s.count pg fd).host = s.host := by unfold State.count State.countBy; split <;> rfl
@[simp] theorem State.count_mtb (pg : Nat) (fd : Fld) (s : State) : (s.count pg fd).mtb = s.mtb := by unfold State.count State.countBy; split <;> rfl
@[simp] theorem State.count_lpt (pg : Nat) (fd : Fld) (s : State) : (s.count pg fd).lpt = s.lpt := by unfold State.count State.countBy; split <;> rfl
@[simp] theorem State.count_txs (pg : Nat) (fd : Fld) (s : State) : (s.count pg fd).txs = s.txs := by unfold State.count State.countBy; split <;> rfl
@[simp] theorem State.count_wad (pg : Nat) (fd : Fld) (s : State) : (s.count pg fd).wad = s.wad := by unfold State.count State.countBy; split <;> rfl
@[simp] theorem State.count_mac (pg : Nat) (fd : Fld) (s : State) : (s.count pg fd).mac = s.mac := by unfold State.count State.countBy; split <;> rfl
@[simp] theorem State.count_oas (pg : Nat) (fd : Fld) (s : State) : (s.count pg fd).oas = s.oas := by unfold State.count State.countBy; split <;> rfl
@[simp] theorem State.count_erg (pg : Nat) (fd : Fld) (s : State) : (s.count pg fd).erg = s.erg := by unfold State.count State.countBy; split <;> rfl
@[simp] theorem State.count_trl (pg : Nat) (fd : Fld) (s : State) : (s.count pg fd).trl = s.trl := by unfold State.count State.countBy; split <;> rfl
@[simp] theorem State.count_mir (pg : Nat) (fd : Fld) (s : State) : (s.count pg fd).mir = s.mir := by unfold State.count State.countBy; split <;> rfl
@[simp] theorem State.count_nmap (pg : Nat) (fd : Fld) (s : State) : (s.count pg fd).nmap = s.nmap := by unfold State.count State.countBy; split <;> rfl
@[simp] theorem State.count_key (pg : Nat) (fd : Fld) (s : State) : (s.count pg fd).key = s.key := by unfold State.count State.countBy; split <;> rfl
@[simp] theorem State.count_lnk (pg : Nat) (fd : Fld) (s : State) : (s.count pg fd).lnk = s.lnk := by unfold State.count State.countBy; split <;> rfl
@[simp] theorem State.count_cav (pg : Nat) (fd : Fld) (s : State) : (s.count pg fd).cav = s.cav := by unfold State.count State.countBy; split <;> rfl
@[simp] theorem State.count_mrm (pg : Nat) (fd : Fld) (s : State) : (s.count pg fd).mrm = s.mrm := by unfold State.count State.countBy; split <;> rfl
@[simp] theorem State.count_sns (pg : Nat) (fd : Fld) (s : State) : (s.count pg fd).sns = s.sns := by unfold State.count State.countBy; split <;> rfl
@[simp] theorem State.count_loops (pg : Nat) (fd : Fld) (s : State) : (s.count pg fd).loops = s.loops := by unfold State.count State.countBy; split <;> rfl
@[simp] theorem State.count_seif (pg : Nat) (fd : Fld) (s : State) : (s.count pg fd).seif = s.seif := by unfold State.count State.countBy; split <;> rfl
@[simp] theorem State.count_uart (pg : Nat) (fd : Fld) (s : State) : (s.count pg fd).uart = s.uart := by unfold State.count State.countBy; split <;> rfl
@[simp] theorem State.count_clk (pg : Nat) (fd : Fld) (s : State) : (s.count pg fd).clk = s.clk := by unfold State.count State.countBy; split <;> rfl
@[simp] theorem State.count_sec (pg : Nat) (fd : Fld) (s : State) : (s.count pg fd).sec = s.sec := by unfold State.count State.countBy; split <;> rfl
@[simp] theorem State.count_pending (pg : Nat) (fd : Fld) (s : State) : (s.count pg fd).pending = s.pending := by unfold State.count State.countBy; split <;> rfl

/-! ### A unit reads as it was last written -/

theorem State.queue_setQueue (s : State) (n j : Nat) (q : Queue) :
    (s.setQueue n q).queue j = if n = j then q else s.queue j := Tab.get_set _ _ _ _ _

theorem State.ring_setRing (s : State) (n j : Nat) (r : Ring) :
    (s.setRing n r).ring j = if n = j then r else s.ring j := Tab.get_set _ _ _ _ _

theorem State.window_setWindow (s : State) (n j : Nat) (w : Window) :
    (s.setWindow n w).window j = if n = j then w else s.window j := Tab.get_set _ _ _ _ _

theorem State.ep_setEp (s : State) (a j : Nat) (r : EpRec) :
    (s.setEp a r).ep j = if a = j then r else s.ep j := Tab.get_set _ _ _ _ _

theorem State.eng_setEng (s : State) (c j : Nat) (e : Eng) :
    (s.setEng c e).eng j = if c = j then e else s.eng j := Tab.get_set _ _ _ _ _

theorem State.keySlot_setKeySlot (s : State) (n j : Nat) (k : KeySlot) :
    (s.setKeySlot n k).keySlot j = if n = j then k else s.keySlot j := Tab.get_set _ _ _ _ _

theorem State.snsCh_setSnsCh (s : State) (n j : Nat) (c : SnsCh) :
    (s.setSnsCh n c).snsCh j = if n = j then c else s.snsCh j := Tab.get_set _ _ _ _ _

theorem State.snsGrp_setSnsGrp (s : State) (g j : Nat) (x : SnsGrp) :
    (s.setSnsGrp g x).snsGrp j = if g = j then x else s.snsGrp j := Tab.get_set _ _ _ _ _

theorem State.blankPin_setBlankPin (s : State) (k j : Nat) (p : BlankPin) :
    (s.setBlankPin k p).blankPin j = if k = j then p else s.blankPin j := Tab.get_set _ _ _ _ _

theorem State.detector_setDetector (s : State) (k j : Nat) (d : Detector) :
    (s.setDetector k d).detector j = if k = j then d else s.detector j := Tab.get_set _ _ _ _ _

theorem State.loop_setLoop (s : State) (n j : Nat) (l : LoopCh) :
    (s.setLoop n l).loop j = if n = j then l else s.loop j := Tab.get_set _ _ _ _ _

theorem State.uartSt_setUart (s : State) (n j : Nat) (u : UartSt) :
    (s.setUart n u).uartSt j = if n = j then u else s.uartSt j := Tab.get_set _ _ _ _ _

theorem State.core_setCore (s : State) (k j : Nat) (c : SeifCore) :
    (s.setCore k c).core j = if k = j then c else s.core j := Tab.get_set _ _ _ _ _

theorem State.lptSt_setLpt (s : State) (p j : Nat) (x : LptSt) :
    (s.setLpt p x).lptSt j = if p = j then x else s.lptSt j := Tab.get_set _ _ _ _ _

theorem State.slot_setSlot (s : State) (i j : Nat) (x : Option Slot) :
    (s.setSlot i x).slot j = if i = j then x else s.slot j := Tab.get_set _ _ _ _ _

theorem State.pin_setPin (s : State) (r j : Nat) (x : Option PinSpan) :
    (s.setPin r x).pin j = if r = j then x else s.pin j := Tab.get_set _ _ _ _ _


end Sys2Proof.Machine
end

