-- ==== Sys2Proof/WellFormed.lean ====
section
/-! DEFINITION. Which commands are well formed: the operands satisfy the relation that their row asks for. The types of the
operands give every other bound. -/
namespace Sys2Proof

/-- The operands satisfy the relation of the command's row. -/
def Instr.wellFormed : Instr → Bool
  | .costTableLoad rates => Machine.Operands.costRates rates
  | .railSample _ ma mv => Machine.Operands.rails ma mv
  | .thermalSample _ readings => Machine.Operands.sensors readings
  | .loopUpdate _ readback => Machine.Operands.loops readback
  | .unknownCmd opcode _ => Machine.Operands.unassigned opcode
  | .pcieLongRead .. | .pcieBadWrite .. | .pcieLinkReset .. | .pcieD3hotEntry .. | .write .. | .writeQuad ..
  | .read .. | .readQuad .. | .status .. | .targetReset .. | .spiUnknownOpcode .. | .rdTimeout .. | .xingTimeout ..
  | .registerWrite .. | .rwsWrite .. | .commitApply .. | .commitDiscard .. | .safePoint .. | .softReset ..
  | .ctrlEnable .. | .freezeCnt .. | .eventsClear .. | .eventForce .. | .cntSnap .. | .bind .. | .pushHdr0 ..
  | .pushHdrWord .. | .pushData .. | .pushEnd .. | .popHdr0 .. | .popData .. | .release .. | .rewind ..
  | .drwAddrWrite .. | .drwModeWrite .. | .drwDataRead .. | .drwDataWrite .. | .vecAck .. | .vecMaskWrite ..
  | .ringHoldExpiry .. | .zeroCrossing .. | .mzcEdge .. | .referenceLoss .. | .nominalEnter .. | .acqRestart ..
  | .phaseWrap .. | .phaseBinBoundary .. | .accessPoint .. | .class0AccessPoint .. | .snap .. | .overload ..
  | .gainStepUp .. | .ampFault .. | .overcurrent .. | .pilotCheckDue .. | .checkNow .. | .checkDone ..
  | .portRetryDue .. | .txAfeOn .. | .echoReset .. | .portSamplesStart .. | .portSamplesStop .. | .preambleDetect ..
  | .syncFound .. | .ackSyncFound .. | .syncFail .. | .headerDecided .. | .cutDetect .. | .lastDataSymbol ..
  | .ackBodyDecided .. | .cfgAbort .. | .engineRecall .. | .watchReport .. | .enginePark .. | .parkTimeout ..
  | .engineUnpark .. | .trellisDecodeDone .. | .cellDataWrite .. | .cellDataRead .. | .nmapKernelWrite ..
  | .nmapAgeTick .. | .transmissionStart .. | .victimCut .. | .transmissionEnd .. | .txEnergyReport ..
  | .slabWrite .. | .replayJobStart .. | .replayBlockBoundary .. | .combineDone .. | .slotTimeout .. | .pin ..
  | .unpin .. | .lookup .. | .diagGo .. | .diagAbort .. | .slotBoundary .. | .ackStart .. | .ackWindowClose ..
  | .wakeFrameDue .. | .wakeDataDue .. | .framePathReceive .. | .helloReceived .. | .endpointSilent ..
  | .neighbourReceived .. | .reportReceived .. | .testReceived .. | .sessOpenReceived .. | .segReceived ..
  | .sackReceived .. | .sessAcceptReceived .. | .sessRefuseReceived .. | .sessQueryReceived ..
  | .sessAbortReceived .. | .sackWaitExpiry .. | .probeExpiry .. | .sessionHoldExpiry .. | .lnkNop .. | .lnkHalt ..
  | .epAdd .. | .epRemove .. | .epQuery .. | .keySet .. | .sessSend .. | .sessCancel .. | .sessQuery ..
  | .sessRelease .. | .routeQuery .. | .routeSet .. | .evtDataRead .. | .lnkWatchdogExpiry .. | .lnkFault ..
  | .lnkReportsRunning .. | .openQueue .. | .closeQueue .. | .pauseQueue .. | .resumeQueue .. | .flushQueue ..
  | .cancelMsg .. | .expiredDeadline .. | .refusedBudget .. | .completionRecordWrite .. | .lossRecordWrite ..
  | .creditWindow .. | .dispatch .. | .railHoldExpiry .. | .thermalStepDown .. | .capLevelUp .. | .capLevelDown ..
  | .sprintDemandTimeout .. | .ampSensorTimeout .. | .domainWakeStart .. | .domainWakeDone .. | .domainSwitchOff ..
  | .modeService .. | .modeStandby .. | .modeDeepSleep .. | .senseSlotStart .. | .settleDone .. | .rangeOverload ..
  | .complianceLoss .. | .openCheckDue .. | .snsCheckNow .. | .openCheckDone .. | .commonModeShort ..
  | .shortClear .. | .reverseCheckDone .. | .blankActivate .. | .blankRelease .. | .blankWindowEnd ..
  | .blankStuck .. | .detectorWindowEnd .. | .decimatorOutput .. | .dsyncPin .. | .dsync .. | .capDataRead ..
  | .capFlush .. | .forceFault .. | .forceRelease .. | .hostValueWrite .. | .seifRun .. | .seifHalt .. | .seifStep ..
  | .claim .. | .claimDecision .. | .seifRelease .. | .mboxInWrite .. | .seifWindowWrite .. | .seifTimerTick ..
  | .interruptEntry .. | .illegalInstruction .. | .insNop .. | .insMov .. | .insClr .. | .insAdd .. | .insSub ..
  | .insAddq .. | .insNeg .. | .insAbs .. | .insMin .. | .insMax .. | .insCmp .. | .insTst .. | .insAnd ..
  | .insOr .. | .insXor .. | .insNot .. | .insAsl .. | .insAsr .. | .insLsr .. | .insAshv .. | .insNorm ..
  | .insSxt16 .. | .insMpy .. | .insCadd .. | .insCsub .. | .insCconj .. | .insCrotj .. | .insPack .. | .insCasr ..
  | .insClra .. | .insLda .. | .insMac .. | .insMsu .. | .insMac2 .. | .insCmpy .. | .insCmac .. | .insCmacj ..
  | .insCmsu .. | .insMag2a .. | .insAdda .. | .insSuba .. | .insSha .. | .insExtr .. | .insExti .. | .insCext ..
  | .insMaxx .. | .insMaxy .. | .insMinx .. | .insMiny .. | .insJmp .. | .insCall .. | .insRet .. | .insReti ..
  | .insDo .. | .insDor .. | .insWait .. | .insStop .. | .insLdi .. | .insStset .. | .insStclr .. | .data8 ..
  | .data16 .. | .data32 .. | .preset .. | .restart .. | .crcStateWrite .. | .uartCharReceived .. | .break_ ..
  | .lineStuck .. | .lineRecover .. | .rxDataRead .. | .txData .. | .uartCharSent .. | .txGapExpiry ..
  | .deRelease .. | .idle .. | .abArm .. | .abCancel .. | .abMeasureDone .. | .rxResume .. | .rxFlush ..
  | .txFlush .. | .sendBreak .. | .uartCfgAbort .. | .linkUp .. | .linkDown .. | .retrainTimer ..
  | .ringMessageResend .. | .retrain .. | .timeMarkSend .. | .timeMarkReceive .. | .beaconSend .. | .beaconReceive ..
  | .dsyncMessage .. | .orphanTimeout .. | .ringOpen .. | .tokenClaim .. | .tokenGrant .. | .tokenRelease ..
  | .preempt .. | .ackReservation .. | .deepenFieldReceive .. | .sclkFail .. | .sampleReturn .. | .returnDone ..
  | .xinLoss .. | .aonFail .. | .powerOnReset .. | .pinReset .. | .warm .. | .chip .. | .wdtKick .. | .wdtExpired ..
  | .deepSleepWake .. | .dramTrainingDone .. | .scrubPass .. | .dramHot .. | .bootImageVerify .. | .fwStart ..
  | .bootHost .. | .advance .. | .attest .. | .attDone .. | .attDataRead .. | .unlockChallenge .. | .tokenWrite ..
  | .unlock .. | .unlockVerifyDone .. | .fuseLock .. | .recovery .. | .flashProgram .. | .flashErase ..
  | .flashDone .. | .flashDataRead .. | .flashDataWrite .. | .autoFwRestart .. | .keyWrite .. | .keyClear ..
  | .mrmDataRead .. | .mrmDataWrite .. | .heartbeat .. | .mbDone .. | .linkCoreStart .. | .seifWindowRead ..
  | .pllUnlock .. | .enaLeadStart .. | .enaLagExpiry .. | .txMarkEnd .. | .dsyncRelease .. | .pcieLinkUp .. => true

end Sys2Proof
end

