-- ==== Sys2Proof/Tests/Slice0.lean ====
section
/-! SUPPORT. Tests: every check of WellFormed refuses an ill-formed command; for each statement of Obligations.lean, states and operands
that meet the hypotheses of its clauses together (`witness_<statement>`); single steps whose results are worked out from the
rules (`test_<what>`). -/
namespace Sys2Proof.Tests
open Sys2Proof Sys2Proof.Machine
set_option maxRecDepth 20000

/-! ## Small states -/

/-- Writes fields, each given with its page and value. -/
def setF (l : List (Nat × Fld × Nat)) (s : State) : State := l.foldl (fun s e => s.put e.1 e.2.1 e.2.2) s

/-- Switches power domains on. -/
def on (l : List Nat) (s : State) : State := l.foldl (fun s d => s.put Pg.PWD1 (PWD1.STATE.nth d) 2) s

/-- The value that a command leaves in what `f` reads of the next state; none where there is no next state. -/
def after {α : Type} (c : Instr) (s : State) (f : State → α) : Option α :=
  match exec c s with
  | .next t => some (f t)
  | _ => none

theorem reaches (pg : Nat) (s : State) (h : (s.unreachable, s.pageOn pg, s.clockStopped pg, s.host.spiBuf) = (false, true, false, [])) :
    s.Reaches pg := by
  simp only [Prod.mk.injEq] at h
  exact h

/-! ## Host interface and common frame -/

/-- A record of one payload word. -/
def aRec : Rec := ⟨[7, 0, 0, 0, 0, 0, 0, 0], [1, 2, 3, 4], 0⟩
/-- The chip boots with an SPI host. -/
def spi : State := setF [(Pg.HIF, HIF.LINK_HOST, 1)] State.reset

theorem witness_PcieRequestsAndLink :
    (∃ s : State, s.onPcie = true ∧ s.unreachable = false ∧ 1 < 2 ∧ LinkResetCause.linkDown ≠ .d3Return) ∧
    (∃ (s : State) (msi : MsiConfig) (v : Nat), s.onPcie = true ∧ s.unreachable = false ∧ v < 32 ∧
      bitOf (s.get Pg.HIF HIF.VEC_PEND) v = 1 ∧ bitOf (s.get Pg.HIF HIF.VEC_MASK) v = 0 ∧ msi.enable = true ∧
      bitOf msi.mask.toNat v = 0 ∧ s.flag Pg.HIF HIF.LINK_MSI_EN = false) :=
  ⟨⟨State.reset, by decide⟩, ⟨setF [(Pg.HIF, HIF.VEC_PEND, 2 ^ 31), (Pg.HIF, HIF.VEC_MASK, 0)] State.reset, ⟨true, 5, 0⟩, 31, by decide⟩⟩

theorem witness_SpiStatusErrorsAndOrder :
    (∃ (s : State) (op : Byte), s.spiOn = true ∧ s.host.spiBuf = [] ∧ op ∉ spiOpcodes) ∧
    (∃ s : State, s.spiOn = true ∧ s.host.spiBuf = [] ∧ s.host.spiReading = true) :=
  ⟨⟨spi, 0x9F, by decide⟩, ⟨{ spi with host := { spi.host with spiReading := true } }, by decide⟩⟩

/-- A page whose set is armed. -/
def armed (pg : Nat) : State := setF [(pg, CFG.PENDING, 1), (pg, CFG.ARMED, 1)] State.reset

theorem witness_CommonFrameAndShadowWrites :
    (∃ (s : State) (page : Fin 512), s.Reaches page.val ∧ s.Reaches Pg.GLB ∧ pageIndex page.val = some (.flt, 0x51, 0) ∧
      page.val ≠ Pg.GLB ∧ PageKind.flt ∉ [PageKind.mtb, .lpt, .cav, .uart, .mir]) ∧
    (∃ (s : State) (page : Fin 512) (off : BitVec 12), s.Reaches page.val ∧ page.val ≠ Pg.GLB ∧
      pageIndex page.val = some (.flt, 0x51, 0) ∧ accOf .flt (off.toNat / 4 * 4) = some .rws ∧ s.flag page.val CFG.ARMED = true) ∧
    (∃ (s : State) (page : Fin 512) (off : BitVec 12) (v : Word), s.Reaches page.val ∧ page.val ≠ Pg.GLB ∧
      pageIndex page.val = some (.flt, 0x51, 0) ∧ accOf .flt (off.toNat / 4 * 4) = some .rws ∧ s.flag page.val CFG.ARMED = false ∧
      s.notHosts .flt 0 (off.toNat / 4 * 4) = false ∧ wordVerdict .flt (off.toNat / 4 * 4) (maskWord .flt (off.toNat / 4 * 4) v) = none) ∧
    (∃ (s : State) (page : Fin 512), s.Reaches page.val ∧ page.val ≠ Pg.GLB ∧ (pageIndex page.val).isSome = true ∧
      s.flag page.val CFG.ARMED = false ∧ s.flag page.val CFG.PENDING = false) :=
  ⟨⟨State.reset, ⟨Pg.FLT, by decide⟩, reaches _ _ (by decide), reaches _ _ (by decide), by decide⟩,
   ⟨armed Pg.FLT, ⟨Pg.FLT, by decide⟩, 0x010, reaches _ _ (by decide), by decide⟩,
   ⟨State.reset, ⟨Pg.FLT, by decide⟩, 0x010, 5, reaches _ _ (by decide), by decide⟩,
   ⟨State.reset, ⟨Pg.FLT, by decide⟩, reaches _ _ (by decide), by decide⟩⟩

/-- A page with one shadow value, armed. -/
def armedWith (pg off : Nat) (v : Word) : State := { armed pg with shadow := [(addrOf pg off, v)] }

theorem shadow_sound (s : State) (k : PageKind) (code inst pg off : Nat) (v : Word) (hs : s.shadow = [(addrOf pg off, v)])
    (ho : addrOf pg off / 4096 = pg ∧ addrOf pg off % 4096 = off) (hi : pageIndex pg = some (k, code, inst))
    (ha : accOf k off = some .rws) : s.ShadowSound := by
  refine ⟨by simp [hs, Tab.rising], ?_⟩
  intro e he k' code' inst' h
  rw [hs] at he
  cases List.mem_singleton.mp he
  rw [ho.2]
  have h4 : pg = (addrOf pg off) / 4096 := ho.1.symm
  rw [← h4, hi] at h
  cases h
  exact ha

theorem witness_CommitAndSoftReset :
    (∃ (s : State) (page : Fin 512) (tick : Nat), pageIndex page.val = some (.nmap, 0x43, 0) ∧ s.pageOn page.val = true ∧
      s.clockStopped page.val = false ∧ s.ShadowSound ∧ s.flag page.val CFG.ARMED = true ∧ s.isSafePoint page.val tick = true) ∧
    (∃ (s : State) (v : Word) (tick : Nat), s.Reaches Pg.NMAP ∧ s.flag Pg.NMAP CFG.ARMED = false ∧ s.shadow = [] ∧
      accOf .nmap 0x010 = some .rws ∧ wordVerdict .nmap 0x010 (maskWord .nmap 0x010 v) = none ∧ s.binDue tick = true) ∧
    (∃ s : State, s.Reaches Pg.FLT) :=
  ⟨⟨armedWith Pg.NMAP 0x010 5, ⟨Pg.NMAP, by decide⟩, 2048, by decide, by decide, by decide,
    shadow_sound _ .nmap 0x43 0 Pg.NMAP 0x010 5 rfl (by decide) (by decide) (by decide), by decide, by decide⟩,
   ⟨State.reset, 5, 2048, reaches _ _ (by decide), by decide⟩, ⟨armed Pg.FLT, reaches _ _ (by decide)⟩⟩

/-- A window bound to queue 0x45 with one word appended, and another with the most words. -/
def pushing (n : Nat) (p : Option OpenPush) : State := State.reset.setWindow n ⟨true, 0x45, 0, p, none⟩
/-- A queue of class 2 to endpoint 9. -/
def aQueue : Queue := { Queue.idle with d14 := 2, d18 := 9, d1C := 0x13880100, isOpen := true }

/-- A window bound to the open queue 0x45, with two words appended, the second used up to its first byte. -/
def submitting : State :=
  setF [(Pg.DRC 0, DRC.EN.nth 0, 1), (Pg.DRC 0, DRC.KIND.nth 0, 4), (Pg.DRC 0, DRC.SIZE.nth 0, 1)]
    { pushing 63 (some ⟨[3, 0, 0, 0], [1, 2], false⟩) with wad := { State.reset.wad with
        queues := [(0x45, { aQueue with d14 := 0xF2 })], nextTag := 65535 } }

theorem witness_PushBuildsAndSubmits :
    (∃ (s : State) (win : Fin 64), s.Reaches Pg.HIF ∧ (s.window win.val).push = none ∧ (s.window win.val).bindValid = true) ∧
    (∃ (s : State) (win : Fin 64), s.Reaches Pg.HIF ∧ (s.window win.val).push = none ∧ (s.window win.val).bindValid = false) ∧
    (∃ (s : State) (win : Fin 64) (p : OpenPush) (bytes : BitVec 17), s.Reaches Pg.HIF ∧ (s.window win.val).push = some p ∧
      p.words.length < 16384 ∧ p.tooLong = false ∧ bytes ≠ 0 ∧ 4 * p.words.length < bytes.toNat) ∧
    (∃ (s : State) (win : Fin 64) (p : OpenPush), s.Reaches Pg.HIF ∧ (s.window win.val).push = some p ∧ 16384 ≤ p.words.length) ∧
    (∃ (s u : State) (win : Fin 64) (bytes : BitVec 17) (p : OpenPush) (n tag : Nat) (payload : List Byte), s.Reaches Pg.HIF ∧
      (s.window win.val).push = some p ∧ p.tooLong = false ∧ bytes ≠ 0 ∧ 4 * (p.words.length - 1) < bytes.toNat ∧
      bytes.toNat ≤ 4 * p.words.length ∧ n = (s.window win.val).bindQueue ∧
      tag = nextTagFrom ((s.queue n).msgs.map (·.tag)) 65536 s.wad.nextTag ∧
      payload = (p.words.flatMap fun v => leBytes 4 v.toNat).take bytes.toNat ∧
      u = { s.setWindow win.val { s.window win.val with push := none } with
            wad := { s.wad with nextTag := (tag + 1) % 65536, nextOrd := s.wad.nextOrd + 1 } } ∧
      u.submitCheck n (newMsg tag p.hdr payload 0 s.wad.nextOrd s.time none) payload.length false = none) :=
  ⟨⟨pushing 63 none, 63, reaches _ _ (by decide), by decide⟩, ⟨State.reset, 0, reaches _ _ (by decide), by decide⟩,
   ⟨pushing 0 (some ⟨[0, 0, 0, 0], [1], false⟩), 0, ⟨[0, 0, 0, 0], [1], false⟩, 5, reaches _ _ (by decide), by decide⟩,
   ⟨pushing 0 (some ⟨[0, 0, 0, 0], List.replicate 16384 1, false⟩), 0, ⟨[0, 0, 0, 0], List.replicate 16384 1, false⟩,
     reaches _ _ (by decide), rfl, Nat.le_of_eq List.length_replicate.symm⟩,
   ⟨submitting, _, 63, 5, ⟨[3, 0, 0, 0], [1, 2], false⟩, _, _, _, reaches _ _ (by decide), rfl, rfl, by decide, by decide, by decide,
     rfl, rfl, rfl, rfl, by decide⟩⟩

/-- A window whose record has been read up to word i. -/
def popping (i : Nat) : State := State.reset.setWindow 3 ⟨false, 0, 0, none, some (aRec, i)⟩
/-- A ring that holds one record. -/
def ringed (n : Nat) : State := { State.reset with wad := { State.reset.wad with rings := [(n, { Ring.idle with recs := [aRec] })] } }

theorem witness_PopReadsAndFreesRecords :
    (∃ (s : State) (win : Fin 64) (r : Rec) (rs : List Rec), s.Reaches Pg.HIF ∧ (s.window win.val).pop = none ∧
      (s.ring win.val).recs = r :: rs) ∧
    (∃ (s : State) (win : Fin 64), s.Reaches Pg.HIF ∧ (s.window win.val).pop = none ∧ (s.ring win.val).recs = []) ∧
    (∃ (s : State) (r : Rec) (i : Nat), s.Reaches Pg.HIF ∧ (s.window 3).pop = some (r, i) ∧ 4 * i < r.payload.length) ∧
    (∃ (s : State) (r : Rec) (i : Nat), s.Reaches Pg.HIF ∧ (s.window 3).pop = some (r, i) ∧ r.payload.length ≤ 4 * i) :=
  ⟨⟨ringed 63, 63, aRec, [], reaches _ _ (by decide), by decide⟩, ⟨State.reset, 0, reaches _ _ (by decide), by decide⟩,
   ⟨popping 0, aRec, 0, reaches _ _ (by decide), by decide⟩, ⟨popping 1, aRec, 1, reaches _ _ (by decide), by decide⟩⟩

/-- DRAM of 8 GB in service with one region of a kind at its start. -/
def dram (kind : Nat) (ecc wr : Bool) : State :=
  State.setRegion 0 (kind, 0, 64, ecc, wr) (setF [(Pg.DRC 0, DRC.CAPACITY_MIB, 8192), (Pg.DRC 0, DRC.CHANNELS_ACTIVE, 15),
    (Pg.DRC 0, DRC.STATE, 1), (Pg.DRC 1, DRC.STATE, 1), (Pg.DRC 2, DRC.STATE, 1), (Pg.DRC 3, DRC.STATE, 1)] State.reset)

theorem witness_DrwReadsAndWritesDram :
    (∃ s : State, s.Reaches Pg.DRW ∧ s.drwRefused s.drwAddr = false ∧ s.host.preWords = [] ∧ s.drwAddr < s.dramCapacity ∧
      s.checkBits s.drwAddr = false) ∧ (∃ s : State, s.Reaches Pg.DRW ∧ s.drwRefused s.drwAddr = true) :=
  ⟨⟨setF [(Pg.DRW, DRW.ADDR_LO, 64 * 131072 - 1)] (dram 6 false true), reaches _ _ (by decide), by decide⟩,
   ⟨dram 7 false true, reaches _ _ (by decide), by decide⟩⟩

theorem witness_VectorsAndAbandonedAccesses :
    (∃ s : State, s.Reaches Pg.HIF ∧ s.Followed ∧ s.activeSources = 0 ∧ s.unreachable = false) ∧
    (∃ (s : State) (tick : Nat) (ring : Fin 64) (r : Rec), r ∈ (s.ring ring.val).recs ∧
      s.get Pg.WAD (WAD.INT_HOLD_US.nth ring.val) ≠ 0 ∧ usTicks (s.get Pg.WAD (WAD.INT_HOLD_US.nth ring.val)) ≤ tick - r.at_) :=
  ⟨⟨State.reset, reaches _ _ (by decide), ⟨by decide, by decide, by unfold State.tbServes; decide⟩, by decide⟩,
   ⟨setF [(Pg.WAD, WAD.INT_HOLD_US.nth 63, 1)] (ringed 63), 3, 63, aRec, by decide⟩⟩

/-! ## Mains timebase -/

/-- A timebase in a state, fed by source 0 alone, at the reset thresholds; its last crossing was at tick 1000, and pin 0 has risen
at tick `c`. -/
def tb (st freq c : Nat) : State :=
  let s := setF [(Pg.MTB, MTB.MODE, 2), (Pg.MTB, MTB.SRC_EN, 1), (Pg.MTB, MTB.STATE, st), (Pg.MTB, MTB.FREQ, freq),
    (Pg.MTB, MTB.MZC_GLITCH, 16), (Pg.CAV, CAV.ROLE, 1)] State.reset
  { s with mtb := { s.mtb with src := [(0, { MtbSrc.idle with last := some 1000 })], anchor := 1000, phi := 0
                               mzc := [(0, ⟨false, true, c⟩)] } }

/-- What every clause about a crossing of source 0 at tick c, judged at `tick`, starts from. -/
def crosses (s : State) (tick c : Nat) : Prop :=
  s.tbSlave = false ∧ s.tbSources = [0] ∧ s.crossingDue tick 0 = some c ∧ s.time ≤ tick

theorem witness_CrossingsLockAndRelock :
    (∃ (s : State) (tick c : Nat), crosses s tick c ∧ s.tb ≠ TB.OFF ∧ (s.tbSrc 0).last = none) ∧
    (∃ (s : State) (tick c last : Nat), crosses s tick c ∧ (s.tbSrc 0).last = some last ∧ s.mtb.cyc = [] ∧ s.tb = TB.ACQUIRE ∧
      c - last < 29696) ∧
    (∃ (s : State) (tick c last : Nat), crosses s tick c ∧ (s.tbSrc 0).last = some last ∧ s.mtb.cyc = [] ∧ 29696 ≤ c - last ∧
      c - last ≤ 47104 ∧ s.tb = TB.ACQUIRE ∧ s.mtb.firstValid = none ∧ s.mtb.anchor ≤ c ∧
      s.phiAt tick = s.phiAt c + (tick - c) * s.get Pg.MTB MTB.FREQ) ∧
    (∃ (s : State) (tick c last : Nat), crosses s tick c ∧ (s.tbSrc 0).last = some last ∧ s.mtb.cyc = [] ∧ 29696 ≤ c - last ∧
      c - last ≤ 47104 ∧ s.tb = TB.ACQUIRE ∧ s.mtb.firstValid ≠ none ∧ 1 ≤ s.mtb.okRun ∧
      (s.crossErr c 0).natAbs ≤ s.get Pg.MTB MTB.LOCK_THRESH) ∧
    (∃ (s : State) (tick c last : Nat) (e0 : Int), crosses s tick c ∧ s.tb = TB.HOLDOVER ∧ (s.tbSrc 0).last = some last ∧
      s.mtb.cyc = [] ∧ 29696 ≤ c - last ∧ c - last ≤ 47104 ∧ s.mtb.holdErr = some e0 ∧
      (wrapErr (s.crossErr c 0 - e0)).natAbs ≤ s.get Pg.MTB MTB.REJECT_THRESH ∧ 8192 < s.crossErr c 0) := by
  unfold crosses
  exact
  ⟨⟨{ tb 1 3276800 2000 with mtb := { State.reset.mtb with mzc := [(0, ⟨false, true, 2000⟩)] } }, 2016, 2000, by decide⟩,
   ⟨tb 1 3276800 30695, 30711, 30695, 1000, by decide⟩,
   ⟨tb 1 3276800 48104, 48120, 48104, 1000, by decide⟩,
   ⟨{ tb 1 3276800 41960 with mtb := { (tb 1 3276800 41960).mtb with firstValid := some 1000, okRun := 1 } }, 41976, 41960, 1000, by decide⟩,
   ⟨{ tb 3 3276800 41960 with mtb := { (tb 3 3276800 41960).mtb with holdErr := some 9999, phi := 10000 * phiCount } }, 41976, 41960,
     1000, 9999, by decide⟩⟩

theorem witness_ReferenceLossAndRestart :
    (∃ (s : State) (tick : Nat), s.tb = TB.LOCKED ∧ s.tbSlave = false ∧ s.mtb.periods ≠ [] ∧
      3 * s.heldPeriod ≤ 2 * (tick - s.mtb.lastValid)) ∧
    (∃ (s : State) (tick : Nat), s.tb = TB.HOLDOVER ∧ msTicks (s.get Pg.MTB MTB.HOLDOVER_MS) ≤ tick - s.mtb.holdStart) ∧
    (∃ s : State, s.tb = TB.ACQUIRE ∧ s.mtb.firstValid ≠ none ∧ 8 ≤ s.mtb.cyclesSince) :=
  ⟨⟨{ tb 2 3276800 0 with mtb := { (tb 2 3276800 0).mtb with periods := [40960, 40960], lastValid := 1000 } }, 62440, by decide⟩,
   ⟨tb 3 3276800 0, 2048 * 16383, by decide⟩,
   ⟨{ tb 1 3276800 0 with mtb := { (tb 1 3276800 0).mtb with firstValid := some 1000, cyclesSince := 8 } }, by decide⟩⟩

/-- Pin 0 high since tick 5000 and not yet filtered. -/
def mzcHigh : State := { tb 1 3276800 0 with mtb := { State.reset.mtb with mzc := [(0, ⟨false, true, 5000⟩)] } }

theorem witness_MzcFilterAndPhaseWrap :
    (∃ (s : State) (tick : Nat) (pin : Fin 3) (p : MzcPin) (high : Bool), p = Tab.get (fun _ => MzcPin.idle) s.mtb.mzc pin.val ∧
      p.raw ≠ high ∧ p.raw ≠ p.level ∧ tick - p.since < s.get Pg.MTB MTB.MZC_GLITCH) ∧
    (∃ (s : State) (tick : Nat) (pin : Fin 3) (p : MzcPin) (high : Bool), p = Tab.get (fun _ => MzcPin.idle) s.mtb.mzc pin.val ∧
      p.raw ≠ high ∧ p.raw ≠ p.level ∧ s.get Pg.MTB MTB.MZC_GLITCH ≤ tick - p.since ∧ (p.raw = !s.flag Pg.MTB MTB.MZC_EDGE) ∧
      s.get Pg.MTB MTB.MODE = 2 ∧ s.tb ≠ TB.OFF ∧ s.tbSlave = false ∧ pin.val ∈ s.tbSources ∧ (s.tbSrc pin.val).last = none) ∧
    (∃ (s : State) (tick r : Nat), s.tb ≠ TB.OFF ∧ phiCycle ≤ s.phiAt tick ∧ s.regionOf regionTimebaseLog = some r) ∧
    (∃ s : State, s.tb = TB.OFF) :=
  ⟨⟨mzcHigh, 5015, 0, ⟨false, true, 5000⟩, false, by decide⟩,
   ⟨mzcHigh, 5016, 0, ⟨false, true, 5000⟩, false, by decide⟩,
   ⟨setF [(Pg.DRC 0, DRC.EN.nth 3, 1), (Pg.DRC 0, DRC.KIND.nth 3, 10), (Pg.DRC 0, DRC.BASE.nth 3, 2)] (tb 2 3276800 0), 41960, 3, by decide⟩,
   ⟨State.reset, by decide⟩⟩

theorem witness_SnapLatchesOneInstant : ∃ s : State, s.Reaches Pg.MTB ∧ s.time < 2 ^ 64 :=
  ⟨tb 2 3276800 0, reaches _ _ (by decide), by decide⟩

/-! ## Line ports -/

/-- Port 15 in a state with both AFE domains on. -/
def port (st : Nat) (l : List (Fld × Nat)) : State :=
  setF (((LPT.STATE, st) :: l).map fun e => (Pg.LPT 15, e.1, e.2)) (on [111, 127] State.reset)
/-- What port 15 keeps. -/
def keeps (x : LptSt) (s : State) : State := s.setLpt 15 x
/-- A transmission of class 2 on port 15. -/
def aLane (ph : LanePhase) : Lane :=
  { kind := .data, phase := ph, queue := 0x45, tag := 1, cls := 2, ch := 0, centre := 100, rate := 0, preamble := 0, level := 30
    sync := 0, mod := 0, code := 0, copies := 1, copy := 0, p0 := 0, due := 9000, t0 := 9000, tEnd := 99000, ackReq := false
    field := [], ack := none, robust := false, energy := 0, victim := false, cutFrom := 0, held := false, phases := [] }
/-- A lane of port 15 in use. -/
def laned (ph : LanePhase) (s : State) : State := { s with txs := { s.txs with lanes := [(240, some (aLane ph))] } }

theorem witness_OverloadAndGainSteps :
    (∃ (s : State) (tick first now base : Nat) (p : Fin 16) (samples : List (BitVec 16)), s.portSamples p.val = true ∧
      s.overloaded tick p.val samples = true ∧ first = tick - samples.length ∧
      now = s.get (Pg.LPT p.val) LPT.GAIN_NOW ∧ s.get (Pg.LPT p.val) LPT.GAIN_MIN < now ∧
      base = (if (s.lptSt p.val).stepAt = tick then (s.lptSt p.val).stepFrom else now)) ∧
    (∃ (s : State) (tick first : Nat) (p : Fin 16) (samples : List (BitVec 16)), s.portSamples p.val = true ∧
      s.overloaded tick p.val samples = true ∧ first = tick - samples.length ∧
      s.get (Pg.LPT p.val) LPT.GAIN_NOW ≤ s.get (Pg.LPT p.val) LPT.GAIN_MIN) ∧
    (∃ (s : State) (tick : Nat) (p : Fin 16), s.portSamples p.val = true ∧ tick = s.mtb.boundary ∧
      s.get (Pg.LPT p.val) LPT.GAIN_NOW < s.gainWanted p.val tick ∧ s.holdPassed p.val tick = true) :=
  ⟨⟨port 2 [(LPT.GAIN_NOW, 4), (LPT.GAIN_MIN, 3), (LPT.OVL_COUNT, 2), (LPT.OVL_THRESH, 32767)], 50, 48, 4, 4, 15, [0x7FFF, 0x8001],
     by decide⟩,
   ⟨port 2 [(LPT.GAIN_NOW, 3), (LPT.GAIN_MIN, 3), (LPT.OVL_COUNT, 1), (LPT.OVL_THRESH, 32768)], 50, 49, 15, [0x8000], by decide⟩,
   ⟨{ port 2 [(LPT.GAIN_NOW, 3), (LPT.GAIN, 4), (LPT.UP_HOLD_MS, 1)] with mtb := { State.reset.mtb with boundary := 2048 } }, 2048, 15,
     by decide⟩⟩

theorem witness_ChecksStartAndEnd :
    (∃ (s : State) (page : Fin 512), page.val = Pg.LPT 15 ∧ s.Reaches page.val ∧ s.deepenSlave = false ∧ s.enabled page.val = false ∧
      s.lps 15 = LS.OFF ∧ s.domOn 127 = true) ∧
    (∃ (s : State) (tick : Nat), s.lps 15 = LS.SERVICE ∧ s.get (Pg.LPT 15) LPT.CHECK_MS ≠ 0 ∧ (s.lptSt 15).checking = false ∧
      (s.lptSt 15).lastCheck + msTicks (s.get (Pg.LPT 15) LPT.CHECK_MS) ≤ tick) ∧
    (∃ s : State, s.Reaches (Pg.LPT 15) ∧ s.lps 15 = LS.FAULT_LATCHED) ∧
    (∃ s : State, s.Reaches (Pg.LPT 15) ∧ s.lps 15 = LS.SERVICE ∧ (s.lptSt 15).checking = false) ∧
    (∃ (s : State) (tick : Nat), s.lps 15 = LS.FAULT ∧ (s.lptSt 15).retryDue ≤ tick ∧
      s.get (Pg.LPT 15) LPT.RETRIES < s.get (Pg.LPT 15) LPT.RETRY_LIMIT) ∧
    (∃ (s : State) (tick : Nat), s.lps 15 = LS.FAULT ∧ (s.lptSt 15).retryDue ≤ tick ∧ s.get (Pg.LPT 15) LPT.RETRY_LIMIT ≠ 0 ∧
      s.get (Pg.LPT 15) LPT.RETRY_LIMIT ≤ s.get (Pg.LPT 15) LPT.RETRIES) ∧
    (∃ s : State, s.lps 15 = LS.SERVICE ∧ s.domOn 127 = true ∧ s.flag (Pg.LPT 15) LPT.TX_AVAIL = false ∧
      (s.lptSt 15).pilot = false) :=
  ⟨⟨port 0 [], ⟨Pg.LPT 15, by decide⟩, by decide, reaches _ _ (by decide), by decide⟩,
   ⟨port 2 [(LPT.CHECK_MS, 1)], 2048, by decide⟩, ⟨port 4 [], reaches _ _ (by decide), by decide⟩,
   ⟨port 2 [], reaches _ _ (by decide), by decide⟩, ⟨port 3 [(LPT.RETRIES, 2), (LPT.RETRY_LIMIT, 3)], 0, by decide⟩,
   ⟨port 3 [(LPT.RETRIES, 3), (LPT.RETRY_LIMIT, 3)], 0, by decide⟩, ⟨port 2 [], by decide⟩⟩

/-- An adaptation that left the first tap at −1. -/
def anEcho : EchoResult := ⟨0, 0, [0xFFFFFF]⟩
/-- Port 15 at the end of the pilot of a check that measures the polarity. -/
def checking (l : List (Fld × Nat)) : State := keeps { LptSt.idle with checking := true, polar := true, pilot := true } (port 1 l)

theorem witness_ChecksStartAndEnd_end :
    (∃ (s : State) (tick ret z : Nat) (m : PilotResult), (s.lptSt 15).checking = true ∧ (s.lptSt 15).pilot = true ∧
      ret = s.pilotReturn 15 m.rx ∧ z = s.pilotZ 15 m.isns ∧ (s.lptSt 15).ocFound = false ∧
      s.pilotEnd 15 ≤ tick ∧ s.lps 15 = LS.CHECK ∧ s.domOn 127 = true ∧ s.get (Pg.LPT 15) LPT.REV_ACTION = 0 ∧
      s.get (Pg.LPT 15) LPT.Z_MIN ≤ z ∧ z ≤ s.get (Pg.LPT 15) LPT.Z_MAX ∧ ret ≤ s.get (Pg.LPT 15) LPT.PILOT_RX_MIN_DB) ∧
    (∃ (s : State) (tick z : Nat) (m : PilotResult), (s.lptSt 15).checking = true ∧ (s.lptSt 15).pilot = true ∧ s.pilotEnd 15 ≤ tick ∧
      z = s.pilotZ 15 m.isns ∧ (s.lptSt 15).ocFound = false ∧
      s.lps 15 = LS.CHECK ∧ s.domOn 127 = true ∧ s.QuietPort 15 ∧ s.get (Pg.LPT 15) LPT.REV_ACTION = 0 ∧
      s.get (Pg.LPT 15) LPT.RETRY_LIMIT = 0 ∧ z < s.get (Pg.LPT 15) LPT.Z_MIN) ∧
    (∃ (s : State) (tick d ret z : Nat) (m : PilotResult) (r : BitVec 16), (s.lptSt 15).checking = true ∧ (s.lptSt 15).pilot = true ∧
      ret = s.pilotReturn 15 m.rx ∧ z = s.pilotZ 15 m.isns ∧ (s.lptSt 15).ocFound = false ∧
      s.pilotEnd 15 ≤ tick ∧ s.lps 15 = LS.CHECK ∧ s.domOn 127 = true ∧ s.QuietPort 15 ∧ s.get (Pg.LPT 15) LPT.REV_ACTION = 2 ∧
      (s.lptSt 15).polar = true ∧ s.polarReady = true ∧ (s.lptSt 15).checkAt + 4 * s.cycleTicks ≤ tick ∧
      s.get (Pg.LPT 15) LPT.RETRY_LIMIT = 0 ∧ s.get (Pg.LPT 15) LPT.Z_MIN ≤ z ∧ z ≤ s.get (Pg.LPT 15) LPT.Z_MAX ∧
      ret ≤ s.get (Pg.LPT 15) LPT.PILOT_RX_MIN_DB ∧ d = (r.toNat + 65536 - s.get (Pg.LPT 15) LPT.REV_OFFSET) % 65536 ∧
      24576 ≤ d ∧ d ≤ 40960) :=
  ⟨⟨checking [(LPT.REV_ACTION, 0)], 400000, 10, 30, ⟨100000, 6138, anEcho⟩, by decide⟩,
   ⟨checking [(LPT.REV_ACTION, 0)], 400000, 2, ⟨100000, 92000, anEcho⟩, by decide, by decide, by decide, by decide, by decide,
     by decide, by decide, by unfold State.QuietPort; decide, by decide⟩,
   ⟨setF [(Pg.MTB, MTB.STATE, 2), (Pg.MTB, MTB.FREQ, 3276800)] (checking [(LPT.REV_ACTION, 2)]), 400000, 24576, 10, 30,
     ⟨100000, 6138, anEcho⟩, 24576, by decide, by decide, by decide, by decide, by decide, by decide, by decide, by decide,
     by unfold State.QuietPort; decide, by decide⟩⟩

theorem witness_AmplifierFaultsAndRetries :
    (∃ (s : State) (tick since : Nat), s.QuietPort 15 ∧ s.get (Pg.LPT 15) LPT.RETRY_LIMIT = 0 ∧ s.lps 15 = LS.SERVICE ∧
      s.flag (Pg.LPT 15) LPT.ENA = true ∧ Nat.max since ((s.lptSt 15).enaSince + usTicks 20) + usTicks 10 ≤ tick) ∧
    (∃ s : State, s.QuietPort 15 ∧ s.get (Pg.LPT 15) LPT.RETRY_LIMIT = 0 ∧ s.flag (Pg.LPT 15) LPT.ENA = false) ∧
    (∃ (s : State) (tick since : Nat) (code : BitVec 12), s.QuietPort 15 ∧ s.get (Pg.LPT 15) LPT.RETRY_LIMIT = 0 ∧
      s.lps 15 = LS.SERVICE ∧ s.isOvercurrent tick 15 since code = true ∧
      ((s.lptSt 15).strikes.filter fun x => decide (tick < x + msTicks (s.get (Pg.LPT 15) LPT.OC_WINDOW_MS))).length + 1 <
        s.get (Pg.LPT 15) LPT.OC_STRIKES) ∧
    (∀ st, st = LS.CHECK ∨ st = LS.SERVICE → ∃ (s : State) (tick since : Nat) (code : BitVec 12), s.QuietPort 15 ∧
      s.get (Pg.LPT 15) LPT.RETRY_LIMIT = 0 ∧ s.lps 15 = st ∧ s.isOvercurrent tick 15 since code = true ∧
      s.get (Pg.LPT 15) LPT.OC_STRIKES ≤
        ((s.lptSt 15).strikes.filter fun x => decide (tick < x + msTicks (s.get (Pg.LPT 15) LPT.OC_WINDOW_MS))).length + 1) ∧
    (∃ (s : State) (p : Nat), p < 16 ∧ s.get (Pg.LPT p) LPT.RETRIES ≤ 40 ∧
      s.get (Pg.LPT p) LPT.RETRY_FIRST_MS * 2 ^ s.get (Pg.LPT p) LPT.RETRIES ≤ 1000 * s.get (Pg.LPT p) LPT.RETRY_MAX_S) ∧
    (∃ (s : State) (p : Nat), p < 16 ∧ s.get (Pg.LPT p) LPT.RETRIES ≤ 40 ∧
      1000 * s.get (Pg.LPT p) LPT.RETRY_MAX_S ≤ s.get (Pg.LPT p) LPT.RETRY_FIRST_MS * 2 ^ s.get (Pg.LPT p) LPT.RETRIES) :=
  ⟨⟨port 2 [(LPT.ENA, 1)], 62, 0, by unfold State.QuietPort; decide, by decide⟩, ⟨port 2 [], by unfold State.QuietPort; decide, by decide⟩,
   ⟨port 2 [(LPT.OC_STRIKES, 2)], 41, 0, 4095, by unfold State.QuietPort; decide, by decide⟩,
   fun st h => by
     rcases h with rfl | rfl
     · exact ⟨port 1 [(LPT.OC_STRIKES, 1)], 41, 0, 0, by unfold State.QuietPort; decide, by decide⟩
     · exact ⟨port 2 [(LPT.OC_STRIKES, 1)], 41, 0, 0, by unfold State.QuietPort; decide, by decide⟩,
   ⟨port 3 [(LPT.RETRY_FIRST_MS, 1000), (LPT.RETRY_MAX_S, 60), (LPT.RETRIES, 5)], 15, by decide⟩,
   ⟨port 3 [(LPT.RETRY_FIRST_MS, 1000), (LPT.RETRY_MAX_S, 60), (LPT.RETRIES, 6)], 15, by decide⟩⟩

/-- Engine 63 of quad 15 is LIVE on port 15 in a state, and other fields of it are set. -/
def engine (st : Nat) (l : List (Fld × Nat)) (s : State) : State :=
  setF (((ERG.ROLE, 1) :: (ERG.PORT, 15) :: (ERG.STATE, st) :: l).map fun e => (Pg.ERG 15, e.1.nth 3, e.2)) (on [15] s)

theorem witness_PinsEchoAndPortSamples :
    (∃ (s : State) (tick l t0 : Nat) (x : Lane), s.portReady 15 = true ∧ s.get (Pg.LPT 15) LPT.ENA_MODE = 0 ∧ (l, x) ∈ s.portLanes 15 ∧
      s.laneNext x = some t0 ∧ t0 ≤ tick + usTicks (s.get (Pg.LPT 15) LPT.ENA_LEAD_US)) ∧
    (∃ (s : State) (tick : Nat), s.get (Pg.LPT 15) LPT.ENA_MODE = 0 ∧ s.portOnLine 15 = false ∧
      s.startSoon 15 (tick + usTicks (s.get (Pg.LPT 15) LPT.ENA_LEAD_US)) = false ∧ (s.lptSt 15).pilot = false ∧
      (s.lptSt 15).piloted = false ∧ (∀ h, h ∈ s.txs.hist → h.port = 15 → h.stop + usTicks (s.get (Pg.LPT 15) LPT.ENA_LAG_US) ≤ tick) ∧
      usTicks (s.get (Pg.LPT 15) LPT.ENA_LAG_US) ≤ tick) ∧
    (∃ s : State, s.Reaches (Pg.LPT 15) ∧ s.portOnLine 15 = false) ∧ (∃ s : State, s.Reaches (Pg.LPT 15) ∧ s.portOnLine 15 = true) ∧
    (∃ s : State, s.portSamples 15 = true) ∧
    (∃ s : State, s.portSamples 15 = false ∧ (∀ q, q < 64 → s.flag (Pg.ERG q) CFG.ARMED = false) ∧
      (∀ c, c ∈ s.liveEngines → s.runningJob c = none)) :=
  ⟨⟨laned .scheduled (port 2 [(LPT.TX_AVAIL, 1), (LPT.ENA_LEAD_US, 100)]), 8795, 0, 9000, aLane .scheduled, by decide⟩,
   ⟨{ port 2 [(LPT.ENA, 1), (LPT.ENA_LAG_US, 10)] with txs := { State.reset.txs with hist := [⟨15, 0, 0, 100, false, false⟩] } }, 121,
     by decide⟩,
   ⟨port 2 [], reaches _ _ (by decide), by decide⟩, ⟨laned .onLine (port 2 []), reaches _ _ (by decide), by decide⟩,
   ⟨engine ES.NO_INPUT [] (port 2 []), by decide⟩, ⟨engine ES.HUNT [] (port 0 []), by decide⟩⟩

/-! ## Erg receive array -/

/-- Engine 63 in a state on port 15, which delivers samples. -/
def erg (st : Nat) (l : List (Fld × Nat)) : State := engine st l (port 2 [])
/-- What engine 63 keeps. -/
def engKeeps (x : Eng) (s : State) : State := { s with erg := { s.erg with eng := [(63, x)] } }
/-- Mirage on, with a job of engine 63. -/
def mirOn (s : State) : State := setF [(Pg.MIR, CTRL.ENABLE, 1), (Pg.MIR, MIR.WIDE_EN, 1), (Pg.MIR, MIR.WIDE_SPAN_MS, 5)] (on [141] s)

theorem free (s : State) (h : (s.isLive 63, s.portSamples (s.eget 63 ERG.PORT), s.flag (Pg.ERG (63 / 4)) CFG.ARMED, (s.eng 63).parkDue) =
    (true, true, false, none)) : s.EngineFree 63 := by
  simp only [Prod.mk.injEq] at h
  exact h

theorem witness_EnginesReceiveFrames :
    (∃ (s : State) (tick corr : Nat), s.est 63 = ES.HUNT ∧ s.isLive 63 = true ∧ s.eget 63 ERG.PD_THRESH ≤ corr ∧
      s.underMark 63 tick = false ∧ s.underBlank 63 = false) ∧
    (∃ (s : State) (tick : Nat), s.est 63 = ES.HUNT ∧ s.underMark 63 tick = true) ∧
    (∃ (s : State) (corr : Nat), s.est 63 = ES.HUNT ∧ corr < s.eget 63 ERG.PD_THRESH) ∧
    (∀ h : Bool, ∃ (s : State) (tm : Nat) (dec : Word), s.est 63 = ES.SYNC_SEARCH ∧ (s.eng 63).handoff = h ∧ tm < 2 ^ 64 ∧
      s.syncMatch 63 tm (s.eget 63 ERG.SYNC_WORD) dec = true) ∧
    (∃ (s : State) (tm : Nat) (dec : Word), s.est 63 = ES.SYNC_SEARCH ∧ tm < 2 ^ 64 ∧
      s.syncMatch 63 tm (syncAck (s.eget 63 ERG.SYNC_WORD)) dec = true) ∧
    (∃ (s : State) (tick last : Nat), (s.eng 63).tPre ≤ last ∧
      last + s.eget 63 ERG.SYNC_WIN * symTicks (s.eget 63 ERG.RATE) ≤ tick ∧ s.est 63 = ES.SYNC_SEARCH ∧ s.EngineFree 63 ∧
      s.kindOn RK.WIDE = true ∧ s.enabled Pg.MIR = true ∧ s.domOn 141 = true ∧ s.mir.jobs = [] ∧ s.mir.jobs.length < jobQueueMax) ∧
    (∃ s : State, s.est 63 = ES.SYNC_SEARCH ∧ s.EngineFree 63 ∧ s.kindOn RK.WIDE = false) ∧
    (∃ (s : State) (w : Word), s.est 63 = ES.HEADER ∧ phyHeaderOk (s.eget 63 ERG.RATE) w.toNat = true ∧
      11 ≤ (PhyHeader.ofWord w.toNat).length ∧ runCopies (PhyHeader.ofWord w.toNat).rep = 1 ∧ s.eget 63 ERG.SOFT_BUF < 2) ∧
    (∃ (s : State) (w : Word), s.est 63 = ES.HEADER ∧ s.EngineFree 63 ∧ phyHeaderOk (s.eget 63 ERG.RATE) w.toNat = false) ∧
    (∃ (s : State) (w : Word), s.est 63 = ES.HEADER ∧ s.EngineFree 63 ∧ phyHeaderOk (s.eget 63 ERG.RATE) w.toNat = true ∧
      (PhyHeader.ofWord w.toNat).length < 11) ∧
    (∃ s : State, s.est 63 = ES.HEADER ∧ s.eget 63 ERG.SOFT_BUF = 2) ∧
    (∃ s : State, s.est 63 = ES.DATA ∧ s.EngineFree 63 ∧ s.eget 63 ERG.SOFT_BUF < 2) ∧
    (∃ (s : State) (cut : CutFind), s.est 63 = ES.HEADER ∧ s.EngineFree 63 ∧ cutMatch (s.eget 63 ERG.SYNC_WORD) cut.decisions cut.fall = true) ∧
    (∃ (s : State) (cut : CutFind), s.est 63 = ES.DATA ∧ s.EngineFree 63 ∧
      cutMatch (s.eget 63 ERG.SYNC_WORD) cut.decisions cut.fall = true) :=
  ⟨⟨erg ES.HUNT [(ERG.PD_THRESH, 12)], 0, 12, by decide⟩,
   ⟨{ erg ES.HUNT [] with txs := { State.reset.txs with marks := [⟨15, 0, 0, 0, 0, none⟩] } }, 0, by decide⟩,
   ⟨erg ES.HUNT [(ERG.PD_THRESH, 12)], 11, by decide⟩,
   fun h => ⟨engKeeps { Eng.idle with handoff := h } (erg ES.SYNC_SEARCH [(ERG.SYNC_WORD, 5), (ERG.SYNC_TOL, 1)]), 2 ^ 64 - 1, 7,
     by cases h <;> decide⟩,
   ⟨erg ES.SYNC_SEARCH [(ERG.SYNC_WORD, 5), (ERG.SYNC_TOL, 0)], 0, 0xFFFF0005, by decide⟩,
   ⟨mirOn (erg ES.SYNC_SEARCH [(ERG.SYNC_WIN, 8), (ERG.RATE, 0)]), 8 * symTicks 0, 0, by decide, by decide, by decide, free _ (by decide),
     by decide⟩,
   ⟨setF [(Pg.MIR, MIR.WIDE_EN, 0)] (erg ES.SYNC_SEARCH []), by decide, free _ (by decide), by decide⟩,
   ⟨erg ES.HEADER [(ERG.SOFT_BUF, 1), (ERG.RATE, 0)], 2533362432, by decide⟩,
   ⟨erg ES.HEADER [(ERG.RATE, 0)], 0, by decide, free _ (by decide), by decide⟩,
   ⟨erg ES.HEADER [(ERG.RATE, 0)], 2181040640, by decide, free _ (by decide), by decide⟩,
   ⟨erg ES.HEADER [(ERG.SOFT_BUF, 2)], by decide⟩, ⟨erg ES.DATA [(ERG.SOFT_BUF, 1)], by decide, free _ (by decide), by decide⟩,
   ⟨erg ES.HEADER [(ERG.SYNC_WORD, 5)], ⟨0xFFFFFFFB, 0, 160⟩, by decide, free _ (by decide), by decide⟩,
   ⟨erg ES.DATA [(ERG.SYNC_WORD, 5)], ⟨0xFFFFFFFA, 0, 200⟩, by decide, free _ (by decide), by decide⟩⟩

/-- The level set to n. -/
def level (n : Nat) (s : State) : State := { s with oas := { s.oas with act := n } }
/-- An armed set of page ERG 15 that engine 63 alone has not taken, since tick 0. -/
def ergArmed (s : State) : State :=
  { setF [(Pg.ERG 15, CFG.PENDING, 1), (Pg.ERG 15, CFG.ARMED, 1)] s with
    erg := { s.erg with due := [(15, 8)] }, shadow := [(addrOf (Pg.ERG 15) 0xA0, 7)] }

theorem witness_EnginesRecallAndParkByRank :
    (∃ (s : State) (tick : Nat), s.est 63 = ES.LENT ∧ s.isLive 63 = true ∧ s.underMark 63 tick = false ∧ s.underBlank 63 = false) ∧
    (∃ (s : State) (tick : Nat), s.isLive 63 = true ∧ s.engBusy 63 = true ∧ s.underMark 63 tick = false ∧ s.underBlank 63 = false) ∧
    (∃ (s : State) (tick : Nat), s.flag (Pg.ERG 15) CFG.ARMED = true ∧ bitOf (s.ergDue 15) 3 = 1 ∧ s.engAway 63 = false ∧ s.ShadowSound ∧
      Tab.get (fun _ => 0) s.erg.armAt 15 + 2048000 ≤ tick) ∧
    (∃ s : State, s.est 63 ≠ ES.PARKED ∧ s.shouldPark s.level 63 = true ∧ s.engBusy 63 = false ∧ s.engAway 63 = false ∧
      s.runningJob 63 = none) ∧
    (∃ s : State, s.engBusy 63 = true ∧ s.shouldPark s.level 63 = true ∧ s.level < 5 ∧ (s.eng 63).parkDue = none) ∧
    (∃ (s : State) (tick t0 : Nat), (s.eng 63).parkDue = some t0 ∧ t0 + 102400 ≤ tick ∧ s.shouldPark s.level 63 = true ∧
      s.runningJob 63 = none) ∧
    (∃ s : State, s.est 63 = ES.PARKED ∧ s.shouldPark s.level 63 = false ∧ s.domOn 15 = true ∧ s.flag (Pg.ERG 15) CFG.ARMED = false) ∧
    (∃ (s : State) (c d : Nat), c < 256 ∧ d < 256 ∧ s.parkable c = true ∧ s.parkable d = true ∧ s.rankedAbove c d = true ∧
      s.isAlarm c = false) :=
  ⟨⟨erg ES.LENT [], 5, by decide⟩, ⟨erg ES.DATA [], 0, by decide⟩, ⟨ergArmed (erg ES.DATA []), 2048000, by decide, by decide, by decide,
     shadow_sound _ .erg 0x40 15 (Pg.ERG 15) 0xA0 7 rfl (by decide) (by decide) (by decide), by decide⟩,
   ⟨level 5 (erg ES.HUNT []), by decide⟩, ⟨level 3 (erg ES.DATA []), by decide⟩,
   ⟨level 3 (engKeeps { Eng.idle with parkDue := some 7 } (erg ES.DATA [])), 102407, 7, by decide⟩,
   ⟨erg ES.PARKED [], by decide⟩, ⟨engine ES.HUNT [(ERG.RANK, 1)] (setF [(Pg.ERG 15, ERG.ROLE.nth 0, 2)] State.reset), 63, 60, by decide⟩⟩

/-- A frame copy of engine 63 whose header announces 11 octets. -/
def aCopy : RxCopy :=
  { eng := 63, port := 15, centre := 100, rate := 0, sync := 0, alarm := false, hdr := 2533362432, tSync := 0, tPre := 0, snr := 0
    field := [], soft := [], late := false, diag := none, combined := 0, slot := none, copy := 0, cut := none }
/-- Decoder 15 works on a field of one octet of it. -/
def decoding (rank : Nat) : State :=
  { erg ES.HUNT [(ERG.SOFT_BUF, 1)] with trl := { State.reset.trl with dec := [(15, some ⟨rank, 0, { aCopy with hdr := 0x100 }, some 63⟩)] } }

theorem witness_TrellisResultsAndNoiseMap :
    (∃ (s : State) (j : TJob) (field : List Byte), s.decoder 15 = some j ∧ s.trl.waiting = [] ∧
      bestField (PhyHeader.ofWord j.rx.hdr) j.rx.soft field = true ∧ (∀ c, j.buf = some c → c < 256) ∧ s.flag Pg.TRL CFG.ARMED = false ∧ j.rank = 1) ∧
    (∃ s : State, s.Reaches Pg.NMAP ∧ s.flag Pg.NMAP NMAP.OWNER = true ∧ s.flag Pg.NMAP NMAP.INC = true ∧ s.get Pg.NMAP NMAP.IDX = 16383) ∧
    (∃ s : State, s.Reaches Pg.NMAP ∧ s.flag Pg.NMAP NMAP.OWNER = false ∧ s.fwRunning = true ∧
      s.get Pg.MAC MAC.REGIME = 0) ∧ (∃ s : State, s.get Pg.MAC MAC.REGIME ≠ 0) ∧
    (∃ s : State, s.fwRunning = true ∧ s.get Pg.MAC MAC.REGIME = 0 ∧ s.flag Pg.NMAP NMAP.OWNER = true) ∧
    (∃ s : State, Tab.wf (fun _ => cellReset) s.nmap = true ∧ s.nmap ≠ []) :=
  ⟨⟨decoding 1, ⟨1, 0, { aCopy with hdr := 0x100 }, some 63⟩, [0], by decide⟩,
   ⟨setF [(Pg.NMAP, NMAP.OWNER, 1), (Pg.NMAP, NMAP.INC, 1), (Pg.NMAP, NMAP.IDX, 16383)] State.reset, reaches _ _ (by decide), by decide⟩,
   ⟨setF [(Pg.NMAP, NMAP.OWNER, 0), (Pg.LNK, LNK.FW_STATE, 2), (Pg.MAC, MAC.REGIME, 0)] State.reset, reaches _ _ (by decide), by decide⟩,
   ⟨setF [(Pg.MAC, MAC.REGIME, 1)] State.reset, by decide⟩,
   ⟨setF [(Pg.NMAP, NMAP.OWNER, 1), (Pg.LNK, LNK.FW_STATE, 2), (Pg.MAC, MAC.REGIME, 0)] State.reset, by decide⟩,
   ⟨{ State.reset with nmap := [(16383, 0x01000005)] }, by decide⟩⟩

/-! ## Transmit synthesis -/

/-- A message of queue 0x45 in flight with tag 1. -/
def aMsg : Msg := { newMsg 1 [0, 0, 0, 0] [1, 2, 3] 1 0 0 none with inFlight := true, attempts := 2 }
/-- Queue 0x45, open, with messages. -/
def queued (l : List Msg) (s : State) : State := { s with wad := { s.wad with queues := [(0x45, { aQueue with d14 := 0xF2, msgs := l })] } }
/-- Lane 3 of port 15 with a transmission, its message waiting in queue 0x45. -/
def sending (x : Lane) : State :=
  { queued [aMsg] (port 2 [(LPT.TX_AVAIL, 1)]) with txs := { State.reset.txs with lanes := [(243, some x)] } }
/-- An acknowledgement. -/
def anAck : AckBody := ⟨false, false, 7, 1, 20⟩
/-- A channel definition 0 of port 15 that fits. -/
def chan (s : State) : State :=
  setF [(Pg.TXS 15, TXS.EN.nth 0, 1), (Pg.TXS 15, TXS.LEVEL_SUM_MAX, 0), (Pg.TXS 15, TXS.PREAMBLE.nth 0, 40), (Pg.TXS 15, TXS.LEVEL.nth 0, 30)] s

/-- An acknowledgement owed on lane 3's band, its body released. -/
def dueAck : Owed := ⟨0, 15, 100, 0, 5, 7, 1, false, 20, false, 5000, 5100, false, some anAck, false⟩
/-- A train to endpoint 9 on lane 3 of port 15; the next wake frame is due at tick 9000, the data frame at tick 40960. -/
def aTrain : Train := { ep := 9, queue := 0x45, tag := 1, port := 15, ch := 0, lane := 3, next := 9000, stop := 20000, air := 1000
                        dataT := 40960, holds := 0, winRefusals := 0, full := false }

theorem witness_TransmissionsStart :
    (∃ (s : State) (tick : Nat) (x : Lane) (m : Msg), s.portReady 15 = true ∧ s.isOrphan = false ∧ s.level ≠ 5 ∧
      s.lane 15 3 = some x ∧ x.onLine = false ∧ x.t0 ≤ tick ∧ s.msg x.queue x.tag = some m ∧
      (m.seq.isSome = true ∨ s.cannotSecure (s.plan x.queue m) = false) ∧ x.kind = .data ∧ x.copy = 0 ∧
      s.trainOf x.queue x.tag = none ∧ s.txUsable 15 x.ch = true ∧ (s.atTick tick).startFits 15 x = true) ∧
    (∃ (s : State) (tick : Nat) (x : Lane) (m : Msg), s.portReady 15 = true ∧ s.isOrphan = false ∧ s.level ≠ 5 ∧
      s.lane 15 3 = some x ∧ x.onLine = false ∧ x.t0 ≤ tick ∧ s.msg x.queue x.tag = some m ∧
      (m.seq.isSome = true ∨ s.cannotSecure (s.plan x.queue m) = false) ∧ x.kind = .data ∧ x.copy ≠ 0 ∧ x.copy + 1 < x.copies ∧
      (s.atTick tick).dataLevelFits 15 x.level = true ∧ bitOf (s.get (Pg.TXS 15) TXS.BLOCKED_CH) x.ch ≠ 1) ∧
    (∃ (s : State) (tick : Nat) (x : Lane) (m : Msg), s.portReady 15 = true ∧ s.isOrphan = false ∧ s.level ≠ 5 ∧
      s.lane 15 3 = some x ∧ x.onLine = false ∧ x.t0 ≤ tick ∧ s.msg x.queue x.tag = some m ∧
      (m.seq.isSome = true ∨ s.cannotSecure (s.plan x.queue m) = false) ∧ x.kind = .data ∧ x.copy ≠ 0 ∧ m.cancelled = false ∧
      m.byTrain = false ∧ bitOf (s.get (Pg.TXS 15) TXS.BLOCKED_CH) x.ch = 1) ∧
    (∃ (s : State) (tick : Nat) (x : Lane) (m : Msg), s.portReady 15 = true ∧ s.isOrphan = false ∧ s.level ≠ 5 ∧
      Tab.get (fun _ => none) s.txs.c0Next 15 = some x ∧ x.t0 ≤ tick ∧ (∀ y, s.lane 15 15 = some y → y.kind = .ack) ∧
      x.kind = .class0 ∧ x.copy = 0 ∧ s.msg x.queue x.tag = some m ∧
      (m.seq.isSome = true ∨ s.cannotSecure (s.plan x.queue m) = false)) ∧
    (∃ (s : State) (tick : Nat) (o : Owed) (a : AckBody), s.portReady 15 = true ∧ s.isOrphan = false ∧ s.level ≠ 5 ∧
      s.lane 15 0 = none ∧ s.ackDue tick 15 0 = some o ∧ s.ackYields o = false ∧ s.ackLane o = some 0 ∧ o.body = some a ∧
      s.ackLevelFits 15 (s.get (Pg.TXS 15) TXS.ACK_LEVEL) = true) ∧
    (∃ (s : State) (tick : Nat) (x : Lane) (r : Train), s.portReady 15 = true ∧ s.isOrphan = false ∧ s.level ≠ 5 ∧
      s.lane 15 3 = some x ∧ x.phase = .scheduled ∧ x.t0 ≤ tick ∧ x.kind = .wake ∧
      s.mac.trains.find? (fun r => decide (r.ep = x.queue)) = some r ∧ s.txUsable 15 x.ch = true ∧
      (s.atTick tick).startFits 15 x = true) ∧
    (∃ (s : State) (tick : Nat) (x : Lane) (r : Train), s.portReady 15 = true ∧ s.isOrphan = false ∧ s.level ≠ 5 ∧
      s.lane 15 3 = some x ∧ x.phase = .scheduled ∧ x.t0 ≤ tick ∧ x.kind = .wake ∧
      s.mac.trains.find? (fun r => decide (r.ep = x.queue)) = some r ∧ s.txUsable 15 x.ch = false) :=
  ⟨⟨chan (sending (aLane .scheduled)), 9000, _, _, by decide, by decide, by decide, rfl, by decide, by decide, rfl, by decide⟩,
   ⟨chan (sending { aLane .between with copies := 4, copy := 2 }), 9000, _, _, by decide, by decide, by decide, rfl, by decide, by decide,
     rfl, by decide⟩,
   ⟨setF [(Pg.TXS 15, TXS.BLOCKED_CH, 1)] (sending { aLane .between with copies := 4, copy := 3 }), 9000, _, _, by decide, by decide,
     by decide, rfl, by decide, by decide, rfl, by decide⟩,
   ⟨{ sending (aLane .onLine) with txs := { State.reset.txs with
        c0Next := [(15, some { aLane .scheduled with kind := .class0, cls := 0 })] } }, 9000, _, _, by decide, by decide, by decide, rfl,
     by decide, fun y h => (by cases h), by decide, by decide, rfl, by decide⟩,
   ⟨{ chan (port 2 [(LPT.TX_AVAIL, 1)]) with mac := { State.reset.mac with owed := [dueAck] } }, 9096, dueAck, anAck, by decide⟩,
   ⟨{ chan (sending { aLane .scheduled with kind := .wake, queue := 9 }) with mac := { State.reset.mac with trains := [aTrain] } }, 9000,
     _, _, by decide, by decide, by decide, rfl, by decide, by decide, by decide, rfl, by decide⟩,
   ⟨{ sending { aLane .scheduled with kind := .wake, queue := 9 } with mac := { State.reset.mac with trains := [aTrain] } }, 9000,
     _, _, by decide, by decide, by decide, rfl, by decide, by decide, by decide, rfl, by decide⟩⟩

theorem witness_TransmissionsAreCutOrEnd :
    (∃ (s : State) (tick : Nat) (x : Lane) (m : Msg), s.lane 15 3 = some x ∧ x.victim = true ∧ x.phase = .onLine ∧
      tick = x.boundaryFrom x.cutFrom ∧ tick < x.tEnd ∧ s.msg x.queue x.tag = some m ∧ m.cancelled = false ∧ m.byTrain = false ∧
      x.preamble + 32 = (tick - x.t0) / symTicks x.rate) ∧
    (∃ (s : State) (tick : Nat) (x : Lane) (m : Msg), s.lane 15 3 = some x ∧ x.victim = true ∧ x.phase = .onLine ∧
      tick = x.boundaryFrom x.cutFrom ∧ tick < x.tEnd ∧ s.msg x.queue x.tag = some m ∧ m.cancelled = false ∧ m.byTrain = false ∧
      (tick - x.t0) / symTicks x.rate + 1 = x.preamble + 32) ∧
    (∀ canc, canc = 0 ∨ canc = 1 → ∃ (s : State) (tick : Nat) (x : Lane), s.lane 15 3 = some x ∧ x.phase = .onLine ∧ x.fallEnd ≤ tick ∧
      x.kind = .ack ∧ s.get (Pg.LPT 15) LPT.CANC_EN = canc ∧ (s.lptSt 15).echoReset = false) ∧
    (∃ (s : State) (tick : Nat) (x : Lane), s.lane 15 3 = some x ∧ x.phase = .onLine ∧ x.fallEnd ≤ tick ∧ x.kind = .data ∧
      x.copy + 1 < x.copies ∧ s.isOrphan = false ∧ (s.lptSt 15).echoReset = false) ∧
    (∃ (s : State) (tick : Nat) (x : Lane), s.lane 15 3 = some x ∧ x.phase = .onLine ∧ x.fallEnd ≤ tick ∧ x.kind = .data ∧
      x.copies ≤ x.copy + 1 ∧ x.ackReq = true) :=
  ⟨⟨sending { aLane .onLine with victim := true, preamble := 8, cutFrom := 9000 + 39 * symTicks 0 + 1 }, 9000 + 40 * symTicks 0, _, _,
     rfl, by decide, by decide, by decide, by decide, rfl, by decide⟩,
   ⟨sending { aLane .onLine with victim := true, preamble := 8, cutFrom := 9000 + 39 * symTicks 0 }, 9000 + 39 * symTicks 0, _, _, rfl,
     by decide, by decide, by decide, by decide, rfl, by decide⟩,
   fun canc h => by
     rcases h with rfl | rfl
     · exact ⟨setF [(Pg.LPT 15, LPT.CANC_EN, 0)] (sending { aLane .onLine with kind := .ack }), 199000, _, rfl, by decide⟩
     · exact ⟨setF [(Pg.LPT 15, LPT.CANC_EN, 1)] (sending { aLane .onLine with kind := .ack }), 199000, _, rfl, by decide⟩,
   ⟨sending { aLane .onLine with copies := 4 }, 199000, _, rfl, by decide⟩,
   ⟨sending { aLane .onLine with ackReq := true }, 199000, _, rfl, by decide⟩⟩

/-- A mark of lane 3 of port 15 whose 256 ticks have passed at tick 300. -/
def aMark : TxMark := ⟨15, 3, 100, 0, 0, some 300⟩

theorem witness_EnergyFiguresAndMarks :
    (∃ (s : State) (g : EnergyFigures), s.domOn 127 = true ∧ 400 ≤ g.dacRms.toNat) ∧
    (∃ (s : State) (g : EnergyFigures), s.domOn 127 = true ∧ g.dacRms.toNat < 400) ∧
    (∃ s : State, s.recording = false ∧
      s.txs.marks.filter (fun m => decide (m.port = 15) && decide (m.lane = 3)) = [aMark]) :=
  ⟨⟨port 2 [], ⟨400, 1, 2, 3, 4⟩, by decide⟩, ⟨port 2 [], ⟨399, 1, 2, 3, 4⟩, by decide⟩,
   ⟨{ port 2 [] with txs := { State.reset.txs with marks := [aMark] } }, by decide⟩⟩

/-! ## Mirage -/

/-- The ring's slabs are region 0 at byte 0x1000000, four of them, and the directory is region 1 at byte 0x2000000; Mirage records. -/
def recorder : State :=
  setF [(Pg.DRC 0, DRC.EN.nth 0, 1), (Pg.DRC 0, DRC.KIND.nth 0, 7), (Pg.DRC 0, DRC.BASE.nth 0, 0x100), (Pg.DRC 0, DRC.SIZE.nth 0, 4),
    (Pg.DRC 0, DRC.EN.nth 1, 1), (Pg.DRC 0, DRC.KIND.nth 1, 8), (Pg.DRC 0, DRC.BASE.nth 1, 0x200), (Pg.DRC 0, DRC.SIZE.nth 1, 1),
    (Pg.MIR, CTRL.ENABLE, 1), (Pg.MIR, MIR.HEAD_SLAB, 2), (Pg.MIR, MIR.PIN_LIMIT, 15)] (on [141, 111] State.reset)
/-- Slabs 5 and 6 stand at positions 0 and 1, and slab 7 is the next one. -/
def recorded : State :=
  { recorder with mir := { State.reset.mir with dir := [(0, dirEntry 5 false false false true), (1, dirEntry 6 false false false true)]
                                                nextSlab := 14336 } }
/-- A pin window, from a tick to another. -/
def window (a b : Nat) (s : State) : State := setF [(Pg.MIR, MIR.PIN_START_LO, a), (Pg.MIR, MIR.PIN_END_LO, b)] s

theorem a_lost_sample : (0x8000 : Nat) ∈ (List.range 16).flatMap (recorded.slabPort []) := by
  refine List.mem_flatMap.mpr ⟨15, List.mem_range.mpr (by decide), ?_⟩
  unfold State.slabPort
  rw [if_pos (by decide)]
  exact List.mem_map.mpr ⟨2047, List.mem_range.mpr (by decide), rfl⟩

theorem witness_SlabsAreRecorded :
    ∃ (s : State) (tick m r : Nat) (samples : List (List (Option (BitVec 16)))), s.regionOf 7 = some r ∧ s.recording = true ∧ 2048 ≤ tick ∧
      (∀ d, s.regionOf 8 = some d → s.regionBase d + 8 * m + 8 ≤ s.regionBase r + 65536 * m ∨
        s.regionBase r + 65536 * m + 65536 ≤ s.regionBase d + 8 * m) ∧
      nextFreeSlab s.mir.dir s.slabCount (s.mir.dir.length + 1) (s.get Pg.MIR MIR.HEAD_SLAB) = some m ∧
      (tick / 2048 * 2048 - 2048 ≤ s.mir.nextSlab ∨ s.mir.nextSlab = 0) ∧
      0x8000 ∈ (List.range 16).flatMap (s.slabPort samples) :=
  ⟨recorded, 16384, 2, 0, [], by decide, by decide, by decide, by
    intro d h
    have h1 : d = 1 := Option.some.inj (h.symm.trans (by decide : recorded.regionOf 8 = some 1))
    subst h1
    decide, by decide, by decide, a_lost_sample⟩

/-- Two copies of one frame, held by slot 511, whose run ended at tick 1000. -/
def aSlot : Slot :=
  { eng := 63, mode := 0x80, length := 11, n := 2, t0 := 0, pEst := 40960, tCopy := 100, held := [(0, [7, 8, 9], 40, 0, 0, false),
      (1, [1, 8, 15], 40, 0, 0, true)], searched := [0, 1], lastSnr := 40, finalEnd := 1000 }
/-- Running link firmware combines, and slot 511 holds a run. -/
def combining : State :=
  { setF [(Pg.MIR, MIR.COMBINE_EN, 1), (Pg.LNK, LNK.FW_STATE, 2)] recorded with mir := { recorded.mir with slots := [(511, some aSlot)] } }
/-- An order for a diagnostic replay of slab 5. -/
def diagnosing (l : List (Fld × Nat)) : State :=
  setF ([(MIR.DIAG_PD_THRESH, 1), (MIR.DIAG_RING, 63), (MIR.DIAG_CENTRE, 100), (MIR.DIAG_RATE, 0), (MIR.DIAG_START_LO, 10240),
    (MIR.DIAG_END_LO, 14336)].map (fun e => (Pg.MIR, e)) ++ l.map fun e => (Pg.MIR, e)) recorded

theorem witness_PinsLookupAndDiagnostics :
    (∃ (s : State) (code : Nat), s.Reaches Pg.MIR ∧ s.pinState 15 ≠ 0 ∧ s.pinRefusal 15 0 0 = some code) ∧
    (∃ s : State, s.Reaches Pg.MIR ∧ s.pinState 15 = 0 ∧ s.pinRefusal 15 (s.get Pg.MIR MIR.PIN_START_LO +
      2 ^ 32 * s.get Pg.MIR MIR.PIN_START_HI) (s.get Pg.MIR MIR.PIN_END_LO + 2 ^ 32 * s.get Pg.MIR MIR.PIN_END_HI) = none ∧
      s.get Pg.MIR MIR.PIN_END_LO + 2 ^ 32 * s.get Pg.MIR MIR.PIN_END_HI ≤ s.mir.nextSlab ∧ Tab.wf (fun _ => 0) s.mir.dir = true) ∧
    (∃ (s : State) (start stop : Nat), s.pinState 15 = 0 ∧ stop ≤ start) ∧
    (∃ s : State, s.pin 0 ≠ none) ∧ (∃ (s : State) (m : Nat), s.slabOf 12288 = some m) ∧
    (∃ l : List (Nat × Nat), l ≠ [] ∧ ∀ e, e ∈ l → e.2 = 8) ∧
    (∃ l : List (Nat × Nat), (∀ e, e ∈ l → 0 < e.1 ∧ e.2 < 16) ∧ ∃ e, e ∈ l ∧ e.2 ≠ 8) ∧
    (∃ (s : State) (slot : Fin 512) (x : Slot), s.slot slot.val = some x ∧ s.domOn 141 = true ∧
      s.flag Pg.MIR MIR.COMBINE_EN = true ∧ s.fwRunning = true ∧
      2 ≤ x.held.length ∧ s.flag Pg.TRL CFG.ARMED = false ∧
      ∀ d, d < 16 → s.domOn (128 + d / 4) = true → s.decoder d ≠ none) ∧
    (∃ (s : State) (slot : Fin 512) (x : Slot) (tick : Nat), s.slot slot.val = some x ∧ s.domOn 141 = true ∧
      (∀ j, j ∈ s.mir.jobs → j.slot ≠ some slot.val) ∧
      (∀ e j, e ∈ s.mir.running → e.2 = some j → j.slot ≠ some slot.val) ∧ x.finalEnd + 2048000 ≤ tick) ∧
    (∃ (s : State) (code off : Nat), s.Reaches Pg.MIR ∧ off < 4096 ∧ s.diagRefusal = some (code, off) ∧
      s.get Pg.MIR MIR.DIAG_STATE = 2) ∧
    (∃ s : State, s.Reaches Pg.MIR ∧ s.diagRefusal = none ∧ s.mir.jobs.length < 131072) :=
  ⟨⟨setF [(Pg.MIR, MIR.PIN_ST.nth 15, 2)] recorded, ErrCode.STATE, reaches _ _ (by decide), by decide⟩,
   ⟨window 12287 12289 recorded, reaches _ _ (by decide), by decide⟩, ⟨recorded, 5, 5, by decide⟩,
   ⟨{ recorded with mir := { recorded.mir with pins := [(0, some ⟨10240, 12288, 0⟩)] } }, by decide⟩, ⟨recorded, 1, by decide⟩,
   ⟨[(1, 8)], by decide⟩, ⟨[(1, 8), (2, 9), (3, 7)], by decide, (2, 9), by decide⟩, ⟨combining, 511, aSlot, by decide⟩,
   ⟨combining, 511, aSlot, 2049000, by decide, by decide, by decide, (fun e j h => by cases h), by decide⟩,
   ⟨diagnosing [(MIR.DIAG_STATE, 2)], ErrCode.STATE, 0x090, reaches _ _ (by decide), by decide⟩,
   ⟨diagnosing [], reaches _ _ (by decide), by decide⟩⟩

/-- A plain job over slab 5, reported by engine 60. -/
def aReplay : RJob :=
  { id := 3, rank := 3, kind := 2, eng := 60, port := 15, centre := 100, rate := 0, sync := 0, tol := 1, wide := false, start := 10240
    stop := 12288, slot := none, copy := 0, doneTo := 10240, ending := false, speed := 0, ring := 0, dump := none
    pdThresh := 12, nmap := false, eraseSnr := 0, impulse := 0, blank := 0 }
/-- Engine 63 waits in the pool and may be lent; one job is queued. -/
def lending (j : RJob) : State :=
  { setF [(Pg.ERG 15, ERG.ROLE.nth 3, 2), (Pg.ERG 15, ERG.STATE.nth 3, ES.IDLE), (Pg.ERGX, ERGX.LEND_EN, 1), (Pg.ERGX, ERGX.LEND_LIMIT, 1)]
      (on [15] recorded) with mir := { recorded.mir with jobs := [j] } }
/-- Engine 63 is lent to a job, with the credit for its block. -/
def lent (j : RJob) : State :=
  { engine ES.LENT [] (port 2 []) with
    mir := { recorded.mir with running := [(63, some j)] }, oas := { State.reset.oas with running := [⟨.replay 63, 3, 0, false, 0, none, false⟩] } }

theorem witness_ReplayJobsRunOnLentEngines :
    (∃ (s : State) (tick : Nat) (j : RJob), s.domOn 141 = true ∧ s.level < 2 ∧ s.lendable 63 = true ∧
      (s.atTick tick).nextReplay tick = some j ∧ j.kind ≠ RK.DIAG ∧ ((s.atTick tick).unqueue j).jobGone j = none) ∧
    (∃ (s : State) (tick : Nat) (j : RJob), s.domOn 141 = true ∧ s.level < 2 ∧ s.lendable 63 = true ∧
      (s.atTick tick).nextReplay tick = some j ∧ ((s.atTick tick).unqueue j).jobGone j = some 0 ∧ j.kind = RK.REPEAT) ∧
    (∃ (s : State) (tick : Nat) (j : RJob), s.domOn 141 = true ∧ s.level < 2 ∧ s.lendable 63 = true ∧
      (s.atTick tick).nextReplay tick = some j ∧ ((s.atTick tick).unqueue j).jobGone j = some 1 ∧ j.kind ≠ RK.REPEAT) ∧
    (∃ (s : State) (j : RJob), s.domOn 141 = true ∧ s.runningJob 63 = some j ∧ j.kind = RK.REPEAT ∧ j.ending = false ∧
      j.stop ≤ j.doneTo + s.speedNow j * 2048 ∧ s.jobRunning (.replay 63) = true ∧ s.est 63 = ES.LENT ∧ s.level < 2 ∧
      s.flag Pg.MIR CFG.ARMED = false ∧ s.EngineFree 63 ∧ (s.eng 63).watchPre = none) ∧
    (∃ s : State, s.domOn 141 = true ∧ s.runningJob 63 = none) :=
  ⟨⟨level 1 (lending aReplay), 20000, aReplay, by decide⟩,
   ⟨lending { aReplay with kind := 1, start := 10239 }, 20000, { aReplay with kind := 1, start := 10239 }, by decide⟩,
   ⟨{ lending { aReplay with stop := 14337 } with mir := { (lending { aReplay with stop := 14337 }).mir with nextSlab := 16384, lostSlabs := [6] } }, 20000,
     { aReplay with stop := 14337 }, by decide⟩,
   ⟨on [141] (lent { aReplay with kind := 1, speed := 1 }), { aReplay with kind := 1, speed := 1 }, by decide, by decide, by decide, by decide,
     by decide, by decide, by decide, by decide, by decide, free _ (by decide), by decide⟩,
   ⟨recorder, by decide⟩⟩

/-! ## Medium access -/

/-- The page of port 15 at a boundary between two bins: the timebase runs on at its nominal frequency. -/
def ticking : State := setF [(Pg.LPT 15, LPT.STATE, 2)] (on [111, 127] (tb 4 3276800 0))

theorem witness_BinBoundariesMeasureAndRead :
    ∃ (s : State) (tick : Nat), s.tb ≠ TB.OFF ∧ s.binDue tick = true ∧ (∀ pg, pg ∈ [Pg.MTB, Pg.ERGX, Pg.NMAP] → s.flag pg CFG.ARMED = false) ∧
      (∀ p, p < 16 → s.flag (Pg.LPT p) CFG.ARMED = false ∧ s.flag (Pg.TXS p) CFG.ARMED = false ∧ s.linkTaps p = []) ∧
      s.countsAt tick / 32768 % 2 ^ 33 ≠ s.mtb.halfIdx ∧ s.domOn 111 = true ∧ s.portSamples 15 = true ∧ s.isLive 63 = true ∧
      s.eget 63 ERG.NMAP_ERASE = 1 ∧ s.est 63 = 8 ∧ s.binsMean = true :=
  ⟨engine 8 [(ERG.NMAP_ERASE, 1)] ticking, 21480, by decide⟩

/-- An attempt of the message of queue 0x45 that waits for its slot. -/
def anAttempt : Attempt := { queue := 0x45, tag := 1, port := 15, ch := 0, cls := 2, be := 3, busyFinds := 0, wait := 0, winRefusals := 0
                             ready := 100, started := false }
/-- Its message is in flight; port 15 may send. -/
def trying (a : Attempt) (cls : Nat) : State :=
  let s := chan (setF [(Pg.LPT 15, LPT.TX_AVAIL, 1), (Pg.TXS 15, TXS.ALARM_EN, 1)] ticking)
  { s with wad := { s.wad with queues := [(0x45, { aQueue with d14 := BitVec.ofNat 32 (0xF0 + cls), msgs := [aMsg] })] }
           mac := { s.mac with attempts := [a] } }

theorem witness_AttemptsCountDownAndStart :
    (∃ (s u : State) (a : Attempt) (m : Msg) (p : Plan) (tick : Nat), p = s.plan a.queue m ∧ u = (s.atTick tick).takeSense tick [] ∧
      s.OneAttempt a m ∧ p.ftype ≠ ftypeSchedule ∧ u.isSleepy a.queue p = false ∧ tick % 2048 = 0 ∧ s.tb ≠ TB.OFF ∧ a.cls ≠ 0 ∧
      a.ready < tick ∧ 1 < a.wait) ∧
    (∃ (s u : State) (a : Attempt) (m : Msg) (p : Plan) (tick : Nat) (sense : List ChannelSense), p = s.plan a.queue m ∧
      u = (s.atTick tick).takeSense tick sense ∧ s.OneAttempt a m ∧ p.ftype ≠ ftypeSchedule ∧ u.isSleepy a.queue p = false ∧
      tick % 2048 = 0 ∧ s.tb ≠ TB.OFF ∧ a.cls ≠ 0 ∧ a.ready < tick ∧ a.wait = 0 ∧ s.StartMay p ∧ u.ccaBusy p.port p.ch tick = true ∧
      a.busyFinds + 1 < s.get Pg.MAC MAC.LIMIT) ∧
    (∃ (s u : State) (a : Attempt) (m : Msg) (p : Plan) (tick t0 l : Nat), p = s.plan a.queue m ∧
      u = (s.atTick tick).takeSense tick [] ∧ s.OneAttempt a m ∧ t0 = tick + s.enaLead p.port ∧ p.ftype ≠ ftypeSchedule ∧
      u.isSleepy a.queue p = false ∧ tick % 2048 = 0 ∧ s.tb ≠ TB.OFF ∧ a.cls ≠ 0 ∧ a.ready < tick ∧ a.wait = 0 ∧ s.StartMay p ∧
      s.txs.placed = [] ∧ u.ccaBusy p.port p.ch tick = false ∧ u.runDwell p m t0 = 0 ∧
      u.windowDefers p.port p.ch t0 a.winRefusals = false ∧ s.dataLane p.port = some l) ∧
    (∀ sense, sense = [] ∨ sense = [(⟨15, 0, 0⟩ : ChannelSense)] → ∃ (s u v : State) (a : Attempt) (m : Msg) (p : Plan) (tick i : Nat),
      p = s.plan a.queue m ∧ u = (s.atTick tick).takeSense tick sense ∧ v = (s.atTick tick).accFollow tick ∧ s.OneAttempt a m ∧
      a.cls = 0 ∧ i = v.accIndex v.mtb.c0Eff tick ∧ i ≠ s.mtb.c0Idx ∧ s.c0May a p tick i = true ∧ s.txs.placed = [] ∧
      u.ccaBusy p.port p.ch tick = !sense.isEmpty) :=
  have one : ∀ (a : Attempt) (c : Nat), a.queue = 0x45 → a.tag = 1 → a.started = false →
      (trying a c).oas.ready = [] ∧ (trying a c).cavState = CS.OFF ∧
        (∀ pg, pg ∈ [Pg.MAC, Pg.DWL, Pg.WAD] → (trying a c).flag pg CFG.ARMED = false) → (trying a c).OneAttempt a aMsg := by
    intro a c hq ht hs h
    refine ⟨rfl, hs, ⟨{ aQueue with d14 := BitVec.ofNat 32 (0xF0 + c), msgs := [aMsg] }, ?_, rfl⟩, ht.symm, rfl, h.1, ?_, h.2.2⟩
    · rw [hq]; rfl
    · intro p
      simp [State.needToken, h.2.1]
  ⟨⟨trying { anAttempt with wait := 2 } 2, _, _, aMsg, _, 2048, rfl, rfl, one _ _ rfl rfl rfl (by decide), by decide⟩,
   ⟨trying anAttempt 2, _, _, aMsg, _, 2048, [⟨15, 0, 0⟩], rfl, rfl, one _ _ rfl rfl rfl (by decide), by decide, by decide, by decide,
     by decide, by decide, by decide, by decide, by unfold State.StartMay; decide, by decide⟩,
   ⟨trying anAttempt 2, _, _, aMsg, _, 2048, _, 0, rfl, rfl, one _ _ rfl rfl rfl (by decide), rfl, by decide, by decide, by decide,
     by decide, by decide, by decide, by decide, by unfold State.StartMay; decide, by decide⟩,
   fun sense h => by
     rcases h with rfl | rfl <;>
     exact ⟨trying { anAttempt with cls := 0, ready := 0 } 0, _, _, _, aMsg, _, 99999, _, rfl, rfl, rfl, one _ _ rfl rfl rfl (by decide),
       rfl, rfl, by decide⟩⟩

/-- Endpoint 9 sleeps, and a message for it waits in queue 0x45. -/
def sleeper (ep : EpRec) (m : Msg) : State :=
  let s := setF [(Pg.MAC, MAC.REGIME, 0)] (trying anAttempt 2)
  { s with wad := { s.wad with queues := [(0x45, { aQueue with d14 := 0xF2, msgs := [m] })], lnkPause := false }
           mac := State.reset.mac, lnk := { s.lnk with eps := [(9, { ep with sleepy := true })] }, oas := { s.oas with free := 1000000 } }
/-- The train runs. -/
def training (r : Train) : State :=
  let s := sleeper { EpRec.idle with state := .active } aMsg
  { s with mac := { s.mac with trains := [r] }
           txs := { s.txs with lanes := [(243, some { aLane .between with kind := .wake, queue := 9 })] }
           oas := { s.oas with running := [⟨.train 9, 1, 0, false, 0, none, false⟩] } }

theorem witness_WakeTrainsRun :
    (∃ (s u v : State) (tick n l : Nat) (q : Queue) (m : Msg) (p : Plan), u = (s.atTick tick).takeSense tick [] ∧
      v = (s.atTick tick).accFollow tick ∧ s.wad.queues = [(n, q)] ∧ q.msgs = [m] ∧ m.inFlight = false ∧ p = s.plan n m ∧
      s.mac.trains = [] ∧ s.mac.attempts = [] ∧ s.txs.placed = [] ∧ v.accIndex v.mtb.accEff tick ≠ s.mtb.accIdx ∧
      s.grantRefusal n m p [] = none ∧ u.TrainMay tick n l p) ∧
    (∀ ready : Bool, ∃ (s : State) (tick gap : Nat) (r : Train) (x : Lane), s.train 9 = some r ∧ gap = msTicks (s.get Pg.MAC MAC.WAKE_GAP_MS) ∧
      r.next ≤ tick ∧ r.next ≤ r.dataT - msTicks (s.get Pg.MAC MAC.WAKE_DATA_GAP_MS) - r.air + (r.air + gap) / 2 ∧ r.port < 16 ∧
      r.lane < 16 ∧ s.lane r.port r.lane = some x ∧ x.kind = .wake ∧ x.phase = .between ∧ s.portReady r.port = ready ∧ s.txs.placed = []) ∧
    (∀ h, h = 0 ∨ h = 4 ∨ h = 5 → ∃ (s u : State) (tick t0 : Nat) (r : Train) (m : Msg) (p : Plan) (may : Bool),
      u = (s.atTick tick).takeSense tick (if h = 0 then [] else [⟨15, 0, 0⟩]) ∧ s.train 9 = some r ∧
      s.msg r.queue r.tag = some m ∧ p = s.plan r.queue m ∧ r.port < 16 ∧ r.lane < 16 ∧ p.port = r.port ∧ r.dataT ≤ tick ∧
      (r.holds = 0 ∨ tick % 2048 = 0) ∧ s.trainLaneIs r .data .scheduled = false ∧
      t0 = u.flexAt p.port (if r.holds = 0 then r.dataT else tick + s.enaLead p.port) ∧ u.runDwell p m t0 ≠ 1 ∧
      may = (s.portReady p.port && s.chanReady p && !s.isOrphan && !s.throttled p.cls && !s.deaf p && !s.tokenMissing p &&
        !u.ccaBusy p.port p.ch tick && decide (u.runDwell p m t0 = 0) && s.trainLaneIs r .wake .between &&
        !u.windowDefers p.port p.ch t0 r.winRefusals) ∧ may = decide (h = 0) ∧ r.holds = h ∧
      s.get Pg.MAC MAC.WAKE_HOLD_SLOTS = 5 ∧ (s.ep 9).state = .active ∧ (s.ep 9).missed + 1 < s.get Pg.MAC MAC.MISS_LIMIT) :=
  ⟨⟨sleeper { EpRec.idle with state := .drifted } { aMsg with inFlight := false }, _, _, 99999, 0x45, 0, _, _, _, rfl, rfl, rfl, rfl, rfl,
     rfl, rfl, by decide, by decide, by decide, by decide, by unfold State.TrainMay State.StartMay; decide⟩,
   fun ready => by
     cases ready
     · exact ⟨setF [(Pg.LPT 15, LPT.TX_AVAIL, 0)] (training aTrain), 9000, _, aTrain, _, rfl, rfl, by decide, by decide, by decide,
         by decide, rfl, by decide⟩
     · exact ⟨training aTrain, 9000, _, aTrain, _, rfl, rfl, by decide, by decide, by decide, by decide, rfl, by decide⟩,
   fun h hh => by
     rcases hh with rfl | rfl | rfl
     · exact ⟨setF [(Pg.MAC, MAC.WAKE_HOLD_SLOTS, 5)] (training aTrain), _, 40960, _, aTrain, _, _, _, rfl, rfl, rfl, rfl, by decide,
         by decide, by decide, by decide, by decide, by decide, rfl, by decide, rfl, by decide⟩
     · exact ⟨setF [(Pg.MAC, MAC.WAKE_HOLD_SLOTS, 5)] (training { aTrain with holds := 4 }), _, 40960, _, _, _, _, _, rfl, rfl, rfl, rfl,
         by decide, by decide, by decide, by decide, by decide, by decide, rfl, by decide, rfl, by decide⟩
     · exact ⟨setF [(Pg.MAC, MAC.WAKE_HOLD_SLOTS, 5)] (training { aTrain with holds := 5 }), _, 40960, _, _, _, _, _, rfl, rfl, rfl, rfl,
         by decide, by decide, by decide, by decide, by decide, by decide, rfl, by decide, rfl, by decide⟩⟩

/-- An acknowledgement that engine 63 owes for a frame that ended at tick 8000. -/
def anOwed : Owed := { engine := 63, port := 15, centre := 100, rate := 0, sync := 0, seq := 7, dst := 9, dup := false, lqi := 20
                       robust := false, tEnd := 8000, passed := 9000, combined := true, body := none, sent := false }
/-- It is owed. -/
def owing (o : Owed) : State :=
  let s := setF [(Pg.TXS 15, TXS.LEVEL_SUM_MAX, 0), (Pg.MIR, MIR.ACK_CUTOFF_US, 1000)] (trying anAttempt 2)
  { s with mac := { State.reset.mac with owed := [o] } }
/-- A window for the acknowledgement of the message of queue 0x45, SEQ 7. -/
def aWin : AckWin := { queue := 0x45, tag := 1, port := 15, centre := 100, rate := 0, sync := 0, seq := 7, cls := 2, robust := false
                       tEnd := 8000, close := 20000, engine := some 63, found := false, isOpen := true }
/-- The window is open; engine 63 decodes a body whose sync word ended at tick t. -/
def awaiting (n t : Nat) : State :=
  let s := trying anAttempt 2
  { engine ES.ACK_BODY [] s with
    wad := { s.wad with queues := [(0x45, { aQueue with d14 := 0xF2, msgs := [{ aMsg with attempts := n, seq := some 7 }] })] }
    mac := { State.reset.mac with wins := [aWin] }, erg := { s.erg with eng := [(63, { Eng.idle with tSync := t })] } }
/-- The body of the acknowledgement: single form, no DUP, SEQ 7, DST 0, LQI 20. -/
def ackBytes (kind : Byte) : List Byte := [kind, 7, 0, 0, 20] ++ leBytes 2 (crc16 [kind, 7, 0, 0, 20])

theorem witness_AcknowledgementsOwedAndAwaited :
    (∃ (s : State) (o : Owed), (s.mac.owed.find? fun x => decide (x.engine = 63) && x.body.isNone) = some o ∧ o.port < 16 ∧
      o.passed ≤ o.tEnd + usTicks (s.get Pg.MIR MIR.ACK_CUTOFF_US)) ∧
    (∃ (s : State) (o : Owed), (s.mac.owed.find? fun x => decide (x.engine = 63) && x.body.isNone) = some o ∧ o.port < 16 ∧
      o.tEnd + usTicks (s.get Pg.MIR MIR.ACK_CUTOFF_US) < o.passed) ∧
    (∀ found : Bool, ∃ (s : State) (tick : Nat) (w : AckWin) (m : Msg) (p : Plan), s.mac.wins = [w] ∧ w.queue = 0x45 ∧ w.tag = 1 ∧
      w.isOpen = true ∧ w.found = found ∧ s.ackHeld w = false ∧ w.close ≤ tick ∧ s.msg 0x45 1 = some m ∧ p = s.plan 0x45 m ∧
      m.byTrain = false ∧ m.cancelled = false ∧ m.attempts + 1 = s.attemptLimit p.cls) ∧
    (∃ (s : State) (tick : Nat) (w : AckWin) (m : Msg) (p : Plan), s.mac.wins = [w] ∧ w.queue = 0x45 ∧ w.tag = 1 ∧ w.isOpen = true ∧
      w.found = false ∧ w.close ≤ tick ∧ s.msg 0x45 1 = some m ∧ p = s.plan 0x45 m ∧ m.byTrain = false ∧
      m.cancelled = false ∧ s.attemptLimit p.cls ≤ m.attempts ∧ s.flag Pg.WQD CFG.ARMED = false ∧ isLinkQueue 0x45 = false) ∧
    (∃ (s : State) (single robust : List Byte) (w : AckWin) (m : Msg) (dup : Bool) (lqi : Nat), s.est 63 = ES.ACK_BODY ∧ s.EngineFree 63 ∧
      s.mac.wins = [w] ∧ s.ackEngine w 63 = true ∧ s.inAckSpan w (s.eng 63).tSync = true ∧ w.isOpen = true ∧
      s.ackBody 63 single robust = some (dup, w.seq, 0, lqi) ∧ lqi < 256 ∧ s.msg w.queue w.tag = some m ∧ m.seq.getD 0 < 4096 ∧
      s.flag Pg.WQD CFG.ARMED = false ∧ isLinkQueue w.queue = false) :=
  ⟨⟨owing anOwed, anOwed, by decide⟩, ⟨owing { anOwed with passed := 8000 + 2049 }, _, rfl, by decide⟩,
   fun found => by
     cases found
     · exact ⟨awaiting 3 0, 20000, aWin, _, _, rfl, rfl, rfl, rfl, rfl, by decide, by decide, rfl, rfl, by decide⟩
     · exact ⟨{ awaiting 3 0 with mac := { State.reset.mac with wins := [{ aWin with found := true }] } }, 20000, _, _, _, rfl, rfl, rfl,
         rfl, rfl, by decide, by decide, rfl, rfl, by decide⟩,
   ⟨awaiting 4 0, 20000, aWin, _, _, rfl, rfl, rfl, rfl, rfl, by decide, rfl, rfl, by decide⟩,
   ⟨awaiting 2 (8000 + 4096 + 64 * symTicks 0), ackBytes 1, [], aWin, _, false, 20, by decide, free _ (by decide), rfl, by decide, by decide,
     rfl, by decide, by decide, rfl, by decide⟩⟩
/-! ## Frame path and link firmware -/

/-- The header of a DATA frame of class 2, SEQ 7, from endpoint 9 to an address. -/
def aHeader (sec : Bool) (dst : Nat) : MacHeader := { MacHeader.zero with cls := 2, sec := sec, dst := dst, src := 9, seq := 7 }
/-- The copy of an unsecured frame. -/
def plain (dst : Nat) : RxCopy := { aCopy with field := plainField (aHeader false dst) [] [1, 2, 3] }
/-- The copy of a secured frame with frame counter 5, no payload and a given MIC. -/
def secured (mic : List Byte) : RxCopy := { aCopy with field := withFcs (leBytes 7 (aHeader true 0).toNat ++ leBytes 4 5 ++ mic) }
/-- Its MIC under the key of sixteen bytes 1. -/
def theMic : List Byte := ccmTag (List.replicate 16 1) (ccmNonce 9 false 5 7 0) (ccmAad (aHeader true 0) 5) []
/-- A frame path with a copy, in REGIME `r`; slot 3 holds the key of endpoint 9 with CTR_HI 4; the ring of class 2 takes records. -/
def judging (r : Nat) (bound : Bool) (x : RxCopy) : State :=
  let s := setF [(Pg.MAC, MAC.REGIME, r), (Pg.LNK, LNK.REQUIRE_SEC, 0), (Pg.WAD, WAD.RX_RING2, 63), (Pg.WAD, WAD.EN.nth 63, 1)] State.reset
  { s with key := { s.key with rx := [x]
                               slots := if bound then [(3, { KeySlot.idle with addr := some 9, key := List.replicate 16 1, ctrHi := 4 })] else [] } }
/-- What every clause of the frame path starts from. -/
def PathReady (s : State) (x : RxCopy) (f : RxFrame) : Prop :=
  f = RxFrame.of x false ∧ s.key.rx = [x] ∧ x.cut = none ∧ x.diag = none ∧ x.combined = 0 ∧ x.slot = none ∧ x.late = false ∧
    x.eng < 256 ∧ s.cavState = CS.OFF ∧ s.openSess = [] ∧ s.flag Pg.LNK CFG.ARMED = false

theorem theMic_length : theMic.length = 8 := ccmTag_length _ _ _ _ rfl (ccmNonce_length ..)

theorem length8 (l : List Byte) (h : l.length = 8) : ∃ a b c d e f g i, l = [a, b, c, d, e, f, g, i] := by
  match l, h with
  | [a, b, c, d, e, f, g, i], _ => exact ⟨a, b, c, d, e, f, g, i, rfl⟩

/-- A secured copy reads as it was built, whatever its MIC. -/
theorem secured_reads (mic : List Byte) (h : mic.length = 8) :
    fieldHeader (secured mic).field = aHeader true 0 ∧ fieldCounter (secured mic).field = 5 ∧ fieldPayload (secured mic).field = [] ∧
      fieldMic (secured mic).field = mic ∧ formatOk (secured mic).field = true := by
  obtain ⟨a, b, c, d, e, f, g, i, rfl⟩ := length8 mic h
  have hh : fieldHeader (secured [a, b, c, d, e, f, g, i]).field = aHeader true 0 := by
    have ht : (secured [a, b, c, d, e, f, g, i]).field.take 7 = leBytes 7 (aHeader true 0).toNat := by
      simp [secured, withFcs, leBytes_length]
    rw [fieldHeader, ht]
    decide
  have hl : (secured [a, b, c, d, e, f, g, i]).field.length = 23 := by simp [secured, withFcs, leBytes_length]
  refine ⟨hh, by rfl, ?_, by rfl, ?_⟩
  · simp [fieldPayload, hh, hl, payloadLen, routeBytes, aHeader, MacHeader.zero]
  · simp [formatOk, hh, hl, payloadLen, routeBytes, aHeader, MacHeader.zero]

theorem secured_mic (mic : List Byte) (h : mic.length = 8) :
    micOk (List.replicate 16 1) 9 false (secured mic).field = decide (theMic = mic) := by
  obtain ⟨h1, h2, h3, h4, _⟩ := secured_reads mic h
  rw [micOk_of_empty _ _ _ _ h3, h1, h2, h4]
  rfl

theorem wrong_mic : ∃ mic : List Byte, mic.length = 8 ∧ micOk (List.replicate 16 1) 9 false (secured mic).field = false := by
  by_cases h : theMic = List.replicate 8 0
  · refine ⟨List.replicate 8 1, rfl, ?_⟩
    rw [secured_mic _ rfl, h]
    decide
  · exact ⟨List.replicate 8 0, rfl, by rw [secured_mic _ rfl]; exact decide_eq_false h⟩

theorem pathReady (r : Nat) (b : Bool) (x : RxCopy) (hx : (x.cut, x.diag, x.combined, x.slot, x.late) = (none, none, 0, none, false))
    (he : x.eng = 63) (h : (judging r b x).cavState = CS.OFF ∧ (judging r b x).flag Pg.LNK CFG.ARMED = false) :
    PathReady (judging r b x) x (RxFrame.of x false) := by
  simp only [Prod.mk.injEq] at hx
  refine ⟨rfl, rfl, hx.1, hx.2.1, hx.2.2.1, hx.2.2.2.1, hx.2.2.2.2, by omega, h.1, rfl, h.2⟩

theorem sameRegs (mic : List Byte) : (judging 0 true (secured mic)).cavState = CS.OFF ∧
    (judging 0 true (secured mic)).flag Pg.LNK CFG.ARMED = false :=
  (by decide : (judging 0 true aCopy).cavState = CS.OFF ∧ (judging 0 true aCopy).flag Pg.LNK CFG.ARMED = false)

theorem witness_FramePathJudgesFrames :
    (∃ (s : State) (x : RxCopy) (f : RxFrame), PathReady s x f ∧ fcsOk x.field = false) ∧
    (∃ (s : State) (x : RxCopy) (f : RxFrame) (cnt : Fld), PathReady s x f ∧ fcsOk x.field = true ∧ formatOk x.field = true ∧
      s.runSeen f = false ∧ f.h.cls ≠ 0 ∧ s.filtered f.h = some cnt) ∧
    (∃ (s : State) (x : RxCopy) (f : RxFrame) (n : Nat), PathReady s x f ∧ fcsOk x.field = true ∧ formatOk x.field = true ∧
      s.runSeen f = false ∧ s.filtered f.h = none ∧ f.h.src ≠ 0 ∧ f.h.sec = true ∧ s.slotOf f.h.src = some n ∧
      s.flag Pg.LNK LNK.AUTH_DIAG = false ∧ micOk (s.keySlot n).key f.h.src false x.field = false) ∧
    (∃ (s : State) (x : RxCopy) (f : RxFrame) (ring : Nat), PathReady s x f ∧ fcsOk x.field = true ∧ formatOk x.field = true ∧
      s.runSeen f = false ∧ f.h.cls ≠ 0 ∧ s.filtered f.h = none ∧ f.h.src ≠ 0 ∧ f.h.sec = false ∧
      s.flag Pg.LNK LNK.REQUIRE_SEC = false ∧ f.h.dst = 0 ∧ s.slotOf f.h.src = none ∧ f.h.ackReq = false ∧ f.h.ftype = FT.DATA ∧
      f.h.hops = 0 ∧ s.runOf x = none ∧ ring = s.classRing f.h.cls ∧ s.ringEn ring = true ∧ s.ringRoom ring = true ∧
      s.lossPending ring = false ∧ s.wad.due = [] ∧ (s.ep f.h.src).state = .absent) ∧
    (∃ (s : State) (x : RxCopy) (f : RxFrame) (ring n : Nat), PathReady s x f ∧ fcsOk x.field = true ∧ formatOk x.field = true ∧
      s.runSeen f = false ∧ s.filtered f.h = none ∧ f.h.src ≠ 0 ∧ f.h.sec = true ∧ s.slotOf f.h.src = some n ∧ f.h.dst = 0 ∧
      f.h.ackReq = false ∧ f.h.ftype = FT.DATA ∧ f.h.hops = 0 ∧ s.runOf x = none ∧
      micOk (s.keySlot n).key f.h.src false x.field = true ∧ (s.keySlot n).ctrHi < f.counter ∧ f.counter < rekeyAt ∧
      f.counter ≤ (s.keySlot n).ctrHi + 2 ^ s.get Pg.LNK LNK.CTR_GAP_LOG2 ∧
      (∀ e, e ∈ (s.keySlot n).cache → e.counter ≠ some f.counter) ∧ ring = s.classRing f.h.cls ∧ s.ringEn ring = true ∧
      s.ringRoom ring = true ∧ s.lossPending ring = false ∧ s.wad.due = [] ∧ (s.ep f.h.src).state = .absent) ∧
    (∃ (s : State) (x : RxCopy) (f : RxFrame), PathReady s x f ∧ fcsOk x.field = true ∧ formatOk x.field = true ∧
      s.runSeen f = false ∧ f.h.cls ≠ 0 ∧ s.filtered f.h = none ∧ f.h.src ≠ 0 ∧ f.h.sec = false ∧
      s.flag Pg.LNK LNK.REQUIRE_SEC = false ∧ f.h.dst ≠ 0 ∧ (s.ep f.h.src).state = .absent ∧ s.get Pg.WAD WAD.OVH_RING = 0) := by
  have fr : ∀ mic : List Byte, mic.length = 8 → (RxFrame.of (secured mic) false).h = aHeader true 0 ∧
      (RxFrame.of (secured mic) false).counter = 5 := by
    intro mic h
    obtain ⟨h1, h2, _⟩ := secured_reads mic h
    refine ⟨h1, ?_⟩
    simp only [RxFrame.of, h1, h2]
    rfl
  have single : ∀ mic : List Byte, (judging 0 true (secured mic)).runOf (secured mic) = none := by
    intro mic
    have h : (judging 0 true (secured mic)).runGuess 0 2533362432 0 0 = none := by
      unfold State.runGuess
      exact if_pos (by decide)
    show ((judging 0 true (secured mic)).runGuess 0 2533362432 0 0).map _ = none
    rw [h]
    rfl
  have notSeen : ∀ mic : List Byte, (judging 0 true (secured mic)).runSeen (RxFrame.of (secured mic) false) = false := by
    intro mic
    have h : (judging 0 true (secured mic)).runOf (RxFrame.of (secured mic) false).x = none := single mic
    simp only [State.runSeen, h]
  refine ⟨⟨judging 0 false { aCopy with field := List.replicate 15 0 }, _, _, pathReady _ _ _ rfl rfl (by decide), by decide⟩,
    ⟨judging 1 false (plain 12), _, _, FLT.FILTERED_DST_CNT, pathReady _ _ _ rfl rfl (by decide), fcsOk_withFcs _, by decide, by decide,
      by decide, by decide⟩, ?_,
    ⟨judging 0 false (plain 0), _, _, _, pathReady _ _ _ rfl rfl (by decide), fcsOk_withFcs _, by decide, by decide, by decide, by decide,
      by decide, by decide, by decide, by decide, by decide, by decide, by decide, by decide, by decide, rfl, by decide⟩, ?_,
    ⟨judging 0 false (plain 12), _, _, pathReady _ _ _ rfl rfl (by decide), fcsOk_withFcs _, by decide⟩⟩
  · obtain ⟨mic, hl, hm⟩ := wrong_mic
    obtain ⟨hh, hc⟩ := fr mic hl
    refine ⟨judging 0 true (secured mic), _, _, 3, pathReady _ _ _ rfl rfl (sameRegs mic), fcsOk_withFcs _, (secured_reads mic hl).2.2.2.2,
      notSeen _, ?_⟩
    rw [hh]
    exact ⟨(by decide : (judging 0 true aCopy).filtered (aHeader true 0) = none), by decide, rfl, rfl, (by decide : (judging 0 true aCopy).flag Pg.LNK LNK.AUTH_DIAG = false), hm⟩
  · obtain ⟨hh, hc⟩ := fr theMic theMic_length
    refine ⟨judging 0 true (secured theMic), _, _, 63, 3, pathReady _ _ _ rfl rfl (by decide), fcsOk_withFcs _,
      (secured_reads theMic theMic_length).2.2.2.2, notSeen _, ?_⟩
    rw [hh, hc]
    refine ⟨by decide, by decide, rfl, rfl, rfl, rfl, rfl, rfl, single _, ?_, by decide, by decide, by decide, ?_, by decide, by decide, by decide,
      by decide, rfl, by decide⟩
    · have h := secured_mic theMic theMic_length
      rw [decide_eq_true rfl] at h
      exact h
    · intro e he
      cases he

/-- A frame for link firmware from endpoint 4095 (of the highest address), with frame counter 50. -/
def aFrame (ftype : Nat) (more : Bool) (payload : List Byte) : LnkFrame :=
  ⟨{ aHeader true 0 with ftype := ftype, src := 4094, more := more }, 50, [], payload, 1000, 63, 20, false, true⟩
/-- Running link firmware with frames to work on and a record of endpoint 4094; the message pool and the session objects have their regions. -/
def linking (l : List LnkFrame) (r : EpRec) : State :=
  let s := setF [(Pg.LNK, LNK.FW_STATE, 2), (Pg.MAC, MAC.REGIME, 0),
    (Pg.DRC 0, DRC.EN.nth 0, 1), (Pg.DRC 0, DRC.KIND.nth 0, 4), (Pg.DRC 0, DRC.SIZE.nth 0, 1),
    (Pg.DRC 0, DRC.EN.nth 1, 1), (Pg.DRC 0, DRC.KIND.nth 1, 6), (Pg.DRC 0, DRC.BASE.nth 1, 0x100), (Pg.DRC 0, DRC.SIZE.nth 1, 1),
    (Pg.DRC 0, DRC.EN.nth 2, 1), (Pg.DRC 0, DRC.KIND.nth 2, 2), (Pg.DRC 0, DRC.BASE.nth 2, 0x200), (Pg.DRC 0, DRC.SIZE.nth 2, 1)]
    State.reset
  { s with lnk := { s.lnk with inbox := l, eps := [(4094, r)] }, wad := { s.wad with lnkPause := false } }
/-- The record of an ACTIVE endpoint. -/
def active : EpRec := { EpRec.idle with state := .active, slot := 3, lastContact := 5 }

theorem canSend (l : List LnkFrame) (r : EpRec) (n : Nat) (h : (linking l r).poolFree = 256 ∧ (∀ j, j < 16 → (linking l r).profEn j = false) ∧
    isLinkQueue ((linking l r).get Pg.MAC MAC.RAW_QUEUE) = false ∧ routeBytes r.route.length + n ≤ 232) : (linking l r).LinkCanSend 4094 n :=
  ⟨by decide, rfl, by rw [h.1]; decide, h.2.1, h.2.2.1, h.2.2.2⟩

theorem nextFrame (f : LnkFrame) (rest : List LnkFrame) (s : State) (h1 : s.lnk.inbox = f :: rest)
    (h : s.fwRunning = true ∧ s.lnk.events.length < evtMax ∧ f.hdr.src < 4096) : s.NextFrame f rest := ⟨h1, h.1, h.2.1, h.2.2⟩

theorem witness_EndpointRecordsFollowFrames :
    (∃ (s : State) (a : Nat) (f : LnkFrame) (rest : List LnkFrame), s.NextFrame f rest ∧ a = f.hdr.src ∧ f.hdr.ftype = FT.HELLO ∧
      (s.ep a).state = .provisioned ∧ (s.ep a).noAck < 3 ∧ s.LinkCanSend a 11) ∧
    (∃ (s : State) (a : Nat) (f : LnkFrame) (rest : List LnkFrame), s.NextFrame f rest ∧ a = f.hdr.src ∧ f.hdr.ftype = FT.NEIGHBOUR ∧
      (s.ep a).state ≠ .absent ∧ (s.ep a).route ≠ [] ∧ [] ∉ (s.ep a).learned ∧ (s.ep a).noAck < 3 ∧ payNat f.payload 0 1 = 1 ∧
      payNat f.payload 1 3 % 4096 = 0) ∧
    (∃ (s : State) (f : LnkFrame) (rest : List LnkFrame) (n tag : Nat) (m : Msg), s.NextFrame f rest ∧ f.hdr.ftype = FT.REPORT ∧
      payNat f.payload 0 1 = 1 ∧ s.msg n tag = some m ∧ m.seq = some (payNat f.payload 1 2) ∧ m.inFlight = true ∧
      (s.plan n m).dst = f.hdr.src) ∧
    (∃ (s : State) (f : LnkFrame) (rest : List LnkFrame), s.NextFrame f rest ∧ f.hdr.ftype = FT.TEST) ∧
    (∃ (s : State) (ep : Fin 4096) (tick : Nat), s.fwRunning = true ∧ (s.ep ep.val).state = .active ∧ s.get Pg.LNK LNK.SILENT_S ≠ 0 ∧
      (s.ep ep.val).lastContact + s.get Pg.LNK LNK.SILENT_S * 2048000 ≤ tick ∧ s.lnk.events.length < evtMax) :=
  ⟨⟨linking [aFrame FT.HELLO false (List.replicate 24 3)] { active with state := .provisioned }, _, _, _, nextFrame _ _ _ rfl (by decide), rfl,
     rfl, rfl, by decide, canSend _ _ _ (by decide)⟩,
   ⟨linking [aFrame FT.NEIGHBOUR false [1, 0, 0, 5]] { active with route := [7], noAck := 2 }, _, _, _, nextFrame _ _ _ rfl (by decide), rfl, rfl,
     by decide⟩,
   ⟨let s := linking [aFrame FT.REPORT false [1, 7, 0]] active
    { s with wad := { s.wad with queues := [(0x45, { aQueue with d18 := 4094, msgs := [{ aMsg with seq := some 7 }] })] } }, _, _, 0x45, 1, _,
     nextFrame _ _ _ rfl (by decide), rfl, rfl, rfl, by decide⟩,
   ⟨linking [aFrame FT.TEST false []] active, _, _, nextFrame _ _ _ rfl (by decide), rfl⟩,
   ⟨setF [(Pg.LNK, LNK.SILENT_S, 2)] (linking [] active), 4094, 4096005, by decide⟩⟩

/-- A session with endpoint 4094, of 3 segments of 16 bytes, SID 255. -/
def aSess (rx : Bool) (st : SessState) : Sess :=
  { ep := 4094, rx := rx, sid := 255, state := st, total := 48, segSize := 16, win := 3, sackEvery := 3, check := 0, objType := 0, offset := 2
    base := 0, held := [], sent := [], autoRestart := false, sackCtr := 50, contra := 0, queries := 0, waitFrom := none, queryAt := 0
    suspAt := 0, lastRx := 0, replace := false, sinceSack := 0 }
/-- It is open under handle 65535. -/
def inSession (l : List LnkFrame) (x : Sess) : State :=
  let s := setF [(Pg.LNK, LNK.SACK_WAIT_MS, 10), (Pg.LNK, LNK.QUERY_LIMIT, 3), (Pg.LNK, LNK.PROBE_S, 1), (Pg.LNK, LNK.HOLD_S, 1)]
    (linking l active)
  { s with lnk := { s.lnk with sess := [(65535, some x)] } }
/-- A segment of SID 255 that waits to go out. -/
def aSeg : Msg := newMsg 2 [] [255, 0, 0, 0] 7 0 0 none
/-- A SESS_OPEN for SID 255: 48 bytes in segments of 16, window 64, a SACK every 64. -/
def anOpen : List Byte := [255, 48, 0, 0, 0, 16, 64, 64, 0, 0, 0, 0, 0, 0]

theorem witness_SessionsOpenMoveAndClose :
    (∃ (s : State) (a sid total seg win every o : Nat) (f : LnkFrame) (rest : List LnkFrame), a = f.hdr.src ∧ sid = payNat f.payload 0 1 ∧
      s.NextFrame f rest ∧ f.hdr.ftype = FT.SESS_OPEN ∧ s.sessOf a true sid = none ∧ total = payNat f.payload 1 4 ∧
      seg = payNat f.payload 5 1 ∧ win = payNat f.payload 6 1 ∧ every = payNat f.payload 7 1 ∧ 0 < total ∧ total ≤ 16777216 ∧ 16 ≤ seg ∧
      seg ≤ segRoom (s.ep a).route.length ∧ 0 < win ∧ win ≤ 64 ∧ 0 < every ∧ every ≤ win ∧ s.sessRoom a true = true ∧
      s.findPlace (ceilDiv total 4096) = some o ∧ s.LinkCanSend a 4) ∧
    (∃ (s : State) (a sid h i addr : Nat) (x : Sess) (data : List Byte) (f : LnkFrame) (rest : List LnkFrame), a = f.hdr.src ∧
      sid = payNat f.payload 0 1 ∧ s.NextFrame f rest ∧ f.hdr.ftype = FT.SEG ∧ s.sessOf a true sid = some h ∧ s.sess h = some x ∧
      x.state = .receiving ∧ i = payNat f.payload 1 3 ∧ data = f.payload.drop 4 ∧ i < x.count ∧ x.has i = false ∧ i < x.base + x.win ∧
      data.length = x.segLen i ∧ (x.withHeld x.base (i :: x.held)).base ≠ x.count ∧ f.hdr.more = true ∧ x.sinceSack + 1 < x.sackEvery ∧
      s.objAt x = some addr) ∧
    (∀ c : Bool, ∃ (s : State) (a sid h : Nat) (x : Sess) (f : LnkFrame) (rest : List LnkFrame), a = f.hdr.src ∧ sid = payNat f.payload 0 1 ∧
      s.NextFrame f rest ∧ f.hdr.ftype = FT.SACK ∧ s.sessOf a false sid = some h ∧ s.sess h = some x ∧ x.ep = a ∧ x.state = .sending ∧
      (if c then x.sackCtr ≤ f.counter ∧ payNat f.payload 1 1 % 2 = 1 else f.counter < x.sackCtr)) ∧
    (∀ op, op ∈ [Op.ACCEPT, Op.REFUSE] → ∃ (s : State) (a sid h : Nat) (x : Sess) (f : LnkFrame) (rest : List LnkFrame), a = f.hdr.src ∧
      sid = payNat f.payload 0 1 ∧ s.NextFrame f rest ∧ f.hdr.ftype = FT.SESS_CTRL ∧ payNat f.payload 1 1 = op ∧
      s.sessOf a false sid = some h ∧ s.sess h = some x ∧ x.ep = a ∧ x.state = .opening) ∧
    (∃ (s : State) (a sid h : Nat) (x : Sess) (f : LnkFrame) (rest : List LnkFrame), a = f.hdr.src ∧ sid = payNat f.payload 0 1 ∧
      s.NextFrame f rest ∧ f.hdr.ftype = FT.SESS_CTRL ∧ payNat f.payload 1 1 = Op.ABORT ∧
      s.sessOf a (decide (payNat f.payload 2 1 ≠ Reason.OBJECT_CHECK) && decide (payNat f.payload 2 1 ≠ Reason.UNKNOWN_SID)) sid = some h ∧
      s.sess h = some x ∧ x.ep = a ∧ x.state ≠ .complete) ∧
    (∃ (s : State) (a sid : Nat) (f : LnkFrame) (rest : List LnkFrame), a = f.hdr.src ∧ sid = payNat f.payload 0 1 ∧ s.NextFrame f rest ∧
      f.hdr.ftype = FT.SESS_CTRL ∧ payNat f.payload 1 1 = Op.QUERY ∧ s.sessOf a true sid = none ∧ s.LinkCanSend a 4) ∧
    (∀ st, st ∈ [SessState.opening, .sending] → ∃ (s : State) (handle : BitVec 16) (x : Sess) (w tick : Nat), s.sess handle.toNat = some x ∧
      s.fwRunning = true ∧ x.rx = false ∧ x.waitFrom = some w ∧ w + msTicks (s.get Pg.LNK LNK.SACK_WAIT_MS) ≤ tick ∧ x.state = st ∧
      s.sessMsgs x = [] ∧ x.queries + 1 < s.get Pg.LNK LNK.QUERY_LIMIT) ∧
    (∃ (s : State) (handle : BitVec 16) (x : Sess) (w tick : Nat), s.sess handle.toNat = some x ∧ s.fwRunning = true ∧ x.rx = false ∧
      x.waitFrom = some w ∧ w + msTicks (s.get Pg.LNK LNK.SACK_WAIT_MS) ≤ tick ∧ s.sessMsgs x ≠ []) ∧
    (∃ (s : State) (handle : BitVec 16) (x : Sess) (w tick : Nat), s.sess handle.toNat = some x ∧ s.fwRunning = true ∧ x.rx = false ∧
      x.waitFrom = some w ∧ w + msTicks (s.get Pg.LNK LNK.SACK_WAIT_MS) ≤ tick ∧ x.state = .sending ∧ s.sessMsgs x = [] ∧
      s.get Pg.LNK LNK.QUERY_LIMIT ≤ x.queries) ∧
    (∃ (s : State) (handle : BitVec 16) (x : Sess) (tick : Nat), s.sess handle.toNat = some x ∧ s.fwRunning = true ∧ x.rx = false ∧
      x.state = .suspended ∧ x.queryAt + s.get Pg.LNK LNK.PROBE_S * 2048000 ≤ tick ∧
      x.suspAt + s.get Pg.LNK LNK.HOLD_S * 2048000 ≤ tick ∧ s.lnk.events.length < evtMax ∧ x.ep < 4096) := by
  refine ⟨⟨linking [aFrame FT.SESS_OPEN false anOpen] active, _, _, _, _, _, _, 0, _, _, rfl, rfl, nextFrame _ _ _ rfl (by decide), rfl, by decide,
      rfl, rfl, rfl, rfl, by decide, (by show (48 : Nat) ≤ 16777216; omega), by decide, by decide, by decide, by decide, by decide, by decide,
      by decide, by decide, canSend _ _ _ (by decide)⟩,
    ⟨inSession [aFrame FT.SEG true ([255, 2, 0, 0] ++ List.replicate 16 9)] (aSess true .receiving), _, _, 65535, _, 0x1002000, _, _, _, _, rfl, rfl,
      nextFrame _ _ _ rfl (by decide), rfl, by decide, rfl, rfl, rfl, rfl, by decide⟩, ?_, ?_,
    ⟨inSession [aFrame FT.SESS_CTRL false [255, 4, 5, 0]] (aSess false .sending), _, _, 65535, _, _, _, rfl, rfl, nextFrame _ _ _ rfl (by decide), rfl, rfl,
      by decide, rfl, by decide⟩,
    ⟨linking [aFrame FT.SESS_CTRL false [255, 3, 0, 0]] active, _, _, _, _, rfl, rfl, nextFrame _ _ _ rfl (by decide), rfl, rfl, by decide,
      canSend _ _ _ (by decide)⟩, ?_,
    ⟨let s := inSession [] { aSess false .sending with waitFrom := some 7 }
     { s with wad := { s.wad with queues := [(8128, { aQueue with d18 := 4094, msgs := [aSeg] })] } }, 65535, _, 7, 20487, rfl, by decide⟩,
    ⟨inSession [] { aSess false .sending with waitFrom := some 7, queries := 3 }, 65535, _, 7, 20487, rfl, by decide⟩,
    ⟨inSession [] (aSess false .suspended), 65535, _, 2048000, rfl, by decide⟩⟩
  · intro c
    cases c
    · exact ⟨inSession [aFrame FT.SACK false [255, 1]] { aSess false .sending with sackCtr := 51 }, _, _, 65535, _, _, _, rfl, rfl,
        nextFrame _ _ _ rfl (by decide), rfl, by decide, rfl, rfl, rfl, by decide⟩
    · exact ⟨inSession [aFrame FT.SACK false [255, 1]] (aSess false .sending), _, _, 65535, _, _, _, rfl, rfl,
        nextFrame _ _ _ rfl (by decide), rfl, by decide, rfl, rfl, rfl, by decide⟩
  · intro op h
    simp only [List.mem_cons, List.not_mem_nil, or_false] at h
    rcases h with rfl | rfl
    · exact ⟨inSession [aFrame FT.SESS_CTRL false [255, 1, 0, 2]] (aSess false .opening), _, _, 65535, _, _, _, rfl, rfl,
        nextFrame _ _ _ rfl (by decide), rfl, rfl, by decide, rfl, rfl, rfl⟩
    · exact ⟨inSession [aFrame FT.SESS_CTRL false [255, 2, 0, 2]] (aSess false .opening), _, _, 65535, _, _, _, rfl, rfl,
        nextFrame _ _ _ rfl (by decide), rfl, rfl, by decide, rfl, rfl, rfl⟩
  · intro st h
    simp only [List.mem_cons, List.not_mem_nil, or_false] at h
    rcases h with rfl | rfl
    · exact ⟨inSession [] { aSess false .opening with waitFrom := some 7, queries := 1 }, 65535, _, 7, 20487, rfl, by decide⟩
    · exact ⟨inSession [] { aSess false .sending with waitFrom := some 7, queries := 1 }, 65535, _, 7, 20487, rfl, by decide⟩

/-! ## Mailbox -/

/-- A mailbox with arguments; link firmware runs, and endpoint 4094 has slot 2047. -/
def asked (args : List Word) (s : State) : State := { s with lnk := { s.lnk with args := args } }
/-- Link firmware in a state. -/
def fw (st : Nat) : State := setF [(Pg.LNK, LNK.FW_STATE, st), (Pg.LNK, LNK.WD_MS, 10)] State.reset
/-- A command in hand. -/
def inHand (s : State) : State := { s with lnk := { s.lnk with mb := some ⟨255, 0, [1, 2, 3]⟩ } }
/-- Two events wait, and a word index. -/
def events (n : Nat) : State := { fw 2 with lnk := { State.reset.lnk with events := [List.replicate 8 5, List.replicate 8 6], evtRead := n } }

theorem witness_MailboxAndFirmwareState :
    (∃ (s : State) (opcode : Byte), s.Reaches Pg.LNK ∧ Operands.unassigned opcode = true ∧ s.lnk.mb.isSome = true) ∧
    (∃ (s : State) (opcode : Byte), s.Reaches Pg.LNK ∧ Operands.unassigned opcode = true ∧ s.lnk.mb = none ∧ s.fwRunning = false) ∧
    (∃ (s : State) (opcode : Byte), s.Reaches Pg.LNK ∧ Operands.unassigned opcode = true ∧ s.lnk.mb = none ∧ s.fwRunning = true) ∧
    (∃ (s : State) (opcode : Byte) (m : MbCmd), s.Reaches Pg.LNK ∧ Operands.unassigned opcode = true ∧ s.lnk.mb = some m) ∧
    (∃ s : State, s.fwState = FW.BOOTING) ∧
    (∃ (s : State) (entries : List (BitVec 12 × BitVec 12)), s.fwRunning = true ∧ entries ≠ [] ∧
      s.LinkCanSend 0xFFF (schedulePayload entries).length) ∧
    (∃ (s : State) (ep : Fin 4096) (bytes : List Byte), s.fwRunning = true ∧ bytes ≠ [] ∧ s.LinkCanSend ep.val bytes.length) ∧
    (∃ (s : State) (tick : Nat), s.Reaches Pg.LNK ∧ s.fwRunning = true ∧ (∀ k, k < 32 → s.get (Pg.SEIF k) SEIF.OWNER ≠ 2) ∧ s.mac.trains = [] ∧ s.lnk.mb = none ∧
      s.lnk.hbAt + msTicks (s.get Pg.LNK LNK.WD_MS) ≤ tick) ∧
    (∀ n, n ∈ [6, 7] → ∃ (s : State) (e : List Word) (rest : List (List Word)), s.Reaches Pg.LNK ∧ s.lnk.events = e :: rest ∧
      s.lnk.evtLost = 0 ∧ s.lnk.evtRead = n) := by
  refine ⟨⟨inHand (fw 2), 0xFF, reaches _ _ (by decide), by decide⟩, ⟨fw 3, 0xFF, reaches _ _ (by decide), by decide⟩,
    ⟨fw 2, 0xFF, reaches _ _ (by decide), by decide⟩, ⟨inHand (fw 2), 0xFF, _, reaches _ _ (by decide), by decide, rfl⟩,
    ⟨fw 1, by decide⟩,
    ⟨linking [] active, [(9, 5)], by decide, by decide, ⟨by decide, rfl, by decide, by decide, by decide, by decide⟩⟩,
    ⟨linking [] active, 4094, [7], by decide, by decide, ⟨by decide, rfl, by decide, by decide, by decide, by decide⟩⟩, ⟨fw 2, 20480, reaches _ _ (by decide), by decide⟩, ?_⟩
  intro n h
  simp only [List.mem_cons, List.not_mem_nil, or_false] at h
  rcases h with rfl | rfl
  · exact ⟨events 6, _, _, reaches _ _ (by decide), rfl, by decide⟩
  · exact ⟨events 7, _, _, reaches _ _ (by decide), rfl, by decide⟩

theorem witness_MailboxCommandsAct :
    (∃ (s : State) (a slot : Nat), s.Reaches Pg.LNK ∧ s.lnk.mb = none ∧ s.fwRunning = true ∧ a = s.arg 0 % 4096 ∧
      slot = s.arg 0 / 2 ^ 16 % 2048 ∧ a ≠ 0 ∧ a ≠ 0xFFF ∧ (s.ep a).state = .absent ∧ (∀ e, e ∈ s.lnk.eps → e.2.slot ≠ slot) ∧
      s.lnk.eps.length < 2048 ∧ s.regionOf 2 ≠ none) ∧
    (∃ (s : State) (a : Nat), s.Reaches Pg.LNK ∧ s.lnk.mb = none ∧ s.fwRunning = true ∧ a = s.arg 0 % 4096 ∧ (s.ep a).state ≠ .absent ∧
      s.openSess = [] ∧ (∀ e, e ∈ s.wad.queues → isLinkQueue e.1 = false)) ∧
    (∃ (s : State) (slot : Nat) (e : Nat × EpRec), s.Reaches Pg.LNK ∧ s.lnk.mb = none ∧ s.fwRunning = true ∧ slot = s.arg 0 % 4096 ∧
      slot < 2048 ∧ List.find? (fun e => decide (e.2.slot = slot)) s.lnk.eps = some e) ∧
    (∃ (s : State) (a offset total seg win every g : Nat), s.Reaches Pg.LNK ∧ s.lnk.mb = none ∧ s.fwRunning = true ∧ a = s.arg 0 % 4096 ∧
      offset = s.arg 1 ∧ total = s.arg 2 ∧ seg = s.arg 3 % 256 ∧ win = s.arg 3 / 2 ^ 8 % 256 ∧ every = s.arg 3 / 2 ^ 16 % 256 ∧
      (s.ep a).state ≠ .absent ∧ s.regionOf 6 = some g ∧ 0 < total ∧ total ≤ 16777216 ∧ 16 ≤ seg ∧ seg ≤ segRoom (s.ep a).route.length ∧
      0 < win ∧ win ≤ 64 ∧ 0 < every ∧ every ≤ win ∧ offset * 4096 + total ≤ s.regionData g ∧ s.sessRoom a false = true ∧
      s.LinkCanSend a 14) ∧
    (∃ (s : State) (h : Nat) (x : Sess), s.Reaches Pg.LNK ∧ s.lnk.mb = none ∧ s.fwRunning = true ∧ h = s.arg 0 % 65536 ∧
      s.sess h = some x ∧ x.state ≠ .complete ∧ s.lnk.events.length < evtMax ∧ x.ep < 4096) ∧
    (∃ (s : State) (h : Nat) (x : Sess), s.Reaches Pg.LNK ∧ s.lnk.mb = none ∧ s.fwRunning = true ∧ h = s.arg 0 % 65536 ∧
      s.sess h = some x ∧ x.state = .complete) ∧
    (∃ (s : State) (a : Nat) (route : List Nat), s.Reaches Pg.LNK ∧ s.lnk.mb = none ∧ s.fwRunning = true ∧ a = s.arg 0 % 4096 ∧
      route = decodeRoute (s.arg 0 / 2 ^ 16 % 8) (leBytes 4 (s.arg 1) ++ leBytes 4 (s.arg 2)) ∧ (s.ep a).state ≠ .absent ∧
      route.length ≤ 4 ∧ route.Nodup ∧ 0 ∉ route ∧ 0xFFF ∉ route ∧ a ∉ route ∧ route ≠ (s.ep a).route ∧ s.routeFits a route = true ∧ s.LinkCanSend a 11 ∧
      s.lnk.events.length < evtMax) :=
  ⟨⟨asked [0x07FF0FFE] { linking [] active with lnk := { (linking [] active).lnk with eps := [(9, active)] } }, _, _, reaches _ _ (by decide),
     rfl, by decide, rfl, rfl, by decide⟩,
   ⟨asked [4094] (linking [] active), _, reaches _ _ (by decide), rfl, by decide, rfl, by decide⟩,
   ⟨asked [2047, 1, 2, 3, 4] (linking [] { active with slot := 2047 }), _, (4094, { active with slot := 2047 }), reaches _ _ (by decide), rfl,
     by decide, rfl, by decide, rfl⟩,
   ⟨asked [4094, 1, 5000, 0x4040E4] (linking [] active), _, _, _, _, _, _, 1, reaches _ _ (by decide), rfl, by decide, rfl, rfl, rfl, rfl, rfl, rfl,
     by decide, by decide, by decide, by show (5000 : Nat) ≤ 16777216; omega, by decide, by decide, by decide, by decide, by decide, by decide,
     by decide, by decide, ⟨by decide, rfl, by decide, by decide, by decide, by decide⟩⟩,
   ⟨asked [65535] (inSession [] (aSess true .receiving)), _, _, reaches _ _ (by decide), rfl, by decide, rfl, rfl, by decide⟩,
   ⟨asked [65535] (inSession [] (aSess true .complete)), _, _, reaches _ _ (by decide), rfl, by decide, rfl, rfl, by decide⟩,
   ⟨asked [0x01040FFE, 0x03002001, 0x4000] (linking [] active), _, _, reaches _ _ (by decide), rfl, by decide, rfl, rfl, by decide, by decide,
     by decide, by decide, by decide, by decide, by decide, by decide, ⟨by decide, rfl, by decide, by decide, by decide, by decide⟩, by decide⟩⟩

/-! ## Queues, records and credit -/

/-- Queue 0x45 or a queue of link firmware is indexed, and messages wait in queue 0x45. -/
def indexed (n : Nat) (l : List (Fld × Nat)) (ms : List Msg) : State :=
  setF ((Pg.WQD, WQD.QD_IDX, n) :: l.map fun e => (Pg.WQD, e)) (queued ms State.reset)
/-- A message that waits, with tag t. -/
def waiting (t : Nat) : Msg := { aMsg with inFlight := false, tag := t, deadline := some 700 }

theorem witness_QueuesOpenPauseAndEndMessages :
    (∃ (s : State) (n : Nat), n = s.get Pg.WQD WQD.QD_IDX ∧ s.Reaches Pg.WQD ∧ isLinkQueue n = true) ∧
    (∀ closed pending : Bool, ∃ (s : State) (n : Nat), n = s.get Pg.WQD WQD.QD_IDX ∧ s.Reaches Pg.WQD ∧ isLinkQueue n = false ∧
      decide (s.queueState n = 0) = closed ∧ s.flag Pg.WQD CFG.PENDING = pending) ∧
    (∃ (s : State) (n : Nat) (q : Queue), n = s.get Pg.WQD WQD.QD_IDX ∧ q = s.queue n ∧ s.Reaches Pg.WQD ∧ isLinkQueue n = false ∧
      s.flag Pg.WQD CFG.PENDING = false ∧ (∀ m, m ∈ q.msgs → m.inFlight = false) ∧ (q.msgs.map (·.tag)).Nodup ∧
      s.flag Pg.WQD CFG.ARMED = false ∧ 2 ≤ q.msgs.length) ∧
    (∀ b : Bool, ∃ (s : State) (n : Nat) (tag : BitVec 16) (m : Msg), n = s.get Pg.WQD WQD.QD_IDX ∧ s.Reaches Pg.WQD ∧ isLinkQueue n = false ∧
      s.msg n tag.toNat = some m ∧ m.onLine = b ∧ s.flag Pg.WQD CFG.ARMED = false) ∧
    (∃ (s : State) (n : Nat) (tag : BitVec 16), n = s.get Pg.WQD WQD.QD_IDX ∧ s.Reaches Pg.WQD ∧ isLinkQueue n = false ∧
      s.msg n tag.toNat = none) ∧
    (∃ (s : State) (queue : Fin 8192) (tag : BitVec 16) (m : Msg) (tick d : Nat), s.msg queue.val tag.toNat = some m ∧
      isLinkQueue queue.val = false ∧ s.flag Pg.WQD CFG.ARMED = false ∧ m.deadline = some d ∧ d ≤ tick ∧ m.onLine = false) ∧
    (∃ (s : State) (queue : Fin 8192) (tag : BitVec 16) (m : Msg) (tick : Nat), s.msg queue.val tag.toNat = some m ∧
      isLinkQueue queue.val = false ∧ s.flag Pg.WQD CFG.ARMED = false ∧ 2 ≤ (s.queue queue.val).cls ∧ (s.queue queue.val).budgetWait ≠ 0 ∧
      m.delay = Delay.BUDGET ∧ m.inFlight = false ∧ msTicks (s.queue queue.val).budgetWait ≤ m.budgetTicks + (tick - m.delayAt)) := by
  refine ⟨⟨indexed 8128 [] [], _, rfl, reaches _ _ (by decide), by decide⟩, ?_, ⟨indexed 0x45 [] [waiting 0, waiting 65535], _, _, rfl, rfl, reaches _ _ (by decide), by decide⟩, ?_,
    ⟨indexed 0x45 [] [waiting 0], _, 1, rfl, reaches _ _ (by decide), by decide⟩,
    ⟨indexed 0 [] [waiting 65535], 0x45, 65535, waiting 65535, 700, 700, by decide⟩,
    ⟨indexed 0 [] [{ waiting 1 with delay := Delay.BUDGET, delayAt := 10 }], 0x45, 1, { waiting 1 with delay := Delay.BUDGET, delayAt := 10 },
      10 + 2048 * 5000, by decide⟩⟩
  · intro closed pending
    cases closed <;> cases pending
    · exact ⟨indexed 0x45 [] [waiting 0], _, rfl, reaches _ _ (by decide), by decide⟩
    · exact ⟨indexed 0x45 [(CFG.PENDING, 1)] [waiting 0], _, rfl, reaches _ _ (by decide), by decide⟩
    · exact ⟨indexed 8127 [] [], _, rfl, reaches _ _ (by decide), by decide⟩
    · exact ⟨indexed 8127 [(CFG.PENDING, 1)] [], _, rfl, reaches _ _ (by decide), by decide⟩
  · intro b
    cases b
    · exact ⟨indexed 0x45 [] [waiting 1], _, 1, _, rfl, reaches _ _ (by decide), by decide, rfl, by decide⟩
    · exact ⟨indexed 0x45 [] [{ aMsg with onLine := true }], _, 1, _, rfl, reaches _ _ (by decide), by decide, rfl, by decide⟩

/-- A completion record due for ring 63. -/
def dueRec : DueRec := ⟨63, ⟨[1], [], 0⟩, false, false, 16⟩
/-- Ring 63 takes records or not, has one entry or none free, and may have a LOSS record due. -/
def filing (en : Nat) (full : Bool) (lost : Nat) : State :=
  let s := setF [(Pg.WAD, WAD.EN.nth 63, en), (Pg.WAD, WAD.SIZE_M1.nth 63, 0)] State.reset
  { s with wad := { s.wad with due := [dueRec], rings := [(63, { Ring.idle with recs := if full then [aRec] else [], lostRx := lost })] } }
/-- Ring 63 is full, n refusals are held for it, and one more is due. -/
def heldList (n : Nat) : State :=
  let s := filing 1 true 0
  { s with wad := { s.wad with due := List.replicate n { dueRec with refusal := true, held := true } ++ [{ dueRec with refusal := true }] } }

theorem heldList_first (n : Nat) : ((heldList (n + 1)).wad.due.find? fun e => decide (e.ring = 63)) =
    some { dueRec with refusal := true, held := true } := rfl

theorem find_late {α : Type} (p : α → Bool) (a b : α) (ha : p a = false) (hb : p b = true) :
    ∀ n, (List.replicate n a ++ [b]).find? p = some b
  | 0 => by simp [hb]
  | n + 1 => by rw [List.replicate_succ, List.cons_append, List.find?_cons_of_neg (by simp [ha]), find_late p a b ha hb n]

theorem heldList_new (n : Nat) : (heldList n).newDue 63 = some { dueRec with refusal := true } :=
  find_late _ _ _ (by decide) (by decide) n

theorem heldList_held (n : Nat) : n ≤ (heldList n).heldRefusals := by
  show n ≤ (List.filter _ (List.replicate n _ ++ _)).length
  rw [List.filter_append, List.filter_replicate_of_pos (by decide), List.length_append, List.length_replicate]
  exact Nat.le_add_right _ _

/-- The credit stands at n. -/
def credit (n : Int) (s : State) : State := { s with oas := { s.oas with free := n } }
/-- A message may be granted: its port is in service, the quantum reaches and the line budget is off. -/
def grantable (n : Int) : State :=
  let s := setF [(Pg.MAC, MAC.REGIME, 0), (Pg.OAS, OAS.CAP_MW, 1000), (Pg.OAS, OAS.COST.nth 0, 5), (Pg.WAD, WAD.QUANTUM_US, 65535), (Pg.WAD, WAD.WEIGHT2, 255)]
    (trying anAttempt 2)
  credit n { s with wad := { s.wad with queues := [(0x45, { aQueue with d14 := 0xF2, msgs := [waiting 1] })], lnkPause := false },
                    mac := State.reset.mac }

/-- A window with samples of the rail sum. -/
def summed (sums : List Nat) : State :=
  let s := setF [(Pg.OAS, OAS.LINE_MW.nth 15, 9), (Pg.OAS, OAS.SPRINT_EN, 0)] State.reset
  { s with oas := { s.oas with winSums := sums } }

theorem witness_RecordsAndCreditFollow :
    (∃ (s : State) (ring : Fin 64) (d : DueRec), (s.wad.due.find? fun e => decide (e.ring = ring.val)) = some d ∧
      (∀ a, (s.ep a).noAck < 3) ∧ s.ringEn ring.val = true ∧ s.lossPending ring.val = false ∧ s.ringRoom ring.val = true) ∧
    (∀ late : Bool, ∃ (s : State) (ring : Fin 64) (d e : DueRec), (s.wad.due.find? fun e => decide (e.ring = ring.val)) = some d ∧
      (∀ a, (s.ep a).noAck < 3) ∧ s.ringEn ring.val = true ∧ s.lossPending ring.val = false ∧ s.ringRoom ring.val = false ∧
      s.newDue ring.val = some e ∧ e.refusal = late ∧ (late = true → 4096 ≤ s.heldRefusals)) ∧
    (∃ (s : State) (ring : Fin 64) (d : DueRec), (s.wad.due.find? fun e => decide (e.ring = ring.val)) = some d ∧
      (∀ a, (s.ep a).noAck < 3) ∧ s.ringEn ring.val = false) ∧
    (∃ (s : State) (ring : Fin 64), s.ringEn ring.val = true ∧ s.lossPending ring.val = true ∧ s.ringRoom ring.val = true) ∧
    (∀ sums, sums = [] ∨ sums = [5, 7] → ∃ (s : State) (tick mw : Nat), s.oas.winSums = sums ∧ tick % 2048 = 0 ∧ s.wad.queues = [] ∧ s.oas.ready = [] ∧ s.get Pg.OAS OAS.LEVEL = s.oas.act ∧
      (∀ pg, pg ∈ [Pg.OAS, Pg.PWD0, Pg.WAD] → s.flag pg CFG.ARMED = false) ∧ s.flag Pg.OAS OAS.SPRINT_EN = false ∧
      s.flag Pg.OAS OAS.SPRINT = false ∧ (∀ j, j ∈ s.oas.running → s.shortJob j = false) ∧ mw = s.get Pg.OAS (OAS.LINE_MW.nth 15) ∧
      mw ≠ 0 ∧ s.flag Pg.OAS (OAS.AMP_RTD_EN.nth 15) = false) ∧
    (∀ n : Bool, ∃ (s : State) (k : KernelJob), s.wad.queues = [] ∧ s.oas.ready = [] ∧ s.flag Pg.WAD CFG.ARMED = false ∧
      s.fwRunning = true ∧ s.jobRunning (.kernel k) = false ∧ s.level < 4 ∧ s.fits s.seifCost = n) ∧
    (∃ (s : State) (tick n : Nat) (q : Queue) (m : Msg) (p : Plan), s.wad.queues = [(n, q)] ∧ q.msgs = [m] ∧ m.inFlight = false ∧
      p = s.plan n m ∧ 0 < p.cls ∧ p.cls < 4 ∧ p.port < 16 ∧ p.ftype ≠ ftypeSchedule ∧ s.oas.ready = [] ∧
      s.flag Pg.WAD CFG.ARMED = false ∧ s.queueState n = 1 ∧ (s.atTick tick).holdReason n m = none ∧ (∀ port, s.needToken port = false) ∧
      s.roomFor p.port = true ∧ s.grantRefusal n m p [] = none ∧
      s.lineFits p.port tick (modeCopies p.mode * s.energyOf p.port (s.get (Pg.TXS p.port) (TXS.LEVEL.nth p.ch)) (s.copyOn p m)) = true ∧
      s.fits (s.cost 0) = true) ∧
    (∃ (s : State) (rates : List (BitVec 16)), rates.length = 8 ∧ s.fwState = FW.BOOTING) ∧
    (∃ rates : List (BitVec 16), rates.length ≠ 8) := by
  have quiet : ∀ (e : Nat) (f : Bool) (l a : Nat), ((filing e f l).ep a).noAck < 3 := fun _ _ _ _ => (by decide : (0 : Nat) < 3)
  refine ⟨⟨filing 1 false 0, 63, dueRec, by decide, quiet _ _ _, by decide⟩, ?_,
    ⟨filing 0 false 0, 63, dueRec, by decide, quiet _ _ _, by decide⟩, ⟨filing 1 false 1, 63, by decide⟩,
    (fun sums h => by
      rcases h with rfl | rfl
      · exact ⟨summed [], 2048, _, rfl, by decide, rfl, rfl, by decide, by decide, by decide, by decide, (fun j h => by cases h), rfl,
          by decide⟩
      · exact ⟨summed [5, 7], 2048, _, rfl, by decide, rfl, rfl, by decide, by decide, by decide, by decide, (fun j h => by cases h), rfl,
          by decide⟩), ?_,
    ⟨grantable 5, 2048, _, _, _, _, rfl, rfl, rfl, rfl, by decide, by decide, by decide, by decide, by decide, by decide, by decide, by decide, ?_, by decide, by decide, by decide,
      by decide⟩, ⟨fw 1, List.replicate 8 0xFFFF, by decide⟩, ⟨[], by decide⟩⟩
  · intro late
    cases late
    · exact ⟨filing 1 true 0, 63, dueRec, dueRec, by decide, quiet _ _ _, by decide⟩
    · exact ⟨heldList 4096, 63, _, _, heldList_first 4095, fun _ => (by decide : (0 : Nat) < 3), rfl, rfl, rfl, heldList_new 4096, rfl,
        fun _ => heldList_held 4096⟩
  · intro b
    cases b
    · exact ⟨setF [(Pg.OAS, OAS.COST.nth 3, 5), (Pg.OAS, OAS.CAP_MW, 1000)] (credit 4 (fw 2)), .noiseMap, by decide⟩
    · exact ⟨setF [(Pg.OAS, OAS.COST.nth 3, 5), (Pg.OAS, OAS.CAP_MW, 1000)] (credit 5 (fw 2)), .powerQuality, by decide⟩
  · intro p
    have h : (grantable 5).cavState = CS.OFF := by decide
    simp [State.needToken, h]

/-! ## Oasis -/

/-- Oasis with its part changed. -/
def oasis (f : OasSt → OasSt) (l : List (Fld × Nat)) : State :=
  let s := setF (l.map fun e => (Pg.OAS, e)) State.reset
  { s with oas := f s.oas }

theorem witness_LevelsFollowContributions :
    (∃ s : State, s.oas.tjLevel ≤ 5 ∧ s.oas.sensorLevel ≤ 5) ∧ (∃ ma mv : List Nat, ma.length = 9 ∧ mv.length = 9) ∧
    (∃ ma mv : List Nat, ma.length ≠ 9 ∨ mv.length ≠ 9) ∧
    (∀ b : Bool, ∃ (s : State) (t0 tick : Nat), s.oas.tjLevel ≤ 5 ∧ s.oas.sensorLevel ≤ 5 ∧ s.oas.overSince = some t0 ∧
      t0 + msTicks (s.get Pg.OAS OAS.CAP_OVER_MS) ≤ tick ∧ decide (s.get Pg.OAS OAS.CAP_LEVEL < 4) = b) ∧
    (∃ (s : State) (t0 tick : Nat), s.oas.tjLevel ≤ 5 ∧ s.oas.sensorLevel ≤ 5 ∧ s.oas.underSince = some t0 ∧
      t0 + msTicks (s.get Pg.OAS OAS.CAP_HOLD_MS) ≤ tick ∧ 0 < s.get Pg.OAS OAS.CAP_LEVEL) ∧
    (∃ (s : State) (readings : List Int), s.oas.tjLevel ≤ 5 ∧ s.oas.sensorLevel ≤ 5 ∧ readings.length = 16 ∧
      (∀ r, r ∈ readings → -960 ≤ r ∧ r ≤ 2560) ∧ ∀ i, i < 16 → (s.sensor i).1 ≠ readings.getD i 0) ∧
    (∃ readings : List Int, readings.length ≠ 16) ∧
    (∃ (s : State) (t0 tick : Nat), s.oas.tjLevel = 5 ∧ s.oas.sensorLevel ≤ 5 ∧ s.oas.coolSince = some t0 ∧
      t0 + msTicks (s.get Pg.OAS OAS.STEP_DOWN_MS) ≤ tick) ∧
    (∃ (s : State) (tick : Nat), s.oas.tjLevel ≤ 5 ∧ s.oas.sensorLevel ≤ 5 ∧ (s.atTick tick).demand = false ∧
      s.oas.demandAt + msTicks 100 ≤ tick ∧ s.flag Pg.OAS OAS.SPRINT = true) ∧
    (∃ (s : State) (port : Fin 16) (tick : Nat), s.oas.tjLevel ≤ 5 ∧ s.oas.sensorLevel ≤ 5 ∧
      s.flag Pg.OAS (OAS.AMP_RTD_EN.nth port.val) = true ∧ Tab.get (fun _ => 0) s.oas.ampAt port.val + 2048000 ≤ tick) := by
  refine ⟨⟨State.reset, by decide⟩, ⟨List.replicate 9 1, List.replicate 9 1, by decide⟩, ⟨[], [], by decide⟩, ?_,
    ⟨oasis (fun o => { o with underSince := some 7 }) [(OAS.CAP_HOLD_MS, 10), (OAS.CAP_LEVEL, 4)], 7, 20487, by decide⟩,
    ⟨State.reset, (List.range 16).map (fun i => if i = 15 then 2560 else -960), by decide⟩, ⟨[], by decide⟩,
    ⟨oasis (fun o => { o with tjLevel := 5, coolSince := some 7 }) [(OAS.STEP_DOWN_MS, 10)], 7, 20487, by decide⟩,
    ⟨oasis (fun o => { o with demandAt := 7 }) [(OAS.SPRINT, 1)], 204807, by decide⟩,
    ⟨oasis (fun o => { o with ampAt := [(15, 7)] }) [(OAS.AMP_RTD_EN.nth 15, 1)], 15, 2048007, by decide⟩⟩
  intro b
  cases b
  · exact ⟨oasis (fun o => { o with overSince := some 7 }) [(OAS.CAP_OVER_MS, 10), (OAS.CAP_LEVEL, 4)], 7, 20487, by decide⟩
  · exact ⟨oasis (fun o => { o with overSince := some 7 }) [(OAS.CAP_OVER_MS, 10), (OAS.CAP_LEVEL, 3)], 7, 20487, by decide⟩

/-- A domain inside its 8 µs. -/
def waking (d : Nat) : State := oasis (fun o => { o with waking := some (d, 7) }) []
/-- A domain that its host wants off. -/
def unwanted (d : Nat) (s : State) : State := on [d] (setF [(Pg.PWD0, PWD0.REQ.nth d, 2)] s)
/-- Seventeen live alarm engines, of pages ERG 0 to 4. -/
def alarms : State :=
  setF ((List.range 17).flatMap fun c => [(Pg.ERG (c / 4), ERG.ROLE.nth (c % 4), 1), (Pg.ERG (c / 4), ERG.ALARM.nth (c % 4), 1)]) State.reset

theorem witness_DomainsAndModesSwitch :
    (∃ (s : State) (tick d : Nat), s.oas.waking = none ∧ s.asleep = false ∧ d < 152 ∧ s.oas.wakeDone ≠ 0 ∧
      s.oas.wakeDone + s.oasStagger ≤ tick ∧ (s.atTick tick).nextWake = some d) ∧
    (∃ (s : State) (tick d : Nat), s.oas.waking = none ∧ s.asleep = false ∧ d < 152 ∧ s.urgent d = true ∧ (s.atTick tick).nextWake = some d) ∧
    (∃ (s : State) (tick d t0 : Nat), s.oas.waking = some (d, t0) ∧ t0 + 17 ≤ tick ∧ 132 ≤ d ∧ d < 140) ∧
    (∃ (s : State) (tick d t0 : Nat), s.oas.waking = some (d, t0) ∧ t0 + 17 ≤ tick ∧ 64 ≤ d ∧ d < 96 ∧
      s.flag (Pg.SEIF (d - 64)) CFG.ARMED = false) ∧
    (∃ (s : State) (tick cause : Nat) (domain : Fin 152), (s.atTick tick).mustOff domain.val = some cause ∧ cause < 8 ∧
      s.domOn domain.val = true ∧ s.oas.offDone = 0 ∧ s.domainIdle domain.val = false ∧ s.domState domain.val = DS.ON) ∧
    (∃ (s : State) (tick cause : Nat) (domain : Fin 152), (s.atTick tick).mustOff domain.val = some cause ∧ cause < 8 ∧
      s.domOn domain.val = true ∧ s.oas.offDone ≠ 0 ∧ s.oas.offDone + s.oasStagger ≤ tick ∧ s.domainIdle domain.val = true ∧
      132 ≤ domain.val ∧ domain.val ≤ 140) ∧
    (∃ s : State, s.Reaches Pg.OAS ∧ s.fwIdle = true ∧ s.flag Pg.OAS OAS.SPRINT = false ∧ s.standby = true ∧ s.noAutoStart = true) ∧
    (∃ s : State, s.Reaches Pg.OAS ∧ s.fwIdle = true ∧ s.flag Pg.OAS OAS.SPRINT = false ∧ s.standby = false ∧
      (s.liveEngines.filter s.isAlarm).length ≤ 16) ∧
    (∃ s : State, s.Reaches Pg.OAS ∧ s.fwIdle = true ∧ s.flag Pg.OAS OAS.SPRINT = false ∧ s.standby = false ∧
      16 < (s.liveEngines.filter s.isAlarm).length) ∧
    (∀ b : Bool, ∃ s : State, s.Reaches Pg.OAS ∧ s.flag Pg.CLK CLK.AON_OK = b) := by
  refine ⟨⟨oasis (fun o => { o with wakeDone := 7 }) [(OAS.STAGGER_US, 1000)], 2055, _, by decide, by decide, ?_, by decide, by decide, rfl⟩,
    ⟨oasis (fun o => { o with wakeDone := 7 }) [(OAS.STAGGER_US, 1000)], 10, 128, by decide⟩,
    ⟨waking 139, 24, 139, 7, by decide⟩, ⟨waking 95, 24, 95, 7, by decide⟩,
    ⟨unwanted 15 (engine ES.DATA [] State.reset), 9, DC.HOST, 15, by decide⟩,
    ⟨unwanted 140 (oasis (fun o => { o with offDone := 7 }) [(OAS.STAGGER_US, 1000)]), 2055, DC.HOST, 140, by decide⟩,
    ⟨(setF [(Pg.OAS, OAS.MODE, 1)] State.reset).setMram MR.BOOT_PARAM 4, reaches _ _ (by decide), by decide⟩,
    ⟨State.reset, reaches _ _ (by decide), by decide⟩, ⟨alarms, reaches _ _ (by decide), by decide⟩, ?_⟩
  · decide
  · intro b
    cases b
    · exact ⟨setF [(Pg.CLK, CLK.AON_OK, 0)] State.reset, reaches _ _ (by decide), by decide⟩
    · exact ⟨setF [(Pg.CLK, CLK.AON_OK, 1)] State.reset, reaches _ _ (by decide), by decide⟩

/-! ## Sense front end, decimation chain, loops and check-value units -/

/-- Group 7 in a phase at its input 3, with a mask of inputs and fields of page SNS; both modulator domains are on. -/
def sensing (mask : Nat) (ph : SnsPhase) (l : List (Fld × Nat)) : State :=
  let s := setF ((Pg.SNS, SNS.SEQ_EN.nth 7, mask) :: l.map fun e => (Pg.SNS, e)) (on [142, 143, 144] State.reset)
  { s with sns := { s.sns with grp := [(7, ⟨3, ph, 1000, 2⟩)] } }
/-- Input 31 keeps something. -/
def input (c : SnsCh) (s : State) : State := { s with sns := { s.sns with ch := [(31, c)] } }
/-- Pin 1 keeps something. -/
def pin (p : BlankPin) (s : State) : State := { s with sns := { s.sns with pins := [(1, p)] } }

/-- Input 28 holds the range of its last slot. -/
def slotHeld (s : State) : State := { s with sns := { s.sns with ch := [(28, { SnsCh.idle with held := true })] } }

theorem witness_SlotsRangesAndBlanking :
    (∃ (s : State) (x : SnsGrp) (i : Nat), x = s.snsGrp 7 ∧ s.snsOn 7 = true ∧ x.phase = .ended ∧ s.rotating 7 = true ∧
      s.flag Pg.SNS CFG.ARMED = false ∧ i = nextInput (s.seqMask 7) x.cur) ∧
    (∃ (s : State) (x : SnsGrp) (tick n : Nat), x = s.snsGrp 7 ∧ n = 4 * 7 + x.cur ∧ s.snsOn 7 = true ∧ x.phase = .settling ∧
      x.slotAt + s.settleTicks 7 ≤ tick) ∧
    (∀ h a : Bool, ∃ (s : State) (x : SnsGrp) (i : Nat), x = s.snsGrp 7 ∧ s.snsOn 7 = true ∧ x.phase = .ended ∧ s.rotating 7 = true ∧
      s.flag Pg.SNS CFG.ARMED = false ∧ i = nextInput (s.seqMask 7) x.cur ∧ s.flag Pg.SNS (SNS.AUTORANGE.nth (4 * 7 + i)) = a ∧
      (s.snsCh (4 * 7 + i)).held = h) ∧
    (∀ b : Bool, ∃ (s : State) (x : SnsGrp) (input : Fin 32) (first second : BitVec 22), beyondScale first = true ∧
      beyondScale second = true ∧ x = s.snsGrp 7 ∧ input.val / 4 = 7 ∧ input.val % 4 = x.cur ∧
      s.snsOn 7 = true ∧ x.phase = .running ∧ s.flag Pg.SNS (SNS.AUTORANGE.nth input.val) = true ∧
      decide (s.get Pg.SNS (SNS.RANGE_MIN.nth input.val) < s.rangeNow input.val) = b) ∧
    (∃ (s : State) (since tick : Nat) (level : Bool), s.pinActive 1 level = true ∧ pinSettled since tick = true ∧ s.domOn 142 = true ∧
      s.flag Pg.SNS (SNS.BLANK_EN.nth 1) = true ∧ (s.blankPin 1).active = false ∧
      (s.blankPin 1).ignored = false ∧ (s.blankPin 1).opened = none ∧ bitOf (s.get Pg.MIR MIR.TRIG_EN) (8 + 1) = 0) ∧
    (∃ (s : State) (since tick : Nat) (level : Bool), s.pinActive 1 level = false ∧ pinSettled since tick = true ∧ s.domOn 142 = true ∧
      (s.blankPin 1).active = true) ∧
    (∀ b : Bool, ∃ (s : State) (r tick : Nat), s.domOn 142 = true ∧ (s.blankPin 1).active = false ∧ (s.blankPin 1).released = some r ∧
      r + s.postGuard 1 ≤ tick ∧ (s.blankPin 1).ignored = b ∧ (s.blankPin 1).opened.isSome = !b) ∧
    (∃ (s : State) (t0 tick : Nat), s.domOn 142 = true ∧ (s.blankPin 1).opened = some t0 ∧ t0 + msTicks (s.get Pg.SNS SNS.BLANK_MAX_MS) ≤ tick) := by
  refine ⟨⟨sensing 9 .ended [], _, _, rfl, by decide, by decide, by decide, by decide, rfl⟩,
    ⟨sensing 8 .settling [(SNS.SETTLE.nth 7, 3)], _, 1002, _, rfl, rfl, by decide⟩, ?_, ?_,
    ⟨sensing 8 .running [(SNS.BLANK_EN.nth 1, 1)], 1000, 1005, true, by decide⟩,
    ⟨pin ⟨true, some 5, none, false⟩ (sensing 8 .running []), 1000, 1005, false, by decide⟩, ?_,
    ⟨pin ⟨true, some 5, none, false⟩ (sensing 8 .running [(SNS.BLANK_MAX_MS, 1)]), 5, 2053, by decide⟩⟩
  · intro h a
    cases h <;> cases a
    · exact ⟨sensing 9 .ended [(SNS.AUTORANGE.nth 28, 0)], _, 0, rfl, by decide⟩
    · exact ⟨sensing 9 .ended [(SNS.AUTORANGE.nth 28, 1)], _, 0, rfl, by decide⟩
    · exact ⟨slotHeld (sensing 9 .ended [(SNS.AUTORANGE.nth 28, 0)]), _, 0, rfl, by decide⟩
    · exact ⟨slotHeld (sensing 9 .ended [(SNS.AUTORANGE.nth 28, 1)]), _, 0, rfl, by decide⟩
  · intro b
    cases b
    · exact ⟨sensing 8 .running [(SNS.AUTORANGE.nth 31, 1), (SNS.RANGE_MIN.nth 31, 3), (SNS.RANGE_NOW.nth 31, 3)], _, 31, 0x1FFFFF, 0x200000,
        by decide, by decide, rfl, by decide⟩
    · exact ⟨sensing 8 .running [(SNS.AUTORANGE.nth 31, 1), (SNS.RANGE_MIN.nth 31, 3), (SNS.RANGE_NOW.nth 31, 4)], _, 31, 0x1FFFFF, 0x200000,
        by decide, by decide, rfl, by decide⟩
  · intro b
    cases b
    · exact ⟨pin ⟨false, some 5, some 50, false⟩ (sensing 8 .running [(SNS.POST_GUARD.nth 1, 10)]), 50, 2098, by decide⟩
    · exact ⟨pin ⟨false, none, some 50, true⟩ (sensing 8 .running [(SNS.POST_GUARD.nth 1, 10)]), 50, 2098, by decide⟩

/-- A dedicated input 31 on check. -/
def onCheck : State := input { SnsCh.idle with checking := some 1000, checkRange := 7, passes := 2, isOpen := true } (sensing 8 .check [])

theorem witness_WiringChecksDecideWireState :
    (∃ (s : State) (e : Fin 4) (need vsns : BitVec 16), vsns.toNat < need.toNat + 500 ∧ s.snsOn 7 = true ∧ s.domOn 144 = true ∧ s.flag Pg.EXC (EXC.ON.nth e.val) = true ∧
      s.get Pg.EXC (EXC.INPUT_NOW.nth e.val) = 31) ∧
    (∃ (s : State) (c : SnsCh) (tick : Nat), c = s.snsCh 31 ∧ s.snsOn 7 = true ∧ c.checking = none ∧ s.dedicated 7 = true ∧
      (s.snsGrp 7).cur = 3 ∧ s.timebaseSource 31 = none ∧ (s.snsGrp 7).phase = .running ∧ s.flag Pg.SNS (SNS.OPEN_CHECK.nth 31) = true ∧
      s.get Pg.SNS SNS.CHECK_MS ≠ 0 ∧ c.lastCheck + msTicks (s.get Pg.SNS SNS.CHECK_MS) ≤ tick ∧ s.Reaches Pg.SNS) ∧
    (∃ inputs : BitVec 32, inputs.toNat = 2 ^ 31) ∧
    (∃ (s : State) (c : SnsCh) (t0 tick : Nat), c = s.snsCh 31 ∧ s.snsOn 7 = true ∧ c.checking = some t0 ∧ s.checkReady 31 t0 ≤ tick ∧
      c.checkRange < 8) ∧
    (∃ (s : State) (since tick : Nat) (pMv nMv : BitVec 16), (legOut pMv = true ∨ legOut nMv = true) ∧ s.snsOn 7 = true ∧
      since + msTicks 10 ≤ tick) ∧
    (∃ (s : State) (c : SnsCh) (tick : Nat), c = s.snsCh 31 ∧ s.snsOn 7 = true ∧ c.isShort = true ∧ c.shortAt + msTicks 1000 ≤ tick) ∧
    (∃ s : State, s.snsOn 7 = true ∧ s.flag Pg.SNS (SNS.REV_CHECK.nth 31) = true ∧ s.get Pg.SNS (SNS.KIND.nth 31) = 2 ∧ s.tbServes) :=
  ⟨⟨setF [(Pg.EXC, EXC.ON.nth 3, 1), (Pg.EXC, EXC.INPUT_NOW.nth 3, 31)] (sensing 8 .running []), 3, 4000, 4499, by decide⟩,
   ⟨input { SnsCh.idle with lastCheck := 5 } (sensing 8 .running [(SNS.OPEN_CHECK.nth 31, 1), (SNS.CHECK_MS, 1)]), _, 2053, rfl, by decide,
     by decide, by decide, by decide, by decide, by decide, by decide, by decide, by decide, reaches _ _ (by decide)⟩,
   ⟨0x80000000, by decide⟩, ⟨onCheck, _, 1000, 40000, rfl, by decide⟩, ⟨sensing 8 .running [], 5, 20485, 0x7FFF, 0, by decide⟩,
   ⟨input { SnsCh.idle with isShort := true, shortAt := 5 } (sensing 8 .running []), _, 2048005, rfl, by decide⟩,
   ⟨setF [(Pg.MTB, MTB.STATE, 3), (Pg.SNS, SNS.REV_CHECK.nth 31, 1), (Pg.SNS, SNS.KIND.nth 31, 2)] (sensing 8 .running []), by
     unfold State.tbServes; decide⟩⟩

/-- Input 31 runs at 16 kHz since tick 0; capture takes it, behind a stamp whose high bits are 0. -/
def delivering (c : SnsCh) : State :=
  let s := setF [(Pg.DEC, DEC.CH_RATE.nth 31, 4), (Pg.DEC, DEC.CH_MODE.nth 31, 0), (Pg.DEC, DEC.CAP_EN, 1), (Pg.DEC, DEC.CAP_MASK, 0x80000000),
    (Pg.DRC 0, DRC.EN.nth 0, 1), (Pg.DRC 0, DRC.KIND.nth 0, 11), (Pg.DRC 0, DRC.SIZE.nth 0, 1), (Pg.SNS, SNS.AUTORANGE.nth 31, 0),
    (Pg.SNS, SNS.RANGE.nth 31, 7), (Pg.SNS, SNS.RANGE_NOW.nth 31, 7)] (input c (sensing 8 .running []))
  { s with sns := { s.sns with capHi := some 0, cap := [1, 2] } }
/-- Detector 7 watches input 31, with 4 outputs of 0.5 V in its window. -/
def watching (kind thresh : Nat) : State :=
  let s := setF [(Pg.SNS, SNS.DET_KIND.nth 7, kind), (Pg.SNS, SNS.SRC.nth 7, 31), (Pg.SNS, SNS.THRESH_UV.nth 7, thresh)]
    (delivering { SnsCh.idle with lastOut := some 20400 })
  { s with sns := { s.sns with det := [(7, ⟨2 ^ 56, 4, false, none, 20480⟩)] } }

theorem witness_OutputsCaptureAndDsync :
    (∀ b : Bool, ∃ (s : State) (ch : Fin 32) (tick n p stamp t0 : Nat) (c : SnsCh), n = ch.val ∧ c = s.snsCh n ∧ p = s.decPeriod n ∧
      stamp = tick - s.outLatency (n / 4) ∧ s.outLatency (n / 4) ≤ tick ∧ c.start = some t0 ∧ s.served n = true ∧ s.onGrid p stamp = true ∧
      0 < p ∧ t0 + s.decSettle n * p ≤ stamp ∧ t0 + p ≤ stamp ∧ (if b then c.lastOut = none else c.lastOut = some (stamp - p)) ∧
      c.ranges = [] ∧ c.overs = [] ∧ c.excs = [] ∧ s.sns.wins = [] ∧ s.get Pg.SNS (SNS.STATE.nth n) < 2 ∧
      s.flag Pg.SNS (SNS.AUTORANGE.nth n) = false ∧ s.get Pg.SNS (SNS.RANGE.nth n) = s.rangeNow n ∧ s.rotating (n / 4) = false ∧
      (∀ pg, pg ∈ [Pg.SNS, Pg.DEC, Pg.EXC] → s.flag pg CFG.ARMED = false) ∧ bitOf (s.get Pg.DEC DEC.SEIF_MASK) n = 0 ∧ c.lossX = false ∧
      s.flag Pg.DEC DEC.CAP_EN = true ∧ bitOf (s.get Pg.DEC DEC.CAP_MASK) n = 1 ∧ c.lossC = false ∧
      s.sns.capHi = some (stamp / 2 ^ 24 % 2 ^ 32) ∧ (s.sns.cap.length + 1) / 2 + 1 ≤ s.capCapacity) ∧
    (∀ kind, kind ∈ [1, 2] → ∃ (s : State) (tick k n o rms : Nat), k < 8 ∧ s.domOn 142 = true ∧
      (s.atTick tick).windowAt tick ≠ s.sns.detWin ∧ (∀ j, j < 8 → j ≠ k → s.get Pg.SNS (SNS.DET_KIND.nth j) = 0) ∧ n = s.get Pg.SNS (SNS.SRC.nth k) ∧ (s.detector k).bad = false ∧
      (s.detector k).n ≠ 0 ∧ (s.snsCh n).lastOut = some o ∧ tick - s.outLatency (n / 4) - o < s.decPeriod n ∧
      rms = rmsUv (s.detector k).sum (s.detector k).n ∧ (s.detector k).silentTo ≤ tick ∧ tick < 2 ^ 64 ∧
      bitOf (s.get Pg.MIR MIR.TRIG_EN) k = 0 ∧ s.get Pg.SNS (SNS.DET_KIND.nth k) = kind ∧
      (if kind = 1 then s.get Pg.SNS (SNS.THRESH_UV.nth k) < rms else rms < s.get Pg.SNS (SNS.THRESH_UV.nth k))) ∧
    (∃ (s : State) (w : Word) (rest : List Word), s.Reaches Pg.DEC ∧ s.sns.cap = w :: rest) ∧
    (∃ s : State, s.Reaches Pg.DEC ∧ s.sns.cap = []) ∧
    (∃ (s : State) (since : Nat), s.enabled Pg.CAV = false ∧ s.flag Pg.DEC CFG.ARMED = false ∧ since + 2 < 2 ^ 64 ∧ s.time + 2 < 2 ^ 64 ∧
      s.domOn 142 = true ∧ s.sns.pinLow = false ∧ s.flag Pg.DEC DEC.DSYNC_EN = true ∧ s.Reaches Pg.DEC ∧ s.snsOn 7 = true ∧
      (s.snsGrp 7).phase = .running ∧ (s.snsGrp 7).cur < 4) := by
  refine ⟨?_, ?_, ⟨delivering SnsCh.idle, _, _, reaches _ _ (by decide), rfl⟩, ⟨on [142, 143] State.reset, reaches _ _ (by decide), rfl⟩,
    ⟨setF [(Pg.DEC, DEC.DSYNC_EN, 1)] (delivering SnsCh.idle), 2 ^ 64 - 3, by decide, by decide, by omega, by decide, by decide, by decide, by decide,
      reaches _ _ (by decide), by decide⟩⟩
  · intro b
    cases b
    · exact ⟨delivering { SnsCh.idle with start := some 0, lastOut := some (128 * 16) }, 31, 128 * 17 + 6, _, _, _, 0, _, rfl, rfl, rfl, rfl,
        by decide⟩
    · exact ⟨delivering { SnsCh.idle with start := some 0 }, 31, 128 * 17 + 6, _, _, _, 0, _, rfl, rfl, rfl, rfl, by decide⟩
  · intro kind h
    simp only [List.mem_cons, List.not_mem_nil, or_false] at h
    rcases h with rfl | rfl
    · exact ⟨watching 1 1199999, 20480, 7, _, 20400, 1200000, by decide, by decide, by decide, by decide, rfl, by decide, by decide, by decide, by decide,
        by decide, by decide, by omega, by decide⟩
    · exact ⟨watching 2 1200001, 20480, 7, _, 20400, 1200000, by decide, by decide, by decide, by decide, rfl, by decide, by decide, by decide, by decide,
        by decide, by decide, by omega, by decide⟩

/-- Loop 1 with fields of it. -/
def loop (l : List (Fld × Nat)) (c : LoopCh) : State :=
  { setF (l.map fun e => (Pg.LOOP, e.1.nth 1, e.2)) (on [145, 146] State.reset) with loops := [(1, c)] }

theorem witness_LoopsDriveTheirSource :
    (∃ rb : List LoopReadback, rb.length ≠ 2) ∧
    (∀ src, src ∈ [0, 3, 4] → ∃ (s : State) (tick : Nat) (rb : List LoopReadback) (r : LoopReadback), tick % 2048 = 0 ∧ rb.length = 2 ∧
      rb[1]? = some r ∧ s.domOn 146 = true ∧ s.flag Pg.LOOP CFG.ARMED = false ∧
      (if src = 4 then s.get Pg.LOOP (LOOP.SRC.nth 1) ≠ 0 ∧ (s.loop 1).forced = true
       else s.get Pg.LOOP (LOOP.SRC.nth 1) = src ∧ (s.loop 1).forced = false ∧ ((s.loop 1).hostAt.isSome = true ∨ src = 0) ∧
        s.get Pg.LOOP (LOOP.SRC_TIMEOUT_MS.nth 1) = 0)) ∧
    (∃ s : State, s.Reaches Pg.LOOP) := by
  refine ⟨⟨[], by decide⟩, ?_, ⟨on [145, 146] State.reset, reaches _ _ (by decide)⟩⟩
  intro src h
  simp only [List.mem_cons, List.not_mem_nil, or_false] at h
  rcases h with rfl | rfl | rfl
  · exact ⟨loop [(LOOP.SRC_TIMEOUT_MS, 0)] LoopCh.idle, 2048, [⟨0, 0, false⟩, ⟨1, 2, false⟩], ⟨1, 2, false⟩, by decide⟩
  · exact ⟨loop [(LOOP.SRC_TIMEOUT_MS, 0), (LOOP.SRC, 3)] { LoopCh.idle with hostAt := some 5 }, 2048, [⟨0, 0, false⟩, ⟨1, 2, false⟩], ⟨1, 2, false⟩, by decide⟩
  · exact ⟨loop [(LOOP.SRC, 3)] { LoopCh.idle with forced := true }, 2048, [⟨0, 0, false⟩, ⟨1, 2, false⟩], ⟨1, 2, false⟩, by decide⟩

theorem witness_CheckUnitsFeedAndRestart :
    (∃ s : State, s.Reaches (Pg.CRC 3) ∧ s.flag (Pg.CRC 3) CTRL.FREEZE_CNT = false ∧ s.flag (Pg.CRC 3) CFG.ARMED = false) ∧
    (∃ s : State, s.Reaches (Pg.CRC 3) ∧ s.flag (Pg.CRC 3) CFG.ARMED = true) ∧
    (∃ (number : Fin 8) (x : Nat × Nat × Nat × Nat × Nat), crcPreset number.val = some x) :=
  ⟨⟨on [150, 151] State.reset, reaches _ _ (by decide), by decide⟩, ⟨on [150, 151] (armed (Pg.CRC 3)), reaches _ _ (by decide), by decide⟩,
   ⟨5, (32, 0x04C11DB7, 0xFFFFFFFF, 1, 0xFFFFFFFF), by decide⟩⟩


/-! ## Seif cores -/

/-- Core 31 in a state of R349, with its domain on and its part changed. -/
def seif (st : Nat) (f : SeifCore → SeifCore) (l : List (Fld × Nat)) : State :=
  let s := setF ((Pg.SEIF 31, SEIF.STATE, st) :: l.map fun e => (Pg.SEIF 31, e)) (on [95] State.reset)
  s.setCore 31 (f SeifCore.idle)
/-- A word at the PC of core 31, which runs. -/
def atWord (pc : Nat) (w : BitVec 64) (f : SeifCore → SeifCore) : State :=
  seif XS.RUNNING (fun c => (f { c with pc := pc }).setI pc w) []
/-- A compute word: operation, condition, Dd, Da, Db, ac, ax, imm7. -/
def cWord (op cond dd da db ac ax q : Nat) : BitVec 64 :=
  BitVec.ofNat 64 (op * 2 ^ 57 + cond * 2 ^ 53 + dd * 2 ^ 49 + da * 2 ^ 45 + db * 2 ^ 41 + ac * 2 ^ 39 + ax * 2 ^ 37 + q * 2 ^ 32)
/-- A control word: operation, condition, register, immediate. -/
def wWord (op cond r imm : Nat) : BitVec 64 := BitVec.ofNat 64 (op * 2 ^ 57 + cond * 2 ^ 53 + r * 2 ^ 47 + imm)
/-- Still moves, UPDATE (P0), in both slots. -/
def still : BitVec 64 := 0xC000C000

/-- `State.AtWord`, evaluated. -/
def atWordB (k : Nat) (w : BitVec 64) (n : Nat) (s : State) : Bool :=
  s.seifRunning k && !s.flag (Pg.SEIF k) CFG.ARMED && decide ((s.core k).pipe = []) && !(s.core k).slotNext &&
    decide ((s.core k).target = none) && !(s.core k).waitNext && !stBit (s.core k).st ST.LA0 && !stBit (s.core k).st ST.LA1 &&
    decide ((s.core k).pc < 4096) && decide ((s.core k).i (s.core k).pc = w) && !seifIllegal w &&
    (List.range n).all fun j => decide ((s.core k).i ((s.core k).pc + (j + 1)) = 0)

theorem at_word (k : Nat) (w : BitVec 64) (n : Nat) (s : State) (h : atWordB k w n s = true) : s.AtWord k w n := by
  simp only [atWordB, Bool.and_eq_true, Bool.not_eq_true', decide_eq_true_eq, List.all_eq_true, List.mem_range] at h
  obtain ⟨⟨⟨⟨⟨⟨⟨⟨⟨⟨⟨h1, h2⟩, h3⟩, h4⟩, h5⟩, h6⟩, h7⟩, h8⟩, h9⟩, h10⟩, h11⟩, h12⟩ := h
  refine ⟨h1, h2, h3, h4, h5, h6, h7, h8, h9, h10, h11, fun j hj hn => ?_⟩
  have := h12 (j - 1) (by omega)
  rwa [show j - 1 + 1 = j by omega] at this

/-- The compute operations with their commands on a core (R361 to R364). -/
def seifComputeRows (core : Fin 32) : List (Nat × Instr) :=
  [(0x10, .insMov core), (0x11, .insClr core), (0x12, .insAdd core), (0x13, .insSub core), (0x14, .insAddq core),
   (0x15, .insNeg core), (0x16, .insAbs core), (0x17, .insMin core), (0x18, .insMax core), (0x19, .insCmp core),
   (0x1A, .insTst core), (0x1B, .insAnd core), (0x1C, .insOr core), (0x1D, .insXor core), (0x1E, .insNot core),
   (0x1F, .insAsl core), (0x20, .insAsr core), (0x21, .insLsr core), (0x22, .insAshv core), (0x23, .insNorm core),
   (0x24, .insSxt16 core), (0x25, .insMpy core), (0x30, .insCadd core), (0x31, .insCsub core), (0x32, .insCconj core),
   (0x33, .insCrotj core), (0x34, .insPack core), (0x35, .insCasr core), (0x40, .insClra core), (0x41, .insLda core),
   (0x42, .insMac core), (0x43, .insMsu core), (0x44, .insMac2 core), (0x45, .insCmpy core), (0x46, .insCmac core),
   (0x47, .insCmacj core), (0x48, .insCmsu core), (0x49, .insMag2a core), (0x4A, .insAdda core), (0x4B, .insSuba core),
   (0x4C, .insSha core), (0x4D, .insExtr core), (0x4E, .insExti core), (0x4F, .insCext core), (0x50, .insMaxx core),
   (0x51, .insMaxy core), (0x52, .insMinx core), (0x53, .insMiny core)]

theorem witness_ComputeOperationsComplete :
    ∀ e, e ∈ seifComputeRows 31 → ∃ (s : State) (w : BitVec 64), seifOp w = e.1 ∧ stillMoves w ∧ s.AtWord 31 w 5 := by
  intro e he
  have h : ∀ n, n ∈ (seifComputeRows 31).map (·.1) → (seifOp (cWord n 1 15 14 13 3 0 0x60 ||| still) = n ∧
      stillMoves (cWord n 1 15 14 13 3 0 0x60 ||| still)) ∧
      atWordB 31 (cWord n 1 15 14 13 3 0 0x60 ||| still) 5 (atWord 4095 (cWord n 1 15 14 13 3 0 0x60 ||| still) id) = true := by
    unfold stillMoves
    decide
  have h := h e.1 (List.mem_map_of_mem he)
  exact ⟨_, _, h.1.1, h.1.2, at_word _ _ _ _ h.2⟩

theorem witness_ComputeResultsAreExact :
    (∃ (re : BitVec 40) (a : Word), re.toInt < a.toInt) ∧ (∃ (re : BitVec 40) (a : Word), a.toInt < re.toInt) := by
  exact ⟨⟨-1, 0, by decide⟩, ⟨0, -1, by decide⟩⟩

/-- Moves of every kind at (P3), on registers from 0 to ST. -/
def aMove (kind reg form : Nat) : Nat := kind * 0x4000 + reg * 0x100 + 3 * 0x40 + form * 8 + 7
/-- An X word that is all move. -/
def xWord (kind reg form : Nat) : BitVec 64 := BitVec.ofNat 64 (aMove kind reg form * 65536)
def yWord (kind reg form : Nat) : BitVec 64 := BitVec.ofNat 64 (aMove kind reg form)

/-- The address that core 31 forms for a move whose pointers begin at `base`. -/
def moveAddress (s : State) (base m : Nat) : Nat × Nat × Nat :=
  let n := base + movePtr m
  formAddress (moveForm m) ((s.core 31).reg (MR.P + n)).toNat ((s.core 31).reg (MR.B + n)).toNat
    ((s.core 31).reg (MR.L + n)).toNat ((s.core 31).reg (MR.M + moveMod m)).toInt

theorem witness_MovesAndControlOperations :
    (∀ kind, kind ∈ [1, 2, 3] → ∃ (s : State) (w : BitVec 64) (m : Nat), seifOp w = 0 ∧ m = seifXMove w ∧ s.AtWord 31 w 3 ∧
      moveKind (seifYMove w) = 0 ∧ (moveAddress s 0 m).1 < 0x3FF0 ∧ moveKind m = kind) ∧
    (∀ kind, kind ∈ [1, 2, 3] → ∃ (s : State) (w : BitVec 64) (m : Nat), seifOp w = 0 ∧ m = seifYMove w ∧ s.AtWord 31 w 3 ∧
      moveKind (seifXMove w) = 0 ∧ (moveAddress s 4 m).1 < 16384 ∧ moveKind m = kind) ∧
    (∀ op, op ∈ [1, 2, 3, 4, 5, 7, 8] → ∃ (s : State) (w : BitVec 64), s.AtWord 31 w 1 ∧ seifOp w = op ∧
      seifCondition (seifCond w) (s.core 31).st = true) ∧
    (∀ b : Bool, ∃ (s : State) (w : BitVec 64), s.AtWord 31 w 1 ∧ seifOp w = 6 ∧
      decide (((s.core 31).reg (seifReg w)).toNat % 65536 = 0) = b) ∧
    (∀ op, op ∈ [9, 0x0A, 0x0B] → ∃ (s : State) (w : BitVec 64), s.AtWord 31 w 5 ∧ seifOp w = op ∧ seifReg w = 0x39) := by
  refine ⟨?_, ?_, ?_, ?_, ?_⟩
  · intro kind hk
    have h : ∀ n, n ∈ [1, 2, 3] → (seifOp (xWord n 0x39 4) = 0 ∧ moveKind (seifYMove (xWord n 0x39 4)) = 0 ∧
        (moveAddress (atWord 4095 (xWord n 0x39 4) id) 0 (seifXMove (xWord n 0x39 4))).1 < 0x3FF0 ∧
        moveKind (seifXMove (xWord n 0x39 4)) = n) ∧ atWordB 31 (xWord n 0x39 4) 3 (atWord 4095 (xWord n 0x39 4) id) = true := by decide
    have h := h kind hk
    exact ⟨atWord 4095 (xWord kind 0x39 4) id, xWord kind 0x39 4, _, h.1.1, rfl, at_word _ _ _ _ h.2, h.1.2⟩
  · intro kind hk
    have h : ∀ n, n ∈ [1, 2, 3] → (seifOp (yWord n 0x39 3) = 0 ∧ moveKind (seifXMove (yWord n 0x39 3)) = 0 ∧
        (moveAddress (atWord 4095 (yWord n 0x39 3) id) 4 (seifYMove (yWord n 0x39 3))).1 < 16384 ∧
        moveKind (seifYMove (yWord n 0x39 3)) = n) ∧ atWordB 31 (yWord n 0x39 3) 3 (atWord 4095 (yWord n 0x39 3) id) = true := by decide
    have h := h kind hk
    exact ⟨atWord 4095 (yWord kind 0x39 3) id, yWord kind 0x39 3, _, h.1.1, rfl, at_word _ _ _ _ h.2, h.1.2⟩
  · intro op ho
    have h : ∀ n, n ∈ [1, 2, 3, 4, 5, 7, 8] → (seifOp (wWord n 0 15 0xFFFFFFFF) = n ∧ seifCond (wWord n 0 15 0xFFFFFFFF) = 0) ∧
        atWordB 31 (wWord n 0 15 0xFFFFFFFF) 1 (atWord 4095 (wWord n 0 15 0xFFFFFFFF) id) = true := by decide
    have h := h op ho
    exact ⟨_, _, at_word _ _ _ _ h.2, h.1.1, by rw [h.1.2]; rfl⟩
  · intro b
    cases b
    · exact ⟨atWord 4095 (wWord 6 0 15 0xFFFFFFFF) (fun c => { c with r := [(15, 0xFFFFFFFF)] }), wWord 6 0 15 0xFFFFFFFF,
        at_word _ _ _ _ (by decide), by decide⟩
    · exact ⟨atWord 0 (wWord 6 0 15 0xFFFFFFFF) (fun c => { c with r := [(15, 0xFFFF0000)] }), wWord 6 0 15 0xFFFFFFFF,
        at_word _ _ _ _ (by decide), by decide⟩
  · intro op ho
    have h : ∀ n, n ∈ [9, 0x0A, 0x0B] → (seifOp (wWord n 0 0x39 0xFFFFFFFF) = n ∧ seifReg (wWord n 0 0x39 0xFFFFFFFF) = 0x39) ∧
        atWordB 31 (wWord n 0 0x39 0xFFFFFFFF) 5 (atWord 4095 (wWord n 0 0x39 0xFFFFFFFF) id) = true := by decide
    have h := h op ho
    exact ⟨_, _, at_word _ _ _ _ h.2, h.1.1, h.1.2⟩

/-- Cores 24 to 31 with owners, and core 31 as `seif` has it. -/
def owned (f : SeifCore → SeifCore) (st : Nat) (l : List (Fld × Nat)) : State := seif st f ((SEIF.OWNER, 1) :: l)
/-- Link firmware runs. -/
def run (s : State) : State := setF [(Pg.LNK, LNK.FW_STATE, 2)] s

theorem witness_SeifCoresAndMemories :
    (∃ s : State, s.Reaches (Pg.SEIF 31) ∧ s.customer 31 = false) ∧
    (∀ st, st ∈ [XS.HALTED, XS.FAULT] → ∃ s : State, s.Reaches (Pg.SEIF 31) ∧ s.customer 31 = true ∧ s.coreState 31 = st ∧
      ∀ j, j ∈ s.oas.ready ++ s.oas.running → j.kind ≠ .core 31) ∧
    (∀ st, st ∈ [XS.START_PENDING, XS.RUNNING, XS.WAITING] → ∃ s : State, s.Reaches (Pg.SEIF 31) ∧ s.customer 31 = true ∧
      s.coreState 31 = st ∧ (s.core 31).pipe = []) ∧
    (∃ (s : State) (w : BitVec 64) (c : SeifCore), c = s.core 31 ∧ s.Reaches (Pg.SEIF 31) ∧ s.customer 31 = true ∧
      s.coreState 31 = XS.HALTED ∧ c.pipe = [] ∧ c.slotNext = false ∧ c.target = none ∧ c.pc < 4096 ∧ c.i c.pc = w ∧
      stBit c.st ST.LA0 = false ∧ stBit c.st ST.LA1 = false ∧ seifIllegal w = false ∧ seifWide w = false ∧ stillMoves w) ∧
    (∃ s : State, s.Reaches (Pg.SEIF 23) ∧ s.get (Pg.SEIF 23) SEIF.OWNER = 0) ∧
    (∃ s : State, s.Reaches (Pg.SEIF 31) ∧ s.get (Pg.SEIF 31) SEIF.OWNER = 0 ∧ s.claimed < 8 ∧ s.fwRunning = true) ∧
    (∃ s : State, s.Reaches (Pg.SEIF 31) ∧ s.get (Pg.SEIF 31) SEIF.OWNER = 0 ∧ s.claimed < 8 ∧ s.fwRunning = false ∧
      s.coreState 31 = XS.HALTED) ∧
    (∃ s : State, s.Reaches (Pg.SEIF 31) ∧ s.get (Pg.SEIF 31) SEIF.OWNER = 2 ∧ s.coreState 31 = XS.HALTED) ∧
    (∀ b : Bool, ∃ s : State, s.Reaches (Pg.SEIF 31) ∧ s.fwRunning = true ∧ s.customer 31 = false ∧ s.coreState 31 = XS.HALTED ∧
      s.level = 0 ∧ (∀ j, j ∈ s.oas.ready ++ s.oas.running → j.kind ≠ .core 31) ∧ s.heldBack 1 = false ∧ s.fits s.seifCost = b) ∧
    (∀ b, b ∈ [false, true] → ∀ off, off ∈ [0, 0x7FFC, 0x10000, 0x1FFBC, 0x20000, 0x2FFFC] → ∃ (s : State) (addr : BitVec 24),
      s.Reaches (Pg.SEIF 31) ∧ addr.toNat = 0x800000 + 0x40000 * 31 + off ∧ s.customer 31 = b ∧ s.coreState 31 = XS.HALTED) ∧
    (∃ (s : State) (tick : Nat), s.domOn (64 + 31) = true ∧ s.get (Pg.SEIF 31) SEIF.TIMER_US ≠ 0 ∧
      timerPeriod (s.get (Pg.SEIF 31) SEIF.TIMER_US) (s.core 31).timerAt < timerPeriod (s.get (Pg.SEIF 31) SEIF.TIMER_US) tick) ∧
    (∀ st, st ∈ [XS.RUNNING, XS.WAITING] → ∃ s : State, s.domOn (64 + 31) = true ∧ s.flag (Pg.SEIF 31) CFG.ARMED = false ∧
      (s.core 31).pipe = [] ∧ s.coreState 31 = st ∧ stBit (s.core 31).st ST.IE = true ∧ (s.core 31).slotNext = false ∧
      (s.core 31).pc < 4096 ∧ s.irqPend 31 &&& s.get (Pg.SEIF 31) SEIF.IRQ_EN ≠ 0) ∧
    (∀ b : Bool, ∃ s : State, s.domOn (64 + 31) = true ∧ s.flag (Pg.SEIF 31) CFG.ARMED = false ∧ (s.core 31).pipe = [] ∧
      s.coreState 31 = XS.RUNNING ∧ (s.core 31).waitNext = false ∧ (s.core 31).pc < 4096 ∧ (s.core 31).slotNext = b ∧
      seifIllegalAt (s.core 31).slotNext ((s.core 31).i (s.core 31).pc) = true) := by
  refine ⟨⟨seif 1 id [], reaches _ _ (by decide), by decide⟩, ?_, ?_,
    ⟨owned (fun c => { c with pc := 4095 }) XS.HALTED [], 0, _, rfl, reaches _ _ (by decide), by unfold stillMoves; decide⟩,
    ⟨on [87] State.reset, reaches _ _ (by decide), by decide⟩, ⟨run (seif XS.HALTED id []), reaches _ _ (by decide), by decide⟩,
    ⟨seif XS.HALTED id [], reaches _ _ (by decide), by decide⟩, ⟨seif XS.HALTED id [(SEIF.OWNER, 2)], reaches _ _ (by decide), by decide⟩, ?_, ?_,
    ⟨seif XS.HALTED (fun c => { c with timerAt := 5 }) [(SEIF.TIMER_US, 1000)], 2053, by decide⟩, ?_, ?_⟩
  · have h : ∀ st, st ∈ [XS.HALTED, XS.FAULT] → ((owned id st []).unreachable, (owned id st []).pageOn (Pg.SEIF 31),
        (owned id st []).clockStopped (Pg.SEIF 31), (owned id st []).host.spiBuf) = (false, true, false, []) ∧ (owned id st []).customer 31 = true ∧
        (owned id st []).coreState 31 = st := by decide
    exact fun st hs => ⟨_, reaches _ _ (h st hs).1, (h st hs).2.1, (h st hs).2.2, fun _ hj => nomatch hj⟩
  · have h : ∀ st, st ∈ [XS.START_PENDING, XS.RUNNING, XS.WAITING] → ((owned id st []).unreachable, (owned id st []).pageOn (Pg.SEIF 31),
        (owned id st []).clockStopped (Pg.SEIF 31), (owned id st []).host.spiBuf) = (false, true, false, []) ∧ (owned id st []).customer 31 = true ∧
        (owned id st []).coreState 31 = st ∧ ((owned id st []).core 31).pipe = [] := by decide
    exact fun st hs => ⟨_, reaches _ _ (h st hs).1, (h st hs).2⟩
  · intro b
    cases b
    · exact ⟨setF [(Pg.OAS, OAS.CAP_MW, 1000)] { run (seif XS.HALTED id []) with oas := { State.reset.oas with free := 0 } }, reaches _ _ (by decide), by decide⟩
    · exact ⟨run (seif XS.HALTED id []), reaches _ _ (by decide), by decide⟩
  · intro b _ off ho
    have h : ∀ off, off ∈ [0, 0x7FFC, 0x10000, 0x1FFBC, 0x20000, 0x2FFFC] →
        (BitVec.ofNat 24 (0x800000 + 0x40000 * 31 + off)).toNat = 0x800000 + 0x40000 * 31 + off := by decide
    cases b
    · exact ⟨seif XS.HALTED id [], _, reaches _ _ (by decide), h off ho, by decide⟩
    · exact ⟨owned id XS.HALTED [], _, reaches _ _ (by decide), h off ho, by decide⟩
  · have h : ∀ st, st ∈ [XS.RUNNING, XS.WAITING] →
        let s := seif st (fun c => { c with pc := 4095, r := [(MR.ST, 0x200)], mboxPend := true }) [(SEIF.IRQ_EN, 4)]
        s.domOn (64 + 31) = true ∧ s.flag (Pg.SEIF 31) CFG.ARMED = false ∧
        (s.core 31).pipe = [] ∧ s.coreState 31 = st ∧ stBit (s.core 31).st ST.IE = true ∧ (s.core 31).slotNext = false ∧
        (s.core 31).pc < 4096 ∧ s.irqPend 31 &&& s.get (Pg.SEIF 31) SEIF.IRQ_EN ≠ 0 := by decide
    exact fun st hs => ⟨_, h st hs⟩
  · intro b
    cases b
    · exact ⟨atWord 4095 (wWord 0x0C 0 0 0) id, by decide⟩
    · exact ⟨atWord 4095 (wWord 8 0 0 0) (fun c => { c with slotNext := true }), by decide⟩

/-! ## UARTs -/

/-- UART 3 enabled, its domain on, with its part changed. -/
def uart (f : UartSt → UartSt) (l : List (Fld × Nat)) : State :=
  let s := setF ((Pg.UART 3, CTRL.ENABLE, 1) :: l.map fun e => (Pg.UART 3, e)) (on [150] State.reset)
  s.setUart 3 (f UartSt.idle)
/-- A receive FIFO that holds n entries. -/
def filled (n : Nat) (u : UartSt) : UartSt := { u with rx := List.replicate n 1, ovr := true, gap := true }

theorem witness_UartReceives :
    (∀ start : Bool, ∀ n : Nat, n ∈ [0, 63, 64] → ∃ (s : State) (tick : Nat) (u : UartSt), u = s.uartSt 3 ∧ s.uartHears 3 = true ∧
      u.leadFrom = none ∧ s.flag (Pg.UART 3) CFG.ARMED = false ∧ (s.atTick tick).startHeard 3 start = true ∧ s.abArmed 3 = false ∧
      u.rx.length = n ∧ s.get (Pg.UART 3) UART.PARITY = 0 ∧ s.uartData 3 0xFF ≠ 0 ∧ s.uartData 3 0 = 0) ∧
    (∃ (s : State) (data : Byte) (par : Bool), s.parityBad 3 (s.uartData 3 data).toNat (par && decide (s.get (Pg.UART 3) UART.PARITY ≠ 0)) = true ∧
      s.uartHears 3 = true) ∧
    (∃ (s : State) (tick since : Nat) (u : UartSt), u = s.uartSt 3 ∧ s.uartHears 3 = true ∧ u.leadFrom = none ∧
      s.flag (Pg.UART 3) CFG.ARMED = false ∧ s.abArmed 3 = false ∧ u.rx.length < 64 ∧ u.rxFree ≤ since ∧
      cyclesPassed since tick (s.halfBits 3 (2 * s.charBits 3)) = true) ∧
    (∃ (s : State) (tick since : Nat), s.uartOn 3 = true ∧ (s.uartSt 3).leadFrom = none ∧ s.get (Pg.UART 3) UART.STUCK_MS ≠ 0 ∧
      since + msTicks (s.get (Pg.UART 3) UART.STUCK_MS) ≤ tick ∧ s.flag (Pg.UART 3) UART.LINE_STUCK = false ∧
      cyclesPassed since tick (s.halfBits 3 (2 * s.charBits 3)) = true ∧ s.get (Pg.UART 3) UART.IDLE_GAP ≠ 0 ∧
      (s.uartSt 3).idleFrom ≠ some since ∧
      cyclesPassed since tick (s.halfBits 3 (s.get (Pg.UART 3) UART.IDLE_GAP * s.charBits 3)) = true) ∧
    (∃ (s : State) (edges : List Nat), s.uartOn 3 = true ∧ (s.uartSt 3).leadFrom = none ∧ s.uartRxOn 3 = true ∧ s.abArmed 3 = true ∧
      s.uartHears 3 = true ∧ s.flag (Pg.UART 3) UART.AB_STORE = false ∧ abMeasure (s.abEdges 3) edges = some (62500, 9600)) ∧
    (∃ (s : State) (edges : List Nat), s.uartOn 3 = true ∧ (s.uartSt 3).leadFrom = none ∧ s.uartRxOn 3 = true ∧ s.abArmed 3 = true ∧
      s.get (Pg.UART 3) UART.MODE = 1 ∧ s.flag (Pg.UART 3) UART.AB_STORE = false ∧ abMeasure (s.abEdges 3) edges = none) ∧
    (∃ (s : State) (w : Word) (rest : List Word), s.Reaches (Pg.UART 3) ∧ (s.uartSt 3).rx = w :: rest) ∧
    (∃ s : State, s.Reaches (Pg.UART 3) ∧ (s.uartSt 3).rx = []) := by
  refine ⟨?_, ⟨uart id [(UART.PARITY, 1)], 1, false, by decide⟩, ⟨uart (fun u => { u with rxFree := 5 }) [], 4096, 5, _, rfl, by decide⟩,
    ⟨uart id [(UART.STUCK_MS, 1)], 40960, 5, by decide⟩, ⟨uart id [(UART.AB_STATE, 3)], [125000, 250000, 375000, 500000], by decide⟩,
    ⟨uart id [(UART.AB_STATE, 1), (UART.MODE, 1)], [], by decide⟩, ⟨uart (filled 1) [], 1, [], reaches _ _ (by decide), by decide⟩,
    ⟨uart id [], reaches _ _ (by decide), by decide⟩⟩
  have h : ∀ start : Bool, ∀ n, n ∈ [0, 63, 64] → (uart (filled n) []).uartHears 3 = true ∧ ((uart (filled n) []).uartSt 3).leadFrom = none ∧
      (uart (filled n) []).flag (Pg.UART 3) CFG.ARMED = false ∧ ((uart (filled n) []).atTick 2048).startHeard 3 start = true ∧
      (uart (filled n) []).abArmed 3 = false ∧ ((uart (filled n) []).uartSt 3).rx.length = n ∧
      (uart (filled n) []).get (Pg.UART 3) UART.PARITY = 0 ∧ (uart (filled n) []).uartData 3 0xFF ≠ 0 ∧
      (uart (filled n) []).uartData 3 0 = 0 := by decide
  exact fun start n hn => ⟨uart (filled n) [], 2048, _, rfl, h start n hn⟩

theorem witness_UartSends :
    (∃ s : State, s.Reaches (Pg.UART 3) ∧ (s.uartSt 3).leadFrom = none ∧ 64 ≤ (s.uartSt 3).tx.length) ∧
    (∃ s : State, s.Reaches (Pg.UART 3) ∧ (s.uartSt 3).leadFrom = none ∧ (s.uartSt 3).tx.length < 64 ∧ (s.uartSt 3).cur.isSome = true) ∧
    (∀ de : Bool, ∃ (s : State) (u : UartSt), u = s.uartSt 3 ∧ s.Reaches (Pg.UART 3) ∧ u.leadFrom = none ∧ u.tx = [] ∧ u.cur = none ∧
      u.gapWait = false ∧ u.brkDue = false ∧ s.uartSends 3 = true ∧ s.flag (Pg.UART 3) UART.DE_EN = true ∧ s.get (Pg.UART 3) UART.MODE = 0 ∧
      s.flag (Pg.UART 3) UART.DE = de ∧ 0 < cyclesTicks (s.uartTicks 3 (s.get (Pg.UART 3) UART.DE_LEAD))) ∧
    (∃ (s : State) (u : UartSt) (t0 : Nat) (c : Byte) (rest : List Byte), u = s.uartSt 3 ∧ s.Reaches (Pg.UART 3) ∧ u.leadFrom = some t0 ∧
      t0 + cyclesTicks (s.uartTicks 3 (s.get (Pg.UART 3) UART.DE_LEAD)) ≤ s.time ∧ s.uartSends 3 = true ∧ u.brkDue = false ∧
      u.tx = c :: rest ∧ rest.length < 64) ∧
    (∀ item, item ∈ [UartItem.brk, .char 7] → ∀ l, l ∈ [[], [(9 : Byte)], [9, 10]] → ∃ (s : State) (u : UartSt) (tick : Nat), u = s.uartSt 3 ∧
      s.uartOn 3 = true ∧ u.leadFrom = none ∧ u.cur = some item ∧ cyclesPassed u.startAt tick (s.itemCycles 3 item) = true ∧
      s.get (Pg.UART 3) UART.MODE = 0 ∧ s.flag (Pg.UART 3) CFG.ARMED = false ∧ s.uartSends 3 = true ∧ u.brkDue = false ∧ u.tx = l ∧
      s.flag (Pg.UART 3) UART.DE_EN = false) ∧
    (∃ (s : State) (tick : Nat) (b : Byte) (rest : List Byte) (u : UartSt), u = s.uartSt 3 ∧ s.uartOn 3 = true ∧ s.uartSends 3 = true ∧
      u.leadFrom = none ∧ u.cur = none ∧ u.brkDue = false ∧ u.tx = b :: rest ∧
      cyclesPassed u.endAt tick (s.halfBits 3 (s.get (Pg.UART 3) UART.TX_GAP * s.charBits 3)) = true ∧ s.flag (Pg.UART 3) UART.DE = true) ∧
    (∃ (s : State) (tick : Nat), s.domOn 150 = true ∧ (s.uartSt 3).leadFrom = none ∧ (s.uartSt 3).cur = none ∧ (s.uartSt 3).tx = [] ∧
      s.get (Pg.UART 3) UART.MODE ≠ 2 ∧ cyclesPassed (s.uartSt 3).endAt tick (s.uartTicks 3 (s.get (Pg.UART 3) UART.DE_LAG)) = true) ∧
    (∃ (s : State) (u : UartSt), u = s.uartSt 3 ∧ s.Reaches (Pg.UART 3) ∧ u.leadFrom = none ∧ u.cur = none ∧ u.gapWait = false ∧
      s.uartSends 3 = true ∧ s.get (Pg.UART 3) UART.MODE ≠ 0) ∧
    (∃ (s : State) (tick : Nat), s.uartOn 3 = true ∧ (s.uartSt 3).leadFrom = none ∧ (s.uartSt 3).cur = none ∧
      s.flag (Pg.UART 3) CFG.ARMED = true ∧ (s.uartSt 3).commitAt + msTicks 10 ≤ tick ∧ s.shadow ≠ [] ∧
      ∀ e, e ∈ s.shadow → e.1 / 4096 = Pg.UART 3 → 0x010 ≤ e.1 % 4096 ∧ e.1 % 4096 < 0x100) := by
  refine ⟨⟨uart (fun u => { u with tx := List.replicate 64 1 }) [], reaches _ _ (by decide), by decide⟩,
    ⟨uart (fun u => { u with tx := List.replicate 63 1, cur := some .brk }) [], reaches _ _ (by decide), by decide⟩, ?_,
    ⟨{ uart (fun u => { u with tx := [1], leadFrom := some 5 }) [(UART.DE_EN, 1), (UART.DE_LEAD, 8)] with time := 2048 }, _, 5, 1, [], rfl,
      reaches _ _ (by decide), by decide⟩, ?_,
    ⟨uart (fun u => { u with tx := [1], gapWait := true }) [(UART.TX_GAP, 2), (UART.DE, 1)], 20480, 1, [], _, rfl, by decide⟩,
    ⟨uart id [(UART.DE, 1)], 2048, by decide⟩, ⟨uart id [(UART.MODE, 1)], _, rfl, reaches _ _ (by decide), by decide⟩,
    ⟨{ uart (fun u => { u with commitAt := 5 }) [(CFG.ARMED, 1)] with shadow := [(addrOf (Pg.UART 3) 0x010, 1), (addrOf (Pg.UART 3) 0x024, 1)] },
      20485, by decide, by decide, by decide, by decide, by decide, by decide, by decide⟩⟩
  · intro de
    cases de
    · exact ⟨uart id [(UART.DE_EN, 1), (UART.DE_LEAD, 8)], _, rfl, reaches _ _ (by decide), by decide⟩
    · exact ⟨uart id [(UART.DE_EN, 1), (UART.DE_LEAD, 8), (UART.DE, 1)], _, rfl, reaches _ _ (by decide), by decide⟩
  · have h : ∀ item, item ∈ [UartItem.brk, .char 7] → ∀ l, l ∈ [[], [(9 : Byte)], [9, 10]] →
        let s := uart (fun u => { u with cur := some item, tx := l }) []
        s.uartOn 3 = true ∧ (s.uartSt 3).leadFrom = none ∧ (s.uartSt 3).cur = some item ∧
          cyclesPassed (s.uartSt 3).startAt 20480 (s.itemCycles 3 item) = true ∧ s.get (Pg.UART 3) UART.MODE = 0 ∧
          s.flag (Pg.UART 3) CFG.ARMED = false ∧ s.uartSends 3 = true ∧ (s.uartSt 3).brkDue = false ∧ (s.uartSt 3).tx = l ∧
          s.flag (Pg.UART 3) UART.DE_EN = false := by decide
    exact fun item hi l hl => ⟨uart (fun u => { u with cur := some item, tx := l }) [], _, 20480, rfl, h item hi l hl⟩

/-! ## Caravan ring -/

/-- A device of a role in a state of R389, both links UP, its domain and that of the sense inputs on, its timebase in state `b`. -/
def ring (role st b : Nat) (f : CavSt → CavSt) (l : List (Fld × Nat)) : State :=
  let s := setF ((Pg.CAV, CAV.STATE, st) :: l.map fun e => (Pg.CAV, e)) (on [142, 147] (tb b 3276800 0))
  let s := setF [(Pg.CAV, CAV.ROLE, role)] s
  { s with cav := f { s.cav with inUp := true, outUp := true } }
/-- A mark of SAMPLE_TIME `time` that a device at reset settings takes, over two hops. -/
def aMarkOf (time : Nat) : TimeMark := { time := time, mode := 1, sizeM1 := 3, zone := 0, hops := 2, otherRoot := false, frac := 0 }
/-- A device that can take marks: its domain on, its in-link UP and no set armed. -/
def marked (s : State) : Prop := s.cavOn = true ∧ s.flag Pg.CAV CFG.ARMED = false ∧ s.cav.inUp = true
/-- A device with both links down since tick 0. -/
def dark (role : Nat) : State := ring role 1 1 (fun c => { c with inUp := false, outUp := false, inDownAt := 0, outDownAt := 0 }) []
/-- A token of device 2 for the band of lane `aLane` on feeder 9. -/
def aToken (cls dev : Nat) : Token := { dev := dev, feeder := 9, centre := 100, rate := 0, cls := cls, ack := false, port := 15, at_ := 3, planned := 0 }
/-- The fields of CAV that a field at a DEEPEN master needs. -/
def deep (merged : List (Nat × Nat × Nat)) : State :=
  let s := setF [(Pg.CAV, CAV.STATE, 2), (Pg.CAV, CAV.ROLE, 1), (Pg.CAV, CAV.MODE, 1)] (on [147] (judging 0 false (plain 0)))
  { s with cav := { s.cav with merged := merged } }
/-- The copy of `plain 0` as a slave sends it. -/
def aField : RingField := { eng := 63, port := 15, centre := 100, rate := 0, sync := 0, alarm := false, word := 2533362432, tSync := 0
                            tPre := 0, snr := 0, field := (plain 0).field }
/-- A slave in TRAINING whose master has four devices in mode 1, joined before or not. -/
def trains (joined : Bool) : State := ring 0 1 1 (fun c => { c with joined := joined }) [(CAV.RING_SIZE_M1, 3), (CAV.MODE, 1)]

theorem witness_RingLinksAndTime :
    (∀ n, n ∈ [3, 7] → ∃ (s : State) (lanes : BitVec 5), s.cavOn = true ∧ s.isMaster = true ∧ s.cavState = CS.TRAINING ∧ lanes.toNat = n ∧
      lanes.toNat % 4 = 3) ∧
    (∃ (s : State) (lanes : BitVec 5), s.cavOn = true ∧ s.isMaster = false ∧ lanes.toNat % 4 = 3 ∧ 4 ≤ lanes.toNat) ∧
    (∀ out, out ∈ [true, false] → ∃ s : State, s.cavOn = true ∧ s.linkFails 3 0 0 = false ∧
      (if out then s.cav.outUp else s.cav.inUp) = true) ∧
    (∀ out, out ∈ [true, false] → ∃ s : State, s.cavOn = true ∧ s.linkFails 1 0 0 = true ∧
      (if out then s.cav.outUp else s.cav.inUp) = true ∧ s.slaveLinked = true) ∧
    (∃ s : State, s.cavOn = true ∧ s.linkFails 1 0 0 = true ∧ s.cav.inUp = true ∧ s.slaveLinked = false) ∧
    (∀ out, out ∈ [true, false] → ∃ (s : State) (tick : Nat), s.cavOn = true ∧ (if out then s.cav.outUp else s.cav.inUp) = false ∧
      (if out then s.cav.outDownAt else s.cav.inDownAt) + msTicks (s.get Pg.CAV CAV.TRAIN_MS) ≤ tick) ∧
    (∃ s : State, s.cavOn = true ∧ s.Reaches Pg.CAV ∧ s.slaveLinked = false ∧ s.cav.inUp = true) ∧
    (∃ s : State, s.cavOn = true ∧ s.Reaches Pg.CAV ∧ s.slaveLinked = true ∧ s.cav.inUp = true) ∧
    (∃ s : State, s.cavOn = true ∧ s.flag Pg.CAV CFG.ARMED = false ∧ s.isMaster = true ∧ s.cavState ≠ CS.CONNECTED) ∧
    (∃ (s : State) (members : BitVec 8) (k : Token), s.cavOn = true ∧ s.flag Pg.CAV CFG.ARMED = false ∧ s.isMaster = true ∧
      s.cavState = CS.CONNECTED ∧ s.cav.held = [k] ∧ bitOf (members.toNat ||| 1) k.dev ≠ 0) ∧
    (∃ (s : State) (members : BitVec 8) (k : Token) (tick : Nat), s.cavOn = true ∧ s.flag Pg.CAV CFG.ARMED = false ∧ s.isMaster = true ∧
      s.cavState = CS.CONNECTED ∧ s.cav.held = [k] ∧ s.cav.queue = [] ∧ bitOf (members.toNat ||| 1) k.dev = 0 ∧ k.planned ≤ tick) ∧
    (∃ (s : State) (m : TimeMark), marked s ∧ s.isMaster = true ∧ m.otherRoot = false ∧ s.flag Pg.CAV CAV.RING = false ∧
      m.hops = s.get Pg.CAV CAV.RING_SIZE_M1 + 1) ∧
    (∃ (s : State) (tick : Nat) (m : TimeMark), marked s ∧ s.isMaster = false ∧ s.cavState = CS.TRAINING ∧ s.joinFault m = none ∧
      s.cav.joined = true ∧ ((s.atTick tick).markErr m).natAbs ≤ 16) ∧
    (∃ (s : State) (tick : Nat) (m : TimeMark), marked s ∧ s.isMaster = false ∧ s.cavState = CS.TRAINING ∧ s.joinFault m = none ∧
      s.cav.joined = true ∧ 16 < (s.atTick tick).markErr m) ∧
    (∃ (s : State) (tick : Nat) (m : TimeMark), marked s ∧ s.isMaster = false ∧ s.cavState = CS.TRAINING ∧ s.joinFault m = none ∧
      s.cav.joined = true ∧ (s.atTick tick).markErr m < -16) ∧
    (∃ (s : State) (m : TimeMark), marked s ∧ s.isMaster = false ∧ s.cavState = CS.TRAINING ∧ s.joinFault m = none ∧ s.cav.joined = false) ∧
    (∃ (s : State) (m : TimeMark) (f : Nat), marked s ∧ s.isMaster = false ∧ s.cavState = CS.TRAINING ∧ s.joinFault m = some f) ∧
    (∃ (s : State) (tick : Nat) (m : TimeMark), marked s ∧ s.isMaster = false ∧ s.cavState = CS.ORPHAN ∧ (s.atTick tick).markErr m < 0) ∧
    (∃ (s : State) (tick : Nat) (m : TimeMark), marked s ∧ s.isMaster = false ∧ s.cavState = CS.ORPHAN ∧ 16 < (s.atTick tick).markErr m) ∧
    (∃ (s : State) (tick : Nat) (m : TimeMark), marked s ∧ s.isMaster = false ∧ s.cavState = CS.REJOINING ∧
      ((s.atTick tick).markErr m).natAbs ≤ 16) ∧
    (∃ s : State, s.cavOn = true ∧ s.isMaster = true ∧ s.cavState = CS.CONNECTED) ∧
    (∃ s : State, s.cavOn = true ∧ s.slaveLinked = true ∧ s.cav.inUp = true ∧ s.enabled Pg.MTB = false) ∧
    (∃ s : State, s.cavOn = true ∧ s.slaveLinked = true ∧ s.cav.inUp = true ∧ s.enabled Pg.MTB = true ∧ s.tb = TB.OFF) ∧
    (∃ s : State, s.cavOn = true ∧ s.slaveLinked = true ∧ s.cav.inUp = true ∧ s.enabled Pg.MTB = true ∧ s.tb ≠ TB.LOCKED ∧
      s.tb ≠ TB.HOLDOVER) ∧
    (∃ (s : State) (tick tr : Nat), s.cavOn = true ∧ s.isMaster = false ∧ s.cavState = CS.CONNECTED ∧ s.domOn 142 = true ∧
      tick ≤ tr + usTicks 128 ∧ s.flag Pg.DEC CFG.ARMED = false) ∧
    (∃ (s : State) (tick : Nat), s.cavOn = true ∧ s.isMaster = false ∧ s.cavState = CS.CONNECTED ∧
      s.cav.markAt + usTicks (s.get Pg.CAV CAV.ORPHAN_US) ≤ tick) ∧
    (∃ (s : State) (tick : Nat), s.cavOn = true ∧ s.isMaster = true ∧ s.flag Pg.CAV CAV.RING = true ∧
      s.cav.returnAt + usTicks (s.get Pg.CAV CAV.ORPHAN_US) ≤ tick) := by
  unfold marked
  refine ⟨?_, ⟨dark 0, 7, by decide⟩, ?_, ?_, ⟨ring 1 2 1 id [], by decide⟩, ?_,
    ⟨ring 1 2 1 id [], by decide, reaches _ _ (by decide), by decide⟩, ⟨ring 0 2 1 id [], by decide, reaches _ _ (by decide), by decide⟩,
    ⟨ring 1 1 1 id [], by decide⟩, ⟨ring 1 2 1 (fun c => { c with held := [aToken 2 2] }) [], 4, aToken 2 2, by decide⟩,
    ⟨ring 1 2 1 (fun c => { c with held := [aToken 2 2] }) [], 2, aToken 2 2, 0, by decide⟩,
    ⟨ring 1 2 1 id [(CAV.RING_SIZE_M1, 1)], aMarkOf 7, by decide⟩,
    ⟨trains true, 7, aMarkOf 6, by decide⟩, ⟨trains true, 7, aMarkOf 5, by decide⟩, ⟨trains true, 7, aMarkOf 9, by decide⟩,
    ⟨trains false, aMarkOf 7, by decide⟩, ⟨ring 0 1 1 id [(CAV.RING_SIZE_M1, 1), (CAV.MODE, 1)], aMarkOf 7, 4, by decide⟩,
    ⟨ring 0 3 1 id [], 7, aMarkOf 8, by decide⟩, ⟨ring 0 3 1 id [], 7, aMarkOf 5, by decide⟩, ⟨ring 0 4 1 id [], 7, aMarkOf 8, by decide⟩,
    ⟨ring 1 2 1 id [], by decide⟩, ⟨ring 0 2 0 id [], by decide⟩,
    ⟨setF [(Pg.MTB, CTRL.ENABLE, 1)] (ring 0 2 0 id []), by decide⟩, ⟨setF [(Pg.MTB, CTRL.ENABLE, 1)] (ring 0 2 1 id []), by decide⟩,
    ⟨ring 0 2 1 id [], 262, 0, by decide⟩, ⟨ring 0 2 1 (fun c => { c with markAt := 5 }) [(CAV.ORPHAN_US, 1000)], 2053, by decide⟩,
    ⟨ring 1 2 1 (fun c => { c with returnAt := 5 }) [(CAV.ORPHAN_US, 1000), (CAV.RING, 1)], 2053, by decide⟩⟩
  · have h : ∀ n, n ∈ [3, 7] → (BitVec.ofNat 5 n).toNat = n ∧ (BitVec.ofNat 5 n).toNat % 4 = 3 := by decide
    exact fun n hn => ⟨dark 1, BitVec.ofNat 5 n, by decide, by decide, by decide, h n hn⟩
  · intro out _
    cases out <;> exact ⟨ring 0 2 1 id [], by decide⟩
  · intro out _
    cases out <;> exact ⟨ring 0 2 1 id [], by decide⟩
  · intro out _
    cases out <;> exact ⟨dark 0, 2048 * 1023, by decide⟩

theorem witness_RingTokensAndFields :
    (∃ (s : State) (k : Token), s.cavOn = true ∧ s.isMaster = true ∧ s.mustQueue k = true) ∧
    (∃ (s : State) (k : Token), s.cavOn = true ∧ s.isMaster = true ∧ s.mustQueue k = false ∧ k.cls ≠ 0 ∧ k.dev ≠ s.get Pg.CAV CAV.POSITION ∧
      s.cav.mine = [] ∧ s.cav.queue = [] ∧ s.cav.held ≠ []) ∧
    (∀ b : Bool, ∃ (s : State) (k : Token), s.cavOn = true ∧ s.isMaster = false ∧ s.cavState = CS.CONNECTED ∧
      k.dev = s.get Pg.CAV CAV.POSITION ∧ s.claimed_ k = b ∧ k.cls ≠ 0) ∧
    (∃ (s : State) (k : Token), s.cavOn = true ∧ s.isMaster = false ∧ k ∈ s.cav.mine ∧ s.tokenInUse k = false) ∧
    (∃ (s : State) (k : Token) (x : Lane), s.cavOn = true ∧ s.txs.lanes = [(16 * 15 + 0, some x)] ∧ s.feederOf 15 = k.feeder ∧ x.kind = .data ∧
      x.onLine = true ∧ bandsOverlap x.centre x.rate k.centre k.rate = true ∧ x.victim = false) ∧
    (∃ s : State, s.cavOn = true ∧ s.txs.lanes = []) ∧
    (∃ (s : State) (d : RingField) (x : RxCopy) (f : RxFrame), s.cavOn = true ∧ s.deepMaster = true ∧ s.openSess = [] ∧
      x = { eng := d.eng, port := d.port, centre := d.centre, rate := d.rate, sync := d.sync, alarm := d.alarm, hdr := d.word.toNat,
            tSync := d.tSync, tPre := d.tPre, snr := d.snr, field := d.field, soft := [], late := false, diag := none, combined := 0,
            slot := none, copy := (PhyHeader.ofWord d.word.toNat).copyIndex, cut := none } ∧ f = RxFrame.of x true ∧
      fcsOk d.field = true ∧ formatOk d.field = true ∧ s.mergedAway f = true) ∧
    (∃ (s : State) (d : RingField) (x : RxCopy) (f : RxFrame) (ring : Nat), s.cavOn = true ∧ s.deepMaster = true ∧ s.openSess = [] ∧
      x = { eng := d.eng, port := d.port, centre := d.centre, rate := d.rate, sync := d.sync, alarm := d.alarm, hdr := d.word.toNat,
            tSync := d.tSync, tPre := d.tPre, snr := d.snr, field := d.field, soft := [], late := false, diag := none, combined := 0,
            slot := none, copy := (PhyHeader.ofWord d.word.toNat).copyIndex, cut := none } ∧ f = RxFrame.of x true ∧
      fcsOk d.field = true ∧ formatOk d.field = true ∧ s.mergedAway f = false ∧ s.runOf x = none ∧ s.flag Pg.LNK CFG.ARMED = false ∧
      s.get Pg.MAC MAC.REGIME = 0 ∧ f.h.cls ≠ 0 ∧ f.h.sec = false ∧ f.h.src ≠ 0 ∧ f.h.dst = 0 ∧ f.h.ackReq = false ∧ f.h.ftype = FT.DATA ∧
      f.h.hops = 0 ∧ s.flag Pg.LNK LNK.REQUIRE_SEC = false ∧ s.slotOf f.h.src = none ∧ (s.ep f.h.src).state = .absent ∧
      ring = s.classRing f.h.cls ∧ s.ringEn ring = true ∧ s.ringRoom ring = true ∧ s.lossPending ring = false ∧ s.wad.due = []) := by
  refine ⟨⟨ring 1 2 1 (fun c => { c with held := [aToken 2 3] }) [], aToken 2 2, by decide⟩,
    ⟨ring 1 2 1 (fun c => { c with held := [{ aToken 2 3 with feeder := 8 }] }) [], aToken 2 2, by decide⟩, ?_,
    ⟨ring 0 2 1 (fun c => { c with mine := [aToken 2 2] }) [], aToken 2 2, by decide⟩,
    ⟨laned .onLine (ring 0 2 1 id [(CAV.FEEDER_ID.nth 3, 9 * 2 ^ 24)]), aToken 2 2, aLane .onLine, by decide⟩, ⟨ring 0 2 1 id [], by decide⟩,
    ⟨deep [(9, 7, 0)], aField, _, _, by decide, by decide, rfl, rfl, rfl, fcsOk_withFcs _, by decide, by decide⟩,
    ⟨deep [], aField, _, _, _, by decide, by decide, rfl, rfl, rfl, fcsOk_withFcs _, by decide, by decide, by decide, by decide, by decide,
      by decide, by decide, by decide, by decide, by decide, by decide, by decide, by decide, by decide, by decide, rfl, by decide⟩⟩
  · intro b
    cases b
    · exact ⟨ring 0 2 1 id [(CAV.POSITION, 2)], aToken 2 2, by decide⟩
    · exact ⟨ring 0 2 1 (fun c => { c with claims := [aToken 2 2] }) [(CAV.POSITION, 2)], aToken 2 2, by decide⟩

/-! ## Clocks, resets and DRAM -/

/-- A device in deep sleep. -/
def asleep (l : List (Nat × Fld × Nat)) : State :=
  let s := setF l State.reset
  { s with clk := { s.clk with sleepAt := some 5 } }
/-- The watchdog runs with an action, 1 ms from tick 5. -/
def watchdog (action : Nat) : State :=
  let s := setF [(Pg.RST, RST.WDT_MS, 1), (Pg.RST, RST.WDT_ACTION, action)] State.reset
  { s with clk := { s.clk with wdtAt := some 5 } }

theorem witness_ClocksFailAndReturn :
    (∃ (s : State) (ppm : BitVec 16), s.monitorFails ppm false = false ∧ ppm.toInt < 0) ∧
    (∀ noEdge : Bool, ∃ (s : State) (ppm : BitVec 16), s.monitorFails ppm noEdge = true ∧ (noEdge = true → ppm = 0)) ∧
    (∀ b : Bool, ∃ s : State, s.monitorFails 0 true = true ∧ s.get Pg.CLK CLK.SAMPLE_SRC = 0 ∧ s.flag Pg.CLK CLK.FAILOVER_EN = b) ∧
    (∃ s : State, s.monitorFails 0 true = true ∧ s.get Pg.CLK CLK.SAMPLE_SRC ≠ 0) ∧
    (∃ (s : State) (good : Nat), s.Reaches Pg.CLK ∧ s.get Pg.CLK CLK.SAMPLE_SRC = 2 ∧ 2048000 ≤ good) ∧
    (∃ (s : State) (good : Nat), s.Reaches Pg.CLK ∧ s.get Pg.CLK CLK.SAMPLE_SRC = 2 ∧ good < 2048000) ∧
    (∃ s : State, s.clk.returning = true) ∧
    (∀ pll : Fin 5, ∃ f : Fld, [CLK.SYS_LOCK, CLK.SPR_LOCK, CLK.SAMPLE_LOCK, CLK.DRAM01_LOCK, CLK.DRAM23_LOCK][pll.val]? = some f) := by
  refine ⟨⟨setF [(Pg.CLK, CLK.MON_PPM, 1)] State.reset, 0xFF9C, by decide⟩, ?_, ?_,
    ⟨setF [(Pg.CLK, CLK.SAMPLE_SRC, 1)] State.reset, by decide⟩,
    ⟨setF [(Pg.CLK, CLK.SAMPLE_SRC, 2)] State.reset, 2048000, reaches _ _ (by decide), by decide, by omega⟩,
    ⟨setF [(Pg.CLK, CLK.SAMPLE_SRC, 2)] State.reset, 2047999, reaches _ _ (by decide), by decide, by omega⟩,
    ⟨{ State.reset with clk := { State.reset.clk with returning := true } }, rfl⟩, ?_⟩
  · intro noEdge
    cases noEdge
    · exact ⟨setF [(Pg.CLK, CLK.MON_PPM, 1)] State.reset, 0xFF9B, by decide⟩
    · exact ⟨State.reset, 0, by decide⟩
  · intro b
    cases b
    · exact ⟨setF [(Pg.CLK, CLK.FAILOVER_EN, 0)] State.reset, by decide⟩
    · exact ⟨setF [(Pg.CLK, CLK.FAILOVER_EN, 1)] State.reset, by decide⟩
  · intro pll
    match pll with
    | ⟨0, _⟩ => exact ⟨_, rfl⟩
    | ⟨1, _⟩ => exact ⟨_, rfl⟩
    | ⟨2, _⟩ => exact ⟨_, rfl⟩
    | ⟨3, _⟩ => exact ⟨_, rfl⟩
    | ⟨4, _⟩ => exact ⟨_, rfl⟩

theorem witness_ResetsKeepWhatTheySay :
    (∃ s : State, s.asleep = false ∧ s.Reaches Pg.RST) ∧
    (∃ (s : State) (a : Nat), s.asleep = true ∧ s.clk.sleepAt = some a) ∧
    (∃ (s : State) (tick a : Nat), s.asleep = true ∧ s.clk.sleepAt = some a ∧ s.get Pg.SEC SEC.DS_WAKE_S ≠ 0 ∧
      a + s.get Pg.SEC SEC.DS_WAKE_S * 2048000 ≤ tick) ∧
    (∃ s : State, s.sec.blown = true ∧ 2 ^ 31 ≤ (s.mramWord (MR.BINDING + 2047)).toNat ∧ (s.mramWord MR.BINDING).toNat < 2 ^ 31 ∧
      (s.mramWord MR.GRID_MARK).toNat ≠ 0) ∧
    (∃ s : State, s.get (Pg.DRC 0) DRC.CAPACITY_MIB ≠ 0 ∧ s.Reaches Pg.RST) ∧
    (∀ w, w ∈ [0, 1, 2] → ∃ (s : State) (tick a : Nat), s.asleep = false ∧ s.clk.wdtAt = some a ∧ s.get Pg.RST RST.WDT_MS ≠ 0 ∧
      a + msTicks (s.get Pg.RST RST.WDT_MS) ≤ tick ∧ s.get Pg.RST RST.WDT_ACTION = w) := by
  refine ⟨⟨State.reset, rfl, reaches _ _ (by decide)⟩, ⟨asleep [], 5, by decide⟩, ⟨asleep [(Pg.SEC, SEC.DS_WAKE_S, 1)], 2048005, 5, by decide⟩,
    ⟨{ State.reset with sec := { State.reset.sec with blown := true }
                        mrm := { State.reset.mrm with words := [(8196, 1), (10383, 0x80000009)] } }, by decide⟩,
    ⟨setF [(Pg.DRC 0, DRC.CAPACITY_MIB, 1024)] State.reset, by decide, reaches _ _ (by decide)⟩, ?_⟩
  have h : ∀ w, w ∈ [0, 1, 2] → (watchdog w).asleep = false ∧ (watchdog w).clk.wdtAt = some 5 ∧ (watchdog w).get Pg.RST RST.WDT_MS ≠ 0 ∧
      5 + msTicks ((watchdog w).get Pg.RST RST.WDT_MS) ≤ 2053 ∧ (watchdog w).get Pg.RST RST.WDT_ACTION = w := by decide
  exact fun w hw => ⟨watchdog w, 2053, 5, h w hw⟩

/-- Region 0 of DRAM, 64 KiB from address 0 with ECC, with the channels of a mask active. -/
def scrubbing (mask : Nat) : State :=
  setF [(Pg.DRC 0, DRC.SCRUB_EN, 1), (Pg.DRC 0, DRC.EN.nth 0, 1), (Pg.DRC 0, DRC.ECC.nth 0, 1), (Pg.DRC 0, DRC.SIZE.nth 0, 1),
    (Pg.DRC 0, DRC.CHANNELS_ACTIVE, mask)] State.reset

theorem witness_DramTrainsAndReportsErrors :
    (∃ (s : State) (d : Nat), (∀ n, n < 4 → s.get (Pg.DRC n) DRC.STATE = 0) ∧ s.get (Pg.DRC 0) DRC.CAPACITY_MIB = 0 ∧
      s.get Pg.RST RST.BOOT_STAGE ≠ 0xF1 ∧ s.get Pg.RST RST.BOOT_SEL ≠ 2 ∧ densityOk d = true) ∧
    (∀ used, used ∈ [[0, 1, 2, 3], [0, 1], [2, 3]] → ∃ (ok : List Bool) (dens : List Nat) (d : Nat), ok.length = 4 ∧ dens.length = 4 ∧
      densityOk d = true ∧ (∀ n, n < 4 → ok[n]? = some true → dens[n]? = some d) ∧
      (used = [0, 1, 2, 3] ∧ ok = [true, true, true, true] ∨ used = [0, 1] ∧ ok.take 2 = [true, true] ∧ ok.drop 2 ≠ [true, true] ∨
        used = [2, 3] ∧ ok.drop 2 = [true, true] ∧ ok.take 2 ≠ [true, true])) ∧
    (∃ (ok : List Bool) (dens : List Nat) (n m x y : Nat), ok.length = 4 ∧ dens.length = 4 ∧ n < 4 ∧ m < 4 ∧ ok[n]? = some true ∧
      ok[m]? = some true ∧ dens[n]? = some x ∧ dens[m]? = some y ∧ x ≠ y) ∧
    (∃ ok : List Bool, ok.length = 4 ∧ ok.take 2 ≠ [true, true] ∧ ok.drop 2 ≠ [true, true]) ∧
    (∃ (s : State) (tick a r n : Nat), s.flag (Pg.DRC 0) DRC.SCRUB_EN = true ∧ s.get (Pg.DRC 0) DRC.CHANNELS_ACTIVE ≠ 0 ∧
      s.clk.scrubAt + s.get (Pg.DRC 0) DRC.SCRUB_H * hourTicks ≤ tick ∧ s.regionAt a = some r ∧
      s.flag (Pg.DRC 0) (DRC.ECC.nth r) = true ∧ n = s.channelOf a ∧ n = 3) ∧
    (∀ ch : Fin 4, ∃ s : State, s.domOn (136 + ch.val) = true) := by
  refine ⟨⟨State.reset, 16, by decide⟩, ?_, ⟨[true, false, false, true], [8, 0, 0, 16], 0, 3, 8, 16, by decide⟩,
    ⟨[true, false, false, true], by decide⟩, ⟨scrubbing 12, 24 * hourTicks, 65535, 0, 3, by decide⟩,
    fun ch => ⟨on [136, 137, 138, 139] State.reset, (by decide : ∀ ch : Fin 4, (on [136, 137, 138, 139] State.reset).domOn (136 + ch.val) = true) ch⟩⟩
  intro used hu
  simp only [List.mem_cons, List.not_mem_nil, or_false] at hu
  rcases hu with rfl | rfl | rfl
  · exact ⟨[true, true, true, true], [16, 16, 16, 16], 16, by decide⟩
  · exact ⟨[true, true, true, false], [16, 16, 16, 0], 16, by decide⟩
  · exact ⟨[true, false, true, true], [16, 0, 16, 16], 16, by decide⟩

/-! ## Boot, security and MRAM -/

/-- The security part changed, with fields. -/
def sec (f : SecSt → SecSt) (l : List (Nat × Fld × Nat)) : State :=
  let s := setF l State.reset
  { s with sec := f s.sec }
/-- At BOOT_STAGE 0x30 with the flash erased but for words of slot A. -/
def booting (l : List (Nat × Word)) : State := sec (fun x => { x with flash := l }) [(Pg.RST, RST.BOOT_STAGE, 0x30)]
/-- The words of a 64 KiB image whose magic and form pass: magic, FORMAT, SVN, LENGTH and ENTRY. -/
def aForm : List (Nat × Word) := [(0, 0x594C4731), (1, 1), (2, 0), (4, 65536), (5, 0)]
/-- Its bytes. -/
def aImage (a : Nat) : Byte := (booting aForm).flashByte a

theorem image_refused (rd : Nat → Byte) (rb : Nat) (h : imageField rd 0 4 ≠ 0x594C4731) : imageCheck rd rb ≠ 0 := by
  simp [imageCheck, h]

theorem image_accepted (rd : Nat → Byte) (rb : Nat) (h1 : imageField rd 0 4 = 0x594C4731) (h2 : imageFormOk rd = true)
    (h3 : Config.shake256 (imageBytes rd 72 48) 48 = Config.imageKeyHash)
    (h4 : Config.slhDsaVerify (imageBytes rd 72 48) (imageBytes rd 0 128) (imageBytes rd (128 + imageField rd 16 4) 16224) = true)
    (h5 : Config.shake256 (imageBytes rd 128 (imageField rd 16 4)) 48 = imageBytes rd 24 48) (h6 : ¬ imageSvn rd < rb) :
    imageCheck rd rb = 0 := by
  simp [imageCheck, IMG.HEADER, IMG.SIGNATURE, imageLength, h1, h2, h3, h4, h5, h6]

/-- Whether an image is accepted rests on the hash and signature algorithms, which the spec names and does not define: the
clauses of acceptance are met by the image `aImage` if those algorithms accept it, and everything else about it holds. -/
theorem witness_ImagesAreCheckedAndStarted :
    (∀ x : Bool, ∃ (s : State) (readA readB : Bool) (read : Bool → Bool), s.get Pg.RST RST.BOOT_STAGE = 0x30 ∧ s.mac.trains = [] ∧
      (∀ b, read b = if b then readB else readA) ∧ s.slotCheck x (read x) ≠ 0 ∧ s.slotCheck (!x) (read (!x)) ≠ 0) ∧
    (imageField aImage 0 4 = 0x594C4731 ∧ imageFormOk aImage = true ∧
      (Config.shake256 (imageBytes aImage 72 48) 48 = Config.imageKeyHash → Config.slhDsaVerify (imageBytes aImage 72 48)
        (imageBytes aImage 0 128) (imageBytes aImage (128 + imageField aImage 16 4) 16224) = true →
        Config.shake256 (imageBytes aImage 128 (imageField aImage 16 4)) 48 = imageBytes aImage 24 48 →
        (booting aForm).get Pg.RST RST.BOOT_STAGE = 0x30 ∧ (booting aForm).slotCheck false true = 0 ∧ false = (booting aForm).prefB)) ∧
    (∀ st, st ∈ [FW.BOOTING, FW.RUNNING] → ∃ s : State, s.Reaches Pg.SEC ∧ s.fwState = st ∧ s.fwState ≠ FW.STOPPED ∧ s.fwState ≠ FW.HALTED) ∧
    (∀ st, st ∈ [FW.STOPPED, FW.HALTED] → ∃ s : State, s.Reaches Pg.SEC ∧ s.fwState = st ∧ imageCheck s.fwByte s.mrm.rollback ≠ 0 ∧
      s.fwState ≠ FW.RUNNING ∧ s.mac.trains = []) ∧
    (∃ (s : State) (tick a : Nat), s.sec.stopAt = some a ∧ s.fwState = FW.STOPPED ∧ a + msTicks 100 ≤ tick ∧
      (s.sec.restarts.filter fun x => decide (tick < x + 3600 * 2048000)).length < s.get Pg.SEC SEC.RESTART_MAX ∧ s.time ≤ tick) ∧
    (∃ s : State, s.Reaches Pg.SEC ∧ s.fwState = FW.RUNNING ∧ s.mrm.rollback < s.get Pg.SEC SEC.FW_SVN) := by
  refine ⟨fun x => ?_, ⟨by decide, by decide, fun h3 h4 h5 => ⟨by decide, ?_, by decide⟩⟩, ?_, ?_,
    ⟨sec (fun x => { x with stopAt := some 5, restarts := [5] }) [(Pg.SEC, SEC.RESTART_MAX, 2)], 204805, 5, by decide⟩,
    ⟨setF [(Pg.LNK, LNK.FW_STATE, 2), (Pg.SEC, SEC.FW_SVN, 1)] State.reset, reaches _ _ (by decide), by decide⟩⟩
  · refine ⟨booting [], x, !x, fun b => if b then !x else x, by decide, rfl, fun _ => rfl, ?_, ?_⟩
    · cases x
      · exact (by decide : (7 : Nat) ≠ 0)
      · exact (by decide : (7 : Nat) ≠ 0)
    · cases x
      · exact image_refused (fun a => (booting []).flashByte (a + true.toNat * 0x2000000)) 0 (by decide)
      · exact image_refused (fun a => (booting []).flashByte (a + false.toNat * 0x2000000)) 0 (by decide)
  · exact image_accepted aImage 0 (by decide) (by decide) h3 h4 h5 (by decide)
  · have h : ∀ st, st ∈ [FW.BOOTING, FW.RUNNING] → ((fw st).unreachable, (fw st).pageOn Pg.SEC, (fw st).clockStopped Pg.SEC, (fw st).host.spiBuf)
        = (false, true, false, []) ∧ (fw st).fwState = st ∧ (fw st).fwState ≠ FW.STOPPED ∧ (fw st).fwState ≠ FW.HALTED := by decide
    exact fun st hs => ⟨fw st, reaches _ _ (h st hs).1, (h st hs).2⟩
  · have h : ∀ st, st ∈ [FW.STOPPED, FW.HALTED] → ((fw st).unreachable, (fw st).pageOn Pg.SEC, (fw st).clockStopped Pg.SEC, (fw st).host.spiBuf)
        = (false, true, false, []) ∧ (fw st).fwState = st ∧ imageField (fw st).fwByte 0 4 ≠ 0x594C4731 ∧ (fw st).fwState ≠ FW.RUNNING ∧
        (fw st).mac.trains = [] := by decide
    exact fun st hs => ⟨fw st, reaches _ _ (h st hs).1, (h st hs).2.1, image_refused _ _ (h st hs).2.2.1, (h st hs).2.2.2⟩

/-- A token of the right length for a scope, and a challenge. -/
def aTokenOf (scope : Word) : List Word := scope :: List.replicate 4068 0

/-- That a token passes rests on the hash and signature algorithms as well. -/
theorem witness_AttestationAndDebugUnlock :
    (∃ s : State, s.Reaches Pg.SEC ∧ s.sec.job = none ∧ s.sec.fresh = true) ∧ (∃ s : State, s.Reaches Pg.SEC ∧ s.sec.job ≠ none) ∧
    (∃ (s : State) (nonce : List Word), s.sec.job = some (.attest nonce)) ∧
    (∀ scope : Word, scope ∈ [1, 2] → ∃ (s : State) (tok ch : List Word), s.sec.job = some .unlock ∧ s.sec.checking = (tok, some ch) ∧
      tok.length = 4069 ∧ tok.head? = some scope) ∧
    (∃ (s : State) (tok : List Word), s.sec.job = some .unlock ∧ s.sec.checking = (tok, none)) ∧
    (∃ (s : State) (tok ch : List Word), s.sec.job = some .unlock ∧ s.sec.checking = (tok, some ch) ∧ tok.length ≠ 4069) ∧
    (∃ (s : State) (tok ch : List Word), s.sec.job = some .unlock ∧ s.sec.checking = (tok, some ch) ∧ tok.headD 0 ≠ 1 ∧ tok.headD 0 ≠ 2) := by
  refine ⟨⟨sec (fun x => { x with fresh := true }) [], reaches _ _ (by decide), by decide⟩,
    ⟨sec (fun x => { x with job := some (.attest []) }) [], reaches _ _ (by decide), by decide⟩,
    ⟨sec (fun x => { x with job := some (.attest [1, 2]) }) [], [1, 2], rfl⟩, ?_,
    ⟨sec (fun x => { x with job := some .unlock, checking := ([], none) }) [], [], rfl, rfl⟩,
    ⟨sec (fun x => { x with job := some .unlock, checking := ([1], some []) }) [], [1], [], rfl, rfl, by decide⟩,
    ⟨sec (fun x => { x with job := some .unlock, checking := ([3], some []) }) [], [3], [], rfl, rfl, by decide⟩⟩
  intro scope _
  exact ⟨sec (fun x => { x with job := some .unlock, checking := (aTokenOf scope, some (List.replicate 8 0)) }) [], aTokenOf scope,
    List.replicate 8 0, rfl, rfl, by simp [aTokenOf], rfl⟩

theorem witness_FlashReadsProgramsErases :
    (∃ s : State, s.Reaches Pg.SEC ∧ s.get Pg.RST RST.BOOT_STAGE ≠ 0x30 ∧ s.sec.flashOp = none ∧ s.sec.buf.length < 64) ∧
    (∃ s : State, s.Reaches Pg.SEC ∧ s.get Pg.RST RST.BOOT_STAGE = 0x30) ∧
    (∃ (s : State) (a i : Nat) (w : Word), s.sec.flashOp = some (1, a) ∧ s.sec.buf[i]? = some w ∧
      Tab.get (fun _ => 0xFFFFFFFF) s.sec.flash (a / 256 * 64 + i) = 0xFFFFFFFF ∧ i = 63) ∧
    (∃ (s : State) (a : Nat), s.sec.flashOp = some (2, a)) := by
  refine ⟨⟨sec (fun x => { x with buf := List.replicate 63 1 }) [], reaches _ _ (by decide), by decide⟩,
    ⟨booting [], reaches _ _ (by decide), by decide⟩,
    ⟨sec (fun x => { x with buf := List.replicate 64 1, flashOp := some (1, 0x3FFFFFF) }) [], 0x3FFFFFF, 63, 1, by decide⟩,
    ⟨sec (fun x => { x with flashOp := some (2, 5) }) [], 5, rfl⟩⟩

/-- The key page at a slot and an address, FW_STATE given, slot 3 bound to address 9. -/
def keying (st slot addr : Nat) : State :=
  let s := setF [(Pg.LNK, LNK.FW_STATE, st), (Pg.KEY, KEY.SLOT, slot), (Pg.KEY, KEY.ADDR, addr)] (on [140] State.reset)
  { s with key := { s.key with slots := [(3, { KeySlot.idle with addr := some 9, key := List.replicate 16 1 })], keyIn := [1, 2, 3, 4] } }
/-- The MRAM window at an address. -/
def mram (a inc : Nat) : State := setF [(Pg.MRM, MRM.ADDR, a), (Pg.MRM, MRM.INC, inc)] State.reset

theorem witness_KeysAndMramWindow :
    (∀ st, st ∈ [FW.BOOTING, FW.RUNNING] → ∃ s : State, s.Reaches Pg.KEY ∧ s.fwState = st) ∧
    (∀ addr, addr ∈ [0, 0xFFF] → ∃ s : State, s.Reaches Pg.KEY ∧ s.fwState ≠ FW.BOOTING ∧ s.fwState ≠ FW.RUNNING ∧
      s.get Pg.KEY KEY.SLOT < 2048 ∧ s.get Pg.KEY KEY.ADDR = addr) ∧
    (∃ s : State, s.Reaches Pg.KEY ∧ s.fwState ≠ FW.BOOTING ∧ s.fwState ≠ FW.RUNNING ∧ s.get Pg.KEY KEY.SLOT < 2048 ∧
      s.get Pg.KEY KEY.ADDR ≠ 0 ∧ s.get Pg.KEY KEY.ADDR ≠ 0xFFF ∧ s.slotOf (s.get Pg.KEY KEY.ADDR) = some 3 ∧ 3 ≠ s.get Pg.KEY KEY.SLOT) ∧
    (∃ s : State, s.Reaches Pg.KEY ∧ s.fwState ≠ FW.BOOTING ∧ s.fwState ≠ FW.RUNNING ∧ s.get Pg.KEY KEY.SLOT = 2047 ∧
      s.get Pg.KEY KEY.ADDR = 0xFFE ∧ s.slotOf (s.get Pg.KEY KEY.ADDR) = none) ∧
    (∃ s : State, s.Reaches Pg.KEY ∧ s.fwState ≠ FW.BOOTING ∧ s.fwState ≠ FW.RUNNING ∧ s.get Pg.KEY KEY.SLOT = 3 ∧
      s.slotOf (s.get Pg.KEY KEY.ADDR) = some 3) ∧
    (∃ s : State, s.Reaches Pg.KEY ∧ s.fwState ≠ FW.BOOTING ∧ s.fwState ≠ FW.RUNNING ∧ s.get Pg.KEY KEY.SLOT = 2048) ∧
    (∀ a, a ∈ [8320, 8335, 212992, 245759] → ∃ s : State, s.Reaches Pg.MRM ∧ s.get Pg.MRM MRM.ADDR = a ∧ mramOpen a = true) ∧
    (∀ a, a ∈ [0, 8319, 8336, 212991, 245760, 262143] → ∃ s : State, s.Reaches Pg.MRM ∧ s.get Pg.MRM MRM.ADDR = a ∧ mramOpen a = false) := by
  refine ⟨?_, ?_, ⟨keying 0 2047 9, reaches _ _ (by decide), by decide⟩, ⟨keying 3 2047 0xFFE, reaches _ _ (by decide), by decide⟩,
    ⟨keying 3 3 9, reaches _ _ (by decide), by decide⟩, ⟨keying 3 2048 9, reaches _ _ (by decide), by decide⟩, ?_, ?_⟩
  · have h : ∀ st, st ∈ [FW.BOOTING, FW.RUNNING] → ((keying st 0 0).unreachable, (keying st 0 0).pageOn Pg.KEY,
        (keying st 0 0).clockStopped Pg.KEY, (keying st 0 0).host.spiBuf) = (false, true, false, []) ∧ (keying st 0 0).fwState = st := by decide
    exact fun st hs => ⟨keying st 0 0, reaches _ _ (h st hs).1, (h st hs).2⟩
  · have h : ∀ addr, addr ∈ [0, 0xFFF] → ((keying 0 0 addr).unreachable, (keying 0 0 addr).pageOn Pg.KEY,
        (keying 0 0 addr).clockStopped Pg.KEY, (keying 0 0 addr).host.spiBuf) = (false, true, false, []) ∧ (keying 0 0 addr).fwState ≠ FW.BOOTING ∧
        (keying 0 0 addr).fwState ≠ FW.RUNNING ∧ (keying 0 0 addr).get Pg.KEY KEY.SLOT < 2048 ∧
        (keying 0 0 addr).get Pg.KEY KEY.ADDR = addr := by decide
    exact fun a ha => ⟨keying 0 0 a, reaches _ _ (h a ha).1, (h a ha).2⟩
  · have h : ∀ a, a ∈ [8320, 8335, 212992, 245759] → ((mram a 1).unreachable, (mram a 1).pageOn Pg.MRM, (mram a 1).clockStopped Pg.MRM, (mram a 1).host.spiBuf)
        = (false, true, false, []) ∧ (mram a 1).get Pg.MRM MRM.ADDR = a ∧ mramOpen a = true := by decide
    exact fun a ha => ⟨mram a 1, reaches _ _ (h a ha).1, (h a ha).2⟩
  · have h : ∀ a, a ∈ [0, 8319, 8336, 212991, 245760, 262143] → ((mram a 1).unreachable, (mram a 1).pageOn Pg.MRM,
        (mram a 1).clockStopped Pg.MRM, (mram a 1).host.spiBuf) = (false, true, false, []) ∧ (mram a 1).get Pg.MRM MRM.ADDR = a ∧ mramOpen a = false := by decide
    exact fun a ha => ⟨mram a 1, reaches _ _ (h a ha).1, (h a ha).2⟩

/-! ## Whole machine -/

theorem witness_StepRunsFrontCommand : ∃ (c : Instr) (rest : List Instr) (s : State), s.pending = c :: rest ∧ rest ≠ [] :=
  ⟨.retrain, [.aonFail], { State.reset with pending := [.retrain, .aonFail] }, rfl, List.cons_ne_nil _ _⟩

theorem witness_EmptyQueueIdles :
    (∃ s : State, s.pending = [] ∧ s.host.spiBuf = [] ∧ s.clk.stopped = false ∧ s.asleep = false) ∧
    (∃ s : State, s.pending = [] ∧ s.host.spiBuf = [] ∧ s.clk.stopped = true) ∧
    (∃ s : State, s.pending = [] ∧ s.host.spiBuf = [] ∧ s.asleep = true) :=
  ⟨⟨State.reset, rfl, rfl, rfl, rfl⟩, ⟨{ State.reset with clk := { State.reset.clk with stopped := true } }, rfl, rfl, rfl⟩,
   ⟨asleep [], rfl, rfl, rfl⟩⟩

theorem witness_StepKeepsSummariesFollowed : ∃ s s' : State, s.Followed ∧ step s = .next s' ∧ s.pending = [.aonFail] := by
  refine ⟨{ State.reset with pending := [.aonFail] }, _, ?_, rfl, rfl⟩
  unfold State.Followed State.tbServes
  decide

/-! ## Ill-formed commands -/

theorem test_costTableLoad_short : (Instr.costTableLoad [1, 2, 3, 4, 5, 6, 7]).wellFormed = false := by decide
theorem test_railSample_long : (Instr.railSample 0 (List.replicate 9 1) (List.replicate 10 1)).wellFormed = false := by decide
theorem test_thermalSample_short : (Instr.thermalSample 0 (List.replicate 15 1)).wellFormed = false := by decide
theorem test_loopUpdate_short : (Instr.loopUpdate 0 [⟨0, 0, false⟩]).wellFormed = false := by decide
theorem test_unknownCmd_assigned : (Instr.unknownCmd 0x20 5).wellFormed = false := by decide
theorem test_unknownCmd_unassigned : (Instr.unknownCmd 0x24 5).wellFormed = true := by decide
theorem test_costTableLoad_faults : exec (.costTableLoad []) State.reset = .fault .badOperands := rfl

/-! ## Addresses and identities (00_scope.md, 17_check_units_and_uarts.md, 07_transmit_synthesis.md) -/

/-- LPT3.CTRL lies at BAR0 + 0x0001_3004. -/
theorem test_address_of_LPT3_CTRL : addrOf (Pg.LPT 3) 0x004 = 0x13004 := by decide
/-- PAGE_ID of TXS3 and CRC2. -/
theorem test_page_ids : State.reset.reg (Pg.TXS 3) 0 = 0x48030201 ∧ State.reset.reg (Pg.CRC 2) 0 = 0x78020201 := by decide

/-! ## Worked examples of the waveform (05_slafer_waveform.md) -/

/-- The Grid 7 alarm: 71 bytes at rate 1/2 are 1,152 DBPSK symbols and a copy of 1,536; with DQPSK 576 and 960. -/
theorem test_alarm_symbols : dataSymbols 0 0 71 = 1152 ∧ copySymbols 32 0 0 71 = 1536 ∧ dataSymbols 1 0 71 = 576 ∧
    copySymbols 32 1 0 71 = 960 := by decide
/-- The robust reading: 47 bytes with P = 64 make a copy of 1,184 symbols of 512 ticks at 4 kbaud. -/
theorem test_robust_reading : copySymbols 64 0 0 47 = 1184 ∧ symTicks 0 = 512 := by decide

/-! ## Composite and energy (07_transmit_synthesis.md) -/

/-- The composite with the class-0 frame is −11.09 dBFS, without C −11.69 dBFS, and without B as well −12.38 dBFS. -/
theorem test_composite_of_the_example :
    tenthsOf 20 (([40, 40, 40, 48, 48, 28].map levelPower).sum) = 111 ∧ tenthsOf 20 (([40, 40, 48, 48, 28].map levelPower).sum) = 117 ∧
      tenthsOf 20 (([40, 48, 48, 28].map levelPower).sum) = 124 := by decide
/-- 4,000 mW at −14.0 dBFS for 192.0 ms are 30.6 mJ. -/
theorem test_energy_of_the_alarm : (State.reset.energyOf 0 28 (192 * 2048) + 50) / 100 = 306 := by decide

/-! ## Wake trains (09_medium_access.md, guard growth) -/

/-- The battery meter of the example, heard at tick 0. -/
def meter : EpRec := { EpRec.idle with state := .active, wiMs := 10000, lMs := 40, guardMs := 20, driftPpm := 50 }
/-- After 600 s, 7,200 s and 50,400 s its trains span 200, 1,520 and 10,040 ms. -/
theorem test_train_spans : [600, 7200, 50400].map (fun n => State.reset.trainSpan meter (n * 2048000) / 2048) = [200, 1520, 10040] := by
  decide
/-- DRIFTED, 10,041 ms. -/
theorem test_train_drifted : State.reset.trainSpan { meter with state := .drifted } 0 / 2048 = 10041 := by decide

/-! ## DRAM regions (19_clocks_reset_memory.md) -/

/-- 32 GB: SESSION_OBJ has 7,100 MiB, the ring 24,576 MiB at 8,192 MiB. -/
theorem test_regions_of_32_GB : (defaultRegions 32768)[10]? = some (6, 1092, 7100, true, true) ∧
    (defaultRegions 32768)[11]? = some (7, 8192, 24576, false, false) := by decide

/-! ## Seif pointers and words (15_seif_programming_model.md, 16_seif_instruction_set.md) -/

/-- The table of R338, with B0 = 100 and M0 = 5. -/
theorem test_pointer_updates : formAddress 4 160 100 64 5 = (160, 101, 0) ∧ formAddress 4 150 100 32 5 = (150, 123, 0) ∧
    formAddress 4 200 100 32 5 = (200, 173, ST.OUT_OF_WINDOW) ∧ formAddress 4 100 100 32 (-5) = (100, 127, 0) ∧
    formAddress 4 150 100 0 5 = (150, 155, 0) := by decide
/-- ADD of D2 and D3 to D1, unconditional, with LOAD of D4 at (P1)+1 in the X slot and STORE of D5 at (P6)+M7 in the Y slot,
written from R354 and R356: op 0010010, cond 0000, dd 0001, da 0010, db 0011, ac 00, imm 0000000; 01 000100 01 001 000; 10 000101 10 100 111. -/
theorem test_word_fields :
    let w : BitVec 64 := 0b0010010_0000_0001_0010_0011_00_0000000_01_000100_01_001_000_10_000101_10_100_111
    seifOp w = 0x12 ∧ seifCond w = 0 ∧ seifDd w = 1 ∧ seifDa w = 2 ∧ seifDb w = 3 ∧ moveKind (seifXMove w) = 1 ∧
      moveReg (seifXMove w) = 4 ∧ movePtr (seifXMove w) = 1 ∧ moveForm (seifXMove w) = 1 ∧ moveKind (seifYMove w) = 2 ∧
      moveReg (seifYMove w) = 5 ∧ movePtr (seifYMove w) = 2 ∧ moveForm (seifYMove w) = 4 ∧ moveMod (seifYMove w) = 7 ∧
      seifIllegal w = false := by decide
/-- LDI of 0xDEADBEEF to D15, from R355: op 0001001, cond 0000, reg 001111. -/
theorem test_wide_word_fields :
    let w : BitVec 64 := 0b0001001_0000_001111_000000000000000_11011110101011011011111011101111
    seifOp w = 9 ∧ seifReg w = 15 ∧ seifImm w = 0xDEADBEEF ∧ seifWide w = true ∧ seifIllegal w = false := by decide

/-! ## Check values and UARTs (17_check_units_and_uarts.md) -/

/-- RESULT of a preset over "123456789". -/
def checkValue (n : Nat) : Option Nat := (crcPreset n).map fun e =>
  (([0x31, 0x32, 0x33, 0x34, 0x35, 0x36, 0x37, 0x38, 0x39].foldl (crcByte e.1 e.2.1 (e.2.2.2.1 == 1)) e.2.2.1) ^^^ e.2.2.2.2) % 2 ^ e.1
/-- The table of R369. -/
theorem test_check_values : (List.range 8).map checkValue =
    [none, some 0xF4, some 0x29B1, some 0xE3069283, some 0x4B37, some 0xCBF43926, none, none] := by decide
/-- A restarted unit at its reset parameters over no bytes shows RESULT 0x0000_0000 (preset 3). -/
theorem test_crc32c_of_nothing :
    (after (.restart 0) (on [151] State.reset) fun t => t.get (Pg.CRC 0) CRC.STATE ^^^ t.get (Pg.CRC 0) CRC.XOROUT) = some 0 := by decide
/-- 9,600 baud is DIV_INT 3,906 and DIV_FRAC 4: 62,500 fabric cycles a bit. -/
theorem test_autobaud_9600 :
    (after (.abMeasureDone 5 3 [125000, 250000, 375000, 500000]) (uart id [(UART.AB_STATE, 1)]) fun t =>
      (t.get (Pg.UART 3) UART.DIV_INT, t.get (Pg.UART 3) UART.DIV_FRAC, t.get (Pg.UART 3) UART.AB_BAUD)) = some (3906, 4, 9600) := by decide
/-- The 65th character into a full transmit FIFO is dropped and counted. -/
theorem test_tx_overflow :
    (after (.txData 3 7) (uart (fun u => { u with tx := List.replicate 64 1 }) []) fun t =>
      ((t.uartSt 3).tx.length, t.get (Pg.UART 3) UART.TX_OVF_CNT)) = some (64, 1) := by decide

/-! ## Single steps -/

/-- A warm reset keeps SAMPLE_TIME and counts. -/
theorem test_warm_keeps_time :
    (after (.warm []) { State.reset with time := 77 } fun t => (t.time, t.get Pg.RST RST.WARM_CNT, t.get Pg.RST RST.LAST_CAUSE))
      = some (77, 1, 3) := by decide
/-- A power-on reset clears SAMPLE_TIME and latches the straps: BOOT_SEL is strap bits 3:2. -/
theorem test_power_on_straps :
    (after (.powerOnReset 0b0110 []) { State.reset with time := 77 } fun t =>
      (t.time, t.get Pg.RST RST.HOST_SEL, t.get Pg.RST RST.CAV_ROOT, t.get Pg.RST RST.BOOT_SEL)) = some (0, 0, 1, 1) := by decide
/-- A wrong watchdog kick restarts nothing. -/
theorem test_wdt_bad_kick :
    (after (.wdtKick 0xA5A5) (watchdog 0) fun t => (t.clk.wdtAt, t.get Pg.RST RST.WDT_BAD_KICK_CNT)) = some (some 5, 1) := by decide
/-- The MRAM window reaches BOOT_PARAM and its address moves on with INC. -/
theorem test_mram_write :
    (after (.mrmDataWrite 0xABCD) (mram 8335 1) fun t => (t.mramWord 8335, t.get Pg.MRM MRM.ADDR)) = some (0xABCD, 8336) := by decide
/-- Key words outside it are closed. -/
theorem test_mram_keys_closed :
    (after (.mrmDataWrite 0xABCD) (mram 0 1) fun t => (t.mramWord 0, t.get Pg.MRM CFG.ERR_CODE)) = some (0, ErrCode.NOT_PERMITTED) := by decide
/-- Programmed flash bits only clear. -/
theorem test_flash_program_clears :
    (after (.flashDone 5) (sec (fun x => { x with buf := [0x0F], flash := [(64, 0xF5)], flashOp := some (1, 0x100) }) []) fun t =>
      Tab.get (fun _ => 0xFFFFFFFF) t.sec.flash 64) = some 0x05 := by decide
/-- A claim that clashes with a token held waits. -/
theorem test_token_waits :
    (after (.tokenClaim 5 (aToken 2 2)) (ring 1 2 1 (fun c => { c with held := [aToken 2 3] }) []) fun t => t.cav.queue.length)
      = some 1 := by decide

end Sys2Proof.Tests
end

/-! ## Support of `EmptyQueueIdles` and `CommonFrameAndShadowWrites`: host accesses that reach their page, registers that no
summary follows, refusals, the shadow set, and the common frame of a page. -/

namespace Sys2Proof.Machine

/-! ### Host accesses -/

/-- With no SPI word waiting there is nothing to perform before an access (R37). -/
theorem State.spiDrain_of_empty {s : State} (h : s.host.spiBuf = []) : s.spiDrain = s := by
  unfold State.spiDrain; rw [h]; rfl

/-- An access reaches its page only where no SPI word waits before it. -/
theorem State.Reaches.spiDrain {pg : Nat} {s : State} (h : s.Reaches pg) : s.spiDrain = s := by
  obtain ⟨_, _, _, hbuf⟩ := h
  exact State.spiDrain_of_empty hbuf

/-- A host write that reaches a page of the index acts on it. -/
theorem State.onPage_reaches {pg : Nat} {s : State} (f : State → State) (h : s.Reaches pg)
    (hi : (pageIndex pg).isSome = true) : s.onPage pg f = f s := by
  have hn : ¬ (pageIndex pg).isNone = true := by simp [Option.isSome_iff_ne_none.mp hi]
  rw [State.onPage, if_neg hn, State.hostWrite, h.spiDrain, State.pageWrite_reaches f h]

/-- The outcome of a command that is one host write to a page. -/
theorem finish_onPage {pg : Nat} {s : State} (f : State → State) (h : s.Reaches pg)
    (hi : (pageIndex pg).isSome = true) : finish (s.onPage pg f) = .next (f s).settle := by
  rw [State.onPage_reaches f h hi]; rfl

section
variable {s : State} {page : Fin 512} (h : s.Reaches page.val) (hi : (pageIndex page.val).isSome = true)
include h hi

theorem exec_ctrlEnable (on : Bool) : exec (.ctrlEnable page on) s = .next (s.setEnable page.val on).settle :=
  finish_onPage _ h hi

theorem exec_freezeCnt (on : Bool) :
    exec (.freezeCnt page on) s = .next (s.put page.val CTRL.FREEZE_CNT on.toNat).settle := finish_onPage _ h hi

theorem exec_eventsClear (mask : Word) : exec (.eventsClear page mask) s = .next (s.eventsClear page.val mask).settle :=
  finish_onPage _ h hi

theorem exec_eventForce (mask : Word) : exec (.eventForce page mask) s = .next (s.eventForce page.val mask).settle :=
  finish_onPage _ h hi

theorem exec_cntSnap : exec (.cntSnap page) s = .next (s.cntSnap page.val).settle := finish_onPage _ h hi

theorem exec_rwsWrite (off : BitVec 12) (v : Word) :
    exec (.rwsWrite page off v) s = .next (s.rwsWrite page.val (off.toNat / 4 * 4) v).settle := finish_onPage _ h hi

theorem exec_commitApply : exec (.commitApply page) s = .next (s.commitApply page.val).settle := finish_onPage _ h hi

theorem exec_commitDiscard : exec (.commitDiscard page) s = .next (s.commitDiscard page.val).settle :=
  finish_onPage _ h hi

end

/-! ### Registers that no summary follows -/

/-- The address of a register names its page and its offset (R8). -/
theorem addrOf_inj {pg off pg' off' : Nat} (ho : off < 4096) (ho' : off' < 4096) (h : addrOf pg off = addrOf pg' off') :
    pg = pg' ∧ off = off' := by
  unfold addrOf at h; omega

/-- Registers at two offsets of a page lie at two addresses. -/
theorem addrOf_ne {pg off off' : Nat} (h : off ≠ off') : addrOf pg off ≠ addrOf pg off' := by
  unfold addrOf; omega

theorem follows_eq_false {pg off : Nat} (hg : pg ≠ Pg.GLB) (ho : off < 4096)
    (hv : pg = Pg.HIF → off ≠ HIF.VEC_PEND.off) : follows (addrOf pg off) = false := by
  have hevents : addrOf pg off ≠ addrOf Pg.GLB CMN.EVENTS := fun h => hg (addrOf_inj ho (by decide) h).1
  have hpend : addrOf pg off ≠ addrOf Pg.HIF HIF.VEC_PEND.off := fun h =>
    have heq := addrOf_inj ho (by decide) h
    hv heq.1 heq.2
  rw [follows, decide_eq_false hevents, decide_eq_false hpend]; rfl

/-- On every page but GLB, what follows a command leaves alone each field that does not lie in the register of VEC_PEND. -/
theorem State.get_settle (s : State) {pg : Nat} (hg : pg ≠ Pg.GLB) (f : Fld)
    (hf : f.off < 4096 ∧ f.off ≠ HIF.VEC_PEND.off) : s.settle.get pg f = s.get pg f :=
  State.settle_get s pg f (follows_eq_false hg hf.1 fun _ => hf.2)

theorem regsAt_of_mem {l : List (Nat × Nat)} {pg off : Nat} (h : (pg, off) ∈ l) : regsAt l (addrOf pg off) :=
  List.mem_map.mpr ⟨(pg, off), h, rfl⟩

/-- A field of a page is unchanged by a write to a field in another register of the page or beside it in the same register. -/
theorem State.get_put_beside (s : State) (pg : Nat) (f g : Fld) (v : Nat)
    (h : f.lsb + f.w ≤ 32 ∧ (f.off ≠ g.off ∨ g.lsb + g.w ≤ f.lsb ∨ f.lsb + f.w ≤ g.lsb)) :
    (s.put pg f v).get pg g = s.get pg g := by
  obtain ⟨hf, hfg⟩ := h
  by_cases ho : f.off = g.off
  · exact State.get_put_apart s v ho.symm hf (hfg.resolve_left (not_not.mpr ho))
  · exact State.get_put_other s v (addrOf_ne ho)

/-- An event changes no field of the page outside EVENTS. -/
theorem State.get_event_beside (s : State) (pg : Nat) (f g : Fld) (h : CMN.EVENTS ≠ g.off) :
    (s.event pg f).get pg g = s.get pg g := State.get_event_other s (addrOf_ne h)

theorem State.get_congr {s t : State} (h : t.regs = s.regs) (pg : Nat) (f : Fld) : t.get pg f = s.get pg f := by
  unfold State.get State.reg; rw [h]

theorem State.regsOnly_setReg_self (s : State) (pg off : Nat) (v : Word) :
    s.RegsOnly (regsAt [(pg, off)]) (s.setReg pg off v) :=
  State.regsOnly_setReg v (State.regsOnly_refl _ s) (regsAt_of_mem List.mem_cons_self)

/-- A one-bit field that is not 0 is 1. -/
theorem State.get_eq_one_of_flag {s : State} {pg : Nat} {f : Fld} (hw : f.w = 1) (h : s.flag pg f = true) :
    s.get pg f = 1 := by
  have hlt : s.get pg f < 2 ^ f.w := Fld.of_lt f _
  have hne : s.get pg f ≠ 0 := of_decide_eq_true h
  rw [hw] at hlt
  omega

theorem State.get_eq_zero_of_flag {s : State} {pg : Nat} {f : Fld} (h : s.flag pg f = false) : s.get pg f = 0 :=
  not_not.mp (of_decide_eq_false h)

/-- A one-bit field reads as the bit that was put there. -/
theorem State.get_put_bit (s : State) (pg : Nat) (f : Fld) (b : Bool) (hf : f.lsb < 32) (hw : f.w = 1) :
    (s.put pg f b.toNat).get pg f = b.toNat := by
  rw [State.get_put_same _ _ _ _ (by omega), hw]
  cases b <;> rfl

/-! ### What a refusal records (R45, R49, R50) -/

section
variable (s : State) (pg code off : Nat)

theorem State.get_refuse_cfgErr : (s.refuse pg code off).get pg CFG.CFG_ERR = 1 := by
  simp (disch := decide) only [State.refuse, State.get_event_beside, State.get_put_beside, State.get_put_same]
  rfl

theorem State.get_refuse_errCode : (s.refuse pg code off).get pg CFG.ERR_CODE = code % 16 := by
  simp (disch := decide) only [State.refuse, State.get_event_beside, State.get_put_beside, State.get_put_same]
  rfl

theorem State.get_refuse_refused : (s.refuse pg code off).get pg CMN.EV_CFG_REFUSED = 1 :=
  State.get_event_same _ _ _ rfl rfl (by decide)

/-- A refusal does not disarm the page. -/
theorem State.get_refuse_armed : (s.refuse pg code off).get pg CFG.ARMED = s.get pg CFG.ARMED := by
  simp (disch := decide) only [State.refuse, State.get_event_beside, State.get_put_beside]

end

/-- The registers in which a refusal of a page is recorded. -/
def refusalRegs (pg : Nat) : List (Nat × Nat) := [(pg, CMN.CFG_STATE), (pg, CMN.ERR_DETAIL), (pg, CMN.EVENTS)]

theorem State.regsOnly_refuse {touched : Nat → Prop} {s u : State} {pg : Nat} (code off : Nat) (h : s.RegsOnly touched u)
    (ht : ∀ e, e ∈ refusalRegs pg → touched (addrOf e.1 e.2)) : s.RegsOnly touched (u.refuse pg code off) := by
  have hcfg : touched (addrOf pg CMN.CFG_STATE) := ht (pg, CMN.CFG_STATE) (by simp [refusalRegs])
  have hdetail : touched (addrOf pg CMN.ERR_DETAIL) := ht (pg, CMN.ERR_DETAIL) (by simp [refusalRegs])
  have hevents : touched (addrOf pg CMN.EVENTS) := ht (pg, CMN.EVENTS) (by simp [refusalRegs])
  exact State.regsOnly_event (State.regsOnly_put _ (State.regsOnly_put _ (State.regsOnly_put _ (State.regsOnly_put _
    h hcfg) hcfg) hdetail) hdetail) hevents

theorem State.regsOnly_refuse_self (s : State) (pg code off : Nat) :
    s.RegsOnly (regsAt (refusalRegs pg)) (s.refuse pg code off) :=
  State.regsOnly_refuse code off (State.regsOnly_refl _ s) fun _ he => regsAt_of_mem he

/-! ### Access codes -/

/-- The register tables list no field in CFG_STATE: it belongs to the common frame (R43). -/
theorem accOf_cfgState (k : PageKind) : accOf k CMN.CFG_STATE = none := by
  cases k <;> decide

theorem accOf_hif_vecPend : accOf .hif HIF.VEC_PEND.off = some .ro := by decide

/-- What follows a command writes no RWS register outside GLB. -/
theorem follows_rws {pg off code inst : Nat} {k : PageKind} (hk : pageIndex pg = some (k, code, inst)) (hg : pg ≠ Pg.GLB)
    (ho : off < 4096) (ha : accOf k off = some .rws) : follows (addrOf pg off) = false := by
  refine follows_eq_false hg ho fun hp hv => ?_
  subst hp hv
  cases hk
  rw [accOf_hif_vecPend] at ha
  cases ha

/-! ### The shadow set of a page (R45) -/

/-- The state after a legal RWS write: the word stands in shadow and the page is DIRTY. -/
def State.shadowStored (pg off : Nat) (w : Word) (s : State) : State :=
  ({ s with shadow := Tab.put s.shadow (addrOf pg off) w } : State).put pg CFG.PENDING 1

section
variable {s : State} {pg off code inst : Nat} {k : PageKind} {v : Word}

theorem State.rwsWrite_of_rws (hk : pageIndex pg = some (k, code, inst)) (ha : accOf k off = some .rws) :
    s.rwsWrite pg off v = s.rwsStore pg off v := by
  unfold State.rwsWrite; rw [hk]; exact if_pos ha

theorem State.rwsStore_of_armed (hk : pageIndex pg = some (k, code, inst)) (harm : s.flag pg CFG.ARMED = true) :
    s.rwsStore pg off v = s.refuse pg ErrCode.SHADOW_LOCKED off := by
  unfold State.rwsStore; rw [hk]; exact if_pos harm

theorem State.rwsStore_of_legal (hk : pageIndex pg = some (k, code, inst)) (harm : s.flag pg CFG.ARMED = false)
    (hn : s.notHosts k inst off = false) (hv : wordVerdict k off (maskWord k off v) = none) :
    s.rwsStore pg off v = s.shadowStored pg off (maskWord k off v) := by
  unfold State.rwsStore; rw [hk]; simp only [harm, hn, hv]; rfl

end

section
variable (s : State) (pg off : Nat) (w : Word)

theorem State.shadowReg_shadowStored : (s.shadowStored pg off w).shadowReg pg off = w := by
  show (Tab.find? (Tab.put s.shadow (addrOf pg off) w) (addrOf pg off)).getD _ = w
  rw [Tab.find?_put, if_pos rfl]; rfl

theorem State.find?_shadowStored_other {a : Nat} (h : a ≠ addrOf pg off) :
    Tab.find? (s.shadowStored pg off w).shadow a = Tab.find? s.shadow a :=
  (Tab.find?_put _ _ _ _).trans (if_neg h.symm)

theorem State.get_shadowStored_pending : (s.shadowStored pg off w).get pg CFG.PENDING = 1 :=
  State.get_put_same _ _ _ _ (by decide)

theorem State.regsOnly_shadowStored :
    State.RegsOnly (regsAt [(pg, CMN.CFG_STATE)]) { s with shadow := (s.shadowStored pg off w).shadow }
      (s.shadowStored pg off w) :=
  State.regsOnly_put _ (State.regsOnly_refl _ _) (regsAt_of_mem List.mem_cons_self)

theorem State.reg_shadowStored (h : off ≠ CMN.CFG_STATE) : (s.shadowStored pg off w).reg pg off = s.reg pg off :=
  State.reg_setReg_other _ _ (addrOf_ne h.symm)

end

/-! ### COMMIT and discard (R45, R46) -/

section
variable {s : State} {pg : Nat}

theorem State.commitApply_of_armed (h : s.flag pg CFG.ARMED = true) :
    s.commitApply pg = s.refuse pg ErrCode.COMMIT_BUSY CMN.COMMIT := if_pos h

/-- A COMMIT of a CLEAN page counts and applies nothing; CFG_ERR clears as on an accepted one (notes/assumptions/10.md). -/
theorem State.commitApply_of_clean (ha : s.flag pg CFG.ARMED = false) (hp : s.flag pg CFG.PENDING = false) :
    s.commitApply pg = (s.put pg CFG.APPLY_CNT (s.get pg CFG.APPLY_CNT + 1)).put pg CFG.CFG_ERR 0 := by
  unfold State.commitApply; rw [ha, hp]; rfl

theorem State.get_commitApply_clean_applyCnt (ha : s.flag pg CFG.ARMED = false) (hp : s.flag pg CFG.PENDING = false) :
    (s.commitApply pg).get pg CFG.APPLY_CNT = (s.get pg CFG.APPLY_CNT + 1) % 16 := by
  rw [State.commitApply_of_clean ha hp]
  simp (disch := decide) only [State.get_put_beside, State.get_put_same]
  rfl

theorem State.get_commitApply_clean_pending (ha : s.flag pg CFG.ARMED = false) (hp : s.flag pg CFG.PENDING = false) :
    (s.commitApply pg).get pg CFG.PENDING = 0 := by
  rw [State.commitApply_of_clean ha hp]
  simp (disch := decide) only [State.get_put_beside]
  exact State.get_eq_zero_of_flag hp

theorem State.regsOnly_commitApply_clean (ha : s.flag pg CFG.ARMED = false) (hp : s.flag pg CFG.PENDING = false) :
    s.RegsOnly (regsAt [(pg, CMN.CFG_STATE)]) (s.commitApply pg) := by
  have hcfg : regsAt [(pg, CMN.CFG_STATE)] (addrOf pg CMN.CFG_STATE) := regsAt_of_mem List.mem_cons_self
  rw [State.commitApply_of_clean ha hp]
  exact State.regsOnly_put _ (State.regsOnly_put _ (State.regsOnly_refl _ s) hcfg) hcfg

/-- Without an armed set no safe point comes before a discard. -/
theorem State.safePointFirst_of_unarmed (h : s.flag pg CFG.ARMED = false) : s.safePointFirst pg = s := by
  unfold State.safePointFirst
  rw [h]
  split
  · rfl
  · split <;> rfl

end

section
variable (s : State) (pg : Nat)

theorem State.get_discard_armed : (s.discard pg).get pg CFG.ARMED = 0 := by
  simp (disch := decide) only [State.discard, State.get_put_beside, State.get_put_same]
  rfl

theorem State.get_discard_pending : (s.discard pg).get pg CFG.PENDING = 0 := by
  simp (disch := decide) only [State.discard, State.get_put_beside, State.get_put_same]
  rfl

theorem State.hasShadow_discard : (s.discard pg).hasShadow pg = false := by
  show (Tab.drop (inPage pg fun _ => true) s.shadow).any (fun e => decide (e.1 / 4096 = pg)) = false
  rw [List.any_eq_false]
  intro e he hpg
  have hdropped : (!inPage pg (fun _ => true) e.1) = true := (List.mem_filter.mp he).2
  simp [inPage, of_decide_eq_true hpg] at hdropped

theorem State.regsOnly_discard :
    State.RegsOnly (regsAt [(pg, CMN.CFG_STATE)]) { s with shadow := (s.discard pg).shadow } (s.discard pg) := by
  have hcfg : regsAt [(pg, CMN.CFG_STATE)] (addrOf pg CMN.CFG_STATE) := regsAt_of_mem List.mem_cons_self
  exact State.regsOnly_put _ (State.regsOnly_put _ (State.regsOnly_put _ (State.regsOnly_refl _ _) hcfg) hcfg) hcfg

/-- Beside the discard itself COMMIT = 0x2 touches no register, shadow value or byte of DRAM. -/
theorem State.commitDiscard_keeps (s : State) (pg : Nat) :
    (s.commitDiscard pg).regs = ((s.safePointFirst pg).discard pg).regs ∧
      (s.commitDiscard pg).shadow = ((s.safePointFirst pg).discard pg).shadow ∧
      (s.commitDiscard pg).dram = ((s.safePointFirst pg).discard pg).dram := by
  unfold State.commitDiscard
  generalize (s.safePointFirst pg).discard pg = u
  dsimp only
  split <;> exact ⟨rfl, rfl, rfl⟩

theorem State.get_commitDiscard_armed : (s.commitDiscard pg).get pg CFG.ARMED = 0 :=
  (State.get_congr (State.commitDiscard_keeps s pg).1 _ _).trans (State.get_discard_armed _ pg)

theorem State.get_commitDiscard_pending : (s.commitDiscard pg).get pg CFG.PENDING = 0 :=
  (State.get_congr (State.commitDiscard_keeps s pg).1 _ _).trans (State.get_discard_pending _ pg)

theorem State.hasShadow_commitDiscard : (s.commitDiscard pg).hasShadow pg = false := by
  have hshadow := (State.commitDiscard_keeps s pg).2.1
  unfold State.hasShadow
  rw [hshadow]
  exact State.hasShadow_discard _ pg

variable {s pg}

/-- The discard of an unarmed page changes no register but CFG_STATE and no byte of DRAM. -/
theorem State.commitDiscard_frame (h : s.flag pg CFG.ARMED = false) :
    s.RegsKept (regsAt [(pg, CMN.CFG_STATE)]) (s.commitDiscard pg) ∧ s.DramKept (s.commitDiscard pg) := by
  obtain ⟨hregs, -, hdram⟩ := State.commitDiscard_keeps s pg
  rw [State.safePointFirst_of_unarmed h] at hregs hdram
  have hdiscard := State.regsOnly_discard s pg
  constructor
  · intro pg' off hn hf
    have hkept : (s.discard pg).reg pg' off = s.reg pg' off := hdiscard.1 pg' off hn hf
    unfold State.reg at hkept ⊢
    rw [hregs, hkept]
  · intro a
    have hkept : (s.discard pg).dramByte a = s.dramByte a := hdiscard.dram a
    unfold State.dramByte at hkept ⊢
    rw [hdram, hkept]

end

/-! ### ENABLE, events and counter snapshots (R44, R50, R51) -/

/-- The block of most pages does not react to ENABLE. -/
theorem State.enableBlock_of_plain {pg code inst : Nat} {k : PageKind} (on : Bool) (s : State)
    (hi : pageIndex pg = some (k, code, inst)) (hk : k ≠ .mtb ∧ k ≠ .lpt ∧ k ≠ .cav ∧ k ≠ .uart) :
    s.enableBlock pg on = s := by
  obtain ⟨hmtb, hlpt, hcav, huart⟩ := hk
  unfold State.enableBlock
  rw [hi]
  dsimp only
  split
  · exact absurd rfl hmtb
  · exact absurd rfl hlpt
  · exact absurd rfl hcav
  · exact absurd rfl huart
  · rfl

/-- On such a page the bit is all that a write of ENABLE changes. -/
theorem State.setEnable_of_plain {s : State} {pg code inst : Nat} {k : PageKind} (on : Bool)
    (hi : pageIndex pg = some (k, code, inst)) (hk : k ∉ [PageKind.mtb, .lpt, .cav, .uart, .mir]) :
    s.setEnable pg on = s.put pg CTRL.ENABLE on.toNat := by
  simp only [List.mem_cons, List.not_mem_nil, or_false, not_or] at hk
  obtain ⟨hmtb, hlpt, hcav, huart, hmir⟩ := hk
  unfold State.setEnable
  rw [hi]
  simp [hmir, hlpt, State.enableBlock_of_plain on _ hi ⟨hmtb, hlpt, hcav, huart⟩]

theorem State.eventForce_eq {s : State} {pg code inst : Nat} {k : PageKind} (mask : Word)
    (hi : pageIndex pg = some (k, code, inst)) :
    s.eventForce pg mask = s.setReg pg CMN.EVENTS (s.reg pg CMN.EVENTS ||| (mask &&& eventMask k)) := by
  unfold State.eventForce; rw [hi]

/-- After a list of writes a key reads as `v` if every write to it writes `v`, and there is one or the key read so before. -/
theorem Tab.get_foldl_set {α β : Type} [DecidableEq α] (d : Nat → α) (l : List β) (key : β → Nat) (val : β → α) (k : Nat)
    (v : α) (hv : ∀ b, b ∈ l → key b = k → val b = v) (t : Tab α) (hk : (∃ b, b ∈ l ∧ key b = k) ∨ Tab.get d t k = v) :
    Tab.get d (l.foldl (fun m b => Tab.set d m (key b) (val b)) t) k = v := by
  induction l generalizing t with
  | nil =>
    rcases hk with ⟨b, hb, -⟩ | hk
    · cases hb
    · exact hk
  | cons c l ih =>
    refine ih (fun b hb => hv b (List.mem_cons_of_mem c hb)) _ ?_
    by_cases hc : key c = k
    · right
      subst hc
      exact (Tab.get_set_same _ _ _ _).trans (hv c List.mem_cons_self rfl)
    · rcases hk with ⟨b, hb, hbk⟩ | hk
      · rcases List.mem_cons.mp hb with rfl | hb
        · exact absurd hbk hc
        · exact .inl ⟨b, hb, hbk⟩
      · exact .inr ((Tab.get_set_other d t _ hc).trans hk)

/-- After CNT_SNAP the snapshot of a page holds its live counters. -/
theorem State.snap_cntSnap (s : State) (pg : Nat) {i : Nat} (h : i < 63) :
    Tab.get (fun _ => 0) (s.cntSnap pg).snap (addrOf pg (0x300 + 4 * i)) = s.reg pg (0x300 + 4 * i) := by
  refine Tab.get_foldl_set _ (List.range 63) (fun i => addrOf pg (0x300 + 4 * i)) (fun i => s.reg pg (0x300 + 4 * i)) _ _
    ?_ _ (.inl ⟨i, List.mem_range.mpr h, rfl⟩)
  intro j _ hj
  have hij : j = i := by unfold addrOf at hj; omega
  rw [hij]

/-- SCRATCH fills its register. -/
theorem fieldsAt_scratch :
    fieldsAt .glb 0x010 = [(⟨GLB.SCRATCH, 1, .rw, 0x0, false, 0, 4294967295⟩, GLB.SCRATCH)] := by decide

theorem scratch_of (v : Word) : GLB.SCRATCH.of v = v.toNat := by
  show v.toNat / 2 ^ 0 % 2 ^ 32 = v.toNat
  rw [Nat.pow_zero, Nat.div_one, Nat.mod_eq_of_lt v.isLt]

theorem maskWord_scratch (v : Word) : maskWord .glb 0x010 v = v := by
  have hlsb : GLB.SCRATCH.lsb = 0 := rfl
  simp [maskWord, fieldsAt_scratch, scratch_of, hlsb]

/-- Every value of GLB.SCRATCH is legal. -/
theorem wordVerdict_scratch (v : Word) : wordVerdict .glb 0x010 v = none := by
  have hv : ¬ 4294967295 < v.toNat := by have := v.isLt; omega
  simp [wordVerdict, fieldsAt_scratch, FldSpec.verdict, scratch_of, regVerdict, hv]

/-- A write of GLB.SCRATCH stores the word as it is. -/
theorem State.busWrite_scratch {s : State} (h : s.Reaches Pg.GLB) (v : Word) :
    s.busWrite 0x10 v = s.setReg Pg.GLB 0x010 v := by
  have hstore : s.rwStore Pg.GLB 0x010 v = s.setReg Pg.GLB 0x010 v := by
    have hi : pageIndex Pg.GLB = some (.glb, 0x01, 0) := rfl
    simp [State.rwStore, hi, maskWord_scratch, wordVerdict_scratch]
  calc s.busWrite 0x10 v = s.pageWrite Pg.GLB (State.rwStore Pg.GLB 0x010 v) := rfl
    _ = s.rwStore Pg.GLB 0x010 v := State.pageWrite_reaches _ h
    _ = _ := hstore

/-! ### The empty queue -/

/-- While no command and no SPI word waits, a step moves SAMPLE_TIME alone. -/
theorem step_of_empty {s : State} (hp : s.pending = []) (hb : s.host.spiBuf = []) : step s = .next s.tick.settle := by
  unfold step
  rw [hp]
  show finish s.spiDrain.tick = _
  rw [State.spiDrain_of_empty hb]; rfl

theorem State.tick_of_clocked {s : State} (h : s.clk.stopped = false ∧ s.asleep = false) :
    s.tick = { s with time := s.time + 1 } := by
  unfold State.tick; rw [h.1, h.2]; rfl

theorem State.tick_of_unclocked {s : State} (h : s.clk.stopped = true ∨ s.asleep = true) : s.tick = s :=
  if_pos (Bool.or_eq_true_iff.mpr h)

theorem State.tick_eq (s : State) : s.tick = { s with time := s.tick.time } := by
  unfold State.tick; split <;> rfl

/-- Settles O2: an idle step is a tick of SAMPLE_TIME, which writes no register. -/
theorem emptyQueueIdles : Obligations.EmptyQueueIdles := by
  intro s hp hb
  refine ⟨s.tick.settle, step_of_empty hp hb, ⟨fun h => ?_, fun h => ?_⟩, ?_⟩
  · rw [State.settle_time, State.tick_of_clocked h]
  · rw [State.settle_time, State.tick_of_unclocked h]
  · rw [State.settle_time, ← State.tick_eq]
    exact State.regsOnly_settle (State.regsOnly_refl _ _)

/-! ### What each command does to the page that it reaches -/

/-- GLB.SCRATCH is stored as written. -/
theorem registerWrite_scratch {s : State} (h : s.Reaches Pg.GLB) (v : Word) :
    ∃ t, exec (.registerWrite 0x10 v) s = .next t ∧ t.reg Pg.GLB 0x010 = v ∧ s.RegsOnly (regsAt [(Pg.GLB, 0x010)]) t := by
  have hexec : exec (.registerWrite 0x10 v) s = .next (s.setReg Pg.GLB 0x010 v).settle := by
    show finish (s.spiDrain.busWrite 0x10 v) = _
    rw [h.spiDrain, State.busWrite_scratch h]; rfl
  refine ⟨_, hexec, ?_, State.regsOnly_settle (State.regsOnly_setReg_self s _ _ v)⟩
  rw [State.settle_reg _ _ _ (by decide), State.reg_setReg_same]

section
variable {s : State} {page : Fin 512} {k : PageKind} {code inst : Nat} (h : s.Reaches page.val)
  (hk : pageIndex page.val = some (k, code, inst)) (hg : page.val ≠ Pg.GLB)
include h hk hg

theorem ctrlEnable_follows_bit (hplain : k ∉ [PageKind.mtb, .lpt, .cav, .uart, .mir]) (on : Bool) :
    ∃ t, exec (.ctrlEnable page on) s = .next t ∧ t.get page.val CTRL.ENABLE = on.toNat ∧
      s.RegsOnly (regsAt [(page.val, CMN.CTRL)]) t := by
  refine ⟨_, exec_ctrlEnable h (Option.isSome_of_eq_some hk) on, ?_, ?_⟩
  all_goals rw [State.setEnable_of_plain on hk hplain]
  · rw [State.get_settle _ hg _ (by decide), State.get_put_bit _ _ _ _ (by decide) rfl]
  · exact State.regsOnly_settle (State.regsOnly_setReg_self s _ _ _)

theorem freezeCnt_follows_bit (on : Bool) :
    ∃ t, exec (.freezeCnt page on) s = .next t ∧ t.get page.val CTRL.FREEZE_CNT = on.toNat ∧
      s.RegsOnly (regsAt [(page.val, CMN.CTRL)]) t := by
  refine ⟨_, exec_freezeCnt h (Option.isSome_of_eq_some hk) on, ?_,
    State.regsOnly_settle (State.regsOnly_setReg_self s _ _ _)⟩
  rw [State.get_settle _ hg _ (by decide), State.get_put_bit _ _ _ _ (by decide) rfl]

theorem eventsClear_clears (mask : Word) :
    ∃ t, exec (.eventsClear page mask) s = .next t ∧
      t.reg page.val CMN.EVENTS = s.reg page.val CMN.EVENTS &&& ~~~mask ∧
      s.RegsOnly (regsAt [(page.val, CMN.EVENTS)]) t := by
  refine ⟨_, exec_eventsClear h (Option.isSome_of_eq_some hk) mask, ?_,
    State.regsOnly_settle (State.regsOnly_setReg_self s _ _ _)⟩
  rw [State.settle_reg _ _ _ (follows_eq_false hg (by decide) fun _ => by decide)]
  exact State.reg_setReg_same _ _ _ _

theorem eventForce_sets (mask : Word) :
    ∃ t, exec (.eventForce page mask) s = .next t ∧
      t.reg page.val CMN.EVENTS = s.reg page.val CMN.EVENTS ||| (mask &&& eventMask k) ∧
      s.RegsOnly (regsAt [(page.val, CMN.EVENTS)]) t := by
  refine ⟨_, exec_eventForce h (Option.isSome_of_eq_some hk) mask, ?_, ?_⟩
  all_goals rw [State.eventForce_eq mask hk]
  · rw [State.settle_reg _ _ _ (follows_eq_false hg (by decide) fun _ => by decide), State.reg_setReg_same]
  · exact State.regsOnly_settle (State.regsOnly_setReg_self s _ _ _)

omit hg in
theorem cntSnap_copies :
    ∃ t, exec (.cntSnap page) s = .next t ∧ State.RegsOnly (fun _ => False) { s with snap := t.snap } t ∧
      ∀ i, i < 63 → Tab.get (fun _ => 0) t.snap (addrOf page.val (0x300 + 4 * i)) = s.reg page.val (0x300 + 4 * i) := by
  refine ⟨_, exec_cntSnap h (Option.isSome_of_eq_some hk), ?_, fun i hi => ?_⟩
  · rw [State.settle_snap]
    exact State.regsOnly_settle (State.regsOnly_refl _ _)
  · rw [State.settle_snap, State.snap_cntSnap s _ hi]

/-- A legal RWS write in CLEAN or DIRTY stores the word in shadow alone and makes the page DIRTY. -/
theorem rwsWrite_stores {off : BitVec 12} {v : Word} {o : Nat} (ho : o = off.toNat / 4 * 4) (ha : accOf k o = some .rws)
    (harm : s.flag page.val CFG.ARMED = false) (hn : s.notHosts k inst o = false)
    (hv : wordVerdict k o (maskWord k o v) = none) :
    ∃ t, exec (.rwsWrite page off v) s = .next t ∧ t.shadowReg page.val o = maskWord k o v ∧
      t.reg page.val o = s.reg page.val o ∧ t.get page.val CFG.PENDING = 1 ∧
      (∀ a, a ≠ addrOf page.val o → Tab.find? t.shadow a = Tab.find? s.shadow a) ∧
      State.RegsOnly (regsAt [(page.val, CMN.CFG_STATE)]) { s with shadow := t.shadow } t := by
  have hlt : o < 4096 := by have := off.isLt; omega
  have hcfg : o ≠ CMN.CFG_STATE := by
    rintro rfl
    rw [accOf_cfgState] at ha
    cases ha
  have hreg := State.settle_reg (s.shadowStored page.val o (maskWord k o v)) _ _ (follows_rws hk hg hlt ha)
  refine ⟨(s.shadowStored page.val o (maskWord k o v)).settle, ?_, ?_, ?_, ?_, ?_, ?_⟩
  · rw [exec_rwsWrite h (Option.isSome_of_eq_some hk), ← ho, State.rwsWrite_of_rws hk ha,
      State.rwsStore_of_legal hk harm hn hv]
  · unfold State.shadowReg
    rw [State.settle_shadow, hreg]
    exact State.shadowReg_shadowStored s _ _ _
  · rw [hreg, State.reg_shadowStored s _ _ _ hcfg]
  · rw [State.get_settle _ hg _ (by decide), State.get_shadowStored_pending]
  · intro a ha
    rw [State.settle_shadow, State.find?_shadowStored_other s _ _ _ ha]
  · rw [State.settle_shadow]
    exact State.regsOnly_settle (State.regsOnly_shadowStored s _ _ _)

/-- While the page is ARMED, an RWS write is refused whatever its value (notes/assumptions/9.md). -/
theorem rwsWrite_locked {off : BitVec 12} {v : Word} (ha : accOf k (off.toNat / 4 * 4) = some .rws)
    (harm : s.flag page.val CFG.ARMED = true) :
    ∃ t, exec (.rwsWrite page off v) s = .next t ∧ t.get page.val CFG.CFG_ERR = 1 ∧
      t.get page.val CFG.ERR_CODE = ErrCode.SHADOW_LOCKED ∧ t.get page.val CMN.EV_CFG_REFUSED = 1 ∧
      s.RegsOnly (regsAt [(page.val, CMN.CFG_STATE), (page.val, CMN.ERR_DETAIL), (page.val, CMN.EVENTS)]) t := by
  refine ⟨(s.refuse page.val ErrCode.SHADOW_LOCKED (off.toNat / 4 * 4)).settle, ?_, ?_, ?_, ?_,
    State.regsOnly_settle (State.regsOnly_refuse_self s _ _ _)⟩
  · rw [exec_rwsWrite h (Option.isSome_of_eq_some hk), State.rwsWrite_of_rws hk ha, State.rwsStore_of_armed hk harm]
  · rw [State.get_settle _ hg _ (by decide), State.get_refuse_cfgErr]
  · rw [State.get_settle _ hg _ (by decide), State.get_refuse_errCode]; rfl
  · rw [State.get_settle _ hg _ (by decide), State.get_refuse_refused]

end

section
variable {s : State} {page : Fin 512} (h : s.Reaches page.val) (hi : (pageIndex page.val).isSome = true)
  (hg : page.val ≠ Pg.GLB)
include h hi hg

theorem commitApply_busy (harm : s.flag page.val CFG.ARMED = true) :
    ∃ t, exec (.commitApply page) s = .next t ∧ t.get page.val CFG.CFG_ERR = 1 ∧
      t.get page.val CFG.ERR_CODE = ErrCode.COMMIT_BUSY ∧ t.get page.val CFG.ARMED = 1 ∧
      s.RegsOnly (regsAt [(page.val, CMN.CFG_STATE), (page.val, CMN.ERR_DETAIL), (page.val, CMN.EVENTS)]) t := by
  refine ⟨(s.refuse page.val ErrCode.COMMIT_BUSY CMN.COMMIT).settle, ?_, ?_, ?_, ?_,
    State.regsOnly_settle (State.regsOnly_refuse_self s _ _ _)⟩
  · rw [exec_commitApply h hi, State.commitApply_of_armed harm]
  · rw [State.get_settle _ hg _ (by decide), State.get_refuse_cfgErr]
  · rw [State.get_settle _ hg _ (by decide), State.get_refuse_errCode]; rfl
  · rw [State.get_settle _ hg _ (by decide), State.get_refuse_armed, State.get_eq_one_of_flag rfl harm]

theorem commitApply_clean (harm : s.flag page.val CFG.ARMED = false) (hp : s.flag page.val CFG.PENDING = false) :
    ∃ t, exec (.commitApply page) s = .next t ∧
      t.get page.val CFG.APPLY_CNT = (s.get page.val CFG.APPLY_CNT + 1) % 16 ∧ t.get page.val CFG.PENDING = 0 ∧
      s.RegsOnly (regsAt [(page.val, CMN.CFG_STATE)]) t := by
  refine ⟨_, exec_commitApply h hi, ?_, ?_, State.regsOnly_settle (State.regsOnly_commitApply_clean harm hp)⟩
  · rw [State.get_settle _ hg _ (by decide), State.get_commitApply_clean_applyCnt harm hp]
  · rw [State.get_settle _ hg _ (by decide), State.get_commitApply_clean_pending harm hp]

theorem commitDiscard_cleans :
    ∃ t, exec (.commitDiscard page) s = .next t ∧ t.get page.val CFG.ARMED = 0 ∧ t.get page.val CFG.PENDING = 0 ∧
      t.hasShadow page.val = false ∧
      (s.flag page.val CFG.ARMED = false → s.RegsKept (regsAt [(page.val, CMN.CFG_STATE)]) t ∧ s.DramKept t) := by
  refine ⟨_, exec_commitDiscard h hi, ?_, ?_, ?_, fun harm => ⟨?_, fun a => ?_⟩⟩
  · rw [State.get_settle _ hg _ (by decide), State.get_commitDiscard_armed]
  · rw [State.get_settle _ hg _ (by decide), State.get_commitDiscard_pending]
  · unfold State.hasShadow
    rw [State.settle_shadow]
    exact State.hasShadow_commitDiscard s _
  · exact State.regsKept_settle (State.commitDiscard_frame harm).1
  · rw [State.settle_dramByte, (State.commitDiscard_frame harm).2 a]

end

/-- Settles O7: each command is one host write that reaches its page, and what follows a command touches no register that the
statement reads outside GLB. -/
theorem commonFrameAndShadowWrites : Obligations.CommonFrameAndShadowWrites := by
  refine ⟨fun s page k code inst h hk hg => ?_, fun s page h hi hg => ?_⟩
  · exact ⟨fun hglb => registerWrite_scratch hglb, ctrlEnable_follows_bit h hk hg, freezeCnt_follows_bit h hk hg,
      eventsClear_clears h hk hg, eventForce_sets h hk hg, cntSnap_copies h hk⟩
  · exact ⟨fun _ _ _ _ _ _ hk => rwsWrite_stores h hk hg, fun _ _ _ _ _ hk => rwsWrite_locked h hk hg,
      commitApply_busy h hi hg, commitApply_clean h hi hg, commitDiscard_cleans h hi hg⟩

end Sys2Proof.Machine

/-! ## Support of `MailboxAndFirmwareState`: frames of what link firmware changes, the mailbox, its runs and stops, and what it
submits through its own queues. -/

namespace Sys2Proof.Machine

/-! ### What link firmware may change -/

/-- The state with other records of boot control, link firmware and Wadi. -/
def State.withLink (sec : SecSt) (lnk : LnkSt) (wad : WadSt) (s : State) : State := { s with sec := sec, lnk := lnk, wad := wad }

section
variable (sec : SecSt) (lnk : LnkSt) (wad : WadSt) (s : State)

@[simp] theorem State.withLink_get (pg : Nat) (f : Fld) : (s.withLink sec lnk wad).get pg f = s.get pg f := rfl
@[simp] theorem State.withLink_sec : (s.withLink sec lnk wad).sec = sec := rfl
@[simp] theorem State.withLink_lnk : (s.withLink sec lnk wad).lnk = lnk := rfl
@[simp] theorem State.withLink_mac : (s.withLink sec lnk wad).mac = s.mac := rfl

end

/-- Between `s` and `t` nothing has changed but registers that `touched` admits, what follows every command, and the records of
boot control, link firmware and Wadi. -/
structure State.LinkOnly (touched : Nat → Prop) (s t : State) : Prop where
  kept : s.RegsKept touched t
  rest : t = (s.refollowed t.regs t.host.msiSent t.host.active t.host.faults 0 none).withLink t.sec t.lnk t.wad

section
variable {touched : Nat → Prop} {s u : State}

theorem State.linkOnly_refl (touched : Nat → Prop) (s : State) : s.LinkOnly touched s := ⟨fun _ _ _ _ => rfl, rfl⟩

theorem State.LinkOnly.setReg (h : s.LinkOnly touched u) {pg off : Nat} (v : Word) (ht : touched (addrOf pg off)) :
    s.LinkOnly touched (u.setReg pg off v) := by
  refine ⟨fun pg' off' hn hf => ?_, congrArg (State.setReg pg off v) h.rest⟩
  rw [State.reg_setReg_other _ v fun he => hn (he ▸ ht)]
  exact h.kept pg' off' hn hf

theorem State.LinkOnly.put (h : s.LinkOnly touched u) {pg : Nat} {f : Fld} (v : Nat) (ht : touched (addrOf pg f.off)) :
    s.LinkOnly touched (u.put pg f v) := h.setReg _ ht

theorem State.LinkOnly.event (h : s.LinkOnly touched u) {pg : Nat} {f : Fld} (ht : touched (addrOf pg CMN.EVENTS)) :
    s.LinkOnly touched (u.event pg f) := h.setReg _ ht

theorem State.LinkOnly.count (h : s.LinkOnly touched u) {pg : Nat} {f : Fld} (ht : touched (addrOf pg f.off)) :
    s.LinkOnly touched (u.count pg f) := by
  unfold State.count State.countBy
  split
  · exact h
  · exact h.put _ ht

theorem State.LinkOnly.withLink (h : s.LinkOnly touched u) (sec : SecSt) (lnk : LnkSt) (wad : WadSt) :
    s.LinkOnly touched (u.withLink sec lnk wad) := by
  have hr := congrArg (State.withLink sec lnk wad) h.rest
  exact ⟨h.kept, hr⟩

theorem State.LinkOnly.modLnk (h : s.LinkOnly touched u) (f : LnkSt → LnkSt) : s.LinkOnly touched (u.modLnk f) :=
  h.withLink u.sec (f u.lnk) u.wad

theorem State.LinkOnly.onlyIf (h : s.LinkOnly touched u) {c : Bool} {f : State → State} (hf : s.LinkOnly touched (f u)) :
    s.LinkOnly touched (onlyIf c f u) := by
  unfold Machine.onlyIf
  split
  · exact hf
  · exact h

/-- What follows a command keeps the frame. -/
theorem State.LinkOnly.settle (h : s.LinkOnly touched u) : s.LinkOnly touched u.settle := by
  have hs := State.settle_settled u
  have hr := h.rest
  refine ⟨State.regsKept_settle h.kept, ?_⟩
  rw [hs.rest, hr]
  rfl

/-- The frame of a command that changes link firmware, Wadi and boot control. -/
theorem State.LinkOnly.regsOnly (h : s.LinkOnly touched u) :
    State.RegsOnly touched { s with sec := u.sec, lnk := u.lnk, wad := u.wad } u :=
  ⟨h.kept, _, _, _, _, u.lnk.outTotal, u.lnk.outSince, h.rest⟩

/-- The frame of a command that leaves boot control alone. -/
theorem State.LinkOnly.regsOnly_lnk_wad (h : s.LinkOnly touched u) (hs : u.sec = s.sec) :
    State.RegsOnly touched { s with lnk := u.lnk, wad := u.wad } u := by
  have hr := h.regsOnly
  rw [hs] at hr
  exact hr

/-- The frame of a command that leaves boot control and Wadi alone. -/
theorem State.LinkOnly.regsOnly_lnk (h : s.LinkOnly touched u) (hs : u.sec = s.sec) (hw : u.wad = s.wad) :
    State.RegsOnly touched { s with lnk := u.lnk } u := by
  have hr := h.regsOnly_lnk_wad hs
  rw [hw] at hr
  exact hr

end

/-- Outside pages GLB and HIF no field sees what follows a command. -/
theorem State.get_settle_beside (s : State) {pg : Nat} (hg : pg ≠ Pg.GLB ∧ pg ≠ Pg.HIF) {f : Fld} (hf : f.off < 4096) :
    s.settle.get pg f = s.get pg f := by
  obtain ⟨hglb, hhif⟩ := hg
  exact State.settle_get s pg f (follows_eq_false hglb hf fun h => absurd h hhif)

/-! ### The mailbox (R250) -/

/-- A host write of MB_CMD that reaches page LNK. -/
theorem finish_mbCmd {s : State} (h : s.Reaches Pg.LNK) (opcode tag : Nat) (ue : List Nat) :
    finish (s.hostWrite Pg.LNK (State.mbCmd opcode tag ue)) = .next (s.mbCmd opcode tag ue).settle := by
  rw [State.hostWrite, h.spiDrain, State.pageWrite_reaches _ h]; rfl

section
variable {s : State} {opcode tag : Nat} {ue : List Nat}

theorem State.mailbox_busy (h : s.lnk.mb.isSome = true) (f : State → MbAns) :
    s.mailbox tag f = s.refuse Pg.LNK ErrCode.STATE 0x040 := if_pos h

theorem State.mailbox_of_stopped (hmb : s.lnk.mb = none) (hfw : s.fwRunning = false) (f : State → MbAns) :
    s.mailbox tag f =
      ((s.put Pg.LNK LNK.MB_TAG tag).put Pg.LNK LNK.RESULT MB.NOT_RUNNING).event Pg.LNK LNK.EV_MB_DONE := by
  have hput : (s.put Pg.LNK LNK.MB_TAG tag).fwRunning = false := by
    rw [← hfw]
    exact congrArg (fun n => decide (n = 2)) (State.get_put_other s _ (by decide))
  unfold State.mailbox
  rw [hmb]
  exact if_pos hput

theorem State.mailbox_of_running (hmb : s.lnk.mb = none) (hfw : s.fwRunning = true) (f : State → MbAns) :
    s.mailbox tag f = (f (s.put Pg.LNK LNK.MB_TAG tag)).2.modLnk fun l =>
      { l with mb := some ⟨tag, (f (s.put Pg.LNK LNK.MB_TAG tag)).1.1, (f (s.put Pg.LNK LNK.MB_TAG tag)).1.2⟩ } := by
  have hput : ¬ (s.put Pg.LNK LNK.MB_TAG tag).fwRunning = false := by
    rw [Bool.not_eq_false, ← hfw]
    exact congrArg (fun n => decide (n = 2)) (State.get_put_other s _ (by decide))
  unfold State.mailbox
  rw [hmb]
  exact if_neg hput

/-- While the mailbox is BUSY or link firmware does not run, no command is carried out, HALT neither. -/
theorem State.mbCmd_eq_mailbox (h : s.lnk.mb.isSome = true ∨ s.fwRunning = false) :
    ∃ f, s.mbCmd opcode tag ue = s.mailbox tag f := by
  unfold State.mbCmd
  split
  case h_2 => exact ⟨_, if_pos h⟩
  all_goals exact ⟨_, rfl⟩

theorem State.mbCmd_of_unassigned (h : opcode ∉ mbOpcodes) :
    s.mbCmd opcode tag ue = s.mailbox tag fun s => ((MB.UNKNOWN_CMD, []), s) := by
  rw [State.mbCmd.eq_13]
  all_goals
    rintro rfl
    exact h (by decide)

theorem State.mbCmd_halt (hmb : s.lnk.mb = none) (hfw : s.fwRunning = true) :
    s.mbCmd 0x02 tag ue = (((s.put Pg.LNK LNK.MB_TAG tag).put Pg.LNK LNK.RESULT MB.OK).event Pg.LNK LNK.EV_MB_DONE).fwStop
      FW.HALTED false s.time := by
  have hn : ¬ (s.lnk.mb.isSome = true ∨ s.fwRunning = false) := by simp [hmb, hfw]
  exact if_neg hn

end

@[simp] theorem State.refuse_lnk (pg code off : Nat) (s : State) : (s.refuse pg code off).lnk = s.lnk := by
  rw [State.refuse, State.event_lnk, State.put_lnk, State.put_lnk, State.put_lnk, State.put_lnk]

/-- A command that link firmware does not take while another one is in hand. -/
theorem mbCmd_busy_refused {s : State} (h : s.lnk.mb.isSome = true) (opcode tag : Nat) (ue : List Nat) :
    (s.mbCmd opcode tag ue).settle.lnk.mb = s.lnk.mb ∧
      (s.mbCmd opcode tag ue).settle.get Pg.LNK CFG.ERR_CODE = ErrCode.STATE ∧
      (s.mbCmd opcode tag ue).settle.get Pg.LNK CMN.EV_CFG_REFUSED = 1 ∧
      s.RegsOnly (regsAt (refusalRegs Pg.LNK)) (s.mbCmd opcode tag ue).settle := by
  obtain ⟨f, hf⟩ := State.mbCmd_eq_mailbox (opcode := opcode) (tag := tag) (ue := ue) (.inl h)
  rw [hf, State.mailbox_busy h]
  refine ⟨?_, ?_, ?_, State.regsOnly_settle (State.regsOnly_refuse_self s _ _ _)⟩
  · rw [State.settle_mb, State.refuse_lnk]
  · exact (State.get_settle_beside _ (by decide) (by decide)).trans (State.get_refuse_errCode s _ ErrCode.STATE _)
  · exact (State.get_settle_beside _ (by decide) (by decide)).trans (State.get_refuse_refused s _ _ _)

/-- A command while link firmware does not run is answered NOT_RUNNING at once. -/
theorem mbCmd_stopped_answered {s : State} (hmb : s.lnk.mb = none) (hfw : s.fwRunning = false) (opcode : Nat) (tag : Byte)
    (ue : List Nat) :
    (s.mbCmd opcode tag.toNat ue).settle.get Pg.LNK LNK.RESULT = MB.NOT_RUNNING ∧
      (s.mbCmd opcode tag.toNat ue).settle.get Pg.LNK LNK.MB_TAG = tag.toNat ∧
      (s.mbCmd opcode tag.toNat ue).settle.get Pg.LNK LNK.EV_MB_DONE = 1 ∧
      s.RegsOnly (regsAt [(Pg.LNK, LNK.RESULT.off), (Pg.LNK, CMN.EVENTS)]) (s.mbCmd opcode tag.toNat ue).settle := by
  have hresult : regsAt [(Pg.LNK, LNK.RESULT.off), (Pg.LNK, CMN.EVENTS)] (addrOf Pg.LNK LNK.RESULT.off) :=
    regsAt_of_mem (by decide)
  have hevents : regsAt [(Pg.LNK, LNK.RESULT.off), (Pg.LNK, CMN.EVENTS)] (addrOf Pg.LNK CMN.EVENTS) :=
    regsAt_of_mem (by decide)
  obtain ⟨f, hf⟩ := State.mbCmd_eq_mailbox (opcode := opcode) (tag := tag.toNat) (ue := ue) (.inr hfw)
  rw [hf, State.mailbox_of_stopped hmb hfw]
  refine ⟨?_, ?_, ?_, State.regsOnly_settle (State.regsOnly_event (State.regsOnly_put _ (State.regsOnly_put _
    (State.regsOnly_refl _ s) hresult) hresult) hevents)⟩
  all_goals rw [State.get_settle_beside _ (by decide) (by decide)]
  · simp (disch := decide) only [State.get_event_beside, State.get_put_same]
    rfl
  · simp (disch := decide) only [State.get_event_beside, State.get_put_beside, State.get_put_same]
    exact Nat.mod_eq_of_lt tag.isLt
  · exact State.get_event_same _ _ _ rfl rfl (by decide)

/-- Every mailbox command is a write of MB_CMD with its opcode. -/
theorem exec_mailbox_command {s : State} (h : s.Reaches Pg.LNK) {tag opcode : Byte} (hop : Operands.unassigned opcode = true)
    {c : Instr} (hc : c ∈ [Instr.lnkNop tag, .lnkHalt tag, .epAdd tag, .epRemove tag, .epQuery tag, .keySet tag,
      .sessSend tag [], .sessCancel tag, .sessQuery tag, .sessRelease tag, .routeQuery tag, .routeSet tag,
      .unknownCmd opcode tag]) :
    ∃ op, exec c s = .next (s.mbCmd op tag.toNat []).settle := by
  simp only [List.mem_cons, List.not_mem_nil, or_false] at hc
  rcases hc with rfl | rfl | rfl | rfl | rfl | rfl | rfl | rfl | rfl | rfl | rfl | rfl | rfl
  case inr.inr.inr.inr.inr.inr.inr.inr.inr.inr.inr.inr =>
    exact ⟨opcode.toNat, (if_pos hop).trans (finish_mbCmd h _ _ _)⟩
  all_goals exact ⟨_, finish_mbCmd h _ _ _⟩

/-- An opcode that R250 does not assign is answered UNKNOWN_CMD. -/
theorem exec_unknownCmd_answers {s : State} (h : s.Reaches Pg.LNK) {opcode : Byte} (tag : Byte)
    (hop : Operands.unassigned opcode = true) (hmb : s.lnk.mb = none) (hfw : s.fwRunning = true) :
    ∃ t, exec (.unknownCmd opcode tag) s = .next t ∧ t.Answers tag MB.UNKNOWN_CMD [] ∧
      State.RegsOnly (regsAt [(Pg.LNK, LNK.MB_TAG.off)]) { s with lnk := t.lnk } t := by
  have hmem : opcode.toNat ∉ mbOpcodes := by simpa [Operands.unassigned] using hop
  have hcmd : s.mbCmd opcode.toNat tag.toNat [] = (s.put Pg.LNK LNK.MB_TAG tag.toNat).modLnk fun l =>
      { l with mb := some ⟨tag.toNat, MB.UNKNOWN_CMD, []⟩ } := by
    rw [State.mbCmd_of_unassigned hmem, State.mailbox_of_running hmb hfw]
  have hframe : s.LinkOnly (regsAt [(Pg.LNK, LNK.MB_TAG.off)]) (s.mbCmd opcode.toNat tag.toNat []) := by
    rw [hcmd]
    exact ((State.linkOnly_refl _ s).put _ (regsAt_of_mem (by decide))).modLnk _
  refine ⟨_, (if_pos hop).trans (finish_mbCmd h _ _ _), ⟨?_, ?_⟩, hframe.settle.regsOnly_lnk ?_ ?_⟩
  · rw [State.settle_mb, hcmd]; rfl
  · rw [State.get_settle_beside _ (by decide) (by decide), hcmd, State.modLnk_get, State.get_put_same _ _ _ _ (by decide)]
    exact Nat.mod_eq_of_lt tag.isLt
  · rw [State.settle_sec, hcmd, State.modLnk_sec, State.put_sec]
  · rw [State.settle_wad, hcmd, State.modLnk_wad, State.put_wad]

/-! ### MB_DONE (R250) -/

/-- What a list of writes keeps, every one of them keeping it. -/
theorem forEach_keeps {α : Type} (motive : State → Prop) (l : List α) (g : α → State → State)
    (hg : ∀ a u, a ∈ l → motive u → motive (g a u)) {s : State} (h : motive s) : motive (forEach l g s) := by
  induction l generalizing s with
  | nil => exact h
  | cons a l ih =>
    exact ih (fun b u hb => hg b u (List.mem_cons_of_mem a hb)) (hg a s List.mem_cons_self h)

section
variable (pg : Nat) (f : Fld) (v : Nat → Nat) (s : State)

theorem forEach_range_succ (n : Nat) (g : Nat → State → State) :
    forEach (List.range (n + 1)) g s = g n (forEach (List.range n) g s) := by
  rw [forEach, List.range_succ, List.foldl_append]; rfl

/-- The elements of an array of registers read as they were written. -/
theorem State.get_forEach_put_nth (hf : f.lsb + f.w ≤ 32) (hstep : 0 < f.step) {n i : Nat} (hi : i < n) :
    (forEach (List.range n) (fun i s => s.put pg (f.nth i) (v i)) s).get pg (f.nth i) = v i % 2 ^ f.w := by
  induction n with
  | zero => omega
  | succ n ih =>
    rw [forEach_range_succ]
    by_cases hin : i = n
    · subst hin
      exact State.get_put_same _ _ _ _ hf
    · have hoff : (f.nth n).off ≠ (f.nth i).off := fun h =>
        hin (Nat.eq_of_mul_eq_mul_left hstep (Nat.add_left_cancel h)).symm
      rw [State.get_put_other _ _ (addrOf_ne hoff), ih (by omega)]

end

/-- The BAR0 addresses of the mailbox's answer. -/
def answerRegs (a : Nat) : Prop :=
  regsAt [(Pg.LNK, LNK.RESULT.off), (Pg.LNK, CMN.EVENTS)] a ∨ ∃ i, i < 8 ∧ regsAt [(Pg.LNK, (LNK.MB_RESP.nth i).off)] a

section
variable (s : State) (m : MbCmd)

/-- The state with the response words of an answer, the mailbox being free again. -/
def State.withResponse : State :=
  forEach (List.range 8) (fun i s => s.put Pg.LNK (LNK.MB_RESP.nth i) (m.resp.getD i 0)) (s.modLnk fun l => { l with mb := none })

variable {s m}

theorem State.mbDone_eq (hm : s.lnk.mb = some m) :
    s.mbDone = ((((s.withResponse m).put Pg.LNK LNK.MB_TAG m.tag).put Pg.LNK LNK.RESULT m.result).event Pg.LNK
      LNK.EV_MB_DONE) := by
  unfold State.mbDone
  rw [hm]
  rfl

theorem State.withResponse_keeps :
    s.LinkOnly answerRegs (s.withResponse m) ∧ (s.withResponse m).sec = s.sec ∧ (s.withResponse m).wad = s.wad ∧
      (s.withResponse m).lnk.mb = none := by
  refine forEach_keeps (fun u => s.LinkOnly answerRegs u ∧ u.sec = s.sec ∧ u.wad = s.wad ∧ u.lnk.mb = none) _ _
    (fun i u hi hu => ?_) ⟨(State.linkOnly_refl _ s).modLnk _, rfl, rfl, rfl⟩
  obtain ⟨hframe, hrest⟩ := hu
  rw [State.put_sec, State.put_wad, State.put_lnk]
  exact ⟨hframe.put _ (.inr ⟨i, List.mem_range.mp hi, regsAt_of_mem List.mem_cons_self⟩), hrest⟩

theorem State.get_withResponse {i : Nat} (hi : i < 8) :
    (s.withResponse m).get Pg.LNK (LNK.MB_RESP.nth i) = m.resp.getD i 0 % 2 ^ 32 :=
  State.get_forEach_put_nth _ _ _ _ (by decide) (by decide) hi

theorem State.mbDone_keeps (hm : s.lnk.mb = some m) :
    s.LinkOnly answerRegs s.mbDone ∧ s.mbDone.sec = s.sec ∧ s.mbDone.wad = s.wad ∧ s.mbDone.lnk.mb = none := by
  have htag : answerRegs (addrOf Pg.LNK LNK.MB_TAG.off) := .inl (regsAt_of_mem (by decide))
  have hresult : answerRegs (addrOf Pg.LNK LNK.RESULT.off) := .inl (regsAt_of_mem (by decide))
  have hevents : answerRegs (addrOf Pg.LNK CMN.EVENTS) := .inl (regsAt_of_mem (by decide))
  obtain ⟨hframe, hsec, hwad, hmb⟩ := State.withResponse_keeps (s := s) (m := m)
  rw [State.mbDone_eq hm]
  refine ⟨((hframe.put _ htag).put _ hresult).event hevents, ?_⟩
  rw [State.event_sec, State.event_wad, State.event_lnk, State.put_sec, State.put_wad, State.put_lnk, State.put_sec,
    State.put_wad, State.put_lnk]
  exact ⟨hsec, hwad, hmb⟩

end

/-- Link firmware publishes its answer. -/
theorem mbDone_publishes {s : State} (tick : Nat) {m : MbCmd} (hm : s.lnk.mb = some m) :
    ∃ t, exec (.mbDone tick) s = .next t ∧ t.lnk.mb = none ∧ t.get Pg.LNK LNK.RESULT = m.result % 256 ∧
      t.get Pg.LNK LNK.MB_TAG = m.tag % 256 ∧ t.get Pg.LNK LNK.EV_MB_DONE = 1 ∧
      (∀ i, i < 8 → t.get Pg.LNK (LNK.MB_RESP.nth i) = m.resp.getD i 0 % 2 ^ 32) ∧
      State.RegsOnly answerRegs { s.atTick tick with lnk := t.lnk } t := by
  have hm' : (s.atTick tick).lnk.mb = some m := hm
  obtain ⟨hframe, hsec, hwad, hmb⟩ := State.mbDone_keeps hm'
  refine ⟨(s.atTick tick).mbDone.settle, rfl, ?_, ?_, ?_, ?_, fun i hi => ?_, hframe.settle.regsOnly_lnk ?_ ?_⟩
  · rw [State.settle_mb, hmb]
  · refine (State.get_settle_beside _ (by decide) (by decide)).trans ?_
    rw [State.mbDone_eq hm', State.get_event_beside _ _ _ _ (by decide), State.get_put_same _ _ _ _ (by decide)]
    rfl
  · refine (State.get_settle_beside _ (by decide) (by decide)).trans ?_
    rw [State.mbDone_eq hm', State.get_event_beside _ _ _ _ (by decide), State.get_put_beside _ _ _ _ _ (by decide),
      State.get_put_same _ _ _ _ (by decide)]
    rfl
  · refine (State.get_settle_beside _ (by decide) (by decide)).trans ?_
    rw [State.mbDone_eq hm']
    exact State.get_event_same _ _ _ rfl rfl (by decide)
  · have hoff : (LNK.MB_RESP.nth i).off = 0x110 + 4 * i := rfl
    have hresult : LNK.RESULT.off = 0x10C ∧ LNK.MB_TAG.off = 0x10C := ⟨rfl, rfl⟩
    have hevents : CMN.EVENTS = 0x200 := rfl
    refine (State.get_settle_beside _ (by decide) (by omega)).trans ?_
    rw [State.mbDone_eq hm', State.get_event_beside _ _ _ _ (by omega), State.get_put_other _ _ (addrOf_ne (by omega)),
      State.get_put_other _ _ (addrOf_ne (by omega)), State.get_withResponse hi]
  · rw [State.settle_sec, hsec, State.atTick_sec]
  · rw [State.settle_wad, hwad, State.atTick_wad]

/-! ### The regimes of medium access (R209) -/

/-- The queues of classes 1 to 3 carry LNK_PAUSE or not (R254). -/
def State.setLnkPause (b : Bool) (s : State) : State := s.withLink s.sec s.lnk { s.wad with lnkPause := b }

section
variable {s u : State} {reason t : Nat}

theorem State.toFallback_of_noTrains (h : u.mac.trains = []) :
    u.toFallback reason t = onlyIf (decide (u.get Pg.MAC MAC.REGIME = 0)) (State.event Pg.MAC MAC.EV_REGIME_CHANGE)
      (((u.put Pg.MAC MAC.REGIME 1).put Pg.MAC MAC.REASON reason).setLnkPause true) := by
  unfold State.toFallback
  rw [h]
  rfl

theorem State.toNormal_eq :
    u.toNormal = if u.get Pg.MAC MAC.REGIME = 0 then u
      else ((u.setLnkPause false).put Pg.MAC MAC.REGIME 0).event Pg.MAC MAC.EV_REGIME_CHANGE := rfl

end

/-- A change of regime: its registers on page MAC and the pause of queues. -/
structure State.RegimeMoved (u v : State) : Prop where
  get : ∀ pg (f : Fld), pg ≠ Pg.MAC → f.off < 4096 → v.get pg f = u.get pg f
  sec : v.sec = u.sec
  lnk : v.lnk = u.lnk
  frame : ∀ touched s, State.LinkOnly touched s u → touched (addrOf Pg.MAC MAC.REGIME.off) →
    touched (addrOf Pg.MAC CMN.EVENTS) → State.LinkOnly touched s v

section
variable {u v w : State}

theorem State.RegimeMoved.refl (u : State) : u.RegimeMoved u := ⟨fun _ _ _ _ => rfl, rfl, rfl, fun _ _ h _ _ => h⟩

theorem State.RegimeMoved.trans (h : u.RegimeMoved v) (k : v.RegimeMoved w) : u.RegimeMoved w :=
  ⟨fun pg f hp hf => (k.get pg f hp hf).trans (h.get pg f hp hf), k.sec.trans h.sec, k.lnk.trans h.lnk,
    fun touched s hu hr he => k.frame touched s (h.frame touched s hu hr he) hr he⟩

theorem State.regimeMoved_setLnkPause (u : State) (b : Bool) : u.RegimeMoved (u.setLnkPause b) :=
  ⟨fun _ _ _ _ => rfl, rfl, rfl, fun _ _ h _ _ => h.withLink _ _ _⟩

/-- A write to a field in the register of REGIME. -/
theorem State.regimeMoved_put (u : State) (f : Fld) (v : Nat) (hf : f.off = MAC.REGIME.off) :
    u.RegimeMoved (u.put Pg.MAC f v) := by
  refine ⟨fun pg g hp hg => State.get_put_other _ _ fun h => ?_, State.put_sec _ _ _ _, State.put_lnk _ _ _ _,
    fun _ _ h hr _ => h.put _ (hf ▸ hr)⟩
  rw [hf] at h
  exact hp (addrOf_inj (by decide) hg h).1.symm

theorem State.regimeMoved_event (u : State) (f : Fld) : u.RegimeMoved (u.event Pg.MAC f) := by
  refine ⟨fun pg g hp hg => State.get_event_other _ fun h => ?_, State.event_sec _ _ _, State.event_lnk _ _ _,
    fun _ _ h _ he => h.event he⟩
  exact hp (addrOf_inj (by decide) hg h).1.symm

theorem State.regimeMoved_toNormal (u : State) : u.RegimeMoved u.toNormal := by
  rw [State.toNormal_eq]
  split
  · exact State.RegimeMoved.refl u
  · exact ((State.regimeMoved_setLnkPause u false).trans (State.regimeMoved_put _ MAC.REGIME 0 rfl)).trans (State.regimeMoved_event _ _)

theorem State.regimeMoved_toFallback {reason t : Nat} (h : u.mac.trains = []) : u.RegimeMoved (u.toFallback reason t) := by
  have hpaused : u.RegimeMoved (((u.put Pg.MAC MAC.REGIME 1).put Pg.MAC MAC.REASON reason).setLnkPause true) :=
    ((State.regimeMoved_put u MAC.REGIME 1 rfl).trans (State.regimeMoved_put _ MAC.REASON reason rfl)).trans
      (State.regimeMoved_setLnkPause _ true)
  rw [State.toFallback_of_noTrains h, onlyIf]
  split
  · exact hpaused.trans (State.regimeMoved_event _ _)
  · exact hpaused

theorem State.get_regime_toNormal (u : State) : u.toNormal.get Pg.MAC MAC.REGIME = 0 := by
  rw [State.toNormal_eq]
  split
  case isTrue h => exact h
  case isFalse h =>
    rw [State.get_event_beside _ _ _ _ (by decide), State.get_put_same _ _ _ _ (by decide)]
    decide

theorem State.get_regime_toFallback {reason t : Nat} (h : u.mac.trains = []) :
    (u.toFallback reason t).get Pg.MAC MAC.REGIME = 1 := by
  have hpaused : (((u.put Pg.MAC MAC.REGIME 1).put Pg.MAC MAC.REASON reason).setLnkPause true).get Pg.MAC MAC.REGIME = 1 := by
    rw [State.setLnkPause, State.withLink_get, State.get_put_beside _ _ _ _ _ (by decide),
      State.get_put_same _ _ _ _ (by decide)]
    decide
  rw [State.toFallback_of_noTrains h, onlyIf]
  split
  · rw [State.get_event_beside _ _ _ _ (by decide), hpaused]
  · exact hpaused

theorem State.lnkPause_toFallback {reason t : Nat} (h : u.mac.trains = []) : (u.toFallback reason t).wad.lnkPause = true := by
  rw [State.toFallback_of_noTrains h, onlyIf]
  split
  · rw [State.event_wad]; rfl
  · rfl

end

/-! ### Stops of link firmware (R17, R250, R251, R254) -/

section
variable {s : State} {st t : Nat} {stop : Option Nat} {auto : Bool}

/-- What link firmware keeps when it stops: the frames that waited for it are dropped. -/
def LnkSt.stopped (t : Nat) (l : LnkSt) : LnkSt := { l with inbox := [], stoppedAt := t }

theorem LnkSt.stopped_mb (l : LnkSt) : (l.stopped t).mb = l.mb := rfl
theorem LnkSt.stopped_inbox (l : LnkSt) : (l.stopped t).inbox = [] := rfl

/-- The registers of page LNK show a stop. -/
def State.stopShown (st : Nat) (s : State) : State :=
  ((s.put Pg.LNK LNK.FW_STATE st).put Pg.LNK LNK.FW_VERSION 0).event Pg.LNK LNK.EV_FW_STOPPED

/-- Link firmware is stopped; medium access has not followed yet. -/
def State.linkStopped (st : Nat) (stop : Option Nat) (t : Nat) (s : State) : State :=
  let u := s.stopShown st
  u.withLink { u.sec with stopAt := stop } (u.lnk.stopped t) { u.wad with lnkPause := true }

theorem State.dropMailbox_of_none (h : s.lnk.mb = none) : s.dropMailbox = s := by
  unfold State.dropMailbox; rw [h]

/-- No core claim waits for link firmware. -/
theorem State.grantClaims_of_none (h : ∀ k, k < 32 → s.get (Pg.SEIF k) SEIF.OWNER ≠ 2) : s.grantClaims = s := by
  have hnone : ((List.range 32).filter fun k => decide (s.get (Pg.SEIF k) SEIF.OWNER = 2) && s.domOn (64 + k)) = [] := by
    rw [List.filter_eq_nil_iff]
    intro k hk
    simp [h k (List.mem_range.mp hk)]
  unfold State.grantClaims
  rw [hnone]
  rfl

/-- A register of page LNK is none of another page. -/
theorem State.get_linkStopped_other {pg : Nat} {f : Fld} (hp : pg ≠ Pg.LNK) (hf : f.off < 4096) :
    (s.linkStopped st stop t).get pg f = s.get pg f := by
  have haddr : ∀ off, off < 4096 → addrOf Pg.LNK off ≠ addrOf pg f.off := fun off ho h => hp (addrOf_inj ho hf h).1.symm
  rw [State.linkStopped, State.withLink_get, State.stopShown, State.get_event_other _ (haddr _ (by decide)),
    State.get_put_other _ _ (haddr _ (by decide)), State.get_put_other _ _ (haddr _ (by decide))]

theorem State.get_linkStopped_beside {f : Fld}
    (h : LNK.FW_STATE.off ≠ f.off ∧ LNK.FW_VERSION.off ≠ f.off ∧ CMN.EVENTS ≠ f.off) :
    (s.linkStopped st stop t).get Pg.LNK f = s.get Pg.LNK f := by
  obtain ⟨hstate, hversion, hevents⟩ := h
  rw [State.linkStopped, State.withLink_get, State.stopShown, State.get_event_beside _ _ _ _ hevents,
    State.get_put_other _ _ (addrOf_ne hversion), State.get_put_other _ _ (addrOf_ne hstate)]

theorem State.fwState_linkStopped (h : st < 8) : (s.linkStopped st stop t).fwState = st := by
  rw [State.fwState, State.linkStopped, State.withLink_get, State.stopShown, State.get_event_beside _ _ _ _ (by decide),
    State.get_put_beside _ _ _ _ _ (by decide), State.get_put_same _ _ _ _ (by decide)]
  exact Nat.mod_eq_of_lt h

theorem State.get_linkStopped_stopped : (s.linkStopped st stop t).get Pg.LNK LNK.EV_FW_STOPPED = 1 := by
  rw [State.linkStopped, State.withLink_get]
  exact State.get_event_same _ _ _ rfl rfl (by decide)

/-- An event that has been raised stays. -/
theorem State.get_linkStopped_mbDone : (s.linkStopped st stop t).get Pg.LNK LNK.EV_MB_DONE = s.get Pg.LNK LNK.EV_MB_DONE := by
  rw [State.linkStopped, State.withLink_get, State.stopShown, State.get_event_apart _ rfl rfl (by decide) (by decide),
    State.get_put_beside _ _ _ _ _ (by decide), State.get_put_beside _ _ _ _ _ (by decide)]

/-- The registers in which a stop of link firmware shows, beside those of an answer to HALT. -/
def stopRegs : List (Nat × Nat) := [(Pg.LNK, LNK.FW_STATE.off), (Pg.LNK, LNK.FW_VERSION.off), (Pg.LNK, CMN.EVENTS),
  (Pg.MAC, MAC.REGIME.off), (Pg.MAC, CMN.EVENTS)]

theorem State.LinkOnly.linkStopped {touched : Nat → Prop} {b : State} (h : b.LinkOnly touched s)
    (ht : ∀ e, e ∈ stopRegs → touched (addrOf e.1 e.2)) : b.LinkOnly touched (s.linkStopped st stop t) := by
  have hstate := ht (Pg.LNK, LNK.FW_STATE.off) (by decide)
  have hversion := ht (Pg.LNK, LNK.FW_VERSION.off) (by decide)
  have hevents := ht (Pg.LNK, CMN.EVENTS) (by decide)
  exact (((h.put _ hstate).put _ hversion).event hevents).withLink _ _ _

theorem State.linkStopped_mac : (s.linkStopped st stop t).mac = s.mac := by
  rw [State.linkStopped, State.withLink_mac, State.stopShown, State.event_mac, State.put_mac, State.put_mac]

theorem State.linkStopped_mb : (s.linkStopped st stop t).lnk.mb = s.lnk.mb := by
  rw [State.linkStopped, State.withLink_lnk, LnkSt.stopped_mb, State.stopShown, State.event_lnk, State.put_lnk,
    State.put_lnk]

end

/-- Nothing waits for link firmware that its stop would have to answer: no mailbox command, no core claim, no wake train. -/
structure State.LinkQuiet (s : State) : Prop where
  mb : s.lnk.mb = none
  claims : ∀ k, k < 32 → s.get (Pg.SEIF k) SEIF.OWNER ≠ 2
  trains : s.mac.trains = []

section
variable {s : State} {st t : Nat} {auto : Bool} {stop : Option Nat}

/-- Medium access follows a stop into FALLBACK unless it stands there. -/
theorem State.fwStop_of_quiet (h : s.LinkQuiet) (hs : (if auto then some t else none) = stop) :
    s.fwStop st auto t = if (s.linkStopped st stop t).get Pg.MAC MAC.REGIME = 0 then
      (s.linkStopped st stop t).toFallback Why.LNK_STOPPED t else s.linkStopped st stop t := by
  subst hs
  have hmb := State.dropMailbox_of_none
    ((State.linkStopped_mb (s := s) (st := st) (stop := if auto then some t else none) (t := t)).trans h.mb)
  have hclaims := State.grantClaims_of_none (s := s.linkStopped st (if auto then some t else none) t) fun k hk => by
    rw [State.get_linkStopped_other (by show 256 + k ≠ 176; omega) (by decide)]
    exact h.claims k hk
  have hstop : s.fwStop st auto t =
      (fun u : State => if u.get Pg.MAC MAC.REGIME = 0 then u.toFallback Why.LNK_STOPPED t else u)
        (s.linkStopped st (if auto then some t else none) t).dropMailbox.grantClaims := rfl
  rw [hstop, hmb, hclaims]

/-- What a stop moves beside the state, the version and the event of link firmware. -/
theorem State.fwStop_keeps (h : s.LinkQuiet) (hs : (if auto then some t else none) = stop) :
    (s.linkStopped st stop t).RegimeMoved (s.fwStop st auto t) ∧ (s.fwStop st auto t).get Pg.MAC MAC.REGIME = 1 ∧
      (s.fwStop st auto t).wad.lnkPause = true := by
  have htrains : (s.linkStopped st stop t).mac.trains = [] := by rw [State.linkStopped_mac, h.trains]
  rw [State.fwStop_of_quiet h hs]
  split
  · exact ⟨State.regimeMoved_toFallback htrains, State.get_regime_toFallback htrains, State.lnkPause_toFallback htrains⟩
  case isFalse hn => exact ⟨State.RegimeMoved.refl _, State.get_eq_one_of_flag rfl (decide_eq_true hn), rfl⟩

end

section
variable {s : State} {st t : Nat} {auto : Bool} {stop : Option Nat}

/-- What a quiet stop of link firmware shows. -/
structure State.StoppedAs (st : Nat) (stop : Option Nat) (v : State) : Prop where
  state : v.fwState = st
  stopped : v.get Pg.LNK LNK.EV_FW_STOPPED = 1
  regime : v.get Pg.MAC MAC.REGIME = 1
  pause : v.wad.lnkPause = true
  inbox : v.lnk.inbox = []
  stop : v.sec.stopAt = stop

theorem State.StoppedAs.settle {v : State} (h : v.StoppedAs st stop) : v.settle.StoppedAs st stop := by
  refine ⟨?_, ?_, ?_, ?_, ?_, ?_⟩
  · exact (State.get_settle_beside v (by decide) (by decide)).trans h.state
  · exact (State.get_settle_beside v (by decide) (by decide)).trans h.stopped
  · exact (State.get_settle_beside v (by decide) (by decide)).trans h.regime
  · rw [State.settle_wad, h.pause]
  · rw [State.settle_inbox, h.inbox]
  · rw [State.settle_sec, h.stop]

theorem State.fwStop_stoppedAs (h : s.LinkQuiet) (hs : (if auto then some t else none) = stop) (hst : st < 8) :
    (s.fwStop st auto t).StoppedAs st stop := by
  obtain ⟨hmoved, hregime, hpause⟩ := State.fwStop_keeps (st := st) h hs
  refine ⟨?_, ?_, hregime, hpause, ?_, ?_⟩
  · exact (hmoved.get _ _ (by decide) (by decide)).trans (State.fwState_linkStopped hst)
  · exact (hmoved.get _ _ (by decide) (by decide)).trans State.get_linkStopped_stopped
  · rw [hmoved.lnk, State.linkStopped, State.withLink_lnk, LnkSt.stopped_inbox]
  · rw [hmoved.sec, State.linkStopped, State.withLink_sec]

theorem State.LinkOnly.fwStop {touched : Nat → Prop} {b : State} (hb : b.LinkOnly touched s) (h : s.LinkQuiet)
    (ht : ∀ e, e ∈ stopRegs → touched (addrOf e.1 e.2)) : b.LinkOnly touched (s.fwStop st auto t) :=
  have hregime := ht (Pg.MAC, MAC.REGIME.off) (by decide)
  have hevents := ht (Pg.MAC, CMN.EVENTS) (by decide)
  (State.fwStop_keeps h rfl).1.frame touched b (hb.linkStopped ht) hregime hevents

/-- A missed heartbeat or a fault stops running link firmware, and Oasis may restart it (R425). -/
theorem exec_stop_by_itself {tick : Nat} (h : s.LinkQuiet) {c : Instr}
    (hc : exec c s = finish ((s.atTick tick).fwStop FW.STOPPED true tick)) :
    ∃ t, exec c s = .next t ∧ t.fwState = FW.STOPPED ∧ t.get Pg.LNK LNK.EV_FW_STOPPED = 1 ∧ t.get Pg.MAC MAC.REGIME = 1 ∧
      t.wad.lnkPause = true ∧ t.lnk.inbox = [] ∧ t.sec.stopAt = some tick ∧
      State.RegsOnly (regsAt stopRegs) { s.atTick tick with sec := t.sec, lnk := t.lnk, wad := t.wad } t := by
  have hq : (s.atTick tick).LinkQuiet := ⟨h.mb, h.claims, h.trains⟩
  obtain ⟨hstate, hstopped, hregime, hpause, hinbox, hstop⟩ :=
    (State.fwStop_stoppedAs (st := FW.STOPPED) (auto := true) (t := tick) hq rfl (by decide)).settle
  have hframe : (s.atTick tick).LinkOnly (regsAt stopRegs) ((s.atTick tick).fwStop FW.STOPPED true tick) :=
    (State.linkOnly_refl _ _).fwStop hq fun _ he => regsAt_of_mem he
  exact ⟨_, hc, hstate, hstopped, hregime, hpause, hinbox, hstop, hframe.settle.regsOnly⟩

theorem exec_lnkWatchdogExpiry {tick : Nat} (hfw : s.fwRunning = true)
    (hlate : s.lnk.hbAt + msTicks (s.get Pg.LNK LNK.WD_MS) ≤ tick) :
    exec (.lnkWatchdogExpiry tick) s = finish ((s.atTick tick).fwStop FW.STOPPED true tick) := by
  have hc : (s.fwRunning && decide (s.lnk.hbAt + msTicks (s.get Pg.LNK LNK.WD_MS) ≤ tick)) = true := by
    rw [hfw, decide_eq_true hlate]; rfl
  exact congrArg finish (if_pos hc)

theorem exec_lnkFault (tick : Nat) (hfw : s.fwRunning = true) :
    exec (.lnkFault tick) s = finish ((s.atTick tick).fwStop FW.STOPPED true tick) :=
  congrArg finish (if_pos hfw)

/-- HALT has been answered; link firmware has not stopped yet. -/
def State.haltAnswered (tag : Nat) (s : State) : State :=
  ((s.put Pg.LNK LNK.MB_TAG tag).put Pg.LNK LNK.RESULT MB.OK).event Pg.LNK LNK.EV_MB_DONE

theorem State.LinkQuiet.haltAnswered (h : s.LinkQuiet) (tag : Nat) : (s.haltAnswered tag).LinkQuiet := by
  refine ⟨?_, fun k hk => ?_, ?_⟩
  · rw [State.haltAnswered, State.event_lnk, State.put_lnk, State.put_lnk, h.mb]
  · have haddr : ∀ off, off < 4096 → addrOf Pg.LNK off ≠ addrOf (Pg.SEIF k) SEIF.OWNER.off := fun off ho he => by
      have hpg : 176 = 256 + k := (addrOf_inj ho (by decide) he).1
      omega
    rw [State.haltAnswered, State.get_event_other _ (haddr _ (by decide)), State.get_put_other _ _ (haddr _ (by decide)),
      State.get_put_other _ _ (haddr _ (by decide))]
    exact h.claims k hk
  · rw [State.haltAnswered, State.event_mac, State.put_mac, State.put_mac, h.trains]

/-- The registers in which HALT shows. -/
def haltRegs : List (Nat × Nat) := [(Pg.LNK, LNK.FW_STATE.off), (Pg.LNK, LNK.FW_VERSION.off), (Pg.LNK, CMN.EVENTS),
  (Pg.LNK, LNK.RESULT.off), (Pg.MAC, MAC.REGIME.off), (Pg.MAC, CMN.EVENTS)]

/-- HALT is answered OK and stops link firmware for good (R17, R250). -/
theorem exec_lnkHalt_stops (tag : Byte) (hr : s.Reaches Pg.LNK) (hfw : s.fwRunning = true) (h : s.LinkQuiet) :
    ∃ t, exec (.lnkHalt tag) s = .next t ∧ t.fwState = FW.HALTED ∧ t.get Pg.LNK LNK.RESULT = MB.OK ∧
      t.get Pg.LNK LNK.MB_TAG = tag.toNat ∧ t.get Pg.LNK LNK.EV_MB_DONE = 1 ∧ t.get Pg.LNK LNK.EV_FW_STOPPED = 1 ∧
      t.get Pg.MAC MAC.REGIME = 1 ∧ t.wad.lnkPause = true ∧ t.lnk.inbox = [] ∧ t.sec.stopAt = none ∧
      State.RegsOnly (regsAt haltRegs) { s with sec := t.sec, lnk := t.lnk, wad := t.wad } t := by
  have hq : (s.haltAnswered tag.toNat).LinkQuiet := h.haltAnswered tag.toNat
  have hexec : exec (.lnkHalt tag) s = .next ((s.haltAnswered tag.toNat).fwStop FW.HALTED false s.time).settle := by
    have hcmd : s.mbCmd 0x02 tag.toNat [] = (s.haltAnswered tag.toNat).fwStop FW.HALTED false s.time := State.mbCmd_halt h.mb hfw
    exact hcmd ▸ finish_mbCmd hr _ _ _
  obtain ⟨hstate, hstopped, hregime, hpause, hinbox, hstop⟩ :=
    (State.fwStop_stoppedAs (st := FW.HALTED) (auto := false) (t := s.time) hq rfl (by decide)).settle
  have hmoved := (State.fwStop_keeps (st := FW.HALTED) (auto := false) (t := s.time) hq rfl).1
  have hframe : s.LinkOnly (regsAt haltRegs) ((s.haltAnswered tag.toNat).fwStop FW.HALTED false s.time) := by
    refine State.LinkOnly.fwStop ?_ hq fun e he => regsAt_of_mem ?_
    · have htag : regsAt haltRegs (addrOf Pg.LNK LNK.MB_TAG.off) := regsAt_of_mem (by decide)
      have hresult : regsAt haltRegs (addrOf Pg.LNK LNK.RESULT.off) := regsAt_of_mem (by decide)
      exact (((State.linkOnly_refl _ s).put _ htag).put _ hresult).event (regsAt_of_mem (by decide))
    · exact (show stopRegs ⊆ haltRegs by decide) he
  refine ⟨_, hexec, hstate, ?_, ?_, ?_, hstopped, hregime, hpause, hinbox, hstop, hframe.settle.regsOnly⟩
  all_goals refine (State.get_settle_beside _ (by decide) (by decide)).trans ((hmoved.get _ _ (by decide) (by decide)).trans ?_)
  · rw [State.get_linkStopped_beside (by decide), State.haltAnswered, State.get_event_beside _ _ _ _ (by decide),
      State.get_put_same _ _ _ _ (by decide)]
    decide
  · rw [State.get_linkStopped_beside (by decide), State.haltAnswered, State.get_event_beside _ _ _ _ (by decide),
      State.get_put_beside _ _ _ _ _ (by decide), State.get_put_same _ _ _ _ (by decide)]
    exact Nat.mod_eq_of_lt tag.isLt
  · rw [State.get_linkStopped_mbDone]
    exact State.get_event_same _ _ _ rfl rfl (by decide)

end

/-! ### Link firmware starts to run (R209, R248, R424) -/

/-- A session after link firmware has stood still for `stopped` ticks until `t`: timers go on, and what the head-end sends is
suspended (R248). -/
def Sess.afterStop (t stopped : Nat) (x : Sess) : Sess :=
  if x.rx then { x with lastRx := x.lastRx + stopped }
  else if x.state = .suspended then { x with suspAt := x.suspAt + stopped, queryAt := x.queryAt + stopped }
  else { x with state := .suspended, suspAt := t, queryAt := t, waitFrom := none, queries := 0, sent := [] }

theorem Sess.afterStop_suspended (t stopped : Nat) {x : Sess} (h : x.rx = false) :
    (x.afterStop t stopped).state = .suspended := by
  unfold Sess.afterStop
  rw [if_neg (by rw [h]; decide)]
  split
  · assumption
  · rfl

theorem Tab.find?_map {α β : Type} (g : α → β) (t : Tab α) (k : Nat) :
    Tab.find? (t.map fun e => (e.1, g e.2)) k = (Tab.find? t k).map g := by
  induction t with
  | nil => rfl
  | cons e t ih =>
    rw [List.map_cons, Tab.find?_cons, Tab.find?_cons, ih]
    split <;> rfl

/-- Sessions that all change in one way. -/
theorem Tab.get_none_map {α : Type} (g : α → α) (t : Tab (Option α)) (k : Nat) :
    Tab.get (fun _ => none) (t.map fun e => (e.1, e.2.map g)) k = (Tab.get (fun _ => none) t k).map g := by
  unfold Tab.get
  rw [Tab.find?_map (Option.map g)]
  cases Tab.find? t k <;> rfl

section
variable {s : State} {t : Nat} {version : Word}

/-- The registers show that link firmware runs. -/
def State.runShown (version : Word) (s : State) : State :=
  (((s.put Pg.LNK LNK.FW_STATE FW.RUNNING).put Pg.LNK LNK.FW_VERSION version.toNat).event Pg.LNK LNK.EV_FW_RUNNING).stage 0x70

/-- Link firmware runs again; medium access has not followed yet. -/
def State.linkRuns (t : Nat) (version : Word) (s : State) : State :=
  (s.runShown version).modLnk fun l => { l with
    hbAt := t, sess := l.sess.map fun e => (e.1, e.2.map (Sess.afterStop t (t - s.lnk.stoppedAt))) }

theorem State.fwRuns_eq : s.fwRuns t version =
    if (s.linkRuns t version).flag Pg.MAC MAC.FORCE_FALLBACK then s.linkRuns t version
      else (s.linkRuns t version).toNormal := rfl

/-- Medium access follows a report of link firmware into NORMAL, if at all. -/
theorem State.fwRuns_moved : (s.linkRuns t version).RegimeMoved (s.fwRuns t version) := by
  rw [State.fwRuns_eq]
  split
  · exact State.RegimeMoved.refl _
  · exact State.regimeMoved_toNormal _

theorem State.get_linkRuns_mac {f : Fld} (hf : f.off < 4096) : (s.linkRuns t version).get Pg.MAC f = s.get Pg.MAC f := by
  have haddr : ∀ pg off, pg ≠ Pg.MAC → off < 4096 → addrOf pg off ≠ addrOf Pg.MAC f.off :=
    fun pg off hp ho h => hp (addrOf_inj ho hf h).1
  rw [State.linkRuns, State.modLnk_get, State.runShown, State.stage, State.get_put_other _ _ (haddr _ _ (by decide) (by decide)),
    State.get_event_other _ (haddr _ _ (by decide) (by decide)), State.get_put_other _ _ (haddr _ _ (by decide) (by decide)),
    State.get_put_other _ _ (haddr _ _ (by decide) (by decide))]

theorem State.fwState_linkRuns : (s.linkRuns t version).fwState = FW.RUNNING := by
  rw [State.fwState, State.linkRuns, State.modLnk_get, State.runShown, State.stage, State.get_put_other _ _ (by decide),
    State.get_event_beside _ _ _ _ (by decide), State.get_put_beside _ _ _ _ _ (by decide),
    State.get_put_same _ _ _ _ (by decide)]
  decide

theorem State.version_linkRuns : (s.linkRuns t version).get Pg.LNK LNK.FW_VERSION = version.toNat := by
  rw [State.linkRuns, State.modLnk_get, State.runShown, State.stage, State.get_put_other _ _ (by decide),
    State.get_event_beside _ _ _ _ (by decide), State.get_put_same _ _ _ _ (by decide)]
  exact Nat.mod_eq_of_lt version.isLt

theorem State.event_linkRuns : (s.linkRuns t version).get Pg.LNK LNK.EV_FW_RUNNING = 1 := by
  rw [State.linkRuns, State.modLnk_get, State.runShown, State.stage, State.get_put_other _ _ (by decide)]
  exact State.get_event_same _ _ _ rfl rfl (by decide)

theorem State.stage_linkRuns : (s.linkRuns t version).get Pg.RST RST.BOOT_STAGE = 0x70 := by
  rw [State.linkRuns, State.modLnk_get, State.runShown, State.stage, State.get_put_same _ _ _ _ (by decide)]
  decide

theorem State.sec_linkRuns : (s.linkRuns t version).sec = s.sec := by
  rw [State.linkRuns, State.modLnk_sec, State.runShown, State.stage, State.put_sec, State.event_sec, State.put_sec,
    State.put_sec]

theorem State.sess_linkRuns (h : Nat) :
    (s.linkRuns t version).sess h = (s.sess h).map (Sess.afterStop t (t - s.lnk.stoppedAt)) := by
  have hlnk : (s.runShown version).lnk = s.lnk := by
    rw [State.runShown, State.stage, State.put_lnk, State.event_lnk, State.put_lnk, State.put_lnk]
  have hsess : (s.linkRuns t version).lnk.sess =
      (s.runShown version).lnk.sess.map fun e => (e.1, e.2.map (Sess.afterStop t (t - s.lnk.stoppedAt))) := rfl
  unfold State.sess
  rw [hsess, hlnk, Tab.get_none_map]

/-- The registers in which a report of link firmware shows. -/
def runRegs : List (Nat × Nat) := [(Pg.LNK, LNK.FW_STATE.off), (Pg.LNK, LNK.FW_VERSION.off), (Pg.LNK, CMN.EVENTS),
  (Pg.RST, RST.BOOT_STAGE.off), (Pg.MAC, MAC.REGIME.off), (Pg.MAC, CMN.EVENTS)]

theorem State.linkOnly_fwRuns : s.LinkOnly (regsAt runRegs) (s.fwRuns t version) := by
  have hruns : s.LinkOnly (regsAt runRegs) (s.linkRuns t version) := by
    have hstate : regsAt runRegs (addrOf Pg.LNK LNK.FW_STATE.off) := regsAt_of_mem (by decide)
    have hversion : regsAt runRegs (addrOf Pg.LNK LNK.FW_VERSION.off) := regsAt_of_mem (by decide)
    have hevents : regsAt runRegs (addrOf Pg.LNK CMN.EVENTS) := regsAt_of_mem (by decide)
    have hstage : regsAt runRegs (addrOf Pg.RST RST.BOOT_STAGE.off) := regsAt_of_mem (by decide)
    exact (((((State.linkOnly_refl _ s).put _ hstate).put _ hversion).event hevents).put _ hstage).modLnk _
  exact State.fwRuns_moved.frame _ _ hruns (regsAt_of_mem (by decide)) (regsAt_of_mem (by decide))

/-- The regime of medium access after a report of link firmware (R209). -/
theorem State.get_regime_fwRuns : (s.fwRuns t version).get Pg.MAC MAC.REGIME =
    if s.flag Pg.MAC MAC.FORCE_FALLBACK then s.get Pg.MAC MAC.REGIME else 0 := by
  have hflag : (s.linkRuns t version).flag Pg.MAC MAC.FORCE_FALLBACK = s.flag Pg.MAC MAC.FORCE_FALLBACK := by
    unfold State.flag
    rw [State.get_linkRuns_mac (by decide)]
  rw [State.fwRuns_eq, hflag]
  split
  · exact State.get_linkRuns_mac (by decide)
  · exact State.get_regime_toNormal _

end

/-- The report of booted link firmware. -/
theorem exec_lnkReportsRunning_runs {s : State} (tick : Nat) (version : Word) (h : s.fwState = FW.BOOTING) :
    ∃ t, exec (.lnkReportsRunning tick version) s = .next t ∧ t.fwState = FW.RUNNING ∧
      t.get Pg.LNK LNK.FW_VERSION = version.toNat ∧ t.get Pg.LNK LNK.EV_FW_RUNNING = 1 ∧ t.get Pg.RST RST.BOOT_STAGE = 0x70 ∧
      (s.flag Pg.MAC MAC.FORCE_FALLBACK = false → t.get Pg.MAC MAC.REGIME = 0) ∧
      (s.flag Pg.MAC MAC.FORCE_FALLBACK = true → t.get Pg.MAC MAC.REGIME = s.get Pg.MAC MAC.REGIME) ∧
      (∀ h x, s.sess h = some x → x.rx = false → (t.sess h).map (·.state) = some .suspended) ∧
      State.RegsOnly (regsAt runRegs) { s.atTick tick with lnk := t.lnk, wad := t.wad } t := by
  have hexec : exec (.lnkReportsRunning tick version) s = .next ((s.atTick tick).fwRuns tick version).settle :=
    congrArg finish (if_pos (decide_eq_true h))
  have hmoved := State.fwRuns_moved (s := s.atTick tick) (t := tick) (version := version)
  have hregime := State.get_regime_fwRuns (s := s.atTick tick) (t := tick) (version := version)
  have hget : ∀ pg (f : Fld), (pg ≠ Pg.GLB ∧ pg ≠ Pg.HIF) ∧ pg ≠ Pg.MAC → f.off < 4096 →
      ((s.atTick tick).fwRuns tick version).settle.get pg f = ((s.atTick tick).linkRuns tick version).get pg f :=
    fun pg f hp hf => (State.get_settle_beside _ hp.1 hf).trans (hmoved.get _ _ hp.2 hf)
  refine ⟨_, hexec, ?_, ?_, ?_, ?_, fun hforce => ?_, fun hforce => ?_, fun h x hx hrx => ?_,
    State.linkOnly_fwRuns.settle.regsOnly_lnk_wad ?_⟩
  · exact (hget _ _ (by decide) (by decide)).trans State.fwState_linkRuns
  · exact (hget _ _ (by decide) (by decide)).trans State.version_linkRuns
  · exact (hget _ _ (by decide) (by decide)).trans State.event_linkRuns
  · exact (hget _ _ (by decide) (by decide)).trans State.stage_linkRuns
  · rw [State.get_settle_beside _ (by decide) (by decide), hregime, State.atTick_flag, hforce]
    rfl
  · rw [State.get_settle_beside _ (by decide) (by decide), hregime, State.atTick_flag, hforce]
    rfl
  · have hsess : ((s.atTick tick).fwRuns tick version).settle.sess h = ((s.atTick tick).linkRuns tick version).sess h := by
      unfold State.sess
      rw [State.settle_sess, hmoved.lnk]
    have hx' : (s.atTick tick).sess h = some x := hx
    rw [hsess, State.sess_linkRuns, hx', Option.map_some, Option.map_some, Sess.afterStop_suspended _ _ hrx]
  · rw [State.settle_sec, hmoved.sec, State.sec_linkRuns]

/-! ### Reads of EVT_DATA (R251) -/

@[simp] theorem State.settle_evtRead (s : State) : s.settle.lnk.evtRead = s.lnk.evtRead := by
  rw [(State.settle_settled s).rest]; rfl

@[simp] theorem State.settle_hbAt (s : State) : s.settle.lnk.hbAt = s.lnk.hbAt := by
  rw [(State.settle_settled s).rest]; rfl

section
variable {s : State} {e : List Word} {rest : List (List Word)} (he : s.lnk.events = e :: rest)
include he

theorem State.evtRead_of_more (hi : s.lnk.evtRead < 7) :
    s.evtRead = (s.answer (e.getD s.lnk.evtRead 0)).modLnk fun l => { l with evtRead := s.lnk.evtRead + 1 } := by
  unfold State.evtRead
  rw [he]
  exact if_pos hi

/-- With its last word an event leaves the FIFO. -/
theorem State.evtRead_of_last (hi : 7 ≤ s.lnk.evtRead) (hlost : s.lnk.evtLost = 0) :
    s.evtRead = (s.answer (e.getD s.lnk.evtRead 0)).modLnk fun l => { l with events := rest, evtRead := 0, evtLost := 0 } := by
  unfold State.evtRead
  rw [he]
  exact (if_neg (by omega)).trans (if_pos hlost)

/-- A read of EVT_DATA answers the next word and touches no register, no queue and no byte of DRAM. -/
theorem exec_evtDataRead_returns (hr : s.Reaches Pg.LNK) (hlost : s.lnk.evtLost = 0) :
    ∃ t, exec .evtDataRead s = .next t ∧ t.host.rdata = e.getD s.lnk.evtRead 0 ∧
      (s.lnk.evtRead < 7 → t.lnk.events = s.lnk.events ∧ t.lnk.evtRead = s.lnk.evtRead + 1) ∧
      (7 ≤ s.lnk.evtRead → t.lnk.events = rest ∧ t.lnk.evtRead = 0) ∧
      s.RegsKept (fun _ => False) t ∧ t.wad = s.wad ∧ s.DramKept t := by
  have hexec : exec .evtDataRead s = .next s.evtRead.settle := by
    show finish (s.hostRead Pg.LNK State.evtRead) = _
    rw [State.hostRead, hr.spiDrain, State.pageRead_reaches _ hr]; rfl
  refine ⟨_, hexec, ?_⟩
  rw [State.settle_rdata, State.settle_events, State.settle_evtRead, State.settle_wad]
  have hkept : ∀ f, s.RegsKept (fun _ => False) ((s.answer (e.getD s.lnk.evtRead 0)).modLnk f).settle :=
    fun f => State.regsKept_settle fun _ _ _ _ => rfl
  have hdram : ∀ f, s.DramKept ((s.answer (e.getD s.lnk.evtRead 0)).modLnk f).settle :=
    fun f a => State.settle_dramByte _ a
  by_cases hi : s.lnk.evtRead < 7
  · rw [State.evtRead_of_more he hi]
    exact ⟨rfl, fun _ => ⟨rfl, rfl⟩, fun hn => absurd hi (by omega), hkept _, rfl, hdram _⟩
  · rw [State.evtRead_of_last he (by omega) hlost]
    exact ⟨rfl, fun hn => absurd hn hi, fun _ => ⟨rfl, rfl⟩, hkept _, rfl, hdram _⟩

end

/-! ### What link firmware submits (R253, R258) -/

theorem Tab.set_nil {α : Type} [DecidableEq α] {d : Nat → α} {k : Nat} {v : α} (h : v ≠ d k) : Tab.set d [] k v = [(k, v)] :=
  if_neg h

theorem Tab.set_singleton {α : Type} [DecidableEq α] {d : Nat → α} {k : Nat} {u v : α} (h : v ≠ d k) :
    Tab.set d [(k, u)] k v = [(k, v)] :=
  (if_neg h).trans (if_pos rfl)

/-- An open queue is not one after reset. -/
theorem Queue.ne_idle_of_isOpen {q : Queue} (h : q.isOpen = true) : q ≠ Queue.idle := by
  rintro rfl
  cases h

/-- The queue that link firmware describes anew for an address, a transmit channel and a class. -/
def linkQueueFor (a p k cls : Nat) : Queue :=
  { Queue.idle with
    d14 := WQD.TXCH.ins (WQD.PORT.ins (WQD.CLASS.ins Queue.idle.d14 cls) p) k, d18 := WQD.DST.ins Queue.idle.d18 a, isOpen := true }

theorem cls_linkQueueFor (a p k : Nat) {cls : Nat} (h : cls < 4) : (linkQueueFor a p k cls).cls = cls := by
  show WQD.CLASS.of (WQD.TXCH.ins (WQD.PORT.ins (WQD.CLASS.ins Queue.idle.d14 cls) p) k) = cls
  rw [Fld.of_ins_apart _ _ _ _ (by decide) (.inl (by decide)), Fld.of_ins_apart _ _ _ _ (by decide) (.inl (by decide)),
    Fld.of_ins _ _ _ (by decide)]
  exact Nat.mod_eq_of_lt h

theorem dst_linkQueueFor (p k cls : Nat) {a : Nat} (h : a < 4096) : (linkQueueFor a p k cls).dst = a := by
  show WQD.DST.of (WQD.DST.ins Queue.idle.d18 a) = a
  rw [Fld.of_ins _ _ _ (by decide)]
  exact Nat.mod_eq_of_lt h

theorem capacity_linkQueueFor (a p k cls : Nat) : (linkQueueFor a p k cls).capacity = 256 := by
  show WQD.CAPACITY.of Queue.idle.d1C = 256
  decide

/-- Header word 0 of a frame of link firmware. -/
def linkHeader (ackReq sec more : Bool) : Word := BitVec.ofNat 32 (ackReq.toNat * 2 ^ 8 + sec.toNat * 2 ^ 9 + more.toNat * 2 ^ 10)

/-- Link firmware leaves the mode to its queue (R256). -/
theorem hdrBits_linkHeader {m : Msg} {ackReq sec more : Bool} {l : List Word} (h : m.hdr = linkHeader ackReq sec more :: l) :
    hdrBits m 0 11 1 = 0 := by
  have hbit : ∀ b c d : Bool, (linkHeader b c d).toNat / 2 ^ 11 % 2 ^ 1 = 0 := by decide
  unfold hdrBits
  rw [h]
  exact hbit _ _ _

section
variable {s : State}

theorem State.queue_of_empty (h : s.wad.queues = []) (n : Nat) : s.queue n = Queue.idle := by
  unfold State.queue; rw [h]; rfl

/-- With every queue empty link firmware takes its first one. -/
theorem State.fwPush_of_empty (h : s.wad.queues = []) (a p k ftype cls : Nat) (sec ackReq more : Bool) (payload : List Byte) :
    s.fwPush a p k ftype cls sec ackReq more payload =
      ((s.setQueue 8128 (linkQueueFor a p k cls)).submit 8128 [linkHeader ackReq sec more, 0, 0, 0] payload ftype true).2 := by
  have hnone : ∀ d14 d18 : Word, (linkQueues.find? fun n =>
      (s.queue n).isOpen && decide ((s.queue n).d14 = d14) && decide ((s.queue n).d18 = d18)) = none := by
    intro d14 d18
    rw [List.find?_eq_none]
    intro n _
    rw [State.queue_of_empty h]
    exact Bool.false_ne_true
  have hfirst : (linkQueues.find? fun n => decide ((s.queue n).msgs = [])) = some 8128 := by
    refine List.find?_cons_of_pos ?_
    rw [State.queue_of_empty h]
    rfl
  unfold State.fwPush
  dsimp only
  rw [hnone, hfirst]
  dsimp only
  rw [State.queue_of_empty h]
  rfl

/-- A normal queue sends where its descriptor says (R252). -/
theorem State.plan_of_normal {n : Nat} (h : s.isRaw n = false) (m : Msg) :
    (s.plan n m).dst = (s.queue n).dst := by
  unfold State.plan
  rw [h]
  rfl

/-- The checks of R258 pass a frame of link firmware that its queue, the pool and a data field have room for. -/
theorem State.submitCheck_passes {n bytes : Nat} {m : Msg} (hopen : (s.queue n).isOpen = true) (hraw : s.isRaw n = false)
    (hmode : hdrBits m 0 11 1 = 0) (hbytes : bytes ≠ 0)
    (hfit : routeBytes (s.routeOf (s.queue n).dst).length + bytes ≤ 232)
    (hroom : (s.queue n).msgs.length < (s.queue n).capacity) (hpool : 0 < s.poolFree)
    (hprof : ∀ j, j < 16 → s.profEn j = false) : s.submitCheck n m bytes true = none := by
  have hprof' : ∀ x, s.flag Pg.DWL (DWL.EN.nth (x % 16)) = false := fun x => hprof _ (Nat.mod_lt _ (by decide))
  unfold State.submitCheck
  dsimp only
  rw [if_neg hbytes, if_neg, if_neg, if_neg, if_neg]
  · simp [hprof']
  · omega
  · simp only [hraw, State.plan_of_normal hraw]
    simp
    omega
  · simp [hopen, hraw, hmode]

end

section
variable {s u : State}

/-- The state after a tag and an acceptance number have been given out (R259). -/
def State.tagged (tag : Nat) (s : State) : State :=
  { s with wad := { s.wad with nextTag := (tag + 1) % 65536, nextOrd := s.wad.nextOrd + 1 } }

/-- The message of a normal queue as it is accepted under a tag (R259, R263). -/
def State.newNormal (n tag : Nat) (hdr : List Word) (payload : List Byte) (ftype : Nat) (s : State) : Msg :=
  let m := newMsg tag hdr payload ftype (s.wad.nextOrd + 1) s.time none
  let dl := (s.tagged tag).deadlineMs n m
  { m with deadline := if (s.queue n).cls = 1 ∧ dl ≠ 0 then some (s.time + msTicks dl) else none, after := 0 }

/-- The state after a message has entered queue n and been counted (R266). -/
def State.enqueued (n : Nat) (q : Queue) (s : State) : State :=
  let u := (s.setQueue n q).count Pg.WAD WAD.ACCEPTED_CNT
  onlyIf (decide (u.poolFree * 16 < u.poolSize)) (State.event Pg.WAD WAD.EV_POOL_LOW) u

theorem State.enqueued_wad (n : Nat) (q : Queue) : (s.enqueued n q).wad = (s.setQueue n q).wad := by
  rw [State.enqueued, onlyIf]
  split
  · rw [State.event_wad, State.count_wad]
  · rw [State.count_wad]

theorem State.enqueued_sec (n : Nat) (q : Queue) : (s.enqueued n q).sec = s.sec := by
  rw [State.enqueued, onlyIf]
  split
  · rw [State.event_sec, State.count_sec, State.setQueue_sec]
  · rw [State.count_sec, State.setQueue_sec]

theorem State.LinkOnly.enqueued {touched : Nat → Prop} (h : u.LinkOnly touched s) (n : Nat) (q : Queue)
    (hcnt : touched (addrOf Pg.WAD WAD.ACCEPTED_CNT.off)) (hevents : touched (addrOf Pg.WAD CMN.EVENTS)) :
    u.LinkOnly touched (s.enqueued n q) :=
  have hqueue : u.LinkOnly touched (s.setQueue n q) := h.withLink _ _ _
  (hqueue.count hcnt).onlyIf ((hqueue.count hcnt).event hevents)

/-- A submission of class 1 to 3 that no check of R258 refuses enters its queue. -/
theorem State.submit_of_passed {n : Nat} {hdr : List Word} {payload : List Byte} {ftype : Nat} {fw : Bool}
    (hcls : (s.queue n).cls ≠ 0)
    (hcheck : ∀ tag ord t, (s.tagged tag).submitCheck n (newMsg tag hdr payload ftype ord t none) payload.length fw = none) :
    ∃ tag, (s.submit n hdr payload ftype fw).2 = (s.tagged tag).enqueued n { s.queue n with
      msgs := (s.queue n).msgs ++ [s.newNormal n tag hdr payload ftype], accepted := (s.queue n).accepted + 1 } := by
  unfold State.submit
  dsimp only
  generalize nextTagFrom ((s.queue n).msgs.map (·.tag)) 65536 s.wad.nextTag = tag
  refine ⟨tag, ?_⟩
  split
  case h_1 code hsome => cases (hcheck tag (s.wad.nextOrd + 1) s.time).symm.trans hsome
  case h_2 =>
    rw [if_neg hcls, if_neg hcls]
    rfl

/-- The size of the pool stands in the region table, on page DRC0 (R412, R454). -/
theorem State.poolSize_congr (h : ∀ off, off < 4096 → u.reg (Pg.DRC 0) off = s.reg (Pg.DRC 0) off) : u.poolSize = s.poolSize := by
  have hget : ∀ (f : Fld) r, f.off + f.step * r < 4096 → u.get (Pg.DRC 0) (f.nth r) = s.get (Pg.DRC 0) (f.nth r) :=
    fun f r hf => congrArg f.of (h _ hf)
  have hrow : ∀ (f : Fld) r, r < 32 → f.off ≤ 0x408 ∧ f.step = 16 → u.get (Pg.DRC 0) (f.nth r) = s.get (Pg.DRC 0) (f.nth r) :=
    fun f r hr hf => hget f r (by rw [hf.2]; omega)
  have hregion : u.regionOf 4 = s.regionOf 4 := by
    refine List.find?_congr fun r hr => ?_
    have hr32 := List.mem_range.mp hr
    unfold State.flag
    rw [hrow _ r hr32 (by decide), hrow _ r hr32 (by decide)]
  unfold State.poolSize
  rw [hregion]
  split
  case h_1 r hr =>
    have hr32 : r < 32 := List.mem_range.mp (List.mem_of_find?_eq_some hr)
    unfold State.regionData State.regionSize State.flag
    rw [hrow _ r hr32 (by decide), hrow _ r hr32 (by decide)]
  case h_2 => rfl

/-- The room in the pool depends on page DRC0 and on Wadi. -/
theorem State.poolFree_congr (h : ∀ off, off < 4096 → u.reg (Pg.DRC 0) off = s.reg (Pg.DRC 0) off) (hwad : u.wad = s.wad) :
    u.poolFree = s.poolFree := by
  unfold State.poolFree State.msgQueued
  rw [State.poolSize_congr h, hwad]

/-- A new queue without messages takes no slot of the pool. -/
theorem State.poolFree_tagged_setQueue (h : s.wad.queues = []) {n : Nat} {q : Queue} (hopen : q.isOpen = true) (hq : q.msgs = [])
    (tag : Nat) : ((s.setQueue n q).tagged tag).poolFree = s.poolFree := by
  have hsize : ((s.setQueue n q).tagged tag).poolSize = s.poolSize := State.poolSize_congr fun _ _ => rfl
  have hset : Tab.set (fun _ => Queue.idle) s.wad.queues n q = [(n, q)] := by
    rw [h]
    exact Tab.set_nil (Queue.ne_idle_of_isOpen hopen)
  have hqueues : ((s.setQueue n q).tagged tag).wad.queues = [(n, q)] := hset
  have hdue : ((s.setQueue n q).tagged tag).wad.due = s.wad.due := rfl
  unfold State.poolFree State.msgQueued
  rw [hsize, hqueues, hdue, h, List.foldl_cons, List.foldl_nil, List.foldl_nil, hq, List.length_nil, Nat.add_zero]

/-- The checks of R258 pass a frame that link firmware can send. -/
theorem State.LinkCanSend.passes {a bytes : Nat} (h : s.LinkCanSend a bytes) (hbytes : bytes ≠ 0) (p k cls tag : Nat) {m : Msg}
    (hmode : hdrBits m 0 11 1 = 0) :
    ((s.setQueue 8128 (linkQueueFor a p k cls)).tagged tag).submitCheck 8128 m bytes true = none := by
  obtain ⟨ha, hempty, hpool, hprof, hraw, hfit⟩ := h
  have hq : ((s.setQueue 8128 (linkQueueFor a p k cls)).tagged tag).queue 8128 = linkQueueFor a p k cls :=
    (State.queue_setQueue s _ _ _).trans (if_pos rfl)
  have hnraw : s.isRaw 8128 = false := by
    refine decide_eq_false fun hr => ?_
    rw [← hr] at hraw
    cases hraw
  refine State.submitCheck_passes ?_ hnraw hmode hbytes ?_ ?_ ?_ hprof
  · rw [hq]; rfl
  · rw [hq, dst_linkQueueFor _ _ _ ha]; exact hfit
  · rw [hq, capacity_linkQueueFor]; exact (by decide : 0 < 256)
  · rw [State.poolFree_tagged_setQueue hempty rfl rfl]; exact hpool

/-- While its queues are empty, link firmware submits one frame of class 1 to 3 through its first one. -/
theorem State.fwPush_sends {a cls : Nat} {payload : List Byte} (h : s.LinkCanSend a payload.length) (hp : payload ≠ [])
    (hcls : 0 < cls ∧ cls < 4) (p k ftype : Nat) (sec ackReq more : Bool) :
    ∃ tag m, s.fwPush a p k ftype cls sec ackReq more payload =
        ((s.setQueue 8128 (linkQueueFor a p k cls)).tagged tag).enqueued 8128
          { linkQueueFor a p k cls with msgs := [m], accepted := 1 } ∧
      m.ftype = ftype ∧ m.payload = payload := by
  obtain ⟨hpos, hlt⟩ := hcls
  have hempty : s.wad.queues = [] := h.2.1
  have hq : (s.setQueue 8128 (linkQueueFor a p k cls)).queue 8128 = linkQueueFor a p k cls :=
    (State.queue_setQueue s _ _ _).trans (if_pos rfl)
  have hn : ((s.setQueue 8128 (linkQueueFor a p k cls)).queue 8128).cls ≠ 0 := by
    rw [hq, cls_linkQueueFor _ _ _ hlt]; omega
  obtain ⟨tag, hsubmit⟩ := State.submit_of_passed (hdr := [linkHeader ackReq sec more, 0, 0, 0])
    (payload := payload) (ftype := ftype) (fw := true) hn fun tag ord t =>
      h.passes (mt List.length_eq_zero_iff.mp hp) p k cls tag (hdrBits_linkHeader rfl)
  rw [hq] at hsubmit
  exact ⟨tag, (s.setQueue 8128 (linkQueueFor a p k cls)).newNormal 8128 tag [linkHeader ackReq sec more, 0, 0, 0] payload ftype,
    (State.fwPush_of_empty hempty _ _ _ _ _ _ _ _ _).trans hsubmit, rfl, rfl⟩

/-- Of what link firmware submits stands one message in one queue of its own. -/
theorem State.fwPush_sent {a cls : Nat} {payload : List Byte} (h : s.LinkCanSend a payload.length) (hp : payload ≠ [])
    (hcls : 0 < cls ∧ cls < 4) (p k ftype : Nat) (sec ackReq more : Bool) :
    (s.fwPush a p k ftype cls sec ackReq more payload).Sent a ftype cls payload := by
  obtain ⟨tag, m, hpush, hftype, hpayload⟩ := State.fwPush_sends h hp hcls p k ftype sec ackReq more
  obtain ⟨ha, hempty, -⟩ := h
  refine ⟨8128, { linkQueueFor a p k cls with msgs := [m], accepted := 1 }, m, ?_, by decide, dst_linkQueueFor p k cls ha,
    cls_linkQueueFor a p k hcls.2, rfl, hftype, hpayload⟩
  have hset : Tab.set (fun _ => Queue.idle) s.wad.queues 8128 (linkQueueFor a p k cls) = [(8128, linkQueueFor a p k cls)] := by
    rw [hempty]
    exact Tab.set_nil (Queue.ne_idle_of_isOpen rfl)
  have hqueues : ∀ q, (((s.setQueue 8128 (linkQueueFor a p k cls)).tagged tag).setQueue 8128 q).wad.queues =
      Tab.set (fun _ => Queue.idle) (Tab.set (fun _ => Queue.idle) s.wad.queues 8128 (linkQueueFor a p k cls)) 8128 q :=
    fun _ => rfl
  rw [hpush, State.enqueued_wad, hqueues, hset]
  exact Tab.set_singleton (Queue.ne_idle_of_isOpen rfl)

/-- A submission of link firmware changes Wadi, its counter of accepted messages and its events. -/
theorem State.fwPush_keeps {a cls : Nat} {payload : List Byte} (h : s.LinkCanSend a payload.length) (hp : payload ≠ [])
    (hcls : 0 < cls ∧ cls < 4) (p k ftype : Nat) (sec ackReq more : Bool) :
    (s.fwPush a p k ftype cls sec ackReq more payload).sec = s.sec ∧
      ∀ touched b, State.LinkOnly touched b s → touched (addrOf Pg.WAD WAD.ACCEPTED_CNT.off) →
        touched (addrOf Pg.WAD CMN.EVENTS) → b.LinkOnly touched (s.fwPush a p k ftype cls sec ackReq more payload) := by
  obtain ⟨tag, m, hpush, -⟩ := State.fwPush_sends h hp hcls p k ftype sec ackReq more
  rw [hpush]
  constructor
  · rw [State.enqueued_sec]; rfl
  · intro touched b hb hcnt hevents
    have htagged : b.LinkOnly touched ((s.setQueue 8128 (linkQueueFor a p k cls)).tagged tag) :=
      (hb.withLink s.sec s.lnk (s.setQueue 8128 (linkQueueFor a p k cls)).wad).withLink _ _ _
    exact htagged.enqueued _ _ hcnt hevents

/-- What link firmware can send depends on three pages, on Wadi and on its endpoint records. -/
theorem State.LinkCanSend.congr {a bytes : Nat} (h : s.LinkCanSend a bytes) (hwad : u.wad = s.wad) (heps : u.lnk.eps = s.lnk.eps)
    (hreg : ∀ pg off, pg ∈ [Pg.DRC 0, Pg.DWL, Pg.MAC] → off < 4096 → u.reg pg off = s.reg pg off) : u.LinkCanSend a bytes := by
  obtain ⟨ha, hempty, hpool, hprof, hraw, hfit⟩ := h
  have hep : u.ep a = s.ep a := by unfold State.ep; rw [heps]
  have hget : ∀ pg (f : Fld), pg ∈ [Pg.DRC 0, Pg.DWL, Pg.MAC] → f.off < 4096 → u.get pg f = s.get pg f :=
    fun pg f hpg hf => congrArg f.of (hreg pg _ hpg hf)
  refine ⟨ha, hwad ▸ hempty, ?_, fun j hj => ?_, ?_, hep ▸ hfit⟩
  · rw [State.poolFree_congr (fun off ho => hreg _ off (by decide) ho) hwad]; exact hpool
  · have hoff : (DWL.EN.nth j).off < 4096 := by show 0x800 + 16 * j < 4096; omega
    have hj' := hprof j hj
    unfold State.profEn State.flag at hj' ⊢
    rw [hget _ _ (by decide) hoff]
    exact hj'
  · rw [hget _ _ (by decide) (by decide)]; exact hraw

end

/-! ### Heartbeats (R226, R251) -/

theorem schedulePayload_ne_nil (entries : List (BitVec 12 × BitVec 12)) : schedulePayload entries ≠ [] :=
  List.append_ne_nil_of_left_ne_nil (List.cons_ne_nil _ _) _

section
variable {s : State} {tick : Nat}

/-- The state after a heartbeat has been counted. -/
def State.heartbeaten (tick : Nat) (s : State) : State :=
  (s.put Pg.LNK LNK.HEARTBEAT (s.get Pg.LNK LNK.HEARTBEAT + 1)).modLnk fun l => { l with hbAt := tick }

theorem exec_heartbeat (hfw : s.fwRunning = true) (frames : List FwFrame) :
    exec (.heartbeat tick frames) s = .next (forEach frames State.fwCompose ((s.atTick tick).heartbeaten tick)).settle :=
  congrArg finish (if_pos hfw)

theorem State.heartbeaten_sec : (s.heartbeaten tick).sec = s.sec := by
  rw [State.heartbeaten, State.modLnk_sec, State.put_sec]

theorem State.heartbeaten_wad : (s.heartbeaten tick).wad = s.wad := by
  rw [State.heartbeaten, State.modLnk_wad, State.put_wad]

theorem State.modLnk_lnk (f : LnkSt → LnkSt) (s : State) : (s.modLnk f).lnk = f s.lnk := rfl

theorem State.heartbeaten_lnk : (s.heartbeaten tick).lnk = { s.lnk with hbAt := tick } := by
  rw [State.heartbeaten, State.modLnk_lnk, State.put_lnk]

theorem State.get_heartbeaten :
    (s.heartbeaten tick).get Pg.LNK LNK.HEARTBEAT = (s.get Pg.LNK LNK.HEARTBEAT + 1) % 2 ^ LNK.HEARTBEAT.w := by
  rw [State.heartbeaten, State.modLnk_get, State.get_put_same _ _ _ _ (by decide)]

theorem State.reg_heartbeaten_other {pg off : Nat} (hp : pg ≠ Pg.LNK) (ho : off < 4096) :
    (s.heartbeaten tick).reg pg off = s.reg pg off := by
  rw [State.heartbeaten, State.modLnk_reg, State.put,
    State.reg_setReg_other _ _ fun h => hp (addrOf_inj (by decide) ho h).1.symm]

theorem State.linkOnly_heartbeaten {touched : Nat → Prop} (ht : touched (addrOf Pg.LNK LNK.HEARTBEAT.off)) :
    s.LinkOnly touched (s.heartbeaten tick) := ((State.linkOnly_refl _ s).put _ ht).modLnk _

theorem heartbeat_counts (hfw : s.fwRunning = true) :
    ∃ t, exec (.heartbeat tick []) s = .next t ∧ t.lnk.hbAt = tick ∧
      t.get Pg.LNK LNK.HEARTBEAT = (s.get Pg.LNK LNK.HEARTBEAT + 1) % 2 ^ 32 ∧
      State.RegsOnly (regsAt [(Pg.LNK, LNK.HEARTBEAT.off)]) { s.atTick tick with lnk := t.lnk } t := by
  have hframe : (s.atTick tick).LinkOnly (regsAt [(Pg.LNK, LNK.HEARTBEAT.off)]) ((s.atTick tick).heartbeaten tick) :=
    State.linkOnly_heartbeaten (regsAt_of_mem List.mem_cons_self)
  refine ⟨((s.atTick tick).heartbeaten tick).settle, exec_heartbeat hfw [], ?_, ?_, hframe.settle.regsOnly_lnk ?_ ?_⟩
  · rw [State.settle_hbAt, State.heartbeaten_lnk]
  · exact (State.get_settle_beside _ (by decide) (by decide)).trans State.get_heartbeaten
  · rw [State.settle_sec, State.heartbeaten_sec]
  · rw [State.settle_wad, State.heartbeaten_wad]

/-- A heartbeat takes nothing from what link firmware can send. -/
theorem State.LinkCanSend.heartbeaten {a bytes : Nat} (h : s.LinkCanSend a bytes) :
    ((s.atTick tick).heartbeaten tick).LinkCanSend a bytes := by
  have hpages : ∀ pg, pg ∈ [Pg.DRC 0, Pg.DWL, Pg.MAC] → pg ≠ Pg.LNK := by decide
  refine h.congr ?_ ?_ fun pg off hpg ho => ?_
  · rw [State.heartbeaten_wad, State.atTick_wad]
  · rw [State.heartbeaten_lnk, State.atTick_lnk]
  · rw [State.reg_heartbeaten_other (hpages pg hpg) ho, State.atTick_reg]

theorem State.Sent.settle {a ftype cls : Nat} {payload : List Byte} (h : s.Sent a ftype cls payload) :
    s.settle.Sent a ftype cls payload := by
  unfold State.Sent at h ⊢
  rw [State.settle_wad]
  exact h

/-- A frame that a heartbeat tells is queued. -/
theorem heartbeat_sends (hfw : s.fwRunning = true) {x : FwFrame} {a p k ftype cls : Nat} {sec ackReq : Bool} {payload : List Byte}
    (hx : ((s.atTick tick).heartbeaten tick).fwCompose x =
      ((s.atTick tick).heartbeaten tick).fwPush a p k ftype cls sec ackReq false payload)
    (h : s.LinkCanSend a payload.length) (hp : payload ≠ []) (hcls : 0 < cls ∧ cls < 4) :
    ∃ t, exec (.heartbeat tick [x]) s = .next t ∧ t.Sent a ftype cls payload ∧
      State.RegsOnly (regsAt ((Pg.LNK, LNK.HEARTBEAT.off) :: linkRegs)) { s.atTick tick with lnk := t.lnk, wad := t.wad } t := by
  have hexec : exec (.heartbeat tick [x]) s = .next (((s.atTick tick).heartbeaten tick).fwPush a p k ftype cls sec ackReq false
      payload).settle := (exec_heartbeat hfw [x]).trans (congrArg finish hx)
  have hsent := State.fwPush_sent (h.heartbeaten (tick := tick)) hp hcls p k ftype sec ackReq false
  obtain ⟨hsec, hframe⟩ := State.fwPush_keeps (h.heartbeaten (tick := tick)) hp hcls p k ftype sec ackReq false
  have hcount : (s.atTick tick).LinkOnly (regsAt ((Pg.LNK, LNK.HEARTBEAT.off) :: linkRegs)) ((s.atTick tick).heartbeaten tick) :=
    State.linkOnly_heartbeaten (regsAt_of_mem List.mem_cons_self)
  refine ⟨_, hexec, hsent.settle,
    (hframe _ _ hcount (regsAt_of_mem (by decide)) (regsAt_of_mem (by decide))).settle.regsOnly_lnk_wad ?_⟩
  rw [State.settle_sec, hsec, State.heartbeaten_sec]

end

/-- Settles O37: each mailbox command is one write of MB_CMD, link firmware runs and stops by a change of its registers and of the
regime, and what it sends enters its first queue. -/
theorem mailboxAndFirmwareState : Obligations.MailboxAndFirmwareState := by
  refine ⟨fun s tag opcode tick hr hop => ⟨fun c hc => ?_, exec_unknownCmd_answers hr tag hop, fun m => mbDone_publishes tick⟩,
    fun s tick tag version => ⟨exec_lnkReportsRunning_runs tick version, fun hfw => ⟨heartbeat_counts hfw,
      fun port txch entries h => ?_, fun ep sec ackReq bytes hp h => ?_⟩, fun hfw hclaims htrains hmb => ?_,
      fun e rest hr he => exec_evtDataRead_returns he hr⟩⟩
  · obtain ⟨op, hexec⟩ := exec_mailbox_command hr hop hc
    exact ⟨fun hbusy => ⟨_, hexec, mbCmd_busy_refused hbusy _ _ _⟩,
      fun hmb hfw => ⟨_, hexec, mbCmd_stopped_answered hmb hfw _ _ _⟩⟩
  · exact heartbeat_sends hfw rfl h (schedulePayload_ne_nil entries) (by decide)
  · exact heartbeat_sends hfw rfl h hp (by decide)
  · have hquiet : s.LinkQuiet := ⟨hmb, hclaims, htrains⟩
    refine ⟨fun hr => exec_lnkHalt_stops tag hr hfw hquiet, fun c hc => ?_⟩
    rcases hc with ⟨rfl, hlate⟩ | rfl
    · exact exec_stop_by_itself hquiet (exec_lnkWatchdogExpiry hfw hlate)
    · exact exec_stop_by_itself hquiet (exec_lnkFault tick hfw)

end Sys2Proof.Machine

/-! ## Support of the statements about the host interface: what every command ends with, queue windows, the DRAM word window,
interrupt vectors and the PCIe endpoint. -/

namespace Sys2Proof.Machine

/-! ### What every command ends with (R61, R63, R214) -/

/-- Where the outcome is a next state, that state has been settled. -/
def EndsSettled (r : Res) : Prop := ∀ t, r = .next t → ∃ u : State, t = u.settle

theorem finish_settled (s : State) : EndsSettled (finish s) := by
  intro t h
  cases h
  exact ⟨s, rfl⟩

theorem wellFormedOr_settled (c : Bool) {r : Res} (h : EndsSettled r) :
    EndsSettled (wellFormedOr c r) := by
  intro t ht
  cases c with
  | true => exact h t ht
  | false => cases ht

/-- Every command ends with `settle`. Five rows judge their operands first, and stop where these do not fit (notes/assumptions/7.md). -/
theorem exec_settled (c : Instr) (s : State) : EndsSettled (exec c s) := by
  cases c
  case costTableLoad => exact wellFormedOr_settled _ (finish_settled _)
  case railSample => exact wellFormedOr_settled _ (finish_settled _)
  case thermalSample => exact wellFormedOr_settled _ (finish_settled _)
  case loopUpdate => exact wellFormedOr_settled _ (finish_settled _)
  case unknownCmd => exact wellFormedOr_settled _ (finish_settled _)
  all_goals exact finish_settled _

theorem step_settled (s : State) : EndsSettled (step s) := by
  unfold step
  split
  case h_1 => exact finish_settled _
  case h_2 c rest _ => exact exec_settled c _

/-- Settles O3: every command, and the empty queue, ends by following the summaries. -/
theorem stepKeepsSummariesFollowed : Obligations.StepKeepsSummariesFollowed := by
  intro s s' _ hstep
  obtain ⟨u, rfl⟩ := step_settled s s' hstep
  exact u.settle_followed

/-- Settles O4: right after reset the timebase is OFF and no register differs from its reset value. -/
theorem resetHasSummariesFollowed : Obligations.ResetHasSummariesFollowed := by
  refine ⟨⟨by decide, by decide, ?_⟩, reset_regs_wf, reset_dram_wf, rfl⟩
  unfold State.tbServes
  decide

/-! ### Host accesses that reach their page -/

section
variable {s : State} {pg : Nat} (h : s.Reaches pg)
include h

theorem finish_hostWrite (f : State → State) : finish (s.hostWrite pg f) = .next (f s).settle := by
  rw [State.hostWrite, h.spiDrain, State.pageWrite_reaches f h]; rfl

theorem finish_hostRead (f : State → State) : finish (s.hostRead pg f) = .next (f s).settle := by
  rw [State.hostRead, h.spiDrain, State.pageRead_reaches f h]; rfl

end

/-! ### Queue windows (R52 to R55) -/

@[simp] theorem State.window_settle (s : State) (n : Nat) : s.settle.window n = s.window n := by
  unfold State.window; rw [State.settle_win]

@[simp] theorem State.ring_settle (s : State) (n : Nat) : s.settle.ring n = s.ring n := by
  unfold State.ring; rw [State.settle_wad]

@[simp] theorem State.queue_settle (s : State) (n : Nat) : s.settle.queue n = s.queue n := by
  unfold State.queue; rw [State.settle_wad]

/-- Between `s` and `t` window n has become `w`, and beside it nothing has changed but what follows every command. -/
structure State.WindowBecomes (n : Nat) (w : Window) (s t : State) : Prop where
  window : t.window n = w
  others : ∀ m, m ≠ n → t.window m = s.window m
  frame : State.RegsOnly (fun _ => False) { s with host := { s.host with win := t.host.win } } t

section
variable {s u : State} {n : Nat} {w : Window}

theorem State.setWindow_becomes (s : State) (n : Nat) (w : Window) : s.WindowBecomes n w (s.setWindow n w) where
  window := (State.window_setWindow s n n w).trans (if_pos rfl)
  others m hm := (State.window_setWindow s n m w).trans (if_neg hm.symm)
  frame := State.regsOnly_refl _ _

theorem State.WindowBecomes.rewrite (h : s.WindowBecomes n w u) (w' : Window) : s.WindowBecomes n w' (u.setWindow n w') where
  window := (State.setWindow_becomes u n w').window
  others m hm := ((State.setWindow_becomes u n w').others m hm).trans (h.others m hm)
  frame := by
    obtain ⟨hregs, regs, msi, act, flt, total, since, hu⟩ := h.frame
    exact ⟨hregs, regs, msi, act, flt, total, since, by rw [hu]; rfl⟩

theorem State.WindowBecomes.settle (h : s.WindowBecomes n w u) : s.WindowBecomes n w u.settle where
  window := (State.window_settle u n).trans h.window
  others m hm := (State.window_settle u m).trans (h.others m hm)
  frame := by
    rw [State.settle_win]
    exact State.regsOnly_settle h.frame

theorem State.WindowBecomes.regsKept (h : s.WindowBecomes n w u) : s.RegsKept (fun _ => False) u := h.frame.1

theorem State.WindowBecomes.wad (h : s.WindowBecomes n w u) : u.wad = s.wad := by
  obtain ⟨_, _, _, _, _, _, _, hu⟩ := h.frame
  rw [hu]; rfl

theorem State.WindowBecomes.rdata (h : s.WindowBecomes n w u) : u.host.rdata = s.host.rdata := by
  obtain ⟨_, _, _, _, _, _, _, hu⟩ := h.frame
  rw [hu]; rfl

/-- A window error changes LAST_RESULT alone. -/
theorem State.windowError_becomes (s : State) (n code : Nat) :
    s.WindowBecomes n { s.window n with lastResult := lastResultWord 3 code 0 } (s.windowError n code) :=
  State.setWindow_becomes s n _

/-- A window error after the window has become `w`. -/
theorem State.WindowBecomes.windowError (h : s.WindowBecomes n w u) (code : Nat) :
    s.WindowBecomes n { w with lastResult := lastResultWord 3 code 0 } (u.windowError n code) := by
  obtain rfl := h.window
  exact h.rewrite _

end

/-! ### Pushes (R52, R54) -/

section
variable {s : State} {n : Nat} {p : OpenPush}

theorem State.qwBind_becomes (s : State) (n : Nat) (v : Word) :
    s.WindowBecomes n { s.window n with
      bindValid := decide (v.toNat / 2 ^ 31 = 1), bindQueue := v.toNat % 8192, push := none
      lastResult := if (s.window n).push.isSome then 0x304 else (s.window n).lastResult } (s.qwBind n v) := by
  unfold State.qwBind onlyIf
  dsimp only
  split
  · have herr := State.windowError_becomes s n 0x04
    rw [herr.window]
    exact herr.rewrite _
  · exact State.setWindow_becomes s n _

theorem State.qwPushHdr0_of_bound (h : (s.window n).bindValid = true) (v : Word) :
    s.WindowBecomes n { s.window n with push := some ⟨[v, 0, 0, 0], [], false⟩ } (s.qwPushHdr0 n v) := by
  unfold State.qwPushHdr0
  dsimp only
  rw [if_pos h]
  exact State.setWindow_becomes s n _

theorem State.qwPushHdr0_of_unbound (h : (s.window n).bindValid = false) (v : Word) :
    s.WindowBecomes n { s.window n with push := none, lastResult := 0x301 } (s.qwPushHdr0 n v) := by
  unfold State.qwPushHdr0
  dsimp only
  rw [if_neg (Bool.not_eq_true _ ▸ h)]
  exact (State.setWindow_becomes s n { s.window n with push := none }).windowError 0x01

theorem State.qwPushHdr_of_open (h : (s.window n).push = some p) (i : Nat) (v : Word) :
    s.WindowBecomes n { s.window n with push := some { p with hdr := p.hdr.set i v } } (s.qwPushHdr n i v) := by
  unfold State.qwPushHdr
  dsimp only
  rw [h]
  exact State.setWindow_becomes s n _

theorem State.qwPushData_of_room (h : (s.window n).push = some p) (hroom : p.words.length < 16384) (v : Word) :
    s.WindowBecomes n { s.window n with push := some { p with words := p.words ++ [v] } } (s.qwPushData n v) := by
  unfold State.qwPushData
  dsimp only
  rw [h]
  dsimp only
  rw [if_pos hroom]
  exact State.setWindow_becomes s n _

theorem State.qwPushData_of_full (h : (s.window n).push = some p) (hfull : 16384 ≤ p.words.length) (v : Word) :
    s.WindowBecomes n { s.window n with push := some { p with tooLong := true } } (s.qwPushData n v) := by
  unfold State.qwPushData
  dsimp only
  rw [h]
  dsimp only
  rw [if_neg (Nat.not_lt.mpr hfull)]
  exact State.setWindow_becomes s n _

/-- Without an open push a word for it and its end are dropped with NO_OPEN_PUSH. -/
theorem State.push_of_none (h : (s.window n).push = none) (i bytes : Nat) (v : Word) {u : State}
    (hu : u ∈ [s.qwPushHdr n i v, s.qwPushData n v, s.qwPushEnd n bytes]) :
    s.WindowBecomes n { s.window n with lastResult := 0x302 } u := by
  have herr : u = s.windowError n 0x02 := by
    simp only [List.mem_cons, List.not_mem_nil, or_false] at hu
    unfold State.qwPushHdr State.qwPushData State.qwPushEnd at hu
    dsimp only at hu
    rw [h] at hu
    simpa using hu
  rw [herr]
  exact State.windowError_becomes s n 0x02

/-- BYTES outside the words appended closes the push with COUNT_MISMATCH. -/
theorem State.qwPushEnd_of_mismatch {bytes : Nat} (h : (s.window n).push = some p) (hlong : p.tooLong = false) (hbytes : bytes ≠ 0)
    (hcount : bytes ≤ 4 * (p.words.length - 1) ∨ 4 * p.words.length < bytes) :
    s.WindowBecomes n { s.window n with push := none, lastResult := 0x303 } (s.qwPushEnd n bytes) := by
  unfold State.qwPushEnd
  dsimp only
  rw [h]
  dsimp only
  rw [if_neg hbytes, hlong, if_neg Bool.false_ne_true, if_pos hcount]
  exact (State.setWindow_becomes s n { s.window n with push := none }).windowError 0x03

end

/-! ### Submissions that Wadi accepts (R52, R53, R258, R259) -/

/-- What an accepted message of a class counts on a port: the counters of R266, the last class-0 message and a low pool. -/
def State.acceptanceCounted (cls port ord : Nat) (s : State) : State :=
  let s := s.count Pg.WAD WAD.ACCEPTED_CNT
  let s : State := if cls = 0 then
      let s : State := { s with wad := { s.wad with c0Last := Tab.set (fun _ => 0) s.wad.c0Last port ord } }
      s.count Pg.WAD WAD.C0_ACCEPTED_CNT
    else s
  onlyIf (decide (s.poolFree * 16 < s.poolSize)) (State.event Pg.WAD WAD.EV_POOL_LOW) s

theorem State.acceptanceCounted_keeps (cls port ord : Nat) (s : State) :
    (s.acceptanceCounted cls port ord).wad.queues = s.wad.queues ∧ (s.acceptanceCounted cls port ord).host = s.host ∧
      (s.acceptanceCounted cls port ord).dram = s.dram := by
  have hevent : ∀ (c : Bool) (u : State), (onlyIf c (State.event Pg.WAD WAD.EV_POOL_LOW) u).wad = u.wad ∧
      (onlyIf c (State.event Pg.WAD WAD.EV_POOL_LOW) u).host = u.host ∧
      (onlyIf c (State.event Pg.WAD WAD.EV_POOL_LOW) u).dram = u.dram := by
    intro c u
    unfold onlyIf
    split <;> exact ⟨rfl, rfl, rfl⟩
  unfold State.acceptanceCounted
  dsimp only
  rw [(hevent _ _).1, (hevent _ _).2.1, (hevent _ _).2.2]
  split <;> simp

/-- The message as queue n accepts it under a tag, whatever the queue's class (R259, R263, R273). -/
def State.acceptedMsg (n tag : Nat) (hdr : List Word) (payload : List Byte) (ftype : Nat) (s : State) : Msg :=
  let q := s.queue n
  let m := newMsg tag hdr payload ftype (s.wad.nextOrd + 1) s.time none
  let dl := (s.tagged tag).deadlineMs n m
  { m with deadline := if q.cls = 1 ∧ dl ≠ 0 then some (s.time + msTicks dl) else none
           after := if q.cls = 0 then Tab.get (fun _ => 0) s.wad.c0Last q.port else 0 }

/-- Queue n with one message more. -/
def Queue.appended (m : Msg) (q : Queue) : Queue := { q with msgs := q.msgs ++ [m], accepted := q.accepted + 1 }

/-- A submission that passes every check of R258 takes its tag and enters its queue: the checks look at no acceptance number. -/
theorem State.submit_accepts {s : State} {n tag ftype : Nat} {hdr : List Word} {payload : List Byte} {fw : Bool}
    (htag : tag = nextTagFrom ((s.queue n).msgs.map (·.tag)) 65536 s.wad.nextTag)
    (hcheck : (s.tagged tag).submitCheck n (newMsg tag hdr payload ftype s.wad.nextOrd s.time none) payload.length fw = none) :
    s.submit n hdr payload ftype fw = ((tag, none), ((s.tagged tag).setQueue n
      ((s.queue n).appended (s.acceptedMsg n tag hdr payload ftype))).acceptanceCounted (s.queue n).cls (s.queue n).port
      (s.wad.nextOrd + 1)) := by
  unfold State.submit
  dsimp only
  rw [← htag]
  split
  case h_1 code hsome => cases hcheck.symm.trans hsome
  case h_2 => rfl

/-- Of an accepted submission the queue window and the queue itself see this much. -/
theorem State.submit_accepts_keeps {s : State} {n tag ftype : Nat} {hdr : List Word} {payload : List Byte} {fw : Bool}
    (htag : tag = nextTagFrom ((s.queue n).msgs.map (·.tag)) 65536 s.wad.nextTag)
    (hcheck : (s.tagged tag).submitCheck n (newMsg tag hdr payload ftype s.wad.nextOrd s.time none) payload.length fw = none) :
    ∃ u : State, s.submit n hdr payload ftype fw = ((tag, none), u) ∧ u.host = s.host ∧ u.dram = s.dram ∧
      u.queue n = (s.queue n).appended (s.acceptedMsg n tag hdr payload ftype) := by
  obtain ⟨hqueues, hhost, hdram⟩ := State.acceptanceCounted_keeps (s.queue n).cls (s.queue n).port (s.wad.nextOrd + 1)
    ((s.tagged tag).setQueue n ((s.queue n).appended (s.acceptedMsg n tag hdr payload ftype)))
  refine ⟨_, State.submit_accepts htag hcheck, hhost, hdram, ?_⟩
  unfold State.queue at hqueues ⊢
  rw [hqueues]
  exact Tab.get_set_same _ _ _ _

/-- The state once the push of window n is closed. -/
def State.pushClosed (n : Nat) (s : State) : State := s.setWindow n { s.window n with push := none }

theorem State.window_pushClosed (s : State) (n : Nat) : (s.pushClosed n).window n = { s.window n with push := none } :=
  (State.setWindow_becomes s n _).window

section
variable {s : State} {n tag bytes : Nat} {p : OpenPush} {payload : List Byte}

/-- A push that the window's own checks pass is closed, and its words up to BYTES are submitted. -/
theorem State.qwPushEnd_of_accepted {u : State} (hpush : (s.window n).push = some p) (hlong : p.tooLong = false)
    (hbytes : bytes ≠ 0) (hcount : ¬ (bytes ≤ 4 * (p.words.length - 1) ∨ 4 * p.words.length < bytes))
    (hpayload : payload = (p.words.flatMap fun v => leBytes 4 v.toNat).take bytes)
    (hsubmit : (s.pushClosed n).submit (s.window n).bindQueue p.hdr payload 0 false = ((tag, none), u)) :
    s.qwPushEnd n bytes = u.setWindow n { u.window n with lastResult := lastResultWord 1 0 tag } := by
  unfold State.pushClosed at hsubmit
  unfold State.qwPushEnd
  dsimp only
  rw [hpush]
  dsimp only
  rw [if_neg hbytes, hlong, if_neg Bool.false_ne_true, if_neg hcount, ← hpayload, hsubmit]

/-- A push that the checks of the window and of R258 pass is closed and accepted. -/
theorem State.qwPushEnd_accepts (hpush : (s.window n).push = some p) (hlong : p.tooLong = false) (hbytes : bytes ≠ 0)
    (hcount : ¬ (bytes ≤ 4 * (p.words.length - 1) ∨ 4 * p.words.length < bytes))
    (hpayload : payload = (p.words.flatMap fun v => leBytes 4 v.toNat).take bytes)
    (htag : tag = nextTagFrom ((s.queue (s.window n).bindQueue).msgs.map (·.tag)) 65536 s.wad.nextTag)
    (hcheck : ((s.pushClosed n).tagged tag).submitCheck (s.window n).bindQueue
      (newMsg tag p.hdr payload 0 s.wad.nextOrd s.time none) payload.length false = none) :
    (s.qwPushEnd n bytes).window n = { s.window n with push := none, lastResult := lastResultWord 1 0 tag } ∧
      (s.qwPushEnd n bytes).queue (s.window n).bindQueue = (s.queue (s.window n).bindQueue).appended
        ((s.pushClosed n).acceptedMsg (s.window n).bindQueue tag p.hdr payload 0) ∧
      s.DramKept (s.qwPushEnd n bytes) := by
  obtain ⟨u, hsubmit, hhost, hdram, hqueue⟩ := State.submit_accepts_keeps (s := s.pushClosed n) htag hcheck
  have hwindow : u.window n = { s.window n with push := none } := by
    rw [← State.window_pushClosed]
    unfold State.window
    rw [hhost]
  rw [State.qwPushEnd_of_accepted hpush hlong hbytes hcount hpayload hsubmit]
  refine ⟨?_, hqueue, fun a => ?_⟩
  · rw [hwindow]
    exact (State.setWindow_becomes u n _).window
  · show Tab.get _ u.dram a = _
    rw [hdram]
    rfl

end

section
variable {s : State} {win : Fin 64}

theorem exec_push_dropped (h : s.Reaches Pg.HIF) (hpush : (s.window win.val).push = none) {c : Instr} {v : Word} {i : Fin 3}
    {bytes : BitVec 17} (hc : c ∈ [.pushHdrWord win i v, .pushData win v, .pushEnd win bytes]) :
    ∃ u, exec c s = .next u.settle ∧ s.WindowBecomes win.val { s.window win.val with lastResult := 0x302 } u := by
  have hu := fun u => State.push_of_none hpush (i.val + 1) bytes.toNat v (u := u)
  simp only [List.mem_cons, List.not_mem_nil, or_false] at hc
  rcases hc with rfl | rfl | rfl
  · exact ⟨_, finish_hostWrite h _, hu _ (by simp)⟩
  · exact ⟨_, finish_hostWrite h _, hu _ (by simp)⟩
  · exact ⟨_, finish_hostWrite h _, hu _ (by simp)⟩

end

/-- Settles O9: each command is one host write to page HIF that rewrites its window alone, and an accepted push is appended to its
queue. -/
theorem pushBuildsAndSubmits : Obligations.PushBuildsAndSubmits := by
  refine ⟨fun s win h => ⟨fun v => ?_, fun v hbound => ?_, fun v hbound => ?_, fun v i p hpush => ?_, fun v p hpush hroom => ?_,
    fun v p hpush hfull => ?_, fun hpush c v i bytes hc => ?_, fun bytes p hpush hlong hbytes hcount => ?_⟩,
    fun s win bytes p u n tag payload h hpush hlong hbytes hlow hhigh hn htag hpayload hu hcheck => ?_⟩
  · have hw := (State.qwBind_becomes s win.val v).settle
    refine ⟨_, finish_hostWrite h _, ?_, ?_, ?_, ?_, ?_, hw.frame, hw.others⟩ <;> rw [hw.window]
  · have hw := (State.qwPushHdr0_of_bound hbound v).settle
    exact ⟨_, finish_hostWrite h _, by rw [hw.window], hw.frame⟩
  · have hw := (State.qwPushHdr0_of_unbound hbound v).settle
    exact ⟨_, finish_hostWrite h _, by rw [hw.window], by rw [hw.window]⟩
  · have hw := (State.qwPushHdr_of_open hpush (i.val + 1) v).settle
    exact ⟨_, finish_hostWrite h _, by rw [hw.window], hw.frame⟩
  · have hw := (State.qwPushData_of_room hpush hroom v).settle
    exact ⟨_, finish_hostWrite h _, by rw [hw.window], hw.frame⟩
  · have hw := (State.qwPushData_of_full hpush hfull v).settle
    exact ⟨_, finish_hostWrite h _, by rw [hw.window]⟩
  · obtain ⟨u, hexec, hw⟩ := exec_push_dropped h hpush hc
    exact ⟨_, hexec, hw.settle.window, hw.settle.others, hw.settle.frame⟩
  · have hne : bytes.toNat ≠ 0 := fun h0 => hbytes (BitVec.eq_of_toNat_eq h0)
    have hw := (State.qwPushEnd_of_mismatch hpush hlong hne hcount).settle
    exact ⟨_, finish_hostWrite h _, by rw [hw.window], by rw [hw.window], hw.wad⟩
  · subst hn hu
    have hne : bytes.toNat ≠ 0 := fun h0 => hbytes (BitVec.eq_of_toNat_eq h0)
    obtain ⟨hwindow, hqueue, hdram⟩ := State.qwPushEnd_accepts hpush hlong hne (by omega) hpayload htag hcheck
    refine ⟨_, (s.pushClosed win.val).acceptedMsg (s.window win.val).bindQueue tag p.hdr payload 0, finish_hostWrite h _,
      ?_, ?_, ?_, rfl, rfl, rfl, rfl, rfl, rfl, fun a => ?_⟩
    · rw [State.window_settle, hwindow]
    · rw [State.window_settle, hwindow]
    · rw [State.queue_settle, hqueue]
      rfl
    · rw [State.settle_dramByte, hdram a]

/-! ### Pops (R55) -/

section
variable {s : State} {n i : Nat} {r : Rec}

theorem State.qwPopHdr0_of_record {rs : List Rec} (hpop : (s.window n).pop = none) (hring : (s.ring n).recs = r :: rs) :
    (s.answer (r.hdr.getD 0 0)).WindowBecomes n { s.window n with pop := some (r, 0) } (s.qwPopHdr0 n) := by
  unfold State.qwPopHdr0
  dsimp only
  rw [hpop, hring]
  exact State.setWindow_becomes (s.answer _) n _

theorem State.qwPopHdr0_of_empty (hpop : (s.window n).pop = none) (hring : (s.ring n).recs = []) :
    s.qwPopHdr0 n = s.answer 0 := by
  unfold State.qwPopHdr0
  dsimp only
  rw [hpop, hring]

theorem State.qwPopData_of_more (hpop : (s.window n).pop = some (r, i)) (hmore : 4 * i < r.payload.length) :
    (s.answer (BitVec.ofNat 32 (leNat ((r.payload.drop (4 * i)).take 4)))).WindowBecomes n
      { s.window n with pop := some (r, i + 1) } (s.qwPopData n) := by
  unfold State.qwPopData
  dsimp only
  rw [hpop]
  dsimp only
  rw [if_pos hmore]
  exact State.setWindow_becomes (s.answer _) n _

theorem State.qwPopData_of_end (hpop : (s.window n).pop = some (r, i)) (hend : r.payload.length ≤ 4 * i) :
    (s.answer 0).WindowBecomes n { s.window n with lastResult := 0x306 } (s.qwPopData n) := by
  have herr : s.qwPopData n = (s.answer 0).windowError n 0x06 := by
    unfold State.qwPopData
    dsimp only
    rw [hpop]
    exact if_neg (Nat.not_lt.mpr hend)
  rw [herr]
  exact State.windowError_becomes (s.answer 0) n 0x06

theorem State.qwRewind_of_open (hpop : (s.window n).pop = some (r, i)) :
    s.WindowBecomes n { s.window n with pop := some (r, 0) } (s.qwRewind n) := by
  unfold State.qwRewind
  dsimp only
  rw [hpop]
  exact State.setWindow_becomes s n _

theorem State.qwRewind_of_none (hpop : (s.window n).pop = none) :
    s.WindowBecomes n { s.window n with lastResult := 0x305 } (s.qwRewind n) := by
  have herr : s.qwRewind n = s.windowError n 0x05 := by
    unfold State.qwRewind
    dsimp only
    rw [hpop]
  rw [herr]
  exact State.windowError_becomes s n 0x05

theorem State.qwRelease_of_open (hpop : (s.window n).pop = some (r, i)) :
    s.qwRelease n = (s.setWindow n { s.window n with pop := none }).setRing n { s.ring n with recs := (s.ring n).recs.tail } := by
  unfold State.qwRelease
  dsimp only
  rw [hpop]
  rfl

theorem State.qwRelease_of_none (hpop : (s.window n).pop = none) :
    s.WindowBecomes n { s.window n with lastResult := 0x305 } (s.qwRelease n) := by
  have herr : s.qwRelease n = s.windowError n 0x05 := by
    unfold State.qwRelease
    dsimp only
    rw [hpop]
  rw [herr]
  exact State.windowError_becomes s n 0x05

end

/-- RELEASE with an open record frees the oldest record of the window's ring. -/
theorem exec_release_frees {s : State} {win : Fin 64} {r : Rec} {i : Nat} (h : s.Reaches Pg.HIF)
    (hpop : (s.window win.val).pop = some (r, i)) :
    ∃ t, exec (.release win) s = .next t ∧ (t.window win.val).pop = none ∧
      (t.ring win.val).recs = (s.ring win.val).recs.tail ∧ (∀ n, n ≠ win.val → t.ring n = s.ring n) ∧
      t.wad.queues = s.wad.queues ∧ s.RegsKept (fun _ => False) t := by
  have hexec := finish_hostWrite h (State.qwRelease win.val)
  rw [State.qwRelease_of_open hpop] at hexec
  refine ⟨_, hexec, ?_, ?_, fun n hn => ?_, ?_, State.regsKept_settle fun _ _ _ _ => rfl⟩
  · rw [State.window_settle]
    exact congrArg Window.pop (State.setWindow_becomes s win.val _).window
  · rw [State.ring_settle, State.ring_setRing, if_pos rfl]
  · rw [State.ring_settle, State.ring_setRing, if_neg hn.symm]
    rfl
  · rw [State.settle_wad]
    rfl

/-- Settles O10: each command is one host access to page HIF, which answers from the open record or from the ring. -/
theorem popReadsAndFreesRecords : Obligations.PopReadsAndFreesRecords := by
  refine fun s win h => ⟨fun r rs hpop hring => ?_, fun hpop hring => ?_, fun r i hpop hmore => ?_, fun r i hpop hend => ?_,
    fun r i hpop => ?_, fun r i hpop => exec_release_frees h hpop, fun hpop => ⟨?_, ?_⟩⟩
  · have hw := (State.qwPopHdr0_of_record hpop hring).settle
    exact ⟨_, finish_hostRead h _, hw.rdata, by rw [hw.window], hw.wad, hw.regsKept⟩
  · refine ⟨_, finish_hostRead h _, ?_, ?_⟩ <;> rw [State.qwPopHdr0_of_empty hpop hring]
    · exact State.settle_rdata _
    · exact State.regsOnly_settle (State.regsOnly_refl _ _)
  · have hw := (State.qwPopData_of_more hpop hmore).settle
    exact ⟨_, finish_hostRead h _, hw.rdata, by rw [hw.window], hw.wad, hw.regsKept⟩
  · have hw := (State.qwPopData_of_end hpop hend).settle
    exact ⟨_, finish_hostRead h _, hw.rdata, by rw [hw.window], by rw [hw.window]; exact hpop⟩
  · have hw := (State.qwRewind_of_open hpop).settle
    exact ⟨_, finish_hostWrite h _, by rw [hw.window], hw.wad, hw.regsKept⟩
  · have hw := (State.qwRelease_of_none hpop).settle
    exact ⟨_, finish_hostWrite h _, by rw [hw.window], hw.wad⟩
  · have hw := (State.qwRewind_of_none hpop).settle
    exact ⟨_, finish_hostWrite h _, by rw [hw.window], hw.wad⟩

/-! ### The DRAM word window (R57, R58) -/

theorem State.settle_preWords (s : State) : s.settle.host.preWords = s.host.preWords := by
  rw [(State.settle_settled s).rest]; rfl

/-- A field of page DRW reads after a command as the command has left it. -/
theorem State.get_settle_drw (s : State) (f : Fld) (hf : f.off < 4096) : s.settle.get Pg.DRW f = s.get Pg.DRW f :=
  State.get_settle_beside s (by decide) hf

theorem State.drwAddr_congr {s t : State} (h : t.regs = s.regs) : t.drwAddr = s.drwAddr := by
  unfold State.drwAddr
  rw [State.get_congr h, State.get_congr h]

theorem State.drwAddr_settle (s : State) : s.settle.drwAddr = s.drwAddr := by
  unfold State.drwAddr
  rw [State.get_settle_drw _ _ (by decide), State.get_settle_drw _ _ (by decide)]

/-- A field set through the window empties the prefetch and changes no other register and no DRAM. -/
theorem State.drwSet_keeps (s : State) (f : Fld) (v : Nat) :
    ((s.put Pg.DRW f v).drwForget).settle.host.preWords = [] ∧
      s.RegsKept (regsAt [(Pg.DRW, f.off)]) ((s.put Pg.DRW f v).drwForget).settle ∧
      s.DramKept ((s.put Pg.DRW f v).drwForget).settle :=
  ⟨State.settle_preWords _, State.regsKept_settle (State.regsOnly_setReg_self s _ _ _).1, fun a => State.settle_dramByte _ a⟩

theorem State.get_drwSet (s : State) (f : Fld) (v : Nat) (hf : f.off < 4096 ∧ f.lsb + f.w ≤ 32) :
    ((s.put Pg.DRW f v).drwForget).settle.get Pg.DRW f = v % 2 ^ f.w :=
  (State.get_settle_drw _ _ hf.1).trans (State.get_put_same s _ _ _ hf.2)

/-- The registers in which the window's address stands. -/
def drwAddrRegs : List (Nat × Nat) := [(Pg.DRW, DRW.ADDR_LO.off), (Pg.DRW, DRW.ADDR_HI.off)]

section
variable (s : State)

theorem State.drwAdvance_host : s.drwAdvance.host = s.host := by
  unfold State.drwAdvance
  split
  · rw [State.put_host, State.put_host]
  · rfl

theorem State.drwAdvance_dram : s.drwAdvance.dram = s.dram := by
  unfold State.drwAdvance
  split
  · rw [State.put_dram, State.put_dram]
  · rfl

theorem State.drwAdvance_regsKept : s.RegsKept (regsAt drwAddrRegs) s.drwAdvance := by
  have hlo : regsAt drwAddrRegs (addrOf Pg.DRW DRW.ADDR_LO.off) := regsAt_of_mem (by decide)
  have hhi : regsAt drwAddrRegs (addrOf Pg.DRW DRW.ADDR_HI.off) := regsAt_of_mem (by decide)
  unfold State.drwAdvance
  split
  · exact (State.regsOnly_put _ (State.regsOnly_put _ (State.regsOnly_refl _ s) hlo) hhi).1
  · exact fun _ _ _ _ => rfl

theorem State.get_drwAdvance_beside (f : Fld) (hf : f.off ≠ DRW.ADDR_LO.off ∧ f.off ≠ DRW.ADDR_HI.off) :
    s.drwAdvance.get Pg.DRW f = s.get Pg.DRW f := by
  unfold State.drwAdvance
  split
  · exact (State.get_put_other _ _ (addrOf_ne hf.2.symm)).trans (State.get_put_other _ _ (addrOf_ne hf.1.symm))
  · rfl

/-- With INC the address moves on by 4. -/
theorem State.drwAddr_drwAdvance {u : State} (hu : u.regs = s.regs) :
    u.drwAdvance.drwAddr = if s.flag Pg.DRW DRW.MODE then (s.drwAddr + 4) % 2 ^ 37 else s.drwAddr := by
  have hmode : s.flag Pg.DRW DRW.MODE = u.flag Pg.DRW DRW.MODE := by
    unfold State.flag
    rw [State.get_congr hu]
  rw [hmode, ← State.drwAddr_congr hu]
  unfold State.drwAdvance
  split
  · have hlo : ∀ (u : State) v, (u.put Pg.DRW DRW.ADDR_LO v).get Pg.DRW DRW.ADDR_LO = v % 2 ^ 30 := fun u v =>
      State.get_put_same u _ _ _ (by decide)
    have hhi : ∀ (u : State) v, (u.put Pg.DRW DRW.ADDR_HI v).get Pg.DRW DRW.ADDR_HI = v % 2 ^ 5 := fun u v =>
      State.get_put_same u _ _ _ (by decide)
    have hword : ∃ k, u.drwAddr = 4 * k := ⟨u.get Pg.DRW DRW.ADDR_LO + u.get Pg.DRW DRW.ADDR_HI * 2 ^ 30, by
      unfold State.drwAddr; omega⟩
    obtain ⟨k, hk⟩ := hword
    dsimp only
    generalize u.drwAddr = a at hk
    unfold State.drwAddr
    rw [hhi, State.get_put_beside _ _ _ _ _ (by decide), hlo]
    omega
  · rfl

end

/-! #### Writes -/

section
variable {s : State} {v : Word}

theorem State.drwWrite_of_allowed (h : s.drwRefused s.drwAddr = false) :
    s.drwWrite v = (s.drwForget.dramStore s.drwAddr (leBytes 4 v.toNat)).drwAdvance := by
  have hforget : s.drwForget.drwRefused s.drwAddr = false := h
  unfold State.drwWrite
  dsimp only
  rw [hforget]
  rfl

/-- What a refused write records before it is counted. -/
def State.drwWriteRefused (s : State) : State :=
  (onlyIf (decide (s.drwForget.dramCapacity ≤ s.drwAddr)) (State.event Pg.DRW DRW.EV_OUT_OF_RANGE) s.drwForget).event Pg.DRW DRW.EV_WR_REFUSED

theorem State.drwWrite_of_refused (h : s.drwRefused s.drwAddr = true) :
    s.drwWrite v = (s.drwWriteRefused.count Pg.DRW DRW.WR_REFUSED_CNT).drwAdvance := by
  have hforget : s.drwForget.drwRefused s.drwAddr = true := h
  exact if_pos hforget

theorem State.drwWriteRefused_dram : s.drwWriteRefused.dram = s.dram := by
  unfold State.drwWriteRefused onlyIf; split <;> rfl

theorem State.get_drwWriteRefused_beside (f : Fld) (hf : CMN.EVENTS ≠ f.off) :
    s.drwWriteRefused.get Pg.DRW f = s.get Pg.DRW f := by
  unfold State.drwWriteRefused onlyIf
  rw [State.get_event_beside _ _ _ _ hf]
  split
  · exact State.get_event_beside _ _ _ _ hf
  · rfl

theorem exec_drwDataWrite_stores (hr : s.Reaches Pg.DRW) (h : s.drwRefused s.drwAddr = false) :
    ∃ t, exec (.drwDataWrite v) s = .next t ∧
      (∀ a, t.dramByte a = if s.drwAddr ≤ a ∧ a < s.drwAddr + 4 then (leBytes 4 v.toNat).getD (a - s.drwAddr) 0 else s.dramByte a) ∧
      t.drwAddr = (if s.flag Pg.DRW DRW.MODE then (s.drwAddr + 4) % 2 ^ 37 else s.drwAddr) ∧ t.host.preWords = [] ∧
      s.RegsKept (regsAt drwAddrRegs) t := by
  refine ⟨_, finish_hostWrite hr _, fun a => ?_, ?_, ?_, ?_⟩ <;> rw [State.drwWrite_of_allowed h]
  · rw [State.settle_dramByte, State.dramByte, State.drwAdvance_dram]
    have hstore := State.dramByte_dramStore s.drwForget s.drwAddr (leBytes 4 v.toNat) a
    rw [leBytes_length] at hstore
    exact hstore
  · rw [State.drwAddr_settle]
    exact State.drwAddr_drwAdvance s rfl
  · rw [State.settle_preWords, State.drwAdvance_host]
    rfl
  · exact State.regsKept_settle fun pg off hn hf => State.drwAdvance_regsKept _ pg off hn hf

theorem exec_drwDataWrite_refused (hr : s.Reaches Pg.DRW) (h : s.drwRefused s.drwAddr = true) :
    ∃ t, exec (.drwDataWrite v) s = .next t ∧ s.DramKept t ∧ t.get Pg.DRW DRW.EV_WR_REFUSED = 1 ∧
      s.Counted Pg.DRW DRW.WR_REFUSED_CNT t := by
  have hget : ∀ f : Fld, f.off < 4096 ∧ f.off ≠ DRW.ADDR_LO.off ∧ f.off ≠ DRW.ADDR_HI.off →
      (s.drwWriteRefused.count Pg.DRW DRW.WR_REFUSED_CNT).drwAdvance.settle.get Pg.DRW f =
        (s.drwWriteRefused.count Pg.DRW DRW.WR_REFUSED_CNT).get Pg.DRW f := fun f hf =>
    (State.get_settle_drw _ _ hf.1).trans (State.get_drwAdvance_beside _ _ hf.2)
  refine ⟨_, finish_hostWrite hr _, fun a => ?_, ?_, ?_⟩ <;> rw [State.drwWrite_of_refused h]
  · rw [State.settle_dramByte, State.dramByte, State.drwAdvance_dram, State.count_dram, State.drwWriteRefused_dram]
    rfl
  · rw [hget _ (by decide), State.get_count_other _ (by decide)]
    exact State.get_event_same _ _ _ rfl rfl (by decide)
  · refine State.Counted.of_get (State.counted_count (by decide) (State.get_drwWriteRefused_beside _ (by decide)) ?_)
      (hget _ (by decide))
    unfold State.flag
    rw [State.get_drwWriteRefused_beside _ (by decide)]

end

/-! #### Reads -/

section
variable {s : State}

theorem State.drwWord_of_data {a : Nat} (hcap : a < s.dramCapacity) (hcheck : s.checkBits a = false) : s.drwWord a = s.dramWord a := by
  refine if_neg ?_
  rintro (hle | htrue)
  · omega
  · rw [hcheck] at htrue
    cases htrue

/-- The prefetch fills or empties the words held, and nothing else. -/
theorem State.drwPrefetch_eq (a : Nat) (kept : List Word) (u : State) :
    ∃ at_ words, u.drwPrefetch a kept = { u with host := { u.host with preAddr := at_, preWords := words } } := by
  unfold State.drwPrefetch
  split
  · exact ⟨_, _, rfl⟩
  · exact ⟨0, [], rfl⟩

theorem State.drwEcc_clean (a : Nat) (u : State) : u.drwEcc a .clean = u := by
  unfold State.drwEcc
  split <;> rfl

/-- Without a prefetched word a clean read fetches its word from DRAM. -/
theorem State.drwRead_of_data (hpre : s.host.preWords = []) (hcap : s.drwAddr < s.dramCapacity)
    (hcheck : s.checkBits s.drwAddr = false) :
    s.drwRead .clean = ((s.answer (s.dramWord s.drwAddr)).drwPrefetch s.drwAddr []).drwAdvance := by
  unfold State.drwRead
  dsimp only
  rw [if_neg (Nat.not_le.mpr hcap), State.drwEcc_clean, State.drwWord_of_data hcap hcheck, hpre]
  simp

theorem exec_drwDataRead_returns (hr : s.Reaches Pg.DRW) (hpre : s.host.preWords = []) (hcap : s.drwAddr < s.dramCapacity)
    (hcheck : s.checkBits s.drwAddr = false) :
    ∃ t, exec (.drwDataRead .clean) s = .next t ∧ t.host.rdata = s.dramWord s.drwAddr ∧
      t.drwAddr = (if s.flag Pg.DRW DRW.MODE then (s.drwAddr + 4) % 2 ^ 37 else s.drwAddr) ∧ s.DramKept t ∧
      s.RegsKept (regsAt drwAddrRegs) t := by
  obtain ⟨at_, words, hprefetch⟩ := State.drwPrefetch_eq s.drwAddr [] (s.answer (s.dramWord s.drwAddr))
  refine ⟨_, finish_hostRead hr _, ?_, ?_, fun a => ?_, ?_⟩ <;> rw [State.drwRead_of_data hpre hcap hcheck, hprefetch]
  · rw [State.settle_rdata, State.drwAdvance_host]
    rfl
  · rw [State.drwAddr_settle]
    exact State.drwAddr_drwAdvance s rfl
  · rw [State.settle_dramByte, State.dramByte, State.drwAdvance_dram]
    rfl
  · exact State.regsKept_settle fun pg off hn hf => State.drwAdvance_regsKept _ pg off hn hf

end

/-- Settles O11: each command is one host access to page DRW, and what follows it touches neither the page nor DRAM. -/
theorem drwReadsAndWritesDram : Obligations.DrwReadsAndWritesDram := by
  refine fun s h => ⟨fun v => ⟨_, finish_hostWrite h _, ?_, State.drwSet_keeps s DRW.ADDR_LO (v.toNat / 4)⟩,
    fun v => ⟨_, finish_hostWrite h _, ?_, State.drwSet_keeps s DRW.ADDR_HI v.toNat⟩,
    fun v => ⟨_, finish_hostWrite h _, ?_, State.drwSet_keeps s DRW.MODE v.toNat⟩,
    fun v hok => exec_drwDataWrite_stores h hok, fun v hrefused => exec_drwDataWrite_refused h hrefused,
    exec_drwDataRead_returns h⟩
  · refine (State.get_drwSet s DRW.ADDR_LO (v.toNat / 4) (by decide)).trans (Nat.mod_eq_of_lt ?_)
    show v.toNat / 4 < 2 ^ 30
    have hv := v.isLt
    omega
  · exact State.get_drwSet s DRW.ADDR_HI v.toNat (by decide)
  · exact State.get_drwSet s DRW.MODE v.toNat (by decide)

/-! ### Events that are counted (R26, R40) -/

section
variable {s : State} {pg : Nat} {ev cnt : Fld}

/-- An event of a page with its counter: the bit is set, the counter has advanced, and no other register has changed. -/
theorem State.event_count_effect (hev : ev.off = CMN.EVENTS ∧ ev.w = 1 ∧ ev.lsb < 32)
    (hcnt : cnt.off ≠ CMN.EVENTS ∧ cnt.lsb + cnt.w ≤ 32) :
    ((s.event pg ev).count pg cnt).get pg ev = 1 ∧ s.Counted pg cnt ((s.event pg ev).count pg cnt) ∧
      s.RegsOnly (regsAt [(pg, CMN.EVENTS), (pg, cnt.off)]) ((s.event pg ev).count pg cnt) := by
  obtain ⟨hoff, hw, hlsb⟩ := hev
  obtain ⟨hbeside, hwidth⟩ := hcnt
  refine ⟨?_, State.counted_count hwidth (State.get_event_beside s pg ev cnt hbeside.symm) ?_, ?_⟩
  · rw [State.get_count_other _ (addrOf_ne (hoff ▸ hbeside)), State.get_event_same s pg ev hoff hw hlsb]
  · unfold State.flag
    rw [State.get_event_beside _ _ _ _ (by decide)]
  · exact State.regsOnly_count (State.regsOnly_event (State.regsOnly_refl _ s) (regsAt_of_mem (by simp)))
      (regsAt_of_mem (by simp))

end

/-! ### Interrupt vectors (R61, R270) -/

/-- A field of page HIF beside VEC_PEND reads after a command as the command has left it. -/
theorem State.get_settle_hif (s : State) (f : Fld) (hf : f.off < 4096 ∧ f.off ≠ HIF.VEC_PEND.off) :
    s.settle.get Pg.HIF f = s.get Pg.HIF f :=
  State.get_settle s (by decide) f hf

/-- The state with another record of the MSI messages sent. -/
def State.withMsi (msi : List Nat) (s : State) : State := { s with host := { s.host with msiSent := msi } }

theorem State.withMsi_get (msi : List Nat) (s : State) (pg : Nat) (f : Fld) : (s.withMsi msi).get pg f = s.get pg f := rfl

theorem State.regsOnly_withMsi {touched : Nat → Prop} {s u : State} (msi : List Nat) (h : s.RegsOnly touched u) :
    s.RegsOnly touched (u.withMsi msi) := by
  obtain ⟨hregs, regs, _, act, flt, total, since, rfl⟩ := h
  exact ⟨hregs, regs, msi, act, flt, total, since, rfl⟩

/-- Sending messages changes the record of messages sent alone. -/
theorem State.forEach_sendMsi_eq (l : List Nat) (s : State) : ∃ msi, forEach l State.sendMsi s = s.withMsi msi := by
  induction l generalizing s with
  | nil => exact ⟨_, rfl⟩
  | cons v l ih =>
    obtain ⟨msi, hmsi⟩ := ih (s.sendMsi v)
    refine ⟨msi, hmsi.trans ?_⟩
    unfold State.sendMsi
    split <;> rfl

/-- Where the summaries stand as they were followed, settling writes no register. -/
theorem State.settle_regs_of_followed {s : State} (hfaults : s.host.faults = s.faultSummary)
    (hactive : s.host.active = s.activeSources) : s.settle.regs = s.regs := by
  have hf : s.followFaults = s := if_pos hfaults.symm
  have hs : s.followSources = s := if_pos hactive.symm
  obtain ⟨total, since, ht, -⟩ := State.followTimebase_cases s
  unfold State.settle
  rw [hf, hs, ht]

theorem State.SettledTo.regsOnly {s t : State} {touched : Nat → Prop} (h : s.SettledTo t) : s.RegsOnly touched t :=
  ⟨fun pg off _ hfollows => h.reg pg off hfollows, _, _, _, _, _, _, h.rest⟩

/-- While no source is active, VEC_ACK clears what was written of VEC_PEND. -/
theorem State.vecAck_of_quiet {s : State} (h : s.activeSources = 0) (v : Word) :
    s.vecAck v = s.put Pg.HIF HIF.VEC_PEND (s.get Pg.HIF HIF.VEC_PEND &&& (0xFFFFFFFF ^^^ v.toNat)) := by
  have hquiet : (s.put Pg.HIF HIF.VEC_PEND (s.get Pg.HIF HIF.VEC_PEND &&& (0xFFFFFFFF ^^^ v.toNat))).activeSources = 0 :=
    (State.activeSources_setPend s _).trans h
  have hbit : ∀ i, bitOf 0 i ≠ 1 := by simp [bitOf]
  unfold State.vecAck
  dsimp only
  rw [hquiet, List.filter_eq_nil_iff.mpr fun i _ hany => ?_]
  · rfl
  · obtain ⟨n, -, hn⟩ := List.any_eq_true.mp hany
    simp [hbit] at hn

theorem exec_vecAck_clears {s : State} (hr : s.Reaches Pg.HIF) (hf : s.Followed) (hquiet : s.activeSources = 0) (v : Word) :
    ∃ t, exec (.vecAck v) s = .next t ∧
      t.get Pg.HIF HIF.VEC_PEND = s.get Pg.HIF HIF.VEC_PEND &&& (0xFFFFFFFF ^^^ v.toNat) ∧ s.RegsOnly (fun _ => False) t := by
  obtain ⟨hfaults, hactive, -⟩ := hf
  refine ⟨_, finish_hostWrite hr _, ?_, ?_⟩ <;> rw [State.vecAck_of_quiet hquiet]
  · have hregs := State.settle_regs_of_followed
      (s := s.put Pg.HIF HIF.VEC_PEND (s.get Pg.HIF HIF.VEC_PEND &&& (0xFFFFFFFF ^^^ v.toNat)))
      (by rw [State.put_host, hfaults]; exact (State.faultSummary_setPend s _).symm)
      (by rw [State.put_host, hactive]; exact (State.activeSources_setPend s _).symm)
    rw [State.get_congr hregs, State.get_put_same _ _ _ _ (by decide)]
    exact Nat.mod_eq_of_lt (lt_of_le_of_lt Nat.and_le_left (Fld.of_lt _ _))
  · exact State.regsOnly_settle (State.settledTo_setReg s _ _ _ rfl).regsOnly

theorem exec_vecMaskWrite_sets {s : State} (hr : s.Reaches Pg.HIF) (v : Word) :
    ∃ t, exec (.vecMaskWrite v) s = .next t ∧ t.get Pg.HIF HIF.VEC_MASK = v.toNat ∧
      s.RegsOnly (regsAt [(Pg.HIF, HIF.VEC_MASK.off)]) t := by
  have hmask : ∃ msi, s.vecMask v = (s.put Pg.HIF HIF.VEC_MASK v.toNat).withMsi msi := State.forEach_sendMsi_eq _ _
  obtain ⟨msi, hmask⟩ := hmask
  refine ⟨_, finish_hostWrite hr _, ?_, ?_⟩ <;> rw [hmask]
  · rw [State.get_settle_hif _ _ (by decide), State.withMsi_get, State.get_put_same _ _ _ _ (by decide)]
    exact Nat.mod_eq_of_lt v.isLt
  · exact State.regsOnly_settle (State.regsOnly_withMsi msi (State.regsOnly_setReg_self s _ _ _))

theorem exec_xingTimeout_read {s : State} (hr : s.unreachable = false) :
    ∃ t, exec (.xingTimeout true) s = .next t ∧ t.host.rdata = 0xFFFFFFFF ∧
      t.get Pg.HIF HIF.EV_XING_TIMEOUT = 1 ∧ s.Counted Pg.HIF HIF.XING_TO_CNT t ∧
      s.RegsKept (regsAt [(Pg.HIF, CMN.EVENTS), (Pg.HIF, HIF.XING_TO_CNT.off)]) t ∧ s.DramKept t := by
  have hexec : exec (.xingTimeout true) s = .next (s.xingTimeout.answer 0xFFFFFFFF).settle := by
    show finish (onlyIf (!s.unreachable) _ s) = _
    rw [hr]
    rfl
  obtain ⟨hevent, hcount, hregs⟩ := State.event_count_effect (s := s) (pg := Pg.HIF) (ev := HIF.EV_XING_TIMEOUT)
    (cnt := HIF.XING_TO_CNT) (by decide) (by decide)
  refine ⟨_, hexec, State.settle_rdata _, ?_, hcount.of_get ?_, State.regsKept_settle hregs.1, fun a => ?_⟩
  · exact (State.get_settle_hif _ _ (by decide)).trans hevent
  · exact State.get_settle_hif _ _ (by decide)
  · exact (State.settle_dramByte _ a).trans (hregs.dram a)

/-- From the tick at which one of its records is older than INT_HOLD_US a ring is active. -/
theorem State.ringActive_of_aged {s : State} {n : Nat} {r : Rec} (hr : r ∈ (s.ring n).recs)
    (hhold : s.get Pg.WAD (WAD.INT_HOLD_US.nth n) ≠ 0)
    (hage : usTicks (s.get Pg.WAD (WAD.INT_HOLD_US.nth n)) ≤ s.time - r.at_) : s.ringActive n = true := by
  have hne : (s.ring n).recs ≠ [] := List.ne_nil_of_mem hr
  have hany : ((s.ring n).recs.any fun e => decide (usTicks (s.get Pg.WAD (WAD.INT_HOLD_US.nth n)) ≤ s.time - e.at_)) = true :=
    List.any_eq_true.mpr ⟨r, hr, decide_eq_true hage⟩
  unfold State.ringActive
  dsimp only
  split
  · exact decide_eq_true hne
  · rw [decide_eq_true hne, decide_eq_true hhold, hany]
    exact Bool.or_true _

theorem exec_ringHoldExpiry_activates {s : State} {tick : Nat} {ring : Fin 64} {r : Rec} (hr : r ∈ (s.ring ring.val).recs)
    (hhold : s.get Pg.WAD (WAD.INT_HOLD_US.nth ring.val) ≠ 0)
    (hage : usTicks (s.get Pg.WAD (WAD.INT_HOLD_US.nth ring.val)) ≤ tick - r.at_) :
    ∃ t, exec (.ringHoldExpiry tick ring) s = .next t ∧ t.ringActive ring.val = true ∧
      (t.ring ring.val).recs = (s.ring ring.val).recs ∧ s.RegsKept (fun _ => False) t ∧ s.DramKept t := by
  refine ⟨(s.atTick tick).settle, rfl, ?_, ?_, State.regsKept_settle fun _ _ _ _ => rfl, fun a => State.settle_dramByte _ a⟩
  · have hget : (s.atTick tick).settle.get Pg.WAD (WAD.INT_HOLD_US.nth ring.val) = s.get Pg.WAD (WAD.INT_HOLD_US.nth ring.val) :=
      State.get_settle_beside _ (by decide) (by show 0x408 + 16 * ring.val < 4096; omega)
    have htime : tick ≤ (s.atTick tick).settle.time := by
      rw [State.settle_time]
      exact Nat.le_max_right _ _
    refine State.ringActive_of_aged (r := r) (by rw [State.ring_settle]; exact hr) (by rw [hget]; exact hhold) ?_
    rw [hget]
    omega
  · rw [State.ring_settle]
    rfl

/-- Settles O12: with nothing active a settling raises no vector, an abandoned handshake is an event that is counted, and the age of
a record is read when the ring is. -/
theorem vectorsAndAbandonedAccesses : Obligations.VectorsAndAbandonedAccesses := fun _ =>
  ⟨exec_vecAck_clears, exec_vecMaskWrite_sets, exec_xingTimeout_read, fun _ _ _ => exec_ringHoldExpiry_activates⟩

/-! ### The PCIe endpoint (R26, R28, R29, R61) -/

theorem onlyIf_true (f : State → State) (s : State) : onlyIf true f s = f s := if_pos rfl

section
variable {s : State} (hp : s.onPcie = true) (hr : s.unreachable = false)
include hp hr

theorem exec_pcieLongRead_refused (addr : BitVec 24) {ndw : Nat} (hn : 1 < ndw) :
    exec (.pcieLongRead addr ndw) s = .next ({ s with host := { s.host with urCount := s.host.urCount + 1 } } : State).settle := by
  show finish (onlyIf (s.onPcie && !s.unreachable && decide (1 < ndw)) _ s) = _
  rw [hp, hr, decide_eq_true hn]
  exact congrArg finish (onlyIf_true _ s)

theorem exec_pcieBadWrite_dropped (addr : BitVec 24) {ndw : Nat} {be : BitVec 4} (hbad : 1 < ndw ∨ be ≠ 0xF) :
    exec (.pcieBadWrite addr ndw be) s = .next s.badWrite.settle := by
  have hc : (decide (1 < ndw) || decide (be ≠ 0xF)) = true := by simpa using hbad
  show finish (onlyIf (s.onPcie && !s.unreachable && (decide (1 < ndw) || decide (be ≠ 0xF))) _ s) = _
  rw [hp, hr, hc]
  exact congrArg finish (onlyIf_true _ s)

omit hr

theorem exec_pcieD3hotEntry : exec .pcieD3hotEntry s = .next ({ s with host := { s.host with d3hot := true } } : State).settle := by
  show finish (onlyIf s.onPcie _ s) = _
  rw [hp]
  exact congrArg finish (onlyIf_true _ s)

theorem exec_pcieLinkUp (msi : MsiConfig) : exec (.pcieLinkUp msi) s = .next (s.linkIsUp msi).settle := by
  show finish (onlyIf s.onPcie _ s) = _
  rw [hp]
  exact congrArg finish (onlyIf_true _ s)

theorem exec_pcieLinkReset {cause : LinkResetCause} (hc : cause ≠ .d3Return) :
    exec (.pcieLinkReset cause) s = .next (s.endpointReset.dropPushes.put Pg.HIF HIF.LINK_UP 0).settle := by
  show finish (onlyIf (s.onPcie && (decide (cause ≠ .d3Return) || s.host.d3hot)) _ s) = _
  rw [hp, decide_eq_true hc]
  cases cause
  case linkDown => exact congrArg finish (onlyIf_true _ s)
  case hotReset => exact congrArg finish (onlyIf_true _ s)
  case d3Return => exact absurd rfl hc

end

theorem State.settle_d3hot_msiMask (s : State) : s.settle.host.d3hot = s.host.d3hot ∧ s.settle.host.msiMask = s.host.msiMask := by
  rw [(State.settle_settled s).rest]; exact ⟨rfl, rfl⟩

/-! #### Tables without double keys -/

theorem Tab.find?_of_rising {α : Type} {t : Tab α} {b k : Nat} (h : Tab.rising b t = true) (hk : k < b) : Tab.find? t k = none := by
  induction t generalizing b with
  | nil => rfl
  | cons e t ih =>
    simp only [Tab.rising, Bool.and_eq_true, decide_eq_true_eq] at h
    obtain ⟨hb, ht⟩ := h
    rw [Tab.find?_cons, if_neg (by omega), ih ht (by omega)]

/-- Where no key is listed twice, the entries that stand at their default may be dropped. -/
theorem Tab.get_filter_default {α : Type} [DecidableEq α] (d : α) {t : Tab α} {b : Nat} (h : Tab.rising b t = true) (k : Nat) :
    Tab.get (fun _ => d) (t.filter fun e => decide (e.2 ≠ d)) k = Tab.get (fun _ => d) t k := by
  induction t generalizing b with
  | nil => rfl
  | cons e t ih =>
    obtain ⟨j, v⟩ := e
    simp only [Tab.rising, Bool.and_eq_true, decide_eq_true_eq] at h
    obtain ⟨-, ht⟩ := h
    have htail := ih ht
    unfold Tab.get at htail ⊢
    by_cases hv : v = d
    · rw [List.filter_cons_of_neg (by simp [hv]), htail, Tab.find?_cons]
      by_cases hj : j = k
      · rw [if_pos hj, Tab.find?_of_rising ht (by omega), hv]
        rfl
      · rw [if_neg hj]
    · rw [List.filter_cons_of_pos (by simp [hv]), Tab.find?_cons, Tab.find?_cons]
      split
      · rfl
      · exact htail

theorem Tab.rising_map {α β : Type} (g : α → β) (t : Tab α) (b : Nat) :
    Tab.rising b (t.map fun e => (e.1, g e.2)) = Tab.rising b t := by
  induction t generalizing b with
  | nil => rfl
  | cons e t ih => rw [List.map_cons, Tab.rising, Tab.rising, ih]

/-- With each window listed once, a link reset closes every open push and leaves the rest of each window alone. -/
theorem State.window_dropPushes {s : State} (h : Tab.rising 0 s.host.win = true) (n : Nat) :
    s.dropPushes.window n = { s.window n with push := none } := by
  have hmap : Tab.rising 0 (s.host.win.map fun e => (e.1, ({ e.2 with push := none } : Window))) = true :=
    (Tab.rising_map (fun w : Window => ({ w with push := none } : Window)) s.host.win 0).trans h
  refine (Tab.get_filter_default Window.idle hmap n).trans ?_
  unfold State.window Tab.get
  rw [Tab.find?_map fun w : Window => ({ w with push := none } : Window)]
  cases Tab.find? s.host.win n with
  | none => rfl
  | some w => rfl

theorem State.dropPushes_get (s : State) (pg : Nat) (f : Fld) : s.dropPushes.get pg f = s.get pg f := rfl

/-! #### Messages of vectors (R61) -/

/-- What sending messages appends stays on record. -/
theorem State.msiSent_sendMsi {s : State} {x : Nat} (v : Nat) (h : x ∈ s.host.msiSent) : x ∈ (s.sendMsi v).host.msiSent := by
  unfold State.sendMsi
  split
  · exact List.mem_append_left _ h
  · exact h

theorem State.msiSent_raiseVec {s : State} {x : Nat} (v : Nat) (h : x ∈ s.host.msiSent) : x ∈ (s.raiseVec v).host.msiSent := by
  rcases State.raiseVec_cases v s with hsame | ⟨w, hset⟩
  · rw [hsame]; exact h
  · rw [hset]; exact State.msiSent_sendMsi v h

theorem State.msiSent_followFaults (s : State) : s.followFaults.host.msiSent = s.host.msiSent := by
  have hevent : ∀ (c : Bool) (f : Fld) (u : State), (onlyIf c (State.event Pg.GLB f) u).host = u.host := by
    intro c f u
    unfold onlyIf
    split <;> rfl
  unfold State.followFaults
  dsimp only
  split
  · rfl
  · dsimp only
    rw [hevent, hevent]

/-- What follows a command takes back no message. -/
theorem State.msiSent_settle {s : State} {x : Nat} (h : x ∈ s.host.msiSent) : x ∈ s.settle.host.msiSent := by
  obtain ⟨total, since, ht, -⟩ := State.followTimebase_cases s.followFaults.followSources
  have hfaults : x ∈ s.followFaults.host.msiSent := State.msiSent_followFaults s ▸ h
  unfold State.settle
  rw [ht]
  rcases State.followSources_cases s.followFaults with ⟨hs, -⟩ | hs | ⟨l, hs⟩
  · rw [hs]; exact hfaults
  · rw [hs]; exact hfaults
  · rw [hs]
    exact forEach_keeps (fun u => x ∈ u.host.msiSent) l _ (fun i u _ hu => State.msiSent_raiseVec _ hu) hfaults

/-- Of the listed vectors one that is unmasked sends its message. -/
theorem State.msiSent_forEach_sendMsi {l : List Nat} {v : Nat} (hv : v ∈ l) {s : State} (hen : s.flag Pg.HIF HIF.LINK_MSI_EN = true)
    (hmask : bitOf (s.get Pg.HIF HIF.VEC_MASK) v = 0) (hmsi : bitOf s.host.msiMask v = 0) :
    msiData (s.get Pg.HIF HIF.LINK_MSI_LOG2) v ∈ (forEach l State.sendMsi s).host.msiSent := by
  induction l generalizing s with
  | nil => cases hv
  | cons w l ih =>
    by_cases hw : v = w
    · subst hw
      have hsent : msiData (s.get Pg.HIF HIF.LINK_MSI_LOG2) v ∈ (s.sendMsi v).host.msiSent := by
        unfold State.sendMsi
        rw [if_pos ⟨hen, hmask, hmsi⟩]
        exact List.mem_append_right _ List.mem_cons_self
      exact forEach_keeps (fun u => _ ∈ u.host.msiSent) l _ (fun i u _ hu => State.msiSent_sendMsi i hu) hsent
    · obtain ⟨msi, hmsg⟩ := State.forEach_sendMsi_eq [w] s
      have hstep : s.sendMsi w = s.withMsi msi := hmsg
      show _ ∈ (forEach l State.sendMsi (s.sendMsi w)).host.msiSent
      rw [hstep]
      exact ih ((List.mem_cons.mp hv).resolve_left hw) (s := s.withMsi msi) hen hmask hmsi

/-! #### The requests and the link -/

section
variable {s : State} (hp : s.onPcie = true) (hr : s.unreachable = false)
include hp hr

theorem exec_pcieLongRead_counts (addr : BitVec 24) {ndw : Nat} (hn : 1 < ndw) :
    ∃ t, exec (.pcieLongRead addr ndw) s = .next t ∧ t.host.urCount = s.host.urCount + 1 ∧
      State.RegsOnly (fun _ => False) { s with host := { s.host with urCount := s.host.urCount + 1 } } t :=
  ⟨_, exec_pcieLongRead_refused hp hr addr hn, State.settle_urCount _, State.regsOnly_settle (State.regsOnly_refl _ _)⟩

theorem exec_pcieBadWrite_counts (addr : BitVec 24) {ndw : Nat} {be : BitVec 4} (hbad : 1 < ndw ∨ be ≠ 0xF) :
    ∃ t, exec (.pcieBadWrite addr ndw be) s = .next t ∧ t.get Pg.HIF HIF.EV_BAD_WR = 1 ∧
      s.Counted Pg.HIF HIF.BAD_WR_CNT t ∧ s.RegsOnly (regsAt [(Pg.HIF, CMN.EVENTS), (Pg.HIF, HIF.BAD_WR_CNT.off)]) t := by
  obtain ⟨hevent, hcount, hregs⟩ := State.event_count_effect (s := s) (pg := Pg.HIF) (ev := HIF.EV_BAD_WR)
    (cnt := HIF.BAD_WR_CNT) (by decide) (by decide)
  exact ⟨_, exec_pcieBadWrite_dropped hp hr addr hbad, (State.get_settle_hif _ _ (by decide)).trans hevent,
    hcount.of_get (State.get_settle_hif _ _ (by decide)), State.regsOnly_settle hregs⟩

omit hr

theorem exec_pcieD3hotEntry_enters : ∃ t, exec .pcieD3hotEntry s = .next t ∧
    State.RegsOnly (fun _ => False) { s with host := { s.host with d3hot := true } } t :=
  ⟨_, exec_pcieD3hotEntry hp, State.regsOnly_settle (State.regsOnly_refl _ _)⟩

end

/-- The state with other mask bits of the MSI capability. -/
def State.withMsiMask (m : Nat) (s : State) : State := { s with host := { s.host with msiMask := m } }

theorem State.withMsiMask_get (m : Nat) (s : State) (pg : Nat) (f : Fld) : (s.withMsiMask m).get pg f = s.get pg f := rfl

theorem State.regsOnly_withMsiMask {touched : Nat → Prop} {s u : State} (m : Nat) (h : s.RegsOnly touched u) :
    (s.withMsiMask m).RegsOnly touched (u.withMsiMask m) := by
  obtain ⟨hregs, regs, sent, act, flt, total, since, rfl⟩ := h
  exact ⟨hregs, regs, sent, act, flt, total, since, rfl⟩

/-- The link is shown up with the root complex's settings. -/
def State.linkShown (msi : MsiConfig) (s : State) : State :=
  ((s.put Pg.HIF HIF.LINK_UP 1).put Pg.HIF HIF.LINK_MSI_EN msi.enable.toNat).put Pg.HIF HIF.LINK_MSI_LOG2
    (Nat.min 5 msi.granted.toNat)

section
variable (s : State) (msi : MsiConfig)

theorem State.get_linkShown_other {f : Fld} (hf : HIF.LINK_UP.off ≠ f.off) : (s.linkShown msi).get Pg.HIF f = s.get Pg.HIF f := by
  have hother : ∀ (g : Fld) (v : Nat) (u : State), g.off = HIF.LINK_UP.off → (u.put Pg.HIF g v).get Pg.HIF f = u.get Pg.HIF f :=
    fun g v u hg => State.get_put_other u v (addrOf_ne (hg ▸ hf))
  exact (hother HIF.LINK_MSI_LOG2 _ _ rfl).trans ((hother HIF.LINK_MSI_EN _ _ rfl).trans (hother HIF.LINK_UP _ _ rfl))

theorem State.get_linkShown_up : (s.linkShown msi).get Pg.HIF HIF.LINK_UP = 1 := by
  rw [State.linkShown, State.get_put_beside _ _ _ _ _ (by decide), State.get_put_beside _ _ _ _ _ (by decide),
    State.get_put_same _ _ _ _ (by decide)]
  rfl

theorem State.get_linkShown_msiEn : (s.linkShown msi).get Pg.HIF HIF.LINK_MSI_EN = msi.enable.toNat := by
  rw [State.linkShown, State.get_put_beside _ _ _ _ _ (by decide), State.get_put_bit _ _ _ _ (by decide) rfl]

theorem State.get_linkShown_log2 : (s.linkShown msi).get Pg.HIF HIF.LINK_MSI_LOG2 = Nat.min 5 msi.granted.toNat := by
  rw [State.linkShown, State.get_put_same _ _ _ _ (by decide)]
  exact Nat.mod_eq_of_lt (lt_of_le_of_lt (Nat.min_le_left _ _) (by decide))

theorem State.regsOnly_linkShown : s.RegsOnly (regsAt [(Pg.HIF, HIF.LINK_UP.off)]) (s.linkShown msi) := by
  have hlink : regsAt [(Pg.HIF, HIF.LINK_UP.off)] (addrOf Pg.HIF HIF.LINK_UP.off) := regsAt_of_mem List.mem_cons_self
  exact State.regsOnly_put _ (State.regsOnly_put _ (State.regsOnly_put _ (State.regsOnly_refl _ s) hlink) hlink) hlink

/-- MSI is enabled and the capability does not mask vector v. -/
def State.msiAllows (s : State) (v : Nat) : Bool := s.flag Pg.HIF HIF.LINK_MSI_EN && decide (bitOf s.host.msiMask v = 0)

/-- The pending vectors that become unmasked from `s` to `t`. -/
def State.newlyUnmasked (s t : State) : List Nat :=
  (List.range 32).filter fun v => t.msiAllows v && !((List.range 32).filter s.msiAllows).contains v &&
    decide (bitOf (t.get Pg.HIF HIF.VEC_PEND) v = 1)

theorem State.mem_newlyUnmasked {s t : State} {v : Nat} (hv : v < 32) (hpend : bitOf (t.get Pg.HIF HIF.VEC_PEND) v = 1)
    (ht : t.msiAllows v = true) (hs : s.msiAllows v = false) : v ∈ s.newlyUnmasked t := by
  refine List.mem_filter.mpr ⟨List.mem_range.mpr hv, ?_⟩
  have hnot : ((List.range 32).filter s.msiAllows).contains v = false := by
    rw [List.contains_eq_mem, decide_eq_false]
    intro hmem
    exact absurd (hs.symm.trans (List.mem_filter.mp hmem).2) Bool.false_ne_true
  rw [ht, hnot, decide_eq_true hpend]
  rfl

/-- As it comes up the link sends the messages of the pending vectors that the root complex's settings unmask. -/
theorem State.linkIsUp_eq : s.linkIsUp msi = forEach ((s.put Pg.HIF HIF.LINK_UP 1).newlyUnmasked
    ((s.linkShown msi).withMsiMask msi.mask.toNat)) State.sendMsi ((s.linkShown msi).withMsiMask msi.mask.toNat) := rfl

variable {s msi} in
theorem State.mem_unmasked_of_linkUp {v : Nat} (hv : v < 32) (hpend : bitOf (s.get Pg.HIF HIF.VEC_PEND) v = 1)
    (hen : msi.enable = true) (hmsi : bitOf msi.mask.toNat v = 0)
    (hwas : s.flag Pg.HIF HIF.LINK_MSI_EN = false ∨ bitOf s.host.msiMask v = 1) :
    v ∈ (s.put Pg.HIF HIF.LINK_UP 1).newlyUnmasked ((s.linkShown msi).withMsiMask msi.mask.toNat) := by
  refine State.mem_newlyUnmasked hv ?_ ?_ ?_
  · rw [State.withMsiMask_get, State.get_linkShown_other s msi (by decide)]
    exact hpend
  · unfold State.msiAllows State.flag
    rw [State.withMsiMask_get, State.get_linkShown_msiEn, hen]
    exact decide_eq_true hmsi
  · unfold State.msiAllows State.flag
    rw [State.get_put_beside _ _ _ _ _ (by decide), State.put_host]
    rcases hwas with hoff | hmasked
    · rw [show decide (s.get Pg.HIF HIF.LINK_MSI_EN ≠ 0) = false from hoff]
      rfl
    · rw [hmasked]
      exact Bool.and_false _

end

theorem exec_pcieLinkUp_configures {s : State} (hp : s.onPcie = true) (msi : MsiConfig) :
    ∃ t, exec (.pcieLinkUp msi) s = .next t ∧ t.get Pg.HIF HIF.LINK_UP = 1 ∧
      t.get Pg.HIF HIF.LINK_MSI_EN = msi.enable.toNat ∧ t.get Pg.HIF HIF.LINK_MSI_LOG2 = Nat.min 5 msi.granted.toNat ∧
      (∀ v, v < 32 → bitOf (s.get Pg.HIF HIF.VEC_PEND) v = 1 → bitOf (s.get Pg.HIF HIF.VEC_MASK) v = 0 → msi.enable = true →
        bitOf msi.mask.toNat v = 0 → s.flag Pg.HIF HIF.LINK_MSI_EN = false ∨ bitOf s.host.msiMask v = 1 →
        msiData (Nat.min 5 msi.granted.toNat) v ∈ t.host.msiSent) ∧
      State.RegsOnly (regsAt [(Pg.HIF, HIF.LINK_UP.off)]) { s with host := { s.host with msiMask := msi.mask.toNat } } t := by
  obtain ⟨sent, hsent⟩ := State.forEach_sendMsi_eq ((s.put Pg.HIF HIF.LINK_UP 1).newlyUnmasked
    ((s.linkShown msi).withMsiMask msi.mask.toNat)) ((s.linkShown msi).withMsiMask msi.mask.toNat)
  have hget : ∀ f : Fld, f.off < 4096 ∧ f.off ≠ HIF.VEC_PEND.off → (s.linkIsUp msi).settle.get Pg.HIF f =
      (s.linkShown msi).get Pg.HIF f := by
    intro f hf
    rw [State.get_settle_hif _ _ hf, State.linkIsUp_eq, hsent, State.withMsi_get, State.withMsiMask_get]
  refine ⟨_, exec_pcieLinkUp hp msi, ?_, ?_, ?_, fun v hv hpend hmask hen hmsi hwas => ?_, State.regsOnly_settle ?_⟩
  · rw [hget _ (by decide), State.get_linkShown_up]
  · rw [hget _ (by decide), State.get_linkShown_msiEn]
  · rw [hget _ (by decide), State.get_linkShown_log2]
  · refine State.msiSent_settle ?_
    rw [State.linkIsUp_eq, ← State.get_linkShown_log2 s msi]
    refine State.msiSent_forEach_sendMsi (State.mem_unmasked_of_linkUp hv hpend hen hmsi hwas) ?_ ?_ hmsi
    · unfold State.flag
      rw [State.withMsiMask_get, State.get_linkShown_msiEn, hen]
      rfl
    · rw [State.withMsiMask_get, State.get_linkShown_other s msi (by decide)]
      exact hmask
  · rw [State.linkIsUp_eq, hsent]
    exact State.regsOnly_withMsi sent (State.regsOnly_withMsiMask _ (State.regsOnly_linkShown s msi))

/-! #### A window that is listed twice -/

/-- A record waiting to be read. -/
def openRec : Rec := ⟨[7, 0, 0, 0, 0, 0, 0, 0], [1, 2, 3, 4], 0⟩

/-- Window 0 listed twice: with an open push, and behind it with an open record. No canonical table lists a window twice. -/
def State.doubledWindow : State :=
  { State.reset with host := { State.reset.host with win :=
      [(0, { Window.idle with push := some ⟨[0, 0, 0, 0], [], false⟩ }), (0, { Window.idle with pop := some (openRec, 0) })] } }

/-- Refutes O5: the statement ranges over window tables that are not canonical. Where one lists a window twice, discarding the open
push of the first entry leaves it idle and drops it from the table, and the window then reads the second entry's record. Where no
window is listed twice each of the five clauses holds: `exec_pcieLongRead_counts`, `exec_pcieBadWrite_counts`,
`exec_pcieD3hotEntry_enters`, `exec_pcieLinkUp_configures` (these four in every state) and `exec_pcieLinkReset_resets`. -/
theorem not_pcieRequestsAndLink : ¬ Obligations.PcieRequestsAndLink := by
  intro hall
  obtain ⟨-, -, -, -, hreset⟩ := hall State.doubledWindow (by decide) (by decide)
  obtain ⟨t, hexec, -, -, -, -, hwindows, -⟩ := hreset .hotReset (by decide)
  have ht := (exec_pcieLinkReset (s := State.doubledWindow) (by decide) (cause := .hotReset) (by decide)).symm.trans hexec
  cases ht
  have hpop := (hwindows 0).2
  rw [State.window_settle] at hpop
  have hafter : ((State.doubledWindow.endpointReset.dropPushes.put Pg.HIF HIF.LINK_UP 0).window 0).pop = some (openRec, 0) := by
    decide
  have hbefore : (State.doubledWindow.window 0).pop = none := by decide
  rw [hafter, hbefore] at hpop
  cases hpop

end Sys2Proof.Machine

/-! ## Support of the statements about the mains timebase and transmissions: the frame of what they change, reads of registers, and the
phase clock. -/

namespace Sys2Proof.Machine

/-! ### What the timebase and transmissions may change -/

/-- The state with other registers, bytes of DRAM, and records of the timebase, transmit synthesis and medium access. -/
def State.withUnits (regs : Tab Word) (dram : Tab Byte) (mtb : MtbSt) (txs : TxsSt) (mac : MacSt) (s : State) : State :=
  { s with regs := regs, dram := dram, mtb := mtb, txs := txs, mac := mac }

/-- Between `s` and `u` nothing has changed but registers that `touched` admits, DRAM, and the records of the timebase, transmit
synthesis and medium access. -/
structure State.UnitsOnly (touched : Nat → Prop) (s u : State) : Prop where
  kept : s.RegsKept touched u
  rest : u = s.withUnits u.regs u.dram u.mtb u.txs u.mac

section
variable {touched : Nat → Prop} {s u : State}

theorem State.unitsOnly_refl (touched : Nat → Prop) (s : State) : s.UnitsOnly touched s := ⟨fun _ _ _ _ => rfl, rfl⟩

theorem State.UnitsOnly.setReg (h : s.UnitsOnly touched u) {pg off : Nat} (v : Word) (ht : touched (addrOf pg off)) :
    s.UnitsOnly touched (u.setReg pg off v) := by
  refine ⟨fun pg' off' hn hf => ?_, congrArg (State.setReg pg off v) h.rest⟩
  rw [State.reg_setReg_other _ v fun he => hn (he ▸ ht)]
  exact h.kept pg' off' hn hf

theorem State.UnitsOnly.put (h : s.UnitsOnly touched u) {pg : Nat} {f : Fld} (v : Nat) (ht : touched (addrOf pg f.off)) :
    s.UnitsOnly touched (u.put pg f v) := h.setReg _ ht

theorem State.UnitsOnly.event (h : s.UnitsOnly touched u) {pg : Nat} {f : Fld} (ht : touched (addrOf pg CMN.EVENTS)) :
    s.UnitsOnly touched (u.event pg f) := h.setReg _ ht

theorem State.UnitsOnly.count (h : s.UnitsOnly touched u) {pg : Nat} {f : Fld} (ht : touched (addrOf pg f.off)) :
    s.UnitsOnly touched (u.count pg f) := by
  unfold State.count State.countBy
  split
  · exact h
  · exact h.put _ ht

theorem State.UnitsOnly.withUnits (h : s.UnitsOnly touched u) (dram : Tab Byte) (mtb : MtbSt) (txs : TxsSt) (mac : MacSt) :
    s.UnitsOnly touched (u.withUnits u.regs dram mtb txs mac) := by
  have hr := congrArg (State.withUnits u.regs dram mtb txs mac) h.rest
  exact ⟨h.kept, hr⟩

theorem State.UnitsOnly.trans {v : State} (h : s.UnitsOnly touched u) (k : u.UnitsOnly touched v) : s.UnitsOnly touched v := by
  refine ⟨fun pg off hn hf => (k.kept pg off hn hf).trans (h.kept pg off hn hf), ?_⟩
  have hk := k.rest
  rw [h.rest] at hk
  exact hk

/-- The frame of a command that changes those units. -/
theorem State.UnitsOnly.regsOnly_settle (h : s.UnitsOnly touched u) :
    State.RegsOnly touched { s with dram := u.dram, mtb := u.mtb, txs := u.txs, mac := u.mac } u.settle :=
  State.regsOnly_settle ⟨h.kept, u.regs, s.host.msiSent, s.host.active, s.host.faults, s.lnk.outTotal, s.lnk.outSince, h.rest⟩

/-- The frame of a command that changes the timebase and transmit synthesis. -/
theorem State.UnitsOnly.regsOnly_clock (h : s.UnitsOnly touched u) (hd : u.dram = s.dram) (hm : u.mac = s.mac) :
    State.RegsOnly touched { s with mtb := u.settle.mtb, txs := u.settle.txs } u.settle := by
  have hr := h.regsOnly_settle
  rw [hd, hm] at hr
  rw [State.settle_mtb, State.settle_txs]
  exact hr

end

/-! ### Reads of fields of a page -/

section
variable (s : State) {pg : Nat} {f g : Fld}

/-- A counter changes no field in another register of its page. -/
theorem State.get_count_beside (h : f.off ≠ g.off) : (s.count pg f).get pg g = s.get pg g :=
  State.get_count_other s (addrOf_ne h)

/-- A counter changes no field of another page. -/
theorem State.get_count_otherPage {pg' : Nat} (h : pg ≠ pg' ∧ f.off < 4096 ∧ g.off < 4096) :
    (s.count pg f).get pg' g = s.get pg' g :=
  State.get_count_other s fun he => h.1 (addrOf_inj h.2.1 h.2.2 he).1

theorem State.get_put_otherPage {pg' : Nat} (v : Nat) (h : pg ≠ pg' ∧ f.off < 4096 ∧ g.off < 4096) :
    (s.put pg f v).get pg' g = s.get pg' g :=
  State.get_put_other s v fun he => h.1 (addrOf_inj h.2.1 h.2.2 he).1

theorem State.get_event_otherPage {pg' : Nat} (h : pg ≠ pg' ∧ g.off < 4096) : (s.event pg f).get pg' g = s.get pg' g :=
  State.get_event_other s fun he => h.1 (addrOf_inj (by decide) h.2 he).1

/-- An event bit reads set after its event. -/
theorem State.get_event_set (h : f.off = CMN.EVENTS ∧ f.w = 1 ∧ f.lsb < 32) : (s.event pg f).get pg f = 1 := by
  obtain ⟨hoff, hw, hlsb⟩ := h
  exact State.get_event_same s pg f hoff hw hlsb

/-- An event sets no other event bit of its page. -/
theorem State.get_event_otherBit (h : g.off = CMN.EVENTS ∧ g.w = 1 ∧ f.lsb < 32 ∧ g.lsb ≠ f.lsb) :
    (s.event pg f).get pg g = s.get pg g := by
  obtain ⟨hoff, hw, hlsb, hne⟩ := h
  exact State.get_event_apart s hoff hw hlsb hne

/-- Outside pages GLB and HIF no flag sees what follows a command. -/
theorem State.flag_settle_beside (hg : pg ≠ Pg.GLB ∧ pg ≠ Pg.HIF) (hf : f.off < 4096) :
    s.settle.flag pg f = s.flag pg f := by
  unfold State.flag
  rw [State.get_settle_beside s hg hf]

end

/-- A counter that a command advances, none of its other writes touching the counter or FREEZE_CNT. -/
theorem State.counted_settle {s u v : State} {pg : Nat} {f : Fld} (hpg : pg ≠ Pg.GLB ∧ pg ≠ Pg.HIF)
    (hf : f.off < 4096 ∧ f.lsb + f.w ≤ 32) (hv : v.get pg f = (u.count pg f).get pg f) (hg : u.get pg f = s.get pg f)
    (hz : u.get pg CTRL.FREEZE_CNT = s.get pg CTRL.FREEZE_CNT) : s.Counted pg f v.settle := by
  have hflag : u.flag pg CTRL.FREEZE_CNT = s.flag pg CTRL.FREEZE_CNT := by
    unfold State.flag
    rw [hz]
  refine (State.counted_count hf.2 hg hflag).of_get ?_
  rw [State.get_settle_beside v hpg hf.1, hv]

/-! ### The phase clock (R64, R71) -/

/-- The state with another record of the timebase. -/
def State.withMtb (m : MtbSt) (s : State) : State := { s with mtb := m }

section
variable (m : MtbSt) (s : State)

@[simp] theorem State.withMtb_mtb : (s.withMtb m).mtb = m := (rfl)
@[simp] theorem State.withMtb_time : (s.withMtb m).time = s.time := (rfl)
@[simp] theorem State.withMtb_txs : (s.withMtb m).txs = s.txs := (rfl)
@[simp] theorem State.withMtb_mac : (s.withMtb m).mac = s.mac := (rfl)
@[simp] theorem State.withMtb_dram : (s.withMtb m).dram = s.dram := (rfl)
@[simp] theorem State.withMtb_reg (pg off : Nat) : (s.withMtb m).reg pg off = s.reg pg off := (rfl)
@[simp] theorem State.withMtb_get (pg : Nat) (f : Fld) : (s.withMtb m).get pg f = s.get pg f := (rfl)
@[simp] theorem State.withMtb_flag (pg : Nat) (f : Fld) : (s.withMtb m).flag pg f = s.flag pg f := (rfl)

end

theorem State.UnitsOnly.withMtb {touched : Nat → Prop} {s u : State} (h : s.UnitsOnly touched u) (m : MtbSt) :
    s.UnitsOnly touched (u.withMtb m) := h.withUnits u.dram m u.txs u.mac

section
variable (t : Nat) (s : State)

theorem State.tbAnchor_eq : s.tbAnchor t = s.withMtb { s.mtb with phi := s.phiAt t, anchor := t } := rfl

@[simp] theorem State.tbAnchor_get (pg : Nat) (f : Fld) : (s.tbAnchor t).get pg f = s.get pg f := (rfl)
@[simp] theorem State.tbAnchor_time : (s.tbAnchor t).time = s.time := (rfl)
@[simp] theorem State.tbAnchor_txs : (s.tbAnchor t).txs = s.txs := (rfl)
@[simp] theorem State.tbAnchor_mac : (s.tbAnchor t).mac = s.mac := (rfl)
@[simp] theorem State.tbAnchor_dram : (s.tbAnchor t).dram = s.dram := (rfl)
@[simp] theorem State.tbAnchor_mtb : (s.tbAnchor t).mtb = { s.mtb with phi := s.phiAt t, anchor := t } := (rfl)

variable (f : Nat)

theorem State.tbFreq_mtb : (s.tbFreq t f).mtb = { s.mtb with phi := s.phiAt t, anchor := t } := by
  rw [State.tbFreq, State.put_mtb, State.tbAnchor_mtb]
theorem State.tbFreq_txs : (s.tbFreq t f).txs = s.txs := by rw [State.tbFreq, State.put_txs, State.tbAnchor_txs]
theorem State.tbFreq_mac : (s.tbFreq t f).mac = s.mac := by rw [State.tbFreq, State.put_mac, State.tbAnchor_mac]
theorem State.tbFreq_dram : (s.tbFreq t f).dram = s.dram := by rw [State.tbFreq, State.put_dram, State.tbAnchor_dram]

theorem State.get_tbFreq_same : (s.tbFreq t f).get Pg.MTB MTB.FREQ = f % 2 ^ 32 := by
  rw [State.tbFreq, State.get_put_same _ _ _ _ (by decide)]
  rfl

theorem State.get_tbFreq_beside {g : Fld} (h : MTB.FREQ.off ≠ g.off) : (s.tbFreq t f).get Pg.MTB g = s.get Pg.MTB g := by
  rw [State.tbFreq, State.get_put_beside _ _ _ _ _ ⟨by decide, .inl h⟩, State.tbAnchor_get]

variable (st : Nat)

theorem State.tb_tbState (h : st < 8) : (s.tbState st).tb = st := by
  simp (disch := decide) only [State.tbState, State.tb, State.get_put_beside, State.get_put_same]
  exact Nat.mod_eq_of_lt h

theorem State.get_tbState_holdMs : (s.tbState st).get Pg.MTB MTB.HOLD_MS = 0 := by
  simp (disch := decide) only [State.tbState, State.get_put_same]
  rfl

/-- A move of the timebase to a state changes STATE and HOLD_MS alone. -/
theorem State.get_tbState_beside {f : Fld} (h : f.off ≠ MTB.STATE.off ∨ (4 ≤ f.lsb ∧ f.lsb + f.w ≤ 16)) :
    (s.tbState st).get Pg.MTB f = s.get Pg.MTB f := by
  have hstate : MTB.STATE.lsb + MTB.STATE.w ≤ 32 ∧
      (MTB.STATE.off ≠ f.off ∨ f.lsb + f.w ≤ MTB.STATE.lsb ∨ MTB.STATE.lsb + MTB.STATE.w ≤ f.lsb) :=
    ⟨by decide, h.imp Ne.symm fun hb => .inr ((by decide : MTB.STATE.lsb + MTB.STATE.w ≤ 4).trans hb.1)⟩
  have hhold : MTB.HOLD_MS.lsb + MTB.HOLD_MS.w ≤ 32 ∧
      (MTB.HOLD_MS.off ≠ f.off ∨ f.lsb + f.w ≤ MTB.HOLD_MS.lsb ∨ MTB.HOLD_MS.lsb + MTB.HOLD_MS.w ≤ f.lsb) :=
    ⟨by decide, h.imp Ne.symm fun hb => .inl hb.2⟩
  rw [State.tbState, State.get_put_beside _ _ _ _ _ hhold, State.get_put_beside _ _ _ _ _ hstate]

@[simp] theorem State.tbState_mtb : (s.tbState st).mtb = s.mtb := by rw [State.tbState, State.put_mtb, State.put_mtb]
@[simp] theorem State.tbState_time : (s.tbState st).time = s.time := by rw [State.tbState, State.put_time, State.put_time]
@[simp] theorem State.tbState_txs : (s.tbState st).txs = s.txs := by rw [State.tbState, State.put_txs, State.put_txs]
@[simp] theorem State.tbState_mac : (s.tbState st).mac = s.mac := by rw [State.tbState, State.put_mac, State.put_mac]
@[simp] theorem State.tbState_dram : (s.tbState st).dram = s.dram := by rw [State.tbState, State.put_dram, State.put_dram]

end

section
variable {touched : Nat → Prop} {s u : State} (h : s.UnitsOnly touched u)
include h

theorem State.UnitsOnly.tbAnchor (t : Nat) : s.UnitsOnly touched (u.tbAnchor t) := h.withMtb _

theorem State.UnitsOnly.tbFreq (t f : Nat) (ht : touched (addrOf Pg.MTB MTB.FREQ.off)) : s.UnitsOnly touched (u.tbFreq t f) :=
  (h.tbAnchor t).put _ ht

theorem State.UnitsOnly.tbState (st : Nat) (ht : touched (addrOf Pg.MTB MTB.STATE.off)) : s.UnitsOnly touched (u.tbState st) :=
  (h.put _ ht).put _ ht

end

/-- Up to its anchor, and while it is held still, the phase clock stands at the value taken there. -/
theorem State.phiAt_of_held {s : State} {t : Nat} (h : t ≤ Nat.max s.mtb.anchor s.mtb.holdEnd) : s.phiAt t = s.mtb.phi := by
  unfold State.phiAt
  split
  · rfl
  · have hrun : t - Nat.max s.mtb.anchor s.mtb.holdEnd = 0 := Nat.sub_eq_zero_of_le h
    have hslewed : Nat.min t s.mtb.slewEnd - Nat.max s.mtb.anchor s.mtb.holdEnd = 0 :=
      Nat.sub_eq_zero_of_le ((Nat.min_le_left _ _).trans h)
    simp only [hrun, hslewed, Int.ofNat_zero, zero_mul, add_zero, Int.toNat_natCast]

/-- At its anchor the phase clock stands at the value taken there. -/
theorem State.phiAt_anchor {s : State} {t : Nat} (h : s.mtb.anchor = t) : s.phiAt t = s.mtb.phi :=
  State.phiAt_of_held (h ▸ Nat.le_max_left _ _)

/-- The phase clock reads the timebase's STATE and FREQ, and its own record. -/
theorem State.phiAt_congr {s u : State} (htb : u.tb = s.tb) (hf : u.get Pg.MTB MTB.FREQ = s.get Pg.MTB MTB.FREQ)
    (hphi : u.mtb.phi = s.mtb.phi) (hanchor : u.mtb.anchor = s.mtb.anchor) (hhold : u.mtb.holdEnd = s.mtb.holdEnd)
    (hend : u.mtb.slewEnd = s.mtb.slewEnd) (hslew : u.mtb.slew = s.mtb.slew) (t : Nat) : u.phiAt t = s.phiAt t := by
  unfold State.phiAt
  rw [htb, hf, hphi, hanchor, hhold, hend, hslew]

theorem State.tb_settle (s : State) : s.settle.tb = s.tb := State.get_settle_beside s (by decide) (by decide)

@[simp] theorem State.phiAt_atTick (s : State) (tick t : Nat) : (s.atTick tick).phiAt t = s.phiAt t := rfl

theorem State.phiAt_settle (s : State) (t : Nat) : s.settle.phiAt t = s.phiAt t := by
  have hmtb := State.settle_mtb s
  exact State.phiAt_congr (State.tb_settle s) (State.get_settle_beside s (by decide) (by decide)) (by rw [hmtb]) (by rw [hmtb])
    (by rw [hmtb]) (by rw [hmtb]) (by rw [hmtb]) t

/-! ### The instants of copies that are still to be sent (R76) -/

@[simp] theorem State.recopy_mtb (s : State) : s.recopy.mtb = s.mtb := (rfl)
@[simp] theorem State.recopy_mac (s : State) : s.recopy.mac = s.mac := (rfl)
@[simp] theorem State.recopy_dram (s : State) : s.recopy.dram = s.dram := (rfl)
@[simp] theorem State.recopy_reg (s : State) (pg off : Nat) : s.recopy.reg pg off = s.reg pg off := (rfl)
@[simp] theorem State.recopy_get (s : State) (pg : Nat) (f : Fld) : s.recopy.get pg f = s.get pg f := (rfl)

theorem State.UnitsOnly.recopy {touched : Nat → Prop} {s u : State} (h : s.UnitsOnly touched u) :
    s.UnitsOnly touched u.recopy := h.withUnits u.dram u.mtb u.recopy.txs u.mac

/-- Setting the instants of copies anew moves the starts of copies that are still to be sent, and nothing else of transmit
synthesis. -/
theorem State.copiesMoved_recopy {s u : State} (h : u.txs = s.txs) : s.CopiesMoved u.recopy.settle := by
  unfold State.CopiesMoved
  rw [State.settle_txs]
  refine ⟨congrArg (fun x : TxsSt => { x with lanes := u.recopy.txs.lanes }) h, fun k => ?_⟩
  rw [← h]
  have hk := Tab.get_none_map (fun x : Lane => if x.phase = .between ∧ x.copy ≠ 0 ∧ u.time < x.t0 then
    { x with t0 := u.copyInstant x.tEnd x.p0 x.copies (x.copy - 1), due := u.copyInstant x.tEnd x.p0 x.copies (x.copy - 1) }
    else x) u.txs.lanes k
  change Tab.get (fun _ => none) u.recopy.txs.lanes k = _ at hk
  rw [hk]
  cases Tab.get (fun _ => none) u.txs.lanes k with
  | none => rfl
  | some x =>
    by_cases hx : x.phase = .between ∧ x.copy ≠ 0 ∧ u.time < x.t0
    · exact .inr ⟨hx.1, _, congrArg some (if_pos hx)⟩
    · exact .inl (congrArg some (if_neg hx))

end Sys2Proof.Machine

/-! ## Support of `SnapLatchesOneInstant`: what SNAP latches. -/

namespace Sys2Proof.Machine

/-! ### SNAP (R77) -/

/-- MAINS_TIME is a 32-bit cycle count and a 16-bit phase (R64). -/
theorem State.mainsTime_lt (s : State) (t : Nat) : (s.mainsTime t).1 < 2 ^ 32 ∧ (s.mainsTime t).2 < 65536 := by
  unfold State.mainsTime
  split
  · exact ⟨Fld.of_lt MTB.CYCLE _, Nat.mod_lt _ (by decide)⟩
  · exact ⟨Nat.mod_lt _ (by decide), Nat.mod_lt _ (by decide)⟩

theorem State.tb_lt (s : State) : s.tb < 2 ^ 3 := Fld.of_lt MTB.STATE _

/-- The registers that SNAP latches. -/
def snapRegs : List (Nat × Nat) :=
  [(Pg.MTB, MTB.SNAP_TIME_LO.off), (Pg.MTB, MTB.SNAP_TIME_HI.off), (Pg.MTB, MTB.SNAP_CYCLE.off), (Pg.MTB, MTB.SNAP_PHASE.off)]

section
variable (s : State)

theorem State.get_tbSnap_timeLo : s.tbSnap.get Pg.MTB MTB.SNAP_TIME_LO = s.time % 2 ^ 32 := by
  simp (disch := decide) only [State.tbSnap, State.get_put_beside, State.get_put_same]
  rfl

theorem State.get_tbSnap_timeHi : s.tbSnap.get Pg.MTB MTB.SNAP_TIME_HI = s.time / 2 ^ 32 % 2 ^ 32 := by
  simp (disch := decide) only [State.tbSnap, State.get_put_beside, State.get_put_same]
  rfl

theorem State.get_tbSnap_cycle : s.tbSnap.get Pg.MTB MTB.SNAP_CYCLE = (s.mainsTime s.time).1 := by
  simp (disch := decide) only [State.tbSnap, State.get_put_beside, State.get_put_same]
  exact Nat.mod_eq_of_lt (s.mainsTime_lt s.time).1

theorem State.get_tbSnap_phase : s.tbSnap.get Pg.MTB MTB.SNAP_PHASE = (s.mainsTime s.time).2 := by
  simp (disch := decide) only [State.tbSnap, State.get_put_beside, State.get_put_same]
  exact Nat.mod_eq_of_lt (s.mainsTime_lt s.time).2

theorem State.get_tbSnap_state : s.tbSnap.get Pg.MTB MTB.SNAP_STATE = s.tb := by
  simp (disch := decide) only [State.tbSnap, State.get_put_same]
  exact Nat.mod_eq_of_lt s.tb_lt

theorem State.regsOnly_tbSnap : s.RegsOnly (regsAt snapRegs) s.tbSnap := by
  have hmem : ∀ f : Fld, (Pg.MTB, f.off) ∈ snapRegs → regsAt snapRegs (addrOf Pg.MTB f.off) := fun f hf => regsAt_of_mem hf
  exact State.regsOnly_put _ (State.regsOnly_put _ (State.regsOnly_put _ (State.regsOnly_put _ (State.regsOnly_put _
    (State.regsOnly_refl _ s) (hmem MTB.SNAP_TIME_LO (by decide))) (hmem MTB.SNAP_TIME_HI (by decide)))
    (hmem MTB.SNAP_CYCLE (by decide))) (hmem MTB.SNAP_PHASE (by decide))) (hmem MTB.SNAP_STATE (by decide))

end

/-- Settles O16: SNAP is one host write, which latches the two halves of SAMPLE_TIME, MAINS_TIME at that instant and the state. -/
theorem snapLatchesOneInstant : Obligations.SnapLatchesOneInstant := by
  intro s hr htime
  have hread : ∀ f : Fld, f.off < 4096 → s.tbSnap.settle.get Pg.MTB f = s.tbSnap.get Pg.MTB f := fun f hf =>
    State.get_settle_beside _ (by decide) hf
  refine ⟨s.tbSnap.settle, finish_hostWrite hr _, ?_, ?_, ?_, State.regsOnly_settle s.regsOnly_tbSnap⟩
  · rw [hread _ (by decide), hread _ (by decide), State.get_tbSnap_timeLo, State.get_tbSnap_timeHi]
    omega
  · rw [hread _ (by decide), hread _ (by decide), State.get_tbSnap_cycle, State.get_tbSnap_phase]
  · rw [hread _ (by decide), State.get_tbSnap_state]

end Sys2Proof.Machine

/-! ## Support of `ReferenceLossAndRestart`: HOLDOVER, NOMINAL and a new acquisition (R70). -/

namespace Sys2Proof.Machine

/-! ### HOLDOVER -/

section
variable (t : Nat) (s : State)

/-- The frequency that the clock keeps in HOLDOVER: the mean of the cycles on record. -/
def State.heldFreq : Nat :=
  if s.mtb.periods = [] then s.get Pg.MTB MTB.FREQ
  else phiCycle * s.mtb.periods.length / Nat.max 1 (s.mtb.periods.foldl (· + ·) 0)

/-- What the timebase keeps in HOLDOVER from tick `t` on. -/
def State.heldMtb : MtbSt :=
  { s.mtb with phi := s.phiAt t, anchor := t, holdStart := t, holdErr := none, badRun := 0, okRun := 0, slew := 0, slewEnd := 0
               left := 0 }

/-- The state in HOLDOVER from tick `t` on, the instants of copies not yet moved. -/
def State.held : State :=
  ((((s.tbFreq t s.heldFreq).tbState TB.HOLDOVER).withMtb (s.heldMtb t)).event Pg.MTB MTB.EV_HOLDOVER_ENTER).count Pg.MTB
    MTB.HOLDOVER_CNT

theorem State.enterHoldover_eq : s.enterHoldover t = (s.held t).recopy := rfl

@[simp] theorem State.held_mtb : (s.held t).mtb = s.heldMtb t := by
  rw [State.held, State.count_mtb, State.event_mtb, State.withMtb_mtb]

theorem State.held_txs : (s.held t).txs = s.txs := by
  rw [State.held, State.count_txs, State.event_txs, State.withMtb_txs, State.tbState_txs, State.tbFreq_txs]
theorem State.held_mac : (s.held t).mac = s.mac := by
  rw [State.held, State.count_mac, State.event_mac, State.withMtb_mac, State.tbState_mac, State.tbFreq_mac]
theorem State.held_dram : (s.held t).dram = s.dram := by
  rw [State.held, State.count_dram, State.event_dram, State.withMtb_dram, State.tbState_dram, State.tbFreq_dram]

theorem State.tb_held : (s.held t).tb = TB.HOLDOVER := by
  rw [State.tb, State.held]
  simp (disch := decide) only [State.get_count_beside, State.get_event_beside, State.withMtb_get]
  exact State.tb_tbState _ _ (by decide)

theorem State.get_held_freq : (s.held t).get Pg.MTB MTB.FREQ = s.heldFreq % 2 ^ 32 := by
  rw [State.held]
  simp (disch := decide) only [State.get_count_beside, State.get_event_beside, State.withMtb_get,
    State.get_tbState_beside, State.get_tbFreq_same]

theorem State.get_held_holdMs : (s.held t).get Pg.MTB MTB.HOLD_MS = 0 := by
  rw [State.held]
  simp (disch := decide) only [State.get_count_beside, State.get_event_beside, State.withMtb_get,
    State.get_tbState_holdMs]

theorem State.get_held_entered : (s.held t).get Pg.MTB MTB.EV_HOLDOVER_ENTER = 1 := by
  rw [State.held]
  simp (disch := decide) only [State.get_count_beside, State.get_event_set]

theorem State.get_held_noSource : (s.held t).get Pg.MTB MTB.EV_NO_SOURCE = s.get Pg.MTB MTB.EV_NO_SOURCE := by
  rw [State.held]
  simp (disch := decide) only [State.get_count_beside, State.get_event_otherBit, State.withMtb_get,
    State.get_tbState_beside, State.get_tbFreq_beside]

theorem State.get_held_srcValid : (s.held t).get Pg.MTB MTB.SRC_VALID = s.get Pg.MTB MTB.SRC_VALID := by
  rw [State.held]
  simp (disch := decide) only [State.get_count_beside, State.get_event_beside, State.withMtb_get,
    State.get_tbState_beside, State.get_tbFreq_beside]

theorem State.counted_held {b : State} (hcnt : s.get Pg.MTB MTB.HOLDOVER_CNT = b.get Pg.MTB MTB.HOLDOVER_CNT)
    (hz : s.get Pg.MTB CTRL.FREEZE_CNT = b.get Pg.MTB CTRL.FREEZE_CNT) :
    b.Counted Pg.MTB MTB.HOLDOVER_CNT (s.held t).recopy.settle := by
  refine State.counted_settle (u := (((s.tbFreq t s.heldFreq).tbState TB.HOLDOVER).withMtb (s.heldMtb t)).event Pg.MTB
    MTB.EV_HOLDOVER_ENTER) (by decide) (by decide) ?_ ?_ ?_
  · rw [State.recopy_get, State.held]
  · simp (disch := decide) only [State.get_event_beside, State.withMtb_get, State.get_tbState_beside, State.get_tbFreq_beside, hcnt]
  · simp (disch := decide) only [State.get_event_beside, State.withMtb_get, State.get_tbState_beside, State.get_tbFreq_beside, hz]

/-- The registers in which HOLDOVER shows. -/
def heldRegs : List (Nat × Nat) :=
  [(Pg.MTB, MTB.STATE.off), (Pg.MTB, MTB.FREQ.off), (Pg.MTB, MTB.HOLDOVER_CNT.off), (Pg.MTB, CMN.EVENTS)]

theorem State.UnitsOnly.held {b : State} (h : b.UnitsOnly (regsAt heldRegs) s) : b.UnitsOnly (regsAt heldRegs) (s.held t) :=
  ((((h.tbFreq _ _ (regsAt_of_mem (by decide))).tbState _ (regsAt_of_mem (by decide))).withMtb _).event
    (regsAt_of_mem (by decide))).count (regsAt_of_mem (by decide))

end

/-- A clock that was set anew at tick `t` without a step goes on from the value it had there. -/
theorem State.phiAt_continuous {s u : State} {t : Nat} (hanchor : u.mtb.anchor = t) (hphi : u.mtb.phi = s.phiAt t) :
    u.settle.phiAt t = s.phiAt t := by
  rw [State.phiAt_settle, State.phiAt_anchor hanchor, hphi]

theorem State.get_settle_mtb (s : State) {f : Fld} (hf : f.off < 4096) : s.settle.get Pg.MTB f = s.get Pg.MTB f :=
  State.get_settle_beside s (by decide) hf

section
variable (s : State)

/-- The state that has found its reference lost. -/
def State.referenceLost : State := (s.event Pg.MTB MTB.EV_NO_SOURCE).put Pg.MTB MTB.SRC_VALID 0

theorem State.referenceLost_mtb : s.referenceLost.mtb = s.mtb := by rw [State.referenceLost, State.put_mtb, State.event_mtb]
theorem State.referenceLost_txs : s.referenceLost.txs = s.txs := by rw [State.referenceLost, State.put_txs, State.event_txs]
theorem State.referenceLost_mac : s.referenceLost.mac = s.mac := by rw [State.referenceLost, State.put_mac, State.event_mac]
theorem State.referenceLost_dram : s.referenceLost.dram = s.dram := by
  rw [State.referenceLost, State.put_dram, State.event_dram]

/-- A lost reference shows in EVENTS and SRC_VALID alone. -/
theorem State.get_referenceLost_beside {f : Fld} (h : CMN.EVENTS ≠ f.off) (hv : MTB.SRC_VALID.lsb + MTB.SRC_VALID.w ≤ 32 ∧
    (MTB.SRC_VALID.off ≠ f.off ∨ f.lsb + f.w ≤ MTB.SRC_VALID.lsb ∨ MTB.SRC_VALID.lsb + MTB.SRC_VALID.w ≤ f.lsb)) :
    s.referenceLost.get Pg.MTB f = s.get Pg.MTB f := by
  rw [State.referenceLost, State.get_put_beside _ _ _ _ _ hv, State.get_event_beside _ _ _ _ h]

theorem State.tb_referenceLost : s.referenceLost.tb = s.tb := State.get_referenceLost_beside s (by decide) (by decide)

theorem State.get_referenceLost_noSource : s.referenceLost.get Pg.MTB MTB.EV_NO_SOURCE = 1 := by
  rw [State.referenceLost, State.get_put_beside _ _ _ _ _ (by decide), State.get_event_set _ (by decide)]

theorem State.get_referenceLost_srcValid : s.referenceLost.get Pg.MTB MTB.SRC_VALID = 0 := by
  rw [State.referenceLost, State.get_put_same _ _ _ _ (by decide)]
  rfl

theorem State.phiAt_referenceLost (t : Nat) : s.referenceLost.phiAt t = s.phiAt t := by
  have hmtb := s.referenceLost_mtb
  exact State.phiAt_congr s.tb_referenceLost (State.get_referenceLost_beside s (by decide) (by decide)) (by rw [hmtb])
    (by rw [hmtb]) (by rw [hmtb]) (by rw [hmtb]) (by rw [hmtb]) t

theorem State.heldFreq_referenceLost (h : s.mtb.periods ≠ []) :
    s.referenceLost.heldFreq = phiCycle * s.mtb.periods.length / Nat.max 1 (s.mtb.periods.foldl (· + ·) 0) := by
  rw [State.heldFreq, State.referenceLost_mtb, if_neg h]

end

section
variable {s : State} {tick : Nat}

theorem exec_referenceLoss_locked (htb : s.tb = TB.LOCKED) (hslave : s.tbSlave = false)
    (hlost : 3 * s.heldPeriod ≤ 2 * (tick - s.mtb.lastValid)) :
    exec (.referenceLoss tick) s = .next (((s.atTick tick).referenceLost.held tick).recopy).settle := by
  have hoff : decide ((s.atTick tick).tb ≠ TB.OFF) = true := decide_eq_true fun h => by cases htb.symm.trans h
  have hs : (!(s.atTick tick).tbSlave) = true := congrArg (!·) hslave
  have hl : decide (2 * (tick - (s.atTick tick).mtb.lastValid) ≥ 3 * (s.atTick tick).heldPeriod) = true := decide_eq_true hlost
  have hlocked : decide ((s.atTick tick).referenceLost.tb = TB.LOCKED) = true :=
    decide_eq_true ((State.tb_referenceLost _).trans htb)
  show execReferenceLoss tick s = _
  unfold execReferenceLoss
  dsimp only
  rw [hoff, hs, hl, Bool.and_self, Bool.and_self, Bool.true_or, Bool.and_self, onlyIf_true, onlyIf_true, ← State.referenceLost,
    Bool.true_and, hlocked, onlyIf_true, State.enterHoldover_eq]
  rfl

/-- In LOCKED, with no valid crossing for 1.5 held periods, the timebase enters HOLDOVER. -/
theorem referenceLoss_enters_holdover (htb : s.tb = TB.LOCKED) (hslave : s.tbSlave = false) (hps : s.mtb.periods ≠ [])
    (hlost : 3 * s.heldPeriod ≤ 2 * (tick - s.mtb.lastValid)) :
    ∃ t, exec (.referenceLoss tick) s = .next t ∧ t.tb = TB.HOLDOVER ∧ t.get Pg.MTB MTB.HOLD_MS = 0 ∧ t.mtb.holdStart = tick ∧
      t.phiAt tick = s.phiAt tick ∧
      t.get Pg.MTB MTB.FREQ = phiCycle * s.mtb.periods.length / Nat.max 1 (s.mtb.periods.foldl (· + ·) 0) % 2 ^ 32 ∧
      t.get Pg.MTB MTB.EV_HOLDOVER_ENTER = 1 ∧ t.get Pg.MTB MTB.EV_NO_SOURCE = 1 ∧ t.get Pg.MTB MTB.SRC_VALID = 0 ∧
      s.Counted Pg.MTB MTB.HOLDOVER_CNT t ∧ s.CopiesMoved t ∧
      State.RegsOnly (regsAt heldRegs) { s.atTick tick with mtb := t.mtb, txs := t.txs } t := by
  have hframe : (s.atTick tick).UnitsOnly (regsAt heldRegs) (s.atTick tick).referenceLost :=
    ((State.unitsOnly_refl _ _).event (regsAt_of_mem (by decide))).put _ (regsAt_of_mem (by decide))
  have hkept : ∀ f : Fld, CMN.EVENTS ≠ f.off → MTB.SRC_VALID.off ≠ f.off →
      (s.atTick tick).referenceLost.get Pg.MTB f = s.get Pg.MTB f := fun f he hv =>
    (State.get_referenceLost_beside _ he ⟨by decide, .inl hv⟩).trans (State.atTick_get ..)
  have htxs := State.referenceLost_txs (s.atTick tick)
  refine ⟨_, exec_referenceLoss_locked htb hslave hlost, ?_, ?_, ?_, ?_, ?_, ?_, ?_, ?_, ?_, ?_, ?_⟩
  · rw [State.tb_settle, State.tb, State.recopy_get, ← State.tb, State.tb_held]
  · rw [State.get_settle_mtb _ (by decide), State.recopy_get, State.get_held_holdMs]
  · rw [State.settle_mtb, State.recopy_mtb, State.held_mtb, State.heldMtb]
  · refine State.phiAt_continuous ?_ ?_
    all_goals rw [State.recopy_mtb, State.held_mtb, State.heldMtb]
    rw [State.phiAt_referenceLost, State.phiAt_atTick]
  · rw [State.get_settle_mtb _ (by decide), State.recopy_get, State.get_held_freq,
      State.heldFreq_referenceLost (s.atTick tick) hps, State.atTick_mtb]
  · rw [State.get_settle_mtb _ (by decide), State.recopy_get, State.get_held_entered]
  · rw [State.get_settle_mtb _ (by decide), State.recopy_get, State.get_held_noSource, State.get_referenceLost_noSource]
  · rw [State.get_settle_mtb _ (by decide), State.recopy_get, State.get_held_srcValid, State.get_referenceLost_srcValid]
  · exact State.counted_held tick _ (hkept _ (by decide) (by decide)) (hkept _ (by decide) (by decide))
  · exact State.copiesMoved_recopy ((State.held_txs tick _).trans htxs)
  · refine (State.UnitsOnly.held tick _ hframe).recopy.regsOnly_clock ?_ ?_
    · rw [State.recopy_dram, State.held_dram, State.referenceLost_dram]
    · rw [State.recopy_mac, State.held_mac, State.referenceLost_mac]

/-! ### NOMINAL -/

theorem State.tbNominal_lt (s : State) : s.tbNominal < 2 ^ 32 := by
  unfold State.tbNominal
  split <;> decide

/-- The state in NOMINAL from tick `t` on, the instants of copies not yet moved. -/
def State.nominal (t : Nat) (s : State) : State :=
  ((s.tbFreq t s.tbNominal).tbState TB.NOMINAL).event Pg.MTB MTB.EV_NOMINAL_ENTER

/-- HOLDOVER held for HOLDOVER_MS moves to NOMINAL, phase-continuously. -/
theorem nominalEnter_enters_nominal (htb : s.tb = TB.HOLDOVER)
    (hdue : msTicks (s.get Pg.MTB MTB.HOLDOVER_MS) ≤ tick - s.mtb.holdStart) :
    ∃ t, exec (.nominalEnter tick) s = .next t ∧ t.tb = TB.NOMINAL ∧ t.get Pg.MTB MTB.FREQ = s.tbNominal ∧
      t.phiAt tick = s.phiAt tick ∧ t.get Pg.MTB MTB.EV_NOMINAL_ENTER = 1 ∧ s.CopiesMoved t ∧
      State.RegsOnly (regsAt [(Pg.MTB, MTB.STATE.off), (Pg.MTB, MTB.FREQ.off), (Pg.MTB, CMN.EVENTS)])
        { s.atTick tick with mtb := t.mtb, txs := t.txs } t := by
  have hexec : exec (.nominalEnter tick) s = .next (((s.atTick tick).nominal tick).recopy).settle := by
    have hc : (decide ((s.atTick tick).tb = TB.HOLDOVER) &&
        decide (msTicks ((s.atTick tick).get Pg.MTB MTB.HOLDOVER_MS) ≤ tick - (s.atTick tick).mtb.holdStart)) = true :=
      Bool.and_eq_true_iff.mpr ⟨decide_eq_true htb, decide_eq_true hdue⟩
    exact congrArg finish (if_pos hc)
  have hmtb : ((s.atTick tick).nominal tick).mtb = { s.mtb with phi := s.phiAt tick, anchor := tick } := by
    rw [State.nominal, State.event_mtb, State.tbState_mtb, State.tbFreq_mtb]
    rfl
  refine ⟨_, hexec, ?_, ?_, State.phiAt_continuous ?_ ?_, ?_, State.copiesMoved_recopy ?_,
    State.UnitsOnly.regsOnly_clock (State.UnitsOnly.recopy ?_) ?_ ?_⟩
  · rw [State.tb_settle, State.tb, State.recopy_get, State.nominal, State.get_event_beside _ _ _ _ (by decide), ← State.tb,
      State.tb_tbState _ _ (by decide)]
  · rw [State.get_settle_mtb _ (by decide), State.recopy_get, State.nominal, State.get_event_beside _ _ _ _ (by decide),
      State.get_tbState_beside _ _ (by decide), State.get_tbFreq_same, Nat.mod_eq_of_lt (State.tbNominal_lt _)]
    rfl
  · rw [State.recopy_mtb, hmtb]
  · rw [State.recopy_mtb, hmtb]
  · rw [State.get_settle_mtb _ (by decide), State.recopy_get, State.nominal, State.get_event_set _ (by decide)]
  · rw [State.nominal, State.event_txs, State.tbState_txs, State.tbFreq_txs, State.atTick_txs]
  · exact (((State.unitsOnly_refl _ _).tbFreq _ _ (regsAt_of_mem (by decide))).tbState _ (regsAt_of_mem (by decide))).event
      (regsAt_of_mem (by decide))
  · rw [State.recopy_dram, State.nominal, State.event_dram, State.tbState_dram, State.tbFreq_dram]
  · rw [State.recopy_mac, State.nominal, State.event_mac, State.tbState_mac, State.tbFreq_mac]

/-! ### A new acquisition -/

/-- The state whose acquisition restarts at tick `t`, the instants of copies not yet moved. -/
def State.acqRestarted (t : Nat) (s : State) : State :=
  ((s.tbFreq t s.tbNominal).count Pg.MTB MTB.ACQ_RESTART_CNT).withMtb { s.mtb with
    phi := s.phiAt t, anchor := t, firstValid := none, cyclesSince := 0, okRun := 0, slew := 0, slewEnd := 0, left := 0 }

theorem exec_acqRestart_due (htb : s.tb = TB.ACQUIRE) (hfirst : s.mtb.firstValid ≠ none) (hcycles : 8 ≤ s.mtb.cyclesSince) :
    exec (.acqRestart tick) s = .next (((s.atTick tick).acqRestarted tick).recopy).settle := by
  obtain ⟨t0, ht0⟩ := Option.ne_none_iff_exists'.mp hfirst
  have hm : ((s.atTick tick).tbFreq tick (s.atTick tick).tbNominal |>.count Pg.MTB MTB.ACQ_RESTART_CNT).mtb =
      { s.mtb with phi := s.phiAt tick, anchor := tick } := by
    rw [State.count_mtb, State.tbFreq_mtb]
    rfl
  have htb' : decide ((s.atTick tick).tb = TB.ACQUIRE) = true := decide_eq_true htb
  have hc : decide (8 ≤ (s.atTick tick).mtb.cyclesSince) = true := decide_eq_true hcycles
  have ht0' : (s.atTick tick).mtb.firstValid = some t0 := ht0
  show execAcqRestart tick s = _
  unfold execAcqRestart
  simp only [htb', ht0', hc, Bool.or_true, Bool.and_true, onlyIf_true, hm]
  rfl

/-- 8 cycles in ACQUIRE without lock restart the acquisition at the nominal frequency. -/
theorem acqRestart_restarts (htb : s.tb = TB.ACQUIRE) (hfirst : s.mtb.firstValid ≠ none) (hcycles : 8 ≤ s.mtb.cyclesSince) :
    ∃ t, exec (.acqRestart tick) s = .next t ∧ t.tb = TB.ACQUIRE ∧ t.get Pg.MTB MTB.FREQ = s.tbNominal ∧
      t.mtb.firstValid = none ∧ t.phiAt tick = s.phiAt tick ∧ s.Counted Pg.MTB MTB.ACQ_RESTART_CNT t ∧ s.CopiesMoved t ∧
      State.RegsOnly (regsAt [(Pg.MTB, MTB.FREQ.off), (Pg.MTB, MTB.ACQ_RESTART_CNT.off)])
        { s.atTick tick with mtb := t.mtb, txs := t.txs } t := by
  refine ⟨_, exec_acqRestart_due htb hfirst hcycles, ?_, ?_, ?_, State.phiAt_continuous ?_ ?_, ?_, State.copiesMoved_recopy ?_,
    State.UnitsOnly.regsOnly_clock (State.UnitsOnly.recopy ?_) ?_ ?_⟩
  · rw [State.tb_settle, State.tb, State.recopy_get, State.acqRestarted, State.withMtb_get, State.get_count_beside _ (by decide),
      State.get_tbFreq_beside _ _ _ (by decide)]
    exact htb
  · rw [State.get_settle_mtb _ (by decide), State.recopy_get, State.acqRestarted, State.withMtb_get,
      State.get_count_beside _ (by decide), State.get_tbFreq_same, Nat.mod_eq_of_lt (State.tbNominal_lt _)]
    rfl
  · rw [State.settle_mtb, State.recopy_mtb, State.acqRestarted, State.withMtb_mtb]
  · rw [State.recopy_mtb, State.acqRestarted, State.withMtb_mtb]
  · rw [State.recopy_mtb, State.acqRestarted, State.withMtb_mtb]
    rfl
  · refine State.counted_settle (u := (s.atTick tick).tbFreq tick (s.atTick tick).tbNominal) (by decide) (by decide) ?_ ?_ ?_
    · rw [State.recopy_get, State.acqRestarted, State.withMtb_get]
    · rw [State.get_tbFreq_beside _ _ _ (by decide), State.atTick_get]
    · rw [State.get_tbFreq_beside _ _ _ (by decide), State.atTick_get]
  · rw [State.acqRestarted, State.withMtb_txs, State.count_txs, State.tbFreq_txs, State.atTick_txs]
  · exact (((State.unitsOnly_refl _ _).tbFreq _ _ (regsAt_of_mem (by decide))).count (regsAt_of_mem (by decide))).withMtb _
  · rw [State.recopy_dram, State.acqRestarted, State.withMtb_dram, State.count_dram, State.tbFreq_dram]
  · rw [State.recopy_mac, State.acqRestarted, State.withMtb_mac, State.count_mac, State.tbFreq_mac]

end

/-- Settles O14: in each of the three cases the clock is set anew at the command's tick, phase-continuously, before its state and
frequency change. -/
theorem referenceLossAndRestart : Obligations.ReferenceLossAndRestart := fun _ _ =>
  ⟨referenceLoss_enters_holdover, nominalEnter_enters_nominal, acqRestart_restarts⟩

end Sys2Proof.Machine

/-! ## Support of `MzcFilterAndPhaseWrap`: crossings of a source without a reference, and the timebase log (R68, R69, R78). -/

namespace Sys2Proof.Machine

/-! ### The region table -/

section
variable {s u : State} (h : ∀ off, off < 4096 → u.reg (Pg.DRC 0) off = s.reg (Pg.DRC 0) off)
include h

/-- A row of the region table depends on page DRC0. -/
theorem State.regionRow_congr (f : Fld) {r : Nat} (hr : r < 32) (hf : f.off ≤ 0x408 ∧ f.step = 16) :
    u.get (Pg.DRC 0) (f.nth r) = s.get (Pg.DRC 0) (f.nth r) :=
  congrArg f.of (h (f.off + f.step * r) (by rw [hf.2]; omega))

theorem State.regionOf_congr (kind : Nat) : u.regionOf kind = s.regionOf kind := by
  refine List.find?_congr fun r hr => ?_
  have hr32 := List.mem_range.mp hr
  unfold State.flag
  rw [State.regionRow_congr h _ hr32 (by decide), State.regionRow_congr h _ hr32 (by decide)]

theorem State.regionBase_congr {r : Nat} (hr : r < 32) : u.regionBase r = s.regionBase r := by
  unfold State.regionBase
  rw [State.regionRow_congr h _ hr (by decide)]

end

theorem State.regionOf_lt {s : State} {kind r : Nat} (h : s.regionOf kind = some r) : r < 32 :=
  List.mem_range.mp (List.mem_of_find?_eq_some h)

/-! ### Sources and pins -/

section
variable (s : State) (n : Nat)

theorem State.setSrc_eq (x : MtbSrc) :
    s.setSrc n x = s.withMtb { s.mtb with src := Tab.set (fun _ => MtbSrc.idle) s.mtb.src n x } := rfl

theorem State.setMzc_eq (q : MzcPin) :
    s.setMzc n q = s.withMtb { s.mtb with mzc := Tab.set (fun _ => MzcPin.idle) s.mtb.mzc n q } := rfl

theorem State.tb_withMtb (m : MtbSt) : (s.withMtb m).tb = s.tb := State.withMtb_get m s _ _

theorem State.tbSlave_withMtb (m : MtbSt) : (s.withMtb m).tbSlave = s.tbSlave := by
  simp only [State.tbSlave, State.withMtb_get]

theorem State.tbSources_withMtb (m : MtbSt) : (s.withMtb m).tbSources = s.tbSources := by
  simp only [State.tbSources, State.withMtb_get]

/-- A new record of the timebase that leaves the clock's own fields runs the clock on. -/
theorem State.phiAt_withMtb {m : MtbSt} (hphi : m.phi = s.mtb.phi) (hanchor : m.anchor = s.mtb.anchor)
    (hhold : m.holdEnd = s.mtb.holdEnd) (hend : m.slewEnd = s.mtb.slewEnd) (hslew : m.slew = s.mtb.slew) (t : Nat) :
    (s.withMtb m).phiAt t = s.phiAt t :=
  State.phiAt_congr (s.tb_withMtb m) (State.withMtb_get m s _ _) hphi hanchor hhold hend hslew t

/-- The state that has taken the crossing at tick `c` as source n's reference. -/
def State.referenced (c : Nat) : State := s.setSrc n { s.tbSrc n with last := some c, period := 0 }

/-- A source's first crossing is a reference only. -/
theorem State.crossing_first {s : State} {n : Nat} (c : Nat) (htb : s.tb ≠ TB.OFF) (hslave : s.tbSlave = false)
    (hsrc : n ∈ s.tbSources) (hlast : (s.tbSrc n).last = none) : s.crossing c n = s.referenced n c := by
  have hjudged : ¬(s.tb = TB.OFF ∨ s.tbSlave = true ∨ n ∉ s.tbSources) := by simp [htb, hslave, hsrc]
  unfold State.crossing
  rw [if_neg hjudged, hlast]
  rfl

variable (c : Nat)

theorem State.referenced_eq : s.referenced n c = s.withMtb { s.mtb with
    src := Tab.set (fun _ => MtbSrc.idle) s.mtb.src n { s.tbSrc n with last := some c, period := 0 } } := rfl

theorem State.referenced_last : ((s.referenced n c).tbSrc n).last = some c := by
  rw [State.referenced_eq, State.tbSrc, State.withMtb_mtb, Tab.get_set_same]

end

/-- The frame of a command that changes the timebase and DRAM. -/
theorem State.UnitsOnly.regsOnly_log {touched : Nat → Prop} {s u : State} (h : s.UnitsOnly touched u) (ht : u.txs = s.txs)
    (hm : u.mac = s.mac) : State.RegsOnly touched { s with mtb := u.settle.mtb, dram := u.settle.dram } u.settle := by
  have hr := h.regsOnly_settle
  rw [ht, hm] at hr
  rw [State.settle_mtb, State.settle_dram]
  exact hr

theorem State.tbSrc_congr {s u : State} (h : u.mtb.src = s.mtb.src) (n : Nat) : u.tbSrc n = s.tbSrc n := by
  rw [State.tbSrc, h, State.tbSrc]

/-! ### The filter of an MZC pin (R68) -/

section
variable {s : State} {tick : Nat} {pin : Nat} {p : MzcPin} {high : Bool} (hp : p = Tab.get (fun _ => MzcPin.idle) s.mtb.mzc pin)
include hp

/-- A level shorter than MZC_GLITCH is ignored and counted. -/
theorem State.mzcEdge_glitch (hraw : p.raw ≠ high) (hlevel : p.raw ≠ p.level)
    (hshort : tick - p.since < s.get Pg.MTB MTB.MZC_GLITCH) :
    (s.atTick tick).mzcEdge tick pin high = ((s.atTick tick).count Pg.MTB MTB.GLITCH_CNT).setMzc pin ⟨p.level, high, tick⟩ := by
  subst hp
  exact (if_neg hraw).trans (if_pos ⟨hshort, hlevel⟩)

/-- A pin has held a level of the wanted edge long enough. -/
theorem State.mzcDue_of_held (hlevel : p.raw ≠ p.level) (hlong : s.get Pg.MTB MTB.MZC_GLITCH ≤ tick - p.since)
    (hedge : p.raw = !s.flag Pg.MTB MTB.MZC_EDGE) (hmode : s.get Pg.MTB MTB.MODE = 2) : s.mzcDue tick pin = true := by
  have hnew : (p.raw != p.level) = true := bne_iff_ne.mpr hlevel
  unfold State.mzcDue State.mzcWanted
  dsimp only
  rw [← hp, hnew, hmode, hedge]
  simp [hlong]

/-- The end of a level that was due gives the crossing at the edge that began it. -/
theorem State.mzcEdge_due (hraw : p.raw ≠ high) (hlong : s.get Pg.MTB MTB.MZC_GLITCH ≤ tick - p.since)
    (hdue : s.mzcDue tick pin = true) :
    (s.atTick tick).mzcEdge tick pin high = (((s.atTick tick).setMzc pin ⟨p.raw, high, tick⟩).crossing
      (p.since - s.get Pg.MTB MTB.MZC_DELAY) pin).recopy := by
  subst hp
  exact (if_neg hraw).trans ((if_neg fun h => Nat.not_lt.mpr hlong h.1).trans (if_pos hdue))

theorem State.crossingDue_pin (hdue : s.mzcDue tick pin = true) :
    s.crossingDue tick pin = some (p.since - s.get Pg.MTB MTB.MZC_DELAY) := by
  subst hp
  exact if_pos hdue

theorem State.crossingTaken_pin (hdue : s.mzcDue tick pin = true) :
    (s.atTick tick).crossingTaken tick pin = (s.atTick tick).setMzc pin ⟨p.raw, p.raw, p.since⟩ := by
  subst hp
  exact if_pos hdue

end

/-- A crossing that is due is judged. -/
theorem exec_zeroCrossing {s : State} {tick c : Nat} {src : Fin 3} (h : s.crossingDue tick src.val = some c) :
    exec (.zeroCrossing tick src) s =
      .next (((s.atTick tick).crossingTaken tick src.val).crossing c src.val).recopy.settle := by
  have hdue : (s.atTick tick).crossingDue tick src.val = some c := h
  show execZeroCrossing tick src s = _
  unfold execZeroCrossing
  dsimp only
  rw [hdue]
  rfl

section
variable {s : State} {tick : Nat}

/-- What a pin's filter holds after a new level, and its source's reference. -/
theorem State.pin_referenced {n : Nat} (q : MzcPin) (c : Nat) (htb : s.tb ≠ TB.OFF) (hslave : s.tbSlave = false)
    (hsrc : n ∈ s.tbSources) (hlast : (s.tbSrc n).last = none) :
    let u := (((s.atTick tick).setMzc n q).crossing c n).recopy.settle
    (u.tbSrc n).last = some c ∧ Tab.get (fun _ => MzcPin.idle) u.mtb.mzc n = q ∧ s.CopiesMoved u ∧
      State.RegsOnly (fun _ => False) { s.atTick tick with mtb := u.mtb, txs := u.txs } u := by
  intro u
  have hu : u = (((s.atTick tick).setMzc n q).referenced n c).recopy.settle := by
    refine congrArg (fun x => (State.recopy x).settle) (State.crossing_first c ?_ ?_ ?_ ?_)
    · rw [State.setMzc_eq, State.tb_withMtb]; exact htb
    · rw [State.setMzc_eq, State.tbSlave_withMtb]; exact hslave
    · rw [State.setMzc_eq, State.tbSources_withMtb]; exact hsrc
    · rw [State.setMzc_eq, State.tbSrc_congr (s := s) (by rw [State.withMtb_mtb, State.atTick_mtb])]; exact hlast
  have hframe : (s.atTick tick).UnitsOnly (fun _ => False) (((s.atTick tick).setMzc n q).referenced n c) := by
    rw [State.referenced_eq, State.setMzc_eq]
    exact ((State.unitsOnly_refl _ _).withMtb _).withMtb _
  rw [hu]
  refine ⟨?_, ?_, State.copiesMoved_recopy ?_, hframe.recopy.regsOnly_clock ?_ ?_⟩
  · rw [State.tbSrc_congr (s := ((s.atTick tick).setMzc n q).referenced n c) (by rw [State.settle_mtb, State.recopy_mtb]),
      State.referenced_last]
  · rw [State.settle_mtb, State.recopy_mtb, State.referenced_eq, State.withMtb_mtb, State.setMzc_eq, State.withMtb_mtb,
      Tab.get_set_same]
  · rw [State.referenced_eq, State.withMtb_txs, State.setMzc_eq, State.withMtb_txs, State.atTick_txs]
  · rw [State.recopy_dram, State.referenced_eq, State.withMtb_dram, State.setMzc_eq, State.withMtb_dram]
  · rw [State.recopy_mac, State.referenced_eq, State.withMtb_mac, State.setMzc_eq, State.withMtb_mac]

section
variable {pin : Fin 3} {p : MzcPin} {high : Bool} (hp : p = Tab.get (fun _ => MzcPin.idle) s.mtb.mzc pin.val)
  (hraw : p.raw ≠ high) (hlevel : p.raw ≠ p.level)
include hp hraw hlevel

theorem mzcEdge_ignores_glitch (hshort : tick - p.since < s.get Pg.MTB MTB.MZC_GLITCH) :
    ∃ t, exec (.mzcEdge tick pin high) s = .next t ∧ s.Counted Pg.MTB MTB.GLITCH_CNT t ∧
      Tab.get (fun _ => MzcPin.idle) t.mtb.mzc pin.val = ⟨p.level, high, tick⟩ ∧ t.mtb.src = s.mtb.src ∧
      State.RegsOnly (regsAt [(Pg.MTB, MTB.GLITCH_CNT.off)]) { s.atTick tick with mtb := t.mtb } t := by
  have hframe : (s.atTick tick).UnitsOnly (regsAt [(Pg.MTB, MTB.GLITCH_CNT.off)])
      (((s.atTick tick).count Pg.MTB MTB.GLITCH_CNT).setMzc pin.val ⟨p.level, high, tick⟩) := by
    rw [State.setMzc_eq]
    exact ((State.unitsOnly_refl _ _).count (regsAt_of_mem (by decide))).withMtb _
  refine ⟨_, congrArg finish (State.mzcEdge_glitch hp hraw hlevel hshort), ?_, ?_, ?_, ?_⟩
  · exact State.counted_settle (u := s.atTick tick) (by decide) (by decide) (by rw [State.setMzc_eq, State.withMtb_get])
      (State.atTick_get ..) (State.atTick_get ..)
  · rw [State.settle_mtb, State.setMzc_eq, State.withMtb_mtb, Tab.get_set_same]
  · rw [State.settle_mtb, State.setMzc_eq, State.withMtb_mtb, State.count_mtb, State.atTick_mtb]
  · have hclock := hframe.regsOnly_clock (by rw [State.setMzc_eq, State.withMtb_dram, State.count_dram])
      (by rw [State.setMzc_eq, State.withMtb_mac, State.count_mac])
    rw [State.settle_txs, State.setMzc_eq, State.withMtb_txs, State.count_txs] at hclock
    exact hclock

variable (hlong : s.get Pg.MTB MTB.MZC_GLITCH ≤ tick - p.since) (hedge : p.raw = !s.flag Pg.MTB MTB.MZC_EDGE)
  (hmode : s.get Pg.MTB MTB.MODE = 2) (htb : s.tb ≠ TB.OFF) (hslave : s.tbSlave = false) (hsrc : pin.val ∈ s.tbSources)
  (hlast : (s.tbSrc pin.val).last = none)
include hlong hedge hmode htb hslave hsrc hlast

/-- The end of a long enough level of the wanted edge gives a crossing at the edge that began it, less MZC_DELAY. -/
theorem mzcEdge_gives_crossing :
    ∃ t, exec (.mzcEdge tick pin high) s = .next t ∧ (t.tbSrc pin.val).last = some (p.since - s.get Pg.MTB MTB.MZC_DELAY) ∧
      Tab.get (fun _ => MzcPin.idle) t.mtb.mzc pin.val = ⟨p.raw, high, tick⟩ ∧ s.CopiesMoved t ∧
      State.RegsOnly (fun _ => False) { s.atTick tick with mtb := t.mtb, txs := t.txs } t :=
  ⟨_, congrArg finish (State.mzcEdge_due hp hraw hlong (State.mzcDue_of_held hp hlevel hlong hedge hmode)),
    State.pin_referenced _ _ htb hslave hsrc hlast⟩

omit hraw in
/-- A ZERO_CROSSING within the level is that crossing. -/
theorem zeroCrossing_of_pin :
    ∃ t, exec (.zeroCrossing tick pin) s = .next t ∧ (t.tbSrc pin.val).last = some (p.since - s.get Pg.MTB MTB.MZC_DELAY) ∧
      Tab.get (fun _ => MzcPin.idle) t.mtb.mzc pin.val = ⟨p.raw, p.raw, p.since⟩ ∧ s.CopiesMoved t ∧
      State.RegsOnly (fun _ => False) { s.atTick tick with mtb := t.mtb, txs := t.txs } t := by
  have hdue := State.mzcDue_of_held hp hlevel hlong hedge hmode
  have hexec := exec_zeroCrossing (State.crossingDue_pin hp hdue)
  rw [State.crossingTaken_pin hp hdue] at hexec
  exact ⟨_, hexec, State.pin_referenced _ _ htb hslave hsrc hlast⟩

end

/-! ### A phase wrap (R65, R78) -/

/-- The state whose clock has gone on into the next cycle. -/
def State.rolled (t : Nat) (s : State) : State := s.withMtb { s.mtb with phi := s.phiAt t - phiCycle, anchor := t }

/-- The cycle counted, the record not yet stored. -/
def State.wrapped (t : Nat) (s : State) : State := (s.rolled t).put Pg.MTB MTB.CYCLE (s.get Pg.MTB MTB.CYCLE + 1)

/-- The record of the cycle that has begun, stored at LOG_HEAD of the log. -/
def State.cycleLogged (t : Nat) (s : State) : State :=
  (match s.regionOf regionTimebaseLog with
    | some r => s.dramStore (s.regionBase r + 16 * s.get Pg.MTB MTB.LOG_HEAD) (tbLogRecord t (s.get Pg.MTB MTB.CYCLE) s.tb)
    | none => s).put Pg.MTB MTB.LOG_HEAD ((s.get Pg.MTB MTB.LOG_HEAD + 1) % 131072)

/-- A phase wrap goes on from the clock taken at its tick. -/
theorem State.phaseWrap_of_anchor {s a b : State} {t : Nat} (htb : s.tb ≠ TB.OFF) (ha : s.tbAnchor t = a)
    (hphi : ¬a.mtb.phi < phiCycle) (hb : { a with mtb := { a.mtb with phi := a.mtb.phi - phiCycle } } = b) :
    s.phaseWrap t = (b.put Pg.MTB MTB.CYCLE (b.get Pg.MTB MTB.CYCLE + 1)).cycleLogged t := by
  unfold State.phaseWrap
  rw [if_neg htb, ha]
  subst hb
  exact if_neg hphi

theorem State.phaseWrap_eq {s : State} {t : Nat} (htb : s.tb ≠ TB.OFF) (hphi : phiCycle ≤ s.phiAt t) :
    s.phaseWrap t = (s.wrapped t).cycleLogged t := by
  have hcycle : (s.rolled t).get Pg.MTB MTB.CYCLE = s.get Pg.MTB MTB.CYCLE := State.withMtb_get _ _ _ _
  rw [State.phaseWrap_of_anchor htb (State.tbAnchor_eq t s) (Nat.not_lt.mpr hphi) (b := s.rolled t) rfl, hcycle, State.wrapped]

theorem State.get_wrapped_cycle (s : State) (t : Nat) :
    (s.wrapped t).get Pg.MTB MTB.CYCLE = (s.get Pg.MTB MTB.CYCLE + 1) % 2 ^ 32 := by
  rw [State.wrapped, State.get_put_same _ _ _ _ (by decide)]
  rfl

theorem State.get_wrapped_beside (s : State) (t : Nat) {f : Fld} (h : MTB.CYCLE.off ≠ f.off) :
    (s.wrapped t).get Pg.MTB f = s.get Pg.MTB f := by
  rw [State.wrapped, State.get_put_beside _ _ _ _ _ ⟨by decide, .inl h⟩, State.rolled, State.withMtb_get]

theorem State.wrapped_reg_regions (s : State) (t : Nat) (off : Nat) (hoff : off < 4096) :
    (s.wrapped t).reg (Pg.DRC 0) off = s.reg (Pg.DRC 0) off := by
  rw [State.wrapped, State.reg_put, if_neg fun he => absurd (addrOf_inj (by decide) hoff he).1 (by decide), State.rolled, State.withMtb_reg]

/-- The state after a phase wrap whose record goes to address `a`. -/
def State.wrapLogged (t a : Nat) (s : State) : State :=
  ((s.wrapped t).dramStore a (tbLogRecord t ((s.wrapped t).get Pg.MTB MTB.CYCLE) s.tb)).put Pg.MTB MTB.LOG_HEAD
    ((s.get Pg.MTB MTB.LOG_HEAD + 1) % 131072)

theorem State.phaseWrap_logs {r : Nat} (htb : s.tb ≠ TB.OFF) (hphi : phiCycle ≤ s.phiAt tick)
    (hreg : s.regionOf regionTimebaseLog = some r) :
    s.phaseWrap tick = s.wrapLogged tick (s.regionBase r + 16 * s.get Pg.MTB MTB.LOG_HEAD) := by
  have hregions := State.wrapped_reg_regions s tick
  have hreg' : (s.wrapped tick).regionOf regionTimebaseLog = some r := (State.regionOf_congr hregions _).trans hreg
  have hbase := State.regionBase_congr hregions (State.regionOf_lt hreg)
  have hhead : (s.wrapped tick).get Pg.MTB MTB.LOG_HEAD = s.get Pg.MTB MTB.LOG_HEAD := State.get_wrapped_beside _ _ (by decide)
  have hstate : (s.wrapped tick).tb = s.tb := State.get_wrapped_beside _ _ (by decide)
  rw [State.phaseWrap_eq htb hphi, State.cycleLogged, hreg', hhead, hstate]
  dsimp only
  rw [hbase, State.wrapLogged]

theorem tbLogRecord_length (start cycle st : Nat) : (tbLogRecord start cycle st).length = 16 := by
  simp only [tbLogRecord, List.length_append, leBytes_length]

/-- A phase wrap counts the cycle and stores the record of its start in the timebase log. -/
theorem phaseWrap_logs_cycle {r : Nat} (htb : s.tb ≠ TB.OFF) (hphi : phiCycle ≤ s.phiAt tick)
    (hreg : s.regionOf regionTimebaseLog = some r) : ∃ t, exec (.phaseWrap tick) s = .next t ∧
      t.get Pg.MTB MTB.CYCLE = (s.get Pg.MTB MTB.CYCLE + 1) % 2 ^ 32 ∧ t.phiAt tick + phiCycle = s.phiAt tick ∧
      t.get Pg.MTB MTB.LOG_HEAD = (s.get Pg.MTB MTB.LOG_HEAD + 1) % 131072 ∧
      (∀ i, i < 16 → t.dramByte (s.regionBase r + 16 * s.get Pg.MTB MTB.LOG_HEAD + i) =
        (leBytes 8 tick ++ leBytes 4 (t.get Pg.MTB MTB.CYCLE) ++ leBytes 1 s.tb ++ leBytes 3 0).getD i 0) ∧
      (∀ a, a < s.regionBase r + 16 * s.get Pg.MTB MTB.LOG_HEAD ∨ s.regionBase r + 16 * s.get Pg.MTB MTB.LOG_HEAD + 16 ≤ a →
        t.dramByte a = s.dramByte a) ∧
      State.RegsOnly (regsAt [(Pg.MTB, MTB.CYCLE.off), (Pg.MTB, MTB.LOG_HEAD.off)])
        { s.atTick tick with mtb := t.mtb, dram := t.dram } t := by
  have hexec : exec (.phaseWrap tick) s = .next ((s.atTick tick).wrapLogged tick
      (s.regionBase r + 16 * s.get Pg.MTB MTB.LOG_HEAD)).settle :=
    congrArg finish (State.phaseWrap_logs (s := s.atTick tick) htb hphi hreg)
  generalize s.regionBase r + 16 * s.get Pg.MTB MTB.LOG_HEAD = a at hexec ⊢
  have hcycle : ((s.atTick tick).wrapLogged tick a).settle.get Pg.MTB MTB.CYCLE = ((s.atTick tick).wrapped tick).get Pg.MTB MTB.CYCLE := by
    rw [State.get_settle_mtb _ (by decide), State.wrapLogged, State.get_put_beside _ _ _ _ _ (by decide), State.dramStore_get]
  have hmtb : ((s.atTick tick).wrapLogged tick a).mtb = { s.mtb with phi := s.phiAt tick - phiCycle, anchor := tick } := by
    rw [State.wrapLogged, State.put_mtb, State.dramStore_mtb, State.wrapped, State.put_mtb, State.rolled, State.withMtb_mtb, State.phiAt_atTick,
      State.atTick_mtb]
  have hdram : ((s.atTick tick).wrapLogged tick a).settle.dram = (((s.atTick tick).wrapped tick).dramStore a
      (tbLogRecord tick (((s.atTick tick).wrapped tick).get Pg.MTB MTB.CYCLE) s.tb)).dram := by
    rw [State.settle_dram, State.wrapLogged, State.put_dram]
    rfl
  have hbyte : ∀ b, ((s.atTick tick).wrapLogged tick a).settle.dramByte b = _ := fun b =>
    (congrArg (fun m => Tab.get (fun _ => (0 : Byte)) m b) hdram).trans (State.dramByte_dramStore _ _ _ _)
  have hkept : ∀ b, ((s.atTick tick).wrapped tick).dramByte b = s.dramByte b := fun b => by
    rw [State.dramByte, State.wrapped, State.put_dram, State.rolled, State.withMtb_dram, State.atTick_dram, State.dramByte]
  refine ⟨_, hexec, ?_, ?_, ?_, fun i hi => ?_, fun b hb => ?_, ?_⟩
  · rw [hcycle, State.get_wrapped_cycle, State.atTick_get]
  · rw [State.phiAt_settle, State.phiAt_anchor (by rw [hmtb]), hmtb]
    exact Nat.sub_add_cancel hphi
  · rw [State.get_settle_mtb _ (by decide), State.wrapLogged, State.get_put_same _ _ _ _ (by decide), State.atTick_get]
    exact Nat.mod_eq_of_lt (Nat.mod_lt _ (by decide))
  · rw [hbyte, tbLogRecord_length, if_pos (by omega), Nat.add_sub_cancel_left, hcycle]
    rfl
  · rw [hbyte, tbLogRecord_length, if_neg (by omega), hkept]
  · refine State.UnitsOnly.regsOnly_log ?_ ?_ ?_
    · exact ((((State.unitsOnly_refl _ _).withMtb _).put _ (regsAt_of_mem (by decide))).withUnits _ _ _ _).put _
        (regsAt_of_mem (by decide))
    · rw [State.wrapLogged, State.put_txs, State.dramStore_txs, State.wrapped, State.put_txs, State.rolled, State.withMtb_txs]
    · rw [State.wrapLogged, State.put_mac, State.dramStore_mac, State.wrapped, State.put_mac, State.rolled, State.withMtb_mac]

theorem phaseWrap_off (htb : s.tb = TB.OFF) :
    ∃ t, exec (.phaseWrap tick) s = .next t ∧ State.RegsOnly (fun _ => False) (s.atTick tick) t :=
  ⟨_, congrArg finish (if_pos htb), State.regsOnly_settle (State.regsOnly_refl _ _)⟩

end

/-- Settles O15: within a long enough level the pin's edge and a ZERO_CROSSING give one and the same crossing, and a phase wrap is the
next cycle's count with one store of 16 bytes. -/
theorem mzcFilterAndPhaseWrap : Obligations.MzcFilterAndPhaseWrap :=
  ⟨fun _ _ _ _ _ hp hraw hlevel => ⟨mzcEdge_ignores_glitch hp hraw hlevel, mzcEdge_gives_crossing hp hraw hlevel,
    zeroCrossing_of_pin hp hlevel⟩, fun _ _ => ⟨fun _ => phaseWrap_logs_cycle, phaseWrap_off⟩⟩

end Sys2Proof.Machine

/-! ## Support of `CrossingsLockAndRelock`: judging a crossing of the one source in use (R69 to R71). -/

namespace Sys2Proof.Machine

/-! ### Phase errors -/

theorem wrapErr_range (e : Int) : -32768 ≤ wrapErr e ∧ wrapErr e ≤ 32767 := by
  unfold wrapErr signed unsigned
  dsimp only
  split <;> omega

/-- A wrapped error differs by whole cycles. -/
theorem wrapErr_dvd (e : Int) : (65536 : Int) ∣ e - wrapErr e := by
  unfold wrapErr signed unsigned
  dsimp only
  split <;> omega

theorem wrapErr_of_range {e : Int} (h : -32768 ≤ e ∧ e ≤ 32767) : wrapErr e = e := by
  unfold wrapErr signed unsigned
  dsimp only
  split <;> omega

theorem State.crossErr_eq (s : State) (t n : Nat) : s.crossErr t n = wrapErr
    (((s.phiAt t : Int) - ((s.mtb.anchor - t) * s.get Pg.MTB MTB.FREQ : Nat)) / (phiCount : Int) - (s.srcOffset n : Int)) := rfl

theorem State.crossErr_range (s : State) (t n : Nat) : -32768 ≤ s.crossErr t n ∧ s.crossErr t n ≤ 32767 :=
  wrapErr_range _

theorem State.wrapErr_crossErr (s : State) (t n : Nat) : wrapErr (s.crossErr t n) = s.crossErr t n :=
  wrapErr_of_range (s.crossErr_range t n)

theorem satSigned_of_range {e : Int} (h : -32768 ≤ e ∧ e ≤ 32767) : satSigned 16 e = unsigned 16 e := by
  obtain ⟨hlo, hhi⟩ := h
  unfold satSigned clampInt
  rw [if_neg (by omega), if_neg (by omega)]

theorem meanErr_single {e : Int} (h : wrapErr e = e) : meanErr [e] = e := by
  have hzero : wrapErr (e - e) = 0 := by
    rw [Int.sub_self]
    rfl
  unfold meanErr
  simp only [List.map_cons, List.map_nil, List.foldl_cons, List.foldl_nil, List.length_singleton, hzero]
  simpa using h

theorem keepHits_valid (rej n : Nat) (e : Int) (period : Nat) : keepHits rej [⟨n, e, period, true⟩] = [⟨n, e, period, true⟩] := by
  simp [keepHits]

theorem keepHits_invalid (rej n : Nat) (e : Int) (period : Nat) : keepHits rej [⟨n, e, period, false⟩] = [] := by
  simp [keepHits]

/-! ### Closing a cycle -/

/-- The registers of a cycle that closes with the given hits, and no open cycle. -/
def State.cycleShown (kept : List MtbHit) (s : State) : State :=
  ({ s with mtb := { s.mtb with cyc := [] } } : State).put Pg.MTB MTB.SRC_VALID (kept.foldl (fun m h => m ||| 2 ^ h.src) 0)

/-- A cycle that closes with no valid crossing. -/
def State.cycleFailed (s : State) : State := { s with mtb := { s.mtb with cyclesSince := s.mtb.cyclesSince + 1, okRun := 0 } }

/-- The change of frequency that a cycle of the given period shows. -/
def State.rocof (period : Nat) (s : State) : Int :=
  (((phiCycle / Nat.max 1 period : Nat) : Int) - ((phiCycle / Nat.max 1 (s.mtb.periods.headD period) : Nat) : Int)) * 1000 * 2048000 /
    (65536 * (Nat.max 1 period : Nat))

/-- The results of a cycle with error `e`, its period on record. -/
def State.measured (e : Int) (period : Nat) (s : State) : State :=
  let s := (s.put Pg.MTB MTB.PHASE_ERR (satSigned 16 e)).put Pg.MTB MTB.ROCOF (satSigned 16 (s.rocof period))
  { s with mtb := { s.mtb with periods := (period :: s.mtb.periods).take 8, cyclesSince := s.mtb.cyclesSince + 1 } }

/-- The clock slewed and trimmed for error `e`, one more cycle within LOCK_THRESH or none. -/
def State.corrected (e : Int) (ok : Bool) (s : State) : State :=
  let s := s.tbSlew s.time e
  let s : State := { s with mtb := { s.mtb with left := slewLeft s.mtb.left } }
  let f := s.get Pg.MTB MTB.FREQ
  let s := s.put Pg.MTB MTB.FREQ (lockRange ((f : Int) + trimOf f e))
  { s with mtb := { s.mtb with okRun := if ok then s.mtb.okRun + 1 else 0 } }

/-- What the state does with a measured cycle (R70): the first of an acquisition sets the clock, the next ones correct it. -/
def State.cycleActs (t : Nat) (e : Int) (period : Nat) (s : State) : State :=
  if s.tb = TB.NOMINAL ∨ (s.tb = TB.ACQUIRE ∧ s.mtb.firstValid = none) then s.tbFirst t e period
  else if s.tb = TB.ACQUIRE ∨ s.tb = TB.LOCKED then
    let u := s.corrected e (decide (e.natAbs ≤ s.get Pg.MTB MTB.LOCK_THRESH))
    onlyIf (decide (s.tb = TB.ACQUIRE) && decide (2 ≤ u.mtb.okRun)) State.tbLock u
  else s

section
variable {s : State} {t n period : Nat} {e : Int}

/-- Closing a cycle: the registers, then the action of the state. -/
theorem State.tbCycle_eq {kept : List MtbHit} {u : State} (hkept : keepHits (s.get Pg.MTB MTB.REJECT_THRESH) s.mtb.cyc = kept)
    (hdrop : onlyIf (decide (kept.length < (s.mtb.cyc.filter (·.valid)).length)) (State.event Pg.MTB MTB.EV_SRC_DROP) s = u)
    (he : meanErr (kept.map (·.err)) = e) (hperiod : kept.foldl (fun n h => n + h.period) 0 / kept.length = period) :
    s.tbCycle t = if kept = [] then (u.cycleShown kept).cycleFailed else
      ((u.cycleShown kept).measured e period).cycleActs t e period := by
  subst hkept
  unfold State.tbCycle
  extract_lets rej hits kept u' m0 u0 shown m1 failed e' period' old df rocof put m2 measured
  have hu : u' = u := hdrop
  clear_value u'
  subst hu
  have hshown : shown = u'.cycleShown kept := rfl
  clear_value shown
  subst hshown
  have hperiod' : period' = period := hperiod
  clear_value period'
  subst hperiod'
  have he' : e' = e := he
  clear_value e'
  subst he'
  have hmeasured : measured = (u'.cycleShown kept).measured e' period' := rfl
  clear_value measured
  subst hmeasured
  rfl

/-- A cycle whose one crossing is invalid. -/
theorem State.tbCycle_invalid (hcyc : s.mtb.cyc = [⟨n, e, period, false⟩]) : s.tbCycle t = (s.cycleShown []).cycleFailed := by
  have hkept : keepHits (s.get Pg.MTB MTB.REJECT_THRESH) s.mtb.cyc = [] := by rw [hcyc, keepHits_invalid]
  have hdrop : onlyIf (decide (0 < (s.mtb.cyc.filter (·.valid)).length)) (State.event Pg.MTB MTB.EV_SRC_DROP) s = s := by
    rw [hcyc]
    rfl
  exact (State.tbCycle_eq hkept hdrop rfl rfl).trans (if_pos rfl)

/-- A cycle whose one crossing is valid. -/
theorem State.tbCycle_valid (hcyc : s.mtb.cyc = [⟨n, e, period, true⟩]) (he : wrapErr e = e) :
    s.tbCycle t = ((s.cycleShown [⟨n, e, period, true⟩]).measured e period).cycleActs t e period := by
  have hkept : keepHits (s.get Pg.MTB MTB.REJECT_THRESH) s.mtb.cyc = [⟨n, e, period, true⟩] := by rw [hcyc, keepHits_valid]
  have hdrop : onlyIf (decide (1 < (s.mtb.cyc.filter (·.valid)).length)) (State.event Pg.MTB MTB.EV_SRC_DROP) s = s := by
    rw [hcyc]
    rfl
  have hperiod : [(⟨n, e, period, true⟩ : MtbHit)].foldl (fun n h => n + h.period) 0 / 1 = period := by
    rw [List.foldl_cons, List.foldl_nil, Nat.zero_add, Nat.div_one]
  exact (State.tbCycle_eq hkept hdrop (meanErr_single he) hperiod).trans (if_neg (List.cons_ne_nil _ _))


/-! ### Judging a crossing -/

/-- A judged crossing on record: the source's last crossing and its result in the open cycle. -/
def State.withHit (c n period : Nat) (e : Int) (valid : Bool) (s : State) : State :=
  let s := s.setSrc n { s.tbSrc n with last := some c, period := period }
  { s with mtb := { s.mtb with cyc := s.mtb.cyc ++ [⟨n, e, period, valid⟩] } }

/-- What a valid crossing with error `e` does before its cycle closes. -/
def State.hitValid (c : Nat) (e : Int) (s : State) : State :=
  let s : State := { s with mtb := { s.mtb with badRun := 0, lastValid := c } }
  onlyIf (decide (s.tb = TB.HOLDOVER)) (State.holdCrossing e) s

/-- What an invalid crossing does before its cycle closes. -/
def State.hitInvalid (s : State) : State :=
  let s := s.count Pg.MTB MTB.INVALID_CNT
  { s with mtb := { s.mtb with badRun := s.mtb.badRun + 1, holdErr := none, okRun := 0 } }

/-- The cycle closes when every enabled source has a result. -/
def State.cycleDone (c : Nat) (s : State) : State :=
  if s.tbSources.all (fun m => s.mtb.cyc.any fun h => decide (h.src = m)) then s.tbCycle c else s

/-- A crossing after the source's reference, the first of its cycle. -/
theorem State.crossing_judged {c t0 : Nat} {valid : Bool} {a b : State} (htb : s.tb ≠ TB.OFF) (hslave : s.tbSlave = false)
    (hsrc : n ∈ s.tbSources) (hlast : (s.tbSrc n).last = some t0) (hcyc : s.mtb.cyc = [])
    (hvalid : (decide (29696 ≤ c - t0) && decide (c - t0 ≤ 47104) &&
      (decide (s.tb ≠ TB.LOCKED) || decide (s.testErr (s.crossErr c n) ≤ s.get Pg.MTB MTB.REJECT_THRESH))) = valid)
    (ha : s.withHit c n (c - t0) (s.crossErr c n) valid = a)
    (hb : (if valid = true then a.hitValid c (s.crossErr c n) else a.hitInvalid).cycleDone c = b) :
    s.crossing c n = onlyIf (decide (b.tb = TB.LOCKED) && decide (3 ≤ b.mtb.badRun)) (State.enterHoldover b.time) b := by
  have hjudged : ¬(s.tb = TB.OFF ∨ s.tbSlave = true ∨ n ∉ s.tbSources) := by simp [htb, hslave, hsrc]
  have hopen : ¬(s.mtb.cyc.any fun h => decide (h.src = n)) = true := by simp [hcyc]
  subst hvalid ha hb
  unfold State.crossing
  rw [if_neg hjudged]
  split
  next h => exact absurd (hlast.symm.trans h) (Option.some_ne_none t0)
  next t1 h =>
  obtain rfl := Option.some.inj (h.symm.trans hlast)
  rw [if_neg hopen]
  rfl

end
end Sys2Proof.Machine

namespace Sys2Proof.Machine

/-! ### The record of the timebase beside the registers -/

section
variable (m : MtbSt) (s : State) (pg : Nat) (f : Fld)

theorem State.withMtb_withMtb (m' : MtbSt) : (s.withMtb m').withMtb m = s.withMtb m := rfl

theorem State.put_withMtb (v : Nat) : (s.withMtb m).put pg f v = (s.put pg f v).withMtb m := rfl

theorem State.event_withMtb : (s.withMtb m).event pg f = (s.event pg f).withMtb m := rfl

theorem State.tbState_withMtb (st : Nat) : (s.withMtb m).tbState st = (s.tbState st).withMtb m := rfl

theorem State.count_withMtb : (s.withMtb m).count pg f = (s.count pg f).withMtb m := by
  unfold State.count State.countBy
  rw [State.withMtb_flag]
  split <;> rfl

end

/-- The sources in use are those that MODE and SRC_EN name. -/
theorem State.tbSources_congr {s u : State} (hmode : u.get Pg.MTB MTB.MODE = s.get Pg.MTB MTB.MODE)
    (hen : u.get Pg.MTB MTB.SRC_EN = s.get Pg.MTB MTB.SRC_EN) : u.tbSources = s.tbSources := by
  unfold State.tbSources
  rw [hmode, hen]

/-! ### What the steps of a judgement do to the state -/

section
variable (c n period : Nat) (e : Int) (valid : Bool) (s : State)

/-- The record of a crossing of source n at tick `c`. -/
def State.hitSrc : Tab MtbSrc :=
  Tab.set (fun _ => MtbSrc.idle) s.mtb.src n { s.tbSrc n with last := some c, period := period }

theorem State.withHit_eq : s.withHit c n period e valid = s.withMtb { s.mtb with
    src := s.hitSrc c n period, cyc := s.mtb.cyc ++ [⟨n, e, period, valid⟩] } := rfl

theorem State.hitInvalid_eq : s.hitInvalid = (s.count Pg.MTB MTB.INVALID_CNT).withMtb
    { (s.count Pg.MTB MTB.INVALID_CNT).mtb with
      badRun := (s.count Pg.MTB MTB.INVALID_CNT).mtb.badRun + 1, holdErr := none, okRun := 0 } := rfl

theorem State.cycleShown_eq (kept : List MtbHit) : s.cycleShown kept =
    (s.put Pg.MTB MTB.SRC_VALID (kept.foldl (fun m h => m ||| 2 ^ h.src) 0)).withMtb { s.mtb with cyc := [] } := rfl

theorem State.cycleFailed_eq : s.cycleFailed = s.withMtb { s.mtb with cyclesSince := s.mtb.cyclesSince + 1, okRun := 0 } := rfl

/-- The registers of a measured cycle. -/
def State.measuredRegs : State :=
  (s.put Pg.MTB MTB.PHASE_ERR (satSigned 16 e)).put Pg.MTB MTB.ROCOF (satSigned 16 (s.rocof period))

theorem State.measured_eq : s.measured e period = (s.measuredRegs period e).withMtb
    { (s.measuredRegs period e).mtb with periods := (period :: (s.measuredRegs period e).mtb.periods).take 8
                                         cyclesSince := (s.measuredRegs period e).mtb.cyclesSince + 1 } := rfl

end

/-- Of the one source in use, a cycle closes with its crossing. -/
theorem State.cycleDone_hit {s : State} {c n period : Nat} {e : Int} {valid : Bool} (hsrc : s.tbSources = [n])
    (hcyc : s.mtb.cyc = [⟨n, e, period, valid⟩]) : s.cycleDone c = s.tbCycle c :=
  if_pos (by simp [hsrc, hcyc])

theorem State.cycleDone_open {s : State} {c n : Nat} (hsrc : s.tbSources = [n]) (hcyc : s.mtb.cyc = []) : s.cycleDone c = s :=
  if_neg (by simp [hsrc, hcyc])

/-! ### A crossing outside the span -/

/-- The state that has judged a crossing of source n invalid and closed its cycle. -/
def State.missed (c n period : Nat) (e : Int) (s : State) : State :=
  ((s.withHit c n period e false).hitInvalid.cycleShown []).cycleFailed

/-- The registers in which an invalid crossing shows. -/
def missedRegs : List (Nat × Nat) := [(Pg.MTB, MTB.INVALID_CNT.off), (Pg.MTB, MTB.SRC_VALID.off)]

section
variable (c n period : Nat) (e : Int) (s : State)

theorem State.missed_eq : s.missed c n period e =
    ((s.count Pg.MTB MTB.INVALID_CNT).put Pg.MTB MTB.SRC_VALID 0).withMtb { s.mtb with
      src := s.hitSrc c n period, cyc := [], badRun := s.mtb.badRun + 1, holdErr := none, okRun := 0
      cyclesSince := s.mtb.cyclesSince + 1 } := by
  rw [State.missed, State.cycleFailed_eq, State.cycleShown_eq, State.withMtb_mtb, State.withMtb_withMtb, State.hitInvalid_eq,
    State.withMtb_mtb, State.put_withMtb, State.withMtb_withMtb, State.count_mtb, State.withHit_eq, State.withMtb_mtb,
    State.count_withMtb, State.put_withMtb, State.withMtb_withMtb, List.foldl_nil]

theorem State.missed_txs : (s.missed c n period e).txs = s.txs := by
  rw [State.missed_eq, State.withMtb_txs, State.put_txs, State.count_txs]
theorem State.missed_mac : (s.missed c n period e).mac = s.mac := by
  rw [State.missed_eq, State.withMtb_mac, State.put_mac, State.count_mac]
theorem State.missed_dram : (s.missed c n period e).dram = s.dram := by
  rw [State.missed_eq, State.withMtb_dram, State.put_dram, State.count_dram]

/-- An invalid crossing shows in INVALID_CNT and SRC_VALID alone. -/
theorem State.get_missed_beside {f : Fld} (hv : MTB.SRC_VALID.lsb + MTB.SRC_VALID.w ≤ 32 ∧
    (MTB.SRC_VALID.off ≠ f.off ∨ f.lsb + f.w ≤ MTB.SRC_VALID.lsb ∨ MTB.SRC_VALID.lsb + MTB.SRC_VALID.w ≤ f.lsb)) :
    (s.missed c n period e).get Pg.MTB f = (s.count Pg.MTB MTB.INVALID_CNT).get Pg.MTB f := by
  rw [State.missed_eq, State.withMtb_get, State.get_put_beside _ _ _ _ _ hv]

theorem State.get_missed_srcValid : (s.missed c n period e).get Pg.MTB MTB.SRC_VALID = 0 := by
  rw [State.missed_eq, State.withMtb_get, State.get_put_same _ _ _ _ (by decide)]
  rfl

theorem State.tb_missed : (s.missed c n period e).tb = s.tb := by
  rw [State.tb, State.get_missed_beside _ _ _ _ _ (by decide), State.get_count_beside _ (by decide), ← State.tb]

theorem State.phiAt_missed (t : Nat) : (s.missed c n period e).phiAt t = s.phiAt t := by
  have hmtb : (s.missed c n period e).mtb = _ := (congrArg State.mtb (s.missed_eq c n period e)).trans (State.withMtb_mtb _ _)
  have hfreq : (s.missed c n period e).get Pg.MTB MTB.FREQ = s.get Pg.MTB MTB.FREQ := by
    rw [State.get_missed_beside _ _ _ _ _ (by decide), State.get_count_beside _ (by decide)]
  exact State.phiAt_congr (s.tb_missed c n period e) hfreq (by rw [hmtb]) (by rw [hmtb]) (by rw [hmtb]) (by rw [hmtb])
    (by rw [hmtb]) t

end

theorem State.UnitsOnly.missed {b s : State} (h : b.UnitsOnly (regsAt missedRegs) s) (c n period : Nat) (e : Int) :
    b.UnitsOnly (regsAt missedRegs) (s.missed c n period e) := by
  rw [State.missed_eq]
  exact ((h.count (regsAt_of_mem (by decide))).put _ (regsAt_of_mem (by decide))).withMtb _

section
variable {s : State} {c n t0 : Nat} (hslave : s.tbSlave = false) (hsrc : s.tbSources = [n])
  (hlast : (s.tbSrc n).last = some t0) (hcyc : s.mtb.cyc = [])
include hslave hsrc hlast hcyc

/-- A crossing outside 14.5 to 23.0 ms of the source's last one is invalid. -/
theorem State.crossing_outside (htb : s.tb = TB.ACQUIRE ∨ s.tb = TB.HOLDOVER ∨ s.tb = TB.NOMINAL)
    (hspan : c - t0 < 29696 ∨ 47104 < c - t0) : s.crossing c n = s.missed c n (c - t0) (s.crossErr c n) := by
  have hoff : s.tb ≠ TB.OFF := by rcases htb with h | h | h <;> rw [h] <;> decide
  have hunlocked : s.tb ≠ TB.LOCKED := by rcases htb with h | h | h <;> rw [h] <;> decide
  have hvalid : (decide (29696 ≤ c - t0) && decide (c - t0 ≤ 47104) &&
      (decide (s.tb ≠ TB.LOCKED) || decide (s.testErr (s.crossErr c n) ≤ s.get Pg.MTB MTB.REJECT_THRESH))) = false := by
    rcases hspan with h | h
    · rw [decide_eq_false (Nat.not_le.mpr h), Bool.false_and, Bool.false_and]
    · rw [decide_eq_false (Nat.not_le.mpr h), Bool.and_false, Bool.false_and]
  have hsources : (s.withHit c n (c - t0) (s.crossErr c n) false).hitInvalid.tbSources = [n] := by
    rw [State.hitInvalid_eq, State.tbSources_withMtb, State.tbSources_congr (State.get_count_beside _ (by decide))
      (State.get_count_beside _ (by decide)), State.withHit_eq, State.tbSources_withMtb, hsrc]
  have hclosed : (if false = true then (s.withHit c n (c - t0) (s.crossErr c n) false).hitValid c (s.crossErr c n)
      else (s.withHit c n (c - t0) (s.crossErr c n) false).hitInvalid).cycleDone c = s.missed c n (c - t0) (s.crossErr c n) := by
    have hhit : (s.withHit c n (c - t0) (s.crossErr c n) false).hitInvalid.mtb.cyc = [⟨n, s.crossErr c n, c - t0, false⟩] := by
      rw [State.hitInvalid_eq, State.withMtb_mtb, State.count_mtb, State.withHit_eq, State.withMtb_mtb, hcyc, List.nil_append]
    rw [if_neg Bool.false_ne_true, State.cycleDone_hit hsources hhit, State.tbCycle_invalid hhit, State.missed]
  rw [State.crossing_judged hoff hslave (hsrc ▸ List.mem_singleton_self n) hlast hcyc hvalid rfl hclosed, State.tb_missed,
    decide_eq_false hunlocked, Bool.false_and]
  rfl

end

end Sys2Proof.Machine

/-! ### A valid crossing of an acquisition -/

namespace Sys2Proof.Machine

section
variable (c n period : Nat) (e : Int) (s : State)

/-- The registers that report a valid crossing of source n. -/
def State.reportRegs : State :=
  ((s.put Pg.MTB MTB.SRC_VALID (2 ^ n)).put Pg.MTB MTB.PHASE_ERR (satSigned 16 e)).put Pg.MTB MTB.ROCOF
    (satSigned 16 (s.rocof period))

/-- What the timebase keeps of a valid crossing whose cycle has closed. -/
def State.reportMtb : MtbSt :=
  { s.mtb with src := s.hitSrc c n period, cyc := [], badRun := 0, lastValid := c
               periods := (period :: s.mtb.periods).take 8, cyclesSince := s.mtb.cyclesSince + 1 }

/-- The state that has judged a crossing of source n valid and closed its cycle, not yet acted on. -/
def State.reported : State := (s.reportRegs n period e).withMtb (s.reportMtb c n period)

theorem State.rocof_congr {s u : State} (h : u.mtb.periods = s.mtb.periods) (period : Nat) : u.rocof period = s.rocof period := by
  unfold State.rocof
  rw [h]

theorem State.measured_withMtb (m : MtbSt) : (s.withMtb m).measured e period =
    ((s.put Pg.MTB MTB.PHASE_ERR (satSigned 16 e)).put Pg.MTB MTB.ROCOF (satSigned 16 ((s.withMtb m).rocof period))).withMtb
      { m with periods := (period :: m.periods).take 8, cyclesSince := m.cyclesSince + 1 } := rfl

/-- A valid crossing outside HOLDOVER, with the cycle that it closes. -/
theorem State.reported_eq {u : State} (hu : (s.withHit c n period e true).hitValid c e = u) (htb : s.tb ≠ TB.HOLDOVER)
    (hcyc : s.mtb.cyc = []) :
    u.tbSources = s.tbSources ∧ u.mtb.cyc = [⟨n, e, period, true⟩] ∧
      (u.cycleShown [⟨n, e, period, true⟩]).measured e period = s.reported c n period e := by
  have hhit : u = s.withMtb { s.mtb with
      src := s.hitSrc c n period, cyc := [⟨n, e, period, true⟩], badRun := 0, lastValid := c } := by
    rw [← hu, State.hitValid, State.withHit_eq, hcyc, List.nil_append]
    exact if_neg fun h => htb (of_decide_eq_true h)
  rw [hhit]
  refine ⟨State.tbSources_withMtb _ _, by rw [State.withMtb_mtb], ?_⟩
  rw [State.cycleShown_eq, State.put_withMtb, State.withMtb_mtb, State.withMtb_withMtb, State.measured_withMtb,
    State.rocof_congr (s := s) (by rw [State.withMtb_mtb])]
  simp only [List.foldl_cons, List.foldl_nil, Nat.zero_or]
  rfl

/-! #### What a reported crossing shows -/

theorem State.reported_txs : (s.reported c n period e).txs = s.txs := by
  rw [State.reported, State.withMtb_txs, State.reportRegs, State.put_txs, State.put_txs, State.put_txs]
theorem State.reported_mac : (s.reported c n period e).mac = s.mac := by
  rw [State.reported, State.withMtb_mac, State.reportRegs, State.put_mac, State.put_mac, State.put_mac]
theorem State.reported_dram : (s.reported c n period e).dram = s.dram := by
  rw [State.reported, State.withMtb_dram, State.reportRegs, State.put_dram, State.put_dram, State.put_dram]
theorem State.reported_time : (s.reported c n period e).time = s.time := by
  rw [State.reported, State.withMtb_time, State.reportRegs, State.put_time, State.put_time, State.put_time]
theorem State.reported_mtb : (s.reported c n period e).mtb = s.reportMtb c n period := State.withMtb_mtb _ _

/-- A reported crossing shows in SRC_VALID, PHASE_ERR and ROCOF alone. -/
theorem State.get_reported_beside {f : Fld} (hp : MTB.PHASE_ERR.off ≠ f.off) (hv : MTB.SRC_VALID.lsb + MTB.SRC_VALID.w ≤ 32 ∧
    (MTB.SRC_VALID.off ≠ f.off ∨ f.lsb + f.w ≤ MTB.SRC_VALID.lsb ∨ MTB.SRC_VALID.lsb + MTB.SRC_VALID.w ≤ f.lsb)) :
    (s.reported c n period e).get Pg.MTB f = s.get Pg.MTB f := by
  have hr : MTB.ROCOF.off ≠ f.off := hp
  rw [State.reported, State.withMtb_get, State.reportRegs, State.get_put_beside _ _ _ _ _ ⟨by decide, .inl hr⟩,
    State.get_put_beside _ _ _ _ _ ⟨by decide, .inl hp⟩, State.get_put_beside _ _ _ _ _ hv]

theorem State.tb_reported : (s.reported c n period e).tb = s.tb :=
  s.get_reported_beside c n period e (by decide) (by decide)

theorem State.get_reported_srcValid (hn : n < 3) : (s.reported c n period e).get Pg.MTB MTB.SRC_VALID = 2 ^ n := by
  have hbits : 2 ^ n < 2 ^ MTB.SRC_VALID.w := Nat.pow_lt_pow_right (by decide) hn
  rw [State.reported, State.withMtb_get, State.reportRegs, State.get_put_beside _ _ _ _ _ (by decide),
    State.get_put_beside _ _ _ _ _ (by decide), State.get_put_same _ _ _ _ (by decide), Nat.mod_eq_of_lt hbits]

theorem State.getInt_reported_phaseErr (he : -32768 ≤ e ∧ e ≤ 32767) :
    (s.reported c n period e).getInt Pg.MTB MTB.PHASE_ERR = e := by
  have hbits : unsigned 16 e < 2 ^ MTB.PHASE_ERR.w := by
    unfold unsigned
    have hw : MTB.PHASE_ERR.w = 16 := rfl
    rw [hw]
    omega
  rw [State.getInt, State.reported, State.withMtb_get, State.reportRegs, State.get_put_beside _ _ _ _ _ (by decide),
    State.get_put_same _ _ _ _ (by decide), satSigned_of_range he, Nat.mod_eq_of_lt hbits]
  exact wrapErr_of_range he

theorem State.phiAt_reported (t : Nat) : (s.reported c n period e).phiAt t = s.phiAt t := by
  have hmtb := s.reported_mtb c n period e
  exact State.phiAt_congr (s.tb_reported c n period e) (s.get_reported_beside c n period e (by decide) (by decide))
    (by rw [hmtb, State.reportMtb]) (by rw [hmtb, State.reportMtb]) (by rw [hmtb, State.reportMtb])
    (by rw [hmtb, State.reportMtb]) (by rw [hmtb, State.reportMtb]) t

end

/-- The registers in which a valid crossing of an acquisition shows. -/
def acquireRegs : List (Nat × Nat) :=
  [(Pg.MTB, MTB.STATE.off), (Pg.MTB, MTB.FREQ.off), (Pg.MTB, MTB.PHASE_ERR.off), (Pg.MTB, CMN.EVENTS)]

theorem State.UnitsOnly.reported {b s : State} (h : b.UnitsOnly (regsAt acquireRegs) s) (c n period : Nat) (e : Int) :
    b.UnitsOnly (regsAt acquireRegs) (s.reported c n period e) :=
  (((h.put _ (regsAt_of_mem (by decide))).put _ (regsAt_of_mem (by decide))).put _ (regsAt_of_mem (by decide))).withMtb _

section
variable {s : State} {c n t0 : Nat} (hslave : s.tbSlave = false) (hsrc : s.tbSources = [n])
  (hlast : (s.tbSrc n).last = some t0) (hcyc : s.mtb.cyc = [])
include hslave hsrc hlast hcyc

/-- A crossing 14.5 to 23.0 ms after the source's last one, outside LOCKED and HOLDOVER: its cycle closes and the state acts on it. -/
theorem State.crossing_within (htb : s.tb = TB.ACQUIRE ∨ s.tb = TB.NOMINAL) (hlo : 29696 ≤ c - t0) (hhi : c - t0 ≤ 47104)
    {b : State} (hb : (s.reported c n (c - t0) (s.crossErr c n)).cycleActs c (s.crossErr c n) (c - t0) = b)
    (hrun : b.mtb.badRun = 0) : s.crossing c n = b := by
  have hoff : s.tb ≠ TB.OFF := by rcases htb with h | h <;> rw [h] <;> decide
  have hheld : s.tb ≠ TB.HOLDOVER := by rcases htb with h | h <;> rw [h] <;> decide
  have hunlocked : s.tb ≠ TB.LOCKED := by rcases htb with h | h <;> rw [h] <;> decide
  have hvalid : (decide (29696 ≤ c - t0) && decide (c - t0 ≤ 47104) &&
      (decide (s.tb ≠ TB.LOCKED) || decide (s.testErr (s.crossErr c n) ≤ s.get Pg.MTB MTB.REJECT_THRESH))) = true := by
    rw [decide_eq_true hlo, decide_eq_true hhi, decide_eq_true hunlocked, Bool.true_or, Bool.and_self, Bool.and_self]
  obtain ⟨u, hu⟩ : ∃ u, (s.withHit c n (c - t0) (s.crossErr c n) true).hitValid c (s.crossErr c n) = u := ⟨_, rfl⟩
  obtain ⟨hsame, hopen, hreport⟩ := State.reported_eq c n (c - t0) (s.crossErr c n) s hu hheld hcyc
  have hclosed : (if true = true then (s.withHit c n (c - t0) (s.crossErr c n) true).hitValid c (s.crossErr c n)
      else (s.withHit c n (c - t0) (s.crossErr c n) true).hitInvalid).cycleDone c = b := by
    rw [if_pos rfl, hu, State.cycleDone_hit (hsame.trans hsrc) hopen, State.tbCycle_valid hopen (s.wrapErr_crossErr c n), hreport, hb]
  rw [State.crossing_judged hoff hslave (hsrc ▸ List.mem_singleton_self n) hlast hcyc hvalid rfl hclosed, hrun]
  exact if_neg (by simp)

end

/-! #### The first valid crossing of an acquisition -/

/-- The units by which the clock steps onto a crossing measured at tick `t` with error `e`, running on at `freq`. -/
def State.stepOnto (t : Nat) (e : Int) (freq : Nat) (s : State) : Nat :=
  ((((s.time - t : Nat) : Int) * ((freq : Int) - (s.get Pg.MTB MTB.FREQ : Int)) - e * (phiCount : Int)) % (phiCycle : Int)).toNat

/-- What the timebase keeps from the first valid crossing of an acquisition on. -/
def State.firstMtb (t : Nat) (e : Int) (freq : Nat) (s : State) : MtbSt :=
  { s.mtb with phi := s.phiAt s.time + s.stepOnto t e freq, anchor := s.time, firstValid := some t, cyclesSince := 0, okRun := 0
               slew := 0, slewEnd := 0, holdEnd := 0, left := 0 }

theorem State.tbFirst_eq (t : Nat) (e : Int) (period : Nat) (s : State) {freq : Nat}
    (hfreq : lockRange (phiCycle / Nat.max 1 period) = freq) : s.tbFirst t e period =
      (((s.put Pg.MTB MTB.FREQ freq).tbState TB.ACQUIRE).event Pg.MTB MTB.EV_PHASE_STEP).withMtb (s.firstMtb t e freq) := by
  have hmtb := State.tbAnchor_mtb s.time s
  have htime := State.tbAnchor_time s.time s
  have hget := State.tbAnchor_get s.time s Pg.MTB MTB.FREQ
  have hanchored := State.tbAnchor_eq s.time s
  unfold State.tbFirst
  extract_lets u freq' since fwd m v
  have hfreq' : freq' = freq := hfreq
  clear_value freq'
  subst hfreq'
  have hsince : since = ((u.time - t : Nat) : Int) * ((freq' : Int) - (u.get Pg.MTB MTB.FREQ : Int)) := rfl
  have hfwd : fwd = ((since - e * (phiCount : Int)) % (phiCycle : Int)).toNat := rfl
  have hv : v = u.withMtb { u.mtb with phi := u.mtb.phi + fwd, firstValid := some t, cyclesSince := 0, okRun := 0, slew := 0
                                       slewEnd := 0, holdEnd := 0, left := 0 } := rfl
  clear_value v fwd since m
  have hu : u = s.tbAnchor s.time := rfl
  clear_value u
  subst hu
  rw [htime, hget] at hsince
  rw [hsince, ← State.stepOnto] at hfwd
  rw [hv, hmtb, hfwd, hanchored, State.withMtb_withMtb, State.put_withMtb, State.tbState_withMtb,
    State.event_withMtb, State.firstMtb]

end Sys2Proof.Machine

/-! ### Corrections of the clock (R71) -/

namespace Sys2Proof.Machine

section
variable (t : Nat) (e : Int) (s : State)

/-- The slew that removes error `e`, at most 1,311 counts, within one cycle. -/
def State.slewRate : Int := clampInt (-1311) 1311 (-e) * (phiCount : Int) / (Nat.max 1 s.cycleTicks : Nat)

/-- What the timebase keeps while it slews from tick `t` on. -/
def State.slewMtb : MtbSt :=
  { s.mtb with phi := s.phiAt t, anchor := t, slew := s.slewRate e, slewEnd := t + s.cycleTicks }

theorem State.tbSlew_eq : s.tbSlew t e = s.withMtb (s.slewMtb t e) := by
  have hmtb := State.tbAnchor_mtb t s
  have hanchored := State.tbAnchor_eq t s
  unfold State.tbSlew
  extract_lets c n u
  have hu : u = s.tbAnchor t := rfl
  have hc : c * (phiCount : Int) / (Nat.max 1 n : Nat) = s.slewRate e := rfl
  have hn : n = s.cycleTicks := rfl
  clear_value u c n
  subst hu
  have hv : ({ s.tbAnchor t with mtb := { (s.tbAnchor t).mtb with
      slew := c * (phiCount : Int) / (Nat.max 1 n : Nat), slewEnd := t + n } } : State) = (s.tbAnchor t).withMtb
      { (s.tbAnchor t).mtb with slew := c * (phiCount : Int) / (Nat.max 1 n : Nat), slewEnd := t + n } := rfl
  rw [hv, hc, hmtb, hanchored, State.withMtb_withMtb, hn, State.slewMtb]

/-- A step onto the reference or a wait for it goes on from the clock taken at its tick. -/
theorem State.tbRelock_far {u : State} (hu : s.tbAnchor t = u) (hfar : 8192 < e.natAbs) : s.tbRelock t e =
    if e < 0 then (u.withMtb { u.mtb with left := 0, phi := u.mtb.phi + e.natAbs * phiCount }).phaseStepped
    else (u.withMtb { u.mtb with
      left := 0, holdEnd := t + e.natAbs * phiCount / Nat.max 1 (u.get Pg.MTB MTB.FREQ) }).phaseStepped := by
  unfold State.tbRelock
  rw [hu]
  exact if_neg (Nat.not_le.mpr hfar)

theorem State.phaseStepped_withMtb (m : MtbSt) : (s.withMtb m).phaseStepped = s.phaseStepped.withMtb m := by
  rw [State.phaseStepped, State.event_withMtb, State.count_withMtb, State.phaseStepped]

/-- What the timebase keeps once it has jumped forward onto the reference. -/
def State.jumpMtb : MtbSt := { s.mtb with phi := s.phiAt t + e.natAbs * phiCount, anchor := t, left := 0 }

theorem State.tbRelock_behind (hfar : 8192 < e.natAbs) (hneg : e < 0) :
    s.tbRelock t e = s.phaseStepped.withMtb (s.jumpMtb t e) := by
  rw [s.tbRelock_far t e (State.tbAnchor_eq t s) hfar, if_pos hneg, State.withMtb_withMtb, State.withMtb_mtb,
    State.phaseStepped_withMtb, State.jumpMtb]

/-- What the timebase keeps while it is held still until the reference has caught up. -/
def State.waitMtb : MtbSt :=
  { s.mtb with phi := s.phiAt t, anchor := t, left := 0
               holdEnd := t + e.natAbs * phiCount / Nat.max 1 (s.get Pg.MTB MTB.FREQ) }

theorem State.tbRelock_ahead (hfar : 8192 < e.natAbs) (hpos : ¬e < 0) :
    s.tbRelock t e = s.phaseStepped.withMtb (s.waitMtb t e) := by
  rw [s.tbRelock_far t e (State.tbAnchor_eq t s) hfar, if_neg hpos, State.withMtb_withMtb, State.withMtb_mtb,
    State.phaseStepped_withMtb, State.withMtb_get, State.waitMtb]

theorem State.tbRelock_near (hnear : e.natAbs ≤ 8192) :
    s.tbRelock t e = s.withMtb { s.slewMtb t e with left := slewLeft e } := by
  have hslew : s.tbRelock t e = (s.tbSlew t e).withMtb { (s.tbSlew t e).mtb with left := slewLeft e } := if_pos hnear
  rw [hslew, State.tbSlew_eq, State.withMtb_withMtb, State.withMtb_mtb]

/-- A cycle of an acquisition or in LOCKED slews the clock and trims its frequency. -/
theorem State.corrected_eq (ok : Bool) : s.corrected e ok =
    (s.put Pg.MTB MTB.FREQ (lockRange ((s.get Pg.MTB MTB.FREQ : Int) + trimOf (s.get Pg.MTB MTB.FREQ) e))).withMtb
      { s.slewMtb s.time e with left := slewLeft s.mtb.left, okRun := if ok then s.mtb.okRun + 1 else 0 } := by
  have hleft : (s.slewMtb s.time e).left = s.mtb.left := by rw [State.slewMtb]
  have hrun : (s.slewMtb s.time e).okRun = s.mtb.okRun := by rw [State.slewMtb]
  unfold State.corrected
  rw [State.tbSlew_eq]
  generalize s.slewMtb s.time e = m at hleft hrun ⊢
  rw [← hleft, ← hrun]
  rfl

end

theorem lockRange_bounds (f : Int) : 45 * 65536 ≤ lockRange f ∧ lockRange f ≤ 65 * 65536 := by
  unfold lockRange clampInt
  split
  · decide
  · split <;> omega

/-- Two valid crossings in HOLDOVER whose errors agree correct the phase and lock. -/
theorem State.holdCrossing_again {s : State} {e e0 : Int} (hheld : s.mtb.holdErr = some e0)
    (hagree : (wrapErr (e - e0)).natAbs ≤ s.get Pg.MTB MTB.REJECT_THRESH) : s.holdCrossing e =
      ((s.withMtb { s.mtb with holdErr := none, okRun := 0, cyc := [] }).tbRelock s.time e).tbLock := by
  unfold State.holdCrossing
  rw [hheld]
  exact if_pos (decide_eq_true hagree)

/-! ### The phase onto which the clock is set -/

/-- A clock that is put forward by the error of a crossing at `phiC` counts, `k` ticks ago, and that runs on at `g` instead of `f`, stands
where it would had it passed the source's offset at the crossing. -/
theorem phase_onReference {phi phiC off k f g fwd : Nat} {e : Int} (hphi : phi = phiC + k * f)
    (he : (65536 : Int) ∣ ((phiC : Int) / (phiCount : Int) - (off : Int)) - e)
    (hfwd : (phiCycle : Int) ∣ (fwd : Int) - ((k : Int) * ((g : Int) - (f : Int)) - e * (phiCount : Int))) :
    (phi + fwd) % phiCycle = (off * phiCount + phiC % phiCount + k * g) % phiCycle := by
  obtain ⟨q, hq⟩ := he
  obtain ⟨r, hr⟩ := hfwd
  have hsplit : (phiC : Int) = phiCount * ((phiC : Int) / phiCount) + (phiC : Int) % phiCount := (Int.mul_ediv_add_emod _ _).symm
  have hcycle : (phiCycle : Int) = 65536 * phiCount := rfl
  have hphi' : (phi : Int) = phiC + k * f := by exact_mod_cast hphi
  refine Nat.modEq_iff_dvd.mpr ⟨-q - r, ?_⟩
  push_cast
  rw [hcycle] at hr ⊢
  linear_combination -hr - (phiCount : Int) * hq - hphi' - hsplit

end Sys2Proof.Machine

/-! ### A crossing that is taken from its source -/

namespace Sys2Proof.Machine

/-- Between `s` and `u` the crossing of source n due at `tick` has been taken, the source's last crossing still on record. -/
structure State.Taken (tick n : Nat) (s u : State) : Prop where
  eq : ∃ src mzc, u = (s.atTick tick).withMtb { s.mtb with src := src, mzc := mzc }
  last : (u.tbSrc n).last = (s.tbSrc n).last

theorem State.taken_crossingTaken (tick n : Nat) (s : State) : s.Taken tick n ((s.atTick tick).crossingTaken tick n) := by
  unfold State.crossingTaken
  split
  · exact ⟨⟨_, _, rfl⟩, rfl⟩
  · refine ⟨⟨_, _, rfl⟩, ?_⟩
    rw [State.setSrc_eq, State.tbSrc, State.withMtb_mtb, Tab.get_set_same]
    rfl

section
variable {tick n : Nat} {s u : State} (h : s.Taken tick n u)
include h

theorem State.Taken.get (pg : Nat) (f : Fld) : u.get pg f = s.get pg f := by
  obtain ⟨src, mzc, rfl⟩ := h.eq
  rw [State.withMtb_get, State.atTick_get]

theorem State.Taken.tb : u.tb = s.tb := h.get _ _
theorem State.Taken.tbSlave : u.tbSlave = s.tbSlave := by simp only [State.tbSlave, h.get]
theorem State.Taken.tbSources : u.tbSources = s.tbSources := State.tbSources_congr (h.get _ _) (h.get _ _)
theorem State.Taken.srcOffset (m : Nat) : u.srcOffset m = s.srcOffset m := by simp only [State.srcOffset, h.get]

theorem State.Taken.phiAt (t : Nat) : u.phiAt t = s.phiAt t := by
  obtain ⟨src, mzc, rfl⟩ := h.eq
  exact (State.phiAt_withMtb (s.atTick tick) rfl rfl rfl rfl rfl t).trans (State.phiAt_atTick ..)

theorem State.Taken.anchor : u.mtb.anchor = s.mtb.anchor := by
  obtain ⟨src, mzc, rfl⟩ := h.eq
  rw [State.withMtb_mtb]

theorem State.Taken.crossErr (c : Nat) : u.crossErr c n = s.crossErr c n := by
  rw [State.crossErr_eq, State.crossErr_eq, h.phiAt, h.anchor, h.get, h.srcOffset]

theorem State.Taken.cyc : u.mtb.cyc = s.mtb.cyc := by
  obtain ⟨src, mzc, rfl⟩ := h.eq
  rw [State.withMtb_mtb]

theorem State.Taken.firstValid : u.mtb.firstValid = s.mtb.firstValid := by
  obtain ⟨src, mzc, rfl⟩ := h.eq
  rw [State.withMtb_mtb]

theorem State.Taken.okRun : u.mtb.okRun = s.mtb.okRun := by
  obtain ⟨src, mzc, rfl⟩ := h.eq
  rw [State.withMtb_mtb]

theorem State.Taken.holdErr : u.mtb.holdErr = s.mtb.holdErr := by
  obtain ⟨src, mzc, rfl⟩ := h.eq
  rw [State.withMtb_mtb]

theorem State.Taken.time (ht : s.time ≤ tick) : u.time = tick := by
  obtain ⟨src, mzc, rfl⟩ := h.eq
  rw [State.withMtb_time]
  exact Nat.max_eq_right ht

theorem State.Taken.txs : u.txs = s.txs := by
  obtain ⟨src, mzc, rfl⟩ := h.eq
  rw [State.withMtb_txs, State.atTick_txs]

theorem State.Taken.mac : u.mac = (s.atTick tick).mac := by
  obtain ⟨src, mzc, rfl⟩ := h.eq
  rw [State.withMtb_mac]

theorem State.Taken.dram : u.dram = (s.atTick tick).dram := by
  obtain ⟨src, mzc, rfl⟩ := h.eq
  rw [State.withMtb_dram]

theorem State.Taken.frame (touched : Nat → Prop) : (s.atTick tick).UnitsOnly touched u := by
  obtain ⟨src, mzc, rfl⟩ := h.eq
  exact (State.unitsOnly_refl _ _).withMtb _

/-- What a judgement that ends in state `x` leaves alone beside registers. -/
theorem State.Taken.settled {x : State} {touched : Nat → Prop} (hx : (s.atTick tick).UnitsOnly touched x) (htxs : x.txs = u.txs)
    (hmac : x.mac = u.mac) (hdram : x.dram = u.dram) : s.CopiesMoved x.recopy.settle ∧
      State.RegsOnly touched { s.atTick tick with mtb := x.recopy.settle.mtb, txs := x.recopy.settle.txs } x.recopy.settle :=
  ⟨State.copiesMoved_recopy (htxs.trans h.txs), hx.recopy.regsOnly_clock
    (by rw [State.recopy_dram, hdram, h.dram]) (by rw [State.recopy_mac, hmac, h.mac])⟩

end

/-- The error of a crossing is its phase less the source's offset, but for whole cycles. -/
theorem State.crossErr_dvd (s : State) {c n : Nat} (hanchor : s.mtb.anchor ≤ c) :
    (65536 : Int) ∣ ((s.phiAt c : Int) / (phiCount : Int) - (s.srcOffset n : Int)) - s.crossErr c n := by
  have hback : (s.mtb.anchor - c) * s.get Pg.MTB MTB.FREQ = 0 := by rw [Nat.sub_eq_zero_of_le hanchor, Nat.zero_mul]
  have h := wrapErr_dvd (((s.phiAt c : Int) - ((s.mtb.anchor - c) * s.get Pg.MTB MTB.FREQ : Nat)) / (phiCount : Int) -
    (s.srcOffset n : Int))
  rw [← State.crossErr_eq, hback, Int.natCast_zero, Int.sub_zero] at h
  exact h

/-- A field of the timebase's page after a judgement. -/
theorem State.get_judged (x : State) {f : Fld} (hf : f.off < 4096) : x.recopy.settle.get Pg.MTB f = x.get Pg.MTB f := by
  rw [State.get_settle_mtb _ hf, State.recopy_get]

theorem State.tb_judged (x : State) : x.recopy.settle.tb = x.tb := x.get_judged (by decide)

theorem State.tbSrc_judged (x : State) (n : Nat) : x.recopy.settle.tbSrc n = x.tbSrc n :=
  State.tbSrc_congr (by rw [State.settle_mtb, State.recopy_mtb]) n

theorem State.phiAt_judged (x : State) (t : Nat) : x.recopy.settle.phiAt t = x.phiAt t := by
  rw [State.phiAt_settle]
  have hmtb := State.recopy_mtb x
  exact State.phiAt_congr (State.recopy_get ..) (State.recopy_get ..) (by rw [hmtb]) (by rw [hmtb]) (by rw [hmtb]) (by rw [hmtb])
    (by rw [hmtb]) t

theorem State.last_hitSrc (s : State) (c n period : Nat) :
    (Tab.get (fun _ => MtbSrc.idle) (s.hitSrc c n period) n).last = some c := by
  rw [State.hitSrc, Tab.get_set_same]

/-! #### States that a judgement ends in -/

section
variable (t : Nat) (e : Int) (freq : Nat) (s : State)

/-- The state that has begun an acquisition. -/
def State.started : State :=
  (((s.put Pg.MTB MTB.FREQ freq).tbState TB.ACQUIRE).event Pg.MTB MTB.EV_PHASE_STEP).withMtb (s.firstMtb t e freq)

theorem State.started_mtb : (s.started t e freq).mtb = s.firstMtb t e freq := State.withMtb_mtb _ _
theorem State.started_txs : (s.started t e freq).txs = s.txs := by
  rw [State.started, State.withMtb_txs, State.event_txs, State.tbState_txs, State.put_txs]
theorem State.started_mac : (s.started t e freq).mac = s.mac := by
  rw [State.started, State.withMtb_mac, State.event_mac, State.tbState_mac, State.put_mac]
theorem State.started_dram : (s.started t e freq).dram = s.dram := by
  rw [State.started, State.withMtb_dram, State.event_dram, State.tbState_dram, State.put_dram]

theorem State.tb_started : (s.started t e freq).tb = TB.ACQUIRE := by
  rw [State.tb, State.started, State.withMtb_get, State.get_event_beside _ _ _ _ (by decide), ← State.tb,
    State.tb_tbState _ _ (by decide)]

theorem State.get_started_freq : (s.started t e freq).get Pg.MTB MTB.FREQ = freq % 2 ^ 32 := by
  rw [State.started, State.withMtb_get, State.get_event_beside _ _ _ _ (by decide), State.get_tbState_beside _ _ (by decide),
    State.get_put_same _ _ _ _ (by decide)]
  rfl

theorem State.get_started_phaseStep : (s.started t e freq).get Pg.MTB MTB.EV_PHASE_STEP = 1 := by
  rw [State.started, State.withMtb_get, State.get_event_set _ (by decide)]

theorem State.get_started_srcValid : (s.started t e freq).get Pg.MTB MTB.SRC_VALID = s.get Pg.MTB MTB.SRC_VALID := by
  rw [State.started, State.withMtb_get, State.get_event_beside _ _ _ _ (by decide), State.get_tbState_beside _ _ (by decide),
    State.get_put_beside _ _ _ _ _ (by decide)]

theorem State.phiAt_started : (s.started t e freq).phiAt s.time = s.phiAt s.time + s.stepOnto t e freq := by
  rw [State.phiAt_anchor (by rw [State.started_mtb, State.firstMtb]), State.started_mtb, State.firstMtb]

/-- The step onto the reference makes up for the error, and for the frequency since the crossing. -/
theorem State.stepOnto_dvd : (phiCycle : Int) ∣ (s.stepOnto t e freq : Int) -
    (((s.time - t : Nat) : Int) * ((freq : Int) - (s.get Pg.MTB MTB.FREQ : Int)) - e * (phiCount : Int)) := by
  unfold State.stepOnto
  generalize ((s.time - t : Nat) : Int) * ((freq : Int) - (s.get Pg.MTB MTB.FREQ : Int)) - e * (phiCount : Int) = x
  rw [Int.toNat_of_nonneg (Int.emod_nonneg x (by decide))]
  exact ⟨-(x / phiCycle), by linarith [Int.mul_ediv_add_emod x phiCycle]⟩

theorem State.tbLock_mtb : s.tbLock.mtb = s.mtb := by rw [State.tbLock, State.event_mtb, State.tbState_mtb]
theorem State.tbLock_txs : s.tbLock.txs = s.txs := by rw [State.tbLock, State.event_txs, State.tbState_txs]
theorem State.tbLock_mac : s.tbLock.mac = s.mac := by rw [State.tbLock, State.event_mac, State.tbState_mac]
theorem State.tbLock_dram : s.tbLock.dram = s.dram := by rw [State.tbLock, State.event_dram, State.tbState_dram]

theorem State.tbLock_withMtb (m : MtbSt) : (s.withMtb m).tbLock = s.tbLock.withMtb m := by
  rw [State.tbLock, State.tbState_withMtb, State.event_withMtb, State.tbLock]

theorem State.tb_tbLock : s.tbLock.tb = TB.LOCKED := by
  rw [State.tb, State.tbLock, State.get_event_beside _ _ _ _ (by decide), ← State.tb, State.tb_tbState _ _ (by decide)]

theorem State.get_tbLock_locked : s.tbLock.get Pg.MTB MTB.EV_LOCKED = 1 := by
  rw [State.tbLock, State.get_event_set _ (by decide)]

theorem State.get_tbLock_phaseStep : s.tbLock.get Pg.MTB MTB.EV_PHASE_STEP = s.get Pg.MTB MTB.EV_PHASE_STEP := by
  rw [State.tbLock, State.get_event_otherBit _ (by decide), State.get_tbState_beside _ _ (by decide)]

/-- Locking shows in STATE, HOLD_MS and EVENTS alone. -/
theorem State.get_tbLock_beside {f : Fld} (he : CMN.EVENTS ≠ f.off)
    (h : f.off ≠ MTB.STATE.off ∨ (4 ≤ f.lsb ∧ f.lsb + f.w ≤ 16)) : s.tbLock.get Pg.MTB f = s.get Pg.MTB f := by
  rw [State.tbLock, State.get_event_beside _ _ _ _ he, State.get_tbState_beside _ _ h]

end

section
variable {touched : Nat → Prop} {b s : State} (h : b.UnitsOnly touched s) (hstate : touched (addrOf Pg.MTB MTB.STATE.off))
  (hevents : touched (addrOf Pg.MTB CMN.EVENTS))
include h hstate hevents

theorem State.UnitsOnly.tbLock : b.UnitsOnly touched s.tbLock := (h.tbState _ hstate).event hevents

theorem State.UnitsOnly.started (hfreq : touched (addrOf Pg.MTB MTB.FREQ.off)) (t : Nat) (e : Int) (freq : Nat) :
    b.UnitsOnly touched (s.started t e freq) :=
  (((h.put _ hfreq).tbState _ hstate).event hevents).withMtb _

end

/-! #### What a reported crossing of an acquisition leads to -/

section
variable (c n period : Nat) (e : Int) (s : State)

theorem State.reported_badRun : (s.reported c n period e).mtb.badRun = 0 := by rw [State.reported_mtb, State.reportMtb]
theorem State.reported_okRun : (s.reported c n period e).mtb.okRun = s.mtb.okRun := by rw [State.reported_mtb, State.reportMtb]
theorem State.reported_firstValid : (s.reported c n period e).mtb.firstValid = s.mtb.firstValid := by
  rw [State.reported_mtb, State.reportMtb]

theorem State.started_badRun (freq : Nat) : (s.started c e freq).mtb.badRun = s.mtb.badRun := by
  rw [State.started_mtb, State.firstMtb]

variable (ok : Bool)

theorem State.corrected_okRun : (s.corrected e ok).mtb.okRun = if ok then s.mtb.okRun + 1 else 0 := by
  rw [State.corrected_eq, State.withMtb_mtb]
theorem State.corrected_badRun : (s.corrected e ok).mtb.badRun = s.mtb.badRun := by
  rw [State.corrected_eq, State.withMtb_mtb, State.slewMtb]
theorem State.corrected_anchor : (s.corrected e ok).mtb.anchor = s.time := by
  rw [State.corrected_eq, State.withMtb_mtb, State.slewMtb]
theorem State.corrected_phi : (s.corrected e ok).mtb.phi = s.phiAt s.time := by
  rw [State.corrected_eq, State.withMtb_mtb, State.slewMtb]
theorem State.corrected_txs : (s.corrected e ok).txs = s.txs := by
  rw [State.corrected_eq, State.withMtb_txs, State.put_txs]
theorem State.corrected_mac : (s.corrected e ok).mac = s.mac := by
  rw [State.corrected_eq, State.withMtb_mac, State.put_mac]
theorem State.corrected_dram : (s.corrected e ok).dram = s.dram := by
  rw [State.corrected_eq, State.withMtb_dram, State.put_dram]

/-- A correction of the clock shows in FREQ alone. -/
theorem State.get_corrected_beside {f : Fld} (h : MTB.FREQ.off ≠ f.off) :
    (s.corrected e ok).get Pg.MTB f = s.get Pg.MTB f := by
  rw [State.corrected_eq, State.withMtb_get, State.get_put_beside _ _ _ _ _ ⟨by decide, .inl h⟩]

theorem State.get_corrected_freq : 45 * 65536 ≤ (s.corrected e ok).get Pg.MTB MTB.FREQ ∧
    (s.corrected e ok).get Pg.MTB MTB.FREQ ≤ 65 * 65536 := by
  rw [State.corrected_eq, State.withMtb_get, State.get_put_same _ _ _ _ (by decide)]
  have hb := lockRange_bounds ((s.get Pg.MTB MTB.FREQ : Int) + trimOf (s.get Pg.MTB MTB.FREQ) e)
  rw [Nat.mod_eq_of_lt (hb.2.trans_lt (by decide))]
  exact hb

end

section
variable {s : State} {c n t0 : Nat} (hslave : s.tbSlave = false) (hsrc : s.tbSources = [n])
  (hlast : (s.tbSrc n).last = some t0) (hcyc : s.mtb.cyc = []) (hlo : 29696 ≤ c - t0) (hhi : c - t0 ≤ 47104)
include hslave hsrc hlast hcyc hlo hhi

/-- The first valid crossing of an acquisition. -/
theorem State.crossing_starts (htb : s.tb = TB.NOMINAL ∨ (s.tb = TB.ACQUIRE ∧ s.mtb.firstValid = none)) {freq : Nat}
    (hfreq : lockRange (phiCycle / Nat.max 1 (c - t0)) = freq) :
    s.crossing c n = (s.reported c n (c - t0) (s.crossErr c n)).started c (s.crossErr c n) freq := by
  refine State.crossing_within hslave hsrc hlast hcyc (htb.elim .inr fun ha => .inl ha.1) hlo hhi ?_ ?_
  · unfold State.cycleActs
    rw [State.tb_reported, State.reported_firstValid, if_pos htb, State.tbFirst_eq _ _ _ _ hfreq, State.started]
  · rw [State.started_badRun, State.reported_badRun]

/-- The second successive cycle of an acquisition within LOCK_THRESH. -/
theorem State.crossing_locks (htb : s.tb = TB.ACQUIRE) (hfirst : s.mtb.firstValid ≠ none) (hrun : 1 ≤ s.mtb.okRun)
    (hthresh : (s.crossErr c n).natAbs ≤ s.get Pg.MTB MTB.LOCK_THRESH) :
    s.crossing c n = ((s.reported c n (c - t0) (s.crossErr c n)).corrected (s.crossErr c n) true).tbLock := by
  have hnotFirst : ¬(TB.ACQUIRE = TB.NOMINAL ∨ (TB.ACQUIRE = TB.ACQUIRE ∧ s.mtb.firstValid = none)) := by
    rintro (hnom | ⟨-, hnone⟩)
    · exact absurd hnom (by decide)
    · exact hfirst hnone
  have hsecond : decide (2 ≤ s.mtb.okRun + 1) = true := decide_eq_true (by omega)
  refine State.crossing_within hslave hsrc hlast hcyc (.inl htb) hlo hhi ?_ ?_
  · unfold State.cycleActs
    rw [State.tb_reported, htb, State.reported_firstValid, if_neg hnotFirst, if_pos (.inl rfl),
      State.get_reported_beside _ _ _ _ _ (by decide) (by decide), decide_eq_true hthresh]
    dsimp only
    rw [State.corrected_okRun, if_pos rfl, State.reported_okRun, hsecond, decide_eq_true rfl, Bool.and_self, onlyIf_true]
  · rw [State.tbLock_mtb, State.corrected_badRun, State.reported_badRun]

end

section
variable {s u : State} {tick c n : Nat} (h : s.Taken tick n u) (hslave : s.tbSlave = false) (hsrc : s.tbSources = [n])
include h hslave hsrc

/-- A source's first crossing after a restart is a reference only. -/
theorem State.Taken.first (htb : s.tb ≠ TB.OFF) (hlast : (s.tbSrc n).last = none) :
    let t := (u.crossing c n).recopy.settle
    (t.tbSrc n).last = some c ∧ t.phiAt tick = s.phiAt tick ∧ s.CopiesMoved t ∧
      State.RegsOnly (fun _ => False) { s.atTick tick with mtb := t.mtb, txs := t.txs } t := by
  have hsource : n ∈ u.tbSources := by
    rw [h.tbSources, hsrc]
    exact List.mem_singleton_self n
  have hx := State.crossing_first c (h.tb.symm ▸ htb) (h.tbSlave.trans hslave) hsource (h.last.trans hlast)
  rw [hx]
  refine ⟨?_, ?_, h.settled ?_ ?_ ?_ ?_⟩
  · rw [State.tbSrc_judged, State.referenced_last]
  · rw [State.phiAt_judged, State.referenced_eq]
    exact (State.phiAt_withMtb u rfl rfl rfl rfl rfl tick).trans (h.phiAt tick)
  · rw [State.referenced_eq]
    exact (h.frame _).withMtb _
  · rw [State.referenced_eq, State.withMtb_txs]
  · rw [State.referenced_eq, State.withMtb_mac]
  · rw [State.referenced_eq, State.withMtb_dram]

variable {last : Nat} (hlast : (s.tbSrc n).last = some last) (hcyc : s.mtb.cyc = [])
include hlast hcyc

/-- A crossing outside 14.5 to 23.0 ms is counted invalid, and its cycle closes with no valid source. -/
theorem State.Taken.outside (htb : s.tb = TB.ACQUIRE ∨ s.tb = TB.HOLDOVER ∨ s.tb = TB.NOMINAL)
    (hspan : c - last < 29696 ∨ 47104 < c - last) :
    let t := (u.crossing c n).recopy.settle
    s.Counted Pg.MTB MTB.INVALID_CNT t ∧ t.tb = s.tb ∧ t.get Pg.MTB MTB.SRC_VALID = 0 ∧ (t.tbSrc n).last = some c ∧
      t.phiAt tick = s.phiAt tick ∧ s.CopiesMoved t ∧
      State.RegsOnly (regsAt missedRegs) { s.atTick tick with mtb := t.mtb, txs := t.txs } t := by
  have hx := State.crossing_outside (h.tbSlave.trans hslave) (h.tbSources.trans hsrc) (h.last.trans hlast) (h.cyc.trans hcyc)
    (h.tb.symm ▸ htb) hspan
  rw [hx]
  refine ⟨?_, ?_, ?_, ?_, ?_, h.settled ((h.frame _).missed ..) (u.missed_txs ..) (u.missed_mac ..) (u.missed_dram ..)⟩
  · exact State.counted_settle (u := u) (by decide) (by decide)
      (by rw [State.recopy_get, State.get_missed_beside _ _ _ _ _ (by decide)]) (h.get _ _) (h.get _ _)
  · rw [State.tb_judged, State.tb_missed, h.tb]
  · rw [State.get_judged _ (by decide), State.get_missed_srcValid]
  · rw [State.tbSrc_judged, State.tbSrc, State.missed_eq, State.withMtb_mtb, State.last_hitSrc]
  · rw [State.phiAt_judged, State.phiAt_missed, h.phiAt]

variable (hlo : 29696 ≤ c - last) (hhi : c - last ≤ 47104)
include hlo hhi

/-- The first valid crossing of an acquisition puts the clock onto the reference and sets its frequency. -/
theorem State.Taken.acquires (htime : s.time ≤ tick) (hn : n < 3)
    (htb : s.tb = TB.NOMINAL ∨ (s.tb = TB.ACQUIRE ∧ s.mtb.firstValid = none)) :
    let t := (u.crossing c n).recopy.settle
    t.tb = TB.ACQUIRE ∧ t.get Pg.MTB MTB.FREQ = lockRange ((phiCycle / (c - last) : Nat) : Int) ∧
      (s.mtb.anchor ≤ c → s.phiAt tick = s.phiAt c + (tick - c) * s.get Pg.MTB MTB.FREQ → t.phiAt tick % phiCycle =
        (s.srcOffset n * phiCount + s.phiAt c % phiCount + (tick - c) * t.get Pg.MTB MTB.FREQ) % phiCycle) ∧
      t.get Pg.MTB MTB.EV_PHASE_STEP = 1 ∧ t.get Pg.MTB MTB.SRC_VALID = 2 ^ n ∧ t.mtb.firstValid = some c ∧ s.CopiesMoved t ∧
      State.RegsOnly (regsAt acquireRegs) { s.atTick tick with mtb := t.mtb, txs := t.txs } t := by
  obtain ⟨freq, hfreq⟩ : ∃ freq, lockRange ((phiCycle / (c - last) : Nat) : Int) = freq := ⟨_, rfl⟩
  have hmax : Nat.max 1 (c - last) = c - last := Nat.max_eq_right (Nat.le_trans (by decide) hlo)
  have hcast : lockRange (phiCycle / Nat.max 1 (c - last)) = freq := by
    rw [hmax, ← hfreq, Int.natCast_ediv]
  have hlt : freq % 2 ^ 32 = freq := by
    have hb := (lockRange_bounds ((phiCycle / (c - last) : Nat) : Int)).2
    rw [hfreq] at hb
    exact Nat.mod_eq_of_lt (hb.trans_lt (by decide))
  have hstart : u.tb = TB.NOMINAL ∨ (u.tb = TB.ACQUIRE ∧ u.mtb.firstValid = none) := by
    rw [h.tb, h.firstValid]
    exact htb
  have hx := State.crossing_starts (h.tbSlave.trans hslave) (h.tbSources.trans hsrc) (h.last.trans hlast) (h.cyc.trans hcyc)
    hlo hhi hstart hcast
  rw [h.crossErr] at hx
  have hframe : (s.atTick tick).UnitsOnly (regsAt acquireRegs)
      ((u.reported c n (c - last) (s.crossErr c n)).started c (s.crossErr c n) freq) :=
    ((h.frame _).reported ..).started (regsAt_of_mem (by decide)) (regsAt_of_mem (by decide)) (regsAt_of_mem (by decide)) ..
  have hshown := u.get_reported_srcValid c n (c - last) (s.crossErr c n) hn
  have hclock : (u.reported c n (c - last) (s.crossErr c n)).phiAt tick = s.phiAt tick := by rw [State.phiAt_reported, h.phiAt]
  have hold : (u.reported c n (c - last) (s.crossErr c n)).get Pg.MTB MTB.FREQ = s.get Pg.MTB MTB.FREQ := by
    rw [State.get_reported_beside _ _ _ _ _ (by decide) (by decide), h.get]
  have htimed : (u.reported c n (c - last) (s.crossErr c n)).time = tick := by rw [State.reported_time, h.time htime]
  have htxs := u.reported_txs c n (c - last) (s.crossErr c n)
  have hmac := u.reported_mac c n (c - last) (s.crossErr c n)
  have hdram := u.reported_dram c n (c - last) (s.crossErr c n)
  rw [hx]
  generalize u.reported c n (c - last) (s.crossErr c n) = v at hframe hshown hclock hold htimed htxs hmac hdram ⊢
  have hget : (v.started c (s.crossErr c n) freq).recopy.settle.get Pg.MTB MTB.FREQ = freq := by
    rw [State.get_judged _ (by decide), State.get_started_freq, hlt]
  refine ⟨?_, ?_, fun hanchor hphi => ?_, ?_, ?_, ?_, h.settled hframe ?_ ?_ ?_⟩
  · rw [State.tb_judged, State.tb_started]
  · rw [hget, hfreq]
  · have hstep := v.stepOnto_dvd c (s.crossErr c n) freq
    have hphi' := v.phiAt_started c (s.crossErr c n) freq
    rw [hold, htimed] at hstep
    rw [htimed, hclock] at hphi'
    rw [hget, State.phiAt_judged, hphi']
    exact phase_onReference hphi (s.crossErr_dvd hanchor) hstep
  · rw [State.get_judged _ (by decide), State.get_started_phaseStep]
  · rw [State.get_judged _ (by decide), State.get_started_srcValid, hshown]
  · rw [State.settle_mtb, State.recopy_mtb, State.started_mtb, State.firstMtb]
  · rw [State.started_txs, htxs]
  · rw [State.started_mac, hmac]
  · rw [State.started_dram, hdram]

/-- A second successive cycle within LOCK_THRESH locks. -/
theorem State.Taken.locks (htime : s.time ≤ tick) (hn : n < 3) (htb : s.tb = TB.ACQUIRE) (hfirst : s.mtb.firstValid ≠ none)
    (hrun : 1 ≤ s.mtb.okRun) (hthresh : (s.crossErr c n).natAbs ≤ s.get Pg.MTB MTB.LOCK_THRESH) :
    let t := (u.crossing c n).recopy.settle
    t.tb = TB.LOCKED ∧ t.get Pg.MTB MTB.EV_LOCKED = 1 ∧ t.get Pg.MTB MTB.SRC_VALID = 2 ^ n ∧
      t.getInt Pg.MTB MTB.PHASE_ERR = s.crossErr c n ∧ t.phiAt tick = s.phiAt tick ∧
      45 * 65536 ≤ t.get Pg.MTB MTB.FREQ ∧ t.get Pg.MTB MTB.FREQ ≤ 65 * 65536 ∧ s.CopiesMoved t ∧
      State.RegsOnly (regsAt acquireRegs) { s.atTick tick with mtb := t.mtb, txs := t.txs } t := by
  have hx := State.crossing_locks (h.tbSlave.trans hslave) (h.tbSources.trans hsrc) (h.last.trans hlast) (h.cyc.trans hcyc)
    hlo hhi (h.tb.trans htb) (by rw [h.firstValid]; exact hfirst) (by rw [h.okRun]; exact hrun)
    (by rw [h.crossErr, h.get]; exact hthresh)
  rw [h.crossErr] at hx
  have hreported := (h.frame (regsAt acquireRegs)).reported c n (c - last) (s.crossErr c n)
  have hshown := u.get_reported_srcValid c n (c - last) (s.crossErr c n) hn
  have herr := u.getInt_reported_phaseErr c n (c - last) (s.crossErr c n) (s.crossErr_range c n)
  have hclock : (u.reported c n (c - last) (s.crossErr c n)).phiAt tick = s.phiAt tick := by rw [State.phiAt_reported, h.phiAt]
  have htimed : (u.reported c n (c - last) (s.crossErr c n)).time = tick := by rw [State.reported_time, h.time htime]
  have htxs := u.reported_txs c n (c - last) (s.crossErr c n)
  have hmac := u.reported_mac c n (c - last) (s.crossErr c n)
  have hdram := u.reported_dram c n (c - last) (s.crossErr c n)
  rw [hx]
  generalize u.reported c n (c - last) (s.crossErr c n) = v at hreported hshown herr hclock htimed htxs hmac hdram ⊢
  have hframe : (s.atTick tick).UnitsOnly (regsAt acquireRegs) (v.corrected (s.crossErr c n) true).tbLock := by
    rw [State.corrected_eq]
    exact ((hreported.put _ (regsAt_of_mem (by decide))).withMtb _).tbLock (regsAt_of_mem (by decide)) (regsAt_of_mem (by decide))
  have hfreq : (v.corrected (s.crossErr c n) true).tbLock.recopy.settle.get Pg.MTB MTB.FREQ =
      (v.corrected (s.crossErr c n) true).get Pg.MTB MTB.FREQ := by
    rw [State.get_judged _ (by decide), State.get_tbLock_beside _ (by decide) (by decide)]
  obtain ⟨hmin, hmax⟩ := v.get_corrected_freq (s.crossErr c n) true
  refine ⟨?_, ?_, ?_, ?_, ?_, ?_, ?_, h.settled hframe ?_ ?_ ?_⟩
  · rw [State.tb_judged, State.tb_tbLock]
  · rw [State.get_judged _ (by decide), State.get_tbLock_locked]
  · rw [State.get_judged _ (by decide), State.get_tbLock_beside _ (by decide) (by decide),
      State.get_corrected_beside _ _ _ (by decide), hshown]
  · rw [State.getInt, State.get_judged _ (by decide), State.get_tbLock_beside _ (by decide) (by decide),
      State.get_corrected_beside _ _ _ (by decide), ← State.getInt, herr]
  · rw [State.phiAt_judged, State.phiAt_anchor (by rw [State.tbLock_mtb, State.corrected_anchor, htimed]), State.tbLock_mtb,
      State.corrected_phi, htimed, hclock]
  · rw [hfreq]
    exact hmin
  · rw [hfreq]
    exact hmax
  · rw [State.tbLock_txs, State.corrected_txs, htxs]
  · rw [State.tbLock_mac, State.corrected_mac, hmac]
  · rw [State.tbLock_dram, State.corrected_dram, hdram]

end

end Sys2Proof.Machine

/-! ### Relock from HOLDOVER (R70, R71) -/

namespace Sys2Proof.Machine

theorem onlyIf_false (f : State → State) (s : State) : onlyIf false f s = s := if_neg Bool.false_ne_true

section
variable (t : Nat) (e : Int) (s : State)

/-- A relock counts a step when the error is too large for a slew; it anchors the clock, and moves it only when it is behind. -/
theorem State.tbRelock_cases : ∃ m, s.tbRelock t e = (onlyIf (decide (8192 < e.natAbs)) State.phaseStepped s).withMtb m ∧
    m.anchor = t ∧ m.src = s.mtb.src ∧ m.cyc = s.mtb.cyc ∧ m.badRun = s.mtb.badRun ∧
    (-8192 ≤ e → m.phi = s.phiAt t) ∧ (e < -8192 → m.phi = s.phiAt t + e.natAbs * phiCount) ∧
    (8192 < e → m.holdEnd = t + e.natAbs * phiCount / Nat.max 1 (s.get Pg.MTB MTB.FREQ)) := by
  by_cases hnear : e.natAbs ≤ 8192
  · rw [decide_eq_false (Nat.not_lt.mpr hnear), onlyIf_false]
    refine ⟨_, s.tbRelock_near t e hnear, ?_, ?_, ?_, ?_, fun _ => ?_, fun _ => by omega, fun _ => by omega⟩
    all_goals rw [State.slewMtb]
  · have hfar : 8192 < e.natAbs := by omega
    rw [decide_eq_true hfar, onlyIf_true]
    by_cases hneg : e < 0
    · refine ⟨_, s.tbRelock_behind t e hfar hneg, ?_, ?_, ?_, ?_, fun _ => by omega, fun _ => ?_, fun _ => by omega⟩
      all_goals rw [State.jumpMtb]
    · refine ⟨_, s.tbRelock_ahead t e hfar hneg, ?_, ?_, ?_, ?_, fun _ => ?_, fun _ => by omega, fun _ => ?_⟩
      all_goals rw [State.waitMtb]

/-- The state whose clock two agreeing crossings of source n in HOLDOVER are to correct. -/
def State.agreed (c n period : Nat) (s : State) : State := s.withMtb { s.mtb with
  src := s.hitSrc c n period, cyc := [], badRun := 0, lastValid := c, holdErr := none, okRun := 0 }

theorem State.hitValid_agreed {s : State} {c n period : Nat} {e e0 : Int} (htb : s.tb = TB.HOLDOVER)
    (hheld : s.mtb.holdErr = some e0) (hagree : (wrapErr (e - e0)).natAbs ≤ s.get Pg.MTB MTB.REJECT_THRESH) :
    (s.withHit c n period e true).hitValid c e = ((s.agreed c n period).tbRelock s.time e).tbLock := by
  obtain ⟨m, hm⟩ : ∃ m, { (s.withHit c n period e true).mtb with badRun := 0, lastValid := c } = m := ⟨_, rfl⟩
  have hvalid : (s.withHit c n period e true).hitValid c e = (s.withMtb m).holdCrossing e := by
    rw [← hm]
    exact if_pos (decide_eq_true htb)
  have hheld' : (s.withMtb m).mtb.holdErr = some e0 := by rw [State.withMtb_mtb, ← hm, State.withHit_eq, State.withMtb_mtb, hheld]
  rw [hvalid, State.holdCrossing_again hheld' (by rw [State.withMtb_get]; exact hagree), State.withMtb_withMtb, State.withMtb_mtb,
    State.withMtb_time, ← hm, State.withHit_eq, State.withMtb_mtb, State.agreed]

end

section
variable (stepped : Bool) (s : State)

/-- A step of the phase shows in EVENTS and STEP_CNT alone. -/
theorem State.get_phaseStepped_beside {f : Fld} (he : CMN.EVENTS ≠ f.off) (hc : MTB.STEP_CNT.off ≠ f.off) :
    (onlyIf stepped State.phaseStepped s).get Pg.MTB f = s.get Pg.MTB f := by
  cases stepped with
  | false => rw [onlyIf_false]
  | true => rw [onlyIf_true, State.phaseStepped, State.get_count_beside _ hc, State.get_event_beside _ _ _ _ he]

theorem State.get_phaseStepped_event : s.phaseStepped.get Pg.MTB MTB.EV_PHASE_STEP = 1 := by
  rw [State.phaseStepped, State.get_count_beside _ (by decide), State.get_event_set _ (by decide)]

theorem State.phaseStepped_txs : (onlyIf stepped State.phaseStepped s).txs = s.txs := by
  cases stepped with
  | false => rw [onlyIf_false]
  | true => rw [onlyIf_true, State.phaseStepped, State.count_txs, State.event_txs]
theorem State.phaseStepped_mac : (onlyIf stepped State.phaseStepped s).mac = s.mac := by
  cases stepped with
  | false => rw [onlyIf_false]
  | true => rw [onlyIf_true, State.phaseStepped, State.count_mac, State.event_mac]
theorem State.phaseStepped_dram : (onlyIf stepped State.phaseStepped s).dram = s.dram := by
  cases stepped with
  | false => rw [onlyIf_false]
  | true => rw [onlyIf_true, State.phaseStepped, State.count_dram, State.event_dram]

end

theorem State.UnitsOnly.phaseStepped {touched : Nat → Prop} {b s : State} (h : b.UnitsOnly touched s) (stepped : Bool)
    (hevents : touched (addrOf Pg.MTB CMN.EVENTS)) (hcount : stepped = true → touched (addrOf Pg.MTB MTB.STEP_CNT.off)) :
    b.UnitsOnly touched (onlyIf stepped State.phaseStepped s) := by
  cases stepped with
  | false =>
    rw [onlyIf_false]
    exact h
  | true =>
    rw [onlyIf_true, State.phaseStepped]
    exact (h.event hevents).count (hcount rfl)

theorem State.onlyIf_phaseStepped_withMtb (stepped : Bool) (m : MtbSt) (s : State) :
    onlyIf stepped State.phaseStepped (s.withMtb m) = (onlyIf stepped State.phaseStepped s).withMtb m := by
  cases stepped with
  | false => rw [onlyIf_false, onlyIf_false]
  | true => rw [onlyIf_true, onlyIf_true, State.phaseStepped_withMtb]

/-- The state that has locked again, with a step of the phase or without. -/
def State.relocked (stepped : Bool) (m : MtbSt) (s : State) : State := (onlyIf stepped State.phaseStepped s).tbLock.withMtb m

section
variable (stepped : Bool) (m : MtbSt) (s : State)

theorem State.relocked_mtb : (s.relocked stepped m).mtb = m := State.withMtb_mtb _ _
theorem State.relocked_txs : (s.relocked stepped m).txs = s.txs := by
  rw [State.relocked, State.withMtb_txs, State.tbLock_txs, State.phaseStepped_txs]
theorem State.relocked_mac : (s.relocked stepped m).mac = s.mac := by
  rw [State.relocked, State.withMtb_mac, State.tbLock_mac, State.phaseStepped_mac]
theorem State.relocked_dram : (s.relocked stepped m).dram = s.dram := by
  rw [State.relocked, State.withMtb_dram, State.tbLock_dram, State.phaseStepped_dram]

theorem State.tb_relocked : (s.relocked stepped m).tb = TB.LOCKED := by
  rw [State.relocked, State.tb_withMtb, State.tb_tbLock]

theorem State.get_relocked_locked : (s.relocked stepped m).get Pg.MTB MTB.EV_LOCKED = 1 := by
  rw [State.relocked, State.withMtb_get, State.get_tbLock_locked]

theorem State.get_relocked_phaseStep : (s.relocked true m).get Pg.MTB MTB.EV_PHASE_STEP = 1 := by
  rw [State.relocked, State.withMtb_get, State.get_tbLock_phaseStep, onlyIf_true, State.get_phaseStepped_event]

theorem State.get_relocked_stepCnt : (s.relocked true m).get Pg.MTB MTB.STEP_CNT =
    ((s.event Pg.MTB MTB.EV_PHASE_STEP).count Pg.MTB MTB.STEP_CNT).get Pg.MTB MTB.STEP_CNT := by
  rw [State.relocked, State.withMtb_get, State.get_tbLock_beside _ (by decide) (by decide), onlyIf_true, State.phaseStepped]

/-- A relock shows in STATE, EVENTS and STEP_CNT alone. -/
theorem State.get_relocked_beside {f : Fld} (he : CMN.EVENTS ≠ f.off) (hc : MTB.STEP_CNT.off ≠ f.off)
    (hs : f.off ≠ MTB.STATE.off) : (s.relocked stepped m).get Pg.MTB f = s.get Pg.MTB f := by
  rw [State.relocked, State.withMtb_get, State.get_tbLock_beside _ he (.inl hs), State.get_phaseStepped_beside _ _ he hc]

end

theorem State.UnitsOnly.relocked {touched : Nat → Prop} {b s : State} (h : b.UnitsOnly touched s) (stepped : Bool) (m : MtbSt)
    (hstate : touched (addrOf Pg.MTB MTB.STATE.off)) (hevents : touched (addrOf Pg.MTB CMN.EVENTS))
    (hcount : stepped = true → touched (addrOf Pg.MTB MTB.STEP_CNT.off)) : b.UnitsOnly touched (s.relocked stepped m) :=
  ((h.phaseStepped stepped hevents hcount).tbLock hstate hevents).withMtb m

/-- In HOLDOVER a second valid crossing that agrees with the one before locks; a step corrects an error too large for a slew. -/
theorem State.crossing_relocks {s : State} {c n t0 : Nat} {e0 : Int} (hslave : s.tbSlave = false) (hsrc : s.tbSources = [n])
    (hlast : (s.tbSrc n).last = some t0) (hcyc : s.mtb.cyc = []) (hlo : 29696 ≤ c - t0) (hhi : c - t0 ≤ 47104)
    (htb : s.tb = TB.HOLDOVER) (hheld : s.mtb.holdErr = some e0)
    (hagree : (wrapErr (s.crossErr c n - e0)).natAbs ≤ s.get Pg.MTB MTB.REJECT_THRESH) :
    ∃ m, s.crossing c n = s.relocked (decide (8192 < (s.crossErr c n).natAbs)) m ∧ m.anchor = s.time ∧
      (-8192 ≤ s.crossErr c n → m.phi = s.phiAt s.time) ∧
      (s.crossErr c n < -8192 → m.phi = s.phiAt s.time + (s.crossErr c n).natAbs * phiCount) ∧
      (8192 < s.crossErr c n →
        m.holdEnd = s.time + (s.crossErr c n).natAbs * phiCount / Nat.max 1 (s.get Pg.MTB MTB.FREQ)) := by
  have hoff : s.tb ≠ TB.OFF := fun h => by rw [htb] at h; exact absurd h (by decide)
  have hunlocked : s.tb ≠ TB.LOCKED := fun h => by rw [htb] at h; exact absurd h (by decide)
  have hvalid : (decide (29696 ≤ c - t0) && decide (c - t0 ≤ 47104) &&
      (decide (s.tb ≠ TB.LOCKED) || decide (s.testErr (s.crossErr c n) ≤ s.get Pg.MTB MTB.REJECT_THRESH))) = true := by
    rw [decide_eq_true hlo, decide_eq_true hhi, decide_eq_true hunlocked, Bool.true_or, Bool.and_self, Bool.and_self]
  have hhit := State.hitValid_agreed (c := c) (n := n) (period := c - t0) htb hheld hagree
  have hclock : (s.agreed c n (c - t0)).phiAt s.time = s.phiAt s.time := State.phiAt_withMtb s rfl rfl rfl rfl rfl s.time
  obtain ⟨m, hm, hanchor, -, hcyc', hbad, hnear, hbehind, hahead⟩ :=
    State.tbRelock_cases s.time (s.crossErr c n) (s.agreed c n (c - t0))
  rw [hm, State.agreed, State.onlyIf_phaseStepped_withMtb, State.withMtb_withMtb, State.tbLock_withMtb, ← State.relocked] at hhit
  have hopenCyc : (s.agreed c n (c - t0)).mtb.cyc = [] := by rw [State.agreed, State.withMtb_mtb]
  have hnoBad : (s.agreed c n (c - t0)).mtb.badRun = 0 := by rw [State.agreed, State.withMtb_mtb]
  have hfreq : (s.agreed c n (c - t0)).get Pg.MTB MTB.FREQ = s.get Pg.MTB MTB.FREQ := State.withMtb_get _ _ _ _
  rw [hclock] at hnear hbehind
  rw [hfreq] at hahead
  refine ⟨m, ?_, hanchor, hnear, hbehind, hahead⟩
  generalize decide (8192 < (s.crossErr c n).natAbs) = stepped at hhit ⊢
  have hsources : (s.relocked stepped m).tbSources = [n] :=
    (State.tbSources_congr (State.get_relocked_beside _ _ _ (by decide) (by decide) (by decide))
      (State.get_relocked_beside _ _ _ (by decide) (by decide) (by decide))).trans hsrc
  have hopen := State.cycleDone_open (c := c) hsources (by rw [State.relocked_mtb, hcyc', hopenCyc])
  have hclosed : (if true = true then (s.withHit c n (c - t0) (s.crossErr c n) true).hitValid c (s.crossErr c n)
      else (s.withHit c n (c - t0) (s.crossErr c n) true).hitInvalid).cycleDone c = s.relocked stepped m := by
    rw [if_pos rfl, hhit, hopen]
  rw [State.crossing_judged hoff hslave (hsrc ▸ List.mem_singleton_self n) hlast hcyc hvalid rfl hclosed, State.relocked_mtb, hbad,
    hnoBad]
  exact if_neg (by simp)

/-- The registers in which a relock shows. -/
def relockRegs : List (Nat × Nat) := [(Pg.MTB, MTB.STATE.off), (Pg.MTB, MTB.STEP_CNT.off), (Pg.MTB, CMN.EVENTS)]

/-- Two successive valid crossings in HOLDOVER that agree lock the timebase and correct its phase. -/
theorem State.Taken.relocks {s u : State} {tick c n last : Nat} {e0 : Int} (h : s.Taken tick n u) (hslave : s.tbSlave = false)
    (hsrc : s.tbSources = [n]) (htb : s.tb = TB.HOLDOVER) (htime : s.time ≤ tick) (hlast : (s.tbSrc n).last = some last)
    (hcyc : s.mtb.cyc = []) (hlo : 29696 ≤ c - last) (hhi : c - last ≤ 47104) (hheld : s.mtb.holdErr = some e0)
    (hagree : (wrapErr (s.crossErr c n - e0)).natAbs ≤ s.get Pg.MTB MTB.REJECT_THRESH) :
    let t := (u.crossing c n).recopy.settle
    t.tb = TB.LOCKED ∧ t.get Pg.MTB MTB.EV_LOCKED = 1 ∧ t.get Pg.MTB MTB.FREQ = s.get Pg.MTB MTB.FREQ ∧
      t.get Pg.MTB MTB.CYCLE = s.get Pg.MTB MTB.CYCLE ∧
      ((s.crossErr c n).natAbs ≤ 8192 → t.phiAt tick = s.phiAt tick ∧
        t.reg Pg.MTB MTB.STEP_CNT.off = s.reg Pg.MTB MTB.STEP_CNT.off) ∧
      (s.crossErr c n < -8192 → t.get Pg.MTB MTB.EV_PHASE_STEP = 1 ∧ s.Counted Pg.MTB MTB.STEP_CNT t ∧
        (s.mtb.anchor ≤ c → s.phiAt tick = s.phiAt c + (tick - c) * s.get Pg.MTB MTB.FREQ → t.phiAt tick % phiCycle =
          (s.srcOffset n * phiCount + s.phiAt c % phiCount + (tick - c) * s.get Pg.MTB MTB.FREQ) % phiCycle)) ∧
      (8192 < s.crossErr c n → t.get Pg.MTB MTB.EV_PHASE_STEP = 1 ∧ s.Counted Pg.MTB MTB.STEP_CNT t ∧
        ∀ later, tick ≤ later → later ≤ tick + (s.crossErr c n).natAbs * phiCount / Nat.max 1 (s.get Pg.MTB MTB.FREQ) →
          t.phiAt later = s.phiAt tick) ∧
      s.CopiesMoved t ∧ State.RegsOnly (regsAt relockRegs) { s.atTick tick with mtb := t.mtb, txs := t.txs } t := by
  obtain ⟨m, hx, hanchor, hnear, hbehind, hahead⟩ := State.crossing_relocks (h.tbSlave.trans hslave) (h.tbSources.trans hsrc)
    (h.last.trans hlast) (h.cyc.trans hcyc) hlo hhi (h.tb.trans htb) (h.holdErr.trans hheld)
    (by rw [h.crossErr, h.get]; exact hagree)
  rw [h.crossErr, h.time htime, h.phiAt] at hnear hbehind
  rw [h.crossErr, h.time htime, h.get] at hahead
  rw [h.crossErr] at hx
  rw [h.time htime] at hanchor
  rw [hx]
  have hframe := (h.frame (regsAt relockRegs)).relocked (decide (8192 < (s.crossErr c n).natAbs)) m (regsAt_of_mem (by decide))
    (regsAt_of_mem (by decide)) fun _ => regsAt_of_mem (by decide)
  have hbeside : ∀ f : Fld, f.off < 4096 → CMN.EVENTS ≠ f.off → MTB.STEP_CNT.off ≠ f.off → f.off ≠ MTB.STATE.off →
      (u.relocked (decide (8192 < (s.crossErr c n).natAbs)) m).recopy.settle.get Pg.MTB f = s.get Pg.MTB f :=
    fun f hf he hc hs => by rw [State.get_judged _ hf, State.get_relocked_beside _ _ _ he hc hs, h.get]
  have hclock : (u.relocked (decide (8192 < (s.crossErr c n).natAbs)) m).recopy.settle.phiAt tick = m.phi := by
    rw [State.phiAt_judged, State.phiAt_anchor (by rw [State.relocked_mtb, hanchor]), State.relocked_mtb]
  have hstep : 8192 < (s.crossErr c n).natAbs →
      (u.relocked (decide (8192 < (s.crossErr c n).natAbs)) m).recopy.settle.get Pg.MTB MTB.EV_PHASE_STEP = 1 ∧
      s.Counted Pg.MTB MTB.STEP_CNT (u.relocked (decide (8192 < (s.crossErr c n).natAbs)) m).recopy.settle := fun hfar => by
    rw [decide_eq_true hfar]
    refine ⟨by rw [State.get_judged _ (by decide), State.get_relocked_phaseStep], ?_⟩
    refine State.counted_settle (u := u.event Pg.MTB MTB.EV_PHASE_STEP) (by decide) (by decide) ?_ ?_ ?_
    · rw [State.recopy_get, State.get_relocked_stepCnt]
    · rw [State.get_event_beside _ _ _ _ (by decide), h.get]
    · rw [State.get_event_beside _ _ _ _ (by decide), h.get]
  refine ⟨?_, ?_, ?_, ?_, fun hslew => ⟨?_, ?_⟩, fun hlow => ?_, fun hhigh => ?_,
    h.settled hframe (u.relocked_txs ..) (u.relocked_mac ..) (u.relocked_dram ..)⟩
  · rw [State.tb_judged, State.tb_relocked]
  · rw [State.get_judged _ (by decide), State.get_relocked_locked]
  · exact hbeside _ (by decide) (by decide) (by decide) (by decide)
  · exact hbeside _ (by decide) (by decide) (by decide) (by decide)
  · rw [hclock, hnear (by omega)]
  · have hslewed := (h.frame (regsAt [(Pg.MTB, MTB.STATE.off), (Pg.MTB, CMN.EVENTS)])).relocked
      (decide (8192 < (s.crossErr c n).natAbs)) m (regsAt_of_mem (by decide)) (regsAt_of_mem (by decide))
      fun hfar => absurd (of_decide_eq_true hfar) (Nat.not_lt.mpr hslew)
    have hout : ¬regsAt [(Pg.MTB, MTB.STATE.off), (Pg.MTB, CMN.EVENTS)] (addrOf Pg.MTB MTB.STEP_CNT.off) := by
      unfold regsAt
      decide
    exact hslewed.recopy.regsOnly_settle.1 _ _ hout (by decide)
  · obtain ⟨hevent, hcount⟩ := hstep (by omega)
    refine ⟨hevent, hcount, fun hbefore hphi => ?_⟩
    rw [hclock, hbehind hlow]
    refine phase_onReference hphi (s.crossErr_dvd hbefore) ⟨0, ?_⟩
    have habs : ((s.crossErr c n).natAbs : Int) = -s.crossErr c n := by omega
    rw [Int.natCast_mul, habs]
    ring
  · obtain ⟨hevent, hcount⟩ := hstep (by omega)
    refine ⟨hevent, hcount, fun later _ hlater => ?_⟩
    have hstill : later ≤ Nat.max (u.relocked (decide (8192 < (s.crossErr c n).natAbs)) m).mtb.anchor
        (u.relocked (decide (8192 < (s.crossErr c n).natAbs)) m).mtb.holdEnd := by
      rw [State.relocked_mtb, hahead hhigh]
      exact hlater.trans (Nat.le_max_right _ _)
    rw [State.phiAt_judged, State.phiAt_of_held hstill, State.relocked_mtb, hnear (by omega)]

/-- Settles O13: a judgement is the crossing taken from its source, the cycle that it closes, and what the state does with that cycle;
the phase after a step is that of a clock which passed the source's offset at the crossing. -/
theorem crossingsLockAndRelock : Obligations.CrossingsLockAndRelock := by
  refine ⟨fun s tick c src hslave hsrc hdue htime => ?_, fun s tick c last src e0 hslave hsrc htb hdue htime hlast hcyc hlo hhi hheld
    hagree => ?_⟩
  · have hexec := exec_zeroCrossing hdue
    have htaken := State.taken_crossingTaken tick src.val s
    exact ⟨fun htb hlast => ⟨_, hexec, htaken.first hslave hsrc htb hlast⟩,
      fun last hlast hcyc htb hspan => ⟨_, hexec, htaken.outside hslave hsrc hlast hcyc htb hspan⟩,
      fun last hlast hcyc hlo hhi => ⟨fun htb => ⟨_, hexec, htaken.acquires hslave hsrc hlast hcyc hlo hhi htime src.isLt htb⟩,
        fun htb hfirst hrun hthresh =>
          ⟨_, hexec, htaken.locks hslave hsrc hlast hcyc hlo hhi htime src.isLt htb hfirst hrun hthresh⟩⟩⟩
  · exact ⟨_, exec_zeroCrossing hdue, (State.taken_crossingTaken tick src.val s).relocks hslave hsrc htb htime hlast hcyc hlo hhi
      hheld hagree⟩

end Sys2Proof.Machine

/-! ## Support of `TransmissionsAreCutOrEnd`: cutting a victim, and the end of a transmission (R89, R126, R167). -/

namespace Sys2Proof.Machine

/-! ### Registers that are kept -/

section
variable {touched : Nat → Prop} {s u : State}

theorem State.regsKept_of_regs {v : State} (h : s.RegsKept touched u) (hr : v.regs = u.regs) : s.RegsKept touched v := by
  intro pg off hn hf
  rw [← h pg off hn hf, State.reg, hr, State.reg]

theorem State.regsKept_setReg (h : s.RegsKept touched u) {pg off : Nat} (v : Word) (ht : touched (addrOf pg off)) :
    s.RegsKept touched (u.setReg pg off v) := by
  intro pg' off' hn hf
  rw [State.reg_setReg_other _ v fun he => hn (he ▸ ht), h pg' off' hn hf]

theorem State.regsKept_put (h : s.RegsKept touched u) {pg : Nat} {f : Fld} (v : Nat) (ht : touched (addrOf pg f.off)) :
    s.RegsKept touched (u.put pg f v) := State.regsKept_setReg h _ ht

theorem State.regsKept_event (h : s.RegsKept touched u) {pg : Nat} {f : Fld} (ht : touched (addrOf pg CMN.EVENTS)) :
    s.RegsKept touched (u.event pg f) := State.regsKept_setReg h _ ht

theorem State.regsKept_count (h : s.RegsKept touched u) {pg : Nat} {f : Fld} (ht : touched (addrOf pg f.off)) :
    s.RegsKept touched (u.count pg f) := by
  unfold State.count State.countBy
  split
  · exact h
  · exact State.regsKept_put h _ ht

/-- What a command leaves in DRAM. -/
theorem State.dramKept_settle (h : u.dram = s.dram) : s.DramKept u.settle := by
  intro a
  rw [State.dramByte, State.settle_dram, h, State.dramByte]

end

/-! ### Lanes, jobs and messages -/

theorem State.lane_setLane (s : State) (p l : Nat) (x : Option Lane) : (s.setLane p l x).lane p l = x := by
  rw [State.lane, State.setLane, Tab.get_set_same]

theorem State.lane_congr {s u : State} (h : u.txs = s.txs) (p l : Nat) : u.lane p l = s.lane p l := by
  rw [State.lane, h, State.lane]

/-- What ending jobs changes beside the registers that show the credit. -/
theorem State.endJobs_eq (s : State) (p : Job → Bool) : ∃ oas, s.endJobs p = ({ s with oas := oas } : State).showCredit := ⟨_, rfl⟩

section
variable (s : State) (k : JobKind)

theorem State.endJob_txs : (s.endJob k).txs = s.txs := by
  obtain ⟨oas, h⟩ := s.endJobs_eq fun j => decide (j.kind = k)
  rw [State.endJob, h, State.showCredit, State.put_txs, State.put_txs, State.put_txs]
theorem State.endJob_mac : (s.endJob k).mac = s.mac := by
  obtain ⟨oas, h⟩ := s.endJobs_eq fun j => decide (j.kind = k)
  rw [State.endJob, h, State.showCredit, State.put_mac, State.put_mac, State.put_mac]
theorem State.endJob_wad : (s.endJob k).wad = s.wad := by
  obtain ⟨oas, h⟩ := s.endJobs_eq fun j => decide (j.kind = k)
  rw [State.endJob, h, State.showCredit, State.put_wad, State.put_wad, State.put_wad]
theorem State.endJob_dram : (s.endJob k).dram = s.dram := by
  obtain ⟨oas, h⟩ := s.endJobs_eq fun j => decide (j.kind = k)
  rw [State.endJob, h, State.showCredit, State.put_dram, State.put_dram, State.put_dram]

/-- Ending jobs shows on page OAS alone. -/
theorem State.get_endJob_otherPage {pg : Nat} {f : Fld} (h : Pg.OAS ≠ pg ∧ f.off < 4096) : (s.endJob k).get pg f = s.get pg f := by
  obtain ⟨hpg, hf⟩ := h
  obtain ⟨oas, he⟩ := s.endJobs_eq fun j => decide (j.kind = k)
  rw [State.endJob, he, State.showCredit, State.get_put_otherPage _ _ ⟨hpg, by decide, hf⟩,
    State.get_put_otherPage _ _ ⟨hpg, by decide, hf⟩, State.get_put_otherPage _ _ ⟨hpg, by decide, hf⟩]
  exact State.get_congr rfl pg f

theorem State.regsKept_endJob {touched : Nat → Prop} {b : State} (h : b.RegsKept touched s)
    (hfree : touched (addrOf Pg.OAS OAS.COMMITTED_MW.off)) (hc0 : touched (addrOf Pg.OAS OAS.C0_COMMITTED_MW.off)) :
    b.RegsKept touched (s.endJob k) := by
  obtain ⟨oas, he⟩ := s.endJobs_eq fun j => decide (j.kind = k)
  rw [State.endJob, he, State.showCredit]
  exact State.regsKept_put (State.regsKept_put (State.regsKept_put (State.regsKept_of_regs h rfl) _ hfree) _ hc0) _ hfree

end

/-- Releasing engines changes what the receive array keeps, and nothing else. -/
theorem State.disarm_eq (s : State) (n tag : Nat) : ∃ erg, s.disarm n tag = { s with erg := erg } :=
  forEach_keeps (fun u => ∃ erg, u = { s with erg := erg }) _ _
    (fun a u _ hu => by
      obtain ⟨erg, rfl⟩ := hu
      exact ⟨_, rfl⟩) ⟨s.erg, rfl⟩

/-- A message that a change keeps in its place reads back changed. -/
theorem State.msg_modMsg (s : State) (n tag : Nat) {f : Msg → Msg} (hf : ∀ m, (f m).tag = m.tag) :
    (s.modMsg n tag f).msg n tag = (s.msg n tag).map f := by
  have hkeep : ((fun m => decide (m.tag = tag)) ∘ fun m => if m.tag = tag then f m else m) = fun m : Msg => decide (m.tag = tag) := by
    funext m
    by_cases hm : m.tag = tag
    · simp [hm, hf]
    · simp [hm]
  rw [State.msg, State.modMsg, State.queue_setQueue, if_pos rfl, List.find?_map, hkeep, State.msg]
  cases hfind : (s.queue n).msgs.find? fun m => decide (m.tag = tag) with
  | none => rfl
  | some m =>
    have htag : m.tag = tag := by simpa using List.find?_some hfind
    exact congrArg some (if_pos htag)

theorem State.msg_congr {s u : State} (h : u.wad = s.wad) (n tag : Nat) : u.msg n tag = s.msg n tag := by
  rw [State.msg, State.queue, h, State.msg, State.queue]

/-- The change of a message whose attempt was not made (R161). -/
def Msg.notMade (why t : Nat) (x : Msg) : Msg :=
  { x with onLine := false, attempts := x.attempts - 1, delay := why, delayAt := t
           cut := x.cut || decide (why = Delay.PREEMPT) }

/-- An attempt that was not made, of a message that goes on: it waits for its next grant, and the credit shows its job's end. -/
theorem State.notMade_waits {s : State} {n tag why t : Nat} {m : Msg} (hm : s.msg n tag = some m) (hgoes : m.cancelled = false)
    (htrain : m.byTrain = false) : ∃ (v : State) (k : JobKind),
      s.notMade n tag why t = v.endJob k ∧ v.regs = s.regs ∧ v.txs = s.txs ∧ v.dram = s.dram ∧
      v.msg n tag = some (m.notMade why t) := by
  have htrainOver : s.trainOver n tag t = s := by
    unfold State.trainOver
    rw [hm]
    dsimp only
    rw [htrain, onlyIf_false]
  have hwaits : s.notMade n tag why t = (s.modMsg n tag (Msg.notMade why t)).dropAttempt n tag := by
    unfold State.notMade
    rw [hm]
    dsimp only
    rw [htrainOver, hgoes]
    exact if_neg Bool.false_ne_true
  have hmsg := State.msg_modMsg s n tag (f := Msg.notMade why t) fun _ => rfl
  rw [hm] at hmsg
  rw [hwaits]
  exact ⟨_, _, rfl, rfl, rfl, rfl, hmsg⟩

/-! ### Cutting a victim (R126, R167, R168) -/

/-- The lane of a victim that is cut at tick `t`. -/
def Lane.cutAt (t : Nat) (x : Lane) : Lane :=
  let n := (t - x.t0) / symTicks x.rate
  let silent := decide (n < x.preamble + 32)
  { x with phase := .ending, copies := x.copy + 1
           tEnd := if silent then t else t + airTicks x.rate 32
           phases := if silent then x.phases.take n else x.phases.take n ++ cutPhases x.sync }

/-- The counter of a cut with `n` symbols sent. -/
def cutCounter (n preamble : Nat) : Fld := if n < preamble + 32 then TXS.CUT_SILENT_CNT else TXS.CUT_PATTERN_CNT

/-- The state whose lane has been cut, its message not yet told. -/
def State.laneCut (t p l : Nat) (x : Lane) (s : State) : State :=
  ((s.setLane p l (some (x.cutAt t))).count (Pg.TXS p) (cutCounter ((t - x.t0) / symTicks x.rate) x.preamble)).event (Pg.TXS p) TXS.EV_CUT

section
variable {s : State} {t p l : Nat} {x : Lane} (hlane : s.lane p l = some x) (hvictim : x.victim = true) (hphase : x.phase = .onLine)
  (hbound : t = x.boundaryFrom x.cutFrom) (hend : t < x.tEnd)
include hlane hvictim hphase hbound hend

theorem State.victimCut_eq : s.victimCut t p l =
    (((s.laneCut t p l x).disarm x.queue x.tag).renameJob (.tx x.queue x.tag) (.lane p l)).notMade x.queue x.tag Delay.PREEMPT t := by
  have hcut : ¬(x.victim = false ∨ x.phase ≠ .onLine ∨ t ≠ x.boundaryFrom x.cutFrom ∨ x.tEnd ≤ t) := by
    simp only [hvictim, hphase, ← hbound, Nat.not_le.mpr hend, ne_eq, not_true, Bool.true_eq_false, or_self, not_false_eq_true]
  have hcounter : (if decide ((t - x.t0) / symTicks x.rate < x.preamble + 32) = true then TXS.CUT_SILENT_CNT else TXS.CUT_PATTERN_CNT) =
      cutCounter ((t - x.t0) / symTicks x.rate) x.preamble := by simp only [decide_eq_true_eq, cutCounter]
  unfold State.victimCut
  rw [hlane]
  dsimp only
  rw [if_neg hcut, hcounter]
  rfl

omit hlane hvictim hphase hbound hend in
/-- Pages of the transmit synthesis follow nothing and are not page OAS. -/
theorem txsPage (h : p < 16) : (Pg.TXS p ≠ Pg.GLB ∧ Pg.TXS p ≠ Pg.HIF) ∧ Pg.OAS ≠ Pg.TXS p := by
  unfold Pg.TXS Pg.GLB Pg.HIF Pg.OAS
  omega

/-- A victim is cut, and its message waits for its next grant. -/
theorem victimCut_cuts (hp : p < 16) {m : Msg} (hm : s.msg x.queue x.tag = some m) (hgoes : m.cancelled = false)
    (htrain : m.byTrain = false) :
    let u := ((s.atTick t).victimCut t p l).settle
    u.get (Pg.TXS p) TXS.EV_CUT = 1 ∧
      s.Counted (Pg.TXS p) (cutCounter ((t - x.t0) / symTicks x.rate) x.preamble) u ∧ u.lane p l = some (x.cutAt t) ∧
      u.msg x.queue x.tag = some (m.notMade Delay.PREEMPT t) ∧
      s.RegsKept (regsAt [(Pg.TXS p, CMN.EVENTS), (Pg.TXS p, TXS.CUT_SILENT_CNT.off), (Pg.TXS p, TXS.CUT_PATTERN_CNT.off),
        (Pg.OAS, OAS.COMMITTED_MW.off), (Pg.OAS, OAS.C0_COMMITTED_MW.off), (Pg.OAS, OAS.FREE_MW.off)]) u ∧ s.DramKept u := by
  obtain ⟨hpg, hoas⟩ := txsPage hp
  have hcounter : cutCounter ((t - x.t0) / symTicks x.rate) x.preamble = TXS.CUT_SILENT_CNT ∨
      cutCounter ((t - x.t0) / symTicks x.rate) x.preamble = TXS.CUT_PATTERN_CNT := ite_eq_or_eq _ _ _
  have hexec := State.victimCut_eq (s := s.atTick t) hlane hvictim hphase hbound hend
  have hframe : s.RegsKept (regsAt [(Pg.TXS p, CMN.EVENTS), (Pg.TXS p, TXS.CUT_SILENT_CNT.off),
      (Pg.TXS p, TXS.CUT_PATTERN_CNT.off), (Pg.OAS, OAS.COMMITTED_MW.off), (Pg.OAS, OAS.C0_COMMITTED_MW.off),
      (Pg.OAS, OAS.FREE_MW.off)]) ((s.atTick t).laneCut t p l x) := by
    refine State.regsKept_event (State.regsKept_count (fun _ _ _ _ => rfl) ?_) (regsAt_of_mem (by simp))
    rcases hcounter with h | h <;> rw [h] <;> exact regsAt_of_mem (by simp)
  have hevent : ((s.atTick t).laneCut t p l x).get (Pg.TXS p) TXS.EV_CUT = 1 := State.get_event_set _ (by decide)
  have hcount : ((s.atTick t).laneCut t p l x).get (Pg.TXS p) (cutCounter ((t - x.t0) / symTicks x.rate) x.preamble) =
      (((s.atTick t).setLane p l (some (x.cutAt t))).count (Pg.TXS p) (cutCounter ((t - x.t0) / symTicks x.rate) x.preamble)).get
        (Pg.TXS p) (cutCounter ((t - x.t0) / symTicks x.rate) x.preamble) := by
    refine State.get_event_beside _ _ _ _ ?_
    rcases hcounter with h | h <;> rw [h] <;> decide
  have hcut : ((s.atTick t).laneCut t p l x).lane p l = some (x.cutAt t) := by
    rw [← State.lane_setLane (s.atTick t) p l (some (x.cutAt t))]
    exact State.lane_congr (by rw [State.laneCut, State.event_txs, State.count_txs]) p l
  have hwad : ((s.atTick t).laneCut t p l x).wad = s.wad := by
    rw [State.laneCut, State.event_wad, State.count_wad, State.setLane_wad, State.atTick_wad]
  have hdram : ((s.atTick t).laneCut t p l x).dram = s.dram := by
    rw [State.laneCut, State.event_dram, State.count_dram, State.setLane_dram, State.atTick_dram]
  generalize (s.atTick t).laneCut t p l x = w at hexec hframe hevent hcount hcut hwad hdram
  generalize cutCounter ((t - x.t0) / symTicks x.rate) x.preamble = cnt at hcounter hcount ⊢
  have hfield : cnt.off < 4096 ∧ cnt.lsb + cnt.w ≤ 32 := by rcases hcounter with h | h <;> rw [h] <;> decide
  obtain ⟨erg, herg⟩ := w.disarm_eq x.queue x.tag
  rw [herg] at hexec
  have hwaiting : (({ w with erg := erg } : State).renameJob (.tx x.queue x.tag) (.lane p l)).msg x.queue x.tag = some m :=
    (State.msg_congr (s := s) hwad _ _).trans hm
  obtain ⟨v, k, hv, hvregs, hvtxs, hvdram, hvmsg⟩ := State.notMade_waits (why := Delay.PREEMPT) (t := t) hwaiting hgoes htrain
  have hget : ∀ f : Fld, f.off < 4096 → (v.endJob k).get (Pg.TXS p) f = w.get (Pg.TXS p) f := fun f hf => by
    rw [State.get_endJob_otherPage _ _ ⟨hoas, hf⟩]
    exact State.get_congr hvregs _ _
  rw [hexec, hv]
  refine ⟨?_, ?_, ?_, ?_, ?_, ?_⟩
  · rw [State.get_settle_beside _ hpg (by decide), hget _ (by decide), hevent]
  · exact State.counted_settle (u := (s.atTick t).setLane p l (some (x.cutAt t))) hpg hfield ((hget _ hfield.1).trans hcount) rfl rfl
  · rw [← hcut]
    exact State.lane_congr ((State.settle_txs _).trans ((State.endJob_txs _ _).trans hvtxs)) p l
  · rw [← hvmsg]
    exact State.msg_congr ((State.settle_wad _).trans (State.endJob_wad _ _)) _ _
  · exact State.regsKept_settle (State.regsKept_endJob _ _ (State.regsKept_of_regs hframe hvregs) (regsAt_of_mem (by simp))
      (regsAt_of_mem (by simp)))
  · exact State.dramKept_settle ((State.endJob_dram _ _).trans (hvdram.trans hdram))

end

end Sys2Proof.Machine

/-! ## Support of `TransmissionsAreCutOrEnd`: the end of a transmission (R89, R90, R100). -/

namespace Sys2Proof.Machine

/-! ### Instants of copies -/

theorem le_ceil_run (a n d : Nat) : a ≤ a + n / Nat.max 1 d := Nat.le_add_right _ _

/-- The clock reaches a phase no sooner than it is looked for. -/
theorem State.le_phiReach (s : State) (x from_ : Nat) : from_ ≤ s.phiReach x from_ := by
  have hmax : from_ ≤ Nat.max from_ (Nat.max s.mtb.anchor s.mtb.holdEnd) := Nat.le_max_left _ _
  unfold State.phiReach
  dsimp only
  split
  · exact Nat.le_refl _
  · split
    · next hslew =>
      split
      · exact hmax.trans (Nat.le_add_right _ _)
      · exact (hmax.trans hslew.le).trans (Nat.le_add_right _ _)
    · exact hmax.trans (Nat.le_add_right _ _)

theorem State.tbNominal_counts (s : State) : s.tbNominal / 65536 * 65536 = s.tbNominal ∧ 1 ≤ s.tbNominal := by
  unfold State.tbNominal
  split <;> decide

/-- The free phase reaches a target no sooner than it is looked for. -/
theorem State.le_freeInstant (s : State) {gap : Nat} (from_ : Nat) (hgap : 1 ≤ gap) :
    from_ ≤ ((s.freeCounts from_ + gap) * 2048000 + s.tbNominal - 1) / Nat.max 1 s.tbNominal := by
  obtain ⟨hcounts, hpos⟩ := s.tbNominal_counts
  have hfree : s.freeCounts from_ = from_ * s.tbNominal / 2048000 := by
    unfold State.freeCounts
    rw [Nat.mul_assoc, hcounts]
  have hmax : Nat.max 1 s.tbNominal = s.tbNominal := Nat.max_eq_right hpos
  have hlt : from_ * s.tbNominal < (s.freeCounts from_ + 1) * 2048000 := by
    rw [hfree]
    exact Nat.lt_mul_of_div_lt (Nat.lt_succ_self _) (by decide)
  have hle : (s.freeCounts from_ + 1) * 2048000 ≤ (s.freeCounts from_ + gap) * 2048000 :=
    Nat.mul_le_mul_right _ (Nat.add_le_add_left hgap _)
  rw [hmax, Nat.le_div_iff_mul_le hpos]
  omega

/-- A copy starts no sooner than it is looked for. -/
theorem State.le_phaseInstant (s : State) (target from_ : Nat) : from_ ≤ s.phaseInstant target from_ := by
  unfold State.phaseInstant
  dsimp only
  split
  · exact Nat.le_refl _
  next hgap =>
    split
    next hoff =>
      have hhere : s.countsAt from_ = s.freeCounts from_ := if_pos hoff
      rw [hhere] at hgap ⊢
      exact s.le_freeInstant from_ (Nat.one_le_iff_ne_zero.mpr hgap)
    next => exact s.le_phiReach _ _

theorem State.le_copyInstant (s : State) (tEnd p0 n k : Nat) : tEnd + 2048 ≤ s.copyInstant tEnd p0 n k := by
  have hfrom : tEnd + 2048 ≤ if s.tb = TB.OFF then tEnd + ticks1ms else Nat.max (tEnd + ticks1ms) s.mtb.anchor := by
    split
    · exact Nat.le_refl _
    · exact Nat.le_max_left _ _
  exact hfrom.trans (s.le_phaseInstant _ _)

/-- The instant of a copy depends on page MTB and on what the timebase keeps. -/
theorem State.copyInstant_congr {s u : State} (hget : ∀ f : Fld, f.off < 4096 → u.get Pg.MTB f = s.get Pg.MTB f) (hmtb : u.mtb = s.mtb)
    (tEnd p0 n k : Nat) : u.copyInstant tEnd p0 n k = s.copyInstant tEnd p0 n k := by
  have htb : u.tb = s.tb := hget _ (by decide)
  have hfreq := hget MTB.FREQ (by decide)
  have hphi : ∀ t, u.phiAt t = s.phiAt t := State.phiAt_congr htb hfreq (by rw [hmtb]) (by rw [hmtb]) (by rw [hmtb]) (by rw [hmtb])
    (by rw [hmtb])
  have hnominal : u.tbNominal = s.tbNominal := by
    unfold State.tbNominal State.flag
    rw [hget _ (by decide)]
  have hcounts : ∀ t, u.countsAt t = s.countsAt t := fun t => by
    unfold State.countsAt State.freeCounts
    rw [htb, hnominal, hget MTB.CYCLE (by decide), hphi]
  have hreach : ∀ x t, u.phiReach x t = s.phiReach x t := fun x t => by
    unfold State.phiReach
    simp only [hphi, hfreq, hmtb]
  unfold State.copyInstant State.phaseInstant
  simp only [hcounts, htb, hnominal, hphi, hreach, hmtb]

/-! ### Adaptation of the cancellers (R89) -/

/-- Elements of an array of registers that a list of values is written to, from element `k` on. -/
theorem State.get_forEach_put_zipIdx {w : Nat} (pg : Nat) (f : Fld) (hf : f.lsb + f.w ≤ 32) (hstep : 0 < f.step) (hw : w ≤ f.w)
    (l : List (BitVec w)) (k i : Nat) (s : State) :
    (forEach (l.zipIdx k) (fun x s => s.put pg (f.nth x.2) x.1.toNat) s).get pg (f.nth i) =
      if k ≤ i ∧ i < k + l.length then (l.getD (i - k) 0).toNat else s.get pg (f.nth i) := by
  induction l generalizing k s with
  | nil => rw [if_neg (by simp)]; rfl
  | cons v l ih =>
    rw [List.zipIdx_cons]
    refine (ih (k + 1) (s.put pg (f.nth k) v.toNat)).trans ?_
    rcases Nat.lt_trichotomy i k with hlt | rfl | hgt
    · have hoff : (f.nth k).off ≠ (f.nth i).off := fun h =>
        Nat.ne_of_gt hlt (Nat.eq_of_mul_eq_mul_left hstep (Nat.add_left_cancel h))
      rw [if_neg (by omega), if_neg (by omega), State.get_put_other _ _ (addrOf_ne hoff)]
    · have hput : (s.put pg (f.nth i) v.toNat).get pg (f.nth i) = v.toNat % 2 ^ f.w := State.get_put_same s pg (f.nth i) v.toNat hf
      rw [if_neg (by omega), if_pos (by simp), hput, Nat.sub_self, List.getD_cons_zero]
      exact Nat.mod_eq_of_lt (v.isLt.trans_le (Nat.pow_le_pow_right (by decide) hw))
    · have hoff : (f.nth k).off ≠ (f.nth i).off := fun h =>
        Nat.ne_of_lt hgt (Nat.eq_of_mul_eq_mul_left hstep (Nat.add_left_cancel h))
      have hnext : i - k = (i - (k + 1)) + 1 := by omega
      by_cases hin : i < k + (l.length + 1)
      · rw [if_pos (by omega), if_pos (by simp; omega), hnext, List.getD_cons_succ]
      · rw [if_neg (by omega), if_neg (by simp; omega), State.get_put_other _ _ (addrOf_ne hoff)]

section
variable (p : Nat) (e : EchoResult) (s : State)

/-- The adaptation of the cancellers changes registers alone. -/
theorem State.tapsAdapt_eq : ∃ regs, s.tapsAdapt p e = { s with regs := regs } := by
  unfold State.tapsAdapt
  split
  · exact ⟨s.regs, rfl⟩
  · refine forEach_keeps (fun u => ∃ regs, u = { s with regs := regs }) _ _ (fun a u _ hu => ?_) ⟨s.regs, rfl⟩
    obtain ⟨regs, rfl⟩ := hu
    exact ⟨_, rfl⟩

/-- The analog settings of the canceller that an adaptation has brought. -/
def State.cancSet : State := (s.put (Pg.LPT p) LPT.CANC_GAIN e.gain.toNat).put (Pg.LPT p) LPT.CANC_DELAY e.delay.toNat

theorem State.echoAdapt_cases : s.echoAdapt p e = if (s.tapsAdapt p e).flag (Pg.LPT p) LPT.CANC_EN = true then
    (s.tapsAdapt p e).cancSet p e else s.tapsAdapt p e := rfl

theorem State.echoAdapt_eq : ∃ regs, s.echoAdapt p e = { s with regs := regs } := by
  obtain ⟨regs, h⟩ := s.tapsAdapt_eq p e
  rw [State.echoAdapt_cases, h]
  split
  · exact ⟨_, rfl⟩
  · exact ⟨regs, rfl⟩

/-- The adaptation of the taps changes no register beside them. -/
theorem State.get_tapsAdapt_beside {pg : Nat} {f : Fld}
    (h : ∀ i, i < 256 → addrOf (Pg.LPT p) (LPT.ECHO_TAP.nth i).off ≠ addrOf pg f.off) :
    (s.tapsAdapt p e).get pg f = s.get pg f := by
  unfold State.tapsAdapt
  split
  · rfl
  · refine forEach_keeps (fun u => u.get pg f = s.get pg f) _ _ (fun a u ha hu => ?_) rfl
    have hlt : a.2 < 256 := (List.snd_lt_of_mem_zipIdx ha).trans_le (List.length_take_le 256 e.taps)
    rw [State.get_put_other _ _ (h _ hlt), hu]

theorem echoTap_below (i : Nat) {f : Fld} (hf : f.off < LPT.ECHO_TAP.off) :
    addrOf (Pg.LPT p) (LPT.ECHO_TAP.nth i).off ≠ addrOf (Pg.LPT p) f.off :=
  addrOf_ne (Nat.ne_of_gt (hf.trans_le (Nat.le_add_right _ _)))

theorem echoTap_otherPage {i pg : Nat} {f : Fld} (hi : i < 256) (hpg : Pg.LPT p ≠ pg) (hf : f.off < 4096) :
    addrOf (Pg.LPT p) (LPT.ECHO_TAP.nth i).off ≠ addrOf pg f.off := fun he => by
  have htap : (LPT.ECHO_TAP.nth i).off = 0x800 + 4 * i := rfl
  exact hpg (addrOf_inj (by omega) hf he).1

/-- The analog settings of the canceller stand in one register of the port's page. -/
theorem State.get_cancSet_beside {pg : Nat} {f : Fld} (h : addrOf (Pg.LPT p) LPT.CANC_GAIN.off ≠ addrOf pg f.off) :
    (s.cancSet p e).get pg f = s.get pg f := by
  have hdelay : addrOf (Pg.LPT p) LPT.CANC_DELAY.off ≠ addrOf pg f.off := h
  rw [State.cancSet, State.get_put_other _ _ hdelay, State.get_put_other _ _ h]

theorem State.get_cancSet_gain : (s.cancSet p e).get (Pg.LPT p) LPT.CANC_GAIN = e.gain.toNat := by
  rw [State.cancSet, State.get_put_beside _ _ _ _ _ (by decide), State.get_put_same _ _ _ _ (by decide)]
  exact Nat.mod_eq_of_lt e.gain.isLt

theorem State.get_cancSet_delay : (s.cancSet p e).get (Pg.LPT p) LPT.CANC_DELAY = e.delay.toNat := by
  rw [State.cancSet, State.get_put_same _ _ _ _ (by decide)]
  exact Nat.mod_eq_of_lt e.delay.isLt

/-- An adaptation changes no register of another page. -/
theorem State.get_echoAdapt_otherPage {pg : Nat} {f : Fld} (hpg : Pg.LPT p ≠ pg) (hf : f.off < 4096) :
    (s.echoAdapt p e).get pg f = s.get pg f := by
  have htaps := s.get_tapsAdapt_beside p e fun i hi => echoTap_otherPage p hi hpg hf
  have hcanc : addrOf (Pg.LPT p) LPT.CANC_GAIN.off ≠ addrOf pg f.off := fun he => hpg (addrOf_inj (by decide) hf he).1
  rw [State.echoAdapt_cases]
  split
  · rw [State.get_cancSet_beside _ _ _ hcanc, htaps]
  · exact htaps

/-- The taps after an adaptation. -/
theorem State.get_echoAdapt_tap {i : Nat} (hi : i < 256) : (s.echoAdapt p e).get (Pg.LPT p) (LPT.ECHO_TAP.nth i) =
    if s.flag (Pg.LPT p) LPT.ECHO_FREEZE = false ∧ s.flag (Pg.LPT p) LPT.ECHO_EN = true ∧ i < e.taps.length then
      (e.taps.getD i 0).toNat else s.get (Pg.LPT p) (LPT.ECHO_TAP.nth i) := by
  have hcanc : addrOf (Pg.LPT p) LPT.CANC_GAIN.off ≠ addrOf (Pg.LPT p) (LPT.ECHO_TAP.nth i).off :=
    (echoTap_below p i (by decide)).symm
  have htaps : (s.echoAdapt p e).get (Pg.LPT p) (LPT.ECHO_TAP.nth i) = (s.tapsAdapt p e).get (Pg.LPT p) (LPT.ECHO_TAP.nth i) := by
    rw [State.echoAdapt_cases]
    split
    · rw [State.get_cancSet_beside _ _ _ hcanc]
    · rfl
  rw [htaps]
  unfold State.tapsAdapt
  cases hfreeze : s.flag (Pg.LPT p) LPT.ECHO_FREEZE with
  | true => simp
  | false =>
    cases hen : s.flag (Pg.LPT p) LPT.ECHO_EN with
    | false => simp
    | true =>
      have hread := State.get_forEach_put_zipIdx (Pg.LPT p) LPT.ECHO_TAP (by decide) (by decide) (by decide) (e.taps.take 256) 0 i s
      have hlen : (0 ≤ i ∧ i < 0 + (e.taps.take 256).length) ↔ i < e.taps.length := by
        rw [List.length_take]
        omega
      have htake : (e.taps.take 256).getD (i - 0) 0 = e.taps.getD i 0 := by
        rw [Nat.sub_zero, List.getD_eq_getElem?_getD, List.getD_eq_getElem?_getD, List.getElem?_take_of_lt hi]
      simp only [hlen, htake] at hread
      simpa using hread

end

/-- The registers that an adaptation moves. -/
def adaptRegs (p : Nat) (a : Nat) : Prop := echoTaps p a ∨ regsAt [(Pg.LPT p, LPT.CANC_GAIN.off)] a

theorem State.UnitsOnly.tapsAdapt {b s : State} {p : Nat} {touched : Nat → Prop} (h : b.UnitsOnly touched s)
    (ht : ∀ a, echoTaps p a → touched a) (e : EchoResult) : b.UnitsOnly touched (s.tapsAdapt p e) := by
  unfold State.tapsAdapt
  split
  · exact h
  · refine forEach_keeps (fun u => b.UnitsOnly touched u) _ _ (fun a u ha hu => hu.put _ (ht _ ⟨a.2, ?_, rfl⟩)) h
    exact (List.snd_lt_of_mem_zipIdx ha).trans_le (List.length_take_le 256 e.taps)

theorem State.UnitsOnly.echoAdapt {b s : State} {p : Nat} (h : b.UnitsOnly (adaptRegs p) s) (e : EchoResult) :
    b.UnitsOnly (adaptRegs p) (s.echoAdapt p e) := by
  have hcanc : adaptRegs p (addrOf (Pg.LPT p) LPT.CANC_GAIN.off) := .inr (regsAt_of_mem List.mem_cons_self)
  have htaps := h.tapsAdapt (p := p) (fun _ ha => .inl ha) e
  rw [State.echoAdapt_cases]
  split
  · exact (htaps.put _ hcanc).put _ hcanc
  · exact htaps

end Sys2Proof.Machine

/-! ### What the end of a fall leaves behind -/

namespace Sys2Proof.Machine

section
variable (p l : Nat) (x : Lane) (s : State)

/-- What the line remembers of a transmission that has ended. -/
def State.lineFreed : State := s.lineEnded p l x x.fallEnd false

theorem State.lineFreed_eq : ∃ txs mac, s.lineFreed p l x = s.withUnits s.regs s.dram s.mtb txs mac ∧ txs.lanes = s.txs.lanes ∧
    txs.hist.head? = some (x.onTime p) ∧
    txs.marks = s.txs.marks.map (fun m => if m.port = p ∧ m.lane = l ∧ m.stop = none then { m with stop := some (x.fallEnd + 256) } else m) ∧
    mac.owed = s.mac.owed ∧ mac.wins = s.mac.wins := ⟨_, _, rfl, rfl, rfl, rfl, rfl, rfl⟩

variable {p l x s} {t : Nat} {e : EchoResult} (hlane : s.lane p l = some x) (hphase : x.phase = .onLine) (hfall : x.fallEnd ≤ t)
include hlane hphase hfall

theorem State.transmissionEnd_eq : s.transmissionEnd t p l e =
    (((s.lineFreed p l x).echoAdapt p e).laneEnded p l x t).echoResetDue p := by
  have hended : ¬(x.onLine = false ∨ t < x.fallEnd) := by
    rw [Lane.onLine, hphase]
    simpa using hfall
  unfold State.transmissionEnd
  rw [hlane]
  exact if_neg hended

end

theorem State.echoResetDue_of_none {s : State} {p : Nat} (h : (s.lptSt p).echoReset = false) : s.echoResetDue p = s :=
  if_neg fun hdue => Bool.false_ne_true (h.symm.trans hdue.1)

/-- A waiting ECHO_RESET that applies changes registers and what line ports keep. -/
theorem State.echoResetDue_eq (s : State) (p : Nat) : ∃ regs lpt, s.echoResetDue p = { s with regs := regs, lpt := lpt } := by
  unfold State.echoResetDue
  dsimp only
  split
  · exact ⟨_, _, rfl⟩
  · exact ⟨s.regs, s.lpt, rfl⟩

/-- Pages of the line ports follow nothing. -/
theorem lptPage_beside {p : Nat} (hp : p < 16) : Pg.LPT p ≠ Pg.GLB ∧ Pg.LPT p ≠ Pg.HIF := by
  unfold Pg.LPT Pg.GLB Pg.HIF
  omega

/-! ### The end of an acknowledgement -/

/-- The end of a lane that carried an acknowledgement. -/
theorem State.laneEnded_ack {s : State} {p l t : Nat} {x : Lane} (hphase : x.phase = .onLine) (hkind : x.kind = .ack) :
    s.laneEnded p l x t = (s.setLane p l none).dropOwed p x.centre x.rate x.due := by
  unfold State.laneEnded
  rw [hphase, hkind]
  rfl

/-- The state whose lane has been freed by an acknowledgement that is owed no longer. -/
def State.ackFreed (p l : Nat) (x : Lane) (s : State) : State := (s.setLane p l none).dropOwed p x.centre x.rate x.due

section
variable (p l : Nat) (x : Lane) (s : State)

theorem State.ackFreed_eq : s.ackFreed p l x = s.withUnits s.regs s.dram s.mtb (s.ackFreed p l x).txs (s.ackFreed p l x).mac := rfl

theorem State.ackFreed_hist : (s.ackFreed p l x).txs.hist = s.txs.hist := rfl
theorem State.ackFreed_marks : (s.ackFreed p l x).txs.marks = s.txs.marks := rfl

theorem State.ackFreed_dram : (s.ackFreed p l x).dram = s.dram := rfl
theorem State.ackFreed_mtb : (s.ackFreed p l x).mtb = s.mtb := rfl

theorem State.lane_ackFreed : (s.ackFreed p l x).lane p l = none :=
  (State.lane_congr (s := s.setLane p l none) rfl p l).trans (State.lane_setLane s p l none)

theorem State.mem_owed_ackFreed (o : Owed) : o ∈ (s.ackFreed p l x).mac.owed ↔
    o ∈ s.mac.owed ∧ ¬ (o.port = p ∧ o.centre = x.centre ∧ o.rate = x.rate ∧ o.tEnd = x.due) := by
  have howed : (s.ackFreed p l x).mac.owed = s.mac.owed.filter fun o =>
    !(decide (o.port = p) && decide (o.centre = x.centre) && decide (o.rate = x.rate) && decide (o.tEnd = x.due)) := rfl
  rw [howed, List.mem_filter]
  simp only [Bool.not_eq_true', Bool.and_eq_false_iff, decide_eq_false_iff_not]
  tauto

end

section
variable {s : State} {tick p l : Nat} {x : Lane} {e : EchoResult} (hlane : s.lane p l = some x) (hphase : x.phase = .onLine)
  (hfall : x.fallEnd ≤ tick)
include hlane hphase hfall

theorem ackEnd_frees (hp : p < 16) (hkind : x.kind = .ack) (hreset : (s.lptSt p).echoReset = false) :
    let t := ((s.atTick tick).transmissionEnd tick p l e).settle
    t.lane p l = none ∧ t.txs.hist.head? = some (x.onTime p) ∧ s.TapsAdapted p e t ∧
      (s.flag (Pg.LPT p) LPT.CANC_EN = true →
        t.get (Pg.LPT p) LPT.CANC_GAIN = e.gain.toNat ∧ t.get (Pg.LPT p) LPT.CANC_DELAY = e.delay.toNat) ∧
      (s.flag (Pg.LPT p) LPT.CANC_EN = false → t.reg (Pg.LPT p) LPT.CANC_GAIN.off = s.reg (Pg.LPT p) LPT.CANC_GAIN.off) ∧
      (∀ m, m ∈ s.txs.marks → m.port = p → m.lane = l → m.stop = none → { m with stop := some (x.fallEnd + 256) } ∈ t.txs.marks) ∧
      (∀ o, o ∈ t.mac.owed ↔ o ∈ s.mac.owed ∧ ¬ (o.port = p ∧ o.centre = x.centre ∧ o.rate = x.rate ∧ o.tEnd = x.due)) ∧
      State.RegsOnly (adaptRegs p) { s.atTick tick with txs := t.txs, mac := t.mac } t := by
  intro t
  have hpg : Pg.LPT p ≠ Pg.GLB ∧ Pg.LPT p ≠ Pg.HIF := lptPage_beside hp
  obtain ⟨txs, mac, hfreed, hlanes, hhist, hmarks, howed, -⟩ := (s.atTick tick).lineFreed_eq p l x
  have hfreedFrame : ∀ touched, (s.atTick tick).UnitsOnly touched ((s.atTick tick).lineFreed p l x) := fun touched => by
    rw [hfreed]
    exact (State.unitsOnly_refl touched _).withUnits _ _ _ _
  have hfreedGet : ∀ f : Fld, ((s.atTick tick).lineFreed p l x).get (Pg.LPT p) f = s.get (Pg.LPT p) f := fun f => by
    rw [hfreed]
    rfl
  have hfreedDram : ((s.atTick tick).lineFreed p l x).dram = (s.atTick tick).dram := by rw [hfreed]; rfl
  have hfreedMtb : ((s.atTick tick).lineFreed p l x).mtb = (s.atTick tick).mtb := by rw [hfreed]; rfl
  have hfreedTxs : ((s.atTick tick).lineFreed p l x).txs = txs := by rw [hfreed]; rfl
  have hfreedMac : ((s.atTick tick).lineFreed p l x).mac = mac := by rw [hfreed]; rfl
  have hexec : (s.atTick tick).transmissionEnd tick p l e = _ := State.transmissionEnd_eq (s := s.atTick tick) hlane hphase hfall
  rw [State.laneEnded_ack hphase hkind, ← State.ackFreed] at hexec
  generalize (s.atTick tick).lineFreed p l x = w at hexec hfreedFrame hfreedGet hfreedDram hfreedMtb hfreedTxs hfreedMac
  obtain ⟨regs, hadapt⟩ := w.echoAdapt_eq p e
  have hvtxs : (w.echoAdapt p e).txs = txs := by rw [hadapt]; exact hfreedTxs
  have hvmac : (w.echoAdapt p e).mac = mac := by rw [hadapt]; exact hfreedMac
  have hframe : ∀ {touched v}, (s.atTick tick).UnitsOnly touched v → (s.atTick tick).UnitsOnly touched (v.ackFreed p l x) :=
    fun h => by
      rw [State.ackFreed_eq]
      exact h.withUnits _ _ _ _
  have hadapted := hframe ((hfreedFrame (adaptRegs p)).echoAdapt e)
  have hlpt : ((w.echoAdapt p e).ackFreed p l x).lpt = s.lpt := by
    have hrest := congrArg State.lpt hadapted.rest
    exact hrest
  rw [State.echoResetDue_of_none (by rw [State.lptSt, hlpt]; exact hreset)] at hexec
  have hget : ∀ f : Fld, f.off < 4096 → t.get (Pg.LPT p) f = (w.echoAdapt p e).get (Pg.LPT p) f := fun f hf => by
    rw [show t = _ from congrArg State.settle hexec, State.get_settle_beside _ hpg hf]
    rfl
  have hflag : (w.tapsAdapt p e).flag (Pg.LPT p) LPT.CANC_EN = s.flag (Pg.LPT p) LPT.CANC_EN := by
    unfold State.flag
    rw [State.get_tapsAdapt_beside _ _ _ fun i _ => echoTap_below p i (by decide), hfreedGet]
  have ht : t = ((w.echoAdapt p e).ackFreed p l x).settle := congrArg State.settle hexec
  have htxs : t.txs = ((w.echoAdapt p e).ackFreed p l x).txs := by rw [ht, State.settle_txs]
  have hmac : t.mac = ((w.echoAdapt p e).ackFreed p l x).mac := by rw [ht, State.settle_mac]
  refine ⟨?_, ?_, fun i hi => ?_, fun hen => ?_, fun hen => ?_, fun m hm hport hlaneOf hopen => ?_, fun o => ?_, ?_⟩
  · rw [State.lane_congr htxs, State.lane_ackFreed]
  · rw [htxs, State.ackFreed_hist, hvtxs, hhist]
  · have htap : (LPT.ECHO_TAP.nth i).off = 0x800 + 4 * i := rfl
    rw [hget _ (by omega), State.get_echoAdapt_tap _ _ _ hi]
    unfold State.flag
    rw [hfreedGet, hfreedGet, hfreedGet]
  · rw [hget _ (by decide), hget _ (by decide), State.echoAdapt_cases, hflag, if_pos hen]
    exact ⟨State.get_cancSet_gain .., State.get_cancSet_delay ..⟩
  · have hadapt : w.echoAdapt p e = w.tapsAdapt p e := by
      rw [State.echoAdapt_cases, hflag, if_neg (by rw [hen]; exact Bool.false_ne_true)]
    have htaps := hframe ((hfreedFrame (echoTaps p)).tapsAdapt (fun _ h => h) e)
    rw [ht, hadapt]
    refine htaps.regsOnly_settle.1 _ _ (fun ⟨i, _, htap⟩ => ?_) (follows_eq_false hpg.1 (by decide) fun h => absurd h hpg.2)
    exact echoTap_below p i (f := LPT.CANC_GAIN) (by decide) htap.symm
  · rw [htxs, State.ackFreed_marks, hvtxs, hmarks]
    exact List.mem_map.mpr ⟨m, hm, if_pos ⟨hport, hlaneOf, hopen⟩⟩
  · rw [hmac, State.mem_owed_ackFreed, hvmac, howed]
    rfl
  · have hdram : (w.echoAdapt p e).dram = (s.atTick tick).dram := by rw [hadapt]; exact hfreedDram
    have hmtb : (w.echoAdapt p e).mtb = (s.atTick tick).mtb := by rw [hadapt]; exact hfreedMtb
    have hr := hadapted.regsOnly_settle
    rw [State.ackFreed_dram, State.ackFreed_mtb, hdram, hmtb, ← htxs, ← hmac, ← ht] at hr
    exact hr

end

/-! ### The end of a copy of a run (R76) -/

theorem State.lane_of_lanes {s u : State} (h : u.txs.lanes = s.txs.lanes) (p l : Nat) : u.lane p l = s.lane p l := by
  rw [State.lane, h, State.lane]

section
variable (s : State) (p at_ : Nat) (c0 : Bool)

/-- A fixed-time start changes counters and events of its port, and the starts on record. -/
theorem State.placeFixed_keeps : (s.placeFixed p at_ c0).txs.lanes = s.txs.lanes ∧ (s.placeFixed p at_ c0).lpt = s.lpt ∧
    (s.placeFixed p at_ c0).wad = s.wad ∧ (s.placeFixed p at_ c0).dram = s.dram := by
  obtain ⟨viol, hviol⟩ : ∃ viol, s.placeFixed p at_ c0 = (onlyIf viol (State.staggerViol p) s).place p at_ c0 true := ⟨_, rfl⟩
  rw [hviol]
  cases viol with
  | false =>
    rw [onlyIf_false]
    exact ⟨rfl, rfl, rfl, rfl⟩
  | true =>
    have htxs : (s.staggerViol p).txs = s.txs := by rw [State.staggerViol, State.event_txs, State.count_txs]
    have hlpt : (s.staggerViol p).lpt = s.lpt := by rw [State.staggerViol, State.event_lpt, State.count_lpt]
    have hwad : (s.staggerViol p).wad = s.wad := by rw [State.staggerViol, State.event_wad, State.count_wad]
    have hdram : (s.staggerViol p).dram = s.dram := by rw [State.staggerViol, State.event_dram, State.count_dram]
    rw [onlyIf_true]
    generalize s.staggerViol p = u at htxs hlpt hwad hdram
    have hlanes := congrArg TxsSt.lanes htxs
    exact ⟨hlanes, hlpt, hwad, hdram⟩

end

/-- The lane of a run that waits for its next copy at instant `at_`. -/
def Lane.waitFor (at_ : Nat) (x : Lane) : Lane := { x with phase := .between, copy := x.copy + 1, t0 := at_, due := at_ }

theorem State.laneEnded_copy {s : State} {p l t : Nat} {x : Lane} (hphase : x.phase = .onLine) (hkind : x.kind = .data)
    (hcopy : x.copy + 1 < x.copies) (horphan : s.isOrphan = false) : s.laneEnded p l x t =
      (s.setLane p l (some (x.waitFor (s.copyInstant x.tEnd x.p0 x.copies x.copy)))).placeFixed p
        (s.copyInstant x.tEnd x.p0 x.copies x.copy) false := by
  have hring : ¬(x.copy + 1 < x.copies ∧ s.isOrphan = true) := fun h => Bool.false_ne_true (horphan.symm.trans h.2)
  have hdata : decide (x.kind = .class0) = false := by rw [hkind]; rfl
  unfold State.laneEnded
  rw [hphase, hdata, if_neg (by decide)]
  split
  next h => exact absurd (hkind.symm.trans h) (by decide)
  next h => exact absurd (hkind.symm.trans h) (by decide)
  next =>
    rw [if_neg hring, if_pos hcopy]
    rfl

theorem State.laneEnded_last {s : State} {p l t : Nat} {x : Lane} (hphase : x.phase = .onLine) (hkind : x.kind = .data)
    (hcopy : x.copies ≤ x.copy + 1) : s.laneEnded p l x t = s.lastCopyEnded p l x t := by
  have hmore : ¬x.copy + 1 < x.copies := Nat.not_lt.mpr hcopy
  unfold State.laneEnded
  rw [hphase, if_neg (by decide)]
  split
  next h => exact absurd (hkind.symm.trans h) (by decide)
  next h => exact absurd (hkind.symm.trans h) (by decide)
  next => rw [if_neg fun h => hmore h.1, if_neg hmore]

section
variable {s : State} {tick p l : Nat} {x : Lane} {e : EchoResult} (hlane : s.lane p l = some x) (hphase : x.phase = .onLine)
  (hfall : x.fallEnd ≤ tick)
include hlane hphase hfall

/-- The state whose cancellers have adapted at the end of a fall differs in registers, transmit synthesis and medium access. -/
theorem State.exists_adapted (e : EchoResult) : ∃ v : State,
    (s.atTick tick).transmissionEnd tick p l e = (v.laneEnded p l x tick).echoResetDue p ∧ v.lpt = s.lpt ∧ v.wad = s.wad ∧
      v.dram = s.dram ∧ v.mtb = s.mtb ∧ v.mac.wins = s.mac.wins ∧
      ∀ pg f, Pg.LPT p ≠ pg → f.off < 4096 → v.get pg f = s.get pg f := by
  obtain ⟨txs, mac, hfreed, -, -, -, -, hwins⟩ := (s.atTick tick).lineFreed_eq p l x
  refine ⟨((s.atTick tick).lineFreed p l x).echoAdapt p e, State.transmissionEnd_eq (s := s.atTick tick) hlane hphase hfall, ?_⟩
  obtain ⟨regs, hadapt⟩ := ((s.atTick tick).lineFreed p l x).echoAdapt_eq p e
  have hget := fun pg f hpg hf => ((s.atTick tick).lineFreed p l x).get_echoAdapt_otherPage p e (pg := pg) (f := f) hpg hf
  rw [hadapt, hfreed] at *
  exact ⟨rfl, rfl, rfl, rfl, hwins, fun pg f hpg hf => hget pg f hpg hf⟩

/-- A run waits for the instant of its next copy. -/
theorem copyEnd_waits (hp : p < 16) (hkind : x.kind = .data) (hcopy : x.copy + 1 < x.copies) (horphan : s.isOrphan = false)
    (hreset : (s.lptSt p).echoReset = false) :
    let t := ((s.atTick tick).transmissionEnd tick p l e).settle
    t.lane p l = some (x.waitFor (s.copyInstant x.tEnd x.p0 x.copies x.copy)) ∧ t.wad = s.wad ∧ s.DramKept t := by
  obtain ⟨v, hexec, hlpt, hwad, hdram, hmtb, -, hget⟩ := State.exists_adapted hlane hphase hfall e
  have hcav : Pg.LPT p ≠ Pg.CAV := by unfold Pg.LPT Pg.CAV; omega
  have hpage : Pg.LPT p ≠ Pg.MTB := by unfold Pg.LPT Pg.MTB; omega
  have hring : v.isOrphan = false := by
    rw [← horphan]
    unfold State.isOrphan State.cavState
    rw [hget _ _ hcav (by decide)]
  have hinstant := State.copyInstant_congr (fun f hf => hget Pg.MTB f hpage hf) hmtb x.tEnd x.p0 x.copies x.copy
  rw [State.laneEnded_copy hphase hkind hcopy hring, hinstant] at hexec
  generalize s.copyInstant x.tEnd x.p0 x.copies x.copy = at_ at hexec ⊢
  obtain ⟨hlanes, hlpt', hwad', hdram'⟩ := (v.setLane p l (some (x.waitFor at_))).placeFixed_keeps p at_ false
  rw [State.echoResetDue_of_none (by rw [State.lptSt, hlpt', State.setLane_lpt, hlpt]; exact hreset)] at hexec
  rw [hexec]
  refine ⟨?_, ?_, State.dramKept_settle ?_⟩
  · rw [State.lane_congr (State.settle_txs _), State.lane_of_lanes hlanes, State.lane_setLane]
  · rw [State.settle_wad, hwad', State.setLane_wad, hwad]
  · rw [hdram', State.setLane_dram, hdram]

end

/-! ### The end of a last copy -/

/-- How long a receiver stays awake is link firmware's record. -/
theorem State.noteAwake_eq (s : State) (a ftype : Nat) (more : Bool) (t : Nat) : ∃ lnk, s.noteAwake a ftype more t = { s with lnk := lnk } := by
  unfold State.noteAwake
  dsimp only
  split
  · exact ⟨s.lnk, rfl⟩
  · split
    · exact ⟨_, rfl⟩
    · split
      · exact ⟨_, rfl⟩
      · exact ⟨s.lnk, rfl⟩

section
variable (n tag t : Nat) (s : State)

/-- The state that has noted how long the receiver of a message stays awake. -/
def State.awakeNoted : State :=
  match s.msg n tag with
  | some m => s.noteAwake (s.plan n m).dst (s.plan n m).ftype (s.plan n m).more t
  | none => s

theorem State.awakeNoted_eq : ∃ lnk, s.awakeNoted n tag t = { s with lnk := lnk } := by
  unfold State.awakeNoted
  split
  · exact s.noteAwake_eq _ _ _ _
  · exact ⟨s.lnk, rfl⟩

/-- The state whose message is off the line. -/
def State.offLine : State := s.modMsg n tag fun m => { m with onLine := false }

/-- The state in which the acknowledgement window of a message is open. -/
def State.winOpened : State :=
  { s with mac := { s.mac with wins := s.mac.wins.map fun w => if w.queue = n ∧ w.tag = tag then { w with isOpen := true } else w } }

theorem State.winOpened_isOpen {w : AckWin} (hw : w ∈ (s.winOpened n tag).mac.wins) (hqueue : w.queue = n) (htag : w.tag = tag) :
    w.isOpen = true := by
  obtain ⟨w0, -, rfl⟩ := List.mem_map.mp hw
  split
  · rfl
  next hother =>
    rw [if_neg hother] at hqueue htag
    exact absurd ⟨hqueue, htag⟩ hother

end

theorem State.lastCopyEnded_eq {s : State} {p l t : Nat} {x : Lane} (hack : x.ackReq = true) : s.lastCopyEnded p l x t =
    ((((s.setLane p l none).endJob (.tx x.queue x.tag)).awakeNoted x.queue x.tag t).offLine x.queue x.tag).winOpened x.queue x.tag :=
  if_pos hack

/-- The last copy of a frame that asks for an acknowledgement leaves its window open. -/
theorem State.lastCopyEnded_opens {s : State} {p l t : Nat} {x : Lane} (hack : x.ackReq = true) :
    (s.lastCopyEnded p l x t).lane p l = none ∧ (∀ w, w ∈ (s.lastCopyEnded p l x t).mac.wins → w.queue = x.queue → w.tag = x.tag →
      w.isOpen = true) ∧ (s.lastCopyEnded p l x t).dram = s.dram := by
  have htxs := (s.setLane p l none).endJob_txs (.tx x.queue x.tag)
  have hdram := (s.setLane p l none).endJob_dram (.tx x.queue x.tag)
  rw [State.lastCopyEnded_eq hack]
  generalize (s.setLane p l none).endJob (.tx x.queue x.tag) = j at htxs hdram ⊢
  obtain ⟨lnk, hawake⟩ := j.awakeNoted_eq x.queue x.tag t
  refine ⟨?_, fun w hw hqueue htag => State.winOpened_isOpen _ _ _ hw hqueue htag, ?_⟩
  · rw [hawake, ← State.lane_setLane s p l none]
    exact State.lane_congr htxs p l
  · rw [hawake]
    exact hdram

section
variable {s : State} {tick p l : Nat} {x : Lane} {e : EchoResult} (hlane : s.lane p l = some x) (hphase : x.phase = .onLine)
  (hfall : x.fallEnd ≤ tick)
include hlane hphase hfall

theorem lastCopyEnd_opens (hkind : x.kind = .data) (hcopy : x.copies ≤ x.copy + 1) (hack : x.ackReq = true) :
    let t := ((s.atTick tick).transmissionEnd tick p l e).settle
    t.lane p l = none ∧ (∀ w, w ∈ t.mac.wins → w.queue = x.queue → w.tag = x.tag → w.isOpen = true) ∧ s.DramKept t := by
  obtain ⟨v, hexec, -, -, hdram, -, -, -⟩ := State.exists_adapted hlane hphase hfall e
  rw [State.laneEnded_last hphase hkind hcopy] at hexec
  obtain ⟨hfree, hopen, hdram'⟩ := State.lastCopyEnded_opens (s := v) (p := p) (l := l) (t := tick) hack
  obtain ⟨regs, lpt, hreset⟩ := (v.lastCopyEnded p l x tick).echoResetDue_eq p
  rw [hexec, hreset]
  refine ⟨?_, fun w hw => ?_, State.dramKept_settle (hdram'.trans hdram)⟩
  · exact (State.lane_congr (State.settle_txs _) p l).trans hfree
  · rw [State.settle_mac] at hw
    exact hopen w hw

end

/-- In its preamble or sync word a victim is cut with no pattern. -/
theorem Lane.cutAt_silent {x : Lane} {t : Nat} (h : (t - x.t0) / symTicks x.rate < x.preamble + 32) :
    x.cutAt t = { x with
      phase := .ending, copies := x.copy + 1, tEnd := t, phases := x.phases.take ((t - x.t0) / symTicks x.rate) } := by
  unfold Lane.cutAt
  simp only [decide_eq_true h, if_true]

/-- Later a victim sends S_cut. -/
theorem Lane.cutAt_pattern {x : Lane} {t : Nat} (h : x.preamble + 32 ≤ (t - x.t0) / symTicks x.rate) :
    x.cutAt t = { x with
      phase := .ending, copies := x.copy + 1, tEnd := t + airTicks x.rate 32
      phases := x.phases.take ((t - x.t0) / symTicks x.rate) ++ cutPhases x.sync } := by
  unfold Lane.cutAt
  simp only [decide_eq_false (Nat.not_lt.mpr h), Bool.false_eq_true, if_false]

/-- Settles O25: a cut is the lane's end with the message told that its attempt was not made; the end of a fall is what the line
remembers, what the cancellers have adapted to, and what the lane's frame asks for. -/
theorem transmissionsAreCutOrEnd : Obligations.TransmissionsAreCutOrEnd := by
  refine ⟨fun s tick n port lane x m txs htxs hlane hvictim hphase hbound hend hn hm hgoes htrain => ?_,
    fun s tick port lane x e lpt hlpt hlane hphase hfall => ⟨fun hkind hreset => ?_, fun hkind hcopy horphan hreset => ?_,
      fun hkind hcopy hack => ⟨_, rfl, lastCopyEnd_opens hlane hphase hfall hkind hcopy hack⟩⟩⟩
  · subst htxs hn
    obtain ⟨hevent, hcount, hcut, hmsg, hframe, hdram⟩ := victimCut_cuts hlane hvictim hphase hbound hend port.isLt hm hgoes htrain
    refine ⟨_, rfl, hevent, fun hsilent => ?_, fun hpattern => ?_, ⟨_, hmsg, rfl, rfl, rfl, rfl, ?_, rfl⟩, hframe, hdram⟩
    · rw [cutCounter, if_pos hsilent] at hcount
      exact ⟨hcount, hcut.trans (congrArg some (Lane.cutAt_silent hsilent))⟩
    · rw [cutCounter, if_neg (Nat.not_lt.mpr hpattern)] at hcount
      exact ⟨hcount, hcut.trans (congrArg some (Lane.cutAt_pattern hpattern))⟩
    · exact Bool.or_true _
  · subst hlpt
    obtain ⟨hfree, hhist, htaps, hcanc, hkept, hmarks, howed, hframe⟩ := ackEnd_frees (e := e) hlane hphase hfall port.isLt hkind hreset
    exact ⟨_, rfl, hfree, hhist, htaps, hcanc, hkept, hmarks, howed, hframe⟩
  · obtain ⟨hwait, hwad, hdram⟩ := copyEnd_waits (e := e) hlane hphase hfall port.isLt hkind hcopy horphan hreset
    exact ⟨_, _, rfl, rfl, hwait, s.le_copyInstant .., hwad, hdram⟩

end Sys2Proof.Machine

/-! ## Support of `BinBoundariesMeasureAndRead`: the parts of a phase-bin boundary (R66, R81, R142). -/

namespace Sys2Proof.Machine

/-! ### Reads of what is kept -/

section
variable {touched touched' : Nat → Prop} {s u v : State}

theorem State.regsKept_trans (h : s.RegsKept touched u) (k : u.RegsKept touched v) : s.RegsKept touched v :=
  fun pg off hn hf => (k pg off hn hf).trans (h pg off hn hf)

theorem State.regsKept_mono (h : s.RegsKept touched u) (ht : ∀ a, touched a → touched' a) : s.RegsKept touched' u :=
  fun pg off hn hf => h pg off (fun hh => hn (ht _ hh)) hf

theorem State.get_of_kept (h : s.RegsKept touched u) {pg : Nat} {f : Fld} (hn : ¬touched (addrOf pg f.off))
    (hpg : pg ≠ Pg.GLB ∧ pg ≠ Pg.HIF) (hf : f.off < 4096) : u.get pg f = s.get pg f :=
  congrArg f.of (h pg f.off hn (follows_eq_false hpg.1 hf fun he => absurd he hpg.2))

end

theorem addrOf_page {pg off : Nat} (h : off < 4096) : addrOf pg off / 4096 = pg := by
  unfold addrOf
  omega

theorem onPages_addrOf {pgs : List Nat} {pg off : Nat} (h : off < 4096) : onPages pgs (addrOf pg off) ↔ pg ∈ pgs := by
  unfold onPages
  rw [addrOf_page h]

/-- A safe point of a page with no set armed changes nothing. -/
theorem State.safeAll_of_unarmed {s : State} {pg : Nat} (h : s.flag pg CFG.ARMED = false) : s.safeAll pg = s :=
  if_neg fun harmed => Bool.false_ne_true (h.symm.trans harmed)

/-! ### The timebase's part (R66, R73, R75) -/

section
variable (t : Nat) (s : State)

/-- What the timebase keeps when it has followed the half-cycle of tick `t`. -/
def State.accMtb : MtbSt :=
  if s.countsAt t / 32768 % 2 ^ 33 = s.mtb.halfIdx then s.mtb
  else { s.mtb with halfIdx := s.countsAt t / 32768 % 2 ^ 33, accEff := s.get Pg.MTB MTB.ACC_PHASE, c0Eff := s.get Pg.MTB MTB.C0_PHASE }

theorem State.accFollow_eq : s.accFollow t = s.withMtb (s.accMtb t) := by
  unfold State.accFollow State.accMtb
  dsimp only
  split
  · rfl
  · rfl

/-- Following a half-cycle leaves the clock's own fields alone. -/
theorem State.accMtb_clock : (s.accMtb t).phi = s.mtb.phi ∧ (s.accMtb t).anchor = s.mtb.anchor ∧
    (s.accMtb t).holdEnd = s.mtb.holdEnd ∧ (s.accMtb t).slewEnd = s.mtb.slewEnd ∧ (s.accMtb t).slew = s.mtb.slew := by
  unfold State.accMtb
  split <;> exact ⟨rfl, rfl, rfl, rfl, rfl⟩

theorem State.phiAt_accFollow (t' : Nat) : (s.accFollow t).phiAt t' = s.phiAt t' := by
  obtain ⟨hphi, hanchor, hhold, hend, hslew⟩ := s.accMtb_clock t
  rw [State.accFollow_eq, State.phiAt_withMtb s hphi hanchor hhold hend hslew]

end

/-- Phase counts depend on the timebase's STATE, CYCLE and NOMINAL, and on the clock. -/
theorem State.countsAt_congr {s u : State} {t : Nat} (htb : u.tb = s.tb) (hcycle : u.get Pg.MTB MTB.CYCLE = s.get Pg.MTB MTB.CYCLE)
    (hnominal : u.get Pg.MTB MTB.NOMINAL = s.get Pg.MTB MTB.NOMINAL) (hphi : u.phiAt t = s.phiAt t) : u.countsAt t = s.countsAt t := by
  unfold State.countsAt State.freeCounts State.tbNominal State.flag
  rw [htb, hcycle, hnominal, hphi]

theorem State.countsAt_accFollow (s : State) (t t' : Nat) : (s.accFollow t).countsAt t' = s.countsAt t' := by
  refine State.countsAt_congr ?_ ?_ ?_ (s.phiAt_accFollow t t')
  all_goals rw [State.accFollow_eq]
  · exact State.tb_withMtb _ _
  · exact State.withMtb_get _ _ _ _
  · exact State.withMtb_get _ _ _ _

/-- At a new half-cycle the access phases that are active take effect, whatever half-cycle was followed before. -/
theorem State.accFollow_takes {s : State} {t t' : Nat} (h : s.countsAt t / 32768 % 2 ^ 33 ≠ s.mtb.halfIdx) :
    ((s.accFollow t').accFollow t).mtb.accEff = s.get Pg.MTB MTB.ACC_PHASE ∧
      ((s.accFollow t').accFollow t).mtb.c0Eff = s.get Pg.MTB MTB.C0_PHASE := by
  have hacc : (s.accFollow t').get Pg.MTB MTB.ACC_PHASE = s.get Pg.MTB MTB.ACC_PHASE := by
    rw [State.accFollow_eq, State.withMtb_get]
  have hc0 : (s.accFollow t').get Pg.MTB MTB.C0_PHASE = s.get Pg.MTB MTB.C0_PHASE := by
    rw [State.accFollow_eq, State.withMtb_get]
  have hcounts := s.countsAt_accFollow t' t
  have hfollowed : (s.accFollow t').mtb = s.accMtb t' := by rw [State.accFollow_eq, State.withMtb_mtb]
  rw [State.accFollow_eq t, State.withMtb_mtb, State.accMtb, hcounts, hacc, hc0, hfollowed]
  unfold State.accMtb
  by_cases hsame : s.countsAt t' / 32768 % 2 ^ 33 = s.mtb.halfIdx
  · rw [if_pos hsame, if_neg h]
    exact ⟨rfl, rfl⟩
  · rw [if_neg hsame]
    split
    · exact ⟨rfl, rfl⟩
    · exact ⟨rfl, rfl⟩

/-- The safe point of the timebase's page with no set armed only follows the half-cycle. -/
theorem State.tbSafePoint_of_unarmed {s : State} (h : s.flag Pg.MTB CFG.ARMED = false) : s.tbSafePoint = s.accFollow s.time := by
  have hunarmed : (s.accFollow s.time).flag Pg.MTB CFG.ARMED = false := by
    rw [State.accFollow_eq, State.withMtb_flag, h]
  unfold State.tbSafePoint
  generalize s.accFollow s.time = u at hunarmed ⊢
  dsimp only
  rw [State.safeAll_of_unarmed hunarmed]
  have hsame : decide (u.tbNominal ≠ u.tbNominal) = false := decide_eq_false (fun h => h rfl)
  rw [hsame, Bool.false_and, onlyIf_false, if_pos rfl]

/-- HOLD_MS follows the time in HOLDOVER. -/
def State.holdShown (t : Nat) (s : State) : State :=
  onlyIf (decide (s.tb = TB.HOLDOVER)) (fun s => s.put Pg.MTB MTB.HOLD_MS (sat 16 ((t - s.mtb.holdStart) / 2048))) s

theorem State.tbBoundary_eq (s : State) (t : Nat) : s.tbBoundary t = ((s.accFollow t).holdShown t).withMtb
    { ((s.accFollow t).holdShown t).mtb with lastBin := s.binAt t, boundary := t } := rfl

theorem State.unitsOnly_holdShown (s : State) (t : Nat) : s.UnitsOnly (onPages [Pg.MTB]) (s.holdShown t) := by
  unfold State.holdShown onlyIf
  split
  · exact (State.unitsOnly_refl _ s).put _ ((onPages_addrOf (by decide)).mpr List.mem_cons_self)
  · exact State.unitsOnly_refl _ s

/-- The time in HOLDOVER shows in HOLD_MS alone. -/
theorem State.get_holdShown_beside (s : State) (t : Nat) {f : Fld} (h : MTB.HOLD_MS.off ≠ f.off ∨ f.lsb + f.w ≤ MTB.HOLD_MS.lsb) :
    (s.holdShown t).get Pg.MTB f = s.get Pg.MTB f := by
  unfold State.holdShown onlyIf
  split
  · exact State.get_put_beside _ _ _ _ _ ⟨by decide, h.imp_right .inl⟩
  · rfl

theorem State.holdShown_keeps (s : State) (t : Nat) : (s.holdShown t).mtb = s.mtb ∧ (s.holdShown t).txs = s.txs ∧
    (s.holdShown t).mac = s.mac ∧ (s.holdShown t).dram = s.dram := by
  unfold State.holdShown onlyIf
  split
  · exact ⟨State.put_mtb .., State.put_txs .., State.put_mac .., State.put_dram ..⟩
  · exact ⟨rfl, rfl, rfl, rfl⟩

/-- What the timebase's part of a boundary at tick `t` leads to. -/
structure State.BinNoted (t : Nat) (s u : State) : Prop where
  frame : s.UnitsOnly (onPages [Pg.MTB]) u
  txs : u.txs = s.txs
  mac : u.mac = s.mac
  lastBin : u.mtb.lastBin = s.binAt t
  boundary : u.mtb.boundary = t
  takes : s.countsAt t / 32768 % 2 ^ 33 ≠ s.mtb.halfIdx →
    u.mtb.accEff = s.get Pg.MTB MTB.ACC_PHASE ∧ u.mtb.c0Eff = s.get Pg.MTB MTB.C0_PHASE
  tb : u.tb = s.tb
  binAt : ∀ t', u.binAt t' = s.binAt t'

theorem State.binAt_congr {s u : State} {t : Nat} (h : u.countsAt t = s.countsAt t) : u.binAt t = s.binAt t := by
  rw [State.binAt, State.phaseAt, h, State.binAt, State.phaseAt]

theorem State.binNoted_tbBoundary {s : State} {t : Nat} (h : s.flag Pg.MTB CFG.ARMED = false) :
    s.BinNoted t (s.tbSafePoint.tbBoundary t) := by
  rw [State.tbSafePoint_of_unarmed h, State.tbBoundary_eq]
  have hbin : ∀ t', (s.accFollow s.time).binAt t' = s.binAt t' := fun t' => State.binAt_congr (s.countsAt_accFollow s.time t')
  have htakes := fun hnew => State.accFollow_takes (s := s) (t := t) (t' := s.time) hnew
  have hframe : s.UnitsOnly (onPages [Pg.MTB]) ((s.accFollow s.time).accFollow t) := by
    rw [State.accFollow_eq, State.accFollow_eq]
    exact ((State.unitsOnly_refl _ s).withMtb _).withMtb _
  have htxs : ((s.accFollow s.time).accFollow t).txs = s.txs := by
    rw [State.accFollow_eq, State.withMtb_txs, State.accFollow_eq, State.withMtb_txs]
  have hmac : ((s.accFollow s.time).accFollow t).mac = s.mac := by
    rw [State.accFollow_eq, State.withMtb_mac, State.accFollow_eq, State.withMtb_mac]
  have hget : ∀ f, ((s.accFollow s.time).accFollow t).get Pg.MTB f = s.get Pg.MTB f := fun f => by
    rw [State.accFollow_eq, State.withMtb_get, State.accFollow_eq, State.withMtb_get]
  have hphi : ∀ t', ((s.accFollow s.time).accFollow t).phiAt t' = s.phiAt t' := fun t' => by
    rw [State.phiAt_accFollow, State.phiAt_accFollow]
  rw [hbin]
  generalize (s.accFollow s.time).accFollow t = u at htakes hframe htxs hmac hget hphi ⊢
  obtain ⟨hmtb', htxs', hmac', -⟩ := u.holdShown_keeps t
  have hget' : ∀ f : Fld, MTB.HOLD_MS.off ≠ f.off ∨ f.lsb + f.w ≤ MTB.HOLD_MS.lsb → (u.holdShown t).get Pg.MTB f = s.get Pg.MTB f :=
    fun f hf => (u.get_holdShown_beside t hf).trans (hget f)
  have htb : (u.holdShown t).tb = s.tb := hget' _ (.inr (by decide))
  have hphi' : ∀ t', (u.holdShown t).phiAt t' = s.phiAt t' := fun t' =>
    (State.phiAt_congr (hget' _ (.inr (by decide)) |>.trans (hget _).symm) (hget' _ (.inl (by decide)) |>.trans (hget _).symm)
      (by rw [hmtb']) (by rw [hmtb']) (by rw [hmtb']) (by rw [hmtb']) (by rw [hmtb']) t').trans (hphi t')
  have hunits := hframe.trans (u.unitsOnly_holdShown t)
  generalize u.holdShown t = v at hmtb' htxs' hmac' hget' htb hphi' hunits
  refine ⟨hunits.withMtb _, ?_, ?_, ?_, ?_, fun hnew => ?_, ?_, fun t' => State.binAt_congr (State.countsAt_congr ?_ ?_ ?_ ?_)⟩
  · rw [State.withMtb_txs, htxs', htxs]
  · rw [State.withMtb_mac, hmac', hmac]
  · rw [State.withMtb_mtb]
  · rw [State.withMtb_mtb]
  · obtain ⟨hacc, hc0⟩ := htakes hnew
    rw [State.withMtb_mtb, hmtb']
    exact ⟨hacc, hc0⟩
  · rw [State.tb_withMtb, htb]
  · rw [State.tb_withMtb, htb]
  · rw [State.withMtb_get, hget' _ (.inl (by decide))]
  · rw [State.withMtb_get, hget' _ (.inl (by decide))]
  · exact (State.phiAt_withMtb v rfl rfl rfl rfl rfl t').trans (hphi' t')

end Sys2Proof.Machine

/-! ### The ports' part (R81, R84) -/

namespace Sys2Proof.Machine

/-- Between `s` and `u` nothing has changed but registers of the page of port p, what line ports keep, and the side log. -/
structure State.PortOnly (p : Nat) (s u : State) : Prop where
  kept : s.RegsKept (onPages [Pg.LPT p]) u
  rest : u = { s with regs := u.regs, lpt := u.lpt, mir := u.mir, dram := u.dram }

section
variable {p : Nat} {s u : State}

theorem State.portOnly_refl (p : Nat) (s : State) : s.PortOnly p s := ⟨fun _ _ _ _ => rfl, rfl⟩

section
variable (h : s.PortOnly p u)
include h

theorem State.PortOnly.setReg {off : Nat} (v : Word) (ho : off < 4096) : s.PortOnly p (u.setReg (Pg.LPT p) off v) :=
  ⟨State.regsKept_setReg h.kept v ((onPages_addrOf ho).mpr List.mem_cons_self), congrArg (State.setReg (Pg.LPT p) off v) h.rest⟩

theorem State.PortOnly.put {f : Fld} (v : Nat) (hf : f.off < 4096) : s.PortOnly p (u.put (Pg.LPT p) f v) := h.setReg _ hf

theorem State.PortOnly.event (f : Fld) : s.PortOnly p (u.event (Pg.LPT p) f) := h.setReg _ (by decide)

theorem State.PortOnly.count {f : Fld} (hf : f.off < 4096) : s.PortOnly p (u.count (Pg.LPT p) f) := by
  unfold State.count State.countBy
  split
  · exact h
  · exact h.put _ hf

theorem State.PortOnly.setLpt (q : Nat) (x : LptSt) : s.PortOnly p (u.setLpt q x) := by
  have hr := congrArg (State.setLpt q x) h.rest
  exact ⟨State.regsKept_of_regs h.kept rfl, hr⟩

theorem State.PortOnly.modLpt (q : Nat) (f : LptSt → LptSt) : s.PortOnly p (u.modLpt q f) := h.setLpt _ _

theorem State.PortOnly.sideLog (tick kind port data span : Nat) : s.PortOnly p (u.sideLog tick kind port data span) := by
  unfold State.sideLog
  split
  · exact h
  · dsimp only
    split
    · exact h
    · obtain ⟨hk, hr⟩ := h
      rw [hr]
      exact ⟨hk, rfl⟩

theorem State.PortOnly.setEna (on : Bool) (t : Nat) : s.PortOnly p (u.setEna p on t) := by
  unfold State.setEna
  split
  · exact h
  · dsimp only
    split
    · exact (h.put _ (by decide)).setLpt _ _
    · exact h.put _ (by decide)

theorem State.PortOnly.loudSample (at_ : Option Nat) (t : Nat) : s.PortOnly p (u.loudSample p at_ t) := by
  unfold State.loudSample
  split
  · exact h.modLpt _ _
  · exact h

theorem State.PortOnly.gainTo (g t : Nat) : s.PortOnly p (u.gainTo p g t) := by
  unfold State.gainTo
  dsimp only
  split
  · exact h
  · exact ((((h.put _ (by decide)).event _).count (by decide)).modLpt _ _).sideLog _ _ _ _ _

theorem State.PortOnly.gainBoundary (t : Nat) : s.PortOnly p (u.gainBoundary p t) := by
  have hovl : ∀ c : Bool, s.PortOnly p (onlyIf c (fun s => s.modLpt p fun x => { x with ovl := false }) u) := fun c => by
    cases c with
    | false => exact h
    | true =>
      rw [onlyIf_true]
      exact h.modLpt _ _
  unfold State.gainBoundary
  dsimp only
  split
  · exact (hovl _).gainTo _ _
  · split
    · exact hovl _
    · split
      · exact (hovl _).gainTo _ _
      · exact hovl _

end
end

theorem State.regs_sideLog (s : State) (tick kind port data span : Nat) : (s.sideLog tick kind port data span).regs = s.regs := by
  unfold State.sideLog
  split
  · rfl
  · dsimp only
    split <;> rfl

/-- A gain step leaves the peak of the bin alone. -/
theorem State.get_gainTo_peak (s : State) (p g t : Nat) :
    (s.gainTo p g t).get (Pg.LPT p) LPT.BIN_PEAK = s.get (Pg.LPT p) LPT.BIN_PEAK := by
  unfold State.gainTo
  dsimp only
  split
  · rfl
  · rw [State.get_congr (State.regs_sideLog _ _ _ _ _ _), State.modLpt, State.setLpt_get, State.get_count_beside _ (by decide),
      State.get_event_beside _ _ _ _ (by decide), State.get_put_beside _ _ _ _ _ (by decide)]

theorem State.get_gainBoundary_peak (s : State) (p t : Nat) :
    (s.gainBoundary p t).get (Pg.LPT p) LPT.BIN_PEAK = s.get (Pg.LPT p) LPT.BIN_PEAK := by
  have hovl : ∀ c : Bool, (onlyIf c (fun s => s.modLpt p fun x => { x with ovl := false }) s).get (Pg.LPT p) LPT.BIN_PEAK =
      s.get (Pg.LPT p) LPT.BIN_PEAK := fun c => by
    cases c with
    | false => rfl
    | true => rfl
  unfold State.gainBoundary
  dsimp only
  split
  · rw [State.get_gainTo_peak, hovl]
  · split
    · exact hovl _
    · split
      · rw [State.get_gainTo_peak, hovl]
      · exact hovl _

/-- LPn_ENA as a boundary drives it. -/
def State.enaDriven (t p : Nat) (s : State) : State :=
  onlyIf (decide (s.lps p = LS.SERVICE) && decide (s.get (Pg.LPT p) LPT.ENA_MODE = 1) && s.domOn (112 + p)) (State.setEna p true t) s

/-- The peak of the bin that ended, outside OFF. -/
def State.peakShown (p : Nat) (peak : PortPeak) (s : State) : State :=
  onlyIf (decide (s.tb ≠ TB.OFF)) (fun s => s.put (Pg.LPT p) LPT.BIN_PEAK peak.peak.toNat) s

/-- Whether a port delivers samples depends on page CAV, on the port's STATE and on its receiver's power. -/
theorem State.portSamples_congr {s u : State} {p : Nat} (hcav : ∀ f : Fld, f.off < 4096 → u.get Pg.CAV f = s.get Pg.CAV f)
    (hstate : u.get (Pg.LPT p) LPT.STATE = s.get (Pg.LPT p) LPT.STATE)
    (hpower : u.get Pg.PWD1 (PWD1.STATE.nth (96 + p)) = s.get Pg.PWD1 (PWD1.STATE.nth (96 + p))) :
    u.portSamples p = s.portSamples p := by
  unfold State.portSamples State.deepenSlave State.cavState State.domOn State.flag
  rw [hcav _ (by decide), hcav _ (by decide), hcav _ (by decide), hstate, hpower]

theorem pwdState_off {d : Nat} (h : d < 256) : (PWD1.STATE.nth d).off < 4096 := by
  have hoff : (PWD1.STATE.nth d).off = 0x400 + 4 * d := rfl
  omega

section
variable {s : State} {t p : Nat} {peak : PortPeak} (h : s.flag (Pg.LPT p) CFG.ARMED = false)
include h

theorem State.lptBoundary_eq : s.lptBoundary t p peak = if s.domOn (96 + p) = false then s else
    if (s.enaDriven t p).portSamples p = true then (((s.enaDriven t p).peakShown p peak).loudSample p peak.loud t).gainBoundary p t
    else s.enaDriven t p := by
  unfold State.lptBoundary
  dsimp only
  rw [State.safeAll_of_unarmed h]
  rfl

omit h in
theorem State.portOnly_enaDriven (t p : Nat) (s : State) : s.PortOnly p (s.enaDriven t p) := by
  unfold State.enaDriven onlyIf
  split
  · exact (State.portOnly_refl p s).setEna _ _
  · exact State.portOnly_refl p s

omit h in
/-- Driving LPn_ENA shows in ENA alone. -/
theorem State.get_enaDriven_beside (t p : Nat) (s : State) {pg : Nat} {f : Fld}
    (hf : addrOf (Pg.LPT p) LPT.ENA.off ≠ addrOf pg f.off ∨ (pg = Pg.LPT p ∧ f.lsb + f.w ≤ LPT.ENA.lsb)) :
    (s.enaDriven t p).get pg f = s.get pg f := by
  have hput : ∀ v, (s.put (Pg.LPT p) LPT.ENA v).get pg f = s.get pg f := fun v => by
    rcases hf with hoff | ⟨rfl, hbits⟩
    · exact State.get_put_other _ _ hoff
    · exact State.get_put_beside _ _ _ _ _ ⟨by decide, .inr (.inl hbits)⟩
  unfold State.enaDriven onlyIf State.setEna
  split
  · split
    · rfl
    · exact (State.setLpt_get _ _ _ _ _).trans (hput _)
  · rfl

theorem State.portOnly_lptBoundary : s.PortOnly p (s.lptBoundary t p peak) := by
  have hena := State.portOnly_enaDriven t p s
  rw [State.lptBoundary_eq h]
  split
  · exact State.portOnly_refl p s
  · split
    · have hpeak : s.PortOnly p ((s.enaDriven t p).peakShown p peak) := by
        unfold State.peakShown onlyIf
        split
        · exact hena.put _ (by decide)
        · exact hena
      exact (hpeak.loudSample _ _).gainBoundary _
    · exact hena

/-- A port that delivers samples shows the peak of the bin that ended. -/
theorem State.get_lptBoundary_peak (hp : p < 16) (htb : s.tb ≠ TB.OFF) (hdom : s.domOn (96 + p) = true) (hsamples : s.portSamples p = true) :
    (s.lptBoundary t p peak).get (Pg.LPT p) LPT.BIN_PEAK = peak.peak.toNat := by
  have hother : ∀ pg f, Pg.LPT p ≠ pg → f.off < 4096 → (s.enaDriven t p).get pg f = s.get pg f := fun pg f hpg hf =>
    s.get_enaDriven_beside t p (.inl fun he => hpg (addrOf_inj (by decide) hf he).1)
  have hcav : ∀ f, f.off < 4096 → (s.enaDriven t p).get Pg.CAV f = s.get Pg.CAV f := fun f hf =>
    hother _ f (by unfold Pg.LPT Pg.CAV; omega) hf
  have hstate : (s.enaDriven t p).get (Pg.LPT p) LPT.STATE = s.get (Pg.LPT p) LPT.STATE :=
    s.get_enaDriven_beside t p (.inr ⟨rfl, by decide⟩)
  have hpower : (s.enaDriven t p).get Pg.PWD1 (PWD1.STATE.nth (96 + p)) = s.get Pg.PWD1 (PWD1.STATE.nth (96 + p)) :=
    hother _ _ (by unfold Pg.LPT Pg.PWD1; omega) (pwdState_off (by omega))
  have hdelivers : (s.enaDriven t p).portSamples p = true := by
    rw [State.portSamples_congr hcav hstate hpower, hsamples]
  have hrunning : (s.enaDriven t p).tb ≠ TB.OFF := by
    rw [State.tb, hother _ _ (by unfold Pg.LPT Pg.MTB; omega) (by decide)]
    exact htb
  have hloud : ∀ u : State, (u.loudSample p peak.loud t).get (Pg.LPT p) LPT.BIN_PEAK = u.get (Pg.LPT p) LPT.BIN_PEAK := fun u => by
    unfold State.loudSample
    split
    · rw [State.modLpt, State.setLpt_get]
    · rfl
  rw [State.lptBoundary_eq h, if_neg (by rw [hdom]; exact Bool.true_eq_false.mp), if_pos hdelivers, State.get_gainBoundary_peak,
    hloud, State.peakShown, decide_eq_true hrunning, onlyIf_true, State.get_put_same _ _ _ _ (by decide)]
  exact Nat.mod_eq_of_lt peak.peak.isLt

end

end Sys2Proof.Machine

/-! ### All ports, and the noise map's part (R81, R145, R164) -/

namespace Sys2Proof.Machine

/-- What steps 0 to n - 1 lead to, when each step leads from what the earlier ones lead to. -/
theorem forEach_range_reaches (motive : Nat → State → Prop) (g : Nat → State → State) {n : Nat} {s : State} (h0 : motive 0 s)
    (hstep : ∀ i u, i < n → motive i u → motive (i + 1) (g i u)) : motive n (forEach (List.range n) g s) := by
  induction n with
  | zero => exact h0
  | succ n ih =>
    rw [forEach_range_succ]
    exact hstep n _ (Nat.lt_succ_self n) (ih fun i u hi => hstep i u (by omega))

/-- A port's part of a boundary. -/
def State.portBoundary (t : Nat) (peaks : List PortPeak) (p : Nat) (s : State) : State :=
  (s.lptBoundary t p (peaks.getD p ⟨0, none⟩)).tapsSafe p

theorem State.boundaryParts_eq (t : Nat) (peaks : List PortPeak) (s : State) :
    s.boundaryParts t peaks = ((forEach (List.range 16) (State.portBoundary t peaks) s).safeAll Pg.ERGX).nmapSafe := rfl

/-- Between `s` and `u` nothing has changed but registers of the pages of the first `n` ports, what line ports keep, and the side
log. -/
structure State.PortsOnly (n : Nat) (s u : State) : Prop where
  kept : s.RegsKept (fun a => ∃ p, p < n ∧ onPages [Pg.LPT p] a) u
  rest : u = { s with regs := u.regs, lpt := u.lpt, mir := u.mir, dram := u.dram }

theorem State.portsOnly_refl (s : State) : s.PortsOnly 0 s := ⟨fun _ _ _ _ => rfl, rfl⟩

theorem lptPage_ne {p q : Nat} (h : p ≠ q) : Pg.LPT q ≠ Pg.LPT p := by
  unfold Pg.LPT
  omega

section
variable {n : Nat} {s u v : State}

/-- Every field of another page than the ports' reads as before. -/
theorem State.PortsOnly.get (h : s.PortsOnly n u) {pg : Nat} {f : Fld} (hports : ∀ p, p < n → pg ≠ Pg.LPT p)
    (hpg : pg ≠ Pg.GLB ∧ pg ≠ Pg.HIF) (hf : f.off < 4096) : u.get pg f = s.get pg f :=
  State.get_of_kept h.kept (fun ⟨p, hp, hon⟩ => hports p hp (List.mem_singleton.mp ((onPages_addrOf hf).mp hon))) hpg hf

theorem State.PortsOnly.step (h : s.PortsOnly n u) (k : u.PortOnly n v) : s.PortsOnly (n + 1) v := by
  have hu : s.RegsKept (fun a => ∃ p, p < n + 1 ∧ onPages [Pg.LPT p] a) u :=
    State.regsKept_mono h.kept fun _ ⟨p, hp, hon⟩ => ⟨p, by omega, hon⟩
  have hv : u.RegsKept (fun a => ∃ p, p < n + 1 ∧ onPages [Pg.LPT p] a) v :=
    State.regsKept_mono k.kept fun _ hon => ⟨n, by omega, hon⟩
  refine ⟨State.regsKept_trans hu hv, ?_⟩
  have hrest := k.rest
  rw [h.rest] at hrest
  exact hrest

/-- The units that the ports' part leaves alone. -/
theorem State.PortsOnly.units (h : s.PortsOnly n u) :
    u.mtb = s.mtb ∧ u.wad = s.wad ∧ u.mac = s.mac ∧ u.txs = s.txs ∧ u.nmap = s.nmap ∧ u.erg = s.erg := by
  rw [h.rest]
  exact ⟨rfl, rfl, rfl, rfl, rfl, rfl⟩

/-- Safe points of taps that nobody has committed change nothing. -/
theorem State.tapsSafe_of_unarmed {p : Nat} (harmed : s.flag (Pg.TXS p) CFG.ARMED = false) (htaps : s.linkTaps p = []) :
    s.tapsSafe p = s := by
  unfold State.tapsSafe
  dsimp only
  rw [harmed, htaps]
  rfl

/-- What the ports' part of a boundary leads to for the first `n` ports. -/
structure State.PortsBounded (peaks : List PortPeak) (n : Nat) (s u : State) : Prop where
  frame : s.PortsOnly n u
  peaks : ∀ p, p < n → s.domOn (96 + p) = true → s.portSamples p = true →
    u.get (Pg.LPT p) LPT.BIN_PEAK = (peaks.getD p ⟨0, none⟩).peak.toNat

/-- One more port. -/
theorem State.PortsBounded.step {t : Nat} {peaks : List PortPeak} (h : s.PortsBounded peaks n u) (hn : n < 16) (htb : s.tb ≠ TB.OFF)
    (hlpt : s.flag (Pg.LPT n) CFG.ARMED = false) (htxs : s.flag (Pg.TXS n) CFG.ARMED = false) (htaps : s.linkTaps n = []) :
    s.PortsBounded peaks (n + 1) (u.portBoundary t peaks n) := by
  have hget : ∀ {pg : Nat} {f : Fld}, (∀ p, p < n → pg ≠ Pg.LPT p) → pg ≠ Pg.GLB ∧ pg ≠ Pg.HIF → f.off < 4096 →
      u.get pg f = s.get pg f := h.frame.get
  have hown : ∀ f : Fld, f.off < 4096 → u.get (Pg.LPT n) f = s.get (Pg.LPT n) f := fun f hf =>
    hget (fun p hp => lptPage_ne (by omega)) (by unfold Pg.LPT Pg.GLB Pg.HIF; omega) hf
  have hlpt' : u.flag (Pg.LPT n) CFG.ARMED = false := by rw [← hlpt, State.flag, hown _ (by decide), State.flag]
  have hport : u.PortOnly n (u.lptBoundary t n (peaks.getD n ⟨0, none⟩)) := State.portOnly_lptBoundary hlpt'
  have hall := h.frame.step hport
  have htaps' : (u.lptBoundary t n (peaks.getD n ⟨0, none⟩)).tapsSafe n = u.lptBoundary t n (peaks.getD n ⟨0, none⟩) := by
    apply State.tapsSafe_of_unarmed
    · rw [← htxs, State.flag, State.flag, hall.get (fun p hp => by unfold Pg.TXS Pg.LPT; omega)
        (by unfold Pg.TXS Pg.GLB Pg.HIF; omega) (by decide)]
    · rw [State.linkTaps, hall.rest]
      exact htaps
  have hpower : ∀ p, p < 16 → u.get Pg.PWD1 (PWD1.STATE.nth (96 + p)) = s.get Pg.PWD1 (PWD1.STATE.nth (96 + p)) := fun p hp =>
    hget (fun q hq => by unfold Pg.PWD1 Pg.LPT; omega) (by decide) (pwdState_off (by omega))
  rw [State.portBoundary, htaps']
  refine ⟨hall, fun p hp hdom hsamples => ?_⟩
  rcases Nat.lt_succ_iff_lt_or_eq.mp hp with hlt | rfl
  · rw [State.get_of_kept hport.kept (fun hon => lptPage_ne (by omega) (List.mem_singleton.mp ((onPages_addrOf (by decide)).mp hon)))
      (by unfold Pg.LPT Pg.GLB Pg.HIF; omega) (by decide)]
    exact h.peaks p hlt hdom hsamples
  · apply State.get_lptBoundary_peak hlpt' hn
    · rw [State.tb, hget (fun q hq => by unfold Pg.MTB Pg.LPT; omega) (by decide) (by decide)]
      exact htb
    · rw [State.domOn, hpower p hn]
      exact hdom
    · rw [State.portSamples_congr (fun f hf => hget (fun q hq => by unfold Pg.CAV Pg.LPT; omega) (by decide) hf)
        (hown _ (by decide)) (hpower p hn), hsamples]

theorem State.portsBounded_refl (peaks : List PortPeak) (s : State) : s.PortsBounded peaks 0 s :=
  ⟨s.portsOnly_refl, fun p hp => absurd hp (Nat.not_lt_zero p)⟩

theorem State.portsBounded_boundary {t : Nat} (peaks : List PortPeak) (htb : s.tb ≠ TB.OFF)
    (hports : ∀ p, p < 16 → s.flag (Pg.LPT p) CFG.ARMED = false ∧ s.flag (Pg.TXS p) CFG.ARMED = false ∧ s.linkTaps p = []) :
    s.PortsBounded peaks 16 (forEach (List.range 16) (State.portBoundary t peaks) s) := by
  refine forEach_range_reaches (s.PortsBounded peaks) _ (s.portsBounded_refl peaks) fun n u hn hu => ?_
  obtain ⟨hlpt, htxs, htaps⟩ := hports n hn
  exact hu.step hn htb hlpt htxs htaps

end

/-! ### The noise map's part -/

/-- The registers in which the noise map shows its stale cells. -/
def staleRegs : List (Nat × Nat) :=
  [(Pg.NMAP, NMAP.STALE_CELLS.off), (Pg.NMAP, NMAP.OLDEST_AGE.off), (Pg.NMAP, CMN.EVENTS)]

/-- The state with `x` stale cells and the oldest age `y` shown. -/
def State.staleShown (x y : Nat) (s : State) : State := (s.put Pg.NMAP NMAP.STALE_CELLS x).put Pg.NMAP NMAP.OLDEST_AGE y

theorem State.staleShown_keeps (s : State) (x y : Nat) : s.RegsKept (regsAt staleRegs) (s.staleShown x y) ∧
    s.staleShown x y = { s with regs := (s.staleShown x y).regs } :=
  ⟨State.regsKept_put (State.regsKept_put (fun _ _ _ _ => rfl) _ (regsAt_of_mem (by decide))) _ (regsAt_of_mem (by decide)), rfl⟩

/-- Showing the stale cells changes nothing but registers. -/
theorem State.followStale_keeps (s : State) : s.RegsKept (regsAt staleRegs) s.followStale ∧
    s.followStale = { s with regs := s.followStale.regs } := by
  have hshown : ∃ c x y, s.followStale = onlyIf c (State.event Pg.NMAP NMAP.EV_STALE) (s.staleShown x y) := ⟨_, _, _, rfl⟩
  obtain ⟨c, x, y, hfollowed⟩ := hshown
  obtain ⟨hkept, hrest⟩ := s.staleShown_keeps x y
  rw [hfollowed]
  cases c with
  | false =>
    rw [onlyIf_false]
    exact ⟨hkept, hrest⟩
  | true =>
    rw [onlyIf_true]
    exact ⟨State.regsKept_event hkept (regsAt_of_mem (by decide)), congrArg (State.event Pg.NMAP NMAP.EV_STALE) hrest⟩

theorem State.followStale_units (s : State) : s.followStale.mtb = s.mtb ∧ s.followStale.wad = s.wad ∧ s.followStale.mac = s.mac ∧
    s.followStale.txs = s.txs ∧ s.followStale.nmap = s.nmap ∧ s.followStale.erg = s.erg := by
  rw [s.followStale_keeps.2]
  exact ⟨rfl, rfl, rfl, rfl, rfl, rfl⟩

end Sys2Proof.Machine

/-! ### The cells that engines read (R142) -/

namespace Sys2Proof.Machine

/-- The registers CELL_NOW of the 256 engines. -/
def cellRegs (a : Nat) : Prop := ∃ c, c < 256 ∧ regsAt [(Pg.ERG (c / 4), (ERG.CELL_NOW.nth (c % 4)).off)] a

theorem cellNow_off (k : Nat) : (ERG.CELL_NOW.nth k).off = 0x118 + 64 * k := rfl

/-- No other register is one of them. -/
theorem not_cellRegs {pg off : Nat} (h : (∀ q, q < 64 → pg ≠ Pg.ERG q) ∨ ∀ k, k < 4 → off ≠ 0x118 + 64 * k) (hoff : off < 4096) :
    ¬cellRegs (addrOf pg off) := by
  rintro ⟨c, hc, hat⟩
  have haddr : addrOf pg off = addrOf (Pg.ERG (c / 4)) (0x118 + 64 * (c % 4)) := List.mem_singleton.mp hat
  obtain ⟨hpage, hreg⟩ := addrOf_inj hoff (by omega) haddr
  rcases h with h | h
  · exact h _ (by omega) hpage
  · exact h _ (by omega) hreg

/-- The bin of an instant depends on the timebase's page and on its clock. -/
theorem State.binAt_of_page {s u : State} (hmtb : u.mtb = s.mtb) (hget : ∀ f : Fld, f.off < 4096 → u.get Pg.MTB f = s.get Pg.MTB f)
    (t : Nat) : u.binAt t = s.binAt t := by
  have htb : u.tb = s.tb := hget _ (by decide)
  have hphi : u.phiAt t = s.phiAt t := State.phiAt_congr htb (hget _ (by decide)) (by rw [hmtb]) (by rw [hmtb]) (by rw [hmtb])
    (by rw [hmtb]) (by rw [hmtb]) t
  exact State.binAt_congr (State.countsAt_congr htb (hget _ (by decide)) (hget _ (by decide)) hphi)

theorem State.chanCell_congr {s u : State} {t : Nat} (hnmap : u.nmap = s.nmap) (hbin : u.binAt t = s.binAt t) (p centre : Nat) :
    u.chanCell p centre t = s.chanCell p centre t := by
  rw [State.chanCell, State.chanCell, State.cell, State.cell, hbin, hnmap]

/-- Between `s` and `u` nothing has changed but CELL_NOW of engines and the cells that they keep for their symbols. -/
structure State.CellsOnly (s u : State) : Prop where
  kept : s.RegsKept cellRegs u
  rest : u = { s with regs := u.regs, erg := { s.erg with eng := u.erg.eng } }
  engs : ∀ c, u.eng c = { s.eng c with cells := (u.eng c).cells }

section
variable {s u : State} (h : s.CellsOnly u) {c : Nat}

theorem State.cellsOnly_refl (s : State) : s.CellsOnly s := ⟨fun _ _ _ _ => rfl, rfl, fun _ => rfl⟩

include h

theorem State.CellsOnly.setReg {pg off : Nat} (v : Word) (hreg : cellRegs (addrOf pg off)) : s.CellsOnly (u.setReg pg off v) :=
  ⟨State.regsKept_setReg h.kept v hreg, congrArg (State.setReg pg off v) h.rest, h.engs⟩

theorem State.CellsOnly.eput (v : Nat) (hc : c < 256) : s.CellsOnly (u.eput c ERG.CELL_NOW v) :=
  h.setReg _ ⟨c, hc, regsAt_of_mem List.mem_cons_self⟩

theorem State.CellsOnly.noteCell (c t : Nat) : s.CellsOnly (u.noteCell c t) := by
  unfold State.noteCell
  generalize (t, u.markCell c t) :: (u.eng c).cells = cells
  have hrest := congrArg (State.setEng c { u.eng c with cells := cells }) h.rest
  refine ⟨State.regsKept_of_regs h.kept rfl, hrest, fun j => ?_⟩
  rw [State.eng_setEng]
  split
  · subst_vars
    rw [h.engs]
  · exact h.engs j

theorem State.CellsOnly.get {pg : Nat} {f : Fld} (hf : (∀ q, q < 64 → pg ≠ Pg.ERG q) ∨ ∀ k, k < 4 → f.off ≠ 0x118 + 64 * k)
    (hpg : pg ≠ Pg.GLB ∧ pg ≠ Pg.HIF) (hoff : f.off < 4096) : u.get pg f = s.get pg f :=
  State.get_of_kept h.kept (not_cellRegs hf hoff) hpg hoff

/-- The units that the reads leave alone. -/
theorem State.CellsOnly.units : u.mtb = s.mtb ∧ u.wad = s.wad ∧ u.mac = s.mac ∧ u.txs = s.txs ∧ u.nmap = s.nmap ∧
    u.erg = { s.erg with eng := u.erg.eng } := by
  rw [h.rest]
  exact ⟨rfl, rfl, rfl, rfl, rfl, rfl⟩

/-- An engine's settings read as before. -/
theorem State.CellsOnly.eget {f : Fld} (hf : f.off + f.step * 3 < 0x118) : u.eget c f = s.eget c f := by
  have hoff : (f.nth (c % 4)).off < 0x118 := by
    have hle : f.step * (c % 4) ≤ f.step * 3 := Nat.mul_le_mul_left _ (by omega)
    have hnth : (f.nth (c % 4)).off = f.off + f.step * (c % 4) := rfl
    omega
  exact h.get (.inr fun k _ => by omega) (by unfold Pg.ERG Pg.GLB Pg.HIF; omega) (by omega)

/-- A channel's cell is read from the same map at the same bin. -/
theorem State.CellsOnly.chanCell (p centre t : Nat) : u.chanCell p centre t = s.chanCell p centre t := by
  refine State.chanCell_congr (by rw [h.rest]) (State.binAt_of_page (by rw [h.rest]) (fun f hf => ?_) t) p centre
  exact h.get (.inl fun q _ => by unfold Pg.MTB Pg.ERG; omega) (by decide) hf

end

/-! #### LIVE engines are listed -/

theorem mem_liveEngines_lt {s : State} {c : Nat} (h : c ∈ s.liveEngines) : c < 256 := by
  obtain ⟨q, hq, hmem⟩ := List.mem_flatMap.mp h
  have hq' := List.mem_range.mp hq
  split at hmem
  · obtain ⟨e, he, heq⟩ := List.mem_filterMap.mp hmem
    have he' := List.mem_range.mp he
    split at heq
    · obtain rfl := Option.some.inj heq
      omega
    · cases heq
  · cases hmem

theorem Tab.find?_none {α : Type} {t : Tab α} {k : Nat} (h : ∀ e, e ∈ t → e.1 ≠ k) : Tab.find? t k = none := by
  induction t with
  | nil => rfl
  | cons e t ih =>
    rw [Tab.find?, if_neg (h e List.mem_cons_self)]
    exact ih fun e he => h e (List.mem_cons_of_mem _ he)

theorem resetWord_erg {q off : Nat} (hq : q < 64) (hoff : off < 4096) (h0 : off ≠ 0) :
    resetWord (addrOf (Pg.ERG q) off) = BitVec.ofNat 32 (resetFields .erg off) := by
  have hindex : ∀ q, q < 64 → pageIndex (Pg.ERG q) = some (.erg, 0x40, q) := by decide
  have hmod : addrOf (Pg.ERG q) off % 4096 = off := by
    unfold addrOf
    omega
  unfold resetWord
  rw [addrOf_page hoff, hindex q hq, hmod]
  exact if_neg h0

/-- An engine whose page stands at reset is not LIVE. -/
theorem role_reset : ∀ k, k < 4 → (ERG.ROLE.nth k).of (BitVec.ofNat 32 (resetFields .erg (ERG.ROLE.nth k).off)) ≠ 1 := by decide

theorem State.mem_liveEngines {s : State} {c : Nat} (hc : c < 256) (h : s.isLive c = true) : c ∈ s.liveEngines := by
  have hoff : (ERG.ROLE.nth (c % 4)).off = 0x010 + 48 * (c % 4) := rfl
  have hrole : s.eget c ERG.ROLE = 1 := of_decide_eq_true h
  have hlisted : s.regs.any (fun e => decide (e.1 / 4096 = Pg.ERG (c / 4))) = true := by
    by_contra hnone
    have hno : ∀ e, e ∈ s.regs → e.1 ≠ addrOf (Pg.ERG (c / 4)) (ERG.ROLE.nth (c % 4)).off := fun e he haddr =>
      hnone (List.any_eq_true.mpr ⟨e, he, decide_eq_true (by rw [haddr, addrOf_page (by omega)])⟩)
    refine role_reset (c % 4) (by omega) ?_
    rw [← hrole, State.eget, State.get, State.reg, Tab.get, Tab.find?_none hno, Option.getD_none,
      resetWord_erg (by omega) (by omega) (by omega)]
  have hsplit : 4 * (c / 4) + c % 4 = c := Nat.div_add_mod c 4
  refine List.mem_flatMap.mpr ⟨c / 4, List.mem_range.mpr (by omega), ?_⟩
  rw [if_pos hlisted]
  exact List.mem_filterMap.mpr ⟨c % 4, List.mem_range.mpr (by omega), by rw [hsplit, if_pos h]⟩

/-! #### The reads -/

/-- What one of a list of steps leads to, and every later one keeps. -/
theorem forEach_does {α : Type} (motive done : State → Prop) (g : α → State → State) {l : List α} {a : α} {s : State} (ha : a ∈ l)
    (h0 : motive s) (hkeep : ∀ b u, b ∈ l → motive u → motive (g b u)) (hdo : ∀ u, motive u → done (g a u))
    (hstay : ∀ b u, b ∈ l → motive u → done u → done (g b u)) : done (forEach l g s) := by
  obtain ⟨before, after, rfl⟩ := List.append_of_mem ha
  rw [forEach, List.foldl_append, List.foldl_cons]
  have hthere : motive (forEach before g s) := forEach_keeps motive before g (fun b u hb => hkeep b u (List.mem_append_left _ hb)) h0
  have hlater : ∀ b, b ∈ after → b ∈ before ++ a :: after := fun b hb => List.mem_append_right _ (List.mem_cons_of_mem a hb)
  exact (forEach_keeps (fun u => motive u ∧ done u) after g
    (fun b u hb hu => ⟨hkeep b u (hlater b hb) hu.1, hstay b u (hlater b hb) hu.1 hu.2⟩) ⟨hkeep a _ ha hthere, hdo _ hthere⟩).2

/-- An engine reads the cell of its channel. -/
def State.cellShown (t c : Nat) (s : State) : State :=
  s.eput c ERG.CELL_NOW (s.chanCell (s.eget c ERG.PORT) (s.eget c ERG.CENTRE) t).toNat

/-- The LIVE engines that read their cells. -/
def State.cellReaders (s : State) : List Nat :=
  s.liveEngines.filter fun c => decide (s.eget c ERG.NMAP_ERASE = 1) && decide (4 ≤ s.est c) && decide (s.est c ≤ 8)

/-- The state after the reads of CELL_NOW. -/
def State.cellsRead (t : Nat) (s : State) : State := if s.binsMean = true then forEach s.cellReaders (State.cellShown t) s else s

theorem State.readCells_eq (s : State) (t : Nat) : s.readCells t =
    forEach ((s.cellsRead t).liveEngines.filter (s.cellsRead t).engBusy) (State.noteCell · t) (s.cellsRead t) := rfl

section
variable {s : State} {t c : Nat}

theorem State.mem_cellReaders_lt (h : c ∈ s.cellReaders) : c < 256 := mem_liveEngines_lt (List.mem_of_mem_filter h)

theorem State.cellsOnly_cellsRead (s : State) (t : Nat) : s.CellsOnly (s.cellsRead t) := by
  unfold State.cellsRead
  split
  · exact forEach_keeps s.CellsOnly _ _ (fun c u hc hu => hu.eput _ (State.mem_cellReaders_lt hc)) s.cellsOnly_refl
  · exact s.cellsOnly_refl

theorem State.cellsOnly_readCells (s : State) (t : Nat) : s.CellsOnly (s.readCells t) := by
  rw [State.readCells_eq]
  exact forEach_keeps s.CellsOnly _ _ (fun c u _ hu => hu.noteCell c t) (s.cellsOnly_cellsRead t)

/-- Two engines show their cells in two registers. -/
theorem State.eget_cellShown_other {u : State} {b : Nat} (h : b ≠ c) :
    (u.cellShown t b).eget c ERG.CELL_NOW = u.eget c ERG.CELL_NOW := by
  refine State.get_put_other _ _ fun haddr => h ?_
  have hoff := cellNow_off
  obtain ⟨hpage, hreg⟩ := addrOf_inj (by rw [hoff]; omega) (by rw [hoff]; omega) haddr
  rw [hoff, hoff] at hreg
  unfold Pg.ERG at hpage
  omega

theorem State.eget_readCells (hc : c < 256) (hlive : s.isLive c = true) (herase : s.eget c ERG.NMAP_ERASE = 1) (hfrom : 4 ≤ s.est c)
    (hto : s.est c ≤ 8) (hmean : s.binsMean = true) :
    (s.readCells t).eget c ERG.CELL_NOW = (s.chanCell (s.eget c ERG.PORT) (s.eget c ERG.CENTRE) t).toNat := by
  have hreader : c ∈ s.cellReaders := List.mem_filter.mpr
    ⟨State.mem_liveEngines hc hlive, by rw [decide_eq_true herase, decide_eq_true hfrom, decide_eq_true hto]; rfl⟩
  have hreads : ∀ u, s.CellsOnly u →
      (u.cellShown t c).eget c ERG.CELL_NOW = (s.chanCell (s.eget c ERG.PORT) (s.eget c ERG.CENTRE) t).toNat := fun u hu => by
    rw [State.cellShown, hu.chanCell, hu.eget (by decide), hu.eget (by decide)]
    exact (State.get_put_same u _ (ERG.CELL_NOW.nth (c % 4)) _ (Nat.le_refl 32)).trans (Nat.mod_eq_of_lt (BitVec.isLt _))
  have hread : (s.cellsRead t).eget c ERG.CELL_NOW = (s.chanCell (s.eget c ERG.PORT) (s.eget c ERG.CENTRE) t).toNat := by
    rw [State.cellsRead, if_pos hmean]
    refine forEach_does s.CellsOnly (fun u => u.eget c ERG.CELL_NOW = _) _ hreader s.cellsOnly_refl
      (fun b u hb hu => hu.eput _ (State.mem_cellReaders_lt hb)) hreads fun b u hb hu hdone => ?_
    by_cases hbc : b = c
    · subst hbc
      exact hreads u hu
    · rw [State.eget_cellShown_other hbc]
      exact hdone
  have hnoted : (s.readCells t).regs = (s.cellsRead t).regs := by
    rw [State.readCells_eq]
    exact forEach_keeps (fun u => u.regs = (s.cellsRead t).regs) _ (State.noteCell · t) (fun c u _ hu => hu) rfl
  rw [← hread]
  exact State.get_congr hnoted _ _

end

end Sys2Proof.Machine

/-! ### A whole boundary (R66, R81, R142) -/

namespace Sys2Proof.Machine

/-- The registers that the timebase's, the ports' and the noise map's parts of a boundary may change. -/
def partRegs (a : Nat) : Prop := onPages [Pg.MTB] a ∨ regsAt staleRegs a ∨ ∃ p, p < 16 ∧ onPages [Pg.LPT p] a

/-- The noise map shows its stale cells on its own page. -/
theorem page_of_staleRegs {pg off : Nat} (hoff : off < 4096) (h : regsAt staleRegs (addrOf pg off)) : pg = Pg.NMAP := by
  obtain ⟨e, he, haddr⟩ := List.mem_map.mp h
  have hpage : ∀ e ∈ staleRegs, e.1 = Pg.NMAP ∧ e.2 < 4096 := by decide
  obtain ⟨hpg, hlt⟩ := hpage e he
  exact (addrOf_inj hlt hoff haddr).1.symm.trans hpg

/-- A field of another page than the timebase's, the noise map's and the ports'. -/
theorem not_partRegs {pg off : Nat} (hmtb : pg ≠ Pg.MTB) (hnmap : pg ≠ Pg.NMAP) (hlpt : ∀ p, p < 16 → pg ≠ Pg.LPT p) (hoff : off < 4096) :
    ¬partRegs (addrOf pg off) := by
  rintro (hon | hat | ⟨p, hp, hon⟩)
  · exact hmtb (List.mem_singleton.mp ((onPages_addrOf hoff).mp hon))
  · exact hnmap (page_of_staleRegs hoff hat)
  · exact hlpt p hp (List.mem_singleton.mp ((onPages_addrOf hoff).mp hon))

/-- What those parts of a boundary at tick `t` lead to. -/
structure State.PartsBounded (t : Nat) (peaks : List PortPeak) (s u : State) : Prop where
  kept : s.RegsKept partRegs u
  wad : u.wad = s.wad
  mac : u.mac = s.mac
  txs : u.txs = s.txs
  nmap : u.nmap = s.nmap
  erg : u.erg = s.erg
  tb : u.tb = s.tb
  binAt : u.binAt t = s.binAt t
  lastBin : u.mtb.lastBin = s.binAt t
  boundary : u.mtb.boundary = t
  takes : s.countsAt t / 32768 % 2 ^ 33 ≠ s.mtb.halfIdx →
    u.mtb.accEff = s.get Pg.MTB MTB.ACC_PHASE ∧ u.mtb.c0Eff = s.get Pg.MTB MTB.C0_PHASE
  peaks : ∀ p, p < 16 → s.domOn (96 + p) = true → s.portSamples p = true →
    u.get (Pg.LPT p) LPT.BIN_PEAK = (peaks.getD p ⟨0, none⟩).peak.toNat

section
variable {s u v : State} {t : Nat} {peaks : List PortPeak}

/-- After the timebase's part every page but MTB reads as before. -/
theorem State.BinNoted.get (h : s.BinNoted t u) {pg : Nat} {f : Fld} (hmtb : pg ≠ Pg.MTB) (hpg : pg ≠ Pg.GLB ∧ pg ≠ Pg.HIF)
    (hf : f.off < 4096) : u.get pg f = s.get pg f :=
  State.get_of_kept h.frame.kept (fun hon => hmtb (List.mem_singleton.mp ((onPages_addrOf hf).mp hon))) hpg hf

/-- The noise map's part changes nothing outside its page. -/
theorem State.get_followStale (s : State) {pg : Nat} {f : Fld} (h : pg ≠ Pg.NMAP) (hpg : pg ≠ Pg.GLB ∧ pg ≠ Pg.HIF) (hf : f.off < 4096) :
    s.followStale.get pg f = s.get pg f :=
  State.get_of_kept s.followStale_keeps.1 (fun hat => h (page_of_staleRegs hf hat)) hpg hf

/-- The three parts, one after another. -/
theorem State.partsBounded_of_parts (hb : s.BinNoted t u) (hp : u.PortsBounded peaks 16 v) : s.PartsBounded t peaks v.followStale := by
  have hkept := v.followStale_keeps.1
  obtain ⟨hmtbW, hwadW, hmacW, htxsW, hnmapW, hergW⟩ := v.followStale_units
  obtain ⟨hmtbV, hwadV, hmacV, htxsV, hnmapV, hergV⟩ := hp.frame.units
  obtain ⟨hwadU, hnmapU, hergU⟩ : u.wad = s.wad ∧ u.nmap = s.nmap ∧ u.erg = s.erg := by
    rw [hb.frame.rest]
    exact ⟨rfl, rfl, rfl⟩
  have hfollowed : ∀ {pg : Nat} {f : Fld}, pg ≠ Pg.NMAP → pg ≠ Pg.GLB ∧ pg ≠ Pg.HIF → f.off < 4096 →
      v.followStale.get pg f = v.get pg f := v.get_followStale
  generalize v.followStale = w at hkept hmtbW hwadW hmacW htxsW hnmapW hergW hfollowed
  have hmtbPage : ∀ f : Fld, f.off < 4096 → w.get Pg.MTB f = u.get Pg.MTB f := fun f hf =>
    (hfollowed (by decide) (by decide) hf).trans (hp.frame.get (fun p hp => by unfold Pg.MTB Pg.LPT; omega) (by decide) hf)
  have hmtb : w.mtb = u.mtb := hmtbW.trans hmtbV
  have hpower : ∀ p, p < 16 → u.get Pg.PWD1 (PWD1.STATE.nth (96 + p)) = s.get Pg.PWD1 (PWD1.STATE.nth (96 + p)) := fun p hp =>
    hb.get (by decide) (by decide) (pwdState_off (by omega))
  refine ⟨?_, ?_, ?_, ?_, ?_, ?_, ?_, ?_, ?_, ?_, ?_, fun p hlt hdom hsamples => ?_⟩
  · have hports : u.RegsKept partRegs v := State.regsKept_mono hp.frame.kept fun _ hon => .inr (.inr hon)
    exact State.regsKept_trans (State.regsKept_trans (State.regsKept_mono hb.frame.kept fun _ => .inl) hports)
      (State.regsKept_mono hkept fun _ hat => .inr (.inl hat))
  · exact hwadW.trans (hwadV.trans hwadU)
  · exact hmacW.trans (hmacV.trans hb.mac)
  · exact htxsW.trans (htxsV.trans hb.txs)
  · exact hnmapW.trans (hnmapV.trans hnmapU)
  · exact hergW.trans (hergV.trans hergU)
  · exact (hmtbPage _ (by decide)).trans hb.tb
  · exact (State.binAt_of_page hmtb hmtbPage t).trans (hb.binAt t)
  · rw [hmtb, hb.lastBin]
  · rw [hmtb, hb.boundary]
  · rw [hmtb]
    exact hb.takes
  · rw [hfollowed (by unfold Pg.LPT Pg.NMAP; omega) (by unfold Pg.LPT Pg.GLB Pg.HIF; omega) (by decide)]
    refine hp.peaks p hlt ?_ ?_
    · rw [State.domOn, hpower p hlt]
      exact hdom
    · rw [State.portSamples_congr (fun f hf => hb.get (by decide) (by decide) hf)
        (hb.get (by unfold Pg.LPT Pg.MTB; omega) (by unfold Pg.LPT Pg.GLB Pg.HIF; omega) (by decide)) (hpower p hlt), hsamples]

/-- With no set armed and no taps committed, the parts of a boundary do nothing but measure. -/
theorem State.partsBounded_boundary (htb : s.tb ≠ TB.OFF) (hpages : ∀ pg, pg ∈ [Pg.MTB, Pg.ERGX, Pg.NMAP] → s.flag pg CFG.ARMED = false)
    (hports : ∀ p, p < 16 → s.flag (Pg.LPT p) CFG.ARMED = false ∧ s.flag (Pg.TXS p) CFG.ARMED = false ∧ s.linkTaps p = []) :
    s.PartsBounded t peaks ((s.tbSafePoint.tbBoundary t).boundaryParts t peaks) := by
  have hb : s.BinNoted t (s.tbSafePoint.tbBoundary t) := State.binNoted_tbBoundary (hpages _ (by decide))
  generalize s.tbSafePoint.tbBoundary t = u at hb
  have hflag : ∀ pg, pg ≠ Pg.MTB → pg ≠ Pg.GLB ∧ pg ≠ Pg.HIF → u.flag pg CFG.ARMED = s.flag pg CFG.ARMED := fun pg hmtb hpg => by
    rw [State.flag, State.flag, hb.get hmtb hpg (by decide)]
  have hunarmed : ∀ p, p < 16 → u.flag (Pg.LPT p) CFG.ARMED = false ∧ u.flag (Pg.TXS p) CFG.ARMED = false ∧ u.linkTaps p = [] :=
    fun p hp => by
      obtain ⟨hlpt, htxs, htaps⟩ := hports p hp
      refine ⟨?_, ?_, ?_⟩
      · rw [hflag _ (by unfold Pg.LPT Pg.MTB; omega) (by unfold Pg.LPT Pg.GLB Pg.HIF; omega), hlpt]
      · rw [hflag _ (by unfold Pg.TXS Pg.MTB; omega) (by unfold Pg.TXS Pg.GLB Pg.HIF; omega), htxs]
      · rw [State.linkTaps, hb.txs]
        exact htaps
  have hp := State.portsBounded_boundary (t := t) peaks (hb.tb ▸ htb) hunarmed
  rw [State.boundaryParts_eq]
  generalize forEach (List.range 16) (State.portBoundary t peaks) u = v at hp
  have hpage : ∀ pg, pg ∈ [Pg.ERGX, Pg.NMAP] → v.flag pg CFG.ARMED = false := fun pg hpg => by
    have hapart : ∀ pg ∈ [Pg.ERGX, Pg.NMAP], pg ≠ Pg.MTB ∧ (pg ≠ Pg.GLB ∧ pg ≠ Pg.HIF) ∧ ∀ p, p < 16 → pg ≠ Pg.LPT p := by decide
    obtain ⟨hmtb, hsummary, hlpt⟩ := hapart pg hpg
    rw [State.flag, hp.frame.get hlpt hsummary (by decide), ← State.flag, hflag pg hmtb hsummary,
      hpages pg (List.mem_cons_of_mem _ hpg)]
  rw [State.safeAll_of_unarmed (hpage _ (by decide)), State.nmapSafe, State.safeAll_of_unarmed (hpage _ (by decide))]
  exact State.partsBounded_of_parts hb hp

/-- An engine's settings are none of those registers. -/
theorem State.PartsBounded.eget (h : s.PartsBounded t peaks u) {c : Nat} (hc : c < 256) {f : Fld} (hf : f.off + f.step * 3 < 4096) :
    u.eget c f = s.eget c f := by
  have hoff : (f.nth (c % 4)).off < 4096 := by
    have hle : f.step * (c % 4) ≤ f.step * 3 := Nat.mul_le_mul_left _ (by omega)
    have hnth : (f.nth (c % 4)).off = f.off + f.step * (c % 4) := rfl
    omega
  have hnot : ¬partRegs (addrOf (Pg.ERG (c / 4)) (f.nth (c % 4)).off) :=
    not_partRegs (by unfold Pg.ERG Pg.MTB; omega) (by unfold Pg.ERG Pg.NMAP; omega) (fun p hp => by unfold Pg.ERG Pg.LPT; omega) hoff
  exact State.get_of_kept h.kept hnot (by unfold Pg.ERG Pg.GLB Pg.HIF; omega) hoff

/-- An engine that erases from the noise map and is in HUNT to ACK_BODY shows the cell of its channel. -/
theorem State.PartsBounded.cellNow (h : s.PartsBounded t peaks u) {c : Nat} (hc : c < 256) (hlive : s.isLive c = true)
    (herase : s.eget c ERG.NMAP_ERASE = 1) (hfrom : 4 ≤ s.est c) (hto : s.est c ≤ 8) (hmean : s.binsMean = true) :
    (u.readCells t).eget c ERG.CELL_NOW = (s.chanCell (s.eget c ERG.PORT) (s.eget c ERG.CENTRE) t).toNat := by
  have hest : u.est c = s.est c := h.eget hc (by decide)
  have hbins : u.binsMean = true := by
    rw [State.binsMean, h.tb]
    exact hmean
  have hrole : u.isLive c = true := by
    rw [State.isLive, h.eget hc (by decide)]
    exact hlive
  rw [State.eget_readCells hc hrole ((h.eget hc (by decide)).trans herase) (hest ▸ hfrom) (hest ▸ hto) hbins,
    State.chanCell_congr h.nmap h.binAt, h.eget hc (by decide), h.eget hc (by decide)]

end

/-- A due boundary outside OFF is carried out. -/
theorem exec_phaseBinBoundary_due {s : State} {tick : Nat} (peaks : List PortPeak) (htb : s.tb ≠ TB.OFF) (hdue : s.binDue tick = true) :
    exec (.phaseBinBoundary tick peaks) s =
      .next ((((s.atTick tick).tbSafePoint.tbBoundary tick).boundaryParts tick peaks).readCells tick).settle := by
  have hgoes : (decide ((s.atTick tick).tb ≠ TB.OFF) && (s.atTick tick).binDue tick) = true := by
    have hdue' : (s.atTick tick).binDue tick = true := hdue
    rw [hdue', Bool.and_true]
    exact decide_eq_true htb
  change finish (onlyIf _ _ _) = _
  rw [hgoes, onlyIf_true]
  rfl

/-- Settles O30: with nothing armed a boundary is the timebase's note of the bin, the ports' peaks and the engines' reads, each of
which leaves the registers of the others alone. -/
theorem binBoundariesMeasureAndRead : Obligations.BinBoundariesMeasureAndRead := by
  intro s tick peaks htb hdue hpages hports
  have hparts : (s.atTick tick).PartsBounded tick peaks (((s.atTick tick).tbSafePoint.tbBoundary tick).boundaryParts tick peaks) :=
    State.partsBounded_boundary htb hpages hports
  refine ⟨_, exec_phaseBinBoundary_due peaks htb hdue, ?_⟩
  generalize ((s.atTick tick).tbSafePoint.tbBoundary tick).boundaryParts tick peaks = u at hparts
  have hcells : u.CellsOnly (u.readCells tick) := u.cellsOnly_readCells tick
  obtain ⟨hmtbRead, hwad, hmac, htxs, hnmap, hergRead⟩ := hcells.units
  have hmtb : (u.readCells tick).settle.mtb = u.mtb := (State.settle_mtb _).trans hmtbRead
  have herg : (u.readCells tick).settle.erg = (u.readCells tick).erg := State.settle_erg _
  have hergParts : u.erg = s.erg := hparts.erg
  refine ⟨?_, ?_, fun hnew => ?_, fun p hp hdom hsamples => ?_, fun c hc hlive herase hfrom hto hmean => ?_, ?_, ?_, ?_, ?_, ?_, ?_,
    fun c => ?_⟩
  · exact (congrArg MtbSt.lastBin hmtb).trans hparts.lastBin
  · exact (congrArg MtbSt.boundary hmtb).trans hparts.boundary
  · obtain ⟨hacc, hc0⟩ := hparts.takes hnew
    exact ⟨(congrArg MtbSt.accEff hmtb).trans hacc, (congrArg MtbSt.c0Eff hmtb).trans hc0⟩
  · rw [State.get_settle_beside _ (by unfold Pg.LPT Pg.GLB Pg.HIF; omega) (by decide), hcells.get
      (.inl fun q _ => by unfold Pg.LPT Pg.ERG; omega) (by unfold Pg.LPT Pg.GLB Pg.HIF; omega) (by decide)]
    exact hparts.peaks p hp hdom hsamples
  · have hoff := cellNow_off (c % 4)
    refine (State.get_settle_beside _ (by unfold Pg.ERG Pg.GLB Pg.HIF; omega) (by omega)).trans ?_
    exact hparts.cellNow hc hlive herase hfrom hto hmean
  · refine State.regsKept_settle (State.regsKept_trans (State.regsKept_mono hparts.kept ?_) (State.regsKept_mono hcells.kept ?_))
    · rintro a (hon | hat | hon)
      · exact .inl hon
      · exact .inr (.inl hat)
      · exact .inr (.inr (.inl hon))
    · exact fun a hat => .inr (.inr (.inr hat))
  · exact ((State.settle_wad _).trans hwad).trans hparts.wad
  · exact ((State.settle_mac _).trans hmac).trans hparts.mac
  · exact ((State.settle_txs _).trans htxs).trans hparts.txs
  · exact ((State.settle_nmap _).trans hnmap).trans hparts.nmap
  · rw [herg, ← hergParts]
    exact hergRead
  · have hown : u.eng c = s.eng c := by rw [State.eng, hergParts, State.eng]
    have hread : (u.readCells tick).settle.eng c = (u.readCells tick).eng c := by rw [State.eng, herg, State.eng]
    rw [hread, ← hown]
    exact hcells.engs c

end Sys2Proof.Machine

/-! ## Support of the statements about the line ports: the frame of what a port's commands change, and reads of a port's page. -/

namespace Sys2Proof.Machine

/-! ### What the commands of a line port change -/

/-- Between `s` and `u` nothing has changed but registers that `touched` admits, what line ports keep, and the side log. -/
structure State.LptOnly (touched : Nat → Prop) (s u : State) : Prop where
  kept : s.RegsKept touched u
  rest : u = { s with regs := u.regs, lpt := u.lpt, mir := u.mir, dram := u.dram }

theorem State.lptOnly_refl (touched : Nat → Prop) (s : State) : s.LptOnly touched s := ⟨fun _ _ _ _ => rfl, rfl⟩

section
variable {touched : Nat → Prop} {s u : State} (h : s.LptOnly touched u)
include h

theorem State.LptOnly.put {pg : Nat} {f : Fld} (v : Nat) (ht : touched (addrOf pg f.off)) : s.LptOnly touched (u.put pg f v) :=
  ⟨State.regsKept_put h.kept v ht, congrArg (State.put pg f v) h.rest⟩

theorem State.LptOnly.event {pg : Nat} {f : Fld} (ht : touched (addrOf pg CMN.EVENTS)) : s.LptOnly touched (u.event pg f) :=
  ⟨State.regsKept_event h.kept ht, congrArg (State.event pg f) h.rest⟩

theorem State.LptOnly.count {pg : Nat} {f : Fld} (ht : touched (addrOf pg f.off)) : s.LptOnly touched (u.count pg f) := by
  unfold State.count State.countBy
  split
  · exact h
  · exact h.put _ ht

theorem State.LptOnly.setLpt (p : Nat) (x : LptSt) : s.LptOnly touched (u.setLpt p x) :=
  ⟨State.regsKept_of_regs h.kept rfl, congrArg (State.setLpt p x) h.rest⟩

theorem State.LptOnly.modLpt (p : Nat) (f : LptSt → LptSt) : s.LptOnly touched (u.modLpt p f) := h.setLpt _ _

theorem State.LptOnly.onlyIf (c : Bool) {f : State → State} (hf : s.LptOnly touched (f u)) : s.LptOnly touched (onlyIf c f u) := by
  unfold Machine.onlyIf
  split
  · exact hf
  · exact h

/-- The command ends with what follows it. -/
theorem State.LptOnly.regsOnly_settle : State.RegsOnly touched
    { s with lpt := u.settle.lpt, mir := u.settle.mir, dram := u.settle.dram } u.settle := by
  rw [State.settle_lpt, State.settle_mir, State.settle_dram]
  refine State.regsOnly_settle ⟨h.kept, u.regs, s.host.msiSent, s.host.active, s.host.faults, s.lnk.outTotal, s.lnk.outSince, ?_⟩
  exact h.rest

theorem State.LptOnly.regsOnly_lpt (hmir : u.mir = s.mir) (hdram : u.dram = s.dram) :
    State.RegsOnly touched { s with lpt := u.settle.lpt } u.settle := by
  have hall := h.regsOnly_settle
  rw [State.settle_mir, State.settle_dram, hmir, hdram] at hall
  exact hall

theorem State.LptOnly.regsOnly_regs (hlpt : u.lpt = s.lpt) (hmir : u.mir = s.mir) (hdram : u.dram = s.dram) :
    State.RegsOnly touched s u.settle := by
  have hall := h.regsOnly_lpt hmir hdram
  rw [State.settle_lpt, hlpt] at hall
  exact hall

end

end Sys2Proof.Machine

/-! ### Reads of a port's page and record -/

namespace Sys2Proof.Machine

section
variable (p q : Nat) (s : State)

@[simp] theorem State.lptSt_put (pg : Nat) (f : Fld) (v : Nat) : (s.put pg f v).lptSt q = s.lptSt q := (rfl)
@[simp] theorem State.lptSt_event (pg : Nat) (f : Fld) : (s.event pg f).lptSt q = s.lptSt q := (rfl)
@[simp] theorem State.lptSt_count (pg : Nat) (f : Fld) : (s.count pg f).lptSt q = s.lptSt q := by rw [State.lptSt, State.count_lpt]; rfl
@[simp] theorem State.lptSt_atTick (t : Nat) : (s.atTick t).lptSt q = s.lptSt q := (rfl)
@[simp] theorem State.lptSt_settle : s.settle.lptSt q = s.lptSt q := by rw [State.lptSt, State.settle_lpt]; rfl
@[simp] theorem State.lptSt_setLpt_same (x : LptSt) : (s.setLpt p x).lptSt p = x := Tab.get_set_same _ _ _ _
@[simp] theorem State.lptSt_modLpt_same (f : LptSt → LptSt) : (s.modLpt p f).lptSt p = f (s.lptSt p) := State.lptSt_setLpt_same _ _ _
@[simp] theorem State.modLpt_get (f : LptSt → LptSt) (pg : Nat) (g : Fld) : (s.modLpt p f).get pg g = s.get pg g := (rfl)

end

theorem regsAt_onPage {l : List (Nat × Nat)} {pg a : Nat} (hl : ∀ e, e ∈ l → e.1 = pg ∧ e.2 < 4096) (h : regsAt l a) :
    onPages [pg] a := by
  obtain ⟨e, he, rfl⟩ := List.mem_map.mp h
  obtain ⟨hpg, hoff⟩ := hl e he
  exact (onPages_addrOf hoff).mpr (List.mem_singleton.mpr hpg)

/-- What touches one page keeps the registers of every other. -/
theorem State.reg_otherPage {touched : Nat → Prop} {s u : State} {pg pg' off : Nat} (h : s.RegsKept touched u)
    (ht : ∀ a, touched a → onPages [pg] a) (hpg : pg' ≠ pg) (hbeside : pg' ≠ Pg.GLB ∧ pg' ≠ Pg.HIF) (hoff : off < 4096) :
    u.reg pg' off = s.reg pg' off := by
  obtain ⟨hglb, hhif⟩ := hbeside
  refine h pg' off (fun hat => hpg ?_) (follows_eq_false hglb hoff fun hh => absurd hh hhif)
  exact List.mem_singleton.mp ((onPages_addrOf hoff).mp (ht _ hat))

/-! ### The side log (R176) -/

theorem sideRecord_length (tick kind port data span : Nat) : (sideRecord tick kind port data span).length = 16 := by
  simp only [sideRecord, List.length_append, leBytes_length, List.length_cons, List.length_nil]

section
variable (s : State) (tick kind port data span : Nat)

theorem State.sideLog_lpt : (s.sideLog tick kind port data span).lpt = s.lpt := by
  unfold State.sideLog
  split
  · rfl
  · dsimp only
    split <;> rfl

@[simp] theorem State.lptSt_sideLog (q : Nat) : (s.sideLog tick kind port data span).lptSt q = s.lptSt q := by
  rw [State.lptSt, State.sideLog_lpt]
  rfl

@[simp] theorem State.get_sideLog (pg : Nat) (f : Fld) : (s.sideLog tick kind port data span).get pg f = s.get pg f :=
  State.get_congr (s.regs_sideLog _ _ _ _ _) pg f

theorem State.LptOnly.sideLog {touched : Nat → Prop} {b : State} (h : b.LptOnly touched s) :
    b.LptOnly touched (s.sideLog tick kind port data span) := by
  unfold State.sideLog
  split
  · exact h
  · dsimp only
    split
    · exact h
    · obtain ⟨hk, hr⟩ := h
      rw [hr]
      exact ⟨hk, rfl⟩

/-- A record of the side log changes no byte of DRAM beside its own 16. -/
theorem State.sideKept_sideLog : s.SideKept (s.sideLog tick kind port data span) := by
  intro a ha
  unfold State.sideLog
  split
  · rfl
  · next r hr =>
    dsimp only
    split
    · rfl
    · refine State.dramByte_dramStore_outside s _ _ a ?_
      rw [sideRecord_length]
      exact ha r hr

end

/-- Where the side log's record is written depends on page DRC0 and on the records written before. -/
theorem State.sideKept_congr {s u v : State} (h : u.SideKept v) (hdrc : ∀ off, off < 4096 → u.reg (Pg.DRC 0) off = s.reg (Pg.DRC 0) off)
    (hcnt : u.mir.sideCnt = s.mir.sideCnt) (hdram : u.dram = s.dram) : s.SideKept v.settle := by
  have hregion : u.regionOf 9 = s.regionOf 9 := State.regionOf_congr hdrc 9
  have hcap : u.sideCap = s.sideCap := by
    unfold State.sideCap
    rw [hregion]
    split
    · next r hr =>
      have hr32 := State.regionOf_lt hr
      unfold State.regionData State.regionSize State.flag
      rw [State.regionRow_congr hdrc _ hr32 (by decide), State.regionRow_congr hdrc _ hr32 (by decide)]
    · rfl
  intro a ha
  have hbyte := h a fun r hr => by
    rw [State.regionBase_congr hdrc (State.regionOf_lt hr), hcnt, hcap]
    exact ha r (hregion ▸ hr)
  rw [State.settle_dramByte, hbyte, State.dramByte, hdram]
  rfl

end Sys2Proof.Machine

/-! ## Support of `OverloadAndGainSteps`: overloads and gain steps (R82 to R85). -/

namespace Sys2Proof.Machine

/-- Some other page than the port's. -/
theorem drcPage_ne (p : Nat) (hp : p < 16) : Pg.DRC 0 ≠ Pg.LPT p := by
  unfold Pg.DRC Pg.LPT
  omega

/-! ### What every gain step leaves in a port's page -/

section
variable {s v : State} {tick p : Nat} {l : List (Nat × Nat)} {x : LptSt} (hp : p < 16)
  (hl : ∀ e, e ∈ l → e.1 = Pg.LPT p ∧ e.2 < 4096) (hv : (s.atTick tick).LptOnly (regsAt l) v) (hmir : v.mir = s.mir)
  (hdram : v.dram = s.dram) {kind port data span : Nat} {w : State}
  (hw : w.dram = ((v.setLpt p x).sideLog tick kind port data span).dram)
include hp hl hv hmir hdram hw

/-- A gain step of port p writes one record of the side log. -/
theorem State.gainStep_sideKept : s.SideKept w.settle := by
  have hlog : (v.setLpt p x).SideKept w := fun a ha => by
    rw [State.dramByte, hw]
    exact State.sideKept_sideLog _ _ _ _ _ _ a ha
  refine State.sideKept_congr hlog (fun off hoff => ?_) ?_ hdram
  · exact State.reg_otherPage hv.kept (fun _ ha => regsAt_onPage hl ha) (drcPage_ne p hp) (by decide) hoff
  · rw [State.setLpt_mir, hmir]

end

/-! ### Overloads (R83, R85) -/

/-- An overload has been counted. -/
def State.overloadNoted (p : Nat) (s : State) : State := (s.event (Pg.LPT p) LPT.EV_OVERLOAD).count (Pg.LPT p) LPT.OVL_CNT

/-- What the port keeps after an overload that marks the samples from tick `first` on, up to tick `stop`. -/
def State.ovlRecord (t p first stop : Nat) (s : State) : LptSt :=
  LptSt.mark { s.lptSt p with ovlAt := t, loudAt := Nat.max (s.lptSt p).loudAt (t - 1) } first stop

/-- The gain from which an overload at tick `t` steps down (R85). -/
def State.gainBase (s : State) (t p : Nat) : Nat := if (s.lptSt p).stepAt = t then (s.lptSt p).stepFrom else s.gainNow p

/-- The gain after an overload at tick `t` (R83, R85). -/
def State.loweredGain (s : State) (t p : Nat) : Nat :=
  Nat.min (s.gainNow p) (Nat.max (s.get (Pg.LPT p) LPT.GAIN_MIN) (s.gainBase t p - s.get (Pg.LPT p) LPT.OVL_STEPS))

/-- The registers after an overload that lowers the gain. -/
def State.gainLowered (t p : Nat) (s : State) : State :=
  ((s.overloadNoted p).put (Pg.LPT p) LPT.GAIN_NOW (s.loweredGain t p)).count (Pg.LPT p) LPT.GAIN_STEP_CNT

section
variable {s : State} {t p : Nat} {samples : List (BitVec 16)} (hsamples : s.portSamples p = true)
  (hover : s.overloaded t p samples = true)
include hsamples hover

theorem State.overload_of_above (hmin : s.get (Pg.LPT p) LPT.GAIN_MIN < s.gainNow p) : ∃ data span, s.overload t p samples =
    ((s.gainLowered t p).setLpt p { s.ovlRecord t p (t - samples.length) (t + s.get (Pg.LPT p) LPT.OVL_ERASE) with ovl := true }).sideLog
      t SideKind.GAIN p data span := by
  unfold State.overload
  rw [if_neg (by simp [hsamples, hover])]
  simp (disch := decide) only [State.gainNow, State.get_count_beside, State.get_event_beside, State.lptSt_count, State.lptSt_event]
  exact ⟨_, _, if_neg (Nat.not_le.mpr hmin)⟩

theorem State.overload_of_lowest (hmin : s.gainNow p ≤ s.get (Pg.LPT p) LPT.GAIN_MIN) : ∃ data span, s.overload t p samples =
    (((s.overloadNoted p).count (Pg.LPT p) LPT.OVL_AT_MIN_CNT).setLpt p (s.ovlRecord t p (t - samples.length) t)).sideLog
      t SideKind.GAIN p data span := by
  unfold State.overload
  rw [if_neg (by simp [hsamples, hover])]
  simp (disch := decide) only [State.gainNow, State.get_count_beside, State.get_event_beside, State.lptSt_count, State.lptSt_event]
  exact ⟨_, _, if_pos hmin⟩

end

/-! #### What an overload shows -/

section
variable {touched : Nat → Prop} {b s : State} {p : Nat} (hb : b.LptOnly touched s)
include hb

theorem State.LptOnly.overloadNoted (hevents : touched (addrOf (Pg.LPT p) CMN.EVENTS))
    (hcnt : touched (addrOf (Pg.LPT p) LPT.OVL_CNT.off)) : b.LptOnly touched (s.overloadNoted p) := (hb.event hevents).count hcnt

theorem State.LptOnly.gainLowered (hevents : touched (addrOf (Pg.LPT p) CMN.EVENTS))
    (hcnt : touched (addrOf (Pg.LPT p) LPT.OVL_CNT.off)) (hgain : touched (addrOf (Pg.LPT p) LPT.GAIN_NOW.off))
    (hsteps : touched (addrOf (Pg.LPT p) LPT.GAIN_STEP_CNT.off)) (t : Nat) : b.LptOnly touched (s.gainLowered t p) :=
  ((hb.overloadNoted hevents hcnt).put _ hgain).count hsteps

end

section
variable (s : State) (t p : Nat)

theorem State.overloadNoted_mir : (s.overloadNoted p).mir = s.mir := by rw [State.overloadNoted, State.count_mir, State.event_mir]
theorem State.overloadNoted_dram : (s.overloadNoted p).dram = s.dram := by rw [State.overloadNoted, State.count_dram, State.event_dram]
theorem State.gainLowered_mir : (s.gainLowered t p).mir = s.mir := by
  rw [State.gainLowered, State.count_mir, State.put_mir, State.overloadNoted_mir]
theorem State.gainLowered_dram : (s.gainLowered t p).dram = s.dram := by
  rw [State.gainLowered, State.count_dram, State.put_dram, State.overloadNoted_dram]

theorem State.get_gainLowered_gain : (s.gainLowered t p).get (Pg.LPT p) LPT.GAIN_NOW = s.loweredGain t p := by
  have hlt : s.loweredGain t p < 2 ^ 3 := (Nat.min_le_left _ _).trans_lt (Fld.of_lt LPT.GAIN_NOW _)
  rw [State.gainLowered, State.get_count_beside _ (by decide), State.get_put_same _ _ _ _ (by decide)]
  exact Nat.mod_eq_of_lt hlt

end

section
variable {s : State} {tick first now base p : Nat} {samples : List (BitVec 16)}

/-- An overload above GAIN_MIN lowers the gain. -/
theorem overload_lowers_gain (hp : p < 16) (hsamples : s.portSamples p = true) (hover : s.overloaded tick p samples = true)
    (hfirst : first = tick - samples.length) (hnow : now = s.get (Pg.LPT p) LPT.GAIN_NOW) (hmin : s.get (Pg.LPT p) LPT.GAIN_MIN < now)
    (hbase : base = if (s.lptSt p).stepAt = tick then (s.lptSt p).stepFrom else now) :
    let t := ((s.atTick tick).overload tick p samples).settle
    t.get (Pg.LPT p) LPT.GAIN_NOW =
        Nat.min now (Nat.max (s.get (Pg.LPT p) LPT.GAIN_MIN) (base - s.get (Pg.LPT p) LPT.OVL_STEPS)) ∧
      t.get (Pg.LPT p) LPT.EV_OVERLOAD = 1 ∧ s.Counted (Pg.LPT p) LPT.OVL_CNT t ∧ s.Counted (Pg.LPT p) LPT.GAIN_STEP_CNT t ∧
      (t.lptSt p).ovlAt = tick ∧ (t.lptSt p).marks.head? = some (first, tick + s.get (Pg.LPT p) LPT.OVL_ERASE) ∧ s.SideKept t ∧
      State.RegsOnly (regsAt [(Pg.LPT p, LPT.GAIN_NOW.off), (Pg.LPT p, CMN.EVENTS), (Pg.LPT p, LPT.OVL_CNT.off),
        (Pg.LPT p, LPT.GAIN_STEP_CNT.off)]) { s.atTick tick with lpt := t.lpt, mir := t.mir, dram := t.dram } t := by
  obtain ⟨data, span, hexec⟩ := State.overload_of_above (s := s.atTick tick) (t := tick) hsamples hover (hmin.trans_eq hnow)
  have hpg := lptPage_beside hp
  have hframe : (s.atTick tick).LptOnly (regsAt [(Pg.LPT p, LPT.GAIN_NOW.off), (Pg.LPT p, CMN.EVENTS), (Pg.LPT p, LPT.OVL_CNT.off),
      (Pg.LPT p, LPT.GAIN_STEP_CNT.off)]) ((s.atTick tick).gainLowered tick p) :=
    (State.lptOnly_refl _ _).gainLowered (regsAt_of_mem (by simp)) (regsAt_of_mem (by simp)) (regsAt_of_mem (by simp))
      (regsAt_of_mem (by simp)) tick
  rw [hexec]
  refine ⟨?_, ?_, ?_, ?_, ?_, ?_, ?_, (State.LptOnly.sideLog _ _ _ _ _ _ (hframe.setLpt _ _)).regsOnly_settle⟩
  · rw [State.get_settle_beside _ hpg (by decide), State.get_sideLog, State.setLpt_get, State.get_gainLowered_gain, hbase, hnow]
    rfl
  · simp (disch := decide) only [State.get_settle_beside _ hpg, State.get_sideLog, State.setLpt_get, State.gainLowered,
      State.overloadNoted, State.get_count_beside, State.get_put_beside, State.get_event_set]
  · refine State.counted_settle (u := (s.atTick tick).event (Pg.LPT p) LPT.EV_OVERLOAD) hpg (by decide) ?_ ?_ ?_ <;>
      simp (disch := decide) only [State.get_sideLog, State.setLpt_get, State.gainLowered, State.overloadNoted,
        State.get_count_beside, State.get_put_beside, State.get_event_beside, State.atTick_get]
  · refine State.counted_settle (u := ((s.atTick tick).overloadNoted p).put (Pg.LPT p) LPT.GAIN_NOW ((s.atTick tick).loweredGain tick p)) hpg (by decide) ?_ ?_ ?_
    · rw [State.get_sideLog, State.setLpt_get, State.gainLowered]
    all_goals simp (disch := decide) only [State.overloadNoted, State.get_count_beside, State.get_put_beside,
        State.get_event_beside, State.atTick_get]
  · simp only [State.lptSt_settle, State.lptSt_sideLog, State.lptSt_setLpt_same]
    rfl
  · simp only [State.lptSt_settle, State.lptSt_sideLog, State.lptSt_setLpt_same, hfirst]
    rfl
  · exact State.gainStep_sideKept hp (by simp; decide) hframe (State.gainLowered_mir _ _ _) (State.gainLowered_dram _ _ _) rfl

/-- An overload at GAIN_MIN marks and counts. -/
theorem overload_at_lowest_marks (hp : p < 16) (hsamples : s.portSamples p = true) (hover : s.overloaded tick p samples = true)
    (hfirst : first = tick - samples.length) (hmin : s.get (Pg.LPT p) LPT.GAIN_NOW ≤ s.get (Pg.LPT p) LPT.GAIN_MIN) :
    let t := ((s.atTick tick).overload tick p samples).settle
    t.get (Pg.LPT p) LPT.GAIN_NOW = s.get (Pg.LPT p) LPT.GAIN_NOW ∧ t.get (Pg.LPT p) LPT.EV_OVERLOAD = 1 ∧
      s.Counted (Pg.LPT p) LPT.OVL_AT_MIN_CNT t ∧ (t.lptSt p).ovlAt = tick ∧
      (t.lptSt p).marks.head? = some (first, tick) ∧ s.SideKept t ∧
      State.RegsOnly (regsAt [(Pg.LPT p, CMN.EVENTS), (Pg.LPT p, LPT.OVL_CNT.off), (Pg.LPT p, LPT.OVL_AT_MIN_CNT.off)])
        { s.atTick tick with lpt := t.lpt, mir := t.mir, dram := t.dram } t := by
  obtain ⟨data, span, hexec⟩ := State.overload_of_lowest (s := s.atTick tick) (t := tick) hsamples hover hmin
  have hpg := lptPage_beside hp
  have hframe : (s.atTick tick).LptOnly (regsAt [(Pg.LPT p, CMN.EVENTS), (Pg.LPT p, LPT.OVL_CNT.off), (Pg.LPT p, LPT.OVL_AT_MIN_CNT.off)])
      (((s.atTick tick).overloadNoted p).count (Pg.LPT p) LPT.OVL_AT_MIN_CNT) :=
    ((State.lptOnly_refl _ _).overloadNoted (regsAt_of_mem (by simp)) (regsAt_of_mem (by simp))).count (regsAt_of_mem (by simp))
  rw [hexec]
  refine ⟨?_, ?_, ?_, ?_, ?_, ?_, (State.LptOnly.sideLog _ _ _ _ _ _ (hframe.setLpt _ _)).regsOnly_settle⟩
  · simp (disch := decide) only [State.get_settle_beside _ hpg, State.get_sideLog, State.setLpt_get, State.overloadNoted,
      State.get_count_beside, State.get_event_beside, State.atTick_get]
  · simp (disch := decide) only [State.get_settle_beside _ hpg, State.get_sideLog, State.setLpt_get, State.overloadNoted,
      State.get_count_beside, State.get_event_set]
  · refine State.counted_settle (u := (s.atTick tick).overloadNoted p) hpg (by decide) ?_ ?_ ?_
    · rw [State.get_sideLog, State.setLpt_get]
    all_goals simp (disch := decide) only [State.overloadNoted, State.get_count_beside, State.get_event_beside, State.atTick_get]
  · simp only [State.lptSt_settle, State.lptSt_sideLog, State.lptSt_setLpt_same]
    rfl
  · simp only [State.lptSt_settle, State.lptSt_sideLog, State.lptSt_setLpt_same, hfirst]
    rfl
  · exact State.gainStep_sideKept hp (by simp; decide) hframe
      (by rw [State.count_mir, State.overloadNoted_mir, State.atTick_mir])
      (by rw [State.count_dram, State.overloadNoted_dram, State.atTick_dram]) rfl

end

/-! ### Rises (R84) -/

/-- The registers after a gain step to g. -/
def State.gainStepped (p g : Nat) (s : State) : State :=
  ((s.put (Pg.LPT p) LPT.GAIN_NOW g).event (Pg.LPT p) LPT.EV_GAIN_STEP).count (Pg.LPT p) LPT.GAIN_STEP_CNT

section
variable {s : State} {tick p : Nat}

theorem State.gainTo_of_ne {g : Nat} (h : s.gainNow p ≠ g) : ∃ data, s.gainTo p g tick =
    ((s.gainStepped p g).modLpt p fun x => { x with stepAt := tick, stepFrom := s.gainNow p }).sideLog tick SideKind.GAIN p data 0 :=
  ⟨_, if_neg h⟩

theorem State.gainUp_of_due (hsamples : s.portSamples p = true) (hbin : tick = s.mtb.boundary)
    (hwant : s.gainNow p < s.gainWanted p tick) (hhold : s.holdPassed p tick = true) :
    s.gainUp tick p = (s.gainTo p (s.gainNow p + 1) tick).modLpt p fun x => { x with
      loudAt := Nat.max x.loudAt tick, ovl := x.ovl && decide (s.gainNow p + 1 < s.gainWanted p tick) } := by
  refine if_neg ?_
  rintro (hoff | hbin' | hle | hshort)
  · exact Bool.false_ne_true (hoff.symm.trans hsamples)
  · exact hbin' hbin
  · exact Nat.not_le.mpr hwant hle
  · exact Bool.false_ne_true (hshort.symm.trans hhold)

/-- The gain that a mode asks for fits GAIN_NOW. -/
theorem State.gainWanted_lt (s : State) (p t : Nat) : s.gainWanted p t < 2 ^ 3 := by
  unfold State.gainWanted
  dsimp only
  split
  · exact Fld.of_lt (LPT.GAIN_SCHED.nth _) _
  · exact Fld.of_lt LPT.GAIN _

/-- After the hold the gain rises by one code. -/
theorem gainStepUp_raises_gain (hp : p < 16) (hsamples : s.portSamples p = true) (hbin : tick = s.mtb.boundary)
    (hwant : s.get (Pg.LPT p) LPT.GAIN_NOW < s.gainWanted p tick) (hhold : s.holdPassed p tick = true) :
    let t := ((s.atTick tick).gainUp tick p).settle
    t.get (Pg.LPT p) LPT.GAIN_NOW = s.get (Pg.LPT p) LPT.GAIN_NOW + 1 ∧ t.get (Pg.LPT p) LPT.EV_GAIN_STEP = 1 ∧
      s.Counted (Pg.LPT p) LPT.GAIN_STEP_CNT t ∧ (t.lptSt p).loudAt = Nat.max (s.lptSt p).loudAt tick ∧ s.SideKept t ∧
      State.RegsOnly (regsAt [(Pg.LPT p, LPT.GAIN_NOW.off), (Pg.LPT p, CMN.EVENTS), (Pg.LPT p, LPT.GAIN_STEP_CNT.off)])
        { s.atTick tick with lpt := t.lpt, mir := t.mir, dram := t.dram } t := by
  obtain ⟨data, hstep⟩ := State.gainTo_of_ne (s := s.atTick tick) (tick := tick) (p := p) (Nat.ne_of_lt (Nat.lt_succ_self _))
  have hexec := State.gainUp_of_due (s := s.atTick tick) hsamples hbin hwant hhold
  rw [hstep] at hexec
  have hpg := lptPage_beside hp
  have hlt : s.get (Pg.LPT p) LPT.GAIN_NOW + 1 < 2 ^ 3 := (Nat.succ_le_of_lt hwant).trans_lt (s.gainWanted_lt p tick)
  have hframe : (s.atTick tick).LptOnly (regsAt [(Pg.LPT p, LPT.GAIN_NOW.off), (Pg.LPT p, CMN.EVENTS), (Pg.LPT p, LPT.GAIN_STEP_CNT.off)])
      ((s.atTick tick).gainStepped p ((s.atTick tick).gainNow p + 1)) :=
    (((State.lptOnly_refl _ _).put _ (regsAt_of_mem (by simp))).event (regsAt_of_mem (by simp))).count (regsAt_of_mem (by simp))
  rw [hexec]
  refine ⟨?_, ?_, ?_, ?_, ?_, ?_⟩
  · simp (disch := decide) only [State.get_settle_beside _ hpg, State.modLpt_get, State.get_sideLog, State.gainStepped,
      State.get_count_beside, State.get_event_beside, State.get_put_same]
    exact Nat.mod_eq_of_lt hlt
  · simp (disch := decide) only [State.get_settle_beside _ hpg, State.modLpt_get, State.get_sideLog, State.gainStepped,
      State.get_count_beside, State.get_event_set]
  · refine State.counted_settle (u := ((s.atTick tick).put (Pg.LPT p) LPT.GAIN_NOW ((s.atTick tick).gainNow p + 1)).event (Pg.LPT p)
      LPT.EV_GAIN_STEP) hpg (by decide) ?_ ?_ ?_
    · rw [State.modLpt_get, State.get_sideLog, State.modLpt_get, State.gainStepped]
    all_goals simp (disch := decide) only [State.get_put_beside, State.get_event_beside, State.atTick_get]
  · simp only [State.lptSt_settle, State.lptSt_modLpt_same, State.lptSt_sideLog]
    simp only [State.gainStepped, State.lptSt_count, State.lptSt_event, State.lptSt_put, State.lptSt_atTick]
  · exact State.gainStep_sideKept hp (by simp; decide) hframe
      (by rw [State.gainStepped, State.count_mir, State.event_mir, State.put_mir, State.atTick_mir])
      (by rw [State.gainStepped, State.count_dram, State.event_dram, State.put_dram, State.atTick_dram]) (State.setLpt_dram _ _ _)
  · exact ((State.LptOnly.sideLog _ _ _ _ _ _ (hframe.modLpt _ _)).modLpt _ _).regsOnly_settle

end

/-- Settles O17: an overload is noted, the gain and the port's record are written, and one record of the side log closes the step;
a rise is a planned step to the next code. -/
theorem overloadAndGainSteps : Obligations.OverloadAndGainSteps := by
  unfold Obligations.OverloadAndGainSteps
  intro s tick first port samples hsamples
  refine ⟨fun now base hover hfirst hnow hmin hbase => ?_, fun hover hfirst hmin => ?_, fun hbin hwant hhold => ?_⟩
  · exact ⟨_, rfl, overload_lowers_gain port.isLt hsamples hover hfirst hnow hmin hbase⟩
  · exact ⟨_, rfl, overload_at_lowest_marks port.isLt hsamples hover hfirst hmin⟩
  · exact ⟨_, rfl, gainStepUp_raises_gain port.isLt hsamples hbin hwant hhold⟩

end Sys2Proof.Machine

/-! ## Support of `EnginesReceiveFrames`: a sync word under a blanking window that lasts (R107, R143). -/

namespace Sys2Proof.Machine

/-- A command that finds no sync word changes SAMPLE_TIME alone. -/
theorem exec_syncFound_unmatched {s : State} {tick tm : Nat} {eng : Fin 256} (agc carrier : BitVec 16) {dec : Word}
    (h : (s.atTick tick).syncMatch eng.val tm (s.eget eng.val ERG.SYNC_WORD) dec = false) :
    exec (.syncFound tick eng tm agc carrier dec) s = .next (s.atTick tick).settle := by
  have hcond : (decide ((s.atTick tick).est eng.val = ES.SYNC_SEARCH) &&
      (s.atTick tick).syncMatch eng.val tm ((s.atTick tick).eget eng.val ERG.SYNC_WORD) dec) = false :=
    Bool.and_eq_false_iff.mpr (.inr h)
  show finish (onlyIf _ _ _) = _
  rw [hcond, onlyIf_false]
  rfl

/-- What follows a command moves no engine. -/
theorem State.est_settle (s : State) {c : Nat} (hc : c < 256) : s.settle.est c = s.est c := by
  have hoff : (ERG.STATE.nth (c % 4)).off = 0x100 + 64 * (c % 4) := rfl
  refine State.get_settle_beside s ⟨?_, ?_⟩ (by omega)
  · unfold Pg.ERG Pg.GLB; omega
  · unfold Pg.ERG Pg.HIF; omega

/-- SAMPLE_TIME is 0; engine 0 is in SYNC_SEARCH on port 0 with SYNC_WORD 0 and SYNC_TOL 0, and BLANK0 acts on it through a window
that has begun at tick 0 and lasts: its end is taken as `markLife` ticks from SAMPLE_TIME. -/
def State.blankLasts : State :=
  { State.reset with
    regs := [(addrOf (Pg.ERG 0) 0x010, 0), (addrOf (Pg.ERG 0) 0x018, 0), (addrOf (Pg.ERG 0) 0x01C, 0), (addrOf (Pg.ERG 0) 0x024, 2),
      (addrOf (Pg.ERG 0) 0x100, 5), (addrOf Pg.ERGX 0x010, 1)]
    erg := { State.reset.erg with blank := [⟨0, 0, 0, none⟩] } }

theorem blankLasts_searches : State.blankLasts.est 0 = ES.SYNC_SEARCH := by decide

/-- Before the command the window ends ahead of the decisions, and they match. -/
theorem blankLasts_matches :
    State.blankLasts.syncMatch 0 200000000 (State.blankLasts.eget 0 ERG.SYNC_WORD) 0 = true := by decide

/-- At the command's tick the window still lasts, and it takes all 32 decisions away. -/
theorem blankLasts_unmatched : (State.blankLasts.atTick 200000000).syncMatch 0 200000000
    (State.blankLasts.eget 0 ERG.SYNC_WORD) 0 = false := by decide

/-- Refutes O21: SYNC_FOUND judges the decisions against the blanking windows as they stand at its own tick, and a window that has no
end yet reaches further there than in the state before the command, of which the statement asks the match. Engine 0 stays in
SYNC_SEARCH. -/
theorem not_enginesReceiveFrames : ¬ Obligations.EnginesReceiveFrames := by
  unfold Obligations.EnginesReceiveFrames
  intro h
  obtain ⟨hdetect, -⟩ := h
  obtain ⟨-, -, hsync, -⟩ := hdetect State.blankLasts 200000000 200000000 0 0 (Pg.ERG 0) 0 rfl rfl
  obtain ⟨hfound, -⟩ := hsync 0 0 0 blankLasts_searches (by norm_num)
  obtain ⟨t, hexec, hest, -⟩ := hfound blankLasts_matches
  rw [exec_syncFound_unmatched (eng := 0) 0 0 blankLasts_unmatched] at hexec
  cases hexec
  rw [State.est_settle _ (by decide)] at hest
  exact absurd (blankLasts_searches.symm.trans hest) (by decide)

end Sys2Proof.Machine

/-! ## Support of `ChecksStartAndEnd` and `AmplifierFaultsAndRetries`: LPn_ENA, port states, the start of a check, and a fault of a
quiet port. -/

namespace Sys2Proof.Machine

/-! ### LPn_ENA (R86) -/

/-- What a port keeps where LPn_ENA is high since `n`. -/
def LptSt.enaFrom (n : Nat) (x : LptSt) : LptSt := { x with enaSince := n }

section
variable (s : State) (p : Nat) (on : Bool) (t : Nat)

/-- What driving LPn_ENA can do. -/
theorem State.setEna_cases : s.flag (Pg.LPT p) LPT.ENA = on ∧ s.setEna p on t = s ∨
    on = false ∧ s.setEna p on t = s.put (Pg.LPT p) LPT.ENA on.toNat ∨
    on = true ∧ s.setEna p on t = (s.put (Pg.LPT p) LPT.ENA on.toNat).setLpt p ((s.lptSt p).enaFrom t) := by
  unfold State.setEna
  by_cases h : s.flag (Pg.LPT p) LPT.ENA = on
  · exact .inl ⟨h, if_pos h⟩
  · rw [if_neg h]
    cases on with
    | false => exact .inr (.inl ⟨rfl, if_neg Bool.false_ne_true⟩)
    | true => exact .inr (.inr ⟨rfl, by rw [← State.lptSt_put p s (Pg.LPT p) LPT.ENA true.toNat]; exact if_pos rfl⟩)

theorem State.get_setEna_self : (s.setEna p on t).get (Pg.LPT p) LPT.ENA = on.toNat := by
  have hput := State.get_put_bit s (Pg.LPT p) LPT.ENA on (by decide) rfl
  rcases s.setEna_cases p on t with ⟨hflag, h⟩ | ⟨-, h⟩ | ⟨-, h⟩
  · rw [h]
    cases on with
    | false => exact State.get_eq_zero_of_flag hflag
    | true => exact State.get_eq_one_of_flag rfl hflag
  · rw [h, hput]
  · rw [h, State.setLpt_get, hput]

/-- Driving LPn_ENA changes no other field of the port's page. -/
theorem State.get_setEna_beside {g : Fld} (hg : LPT.ENA.off ≠ g.off ∨ g.lsb + g.w ≤ LPT.ENA.lsb ∨ LPT.ENA.lsb + LPT.ENA.w ≤ g.lsb) :
    (s.setEna p on t).get (Pg.LPT p) g = s.get (Pg.LPT p) g := by
  have hput := State.get_put_beside s (Pg.LPT p) LPT.ENA g on.toNat ⟨by decide, hg⟩
  rcases s.setEna_cases p on t with ⟨-, h⟩ | ⟨-, h⟩ | ⟨-, h⟩
  · rw [h]
  · rw [h, hput]
  · rw [h, State.setLpt_get, hput]

/-- A port notes since when LPn_ENA is high, and nothing else. -/
theorem State.lptSt_setEna : ∃ n, (s.setEna p on t).lptSt p = (s.lptSt p).enaFrom n := by
  rcases s.setEna_cases p on t with ⟨-, h⟩ | ⟨-, h⟩ | ⟨-, h⟩
  · exact ⟨(s.lptSt p).enaSince, by rw [h]; rfl⟩
  · exact ⟨(s.lptSt p).enaSince, by rw [h, State.lptSt_put]; rfl⟩
  · exact ⟨t, by rw [h, State.lptSt_setLpt_same]⟩

theorem State.lpt_setEna_false : (s.setEna p false t).lpt = s.lpt := by
  rcases s.setEna_cases p false t with ⟨-, h⟩ | ⟨-, h⟩ | ⟨hon, -⟩
  · rw [h]
  · rw [h, State.put_lpt]
  · exact absurd hon Bool.false_ne_true

theorem State.setEna_mir : (s.setEna p on t).mir = s.mir := by
  rcases s.setEna_cases p on t with ⟨-, h⟩ | ⟨-, h⟩ | ⟨-, h⟩
  · rw [h]
  · rw [h, State.put_mir]
  · rw [h, State.setLpt_mir, State.put_mir]

theorem State.setEna_dram : (s.setEna p on t).dram = s.dram := by
  rcases s.setEna_cases p on t with ⟨-, h⟩ | ⟨-, h⟩ | ⟨-, h⟩
  · rw [h]
  · rw [h, State.put_dram]
  · rw [h, State.setLpt_dram, State.put_dram]

end

theorem State.LptOnly.setEna {touched : Nat → Prop} {b s : State} (h : b.LptOnly touched s) {p : Nat}
    (ht : touched (addrOf (Pg.LPT p) LPT.ENA.off)) (on : Bool) (t : Nat) : b.LptOnly touched (s.setEna p on t) := by
  rcases s.setEna_cases p on t with ⟨-, he⟩ | ⟨-, he⟩ | ⟨-, he⟩ <;> rw [he]
  · exact h
  · exact h.put _ ht
  · exact (h.put _ ht).setLpt _ _

/-! ### Port states (R93) -/

theorem State.lptTo_of_ne {s : State} {p st : Nat} (h : s.lps p ≠ st) :
    s.lptTo p st = (s.put (Pg.LPT p) LPT.STATE st).event (Pg.LPT p) LPT.EV_STATE_CHANGE := if_neg h

/-- STATE of a port after a command. -/
theorem State.lps_settle (s : State) {p : Nat} (hp : p < 16) : s.settle.lps p = s.lps p :=
  State.get_settle_beside s (lptPage_beside hp) (by decide)

/-! ### The start of a check (R91, R93) -/

/-- What a port keeps once a pilot has been asked for, `tx` where the TX AFE domain is on. -/
def LptSt.asked (tx : Bool) (t : Nat) (x : LptSt) : LptSt :=
  { x with pilot := tx, pilotAt := if tx then t else 0, piloted := false }

/-- What a port keeps once a check has begun. -/
def LptSt.begun (t : Nat) (polar : Bool) (x : LptSt) : LptSt :=
  { x with checking := true, checkAt := t, polar := polar, ocFound := false }

/-- Between `s` and `u` port p keeps `x`, but for the instant since which LPn_ENA is high, and LPn_ENA is high where `tx` holds. -/
structure State.Driven (p : Nat) (tx : Bool) (x : LptSt) (s u : State) : Prop where
  record : ∃ n, u.lptSt p = x.enaFrom n
  ena : tx = true → u.get (Pg.LPT p) LPT.ENA = 1
  beside : ∀ g : Fld, LPT.ENA.off ≠ g.off ∨ g.lsb + g.w ≤ LPT.ENA.lsb ∨ LPT.ENA.lsb + LPT.ENA.w ≤ g.lsb →
    u.get (Pg.LPT p) g = s.get (Pg.LPT p) g
  mir : u.mir = s.mir
  dram : u.dram = s.dram

theorem State.driven_onlyIf (s : State) (p t : Nat) (tx : Bool) : s.Driven p tx (s.lptSt p) (onlyIf tx (State.setEna p true t) s) := by
  cases tx with
  | false =>
    rw [onlyIf_false]
    exact ⟨⟨(s.lptSt p).enaSince, rfl⟩, fun h => absurd h Bool.false_ne_true, fun _ _ => rfl, rfl, rfl⟩
  | true =>
    rw [onlyIf_true]
    exact ⟨State.lptSt_setEna s p true t, fun _ => State.get_setEna_self s p true t, fun g hg => State.get_setEna_beside s p true t hg,
      State.setEna_mir s p true t, State.setEna_dram s p true t⟩

theorem State.startPilot_eq (s : State) (p t : Nat) : s.startPilot p t = onlyIf (s.domOn (112 + p)) (State.setEna p true t)
    (s.modLpt p (LptSt.asked (s.domOn (112 + p)) t)) := rfl

theorem State.startPilot_drives (s : State) (p t : Nat) :
    s.Driven p (s.domOn (112 + p)) ((s.lptSt p).asked (s.domOn (112 + p)) t) (s.startPilot p t) := by
  rw [State.startPilot_eq, ← State.lptSt_modLpt_same p s (LptSt.asked (s.domOn (112 + p)) t)]
  obtain ⟨hrecord, hena, hbeside, hmir, hdram⟩ :=
    State.driven_onlyIf (s.modLpt p (LptSt.asked (s.domOn (112 + p)) t)) p t (s.domOn (112 + p))
  exact ⟨hrecord, hena, hbeside, hmir, hdram⟩

theorem State.startCheck_drives (s : State) (p t : Nat) (polar : Bool) :
    s.Driven p (s.domOn (112 + p)) (((s.lptSt p).begun t polar).asked (s.domOn (112 + p)) t) (s.startCheck p t polar) := by
  rw [← State.lptSt_modLpt_same p s (LptSt.begun t polar)]
  obtain ⟨hrecord, hena, hbeside, hmir, hdram⟩ := State.startPilot_drives (s.modLpt p (LptSt.begun t polar)) p t
  exact ⟨hrecord, hena, hbeside, hmir, hdram⟩

section
variable {touched : Nat → Prop} {b s : State} (h : b.LptOnly touched s) {p : Nat} (ht : touched (addrOf (Pg.LPT p) LPT.ENA.off))
include h ht

theorem State.LptOnly.startPilot (t : Nat) : b.LptOnly touched (s.startPilot p t) :=
  (h.modLpt _ _).onlyIf _ ((h.modLpt _ _).setEna ht _ _)

theorem State.LptOnly.startCheck (t : Nat) (polar : Bool) : b.LptOnly touched (s.startCheck p t polar) :=
  (h.modLpt _ _).startPilot ht t

end

/-- What changes one port's page changes no power domain. -/
theorem State.domOn_otherPage {touched : Nat → Prop} {s u : State} {p d : Nat} (h : s.RegsKept touched u)
    (ht : ∀ a, touched a → onPages [Pg.LPT p] a) (hd : d < 256) : u.domOn d = s.domOn d := by
  have hpg : Pg.PWD1 ≠ Pg.LPT p := by unfold Pg.PWD1 Pg.LPT; omega
  unfold State.domOn State.get
  rw [State.reg_otherPage h ht hpg (by decide) (pwdState_off hd)]

/-! ### Entry to CHECK (R93, R94) -/

/-- The registers of a port that has entered CHECK with `v` retries. -/
def State.checkEntered (p v : Nat) (s : State) : State :=
  ((s.put (Pg.LPT p) LPT.RETRIES v).put (Pg.LPT p) LPT.STATE LS.CHECK).event (Pg.LPT p) LPT.EV_STATE_CHANGE

theorem State.lptTo_check {s : State} {p v : Nat} (h : s.lps p ≠ LS.CHECK) :
    (s.put (Pg.LPT p) LPT.RETRIES v).lptTo p LS.CHECK = s.checkEntered p v := by
  refine State.lptTo_of_ne ?_
  rw [State.lps, State.get_put_beside _ _ _ _ _ (by decide)]
  exact h

section
variable {touched : Nat → Prop} {b s : State} (hb : b.LptOnly touched s) {p : Nat} (hstate : touched (addrOf (Pg.LPT p) LPT.STATE.off))
  (hevents : touched (addrOf (Pg.LPT p) CMN.EVENTS))
include hb hstate hevents

theorem State.LptOnly.checkEntered (v : Nat) : b.LptOnly touched (s.checkEntered p v) :=
  ((hb.put (f := LPT.RETRIES) v hstate).put (f := LPT.STATE) _ hstate).event hevents

theorem State.LptOnly.checkStarted (v t : Nat) (polar : Bool) : b.LptOnly touched ((s.checkEntered p v).startCheck p t polar) :=
  (hb.checkEntered hstate hevents v).startCheck hstate t polar

end

section
variable (s : State) (p v : Nat)

theorem State.checkEntered_mir : (s.checkEntered p v).mir = s.mir := by
  rw [State.checkEntered, State.event_mir, State.put_mir, State.put_mir]

theorem State.checkEntered_dram : (s.checkEntered p v).dram = s.dram := by
  rw [State.checkEntered, State.event_dram, State.put_dram, State.put_dram]

end

/-- What a port that enters CHECK changes. -/
theorem State.LptOnly.regsOnly_checkStarted {touched : Nat → Prop} {b s : State} {p : Nat} (hb : b.LptOnly touched s)
    (hmir : s.mir = b.mir) (hdram : s.dram = b.dram) (hstate : touched (addrOf (Pg.LPT p) LPT.STATE.off))
    (hevents : touched (addrOf (Pg.LPT p) CMN.EVENTS)) (v t : Nat) (polar : Bool) :
    let u := ((s.checkEntered p v).startCheck p t polar).settle
    State.RegsOnly touched { b with lpt := u.lpt } u := by
  have hdriven := State.startCheck_drives (s.checkEntered p v) p t polar
  refine (hb.checkStarted hstate hevents v t polar).regsOnly_lpt ?_ ?_
  · rw [hdriven.mir, State.checkEntered_mir, hmir]
  · rw [hdriven.dram, State.checkEntered_dram, hdram]

section
variable {s : State} {p : Nat} (hp : p < 16)
include hp

theorem State.domOn_checkEntered (v : Nat) : (s.checkEntered p v).domOn (112 + p) = s.domOn (112 + p) := by
  refine State.domOn_otherPage (touched := onPages [Pg.LPT p]) (p := p) ?_ (fun _ h => h) (by omega)
  exact ((State.lptOnly_refl _ s).checkEntered ((onPages_addrOf (by decide)).mpr List.mem_cons_self)
    ((onPages_addrOf (by decide)).mpr List.mem_cons_self) v).kept

/-- A port that enters CHECK starts a full check. -/
theorem State.checkStarted_shows (v t : Nat) :
    let u := ((s.checkEntered p v).startCheck p t true).settle
    (u.lps p = LS.CHECK ∧ u.get (Pg.LPT p) LPT.RETRIES = v % 256 ∧ u.get (Pg.LPT p) LPT.EV_STATE_CHANGE = 1 ∧
      (s.domOn (112 + p) = true → u.get (Pg.LPT p) LPT.ENA = 1)) ∧
    (u.lptSt p).checking = true ∧ (u.lptSt p).checkAt = t ∧ (u.lptSt p).polar = true ∧ (u.lptSt p).pilot = s.domOn (112 + p) := by
  obtain ⟨⟨n, hrecord⟩, hena, hbeside, -, -⟩ := State.startCheck_drives (s.checkEntered p v) p t true
  rw [State.domOn_checkEntered hp] at hrecord hena
  have hpg := lptPage_beside hp
  refine ⟨⟨?_, ?_, ?_, fun htx => ?_⟩, ?_⟩
  · rw [State.lps, State.get_settle_beside _ hpg (by decide), hbeside _ (by decide)]
    simp (disch := decide) only [State.checkEntered, State.get_event_beside, State.get_put_same]
    rfl
  · rw [State.get_settle_beside _ hpg (by decide), hbeside _ (by decide)]
    simp (disch := decide) only [State.checkEntered, State.get_event_beside, State.get_put_beside, State.get_put_same]
    rfl
  · rw [State.get_settle_beside _ hpg (by decide), hbeside _ (by decide), State.checkEntered, State.get_event_set _ (by decide)]
  · rw [State.get_settle_beside _ hpg (by decide), hena htx]
  · rw [State.lptSt_settle, hrecord]
    exact ⟨rfl, rfl, rfl, rfl⟩

end

end Sys2Proof.Machine

/-! ### Faults of a quiet port (R93, R95) -/

namespace Sys2Proof.Machine

/-- What a port keeps once its checks and its pilot have ended. -/
def LptSt.out (x : LptSt) : LptSt := { x with pilot := false, piloted := false, checking := false }

/-- What a port keeps whose retry falls due at `n`. -/
def LptSt.retry (n : Nat) (x : LptSt) : LptSt := { x with retryDue := n }

/-- The registers of a port that has entered FAULT, LPn_ENA beside. -/
def State.faultShown (p cause : Nat) (s : State) : State :=
  ((((s.put (Pg.LPT p) LPT.CAUSE cause).put (Pg.LPT p) LPT.STATE LS.FAULT).event (Pg.LPT p) LPT.EV_STATE_CHANGE).count (Pg.LPT p)
    LPT.FAULT_CNT).put (Pg.LPT p) LPT.TX_AVAIL 0

/-- A quiet port has entered FAULT at tick `t`. -/
def State.faultEntered (p cause t : Nat) (s : State) : State :=
  (((s.faultShown p cause).modLpt p LptSt.out).setEna p false t).modLpt p (LptSt.retry (s.retryAt p t))

/-- What changes a port's registers and record alone leaves a quiet port quiet. -/
theorem State.QuietPort.of_lptOnly {touched : Nat → Prop} {s u : State} {p : Nat} (hq : s.QuietPort p) (h : s.LptOnly touched u)
    (ht : ∀ a, touched a → onPages [Pg.LPT p] a) (hp : p < 16) : u.QuietPort p := by
  obtain ⟨hlanes, hnext, htrains, hqueues, htrig⟩ := hq
  have hmir : Pg.MIR ≠ Pg.LPT p := by unfold Pg.MIR Pg.LPT; omega
  have htrig' : u.get Pg.MIR MIR.TRIG_EN = s.get Pg.MIR MIR.TRIG_EN := by
    unfold State.get
    rw [State.reg_otherPage h.kept ht hmir (by decide) (by decide)]
  refine ⟨?_, ?_, ?_, ?_, by rw [htrig', htrig]⟩ <;> rw [h.rest]
  · exact hlanes
  · exact hnext
  · exact htrains
  · exact hqueues

theorem State.abortPort_of_noLanes {s : State} {p : Nat} (hlanes : s.portLanes p = []) (why : AbortCause) (t : Nat) :
    s.abortPort p why t = if why = .overcurrent then s else s.dropC0Next p t := by
  unfold State.abortPort
  rw [hlanes]
  rfl

theorem State.portOut_of_quiet {s : State} {p : Nat} (hq : s.QuietPort p) (t : Nat) :
    s.portOut p t = (s.modLpt p LptSt.out).setEna p false t := by
  obtain ⟨hlanes, hnext, htrains, hqueues, -⟩ := hq
  have habort : s.abortPort p .fault t = s := by
    rw [State.abortPort_of_noLanes hlanes, if_neg (by decide), State.dropC0Next, hnext]
  have hoffline : s.offLineFault p t = s := by
    unfold State.offLineFault
    rw [hqueues]
    rfl
  unfold State.portOut
  simp only [habort, hoffline, htrains]
  rfl

theorem State.trigger_of_disabled {s : State} {src : Nat} (h : bitOf (s.get Pg.MIR MIR.TRIG_EN) src = 0) (t : Nat) :
    s.trigger src t = s := if_pos (.inr h)

section
variable {touched : Nat → Prop} {b s : State} (hb : b.LptOnly touched s) {p : Nat} (hstate : touched (addrOf (Pg.LPT p) LPT.STATE.off))
  (hevents : touched (addrOf (Pg.LPT p) CMN.EVENTS)) (hcnt : touched (addrOf (Pg.LPT p) LPT.FAULT_CNT.off))
include hb hstate hevents hcnt

theorem State.LptOnly.faultShown (cause : Nat) : b.LptOnly touched (s.faultShown p cause) :=
  (((((hb.put (f := LPT.CAUSE) _ hstate).put (f := LPT.STATE) _ hstate).event hevents).count hcnt).put (f := LPT.TX_AVAIL) _ hstate)

theorem State.LptOnly.faultEntered (cause t : Nat) : b.LptOnly touched (s.faultEntered p cause t) :=
  ((((hb.faultShown hstate hevents hcnt cause).modLpt _ _).setEna hstate _ _).modLpt _ _)

end

section
variable (s : State) (p cause t : Nat)

theorem State.retryAt_congr {u v : State} (hretries : u.get (Pg.LPT p) LPT.RETRIES = v.get (Pg.LPT p) LPT.RETRIES)
    (hfirst : u.get (Pg.LPT p) LPT.RETRY_FIRST_MS = v.get (Pg.LPT p) LPT.RETRY_FIRST_MS)
    (hmax : u.get (Pg.LPT p) LPT.RETRY_MAX_S = v.get (Pg.LPT p) LPT.RETRY_MAX_S) : u.retryAt p t = v.retryAt p t := by
  unfold State.retryAt
  simp only [hretries, hfirst, hmax]

theorem State.get_faultShown_beside {g : Fld} (h : LPT.STATE.off ≠ g.off ∧ CMN.EVENTS ≠ g.off ∧ LPT.FAULT_CNT.off ≠ g.off) :
    (s.faultShown p cause).get (Pg.LPT p) g = s.get (Pg.LPT p) g := by
  obtain ⟨hstate, hevents, hcnt⟩ := h
  rw [State.faultShown, State.get_put_beside _ _ LPT.TX_AVAIL _ _ ⟨by decide, .inl hstate⟩, State.get_count_beside _ hcnt,
    State.get_event_beside _ _ _ _ hevents, State.get_put_beside _ _ LPT.STATE _ _ ⟨by decide, .inl hstate⟩,
    State.get_put_beside _ _ LPT.CAUSE _ _ ⟨by decide, .inl hstate⟩]

/-- The fields that a fault leaves as they were. -/
theorem State.get_faultEntered_beside {g : Fld} (h : LPT.STATE.off ≠ g.off ∧ CMN.EVENTS ≠ g.off ∧ LPT.FAULT_CNT.off ≠ g.off) :
    (s.faultEntered p cause t).get (Pg.LPT p) g = s.get (Pg.LPT p) g := by
  rw [State.faultEntered, State.modLpt_get, State.get_setEna_beside _ _ _ _ (.inl h.1), State.modLpt_get,
    State.get_faultShown_beside _ _ _ h]

/-- The level at LPn_FLT_N and the other events show as before. -/
theorem State.get_faultEntered_flt : (s.faultEntered p cause t).get (Pg.LPT p) LPT.FLT = s.get (Pg.LPT p) LPT.FLT := by
  simp (disch := decide) only [State.faultEntered, State.faultShown, State.modLpt_get, State.get_setEna_beside, State.get_put_beside,
    State.get_count_beside, State.get_event_beside]

theorem State.get_faultEntered_otherEvent {g : Fld} (h : g.off = CMN.EVENTS ∧ g.w = 1 ∧ g.lsb ≠ LPT.EV_STATE_CHANGE.lsb) :
    (s.faultEntered p cause t).get (Pg.LPT p) g = s.get (Pg.LPT p) g := by
  obtain ⟨hoff, hw, hne⟩ := h
  have hstate : LPT.STATE.off ≠ g.off := by rw [hoff]; decide
  rw [State.faultEntered, State.modLpt_get, State.get_setEna_beside _ _ _ _ (.inl hstate), State.modLpt_get,
    State.faultShown, State.get_put_beside _ _ LPT.TX_AVAIL _ _ ⟨by decide, .inl hstate⟩,
    State.get_count_beside _ (by rw [hoff]; decide), State.get_event_otherBit _ ⟨hoff, hw, by decide, hne⟩,
    State.get_put_beside _ _ LPT.STATE _ _ ⟨by decide, .inl hstate⟩, State.get_put_beside _ _ LPT.CAUSE _ _ ⟨by decide, .inl hstate⟩]

theorem State.get_faultEntered_cnt : (s.faultEntered p cause t).get (Pg.LPT p) LPT.FAULT_CNT =
    (((s.put (Pg.LPT p) LPT.CAUSE cause).put (Pg.LPT p) LPT.STATE LS.FAULT).event (Pg.LPT p) LPT.EV_STATE_CHANGE |>.count (Pg.LPT p)
      LPT.FAULT_CNT).get (Pg.LPT p) LPT.FAULT_CNT := by
  simp (disch := decide) only [State.faultEntered, State.faultShown, State.modLpt_get, State.get_setEna_beside, State.get_put_beside]

/-- What a fault shows. -/
theorem State.faultEntered_shows (hcause : cause < 8) : let u := s.faultEntered p cause t
    u.lps p = LS.FAULT ∧ u.get (Pg.LPT p) LPT.CAUSE = cause ∧ u.get (Pg.LPT p) LPT.ENA = 0 ∧ u.get (Pg.LPT p) LPT.TX_AVAIL = 0 ∧
      u.get (Pg.LPT p) LPT.EV_STATE_CHANGE = 1 := by
  refine ⟨?_, ?_, ?_, ?_, ?_⟩
  · rw [State.lps]
    simp (disch := decide) only [State.faultEntered, State.faultShown, State.modLpt_get, State.get_setEna_beside, State.get_put_beside,
      State.get_count_beside, State.get_event_beside, State.get_put_same]
    rfl
  · simp (disch := decide) only [State.faultEntered, State.faultShown, State.modLpt_get, State.get_setEna_beside, State.get_put_beside,
      State.get_count_beside, State.get_event_beside, State.get_put_same]
    exact Nat.mod_eq_of_lt hcause
  · rw [State.faultEntered, State.modLpt_get, State.get_setEna_self]
    rfl
  · simp (disch := decide) only [State.faultEntered, State.faultShown, State.modLpt_get, State.get_setEna_beside, State.get_put_same]
    rfl
  · simp (disch := decide) only [State.faultEntered, State.faultShown, State.modLpt_get, State.get_setEna_beside, State.get_put_beside,
      State.get_count_beside, State.get_event_set]

theorem State.faultShown_mir : (s.faultShown p cause).mir = s.mir := by
  rw [State.faultShown, State.put_mir, State.count_mir, State.event_mir, State.put_mir, State.put_mir]

theorem State.faultShown_dram : (s.faultShown p cause).dram = s.dram := by
  rw [State.faultShown, State.put_dram, State.count_dram, State.event_dram, State.put_dram, State.put_dram]

theorem State.faultEntered_mir : (s.faultEntered p cause t).mir = s.mir := by
  rw [State.faultEntered, State.modLpt, State.setLpt_mir, State.setEna_mir, State.modLpt, State.setLpt_mir, State.faultShown_mir]

theorem State.faultEntered_dram : (s.faultEntered p cause t).dram = s.dram := by
  rw [State.faultEntered, State.modLpt, State.setLpt_dram, State.setEna_dram, State.modLpt, State.setLpt_dram, State.faultShown_dram]

theorem State.lptSt_faultEntered : ∃ n, (s.faultEntered p cause t).lptSt p =
    (((s.lptSt p).out).enaFrom n).retry (s.retryAt p t) := by
  obtain ⟨n, h⟩ := State.lptSt_setEna ((s.faultShown p cause).modLpt p LptSt.out) p false t
  refine ⟨n, ?_⟩
  rw [State.faultEntered, State.lptSt_modLpt_same, h, State.lptSt_modLpt_same]
  simp only [State.faultShown, State.lptSt_put, State.lptSt_count, State.lptSt_event]

end

section
variable {s : State} {p : Nat} (hp : p < 16)
include hp

theorem State.counted_faultEntered {b : State} (hcnt : s.get (Pg.LPT p) LPT.FAULT_CNT = b.get (Pg.LPT p) LPT.FAULT_CNT)
    (hfreeze : s.get (Pg.LPT p) CTRL.FREEZE_CNT = b.get (Pg.LPT p) CTRL.FREEZE_CNT) (cause t : Nat) :
    b.Counted (Pg.LPT p) LPT.FAULT_CNT (s.faultEntered p cause t).settle := by
  refine State.counted_settle (lptPage_beside hp) (by decide) (State.get_faultEntered_cnt s p cause t) ?_ ?_
  · simp (disch := decide) only [State.get_put_beside, State.get_event_beside, hcnt]
  · simp (disch := decide) only [State.get_put_beside, State.get_event_beside, hfreeze]

/-- A fault of a quiet port, without a limit of retries. -/
theorem State.portFault_of_quiet (hq : s.QuietPort p) (hlimit : s.get (Pg.LPT p) LPT.RETRY_LIMIT = 0) (hstate : s.lps p ≠ LS.FAULT)
    (cause t : Nat) : s.portFault p cause t = s.faultEntered p cause t := by
  have hpage : ∀ off, off < 4096 → onPages [Pg.LPT p] (addrOf (Pg.LPT p) off) := fun off hoff =>
    (onPages_addrOf hoff).mpr List.mem_cons_self
  have hshown : s.LptOnly (onPages [Pg.LPT p]) (s.faultShown p cause) :=
    (State.lptOnly_refl _ s).faultShown (hpage _ (by decide)) (hpage _ (by decide)) (hpage _ (by decide)) cause
  have hout : s.LptOnly (onPages [Pg.LPT p]) (((s.faultShown p cause).modLpt p LptSt.out).setEna p false t) :=
    (hshown.modLpt _ _).setEna (hpage _ (by decide)) _ _
  have hto : (s.put (Pg.LPT p) LPT.CAUSE cause).lptTo p LS.FAULT =
      ((s.put (Pg.LPT p) LPT.CAUSE cause).put (Pg.LPT p) LPT.STATE LS.FAULT).event (Pg.LPT p) LPT.EV_STATE_CHANGE := by
    refine State.lptTo_of_ne ?_
    rw [State.lps, State.get_put_beside _ _ _ _ _ (by decide)]
    exact hstate
  have hportOut := State.portOut_of_quiet (hq.of_lptOnly hshown (fun _ h => h) hp) t
  have htrig := State.trigger_of_disabled (hq.of_lptOnly hout (fun _ h => h) hp).2.2.2.2 t
  have hbeside : ∀ g : Fld, LPT.STATE.off ≠ g.off ∧ CMN.EVENTS ≠ g.off ∧ LPT.FAULT_CNT.off ≠ g.off →
      (((s.faultShown p cause).modLpt p LptSt.out).setEna p false t).get (Pg.LPT p) g = s.get (Pg.LPT p) g := fun g hg => by
    rw [State.get_setEna_beside _ _ _ _ (.inl hg.1), State.modLpt_get, State.get_faultShown_beside _ _ _ hg]
  have hretries : (((s.faultShown p cause).modLpt p LptSt.out).setEna p false t).get (Pg.LPT p) LPT.RETRIES =
      s.get (Pg.LPT p) LPT.RETRIES := by
    simp (disch := decide) only [State.faultShown, State.modLpt_get, State.get_setEna_beside, State.get_put_beside,
      State.get_count_beside, State.get_event_beside]
  have hretryAt := State.retryAt_congr p t hretries (hbeside _ (by decide)) (hbeside _ (by decide))
  have hnolimit : (s.faultEntered p cause t).get (Pg.LPT p) LPT.RETRY_LIMIT = 0 := by
    rw [State.get_faultEntered_beside _ _ _ _ (by decide), hlimit]
  unfold State.portFault
  dsimp only
  rw [hto, ← State.faultShown, hportOut, htrig, hretryAt]
  exact if_neg fun h => h.1 hnolimit

end

end Sys2Proof.Machine

/-! ## Support of `AmplifierFaultsAndRetries` (R87, R88, R94). -/

namespace Sys2Proof.Machine

/-! ### LPn_FLT_N (R87) -/

/-- What a port keeps of the level at LPn_FLT_N. -/
def LptSt.fltSeen (low : Bool) (since : Nat) (x : LptSt) : LptSt := { x with fltLow := low, fltSince := since }

/-- The level at LPn_FLT_N shows. -/
def State.fltShown (p : Nat) (low : Bool) (since : Nat) (s : State) : State :=
  (s.modLpt p (LptSt.fltSeen low since)).put (Pg.LPT p) LPT.FLT low.toNat

section
variable (s : State) (p : Nat) (low : Bool) (since : Nat)

theorem State.fltShown_mir : (s.fltShown p low since).mir = s.mir := by
  rw [State.fltShown, State.put_mir, State.modLpt, State.setLpt_mir]

theorem State.fltShown_dram : (s.fltShown p low since).dram = s.dram := by
  rw [State.fltShown, State.put_dram, State.modLpt, State.setLpt_dram]

end

/-- An amplifier fault shows. -/
def State.ampFaultNoted (p since : Nat) (s : State) : State := (s.fltShown p true since).event (Pg.LPT p) LPT.EV_AMP_FAULT

section
variable {s : State} {tick p since : Nat} (hp : p < 16)

theorem State.ampFault_of_enaLow (hena : s.flag (Pg.LPT p) LPT.ENA = false) (low : Bool) :
    s.ampFault tick p low since = s.fltShown p low since := by
  refine if_neg ?_
  rintro ⟨-, hhigh, -⟩
  have hflag : (s.fltShown p low since).flag (Pg.LPT p) LPT.ENA = false := by
    rw [State.flag, State.fltShown, State.get_put_beside _ _ _ _ _ (by decide), State.modLpt_get]
    exact hena
  exact Bool.false_ne_true (hflag.symm.trans hhigh)

theorem State.ampFault_of_fault (hstate : s.lps p = LS.SERVICE) (hena : s.flag (Pg.LPT p) LPT.ENA = true)
    (hlong : Nat.max since ((s.lptSt p).enaSince + usTicks 20) + usTicks 10 ≤ tick) : s.ampFault tick p true since =
      (s.ampFaultNoted p since).portFault p LC.AMP_FAULT tick := by
  have hkept : ((s.fltShown p true since).lptSt p).enaSince = (s.lptSt p).enaSince := by
    rw [State.fltShown, State.lptSt_put, State.lptSt_modLpt_same]
    rfl
  refine if_pos ⟨rfl, ?_, ?_, .inl ?_⟩
  · change (s.fltShown p true since).flag (Pg.LPT p) LPT.ENA = true
    rw [State.flag, State.fltShown, State.get_put_beside _ _ _ _ _ (by decide), State.modLpt_get]
    exact hena
  · change Nat.max since (((s.fltShown p true since).lptSt p).enaSince + usTicks 20) + usTicks 10 ≤ tick
    rw [hkept]
    exact hlong
  · change (s.fltShown p true since).lps p = LS.SERVICE
    rw [State.lps, State.fltShown, State.get_put_beside _ _ _ _ _ (by decide), State.modLpt_get]
    exact hstate

include hp

/-- While LPn_ENA is low the level only shows. -/
theorem ampFault_shows_level (hena : s.flag (Pg.LPT p) LPT.ENA = false) (low : Bool) :
    let t := ((s.atTick tick).ampFault tick p low since).settle
    t.get (Pg.LPT p) LPT.FLT = low.toNat ∧ t.lps p = s.lps p ∧
      State.RegsOnly (regsAt [(Pg.LPT p, LPT.FLT.off)]) { s.atTick tick with lpt := t.lpt } t := by
  have hpg := lptPage_beside hp
  rw [State.ampFault_of_enaLow (s := s.atTick tick) hena]
  refine ⟨?_, ?_, ?_⟩
  · rw [State.get_settle_beside _ hpg (by decide), State.fltShown, State.get_put_bit _ _ _ _ (by decide) rfl]
  · rw [State.lps_settle _ hp, State.lps, State.fltShown, State.get_put_beside _ _ _ _ _ (by decide), State.modLpt_get]
    rfl
  · exact (((State.lptOnly_refl _ _).modLpt _ _).put _ (regsAt_of_mem (by simp))).regsOnly_lpt
      (State.fltShown_mir _ _ _ _) (State.fltShown_dram _ _ _ _)

/-- An amplifier fault takes a quiet port to FAULT. -/
theorem ampFault_faults (hq : s.QuietPort p) (hlimit : s.get (Pg.LPT p) LPT.RETRY_LIMIT = 0) (hstate : s.lps p = LS.SERVICE)
    (hena : s.flag (Pg.LPT p) LPT.ENA = true) (hlong : Nat.max since ((s.lptSt p).enaSince + usTicks 20) + usTicks 10 ≤ tick) :
    let t := ((s.atTick tick).ampFault tick p true since).settle
    t.lps p = LS.FAULT ∧ t.get (Pg.LPT p) LPT.CAUSE = LC.AMP_FAULT ∧ t.get (Pg.LPT p) LPT.ENA = 0 ∧
      t.get (Pg.LPT p) LPT.TX_AVAIL = 0 ∧ t.get (Pg.LPT p) LPT.FLT = 1 ∧ t.get (Pg.LPT p) LPT.EV_AMP_FAULT = 1 ∧
      t.get (Pg.LPT p) LPT.EV_STATE_CHANGE = 1 ∧ s.Counted (Pg.LPT p) LPT.FAULT_CNT t ∧
      State.RegsOnly (regsAt [(Pg.LPT p, LPT.STATE.off), (Pg.LPT p, CMN.EVENTS), (Pg.LPT p, LPT.FAULT_CNT.off)])
        { s.atTick tick with lpt := t.lpt } t := by
  have hpg := lptPage_beside hp
  have hframe : ∀ touched : Nat → Prop, touched (addrOf (Pg.LPT p) LPT.STATE.off) → touched (addrOf (Pg.LPT p) CMN.EVENTS) →
      (s.atTick tick).LptOnly touched ((s.atTick tick).ampFaultNoted p since) := fun touched hstate hevents =>
    (((State.lptOnly_refl _ _).modLpt _ _).put (f := LPT.FLT) _ hstate).event hevents
  have hquiet : ((s.atTick tick).ampFaultNoted p since).QuietPort p := State.QuietPort.of_lptOnly (s :=
      s.atTick tick) hq (hframe (onPages [Pg.LPT p])
    ((onPages_addrOf (by decide)).mpr List.mem_cons_self) ((onPages_addrOf (by decide)).mpr List.mem_cons_self)) (fun _ h => h) hp
  have hbeside : ∀ g : Fld, LPT.FLT.off ≠ g.off ∨ g.lsb + g.w ≤ LPT.FLT.lsb ∨ LPT.FLT.lsb + LPT.FLT.w ≤ g.lsb → CMN.EVENTS ≠ g.off →
      ((s.atTick tick).ampFaultNoted p since).get (Pg.LPT p) g = s.get (Pg.LPT p) g := fun g hflt hevents => by
    rw [State.ampFaultNoted, State.get_event_beside _ _ _ _ hevents, State.fltShown, State.get_put_beside _ _ _ _ _ ⟨by decide, hflt⟩,
      State.modLpt_get]
    rfl
  have hservice : ((s.atTick tick).ampFaultNoted p since).lps p ≠ LS.FAULT := by
    rw [State.lps, hbeside _ (by decide) (by decide)]
    exact ne_of_eq_of_ne hstate (by decide)
  have hnolimit : ((s.atTick tick).ampFaultNoted p since).get (Pg.LPT p) LPT.RETRY_LIMIT = 0 := by rw [hbeside _ (by decide) (by decide),
      hlimit]
  have hexec : (s.atTick tick).ampFault tick p true since =
      ((s.atTick tick).ampFaultNoted p since).faultEntered p LC.AMP_FAULT tick :=
    (State.ampFault_of_fault (s := s.atTick tick) hstate hena hlong).trans (State.portFault_of_quiet hp hquiet hnolimit hservice _ _)
  rw [hexec]
  obtain ⟨hlps, hcause, hlow, havail, hevent⟩ := State.faultEntered_shows ((s.atTick tick).ampFaultNoted p since) p LC.AMP_FAULT tick (by decide)
  refine ⟨?_, ?_, ?_, ?_, ?_, ?_, ?_, ?_, ?_⟩
  · rw [State.lps_settle _ hp, hlps]
  · rw [State.get_settle_beside _ hpg (by decide), hcause]
  · rw [State.get_settle_beside _ hpg (by decide), hlow]
  · rw [State.get_settle_beside _ hpg (by decide), havail]
  · rw [State.get_settle_beside _ hpg (by decide), State.get_faultEntered_flt, State.ampFaultNoted,
      State.get_event_beside _ _ _ _ (by decide),
      State.fltShown, State.get_put_bit _ _ _ _ (by decide) rfl]
    rfl
  · rw [State.get_settle_beside _ hpg (by decide), State.get_faultEntered_otherEvent _ _ _ _ (by decide),
      State.ampFaultNoted, State.get_event_set _ (by decide)]
  · rw [State.get_settle_beside _ hpg (by decide), hevent]
  · exact State.counted_faultEntered hp (hbeside _ (by decide) (by decide)) (hbeside _ (by decide) (by decide)) _ _
  · refine ((hframe _ (regsAt_of_mem (by simp)) (regsAt_of_mem (by simp))).faultEntered (regsAt_of_mem (by simp))
      (regsAt_of_mem (by simp)) (regsAt_of_mem (by simp)) _ _).regsOnly_lpt ?_ ?_
    · rw [State.faultEntered_mir, State.ampFaultNoted, State.event_mir, State.fltShown_mir]
    · rw [State.faultEntered_dram, State.ampFaultNoted, State.event_dram, State.fltShown_dram]

end

/-! ### Overcurrents (R88) -/

/-- An overcurrent has been counted. -/
def State.ocNoted (p : Nat) (s : State) : State := (s.event (Pg.LPT p) LPT.EV_OVERCURRENT).count (Pg.LPT p) LPT.OC_CNT

/-- What a port keeps of its overcurrents. -/
def LptSt.struck (strikes : List Nat) (x : LptSt) : LptSt := { x with strikes := strikes }

/-- What a port keeps whose check has found an overcurrent. -/
def LptSt.overFound (x : LptSt) : LptSt := { x with ocFound := true }

/-- The overcurrents that count at tick `t`, the one at `t` first. -/
def State.strikesAt (s : State) (p t : Nat) : List Nat :=
  t :: (s.lptSt p).strikes.filter fun x => decide (t < x + msTicks (s.get (Pg.LPT p) LPT.OC_WINDOW_MS))

/-- An overcurrent of a quiet port has been noted. -/
def State.struck (p t : Nat) (s : State) : State := (s.ocNoted p).modLpt p (LptSt.struck (s.strikesAt p t))

section
variable (s : State) (p t : Nat)

theorem State.get_struck_beside {g : Fld} (h : CMN.EVENTS ≠ g.off ∧ LPT.OC_CNT.off ≠ g.off) :
    (s.struck p t).get (Pg.LPT p) g = s.get (Pg.LPT p) g := by
  rw [State.struck, State.modLpt_get, State.ocNoted, State.get_count_beside _ h.2, State.get_event_beside _ _ _ _ h.1]

theorem State.get_struck_event : (s.struck p t).get (Pg.LPT p) LPT.EV_OVERCURRENT = 1 := by
  rw [State.struck, State.modLpt_get, State.ocNoted, State.get_count_beside _ (by decide), State.get_event_set _ (by decide)]

theorem State.lptSt_struck : (s.struck p t).lptSt p = (s.lptSt p).struck (s.strikesAt p t) := by
  rw [State.struck, State.lptSt_modLpt_same, State.ocNoted, State.lptSt_count, State.lptSt_event]

theorem State.struck_mir : (s.struck p t).mir = s.mir := by
  rw [State.struck, State.modLpt, State.setLpt_mir, State.ocNoted, State.count_mir, State.event_mir]

theorem State.struck_dram : (s.struck p t).dram = s.dram := by
  rw [State.struck, State.modLpt, State.setLpt_dram, State.ocNoted, State.count_dram, State.event_dram]

end

theorem State.LptOnly.struck {touched : Nat → Prop} {b s : State} (hb : b.LptOnly touched s) {p : Nat}
    (hevents : touched (addrOf (Pg.LPT p) CMN.EVENTS)) (hcnt : touched (addrOf (Pg.LPT p) LPT.OC_CNT.off)) (t : Nat) :
    b.LptOnly touched (s.struck p t) := ((hb.event hevents).count hcnt).modLpt _ _

theorem State.counted_struck {b s : State} {p : Nat} (hp : p < 16) (hcnt : s.get (Pg.LPT p) LPT.OC_CNT = b.get (Pg.LPT p) LPT.OC_CNT)
    (hfreeze : s.get (Pg.LPT p) CTRL.FREEZE_CNT = b.get (Pg.LPT p) CTRL.FREEZE_CNT) {u : State}
    {t : Nat} (hu : u.get (Pg.LPT p) LPT.OC_CNT = (s.struck p t).get (Pg.LPT p) LPT.OC_CNT) :
    b.Counted (Pg.LPT p) LPT.OC_CNT u.settle := by
  refine State.counted_settle (u := s.event (Pg.LPT p) LPT.EV_OVERCURRENT) (lptPage_beside hp) (by decide) ?_ ?_ ?_
  · rw [hu, State.struck, State.modLpt_get, State.ocNoted]
  · rw [State.get_event_beside _ _ _ _ (by decide), hcnt]
  · rw [State.get_event_beside _ _ _ _ (by decide), hfreeze]

section
variable {s : State} {tick p since : Nat} {code : BitVec 12} (hp : p < 16)

/-- An overcurrent of a port with free lanes. -/
theorem State.overcurrent_of_noLanes (hlanes : s.portLanes p = []) (hstate : s.lps p = LS.SERVICE ∨ s.lps p = LS.CHECK)
    (hover : s.isOvercurrent tick p since code = true) : s.overcurrent tick p since code =
      if (s.strikesAt p tick).length < s.get (Pg.LPT p) LPT.OC_STRIKES then s.struck p tick
      else if s.lps p = LS.CHECK then (s.struck p tick).modLpt p LptSt.overFound
      else (s.struck p tick).portFault p LC.OVERCURRENT tick := by
  have hgoes : ¬ ((s.lps p ≠ LS.SERVICE ∧ s.lps p ≠ LS.CHECK) ∨ s.isOvercurrent tick p since code = false) := by
    rintro (⟨hservice, hcheck⟩ | hnone)
    · exact hstate.elim hservice hcheck
    · exact Bool.false_ne_true (hnone.symm.trans hover)
  have hnoted : ((s.ocNoted p).modLpt p (LptSt.struck (s.strikesAt p tick))).abortPort p .overcurrent tick = s.struck p tick := by
    have hframe : s.LptOnly (onPages [Pg.LPT p]) (s.struck p tick) := (State.lptOnly_refl _ s).struck
      ((onPages_addrOf (by decide)).mpr List.mem_cons_self) ((onPages_addrOf (by decide)).mpr List.mem_cons_self) tick
    have hlanes' : (s.struck p tick).portLanes p = [] := by
      rw [hframe.rest]
      exact hlanes
    exact (State.abortPort_of_noLanes hlanes' _ _).trans (if_pos rfl)
  have hwindow : (s.ocNoted p).get (Pg.LPT p) LPT.OC_WINDOW_MS = s.get (Pg.LPT p) LPT.OC_WINDOW_MS := by
    rw [State.ocNoted, State.get_count_beside _ (by decide), State.get_event_beside _ _ _ _ (by decide)]
  have hstrikes : (s.ocNoted p).lptSt p = s.lptSt p := by rw [State.ocNoted, State.lptSt_count, State.lptSt_event]
  have hlimit := State.get_struck_beside s p tick (g := LPT.OC_STRIKES) (by decide)
  have hlps : (s.struck p tick).lps p = s.lps p := State.get_struck_beside s p tick (by decide)
  have hbody : s.overcurrent tick p since code = if (s.strikesAt p tick).length < (s.struck p tick).get (Pg.LPT p) LPT.OC_STRIKES
      then s.struck p tick else if (s.struck p tick).lps p = LS.CHECK then (s.struck p tick).modLpt p LptSt.overFound
      else (s.struck p tick).portFault p LC.OVERCURRENT tick := by
    rw [← hnoted]
    unfold State.overcurrent State.strikesAt
    rw [if_neg hgoes, ← hwindow, ← hstrikes]
    rfl
  rw [hbody, hlimit, hlps]

include hp

/-- An overcurrent below OC_STRIKES is counted. -/
theorem overcurrent_counts (hq : s.QuietPort p) (hstate : s.lps p = LS.SERVICE) (hover : s.isOvercurrent tick p since code = true)
    (hfew : (s.strikesAt p tick).length < s.get (Pg.LPT p) LPT.OC_STRIKES) :
    let t := ((s.atTick tick).overcurrent tick p since code).settle
    t.lps p = LS.SERVICE ∧ t.get (Pg.LPT p) LPT.EV_OVERCURRENT = 1 ∧ s.Counted (Pg.LPT p) LPT.OC_CNT t ∧
      (t.lptSt p).strikes = s.strikesAt p tick ∧
      State.RegsOnly (regsAt [(Pg.LPT p, CMN.EVENTS), (Pg.LPT p, LPT.OC_CNT.off)]) { s.atTick tick with lpt := t.lpt } t := by
  have hpg := lptPage_beside hp
  have hexec := (State.overcurrent_of_noLanes (s := s.atTick tick) hq.1 (.inl hstate) hover).trans (if_pos hfew)
  rw [hexec]
  refine ⟨?_, ?_, ?_, ?_, ?_⟩
  · rw [State.lps_settle _ hp, State.lps, State.get_struck_beside _ _ _ (by decide)]
    exact hstate
  · rw [State.get_settle_beside _ hpg (by decide), State.get_struck_event]
  · exact State.counted_struck (s := s.atTick tick) (t := tick) hp rfl rfl rfl
  · rw [State.lptSt_settle, State.lptSt_struck]
    rfl
  · exact ((State.lptOnly_refl _ _).struck (regsAt_of_mem (by simp)) (regsAt_of_mem (by simp)) tick).regsOnly_lpt
      (State.struck_mir _ _ _) (State.struck_dram _ _ _)

/-- At OC_STRIKES a check notes what it has found. -/
theorem overcurrent_found_by_check (hq : s.QuietPort p) (hstate : s.lps p = LS.CHECK)
    (hover : s.isOvercurrent tick p since code = true) (hmany : s.get (Pg.LPT p) LPT.OC_STRIKES ≤ (s.strikesAt p tick).length) :
    let t := ((s.atTick tick).overcurrent tick p since code).settle
    t.lps p = LS.CHECK ∧ (t.lptSt p).ocFound = true ∧ t.get (Pg.LPT p) LPT.EV_OVERCURRENT = 1 ∧ s.Counted (Pg.LPT p) LPT.OC_CNT t ∧
      State.RegsOnly (regsAt [(Pg.LPT p, CMN.EVENTS), (Pg.LPT p, LPT.OC_CNT.off)]) { s.atTick tick with lpt := t.lpt } t := by
  have hpg := lptPage_beside hp
  have hexec := (State.overcurrent_of_noLanes (s := s.atTick tick) hq.1 (.inr hstate) hover).trans
    ((if_neg (Nat.not_lt.mpr hmany)).trans (if_pos hstate))
  rw [hexec]
  refine ⟨?_, ?_, ?_, ?_, ?_⟩
  · rw [State.lps_settle _ hp, State.lps, State.modLpt_get, State.get_struck_beside _ _ _ (by decide)]
    exact hstate
  · rw [State.lptSt_settle, State.lptSt_modLpt_same]
    rfl
  · rw [State.get_settle_beside _ hpg (by decide), State.modLpt_get, State.get_struck_event]
  · exact State.counted_struck (s := s.atTick tick) (t := tick) hp rfl rfl (State.modLpt_get _ _ _ _ _)
  · refine (((State.lptOnly_refl _ _).struck (regsAt_of_mem (by simp)) (regsAt_of_mem (by simp)) tick).modLpt _ _).regsOnly_lpt ?_ ?_
    · rw [State.modLpt, State.setLpt_mir, State.struck_mir]
    · rw [State.modLpt, State.setLpt_dram, State.struck_dram]

/-- At OC_STRIKES a quiet port in service enters FAULT. -/
theorem overcurrent_faults (hq : s.QuietPort p) (hlimit : s.get (Pg.LPT p) LPT.RETRY_LIMIT = 0) (hstate : s.lps p = LS.SERVICE)
    (hover : s.isOvercurrent tick p since code = true) (hmany : s.get (Pg.LPT p) LPT.OC_STRIKES ≤ (s.strikesAt p tick).length) :
    let t := ((s.atTick tick).overcurrent tick p since code).settle
    t.lps p = LS.FAULT ∧ t.get (Pg.LPT p) LPT.CAUSE = LC.OVERCURRENT ∧ t.get (Pg.LPT p) LPT.ENA = 0 ∧
      t.get (Pg.LPT p) LPT.TX_AVAIL = 0 ∧ t.get (Pg.LPT p) LPT.EV_OVERCURRENT = 1 ∧ s.Counted (Pg.LPT p) LPT.OC_CNT t ∧
      s.Counted (Pg.LPT p) LPT.FAULT_CNT t ∧
      State.RegsOnly (regsAt [(Pg.LPT p, LPT.STATE.off), (Pg.LPT p, CMN.EVENTS), (Pg.LPT p, LPT.OC_CNT.off),
        (Pg.LPT p, LPT.FAULT_CNT.off)]) { s.atTick tick with lpt := t.lpt } t := by
  have hpg := lptPage_beside hp
  have hframe : (s.atTick tick).LptOnly (onPages [Pg.LPT p]) ((s.atTick tick).struck p tick) := (State.lptOnly_refl _ _).struck
    ((onPages_addrOf (by decide)).mpr List.mem_cons_self) ((onPages_addrOf (by decide)).mpr List.mem_cons_self) tick
  have hquiet : ((s.atTick tick).struck p tick).QuietPort p :=
    State.QuietPort.of_lptOnly (s := s.atTick tick) hq hframe (fun _ h => h) hp
  have hbeside : ∀ g : Fld, CMN.EVENTS ≠ g.off ∧ LPT.OC_CNT.off ≠ g.off →
      ((s.atTick tick).struck p tick).get (Pg.LPT p) g = s.get (Pg.LPT p) g := fun g hg => by
    rw [State.get_struck_beside _ _ _ hg, State.atTick_get]
  have hservice : ((s.atTick tick).struck p tick).lps p ≠ LS.FAULT := by
    rw [State.lps, hbeside _ (by decide)]
    exact ne_of_eq_of_ne hstate (by decide)
  have hnolimit : ((s.atTick tick).struck p tick).get (Pg.LPT p) LPT.RETRY_LIMIT = 0 := by
    rw [hbeside _ (by decide), hlimit]
  have hexec : (s.atTick tick).overcurrent tick p since code = ((s.atTick tick).struck p tick).faultEntered p LC.OVERCURRENT tick :=
    (State.overcurrent_of_noLanes (s := s.atTick tick) hq.1 (.inl hstate) hover).trans ((if_neg (Nat.not_lt.mpr hmany)).trans
      ((if_neg (ne_of_eq_of_ne hstate (by decide))).trans (State.portFault_of_quiet hp hquiet hnolimit hservice _ _)))
  rw [hexec]
  obtain ⟨hlps, hcause, hlow, havail, -⟩ := State.faultEntered_shows ((s.atTick tick).struck p tick) p LC.OVERCURRENT tick (by decide)
  refine ⟨?_, ?_, ?_, ?_, ?_, ?_, ?_, ?_⟩
  · rw [State.lps_settle _ hp, hlps]
  · rw [State.get_settle_beside _ hpg (by decide), hcause]
  · rw [State.get_settle_beside _ hpg (by decide), hlow]
  · rw [State.get_settle_beside _ hpg (by decide), havail]
  · rw [State.get_settle_beside _ hpg (by decide), State.get_faultEntered_otherEvent _ _ _ _ (by decide), State.get_struck_event]
  · exact State.counted_struck (s := s.atTick tick) (t := tick) hp rfl rfl (State.get_faultEntered_beside _ _ _ _ (by decide))
  · exact State.counted_faultEntered hp (hbeside _ (by decide)) (hbeside _ (by decide)) _ _
  · refine (((State.lptOnly_refl _ _).struck (regsAt_of_mem (by simp)) (regsAt_of_mem (by simp)) tick).faultEntered
      (regsAt_of_mem (by simp)) (regsAt_of_mem (by simp)) (regsAt_of_mem (by simp)) _ _).regsOnly_lpt ?_ ?_
    · rw [State.faultEntered_mir, State.struck_mir]
    · rw [State.faultEntered_dram, State.struck_dram]

end

/-! ### The retry interval (R94) -/

section
variable {s : State} {p : Nat} (tick : Nat) (hretries : s.get (Pg.LPT p) LPT.RETRIES ≤ 40)
include hretries

theorem State.retryAt_of_few : s.retryAt p tick = tick +
    min (2048 * (s.get (Pg.LPT p) LPT.RETRY_FIRST_MS * 2 ^ s.get (Pg.LPT p) LPT.RETRIES))
      (2048000 * s.get (Pg.LPT p) LPT.RETRY_MAX_S) := by
  have hmin : Nat.min (s.get (Pg.LPT p) LPT.RETRIES) 40 = s.get (Pg.LPT p) LPT.RETRIES := Nat.min_eq_left hretries
  rw [State.retryAt, hmin, msTicks, ticks1s, Nat.mul_assoc, Nat.mul_comm _ 2048000]

theorem State.retryAt_below_max (h : s.get (Pg.LPT p) LPT.RETRY_FIRST_MS * 2 ^ s.get (Pg.LPT p) LPT.RETRIES ≤
    1000 * s.get (Pg.LPT p) LPT.RETRY_MAX_S) :
    s.retryAt p tick = tick + 2048 * (s.get (Pg.LPT p) LPT.RETRY_FIRST_MS * 2 ^ s.get (Pg.LPT p) LPT.RETRIES) := by
  rw [State.retryAt_of_few tick hretries, Nat.min_eq_left (by omega)]

theorem State.retryAt_from_max (h : 1000 * s.get (Pg.LPT p) LPT.RETRY_MAX_S ≤
    s.get (Pg.LPT p) LPT.RETRY_FIRST_MS * 2 ^ s.get (Pg.LPT p) LPT.RETRIES) :
    s.retryAt p tick = tick + 2048000 * s.get (Pg.LPT p) LPT.RETRY_MAX_S := by
  rw [State.retryAt_of_few tick hretries, Nat.min_eq_right (by omega)]

end

/-- Settles O19: a fault of a quiet port is its port's registers and record alone, whatever reports it; the interval is the lesser of
the two terms of R94. -/
theorem amplifierFaultsAndRetries : Obligations.AmplifierFaultsAndRetries := by
  unfold Obligations.AmplifierFaultsAndRetries
  refine ⟨fun s tick since port window code hq hlimit hwindow => ?_, fun s p tick _ hretries => ?_⟩
  · subst hwindow
    refine ⟨fun hstate hena hlong => ?_, fun low hena => ?_, fun hstate hover hfew => ?_, fun hstate hover hmany => ?_,
      fun hstate hover hmany => ?_⟩
    · exact ⟨_, rfl, ampFault_faults port.isLt hq hlimit hstate hena hlong⟩
    · exact ⟨_, rfl, ampFault_shows_level port.isLt hena low⟩
    · exact ⟨_, rfl, overcurrent_counts port.isLt hq hstate hover hfew⟩
    · exact ⟨_, rfl, overcurrent_found_by_check port.isLt hq hstate hover hmany⟩
    · exact ⟨_, rfl, overcurrent_faults port.isLt hq hlimit hstate hover hmany⟩
  · exact ⟨State.retryAt_below_max tick hretries, State.retryAt_from_max tick hretries⟩

end Sys2Proof.Machine

/-! ### Checks start (R91, R93, R94) -/

namespace Sys2Proof.Machine

theorem pageIndex_lpt {p : Nat} (hp : p < 16) : ∃ code, pageIndex (Pg.LPT p) = some (.lpt, code, p) :=
  ⟨0x10, (by decide : ∀ p, p < 16 → pageIndex (Pg.LPT p) = some (.lpt, 0x10, p)) p hp⟩

theorem pageIndex_lpt_isSome {p : Nat} (hp : p < 16) : (pageIndex (Pg.LPT p)).isSome = true := by
  obtain ⟨code, hindex⟩ := pageIndex_lpt hp
  rw [hindex]
  rfl

section
variable {s : State} {p tick : Nat} (hp : p < 16)
include hp

/-- A host access reaches a port's page only while the port's RX AFE domain is on (R15). -/
theorem State.Reaches.rxOn (h : s.Reaches (Pg.LPT p)) : s.domOn (96 + p) = true := by
  obtain ⟨code, hindex⟩ := pageIndex_lpt hp
  obtain ⟨-, hon, -, -⟩ := h
  have hne : 96 + p ≠ 136 := by omega
  simpa only [State.pageOn, pageDomain, hindex, decide_eq_false hne, Bool.false_and, Bool.or_false] using hon

theorem State.setEnable_starts (h : s.Reaches (Pg.LPT p)) (hslave : s.deepenSlave = false) (hoff : s.enabled (Pg.LPT p) = false)
    (hstate : s.lps p = LS.OFF) : s.setEnable (Pg.LPT p) true =
      ((s.put (Pg.LPT p) CTRL.ENABLE 1).checkEntered p 0).startCheck p s.time true := by
  obtain ⟨code, hindex⟩ := pageIndex_lpt hp
  have hframe : s.LptOnly (onPages [Pg.LPT p]) (s.put (Pg.LPT p) CTRL.ENABLE 1) :=
    (State.lptOnly_refl _ s).put 1 ((onPages_addrOf (by decide)).mpr List.mem_cons_self)
  have hrx : (s.put (Pg.LPT p) CTRL.ENABLE 1).domOn (96 + p) = true := by
    rw [State.domOn_otherPage hframe.kept (fun _ ha => ha) (by omega), h.rxOn hp]
  have hstate' : (s.put (Pg.LPT p) CTRL.ENABLE 1).lps p = LS.OFF := by
    rw [State.lps, State.get_put_beside _ _ _ _ _ (by decide)]
    exact hstate
  have hon : (s.put (Pg.LPT p) CTRL.ENABLE 1).enabled (Pg.LPT p) = true := by
    rw [State.enabled, State.flag, State.get_put_same _ _ _ _ (by decide)]
    rfl
  have hstart : (s.put (Pg.LPT p) CTRL.ENABLE 1).portStart p s.time =
      ((s.put (Pg.LPT p) CTRL.ENABLE 1).checkEntered p 0).startCheck p s.time true := by
    rw [State.portStart, if_pos ⟨hstate', hon, hrx⟩, State.lptTo_check (by rw [hstate']; decide)]
  unfold State.setEnable State.enableBlock
  simp only [hindex, hslave, hoff, reduceCtorEq, decide_false, decide_true, Bool.true_and, Bool.false_and, Bool.false_or,
    Bool.false_eq_true, if_false, if_true, Bool.toNat_true]
  exact hstart

/-- ENABLE starts a port that is OFF. -/
theorem ctrlEnable_starts_check {page : Fin 512} (hpage : page.val = Pg.LPT p) (h : s.Reaches page.val) (hslave : s.deepenSlave = false)
    (hoff : s.enabled page.val = false) (hstate : s.lps p = LS.OFF) :
    ∃ t, exec (.ctrlEnable page true) s = .next t ∧ t.lps p = LS.CHECK ∧
      t.get page.val LPT.RETRIES = 0 ∧ t.get page.val LPT.EV_STATE_CHANGE = 1 ∧
      (s.domOn (112 + p) = true → t.get page.val LPT.ENA = 1) ∧
      (t.lptSt p).checking = true ∧ (t.lptSt p).checkAt = s.time ∧ (t.lptSt p).polar = true ∧
      (t.lptSt p).pilot = s.domOn (112 + p) ∧
      State.RegsOnly (regsAt [(page.val, CMN.CTRL), (page.val, LPT.STATE.off), (page.val, CMN.EVENTS)]) { s with lpt := t.lpt } t := by
  have hexec := exec_ctrlEnable h (by rw [hpage]; exact pageIndex_lpt_isSome hp) true
  rw [hpage] at h hoff hexec ⊢
  rw [State.setEnable_starts hp h hslave hoff hstate] at hexec
  have hframe : s.LptOnly (regsAt [(Pg.LPT p, CMN.CTRL), (Pg.LPT p, LPT.STATE.off), (Pg.LPT p, CMN.EVENTS)])
      (s.put (Pg.LPT p) CTRL.ENABLE 1) := (State.lptOnly_refl _ s).put 1 (regsAt_of_mem List.mem_cons_self)
  have hdom : (s.put (Pg.LPT p) CTRL.ENABLE 1).domOn (112 + p) = s.domOn (112 + p) :=
    State.domOn_otherPage (p := p) hframe.kept (fun _ ha => regsAt_onPage (by simp; decide) ha) (by omega)
  obtain ⟨⟨hlps, hretries, hevent, hena⟩, hchecking, hcheckAt, hpolar, hpilot⟩ :=
    State.checkStarted_shows (s := s.put (Pg.LPT p) CTRL.ENABLE 1) hp 0 s.time
  rw [hdom] at hena hpilot
  exact ⟨_, hexec, hlps, hretries, hevent, hena, hchecking, hcheckAt, hpolar, hpilot,
    hframe.regsOnly_checkStarted (State.put_mir _ _ _ _) (State.put_dram _ _ _ _) (regsAt_of_mem (by simp)) (regsAt_of_mem (by simp)) 0
      s.time true⟩

/-- CHECK_NOW starts a port that stands in FAULT again. -/
theorem checkNow_starts_check (hstate : s.lps p = LS.FAULT ∨ s.lps p = LS.FAULT_LATCHED) :
    let t := (s.checkNow p).settle
    t.lps p = LS.CHECK ∧ t.get (Pg.LPT p) LPT.RETRIES = 0 ∧ t.get (Pg.LPT p) LPT.EV_STATE_CHANGE = 1 ∧ (t.lptSt p).checking = true ∧
      (t.lptSt p).polar = true ∧ (t.lptSt p).pilot = s.domOn (112 + p) ∧
      State.RegsOnly (regsAt [(Pg.LPT p, LPT.STATE.off), (Pg.LPT p, CMN.EVENTS)]) { s with lpt := t.lpt } t := by
  have hne : s.lps p ≠ LS.CHECK := by rcases hstate with he | he <;> rw [he] <;> decide
  have hcheck : s.checkNow p = (s.checkEntered p 0).startCheck p s.time true := by
    rw [State.checkNow, if_pos hstate, State.lptTo_check hne]
  rw [hcheck]
  obtain ⟨⟨hlps, hretries, hevent, -⟩, hchecking, -, hpolar, hpilot⟩ := State.checkStarted_shows (s := s) hp 0 s.time
  exact ⟨hlps, hretries, hevent, hchecking, hpolar, hpilot,
    (State.lptOnly_refl _ s).regsOnly_checkStarted rfl rfl (regsAt_of_mem (by simp)) (regsAt_of_mem (by simp)) 0 s.time true⟩

/-- A retry below RETRY_LIMIT. -/
theorem portRetry_starts_check (hstate : s.lps p = LS.FAULT) (hdue : (s.lptSt p).retryDue ≤ tick)
    (hlimit : s.get (Pg.LPT p) LPT.RETRY_LIMIT = 0 ∨ s.get (Pg.LPT p) LPT.RETRIES < s.get (Pg.LPT p) LPT.RETRY_LIMIT) :
    let t := ((s.atTick tick).portRetry tick p).settle
    t.lps p = LS.CHECK ∧ t.get (Pg.LPT p) LPT.RETRIES = Nat.min (s.get (Pg.LPT p) LPT.RETRIES + 1) 255 ∧
      t.get (Pg.LPT p) LPT.EV_STATE_CHANGE = 1 ∧ (t.lptSt p).checking = true ∧ (t.lptSt p).checkAt = tick ∧
      State.RegsOnly (regsAt [(Pg.LPT p, LPT.STATE.off), (Pg.LPT p, CMN.EVENTS)]) { s.atTick tick with lpt := t.lpt } t := by
  have hretry : (s.atTick tick).portRetry tick p =
      ((s.atTick tick).checkEntered p (sat 8 (s.get (Pg.LPT p) LPT.RETRIES + 1))).startCheck p tick true := by
    have hearly : ¬ ((s.atTick tick).lps p ≠ LS.FAULT ∨ tick < (s.lptSt p).retryDue) :=
      fun h => h.elim (fun hne => hne hstate) (Nat.not_lt.mpr hdue)
    have hmore : ¬ ((s.atTick tick).get (Pg.LPT p) LPT.RETRY_LIMIT ≠ 0 ∧
        (s.atTick tick).get (Pg.LPT p) LPT.RETRY_LIMIT ≤ (s.atTick tick).get (Pg.LPT p) LPT.RETRIES) := by
      simp only [State.atTick_get]
      omega
    have hne : (s.atTick tick).lps p ≠ LS.CHECK := by
      rw [State.lps, State.atTick_get]
      exact ne_of_eq_of_ne hstate (by decide)
    refine (if_neg hearly).trans ((if_neg hmore).trans ?_)
    rw [State.bumpSat, State.atTick_get, State.lptTo_check hne]
    rfl
  have hsat : sat 8 (s.get (Pg.LPT p) LPT.RETRIES + 1) = Nat.min (s.get (Pg.LPT p) LPT.RETRIES + 1) 255 := rfl
  rw [hretry]
  obtain ⟨⟨hlps, hretries, hevent, -⟩, hchecking, hcheckAt, -, -⟩ :=
    State.checkStarted_shows (s := s.atTick tick) hp (sat 8 (s.get (Pg.LPT p) LPT.RETRIES + 1)) tick
  refine ⟨hlps, ?_, hevent, hchecking, hcheckAt, (State.lptOnly_refl _ (s.atTick tick)).regsOnly_checkStarted rfl rfl
    (regsAt_of_mem (by simp)) (regsAt_of_mem (by simp)) _ tick true⟩
  rw [hretries, hsat]
  exact Nat.mod_eq_of_lt (Nat.lt_of_le_of_lt (Nat.min_le_right _ _) (by decide))

/-- A port whose retries have reached RETRY_LIMIT latches. -/
theorem portRetry_latches (hstate : s.lps p = LS.FAULT) (hdue : (s.lptSt p).retryDue ≤ tick)
    (hlimit : s.get (Pg.LPT p) LPT.RETRY_LIMIT ≠ 0) (hretries : s.get (Pg.LPT p) LPT.RETRY_LIMIT ≤ s.get (Pg.LPT p) LPT.RETRIES) :
    let t := ((s.atTick tick).portRetry tick p).settle
    t.lps p = LS.FAULT_LATCHED ∧ t.get (Pg.LPT p) LPT.EV_STATE_CHANGE = 1 ∧
      State.RegsOnly (regsAt [(Pg.LPT p, LPT.STATE.off), (Pg.LPT p, CMN.EVENTS)]) (s.atTick tick) t := by
  have hlatch : (s.atTick tick).portRetry tick p =
      ((s.atTick tick).put (Pg.LPT p) LPT.STATE LS.FAULT_LATCHED).event (Pg.LPT p) LPT.EV_STATE_CHANGE := by
    have hearly : ¬ ((s.atTick tick).lps p ≠ LS.FAULT ∨ tick < (s.lptSt p).retryDue) :=
      fun h => h.elim (fun hne => hne hstate) (Nat.not_lt.mpr hdue)
    have hne : (s.atTick tick).lps p ≠ LS.FAULT_LATCHED := by
      rw [State.lps, State.atTick_get]
      exact ne_of_eq_of_ne hstate (by decide)
    have hlast : (s.atTick tick).get (Pg.LPT p) LPT.RETRY_LIMIT ≠ 0 ∧
        (s.atTick tick).get (Pg.LPT p) LPT.RETRY_LIMIT ≤ (s.atTick tick).get (Pg.LPT p) LPT.RETRIES := ⟨hlimit, hretries⟩
    exact (if_neg hearly).trans ((if_pos hlast).trans (State.lptTo_of_ne hne))
  have hpg := lptPage_beside hp
  rw [hlatch]
  refine ⟨?_, ?_, ?_⟩
  · rw [State.lps_settle _ hp, State.lps]
    simp (disch := decide) only [State.get_event_beside, State.get_put_same]
    rfl
  · rw [State.get_settle_beside _ hpg (by decide), State.get_event_set _ (by decide)]
  · exact (((State.lptOnly_refl _ _).put (f := LPT.STATE) _ (regsAt_of_mem (by simp))).event (regsAt_of_mem (by simp))).regsOnly_regs
      rfl rfl rfl

/-! #### Checks in SERVICE -/

/-- A check that starts in SERVICE drives LPn_ENA and shows in the port's record alone. -/
theorem State.checkInService_shows (hstate : s.lps p = LS.SERVICE) (t : Nat) (polar : Bool) :
    let u := (s.startCheck p t polar).settle
    u.lps p = LS.SERVICE ∧ (∃ n, u.lptSt p = (((s.lptSt p).begun t polar).asked (s.domOn (112 + p)) t).enaFrom n) ∧
      (s.domOn (112 + p) = true → u.get (Pg.LPT p) LPT.ENA = 1) ∧
      State.RegsOnly (regsAt [(Pg.LPT p, LPT.ENA.off)]) { s with lpt := u.lpt } u := by
  obtain ⟨⟨n, hrecord⟩, hena, hbeside, hmir, hdram⟩ := State.startCheck_drives s p t polar
  refine ⟨?_, ⟨n, ?_⟩, fun htx => ?_, ((State.lptOnly_refl _ s).startCheck (regsAt_of_mem (by simp)) t polar).regsOnly_lpt hmir hdram⟩
  · rw [State.lps_settle _ hp, State.lps, hbeside _ (by decide)]
    exact hstate
  · rw [State.lptSt_settle, hrecord]
  · rw [State.get_settle_beside _ (lptPage_beside hp) (by decide), hena htx]

/-- CHECK_NOW of a port in service. -/
theorem checkNow_in_service (hstate : s.lps p = LS.SERVICE) (hidle : (s.lptSt p).checking = false) :
    let t := (s.checkNow p).settle
    t.lps p = LS.SERVICE ∧ (t.lptSt p).checking = true ∧ (t.lptSt p).polar = false ∧ (t.lptSt p).pilot = s.domOn (112 + p) ∧
      State.RegsOnly (regsAt [(Pg.LPT p, LPT.ENA.off)]) { s with lpt := t.lpt } t := by
  have hcheck : s.checkNow p = s.startCheck p s.time false := by
    have hfault : ¬ (LS.SERVICE = LS.FAULT ∨ LS.SERVICE = LS.FAULT_LATCHED) := by decide
    unfold State.checkNow
    simp only [hstate, if_neg hfault, hidle, and_self, if_true]
  rw [hcheck]
  obtain ⟨hlps, ⟨n, hrecord⟩, -, hframe⟩ := State.checkInService_shows hp hstate s.time false
  refine ⟨hlps, ?_, ?_, ?_, hframe⟩ <;> rw [hrecord] <;> rfl

/-- The pilot check of CHECK_MS. -/
theorem checkDue_in_service (hstate : s.lps p = LS.SERVICE) (hms : s.get (Pg.LPT p) LPT.CHECK_MS ≠ 0)
    (hidle : (s.lptSt p).checking = false)
    (hdue : (s.lptSt p).lastCheck + msTicks (s.get (Pg.LPT p) LPT.CHECK_MS) ≤ tick) :
    let t := ((s.atTick tick).checkDue tick p).settle
    t.lps p = LS.SERVICE ∧ (t.lptSt p).checking = true ∧ (t.lptSt p).checkAt = tick ∧ (t.lptSt p).lastCheck = tick ∧
      (t.lptSt p).polar = true ∧ (t.lptSt p).pilot = s.domOn (112 + p) ∧
      (s.domOn (112 + p) = true → t.get (Pg.LPT p) LPT.ENA = 1) ∧
      State.RegsOnly (regsAt [(Pg.LPT p, LPT.ENA.off)]) { s.atTick tick with lpt := t.lpt } t := by
  have hcheck : (s.atTick tick).checkDue tick p =
      ((s.atTick tick).startCheck p tick true).modLpt p fun x => { x with lastCheck := tick } := by
    refine if_neg ?_
    rintro (hne | hzero | hbusy | hearly)
    · exact hne hstate
    · exact hms hzero
    · exact Bool.false_ne_true (hidle.symm.trans hbusy)
    · exact Nat.not_lt.mpr hdue hearly
  rw [hcheck]
  obtain ⟨⟨n, hrecord⟩, hena, hbeside, hmir, hdram⟩ := State.startCheck_drives (s.atTick tick) p tick true
  have hkeeps : ((((s.atTick tick).startCheck p tick true).modLpt p fun x => { x with lastCheck := tick }).settle).lptSt p =
      { (((s.lptSt p).begun tick true).asked (s.domOn (112 + p)) tick).enaFrom n with lastCheck := tick } := by
    rw [State.lptSt_settle, State.lptSt_modLpt_same, hrecord]
    rfl
  have hpg := lptPage_beside hp
  refine ⟨?_, ?_, ?_, ?_, ?_, ?_, fun htx => ?_, ?_⟩
  · rw [State.lps_settle _ hp, State.lps, State.modLpt_get, hbeside _ (by decide)]
    exact hstate
  · rw [hkeeps]; rfl
  · rw [hkeeps]; rfl
  · rw [hkeeps]
  · rw [hkeeps]; rfl
  · rw [hkeeps]; rfl
  · rw [State.get_settle_beside _ hpg (by decide), State.modLpt_get, hena htx]
  · exact (((State.lptOnly_refl _ _).startCheck (regsAt_of_mem (by simp)) tick true).modLpt _ _).regsOnly_lpt hmir hdram

/-- The TX AFE domain has come on. -/
theorem txAfeOn_in_service (hstate : s.lps p = LS.SERVICE) (htx : s.domOn (112 + p) = true)
    (havail : s.flag (Pg.LPT p) LPT.TX_AVAIL = false) (hpilot : (s.lptSt p).pilot = false) :
    let t := ((s.atTick tick).txAfeOn tick p).settle
    t.get (Pg.LPT p) LPT.TX_AVAIL = 0 ∧ (t.lptSt p).checking = true ∧ (t.lptSt p).pilot = true ∧ (t.lptSt p).pilotAt = tick ∧
      (t.lptSt p).polar = ((s.lptSt p).checking && (s.lptSt p).polar) ∧ t.get (Pg.LPT p) LPT.ENA = 1 ∧
      State.RegsOnly (regsAt [(Pg.LPT p, LPT.ENA.off)]) { s.atTick tick with lpt := t.lpt } t := by
  have hquiet : ¬ ((s.atTick tick).lps p ≠ LS.SERVICE ∨ (s.atTick tick).domOn (112 + p) = false ∨
      (s.atTick tick).flag (Pg.LPT p) LPT.TX_AVAIL = true ∨ ((s.atTick tick).lptSt p).pilot = true) := by
    rintro (hne | hdark | hthere | hbusy)
    · exact hne hstate
    · exact Bool.false_ne_true (hdark.symm.trans htx)
    · exact Bool.false_ne_true (havail.symm.trans hthere)
    · exact Bool.false_ne_true (hpilot.symm.trans hbusy)
  have hstart : (s.atTick tick).txAfeOn tick p = if (s.lptSt p).checking = true then (s.atTick tick).startPilot p tick else
      (s.atTick tick).startCheck p tick false := if_neg hquiet
  have htx' : (s.atTick tick).domOn (112 + p) = true := htx
  have hpg := lptPage_beside hp
  have hzero := State.get_eq_zero_of_flag havail
  rw [hstart]
  cases hchecking : (s.lptSt p).checking with
  | true =>
    obtain ⟨⟨n, hrecord⟩, hena, hbeside, hmir, hdram⟩ := State.startPilot_drives (s.atTick tick) p tick
    rw [htx'] at hrecord
    rw [if_pos rfl]
    refine ⟨?_, ?_, ?_, ?_, ?_, ?_, ?_⟩
    · rw [State.get_settle_beside _ hpg (by decide), hbeside _ (by decide)]
      exact hzero
    · rw [State.lptSt_settle, hrecord]; exact hchecking
    · rw [State.lptSt_settle, hrecord]; rfl
    · rw [State.lptSt_settle, hrecord]; rfl
    · rw [State.lptSt_settle, hrecord]; rfl
    · rw [State.get_settle_beside _ hpg (by decide), hena htx']
    · exact ((State.lptOnly_refl _ _).startPilot (regsAt_of_mem (by simp)) tick).regsOnly_lpt hmir hdram
  | false =>
    obtain ⟨⟨n, hrecord⟩, hena, hbeside, hmir, hdram⟩ := State.startCheck_drives (s.atTick tick) p tick false
    rw [htx'] at hrecord
    rw [if_neg Bool.false_ne_true]
    refine ⟨?_, ?_, ?_, ?_, ?_, ?_, ?_⟩
    · rw [State.get_settle_beside _ hpg (by decide), hbeside _ (by decide)]
      exact hzero
    · rw [State.lptSt_settle, hrecord]; rfl
    · rw [State.lptSt_settle, hrecord]; rfl
    · rw [State.lptSt_settle, hrecord]; rfl
    · rw [State.lptSt_settle, hrecord]; rfl
    · rw [State.get_settle_beside _ hpg (by decide), hena htx']
    · exact ((State.lptOnly_refl _ _).startCheck (regsAt_of_mem (by simp)) tick false).regsOnly_lpt hmir hdram

end

end Sys2Proof.Machine

/-! ### The pilot's result (R89, R91) -/

namespace Sys2Proof.Machine

/-- What a port keeps once its pilot has ended. -/
def LptSt.pilotOver (x : LptSt) : LptSt := { x with pilot := false, piloted := true }

/-- The measurements of a pilot show. -/
def State.pilotRegs (p : Nat) (m : PilotResult) (s : State) : State :=
  ((s.put (Pg.LPT p) LPT.RX_RET_DB (s.pilotReturn p m.rx)).put (Pg.LPT p) LPT.Z (s.pilotZ p m.isns)).event (Pg.LPT p) LPT.EV_CHECK_DONE

/-- The pilot of port p has ended. -/
def State.piloted (p : Nat) (m : PilotResult) (s : State) : State :=
  ((s.pilotRegs p m).tapsAdapt p m.echo).modLpt p LptSt.pilotOver

section
variable (s : State) (p : Nat) (e : EchoResult)

theorem State.tapsAdapt_mir : (s.tapsAdapt p e).mir = s.mir := by
  obtain ⟨regs, h⟩ := s.tapsAdapt_eq p e
  rw [h]

theorem State.tapsAdapt_dram : (s.tapsAdapt p e).dram = s.dram := by
  obtain ⟨regs, h⟩ := s.tapsAdapt_eq p e
  rw [h]

theorem State.lptSt_tapsAdapt (q : Nat) : (s.tapsAdapt p e).lptSt q = s.lptSt q := by
  obtain ⟨regs, h⟩ := s.tapsAdapt_eq p e
  rw [h]
  rfl

end

section
variable (s : State) (p : Nat) (m : PilotResult)

theorem State.pilotResult_eq : s.pilotResult p m = s.piloted p m := rfl

theorem State.get_tapsAdapt_tap {e : EchoResult} {i : Nat} (hi : i < 256) : (s.tapsAdapt p e).get (Pg.LPT p) (LPT.ECHO_TAP.nth i) =
    if s.flag (Pg.LPT p) LPT.ECHO_FREEZE = false ∧ s.flag (Pg.LPT p) LPT.ECHO_EN = true ∧ i < e.taps.length then
      (e.taps.getD i 0).toNat else s.get (Pg.LPT p) (LPT.ECHO_TAP.nth i) := by
  have hcanc : addrOf (Pg.LPT p) LPT.CANC_GAIN.off ≠ addrOf (Pg.LPT p) (LPT.ECHO_TAP.nth i).off :=
    (echoTap_below p i (by decide)).symm
  rw [← State.get_echoAdapt_tap p e s hi, State.echoAdapt_cases]
  split
  · rw [State.get_cancSet_beside _ _ _ hcanc]
  · rfl

theorem State.pilotReturn_lt (rx : BitVec 24) : s.pilotReturn p rx < 2 ^ 8 :=
  Nat.lt_of_le_of_lt (Nat.min_le_right _ _) (by decide)

theorem State.pilotZ_lt (isns : BitVec 24) : s.pilotZ p isns < 2 ^ 16 := by
  unfold State.pilotZ
  dsimp only
  split
  · decide
  · exact Nat.lt_of_le_of_lt (Nat.min_le_right _ _) (by decide)

theorem State.get_pilotRegs_beside {g : Fld} (h : LPT.RX_RET_DB.off ≠ g.off ∧ CMN.EVENTS ≠ g.off) :
    (s.pilotRegs p m).get (Pg.LPT p) g = s.get (Pg.LPT p) g := by
  obtain ⟨hret, hevents⟩ := h
  rw [State.pilotRegs, State.get_event_beside _ _ _ _ hevents, State.get_put_beside _ _ LPT.Z _ _ ⟨by decide, .inl hret⟩,
    State.get_put_beside _ _ LPT.RX_RET_DB _ _ ⟨by decide, .inl hret⟩]

theorem State.get_piloted_beside {g : Fld} (h : g.off < LPT.ECHO_TAP.off ∧ LPT.RX_RET_DB.off ≠ g.off ∧ CMN.EVENTS ≠ g.off) :
    (s.piloted p m).get (Pg.LPT p) g = s.get (Pg.LPT p) g := by
  obtain ⟨htap, hbeside⟩ := h
  rw [State.piloted, State.modLpt_get, State.get_tapsAdapt_beside _ _ _ fun i _ => echoTap_below p i htap,
    State.get_pilotRegs_beside _ _ _ hbeside]

theorem State.get_piloted_ret : (s.piloted p m).get (Pg.LPT p) LPT.RX_RET_DB = s.pilotReturn p m.rx := by
  rw [State.piloted, State.modLpt_get, State.get_tapsAdapt_beside _ _ _ fun i _ => echoTap_below p i (by decide), State.pilotRegs]
  simp (disch := decide) only [State.get_event_beside, State.get_put_beside, State.get_put_same]
  exact Nat.mod_eq_of_lt (s.pilotReturn_lt p m.rx)

theorem State.get_piloted_z : (s.piloted p m).get (Pg.LPT p) LPT.Z = s.pilotZ p m.isns := by
  rw [State.piloted, State.modLpt_get, State.get_tapsAdapt_beside _ _ _ fun i _ => echoTap_below p i (by decide), State.pilotRegs]
  simp (disch := decide) only [State.get_event_beside, State.get_put_same]
  exact Nat.mod_eq_of_lt (s.pilotZ_lt p m.isns)

theorem State.get_piloted_done : (s.piloted p m).get (Pg.LPT p) LPT.EV_CHECK_DONE = 1 := by
  rw [State.piloted, State.modLpt_get, State.get_tapsAdapt_beside _ _ _ fun i _ => echoTap_below p i (by decide),
    State.pilotRegs, State.get_event_set _ (by decide)]

theorem State.tapsAdapted_piloted : s.TapsAdapted p m.echo (s.piloted p m) := by
  intro i hi
  have hbelow : ∀ g : Fld, g.off < LPT.ECHO_TAP.off → addrOf (Pg.LPT p) g.off ≠ addrOf (Pg.LPT p) (LPT.ECHO_TAP.nth i).off :=
    fun g hg => (echoTap_below p i hg).symm
  have hevents : addrOf (Pg.LPT p) CMN.EVENTS ≠ addrOf (Pg.LPT p) (LPT.ECHO_TAP.nth i).off := hbelow LPT.EV_CHECK_DONE (by decide)
  have hfreeze := s.get_pilotRegs_beside p m (g := LPT.ECHO_FREEZE) (by decide)
  have hen := s.get_pilotRegs_beside p m (g := LPT.ECHO_EN) (by decide)
  rw [State.piloted, State.modLpt_get, State.get_tapsAdapt_tap _ _ hi, State.flag, State.flag, hfreeze, hen, State.pilotRegs,
    State.get_event_other _ hevents, State.get_put_other _ _ (hbelow LPT.Z (by decide)),
    State.get_put_other _ _ (hbelow LPT.RX_RET_DB (by decide))]
  rfl

theorem State.piloted_mir : (s.piloted p m).mir = s.mir := by
  rw [State.piloted, State.modLpt, State.setLpt_mir, State.tapsAdapt_mir, State.pilotRegs, State.event_mir, State.put_mir, State.put_mir]

theorem State.piloted_dram : (s.piloted p m).dram = s.dram := by
  rw [State.piloted, State.modLpt, State.setLpt_dram, State.tapsAdapt_dram, State.pilotRegs, State.event_dram, State.put_dram,
    State.put_dram]

theorem State.lptSt_piloted : (s.piloted p m).lptSt p = (s.lptSt p).pilotOver := by
  rw [State.piloted, State.lptSt_modLpt_same, State.lptSt_tapsAdapt, State.pilotRegs, State.lptSt_event, State.lptSt_put, State.lptSt_put]

end

theorem State.LptOnly.tapsAdapt {touched : Nat → Prop} {b s : State} (hb : b.LptOnly touched s) {p : Nat}
    (ht : ∀ a, echoTaps p a → touched a) (e : EchoResult) : b.LptOnly touched (s.tapsAdapt p e) := by
  unfold State.tapsAdapt
  split
  · exact hb
  · refine forEach_keeps (fun u => b.LptOnly touched u) _ _ (fun a u ha hu => hu.put _ (ht _ ⟨a.2, ?_, rfl⟩)) hb
    exact (List.snd_lt_of_mem_zipIdx ha).trans_le (List.length_take_le 256 e.taps)

theorem State.LptOnly.piloted {touched : Nat → Prop} {b s : State} (hb : b.LptOnly touched s) {p : Nat}
    (ht : ∀ a, echoTaps p a → touched a) (hz : touched (addrOf (Pg.LPT p) LPT.Z.off)) (hevents : touched (addrOf (Pg.LPT p) CMN.EVENTS))
    (m : PilotResult) : b.LptOnly touched (s.piloted p m) :=
  ((((hb.put (f := LPT.RX_RET_DB) _ hz).put (f := LPT.Z) _ hz).event hevents).tapsAdapt ht m.echo).modLpt _ _

/-- The echo taps stand on the port's page. -/
theorem echoTaps_onPage {p a : Nat} (h : echoTaps p a) : onPages [Pg.LPT p] a := by
  obtain ⟨i, hi, rfl⟩ := h
  have hoff : (LPT.ECHO_TAP.nth i).off = 0x800 + 4 * i := rfl
  exact (onPages_addrOf (by omega)).mpr List.mem_cons_self

theorem State.piloted_onPage (s : State) (p : Nat) (m : PilotResult) : s.LptOnly (onPages [Pg.LPT p]) (s.piloted p m) :=
  (State.lptOnly_refl _ s).piloted (fun _ => echoTaps_onPage) ((onPages_addrOf (by decide)).mpr List.mem_cons_self)
    ((onPages_addrOf (by decide)).mpr List.mem_cons_self) m

/-- What changes one port's page leaves the timebase as it was. -/
theorem State.get_mtb_of_onPage {s u : State} {p : Nat} (h : s.LptOnly (onPages [Pg.LPT p]) u) {g : Fld} (hg : g.off < 4096) :
    u.get Pg.MTB g = s.get Pg.MTB g := by
  have hpg : Pg.MTB ≠ Pg.LPT p := by unfold Pg.MTB Pg.LPT; omega
  unfold State.get
  rw [State.reg_otherPage h.kept (fun _ ha => ha) hpg (by decide) hg]

theorem State.polarReady_piloted (s : State) (p : Nat) (m : PilotResult) : (s.piloted p m).polarReady = s.polarReady := by
  unfold State.polarReady State.tb
  rw [State.get_mtb_of_onPage (s.piloted_onPage p m) (by decide)]

theorem State.cycleTicks_piloted (s : State) (p : Nat) (m : PilotResult) : (s.piloted p m).cycleTicks = s.cycleTicks := by
  unfold State.cycleTicks
  rw [State.get_mtb_of_onPage (s.piloted_onPage p m) (by decide)]

/-! ### The causes of a check (R92, R93) -/

/-- What a pilot of return `ret` and impedance `z` finds. -/
theorem State.pilotCause_piloted (s : State) (p : Nat) (m : PilotResult) : (s.piloted p m).pilotCause p =
    if s.pilotZ p m.isns < s.get (Pg.LPT p) LPT.Z_MIN then LC.SHORT
    else if s.get (Pg.LPT p) LPT.Z_MAX < s.pilotZ p m.isns ∨ s.get (Pg.LPT p) LPT.PILOT_RX_MIN_DB < s.pilotReturn p m.rx then LC.OPEN
    else LC.NONE := by
  have hmin := s.get_piloted_beside p m (g := LPT.Z_MIN) (by decide)
  have hmax := s.get_piloted_beside p m (g := LPT.Z_MAX) (by decide)
  have hdb := s.get_piloted_beside p m (g := LPT.PILOT_RX_MIN_DB) (by decide)
  unfold State.pilotCause
  simp only [hmin, hmax, hdb, State.get_piloted_z, State.get_piloted_ret]

section
variable {s : State} {p : Nat} (hpiloted : (s.lptSt p).piloted = true) (hover : (s.lptSt p).ocFound = false)
include hpiloted

/-- A finding of the pilot is the check's cause. -/
theorem State.checkCause_of_finding (hover : (s.lptSt p).ocFound = false) (h : s.pilotCause p = LC.SHORT ∨ s.pilotCause p = LC.OPEN)
    (polar : Bool) : s.checkCause p polar = s.pilotCause p := by
  unfold State.checkCause
  rcases h with h | h <;> simp [hpiloted, hover, h, LC.SHORT, LC.OPEN]

include hover

theorem State.checkCause_of_pilotPassed (h : s.pilotCause p = LC.NONE) (polar : Bool) : s.checkCause p polar =
    if polar ∧ s.get (Pg.LPT p) LPT.REV_STATE = 2 ∧ s.get (Pg.LPT p) LPT.REV_ACTION = 2 then LC.REVERSED else LC.NONE := by
  unfold State.checkCause
  simp [hpiloted, hover, h, LC.SHORT, LC.OPEN, LC.NONE]

end

/-- A reversed residual shows. -/
def State.reversedShown (p d : Nat) (s : State) : State :=
  ((s.put (Pg.LPT p) LPT.REV_PHASE d).put (Pg.LPT p) LPT.REV_STATE 2).event (Pg.LPT p) LPT.EV_REVERSED

theorem State.polarResult_of_reversed {s : State} {p d : Nat} {r : BitVec 16} (hready : s.polarReady = true)
    (hd : d = (r.toNat + 65536 - s.get (Pg.LPT p) LPT.REV_OFFSET) % 65536) (hlow : 24576 ≤ d) (hhigh : d ≤ 40960) :
    s.polarResult p (some r) = s.reversedShown p d := by
  have hpolarity : polarity r.toNat (s.get (Pg.LPT p) LPT.REV_OFFSET) = (d, 2) := by
    unfold polarity
    dsimp only
    rw [← hd, if_neg (by omega), if_pos ⟨hlow, hhigh⟩]
  unfold State.polarResult
  simp only [hready, hpolarity, Bool.true_eq_false, if_false]
  rfl

/-! ### The judgement (R93) -/

/-- What a port keeps once its check has been judged, and once it is in service. -/
def LptSt.judged (x : LptSt) : LptSt := { x with checking := false }
def LptSt.served (t : Nat) (x : LptSt) : LptSt := { x with lastCheck := t }

/-- A check has been counted. -/
def State.judged (p : Nat) (s : State) : State := (s.count (Pg.LPT p) LPT.CHECK_CNT).modLpt p LptSt.judged

/-- A port is in service after a check that it has passed. -/
def State.passed (p : Nat) (tx : Bool) (t : Nat) (s : State) : State :=
  (((((s.put (Pg.LPT p) LPT.TX_AVAIL tx.toNat).put (Pg.LPT p) LPT.CAUSE LC.NONE).put (Pg.LPT p) LPT.RETRIES 0).put (Pg.LPT p)
    LPT.STATE LS.SERVICE).event (Pg.LPT p) LPT.EV_STATE_CHANGE).modLpt p (LptSt.served t)

theorem State.get_judged_beside (s : State) (p : Nat) {g : Fld} (h : LPT.CHECK_CNT.off ≠ g.off) :
    (s.judged p).get (Pg.LPT p) g = s.get (Pg.LPT p) g := by
  rw [State.judged, State.modLpt_get, State.get_count_beside _ h]

section
variable {s : State} {p t : Nat} {polar : Bool} (hpiloted : (s.lptSt p).piloted = true)
include hpiloted

theorem State.judgeCheck_of_finding (hcause : s.checkCause p polar ≠ LC.NONE) :
    s.judgeCheck p t polar = (s.judged p).portFault p (s.checkCause p polar) t := by
  unfold State.judgeCheck
  simp only [hpiloted, Bool.not_true, onlyIf_false]
  exact if_pos hcause

theorem State.judgeCheck_of_pass (hcause : s.checkCause p polar = LC.NONE) (hstate : s.lps p = LS.CHECK) :
    ∃ ena, s.judgeCheck p t polar = onlyIf ena (State.setEna p true t) ((s.judged p).passed p ((s.judged p).domOn (112 + p)) t) := by
  have hlps : ∀ v, ((s.judged p).put (Pg.LPT p) LPT.TX_AVAIL v).lps p = LS.CHECK := fun v => by
    rw [State.lps, State.get_put_beside _ _ _ _ _ (by decide), State.get_judged_beside _ _ (by decide)]
    exact hstate
  have hto : ∀ v, ((((s.judged p).put (Pg.LPT p) LPT.TX_AVAIL v).put (Pg.LPT p) LPT.CAUSE LC.NONE).put (Pg.LPT p) LPT.RETRIES 0).lps p ≠
      LS.SERVICE := fun v => by
    rw [State.lps, State.get_put_beside _ _ LPT.RETRIES _ _ (by decide), State.get_put_beside _ _ LPT.CAUSE _ _ (by decide)]
    exact ne_of_eq_of_ne (hlps v) (by decide)
  refine ⟨decide (((s.judged p).passed p ((s.judged p).domOn (112 + p)) t).get (Pg.LPT p) LPT.ENA_MODE = 1) &&
    ((s.judged p).passed p ((s.judged p).domOn (112 + p)) t).domOn (112 + p), ?_⟩
  unfold State.judgeCheck
  simp only [hpiloted, Bool.not_true, onlyIf_false, onlyIf_true, hcause]
  refine (if_neg (not_not.mpr rfl)).trans ((if_pos (hlps _)).trans ?_)
  unfold State.passed
  rw [← State.lptTo_of_ne (hto _)]
  rfl

end

end Sys2Proof.Machine

/-! ### The end of a check (R91 to R93) -/

namespace Sys2Proof.Machine

section
variable {s : State} {p t : Nat} {m : PilotResult} (hchecking : (s.lptSt p).checking = true) (hpilot : (s.lptSt p).pilot = true)
  (hend : s.pilotEnd p ≤ t) (hstate : s.lps p = LS.CHECK)
include hchecking hpilot hend hstate

/-- A check whose parts have ended is judged. -/
theorem State.checkDone_of_check {polar : Bool} (hpolar : ((s.lptSt p).polar && decide (s.get (Pg.LPT p) LPT.REV_ACTION ≠ 0)) = polar)
    (hwait : (polar && s.polarReady && decide (t < (s.lptSt p).checkAt + 4 * s.cycleTicks)) = false) (r : Option (BitVec 16)) :
    s.checkDone t p (some m) r = (onlyIf polar (State.polarResult p r) (s.piloted p m)).judgeCheck p t polar := by
  have hlps : (s.piloted p m).lps p = LS.CHECK := (s.get_piloted_beside p m (g := LPT.STATE) (by decide)).trans hstate
  have hrev := s.get_piloted_beside p m (g := LPT.REV_ACTION) (by decide)
  have hover : ((s.piloted p m).lptSt p).pilot = false := by rw [State.lptSt_piloted]; rfl
  have hserving : decide (LS.CHECK = LS.SERVICE) = false := by decide
  unfold State.checkDone
  simp only [hchecking, hpilot, hend, and_self, if_true, State.pilotResult_eq, hlps, hrev, hpolar, State.polarReady_piloted,
    State.cycleTicks_piloted, hwait, hserving, Bool.false_and, Bool.false_eq_true, Bool.true_eq_false, if_false, onlyIf_false, hover]

end

section
variable {s : State} {p tick : Nat} {m : PilotResult} (hp : p < 16)
include hp

/-! #### Checks that pass -/

theorem State.domOn_judged_piloted (hb : s.domOn (112 + p) = true) : ((s.piloted p m).judged p).domOn (112 + p) = true := by
  have hframe : s.LptOnly (onPages [Pg.LPT p]) ((s.piloted p m).judged p) :=
    ((s.piloted_onPage p m).count (f := LPT.CHECK_CNT) ((onPages_addrOf (by decide)).mpr List.mem_cons_self)).modLpt _ _
  rw [State.domOn_otherPage hframe.kept (fun _ ha => ha) (by omega), hb]

end

section
variable (s : State) (p t : Nat) (ena : Bool)

/-- A port that has passed its check, LPn_ENA driven where `ena` holds. -/
def State.inService (p t : Nat) (ena : Bool) (s : State) : State :=
  onlyIf ena (State.setEna p true t) ((s.judged p).passed p true t)

theorem State.get_passed_beside (tx : Bool) {g : Fld} (h : LPT.STATE.off ≠ g.off ∧ CMN.EVENTS ≠ g.off) :
    (s.passed p tx t).get (Pg.LPT p) g = s.get (Pg.LPT p) g := by
  obtain ⟨hstate, hevents⟩ := h
  rw [State.passed, State.modLpt_get, State.get_event_beside _ _ _ _ hevents,
    State.get_put_beside _ _ LPT.STATE _ _ ⟨by decide, .inl hstate⟩, State.get_put_beside _ _ LPT.RETRIES _ _ ⟨by decide, .inl hstate⟩,
    State.get_put_beside _ _ LPT.CAUSE _ _ ⟨by decide, .inl hstate⟩, State.get_put_beside _ _ LPT.TX_AVAIL _ _ ⟨by decide, .inl hstate⟩]

theorem State.get_inService_cnt : (s.inService p t ena).get (Pg.LPT p) LPT.CHECK_CNT =
    (s.count (Pg.LPT p) LPT.CHECK_CNT).get (Pg.LPT p) LPT.CHECK_CNT := by
  rw [State.inService, (State.driven_onlyIf _ p t ena).beside _ (by decide), State.get_passed_beside _ _ _ _ (by decide), State.judged,
    State.modLpt_get]

theorem State.get_inService_beside {g : Fld} (h : LPT.STATE.off ≠ g.off ∧ CMN.EVENTS ≠ g.off ∧ LPT.CHECK_CNT.off ≠ g.off) :
    (s.inService p t ena).get (Pg.LPT p) g = s.get (Pg.LPT p) g := by
  obtain ⟨hstate, hevents, hcnt⟩ := h
  rw [State.inService, (State.driven_onlyIf _ p t ena).beside _ (.inl hstate), State.get_passed_beside _ _ _ _ ⟨hstate, hevents⟩,
    State.get_judged_beside _ _ hcnt]

theorem State.get_inService_otherEvent {g : Fld} (h : g.off = CMN.EVENTS ∧ g.w = 1 ∧ g.lsb ≠ LPT.EV_STATE_CHANGE.lsb) :
    (s.inService p t ena).get (Pg.LPT p) g = s.get (Pg.LPT p) g := by
  obtain ⟨hoff, hw, hne⟩ := h
  have hstate : LPT.STATE.off ≠ g.off := by rw [hoff]; decide
  rw [State.inService, (State.driven_onlyIf _ p t ena).beside _ (.inl hstate), State.passed, State.modLpt_get,
    State.get_event_otherBit _ ⟨hoff, hw, by decide, hne⟩, State.get_put_beside _ _ LPT.STATE _ _ ⟨by decide, .inl hstate⟩,
    State.get_put_beside _ _ LPT.RETRIES _ _ ⟨by decide, .inl hstate⟩, State.get_put_beside _ _ LPT.CAUSE _ _ ⟨by decide, .inl hstate⟩,
    State.get_put_beside _ _ LPT.TX_AVAIL _ _ ⟨by decide, .inl hstate⟩, State.get_judged_beside _ _ (by rw [hoff]; decide)]

theorem State.inService_shows : let u := s.inService p t ena
    u.lps p = LS.SERVICE ∧ u.get (Pg.LPT p) LPT.CAUSE = LC.NONE ∧ u.get (Pg.LPT p) LPT.RETRIES = 0 ∧
      u.get (Pg.LPT p) LPT.TX_AVAIL = 1 ∧ u.get (Pg.LPT p) LPT.EV_STATE_CHANGE = 1 ∧ (u.lptSt p).checking = false ∧
      u.mir = s.mir ∧ u.dram = s.dram := by
  obtain ⟨⟨n, hrecord⟩, -, hbeside, hmir, hdram⟩ := State.driven_onlyIf ((s.judged p).passed p true t) p t ena
  refine ⟨?_, ?_, ?_, ?_, ?_, ?_, ?_, ?_⟩
  · rw [State.lps, State.inService, hbeside _ (by decide)]
    simp (disch := decide) only [State.passed, State.modLpt_get, State.get_event_beside, State.get_put_same]
    rfl
  · rw [State.inService, hbeside _ (by decide)]
    simp (disch := decide) only [State.passed, State.modLpt_get, State.get_event_beside, State.get_put_beside, State.get_put_same]
    rfl
  · rw [State.inService, hbeside _ (by decide)]
    simp (disch := decide) only [State.passed, State.modLpt_get, State.get_event_beside, State.get_put_beside, State.get_put_same]
    rfl
  · rw [State.inService, hbeside _ (by decide)]
    simp (disch := decide) only [State.passed, State.modLpt_get, State.get_event_beside, State.get_put_beside, State.get_put_same]
    rfl
  · rw [State.inService, hbeside _ (by decide)]
    simp (disch := decide) only [State.passed, State.modLpt_get, State.get_event_set]
  · rw [State.inService, hrecord, State.passed, State.lptSt_modLpt_same, State.lptSt_event, State.lptSt_put, State.lptSt_put,
      State.lptSt_put, State.lptSt_put, State.judged, State.lptSt_modLpt_same]
    rfl
  · rw [State.inService, hmir, State.passed, State.modLpt, State.setLpt_mir, State.event_mir, State.put_mir, State.put_mir,
      State.put_mir, State.put_mir, State.judged, State.modLpt, State.setLpt_mir, State.count_mir]
  · rw [State.inService, hdram, State.passed, State.modLpt, State.setLpt_dram, State.event_dram, State.put_dram, State.put_dram,
      State.put_dram, State.put_dram, State.judged, State.modLpt, State.setLpt_dram, State.count_dram]

end

section
variable {touched : Nat → Prop} {b s : State} (hb : b.LptOnly touched s) {p : Nat} (hstate : touched (addrOf (Pg.LPT p) LPT.STATE.off))
  (hevents : touched (addrOf (Pg.LPT p) CMN.EVENTS)) (hcnt : touched (addrOf (Pg.LPT p) LPT.CHECK_CNT.off))
include hb hcnt

theorem State.LptOnly.judged : b.LptOnly touched (s.judged p) := (hb.count hcnt).modLpt _ _

include hstate hevents

theorem State.LptOnly.inService (t : Nat) (ena : Bool) : b.LptOnly touched (s.inService p t ena) := by
  have hpassed : b.LptOnly touched ((s.judged p).passed p true t) := ((((((hb.judged hcnt).put (f := LPT.TX_AVAIL) _ hstate).put
    (f := LPT.CAUSE) _ hstate).put (f := LPT.RETRIES) _ hstate).put (f := LPT.STATE) _ hstate).event hevents).modLpt _ _
  exact hpassed.onlyIf _ (hpassed.setEna hstate _ _)

end

/-! #### Checks that find something -/

section
variable (s : State) (p : Nat)

theorem State.judged_mir : (s.judged p).mir = s.mir := by rw [State.judged, State.modLpt, State.setLpt_mir, State.count_mir]
theorem State.judged_dram : (s.judged p).dram = s.dram := by rw [State.judged, State.modLpt, State.setLpt_dram, State.count_dram]

variable (d : Nat)

theorem State.get_reversedShown_beside {g : Fld} (h : LPT.REV_STATE.off ≠ g.off ∧ CMN.EVENTS ≠ g.off) :
    (s.reversedShown p d).get (Pg.LPT p) g = s.get (Pg.LPT p) g := by
  obtain ⟨hstate, hevents⟩ := h
  rw [State.reversedShown, State.get_event_beside _ _ _ _ hevents, State.get_put_beside _ _ LPT.REV_STATE _ _ ⟨by decide, .inl hstate⟩,
    State.get_put_beside _ _ LPT.REV_PHASE _ _ ⟨by decide, .inl hstate⟩]

theorem State.get_reversedShown_state : (s.reversedShown p d).get (Pg.LPT p) LPT.REV_STATE = 2 := by
  simp (disch := decide) only [State.reversedShown, State.get_event_beside, State.get_put_same]
  rfl

variable {d} in
theorem State.get_reversedShown_phase (hd : d < 65536) : (s.reversedShown p d).get (Pg.LPT p) LPT.REV_PHASE = d := by
  simp (disch := decide) only [State.reversedShown, State.get_event_beside, State.get_put_beside, State.get_put_same]
  exact Nat.mod_eq_of_lt hd

theorem State.pilotCause_reversedShown : (s.reversedShown p d).pilotCause p = s.pilotCause p := by
  unfold State.pilotCause
  simp (disch := decide) only [State.get_reversedShown_beside]

end

/-- A cause that a check has found takes a quiet port to FAULT. -/
theorem State.judgeCheck_faults {s : State} {p t cause : Nat} {polar : Bool} (hp : p < 16) (hpiloted : (s.lptSt p).piloted = true)
    (hq : s.QuietPort p) (hlimit : s.get (Pg.LPT p) LPT.RETRY_LIMIT = 0) (hstate : s.lps p = LS.CHECK)
    (hcause : s.checkCause p polar = cause) (hsome : cause ≠ LC.NONE) :
    s.judgeCheck p t polar = (s.judged p).faultEntered p cause t := by
  have hframe : s.LptOnly (onPages [Pg.LPT p]) (s.judged p) :=
    (State.lptOnly_refl _ s).judged ((onPages_addrOf (by decide)).mpr List.mem_cons_self)
  have hlps : (s.judged p).lps p ≠ LS.FAULT := by
    rw [State.lps, State.get_judged_beside _ _ (by decide)]
    exact ne_of_eq_of_ne hstate (by decide)
  have hnolimit : (s.judged p).get (Pg.LPT p) LPT.RETRY_LIMIT = 0 := by rw [State.get_judged_beside _ _ (by decide), hlimit]
  rw [State.judgeCheck_of_finding hpiloted (by rw [hcause]; exact hsome), hcause,
    State.portFault_of_quiet hp (hq.of_lptOnly hframe (fun _ h => h) hp) hnolimit hlps]

/-- The echo taps stand beside every register below them. -/
theorem below_echoTap (i : Nat) {off : Nat} (h : off < LPT.ECHO_TAP.off) : off ≠ (LPT.ECHO_TAP.nth i).off :=
  Nat.ne_of_lt (h.trans_le (Nat.le_add_right _ _))

section
variable {s : State} {p tick : Nat} {m : PilotResult} (hp : p < 16) (hchecking : (s.lptSt p).checking = true)
  (hover : (s.lptSt p).ocFound = false) (hpilot : (s.lptSt p).pilot = true) (hend : s.pilotEnd p ≤ tick) (hstate : s.lps p = LS.CHECK)
include hp hchecking hover hpilot hend hstate

/-- A check without a finding puts the port in service. -/
theorem checkDone_passes (htx : s.domOn (112 + p) = true) (hrev : s.get (Pg.LPT p) LPT.REV_ACTION = 0)
    (hmin : s.get (Pg.LPT p) LPT.Z_MIN ≤ s.pilotZ p m.isns) (hmax : s.pilotZ p m.isns ≤ s.get (Pg.LPT p) LPT.Z_MAX)
    (hret : s.pilotReturn p m.rx ≤ s.get (Pg.LPT p) LPT.PILOT_RX_MIN_DB) :
    let t := ((s.atTick tick).checkDone tick p (some m) none).settle
    t.lps p = LS.SERVICE ∧ t.get (Pg.LPT p) LPT.CAUSE = LC.NONE ∧ t.get (Pg.LPT p) LPT.RETRIES = 0 ∧
      t.get (Pg.LPT p) LPT.TX_AVAIL = 1 ∧ t.get (Pg.LPT p) LPT.Z = s.pilotZ p m.isns ∧
      t.get (Pg.LPT p) LPT.RX_RET_DB = s.pilotReturn p m.rx ∧ t.get (Pg.LPT p) LPT.EV_CHECK_DONE = 1 ∧
      t.get (Pg.LPT p) LPT.EV_STATE_CHANGE = 1 ∧ s.Counted (Pg.LPT p) LPT.CHECK_CNT t ∧ (t.lptSt p).checking = false ∧
      s.TapsAdapted p m.echo t ∧
      State.RegsOnly (fun a => regsAt [(Pg.LPT p, LPT.STATE.off), (Pg.LPT p, LPT.Z.off), (Pg.LPT p, CMN.EVENTS),
        (Pg.LPT p, LPT.CHECK_CNT.off)] a ∨ echoTaps p a) { s.atTick tick with lpt := t.lpt } t := by
  have hcause : ((s.atTick tick).piloted p m).pilotCause p = LC.NONE := by
    rw [State.pilotCause_piloted]
    exact (if_neg (Nat.not_lt.mpr hmin)).trans (if_neg (not_or.mpr ⟨Nat.not_lt.mpr hmax, Nat.not_lt.mpr hret⟩))
  have hpiloted : (((s.atTick tick).piloted p m).lptSt p).piloted = true := by rw [State.lptSt_piloted]; rfl
  have hfound : (((s.atTick tick).piloted p m).lptSt p).ocFound = false := by rw [State.lptSt_piloted]; exact hover
  have hlps : ((s.atTick tick).piloted p m).lps p = LS.CHECK :=
    ((s.atTick tick).get_piloted_beside p m (g := LPT.STATE) (by decide)).trans hstate
  have hcheck := State.checkCause_of_pilotPassed hpiloted hfound hcause false
  rw [if_neg fun h => Bool.false_ne_true h.1] at hcheck
  have hpolar : ((s.lptSt p).polar && decide (s.get (Pg.LPT p) LPT.REV_ACTION ≠ 0)) = false := by
    rw [hrev]
    exact Bool.and_false _
  obtain ⟨ena, hjudge⟩ := State.judgeCheck_of_pass (t := tick) hpiloted hcheck hlps
  rw [State.domOn_judged_piloted (s := s.atTick tick) hp htx] at hjudge
  have hexec : (s.atTick tick).checkDone tick p (some m) none = ((s.atTick tick).piloted p m).inService p tick ena :=
    (State.checkDone_of_check (s := s.atTick tick) hchecking hpilot hend hstate hpolar rfl none).trans hjudge
  have hpg := lptPage_beside hp
  rw [hexec]
  obtain ⟨hservice, hnone, hretries, havail, hevent, hended, hmir, hdram⟩ := State.inService_shows ((s.atTick tick).piloted p m) p tick ena
  refine ⟨?_, ?_, ?_, ?_, ?_, ?_, ?_, ?_, ?_, ?_, ?_, ?_⟩
  · rw [State.lps_settle _ hp, hservice]
  · rw [State.get_settle_beside _ hpg (by decide), hnone]
  · rw [State.get_settle_beside _ hpg (by decide), hretries]
  · rw [State.get_settle_beside _ hpg (by decide), havail]
  · rw [State.get_settle_beside _ hpg (by decide), State.get_inService_beside _ _ _ _ (by decide), State.get_piloted_z]
    rfl
  · rw [State.get_settle_beside _ hpg (by decide), State.get_inService_beside _ _ _ _ (by decide), State.get_piloted_ret]
    rfl
  · rw [State.get_settle_beside _ hpg (by decide), State.get_inService_otherEvent _ _ _ _ (by decide), State.get_piloted_done]
  · rw [State.get_settle_beside _ hpg (by decide), hevent]
  · refine State.counted_settle (u := (s.atTick tick).piloted p m) hpg (by decide) (State.get_inService_cnt _ _ _ _) ?_ ?_ <;>
      rw [State.get_piloted_beside _ _ _ (by decide), State.atTick_get]
  · rw [State.lptSt_settle, hended]
  · intro i hi
    have hbelow : ∀ off, off < LPT.ECHO_TAP.off → off ≠ (LPT.ECHO_TAP.nth i).off := fun off h => below_echoTap i h
    have hoff : (LPT.ECHO_TAP.nth i).off = 0x800 + 4 * i := rfl
    rw [State.get_settle_beside _ hpg (by omega), State.get_inService_beside _ _ _ _ ⟨hbelow _ (by decide), hbelow _ (by decide),
      hbelow _ (by decide)⟩]
    exact (s.atTick tick).tapsAdapted_piloted p m i hi
  · refine ((State.LptOnly.piloted (State.lptOnly_refl _ _) (fun _ ha => .inr ha) (.inl (regsAt_of_mem (by simp)))
      (.inl (regsAt_of_mem (by simp))) m).inService (.inl (regsAt_of_mem (by simp))) (.inl (regsAt_of_mem (by simp)))
      (.inl (regsAt_of_mem (by simp))) tick ena).regsOnly_lpt ?_ ?_
    · rw [hmir, State.piloted_mir]
    · rw [hdram, State.piloted_dram]

/-- A finding of the pilot takes a quiet port to FAULT. -/
theorem checkDone_faults {cause : Nat} (hq : s.QuietPort p) (hrev : s.get (Pg.LPT p) LPT.REV_ACTION = 0)
    (hlimit : s.get (Pg.LPT p) LPT.RETRY_LIMIT = 0)
    (hcause : cause = if s.pilotZ p m.isns < s.get (Pg.LPT p) LPT.Z_MIN then LC.SHORT else LC.OPEN)
    (hfinding : s.pilotZ p m.isns < s.get (Pg.LPT p) LPT.Z_MIN ∨ s.get (Pg.LPT p) LPT.Z_MAX < s.pilotZ p m.isns ∨
      s.get (Pg.LPT p) LPT.PILOT_RX_MIN_DB < s.pilotReturn p m.rx) :
    let t := ((s.atTick tick).checkDone tick p (some m) none).settle
    t.lps p = LS.FAULT ∧ t.get (Pg.LPT p) LPT.CAUSE = cause ∧ t.get (Pg.LPT p) LPT.ENA = 0 ∧ t.get (Pg.LPT p) LPT.TX_AVAIL = 0 ∧
      s.Counted (Pg.LPT p) LPT.FAULT_CNT t ∧ s.Counted (Pg.LPT p) LPT.CHECK_CNT t ∧ (t.lptSt p).checking = false ∧
      (t.lptSt p).retryDue = s.retryAt p tick ∧ s.TapsAdapted p m.echo t ∧
      State.RegsOnly (fun a => regsAt [(Pg.LPT p, LPT.STATE.off), (Pg.LPT p, LPT.Z.off), (Pg.LPT p, CMN.EVENTS),
        (Pg.LPT p, LPT.CHECK_CNT.off), (Pg.LPT p, LPT.FAULT_CNT.off)] a ∨ echoTaps p a) { s.atTick tick with lpt := t.lpt } t := by
  have hfound : ((s.atTick tick).piloted p m).pilotCause p = cause := by
    rw [State.pilotCause_piloted, hcause]
    by_cases hshort : s.pilotZ p m.isns < s.get (Pg.LPT p) LPT.Z_MIN
    · exact (if_pos hshort).trans (if_pos hshort).symm
    · exact (if_neg hshort).trans ((if_pos (hfinding.resolve_left hshort)).trans (if_neg hshort).symm)
  have hkinds : cause = LC.SHORT ∨ cause = LC.OPEN := by
    rw [hcause]
    exact ite_eq_or_eq _ _ _
  have hsmall : cause < 8 ∧ cause ≠ LC.NONE := by rcases hkinds with h | h <;> rw [h] <;> decide
  have hpiloted : (((s.atTick tick).piloted p m).lptSt p).piloted = true := by rw [State.lptSt_piloted]; rfl
  have hfree : (((s.atTick tick).piloted p m).lptSt p).ocFound = false := by rw [State.lptSt_piloted]; exact hover
  have hcheck : ((s.atTick tick).piloted p m).checkCause p false = cause :=
    (State.checkCause_of_finding hpiloted hfree (hfound ▸ hkinds) false).trans hfound
  have hbeside : ∀ g : Fld, g.off < LPT.ECHO_TAP.off ∧ LPT.RX_RET_DB.off ≠ g.off ∧ CMN.EVENTS ≠ g.off →
      ((s.atTick tick).piloted p m).get (Pg.LPT p) g = s.get (Pg.LPT p) g := fun g hg => by
    rw [State.get_piloted_beside _ _ _ hg, State.atTick_get]
  have hpolar : ((s.lptSt p).polar && decide (s.get (Pg.LPT p) LPT.REV_ACTION ≠ 0)) = false := by
    rw [hrev]
    exact Bool.and_false _
  have hquiet : ((s.atTick tick).piloted p m).QuietPort p :=
    State.QuietPort.of_lptOnly (s := s.atTick tick) hq ((s.atTick tick).piloted_onPage p m) (fun _ h => h) hp
  have hjudge := State.judgeCheck_faults (t := tick) hp hpiloted hquiet ((hbeside _ (by decide)).trans hlimit)
    ((hbeside LPT.STATE (by decide)).trans hstate) hcheck hsmall.2
  have hexec : (s.atTick tick).checkDone tick p (some m) none =
      (((s.atTick tick).piloted p m).judged p).faultEntered p cause tick :=
    (State.checkDone_of_check (s := s.atTick tick) hchecking hpilot hend hstate hpolar rfl none).trans hjudge
  have hjudged : ∀ g : Fld, g.off < LPT.ECHO_TAP.off ∧ LPT.RX_RET_DB.off ≠ g.off ∧ CMN.EVENTS ≠ g.off → LPT.CHECK_CNT.off ≠ g.off →
      (((s.atTick tick).piloted p m).judged p).get (Pg.LPT p) g = s.get (Pg.LPT p) g := fun g hg hcnt => by
    rw [State.get_judged_beside _ _ hcnt, hbeside g hg]
  have hpg := lptPage_beside hp
  rw [hexec]
  obtain ⟨hlps, hshown, hlow, havail, -⟩ :=
    State.faultEntered_shows (((s.atTick tick).piloted p m).judged p) p cause tick hsmall.1
  obtain ⟨n, hrecord⟩ := State.lptSt_faultEntered (((s.atTick tick).piloted p m).judged p) p cause tick
  refine ⟨?_, ?_, ?_, ?_, ?_, ?_, ?_, ?_, ?_, ?_⟩
  · rw [State.lps_settle _ hp, hlps]
  · rw [State.get_settle_beside _ hpg (by decide), hshown]
  · rw [State.get_settle_beside _ hpg (by decide), hlow]
  · rw [State.get_settle_beside _ hpg (by decide), havail]
  · exact State.counted_faultEntered hp (hjudged _ (by decide) (by decide)) (hjudged _ (by decide) (by decide)) _ _
  · refine State.counted_settle (u := (s.atTick tick).piloted p m) hpg (by decide) ?_ (hbeside _ (by decide)) (hbeside _ (by decide))
    rw [State.get_faultEntered_beside _ _ _ _ (by decide), State.judged, State.modLpt_get]
  · rw [State.lptSt_settle, hrecord]
    rfl
  · rw [State.lptSt_settle, hrecord]
    exact State.retryAt_congr p tick (hjudged LPT.RETRIES (by decide) (by decide)) (hjudged _ (by decide) (by decide))
      (hjudged _ (by decide) (by decide))
  · intro i hi
    have hbelow : ∀ off, off < LPT.ECHO_TAP.off → off ≠ (LPT.ECHO_TAP.nth i).off := fun off h => below_echoTap i h
    have hoff : (LPT.ECHO_TAP.nth i).off = 0x800 + 4 * i := rfl
    rw [State.get_settle_beside _ hpg (by omega), State.get_faultEntered_beside _ _ _ _ ⟨hbelow _ (by decide), hbelow _ (by decide),
      hbelow _ (by decide)⟩, State.get_judged_beside _ _ (hbelow _ (by decide))]
    exact (s.atTick tick).tapsAdapted_piloted p m i hi
  · refine ((((State.lptOnly_refl _ _).piloted (fun _ ha => .inr ha) (.inl (regsAt_of_mem (by simp)))
      (.inl (regsAt_of_mem (by simp))) m).judged (.inl (regsAt_of_mem (by simp)))).faultEntered (.inl (regsAt_of_mem (by simp)))
      (.inl (regsAt_of_mem (by simp))) (.inl (regsAt_of_mem (by simp))) cause tick).regsOnly_lpt ?_ ?_
    · rw [State.faultEntered_mir, State.judged_mir, State.piloted_mir]
    · rw [State.faultEntered_dram, State.judged_dram, State.piloted_dram]

/-- A reversed residual takes a quiet port to FAULT under REV_ACTION FAULT. -/
theorem checkDone_reversed {r : BitVec 16} {d : Nat} (hq : s.QuietPort p) (hrev : s.get (Pg.LPT p) LPT.REV_ACTION = 2)
    (hpolar : (s.lptSt p).polar = true) (hready : s.polarReady = true) (hlong : (s.lptSt p).checkAt + 4 * s.cycleTicks ≤ tick)
    (hlimit : s.get (Pg.LPT p) LPT.RETRY_LIMIT = 0)
    (hmin : s.get (Pg.LPT p) LPT.Z_MIN ≤ s.pilotZ p m.isns) (hmax : s.pilotZ p m.isns ≤ s.get (Pg.LPT p) LPT.Z_MAX)
    (hret : s.pilotReturn p m.rx ≤ s.get (Pg.LPT p) LPT.PILOT_RX_MIN_DB)
    (hd : d = (r.toNat + 65536 - s.get (Pg.LPT p) LPT.REV_OFFSET) % 65536) (hlow : 24576 ≤ d) (hhigh : d ≤ 40960) :
    let t := ((s.atTick tick).checkDone tick p (some m) (some r)).settle
    t.lps p = LS.FAULT ∧ t.get (Pg.LPT p) LPT.CAUSE = LC.REVERSED ∧ t.get (Pg.LPT p) LPT.REV_STATE = 2 ∧
      t.get (Pg.LPT p) LPT.REV_PHASE = d ∧ t.get (Pg.LPT p) LPT.EV_REVERSED = 1 := by
  have hbeside : ∀ g : Fld, g.off < LPT.ECHO_TAP.off ∧ LPT.RX_RET_DB.off ≠ g.off ∧ CMN.EVENTS ≠ g.off →
      ((s.atTick tick).piloted p m).get (Pg.LPT p) g = s.get (Pg.LPT p) g := fun g hg => by
    rw [State.get_piloted_beside _ _ _ hg, State.atTick_get]
  have hshown : ∀ g : Fld, g.off < LPT.ECHO_TAP.off ∧ LPT.RX_RET_DB.off ≠ g.off ∧ CMN.EVENTS ≠ g.off → LPT.REV_STATE.off ≠ g.off →
      (((s.atTick tick).piloted p m).reversedShown p d).get (Pg.LPT p) g = s.get (Pg.LPT p) g := fun g hg hoff => by
    rw [State.get_reversedShown_beside _ _ _ ⟨hoff, hg.2.2⟩, hbeside g hg]
  have hcause : (((s.atTick tick).piloted p m).reversedShown p d).pilotCause p = LC.NONE := by
    rw [State.pilotCause_reversedShown, State.pilotCause_piloted]
    exact (if_neg (Nat.not_lt.mpr hmin)).trans (if_neg (not_or.mpr ⟨Nat.not_lt.mpr hmax, Nat.not_lt.mpr hret⟩))
  have hrecord : (((s.atTick tick).piloted p m).reversedShown p d).lptSt p = (s.lptSt p).pilotOver := by
    rw [State.reversedShown, State.lptSt_event, State.lptSt_put, State.lptSt_put, State.lptSt_piloted, State.lptSt_atTick]
  have hpiloted : ((((s.atTick tick).piloted p m).reversedShown p d).lptSt p).piloted = true := by rw [hrecord]; rfl
  have hfree : ((((s.atTick tick).piloted p m).reversedShown p d).lptSt p).ocFound = false := by rw [hrecord]; exact hover
  have hcheck : (((s.atTick tick).piloted p m).reversedShown p d).checkCause p true = LC.REVERSED := by
    refine (State.checkCause_of_pilotPassed hpiloted hfree hcause true).trans (if_pos ⟨rfl, State.get_reversedShown_state _ _ _, ?_⟩)
    rw [hshown _ (by decide) (by decide), hrev]
  have hframe : (s.atTick tick).LptOnly (onPages [Pg.LPT p]) (((s.atTick tick).piloted p m).reversedShown p d) :=
    ((((s.atTick tick).piloted_onPage p m).put (f := LPT.REV_PHASE) _ ((onPages_addrOf (by decide)).mpr List.mem_cons_self)).put
      (f := LPT.REV_STATE) _ ((onPages_addrOf (by decide)).mpr List.mem_cons_self)).event
      ((onPages_addrOf (by decide)).mpr List.mem_cons_self)
  have hquiet := State.QuietPort.of_lptOnly (s := s.atTick tick) hq hframe (fun _ h => h) hp
  have hjudge := State.judgeCheck_faults (t := tick) hp hpiloted hquiet ((hshown _ (by decide) (by decide)).trans hlimit)
    ((hshown LPT.STATE (by decide) (by decide)).trans hstate) hcheck (by decide)
  have hasked : ((s.lptSt p).polar && decide (s.get (Pg.LPT p) LPT.REV_ACTION ≠ 0)) = true := by
    rw [hpolar, hrev]
    rfl
  have hwait : (true && s.polarReady && decide (tick < (s.lptSt p).checkAt + 4 * s.cycleTicks)) = false := by
    rw [decide_eq_false (Nat.not_lt.mpr hlong)]
    exact Bool.and_false _
  have hresult : ((s.atTick tick).piloted p m).polarResult p (some r) = ((s.atTick tick).piloted p m).reversedShown p d := by
    refine State.polarResult_of_reversed ?_ ?_ hlow hhigh
    · rw [State.polarReady_piloted]
      exact hready
    · rw [hbeside _ (by decide), hd]
  have hdone := State.checkDone_of_check (s := s.atTick tick) (m := m) hchecking hpilot hend hstate hasked hwait (some r)
  rw [onlyIf_true, hresult, hjudge] at hdone
  have hpg := lptPage_beside hp
  rw [hdone]
  obtain ⟨hlps, hshows, -, -, -⟩ :=
    State.faultEntered_shows ((((s.atTick tick).piloted p m).reversedShown p d).judged p) p LC.REVERSED tick (by decide)
  refine ⟨?_, ?_, ?_, ?_, ?_⟩
  · rw [State.lps_settle _ hp, hlps]
  · rw [State.get_settle_beside _ hpg (by decide), hshows]
  · rw [State.get_settle_beside _ hpg (by decide), State.get_faultEntered_beside _ _ _ _ (by decide),
      State.get_judged_beside _ _ (by decide), State.get_reversedShown_state]
  · rw [State.get_settle_beside _ hpg (by decide), State.get_faultEntered_beside _ _ _ _ (by decide),
      State.get_judged_beside _ _ (by decide), State.get_reversedShown_phase _ _ (by omega)]
  · rw [State.get_settle_beside _ hpg (by decide), State.get_faultEntered_otherEvent _ _ _ _ (by decide),
      State.get_judged_beside _ _ (by decide), State.reversedShown, State.get_event_set _ (by decide)]

end

/-- Settles O18: a check starts by the pilot and the port's record, after the entry to CHECK where the port does not serve; it ends by
the pilot's result, what the residual shows, and the judgement. -/
theorem checksStartAndEnd : Obligations.ChecksStartAndEnd := by
  unfold Obligations.ChecksStartAndEnd
  refine ⟨fun s tick port tx htx => ?_, fun s tick ret z port m hchecking hret hz hover hpilot hend hstate hdom => ?_⟩
  · subst htx
    refine ⟨fun page hpage hreach hslave hoff hstate => ?_, fun hstate hms hidle hdue => ?_, fun hreach hstate => ?_,
      fun hreach hstate hidle => ?_, fun hstate hdue hlimit => ?_, fun hstate hdue hlimit hretries => ?_,
      fun hstate htx havail hpilot => ?_⟩
    · exact ctrlEnable_starts_check port.isLt hpage hreach hslave hoff hstate
    · exact ⟨_, rfl, checkDue_in_service port.isLt hstate hms hidle hdue⟩
    · exact ⟨_, finish_hostWrite hreach _, checkNow_starts_check port.isLt hstate⟩
    · exact ⟨_, finish_hostWrite hreach _, checkNow_in_service port.isLt hstate hidle⟩
    · exact ⟨_, rfl, portRetry_starts_check port.isLt hstate hdue hlimit⟩
    · exact ⟨_, rfl, portRetry_latches port.isLt hstate hdue hlimit hretries⟩
    · exact ⟨_, rfl, txAfeOn_in_service port.isLt hstate htx havail hpilot⟩
  · subst hret hz
    refine ⟨fun hrev hmin hmax hreturn => ?_, fun cause hq hrev hlimit hcause hfinding => ?_,
      fun r d hq hrev hpolar hready hlong hlimit hmin hmax hreturn hd hlow hhigh => ?_⟩
    · exact ⟨_, rfl, checkDone_passes port.isLt hchecking hover hpilot hend hstate hdom hrev hmin hmax hreturn⟩
    · exact ⟨_, rfl, checkDone_faults port.isLt hchecking hover hpilot hend hstate hq hrev hlimit hcause hfinding⟩
    · exact ⟨_, rfl, checkDone_reversed port.isLt hchecking hover hpilot hend hstate hq hrev hpolar hready hlong hlimit hmin hmax
        hreturn hd hlow hhigh⟩

end Sys2Proof.Machine

/-! ## Support of `EnergyFiguresAndMarks`: the 1 ms figures of a port (R162, R172) and the end of transmit marks (R90). -/

namespace Sys2Proof.Machine

/-! ### Transmit marks (R90, R176) -/

/-- A mark of port p and lane l has passed by tick `t`. -/
def TxMark.over (t p l : Nat) (m : TxMark) : Bool :=
  decide (m.port = p) && decide (m.lane = l) && (match m.stop with
    | some e => decide (e ≤ t)
    | none => false)

theorem TxMark.over_iff (t p l : Nat) (m : TxMark) : m.over t p l = true ↔ m.port = p ∧ m.lane = l ∧ ∃ e, m.stop = some e ∧ e ≤ t := by
  unfold TxMark.over
  cases hstop : m.stop with
  | none => simp
  | some e => simp [and_assoc]

/-- The side-log records of marks that have passed. -/
def State.marksLogged (t p : Nat) (ms : List TxMark) (s : State) : State :=
  forEach ms (fun m s => s.sideLog m.start SideKind.TX_MARK p (markData m.centre m.rate) ((m.stop.getD t) - m.start)) s

/-- What transmit synthesis keeps once the marks of a lane have been looked through. -/
def TxsSt.marksEnded (t p l : Nat) (x : TxsSt) : TxsSt :=
  { x with marks := x.marks.filter fun m => !m.over t p l
           past := x.marks.filter (TxMark.over t p l) ++ x.past.filter fun m => markKeep (m.stop.getD 0) t }

/-- Changes what transmit synthesis keeps. -/
def State.withTxs (x : TxsSt) (s : State) : State := { s with txs := x }

section
variable (s : State) (t p l : Nat) (ms : List TxMark)

theorem State.marksLogged_onPage : s.LptOnly (fun _ => False) (s.marksLogged t p ms) :=
  forEach_keeps (fun u => s.LptOnly (fun _ => False) u) _ _ (fun _ _ _ hu => State.LptOnly.sideLog _ _ _ _ _ _ hu) (State.lptOnly_refl _ s)

theorem State.marksLogged_lpt : (s.marksLogged t p ms).lpt = s.lpt :=
  forEach_keeps (fun u => u.lpt = s.lpt) _ _ (fun _ u _ hu => (u.sideLog_lpt _ _ _ _ _).trans hu) rfl

theorem State.marksLogged_txs : (s.marksLogged t p ms).txs = s.txs := by
  rw [(s.marksLogged_onPage t p ms).rest]

theorem State.txMarkEnd_eq : s.txMarkEnd t p l =
    (s.marksLogged t p (s.txs.marks.filter (TxMark.over t p l))).withTxs
      ((s.marksLogged t p (s.txs.marks.filter (TxMark.over t p l))).txs.marksEnded t p l) := rfl

/-- Mirage writes no record while it does not record. -/
theorem State.sideLog_of_stopped (h : s.recording = false) (tick kind port data span : Nat) :
    s.sideLog tick kind port data span = s := by
  unfold State.sideLog
  split
  · rfl
  · exact if_pos (.inl h)

theorem State.marksLogged_of_stopped (h : s.recording = false) : s.marksLogged t p ms = s := by
  refine forEach_keeps (fun u => u = s) _ _ (fun _ u _ hu => ?_) rfl
  rw [hu]
  exact s.sideLog_of_stopped h _ _ _ _ _

end

section
variable (s : State) (tick p l : Nat)

/-- The end of a lane's marks. -/
theorem txMarkEnd_shows : let t := ((s.atTick tick).txMarkEnd tick p l).settle
    (∀ m, m ∈ t.txs.marks ↔ m ∈ s.txs.marks ∧ ¬ (m.port = p ∧ m.lane = l ∧ ∃ e, m.stop = some e ∧ e ≤ tick)) ∧
      (s.recording = false → s.DramKept t) ∧
      (∀ m, s.txs.marks.filter (fun m => decide (m.port = p) && decide (m.lane = l)) = [m] → s.SideKept t) ∧
      State.RegsOnly (fun _ => False) { s.atTick tick with txs := t.txs, mir := t.mir, dram := t.dram } t := by
  have hmarks : ((s.atTick tick).txMarkEnd tick p l).txs.marks = s.txs.marks.filter fun m => !m.over tick p l := by
    rw [State.txMarkEnd_eq, State.marksLogged_txs]
    rfl
  have hdram : ((s.atTick tick).txMarkEnd tick p l).dram =
      ((s.atTick tick).marksLogged tick p (s.txs.marks.filter (TxMark.over tick p l))).dram := rfl
  refine ⟨fun m => ?_, fun hstopped a => ?_, fun m hone a ha => ?_, ?_⟩
  · rw [State.settle_txs, hmarks, List.mem_filter, Bool.not_eq_true', ← TxMark.over_iff, Bool.not_eq_true]
  · rw [State.settle_dramByte, State.dramByte, hdram, State.marksLogged_of_stopped (s.atTick tick) _ _ _ hstopped]
    rfl
  · have hover : s.txs.marks.filter (TxMark.over tick p l) = [m].filter (TxMark.over tick p l) := by
      rw [← hone, List.filter_filter]
      refine List.filter_congr fun x _ => ?_
      unfold TxMark.over
      cases decide (x.port = p) && decide (x.lane = l) <;> simp
    rw [State.settle_dramByte, State.dramByte, hdram, hover]
    by_cases hm : m.over tick p l = true
    · rw [List.filter_cons_of_pos hm]
      exact (s.atTick tick).sideKept_sideLog _ _ _ _ _ a ha
    · rw [List.filter_cons_of_neg hm]
      rfl
  · have hframe := (s.atTick tick).marksLogged_onPage tick p (s.txs.marks.filter (TxMark.over tick p l))
    have hlpt := (s.atTick tick).marksLogged_lpt tick p (s.txs.marks.filter (TxMark.over tick p l))
    rw [State.settle_txs, State.settle_mir, State.settle_dram]
    refine State.regsOnly_settle ⟨hframe.kept, ((s.atTick tick).marksLogged tick p (s.txs.marks.filter (TxMark.over tick p l))).regs,
      s.host.msiSent, s.host.active, s.host.faults, s.lnk.outTotal, s.lnk.outSince, ?_⟩
    have hrest := hframe.rest
    rw [hlpt] at hrest
    rw [State.txMarkEnd_eq]
    exact congrArg (State.withTxs _) hrest

end

/-! ### The 1 ms figures (R162, R172) -/

/-- Clipped samples of a window show. -/
def State.clipsShown (p n : Nat) (s : State) : State :=
  onlyIf (decide (0 < n)) (fun s => (s.countBy (Pg.TXS p) TXS.CLIP_CNT n).event (Pg.TXS p) TXS.EV_CLIP) s

/-- The figures of transmit synthesis show. -/
def State.powerShown (p : Nat) (g : EnergyFigures) (s : State) : State :=
  (((s.put (Pg.TXS p) TXS.DAC_RMS g.dacRms.toNat).put (Pg.TXS p) TXS.P_LINE_MW (satSigned 16 (s.lineMw p g.product))).put (Pg.TXS p)
    TXS.I_RMS_MA (sat 16 (s.codeMa p g.rms))).put (Pg.TXS p) TXS.CREST_GAIN_MIN (s.crestDepth p s.time)

/-- The figures of a window show, EST_K beside. -/
def State.figuresShown (p : Nat) (g : EnergyFigures) (s : State) : State :=
  (((s.powerShown p g).clipsShown p (s.clipCount p s.time)).put (Pg.LPT p) LPT.I_MEAN_MA (sat 16 (s.codeMa p g.mean))).put (Pg.LPT p)
    LPT.I_PEAK_MA (sat 16 (s.codeMa p g.peak))

/-- What is kept of the line power and of the estimators. -/
def State.metered (mw : Tab Int) (est : Tab Nat) (s : State) : State :=
  { s with oas := { s.oas with lineMw := mw }, txs := { s.txs with estK := est } }

/-- What is kept of a window of DAC_RMS `d` and line power `mw`. -/
def State.meter (p d : Nat) (mw : Int) (s : State) : State :=
  let s : State := { s with oas := { s.oas with lineMw := Tab.set (fun _ => 0) s.oas.lineMw p mw } }
  if d < 400 then
    let k := estStep (s.estK p) d mw
    let s : State := { s with txs := { s.txs with estK := Tab.set (fun _ => 4000 * 1048576) s.txs.estK p k } }
    s.put (Pg.TXS p) TXS.EST_K (sat 16 (k / 1048576))
  else s

section
variable (s : State) (p : Nat) (g : EnergyFigures)

theorem State.txEnergy_eq : s.txEnergy p g = (s.figuresShown p g).meter p g.dacRms.toNat (s.lineMw p g.product) := by
  unfold State.txEnergy State.meter State.figuresShown State.clipsShown State.powerShown
  rfl

theorem State.metered_get (mw : Tab Int) (est : Tab Nat) (pg : Nat) (f : Fld) : (s.metered mw est).get pg f = s.get pg f := rfl

/-- The line power that is kept reads as what has been kept last. -/
theorem State.metered_power (mw : Tab Int) (est : Tab Nat) (q : Nat) (v : Int) :
    Tab.get (fun _ => 0) (s.metered (Tab.set (fun _ => 0) mw q v) est).oas.lineMw q = v := Tab.get_set_same _ _ _ _

theorem State.metered_settle_estK (mw : Tab Int) (est : Tab Nat) (q : Nat) :
    (s.metered mw est).settle.estK q = Tab.get (fun _ => 4000 * 1048576) est q := by
  rw [State.estK, State.settle_txs]
  rfl

variable {d : Nat} (mw : Int)

/-- A loud window moves EST_K. -/
theorem State.meter_of_loud (h : d < 400) : s.meter p d mw =
    (s.put (Pg.TXS p) TXS.EST_K (sat 16 (estStep (s.estK p) d mw / 1048576))).metered (Tab.set (fun _ => 0) s.oas.lineMw p mw)
      (Tab.set (fun _ => 4000 * 1048576) s.txs.estK p (estStep (s.estK p) d mw)) := if_pos h

theorem State.meter_of_soft (h : 400 ≤ d) : s.meter p d mw =
    s.metered (Tab.set (fun _ => 0) s.oas.lineMw p mw) s.txs.estK := if_neg (Nat.not_lt.mpr h)

end

/-! #### Reads -/

theorem unsigned_lt (w : Nat) (v : Int) : unsigned w v < 2 ^ w := by
  have hpos : (0 : Int) < (2 ^ w : Nat) := by exact_mod_cast Nat.two_pow_pos w
  have hlt := Int.emod_lt_of_pos v hpos
  unfold unsigned
  omega

theorem sat_lt (w v : Nat) : sat w v < 2 ^ w :=
  Nat.lt_of_le_of_lt (Nat.min_le_right _ _) (Nat.sub_lt (Nat.two_pow_pos w) Nat.one_pos)

section
variable (s : State) (p n : Nat)

theorem State.get_clipsShown_beside {f : Fld} (h : TXS.CLIP_CNT.off ≠ f.off ∧ CMN.EVENTS ≠ f.off) :
    (s.clipsShown p n).get (Pg.TXS p) f = s.get (Pg.TXS p) f := by
  obtain ⟨hcnt, hevents⟩ := h
  unfold State.clipsShown onlyIf
  split
  · rw [State.get_event_beside _ _ _ _ hevents, State.get_countBy_other _ _ (addrOf_ne hcnt)]
  · rfl

theorem State.get_clipsShown_event (h : 0 < n) : (s.clipsShown p n).get (Pg.TXS p) TXS.EV_CLIP = 1 := by
  unfold State.clipsShown
  rw [decide_eq_true h, onlyIf_true, State.get_event_set _ (by decide)]

theorem State.countedBy_clipsShown : s.CountedBy (Pg.TXS p) TXS.CLIP_CNT n (s.clipsShown p n) := by
  unfold State.CountedBy State.clipsShown
  rcases Nat.eq_zero_or_pos n with rfl | hn
  · have hlt : s.get (Pg.TXS p) TXS.CLIP_CNT < 2 ^ TXS.CLIP_CNT.w := Fld.of_lt _ _
    rw [Nat.add_zero, Nat.mod_eq_of_lt hlt, ite_self]
    rfl
  · rw [decide_eq_true hn, onlyIf_true, State.get_event_beside _ _ _ _ (by decide)]
    cases hfreeze : s.flag (Pg.TXS p) CTRL.FREEZE_CNT with
    | true =>
      rw [State.countBy, if_pos hfreeze]
      rfl
    | false => exact State.get_countBy_same _ _ _ _ (by decide) hfreeze

variable (g : EnergyFigures)

theorem State.get_figuresShown_txs {f : Fld} (hf : f.off < 4096) :
    (s.figuresShown p g).get (Pg.TXS p) f = ((s.powerShown p g).clipsShown p (s.clipCount p s.time)).get (Pg.TXS p) f := by
  have hpg : Pg.LPT p ≠ Pg.TXS p := by unfold Pg.LPT Pg.TXS; omega
  rw [State.figuresShown, State.get_put_otherPage _ _ ⟨hpg, by decide, hf⟩, State.get_put_otherPage _ _ ⟨hpg, by decide, hf⟩]

theorem State.get_powerShown_beside {f : Fld} (h : TXS.CREST_GAIN_MIN.off ≠ f.off ∧ TXS.DAC_RMS.off ≠ f.off ∧ TXS.I_RMS_MA.off ≠ f.off) :
    (s.powerShown p g).get (Pg.TXS p) f = s.get (Pg.TXS p) f := by
  obtain ⟨hcrest, hpower, hrms⟩ := h
  rw [State.powerShown, State.get_put_beside _ _ TXS.CREST_GAIN_MIN _ _ ⟨by decide, .inl hcrest⟩,
    State.get_put_beside _ _ TXS.I_RMS_MA _ _ ⟨by decide, .inl hrms⟩, State.get_put_beside _ _ TXS.P_LINE_MW _ _ ⟨by decide, .inl hpower⟩,
    State.get_put_beside _ _ TXS.DAC_RMS _ _ ⟨by decide, .inl hpower⟩]

theorem State.powerShown_shows : let u := s.powerShown p g
    u.get (Pg.TXS p) TXS.DAC_RMS = g.dacRms.toNat ∧ u.get (Pg.TXS p) TXS.P_LINE_MW = satSigned 16 (s.lineMw p g.product) ∧
      u.get (Pg.TXS p) TXS.I_RMS_MA = sat 16 (s.codeMa p g.rms) ∧ u.get (Pg.TXS p) TXS.CREST_GAIN_MIN = s.crestDepth p s.time ∧
      u.get (Pg.TXS p) TXS.EST_K = s.get (Pg.TXS p) TXS.EST_K := by
  refine ⟨?_, ?_, ?_, ?_, ?_⟩
  · simp (disch := decide) only [State.powerShown, State.get_put_beside, State.get_put_same]
    exact Nat.mod_eq_of_lt g.dacRms.isLt
  · simp (disch := decide) only [State.powerShown, State.get_put_beside, State.get_put_same]
    exact Nat.mod_eq_of_lt (unsigned_lt 16 _)
  · simp (disch := decide) only [State.powerShown, State.get_put_beside, State.get_put_same]
    exact Nat.mod_eq_of_lt (sat_lt 16 _)
  · simp (disch := decide) only [State.powerShown, State.get_put_same]
    exact Nat.mod_eq_of_lt (Nat.lt_of_le_of_lt (Nat.min_le_right _ _) (by decide))
  · simp (disch := decide) only [State.powerShown, State.get_put_beside]

theorem State.figuresShown_currents : (s.figuresShown p g).get (Pg.LPT p) LPT.I_MEAN_MA = sat 16 (s.codeMa p g.mean) ∧
    (s.figuresShown p g).get (Pg.LPT p) LPT.I_PEAK_MA = sat 16 (s.codeMa p g.peak) := by
  constructor
  · simp (disch := decide) only [State.figuresShown, State.get_put_beside, State.get_put_same]
    exact Nat.mod_eq_of_lt (sat_lt 16 _)
  · simp (disch := decide) only [State.figuresShown, State.get_put_same]
    exact Nat.mod_eq_of_lt (sat_lt 16 _)

end

/-! #### The frame -/

section
variable {touched : Nat → Prop} {b s : State} (h : b.RegsOnly touched s)
include h

theorem State.RegsOnly.figuresShown {p : Nat} (hpower : touched (addrOf (Pg.TXS p) TXS.DAC_RMS.off))
    (hrms : touched (addrOf (Pg.TXS p) TXS.EST_K.off)) (hcrest : touched (addrOf (Pg.TXS p) TXS.CREST_GAIN_MIN.off))
    (hevents : touched (addrOf (Pg.TXS p) CMN.EVENTS)) (hcnt : touched (addrOf (Pg.TXS p) TXS.CLIP_CNT.off))
    (hcurrents : touched (addrOf (Pg.LPT p) LPT.I_MEAN_MA.off)) (g : EnergyFigures) : b.RegsOnly touched (s.figuresShown p g) := by
  have hshown : b.RegsOnly touched (s.powerShown p g) := State.regsOnly_put (f := TXS.CREST_GAIN_MIN) _ (State.regsOnly_put
    (f := TXS.I_RMS_MA) _ (State.regsOnly_put (f := TXS.P_LINE_MW) _ (State.regsOnly_put (f := TXS.DAC_RMS) _ h hpower) hpower) hrms) hcrest
  have hclips : b.RegsOnly touched ((s.powerShown p g).clipsShown p (s.clipCount p s.time)) :=
    State.regsOnly_onlyIf _ hshown (State.regsOnly_event (State.regsOnly_countBy _ hshown hcnt) hevents)
  exact State.regsOnly_put (f := LPT.I_PEAK_MA) _ (State.regsOnly_put (f := LPT.I_MEAN_MA) _ hclips hcurrents) hcurrents

theorem State.RegsOnly.metered (mw : Tab Int) (est : Tab Nat) :
    State.RegsOnly touched { b with txs := (s.metered mw est).txs, oas := (s.metered mw est).oas } (s.metered mw est) := by
  obtain ⟨hkept, regs, msi, act, flt, total, since, rfl⟩ := h
  exact ⟨hkept, regs, msi, act, flt, total, since, rfl⟩

end

/-! #### TX_ENERGY_REPORT -/

section
variable {s : State} {p tick : Nat} {g : EnergyFigures}

/-- The registers that TX_ENERGY_REPORT writes. -/
def energyRegs (p : Nat) : List (Nat × Nat) :=
  [(Pg.TXS p, TXS.DAC_RMS.off), (Pg.TXS p, TXS.EST_K.off), (Pg.TXS p, TXS.CREST_GAIN_MIN.off), (Pg.TXS p, CMN.EVENTS),
    (Pg.TXS p, TXS.CLIP_CNT.off), (Pg.LPT p, LPT.I_MEAN_MA.off)]

theorem figuresShown_frame : (s.atTick tick).RegsOnly (regsAt (energyRegs p)) ((s.atTick tick).figuresShown p g) :=
  (State.regsOnly_refl _ _).figuresShown (regsAt_of_mem (by simp [energyRegs])) (regsAt_of_mem (by simp [energyRegs]))
    (regsAt_of_mem (by simp [energyRegs])) (regsAt_of_mem (by simp [energyRegs])) (regsAt_of_mem (by simp [energyRegs]))
    (regsAt_of_mem (by simp [energyRegs])) g

theorem State.RegsOnly.estK {touched : Nat → Prop} {b w : State} (h : b.RegsOnly touched w) (q : Nat) : w.estK q = b.estK q := by
  obtain ⟨-, regs, msi, act, flt, total, since, rfl⟩ := h
  rfl

/-- What follows a command that has metered a window. -/
theorem State.RegsOnly.settle_metered {touched : Nat → Prop} {b w : State} (h : b.RegsOnly touched w) (mw : Tab Int) (est : Tab Nat) :
    State.RegsOnly touched { b with txs := (w.metered mw est).settle.txs, oas := (w.metered mw est).settle.oas }
      (w.metered mw est).settle := by
  rw [State.settle_txs, State.settle_oas]
  exact State.regsOnly_settle (h.metered mw est)

/-- The rest of a report leaves what the figures show, and keeps the line power. -/
theorem txEnergy_shows : ∃ u, (s.atTick tick).txEnergy p g = u ∧
    (∀ {pg : Nat} {f : Fld}, f.off < 4096 → addrOf (Pg.TXS p) TXS.EST_K.off ≠ addrOf pg f.off →
      u.get pg f = ((s.atTick tick).figuresShown p g).get pg f) ∧
    u.get (Pg.TXS p) TXS.I_RMS_MA = ((s.atTick tick).figuresShown p g).get (Pg.TXS p) TXS.I_RMS_MA ∧
    Tab.get (fun _ => 0) u.oas.lineMw p = s.lineMw p g.product ∧
    State.RegsOnly (regsAt (energyRegs p)) { s.atTick tick with txs := u.settle.txs, oas := u.settle.oas } u.settle := by
  refine ⟨_, rfl, ?_⟩
  rw [State.txEnergy_eq]
  rcases Nat.lt_or_ge g.dacRms.toNat 400 with hloud | hsoft
  · rw [State.meter_of_loud _ _ _ hloud]
    refine ⟨fun {pg f} hf hest => ?_, ?_, State.metered_power _ _ _ _ _, ?_⟩
    · rw [State.metered_get, State.get_put_other _ _ hest]
    · rw [State.metered_get, State.get_put_beside _ _ _ _ _ (by decide)]
    · exact (State.regsOnly_put _ figuresShown_frame (regsAt_of_mem (by simp [energyRegs]))).settle_metered _ _
  · rw [State.meter_of_soft _ _ _ hsoft]
    exact ⟨fun {pg f} _ _ => State.metered_get _ _ _ _ _, State.metered_get _ _ _ _ _, State.metered_power _ _ _ _ _,
      figuresShown_frame.settle_metered _ _⟩

end

section
variable {s u : State} {p tick : Nat} {g : EnergyFigures} (hp : p < 16)

/-- The figures of a window do not depend on the time at which they are asked for. -/
theorem State.crestDepth_atTick : (s.atTick tick).crestDepth p (s.atTick tick).time = s.crestDepth p (Nat.max s.time tick) := rfl
theorem State.clipCount_atTick : (s.atTick tick).clipCount p (s.atTick tick).time = s.clipCount p (Nat.max s.time tick) := rfl

include hp

/-- What the figures show where the rest of the command leaves all registers but EST_K's as they are. -/
theorem energyFigures_show (hbeside : ∀ {pg : Nat} {f : Fld}, f.off < 4096 → addrOf (Pg.TXS p) TXS.EST_K.off ≠ addrOf pg f.off →
      u.get pg f = ((s.atTick tick).figuresShown p g).get pg f)
    (hrms : u.get (Pg.TXS p) TXS.I_RMS_MA = ((s.atTick tick).figuresShown p g).get (Pg.TXS p) TXS.I_RMS_MA) : let t := u.settle
    t.get (Pg.TXS p) TXS.DAC_RMS = g.dacRms.toNat ∧ t.get (Pg.TXS p) TXS.P_LINE_MW = satSigned 16 (s.lineMw p g.product) ∧
      t.get (Pg.TXS p) TXS.I_RMS_MA = sat 16 (s.codeMa p g.rms) ∧
      t.get (Pg.TXS p) TXS.CREST_GAIN_MIN = s.crestDepth p (Nat.max s.time tick) ∧
      t.get (Pg.LPT p) LPT.I_MEAN_MA = sat 16 (s.codeMa p g.mean) ∧ t.get (Pg.LPT p) LPT.I_PEAK_MA = sat 16 (s.codeMa p g.peak) ∧
      s.CountedBy (Pg.TXS p) TXS.CLIP_CNT (s.clipCount p (Nat.max s.time tick)) t ∧
      (0 < s.clipCount p (Nat.max s.time tick) → t.get (Pg.TXS p) TXS.EV_CLIP = 1) := by
  obtain ⟨htxs, -⟩ := txsPage hp
  have hlpt := lptPage_beside hp
  have hpages : Pg.TXS p ≠ Pg.LPT p := by unfold Pg.TXS Pg.LPT; omega
  have htxsRead : ∀ {f : Fld}, f.off < 4096 → TXS.EST_K.off ≠ f.off → u.settle.get (Pg.TXS p) f =
      (((s.atTick tick).powerShown p g).clipsShown p (s.clipCount p (Nat.max s.time tick))).get (Pg.TXS p) f := fun hf hest => by
    rw [State.get_settle_beside _ htxs hf, hbeside hf (addrOf_ne hest), State.get_figuresShown_txs _ _ _ hf, State.clipCount_atTick]
  have hlptRead : ∀ {f : Fld}, f.off < 4096 → u.settle.get (Pg.LPT p) f = ((s.atTick tick).figuresShown p g).get (Pg.LPT p) f :=
    fun hf => by rw [State.get_settle_beside _ hlpt hf, hbeside hf fun he => hpages (addrOf_inj (by decide) hf he).1]
  obtain ⟨hdac, hline, hcurrent, hcrest, -⟩ := State.powerShown_shows (s.atTick tick) p g
  obtain ⟨hmean, hpeak⟩ := State.figuresShown_currents (s.atTick tick) p g
  refine ⟨?_, ?_, ?_, ?_, ?_, ?_, ?_, fun hclips => ?_⟩
  · rw [htxsRead (by decide) (by decide), State.get_clipsShown_beside _ _ _ (by decide), hdac]
  · rw [htxsRead (by decide) (by decide), State.get_clipsShown_beside _ _ _ (by decide), hline]
    rfl
  · rw [State.get_settle_beside _ htxs (by decide), hrms, State.get_figuresShown_txs _ _ _ (by decide),
      State.get_clipsShown_beside _ _ _ (by decide), hcurrent]
    rfl
  · rw [htxsRead (by decide) (by decide), State.get_clipsShown_beside _ _ _ (by decide), hcrest, State.crestDepth_atTick]
  · rw [hlptRead (by decide), hmean]
    rfl
  · rw [hlptRead (by decide), hpeak]
    rfl
  · have hcounted := State.countedBy_clipsShown ((s.atTick tick).powerShown p g) p (s.clipCount p (Nat.max s.time tick))
    unfold State.CountedBy State.flag at hcounted ⊢
    rw [htxsRead (by decide) (by decide), hcounted, State.get_powerShown_beside _ _ _ (by decide),
      State.get_powerShown_beside _ _ _ (by decide), State.atTick_get, State.atTick_get]
  · rw [htxsRead (by decide) (by decide), State.get_clipsShown_event _ _ _ hclips]

/-- A loud window moves EST_K. -/
theorem txEnergy_of_loud_window (hloud : g.dacRms.toNat < 400) : let t := ((s.atTick tick).txEnergy p g).settle
    t.estK p = estStep (s.estK p) g.dacRms.toNat (s.lineMw p g.product) ∧
      t.get (Pg.TXS p) TXS.EST_K = Nat.min (t.estK p / 1048576) 65535 := by
  obtain ⟨htxs, -⟩ := txsPage hp
  have hest : ((s.atTick tick).figuresShown p g).estK p = s.estK p := figuresShown_frame.estK p
  rw [State.txEnergy_eq, State.meter_of_loud _ _ _ hloud, hest]
  have hkept : ((((s.atTick tick).figuresShown p g).put (Pg.TXS p) TXS.EST_K (sat 16 (estStep (s.estK p) g.dacRms.toNat
      ((s.atTick tick).lineMw p g.product) / 1048576))).metered
      (Tab.set (fun _ => 0) ((s.atTick tick).figuresShown p g).oas.lineMw p ((s.atTick tick).lineMw p g.product))
      (Tab.set (fun _ => 4000 * 1048576) ((s.atTick tick).figuresShown p g).txs.estK p
        (estStep (s.estK p) g.dacRms.toNat ((s.atTick tick).lineMw p g.product)))).settle.estK p =
      estStep (s.estK p) g.dacRms.toNat (s.lineMw p g.product) := by
    rw [State.metered_settle_estK, Tab.get_set_same]
    rfl
  refine ⟨hkept, ?_⟩
  rw [hkept, State.get_settle_beside _ htxs (by decide), State.metered_get, State.get_put_same _ _ _ _ (by decide)]
  exact Nat.mod_eq_of_lt (sat_lt 16 _)

/-- A soft window leaves EST_K. -/
theorem txEnergy_of_soft_window (hsoft : 400 ≤ g.dacRms.toNat) : let t := ((s.atTick tick).txEnergy p g).settle
    t.estK p = s.estK p ∧ t.get (Pg.TXS p) TXS.EST_K = s.get (Pg.TXS p) TXS.EST_K := by
  obtain ⟨htxs, -⟩ := txsPage hp
  obtain ⟨-, -, -, -, hshown⟩ := State.powerShown_shows (s.atTick tick) p g
  have hest : ((s.atTick tick).figuresShown p g).estK p = s.estK p := figuresShown_frame.estK p
  rw [State.txEnergy_eq, State.meter_of_soft _ _ _ hsoft]
  refine ⟨?_, ?_⟩
  · rw [State.metered_settle_estK]
    exact hest
  · rw [State.get_settle_beside _ htxs (by decide), State.metered_get, State.get_figuresShown_txs _ _ _ (by decide),
      State.get_clipsShown_beside _ _ _ (by decide), hshown, State.atTick_get]

end

/-- Settles O26: the figures are written from the codes and the DAC samples of the window, then the estimator moves where the window is
loud; the marks of a lane that have passed are filtered out, each with a record of the side log. -/
theorem energyFiguresAndMarks : Obligations.EnergyFiguresAndMarks := by
  unfold Obligations.EnergyFiguresAndMarks
  rintro s tick port lane g txs lpt rfl rfl
  refine ⟨fun hdom => ?_, _, rfl, txMarkEnd_shows s tick port.val lane.val⟩
  have hexec : exec (.txEnergyReport tick port g) s = .next ((s.atTick tick).txEnergy port.val g).settle := by
    refine congrArg finish ?_
    rw [show (s.atTick tick).domOn (112 + port.val) = true from hdom, onlyIf_true]
  obtain ⟨u, hu, hbeside, hrms, hmw, hframe⟩ := txEnergy_shows (s := s) (tick := tick) (p := port.val) (g := g)
  have hloud := txEnergy_of_loud_window (s := s) (tick := tick) (g := g) port.isLt
  have hsoft := txEnergy_of_soft_window (s := s) (tick := tick) (g := g) port.isLt
  rw [hu] at hexec hloud hsoft
  obtain ⟨hdac, hline, hcurrent, hcrest, hmean, hpeak, hclips, hevent⟩ := energyFigures_show port.isLt hbeside hrms
  refine ⟨_, hexec, hdac, hline, hcurrent, hcrest, hmean, hpeak, hclips, hevent, ?_, hsoft, hloud, hframe⟩
  rw [State.settle_oas]
  exact hmw

end Sys2Proof.Machine

/-! ## Support of `PinsEchoAndPortSamples`: LPn_ENA of single frames (R86) and the reset of the echo canceller (R89). -/

namespace Sys2Proof.Machine

/-! ### LPn_ENA (R86) -/

/-- The largest of numbers that stay below a bound. -/
theorem foldl_max_le {α : Type} (f : α → Nat) (l : List α) {m n : Nat} (hm : m ≤ n) (hl : ∀ a, a ∈ l → f a ≤ n) :
    l.foldl (fun m a => Nat.max m (f a)) m ≤ n := by
  induction l generalizing m with
  | nil => exact hm
  | cons a l ih => exact ih (Nat.max_le.mpr ⟨hm, hl a List.mem_cons_self⟩) fun b hb => hl b (List.mem_cons_of_mem _ hb)

section
variable {s : State} {p tick : Nat} (hp : p < 16)
include hp

/-- The lead of a start raises LPn_ENA. -/
theorem enaLeadStart_raises {port : Fin 16} (hport : port.val = p) {l t0 : Nat} {x : Lane} (hready : s.portReady p = true)
    (hmode : s.get (Pg.LPT p) LPT.ENA_MODE = 0) (hlane : (l, x) ∈ s.portLanes p) (hnext : s.laneNext x = some t0)
    (hsoon : t0 ≤ tick + usTicks (s.get (Pg.LPT p) LPT.ENA_LEAD_US)) :
    ∃ t, exec (.enaLeadStart tick port) s = .next t ∧ t.get (Pg.LPT p) LPT.ENA = 1 ∧
      State.RegsOnly (regsAt [(Pg.LPT p, LPT.ENA.off)]) { s.atTick tick with lpt := t.lpt } t := by
  have hstart : s.startSoon p (tick + usTicks (s.get (Pg.LPT p) LPT.ENA_LEAD_US)) = true := by
    have hany : (s.portLanes p).any (fun e => (s.laneNext e.2).any fun t => decide
        (t ≤ tick + usTicks (s.get (Pg.LPT p) LPT.ENA_LEAD_US))) = true :=
      List.any_eq_true.mpr ⟨(l, x), hlane, by rw [hnext]; exact decide_eq_true hsoon⟩
    rw [State.startSoon, hany]
    rfl
  have hgoes : ((s.atTick tick).portReady p && decide ((s.atTick tick).get (Pg.LPT p) LPT.ENA_MODE = 0) &&
      (s.atTick tick).startSoon p (tick + usTicks ((s.atTick tick).get (Pg.LPT p) LPT.ENA_LEAD_US))) = true := by
    rw [State.atTick_get, State.atTick_get, hmode]
    change (s.portReady p && true && s.startSoon p (tick + usTicks (s.get (Pg.LPT p) LPT.ENA_LEAD_US))) = true
    rw [hready, hstart]
    rfl
  have hexec : exec (.enaLeadStart tick port) s = .next ((s.atTick tick).setEna p true tick).settle := by
    subst hport
    refine congrArg finish ?_
    rw [hgoes, onlyIf_true]
  refine ⟨_, hexec, ?_, ?_⟩
  · rw [State.get_settle_beside _ (lptPage_beside hp) (by decide), State.get_setEna_self]
    rfl
  · exact ((State.lptOnly_refl _ _).setEna (regsAt_of_mem (by simp)) _ _).regsOnly_lpt (State.setEna_mir _ _ _ _)
      (State.setEna_dram _ _ _ _)

/-- The lag after the last sample drops LPn_ENA. -/
theorem enaLagExpiry_drops {port : Fin 16} (hport : port.val = p) (hmode : s.get (Pg.LPT p) LPT.ENA_MODE = 0)
    (hsilent : s.portOnLine p = false) (hsoon : s.startSoon p (tick + usTicks (s.get (Pg.LPT p) LPT.ENA_LEAD_US)) = false)
    (hpilot : (s.lptSt p).pilot = false) (hpiloted : (s.lptSt p).piloted = false)
    (hhist : ∀ h, h ∈ s.txs.hist → h.port = p → h.stop + usTicks (s.get (Pg.LPT p) LPT.ENA_LAG_US) ≤ tick)
    (hlag : usTicks (s.get (Pg.LPT p) LPT.ENA_LAG_US) ≤ tick) :
    ∃ t, exec (.enaLagExpiry tick port) s = .next t ∧ t.get (Pg.LPT p) LPT.ENA = 0 ∧
      State.RegsOnly (regsAt [(Pg.LPT p, LPT.ENA.off)]) (s.atTick tick) t := by
  have hlast : (s.txs.hist.filter fun x => decide (x.port = p)).foldl (fun m x => Nat.max m x.stop) 0 +
      usTicks (s.get (Pg.LPT p) LPT.ENA_LAG_US) ≤ tick := by
    have hmax := foldl_max_le (fun x => x.stop) (s.txs.hist.filter fun x => decide (x.port = p))
      (Nat.zero_le (tick - usTicks (s.get (Pg.LPT p) LPT.ENA_LAG_US))) fun h hh => by
        obtain ⟨hmem, hof⟩ := List.mem_filter.mp hh
        have hstop := hhist h hmem (of_decide_eq_true hof)
        omega
    omega
  have hsingle : decide ((s.atTick tick).get (Pg.LPT p) LPT.ENA_MODE = 1) = false :=
    decide_eq_false (by rw [State.atTick_get, hmode]; decide)
  have hsilent' : (s.atTick tick).portOnLine p = false := hsilent
  have hsoon' : (s.atTick tick).startSoon p (tick + usTicks ((s.atTick tick).get (Pg.LPT p) LPT.ENA_LEAD_US)) = false := hsoon
  have hlast' : ((s.atTick tick).txs.hist.filter fun x => decide (x.port = p)).foldl (fun m x => Nat.max m x.stop) 0 +
      usTicks ((s.atTick tick).get (Pg.LPT p) LPT.ENA_LAG_US) ≤ tick := hlast
  have hexec : exec (.enaLagExpiry tick port) s = .next ((s.atTick tick).setEna p false tick).settle := by
    subst hport
    refine congrArg finish ?_
    rw [hsingle, hsilent', hsoon', State.lptSt_atTick, hpilot, hpiloted, decide_eq_true hlast', Bool.and_false, Bool.and_false]
    exact onlyIf_true _ _
  refine ⟨_, hexec, ?_, ?_⟩
  · rw [State.get_settle_beside _ (lptPage_beside hp) (by decide), State.get_setEna_self]
    rfl
  · exact ((State.lptOnly_refl _ _).setEna (regsAt_of_mem (by simp)) _ _).regsOnly_regs (State.lpt_setEna_false _ _ _)
      (State.setEna_mir _ _ _ _) (State.setEna_dram _ _ _ _)

end

/-! ### ECHO_RESET (R89) -/

/-- What a port keeps while ECHO_RESET waits. -/
def LptSt.resetAsked (x : LptSt) : LptSt := { x with echoReset := true }

/-- What a port keeps once ECHO_RESET has been done. -/
def LptSt.resetDone (x : LptSt) : LptSt := { x with echoReset := false }

/-- The page offsets that hold the echo taps and the analog settings of the canceller. -/
def echoOffset (off : Nat) : Bool := decide (off = 0x114) || (decide (0x800 ≤ off) && decide (off < 0xC00))

section
variable {s : State} {p : Nat}

theorem State.echoResetCmd_of_silent (h : s.portOnLine p = false) :
    s.echoResetCmd p = ((s.modLpt p LptSt.resetAsked).modLpt p LptSt.resetDone).echoDefaults p := by
  have hasked : ((s.modLpt p LptSt.resetAsked).lptSt p).echoReset = true := by rw [State.lptSt_modLpt_same]; rfl
  exact if_pos ⟨hasked, h⟩

theorem State.echoResetCmd_of_onLine (h : s.portOnLine p = true) : s.echoResetCmd p = s.modLpt p LptSt.resetAsked :=
  if_neg fun hsilent => Bool.false_ne_true (hsilent.2.symm.trans h)

/-- The return to the fused defaults of the registers of page LPTp. -/
theorem State.reg_echoDefaults (s : State) (p pg : Nat) {off : Nat} (hoff : off < 4096) :
    (s.echoDefaults p).reg pg off = if pg = Pg.LPT p ∧ echoOffset off = true then resetWord (addrOf pg off) else s.reg pg off := by
  have hin : inPage (Pg.LPT p) echoOffset (addrOf pg off) = true ↔ pg = Pg.LPT p ∧ echoOffset off = true := by
    have hmod : addrOf pg off % 4096 = off := by unfold addrOf; omega
    unfold inPage
    rw [addrOf_page hoff, hmod, Bool.and_eq_true, decide_eq_true_eq]
  refine (Tab.get_drop resetWord (inPage (Pg.LPT p) echoOffset) s.regs (addrOf pg off)).trans ?_
  by_cases h : pg = Pg.LPT p ∧ echoOffset off = true
  · rw [if_pos (hin.mpr h), if_pos h]
  · rw [if_neg (fun hi => h (hin.mp hi)), if_neg h]
    rfl

/-- The tap registers alone stand above offset 0x800 of a port's page, and every other field with a reset value stands below. -/
theorem lptSpecs_reset : ∀ r ∈ specs .lpt, r.reset = 0 ∨ (r.fld.step = 0 ∧ r.fld.off < 0x800) := by decide

/-- A sum of nothing. -/
theorem foldl_add_zero {α : Type} (f : α → Nat) (l : List α) (h : ∀ a, a ∈ l → f a = 0) : l.foldl (fun n a => n + f a) 0 = 0 := by
  induction l with
  | nil => rfl
  | cons a l ih =>
    rw [List.foldl_cons, h a List.mem_cons_self]
    exact ih fun b hb => h b (List.mem_cons_of_mem _ hb)

/-- The taps are 0 after reset. -/
theorem resetFields_lpt {off : Nat} (h : 0x800 ≤ off) : resetFields .lpt off = 0 := by
  refine foldl_add_zero (fun e : FldSpec × Fld => e.1.reset * 2 ^ e.1.fld.lsb) _ fun e he => ?_
  obtain ⟨r, hr, heq⟩ := List.mem_filterMap.mp he
  rcases lptSpecs_reset r hr with hzero | ⟨hstep, hoff⟩
  · have hrow : e.1 = r := by
      dsimp only at heq
      split at heq
      · split at heq
        · rw [← Option.some.inj heq]
        · cases heq
      · split at heq
        · rw [← Option.some.inj heq]
        · cases heq
    rw [hrow, hzero, Nat.zero_mul]
  · dsimp only at heq
    rw [if_pos hstep, if_neg (by omega)] at heq
    cases heq

theorem resetWord_tap {i : Nat} (hp : p < 16) (hi : i < 256) : resetWord (addrOf (Pg.LPT p) (LPT.ECHO_TAP.nth i).off) = 0 := by
  obtain ⟨code, hindex⟩ := pageIndex_lpt hp
  have hoff : (LPT.ECHO_TAP.nth i).off = 0x800 + 4 * i := rfl
  have hmod : addrOf (Pg.LPT p) (0x800 + 4 * i) % 4096 = 0x800 + 4 * i := by unfold addrOf; omega
  unfold resetWord
  rw [hoff, addrOf_page (by omega), hindex]
  simp only [hmod, resetSpecial]
  rw [if_neg (by omega), if_neg (by omega), resetFields_lpt (by omega)]
  rfl

/-- ECHO_RESET on a silent port. -/
theorem echoReset_at_once (hp : p < 16) (h : s.portOnLine p = false) : let t := (s.echoResetCmd p).settle
    t.reg (Pg.LPT p) LPT.CANC_GAIN.off = resetWord (addrOf (Pg.LPT p) LPT.CANC_GAIN.off) ∧
      (∀ i, i < 256 → t.get (Pg.LPT p) (LPT.ECHO_TAP.nth i) = 0) ∧
      (∀ pg off, (pg ≠ Pg.LPT p ∨ off < 0x114 ∨ (0x118 ≤ off ∧ off < 0x800) ∨ 0xC00 ≤ off) → off < 4096 →
        follows (addrOf pg off) = false → t.reg pg off = s.reg pg off) ∧ s.DramKept t := by
  have hpg := lptPage_beside hp
  have hfollows : ∀ off, off < 4096 → follows (addrOf (Pg.LPT p) off) = false := fun off hoff =>
    follows_eq_false hpg.1 hoff fun he => absurd he hpg.2
  have hreg : ∀ pg off, off < 4096 → follows (addrOf pg off) = false → (s.echoResetCmd p).settle.reg pg off =
      if pg = Pg.LPT p ∧ echoOffset off = true then resetWord (addrOf pg off) else s.reg pg off := fun pg off hoff hf => by
    rw [(State.settle_settled _).reg pg off hf, State.echoResetCmd_of_silent h, State.reg_echoDefaults _ _ _ hoff]
    rfl
  refine ⟨?_, fun i hi => ?_, fun pg off haway hoff hf => ?_, ?_⟩
  · exact (hreg _ _ (by decide) (hfollows _ (by decide))).trans (if_pos ⟨rfl, by decide⟩)
  · have hoff : (LPT.ECHO_TAP.nth i).off = 0x800 + 4 * i := rfl
    have hin : echoOffset (LPT.ECHO_TAP.nth i).off = true := by
      unfold echoOffset
      rw [decide_eq_true (show 0x800 ≤ (LPT.ECHO_TAP.nth i).off by omega), decide_eq_true (show (LPT.ECHO_TAP.nth i).off < 0xC00 by omega)]
      exact Bool.or_true _
    rw [State.get, hreg _ _ (by omega) (hfollows _ (by omega)), if_pos ⟨rfl, hin⟩, resetWord_tap hp hi]
    simp [Fld.of]
  · refine (hreg pg off hoff hf).trans (if_neg fun hin => ?_)
    obtain ⟨hpage, hecho⟩ := hin
    have hplace : off = 0x114 ∨ (0x800 ≤ off ∧ off < 0xC00) := by simpa [echoOffset] using hecho
    omega
  · exact State.dramKept_settle (by rw [State.echoResetCmd_of_silent h]; rfl)

/-- ECHO_RESET on a port that transmits. -/
theorem echoReset_waits (h : s.portOnLine p = true) : let t := (s.echoResetCmd p).settle
    (t.lptSt p).echoReset = true ∧ State.RegsOnly (fun _ => False) { s with lpt := t.lpt } t := by
  rw [State.echoResetCmd_of_onLine h]
  refine ⟨?_, ((State.lptOnly_refl _ s).modLpt _ _).regsOnly_lpt rfl rfl⟩
  rw [State.lptSt_settle, State.lptSt_modLpt_same]
  rfl

end

end Sys2Proof.Machine

/-! ## Support of `PinsEchoAndPortSamples`: engines whose port begins or ceases to deliver samples (R141, R152). -/

namespace Sys2Proof.Machine

/-- Status, events and counters of the listed pages. -/
def statusOf (pgs : List Nat) (a : Nat) : Prop := onPages pgs a ∧ 0x100 ≤ a % 4096

/-- Between `s` and `u` nothing has changed but status, events and counters of the listed pages, and what the array and medium access
keep beside their registers. -/
structure State.EngMoved (pgs : List Nat) (s u : State) : Prop where
  kept : s.RegsKept (statusOf pgs) u
  rest : u = { s with regs := u.regs, mac := u.mac, erg := u.erg }

theorem statusOf_addrOf {pgs : List Nat} {pg off : Nat} (hpg : pg ∈ pgs) (hoff : 0x100 ≤ off ∧
    off < 4096) : statusOf pgs (addrOf pg off) := by
  refine ⟨(onPages_addrOf hoff.2).mpr hpg, ?_⟩
  unfold addrOf
  omega

/-- The register of an engine's STATE. -/
theorem estate_off (c : Nat) : (ERG.STATE.nth (c % 4)).off = 0x100 + 64 * (c % 4) := rfl

/-- Two engines have their states in two registers. -/
theorem estate_ne {b c : Nat} (h : b ≠ c) : addrOf (Pg.ERG (b / 4)) (ERG.STATE.nth (b % 4)).off ≠
    addrOf (Pg.ERG (c / 4)) (ERG.STATE.nth (c % 4)).off := fun haddr => by
  have hb := estate_off b
  have hc := estate_off c
  obtain ⟨hpage, hreg⟩ := addrOf_inj (by omega) (by omega) haddr
  unfold Pg.ERG at hpage
  omega

theorem State.engMoved_refl (pgs : List Nat) (s : State) : s.EngMoved pgs s := ⟨fun _ _ _ _ => rfl, rfl⟩

section
variable {pgs : List Nat} {s u : State} (h : s.EngMoved pgs u)
include h

theorem State.EngMoved.setReg {pg off : Nat} (v : Word) (hpg : pg ∈ pgs) (hoff : 0x100 ≤ off ∧ off < 4096) :
    s.EngMoved pgs (u.setReg pg off v) :=
  ⟨State.regsKept_setReg h.kept v (statusOf_addrOf hpg hoff), congrArg (State.setReg pg off v) h.rest⟩

theorem State.EngMoved.put {pg : Nat} {f : Fld} (v : Nat) (hpg : pg ∈ pgs) (hoff : 0x100 ≤ f.off ∧ f.off < 4096) :
    s.EngMoved pgs (u.put pg f v) := h.setReg _ hpg hoff

theorem State.EngMoved.eventBit {pg : Nat} (f : Fld) (i : Nat) (hpg : pg ∈ pgs) : s.EngMoved pgs (u.eventBit pg f i) :=
  h.setReg _ hpg (by decide)

theorem State.EngMoved.setEng (c : Nat) (e : Eng) : s.EngMoved pgs (u.setEng c e) :=
  ⟨State.regsKept_of_regs h.kept rfl, congrArg (State.setEng c e) h.rest⟩

theorem State.EngMoved.withMac (m : MacSt) : s.EngMoved pgs { u with mac := m } :=
  ⟨State.regsKept_of_regs h.kept rfl, congrArg (fun w : State => { w with mac := m }) h.rest⟩

theorem State.EngMoved.noteEnd (p centre rate : Nat) (guarded : Bool) (t : Nat) : s.EngMoved pgs (u.noteEnd p centre rate guarded t) :=
  h.withMac _

theorem State.EngMoved.onlyIf (c : Bool) {f : State → State} (hf : s.EngMoved pgs (f u)) : s.EngMoved pgs (onlyIf c f u) := by
  unfold Machine.onlyIf
  split
  · exact hf
  · exact h

theorem State.EngMoved.setEst {c : Nat} (hc : Pg.ERG (c / 4) ∈ pgs) (st : Nat) : s.EngMoved pgs (u.setEst c st) := by
  have hoff : 0x100 ≤ (ERG.STATE.nth (c % 4)).off ∧ (ERG.STATE.nth (c % 4)).off < 4096 := by
    have hc := estate_off c
    omega
  exact ((h.onlyIf _ (h.noteEnd _ _ _ _ _)).put (f := ERG.STATE.nth (c % 4)) _ hc hoff).put (f := ERG.WATCH.nth (c % 4)) _ hc hoff

/-- Settings read as before. -/
theorem State.EngMoved.get {pg : Nat} {f : Fld} (hf : f.off < 0x100) (hpg : pg ≠ Pg.GLB ∧ pg ≠ Pg.HIF) : u.get pg f = s.get pg f := by
  refine State.get_of_kept h.kept (fun ht => ?_) hpg (by omega)
  obtain ⟨-, hoff⟩ := ht
  unfold addrOf at hoff
  omega

theorem State.EngMoved.eget {f : Fld} (hf : f.off + f.step * 3 < 0x100) (c : Nat) : u.eget c f = s.eget c f := by
  have hoff : (f.nth (c % 4)).off < 0x100 := by
    have hle : f.step * (c % 4) ≤ f.step * 3 := Nat.mul_le_mul_left _ (by omega)
    have hnth : (f.nth (c % 4)).off = f.off + f.step * (c % 4) := rfl
    omega
  exact h.get hoff (by unfold Pg.ERG Pg.GLB Pg.HIF; omega)

/-- What parks an engine stands as before (R152). -/
theorem State.EngMoved.shouldPark (c : Nat) : u.shouldPark u.level c = s.shouldPark s.level c := by
  have hlive : ∀ a, u.isLive a = s.isLive a := fun a => by
    unfold State.isLive
    rw [h.eget (by decide)]
  have hparkable : ∀ a, u.parkable a = s.parkable a := fun a => by
    unfold State.parkable State.isAlarm
    rw [hlive, h.eget (by decide), h.eget (by decide)]
  have hranked : ∀ a b, u.rankedAbove a b = s.rankedAbove a b := fun a b => by
    unfold State.rankedAbove
    simp only [h.eget (f := ERG.ROLE) (by decide), h.eget (f := ERG.RANK) (by decide)]
  have hlevel : u.level = s.level := by rw [h.rest]; rfl
  have hparkables : u.parkable = s.parkable := funext hparkable
  unfold State.shouldPark
  simp only [hparkables, hlive, hranked, hlevel]

end

/-! ### Moves of engines -/

section
variable (s : State) (b c : Nat)

/-- An engine has moved, and no other one. -/
theorem State.est_setEst {st : Nat} (hst : st < 16) : (s.setEst b st).est c = if b = c then st else s.est c := by
  unfold State.setEst State.est State.eget State.eput
  split
  · next heq =>
    subst heq
    rw [State.get_put_beside _ _ (ERG.WATCH.nth (b % 4)) (ERG.STATE.nth (b % 4)) _ ⟨(by decide : 4 + 1 ≤ 32),
      .inr (.inl (by decide : 0 + 4 ≤ 4))⟩,
      State.get_put_same _ _ (ERG.STATE.nth (b % 4)) _ (by decide : 0 + 4 ≤ 32)]
    exact Nat.mod_eq_of_lt hst
  · next hne =>
    rw [State.get_put_other _ (f := ERG.WATCH.nth (b % 4)) _ (estate_ne hne), State.get_put_other _ _ (estate_ne hne)]
    unfold onlyIf
    split <;> rfl

/-- An event shows in no engine's state. -/
theorem State.est_eventBit {pg : Nat} (f : Fld) (i : Nat) : (s.eventBit pg f i).est c = s.est c := by
  refine State.get_eventBit_other _ _ fun haddr => ?_
  have hc := estate_off c
  have hoff : CMN.EVENTS = 0x200 := rfl
  obtain ⟨-, hreg⟩ := addrOf_inj (by decide) (by omega) haddr
  omega

theorem State.est_setEng (e : Eng) : (s.setEng b e).est c = s.est c := rfl

theorem State.est_parkNow : (s.parkNow b).est c = if b = c then ES.PARKED else s.est c := by
  unfold State.parkNow State.eevent State.event
  rw [State.est_eventBit, State.est_eventBit, State.est_setEng, s.est_setEst b c (by decide)]

end

theorem State.EngMoved.parkNow {pgs : List Nat} {s u : State} (h : s.EngMoved pgs u) {c : Nat} (hc : Pg.ERG (c / 4) ∈ pgs)
    (hx : Pg.ERGX ∈ pgs) : s.EngMoved pgs (u.parkNow c) :=
  (((h.setEst hc _).setEng _ _).eventBit _ _ hc).eventBit _ _ hx

/-- Moves of engines, each to a state of its own. -/
theorem State.EngMoved.forEach {pgs : List Nat} {s : State} {v : Nat → Nat} {g : Nat → State → State} (l : List Nat)
    (hg : ∀ b u, b ∈ l → s.EngMoved pgs u → s.EngMoved pgs (g b u) ∧ ∀ c, (g b u).est c = if b = c then v c else u.est c)
    {u : State} (h : s.EngMoved pgs u) :
    s.EngMoved pgs (forEach l g u) ∧ ∀ c, (forEach l g u).est c = if c ∈ l then v c else u.est c := by
  induction l generalizing u with
  | nil => exact ⟨h, fun c => (if_neg (List.not_mem_nil)).symm⟩
  | cons b l ih =>
    obtain ⟨hb, hest⟩ := hg b u List.mem_cons_self h
    obtain ⟨hmoved, hall⟩ := ih (fun a u ha => hg a u (List.mem_cons_of_mem _ ha)) hb
    refine ⟨hmoved, fun c => (hall c).trans ?_⟩
    rw [hest c]
    by_cases hc : c ∈ l
    · rw [if_pos hc, if_pos (List.mem_cons_of_mem _ hc)]
    · by_cases hbc : b = c
      · subst hbc
        rw [if_neg hc, if_pos rfl, if_pos List.mem_cons_self]
      · rw [if_neg hc, if_neg hbc, if_neg fun hmem => (List.mem_cons.mp hmem).elim (fun he => hbc he.symm) hc]

/-- The page of an engine is one of the 64. -/
theorem ergPage_mem {c : Nat} (h : c < 256) : Pg.ERG (c / 4) ∈ (List.range 64).map Pg.ERG :=
  List.mem_map.mpr ⟨c / 4, List.mem_range.mpr (by omega), rfl⟩

theorem State.EngMoved.ends {pgs : List Nat} {s u : State} (h : s.EngMoved pgs u) :
    s.DramKept u.settle ∧ s.RegsKept (onPages pgs) u.settle :=
  ⟨State.dramKept_settle (by rw [h.rest]), State.regsKept_settle (State.regsKept_mono h.kept fun _ ht => ht.1)⟩

/-! ### A port begins to deliver samples -/

/-- The engines that a port's samples wake. -/
def State.woken (s : State) (p : Nat) : List Nat :=
  s.liveEngines.filter fun c => decide (s.eget c ERG.PORT = p) && decide (s.est c = ES.NO_INPUT)

/-- A woken engine goes where the level lets it. -/
def State.wakeEngine (c : Nat) (s : State) : State := if s.shouldPark s.level c then s.parkNow c else s.setEst c ES.HUNT

/-- The state to which a woken engine goes. -/
def State.wokenTo (s : State) (c : Nat) : Nat := if s.shouldPark s.level c then ES.PARKED else ES.HUNT

section
variable (s : State) (p tick : Nat)

theorem State.mem_woken {c : Nat} (hc : c ∈ s.liveEngines) : c ∈ s.woken p ↔ s.eget c ERG.PORT = p ∧ s.est c = ES.NO_INPUT := by
  simp [State.woken, hc]

theorem State.samplesStart_of_samples (h : s.portSamples p = true) : s.samplesStart p = forEach (s.woken p) State.wakeEngine s := if_pos h

/-- A woken engine moves by itself. -/
theorem State.EngMoved.wakeEngine {u : State} (h : s.EngMoved (Pg.ERGX :: (List.range 64).map Pg.ERG) u) {b : Nat} (hb : b < 256) :
    s.EngMoved (Pg.ERGX :: (List.range 64).map Pg.ERG) (u.wakeEngine b) ∧
      ∀ c, (u.wakeEngine b).est c = if b = c then s.wokenTo c else u.est c := by
  have hpg : Pg.ERG (b / 4) ∈ Pg.ERGX :: (List.range 64).map Pg.ERG := List.mem_cons_of_mem _ (ergPage_mem hb)
  unfold State.wakeEngine State.wokenTo
  rw [h.shouldPark]
  cases hpark : s.shouldPark s.level b with
  | true =>
    rw [if_pos rfl]
    refine ⟨h.parkNow hpg List.mem_cons_self, fun c => (u.est_parkNow b c).trans ?_⟩
    by_cases hbc : b = c
    · subst hbc
      rw [if_pos rfl, if_pos rfl, if_pos hpark]
    · rw [if_neg hbc, if_neg hbc]
  | false =>
    rw [if_neg Bool.false_ne_true]
    refine ⟨h.setEst hpg _, fun c => (u.est_setEst b c (by decide)).trans ?_⟩
    by_cases hbc : b = c
    · subst hbc
      rw [if_pos rfl, if_pos rfl, if_neg (by rw [hpark]; exact Bool.false_ne_true)]
    · rw [if_neg hbc, if_neg hbc]

theorem samplesStart_moves_engines (h : s.portSamples p = true) : let t := ((s.atTick tick).samplesStart p).settle
    (∀ c, c ∈ s.liveEngines → t.est c = (if s.eget c ERG.PORT = p ∧ s.est c = ES.NO_INPUT then
      (if s.shouldPark s.level c then ES.PARKED else ES.HUNT) else s.est c)) ∧ s.DramKept t ∧
      s.RegsKept (onPages (Pg.ERGX :: (List.range 64).map Pg.ERG)) t := by
  obtain ⟨hmoved, hest⟩ := State.EngMoved.forEach (s := s.atTick tick) (g := State.wakeEngine) ((s.atTick tick).woken p)
    (fun b u hb hu => State.EngMoved.wakeEngine (s.atTick tick) hu (mem_liveEngines_lt (List.mem_of_mem_filter hb))) (State.engMoved_refl _ _)
  rw [State.samplesStart_of_samples (s.atTick tick) p h]
  obtain ⟨hdram, hkept⟩ := hmoved.ends
  refine ⟨fun c hc => ?_, hdram, hkept⟩
  rw [State.est_settle _ (mem_liveEngines_lt hc), hest c]
  exact if_congr (s.mem_woken p hc) rfl rfl

end

/-! ### A port has ceased to deliver samples -/

/-- The engines that lose their samples. -/
def State.unfed (s : State) (p : Nat) : List Nat :=
  s.liveEngines.filter fun c => decide (s.eget c ERG.PORT = p) && decide (s.est c ≠ ES.OFF)
    && decide (s.est c ≠ ES.NO_INPUT) && s.domOn (c / 4)

/-- An engine without samples abandons what it has. -/
def State.starve (t c : Nat) (s : State) : State :=
  ((((((s.softLost c (s.softAhead c t)).endLoan c t).unarm c).setEng c Eng.idle).setEst c ES.NO_INPUT).ergTake c)

section
variable (s : State) (p tick : Nat)

theorem State.samplesStop_of_none (h : s.portSamples p = false) :
    s.samplesStop tick p = forEach (s.unfed p) (State.starve tick) s := if_neg (by rw [h]; exact Bool.false_ne_true)

theorem State.mem_unfed {c : Nat} (hc : c ∈ s.liveEngines) : c ∈ s.unfed p ↔
    s.eget c ERG.PORT = p ∧ s.est c ≠ ES.OFF ∧ s.est c ≠ ES.NO_INPUT ∧ s.domOn (c / 4) = true := by
  simp [State.unfed, hc, and_assoc]

variable (b c : Nat)

/-- Lost soft values show in no engine's state. -/
theorem State.est_softLost (n : Nat) : (s.softLost b n).est c = s.est c := by
  unfold State.softLost
  split
  · rfl
  · rw [State.est_eventBit]
    refine State.get_countBy_other _ _ fun haddr => ?_
    have hc := estate_off c
    have hb : (ERG.QLOSS_CNT.nth (b % 4)).off = 0x338 + 60 * (b % 4) := rfl
    obtain ⟨-, hreg⟩ := addrOf_inj (by omega) (by omega) haddr
    omega

theorem State.est_unarm : (s.unarm b).est c = s.est c := by
  unfold State.unarm
  split
  · rfl
  · exact State.est_setEng _ b c _

variable {s b}

theorem State.ergTake_of_unarmed (h : s.flag (Pg.ERG (b / 4)) CFG.ARMED = false) : s.ergTake b = s := if_pos (.inl h)

theorem State.endLoan_of_none (h : s.runningJob b = none) : s.endLoan b tick = s := by
  unfold State.endLoan
  rw [h]

end

section
variable {pgs : List Nat} {s u : State} (h : s.EngMoved pgs u)
include h

theorem State.EngMoved.softLost {c : Nat} (hc : Pg.ERG (c / 4) ∈ pgs) (n : Nat) : s.EngMoved pgs (u.softLost c n) := by
  unfold State.softLost
  split
  · exact h
  · have hoff : (ERG.QLOSS_CNT.nth (c % 4)).off = 0x338 + 60 * (c % 4) := rfl
    refine State.EngMoved.eventBit ?_ _ _ hc
    unfold State.countBy
    split
    · exact h
    · exact h.put _ hc (by omega)

theorem State.EngMoved.unarm (c : Nat) : s.EngMoved pgs (u.unarm c) := by
  unfold State.unarm
  split
  · exact h
  · exact (h.withMac _).setEng c _

theorem State.EngMoved.runningJob (c : Nat) : u.runningJob c = s.runningJob c := by
  unfold State.runningJob
  rw [h.rest]

/-- An engine without samples moves by itself, where no set of its page is armed and it is not lent. -/
theorem State.EngMoved.starve {b tick : Nat} (hb : Pg.ERG (b / 4) ∈ pgs) (harmed : s.flag (Pg.ERG (b / 4)) CFG.ARMED = false)
    (hjob : s.runningJob b = none) :
    s.EngMoved pgs (u.starve tick b) ∧ ∀ c, (u.starve tick b).est c = if b = c then ES.NO_INPUT else u.est c := by
  have hlost := h.softLost hb (u.softAhead b tick)
  have hmoved := ((hlost.unarm b).setEng b Eng.idle).setEst hb ES.NO_INPUT
  have hstarve : u.starve tick b =
      ((((u.softLost b (u.softAhead b tick)).unarm b).setEng b Eng.idle).setEst b ES.NO_INPUT) := by
    unfold State.starve
    rw [State.endLoan_of_none tick ((hlost.runningJob b).trans hjob), State.ergTake_of_unarmed]
    rw [State.flag, hmoved.get (by decide) (by unfold Pg.ERG Pg.GLB Pg.HIF; omega)]
    exact harmed
  rw [hstarve]
  refine ⟨hmoved, fun c => ?_⟩
  rw [State.est_setEst _ _ _ (by decide), State.est_setEng, State.est_unarm, State.est_softLost]

end

theorem samplesStop_moves_engines (s : State) (p tick : Nat) (h : s.portSamples p = false)
    (harmed : ∀ q, q < 64 → s.flag (Pg.ERG q) CFG.ARMED = false) (hjobs : ∀ c, c ∈ s.liveEngines → s.runningJob c = none) :
    let t := ((s.atTick tick).samplesStop tick p).settle
    (∀ c, c ∈ s.liveEngines → t.est c = (if s.eget c ERG.PORT = p ∧ s.est c ≠ ES.OFF ∧ s.domOn (c / 4) = true then ES.NO_INPUT
      else s.est c)) ∧ s.DramKept t ∧ s.RegsKept (onPages ((List.range 64).map Pg.ERG)) t := by
  obtain ⟨hmoved, hest⟩ := State.EngMoved.forEach (s := s.atTick tick) (v := fun _ => ES.NO_INPUT) (g := State.starve tick)
    ((s.atTick tick).unfed p) (fun b u hb hu => hu.starve (ergPage_mem (mem_liveEngines_lt (List.mem_of_mem_filter hb)))
      (harmed _ (by have := mem_liveEngines_lt (List.mem_of_mem_filter hb); omega)) (hjobs b (List.mem_of_mem_filter hb)))
    (State.engMoved_refl _ _)
  rw [State.samplesStop_of_none (s.atTick tick) p tick h]
  obtain ⟨hdram, hkept⟩ := hmoved.ends
  refine ⟨fun c hc => ?_, hdram, hkept⟩
  rw [State.est_settle _ (mem_liveEngines_lt hc), hest c]
  have hmem := s.mem_unfed p hc
  by_cases hin : c ∈ s.unfed p
  · obtain ⟨hport, hon, -, hdom⟩ := hmem.mp hin
    exact (if_pos hin).trans (if_pos ⟨hport, hon, hdom⟩).symm
  · refine (if_neg hin).trans ?_
    by_cases hstops : s.eget c ERG.PORT = p ∧ s.est c ≠ ES.OFF ∧ s.domOn (c / 4) = true
    · obtain ⟨hport, hon, hdom⟩ := hstops
      have hthere : s.est c = ES.NO_INPUT := by
        by_contra hne
        exact hin (hmem.mpr ⟨hport, hon, hne, hdom⟩)
      exact hthere.trans (if_pos ⟨hport, hon, hdom⟩).symm
    · exact (if_neg hstops).symm

end Sys2Proof.Machine

namespace Sys2Proof.Machine

/-- Settles O20: LPn_ENA follows the lead and the lag of the frames; ECHO_RESET drops the registers of the canceller at once or waits
in the port's record; the engines of a port move one by one, each by itself. -/
theorem pinsEchoAndPortSamples : Obligations.PinsEchoAndPortSamples := by
  unfold Obligations.PinsEchoAndPortSamples
  refine ⟨fun s tick port => ?_, fun s tick port => ?_⟩
  · refine ⟨fun l x t0 hready hmode hlane hnext hsoon => ?_, fun hmode hsilent hsoon hpilot hpiloted hhist hlag => ?_,
      fun hreach hsilent => ?_, fun hreach hline => ?_⟩
    · exact enaLeadStart_raises port.isLt rfl hready hmode hlane hnext hsoon
    · exact enaLagExpiry_drops port.isLt rfl hmode hsilent hsoon hpilot hpiloted hhist hlag
    · exact ⟨_, finish_hostWrite hreach _, echoReset_at_once port.isLt hsilent⟩
    · exact ⟨_, finish_hostWrite hreach _, echoReset_waits hline⟩
  · refine ⟨fun hsamples => ?_, fun hnone harmed hjobs => ?_⟩
    · exact ⟨_, rfl, samplesStart_moves_engines s port.val tick hsamples⟩
    · exact ⟨_, rfl, samplesStop_moves_engines s port.val tick hnone harmed hjobs⟩

end Sys2Proof.Machine

/-! ## Support of `TransmissionsStart`: a class-0 start on a lane that is listed twice (R153, R166). -/

namespace Sys2Proof.Machine

/-- A data transmission of class 2 on the line, from tick 0 to tick 100000. -/
def lineData : Lane :=
  { kind := .data, phase := .onLine, queue := 1, tag := 1, cls := 2, ch := 0, centre := 100, rate := 0, preamble := 0, level := 0
    sync := 0, mod := 0, code := 0, copies := 1, copy := 0, p0 := 0, due := 0, t0 := 0, tEnd := 100000, ackReq := false, field := []
    ack := none, robust := false, energy := 0, victim := false, cutFrom := 0, held := true, phases := [] }

/-- A class-0 frame that waits for its t0, tick 0. -/
def waitingC0 : Lane := { lineData with kind := .class0, phase := .scheduled, queue := 0, cls := 0, tEnd := 0, held := false }

/-- Its message, whose data field an earlier attempt has formed. -/
def formedMsg : Msg := { newMsg 1 [0, 0, 0, 0] [] 0 0 0 none with inFlight := true, attempts := 1, seq := some 7 }

/-- Port 0 in service with its TX AFE checked; a class-0 frame waits for lane 15, which is listed twice: with nothing, and behind it
with a data transmission on the line. No canonical table lists a lane twice. -/
def State.doubledLane : State :=
  let s := (State.reset.put (Pg.LPT 0) LPT.STATE 2).put (Pg.LPT 0) LPT.TX_AVAIL 1
  { s with
    txs := { s.txs with c0Next := [(0, some waitingC0)], lanes := [(15, none), (15, some lineData)] }
    wad := { s.wad with queues := [(0, { Queue.idle with msgs := [formedMsg] })] } }

/-- After the class-0 start lane 15 carries the data transmission. -/
theorem doubledLane_carries_victim :
    (((State.doubledLane.atTick 0).transmissionStart 0 0 15).lane 0 15).map (·.kind) = some .data := by decide

/-- Refutes O24: the statement ranges over lane tables that are not canonical. Where one lists lane 15 twice, the class-0 frame takes
the first entry, and the transmission of the second, which the choice of victims (R166) finds on the line at port 0, is written back
to lane 15 with its mark, over the frame that has just started. -/
theorem not_transmissionsStart : ¬ Obligations.TransmissionsStart := by
  unfold Obligations.TransmissionsStart
  intro hall
  obtain ⟨-, hclass0, -, -⟩ := hall State.doubledLane 0 0 15 _ _ rfl rfl (by decide) (by decide) (by decide)
  obtain ⟨t, y, m', hexec, -, hlane, hkind, -⟩ := hclass0 waitingC0 formedMsg rfl rfl (by decide) (fun y hy => by cases hy) rfl rfl rfl
    (.inl rfl)
  cases hexec
  have hcarried : ((State.doubledLane.atTick 0).transmissionStart 0 0 15).lane 0 15 = some y :=
    (State.lane_congr (State.settle_txs _) 0 15).symm.trans hlane
  have hvictim := doubledLane_carries_victim
  rw [hcarried, Option.map_some, hkind] at hvictim
  cases hvictim

end Sys2Proof.Machine

/-! ## Support of `FramePathJudgesFrames`: the run of a copy, and what the frame path changes. -/

namespace Sys2Proof.Machine

/-! ### The run of a copy (R76, R78, R183) -/

section
variable {s u : State} (hregs : u.regs = s.regs)
include hregs

theorem State.reg_congr (pg off : Nat) : u.reg pg off = s.reg pg off := by rw [State.reg, hregs, State.reg]

theorem State.flag_congr (pg : Nat) (f : Fld) : u.flag pg f = s.flag pg f := by rw [State.flag, State.get_congr hregs, State.flag]

theorem State.tbNominal_congr : u.tbNominal = s.tbNominal := by rw [State.tbNominal, State.flag_congr hregs, State.tbNominal]

theorem State.freeCounts_congr (t : Nat) : u.freeCounts t = s.freeCounts t := by
  rw [State.freeCounts, State.tbNominal_congr hregs, State.freeCounts]

theorem State.freeTick_congr (c : Nat) : u.freeTick c = s.freeTick c := by
  rw [State.freeTick, State.tbNominal_congr hregs, State.freeTick]

variable (hdram : u.dram = s.dram)
include hdram

theorem State.logRecord_congr (r k : Nat) : u.logRecord r k = s.logRecord r k := by
  unfold State.logRecord State.dramWord State.dramByte State.regionBase
  rw [hdram, State.get_congr hregs]

theorem State.cycleBack_congr (r t fuel k next : Nat) : u.cycleBack r t fuel k next = s.cycleBack r t fuel k next := by
  induction fuel generalizing k next with
  | zero => rfl
  | succ fuel ih =>
    rw [State.cycleBack, State.cycleBack]
    simp only [State.logRecord_congr hregs hdram, State.tbNominal_congr hregs, ih]

/-- The mains cycle of an instant is read from the registers and from DRAM. -/
theorem State.cycleAt_congr (t : Nat) : u.cycleAt t = s.cycleAt t := by
  have hregion := State.regionOf_congr (fun off _ => State.reg_congr hregs (Pg.DRC 0) off) regionTimebaseLog
  unfold State.cycleAt State.tb State.cycleTicks
  simp only [hregion, State.get_congr hregs, State.logRecord_congr hregs hdram, State.cycleBack_congr hregs hdram]

theorem State.pastPhase_congr (t : Nat) : u.pastPhase t = s.pastPhase t := by
  unfold State.pastPhase
  rw [State.cycleAt_congr hregs hdram, State.freeCounts_congr hregs]

theorem State.lastWith_congr (target limit : Nat) : u.lastWith target limit = s.lastWith target limit := by
  unfold State.lastWith
  simp only [State.cycleAt_congr hregs hdram, State.freeCounts_congr hregs, State.freeTick_congr hregs]

theorem State.nextWith_congr (target start : Nat) : u.nextWith target start = s.nextWith target start := by
  unfold State.nextWith
  simp only [State.cycleAt_congr hregs hdram, State.freeCounts_congr hregs, State.freeTick_congr hregs]

theorem State.startsBefore_congr (p0 spread tCopy j next : Nat) :
    u.startsBefore p0 spread tCopy j next = s.startsBefore p0 spread tCopy j next := by
  induction j generalizing next with
  | zero => rfl
  | succ j ih => simp only [State.startsBefore, State.lastWith_congr hregs hdram, ih]

theorem State.endAfter_congr (p0 spread tCopy fuel k t0 : Nat) :
    u.endAfter p0 spread tCopy fuel k t0 = s.endAfter p0 spread tCopy fuel k t0 := by
  induction fuel generalizing k t0 with
  | zero => rfl
  | succ fuel ih => simp only [State.endAfter, State.nextWith_congr hregs hdram, ih]

/-- The run of a copy is predicted from the registers and from DRAM. -/
theorem State.runOf_congr (x : RxCopy) : u.runOf x = s.runOf x := by
  unfold State.runOf State.runGuess State.runEnd
  simp only [State.pastPhase_congr hregs hdram, State.cycleAt_congr hregs hdram, State.startsBefore_congr hregs hdram,
    State.endAfter_congr hregs hdram]

theorem State.runSeen_congr (hruns : u.key.runs = s.key.runs) (f : RxFrame) : u.runSeen f = s.runSeen f := by
  unfold State.runSeen State.searchWin
  simp only [State.runOf_congr hregs hdram, State.get_congr hregs, hruns]

end

/-- Whether a copy stands alone is in its header, whatever the state. -/
theorem State.runOf_eq_none {s : State} {x : RxCopy} : s.runOf x = none ↔ runCopies (PhyHeader.ofWord x.hdr).rep = 1 := by
  unfold State.runOf State.runGuess
  rw [Option.map_eq_none_iff]
  dsimp only
  split
  next hone => exact iff_of_true rfl hone
  next hmany => exact iff_of_false (Option.some_ne_none _) hmany

/-! ### What the frame path changes -/

/-- Between `s` and `u` nothing has changed but registers that `touched` admits, the key store and the frames that wait, Wadi, and the
MRAM. -/
structure State.PathOnly (touched : Nat → Prop) (s u : State) : Prop where
  kept : s.RegsKept touched u
  rest : u = { s with regs := u.regs, key := u.key, wad := u.wad, mrm := u.mrm }

theorem State.pathOnly_refl (touched : Nat → Prop) (s : State) : s.PathOnly touched s := ⟨fun _ _ _ _ => rfl, rfl⟩

section
variable {touched : Nat → Prop} {s u : State} (h : s.PathOnly touched u)
include h

theorem State.PathOnly.put {pg : Nat} {f : Fld} (v : Nat) (ht : touched (addrOf pg f.off)) : s.PathOnly touched (u.put pg f v) :=
  ⟨State.regsKept_put h.kept v ht, congrArg (State.put pg f v) h.rest⟩

theorem State.PathOnly.event {pg : Nat} {f : Fld} (ht : touched (addrOf pg CMN.EVENTS)) : s.PathOnly touched (u.event pg f) :=
  ⟨State.regsKept_event h.kept ht, congrArg (State.event pg f) h.rest⟩

theorem State.PathOnly.count {pg : Nat} {f : Fld} (ht : touched (addrOf pg f.off)) : s.PathOnly touched (u.count pg f) := by
  unfold State.count State.countBy
  split
  · exact h
  · exact h.put _ ht

theorem State.PathOnly.setKeySlot (n : Nat) (k : KeySlot) : s.PathOnly touched (u.setKeySlot n k) :=
  ⟨State.regsKept_of_regs h.kept rfl, congrArg (State.setKeySlot n k) h.rest⟩

theorem State.PathOnly.ringPush (n : Nat) (r : Rec) : s.PathOnly touched (u.ringPush n r) :=
  ⟨State.regsKept_of_regs h.kept rfl, congrArg (State.setRing n { u.ring n with recs := (u.ring n).recs ++ [r] }) h.rest⟩

/-- The command ends with what follows it. -/
theorem State.PathOnly.regsOnly_settle :
    State.RegsOnly touched { s with key := u.settle.key, wad := u.settle.wad, mrm := u.settle.mrm } u.settle := by
  rw [State.settle_key, State.settle_wad, State.settle_mrm]
  refine State.regsOnly_settle ⟨h.kept, u.regs, s.host.msiSent, s.host.active, s.host.faults, s.lnk.outTotal, s.lnk.outSince, ?_⟩
  exact h.rest

theorem State.PathOnly.regsOnly_wad (hmrm : u.mrm = s.mrm) :
    State.RegsOnly touched { s with key := u.settle.key, wad := u.settle.wad } u.settle := by
  have hall := h.regsOnly_settle
  rw [State.settle_mrm, hmrm] at hall
  exact hall

theorem State.PathOnly.regsOnly_key (hwad : u.wad = s.wad) (hmrm : u.mrm = s.mrm) :
    State.RegsOnly touched { s with key := u.settle.key } u.settle := by
  have hall := h.regsOnly_wad hmrm
  rw [State.settle_wad, hwad] at hall
  exact hall

theorem State.PathOnly.lnk : u.lnk = s.lnk := by rw [h.rest]

end

/-! ### The counter journal (R430) -/

/-- Between `s` and `u` the journal alone has gone on: registers of page MRM, and the MRAM. -/
structure State.JournalOnly (s u : State) : Prop where
  kept : s.RegsKept (onPages [Pg.MRM]) u
  rest : u = { s with regs := u.regs, mrm := u.mrm }

theorem State.journalOnly_refl (s : State) : s.JournalOnly s := ⟨fun _ _ _ _ => rfl, rfl⟩

section
variable {s u : State} (h : s.JournalOnly u)
include h

theorem State.JournalOnly.put {f : Fld} (v : Nat) (hf : f.off < 4096) : s.JournalOnly (u.put Pg.MRM f v) :=
  ⟨State.regsKept_put h.kept v ((onPages_addrOf hf).mpr (List.mem_singleton.mpr rfl)), congrArg (State.put Pg.MRM f v) h.rest⟩

theorem State.JournalOnly.withMrm (mrm : MrmSt) : s.JournalOnly { u with mrm := mrm } :=
  ⟨State.regsKept_of_regs h.kept rfl, congrArg (fun v : State => { v with mrm := mrm }) h.rest⟩

theorem State.JournalOnly.step : s.JournalOnly u.journalStep := by
  unfold State.journalStep
  dsimp only
  split
  · exact (h.put _ (by decide)).put _ (by decide)
  · exact h.put _ (by decide)

theorem State.JournalOnly.skip (n : Nat) : s.JournalOnly (State.journalSkip n u) := by
  induction n generalizing u with
  | zero => exact h
  | succ n ih =>
    rw [State.journalSkip]
    split
    · exact ih h.step
    · exact h

theorem State.JournalOnly.onlyIf (c : Bool) {g : State → State} (hg : s.JournalOnly (g u)) : s.JournalOnly (onlyIf c g u) := by
  unfold Machine.onlyIf
  split
  · exact hg
  · exact h

end

theorem State.journalOnly_journal (s : State) (n c : Nat) : s.JournalOnly (s.journal n c) := by
  unfold State.journal
  extract_lets base based fresh skipped head worded mrm filed lived
  have hbased : s.JournalOnly based := by
    unfold based
    split
    · exact s.journalOnly_refl
    · exact s.journalOnly_refl.withMrm _
  have hskipped : s.JournalOnly skipped := hbased.skip 4097
  have hworded : s.JournalOnly worded := hskipped.withMrm _
  have hfiled : s.JournalOnly filed := hworded.withMrm _
  have hlived : s.JournalOnly lived := hfiled.onlyIf _ (hfiled.put _ (by decide))
  exact hlived.step

/-- The frame of the frame path holds what the journal changes. -/
theorem State.PathOnly.journal {touched : Nat → Prop} {s u : State} (h : s.PathOnly touched u)
    (hmrm : ∀ a, onPages [Pg.MRM] a → touched a) (n c : Nat) : s.PathOnly touched (u.journal n c) := by
  obtain ⟨hkept, hrest⟩ := u.journalOnly_journal n c
  refine ⟨State.regsKept_trans h.kept (State.regsKept_mono hkept hmrm), ?_⟩
  have hall := congrArg (fun v : State => { v with regs := (u.journal n c).regs, mrm := (u.journal n c).mrm }) h.rest
  rw [hrest]
  exact hall

end Sys2Proof.Machine

/-! ## Support of `FramePathJudgesFrames`: the steps of the frame path (R118, R223, R228, R234, R268). -/

namespace Sys2Proof.Machine

/-! ### A copy reaches the frame path (R118, R223) -/

/-- A live copy decoded alone, that no cut has ended and no diagnostic replay has found. -/
structure RxCopy.Alone (x : RxCopy) : Prop where
  cut : x.cut = none
  diag : x.diag = none
  combined : x.combined = 0
  slot : x.slot = none
  late : x.late = false

/-- The state at tick `tick` whose frame path has taken its oldest copy, `rest` being the others. -/
def State.copyTaken (tick : Nat) (rest : List RxCopy) (s : State) : State :=
  { s.atTick tick with key := { s.key with rx := rest } }

section
variable {s u : State} {tick : Nat} {x : RxCopy} {rest : List RxCopy}

theorem State.openSess_congr (h : u.lnk = s.lnk) : u.openSess = s.openSess := by rw [State.openSess, h, State.openSess]

/-- With no session open no contact makes a sender query. -/
theorem State.contactQueries_of_none {old : State} (h : u.openSess = []) : old.contactQueries u = u := by
  unfold State.contactQueries
  rw [h]
  rfl

theorem State.framePath_cons (hrx : s.key.rx = x :: rest) :
    s.framePath = ({ s with key := { s.key with rx := rest } } : State).rxCopy x false := by
  unfold State.framePath
  rw [hrx]

theorem exec_framePathReceive (hrx : s.key.rx = x :: rest) (hsess : s.openSess = [])
    (hu : (s.copyTaken tick rest).rxCopy x false = u) (hlnk : u.lnk = s.lnk) :
    exec (.framePathReceive tick) s = .next u.settle := by
  have hpath : (s.atTick tick).framePath = u := (State.framePath_cons (s := s.atTick tick) hrx).trans hu
  show finish ((s.atTick tick).contactQueries (s.atTick tick).framePath) = _
  rw [hpath, State.contactQueries_of_none ((State.openSess_congr hlnk).trans hsess)]
  rfl

variable (hx : x.Alone)
include hx

theorem State.rxCopy_badFcs (hfcs : fcsOk x.field = false) :
    s.rxCopy x false = s.rxDrop (RxFrame.of x false) ERG.FCS_FAIL_CNT ERGX.FCS_FAIL_TOT := by
  unfold State.rxCopy
  rw [hx.cut, hx.diag]
  dsimp only
  rw [if_pos hfcs, hx.combined, if_neg (Nat.lt_irrefl 0)]

theorem State.rxCopy_fresh (hcav : s.cavState = CS.OFF) (hfcs : fcsOk x.field = true) (hformat : formatOk x.field = true)
    (hfresh : s.runSeen (RxFrame.of x false) = false) : s.rxCopy x false = s.pathSteps (RxFrame.of x false) := by
  have hdeep : s.deepMaster = false := by
    unfold State.deepMaster
    rw [hcav]
    rfl
  unfold State.rxCopy
  rw [hx.cut, hx.diag]
  dsimp only
  rw [if_neg (Bool.ne_false_iff.mpr hfcs), if_neg (Bool.ne_false_iff.mpr hformat), hdeep, onlyIf_false, hfresh]
  rfl

end

/-! ### The steps of R223 -/

section
variable {s : State} {f : RxFrame}

section
variable (harmed : s.flag Pg.LNK CFG.ARMED = false) (hsecured : ¬(f.h.cls = 0 ∧ f.h.sec = false))
include harmed hsecured

theorem State.pathSteps_filtered {cnt : Fld} (hcnt : s.filtered f.h = some cnt) :
    s.pathSteps f = (s.count Pg.FLT cnt).event Pg.FLT FLT.EV_FILTERED := by
  unfold State.pathSteps
  rw [State.safeAll_of_unarmed harmed]
  dsimp only
  rw [if_neg hsecured, hcnt]

theorem State.pathSteps_passed (hpass : s.filtered f.h = none) : s.pathSteps f = s.pathAuth f := by
  unfold State.pathSteps
  rw [State.safeAll_of_unarmed harmed]
  dsimp only
  rw [if_neg hsecured, hpass]

end

variable (hsrc : f.h.src ≠ 0)
include hsrc

theorem State.pathAuth_unsecured (hsec : f.h.sec = false) (hreq : s.flag Pg.LNK LNK.REQUIRE_SEC = false) :
    s.pathAuth f = s.pathPlain f (s.slotOf f.h.src) (fieldPayload f.x.field) := by
  unfold State.pathAuth
  dsimp only
  rw [if_neg hsrc, if_pos hsec, hreq, Bool.false_and]
  rfl

variable {n : Nat} (hsec : f.h.sec = true) (hslot : s.slotOf f.h.src = some n)
include hsec hslot

theorem State.pathAuth_forged (hmic : micOk (s.keySlot n).key f.h.src false f.x.field = false) :
    s.pathAuth f = s.authFail f LNK.MIC_FAIL_CNT (fieldPayload f.x.field) := by
  unfold State.pathAuth
  dsimp only
  rw [if_neg hsrc, if_neg (Bool.ne_false_iff.mpr hsec), hslot]
  exact if_pos hmic

theorem State.pathAuth_authentic (hmic : micOk (s.keySlot n).key f.h.src false f.x.field = true) :
    s.pathAuth f = s.pathPlain f (some n) (openPayload (s.keySlot n).key f.h.src false f.x.field) := by
  unfold State.pathAuth
  dsimp only
  rw [if_neg hsrc, if_neg (Bool.ne_false_iff.mpr hsec), hslot]
  exact if_neg (Bool.ne_false_iff.mpr hmic)

end

section
variable {s : State} {f : RxFrame} {payload : List Byte}

theorem State.heardFrom_of_absent (habsent : (s.ep f.h.src).state = .absent) : s.heardFrom f = s := if_pos (.inr habsent)

theorem State.contact_of_absent (habsent : (s.ep f.h.src).state = .absent) : s.contact f = s := if_pos (.inr habsent)

theorem State.learnRoute_of_absent {a : Nat} (habsent : (s.ep a).state = .absent) (route : List Nat) : s.learnRoute a route = s :=
  if_pos (.inl habsent)

theorem State.forwardRoute_of_off (hcav : s.cavState = CS.OFF) (accepted : Bool) : s.forwardRoute f payload accepted = s :=
  if_neg fun h => h.1 hcav

theorem State.runOver_of_alone (hslot : f.x.slot = none) : s.runOver f = s := by
  unfold State.runOver
  rw [hslot]

theorem State.noteRun_of_alone (hslot : f.x.slot = none) (hrun : s.runOf f.x = none) : s.noteRun f = s := by
  have hframe : s.frameRun f.x = none := by
    unfold State.frameRun
    rw [hslot]
    exact hrun
  unfold State.noteRun
  rw [hframe]

theorem State.oweAck_of_unasked (hack : f.h.ackReq = false) (dup : Bool) : s.oweAck f dup = s := if_pos (.inl hack)

/-- Step 7: an overheard frame of an address without a record is counted. -/
theorem State.overhear_of_absent (habsent : (s.ep f.h.src).state = .absent) (hslot : f.x.slot = none) (hcav : s.cavState = CS.OFF)
    (hring : s.get Pg.WAD WAD.OVH_RING = 0) : s.overhear f payload = s.count Pg.MAC MAC.OVERHEARD_CNT := by
  have hcav' : (s.count Pg.MAC MAC.OVERHEARD_CNT).cavState = CS.OFF := (State.get_count_otherPage s (by decide)).trans hcav
  have hring' : (s.count Pg.MAC MAC.OVERHEARD_CNT).get Pg.WAD WAD.OVH_RING = 0 :=
    (State.get_count_otherPage s (by decide)).trans hring
  have habsent' : ((s.count Pg.MAC MAC.OVERHEARD_CNT).ep f.h.src).state = .absent := by
    rw [State.ep, State.count_lnk]
    exact habsent
  unfold State.overhear
  generalize s.count Pg.MAC MAC.OVERHEARD_CNT = u at hcav' hring' habsent' ⊢
  rw [State.runOver_of_alone hslot]
  dsimp only
  rw [State.forwardRoute_of_off hcav']
  split <;> simp only [State.learnRoute_of_absent habsent', hring', ne_eq, not_true_eq_false, decide_false, onlyIf_false]

theorem State.pathPlain_other {slot : Option Nat} (habsent : (s.ep f.h.src).state = .absent) (hdst : f.h.dst ≠ 0) :
    s.pathPlain f slot payload = s.overhear f payload := by
  unfold State.pathPlain
  rw [State.heardFrom_of_absent habsent]
  exact if_pos hdst

theorem State.pathPlain_unbound (habsent : (s.ep f.h.src).state = .absent) (hdst : f.h.dst = 0) :
    s.pathPlain f none payload = s.accept f none payload := by
  unfold State.pathPlain
  dsimp only
  rw [State.heardFrom_of_absent habsent, if_neg (not_not.mpr hdst)]

/-- Steps 8 and 9 let a live secured frame pass with a counter above CTR_HI that its slot's cache does not hold. -/
theorem State.pathPlain_live {n : Nat} (habsent : (s.ep f.h.src).state = .absent) (hdst : f.h.dst = 0) (hlate : f.x.late = false)
    (hsec : f.h.sec = true) (habove : (s.keySlot n).ctrHi < f.counter)
    (hnew : ∀ e, e ∈ (s.keySlot n).cache → e.counter ≠ some f.counter) :
    s.pathPlain f (some n) payload = s.accept f (some n) payload := by
  have hpass : (s.keySlot n).livePass f.h.seq f.counter = true := by
    unfold KeySlot.livePass
    rw [decide_eq_true habove, decide_eq_true (Nat.ne_of_gt (Nat.zero_lt_of_lt habove))]
    rfl
  have hdup : s.isDup f (s.keySlot n) = false := by
    unfold State.isDup
    rw [List.any_eq_false]
    intro e he
    rw [if_pos hsec, decide_eq_false (hnew e he), Bool.and_false]
    exact Bool.false_ne_true
  unfold State.pathPlain
  dsimp only
  rw [State.heardFrom_of_absent habsent, if_neg (not_not.mpr hdst), hlate, if_neg Bool.false_ne_true, hpass, hsec, hdup]
  rfl

end

/-! ### Delivery (R268, R269, R271) -/

theorem State.rxRecord_length (s : State) (x : RxCopy) (flags mac counter : Nat) (payload : List Byte) :
    (s.rxRecord x flags mac counter payload).hdr.length = 8 := rfl

theorem State.classRing_lt (s : State) (cls : Nat) : s.classRing cls < 64 := by
  unfold State.classRing
  split
  · decide
  · split
    · exact Fld.of_lt _ _
    · split
      · exact Fld.of_lt _ _
      · split <;> exact Fld.of_lt _ _

theorem State.classRing_congr {s u : State} (hregime : u.get Pg.MAC MAC.REGIME = s.get Pg.MAC MAC.REGIME)
    (hwad : ∀ f : Fld, f.off < 4096 → u.get Pg.WAD f = s.get Pg.WAD f) (cls : Nat) : u.classRing cls = s.classRing cls := by
  unfold State.classRing State.flag
  rw [hregime, hwad _ (by decide), hwad _ (by split_ifs <;> decide)]

section
variable {s : State} {f : RxFrame} {payload : List Byte} {n : Nat}

/-- A ring that takes records and has room, with nothing waiting before it, takes the record. -/
theorem State.deliver_appends (hen : s.ringEn n = true) (hroom : s.ringRoom n = true) (hloss : s.lossPending n = false)
    (hdue : s.wad.due = []) (r : Rec) : s.deliver n r = (s.ringPush n r).count Pg.WAD WAD.RX_RECORD_CNT := by
  have hflushLoss : s.flushLoss n = s := if_neg fun h => Bool.false_ne_true (hloss.symm.trans h.2.1)
  have hflush : s.flushRing s.time n = s := by
    unfold State.flushRing
    rw [hdue, hflushLoss]
    rfl
  unfold State.deliver
  rw [if_neg (Bool.ne_false_iff.mpr hen), hflush]
  exact if_pos hroom

theorem State.ring_ringPush (r : Rec) : (s.ringPush n r).ring n = { s.ring n with recs := (s.ring n).recs ++ [r] } := by
  rw [State.ringPush, State.ring_setRing, if_pos rfl]

/-- What step 10 does with a frame whose SRC has no slot is to deliver it. -/
theorem State.accept_unbound (hx : f.x.Alone) (hrun : s.runOf f.x = none) (hack : f.h.ackReq = false)
    (habsent : (s.ep f.h.src).state = .absent) (hhops : f.h.hops = 0) (hcav : s.cavState = CS.OFF) (htype : f.h.ftype = FT.DATA) :
    s.accept f none payload = s.deliver (s.classRing f.h.cls)
      (s.rxRecord f.x (RxFlag.MAC_VALID + alarmFlag f.h.cls) f.mac f.counter payload) := by
  unfold State.accept
  dsimp only
  rw [State.noteRun_of_alone hx.slot hrun, State.oweAck_of_unasked hack, State.contact_of_absent habsent,
    State.runOver_of_alone hx.slot]
  simp only [hhops, hx.combined, htype, ne_eq, not_true_eq_false, decide_false, decide_true, onlyIf_false, Bool.or_true, Bool.and_false,
    onlyIf_true, Nat.not_lt_zero, State.forwardRoute_of_off hcav, State.deliverRx, hx.late]

end

/-! ### Acceptance of a live secured frame (R228, R234) -/

/-- The state whose slot n has entered a secured frame in its duplicate cache. -/
def State.frameEntered (f : RxFrame) (n : Nat) (s : State) : State :=
  s.setKeySlot n { (s.keySlot n).enter ⟨f.h.seq, some f.counter, f.x.tSync⟩ with replays := 0 }

/-- The state that has entered the frame and followed its counter. -/
def State.counterTaken (f : RxFrame) (n : Nat) (s : State) : State := (s.frameEntered f n).setCtrHi n f.counter

section
variable (s : State) (f : RxFrame) (n : Nat)

theorem KeySlot.enter_key (k : KeySlot) (e : DupEnt) : (k.enter e).key = k.key := by
  unfold KeySlot.enter
  dsimp only
  split
  · rfl
  · split <;> rfl

theorem State.keySlot_frameEntered :
    (s.frameEntered f n).keySlot n = { (s.keySlot n).enter ⟨f.h.seq, some f.counter, f.x.tSync⟩ with replays := 0 } := by
  rw [State.frameEntered, State.keySlot_setKeySlot, if_pos rfl]

theorem State.counterTaken_journal : ((s.frameEntered f n).setKeySlot n
    { (s.frameEntered f n).keySlot n with ctrHi := f.counter }).JournalOnly (s.counterTaken f n) :=
  State.journalOnly_journal _ _ _

theorem State.keySlot_counterTaken : ((s.counterTaken f n).keySlot n).ctrHi = f.counter ∧
    ((s.counterTaken f n).keySlot n).replays = 0 ∧ ((s.counterTaken f n).keySlot n).key = (s.keySlot n).key := by
  have hslot : (s.counterTaken f n).keySlot n = { (s.frameEntered f n).keySlot n with ctrHi := f.counter } := by
    rw [(s.counterTaken_journal f n).rest]
    exact (State.keySlot_setKeySlot _ _ _ _).trans (if_pos rfl)
  rw [hslot, State.keySlot_frameEntered]
  exact ⟨rfl, rfl, KeySlot.enter_key _ _⟩

theorem State.PathOnly.counterTaken {touched : Nat → Prop} {b : State} (h : b.PathOnly touched s)
    (hmrm : ∀ a, onPages [Pg.MRM] a → touched a) : b.PathOnly touched (s.counterTaken f n) :=
  ((h.setKeySlot _ _).setKeySlot _ _).journal hmrm _ _

theorem State.counterTaken_wad : (s.counterTaken f n).wad = s.wad := by
  rw [(s.counterTaken_journal f n).rest]
  rfl

variable {s f n} {payload : List Byte} (hsec : f.h.sec = true) (habove : (s.keySlot n).ctrHi < f.counter)
  (hgap : f.counter ≤ (s.keySlot n).ctrHi + 2 ^ s.get Pg.LNK LNK.CTR_GAP_LOG2) (hrekey : f.counter < rekeyAt)
include hsec habove hgap hrekey

theorem State.accept_bound : s.accept f (some n) payload = (s.counterTaken f n).accept f none payload := by
  have hjump : decide ((s.keySlot n).ctrHi + 2 ^ s.get Pg.LNK LNK.CTR_GAP_LOG2 < f.counter) = false :=
    decide_eq_false (Nat.not_lt.mpr hgap)
  have hdue : decide (rekeyAt ≤ f.counter) = false := decide_eq_false (Nat.not_le.mpr hrekey)
  unfold State.accept
  dsimp only
  rw [if_pos ⟨hsec, habove⟩, if_pos hsec, State.setKeySlot_get, hjump, onlyIf_false, hdue, Bool.and_false, onlyIf_false]
  rfl

end

end Sys2Proof.Machine

/-! ## Support of `FramePathJudgesFrames`: its cases. -/

namespace Sys2Proof.Machine

/-! ### Frames that go no further (R129, R206, R210, R223) -/

/-- Pages of the receive array follow nothing, and are not the page of its totals nor that of link firmware. -/
theorem ergPage_beside {c : Nat} (h : c < 256) :
    (Pg.ERG (c / 4) ≠ Pg.GLB ∧ Pg.ERG (c / 4) ≠ Pg.HIF) ∧ Pg.ERG (c / 4) ≠ Pg.ERGX ∧ Pg.ERG (c / 4) ≠ Pg.LNK := by
  unfold Pg.ERG Pg.GLB Pg.HIF Pg.ERGX Pg.LNK
  omega

section
variable (s : State) (x : RxCopy) (cnt tot : Fld)

theorem State.rxDrop_eq :
    s.rxDrop (RxFrame.of x false) cnt tot = (s.count (Pg.ERG (x.eng / 4)) (cnt.nth (x.eng % 4))).count Pg.ERGX tot := rfl

theorem State.rxDrop_key : (s.rxDrop (RxFrame.of x false) cnt tot).key = s.key := by
  rw [State.rxDrop_eq, State.count_key, State.count_key]
theorem State.rxDrop_wad : (s.rxDrop (RxFrame.of x false) cnt tot).wad = s.wad := by
  rw [State.rxDrop_eq, State.count_wad, State.count_wad]
theorem State.rxDrop_mrm : (s.rxDrop (RxFrame.of x false) cnt tot).mrm = s.mrm := by
  rw [State.rxDrop_eq, State.count_mrm, State.count_mrm]
theorem State.rxDrop_lnk : (s.rxDrop (RxFrame.of x false) cnt tot).lnk = s.lnk := by
  rw [State.rxDrop_eq, State.count_lnk, State.count_lnk]

theorem State.PathOnly.rxDrop {touched : Nat → Prop} {b : State} (h : b.PathOnly touched s)
    (hengine : touched (addrOf (Pg.ERG (x.eng / 4)) (cnt.nth (x.eng % 4)).off)) (htotal : touched (addrOf Pg.ERGX tot.off)) :
    b.PathOnly touched (s.rxDrop (RxFrame.of x false) cnt tot) := (h.count hengine).count htotal

variable {s x cnt tot} (hcnt : cnt.off + cnt.step * 3 < 4096 ∧ cnt.lsb + cnt.w ≤ 32) (htot : tot.off < 4096 ∧ tot.lsb + tot.w ≤ 32)
include hcnt

omit htot in
theorem engineCounter_off_lt : (cnt.nth (x.eng % 4)).off < 4096 :=
  (Nat.add_le_add_left (Nat.mul_le_mul_left _ (Nat.le_of_lt_succ (Nat.mod_lt _ (by decide)))) _).trans_lt hcnt.1

include htot

/-- A dropped frame is counted on the pages of its engine and of the totals alone. -/
theorem State.get_rxDrop_otherPage {pg : Nat} {f : Fld} (h : Pg.ERG (x.eng / 4) ≠ pg ∧ Pg.ERGX ≠ pg ∧ f.off < 4096) :
    (s.rxDrop (RxFrame.of x false) cnt tot).get pg f = s.get pg f := by
  obtain ⟨hengine, htotal, hf⟩ := h
  exact (State.get_count_otherPage _ ⟨htotal, htot.1, hf⟩).trans (State.get_count_otherPage _ ⟨hengine, engineCounter_off_lt hcnt, hf⟩)

variable (heng : x.eng < 256) {b v : State} (hb : b.regs = s.regs)
include heng hb

theorem State.counted_rxDrop_engine (hv : v.get (Pg.ERG (x.eng / 4)) (cnt.nth (x.eng % 4)) =
      (s.rxDrop (RxFrame.of x false) cnt tot).get (Pg.ERG (x.eng / 4)) (cnt.nth (x.eng % 4))) :
    b.Counted (Pg.ERG (x.eng / 4)) (cnt.nth (x.eng % 4)) v.settle := by
  obtain ⟨hpg, hne, -⟩ := ergPage_beside heng
  exact State.counted_settle hpg ⟨engineCounter_off_lt hcnt, hcnt.2⟩
    (hv.trans (State.get_count_otherPage _ ⟨hne.symm, htot.1, engineCounter_off_lt hcnt⟩)) (State.get_congr hb.symm _ _)
    (State.get_congr hb.symm _ _)

theorem State.counted_rxDrop_total (hv : v.get Pg.ERGX tot = (s.rxDrop (RxFrame.of x false) cnt tot).get Pg.ERGX tot) :
    b.Counted Pg.ERGX tot v.settle := by
  obtain ⟨-, hne, -⟩ := ergPage_beside heng
  have hbefore : ∀ f : Fld, f.off < 4096 →
      (s.count (Pg.ERG (x.eng / 4)) (cnt.nth (x.eng % 4))).get Pg.ERGX f = b.get Pg.ERGX f := fun f hf =>
    (State.get_count_otherPage _ ⟨hne, engineCounter_off_lt hcnt, hf⟩).trans (State.get_congr hb.symm _ _)
  exact State.counted_settle (by decide) htot hv (hbefore _ htot.1) (hbefore _ (by decide))

end

theorem State.filtered_congr {s u : State} (hregs : u.regs = s.regs) (h : MacHeader) : u.filtered h = s.filtered h := by
  unfold State.filtered
  simp only [State.get_congr hregs]

/-- What the address filter counts in. -/
theorem State.filtered_counter {s : State} {h : MacHeader} {cnt : Fld} (hcnt : s.filtered h = some cnt) :
    cnt = FLT.FILTERED_SRC_CNT ∨ cnt = FLT.FILTERED_BCAST_CNT ∨ cnt = FLT.FILTERED_DST_CNT := by
  unfold State.filtered at hcnt
  split_ifs at hcnt <;> cases hcnt
  · exact .inl rfl
  · exact .inr (.inl rfl)
  · exact .inr (.inr rfl)

theorem State.pathOnly_copyTaken (touched : Nat → Prop) (s : State) (tick : Nat) (rest : List RxCopy) :
    (s.atTick tick).PathOnly touched (s.copyTaken tick rest) := ⟨fun _ _ _ _ => rfl, rfl⟩

/-- The frame path judges next, with no session open, the field of copy x, which reads as the frame f. -/
structure State.Judges (x : RxCopy) (rest : List RxCopy) (f : RxFrame) (s : State) : Prop where
  frame : f = RxFrame.of x false
  taken : s.key.rx = x :: rest
  alone : x.Alone
  unheard : s.openSess = []

/-- The field is sound and the first of its run, it reaches step 2 of the frame path, and the device is in no ring. -/
structure State.JudgesSound (x : RxCopy) (rest : List RxCopy) (f : RxFrame) (s : State) : Prop extends s.Judges x rest f where
  single : s.cavState = CS.OFF
  unarmed : s.flag Pg.LNK CFG.ARMED = false
  fcs : fcsOk x.field = true
  format : formatOk x.field = true
  fresh : s.runSeen f = false
  secured : ¬(f.h.cls = 0 ∧ f.h.sec = false)

section
variable {s : State} {tick : Nat} {x : RxCopy} {rest : List RxCopy} {f : RxFrame}

/-- A field that fails its FCS is counted, at its engine and in the total. -/
theorem framePath_badFcs (h : s.Judges x rest f) (heng : x.eng < 256) (hfcs : fcsOk x.field = false) :
    ∃ t, exec (.framePathReceive tick) s = .next t ∧ t.key.rx = rest ∧
      s.Counted (Pg.ERG (x.eng / 4)) (ERG.FCS_FAIL_CNT.nth (x.eng % 4)) t ∧ s.Counted Pg.ERGX ERGX.FCS_FAIL_TOT t ∧
      State.RegsOnly (regsAt [(Pg.ERG (x.eng / 4), (ERG.FCS_FAIL_CNT.nth (x.eng % 4)).off), (Pg.ERGX, ERGX.FCS_FAIL_TOT.off)])
        { s.atTick tick with key := t.key } t := by
  have hexec := exec_framePathReceive (tick := tick) h.taken h.unheard (State.rxCopy_badFcs h.alone hfcs) (State.rxDrop_lnk ..)
  refine ⟨_, hexec, ?_, ?_, ?_, State.PathOnly.regsOnly_key ?_ (State.rxDrop_wad ..) (State.rxDrop_mrm ..)⟩
  · rw [State.settle_key, State.rxDrop_key]
    rfl
  · exact State.counted_rxDrop_engine (s := s.copyTaken tick rest) (by decide) (by decide) heng rfl rfl
  · exact State.counted_rxDrop_total (s := s.copyTaken tick rest) (by decide) (by decide) heng rfl rfl
  · exact (State.pathOnly_copyTaken _ s tick rest).rxDrop _ _ _ _ (regsAt_of_mem (by simp)) (regsAt_of_mem (by simp))

variable (h : s.JudgesSound x rest f)
include h

theorem State.JudgesSound.steps : (s.copyTaken tick rest).rxCopy x false = (s.copyTaken tick rest).pathSteps f := by
  obtain rfl := h.frame
  exact State.rxCopy_fresh h.alone h.single h.fcs h.format
    ((State.runSeen_congr (s := s) (u := s.copyTaken tick rest) rfl rfl rfl _).trans h.fresh)

theorem State.JudgesSound.filtered {cnt : Fld} (hcnt : s.filtered f.h = some cnt) :
    (s.copyTaken tick rest).rxCopy x false = ((s.copyTaken tick rest).count Pg.FLT cnt).event Pg.FLT FLT.EV_FILTERED :=
  h.steps.trans (State.pathSteps_filtered (s := s.copyTaken tick rest) h.unarmed h.secured
    ((State.filtered_congr (s := s) rfl _).trans hcnt))

theorem State.JudgesSound.passed (hpass : s.filtered f.h = none) :
    (s.copyTaken tick rest).rxCopy x false = (s.copyTaken tick rest).pathAuth f :=
  h.steps.trans (State.pathSteps_passed (s := s.copyTaken tick rest) h.unarmed h.secured
    ((State.filtered_congr (s := s) rfl _).trans hpass))

theorem State.JudgesSound.exec {u : State} (hpath : (s.copyTaken tick rest).rxCopy x false = u) (hlnk : u.lnk = s.lnk) :
    exec (.framePathReceive tick) s = .next u.settle := exec_framePathReceive h.taken h.unheard hpath hlnk

/-- The address filter of FALLBACK drops a frame and counts it. -/
theorem framePath_filtered {cnt : Fld} (hcnt : s.filtered f.h = some cnt) :
    ∃ t, exec (.framePathReceive tick) s = .next t ∧ t.key.rx = rest ∧ t.get Pg.FLT FLT.EV_FILTERED = 1 ∧ s.Counted Pg.FLT cnt t ∧
      State.RegsOnly (regsAt [(Pg.FLT, cnt.off), (Pg.FLT, CMN.EVENTS)]) { s.atTick tick with key := t.key } t := by
  have hfield : cnt.off < 4096 ∧ cnt.lsb + cnt.w ≤ 32 ∧ CMN.EVENTS ≠ cnt.off := by
    rcases State.filtered_counter hcnt with h | h | h <;> rw [h] <;> decide
  obtain ⟨hoff, hwidth, hevents⟩ := hfield
  have hcounted := (State.pathOnly_copyTaken (regsAt [(Pg.FLT, cnt.off), (Pg.FLT, CMN.EVENTS)]) s tick rest).count (pg := Pg.FLT)
    (f := cnt) (regsAt_of_mem (by simp))
  have hframe := hcounted.event (pg := Pg.FLT) (f := FLT.EV_FILTERED) (regsAt_of_mem (by simp))
  refine ⟨_, h.exec (h.filtered hcnt) hframe.lnk, ?_, ?_, ?_, hframe.regsOnly_key ?_ ?_⟩
  · rw [State.settle_key, State.event_key, State.count_key]
    rfl
  · rw [State.get_settle_beside _ (by decide) (by decide)]
    exact State.get_event_set _ (by decide)
  · exact State.counted_settle (by decide) ⟨hoff, hwidth⟩ (State.get_event_beside _ _ _ _ hevents) rfl rfl
  · rw [State.event_wad, State.count_wad]
    rfl
  · rw [State.event_mrm, State.count_mrm]
    rfl

variable (hpass : s.filtered f.h = none) (hsrc : f.h.src ≠ 0)
include hpass hsrc

/-- A secured frame whose MIC is wrong fails authentication. -/
theorem framePath_forged (heng : x.eng < 256) {n : Nat} (hsec : f.h.sec = true) (hslot : s.slotOf f.h.src = some n)
    (hdiag : s.flag Pg.LNK LNK.AUTH_DIAG = false) (hmic : micOk (s.keySlot n).key f.h.src false x.field = false) :
    ∃ t, exec (.framePathReceive tick) s = .next t ∧ t.key.rx = rest ∧ t.key.slots = s.key.slots ∧
      s.Counted Pg.LNK LNK.MIC_FAIL_CNT t ∧ s.Counted Pg.ERGX ERGX.AUTH_FAIL_TOT t ∧
      State.RegsOnly (regsAt [(Pg.ERG (x.eng / 4), (ERG.AUTH_FAIL_CNT.nth (x.eng % 4)).off), (Pg.ERGX, ERGX.AUTH_FAIL_TOT.off),
        (Pg.LNK, LNK.MIC_FAIL_CNT.off)]) { s.atTick tick with key := t.key } t := by
  have hauth := h.passed (tick := tick) hpass
  obtain rfl := h.frame
  obtain ⟨-, -, hlnk⟩ := ergPage_beside heng
  have hpath := hauth.trans (State.pathAuth_forged (s := s.copyTaken tick rest) hsrc hsec hslot hmic)
  have hdropped := (State.pathOnly_copyTaken (regsAt [(Pg.ERG (x.eng / 4), (ERG.AUTH_FAIL_CNT.nth (x.eng % 4)).off),
    (Pg.ERGX, ERGX.AUTH_FAIL_TOT.off), (Pg.LNK, LNK.MIC_FAIL_CNT.off)]) s tick rest).rxDrop _ x ERG.AUTH_FAIL_CNT ERGX.AUTH_FAIL_TOT
      (regsAt_of_mem (by simp)) (regsAt_of_mem (by simp))
  have hframe := hdropped.count (pg := Pg.LNK) (f := LNK.MIC_FAIL_CNT) (regsAt_of_mem (by simp))
  have hread : ∀ g : Fld, g.off < 4096 → ((s.copyTaken tick rest).rxDrop (RxFrame.of x false) ERG.AUTH_FAIL_CNT
      ERGX.AUTH_FAIL_TOT).get Pg.LNK g = s.get Pg.LNK g := fun g hg =>
    State.get_rxDrop_otherPage (s := s.copyTaken tick rest) (by decide) (by decide) ⟨hlnk, by decide, hg⟩
  have hdiag' : (((s.copyTaken tick rest).rxDrop (RxFrame.of x false) ERG.AUTH_FAIL_CNT ERGX.AUTH_FAIL_TOT).count Pg.LNK
      LNK.MIC_FAIL_CNT).flag Pg.LNK LNK.AUTH_DIAG = false := by
    rw [State.flag, State.get_count_beside _ (by decide), hread _ (by decide)]
    exact hdiag
  rw [State.authFail, hdiag', onlyIf_false] at hpath
  have hkey := (State.count_key Pg.LNK LNK.MIC_FAIL_CNT _).trans
    ((s.copyTaken tick rest).rxDrop_key x ERG.AUTH_FAIL_CNT ERGX.AUTH_FAIL_TOT)
  refine ⟨_, h.exec hpath hframe.lnk, ?_, ?_, ?_, ?_, hframe.regsOnly_key ((State.count_wad ..).trans (State.rxDrop_wad ..))
    ((State.count_mrm ..).trans (State.rxDrop_mrm ..))⟩
  · rw [State.settle_key, hkey]
    rfl
  · rw [State.settle_key, hkey]
    rfl
  · exact State.counted_settle (by decide) (by decide) rfl (hread _ (by decide)) (hread _ (by decide))
  · exact State.counted_rxDrop_total (s := s.copyTaken tick rest) (by decide) (by decide) heng rfl
      (State.get_count_otherPage _ (by decide))

/-- An unsecured frame for another address is counted as overheard. -/
theorem framePath_overheard (hsec : f.h.sec = false) (hreq : s.flag Pg.LNK LNK.REQUIRE_SEC = false) (hdst : f.h.dst ≠ 0)
    (habsent : (s.ep f.h.src).state = .absent) (hring : s.get Pg.WAD WAD.OVH_RING = 0) :
    ∃ t, exec (.framePathReceive tick) s = .next t ∧ s.Counted Pg.MAC MAC.OVERHEARD_CNT t ∧
      State.RegsOnly (regsAt [(Pg.MAC, MAC.OVERHEARD_CNT.off)]) { s.atTick tick with key := { s.key with rx := rest } } t := by
  have hauth := h.passed (tick := tick) hpass
  obtain rfl := h.frame
  have hpath := hauth.trans (State.pathAuth_unsecured (s := s.copyTaken tick rest) hsrc hsec hreq)
  rw [State.pathPlain_other (s := s.copyTaken tick rest) habsent hdst,
    State.overhear_of_absent (s := s.copyTaken tick rest) habsent h.alone.slot h.single hring] at hpath
  exact ⟨_, h.exec hpath (State.count_lnk ..), State.counted_settle (by decide) (by decide) rfl rfl rfl,
    State.regsOnly_settle (State.regsOnly_count (State.regsOnly_refl _ _) (regsAt_of_mem (by simp)))⟩

end

/-! ### Frames that are delivered (R224, R234, R268) -/

/-- Ring `ring` takes records and has room, and nothing waits to be written before the next one. -/
structure State.Takes (ring : Nat) (s : State) : Prop where
  inTable : ring < 64
  enabled : s.ringEn ring = true
  room : s.ringRoom ring = true
  noLoss : s.lossPending ring = false
  noneDue : s.wad.due = []

/-- Frame f is a DATA frame for the head-end, a single copy that came without relays and asks for no acknowledgement, from an address
without a record, and its class goes to ring `ring`. -/
structure State.Delivers (ring : Nat) (f : RxFrame) (s : State) : Prop where
  dst : f.h.dst = 0
  ack : f.h.ackReq = false
  ftype : f.h.ftype = FT.DATA
  hops : f.h.hops = 0
  single : s.runOf f.x = none
  absent : (s.ep f.h.src).state = .absent
  ring : ring = s.classRing f.h.cls

/-- What a delivery reads stands in `v` as in `s`: Wadi and its page, link firmware, and the regime of medium access. -/
structure State.AgreesForDelivery (s v : State) : Prop where
  wad : v.wad = s.wad
  page : ∀ f : Fld, f.off < 4096 → v.get Pg.WAD f = s.get Pg.WAD f
  lnk : v.lnk = s.lnk
  regime : v.get Pg.MAC MAC.REGIME = s.get Pg.MAC MAC.REGIME

section
variable {s v : State} {ring : Nat} (ha : s.AgreesForDelivery v) (ht : s.Takes ring)
include ha ht

omit ht in
theorem State.AgreesForDelivery.sameRing : v.ring ring = s.ring ring := by rw [State.ring, ha.wad, State.ring]

theorem State.AgreesForDelivery.takes : v.Takes ring := by
  have hring := ha.sameRing (ring := ring)
  have hrow : 0x400 + 16 * ring < 4096 := by
    have := ht.inTable
    omega
  refine ⟨ht.inTable, ?_, ?_, ?_, ha.wad ▸ ht.noneDue⟩
  · rw [State.ringEn, State.flag, ha.page _ hrow]
    exact ht.enabled
  · rw [State.ringRoom, State.ringSize, hring, ha.page _ hrow]
    exact ht.room
  · rw [State.lossPending, hring]
    exact ht.noLoss

/-- What a delivery shows. -/
theorem State.deliver_shows (r : Rec) : v.deliver ring r = (v.ringPush ring r).count Pg.WAD WAD.RX_RECORD_CNT ∧
    ((v.deliver ring r).settle.ring ring).recs = (s.ring ring).recs ++ [r] ∧
    s.Counted Pg.WAD WAD.RX_RECORD_CNT (v.deliver ring r).settle := by
  obtain ⟨-, hen, hroom, hloss, hdue⟩ := ha.takes ht
  have heq := State.deliver_appends hen hroom hloss hdue r
  have hring : ((v.ringPush ring r).count Pg.WAD WAD.RX_RECORD_CNT).settle.ring ring = (v.ringPush ring r).ring ring := by
    rw [State.ring, State.settle_wad, State.count_wad, State.ring]
  refine ⟨heq, ?_, ?_⟩
  · rw [heq, hring, State.ring_ringPush, ha.sameRing]
  · rw [heq]
    exact State.counted_settle (u := v.ringPush ring r) (by decide) (by decide) rfl (ha.page _ (by decide)) (ha.page _ (by decide))

/-- Step 10 makes one record of the frame. -/
theorem State.accept_shows {f : RxFrame} (hd : s.Delivers ring f) (hx : f.x.Alone) (hcav : v.cavState = CS.OFF) (payload : List Byte) :
    ∃ r, r.payload = payload ∧ r.hdr.length = 8 ∧
      v.accept f none payload = (v.ringPush ring r).count Pg.WAD WAD.RX_RECORD_CNT ∧
      ((v.accept f none payload).settle.ring ring).recs = (s.ring ring).recs ++ [r] ∧
      s.Counted Pg.WAD WAD.RX_RECORD_CNT (v.accept f none payload).settle := by
  have habsent : (v.ep f.h.src).state = .absent := by
    rw [State.ep, ha.lnk]
    exact hd.absent
  have heq := State.accept_unbound (payload := payload) hx (State.runOf_eq_none.mpr (State.runOf_eq_none.mp hd.single)) hd.ack habsent
    hd.hops hcav hd.ftype
  rw [State.classRing_congr ha.regime ha.page, ← hd.ring] at heq
  rw [heq]
  exact ⟨_, rfl, State.rxRecord_length .., State.deliver_shows ha ht _⟩

end

section
variable {s : State} {tick : Nat} {x : RxCopy} {rest : List RxCopy} {f : RxFrame} {ring : Nat} (h : s.JudgesSound x rest f)
  (hpass : s.filtered f.h = none) (hsrc : f.h.src ≠ 0) (hd : s.Delivers ring f) (ht : s.Takes ring)
include h hpass hsrc hd ht

/-- An unsecured DATA frame for the head-end becomes one delivery record. -/
theorem framePath_unsecured (hsec : f.h.sec = false) (hreq : s.flag Pg.LNK LNK.REQUIRE_SEC = false) (hslot : s.slotOf f.h.src = none) :
    ∃ t r, exec (.framePathReceive tick) s = .next t ∧ (t.ring ring).recs = (s.ring ring).recs ++ [r] ∧
      r.payload = fieldPayload x.field ∧ r.hdr.length = 8 ∧ s.Counted Pg.WAD WAD.RX_RECORD_CNT t ∧
      State.RegsOnly (regsAt [(Pg.WAD, WAD.RX_RECORD_CNT.off)])
        { s.atTick tick with key := { s.key with rx := rest }, wad := t.wad } t := by
  have hauth := h.passed (tick := tick) hpass
  obtain rfl := h.frame
  have hslot' : (s.copyTaken tick rest).slotOf (RxFrame.of x false).h.src = none := hslot
  have hpath := hauth.trans (State.pathAuth_unsecured (s := s.copyTaken tick rest) hsrc hsec hreq)
  rw [hslot', State.pathPlain_unbound (s := s.copyTaken tick rest) hd.absent hd.dst] at hpath
  obtain ⟨r, hpayload, hlength, heq, hrecs, hcount⟩ := State.accept_shows (s := s) (v := s.copyTaken tick rest)
    ⟨rfl, fun _ _ => rfl, rfl, rfl⟩ ht hd h.alone h.single (fieldPayload x.field)
  have hframe := (((s.copyTaken tick rest).pathOnly_refl (regsAt [(Pg.WAD, WAD.RX_RECORD_CNT.off)])).ringPush ring r).count
    (pg := Pg.WAD) (f := WAD.RX_RECORD_CNT) (regsAt_of_mem (by simp))
  have hall := hframe.regsOnly_wad (State.count_mrm ..)
  rw [State.settle_key, State.count_key, ← heq] at hall
  exact ⟨_, r, h.exec hpath ((congrArg State.lnk heq).trans (State.count_lnk ..)), hrecs, hpayload, hlength, hcount, hall⟩

/-- A secured and authentic DATA frame for the head-end, its counter above CTR_HI, becomes one delivery record, with CTR_HI and the
duplicate cache following. -/
theorem framePath_secured {n : Nat} (hsec : f.h.sec = true) (hslot : s.slotOf f.h.src = some n)
    (hmic : micOk (s.keySlot n).key f.h.src false x.field = true) (habove : (s.keySlot n).ctrHi < f.counter)
    (hrekey : f.counter < rekeyAt) (hgap : f.counter ≤ (s.keySlot n).ctrHi + 2 ^ s.get Pg.LNK LNK.CTR_GAP_LOG2)
    (hnew : ∀ e, e ∈ (s.keySlot n).cache → e.counter ≠ some f.counter) :
    ∃ t r, exec (.framePathReceive tick) s = .next t ∧ (t.ring ring).recs = (s.ring ring).recs ++ [r] ∧
      r.payload = openPayload (s.keySlot n).key f.h.src false x.field ∧ (t.keySlot n).ctrHi = f.counter ∧ (t.keySlot n).replays = 0 ∧
      (t.keySlot n).key = (s.keySlot n).key ∧ s.Counted Pg.WAD WAD.RX_RECORD_CNT t ∧
      State.RegsOnly (fun a => onPages [Pg.MRM] a ∨ regsAt [(Pg.WAD, WAD.RX_RECORD_CNT.off)] a)
        { s.atTick tick with key := t.key, wad := t.wad, mrm := t.mrm } t := by
  have hauth := h.passed (tick := tick) hpass
  obtain rfl := h.frame
  have hpath := hauth.trans (State.pathAuth_authentic (s := s.copyTaken tick rest) hsrc hsec hslot hmic)
  rw [State.pathPlain_live (s := s.copyTaken tick rest) hd.absent hd.dst h.alone.late hsec habove hnew,
    State.accept_bound (s := s.copyTaken tick rest) hsec habove hgap hrekey] at hpath
  have hjournal := ((s.copyTaken tick rest).pathOnly_refl (onPages [Pg.MRM])).counterTaken _ (RxFrame.of x false) n (fun _ h => h)
  have hframe := (State.pathOnly_copyTaken (fun a => onPages [Pg.MRM] a ∨ regsAt [(Pg.WAD, WAD.RX_RECORD_CNT.off)] a) s tick
    rest).counterTaken _ (RxFrame.of x false) n (fun _ h => .inl h)
  have hwad := (s.copyTaken tick rest).counterTaken_wad (RxFrame.of x false) n
  obtain ⟨hctr, hreplays, hkey⟩ := (s.copyTaken tick rest).keySlot_counterTaken (RxFrame.of x false) n
  generalize (s.copyTaken tick rest).counterTaken (RxFrame.of x false) n = v at hpath hjournal hframe hwad hctr hreplays hkey
  have hread : ∀ pg (g : Fld), g.off < 4096 → pg ≠ Pg.MRM ∧ pg ≠ Pg.GLB ∧ pg ≠ Pg.HIF → v.get pg g = s.get pg g :=
    fun pg g hg hpg => State.get_of_kept hjournal.kept (by rw [onPages_addrOf hg, List.mem_singleton]; exact hpg.1) hpg.2 hg
  obtain ⟨r, hpayload, -, heq, hrecs, hcount⟩ := State.accept_shows (s := s) (v := v)
    ⟨hwad, fun g hg => hread _ g hg (by decide), hjournal.lnk, hread _ _ (by decide) (by decide)⟩ ht hd h.alone
    ((hread Pg.CAV _ (by decide) (by decide)).trans h.single) (openPayload (s.keySlot n).key (RxFrame.of x false).h.src false x.field)
  have hdelivered := (hframe.ringPush ring r).count (pg := Pg.WAD) (f := WAD.RX_RECORD_CNT) (.inr (regsAt_of_mem (by simp)))
  rw [← heq] at hdelivered
  have hslots : (v.accept (RxFrame.of x false) none (openPayload (s.keySlot n).key (RxFrame.of x false).h.src false
      x.field)).settle.keySlot n = v.keySlot n := by
    rw [State.keySlot, State.settle_key, heq, State.count_key]
    rfl
  refine ⟨_, r, h.exec hpath hdelivered.lnk, hrecs, hpayload, ?_, ?_, ?_, hcount, hdelivered.regsOnly_settle⟩
  · exact (congrArg KeySlot.ctrHi hslots).trans hctr
  · exact (congrArg KeySlot.replays hslots).trans hreplays
  · exact (congrArg KeySlot.key hslots).trans hkey

end

/-- Settles O34: what becomes of a copy is decided by the steps of the frame path one after the other, each of which leaves alone what
the case of the statement does not name. -/
theorem framePathJudgesFrames : Obligations.FramePathJudgesFrames := by
  unfold Obligations.FramePathJudgesFrames
  intro s tick x rest f hf hrx hcut hdiag hcombined hslot hlate heng hcav hsess harmed
  have hnext : s.Judges x rest f := ⟨hf, hrx, ⟨hcut, hdiag, hcombined, hslot, hlate⟩, hsess⟩
  have hx : f.x = x := congrArg RxFrame.x hf
  refine ⟨framePath_badFcs hnext heng, fun hfcs hformat hfresh hcls => ?_⟩
  have h : s.JudgesSound x rest f := ⟨hnext, hcav, harmed, hfcs, hformat, hfresh, by rwa [not_and_or, Bool.not_eq_false]⟩
  refine ⟨fun cnt hcnt => framePath_filtered h hcnt, fun n hpass hsrc hsec hbound hnoDiag hmic => ?_,
    fun ring hpass hsrc hsec hreq hdst hbound hack htype hhops hrun hring hen hroom hloss hdue habsent => ?_,
    fun ring n hpass hsrc hsec hbound hdst hack htype hhops hrun hmic habove hrekey hgap hnew hring hen hroom hloss hdue habsent => ?_,
    fun hpass hsrc hsec hreq hdst habsent hring => ?_⟩
  · exact framePath_forged h hpass hsrc heng hsec hbound hnoDiag hmic
  · exact framePath_unsecured h hpass hsrc ⟨hdst, hack, htype, hhops, hx ▸ hrun, habsent, hring⟩
      ⟨hring ▸ s.classRing_lt _, hen, hroom, hloss, hdue⟩ hsec hreq hbound
  · exact framePath_secured h hpass hsrc ⟨hdst, hack, htype, hhops, hx ▸ hrun, habsent, hring⟩
      ⟨hring ▸ s.classRing_lt _, hen, hroom, hloss, hdue⟩ hsec hbound hmic habove hrekey hgap hnew
  · exact framePath_overheard h hpass hsrc hsec hreq hdst habsent hring

end Sys2Proof.Machine

/-! ## Support of `TrellisResultsAndNoiseMap`: a decoder that ends its job, and the cells of the noise map (R144 to R146, R209). -/

namespace Sys2Proof.Machine

/-! ### What the trellis pool changes -/

/-- Between `s` and `u` nothing has changed but registers that `touched` admits, the trellis pool, and the frames that wait for the frame
path. -/
structure State.PoolOnly (touched : Nat → Prop) (s u : State) : Prop where
  kept : s.RegsKept touched u
  rest : u = { s with regs := u.regs, trl := u.trl, key := u.key }

theorem State.poolOnly_refl (touched : Nat → Prop) (s : State) : s.PoolOnly touched s := ⟨fun _ _ _ _ => rfl, rfl⟩

section
variable {touched : Nat → Prop} {s u : State} (h : s.PoolOnly touched u)
include h

theorem State.PoolOnly.put {pg : Nat} {f : Fld} (v : Nat) (ht : touched (addrOf pg f.off)) : s.PoolOnly touched (u.put pg f v) :=
  ⟨State.regsKept_put h.kept v ht, congrArg (State.put pg f v) h.rest⟩

theorem State.PoolOnly.countBy {pg : Nat} {f : Fld} (n : Nat) (ht : touched (addrOf pg f.off)) :
    s.PoolOnly touched (u.countBy pg f n) := by
  unfold State.countBy
  split
  · exact h
  · exact h.put _ ht

theorem State.PoolOnly.withTrl (trl : TrlSt) : s.PoolOnly touched { u with trl := trl } :=
  ⟨State.regsKept_of_regs h.kept rfl, congrArg (fun w : State => { w with trl := trl }) h.rest⟩

theorem State.PoolOnly.pushRx (x : RxCopy) : s.PoolOnly touched (u.pushRx x) :=
  ⟨State.regsKept_of_regs h.kept rfl, congrArg (State.pushRx x) h.rest⟩

theorem State.PoolOnly.regsOnly_settle :
    State.RegsOnly touched { s with trl := u.settle.trl, key := u.settle.key } u.settle := by
  rw [State.settle_trl, State.settle_key]
  exact State.regsOnly_settle
    ⟨h.kept, u.regs, s.host.msiSent, s.host.active, s.host.faults, s.lnk.outTotal, s.lnk.outSince, h.rest⟩

end

/-! ### A decoder that ends its job (R146) -/

section
variable {s : State}

theorem State.trlTake_of_idle (h : s.trl.waiting = []) (t : Nat) : s.trlTake t = s := by
  unfold State.trlTake
  dsimp only
  split
  · rfl
  · rw [h]
    rfl

/-- With no job waiting and no set armed the pool rests. -/
theorem State.trlRun_of_idle (h : s.trl.waiting = []) (harmed : s.flag Pg.TRL CFG.ARMED = false) (t : Nat) : s.trlRun t = s := by
  have htakes : ∀ l : List Nat, l.foldl (fun s _ => s.trlTake t) s = s := fun l => by
    induction l with
    | nil => rfl
    | cons _ l ih => rw [List.foldl_cons, State.trlTake_of_idle h, ih]
  unfold State.trlRun
  dsimp only
  rw [State.safeAll_of_unarmed harmed, htakes, if_pos h]

end

/-- The counter of the jobs of a rank. -/
def jobCounter (rank : Nat) : Fld := if rank = 1 then TRL.JOBS_ALARM else if rank = 2 then TRL.JOBS_LIVE else TRL.JOBS_REPLAY

theorem jobCounter_mem (rank : Nat) : jobCounter rank ∈ [TRL.JOBS_ALARM, TRL.JOBS_LIVE, TRL.JOBS_REPLAY] := by
  unfold jobCounter
  split
  · exact List.mem_cons_self
  · split
    · exact List.mem_cons_of_mem _ List.mem_cons_self
    · exact List.mem_cons_of_mem _ (List.mem_cons_of_mem _ List.mem_cons_self)

theorem jobCounter_place (rank : Nat) : ((jobCounter rank).off < 4096 ∧ (jobCounter rank).lsb + (jobCounter rank).w ≤ 32) ∧
    TRL.KBITS_DECODED.off ≠ (jobCounter rank).off ∧ (jobCounter rank).off ≠ CMN.CFG_STATE :=
  (by decide : ∀ f ∈ [TRL.JOBS_ALARM, TRL.JOBS_LIVE, TRL.JOBS_REPLAY], (f.off < 4096 ∧ f.lsb + f.w ≤ 32) ∧
    TRL.KBITS_DECODED.off ≠ f.off ∧ f.off ≠ CMN.CFG_STATE) _ (jobCounter_mem rank)

/-- Decoder d is free; its group held a job until tick `t`. -/
def State.decoderFreed (t d : Nat) (s : State) : State :=
  { s with trl := { s.trl with dec := Tab.set (fun _ => none) s.trl.dec d none, groupAt := Tab.set (fun _ => 0) s.trl.groupAt (d / 4) t } }

/-- The soft buffer that held a field is given back. -/
def State.bufferFreed (b : Option Nat) (s : State) : State :=
  match b with
  | some c => s.eput c ERG.SOFT_BUF (s.eget c ERG.SOFT_BUF - 1)
  | none => s

/-- The registers in which a decoded job shows. -/
def decodedRegs (b : Option Nat) (a : Nat) : Prop :=
  regsAt [(Pg.TRL, TRL.JOBS_ALARM.off), (Pg.TRL, TRL.JOBS_LIVE.off), (Pg.TRL, TRL.JOBS_REPLAY.off),
    (Pg.TRL, TRL.KBITS_DECODED.off)] a ∨ ∃ c, b = some c ∧ a = addrOf (Pg.ERG (c / 4)) (ERG.SOFT_BUF.nth (c % 4)).off

section
variable (s : State)

theorem State.countDecoded_eq (rank n : Nat) : ∃ m, s.countDecoded rank n = State.countBy Pg.TRL TRL.KBITS_DECODED m
    { s.count Pg.TRL (jobCounter rank) with trl := { s.trl with bits := (s.trl.bits + n) % 1024 } } := by
  refine ⟨(s.trl.bits + n) / 1024, ?_⟩
  unfold State.countDecoded
  dsimp only
  rw [State.count_trl]
  rfl

theorem State.get_countDecoded_beside {rank n pg : Nat} {f : Fld} (hbits : addrOf Pg.TRL TRL.KBITS_DECODED.off ≠ addrOf pg f.off) :
    (s.countDecoded rank n).get pg f = (s.count Pg.TRL (jobCounter rank)).get pg f := by
  obtain ⟨m, hcounted⟩ := s.countDecoded_eq rank n
  rw [hcounted, State.get_countBy_other _ _ hbits]
  exact State.get_congr rfl pg f

theorem State.countDecoded_trl (rank n : Nat) :
    (s.countDecoded rank n).trl = { s.trl with bits := (s.trl.bits + n) % 1024 } := by
  obtain ⟨m, hcounted⟩ := s.countDecoded_eq rank n
  rw [hcounted, State.countBy_trl]

theorem State.countDecoded_key (rank n : Nat) : (s.countDecoded rank n).key = s.key := by
  obtain ⟨m, hcounted⟩ := s.countDecoded_eq rank n
  rw [hcounted, State.countBy_key]
  exact State.count_key _ _ _

variable {b : Option Nat}

theorem State.PoolOnly.countDecoded {a : State} (h : a.PoolOnly (decodedRegs b) s) (rank n : Nat) :
    a.PoolOnly (decodedRegs b) (s.countDecoded rank n) := by
  obtain ⟨m, hcounted⟩ := s.countDecoded_eq rank n
  have hjobs : decodedRegs b (addrOf Pg.TRL (jobCounter rank).off) :=
    .inl (regsAt_of_mem ((by decide : ∀ f ∈ [TRL.JOBS_ALARM, TRL.JOBS_LIVE, TRL.JOBS_REPLAY], (Pg.TRL, f.off) ∈ _) _
      (jobCounter_mem rank)))
  rw [hcounted]
  exact ((h.countBy 1 hjobs).withTrl _).countBy m (.inl (regsAt_of_mem (by decide)))

theorem State.PoolOnly.bufferFreed {a : State} (h : a.PoolOnly (decodedRegs b) s) : a.PoolOnly (decodedRegs b) (s.bufferFreed b) := by
  cases b with
  | none => exact h
  | some c => exact h.put _ (.inr ⟨c, rfl, rfl⟩)

theorem State.bufferFreed_trl : (s.bufferFreed b).trl = s.trl := by
  cases b with
  | none => rfl
  | some c => rfl

theorem State.bufferFreed_key : (s.bufferFreed b).key = s.key := by
  cases b with
  | none => rfl
  | some c => rfl

/-- Soft buffers show in the engines' pages. -/
theorem State.get_bufferFreed (hb : ∀ c, b = some c → c < 256) {f : Fld} (hf : f.off < 4096) :
    (s.bufferFreed b).get Pg.TRL f = s.get Pg.TRL f := by
  cases b with
  | none => rfl
  | some c =>
    have hc := hb c rfl
    have hoff : (ERG.SOFT_BUF.nth (c % 4)).off = 0x100 + 64 * (c % 4) := rfl
    refine State.get_put_otherPage _ _ ⟨?_, by omega, hf⟩
    unfold Pg.ERG Pg.TRL
    omega

theorem State.eget_bufferFreed (c : Nat) : (s.bufferFreed (some c)).eget c ERG.SOFT_BUF = s.eget c ERG.SOFT_BUF - 1 := by
  have hlt : s.eget c ERG.SOFT_BUF < 4 := Fld.of_lt (ERG.SOFT_BUF.nth (c % 4)) _
  refine (State.get_put_same _ _ (ERG.SOFT_BUF.nth (c % 4)) _ (by decide : 8 + 2 ≤ 32)).trans (Nat.mod_eq_of_lt ?_)
  exact lt_of_le_of_lt (Nat.sub_le _ _) hlt

end

section
variable {s : State} {t d : Nat} {j : TJob} {field : List Byte}

/-- What a decoder leaves that ends its job. -/
def State.jobDecoded (t d : Nat) (j : TJob) (field : List Byte) (s : State) : State :=
  (((s.decoderFreed t d).countDecoded j.rank (8 * (PhyHeader.ofWord j.rx.hdr).length + tailLen (PhyHeader.ofWord j.rx.hdr).code
    (PhyHeader.ofWord j.rx.hdr).length)).bufferFreed j.buf).pushRx { j.rx with field := field }

theorem State.poolOnly_jobDecoded : s.PoolOnly (decodedRegs j.buf) (s.jobDecoded t d j field) :=
  (State.PoolOnly.bufferFreed _ (State.PoolOnly.countDecoded _ ((s.poolOnly_refl _).withTrl _) _ _)).pushRx _

theorem State.jobDecoded_trl : ∃ bits, (s.jobDecoded t d j field).trl = { (s.decoderFreed t d).trl with bits := bits } :=
  ⟨_, (State.bufferFreed_trl _).trans (State.countDecoded_trl _ _ _)⟩

theorem State.jobDecoded_key : (s.jobDecoded t d j field).key = { s.key with rx := s.key.rx ++ [{ j.rx with field := field }] } := by
  unfold State.jobDecoded State.pushRx
  rw [State.bufferFreed_key, State.countDecoded_key]
  rfl

theorem State.get_jobDecoded (hb : ∀ c, j.buf = some c → c < 256) {f : Fld} (hf : f.off < 4096)
    (hbits : TRL.KBITS_DECODED.off ≠ f.off) :
    (s.jobDecoded t d j field).get Pg.TRL f = ((s.decoderFreed t d).count Pg.TRL (jobCounter j.rank)).get Pg.TRL f :=
  (State.get_bufferFreed _ hb hf).trans (State.get_countDecoded_beside _ (addrOf_ne hbits))

theorem State.trellisDone_of_best (hdec : s.decoder d = some j) (hidle : s.trl.waiting = [])
    (hbest : bestField (PhyHeader.ofWord j.rx.hdr) j.rx.soft field = true) (hb : ∀ c, j.buf = some c → c < 256)
    (harmed : s.flag Pg.TRL CFG.ARMED = false) : s.trellisDone t d field = s.jobDecoded t d j field := by
  obtain ⟨bits, htrl⟩ := State.jobDecoded_trl (s := s) (t := t) (d := d) (j := j) (field := field)
  have hdone : s.trellisDone t d field = (s.jobDecoded t d j field).trlRun t := by
    unfold State.trellisDone
    rw [hdec]
    dsimp only
    rw [if_neg (by rw [hbest]; decide)]
    rfl
  rw [hdone]
  refine State.trlRun_of_idle (by rw [htrl]; exact hidle) ?_ t
  rw [State.flag, State.get_jobDecoded hb (by decide) (by decide), State.get_count_beside _ (jobCounter_place _).2.2]
  exact harmed

theorem State.eget_jobDecoded {c : Nat} (hc : c < 256) (hbuf : j.buf = some c) :
    (s.jobDecoded t d j field).settle.eget c ERG.SOFT_BUF = s.eget c ERG.SOFT_BUF - 1 := by
  have hoff : (ERG.SOFT_BUF.nth (c % 4)).off = 0x100 + 64 * (c % 4) := rfl
  obtain ⟨⟨hplace, -⟩, -, -⟩ := jobCounter_place j.rank
  have hpage : Pg.TRL ≠ Pg.ERG (c / 4) := by
    unfold Pg.ERG Pg.TRL
    omega
  have hbeside : ((s.decoderFreed t d).countDecoded j.rank (8 * (PhyHeader.ofWord j.rx.hdr).length + tailLen
      (PhyHeader.ofWord j.rx.hdr).code (PhyHeader.ofWord j.rx.hdr).length)).eget c ERG.SOFT_BUF = s.eget c ERG.SOFT_BUF :=
    (State.get_countDecoded_beside _ fun haddr => hpage (addrOf_inj (by decide) (by omega) haddr).1).trans
      ((State.get_count_otherPage _ ⟨hpage, hplace, by omega⟩).trans (State.get_congr rfl _ _))
  refine (State.get_settle_beside _ ⟨?_, ?_⟩ (by omega)).trans ?_
  · unfold Pg.ERG Pg.GLB; omega
  · unfold Pg.ERG Pg.HIF; omega
  · rw [← hbeside, ← State.eget_bufferFreed, ← hbuf]
    rfl

theorem trellisDecodeDone_shows (hdec : s.decoder d = some j) (hidle : s.trl.waiting = [])
    (hbest : bestField (PhyHeader.ofWord j.rx.hdr) j.rx.soft field = true) (hb : ∀ c, j.buf = some c → c < 256)
    (harmed : s.flag Pg.TRL CFG.ARMED = false) : ∃ u, finish (s.trellisDone t d field) = .next u ∧ u.decoder d = none ∧
      u.key.rx = s.key.rx ++ [{ j.rx with field := field }] ∧ s.Counted Pg.TRL (jobCounter j.rank) u ∧
      (∀ c, j.buf = some c → u.eget c ERG.SOFT_BUF = s.eget c ERG.SOFT_BUF - 1) ∧
      State.RegsOnly (decodedRegs j.buf) { s with trl := u.trl, key := u.key } u := by
  obtain ⟨bits, htrl⟩ := State.jobDecoded_trl (s := s) (t := t) (d := d) (j := j) (field := field)
  obtain ⟨hplace, hbits, -⟩ := jobCounter_place j.rank
  refine ⟨_, congrArg finish (State.trellisDone_of_best hdec hidle hbest hb harmed), ?_, ?_, ?_,
    fun c hbuf => State.eget_jobDecoded (hb c hbuf) hbuf, State.poolOnly_jobDecoded.regsOnly_settle⟩
  · rw [State.decoder, State.settle_trl, htrl]
    exact Tab.get_set_same (fun _ => none) s.trl.dec d none
  · rw [State.settle_key, State.jobDecoded_key]
  · exact State.counted_settle (u := s.decoderFreed t d) (by decide) hplace (State.get_jobDecoded hb hplace.1 hbits) rfl rfl

end

end Sys2Proof.Machine

/-! ### The cells of the noise map (R144, R145) -/

namespace Sys2Proof.Machine

section
variable {touched : Nat → Prop} {s u : State} (h : s.RegsOnly touched u)
include h

theorem State.RegsOnly.followStale (ht : ∀ a, regsAt staleRegs a → touched a) : s.RegsOnly touched u.followStale := by
  obtain ⟨hstale, hrest⟩ := u.followStale_keeps
  obtain ⟨hkept, regs, msi, act, flt, total, since, hu⟩ := h
  refine ⟨State.regsKept_trans hkept (State.regsKept_mono hstale ht), u.followStale.regs, msi, act, flt, total, since, ?_⟩
  rw [hrest, hu]
  rfl

theorem State.RegsOnly.stepIdx (ht : touched (addrOf Pg.NMAP NMAP.IDX.off)) : s.RegsOnly touched u.stepIdx := by
  unfold State.stepIdx
  split
  · exact State.regsOnly_put _ h ht
  · exact h

theorem State.RegsOnly.cellRefused (hevents : touched (addrOf Pg.NMAP CMN.EVENTS))
    (hcnt : touched (addrOf Pg.NMAP NMAP.WRITE_REFUSED_CNT.off)) : s.RegsOnly touched u.cellRefused :=
  State.regsOnly_count (State.regsOnly_event h hevents) hcnt

theorem State.RegsOnly.nmap : u.nmap = s.nmap := by
  obtain ⟨-, regs, msi, act, flt, total, since, rfl⟩ := h
  rfl

theorem State.RegsOnly.cell (k : Nat) : u.cell k = s.cell k := by rw [State.cell, h.nmap, State.cell]

end

section
variable (s : State) {f : Fld}

theorem State.get_followStale_beside (hf : f.off < 4096) (h : NMAP.STALE_CELLS.off ≠ f.off ∧ CMN.EVENTS ≠ f.off) :
    s.followStale.get Pg.NMAP f = s.get Pg.NMAP f := by
  refine State.get_of_kept s.followStale_keeps.1 (fun ht => ?_) (by decide) hf
  obtain ⟨e, he, haddr⟩ := List.mem_map.mp ht
  have hoff := (addrOf_inj ((by decide : ∀ e ∈ staleRegs, e.2 < 4096) e he) hf haddr).2
  rcases (by decide : ∀ e ∈ staleRegs, e.2 = NMAP.STALE_CELLS.off ∨ e.2 = CMN.EVENTS) e he with hstale | hevents
  · exact h.1 (hstale.symm.trans hoff)
  · exact h.2 (hevents.symm.trans hoff)

theorem State.get_stepIdx_beside (h : NMAP.IDX.off ≠ f.off) : s.stepIdx.get Pg.NMAP f = s.get Pg.NMAP f := by
  unfold State.stepIdx
  split
  · exact State.get_put_beside _ _ _ _ _ ⟨by decide, .inl h⟩
  · rfl

theorem State.get_cellRefused_beside (hevents : CMN.EVENTS ≠ f.off) (hcnt : NMAP.WRITE_REFUSED_CNT.off ≠ f.off) :
    s.cellRefused.get Pg.NMAP f = s.get Pg.NMAP f :=
  (State.get_count_beside _ hcnt).trans (State.get_event_beside _ _ _ _ hevents)

theorem State.get_refuse_beside {pg code off : Nat} (hcfg : CMN.CFG_STATE ≠ f.off) (hdetail : CMN.ERR_DETAIL ≠ f.off)
    (hevents : CMN.EVENTS ≠ f.off) : (s.refuse pg code off).get pg f = s.get pg f := by
  rw [State.refuse, State.get_event_beside _ _ _ _ hevents, State.get_put_other _ (f := CMN.ERR_OFFSET) _ (addrOf_ne hdetail),
    State.get_put_other _ (f := CMN.ERR_REASON) _ (addrOf_ne hdetail), State.get_put_other _ (f := CFG.ERR_CODE) _ (addrOf_ne hcfg),
    State.get_put_other _ (f := CFG.CFG_ERR) _ (addrOf_ne hcfg)]

/-- IDX after an access that found the INC and IDX of `s`. -/
theorem State.get_stepIdx {u : State} (hinc : u.get Pg.NMAP NMAP.INC = s.get Pg.NMAP NMAP.INC)
    (hidx : u.get Pg.NMAP NMAP.IDX = s.get Pg.NMAP NMAP.IDX) : u.stepIdx.settle.get Pg.NMAP NMAP.IDX =
      if s.flag Pg.NMAP NMAP.INC then (s.get Pg.NMAP NMAP.IDX + 1) % 16384 else s.get Pg.NMAP NMAP.IDX := by
  have hflag : u.flag Pg.NMAP NMAP.INC = s.flag Pg.NMAP NMAP.INC := by rw [State.flag, hinc, State.flag]
  rw [State.get_settle_beside _ (by decide) (by decide), State.stepIdx, hflag, hidx]
  split
  · exact State.get_put_same _ _ _ _ (by decide)
  · exact hidx

/-- The map with a value and AGE 0 in cell i. -/
def State.withCell (i : Nat) (v : Word) (s : State) : State :=
  { s with nmap := Tab.set (fun _ => cellReset) s.nmap i (v &&& 0x010003FF) }

theorem State.cell_withCell (i k : Nat) (v : Word) : (s.withCell i v).cell k = if k = i then v &&& 0x010003FF else s.cell k := by
  refine (Tab.get_set _ _ i k _).trans ?_
  simp only [eq_comm (a := i)]
  rfl

theorem State.writeCell_eq (i : Nat) (v : Word) :
    s.writeCell i v = ((s.withCell i v).count Pg.NMAP NMAP.CELL_WRITE_CNT).followStale := rfl

end

/-- Every register of the noise map's page. -/
theorem onNmap {off : Nat} (h : off < 4096) : onPages [Pg.NMAP] (addrOf Pg.NMAP off) := (onPages_addrOf h).mpr (List.mem_singleton.mpr rfl)

section
variable (s : State) (i : Nat) (v : Word)

theorem State.regsOnly_writeCell : (s.withCell i v).RegsOnly (onPages [Pg.NMAP]) (s.writeCell i v) :=
  (State.regsOnly_count (State.regsOnly_refl _ _) (onNmap (by decide))).followStale fun _ ht =>
    regsAt_onPage (by decide) ht

/-- A write leaves the fields of the page but what it counts and what shows the stale cells. -/
theorem State.get_writeCell_beside {f : Fld} (hf : f.off < 4096) (hcnt : NMAP.CELL_WRITE_CNT.off ≠ f.off)
    (hstale : NMAP.STALE_CELLS.off ≠ f.off ∧ CMN.EVENTS ≠ f.off) : (s.writeCell i v).get Pg.NMAP f = s.get Pg.NMAP f :=
  (State.get_followStale_beside _ hf hstale).trans ((State.get_count_beside _ hcnt).trans (State.get_congr rfl _ _))

/-- A cell that the host writes under OWNER HOST. -/
theorem hostCell_stores (howner : s.flag Pg.NMAP NMAP.OWNER = true) : let t := (s.hostCell v).settle
    (∀ k, t.cell k = if k = s.get Pg.NMAP NMAP.IDX then v &&& 0x010003FF else s.cell k) ∧
      t.get Pg.NMAP NMAP.IDX = (if s.flag Pg.NMAP NMAP.INC then (s.get Pg.NMAP NMAP.IDX + 1) % 16384 else s.get Pg.NMAP NMAP.IDX) ∧
      s.Counted Pg.NMAP NMAP.CELL_WRITE_CNT t ∧ s.Counted Pg.NMAP NMAP.HOST_WRITE_CNT t ∧ s.RegsKept (onPages [Pg.NMAP]) t ∧
      s.DramKept t := by
  have hwritten : s.hostCell v = ((s.writeCell (s.get Pg.NMAP NMAP.IDX) v).count Pg.NMAP NMAP.HOST_WRITE_CNT).stepIdx := if_pos howner
  have hframe := State.regsOnly_settle ((State.regsOnly_count (f := NMAP.HOST_WRITE_CNT)
    (s.regsOnly_writeCell (s.get Pg.NMAP NMAP.IDX) v) (onNmap (by decide))).stepIdx (onNmap (by decide)))
  rw [hwritten]
  refine ⟨fun k => ?_, ?_, ?_, ?_, hframe.1, hframe.dram⟩
  · rw [hframe.cell, State.cell_withCell]
  · exact State.get_stepIdx s
      ((State.get_count_beside _ (by decide)).trans (s.get_writeCell_beside _ _ (by decide) (by decide) (by decide)))
      ((State.get_count_beside _ (by decide)).trans (s.get_writeCell_beside _ _ (by decide) (by decide) (by decide)))
  · exact State.counted_settle (u := s.withCell (s.get Pg.NMAP NMAP.IDX) v) (by decide) (by decide)
      ((State.get_stepIdx_beside _ (by decide)).trans ((State.get_count_beside _ (by decide)).trans
        (State.get_followStale_beside _ (by decide) (by decide)))) rfl rfl
  · exact State.counted_settle (u := s.writeCell (s.get Pg.NMAP NMAP.IDX) v) (by decide) (by decide)
      (State.get_stepIdx_beside _ (by decide)) (s.get_writeCell_beside _ _ (by decide) (by decide) (by decide))
      (s.get_writeCell_beside _ _ (by decide) (by decide) (by decide))

/-- A cell that the host writes under OWNER LINK. -/
theorem hostCell_refused (howner : s.flag Pg.NMAP NMAP.OWNER = false) : let t := (s.hostCell v).settle
    t.nmap = s.nmap ∧ t.get Pg.NMAP CFG.ERR_CODE = ErrCode.NOT_PERMITTED ∧ t.get Pg.NMAP NMAP.EV_WRITE_REFUSED = 1 ∧
      t.get Pg.NMAP NMAP.IDX = (if s.flag Pg.NMAP NMAP.INC then (s.get Pg.NMAP NMAP.IDX + 1) % 16384 else s.get Pg.NMAP NMAP.IDX) ∧
      s.Counted Pg.NMAP NMAP.WRITE_REFUSED_CNT t ∧
      s.RegsOnly (regsAt [(Pg.NMAP, CMN.CFG_STATE), (Pg.NMAP, CMN.ERR_DETAIL), (Pg.NMAP, CMN.EVENTS), (Pg.NMAP, NMAP.IDX.off),
        (Pg.NMAP, NMAP.WRITE_REFUSED_CNT.off)]) t := by
  have hrefused : s.hostCell v = (s.refuse Pg.NMAP ErrCode.NOT_PERMITTED 0x018).cellRefused.stepIdx :=
    if_neg (by rw [howner]; exact Bool.false_ne_true)
  have hframe : s.RegsOnly (regsAt [(Pg.NMAP, CMN.CFG_STATE), (Pg.NMAP, CMN.ERR_DETAIL), (Pg.NMAP, CMN.EVENTS),
      (Pg.NMAP, NMAP.IDX.off), (Pg.NMAP, NMAP.WRITE_REFUSED_CNT.off)]) (s.hostCell v).settle := by
    rw [hrefused]
    refine State.regsOnly_settle (((State.regsOnly_refuse _ _ (State.regsOnly_refl _ s) fun e he => ?_).cellRefused
      (regsAt_of_mem (by decide)) (regsAt_of_mem (by decide))).stepIdx (regsAt_of_mem (by decide)))
    exact regsAt_of_mem ((by decide : ∀ e ∈ refusalRegs Pg.NMAP, (e.1, e.2) ∈ _) e he)
  refine ⟨hframe.nmap, ?_, ?_, ?_, ?_, hframe⟩
  · rw [hrefused, State.get_settle_beside _ (by decide) (by decide), State.get_stepIdx_beside _ (by decide),
      State.get_cellRefused_beside _ (by decide) (by decide), State.get_refuse_errCode]
    rfl
  · rw [hrefused, State.get_settle_beside _ (by decide) (by decide), State.get_stepIdx_beside _ (by decide), State.cellRefused,
      State.get_count_beside _ (by decide), State.get_event_set _ (by decide)]
  · rw [hrefused]
    exact State.get_stepIdx s
      ((State.get_cellRefused_beside _ (by decide) (by decide)).trans (State.get_refuse_beside _ (by decide) (by decide) (by decide)))
      ((State.get_cellRefused_beside _ (by decide) (by decide)).trans (State.get_refuse_beside _ (by decide) (by decide) (by decide)))
  · rw [hrefused]
    exact State.counted_settle (u := (s.refuse Pg.NMAP ErrCode.NOT_PERMITTED 0x018).event Pg.NMAP NMAP.EV_WRITE_REFUSED) (by decide)
      (by decide) (State.get_stepIdx_beside _ (by decide))
      ((State.get_event_beside _ _ _ _ (by decide)).trans (State.get_refuse_beside _ (by decide) (by decide) (by decide)))
      ((State.get_event_beside _ _ _ _ (by decide)).trans (State.get_refuse_beside _ (by decide) (by decide) (by decide)))

theorem readCell_answers : let t := s.readCell.settle
    t.host.rdata = s.cell (s.get Pg.NMAP NMAP.IDX) ∧ t.nmap = s.nmap ∧
      t.get Pg.NMAP NMAP.IDX = (if s.flag Pg.NMAP NMAP.INC then (s.get Pg.NMAP NMAP.IDX + 1) % 16384 else s.get Pg.NMAP NMAP.IDX) ∧
      s.RegsKept (regsAt [(Pg.NMAP, NMAP.IDX.off)]) t ∧ s.DramKept t := by
  have hframe : State.RegsOnly (regsAt [(Pg.NMAP, NMAP.IDX.off)]) (s.answer (s.cell (s.get Pg.NMAP NMAP.IDX))) s.readCell.settle :=
    State.regsOnly_settle ((State.regsOnly_refl _ _).stepIdx (regsAt_of_mem (by decide)))
  refine ⟨?_, hframe.nmap, State.get_stepIdx s rfl rfl, hframe.1, hframe.dram⟩
  obtain ⟨-, regs, msi, act, flt, total, since, hread⟩ := hframe
  rw [hread]
  rfl

/-- A cell that the kernel writes. -/
theorem writeCell_stores : let t := (s.writeCell i v).settle
    (∀ k, t.cell k = if k = i then v &&& 0x010003FF else s.cell k) ∧ s.Counted Pg.NMAP NMAP.CELL_WRITE_CNT t ∧
      s.RegsKept (onPages [Pg.NMAP]) t ∧ s.DramKept t := by
  have hframe := State.regsOnly_settle (s.regsOnly_writeCell i v)
  refine ⟨fun k => ?_, ?_, hframe.1, hframe.dram⟩
  · rw [hframe.cell, State.cell_withCell]
  · exact State.counted_settle (u := s.withCell i v) (by decide) (by decide)
      (State.get_followStale_beside _ (by decide) (by decide)) rfl rfl

theorem cellRefused_shows : let t := s.cellRefused.settle
    t.nmap = s.nmap ∧ t.get Pg.NMAP NMAP.EV_WRITE_REFUSED = 1 ∧ s.Counted Pg.NMAP NMAP.WRITE_REFUSED_CNT t ∧
      s.RegsOnly (regsAt [(Pg.NMAP, CMN.EVENTS), (Pg.NMAP, NMAP.WRITE_REFUSED_CNT.off)]) t := by
  have hframe : s.RegsOnly (regsAt [(Pg.NMAP, CMN.EVENTS), (Pg.NMAP, NMAP.WRITE_REFUSED_CNT.off)]) s.cellRefused.settle :=
    State.regsOnly_settle ((State.regsOnly_refl _ s).cellRefused (regsAt_of_mem (by decide)) (regsAt_of_mem (by decide)))
  refine ⟨hframe.nmap, ?_, ?_, hframe⟩
  · rw [State.get_settle_beside _ (by decide) (by decide), State.cellRefused, State.get_count_beside _ (by decide),
      State.get_event_set _ (by decide)]
  · exact State.counted_settle (u := s.event Pg.NMAP NMAP.EV_WRITE_REFUSED) (by decide) (by decide) rfl
      (State.get_event_beside _ _ _ _ (by decide)) (State.get_event_beside _ _ _ _ (by decide))

variable (cell : Fin 16384)

/-- The kernel runs with link firmware, in the NORMAL regime (R209). -/
theorem exec_nmapKernelWrite_runs (hfw : s.fwRunning = true) (hregime : s.get Pg.MAC MAC.REGIME = 0) :
    exec (.nmapKernelWrite cell v) s =
      finish (if s.flag Pg.NMAP NMAP.OWNER then s.cellRefused else s.writeCell cell.val v) := by
  show finish (onlyIf (s.fwRunning && decide (s.get Pg.MAC MAC.REGIME = 0)) _ s) = _
  rw [hfw, decide_eq_true hregime, Bool.and_self, onlyIf_true]

theorem exec_nmapKernelWrite_rests (hregime : s.get Pg.MAC MAC.REGIME ≠ 0) : exec (.nmapKernelWrite cell v) s = finish s := by
  show finish (onlyIf (s.fwRunning && decide (s.get Pg.MAC MAC.REGIME = 0)) _ s) = _
  rw [decide_eq_false hregime, Bool.and_false, onlyIf_false]

end

/-! ### Cells that grow older (R144) -/

theorem olderCell_reset : olderCell cellReset = cellReset := by decide

theorem olderCell_fields (w : Word) : cellAge (olderCell w) = Nat.min (cellAge w + 1) 255 ∧ cellNoise (olderCell w) = cellNoise w ∧
    cellValid (olderCell w) = cellValid w := by
  have hw : w.toNat < 2 ^ 32 := w.isLt
  unfold olderCell cellAge cellNoise cellValid
  split
  · next hyoung =>
    have hsum : (w + 0x10000).toNat = w.toNat + 65536 := by
      rw [BitVec.toNat_add]
      show (w.toNat + 65536) % 2 ^ 32 = _
      omega
    rw [hsum]
    refine ⟨?_, by omega, ?_⟩
    · show _ = min _ _
      omega
    · have hvalid : (w.toNat + 65536) / 2 ^ 24 % 2 = w.toNat / 2 ^ 24 % 2 := by omega
      rw [hvalid]
  · next hold =>
    refine ⟨?_, rfl, rfl⟩
    show _ = min _ _
    omega

/-- The map one second older; a cell that then reads as an unlisted one is listed no more. -/
def agedCells (m : Tab Word) : Tab Word :=
  m.filterMap fun e => if olderCell e.2 = cellReset then none else some (e.1, olderCell e.2)

theorem Tab.le_of_rising {α : Type} {m : Tab α} {b : Nat} (h : Tab.rising b m = true) : ∀ e, e ∈ m → b ≤ e.1 := by
  induction m generalizing b with
  | nil => intro e he; cases he
  | cons x m ih =>
    simp only [Tab.rising, Bool.and_eq_true, decide_eq_true_eq] at h
    obtain ⟨hx, hm⟩ := h
    intro e he
    rcases List.mem_cons.mp he with rfl | he
    · exact hx
    · have hlater := ih hm e he
      omega

theorem agedCells_cons (j : Nat) (w : Word) (m : Tab Word) : agedCells ((j, w) :: m) =
    if olderCell w = cellReset then agedCells m else (j, olderCell w) :: agedCells m := by
  unfold agedCells
  by_cases hout : olderCell w = cellReset
  · rw [if_pos hout]
    exact List.filterMap_cons_none (if_pos hout)
  · rw [if_neg hout]
    exact List.filterMap_cons_some (if_neg hout)

theorem Tab.get_cons {α : Type} (d : Nat → α) (j : Nat) (v : α) (m : Tab α) (k : Nat) :
    Tab.get d ((j, v) :: m) k = if j = k then v else Tab.get d m k := by
  unfold Tab.get
  rw [Tab.find?_cons]
  split
  · rfl
  · rfl

/-- Every cell, listed or not, is one second older. -/
theorem get_agedCells {m : Tab Word} {b : Nat} (h : Tab.rising b m = true) (k : Nat) :
    Tab.get (fun _ => cellReset) (agedCells m) k = olderCell (Tab.get (fun _ => cellReset) m k) := by
  induction m generalizing b with
  | nil => exact olderCell_reset.symm
  | cons e m ih =>
    obtain ⟨j, w⟩ := e
    simp only [Tab.rising, Bool.and_eq_true, decide_eq_true_eq] at h
    obtain ⟨-, hm⟩ := h
    rw [agedCells_cons, Tab.get_cons]
    by_cases hjk : j = k
    · subst hjk
      rw [if_pos rfl]
      split
      · next hout =>
        have hunlisted : Tab.get (fun _ => cellReset) m j = cellReset :=
          congrArg (·.getD cellReset) (Tab.find?_none fun e he => Nat.ne_of_gt (Tab.le_of_rising hm e he))
        rw [ih hm, hunlisted, hout, olderCell_reset]
      · rw [Tab.get_cons, if_pos rfl]
    · rw [if_neg hjk]
      split
      · exact ih hm
      · rw [Tab.get_cons, if_neg hjk]
        exact ih hm

theorem ageCells_ages {s : State} (hwf : Tab.wf (fun _ => cellReset) s.nmap = true) : let t := s.ageCells.settle
    (∀ i, cellAge (t.cell i) = Nat.min (cellAge (s.cell i) + 1) 255 ∧ cellNoise (t.cell i) = cellNoise (s.cell i) ∧
      cellValid (t.cell i) = cellValid (s.cell i)) ∧ s.RegsKept (onPages [Pg.NMAP]) t ∧ s.DramKept t := by
  have hrising : Tab.rising 0 s.nmap = true := (Bool.and_eq_true _ _ ▸ hwf).1
  have hframe : State.RegsOnly (onPages [Pg.NMAP]) { s with nmap := agedCells s.nmap } s.ageCells.settle :=
    State.regsOnly_settle ((State.regsOnly_refl _ _).followStale fun _ ht => regsAt_onPage (by decide) ht)
  refine ⟨fun i => ?_, hframe.1, hframe.dram⟩
  have hcell : s.ageCells.settle.cell i = olderCell (s.cell i) := (hframe.cell i).trans (get_agedCells hrising i)
  rw [hcell]
  exact olderCell_fields _

/-- Settles O23: with no other job waiting a decoder that ends its job leaves the pool at rest; an access to the map writes one cell or
is refused, and a second ages every cell, listed or not. -/
theorem trellisResultsAndNoiseMap : Obligations.TrellisResultsAndNoiseMap := by
  unfold Obligations.TrellisResultsAndNoiseMap
  refine ⟨fun s tick dec j field hdec hidle hbest hb harmed => ?_, fun s v idx hidx => ?_⟩
  · obtain ⟨u, hexec, hfree, hrx, hcount, hbuf, hframe⟩ :=
      trellisDecodeDone_shows (s := s.atTick tick) (t := tick) hdec hidle hbest hb harmed
    have hcounter : ∀ rank, j.rank = rank → s.Counted Pg.TRL (jobCounter rank) u := fun _ hrank => hrank ▸ hcount
    exact ⟨u, hexec, hfree, hrx, hcounter 1, hcounter 2, hcounter 3, hbuf, hframe⟩
  · subst hidx
    refine ⟨fun hreach howner => ?_, fun hreach howner => ?_, fun hreach => ?_, fun cell hfw hregime howner => ?_,
      fun cell hregime => ?_, fun cell hfw hregime howner => ?_, fun tick hwf => ?_⟩
    · exact ⟨_, finish_hostWrite hreach _, hostCell_stores s v howner⟩
    · exact ⟨_, finish_hostWrite hreach _, hostCell_refused s v howner⟩
    · exact ⟨_, finish_hostRead hreach _, readCell_answers s⟩
    · rw [exec_nmapKernelWrite_runs s v cell hfw hregime, howner]
      exact ⟨_, rfl, writeCell_stores s cell.val v⟩
    · exact ⟨_, exec_nmapKernelWrite_rests s v cell hregime, State.regsOnly_settle (State.regsOnly_refl _ s)⟩
    · rw [exec_nmapKernelWrite_runs s v cell hfw hregime, howner]
      exact ⟨_, rfl, cellRefused_shows s⟩
    · exact ⟨_, rfl, ageCells_ages (s := s.atTick tick) hwf⟩

end Sys2Proof.Machine

/-! ## Support of `ReplayJobsRunOnLentEngines`: the slab directory and what a block asks for, jobs that start, jobs whose window is gone,
and engines that come back (R149, R179 to R181, R185). -/

namespace Sys2Proof.Machine

/-! ### The slab directory, and the credit of a block -/

section
variable (s : State)

/-- An entry of the slab directory stands in Mirage and in DRAM. -/
theorem State.setDir_eq (m e : Nat) : ∃ dram, s.setDir m e =
    { s with mir := { s.mir with dir := Tab.set (fun _ => 0) s.mir.dir m e }, dram := dram } := by
  unfold State.setDir
  dsimp only
  split
  · exact ⟨_, rfl⟩
  · exact ⟨_, rfl⟩

theorem State.modDir_eq (a b : Nat) (f : Nat → Nat) : ∃ dir dram, s.modDir a b f =
    { s with mir := { s.mir with dir := dir }, dram := dram } :=
  forEach_keeps (fun u => ∃ dir dram, u = { s with mir := { s.mir with dir := dir }, dram := dram }) _ _
    (fun e u _ hu => by
      obtain ⟨dir, dram, hu⟩ := hu
      obtain ⟨dram', hset⟩ := u.setDir_eq e.1 (f e.2)
      rw [hset, hu]
      exact ⟨_, _, rfl⟩)
    ⟨_, _, rfl⟩

theorem State.askBlock_eq (c : Nat) (j : RJob) (t : Nat) : ∃ oas, s.askBlock c j t = { s with oas := oas } := by
  unfold State.askBlock State.addJob
  split
  · exact ⟨_, rfl⟩
  · exact ⟨_, rfl⟩

theorem State.runningJob_setRunning (c : Nat) (j : Option RJob) : (s.setRunning c j).runningJob c = j := Tab.get_set_same _ _ _ _

/-- An engine's state and its preamble watch share a register (R141). -/
theorem State.regsKept_setEst {touched : Nat → Prop} {b u : State} (h : b.RegsKept touched u) {c : Nat} (st : Nat)
    (ht : touched (addrOf (Pg.ERG (c / 4)) (ERG.STATE.nth (c % 4)).off)) : b.RegsKept touched (u.setEst c st) := by
  refine State.regsKept_put (f := ERG.WATCH.nth (c % 4)) (State.regsKept_put ?_ _ ht) _ ht
  unfold onlyIf
  split
  · exact State.regsKept_of_regs h rfl
  · exact h

theorem State.est_congr {s u : State} (h : u.regs = s.regs) (c : Nat) : u.est c = s.est c := State.get_congr h _ _

theorem State.setEst_mir (c st : Nat) : (s.setEst c st).mir = s.mir := by
  rw [((s.engMoved_refl [Pg.ERG (c / 4)]).setEst (List.mem_singleton.mpr rfl) st).rest]

end

/-! ### Jobs that start, and jobs whose window is gone (R149, R181) -/

/-- A job as it starts: with the SPEED that is set and, for a WIDE job, the tolerance; one that resumes goes on as it was. -/
def State.startedJob (s : State) (j : RJob) : RJob :=
  if j.speed ≠ 0 then j
  else { j with speed := s.get Pg.MIR MIR.SPEED, tol := if j.kind = RK.WIDE then s.get Pg.MIR MIR.WIDE_TOL else j.tol }

theorem State.startedJob_keeps (s : State) (j : RJob) : (s.startedJob j).kind = j.kind ∧ (s.startedJob j).start = j.start ∧
    (s.startedJob j).stop = j.stop ∧ (s.startedJob j).port = j.port ∧ (s.startedJob j).sync = j.sync ∧
    (s.startedJob j).doneTo = j.doneTo := by
  unfold State.startedJob
  split
  · exact ⟨rfl, rfl, rfl, rfl, rfl, rfl⟩
  · exact ⟨rfl, rfl, rfl, rfl, rfl, rfl⟩

/-- The causes of R181. -/
theorem State.jobGone_lt {s : State} {j : RJob} {cause : Nat} (h : s.jobGone j = some cause) : cause < 2 := by
  unfold State.jobGone at h
  split at h
  · cases h
  · split at h
    · cases h
    · split at h
      · cases h; decide
      · cases h; decide

theorem State.not_mem_unqueue (s : State) (j : RJob) : j ∉ (s.unqueue j).mir.jobs := fun hmem =>
  of_decide_eq_true (List.mem_filter.mp hmem).2 rfl

/-- Job j starts on engine c and asks for its first block. -/
def State.jobLent (t c : Nat) (j : RJob) (s : State) : State :=
  (((s.modDir j.start j.stop (dirSetHeld true)).setRunning c (some j)).setEst c ES.LENT).askBlock c j t

/-- Job j ends before it starts (R185, R191). -/
def State.jobLost (j : RJob) (cause : Nat) (s : State) : State :=
  if j.kind = RK.REPEAT then s.count Pg.MIR MIR.COPY_MISSING_CNT else s.ringLost j cause

theorem State.replay_admitted {s : State} {c : Nat} (hdom : s.domOn 141 = true) (hlevel : s.level < 2)
    (hlend : s.lendable c = true) :
    ¬(s.domOn 141 = false ∨ 2 ≤ s.level ∨ s.lendable c = false) := by simp [hdom, hlend, hlevel]

section
variable {s : State} {t c : Nat} {j : RJob} (hdom : s.domOn 141 = true) (hlevel : s.level < 2) (hlend : s.lendable c = true)
  (hnext : s.nextReplay t = some j)
include hdom hlevel hlend hnext

theorem State.replayStart_of_recorded (hkind : j.kind ≠ RK.DIAG) (hgone : (s.unqueue j).jobGone j = none) :
    s.replayStart t c = (s.unqueue j).jobLent t c ((s.unqueue j).startedJob j) := by
  have hnodiag : decide (((s.unqueue j).startedJob j).kind = RK.DIAG) = false :=
    decide_eq_false (((s.unqueue j).startedJob_keeps j).1 ▸ hkind)
  unfold State.replayStart
  rw [if_neg (State.replay_admitted hdom hlevel hlend), hnext]
  dsimp only
  rw [hgone]
  change (State.setEst c ES.LENT (onlyIf (decide (((s.unqueue j).startedJob j).kind = RK.DIAG)) _ _)).askBlock c _ t = _
  rw [hnodiag, onlyIf_false]
  rfl

theorem State.replayStart_of_gone {cause : Nat} (hgone : (s.unqueue j).jobGone j = some cause) :
    s.replayStart t c = (s.unqueue j).jobLost j cause := by
  unfold State.replayStart
  rw [if_neg (State.replay_admitted hdom hlevel hlend), hnext]
  dsimp only
  rw [hgone]
  rfl

end

section
variable (s : State) (t : Nat) {c : Nat} (j : RJob)

theorem State.jobLent_shows (hc : c < 256) : let u := (s.jobLent t c j).settle
    u.est c = ES.LENT ∧ u.runningJob c = some j ∧ u.mir.jobs = s.mir.jobs ∧
      s.RegsKept (regsAt [(Pg.ERG (c / 4), (ERG.STATE.nth (c % 4)).off)]) u := by
  obtain ⟨dir, dram, hheld⟩ := s.modDir_eq j.start j.stop (dirSetHeld true)
  unfold State.jobLent
  rw [hheld]
  generalize hv : State.setRunning c (some j) { s with mir := { s.mir with dir := dir }, dram := dram } = v
  have hframe : s.RegsKept (regsAt [(Pg.ERG (c / 4), (ERG.STATE.nth (c % 4)).off)]) v := by
    rw [← hv]
    exact fun _ _ _ _ => rfl
  have hkept := State.regsKept_setEst hframe (c := c) ES.LENT (regsAt_of_mem (List.mem_singleton.mpr rfl))
  have hest : (v.setEst c ES.LENT).est c = ES.LENT := (State.est_setEst v c c (by decide)).trans (if_pos rfl)
  have hmir := State.setEst_mir v c ES.LENT
  generalize v.setEst c ES.LENT = w at hkept hest hmir ⊢
  obtain ⟨oas, hasked⟩ := w.askBlock_eq c j t
  rw [hasked]
  refine ⟨?_, ?_, ?_, State.regsKept_settle (State.regsKept_of_regs hkept rfl)⟩
  · rw [State.est_settle _ hc]
    exact (State.est_congr (s := w) rfl c).trans hest
  · rw [State.runningJob, State.settle_mir, hmir, ← hv]
    exact State.runningJob_setRunning _ c (some j)
  · rw [State.settle_mir, hmir, ← hv]
    rfl

end

/-! ### What a lost job shows (R185, R191, R196) -/

/-- What RING_LOST records of a job and its cause. -/
def State.lossShown (j : RJob) (cause : Nat) (s : State) : State :=
  ((((((s.event Pg.MIR MIR.EV_RING_LOST).count Pg.MIR MIR.RING_LOST_CNT).put Pg.MIR MIR.LAST_LOST_ENGINE j.eng).put Pg.MIR
    MIR.LAST_LOST_KIND j.kind).put Pg.MIR MIR.LAST_LOST_CAUSE cause).put Pg.MIR MIR.LOST_TIME_LO j.start).put Pg.MIR
      MIR.LOST_TIME_HI (j.start / 2 ^ 32)

/-- A field of page MIR in which the end of a diagnostic order does not show. -/
abbrev Fld.BesideDiagEnd (f : Fld) : Prop :=
  MIR.DIAG_STATE.off ≠ f.off ∧ (CMN.EVENTS ≠ f.off ∨ (f.off = CMN.EVENTS ∧ f.w = 1 ∧ f.lsb ≠ MIR.EV_DIAG_DONE.lsb))

section
variable (s : State) (j : RJob) (cause : Nat)

theorem State.ringLost_eq : s.ringLost j cause = onlyIf (decide (j.kind = RK.DIAG)) (State.diagEnd 2) (s.lossShown j cause) := rfl

/-- The end of a diagnostic order shows in DIAG_STATE, RESULT and its own event. -/
theorem State.get_diagEnd_beside (r : Nat) {f : Fld} (h : f.BesideDiagEnd) : (s.diagEnd r).get Pg.MIR f = s.get Pg.MIR f := by
  obtain ⟨hstate, hevents⟩ := h
  have hputs : ((s.put Pg.MIR MIR.DIAG_STATE 3).put Pg.MIR MIR.RESULT r).get Pg.MIR f = s.get Pg.MIR f := by
    rw [State.get_put_other _ (f := MIR.RESULT) _ (addrOf_ne hstate), State.get_put_other _ _ (addrOf_ne hstate)]
  refine Eq.trans ?_ hputs
  rcases hevents with hother | ⟨hoff, hw, hbit⟩
  · exact State.get_event_beside _ _ _ _ hother
  · exact State.get_event_otherBit _ ⟨hoff, hw, by decide, hbit⟩

theorem State.get_ringLost {f : Fld} (h : f.BesideDiagEnd) :
    (s.ringLost j cause).get Pg.MIR f = (s.lossShown j cause).get Pg.MIR f := by
  rw [State.ringLost_eq]
  unfold onlyIf
  split
  · exact State.get_diagEnd_beside _ _ h
  · rfl

theorem State.lossShown_records : (s.lossShown j cause).get Pg.MIR MIR.EV_RING_LOST = 1 ∧
    (s.lossShown j cause).get Pg.MIR MIR.RING_LOST_CNT = ((s.event Pg.MIR MIR.EV_RING_LOST).count Pg.MIR MIR.RING_LOST_CNT).get
      Pg.MIR MIR.RING_LOST_CNT ∧
    (s.lossShown j cause).get Pg.MIR MIR.LAST_LOST_ENGINE = j.eng % 256 ∧
    (s.lossShown j cause).get Pg.MIR MIR.LAST_LOST_KIND = j.kind % 8 ∧
    (s.lossShown j cause).get Pg.MIR MIR.LAST_LOST_CAUSE = cause % 4 := by
  refine ⟨?_, ?_, ?_, ?_, ?_⟩
  · simp (disch := decide) only [State.lossShown, State.get_put_beside, State.get_count_beside, State.get_event_set]
  · simp (disch := decide) only [State.lossShown, State.get_put_beside]
  · simp (disch := decide) only [State.lossShown, State.get_put_beside, State.get_put_same]
    rfl
  · simp (disch := decide) only [State.lossShown, State.get_put_beside, State.get_put_same]
    rfl
  · simp (disch := decide) only [State.lossShown, State.get_put_beside, State.get_put_same]
    rfl

theorem State.regsOnly_ringLost : s.RegsOnly (onPages [Pg.MIR]) (s.ringLost j cause) := by
  have hon : ∀ {off : Nat}, off < 4096 → onPages [Pg.MIR] (addrOf Pg.MIR off) := fun h =>
    (onPages_addrOf h).mpr (List.mem_singleton.mpr rfl)
  have hshown : s.RegsOnly (onPages [Pg.MIR]) (s.lossShown j cause) :=
    State.regsOnly_put _ (State.regsOnly_put _ (State.regsOnly_put _ (State.regsOnly_put _ (State.regsOnly_put _
      (State.regsOnly_count (State.regsOnly_event (State.regsOnly_refl _ s) (hon (by decide))) (hon (by decide)))
      (hon (by decide))) (hon (by decide))) (hon (by decide))) (hon (by decide))) (hon (by decide))
  exact State.regsOnly_onlyIf _ hshown (State.regsOnly_event (State.regsOnly_put _ (State.regsOnly_put _ hshown
    (hon (by decide))) (hon (by decide))) (hon (by decide)))

theorem State.regsOnly_jobLost : s.RegsOnly (onPages [Pg.MIR]) (s.jobLost j cause) := by
  unfold State.jobLost
  split
  · exact State.regsOnly_count (State.regsOnly_refl _ s) ((onPages_addrOf (by decide)).mpr (List.mem_singleton.mpr rfl))
  · exact s.regsOnly_ringLost j cause

variable {j cause}

theorem State.jobLost_of_repeat (h : j.kind = RK.REPEAT) : s.Counted Pg.MIR MIR.COPY_MISSING_CNT (s.jobLost j cause).settle := by
  rw [State.jobLost, if_pos h]
  exact State.counted_settle (u := s) (by decide) (by decide) rfl rfl rfl

theorem State.jobLost_of_other (h : j.kind ≠ RK.REPEAT) (hcause : cause < 2) : let u := (s.jobLost j cause).settle
    u.get Pg.MIR MIR.EV_RING_LOST = 1 ∧ s.Counted Pg.MIR MIR.RING_LOST_CNT u ∧
      u.get Pg.MIR MIR.LAST_LOST_ENGINE = j.eng % 256 ∧ u.get Pg.MIR MIR.LAST_LOST_KIND = j.kind % 8 ∧
      u.get Pg.MIR MIR.LAST_LOST_CAUSE = cause := by
  obtain ⟨hevent, hcount, heng, hkind, hwhy⟩ := s.lossShown_records j cause
  have hget : ∀ {f : Fld}, f.off < 4096 → f.BesideDiagEnd →
      (s.ringLost j cause).settle.get Pg.MIR f = (s.lossShown j cause).get Pg.MIR f := fun hoff hf =>
    (State.get_settle_beside _ (by decide) hoff).trans (s.get_ringLost j cause hf)
  rw [State.jobLost, if_neg h]
  refine ⟨?_, ?_, ?_, ?_, ?_⟩
  · rw [hget (by decide) (by decide), hevent]
  · exact State.counted_settle (u := s.event Pg.MIR MIR.EV_RING_LOST) (by decide) (by decide)
      ((s.get_ringLost j cause (by decide)).trans hcount) (State.get_event_beside _ _ _ _ (by decide))
      (State.get_event_beside _ _ _ _ (by decide))
  · rw [hget (by decide) (by decide), heng]
  · rw [hget (by decide) (by decide), hkind]
  · rw [hget (by decide) (by decide), hwhy]
    omega

end

/-- What RegsOnly leaves of Mirage. -/
theorem State.RegsOnly.mir {touched : Nat → Prop} {s t : State} (h : s.RegsOnly touched t) : t.mir = s.mir := by
  obtain ⟨-, regs, msi, act, flt, total, since, rfl⟩ := h
  rfl

/-! ### An engine that comes back from Mirage (R133, R141, R149) -/

/-- What an engine comes back to depends on its own page, on the page and the power of its port, and on page CAV. -/
theorem State.EngineFree.congr {s u : State} {c : Nat} (h : s.EngineFree c) (hc : c < 256)
    (hkept : s.RegsKept (onPages [Pg.OAS, Pg.MIR]) u) (herg : u.erg = s.erg) : u.EngineFree c := by
  obtain ⟨hlive, hsamples, harmed, hpark⟩ := h
  have hget : ∀ {pg : Nat} {f : Fld}, pg ∉ [Pg.GLB, Pg.HIF, Pg.OAS, Pg.MIR] → f.off < 4096 → u.get pg f = s.get pg f := by
    intro pg f hpg hf
    simp only [List.mem_cons, List.not_mem_nil, or_false, not_or] at hpg
    obtain ⟨hglb, hhif, hoas, hmir⟩ := hpg
    exact State.get_of_kept hkept (by simp [onPages_addrOf hf, hoas, hmir]) ⟨hglb, hhif⟩ hf
  have hpage : Pg.ERG (c / 4) ∉ [Pg.GLB, Pg.HIF, Pg.OAS, Pg.MIR] := by
    unfold Pg.ERG Pg.GLB Pg.HIF Pg.OAS Pg.MIR
    simp only [List.mem_cons, List.not_mem_nil, or_false, not_or]
    omega
  have hrole : u.eget c ERG.ROLE = s.eget c ERG.ROLE := hget hpage (by show 0x010 + 48 * (c % 4) < 4096; omega)
  have hport : u.eget c ERG.PORT = s.eget c ERG.PORT := hget hpage (by show 0x010 + 48 * (c % 4) < 4096; omega)
  have hportLt : s.eget c ERG.PORT < 16 := Fld.of_lt (ERG.PORT.nth (c % 4)) _
  have hlpt : Pg.LPT (s.eget c ERG.PORT) ∉ [Pg.GLB, Pg.HIF, Pg.OAS, Pg.MIR] := by
    unfold Pg.LPT Pg.GLB Pg.HIF Pg.OAS Pg.MIR
    simp only [List.mem_cons, List.not_mem_nil, or_false, not_or]
    omega
  refine ⟨?_, ?_, ?_, ?_⟩
  · rw [State.isLive, hrole]
    exact hlive
  · rw [hport, State.portSamples_congr (fun f hf => hget (by decide) hf) (hget hlpt (by decide))
      (hget (by decide) (pwdState_off (by omega)))]
    exact hsamples
  · rw [State.flag, hget hpage (by decide)]
    exact harmed
  · rw [State.eng, herg]
    exact hpark

section
variable {s : State} {c : Nat}

theorem State.EngMoved.armLate {pgs : List Nat} {u : State} (h : s.EngMoved pgs u) (t : Nat) : s.EngMoved pgs (u.armLate c t) := by
  unfold State.armLate
  split
  · exact h
  · exact (h.withMac _).setEng c _

/-- A window that takes an engine does not move it. -/
theorem State.armLate_regs (t : Nat) : (s.armLate c t).regs = s.regs := by
  unfold State.armLate
  split
  · rfl
  · rfl

theorem State.EngineFree.roleState (h : s.EngineFree c) : s.roleState c = ES.HUNT := by
  obtain ⟨hlive, hsamples, -, -⟩ := h
  unfold State.roleState
  rw [of_decide_eq_true hlive]
  exact if_pos hsamples

/-- What an engine keeps beyond its frame: the window that it is armed for, and a parking that is due. -/
def Eng.beyondFrame (e : Eng) : Eng := { Eng.idle with armed := e.armed, parkDue := e.parkDue }

/-- Engine c in HUNT with nothing in hand. -/
def State.hunting (c : Nat) (s : State) : State :=
  let u := (s.setEng c (s.eng c).beyondFrame).setEst c ES.HUNT
  u.setEng c { u.eng c with parkDue := none }

theorem State.engMoved_hunting (s : State) (c : Nat) : s.EngMoved [Pg.ERG (c / 4)] (s.hunting c) :=
  (((s.engMoved_refl _).setEng _ _).setEst (List.mem_singleton.mpr rfl) _).setEng _ _

theorem State.est_hunting (s : State) (c : Nat) : (s.hunting c).est c = ES.HUNT := by
  unfold State.hunting
  dsimp only
  rw [State.est_setEng]
  exact (State.est_setEst _ c c (by decide)).trans (if_pos rfl)

/-- A free engine goes back to HUNT, and a window that waits for an engine may take it (R207). -/
theorem State.toHunt_of_free (h : s.EngineFree c) (t : Nat) :
    s.toHunt c t = s.hunting c ∨ s.toHunt c t = (s.hunting c).armLate c t := by
  obtain ⟨-, -, harmed, hpark⟩ := id h
  have hrole : (s.setEng c (s.eng c).beyondFrame).roleState c = ES.HUNT :=
    h.roleState
  have hunarmed : ((s.setEng c (s.eng c).beyondFrame).setEst c ES.HUNT).flag
      (Pg.ERG (c / 4)) CFG.ARMED = false := by
    rw [State.flag, (((s.engMoved_refl [Pg.ERG (c / 4)]).setEng c _).setEst (List.mem_singleton.mpr rfl) ES.HUNT).get (by decide)
      (by unfold Pg.ERG Pg.GLB Pg.HIF; omega)]
    exact harmed
  unfold Eng.beyondFrame at hrole hunarmed
  unfold State.toHunt
  dsimp only
  rw [hrole, State.ergTake_of_unarmed hunarmed, if_neg (by rw [hpark]; exact fun hdue => Bool.false_ne_true hdue.1)]
  split
  · exact .inr rfl
  · exact .inl rfl

theorem State.toHunt_shows (h : s.EngineFree c) (t : Nat) :
    (s.toHunt c t).est c = ES.HUNT ∧ s.EngMoved [Pg.ERG (c / 4)] (s.toHunt c t) := by
  rcases State.toHunt_of_free h t with hback | hback
  · rw [hback]
    exact ⟨s.est_hunting c, s.engMoved_hunting c⟩
  · rw [hback]
    exact ⟨(State.est_congr (State.armLate_regs t) c).trans (s.est_hunting c), (s.engMoved_hunting c).armLate t⟩

/-- An engine whose watch has detected nothing comes back from Mirage to HUNT. -/
theorem State.engineReturn_unwatched (hwatch : (s.eng c).watchPre = none) (t : Nat) :
    s.engineReturn c t false = (s.setRunning c none).toHunt c t := by
  unfold State.engineReturn
  dsimp only
  rw [hwatch]
  rfl

end

/-! ### The last block of a job that found nothing (R180, R185) -/

theorem State.endJob_mir (s : State) (k : JobKind) : (s.endJob k).mir = s.mir := by
  obtain ⟨oas, h⟩ := s.endJobs_eq fun j => decide (j.kind = k)
  rw [State.endJob, h, State.showCredit, State.put_mir, State.put_mir, State.put_mir]

theorem State.endJob_erg (s : State) (k : JobKind) : (s.endJob k).erg = s.erg := by
  obtain ⟨oas, h⟩ := s.endJobs_eq fun j => decide (j.kind = k)
  rw [State.endJob, h, State.showCredit, State.put_erg, State.put_erg, State.put_erg]

theorem State.blockUes_nil (s : State) : s.blockUes [] = (false, s) := rfl

theorem State.level_endJob (s : State) (k : JobKind) : (s.endJob k).level = s.level := by
  rw [State.endJob, State.endJobs, State.showCredit, State.level, State.put_oas, State.put_oas, State.put_oas, State.level]

theorem State.speedNow_endJob (s : State) (k : JobKind) (j : RJob) : (s.endJob k).speedNow j = s.speedNow j := by
  have hsprint : (s.endJob k).flag Pg.OAS OAS.SPRINT = s.flag Pg.OAS OAS.SPRINT := by
    obtain ⟨oas, he⟩ := s.endJobs_eq fun j => decide (j.kind = k)
    rw [State.endJob, he, State.showCredit, State.flag]
    simp (disch := decide) only [State.get_put_beside]
    rfl
  rw [State.speedNow, State.level_endJob, hsprint, State.speedNow]

section
variable {s : State} {t : Nat} {eng : Fin 256} {j : RJob} (hrun : s.runningJob eng.val = some j) (hkind : j.kind = RK.REPEAT)
  (hending : j.ending = false) (hlast : j.stop ≤ j.doneTo + s.speedNow j * 2048) (hcredit : s.jobRunning (.replay eng.val) = true)
  (hlent : s.est eng.val = ES.LENT) (hlevel : s.level < 2) (harmed : s.flag Pg.MIR CFG.ARMED = false)
include hrun hkind hending hlast hcredit hlent hlevel harmed

omit hrun hkind hending hlast hcredit hlent hlevel harmed in
theorem State.jobDone_missing (hkind : j.kind = RK.REPEAT) (hending : j.ending = false) (v : State) :
    v.jobDone { j with doneTo := j.stop } false = v.count Pg.MIR MIR.COPY_MISSING_CNT := by
  unfold State.jobDone
  dsimp only
  rw [hkind, hending]
  rfl

/-- A REPEAT job that has gone through its window without its copy ends. -/
theorem State.blockBoundary_missing : s.blockBoundary t eng.val [] [] [] =
    ((s.endJob (.replay eng.val)).count Pg.MIR MIR.COPY_MISSING_CNT).jobEnds eng.val t { j with doneTo := j.stop } false := by
  have hspeed := s.speedNow_endJob (.replay eng.val) j
  have hbelow := s.level_endJob (.replay eng.val)
  have hjob : (s.endJob (.replay eng.val)).runningJob eng.val = some j := by
    rw [State.runningJob, State.endJob_mir]
    exact hrun
  have hstill : (s.endJob (.replay eng.val)).safeAll Pg.MIR = s.endJob (.replay eng.val) :=
    State.safeAll_of_unarmed (by rw [State.flag, State.get_endJob_otherPage _ _ (by decide)]; exact harmed)
  have haway : (s.endJob (.replay eng.val)).est eng.val = ES.LENT := by
    refine (State.get_endJob_otherPage _ _ ⟨?_, ?_⟩).trans hlent
    · unfold Pg.OAS Pg.ERG; omega
    · have := estate_off eng.val; omega
  unfold State.blockBoundary
  rw [hrun]
  dsimp only
  rw [State.blockUes_nil]
  dsimp only
  rw [hcredit]
  generalize s.endJob (.replay eng.val) = v at hspeed hbelow hjob hstill haway ⊢
  have hdone : Nat.min j.stop (j.doneTo + v.speedNow j * 2048) = j.stop := Nat.min_eq_left (hspeed.symm ▸ hlast)
  have hfinds : (if true = true then v.useFinds eng.val t j [] else (false, v)) = (false, v) := rfl
  have hnodiag : ∀ p q : RJob × State, (if true = true ∧ j.kind = RK.DIAG then p else q) = q := fun p q =>
    if_neg (by rw [hkind]; decide)
  have hstays : (decide (v.est eng.val = ES.RECALL) || decide (2 ≤ v.level)) = false := by
    rw [haway, hbelow, decide_eq_false (by decide : ES.LENT ≠ ES.RECALL), decide_eq_false (by omega : ¬2 ≤ s.level)]
    rfl
  rw [hfinds, if_pos rfl, hdone]
  dsimp only
  rw [hnodiag]
  dsimp only
  rw [hjob, hstill, hstays, if_neg Bool.false_ne_true, if_pos (.inr (.inr rfl))]
  exact congrArg (State.jobEnds _ _ _ _) (State.jobDone_missing hkind hending v)

end

/-- What the end of a job leaves for its engine's return: the engine has no job, and its job's slabs are no longer held for it. -/
theorem State.jobEnds_eq (v : State) (c t : Nat) (j : RJob) : ∃ mir dram, mir.running = Tab.set (fun _ => none) v.mir.running c none ∧
    v.jobEnds c t j false = State.engineReturn c t false { v with mir := mir, dram := dram } := by
  obtain ⟨dir, dram, hheld⟩ := (v.setRunning c none).modDir_eq j.start j.stop fun e =>
    dirSetHeld ((v.setRunning c none).slabHeldBy (dirSlab e)) e
  refine ⟨{ (v.setRunning c none).mir with dir := dir }, dram, rfl, ?_⟩
  unfold State.jobEnds State.unhold
  rw [hheld]
  rfl

theorem State.endJob_counted_regsKept (s : State) (k : JobKind) :
    s.RegsKept (onPages [Pg.OAS, Pg.MIR]) ((s.endJob k).count Pg.MIR MIR.COPY_MISSING_CNT) := by
  have hoas : ∀ {off : Nat}, off < 4096 → onPages [Pg.OAS, Pg.MIR] (addrOf Pg.OAS off) := fun h =>
    (onPages_addrOf h).mpr List.mem_cons_self
  exact State.regsKept_count (State.regsKept_endJob s k (fun _ _ _ _ => rfl) (hoas (by decide)) (hoas (by decide)))
    ((onPages_addrOf (by decide)).mpr (List.mem_cons_of_mem _ List.mem_cons_self))

/-- The engine of a job that ends goes back to HUNT, without a job. -/
theorem jobEnds_frees {s v : State} {c t : Nat} {j : RJob} (hc : c < 256) (hfree : s.EngineFree c)
    (hwatch : (s.eng c).watchPre = none) (hkept : s.RegsKept (onPages [Pg.OAS, Pg.MIR]) v) (herg : v.erg = s.erg) :
    (v.jobEnds c t j false).est c = ES.HUNT ∧ (v.jobEnds c t j false).runningJob c = none ∧
      ∀ f : Fld, f.off < 4096 → (v.jobEnds c t j false).get Pg.MIR f = v.get Pg.MIR f := by
  obtain ⟨mir, dram, hrunning, hends⟩ := v.jobEnds_eq c t j
  have hunwatched : (State.eng { v with mir := mir, dram := dram } c).watchPre = none := by
    rw [State.eng, herg]
    exact hwatch
  rw [hends, State.engineReturn_unwatched hunwatched]
  obtain ⟨hest, hmoved⟩ := State.toHunt_shows (s := State.setRunning c none { v with mir := mir, dram := dram })
    (hfree.congr hc (State.regsKept_of_regs hkept rfl) herg) t
  refine ⟨hest, ?_, fun f hf => ?_⟩
  · rw [hmoved.runningJob]
    exact State.runningJob_setRunning _ c none
  · refine (State.get_of_kept hmoved.kept (fun ht => ?_) (by decide) hf).trans (State.get_congr rfl _ _)
    have hpage := List.mem_singleton.mp ((onPages_addrOf hf).mp ht.1)
    unfold Pg.MIR Pg.ERG at hpage
    omega

/-- Settles O29: a job starts or ends as lost by what its window holds, and at the last block of a REPEAT job that found nothing the
engine goes back to HUNT. -/
theorem replayJobsRunOnLentEngines : Obligations.ReplayJobsRunOnLentEngines := by
  unfold Obligations.ReplayJobsRunOnLentEngines
  intro s tick eng j pg hpg hdom
  subst hpg
  refine ⟨fun hlevel hlend hnext hkind hgone => ?_, fun cause hlevel hlend hnext hgone => ?_,
    fun hrun hkind hending hlast hcredit hlent hlevel harmed hfree hwatch => ?_, fun hrun => ?_⟩
  · obtain ⟨-, hstart, hstop, hport, hsync, hdone⟩ := ((s.atTick tick).unqueue j).startedJob_keeps j
    obtain ⟨hest, hrunning, hjobs, hkept⟩ := ((s.atTick tick).unqueue j).jobLent_shows tick
      (((s.atTick tick).unqueue j).startedJob j) eng.isLt
    refine ⟨_, congrArg finish (State.replayStart_of_recorded (s := s.atTick tick) hdom hlevel hlend hnext hkind hgone), hest,
      ⟨_, hrunning, hstart, hstop, hport, hsync, hdone⟩, ?_, hkept⟩
    rw [hjobs]
    exact State.not_mem_unqueue _ j
  · have hframe := State.regsOnly_settle (((s.atTick tick).unqueue j).regsOnly_jobLost j cause)
    refine ⟨_, congrArg finish (State.replayStart_of_gone (s := s.atTick tick) hdom hlevel hlend hnext hgone), ?_, ?_,
      fun hkind => ?_, fun hkind => ?_, ?_⟩
    · have hoff := estate_off eng.val
      refine (State.get_of_kept hframe.1 (fun ht => ?_) ?_ (by omega)).trans (State.get_congr rfl _ _)
      · have hpage := List.mem_singleton.mp ((onPages_addrOf (by omega)).mp ht)
        unfold Pg.MIR Pg.ERG at hpage
        omega
      · unfold Pg.ERG Pg.GLB Pg.HIF
        omega
    · rw [hframe.mir]
      rfl
    · exact State.jobLost_of_repeat ((s.atTick tick).unqueue j) hkind
    · exact State.jobLost_of_other ((s.atTick tick).unqueue j) hkind (State.jobGone_lt hgone)
    · rw [hframe.mir]
      exact hframe
  · obtain ⟨hest, hnone, hmir⟩ := jobEnds_frees (s := s.atTick tick) (t := tick) (j := { j with doneTo := j.stop }) eng.isLt hfree
      hwatch ((s.atTick tick).endJob_counted_regsKept (.replay eng.val))
      (by rw [State.count_erg, State.endJob_erg])
    refine ⟨_, congrArg finish (State.blockBoundary_missing (s := s.atTick tick) hrun hkind hending hlast hcredit hlent hlevel harmed),
      ?_, ?_, ?_⟩
    · rw [State.est_settle _ eng.isLt, hest]
    · rw [State.runningJob, State.settle_mir]
      exact hnone
    · exact State.counted_settle (by decide) (by decide) (hmir _ (by decide))
        (State.get_endJob_otherPage _ _ (by decide)) (State.get_endJob_otherPage _ _ (by decide))
  · have hidle : (s.atTick tick).blockBoundary tick eng.val [] [] [] = s.atTick tick := by
      unfold State.blockBoundary
      rw [show (s.atTick tick).runningJob eng.val = none from hrun]
    exact ⟨_, congrArg finish hidle, State.regsOnly_settle (State.regsOnly_refl _ _)⟩

end Sys2Proof.Machine
